-- ==== Sys2Proof/Word.lean ====
section
/-! DEFINITION. The word types of the ORO-2400: 64-bit general words, bytes, and the 32-bit instruction words (R124, R154). -/

namespace Sys2Proof

/-- A general register, an address or a system register (R154). -/
abbrev Word := BitVec 64

/-- One byte of memory (R2). -/
abbrev Byte := BitVec 8

end Sys2Proof
end

