-- ==== Sys2Proof/Config.lean ====
section
/-! DEFINITION. What one module fixes and the specification leaves open: uninterpreted constants, with no value that a
proof could use (log 4). -/

namespace Sys2Proof.Config

/-- The free values: the value that the specification leaves open at the n-th place where the model needs one (R6, R9,
log 4). State.fresh counts the places. -/
opaque freeNat : Nat → Nat

/-- The device identifier of R573. -/
opaque deviceId : Nat

/-- The signature that the identity key makes over a report, as a number (R573). -/
opaque signature : List Nat → Nat

end Sys2Proof.Config
end

