-- ==== Sys2Proof/Syntax.lean ====
section
/-! DEFINITION. The instructions and the events of the ORO-2400 as syntax: one constructor of Instr for each row
of spec/opcode_table.json (R135-R144 for the encoded rows; spec/95 lists what each event row holds), and the plain
data that events from outside the cores carry. -/

namespace Sys2Proof

/-- A communicator table entry (R412). -/
structure CommEntry where
  mrank : Nat
  nmod : Nat
  ctxid : Nat
  group : Nat
  prio : Nat
  part : Nat
  valid : Bool
  deriving DecidableEq, Repr

/-- One copy of a queue control block (R379). -/
structure QueueBlock where
  ctxid : Nat
  cbase : Nat
  rbase : Nat
  hshadow : Nat
  logn : Nat
  part : Nat
  en : Bool
  deriving DecidableEq, Repr

/-- What a dead link takes with it (R298): an access, message, request, delivery or combine command by its number; the row, packet,
chunk or receiver of an engine operation; the row of a gang member of the tile instruction in progress on a core; an access of a
host packet; the slot read of a host queue; the next ring write of an ingress queue; or the fetch of the word at a core's pc. -/
inductive InFlight where
  | item (n : Nat)
  | row (op i : Nat)
  | tileRow (c member : Nat)
  | packet (q n : Nat)
  | slot (q : Nat)
  | ingress (iq : Nat)
  | fetch (c : Nat)
  deriving DecidableEq, Repr

/-- A classifier entry (R393). -/
structure ClassEntry where
  valid : Bool
  ports : BitVec 8
  etype : BitVec 16
  etm : Bool
  vid : BitVec 12
  vm : Bool
  dmac : BitVec 48
  dm : Bool
  queue : Nat
  deriving DecidableEq, Repr

/-- How an ingress queue keeps its frames (R394). -/
inductive IngressMode where
  | ring
  | tuple
  deriving DecidableEq, Repr

/-- An ingress queue descriptor (R394, with UENTRY and ULTAG of R56). -/
structure IngressDesc where
  mode : IngressMode
  part : Nat
  ctxid : Nat
  base : Nat
  logn : Nat
  slotBytes : Nat
  cons : Nat
  urgent : Option Nat
  uentry : Nat
  ultag : Nat
  key0 : BitVec 32
  key1 : BitVec 32
  deriving DecidableEq, Repr

/-- A block that runs measured firmware (R570, R572). -/
inductive FwBlock where
  | foreman (die : Nat)
  | frontEnd
  | stackEngine (stack : Nat)
  deriving DecidableEq, Repr

/-- A firmware image header (R570). DIGESTOK and SIGOK stand for the two cryptographic checks of R571 over the
image bytes, whose outcome is an input of the model. -/
structure Image where
  magic : BitVec 32
  target : Nat
  svn : Nat
  len : Nat
  digest : BitVec 384
  digestOk : Bool
  sigOk : Bool
  deriving DecidableEq, Repr

/-- An image that the Banksman finds in flash, and the block it is for (R570). -/
structure FlashImage where
  blk : FwBlock
  img : Image
  deriving DecidableEq, Repr

/-- A logical cluster of a partition and the physical die it is bound to at a restore (R507, R554). -/
structure ClusterBind where
  cluster : Nat
  pdie : Nat
  deriving DecidableEq, Repr

/-- A host queue, and the connection over which its doorbell is rung (R337, R381). -/
structure QueueBell where
  conn : Nat
  queue : Nat
  deriving DecidableEq, Repr

/-- A packet in flight, and the router where it stands (R404). -/
structure StuckPacket where
  router : Nat
  packet : Nat
  deriving DecidableEq, Repr

/-- Where an uncorrectable error is consumed (R562). -/
inductive ErrorPlace where
  | core (c : Nat)
  | sector (sector : Nat)
  | cached (sector : Nat)
  deriving DecidableEq, Repr

/-- A block that latches snapshot registers (R581). -/
inductive SnapBlock where
  | core (c : Nat)
  | interface (c : Nat)
  | home (h : Nat)
  | slice (i : Nat)
  | frontEnd
  | pool (die : Nat)
  deriving DecidableEq, Repr

/-- The event counters of R536, with the core, home, slice, port or queue that holds them. -/
inductive Counter where
  | staleMessages (c : Nat)
  | refusedStores (c : Nat)
  | lateStores (c : Nat)
  | staleXfree (c : Nat)
  | staleCloses (c : Nat)
  | lateRows (c : Nat)
  | redeposits (h : Nat)
  | staleConts (h : Nat)
  | overflows (h : Nat)
  | forwards (h : Nat)
  | waidricDrops (h : Nat)
  | noslot (i : Nat)
  | lateCmb (i : Nat)
  | duplicates (i : Nat)
  | strays (i : Nat)
  | releaseFails (i : Nat)
  | escapes (router : Nat)
  | parks (port : Nat)
  | refusals (port : Nat)
  | returned (port : Nat)
  | doorbells
  | portDrops (p : Nat)
  | queueDrops (q : Nat)
  | urgentDrops
  | classOverflow (eng : Nat)
  deriving DecidableEq, Repr

/-- What a FIRMWARE_TABLE_WRITE writes: the tables and registers that firmware sets and that have no behaviour of
their own, and the tables that they keep in module memory, and the clearing of an event counter (R32, R56, R375, R393, R394, R459, R463, R510, R514, R535, R536, R572).
`domain` names the homes of other modules that are absent. -/
inductive FwWrite where
  | partition (p ctxid : Nat) (clusters : List Nat)
  | classifier (i : Nat) (e : ClassEntry)
  | ingress (iq : Nat) (d : IngressDesc)
  | ctxBase (station base : Nat)
  | winBase (station base : Nat)
  | svbase (c : Nat) (v : Word)
  | domain (modules localMod : Nat) (absent : List Nat)
  | releaseCores (die : Nat)
  | memory (pa : Nat) (bytes : List Byte)
  | clearCounter (k : Counter)
  deriving DecidableEq, Repr

/-- The instructions and events of spec/opcode_table.json, one constructor per row. -/
inductive Instr where
  /-- SYSR: Reads a system register by number into gd, waiting for the tile stream to go idle when the register is %xstep or %rseed (R243). -/
  | sysr (d : BitVec 5) (p : BitVec 12)
  /-- SYSW: Writes g[a] into a system register field by field according to each field's access code (R243). -/
  | sysw (a : BitVec 5) (p : BitVec 12)
  /-- TRAP: Raises the TRAP cause with PARAM set to the code and %epc set to the next unit (R244). -/
  | trap (p : BitVec 12)
  /-- ERET: Restores the mode from PSUP, resumes the control stream at %epc and resumes any stopped tile instruction from %xstep (R245). -/
  | eret
  /-- WFE: Waits until a selected wake event is latched in %tstat.EVT, then clears the selected bits (R246). -/
  | wfe (m : BitVec 4)
  /-- IFLUSH: Waits until the task's earlier stores to virtual memory are performed, then invalidates the instruction cache (R247). -/
  | iflush
  /-- HALT: Stops the core in supervisor mode and reports to its Foreman (R248). -/
  | halt
  /-- SNAP: Sends a snapshot marker with the given tag and latches the core's own snapshot registers (R248). -/
  | snap (p : BitVec 12)
  /-- LEAVE: Reserves leave units from the partition's share of the die pool, or returns the reservation when the amount is zero (R249). -/
  | leave (d : BitVec 5) (a : BitVec 5)
  /-- ADD: Adds two registers modulo 2^64 (R163). -/
  | add (d : BitVec 5) (a : BitVec 5) (b : BitVec 5)
  /-- SUB: Subtracts two registers modulo 2^64 (R163). -/
  | sub (d : BitVec 5) (a : BitVec 5) (b : BitVec 5)
  /-- AND: Bitwise AND of two registers (R163). -/
  | and (d : BitVec 5) (a : BitVec 5) (b : BitVec 5)
  /-- OR: Bitwise OR of two registers (R163). -/
  | or (d : BitVec 5) (a : BitVec 5) (b : BitVec 5)
  /-- XOR: Bitwise XOR of two registers (R163). -/
  | xor (d : BitVec 5) (a : BitVec 5) (b : BitVec 5)
  /-- ANDN: AND of a with the complement of b (R163). -/
  | andn (d : BitVec 5) (a : BitVec 5) (b : BitVec 5)
  /-- ORN: OR of a with the complement of b (R163). -/
  | orn (d : BitVec 5) (a : BitVec 5) (b : BitVec 5)
  /-- SLL: Logical left shift by b mod 64 (R163). -/
  | sll (d : BitVec 5) (a : BitVec 5) (b : BitVec 5)
  /-- SRL: Logical right shift by b mod 64 (R163). -/
  | srl (d : BitVec 5) (a : BitVec 5) (b : BitVec 5)
  /-- SRA: Arithmetic right shift by b mod 64 (R163). -/
  | sra (d : BitVec 5) (a : BitVec 5) (b : BitVec 5)
  /-- SLT: Sets d to 1 when a is less than b as signed values (R163). -/
  | slt (d : BitVec 5) (a : BitVec 5) (b : BitVec 5)
  /-- SLTU: Sets d to 1 when a is less than b as unsigned values (R163). -/
  | sltu (d : BitVec 5) (a : BitVec 5) (b : BitVec 5)
  /-- MIN: Signed minimum of two registers (R163). -/
  | min (d : BitVec 5) (a : BitVec 5) (b : BitVec 5)
  /-- MAX: Signed maximum of two registers (R163). -/
  | max (d : BitVec 5) (a : BitVec 5) (b : BitVec 5)
  /-- MINU: Unsigned minimum of two registers (R163). -/
  | minu (d : BitVec 5) (a : BitVec 5) (b : BitVec 5)
  /-- MAXU: Unsigned maximum of two registers (R163). -/
  | maxu (d : BitVec 5) (a : BitVec 5) (b : BitVec 5)
  /-- LEA: Computes a + b*2^s modulo 2^64 (R163). -/
  | lea (d : BitVec 5) (a : BitVec 5) (b : BitVec 5) (s : BitVec 2)
  /-- ADDI: Adds the sign-extended working immediate to a register (R164). -/
  | addi (d : BitVec 5) (a : BitVec 5) (k : BitVec 12)
  /-- ANDI: ANDs a register with the zero-extended working immediate (R164). -/
  | andi (d : BitVec 5) (a : BitVec 5) (k : BitVec 12)
  /-- ORI: ORs a register with the zero-extended working immediate (R164). -/
  | ori (d : BitVec 5) (a : BitVec 5) (k : BitVec 12)
  /-- XORI: XORs a register with the zero-extended working immediate (R164). -/
  | xori (d : BitVec 5) (a : BitVec 5) (k : BitVec 12)
  /-- SLLI: Logical left shift by an immediate amount (R164). -/
  | slli (d : BitVec 5) (a : BitVec 5) (k : BitVec 6)
  /-- SRLI: Logical right shift by an immediate amount (R164). -/
  | srli (d : BitVec 5) (a : BitVec 5) (k : BitVec 6)
  /-- SRAI: Arithmetic right shift by an immediate amount (R164). -/
  | srai (d : BitVec 5) (a : BitVec 5) (k : BitVec 6)
  /-- SLTI: Signed compare of a register with the immediate (R164). -/
  | slti (d : BitVec 5) (a : BitVec 5) (k : BitVec 12)
  /-- SLTIU: Unsigned compare of a register with the sign-extended immediate (R164). -/
  | sltiu (d : BitVec 5) (a : BitVec 5) (k : BitVec 12)
  /-- LIH: Places the immediate in bits 63:36 above bits 35:0 of a (R164). -/
  | lih (d : BitVec 5) (a : BitVec 5) (k : BitVec 12)
  /-- MUL: Low 64 bits of the product of two registers (R166). -/
  | mul (d : BitVec 5) (a : BitVec 5) (b : BitVec 5)
  /-- MULH: High 64 bits of the signed product (R166). -/
  | mulh (d : BitVec 5) (a : BitVec 5) (b : BitVec 5)
  /-- MULHU: High 64 bits of the unsigned product (R166). -/
  | mulhu (d : BitVec 5) (a : BitVec 5) (b : BitVec 5)
  /-- DIV: Signed division without trapping, under div_s (R166). -/
  | div (d : BitVec 5) (a : BitVec 5) (b : BitVec 5)
  /-- DIVU: Unsigned division without trapping, under div_u (R166). -/
  | divu (d : BitVec 5) (a : BitVec 5) (b : BitVec 5)
  /-- REM: Signed remainder under rem_s (R166). -/
  | rem (d : BitVec 5) (a : BitVec 5) (b : BitVec 5)
  /-- REMU: Unsigned remainder under rem_u (R166). -/
  | remu (d : BitVec 5) (a : BitVec 5) (b : BitVec 5)
  /-- CLZ: Counts the leading zero bits of a (R167). -/
  | clz (d : BitVec 5) (a : BitVec 5)
  /-- CTZ: Counts the trailing zero bits of a (R167). -/
  | ctz (d : BitVec 5) (a : BitVec 5)
  /-- POPC: Counts the one bits of a (R167). -/
  | popc (d : BitVec 5) (a : BitVec 5)
  /-- BREV: Reverses the bit order of a (R167). -/
  | brev (d : BitVec 5) (a : BitVec 5)
  /-- BEXT: Extracts a bit field of a with the position and length taken from b (R167). -/
  | bext (d : BitVec 5) (a : BitVec 5) (b : BitVec 5)
  /-- BINS: Inserts a bit field from a into d, with the position and length taken from b (R167). -/
  | bins (d : BitVec 5) (a : BitVec 5) (b : BitVec 5)
  /-- QPUSH: Appends a register value, tagged with its branch generation, to q0-q3, waiting while the queue is full (R161). -/
  | qpush (a : BitVec 5) (n : BitVec 2)
  /-- QPOP: Removes the head of q4-q7 into gd, waiting while the queue is empty (R161). -/
  | qpop (d : BitVec 5) (n : BitVec 2)
  /-- QLEN: Writes the current length of a queue register to gd (R161). -/
  | qlen (d : BitVec 5) (n : BitVec 3)
  /-- BEQ: Branches when the two registers are equal (R168). -/
  | beq (a : BitVec 5) (b : BitVec 5) (o : BitVec 16)
  /-- BNE: Branches when the two registers differ (R168). -/
  | bne (a : BitVec 5) (b : BitVec 5) (o : BitVec 16)
  /-- BLT: Branches on a signed less-than (R168). -/
  | blt (a : BitVec 5) (b : BitVec 5) (o : BitVec 16)
  /-- BGE: Branches on a signed greater-or-equal (R168). -/
  | bge (a : BitVec 5) (b : BitVec 5) (o : BitVec 16)
  /-- BLTU: Branches on an unsigned less-than (R168). -/
  | bltu (a : BitVec 5) (b : BitVec 5) (o : BitVec 16)
  /-- BGEU: Branches on an unsigned greater-or-equal (R168). -/
  | bgeu (a : BitVec 5) (b : BitVec 5) (o : BitVec 16)
  /-- JAL: Writes pc+4 to g31 and jumps by a 26-bit word offset (R169). -/
  | jal (o : BitVec 26)
  /-- JALR: Jumps to a register plus an offset with bits 1:0 cleared, writing the link to d (R169). -/
  | jalr (d : BitVec 5) (a : BitVec 5) (o : BitVec 14)
  /-- LOOPNZ: Decrements a register and branches when the result is non-zero (R169). -/
  | loopnz (a : BitVec 5) (o : BitVec 14)
  /-- LD: Issues a load of 1, 2, 4 or 8 bytes from base plus offset; a failed access poisons gd in place of a trap (R265). -/
  | ld (d : BitVec 5) (a : BitVec 5) (m : BitVec 3) (o : BitVec 8)
  /-- ST: Stores 1, 2, 4 or 8 bytes, at once for the local scratchpad and posted otherwise (R266). -/
  | st (a : BitVec 5) (b : BitVec 5) (m : BitVec 3) (o : BitVec 8)
  /-- AMOADD: Atomic add at the home or target scratchpad, returning the old value (R267). -/
  | amoadd (d : BitVec 5) (a : BitVec 5) (b : BitVec 5) (s : BitVec 3) (z : BitVec 1) (o : BitVec 2)
  /-- AMOMIN: Atomic signed minimum, returning the old value (R267). -/
  | amomin (d : BitVec 5) (a : BitVec 5) (b : BitVec 5) (s : BitVec 3) (z : BitVec 1) (o : BitVec 2)
  /-- AMOMAX: Atomic signed maximum, returning the old value (R267). -/
  | amomax (d : BitVec 5) (a : BitVec 5) (b : BitVec 5) (s : BitVec 3) (z : BitVec 1) (o : BitVec 2)
  /-- AMOAND: Atomic AND, returning the old value (R267). -/
  | amoand (d : BitVec 5) (a : BitVec 5) (b : BitVec 5) (s : BitVec 3) (z : BitVec 1) (o : BitVec 2)
  /-- AMOOR: Atomic OR, returning the old value (R267). -/
  | amoor (d : BitVec 5) (a : BitVec 5) (b : BitVec 5) (s : BitVec 3) (z : BitVec 1) (o : BitVec 2)
  /-- AMOXOR: Atomic XOR, returning the old value (R267). -/
  | amoxor (d : BitVec 5) (a : BitVec 5) (b : BitVec 5) (s : BitVec 3) (z : BitVec 1) (o : BitVec 2)
  /-- AMOSWAP: Atomic swap, returning the old value (R267). -/
  | amoswap (d : BitVec 5) (a : BitVec 5) (b : BitVec 5) (s : BitVec 3) (z : BitVec 1) (o : BitVec 2)
  /-- CAS: Atomic compare-and-swap against the value in d, returning the old value (R267). -/
  | cas (d : BitVec 5) (a : BitVec 5) (b : BitVec 5) (s : BitVec 3) (z : BitVec 1) (o : BitVec 2)
  /-- FENCE: Starts a release or acquire fence at a scope; its status word arrives when the fence completes (R268). -/
  | fence (d : BitVec 5) (s : BitVec 3) (o : BitVec 2)
  /-- DRAIN: Waits until the activation's copies and multicasts to the selected spaces have ended (R270). -/
  | drain (m : BitVec 3)
  /-- SPAWN: Pushes a work record at the bottom of the deque, or sends a dual record to the distributor (R368). -/
  | spawn (d : BitVec 5) (a : BitVec 5) (b : BitVec 3) (p : BitVec 2) (c : BitVec 2) (u : BitVec 1)
  /-- CALLAT: Sends a work record to a target core's activation queue (R368). -/
  | callat (d : BitVec 5) (a : BitVec 5) (b : BitVec 3) (p : BitVec 2) (c : BitVec 2)
  /-- RETV: Sends a 64-bit return value to a task name's mailbox (R369). -/
  | retv (d : BitVec 5) (a : BitVec 5) (b : BitVec 5)
  /-- END: Ends the activation: frees the slot, retires the task or makes it dormant, returns leave and counts ENDED (R371). -/
  | endAct
  /-- MSEND: Sends a 256-bit message to a task name's mailbox (R369). -/
  | msend (d : BitVec 5) (a : BitVec 5) (b : BitVec 3)
  /-- MPOLL: Returns the oldest stored message for %tid, or EMPTY (R370). -/
  | mpoll (d : BitVec 5) (b : BitVec 3)
  /-- GANG: Waits to form a gang of 2, 4 or 8 aligned cores; a follower's GANG completes only at disband (R373). -/
  | gang (d : BitVec 5) (s : BitVec 2)
  /-- UNGANG: Waits for the members' earlier tile units, then disbands the gang (R374). -/
  | ungang
  /-- GSYNC: Waits for every member's earlier tile units without disbanding the gang (R374). -/
  | gsync (d : BitVec 5)
  /-- BARM_ARM: BARM with operand bit 63 clear arms a local barrier object with a new EXPECT, carrying the surplus over (R527). -/
  | barmArm (d : BitVec 5) (a : BitVec 5) (b : BitVec 5)
  /-- BARM_OPEN_ROUND: BARM with operand bits 63:62 = 0b10 reads a round descriptor and opens a round entry with an activation-queue reservation (R527). -/
  | barmOpenRound (d : BitVec 5) (a : BitVec 5) (b : BitVec 5)
  /-- BARM_WITHDRAW_ROUND: BARM with operand bits 63:62 = 0b11 frees a valid round entry without firing it (R527). -/
  | barmWithdrawRound (d : BitVec 5) (a : BitVec 5) (b : BitVec 5)
  /-- BARA: Adds bytes to a local or peer barrier object as a module-scope release (R528). -/
  | bara (d : BitVec 5) (a : BitVec 5) (b : BitVec 5)
  /-- BARW: Waits until a local barrier object is reached, then returns COUNT as an acquire (R529). -/
  | barw (d : BitVec 5) (a : BitVec 5)
  /-- CNTRD: Waits until a counter or the mailbox XFREE counter reaches a threshold, then returns its value as an acquire (R530). -/
  | cntrd (d : BitVec 5) (a : BitVec 5) (b : BitVec 5)
  /-- CNTADD: Performs an AMOADD.d.rel.mod on a counter and returns the old value (R531). -/
  | cntadd (d : BitVec 5) (a : BitVec 5) (b : BitVec 5)
  /-- RNDCLOSE: Sends a round close to a target core as a module-scope release (R532). -/
  | rndclose (d : BitVec 5) (a : BitVec 5) (b : BitVec 5)
  /-- TBIND: Binds a tile name to a base, shape, pitch and format, with full valid extent and zero fill (R195). -/
  | tbind (d : BitVec 4) (g : BitVec 5) (q : BitVec 1) (f : BitVec 4)
  /-- TSHAPE: Changes the rows and cols of a bound tile and resets its valid extent (R195). -/
  | tshape (d : BitVec 4) (g : BitVec 5) (q : BitVec 1)
  /-- TVALID: Sets the valid rows and cols of a tile, clamped to its shape (R195). -/
  | tvalid (d : BitVec 4) (g : BitVec 5) (q : BitVec 1)
  /-- TFILL: Sets the fill code of a tile (R195). -/
  | tfill (d : BitVec 4) (f : BitVec 2)
  /-- TGET: Pushes one field of a tile binding onto q4-q7 (R196). -/
  | tget (a : BitVec 4) (n : BitVec 2) (f : BitVec 3)
  /-- TCOPY: Copies a tile, converting formats, with an optional neighbour operand (R197). -/
  | tcopy (d : BitVec 4) (a : BitVec 4) (n : BitVec 2)
  /-- TTRANS: Transposes a tile of equal format (R197). -/
  | ttrans (d : BitVec 4) (a : BitVec 4)
  /-- TLDG: Loads a tile's valid rows from memory row by row (R202). -/
  | tldg (d : BitVec 4) (g : BitVec 5) (q : BitVec 1)
  /-- TSTG: Stores a tile's valid rows to memory row by row, each row checked before it is written (R202). -/
  | tstg (d : BitVec 4) (g : BitVec 5) (q : BitVec 1)
  /-- TBCAST: Broadcasts a row, a column or a single element into a tile (R197). -/
  | tbcast (d : BitVec 4) (a : BitVec 4) (s : BitVec 3)
  /-- TSET: Sets every written element to a raw pattern or a converted FP32 value (R198). -/
  | tset (d : BitVec 4) (g : BitVec 5) (q : BitVec 1) (v : BitVec 1)
  /-- TROWG: Gathers rows of a source tile by an INT32 index tile (R199). -/
  | trowg (d : BitVec 4) (a : BitVec 4) (b : BitVec 4)
  /-- TSHIFT: Shifts a tile by rows or columns, filling vacated positions with fill (R200). -/
  | tshift (d : BitVec 4) (a : BitVec 4) (g : BitVec 5) (q : BitVec 1) (c : BitVec 1)
  /-- TPACK: Packs two tiles side by side, or unpacks the low or high columns of a tile (R201). -/
  | tpack (d : BitVec 4) (a : BitVec 4) (b : BitVec 4) (s : BitVec 3)
  /-- TADD: Elementwise add with a single rounding (R217). -/
  | tadd (d : BitVec 4) (a : BitVec 4) (b : BitVec 4) (n : BitVec 2)
  /-- TSUB: Elementwise subtract (R217). -/
  | tsub (d : BitVec 4) (a : BitVec 4) (b : BitVec 4) (n : BitVec 2)
  /-- TMUL: Elementwise multiply (R217). -/
  | tmul (d : BitVec 4) (a : BitVec 4) (b : BitVec 4) (n : BitVec 2)
  /-- TMIN: Elementwise minimum (R217). -/
  | tmin (d : BitVec 4) (a : BitVec 4) (b : BitVec 4) (n : BitVec 2)
  /-- TMAX: Elementwise maximum (R217). -/
  | tmax (d : BitVec 4) (a : BitVec 4) (b : BitVec 4) (n : BitVec 2)
  /-- TAND: Bitwise AND of element patterns (R218). -/
  | tand (d : BitVec 4) (a : BitVec 4) (b : BitVec 4) (n : BitVec 2)
  /-- TOR: Bitwise OR of element patterns (R218). -/
  | tor (d : BitVec 4) (a : BitVec 4) (b : BitVec 4) (n : BitVec 2)
  /-- TXOR: Bitwise XOR of element patterns (R218). -/
  | txor (d : BitVec 4) (a : BitVec 4) (b : BitVec 4) (n : BitVec 2)
  /-- TSHL: Integer left shift of elements (R219). -/
  | tshl (d : BitVec 4) (a : BitVec 4) (b : BitVec 4) (n : BitVec 2)
  /-- TSHR: Integer arithmetic right shift of elements (R219). -/
  | tshr (d : BitVec 4) (a : BitVec 4) (b : BitVec 4) (n : BitVec 2)
  /-- TCMP: Elementwise compare writing all ones or zero to an integer tile (R220). -/
  | tcmp (d : BitVec 4) (a : BitVec 4) (b : BitVec 4) (n : BitVec 2) (c : BitVec 3)
  /-- TNEG: Elementwise negation (R222). -/
  | tneg (d : BitVec 4) (a : BitVec 4)
  /-- TABS: Elementwise absolute value (R222). -/
  | tabs (d : BitVec 4) (a : BitVec 4)
  /-- TEXP2: Elementwise 2^x by exp2_core (R222). -/
  | texp2 (d : BitVec 4) (a : BitVec 4)
  /-- TLOG2: Elementwise log2 by log2_core (R222). -/
  | tlog2 (d : BitVec 4) (a : BitVec 4)
  /-- TRCP: Elementwise reciprocal by rcp_core (R222). -/
  | trcp (d : BitVec 4) (a : BitVec 4)
  /-- TRSQRT: Elementwise reciprocal square root (R222). -/
  | trsqrt (d : BitVec 4) (a : BitVec 4)
  /-- TSQRT: Elementwise square root (R222). -/
  | tsqrt (d : BitVec 4) (a : BitVec 4)
  /-- TTANH: Elementwise tanh (R222). -/
  | ttanh (d : BitVec 4) (a : BitVec 4)
  /-- TCVT: Elementwise format conversion (R222). -/
  | tcvt (d : BitVec 4) (a : BitVec 4)
  /-- TROUND: Rounds elements to integral values under the selected mode (R223). -/
  | tround (d : BitVec 4) (a : BitVec 4)
  /-- TRSUM: Ordered row sums (R225). -/
  | trsum (d : BitVec 4) (a : BitVec 4)
  /-- TCSUM: Ordered column sums (R225). -/
  | tcsum (d : BitVec 4) (a : BitVec 4)
  /-- TRMAX: Row maxima (R225). -/
  | trmax (d : BitVec 4) (a : BitVec 4)
  /-- TCMAX: Column maxima (R225). -/
  | tcmax (d : BitVec 4) (a : BitVec 4)
  /-- TSCAN: Inclusive prefix scan along rows or columns (R226). -/
  | tscan (d : BitVec 4) (a : BitVec 4) (s : BitVec 1)
  /-- TTOPK: Writes the indices and values of the top k candidates of each row (R228). -/
  | ttopk (d : BitVec 4) (a : BitVec 4) (b : BitVec 4) (k : BitVec 3)
  /-- THIST: Histogram of integer values (R230). -/
  | thist (d : BitVec 4) (a : BitVec 4)
  /-- TARGMAX: Index of the highest-ranked candidate of each row (R229). -/
  | targmax (d : BitVec 4) (a : BitVec 4)
  /-- TFMA: Elementwise a*b+c with a single rounding (R232). -/
  | tfma (d : BitVec 4) (a : BitVec 4) (b : BitVec 4) (c : BitVec 4) (n : BitVec 2)
  /-- TSEL: Elementwise selection by an integer mask (R233). -/
  | tsel (d : BitVec 4) (a : BitVec 4) (b : BitVec 4) (c : BitVec 4) (n : BitVec 2)
  /-- TSCALE: Multiplies every element by an FP32 scalar (R234). -/
  | tscale (d : BitVec 4) (a : BitVec 4) (g : BitVec 5) (q : BitVec 1)
  /-- TLOOP: Repeats the preceding n tile units in the sequencer count-1 times (R205). -/
  | tloop (g : BitVec 5) (q : BitVec 1) (n : BitVec 4)
  /-- TWAIT: Holds the control stream until every earlier tile unit has completed (R206). -/
  | twait
  /-- MLOADB: Loads a B image into a CIM slot, aligning its blocks and recording its source (R284). -/
  | mloadb (a : BitVec 4) (g : BitVec 5) (q : BitVec 1) (s : BitVec 1) (f : BitVec 4) (l : BitVec 2)
  /-- MFREE: Empties one CIM slot or all of them (R285). -/
  | mfree (a : BitVec 1) (s : BitVec 2)
  /-- MMA: Multiplies an A tile by a resident B slot into the accumulator store (R289). -/
  | mma (a : BitVec 4) (g : BitVec 5) (q : BitVec 1) (s : BitVec 1) (l : BitVec 2)
  /-- MMAG: Grouped matrix multiply over up to four slots, selected by row offsets (R288). -/
  | mmag (d : BitVec 4) (a : BitVec 4) (g : BitVec 5) (q : BitVec 1) (n : BitVec 3) (s : BitVec 1) (l : BitVec 2)
  /-- MMAL: Matrix multiply that first zeroes each addressed accumulator entry (R289). -/
  | mmal (a : BitVec 4) (g : BitVec 5) (q : BitVec 1) (s : BitVec 1) (l : BitVec 2)
  /-- AZERO: Sets the accumulator entries of an extent to +0 (R292). -/
  | azero (d : BitVec 4) (g : BitVec 5) (q : BitVec 1)
  /-- ASCALE: Scales accumulator entries by row and column scales (R292). -/
  | ascale (d : BitVec 4) (a : BitVec 4) (g : BitVec 5) (q : BitVec 1) (c : BitVec 1) (r : BitVec 1)
  /-- ADRAIN: Writes scaled and converted accumulator entries to a tile (R292). -/
  | adrain (d : BitVec 4) (a : BitVec 4) (g : BitVec 5) (q : BitVec 1) (c : BitVec 1) (r : BitVec 1)
  /-- AMOVIN: Copies an FP32 tile into the accumulator store (R292). -/
  | amovin (a : BitVec 4) (g : BitVec 5) (q : BitVec 1)
  /-- AMOVOUT: Copies accumulator entries unchanged into an FP32 tile (R292). -/
  | amovout (d : BitVec 4) (g : BitVec 5) (q : BitVec 1)
  /-- XCOPY: Starts a strided copy from the latched CX registers (R302). -/
  | xcopy (d : BitVec 5)
  /-- XGATH: Starts an indexed gather copy (R302). -/
  | xgath (d : BitVec 5) (t : BitVec 4)
  /-- XSCAT: Starts an indexed scatter copy (R302). -/
  | xscat (d : BitVec 5) (t : BitVec 4)
  /-- XCANCEL: Stops an activation's pending copy from starting further rows (R305). -/
  | xcancel (s : BitVec 5)
  /-- XMCAST: Multicasts a tile to the masked members of a group (R309). -/
  | xmcast (d : BitVec 5) (a : BitVec 5) (b : BitVec 5) (t : BitVec 4)
  /-- XMREAD: Reads memory rows at home slices and delivers them to the masked receivers (R310). -/
  | xmread (d : BitVec 5) (a : BitVec 5) (b : BitVec 5) (t : BitVec 4)
  /-- XFREE: Sends a free notice to the issuer of a multicast (R312). -/
  | xfree (a : BitVec 5)
  /-- KPUT_TILE: Deposits a tuple whose payload is read from a tile (R450). -/
  | kputTile (d : BitVec 5) (a : BitVec 3) (t : BitVec 4)
  /-- KPUT_IMAGE: Deposits a tuple whose payload is read from a payload image (R450). -/
  | kputImage (d : BitVec 5) (a : BitVec 3) (b : BitVec 5)
  /-- KREAD_TILE: Reads a matching tuple into a tile, in blocking or poll mode (R451). -/
  | kreadTile (d : BitVec 5) (a : BitVec 2) (t : BitVec 4) (m : BitVec 1)
  /-- KREAD_IMAGE: Reads a matching tuple into a payload image (R451). -/
  | kreadImage (d : BitVec 5) (a : BitVec 2) (b : BitVec 5) (m : BitVec 1)
  /-- KREAD_CONT: Registers a KREAD continuation with a reserved activation-queue entry (R440). -/
  | kreadCont (d : BitVec 5) (a : BitVec 2) (b : BitVec 5) (t : BitVec 4)
  /-- KTAKE_TILE: Takes a matching tuple into a tile (R451). -/
  | ktakeTile (d : BitVec 5) (a : BitVec 2) (t : BitVec 4) (m : BitVec 1)
  /-- KTAKE_IMAGE: Takes a matching tuple into a payload image (R451). -/
  | ktakeImage (d : BitVec 5) (a : BitVec 2) (b : BitVec 5) (m : BitVec 1)
  /-- KTAKE_CONT: Registers a KTAKE continuation (R440). -/
  | ktakeCont (d : BitVec 5) (a : BitVec 2) (b : BitVec 5) (t : BitVec 4)
  /-- KCANCEL: Withdraws the issuer's oldest identical waiting template at the home (R452). -/
  | kcancel (d : BitVec 5) (a : BitVec 2)
  /-- KSPLIT: Splits a home range and moves its upper half to another home (R474). -/
  | ksplit (d : BitVec 5) (a : BitVec 5) (b : BitVec 5)
  /-- KMAP: Returns a key's hash, home and map generation from the local map copy (R475). -/
  | kmap (d : BitVec 5) (a : BitVec 3)
  /-- KSTAT: Reads one statistic of a home (R476). -/
  | kstat (d : BitVec 5) (a : BitVec 5) (b : BitVec 5)
  /-- CMBOPEN: Sends an open for a range of tokens with their experts and weights to the buffer's slice (R496). -/
  | cmbopen (d : BitVec 5) (a : BitVec 5) (b : BitVec 5) (t : BitVec 4) (k : BitVec 1)
  /-- CMBPUT: Sends one expert's rows, with their token numbers, to a combine buffer (R497). -/
  | cmbput (d : BitVec 5) (a : BitVec 5) (b : BitVec 5) (t : BitVec 4)
  /-- CMBCLOSE: Forces the time-out of the OPEN slots of a token range (R498). -/
  | cmbclose (d : BitVec 5) (a : BitVec 5) (b : BitVec 5)
  /-- CMBSTAT: Returns the state of one token's combine slot (R499). -/
  | cmbstat (d : BitVec 5) (a : BitVec 5)
  /-- MSIRED: Starts a stack-engine sum of table rows by bag (R347). -/
  | msired (d : BitVec 5) (a : BitVec 5) (b : BitVec 5) (t : BitVec 4)
  /-- MSISCAT: Starts a stack-engine scatter-add of gradients into table rows (R348). -/
  | msiscat (d : BitVec 5) (a : BitVec 5) (b : BitVec 5) (t : BitVec 4)
  /-- MSTOPK: Starts a stack-engine top-k over every table row (R349). -/
  | mstopk (d : BitVec 5) (a : BitVec 5) (b : BitVec 5) (k : BitVec 3)
  /-- COLRS: Joins a reduce-scatter instance of a communicator (R419). -/
  | colrs (d : BitVec 5) (a : BitVec 5) (b : BitVec 5) (m : BitVec 1)
  /-- COLAR: Joins an all-reduce instance (R419). -/
  | colar (d : BitVec 5) (a : BitVec 5) (b : BitVec 5) (m : BitVec 1)
  /-- COLAG: Joins an all-gather instance (R419). -/
  | colag (d : BitVec 5) (a : BitVec 5) (b : BitVec 5)
  /-- COLBC: Joins a broadcast instance (R419). -/
  | colbc (d : BitVec 5) (a : BitVec 5) (b : BitVec 5)
  /-- COLBAR: Joins a system-scope barrier instance (R423). -/
  | colbar (d : BitVec 5) (a : BitVec 5)
  /-- HLIKELY: Hints the predicted direction of a conditional branch n words ahead (R178). -/
  | hlikely (n : BitVec 8) (t : BitVec 1)
  /-- HPREF: May bring instruction lines into the instruction cache (R179). -/
  | hpref (l : BitVec 4) (w : BitVec 20)
  /-- XIMM: Prefix supplying 24 upper immediate bits to the next instruction of its unit (R136). -/
  | ximm (u : BitVec 24)
  /-- XMOD: Prefix selecting rounding, saturation, duplicate and ordering modifiers (R129). -/
  | xmod (r : BitVec 3) (s : BitVec 2) (d : BitVec 1) (o : BitVec 2)
  /-- Event ACTIVATION_CHOOSE: When the execution slot is free, the core picks the next urgent event, delivered record or deque record and starts an activation (R48). -/
  | activationChoose (c : Nat)
  /-- Event URGENT_EVENT_ARRIVE: An urgent ingress event enters a core's 64-entry urgent latch (R54). -/
  | urgentEventArrive (n : Nat)
  /-- Event URGENT_PREEMPT: At a pre-emption point the running activation goes to the shadow bank and the urgent activation starts (R54). -/
  | urgentPreempt (c : Nat)
  /-- Event STEAL_PROBE: An idle core sends a steal request to the next victim in probe order (R359). -/
  | stealProbe (c : Nat)
  /-- Event STEAL_BACKOFF_EXPIRE: After 45 fruitless probes and at least 1024 mesh cycles the thief starts probing again (R359). -/
  | stealBackoffExpire (c : Nat)
  /-- Event STEAL_REQUEST_SERVE: A victim selects eligible records, reserves them and sends them in one reply (R360). -/
  | stealRequestServe (n : Nat)
  /-- Event STEAL_REPLY_ARRIVE: The thief places the yielded records at the top of its deque and acknowledges, or the reply is returned (R361). -/
  | stealReplyArrive (n : Nat)
  /-- Event STEAL_ACK_ARRIVE: The victim frees the reserved entries on acknowledgement (R361). -/
  | stealAckArrive (n : Nat)
  /-- Event STEAL_REPLY_RETURN: A returned reply restores the records to their reserved entries in their former order (R361). -/
  | stealReplyReturn (n : Nat)
  /-- Event CALLAT_ARRIVE: A CALLAT record reaches its target core and is stored or refused (R368). -/
  | callatArrive (n : Nat)
  /-- Event MESSAGE_ARRIVE: An MSEND or RETV reaches the target's mailbox store and is stored or refused (R363). -/
  | messageArrive (n : Nat)
  /-- Event DIE_RESOURCE_REPORT: Each die reports its unbound idle core counts to the distributor at least every 4096 mesh cycles (R362). -/
  | dieResourceReport (die : Nat)
  /-- Event ROOT_PLACE: The master distributor sends a launch's root record to the die with the most suitable idle cores (R362). -/
  | rootPlace (ltag : Nat)
  /-- Event ROOT_RECORD_ARRIVE: A die places a root record on its lowest-numbered suitable idle core, or returns it to the distributor (R362). -/
  | rootRecordArrive (n : Nat)
  /-- Event DUAL_PAIR_PLACE: The distributor places a dual record as two copies on suitably separated cores (R555). -/
  | dualPairPlace (k : Nat)
  /-- Event CONTINUATION_DELIVER: A continuation record reaches its core and becomes a delivered record if its reservation still stands (R441). -/
  | continuationDeliver (n : Nat)
  /-- Event ROUND_CLOSE_ARRIVE: A round close reaches a core's interface and counts in its valid entry, or is discarded as stale (R502). -/
  | roundCloseArrive (n : Nat)
  /-- Event WAVE_START: An idle root starts a termination wave through the launch tree (R366). -/
  | waveStart (ltag : Nat)
  /-- Event WAVE_ANSWER: A core combines its children's answers with its own counts and answers its parent (R366). -/
  | waveAnswer (c : Nat)
  /-- Event BRANCH_RESOLVE: A predicted branch resolves when its operands arrive, confirming or flushing its generation (R173). -/
  | branchResolve (c gen : Nat)
  /-- Event LOAD_RESPONSE: A load's value arrives and is written to its destination, or a failed access poisons it (R265). -/
  | loadResponse (n : Nat)
  /-- Event FENCE_COMPLETE: A fence's wait ends and its status word is written (R268). -/
  | fenceComplete (c : Nat)
  /-- Event DRAIN_COMPLETE: The selected engine operations have all ended and DRAIN releases the control stream (R270). -/
  | drainComplete (c : Nat)
  /-- Event WFE_WAKE: A selected event latches while WFE waits, and WFE completes (R246). -/
  | wfeWake (c : Nat)
  /-- Event TILE_UNIT_BEGIN: The tile stream begins the next sequencer entry, checks it and pops its queue operand (R188). -/
  | tileUnitBegin (c : Nat)
  /-- Event TILE_ROW_COMPLETE: A memory row of a tile transfer completes or faults, advancing or stopping %xstep (R192). -/
  | tileRowComplete (c : Nat)
  /-- Event TILE_BAND_COMPLETE: A band of 8 rows completes and its updates are applied (R190). -/
  | tileBandComplete (c : Nat) (mismatch : Bool)
  /-- Event TRAP_ENTRY: At a boundary the core records cause and addresses, enters supervisor mode and fetches from %svbase (R538). -/
  | trapEntry (c : Nat)
  /-- Event LEAVE_GRANT: A waiting LEAVE or heavy-operation draw is granted units from its partition's share (R535). -/
  | leaveGrant (die part : Nat)
  /-- Event BARW_COMPLETE: A waiting BARW finds its object reached and returns COUNT (R529). -/
  | barwComplete (op : Nat)
  /-- Event CNTRD_READING: A waiting CNTRD takes a fresh reading of its counter and completes once it reaches the threshold (R530). -/
  | cntrdReading (op : Nat)
  /-- Event STATION_TRANSLATE: A translation station walks the tables for a request and translates, refuses, parks or holds it (R513). -/
  | stationTranslate (n : Nat)
  /-- Event FAULT_RESOLVE: The Foreman resolves a parked fault and the port replays the parked requests in order (R409). -/
  | faultResolve (port n : Nat)
  /-- Event FAULT_DECLINE: The Foreman declines a parked fault and the port refuses the faulting request (R409). -/
  | faultDecline (port n : Nat)
  /-- Event FAULT_RESOLVE_TIMEOUT: A parked fault unanswered after 2^24 mesh cycles is refused (R409). -/
  | faultResolveTimeout (port n : Nat)
  /-- Event FAULT_QUEUE_RETRY: A request returned by a full fault queue is retried after 1024 mesh cycles (R410). -/
  | faultQueueRetry (n : Nat)
  /-- Event STORE_PERFORM: A posted store reaches its point of coherence and is performed there (R266). -/
  | storePerform (n : Nat)
  /-- Event REPLICA_INVALIDATE_ACK: A replica or redirect acknowledges invalidation to the home (R263). -/
  | replicaInvalidateAck (line holder : Nat)
  /-- Event ATOMIC_PERFORM: An atomic performs its indivisible read-modify-write at the home or target scratchpad and returns the old value (R267). -/
  | atomicPerform (n : Nat)
  /-- Event PEER_ACCESS_ARRIVE: A peer scratchpad access reaches the target physical core and is performed or answered with an error (R255). -/
  | peerAccessArrive (n : Nat)
  /-- Event SLICE_READ: A read reaches its home slice and is served from filled sectors and masked bytes (R260). -/
  | sliceRead (n : Nat)
  /-- Event SECTOR_FILL: A sector fetched from HBM arrives at the slice (R260). -/
  | sectorFill (line sector : Nat)
  /-- Event HOT_WINDOW_END: A 4096-slice-cycle read-counting window ends (R262). -/
  | hotWindowEnd (slice : Nat)
  /-- Event HELPER_READ: A read reaching a helper is served from its replica or forwarded to the home (R263). -/
  | helperRead (n : Nat)
  /-- Event COPY_ROW_COMPLETE: A copy row finishes or fails at its destination (R299). -/
  | copyRowComplete (op row : Nat)
  /-- Event MULTICAST_DELIVERY: A multicast delivery writes a tile's valid extent into a receiver's scratchpad (R307). -/
  | multicastDelivery (op rank : Nat)
  /-- Event XMREAD_REQUEST_ARRIVE: An XMREAD request reaches a line's home slice and merges, joins late or starts a new response (R311). -/
  | xmreadRequestArrive (op line : Nat)
  /-- Event XMREAD_SECTOR_SEND: The home slice reads and sends the next sector of a multicast response (R311). -/
  | xmreadSectorSend (entry : Nat)
  /-- Event MULTICAST_END: A multicast's status is written once every receiver of its mask has been delivered to or has failed (R310). -/
  | multicastEnd (op : Nat)
  /-- Event XFREE_NOTICE_ARRIVE: Combined free notices raise the issuer's mailbox XFREE counter, or are counted as stale (R312). -/
  | xfreeNoticeArrive (n : Nat)
  /-- Event MS_PACKET_EXECUTE: A stack engine executes one packet of up to 24 indices (R346). -/
  | msPacketExecute (op : Nat)
  /-- Event MS_COMPLETE: An MS operation ends and writes its status to gd and to the completion word (R342). -/
  | msComplete (op : Nat)
  /-- Event VC_DEADLOCK_TIMEOUT: A packet stuck for 4096 mesh cycles moves its flow to the escape channel (R404). -/
  | vcDeadlockTimeout (p : StuckPacket)
  /-- Event FLOW_ACK: A destination acknowledgement lowers a flow's outstanding count, returning an escaped flow when it is zero (R404). -/
  | flowAck (flow : Nat)
  /-- Event COLLECTIVE_INSTANCE_START: An instance starts data movement when every participant has joined, or ends with MISMATCH (R413). -/
  | collectiveInstanceStart (comm inst : Nat)
  /-- Event CHUNK_START: A collective chunk starts once its receive buffers are reserved and leave is drawn (R415). -/
  | chunkStart (die comm : Nat)
  /-- Event CHUNK_RESERVATION_TIMEOUT: Reservations not all taken within 256 mesh cycles are returned unused (R415). -/
  | chunkReservationTimeout (die comm : Nat)
  /-- Event CHUNK_END: A chunk ends, returning buffers and leave, and the engine picks the next communicator (R414). -/
  | chunkEnd (die : Nat)
  /-- Event COLLECTIVE_INSTANCE_END: An instance ends and writes status words at every participant (R422). -/
  | collectiveInstanceEnd (comm inst : Nat)
  /-- Event COMMUNICATOR_WRITE: Foreman firmware writes a communicator entry, refusing while an instance is in flight (R412). -/
  | communicatorWrite (comm : Nat) (e : CommEntry)
  /-- Event HOME_KPUT_ARRIVE: A home deposits a tuple, serving waiting templates in arrival order (R433). -/
  | homeKputArrive (n : Nat)
  /-- Event HOME_KREAD_ARRIVE: A home serves a KREAD from the oldest matching tuple, misses or appends a waiter (R433). -/
  | homeKreadArrive (n : Nat)
  /-- Event HOME_KTAKE_ARRIVE: A home serves a KTAKE and removes the tuple, misses or appends a waiter (R433). -/
  | homeKtakeArrive (n : Nat)
  /-- Event HOME_KCANCEL_ARRIVE: A home withdraws the issuer's oldest identical waiter (R452). -/
  | homeKcancelArrive (n : Nat)
  /-- Event HOME_REDEPOSIT_ARRIVE: A re-deposit is performed at the home as a KPUT keeping its sequence (R437). -/
  | homeRedepositArrive (n : Nat)
  /-- Event KEY_DELIVERY_ARRIVE: A served payload is written into the tile or image destination and the status word follows (R436). -/
  | keyDeliveryArrive (n : Nat)
  /-- Event KEY_DELIVERY_ACK: The taker's acknowledgement lets the home release the payload, or a failed delivery re-deposits the tuple (R437). -/
  | keyDeliveryAck (n : Nat)
  /-- Event ASSAY_FIRST_ARRIVAL: The first copy of a dual operation is held at an Assay point, or returned when the point is full (R559). -/
  | assayFirstArrival (n : Nat)
  /-- Event ASSAY_TWIN_ARRIVAL: The twin arrives and the hashes are compared; the operation is performed once or the pair is killed (R559). -/
  | assayTwinArrival (n : Nat)
  /-- Event ASSAY_RETRY: A returned first arrival is sent again after 1024 mesh cycles (R559). -/
  | assayRetry (n : Nat)
  /-- Event ASSAY_TIMEOUT: A twin missing 2^22 mesh cycles after the first arrival kills the pair (R560). -/
  | assayTimeout (n : Nat)
  /-- Event FORWARD_HINT_ARRIVE: A forwarding hint updates an interface's map copy (R460). -/
  | forwardHintArrive (n : Nat)
  /-- Event HELD_FORWARD_RELEASE: A request forwarded 15 times is forwarded once more when the home's map copy is current (R460). -/
  | heldForwardRelease (n : Nat)
  /-- Event MAP_BROADCAST_ARRIVE: New home-map entries and generation reach a network interface (R460). -/
  | mapBroadcastArrive (ni : Nat)
  /-- Event SPLIT_COPY: After PREPARE, the source copies the upper half's tuples in the background and logs changes (R465). -/
  | splitCopy
  /-- Event SPLIT_CUTOVER: In one step the destination takes the upper half's tuples, waiters and held arrivals and the map generation increments (R467). -/
  | splitCutover
  /-- Event SPLIT_ABORT: A split meeting FULL or LOST before cut-over returns the range to NORMAL at the source (R469). -/
  | splitAbort (lost : Bool)
  /-- Event WAIDRIC_MESSAGE_RECEIVE: A Waidric SEND arrives from another module and is acted on or discarded (R471). -/
  | waidricMessageReceive (bytes : List Byte)
  /-- Event WAIDRIC_CONNECTION_FAIL: A failed connection is re-established and outstanding requests above the last performed REQID complete LOST (R472). -/
  | waidricConnectionFail (modnum reqid : Nat)
  /-- Event MODULE_FAILED: A module declared failed makes every outstanding request to its homes complete LOST (R472). -/
  | moduleFailed (modnum : Nat)
  /-- Event HEAP_RESIZE_REQUEST: A management request gives an empty home a new heap base and size, or is refused (R463). -/
  | heapResizeRequest (home base size : Nat)
  /-- Event SLICE_CMBOPEN_ARRIVE: The slice binds the buffer and allocates slots for a token range, or ends with an error or queues the open (R496). -/
  | sliceCmbopenArrive (n : Nat)
  /-- Event SLICE_CMBPUT_ARRIVE: The slice takes an expert's rows one at a time as arrivals under the slot transitions (R497). -/
  | sliceCmbputArrive (n : Nat)
  /-- Event SLICE_CMBCLOSE_ARRIVE: The slice forces substitution on the OPEN slots of a token range (R498). -/
  | sliceCmbcloseArrive (n : Nat)
  /-- Event COMBINE_TIMEOUT: A slot's countdown reaches 0 and the slot completes by substitution under POLICY (R485). -/
  | combineTimeout (slice slot : Nat)
  /-- Event COMBINE_RELEASE: A COMPLETE slot writes its row and release word and adds to the counter or deposits a tuple (R487). -/
  | combineRelease (slice slot : Nat)
  /-- Event LINGER_EXPIRE: A lingering slot's countdown reaches 0 and the slot becomes FREE (R483). -/
  | lingerExpire (slice slot : Nat)
  /-- Event OPEN_WAIT_SERVE: A waiting CMBOPEN.blk is served in arrival order once slots and staging are free (R496). -/
  | openWaitServe (slice : Nat)
  /-- Event DOORBELL: An RDMA write to the doorbell region latches a new TAIL for a host queue (R381). -/
  | doorbell (q : QueueBell) (value : Word)
  /-- Event PACKET_FETCH: The front end fetches the next command packet, advances HEAD and writes the head shadow (R377). -/
  | packetFetch (q : Nat)
  /-- Event LAUNCH_PACKET: A LAUNCH packet is checked, assigned an LTAG, fills its groups and places its root record, or is refused (R384). -/
  | launchPacket (q n : Nat)
  /-- Event COPY_PACKET: A COPY packet copies BYTES from SRC to DST as one row (R385). -/
  | copyPacket (q n : Nat)
  /-- Event KPUT_PACKET: A KPUT packet deposits an untyped tuple in the key space (R385). -/
  | kputPacket (q n : Nat)
  /-- Event SIGNAL_PACKET: A SIGNAL packet swaps or adds a value at ADDR with release ordering (R385). -/
  | signalPacket (q n : Nat)
  /-- Event FENCE_PACKET: A FENCE packet completes after every earlier packet, reporting the failure count (R386). -/
  | fencePacket (q n : Nat)
  /-- Event WAITCOND_PACKET: A WAITCOND reads a word, tests it and skips, jumps or begins repeating (R387). -/
  | waitcondPacket (q n : Nat)
  /-- Event WAITCOND_RETEST: A repeating WAITCOND's back-off interval expires and it re-reads and re-tests its word (R387). -/
  | waitcondRetest (q n : Nat)
  /-- Event COMPLETION_RECORD_WRITE: A packet's completion record is written to its slot once the slot is free of V (R390). -/
  | completionRecordWrite (q n : Nat)
  /-- Event QUEUE_COMMIT: Firmware writes a queue's commit word, naming the copy in force (R380). -/
  | queueCommit (q : Nat) (copyB : Bool) (blk : QueueBlock) (word : Word)
  /-- Event COMMIT_TAKE_EFFECT: A new commit takes effect at the next packet boundary, resetting HEAD and TAIL where required (R380). -/
  | commitTakeEffect (q : Nat)
  /-- Event FRONT_END_MODE_WRITE: The front-end mode word is written, and its changes take effect at the next packet or frame boundary (R398). -/
  | frontEndModeWrite (v : BitVec 6)
  /-- Event FIRMWARE_TABLE_WRITE: Firmware writes a table or register that has no behaviour of its own (R375). -/
  | firmwareTableWrite (w : FwWrite)
  /-- Event FRAME_RECEIVE: A frame arrives at a port, is checked, stamped and classified (R391). -/
  | frameReceive (port : Nat) (fcsOk : Bool) (ts : BitVec 80) (bytes : List Byte)
  /-- Event FIRMWARE_WATCHDOG_RESET: A firmware core that misses two heartbeats is reset, measured again and restarted (R574). -/
  | firmwareWatchdogReset (blk : FwBlock)
  /-- Event HEARTBEAT: A firmware core answers the Banksman heartbeat (R574). -/
  | heartbeat (blk : FwBlock) (answered : Bool)
  /-- Event FIRMWARE_REPLACE: The Banksman replaces firmware at a quiesced commit point (R400). -/
  | firmwareReplace (blk : FwBlock) (img : Image)
  /-- Event PARTITION_SWITCH_REQUEST: A management switch request stops the partition's cores from choosing activations and aborts its collectives (R553). -/
  | partitionSwitchRequest (p : Nat)
  /-- Event PARTITION_HALT: Every access and engine operation of the partition has ended, and its cores exchange state with their shadow banks (R334). -/
  | partitionHalt (p : Nat)
  /-- Event CONTEXT_WRITE_OUT: The copy engines finish writing shadow images and KEEP and SPILL regions to HBM, freeing the cores (R553). -/
  | contextWriteOut (p : Nat)
  /-- Event PARTITION_RESTORE: The Foreman binds clusters, reloads images and KEEP regions, fills DISCARD regions and resumes the partition (R554). -/
  | partitionRestore (p : Nat) (onto : List ClusterBind)
  /-- Event SPILL_RELOAD_COMPLETE: A SPILL region's reload from HBM completes and waiting accesses proceed (R61). -/
  | spillReloadComplete (c region : Nat)
  /-- Event SLOT_RELOAD_COMPLETE: A RELOADING CIM slot finishes its reload and becomes READY, or LOST on a fault (R286). -/
  | slotReloadComplete (c slot : Nat)
  /-- Event PARTITION_GATE: The management plane gates a partition after switching it out (R578). -/
  | partitionGate (p : Nat)
  /-- Event PARTITION_WAKE: A latched doorbell or management request powers clusters and restores the gated partition (R578). -/
  | partitionWake (p : Nat) (onto : List ClusterBind)
  /-- Event UNCORRECTABLE_ERROR: An uncorrectable error is consumed, killing the core or poisoning a sector (R562). -/
  | uncorrectableError (place : ErrorPlace)
  /-- Event CORE_KILL: The Foreman stops a core, seals its mailboxes, disbands its gang and changes the core map (R563). -/
  | coreKill (c : Nat)
  /-- Event CORE_MAP_UPDATE_ARRIVE: A new core-map entry reaches a network interface, which acknowledges it (R508). -/
  | coreMapUpdateArrive (ni c : Nat)
  /-- Event CORE_MAP_CHANGE_COMPLETE: Every interface has acknowledged, and tasks of the killed core are restarted, failed or handed to the distributor (R509). -/
  | coreMapChangeComplete (c : Nat)
  /-- Event MISMATCH_WINDOW_END: A 2^30-cycle mismatch-count window ends (R568). -/
  | mismatchWindowEnd (die : Nat)
  /-- Event CORRECTED_ERROR_REPORT: A corrected ECC error is counted in the classification table, and a threshold requests repair (R519). -/
  | correctedErrorReport (eng bank row col : Nat)
  /-- Event CLASSIFICATION_WINDOW_END: A 2^30-cycle classification window ends and entries with REQ clear are freed (R519). -/
  | classificationWindowEnd (eng : Nat)
  /-- Event REPAIR_SERVE: The Foreman performs a requested page retirement, sparing or bank retirement and clears REQ (R569). -/
  | repairServe (eng idx : Nat)
  /-- Event TRANSLATION_INVALIDATE: A Foreman's invalidation drops cached walks and redirects and waits for old-walk accesses to settle (R515). -/
  | translationInvalidate (ctx lo hi : Nat)
  /-- Event POWER_ON: At power-on every core except the Banksman is held in reset and images are loaded from flash (R570). -/
  | powerOn (flash : List FlashImage)
  /-- Event IMAGE_VERIFY: The Banksman checks an image's magic, digest, signature and security version (R571). -/
  | imageVerify (blk : FwBlock) (img : Image)
  /-- Event BLOCK_READY: An unlocked block reports ready and the next unlock stage may begin (R572). -/
  | blockReady (blk : FwBlock)
  /-- Event MIN_SVN_RAISE: A signed management request raises the fused minimum security version (R571). -/
  | minSvnRaise (target svn : Nat) (signed : Bool)
  /-- Event ATTESTATION_REQUEST: The Banksman returns a signed report for a nonce (R573). -/
  | attestationRequest (nonce : BitVec 256)
  /-- Event LEAVE_CAP_WRITE: A Foreman writes a pool's capacity, scaling the partition shares (R535). -/
  | leaveCapWrite (die cap : Nat)
  /-- Event CURRENT_MONITOR_HIGH: A rail monitor above 7400 A makes every Foreman lower CAP by one eighth (R579). -/
  | currentMonitorHigh
  /-- Event CURRENT_MONITOR_LOW_SUSTAINED: Monitors below 7000 A for 2^20 mesh cycles let Foremans raise CAP by one eighth (R579). -/
  | currentMonitorLowSustained
  /-- Event SNAPSHOT_MARKER_ARRIVE: A snapshot marker, or a post-cut packet, makes a block latch its snapshot registers (R580). -/
  | snapshotMarkerArrive (tag : Nat) (blk : SnapBlock)
  /-- Event SNAPSHOT_PACKET_RECORD: A latched block records each accepted pre-cut packet in its snapshot buffer (R582). -/
  | snapshotPacketRecord (n : Nat) (blk : SnapBlock)
  /-- Event CUT_COMPLETE: The Banksman declares a cut complete once every block has latched and every count agrees (R582). -/
  | cutComplete (tag : Nat)
  /-- Event LINK_DEATH: A mesh, micro-bump or Ethernet link dies, so that accesses, deliveries and messages in flight on it are reported LOST (R298). -/
  | linkDeath (x : InFlight)
  /-- Event HOST_RDMA_WRITE: A host or remote module's RoCEv2 RDMA write arrives and is performed in module memory, in order on its connection (R337). -/
  | hostRdmaWrite (conn ctx : Nat) (va : Word) (bytes : List Byte)
  /-- Event REPLICA_DROP: A helper slice drops a replica, or a network interface drops a redirect entry, of its own accord (R262). -/
  | replicaDrop (line holder : Nat)
  /-- Event FOREMAN_CORE_RESTART: The Foreman restarts a core that HALT or a supervisor-mode trap has stopped, failing its activation where R538 says so and freeing it to choose again (R248). -/
  | foremanCoreRestart (c : Nat)
  deriving DecidableEq, Repr

end Sys2Proof
end

