-- ==== Sys2Proof/WellFormed.lean ====
section
/-! DEFINITION. Which encoded instructions are well formed: the reserved field values of R126, R138-R144 and of the
entries, each a check with a name. An ill-formed word raises ILLEGAL at issue (R126). -/

namespace Sys2Proof

/-- The names of the checks an instruction word can fail (R126: each raises ILLEGAL). -/
inductive IllFormed where
  /-- LD with mode 7 (R138). -/
  | loadSize
  /-- ST with a mode other than 0, 2, 4, 6 (R138). -/
  | storeSize
  /-- A scope of 5 to 7 (R138). -/
  | scope
  /-- FENCE with order 0 (R138). -/
  | fenceOrder
  /-- DRAIN with mask 0 (R138). -/
  | drainMask
  /-- SPAWN or CALLAT with class 3 (R139). -/
  | recordClass
  /-- GANG with size 0 (R139). -/
  | gangSize
  /-- Q = 1 with g[17:15] not zero (R125). -/
  | queueOperand
  /-- A format code of 10 to 15 (R195, R284). -/
  | formatCode
  /-- NB = 3 (R140). -/
  | neighbour
  /-- A reserved sub code (R141). -/
  | subCode
  /-- A tile field that the form does not use is not zero (R126, R201, R284, R291). -/
  | unusedTile
  /-- TLOOP with n = 0 (R141). -/
  | loopLength
  /-- MFREE of every slot with a slot number (R285). -/
  | unusedSlot
  /-- T15 as the first of a pair of tiles (R142, R143, R495). -/
  | tilePair
  /-- MMAG with G outside 1 to 4 or slot + G above 4 (R288). -/
  | gangedSlots
  /-- ASCALE with RS = CS = 0 (R291). -/
  | scaleKind
  /-- LOOPNZ of g0 (R169). -/
  | loopRegister
  /-- HLIKELY with n = 0 (R178). -/
  | hintDistance
  /-- XMOD with a reserved RND (R129). -/
  | rounding
  /-- XMOD with SATM = 3 (R129). -/
  | saturation
  /-- XMOD with a reserved ORD (R129). -/
  | ordering
  /-- WFE with mask 0 (R242). -/
  | wakeMask
  /-- SNAP with tag 0 (R242). -/
  | snapTag
  deriving DecidableEq, Repr

/-- The check that an instruction fails, if any (R126). An event is no word, so nothing of it is reserved. -/
def Instr.check (i : Instr) : Option IllFormed :=
  match i with
  | .sysr _ _ => none
  | .sysw _ _ => none
  | .trap _ => none
  | .eret => none
  | .wfe m => if m = 0 then some .wakeMask else none
  | .iflush => none
  | .halt => none
  | .snap p => if p = 0 then some .snapTag else none
  | .leave _ _ => none
  | .add _ _ _ => none
  | .sub _ _ _ => none
  | .and _ _ _ => none
  | .or _ _ _ => none
  | .xor _ _ _ => none
  | .andn _ _ _ => none
  | .orn _ _ _ => none
  | .sll _ _ _ => none
  | .srl _ _ _ => none
  | .sra _ _ _ => none
  | .slt _ _ _ => none
  | .sltu _ _ _ => none
  | .min _ _ _ => none
  | .max _ _ _ => none
  | .minu _ _ _ => none
  | .maxu _ _ _ => none
  | .lea _ _ _ _ => none
  | .addi _ _ _ => none
  | .andi _ _ _ => none
  | .ori _ _ _ => none
  | .xori _ _ _ => none
  | .slli _ _ _ => none
  | .srli _ _ _ => none
  | .srai _ _ _ => none
  | .slti _ _ _ => none
  | .sltiu _ _ _ => none
  | .lih _ _ _ => none
  | .mul _ _ _ => none
  | .mulh _ _ _ => none
  | .mulhu _ _ _ => none
  | .div _ _ _ => none
  | .divu _ _ _ => none
  | .rem _ _ _ => none
  | .remu _ _ _ => none
  | .clz _ _ => none
  | .ctz _ _ => none
  | .popc _ _ => none
  | .brev _ _ => none
  | .bext _ _ _ => none
  | .bins _ _ _ => none
  | .qpush _ _ => none
  | .qpop _ _ => none
  | .qlen _ _ => none
  | .beq _ _ _ => none
  | .bne _ _ _ => none
  | .blt _ _ _ => none
  | .bge _ _ _ => none
  | .bltu _ _ _ => none
  | .bgeu _ _ _ => none
  | .jal _ => none
  | .jalr _ _ _ => none
  | .loopnz a _ => if a = 0 then some .loopRegister else none
  | .ld _ _ m _ => if m = 7 then some .loadSize else none
  | .st _ _ m _ => if m ≠ 0 ∧ m ≠ 2 ∧ m ≠ 4 ∧ m ≠ 6 then some .storeSize else none
  | .amoadd _ _ _ s _ _ => if 4 < s then some .scope else none
  | .amomin _ _ _ s _ _ => if 4 < s then some .scope else none
  | .amomax _ _ _ s _ _ => if 4 < s then some .scope else none
  | .amoand _ _ _ s _ _ => if 4 < s then some .scope else none
  | .amoor _ _ _ s _ _ => if 4 < s then some .scope else none
  | .amoxor _ _ _ s _ _ => if 4 < s then some .scope else none
  | .amoswap _ _ _ s _ _ => if 4 < s then some .scope else none
  | .cas _ _ _ s _ _ => if 4 < s then some .scope else none
  | .fence _ s o => if 4 < s then some .scope else if o = 0 then some .fenceOrder else none
  | .drain m => if m = 0 then some .drainMask else none
  | .spawn _ _ _ _ c _ => if c = 3 then some .recordClass else none
  | .callat _ _ _ _ c => if c = 3 then some .recordClass else none
  | .retv _ _ _ => none
  | .endAct => none
  | .msend _ _ _ => none
  | .mpoll _ _ => none
  | .gang _ s => if s = 0 then some .gangSize else none
  | .ungang => none
  | .gsync _ => none
  | .barmArm _ _ _ => none
  | .barmOpenRound _ _ _ => none
  | .barmWithdrawRound _ _ _ => none
  | .bara _ _ _ => none
  | .barw _ _ => none
  | .cntrd _ _ _ => none
  | .cntadd _ _ _ => none
  | .rndclose _ _ _ => none
  | .tbind _ g q f => if q = 1 ∧ 4 ≤ g then some .queueOperand else if 9 < f then some .formatCode else none
  | .tshape _ g q => if q = 1 ∧ 4 ≤ g then some .queueOperand else none
  | .tvalid _ g q => if q = 1 ∧ 4 ≤ g then some .queueOperand else none
  | .tfill _ _ => none
  | .tget _ _ _ => none
  | .tcopy _ _ n => if n = 3 then some .neighbour else none
  | .ttrans _ _ => none
  | .tldg _ g q => if q = 1 ∧ 4 ≤ g then some .queueOperand else none
  | .tstg _ g q => if q = 1 ∧ 4 ≤ g then some .queueOperand else none
  | .tbcast _ _ s => if 2 < s then some .subCode else none
  | .tset _ g q _ => if q = 1 ∧ 4 ≤ g then some .queueOperand else none
  | .trowg _ _ _ => none
  | .tshift _ _ g q _ => if q = 1 ∧ 4 ≤ g then some .queueOperand else none
  | .tpack _ _ b s => if 2 < s then some .subCode else if s ≠ 0 ∧ b ≠ 0 then some .unusedTile else none
  | .tadd _ _ _ n => if n = 3 then some .neighbour else none
  | .tsub _ _ _ n => if n = 3 then some .neighbour else none
  | .tmul _ _ _ n => if n = 3 then some .neighbour else none
  | .tmin _ _ _ n => if n = 3 then some .neighbour else none
  | .tmax _ _ _ n => if n = 3 then some .neighbour else none
  | .tand _ _ _ n => if n = 3 then some .neighbour else none
  | .tor _ _ _ n => if n = 3 then some .neighbour else none
  | .txor _ _ _ n => if n = 3 then some .neighbour else none
  | .tshl _ _ _ n => if n = 3 then some .neighbour else none
  | .tshr _ _ _ n => if n = 3 then some .neighbour else none
  | .tcmp _ _ _ n c => if n = 3 then some .neighbour else if c = 7 then some .subCode else none
  | .tneg _ _ => none
  | .tabs _ _ => none
  | .texp2 _ _ => none
  | .tlog2 _ _ => none
  | .trcp _ _ => none
  | .trsqrt _ _ => none
  | .tsqrt _ _ => none
  | .ttanh _ _ => none
  | .tcvt _ _ => none
  | .tround _ _ => none
  | .trsum _ _ => none
  | .tcsum _ _ => none
  | .trmax _ _ => none
  | .tcmax _ _ => none
  | .tscan _ _ _ => none
  | .ttopk _ _ _ _ => none
  | .thist _ _ => none
  | .targmax _ _ => none
  | .tfma _ _ _ _ n => if n = 3 then some .neighbour else none
  | .tsel _ _ _ _ n => if n = 3 then some .neighbour else none
  | .tscale _ _ g q => if q = 1 ∧ 4 ≤ g then some .queueOperand else none
  | .tloop g q n => if q = 1 ∧ 4 ≤ g then some .queueOperand else if n = 0 then some .loopLength else none
  | .twait => none
  | .mloadb a g q s f _ => if q = 1 ∧ 4 ≤ g then some .queueOperand else if 9 < f then some .formatCode else if s = 0 ∧ a ≠ 0 then some .unusedTile else none
  | .mfree a s => if a = 1 ∧ s ≠ 0 then some .unusedSlot else none
  | .mma a g q s _ => if q = 1 ∧ 4 ≤ g then some .queueOperand else if s = 1 ∧ a = 15 then some .tilePair else none
  | .mmag _ a g q n s l => if q = 1 ∧ 4 ≤ g then some .queueOperand else if s = 1 ∧ a = 15 then some .tilePair else if n = 0 ∨ 4 < n then some .gangedSlots else if 4 < l.toNat + n.toNat then some .gangedSlots else none
  | .mmal a g q s _ => if q = 1 ∧ 4 ≤ g then some .queueOperand else if s = 1 ∧ a = 15 then some .tilePair else none
  | .azero _ g q => if q = 1 ∧ 4 ≤ g then some .queueOperand else none
  | .ascale _ a g q c r => if q = 1 ∧ 4 ≤ g then some .queueOperand else if c = 0 ∧ r = 0 then some .scaleKind else if c = 1 ∧ r = 1 ∧ a = 15 then some .tilePair else none
  | .adrain _ a g q c r => if q = 1 ∧ 4 ≤ g then some .queueOperand else if c = 0 ∧ r = 0 ∧ a ≠ 0 then some .unusedTile else if c = 1 ∧ r = 1 ∧ a = 15 then some .tilePair else none
  | .amovin _ g q => if q = 1 ∧ 4 ≤ g then some .queueOperand else none
  | .amovout _ g q => if q = 1 ∧ 4 ≤ g then some .queueOperand else none
  | .xcopy _ => none
  | .xgath _ _ => none
  | .xscat _ _ => none
  | .xcancel _ => none
  | .xmcast _ _ _ _ => none
  | .xmread _ _ _ _ => none
  | .xfree _ => none
  | .kputTile _ _ _ => none
  | .kputImage _ _ _ => none
  | .kreadTile _ _ _ _ => none
  | .kreadImage _ _ _ _ => none
  | .kreadCont _ _ _ _ => none
  | .ktakeTile _ _ _ _ => none
  | .ktakeImage _ _ _ _ => none
  | .ktakeCont _ _ _ _ => none
  | .kcancel _ _ => none
  | .ksplit _ _ _ => none
  | .kmap _ _ => none
  | .kstat _ _ _ => none
  | .cmbopen _ _ _ t _ => if t = 15 then some .tilePair else none
  | .cmbput _ _ _ t => if t = 15 then some .tilePair else none
  | .cmbclose _ _ _ => none
  | .cmbstat _ _ => none
  | .msired _ _ _ _ => none
  | .msiscat _ _ _ _ => none
  | .mstopk _ _ _ _ => none
  | .colrs _ _ _ _ => none
  | .colar _ _ _ _ => none
  | .colag _ _ _ => none
  | .colbc _ _ _ => none
  | .colbar _ _ => none
  | .hlikely n _ => if n = 0 then some .hintDistance else none
  | .hpref _ _ => none
  | .ximm _ => none
  | .xmod r s _ o => if 5 < r then some .rounding else if s = 3 then some .saturation else if 1 < o then some .ordering else none
  | .activationChoose _ => none
  | .urgentEventArrive _ => none
  | .urgentPreempt _ => none
  | .stealProbe _ => none
  | .stealBackoffExpire _ => none
  | .stealRequestServe _ => none
  | .stealReplyArrive _ => none
  | .stealAckArrive _ => none
  | .stealReplyReturn _ => none
  | .callatArrive _ => none
  | .messageArrive _ => none
  | .dieResourceReport _ => none
  | .rootPlace _ => none
  | .rootRecordArrive _ => none
  | .dualPairPlace _ => none
  | .continuationDeliver _ => none
  | .roundCloseArrive _ => none
  | .waveStart _ => none
  | .waveAnswer _ => none
  | .branchResolve _ _ => none
  | .loadResponse _ => none
  | .fenceComplete _ => none
  | .drainComplete _ => none
  | .wfeWake _ => none
  | .tileUnitBegin _ => none
  | .tileRowComplete _ => none
  | .tileBandComplete _ _ => none
  | .trapEntry _ => none
  | .leaveGrant _ _ => none
  | .barwComplete _ => none
  | .cntrdReading _ => none
  | .stationTranslate _ => none
  | .faultResolve _ _ => none
  | .faultDecline _ _ => none
  | .faultResolveTimeout _ _ => none
  | .faultQueueRetry _ => none
  | .storePerform _ => none
  | .replicaInvalidateAck _ _ => none
  | .atomicPerform _ => none
  | .peerAccessArrive _ => none
  | .sliceRead _ => none
  | .sectorFill _ _ => none
  | .hotWindowEnd _ => none
  | .helperRead _ => none
  | .copyRowComplete _ _ => none
  | .multicastDelivery _ _ => none
  | .xmreadRequestArrive _ _ => none
  | .xmreadSectorSend _ => none
  | .multicastEnd _ => none
  | .xfreeNoticeArrive _ => none
  | .msPacketExecute _ => none
  | .msComplete _ => none
  | .vcDeadlockTimeout _ => none
  | .flowAck _ => none
  | .collectiveInstanceStart _ _ => none
  | .chunkStart _ _ => none
  | .chunkReservationTimeout _ _ => none
  | .chunkEnd _ => none
  | .collectiveInstanceEnd _ _ => none
  | .communicatorWrite _ _ => none
  | .homeKputArrive _ => none
  | .homeKreadArrive _ => none
  | .homeKtakeArrive _ => none
  | .homeKcancelArrive _ => none
  | .homeRedepositArrive _ => none
  | .keyDeliveryArrive _ => none
  | .keyDeliveryAck _ => none
  | .assayFirstArrival _ => none
  | .assayTwinArrival _ => none
  | .assayRetry _ => none
  | .assayTimeout _ => none
  | .forwardHintArrive _ => none
  | .heldForwardRelease _ => none
  | .mapBroadcastArrive _ => none
  | .splitCopy => none
  | .splitCutover => none
  | .splitAbort _ => none
  | .waidricMessageReceive _ => none
  | .waidricConnectionFail _ _ => none
  | .moduleFailed _ => none
  | .heapResizeRequest _ _ _ => none
  | .sliceCmbopenArrive _ => none
  | .sliceCmbputArrive _ => none
  | .sliceCmbcloseArrive _ => none
  | .combineTimeout _ _ => none
  | .combineRelease _ _ => none
  | .lingerExpire _ _ => none
  | .openWaitServe _ => none
  | .doorbell _ _ => none
  | .packetFetch _ => none
  | .launchPacket _ _ => none
  | .copyPacket _ _ => none
  | .kputPacket _ _ => none
  | .signalPacket _ _ => none
  | .fencePacket _ _ => none
  | .waitcondPacket _ _ => none
  | .waitcondRetest _ _ => none
  | .completionRecordWrite _ _ => none
  | .queueCommit _ _ _ _ => none
  | .commitTakeEffect _ => none
  | .frontEndModeWrite _ => none
  | .firmwareTableWrite _ => none
  | .frameReceive _ _ _ _ => none
  | .firmwareWatchdogReset _ => none
  | .heartbeat _ _ => none
  | .firmwareReplace _ _ => none
  | .partitionSwitchRequest _ => none
  | .partitionHalt _ => none
  | .contextWriteOut _ => none
  | .partitionRestore _ _ => none
  | .spillReloadComplete _ _ => none
  | .slotReloadComplete _ _ => none
  | .partitionGate _ => none
  | .partitionWake _ _ => none
  | .uncorrectableError _ => none
  | .coreKill _ => none
  | .coreMapUpdateArrive _ _ => none
  | .coreMapChangeComplete _ => none
  | .mismatchWindowEnd _ => none
  | .correctedErrorReport _ _ _ _ => none
  | .classificationWindowEnd _ => none
  | .repairServe _ _ => none
  | .translationInvalidate _ _ _ => none
  | .powerOn _ => none
  | .imageVerify _ _ => none
  | .blockReady _ => none
  | .minSvnRaise _ _ _ => none
  | .attestationRequest _ => none
  | .leaveCapWrite _ _ => none
  | .currentMonitorHigh => none
  | .currentMonitorLowSustained => none
  | .snapshotMarkerArrive _ _ => none
  | .snapshotPacketRecord _ _ => none
  | .cutComplete _ => none
  | .linkDeath _ => none
  | .hostRdmaWrite _ _ _ _ => none
  | .replicaDrop _ _ => none
  | .foremanCoreRestart _ => none

/-- No reserved field value (R126). -/
abbrev Instr.WellFormed (i : Instr) : Prop := i.check = none

end Sys2Proof
end

