-- ==== Sys2Proof/Decode.lean ====
section
/-! DEFINITION. The decoder of the 32-bit instruction words (R124-R144), total on any bytes and rejecting by name, and
after it the encoder, written from the same tables. -/

namespace Sys2Proof

/-- Why bytes are no instruction: each raises ILLEGAL when the word is executed (R126, R134). -/
inductive DecodeError where
  /-- Fewer than the four bytes of a word (R124). -/
  | shortWord
  /-- No row of the opcode tables: a reserved major, a reserved function code or a non-zero unused field (R126, R134). -/
  | reserved
  /-- A row of the tables with a reserved field value (R126). -/
  | illFormed (c : IllFormed)
  deriving DecidableEq, Repr

/-- Bits [lo + n - 1 : lo] of a word. -/
def fld (w lo n : Nat) : Nat := w / 2 ^ lo % 2 ^ n

/-- Bits [lo + n - 1 : lo] of a word, as the field of an instruction. -/
def fldv (w lo n : Nat) : BitVec n := BitVec.ofNat n (w / 2 ^ lo)

/-- Major 0x01 (R134): the rows of its function codes. -/
def decodeSys (w : Nat) : Option Instr :=
  if fld w 12 9 = 0 then some (.sysr (fldv w 21 5) (fldv w 0 12)) else
  if fld w 12 4 = 1 ∧ fld w 21 5 = 0 then some (.sysw (fldv w 16 5) (fldv w 0 12)) else
  if fld w 12 14 = 2 then some (.trap (fldv w 0 12)) else
  if fld w 0 26 = 12288 then some .eret else
  if fld w 4 22 = 1024 then some (.wfe (fldv w 0 4)) else
  if fld w 0 26 = 20480 then some .iflush else
  if fld w 0 26 = 24576 then some .halt else
  if fld w 12 14 = 7 then some (.snap (fldv w 0 12)) else
  if fld w 0 16 = 32768 then some (.leave (fldv w 21 5) (fldv w 16 5)) else
  none

/-- Major 0x02 (R134): the rows of its function codes. -/
def decodeIntR (w : Nat) : Option Instr :=
  if fld w 0 11 = 0 then some (.add (fldv w 21 5) (fldv w 16 5) (fldv w 11 5)) else
  if fld w 0 11 = 1 then some (.sub (fldv w 21 5) (fldv w 16 5) (fldv w 11 5)) else
  if fld w 0 11 = 2 then some (.and (fldv w 21 5) (fldv w 16 5) (fldv w 11 5)) else
  if fld w 0 11 = 3 then some (.or (fldv w 21 5) (fldv w 16 5) (fldv w 11 5)) else
  if fld w 0 11 = 4 then some (.xor (fldv w 21 5) (fldv w 16 5) (fldv w 11 5)) else
  if fld w 0 11 = 5 then some (.andn (fldv w 21 5) (fldv w 16 5) (fldv w 11 5)) else
  if fld w 0 11 = 6 then some (.orn (fldv w 21 5) (fldv w 16 5) (fldv w 11 5)) else
  if fld w 0 11 = 8 then some (.sll (fldv w 21 5) (fldv w 16 5) (fldv w 11 5)) else
  if fld w 0 11 = 9 then some (.srl (fldv w 21 5) (fldv w 16 5) (fldv w 11 5)) else
  if fld w 0 11 = 10 then some (.sra (fldv w 21 5) (fldv w 16 5) (fldv w 11 5)) else
  if fld w 0 11 = 12 then some (.slt (fldv w 21 5) (fldv w 16 5) (fldv w 11 5)) else
  if fld w 0 11 = 13 then some (.sltu (fldv w 21 5) (fldv w 16 5) (fldv w 11 5)) else
  if fld w 0 11 = 16 then some (.min (fldv w 21 5) (fldv w 16 5) (fldv w 11 5)) else
  if fld w 0 11 = 17 then some (.max (fldv w 21 5) (fldv w 16 5) (fldv w 11 5)) else
  if fld w 0 11 = 18 then some (.minu (fldv w 21 5) (fldv w 16 5) (fldv w 11 5)) else
  if fld w 0 11 = 19 then some (.maxu (fldv w 21 5) (fldv w 16 5) (fldv w 11 5)) else
  if fld w 2 9 = 6 then some (.lea (fldv w 21 5) (fldv w 16 5) (fldv w 11 5) (fldv w 0 2)) else
  none

/-- Major 0x03 (R134): the rows of its function codes. -/
def decodeIntI (w : Nat) : Option Instr :=
  if fld w 12 4 = 0 then some (.addi (fldv w 21 5) (fldv w 16 5) (fldv w 0 12)) else
  if fld w 12 4 = 1 then some (.andi (fldv w 21 5) (fldv w 16 5) (fldv w 0 12)) else
  if fld w 12 4 = 2 then some (.ori (fldv w 21 5) (fldv w 16 5) (fldv w 0 12)) else
  if fld w 12 4 = 3 then some (.xori (fldv w 21 5) (fldv w 16 5) (fldv w 0 12)) else
  if fld w 6 10 = 256 then some (.slli (fldv w 21 5) (fldv w 16 5) (fldv w 0 6)) else
  if fld w 6 10 = 320 then some (.srli (fldv w 21 5) (fldv w 16 5) (fldv w 0 6)) else
  if fld w 6 10 = 384 then some (.srai (fldv w 21 5) (fldv w 16 5) (fldv w 0 6)) else
  if fld w 12 4 = 7 then some (.slti (fldv w 21 5) (fldv w 16 5) (fldv w 0 12)) else
  if fld w 12 4 = 8 then some (.sltiu (fldv w 21 5) (fldv w 16 5) (fldv w 0 12)) else
  if fld w 12 4 = 9 then some (.lih (fldv w 21 5) (fldv w 16 5) (fldv w 0 12)) else
  none

/-- Major 0x04 (R134): the rows of its function codes. -/
def decodeMulDiv (w : Nat) : Option Instr :=
  if fld w 0 11 = 0 then some (.mul (fldv w 21 5) (fldv w 16 5) (fldv w 11 5)) else
  if fld w 0 11 = 1 then some (.mulh (fldv w 21 5) (fldv w 16 5) (fldv w 11 5)) else
  if fld w 0 11 = 2 then some (.mulhu (fldv w 21 5) (fldv w 16 5) (fldv w 11 5)) else
  if fld w 0 11 = 4 then some (.div (fldv w 21 5) (fldv w 16 5) (fldv w 11 5)) else
  if fld w 0 11 = 5 then some (.divu (fldv w 21 5) (fldv w 16 5) (fldv w 11 5)) else
  if fld w 0 11 = 6 then some (.rem (fldv w 21 5) (fldv w 16 5) (fldv w 11 5)) else
  if fld w 0 11 = 7 then some (.remu (fldv w 21 5) (fldv w 16 5) (fldv w 11 5)) else
  none

/-- Major 0x05 (R134): the rows of its function codes. -/
def decodeBit (w : Nat) : Option Instr :=
  if fld w 0 16 = 0 then some (.clz (fldv w 21 5) (fldv w 16 5)) else
  if fld w 0 16 = 1 then some (.ctz (fldv w 21 5) (fldv w 16 5)) else
  if fld w 0 16 = 2 then some (.popc (fldv w 21 5) (fldv w 16 5)) else
  if fld w 0 16 = 3 then some (.brev (fldv w 21 5) (fldv w 16 5)) else
  if fld w 0 11 = 4 then some (.bext (fldv w 21 5) (fldv w 16 5) (fldv w 11 5)) else
  if fld w 0 11 = 5 then some (.bins (fldv w 21 5) (fldv w 16 5) (fldv w 11 5)) else
  none

/-- Major 0x06 (R134): the rows of its function codes. -/
def decodeMovq (w : Nat) : Option Instr :=
  if fld w 0 11 = 0 ∧ fld w 13 3 = 0 ∧ fld w 21 5 = 0 then some (.qpush (fldv w 16 5) (fldv w 11 2)) else
  if fld w 0 11 = 1 ∧ fld w 13 8 = 1 then some (.qpop (fldv w 21 5) (fldv w 11 2)) else
  if fld w 0 11 = 2 ∧ fld w 14 7 = 0 then some (.qlen (fldv w 21 5) (fldv w 11 3)) else
  none

/-- Major 0x08 (R134): the rows of its function codes. -/
def decodeBeq (w : Nat) : Option Instr :=
  some (.beq (fldv w 21 5) (fldv w 16 5) (fldv w 0 16))

/-- Major 0x09 (R134): the rows of its function codes. -/
def decodeBne (w : Nat) : Option Instr :=
  some (.bne (fldv w 21 5) (fldv w 16 5) (fldv w 0 16))

/-- Major 0x0A (R134): the rows of its function codes. -/
def decodeBlt (w : Nat) : Option Instr :=
  some (.blt (fldv w 21 5) (fldv w 16 5) (fldv w 0 16))

/-- Major 0x0B (R134): the rows of its function codes. -/
def decodeBge (w : Nat) : Option Instr :=
  some (.bge (fldv w 21 5) (fldv w 16 5) (fldv w 0 16))

/-- Major 0x0C (R134): the rows of its function codes. -/
def decodeBltu (w : Nat) : Option Instr :=
  some (.bltu (fldv w 21 5) (fldv w 16 5) (fldv w 0 16))

/-- Major 0x0D (R134): the rows of its function codes. -/
def decodeBgeu (w : Nat) : Option Instr :=
  some (.bgeu (fldv w 21 5) (fldv w 16 5) (fldv w 0 16))

/-- Major 0x0E (R134): the rows of its function codes. -/
def decodeJal (w : Nat) : Option Instr :=
  some (.jal (fldv w 0 26))

/-- Major 0x0F (R134): the rows of its function codes. -/
def decodeJump (w : Nat) : Option Instr :=
  if fld w 14 2 = 0 then some (.jalr (fldv w 21 5) (fldv w 16 5) (fldv w 0 14)) else
  if fld w 14 2 = 1 ∧ fld w 21 5 = 0 then some (.loopnz (fldv w 16 5) (fldv w 0 14)) else
  none

/-- Major 0x10 (R134): the rows of its function codes. -/
def decodeLd (w : Nat) : Option Instr :=
  if fld w 11 5 = 0 then some (.ld (fldv w 21 5) (fldv w 16 5) (fldv w 8 3) (fldv w 0 8)) else
  none

/-- Major 0x11 (R134): the rows of its function codes. -/
def decodeSt (w : Nat) : Option Instr :=
  if fld w 21 5 = 0 then some (.st (fldv w 16 5) (fldv w 11 5) (fldv w 8 3) (fldv w 0 8)) else
  none

/-- Major 0x12 (R134): the rows of its function codes. -/
def decodeAtom (w : Nat) : Option Instr :=
  if fld w 0 2 = 0 ∧ fld w 5 3 = 0 then some (.amoadd (fldv w 21 5) (fldv w 16 5) (fldv w 11 5) (fldv w 8 3) (fldv w 4 1) (fldv w 2 2)) else
  if fld w 0 2 = 0 ∧ fld w 5 3 = 1 then some (.amomin (fldv w 21 5) (fldv w 16 5) (fldv w 11 5) (fldv w 8 3) (fldv w 4 1) (fldv w 2 2)) else
  if fld w 0 2 = 0 ∧ fld w 5 3 = 2 then some (.amomax (fldv w 21 5) (fldv w 16 5) (fldv w 11 5) (fldv w 8 3) (fldv w 4 1) (fldv w 2 2)) else
  if fld w 0 2 = 0 ∧ fld w 5 3 = 3 then some (.amoand (fldv w 21 5) (fldv w 16 5) (fldv w 11 5) (fldv w 8 3) (fldv w 4 1) (fldv w 2 2)) else
  if fld w 0 2 = 0 ∧ fld w 5 3 = 4 then some (.amoor (fldv w 21 5) (fldv w 16 5) (fldv w 11 5) (fldv w 8 3) (fldv w 4 1) (fldv w 2 2)) else
  if fld w 0 2 = 0 ∧ fld w 5 3 = 5 then some (.amoxor (fldv w 21 5) (fldv w 16 5) (fldv w 11 5) (fldv w 8 3) (fldv w 4 1) (fldv w 2 2)) else
  if fld w 0 2 = 0 ∧ fld w 5 3 = 6 then some (.amoswap (fldv w 21 5) (fldv w 16 5) (fldv w 11 5) (fldv w 8 3) (fldv w 4 1) (fldv w 2 2)) else
  if fld w 0 2 = 0 ∧ fld w 5 3 = 7 then some (.cas (fldv w 21 5) (fldv w 16 5) (fldv w 11 5) (fldv w 8 3) (fldv w 4 1) (fldv w 2 2)) else
  none

/-- Major 0x13 (R134): the rows of its function codes. -/
def decodeOrder (w : Nat) : Option Instr :=
  if fld w 0 2 = 0 ∧ fld w 4 4 = 0 ∧ fld w 11 10 = 0 then some (.fence (fldv w 21 5) (fldv w 8 3) (fldv w 2 2)) else
  if fld w 3 23 = 2 then some (.drain (fldv w 0 3)) else
  none

/-- Major 0x14 (R134): the rows of its function codes. -/
def decodeTask (w : Nat) : Option Instr :=
  if fld w 0 3 = 0 ∧ fld w 8 5 = 0 then some (.spawn (fldv w 21 5) (fldv w 16 5) (fldv w 13 3) (fldv w 6 2) (fldv w 4 2) (fldv w 3 1)) else
  if fld w 0 4 = 0 ∧ fld w 8 5 = 1 then some (.callat (fldv w 21 5) (fldv w 16 5) (fldv w 13 3) (fldv w 6 2) (fldv w 4 2)) else
  if fld w 0 11 = 512 then some (.retv (fldv w 21 5) (fldv w 16 5) (fldv w 11 5)) else
  if fld w 0 26 = 768 then some .endAct else
  if fld w 0 13 = 1024 then some (.msend (fldv w 21 5) (fldv w 16 5) (fldv w 13 3)) else
  if fld w 0 13 = 1280 ∧ fld w 16 5 = 0 then some (.mpoll (fldv w 21 5) (fldv w 13 3)) else
  none

/-- Major 0x15 (R134): the rows of its function codes. -/
def decodeGang (w : Nat) : Option Instr :=
  if fld w 2 19 = 0 then some (.gang (fldv w 21 5) (fldv w 0 2)) else
  if fld w 0 26 = 256 then some .ungang else
  if fld w 0 21 = 512 then some (.gsync (fldv w 21 5)) else
  none

/-- Major 0x16 (R134): the rows of its function codes. -/
def decodeBar (w : Nat) : Option Instr :=
  if fld w 0 11 = 0 then some (.barmArm (fldv w 21 5) (fldv w 16 5) (fldv w 11 5)) else
  if fld w 0 11 = 256 then some (.bara (fldv w 21 5) (fldv w 16 5) (fldv w 11 5)) else
  if fld w 0 16 = 512 then some (.barw (fldv w 21 5) (fldv w 16 5)) else
  if fld w 0 11 = 768 then some (.cntrd (fldv w 21 5) (fldv w 16 5) (fldv w 11 5)) else
  if fld w 0 11 = 1024 then some (.cntadd (fldv w 21 5) (fldv w 16 5) (fldv w 11 5)) else
  if fld w 0 11 = 1280 then some (.rndclose (fldv w 21 5) (fldv w 16 5) (fldv w 11 5)) else
  none

/-- Major 0x18 (R134): the rows of its function codes. -/
def decodeTileState (w : Nat) : Option Instr :=
  if fld w 0 5 = 0 ∧ fld w 9 3 = 0 ∧ fld w 18 4 = 0 then some (.tbind (fldv w 22 4) (fldv w 13 5) (fldv w 12 1) (fldv w 5 4)) else
  if fld w 0 12 = 1 ∧ fld w 18 4 = 0 then some (.tshape (fldv w 22 4) (fldv w 13 5) (fldv w 12 1)) else
  if fld w 0 12 = 2 ∧ fld w 18 4 = 0 then some (.tvalid (fldv w 22 4) (fldv w 13 5) (fldv w 12 1)) else
  if fld w 0 5 = 3 ∧ fld w 7 15 = 0 then some (.tfill (fldv w 22 4) (fldv w 5 2)) else
  if fld w 0 5 = 4 ∧ fld w 8 5 = 16 ∧ fld w 15 3 = 0 ∧ fld w 22 4 = 0 then some (.tget (fldv w 18 4) (fldv w 13 2) (fldv w 5 3)) else
  none

/-- Major 0x19 (R134): the rows of its function codes. TSET's par bit 0 chooses raw or value, as R198 says; R141's row lists no par
bit for TSET (DEDUCED, log 43). -/
def decodeTmov (w : Nat) : Option Instr :=
  if fld w 0 8 = 0 ∧ fld w 10 8 = 0 then some (.tcopy (fldv w 22 4) (fldv w 18 4) (fldv w 8 2)) else
  if fld w 0 18 = 1 then some (.ttrans (fldv w 22 4) (fldv w 18 4)) else
  if fld w 0 12 = 2 ∧ fld w 18 4 = 0 then some (.tldg (fldv w 22 4) (fldv w 13 5) (fldv w 12 1)) else
  if fld w 0 12 = 3 ∧ fld w 18 4 = 0 then some (.tstg (fldv w 22 4) (fldv w 13 5) (fldv w 12 1)) else
  if fld w 0 5 = 4 ∧ fld w 8 10 = 0 then some (.tbcast (fldv w 22 4) (fldv w 18 4) (fldv w 5 3)) else
  if fld w 0 5 = 5 ∧ fld w 6 6 = 0 ∧ fld w 18 4 = 0 then some (.tset (fldv w 22 4) (fldv w 13 5) (fldv w 12 1) (fldv w 5 1)) else
  if fld w 0 14 = 6 then some (.trowg (fldv w 22 4) (fldv w 18 4) (fldv w 14 4)) else
  if fld w 0 5 = 7 ∧ fld w 6 6 = 0 then some (.tshift (fldv w 22 4) (fldv w 18 4) (fldv w 13 5) (fldv w 12 1) (fldv w 5 1)) else
  if fld w 0 5 = 8 ∧ fld w 8 6 = 0 then some (.tpack (fldv w 22 4) (fldv w 18 4) (fldv w 14 4) (fldv w 5 3)) else
  none

/-- Major 0x1A (R134): the rows of its function codes. -/
def decodeTalu (w : Nat) : Option Instr :=
  if fld w 0 8 = 0 ∧ fld w 10 4 = 0 then some (.tadd (fldv w 22 4) (fldv w 18 4) (fldv w 14 4) (fldv w 8 2)) else
  if fld w 0 8 = 1 ∧ fld w 10 4 = 0 then some (.tsub (fldv w 22 4) (fldv w 18 4) (fldv w 14 4) (fldv w 8 2)) else
  if fld w 0 8 = 2 ∧ fld w 10 4 = 0 then some (.tmul (fldv w 22 4) (fldv w 18 4) (fldv w 14 4) (fldv w 8 2)) else
  if fld w 0 8 = 3 ∧ fld w 10 4 = 0 then some (.tmin (fldv w 22 4) (fldv w 18 4) (fldv w 14 4) (fldv w 8 2)) else
  if fld w 0 8 = 4 ∧ fld w 10 4 = 0 then some (.tmax (fldv w 22 4) (fldv w 18 4) (fldv w 14 4) (fldv w 8 2)) else
  if fld w 0 8 = 5 ∧ fld w 10 4 = 0 then some (.tand (fldv w 22 4) (fldv w 18 4) (fldv w 14 4) (fldv w 8 2)) else
  if fld w 0 8 = 6 ∧ fld w 10 4 = 0 then some (.tor (fldv w 22 4) (fldv w 18 4) (fldv w 14 4) (fldv w 8 2)) else
  if fld w 0 8 = 7 ∧ fld w 10 4 = 0 then some (.txor (fldv w 22 4) (fldv w 18 4) (fldv w 14 4) (fldv w 8 2)) else
  if fld w 0 8 = 8 ∧ fld w 10 4 = 0 then some (.tshl (fldv w 22 4) (fldv w 18 4) (fldv w 14 4) (fldv w 8 2)) else
  if fld w 0 8 = 9 ∧ fld w 10 4 = 0 then some (.tshr (fldv w 22 4) (fldv w 18 4) (fldv w 14 4) (fldv w 8 2)) else
  if fld w 0 5 = 10 ∧ fld w 10 4 = 0 then some (.tcmp (fldv w 22 4) (fldv w 18 4) (fldv w 14 4) (fldv w 8 2) (fldv w 5 3)) else
  none

/-- Major 0x1B (R134): the rows of its function codes. -/
def decodeTuna (w : Nat) : Option Instr :=
  if fld w 0 18 = 0 then some (.tneg (fldv w 22 4) (fldv w 18 4)) else
  if fld w 0 18 = 1 then some (.tabs (fldv w 22 4) (fldv w 18 4)) else
  if fld w 0 18 = 2 then some (.texp2 (fldv w 22 4) (fldv w 18 4)) else
  if fld w 0 18 = 3 then some (.tlog2 (fldv w 22 4) (fldv w 18 4)) else
  if fld w 0 18 = 4 then some (.trcp (fldv w 22 4) (fldv w 18 4)) else
  if fld w 0 18 = 5 then some (.trsqrt (fldv w 22 4) (fldv w 18 4)) else
  if fld w 0 18 = 6 then some (.tsqrt (fldv w 22 4) (fldv w 18 4)) else
  if fld w 0 18 = 7 then some (.ttanh (fldv w 22 4) (fldv w 18 4)) else
  if fld w 0 18 = 8 then some (.tcvt (fldv w 22 4) (fldv w 18 4)) else
  if fld w 0 18 = 9 then some (.tround (fldv w 22 4) (fldv w 18 4)) else
  none

/-- Major 0x1C (R134): the rows of its function codes. -/
def decodeTred (w : Nat) : Option Instr :=
  if fld w 0 18 = 0 then some (.trsum (fldv w 22 4) (fldv w 18 4)) else
  if fld w 0 18 = 1 then some (.tcsum (fldv w 22 4) (fldv w 18 4)) else
  if fld w 0 18 = 2 then some (.trmax (fldv w 22 4) (fldv w 18 4)) else
  if fld w 0 18 = 3 then some (.tcmax (fldv w 22 4) (fldv w 18 4)) else
  if fld w 0 5 = 4 ∧ fld w 6 12 = 0 then some (.tscan (fldv w 22 4) (fldv w 18 4) (fldv w 5 1)) else
  if fld w 0 5 = 5 ∧ fld w 8 6 = 0 then some (.ttopk (fldv w 22 4) (fldv w 18 4) (fldv w 14 4) (fldv w 5 3)) else
  if fld w 0 18 = 6 then some (.thist (fldv w 22 4) (fldv w 18 4)) else
  if fld w 0 18 = 7 then some (.targmax (fldv w 22 4) (fldv w 18 4)) else
  none

/-- Major 0x1D (R134): the rows of its function codes. -/
def decodeTfma (w : Nat) : Option Instr :=
  if fld w 0 8 = 0 then some (.tfma (fldv w 22 4) (fldv w 18 4) (fldv w 14 4) (fldv w 10 4) (fldv w 8 2)) else
  if fld w 0 8 = 1 then some (.tsel (fldv w 22 4) (fldv w 18 4) (fldv w 14 4) (fldv w 10 4) (fldv w 8 2)) else
  if fld w 0 12 = 2 then some (.tscale (fldv w 22 4) (fldv w 18 4) (fldv w 13 5) (fldv w 12 1)) else
  none

/-- Major 0x1E (R134): the rows of its function codes. -/
def decodeTloop (w : Nat) : Option Instr :=
  if fld w 0 5 = 0 ∧ fld w 9 3 = 0 ∧ fld w 18 8 = 0 then some (.tloop (fldv w 13 5) (fldv w 12 1) (fldv w 5 4)) else
  if fld w 0 26 = 1 then some .twait else
  none

/-- Major 0x20 (R134): the rows of its function codes. -/
def decodeMload (w : Nat) : Option Instr :=
  if fld w 0 5 = 0 ∧ fld w 22 4 = 0 then some (.mloadb (fldv w 18 4) (fldv w 13 5) (fldv w 12 1) (fldv w 11 1) (fldv w 7 4) (fldv w 5 2)) else
  if fld w 0 5 = 1 ∧ fld w 8 18 = 0 then some (.mfree (fldv w 7 1) (fldv w 5 2)) else
  none

/-- Major 0x21 (R134): the rows of its function codes. -/
def decodeMma (w : Nat) : Option Instr :=
  if fld w 0 5 = 0 ∧ fld w 8 4 = 0 ∧ fld w 22 4 = 0 then some (.mma (fldv w 18 4) (fldv w 13 5) (fldv w 12 1) (fldv w 7 1) (fldv w 5 2)) else
  if fld w 0 5 = 1 ∧ fld w 11 1 = 0 then some (.mmag (fldv w 22 4) (fldv w 18 4) (fldv w 13 5) (fldv w 12 1) (fldv w 8 3) (fldv w 7 1) (fldv w 5 2)) else
  if fld w 0 5 = 2 ∧ fld w 8 4 = 0 ∧ fld w 22 4 = 0 then some (.mmal (fldv w 18 4) (fldv w 13 5) (fldv w 12 1) (fldv w 7 1) (fldv w 5 2)) else
  none

/-- Major 0x22 (R134): the rows of its function codes. -/
def decodeAcc (w : Nat) : Option Instr :=
  if fld w 0 12 = 0 ∧ fld w 18 4 = 0 then some (.azero (fldv w 22 4) (fldv w 13 5) (fldv w 12 1)) else
  if fld w 0 5 = 1 ∧ fld w 7 5 = 0 then some (.ascale (fldv w 22 4) (fldv w 18 4) (fldv w 13 5) (fldv w 12 1) (fldv w 6 1) (fldv w 5 1)) else
  if fld w 0 5 = 2 ∧ fld w 7 5 = 0 then some (.adrain (fldv w 22 4) (fldv w 18 4) (fldv w 13 5) (fldv w 12 1) (fldv w 6 1) (fldv w 5 1)) else
  if fld w 0 12 = 3 ∧ fld w 22 4 = 0 then some (.amovin (fldv w 18 4) (fldv w 13 5) (fldv w 12 1)) else
  if fld w 0 12 = 4 ∧ fld w 18 4 = 0 then some (.amovout (fldv w 22 4) (fldv w 13 5) (fldv w 12 1)) else
  none

/-- Major 0x24 (R134): the rows of its function codes. -/
def decodeXcopy (w : Nat) : Option Instr :=
  if fld w 0 21 = 0 then some (.xcopy (fldv w 21 5)) else
  if fld w 0 6 = 1 ∧ fld w 10 11 = 0 then some (.xgath (fldv w 21 5) (fldv w 6 4)) else
  if fld w 0 6 = 2 ∧ fld w 10 11 = 0 then some (.xscat (fldv w 21 5) (fldv w 6 4)) else
  if fld w 0 21 = 3 then some (.xcancel (fldv w 21 5)) else
  none

/-- Major 0x25 (R134): the rows of its function codes. -/
def decodeXmcast (w : Nat) : Option Instr :=
  if fld w 0 6 = 0 ∧ fld w 10 1 = 0 then some (.xmcast (fldv w 21 5) (fldv w 16 5) (fldv w 11 5) (fldv w 6 4)) else
  if fld w 0 6 = 1 ∧ fld w 10 1 = 0 then some (.xmread (fldv w 21 5) (fldv w 16 5) (fldv w 11 5) (fldv w 6 4)) else
  if fld w 0 16 = 2 ∧ fld w 21 5 = 0 then some (.xfree (fldv w 16 5)) else
  none

/-- Major 0x28 (R134): the rows of its function codes. -/
def decodeKey (w : Nat) : Option Instr :=
  if fld w 0 6 = 0 ∧ fld w 10 8 = 0 then some (.kputTile (fldv w 21 5) (fldv w 18 3) (fldv w 6 4)) else
  if fld w 0 11 = 32 ∧ fld w 16 2 = 0 then some (.kputImage (fldv w 21 5) (fldv w 18 3) (fldv w 11 5)) else
  if fld w 0 3 = 1 ∧ fld w 4 2 = 0 ∧ fld w 10 9 = 0 then some (.kreadTile (fldv w 21 5) (fldv w 19 2) (fldv w 6 4) (fldv w 3 1)) else
  if fld w 0 3 = 1 ∧ fld w 4 7 = 2 ∧ fld w 16 3 = 0 then some (.kreadImage (fldv w 21 5) (fldv w 19 2) (fldv w 11 5) (fldv w 3 1)) else
  if fld w 0 6 = 17 ∧ fld w 10 1 = 0 ∧ fld w 16 3 = 0 then some (.kreadCont (fldv w 21 5) (fldv w 19 2) (fldv w 11 5) (fldv w 6 4)) else
  if fld w 0 3 = 2 ∧ fld w 4 2 = 0 ∧ fld w 10 9 = 0 then some (.ktakeTile (fldv w 21 5) (fldv w 19 2) (fldv w 6 4) (fldv w 3 1)) else
  if fld w 0 3 = 2 ∧ fld w 4 7 = 2 ∧ fld w 16 3 = 0 then some (.ktakeImage (fldv w 21 5) (fldv w 19 2) (fldv w 11 5) (fldv w 3 1)) else
  if fld w 0 6 = 18 ∧ fld w 10 1 = 0 ∧ fld w 16 3 = 0 then some (.ktakeCont (fldv w 21 5) (fldv w 19 2) (fldv w 11 5) (fldv w 6 4)) else
  if fld w 0 19 = 3 then some (.kcancel (fldv w 21 5) (fldv w 19 2)) else
  none

/-- Major 0x29 (R134): the rows of its function codes. -/
def decodeKsys (w : Nat) : Option Instr :=
  if fld w 0 11 = 0 then some (.ksplit (fldv w 21 5) (fldv w 16 5) (fldv w 11 5)) else
  if fld w 0 18 = 1 then some (.kmap (fldv w 21 5) (fldv w 18 3)) else
  if fld w 0 11 = 2 then some (.kstat (fldv w 21 5) (fldv w 16 5) (fldv w 11 5)) else
  none

/-- Major 0x2A (R134): the rows of its function codes. -/
def decodeCmb (w : Nat) : Option Instr :=
  if fld w 0 3 = 0 ∧ fld w 4 2 = 0 ∧ fld w 10 1 = 0 then some (.cmbopen (fldv w 21 5) (fldv w 16 5) (fldv w 11 5) (fldv w 6 4) (fldv w 3 1)) else
  if fld w 0 6 = 1 ∧ fld w 10 1 = 0 then some (.cmbput (fldv w 21 5) (fldv w 16 5) (fldv w 11 5) (fldv w 6 4)) else
  if fld w 0 11 = 2 then some (.cmbclose (fldv w 21 5) (fldv w 16 5) (fldv w 11 5)) else
  if fld w 0 16 = 3 then some (.cmbstat (fldv w 21 5) (fldv w 16 5)) else
  none

/-- Major 0x2B (R134): the rows of its function codes. -/
def decodeMs (w : Nat) : Option Instr :=
  if fld w 0 6 = 0 ∧ fld w 10 1 = 0 then some (.msired (fldv w 21 5) (fldv w 16 5) (fldv w 11 5) (fldv w 6 4)) else
  if fld w 0 6 = 1 ∧ fld w 10 1 = 0 then some (.msiscat (fldv w 21 5) (fldv w 16 5) (fldv w 11 5) (fldv w 6 4)) else
  if fld w 0 3 = 2 ∧ fld w 6 5 = 0 then some (.mstopk (fldv w 21 5) (fldv w 16 5) (fldv w 11 5) (fldv w 3 3)) else
  none

/-- Major 0x2C (R134): the rows of its function codes. -/
def decodeCol (w : Nat) : Option Instr :=
  if fld w 0 3 = 0 ∧ fld w 4 7 = 0 then some (.colrs (fldv w 21 5) (fldv w 16 5) (fldv w 11 5) (fldv w 3 1)) else
  if fld w 0 3 = 1 ∧ fld w 4 7 = 0 then some (.colar (fldv w 21 5) (fldv w 16 5) (fldv w 11 5) (fldv w 3 1)) else
  if fld w 0 11 = 2 then some (.colag (fldv w 21 5) (fldv w 16 5) (fldv w 11 5)) else
  if fld w 0 11 = 3 then some (.colbc (fldv w 21 5) (fldv w 16 5) (fldv w 11 5)) else
  if fld w 0 16 = 4 then some (.colbar (fldv w 21 5) (fldv w 16 5)) else
  none

/-- Major 0x3E (R134): the rows of its function codes. -/
def decodeHint (w : Nat) : Option Instr :=
  if fld w 0 15 = 0 ∧ fld w 24 2 = 0 then some (.hlikely (fldv w 16 8) (fldv w 15 1)) else
  if fld w 24 2 = 1 then some (.hpref (fldv w 20 4) (fldv w 0 20)) else
  none

/-- Major 0x3F (R134): the rows of its function codes. -/
def decodePrefix (w : Nat) : Option Instr :=
  if fld w 24 2 = 0 then some (.ximm (fldv w 0 24)) else
  if fld w 0 16 = 0 ∧ fld w 24 2 = 1 then some (.xmod (fldv w 21 3) (fldv w 19 2) (fldv w 18 1) (fldv w 16 2)) else
  none

/-- The row of the opcode tables that a word belongs to, by its major opcode (R134); none for a reserved encoding. -/
def decodeRow (w : Nat) : Option Instr :=
  match fld w 26 6 with
  | 1 => decodeSys w
  | 2 => decodeIntR w
  | 3 => decodeIntI w
  | 4 => decodeMulDiv w
  | 5 => decodeBit w
  | 6 => decodeMovq w
  | 8 => decodeBeq w
  | 9 => decodeBne w
  | 10 => decodeBlt w
  | 11 => decodeBge w
  | 12 => decodeBltu w
  | 13 => decodeBgeu w
  | 14 => decodeJal w
  | 15 => decodeJump w
  | 16 => decodeLd w
  | 17 => decodeSt w
  | 18 => decodeAtom w
  | 19 => decodeOrder w
  | 20 => decodeTask w
  | 21 => decodeGang w
  | 22 => decodeBar w
  | 24 => decodeTileState w
  | 25 => decodeTmov w
  | 26 => decodeTalu w
  | 27 => decodeTuna w
  | 28 => decodeTred w
  | 29 => decodeTfma w
  | 30 => decodeTloop w
  | 32 => decodeMload w
  | 33 => decodeMma w
  | 34 => decodeAcc w
  | 36 => decodeXcopy w
  | 37 => decodeXmcast w
  | 40 => decodeKey w
  | 41 => decodeKsys w
  | 42 => decodeCmb w
  | 43 => decodeMs w
  | 44 => decodeCol w
  | 62 => decodeHint w
  | 63 => decodePrefix w
  | _ => none

/-- The instruction of a word (R124-R144), or the name of what is wrong with it. -/
def decodeWord (w : Nat) : Except DecodeError Instr :=
  match decodeRow w with
  | none => .error .reserved
  | some i =>
    match i.check with
    | none => .ok i
    | some c => .error (.illFormed c)

/-- The number that little-endian bytes spell (R2). -/
def leNat (bs : List Byte) : Nat :=
  match bs with
  | [] => 0
  | b :: r => b.toNat + 256 * leNat r

/-- The n little-endian bytes of a number (R2). -/
def leBytes (n v : Nat) : List Byte :=
  match n with
  | 0 => []
  | k + 1 => BitVec.ofNat 8 v :: leBytes k (v / 256)

/-- The instruction that the first four bytes of a list spell, little-endian (R124). -/
def decodeBytes (bs : List Byte) : Except DecodeError Instr :=
  match bs with
  | b0 :: b1 :: b2 :: b3 :: _ => decodeWord (leNat [b0, b1, b2, b3])
  | _ => .error .shortWord

/-- The word of an encoded instruction, from the encoding tables of R124 and R135-R144; an event has none. The three
rows of BARM are one encoding (R139, R527). -/
def encode (i : Instr) : Option Nat :=
  match i with
  | .sysr d p => some (67108864 + d.toNat * 2097152 + p.toNat * 1)
  | .sysw a p => some (67112960 + a.toNat * 65536 + p.toNat * 1)
  | .trap p => some (67117056 + p.toNat * 1)
  | .eret => some (67121152)
  | .wfe m => some (67125248 + m.toNat * 1)
  | .iflush => some (67129344)
  | .halt => some (67133440)
  | .snap p => some (67137536 + p.toNat * 1)
  | .leave d a => some (67141632 + d.toNat * 2097152 + a.toNat * 65536)
  | .add d a b => some (134217728 + d.toNat * 2097152 + a.toNat * 65536 + b.toNat * 2048)
  | .sub d a b => some (134217729 + d.toNat * 2097152 + a.toNat * 65536 + b.toNat * 2048)
  | .and d a b => some (134217730 + d.toNat * 2097152 + a.toNat * 65536 + b.toNat * 2048)
  | .or d a b => some (134217731 + d.toNat * 2097152 + a.toNat * 65536 + b.toNat * 2048)
  | .xor d a b => some (134217732 + d.toNat * 2097152 + a.toNat * 65536 + b.toNat * 2048)
  | .andn d a b => some (134217733 + d.toNat * 2097152 + a.toNat * 65536 + b.toNat * 2048)
  | .orn d a b => some (134217734 + d.toNat * 2097152 + a.toNat * 65536 + b.toNat * 2048)
  | .sll d a b => some (134217736 + d.toNat * 2097152 + a.toNat * 65536 + b.toNat * 2048)
  | .srl d a b => some (134217737 + d.toNat * 2097152 + a.toNat * 65536 + b.toNat * 2048)
  | .sra d a b => some (134217738 + d.toNat * 2097152 + a.toNat * 65536 + b.toNat * 2048)
  | .slt d a b => some (134217740 + d.toNat * 2097152 + a.toNat * 65536 + b.toNat * 2048)
  | .sltu d a b => some (134217741 + d.toNat * 2097152 + a.toNat * 65536 + b.toNat * 2048)
  | .min d a b => some (134217744 + d.toNat * 2097152 + a.toNat * 65536 + b.toNat * 2048)
  | .max d a b => some (134217745 + d.toNat * 2097152 + a.toNat * 65536 + b.toNat * 2048)
  | .minu d a b => some (134217746 + d.toNat * 2097152 + a.toNat * 65536 + b.toNat * 2048)
  | .maxu d a b => some (134217747 + d.toNat * 2097152 + a.toNat * 65536 + b.toNat * 2048)
  | .lea d a b s => some (134217752 + d.toNat * 2097152 + a.toNat * 65536 + b.toNat * 2048 + s.toNat * 1)
  | .addi d a k => some (201326592 + d.toNat * 2097152 + a.toNat * 65536 + k.toNat * 1)
  | .andi d a k => some (201330688 + d.toNat * 2097152 + a.toNat * 65536 + k.toNat * 1)
  | .ori d a k => some (201334784 + d.toNat * 2097152 + a.toNat * 65536 + k.toNat * 1)
  | .xori d a k => some (201338880 + d.toNat * 2097152 + a.toNat * 65536 + k.toNat * 1)
  | .slli d a k => some (201342976 + d.toNat * 2097152 + a.toNat * 65536 + k.toNat * 1)
  | .srli d a k => some (201347072 + d.toNat * 2097152 + a.toNat * 65536 + k.toNat * 1)
  | .srai d a k => some (201351168 + d.toNat * 2097152 + a.toNat * 65536 + k.toNat * 1)
  | .slti d a k => some (201355264 + d.toNat * 2097152 + a.toNat * 65536 + k.toNat * 1)
  | .sltiu d a k => some (201359360 + d.toNat * 2097152 + a.toNat * 65536 + k.toNat * 1)
  | .lih d a k => some (201363456 + d.toNat * 2097152 + a.toNat * 65536 + k.toNat * 1)
  | .mul d a b => some (268435456 + d.toNat * 2097152 + a.toNat * 65536 + b.toNat * 2048)
  | .mulh d a b => some (268435457 + d.toNat * 2097152 + a.toNat * 65536 + b.toNat * 2048)
  | .mulhu d a b => some (268435458 + d.toNat * 2097152 + a.toNat * 65536 + b.toNat * 2048)
  | .div d a b => some (268435460 + d.toNat * 2097152 + a.toNat * 65536 + b.toNat * 2048)
  | .divu d a b => some (268435461 + d.toNat * 2097152 + a.toNat * 65536 + b.toNat * 2048)
  | .rem d a b => some (268435462 + d.toNat * 2097152 + a.toNat * 65536 + b.toNat * 2048)
  | .remu d a b => some (268435463 + d.toNat * 2097152 + a.toNat * 65536 + b.toNat * 2048)
  | .clz d a => some (335544320 + d.toNat * 2097152 + a.toNat * 65536)
  | .ctz d a => some (335544321 + d.toNat * 2097152 + a.toNat * 65536)
  | .popc d a => some (335544322 + d.toNat * 2097152 + a.toNat * 65536)
  | .brev d a => some (335544323 + d.toNat * 2097152 + a.toNat * 65536)
  | .bext d a b => some (335544324 + d.toNat * 2097152 + a.toNat * 65536 + b.toNat * 2048)
  | .bins d a b => some (335544325 + d.toNat * 2097152 + a.toNat * 65536 + b.toNat * 2048)
  | .qpush a n => some (402653184 + a.toNat * 65536 + n.toNat * 2048)
  | .qpop d n => some (402661377 + d.toNat * 2097152 + n.toNat * 2048)
  | .qlen d n => some (402653186 + d.toNat * 2097152 + n.toNat * 2048)
  | .beq a b o => some (536870912 + a.toNat * 2097152 + b.toNat * 65536 + o.toNat * 1)
  | .bne a b o => some (603979776 + a.toNat * 2097152 + b.toNat * 65536 + o.toNat * 1)
  | .blt a b o => some (671088640 + a.toNat * 2097152 + b.toNat * 65536 + o.toNat * 1)
  | .bge a b o => some (738197504 + a.toNat * 2097152 + b.toNat * 65536 + o.toNat * 1)
  | .bltu a b o => some (805306368 + a.toNat * 2097152 + b.toNat * 65536 + o.toNat * 1)
  | .bgeu a b o => some (872415232 + a.toNat * 2097152 + b.toNat * 65536 + o.toNat * 1)
  | .jal o => some (939524096 + o.toNat * 1)
  | .jalr d a o => some (1006632960 + d.toNat * 2097152 + a.toNat * 65536 + o.toNat * 1)
  | .loopnz a o => some (1006649344 + a.toNat * 65536 + o.toNat * 1)
  | .ld d a m o => some (1073741824 + d.toNat * 2097152 + a.toNat * 65536 + m.toNat * 256 + o.toNat * 1)
  | .st a b m o => some (1140850688 + a.toNat * 65536 + b.toNat * 2048 + m.toNat * 256 + o.toNat * 1)
  | .amoadd d a b s z o => some (1207959552 + d.toNat * 2097152 + a.toNat * 65536 + b.toNat * 2048 + s.toNat * 256 + z.toNat * 16 + o.toNat * 4)
  | .amomin d a b s z o => some (1207959584 + d.toNat * 2097152 + a.toNat * 65536 + b.toNat * 2048 + s.toNat * 256 + z.toNat * 16 + o.toNat * 4)
  | .amomax d a b s z o => some (1207959616 + d.toNat * 2097152 + a.toNat * 65536 + b.toNat * 2048 + s.toNat * 256 + z.toNat * 16 + o.toNat * 4)
  | .amoand d a b s z o => some (1207959648 + d.toNat * 2097152 + a.toNat * 65536 + b.toNat * 2048 + s.toNat * 256 + z.toNat * 16 + o.toNat * 4)
  | .amoor d a b s z o => some (1207959680 + d.toNat * 2097152 + a.toNat * 65536 + b.toNat * 2048 + s.toNat * 256 + z.toNat * 16 + o.toNat * 4)
  | .amoxor d a b s z o => some (1207959712 + d.toNat * 2097152 + a.toNat * 65536 + b.toNat * 2048 + s.toNat * 256 + z.toNat * 16 + o.toNat * 4)
  | .amoswap d a b s z o => some (1207959744 + d.toNat * 2097152 + a.toNat * 65536 + b.toNat * 2048 + s.toNat * 256 + z.toNat * 16 + o.toNat * 4)
  | .cas d a b s z o => some (1207959776 + d.toNat * 2097152 + a.toNat * 65536 + b.toNat * 2048 + s.toNat * 256 + z.toNat * 16 + o.toNat * 4)
  | .fence d s o => some (1275068416 + d.toNat * 2097152 + s.toNat * 256 + o.toNat * 4)
  | .drain m => some (1275068432 + m.toNat * 1)
  | .spawn d a b p c u => some (1342177280 + d.toNat * 2097152 + a.toNat * 65536 + b.toNat * 8192 + p.toNat * 64 + c.toNat * 16 + u.toNat * 8)
  | .callat d a b p c => some (1342177536 + d.toNat * 2097152 + a.toNat * 65536 + b.toNat * 8192 + p.toNat * 64 + c.toNat * 16)
  | .retv d a b => some (1342177792 + d.toNat * 2097152 + a.toNat * 65536 + b.toNat * 2048)
  | .endAct => some (1342178048)
  | .msend d a b => some (1342178304 + d.toNat * 2097152 + a.toNat * 65536 + b.toNat * 8192)
  | .mpoll d b => some (1342178560 + d.toNat * 2097152 + b.toNat * 8192)
  | .gang d s => some (1409286144 + d.toNat * 2097152 + s.toNat * 1)
  | .ungang => some (1409286400)
  | .gsync d => some (1409286656 + d.toNat * 2097152)
  | .barmArm d a b => some (1476395008 + d.toNat * 2097152 + a.toNat * 65536 + b.toNat * 2048)
  | .barmOpenRound d a b => some (1476395008 + d.toNat * 2097152 + a.toNat * 65536 + b.toNat * 2048)
  | .barmWithdrawRound d a b => some (1476395008 + d.toNat * 2097152 + a.toNat * 65536 + b.toNat * 2048)
  | .bara d a b => some (1476395264 + d.toNat * 2097152 + a.toNat * 65536 + b.toNat * 2048)
  | .barw d a => some (1476395520 + d.toNat * 2097152 + a.toNat * 65536)
  | .cntrd d a b => some (1476395776 + d.toNat * 2097152 + a.toNat * 65536 + b.toNat * 2048)
  | .cntadd d a b => some (1476396032 + d.toNat * 2097152 + a.toNat * 65536 + b.toNat * 2048)
  | .rndclose d a b => some (1476396288 + d.toNat * 2097152 + a.toNat * 65536 + b.toNat * 2048)
  | .tbind d g q f => some (1610612736 + d.toNat * 4194304 + g.toNat * 8192 + q.toNat * 4096 + f.toNat * 32)
  | .tshape d g q => some (1610612737 + d.toNat * 4194304 + g.toNat * 8192 + q.toNat * 4096)
  | .tvalid d g q => some (1610612738 + d.toNat * 4194304 + g.toNat * 8192 + q.toNat * 4096)
  | .tfill d f => some (1610612739 + d.toNat * 4194304 + f.toNat * 32)
  | .tget a n f => some (1610616836 + a.toNat * 262144 + n.toNat * 8192 + f.toNat * 32)
  | .tcopy d a n => some (1677721600 + d.toNat * 4194304 + a.toNat * 262144 + n.toNat * 256)
  | .ttrans d a => some (1677721601 + d.toNat * 4194304 + a.toNat * 262144)
  | .tldg d g q => some (1677721602 + d.toNat * 4194304 + g.toNat * 8192 + q.toNat * 4096)
  | .tstg d g q => some (1677721603 + d.toNat * 4194304 + g.toNat * 8192 + q.toNat * 4096)
  | .tbcast d a s => some (1677721604 + d.toNat * 4194304 + a.toNat * 262144 + s.toNat * 32)
  | .tset d g q v => some (1677721605 + d.toNat * 4194304 + g.toNat * 8192 + q.toNat * 4096 + v.toNat * 32)
  | .trowg d a b => some (1677721606 + d.toNat * 4194304 + a.toNat * 262144 + b.toNat * 16384)
  | .tshift d a g q c => some (1677721607 + d.toNat * 4194304 + a.toNat * 262144 + g.toNat * 8192 + q.toNat * 4096 + c.toNat * 32)
  | .tpack d a b s => some (1677721608 + d.toNat * 4194304 + a.toNat * 262144 + b.toNat * 16384 + s.toNat * 32)
  | .tadd d a b n => some (1744830464 + d.toNat * 4194304 + a.toNat * 262144 + b.toNat * 16384 + n.toNat * 256)
  | .tsub d a b n => some (1744830465 + d.toNat * 4194304 + a.toNat * 262144 + b.toNat * 16384 + n.toNat * 256)
  | .tmul d a b n => some (1744830466 + d.toNat * 4194304 + a.toNat * 262144 + b.toNat * 16384 + n.toNat * 256)
  | .tmin d a b n => some (1744830467 + d.toNat * 4194304 + a.toNat * 262144 + b.toNat * 16384 + n.toNat * 256)
  | .tmax d a b n => some (1744830468 + d.toNat * 4194304 + a.toNat * 262144 + b.toNat * 16384 + n.toNat * 256)
  | .tand d a b n => some (1744830469 + d.toNat * 4194304 + a.toNat * 262144 + b.toNat * 16384 + n.toNat * 256)
  | .tor d a b n => some (1744830470 + d.toNat * 4194304 + a.toNat * 262144 + b.toNat * 16384 + n.toNat * 256)
  | .txor d a b n => some (1744830471 + d.toNat * 4194304 + a.toNat * 262144 + b.toNat * 16384 + n.toNat * 256)
  | .tshl d a b n => some (1744830472 + d.toNat * 4194304 + a.toNat * 262144 + b.toNat * 16384 + n.toNat * 256)
  | .tshr d a b n => some (1744830473 + d.toNat * 4194304 + a.toNat * 262144 + b.toNat * 16384 + n.toNat * 256)
  | .tcmp d a b n c => some (1744830474 + d.toNat * 4194304 + a.toNat * 262144 + b.toNat * 16384 + n.toNat * 256 + c.toNat * 32)
  | .tneg d a => some (1811939328 + d.toNat * 4194304 + a.toNat * 262144)
  | .tabs d a => some (1811939329 + d.toNat * 4194304 + a.toNat * 262144)
  | .texp2 d a => some (1811939330 + d.toNat * 4194304 + a.toNat * 262144)
  | .tlog2 d a => some (1811939331 + d.toNat * 4194304 + a.toNat * 262144)
  | .trcp d a => some (1811939332 + d.toNat * 4194304 + a.toNat * 262144)
  | .trsqrt d a => some (1811939333 + d.toNat * 4194304 + a.toNat * 262144)
  | .tsqrt d a => some (1811939334 + d.toNat * 4194304 + a.toNat * 262144)
  | .ttanh d a => some (1811939335 + d.toNat * 4194304 + a.toNat * 262144)
  | .tcvt d a => some (1811939336 + d.toNat * 4194304 + a.toNat * 262144)
  | .tround d a => some (1811939337 + d.toNat * 4194304 + a.toNat * 262144)
  | .trsum d a => some (1879048192 + d.toNat * 4194304 + a.toNat * 262144)
  | .tcsum d a => some (1879048193 + d.toNat * 4194304 + a.toNat * 262144)
  | .trmax d a => some (1879048194 + d.toNat * 4194304 + a.toNat * 262144)
  | .tcmax d a => some (1879048195 + d.toNat * 4194304 + a.toNat * 262144)
  | .tscan d a s => some (1879048196 + d.toNat * 4194304 + a.toNat * 262144 + s.toNat * 32)
  | .ttopk d a b k => some (1879048197 + d.toNat * 4194304 + a.toNat * 262144 + b.toNat * 16384 + k.toNat * 32)
  | .thist d a => some (1879048198 + d.toNat * 4194304 + a.toNat * 262144)
  | .targmax d a => some (1879048199 + d.toNat * 4194304 + a.toNat * 262144)
  | .tfma d a b c n => some (1946157056 + d.toNat * 4194304 + a.toNat * 262144 + b.toNat * 16384 + c.toNat * 1024 + n.toNat * 256)
  | .tsel d a b c n => some (1946157057 + d.toNat * 4194304 + a.toNat * 262144 + b.toNat * 16384 + c.toNat * 1024 + n.toNat * 256)
  | .tscale d a g q => some (1946157058 + d.toNat * 4194304 + a.toNat * 262144 + g.toNat * 8192 + q.toNat * 4096)
  | .tloop g q n => some (2013265920 + g.toNat * 8192 + q.toNat * 4096 + n.toNat * 32)
  | .twait => some (2013265921)
  | .mloadb a g q s f l => some (2147483648 + a.toNat * 262144 + g.toNat * 8192 + q.toNat * 4096 + s.toNat * 2048 + f.toNat * 128 + l.toNat * 32)
  | .mfree a s => some (2147483649 + a.toNat * 128 + s.toNat * 32)
  | .mma a g q s l => some (2214592512 + a.toNat * 262144 + g.toNat * 8192 + q.toNat * 4096 + s.toNat * 128 + l.toNat * 32)
  | .mmag d a g q n s l => some (2214592513 + d.toNat * 4194304 + a.toNat * 262144 + g.toNat * 8192 + q.toNat * 4096 + n.toNat * 256 + s.toNat * 128 + l.toNat * 32)
  | .mmal a g q s l => some (2214592514 + a.toNat * 262144 + g.toNat * 8192 + q.toNat * 4096 + s.toNat * 128 + l.toNat * 32)
  | .azero d g q => some (2281701376 + d.toNat * 4194304 + g.toNat * 8192 + q.toNat * 4096)
  | .ascale d a g q c r => some (2281701377 + d.toNat * 4194304 + a.toNat * 262144 + g.toNat * 8192 + q.toNat * 4096 + c.toNat * 64 + r.toNat * 32)
  | .adrain d a g q c r => some (2281701378 + d.toNat * 4194304 + a.toNat * 262144 + g.toNat * 8192 + q.toNat * 4096 + c.toNat * 64 + r.toNat * 32)
  | .amovin a g q => some (2281701379 + a.toNat * 262144 + g.toNat * 8192 + q.toNat * 4096)
  | .amovout d g q => some (2281701380 + d.toNat * 4194304 + g.toNat * 8192 + q.toNat * 4096)
  | .xcopy d => some (2415919104 + d.toNat * 2097152)
  | .xgath d t => some (2415919105 + d.toNat * 2097152 + t.toNat * 64)
  | .xscat d t => some (2415919106 + d.toNat * 2097152 + t.toNat * 64)
  | .xcancel s => some (2415919107 + s.toNat * 2097152)
  | .xmcast d a b t => some (2483027968 + d.toNat * 2097152 + a.toNat * 65536 + b.toNat * 2048 + t.toNat * 64)
  | .xmread d a b t => some (2483027969 + d.toNat * 2097152 + a.toNat * 65536 + b.toNat * 2048 + t.toNat * 64)
  | .xfree a => some (2483027970 + a.toNat * 65536)
  | .kputTile d a t => some (2684354560 + d.toNat * 2097152 + a.toNat * 262144 + t.toNat * 64)
  | .kputImage d a b => some (2684354592 + d.toNat * 2097152 + a.toNat * 262144 + b.toNat * 2048)
  | .kreadTile d a t m => some (2684354561 + d.toNat * 2097152 + a.toNat * 524288 + t.toNat * 64 + m.toNat * 8)
  | .kreadImage d a b m => some (2684354593 + d.toNat * 2097152 + a.toNat * 524288 + b.toNat * 2048 + m.toNat * 8)
  | .kreadCont d a b t => some (2684354577 + d.toNat * 2097152 + a.toNat * 524288 + b.toNat * 2048 + t.toNat * 64)
  | .ktakeTile d a t m => some (2684354562 + d.toNat * 2097152 + a.toNat * 524288 + t.toNat * 64 + m.toNat * 8)
  | .ktakeImage d a b m => some (2684354594 + d.toNat * 2097152 + a.toNat * 524288 + b.toNat * 2048 + m.toNat * 8)
  | .ktakeCont d a b t => some (2684354578 + d.toNat * 2097152 + a.toNat * 524288 + b.toNat * 2048 + t.toNat * 64)
  | .kcancel d a => some (2684354563 + d.toNat * 2097152 + a.toNat * 524288)
  | .ksplit d a b => some (2751463424 + d.toNat * 2097152 + a.toNat * 65536 + b.toNat * 2048)
  | .kmap d a => some (2751463425 + d.toNat * 2097152 + a.toNat * 262144)
  | .kstat d a b => some (2751463426 + d.toNat * 2097152 + a.toNat * 65536 + b.toNat * 2048)
  | .cmbopen d a b t k => some (2818572288 + d.toNat * 2097152 + a.toNat * 65536 + b.toNat * 2048 + t.toNat * 64 + k.toNat * 8)
  | .cmbput d a b t => some (2818572289 + d.toNat * 2097152 + a.toNat * 65536 + b.toNat * 2048 + t.toNat * 64)
  | .cmbclose d a b => some (2818572290 + d.toNat * 2097152 + a.toNat * 65536 + b.toNat * 2048)
  | .cmbstat d a => some (2818572291 + d.toNat * 2097152 + a.toNat * 65536)
  | .msired d a b t => some (2885681152 + d.toNat * 2097152 + a.toNat * 65536 + b.toNat * 2048 + t.toNat * 64)
  | .msiscat d a b t => some (2885681153 + d.toNat * 2097152 + a.toNat * 65536 + b.toNat * 2048 + t.toNat * 64)
  | .mstopk d a b k => some (2885681154 + d.toNat * 2097152 + a.toNat * 65536 + b.toNat * 2048 + k.toNat * 8)
  | .colrs d a b m => some (2952790016 + d.toNat * 2097152 + a.toNat * 65536 + b.toNat * 2048 + m.toNat * 8)
  | .colar d a b m => some (2952790017 + d.toNat * 2097152 + a.toNat * 65536 + b.toNat * 2048 + m.toNat * 8)
  | .colag d a b => some (2952790018 + d.toNat * 2097152 + a.toNat * 65536 + b.toNat * 2048)
  | .colbc d a b => some (2952790019 + d.toNat * 2097152 + a.toNat * 65536 + b.toNat * 2048)
  | .colbar d a => some (2952790020 + d.toNat * 2097152 + a.toNat * 65536)
  | .hlikely n t => some (4160749568 + n.toNat * 65536 + t.toNat * 32768)
  | .hpref l w => some (4177526784 + l.toNat * 1048576 + w.toNat * 1)
  | .ximm u => some (4227858432 + u.toNat * 1)
  | .xmod r s d o => some (4244635648 + r.toNat * 2097152 + s.toNat * 524288 + d.toNat * 262144 + o.toNat * 65536)
  | .activationChoose _ => none
  | .urgentEventArrive _ => none
  | .urgentPreempt _ => none
  | .stealProbe _ => none
  | .stealBackoffExpire _ => none
  | .stealRequestServe _ => none
  | .stealReplyArrive _ => none
  | .stealAckArrive _ => none
  | .stealReplyReturn _ => none
  | .callatArrive _ => none
  | .messageArrive _ => none
  | .dieResourceReport _ => none
  | .rootPlace _ => none
  | .rootRecordArrive _ => none
  | .dualPairPlace _ => none
  | .continuationDeliver _ => none
  | .roundCloseArrive _ => none
  | .waveStart _ => none
  | .waveAnswer _ => none
  | .branchResolve _ _ => none
  | .loadResponse _ => none
  | .fenceComplete _ => none
  | .drainComplete _ => none
  | .wfeWake _ => none
  | .tileUnitBegin _ => none
  | .tileRowComplete _ => none
  | .tileBandComplete _ _ => none
  | .trapEntry _ => none
  | .leaveGrant _ _ => none
  | .barwComplete _ => none
  | .cntrdReading _ => none
  | .stationTranslate _ => none
  | .faultResolve _ _ => none
  | .faultDecline _ _ => none
  | .faultResolveTimeout _ _ => none
  | .faultQueueRetry _ => none
  | .storePerform _ => none
  | .replicaInvalidateAck _ _ => none
  | .atomicPerform _ => none
  | .peerAccessArrive _ => none
  | .sliceRead _ => none
  | .sectorFill _ _ => none
  | .hotWindowEnd _ => none
  | .helperRead _ => none
  | .copyRowComplete _ _ => none
  | .multicastDelivery _ _ => none
  | .xmreadRequestArrive _ _ => none
  | .xmreadSectorSend _ => none
  | .multicastEnd _ => none
  | .xfreeNoticeArrive _ => none
  | .msPacketExecute _ => none
  | .msComplete _ => none
  | .vcDeadlockTimeout _ => none
  | .flowAck _ => none
  | .collectiveInstanceStart _ _ => none
  | .chunkStart _ _ => none
  | .chunkReservationTimeout _ _ => none
  | .chunkEnd _ => none
  | .collectiveInstanceEnd _ _ => none
  | .communicatorWrite _ _ => none
  | .homeKputArrive _ => none
  | .homeKreadArrive _ => none
  | .homeKtakeArrive _ => none
  | .homeKcancelArrive _ => none
  | .homeRedepositArrive _ => none
  | .keyDeliveryArrive _ => none
  | .keyDeliveryAck _ => none
  | .assayFirstArrival _ => none
  | .assayTwinArrival _ => none
  | .assayRetry _ => none
  | .assayTimeout _ => none
  | .forwardHintArrive _ => none
  | .heldForwardRelease _ => none
  | .mapBroadcastArrive _ => none
  | .splitCopy => none
  | .splitCutover => none
  | .splitAbort _ => none
  | .waidricMessageReceive _ => none
  | .waidricConnectionFail _ _ => none
  | .moduleFailed _ => none
  | .heapResizeRequest _ _ _ => none
  | .sliceCmbopenArrive _ => none
  | .sliceCmbputArrive _ => none
  | .sliceCmbcloseArrive _ => none
  | .combineTimeout _ _ => none
  | .combineRelease _ _ => none
  | .lingerExpire _ _ => none
  | .openWaitServe _ => none
  | .doorbell _ _ => none
  | .packetFetch _ => none
  | .launchPacket _ _ => none
  | .copyPacket _ _ => none
  | .kputPacket _ _ => none
  | .signalPacket _ _ => none
  | .fencePacket _ _ => none
  | .waitcondPacket _ _ => none
  | .waitcondRetest _ _ => none
  | .completionRecordWrite _ _ => none
  | .queueCommit _ _ _ _ => none
  | .commitTakeEffect _ => none
  | .frontEndModeWrite _ => none
  | .firmwareTableWrite _ => none
  | .frameReceive _ _ _ _ => none
  | .firmwareWatchdogReset _ => none
  | .heartbeat _ _ => none
  | .firmwareReplace _ _ => none
  | .partitionSwitchRequest _ => none
  | .partitionHalt _ => none
  | .contextWriteOut _ => none
  | .partitionRestore _ _ => none
  | .spillReloadComplete _ _ => none
  | .slotReloadComplete _ _ => none
  | .partitionGate _ => none
  | .partitionWake _ _ => none
  | .uncorrectableError _ => none
  | .coreKill _ => none
  | .coreMapUpdateArrive _ _ => none
  | .coreMapChangeComplete _ => none
  | .mismatchWindowEnd _ => none
  | .correctedErrorReport _ _ _ _ => none
  | .classificationWindowEnd _ => none
  | .repairServe _ _ => none
  | .translationInvalidate _ _ _ => none
  | .powerOn _ => none
  | .imageVerify _ _ => none
  | .blockReady _ => none
  | .minSvnRaise _ _ _ => none
  | .attestationRequest _ => none
  | .leaveCapWrite _ _ => none
  | .currentMonitorHigh => none
  | .currentMonitorLowSustained => none
  | .snapshotMarkerArrive _ _ => none
  | .snapshotPacketRecord _ _ => none
  | .cutComplete _ => none
  | .linkDeath _ => none
  | .hostRdmaWrite _ _ _ _ => none
  | .replicaDrop _ _ => none
  | .foremanCoreRestart _ => none

/-- The instruction that the decoder reads back from a word of `i`: `i` itself, but for the three rows of BARM, which
share one encoding and differ by the value of a register only (R527). -/
def canonical (i : Instr) : Instr :=
  match i with
  | .barmOpenRound d a b => .barmArm d a b
  | .barmWithdrawRound d a b => .barmArm d a b
  | j => j

/-- What the decoder reads from an instruction whose bits are `w`, numbered as the opcode table numbers them. -/
def decodeTableWord (nbits w : Nat) : Option Instr :=
  match decodeBytes (leBytes 4 (w % 2 ^ nbits)) with
  | .ok i => some i
  | .error _ => none

end Sys2Proof
end

