-- ==== Sys2Proof/Machine/Event.lean ====
section
/-! DEFINITION. The events that an agenda may hold: one constructor for each event row of spec/opcode_table.json, with the
arguments that the constructor of Instr of the same name has. Events that have happened outside the module stand in an agenda
beside those that the meanings schedule (log 3). -/

namespace Sys2Proof.Machine

/-- An event; each means what the constructor of Instr of its name means. -/
inductive Event where
  | activationChoose (c : Nat)
  | urgentEventArrive (n : Nat)
  | urgentPreempt (c : Nat)
  | stealProbe (c : Nat)
  | stealBackoffExpire (c : Nat)
  | stealRequestServe (n : Nat)
  | stealReplyArrive (n : Nat)
  | stealAckArrive (n : Nat)
  | stealReplyReturn (n : Nat)
  | callatArrive (n : Nat)
  | messageArrive (n : Nat)
  | dieResourceReport (die : Nat)
  | rootPlace (ltag : Nat)
  | rootRecordArrive (n : Nat)
  | dualPairPlace (k : Nat)
  | continuationDeliver (n : Nat)
  | roundCloseArrive (n : Nat)
  | waveStart (ltag : Nat)
  | waveAnswer (c : Nat)
  | branchResolve (c gen : Nat)
  | loadResponse (n : Nat)
  | fenceComplete (c : Nat)
  | drainComplete (c : Nat)
  | wfeWake (c : Nat)
  | tileUnitBegin (c : Nat)
  | tileRowComplete (c : Nat)
  | tileBandComplete (c : Nat) (mismatch : Bool)
  | trapEntry (c : Nat)
  | leaveGrant (die part : Nat)
  | barwComplete (op : Nat)
  | cntrdReading (op : Nat)
  | stationTranslate (n : Nat)
  | faultResolve (port n : Nat)
  | faultDecline (port n : Nat)
  | faultResolveTimeout (port n : Nat)
  | faultQueueRetry (n : Nat)
  | storePerform (n : Nat)
  | replicaInvalidateAck (line holder : Nat)
  | atomicPerform (n : Nat)
  | peerAccessArrive (n : Nat)
  | sliceRead (n : Nat)
  | sectorFill (line sector : Nat)
  | hotWindowEnd (slice : Nat)
  | helperRead (n : Nat)
  | copyRowComplete (op row : Nat)
  | multicastDelivery (op rank : Nat)
  | xmreadRequestArrive (op line : Nat)
  | xmreadSectorSend (entry : Nat)
  | multicastEnd (op : Nat)
  | xfreeNoticeArrive (n : Nat)
  | msPacketExecute (op : Nat)
  | msComplete (op : Nat)
  | vcDeadlockTimeout (p : StuckPacket)
  | flowAck (flow : Nat)
  | collectiveInstanceStart (comm inst : Nat)
  | chunkStart (die comm : Nat)
  | chunkReservationTimeout (die comm : Nat)
  | chunkEnd (die : Nat)
  | collectiveInstanceEnd (comm inst : Nat)
  | communicatorWrite (comm : Nat) (e : CommEntry)
  | homeKputArrive (n : Nat)
  | homeKreadArrive (n : Nat)
  | homeKtakeArrive (n : Nat)
  | homeKcancelArrive (n : Nat)
  | homeRedepositArrive (n : Nat)
  | keyDeliveryArrive (n : Nat)
  | keyDeliveryAck (n : Nat)
  | assayFirstArrival (n : Nat)
  | assayTwinArrival (n : Nat)
  | assayRetry (n : Nat)
  | assayTimeout (n : Nat)
  | forwardHintArrive (n : Nat)
  | heldForwardRelease (n : Nat)
  | mapBroadcastArrive (ni : Nat)
  | splitCopy
  | splitCutover
  | splitAbort (lost : Bool)
  | waidricMessageReceive (bytes : List Byte)
  | waidricConnectionFail (modnum reqid : Nat)
  | moduleFailed (modnum : Nat)
  | heapResizeRequest (home base size : Nat)
  | sliceCmbopenArrive (n : Nat)
  | sliceCmbputArrive (n : Nat)
  | sliceCmbcloseArrive (n : Nat)
  | combineTimeout (slice slot : Nat)
  | combineRelease (slice slot : Nat)
  | lingerExpire (slice slot : Nat)
  | openWaitServe (slice : Nat)
  | doorbell (q : QueueBell) (value : Word)
  | packetFetch (q : Nat)
  | launchPacket (q n : Nat)
  | copyPacket (q n : Nat)
  | kputPacket (q n : Nat)
  | signalPacket (q n : Nat)
  | fencePacket (q n : Nat)
  | waitcondPacket (q n : Nat)
  | waitcondRetest (q n : Nat)
  | completionRecordWrite (q n : Nat)
  | queueCommit (q : Nat) (copyB : Bool) (blk : QueueBlock) (word : Word)
  | commitTakeEffect (q : Nat)
  | frontEndModeWrite (v : BitVec 6)
  | firmwareTableWrite (w : FwWrite)
  | frameReceive (port : Nat) (fcsOk : Bool) (ts : BitVec 80) (bytes : List Byte)
  | firmwareWatchdogReset (blk : FwBlock)
  | heartbeat (blk : FwBlock) (answered : Bool)
  | firmwareReplace (blk : FwBlock) (img : Image)
  | partitionSwitchRequest (p : Nat)
  | partitionHalt (p : Nat)
  | contextWriteOut (p : Nat)
  | partitionRestore (p : Nat) (onto : List ClusterBind)
  | spillReloadComplete (c region : Nat)
  | slotReloadComplete (c slot : Nat)
  | partitionGate (p : Nat)
  | partitionWake (p : Nat) (onto : List ClusterBind)
  | uncorrectableError (place : ErrorPlace)
  | coreKill (c : Nat)
  | coreMapUpdateArrive (ni c : Nat)
  | coreMapChangeComplete (c : Nat)
  | mismatchWindowEnd (die : Nat)
  | correctedErrorReport (eng bank row col : Nat)
  | classificationWindowEnd (eng : Nat)
  | repairServe (eng idx : Nat)
  | translationInvalidate (ctx lo hi : Nat)
  | powerOn (flash : List FlashImage)
  | imageVerify (blk : FwBlock) (img : Image)
  | blockReady (blk : FwBlock)
  | minSvnRaise (target svn : Nat) (signed : Bool)
  | attestationRequest (nonce : BitVec 256)
  | leaveCapWrite (die cap : Nat)
  | currentMonitorHigh
  | currentMonitorLowSustained
  | snapshotMarkerArrive (tag : Nat) (blk : SnapBlock)
  | snapshotPacketRecord (n : Nat) (blk : SnapBlock)
  | cutComplete (tag : Nat)
  | linkDeath (x : InFlight)
  | hostRdmaWrite (conn ctx : Nat) (va : Word) (bytes : List Byte)
  | replicaDrop (line holder : Nat)
  | foremanCoreRestart (c : Nat)
  deriving DecidableEq, Repr

end Sys2Proof.Machine
end

