-- ==== Sys2Proof/Machine/Formats.lean ====
section
/-! DEFINITION. Number formats and arithmetic (R88-R123): decoding, exact dyadic arithmetic, rounding, the stochastic
generator, the reductions' comparisons, the special functions and the block arithmetic of the matrix path. -/

namespace Sys2Proof.Machine

/-- An element format (R88). -/
inductive Fmt where
  | fp32
  | bf16
  | e4m3
  | e5m2
  | e2m1
  | l6
  | e8m0
  | i32
  | i8
  | i4
  deriving DecidableEq, Repr

/-- A rounding mode (R98). -/
inductive Rnd where
  | rne
  | rtz
  | rup
  | rdn
  | stoch
  deriving DecidableEq, Repr

/-- A saturation mode (R129). -/
inductive SatMode where
  | dflt
  | sat
  | nonsat
  deriving DecidableEq, Repr

/-- An exact real value with the special markers of R95: `fin neg m e` is (-1)^neg * m * 2^e and keeps the sign of
zero. -/
inductive Val where
  | fin (neg : Bool) (m : Nat) (e : Int)
  | inf (neg : Bool)
  | nan
  deriving DecidableEq, Repr

/-- The format of a format code (R88); 10 to 15 are reserved. -/
def fmtOfCode (c : Nat) : Option Fmt :=
  match c with
  | 0 => some .fp32
  | 1 => some .bf16
  | 2 => some .e4m3
  | 3 => some .e5m2
  | 4 => some .e2m1
  | 5 => some .l6
  | 6 => some .e8m0
  | 7 => some .i32
  | 8 => some .i8
  | 9 => some .i4
  | _ => none

/-- The code of a format (R88). -/
def fmtCode (f : Fmt) : Nat :=
  match f with
  | .fp32 => 0
  | .bf16 => 1
  | .e4m3 => 2
  | .e5m2 => 3
  | .e2m1 => 4
  | .l6 => 5
  | .e8m0 => 6
  | .i32 => 7
  | .i8 => 8
  | .i4 => 9

/-- The element width in bits (R182). -/
def fmtBits (f : Fmt) : Nat :=
  match f with
  | .fp32 => 32
  | .bf16 => 16
  | .e2m1 => 4
  | .i4 => 4
  | .i32 => 32
  | .e4m3 => 8
  | .e5m2 => 8
  | .l6 => 8
  | .e8m0 => 8
  | .i8 => 8

/-- The integer formats (R209). -/
def fmtIsInt (f : Fmt) : Bool :=
  match f with
  | .i32 => true
  | .i8 => true
  | .i4 => true
  | _ => false

/-- The floating formats, L6 among them (R209). -/
def fmtIsFloat (f : Fmt) : Bool := !fmtIsInt f && f != .e8m0

/-- Bits of the mantissa field of a floating format (R91). -/
def fmtPm (f : Fmt) : Nat :=
  match f with
  | .fp32 => 23
  | .bf16 => 7
  | .e4m3 => 3
  | .e5m2 => 2
  | .e2m1 => 1
  | _ => 0

/-- The exponent of the smallest normal of a floating format (R91). -/
def fmtEmin (f : Fmt) : Int :=
  match f with
  | .fp32 => -126
  | .bf16 => -126
  | .e4m3 => -6
  | .e5m2 => -14
  | _ => 0

/-- The magnitude code of the largest finite value (R91). -/
def fmtMax (f : Fmt) : Nat :=
  match f with
  | .fp32 => 0x7F7FFFFF
  | .bf16 => 0x7F7F
  | .e4m3 => 0x7E
  | .e5m2 => 0x7B
  | _ => 0x7

/-- The canonical NaN (R96); E2M1 has none and converts NaN to +0, an integer converts it to 0 (R100, R103). -/
def fmtNan (f : Fmt) : Nat :=
  match f with
  | .fp32 => 0x7FC00000
  | .bf16 => 0x7FC0
  | .e4m3 => 0x7F
  | .e5m2 => 0x7E
  | .l6 => 0x20
  | .e8m0 => 0xFF
  | _ => 0

/-- The pattern of +infinity of FP32, BF16 and E5M2 (R91). -/
def fmtInf (f : Fmt) : Nat :=
  match f with
  | .fp32 => 0x7F800000
  | .bf16 => 0x7F80
  | _ => 0x7C

/-- The fill pattern of a fill code: 0 zero, 1 minus infinity, 2 plus infinity, 3 quiet NaN (R97). -/
def fillPattern (f : Fmt) (code : Nat) : Nat :=
  match f, code with
  | .fp32, 1 => 0xFF800000
  | .fp32, 2 => 0x7F800000
  | .fp32, 3 => 0x7FC00000
  | .bf16, 1 => 0xFF80
  | .bf16, 2 => 0x7F80
  | .bf16, 3 => 0x7FC0
  | .e4m3, 1 => 0xFE
  | .e4m3, 2 => 0x7E
  | .e4m3, 3 => 0x7F
  | .e5m2, 1 => 0xFC
  | .e5m2, 2 => 0x7C
  | .e5m2, 3 => 0x7E
  | .e2m1, 1 => 0xF
  | .e2m1, 2 => 0x7
  | .l6, 1 => 0x3F
  | .l6, 2 => 0x1F
  | .l6, 3 => 0x20
  | .e8m0, 2 => 0xFE
  | .e8m0, 3 => 0xFF
  | .i32, 1 => 0x80000000
  | .i32, 2 => 0x7FFFFFFF
  | .i8, 1 => 0x80
  | .i8, 2 => 0x7F
  | .i4, 1 => 0x8
  | .i4, 2 => 0x7
  | _, _ => 0

/-! ### Exact values -/

/-- The integer `n * 2^k` for `k >= 0`, and the quotient rounded down for `k < 0`. -/
def shiftNat (n : Nat) (k : Int) : Nat := if 0 ≤ k then n * 2 ^ k.toNat else n / 2 ^ (-k).toNat

/-- An integer as an exact value. -/
def valOfInt (x : Int) : Val := .fin (decide (x < 0)) x.natAbs 0

/-- A signed dyadic number as an exact value; an exact zero is +0. -/
def valOfDyadic (x e : Int) : Val := .fin (decide (x < 0)) x.natAbs e

/-- The signed significand of a finite value, at its own exponent. -/
def sigOf (neg : Bool) (m : Nat) : Int := if neg then -(m : Int) else m

/-- Whether a value is a zero of either sign. -/
def valIsZero (x : Val) : Bool :=
  match x with
  | .fin _ m _ => m == 0
  | _ => false

/-- Whether a value is NaN. -/
def valIsNan (x : Val) : Bool := x == .nan

/-- The sign of a value that is not NaN. -/
def valNeg (x : Val) : Bool :=
  match x with
  | .fin n _ _ => n
  | .inf n => n
  | .nan => false

/-- Minus x (R222). An integer zero is taken as +0, so that its negation written to a floating td is -0, which R222 does not say
(DESIGN CHOICE, log 46). -/
def negVal (x : Val) : Val :=
  match x with
  | .fin n m e => .fin (!n) m e
  | .inf n => .inf (!n)
  | .nan => .nan

/-- The magnitude of x (R222). -/
def absVal (x : Val) : Val :=
  match x with
  | .fin _ m e => .fin false m e
  | .inf _ => .inf false
  | .nan => .nan

/-- The exact sum of two finite values, as a significand at the smaller exponent. -/
def finSum (n1 : Bool) (m1 : Nat) (e1 : Int) (n2 : Bool) (m2 : Nat) (e2 : Int) : Int × Int :=
  let e := if e1 ≤ e2 then e1 else e2
  (sigOf n1 m1 * 2 ^ (e1 - e).toNat + sigOf n2 m2 * 2 ^ (e2 - e).toNat, e)

/-- The exact sum (R99): infinities of opposite signs give NaN; an exact zero sum of operands of opposite sign is -0
under RDN (`rdn`) and +0 otherwise. -/
def addVal (rdn : Bool) (x y : Val) : Val :=
  match x, y with
  | .fin n1 m1 e1, .fin n2 m2 e2 =>
    let (s, e) := finSum n1 m1 e1 n2 m2 e2
    if s = 0 then .fin (if n1 = n2 then n1 else rdn) 0 0 else .fin (decide (s < 0)) s.natAbs e
  | .inf a, .inf b => if a = b then .inf a else .nan
  | .inf a, .fin _ _ _ => .inf a
  | .fin _ _ _, .inf b => .inf b
  | _, _ => .nan

/-- The exact product (R99): 0 times an infinity is NaN. -/
def mulVal (x y : Val) : Val :=
  match x, y with
  | .fin n1 m1 e1, .fin n2 m2 e2 => .fin (n1 != n2) (m1 * m2) (e1 + e2)
  | .inf a, .inf b => .inf (a != b)
  | .inf a, .fin b m _ => if m = 0 then .nan else .inf (a != b)
  | .fin a m _, .inf b => if m = 0 then .nan else .inf (a != b)
  | _, _ => .nan

/-- Numeric less-than of two values, neither of them NaN; zeros of either sign are equal. -/
def ltVal (x y : Val) : Bool :=
  match x, y with
  | .fin n1 m1 e1, .fin n2 m2 e2 => decide ((finSum n1 m1 e1 (!n2) m2 e2).1 < 0)
  | .inf a, .inf b => a && !b
  | .inf a, .fin _ _ _ => a
  | .fin _ _ _, .inf b => !b
  | _, _ => false

/-- Numeric equality of two values, neither of them NaN (R220). -/
def eqVal (x y : Val) : Bool := !valIsNan x && !valIsNan y && !ltVal x y && !ltVal y x

/-- Less-than with -0 below +0 (R109). -/
def ltZero (x y : Val) : Bool := ltVal x y || (valIsZero x && valIsZero y && valNeg x && !valNeg y)

/-- fmaxn (R109). -/
def fmaxn (x y : Val) : Val := if valIsNan x || valIsNan y then .nan else if ltZero x y then y else x

/-- fminn (R109). -/
def fminn (x y : Val) : Val := if valIsNan x || valIsNan y then .nan else if ltZero y x then y else x

/-- Whether x ranks strictly above y, the indices apart (R110): NaN highest, then the values in descending order. -/
def ranksAbove (x y : Val) : Bool := if valIsNan x then !valIsNan y else if valIsNan y then false else ltZero y x

/-- rank_gt (R110): element (x, i) ranks above element (y, j). -/
def rankGt (x : Val) (i : Nat) (y : Val) (j : Nat) : Bool :=
  ranksAbove x y || (!ranksAbove y x && decide (i < j))

/-- floor of a finite value. -/
def floorDyadic (s e : Int) : Int := if 0 ≤ e then s * 2 ^ e.toNat else s / 2 ^ (-e).toNat

/-- floor(log2) of a positive value m * 2^e. -/
def log2Dyadic (m : Nat) (e : Int) : Int := (Nat.log2 m : Int) + e

/-! ### L6 -/

/-- LT of R94, in Q1.15. -/
def l6Lt (f : Nat) : Nat :=
  match f with
  | 0 => 0x8000
  | 1 => 0x9838
  | 2 => 0xB505
  | _ => 0xD745

/-- The magnitude of log code L in units of 2^-20 (R94); L = 0 is zero. -/
def l6Mag (l : Nat) : Nat := if l = 0 then 0 else l6Lt (l % 4) * 2 ^ (l / 4 + 1)

/-- The L6 code nearest to a finite x (R101), ties to even L; above the largest magnitude L = 31, or NaR under NONSAT.
NONSAT does not reach here from tile arithmetic (R212, log 44). -/
def roundL6 (sm : SatMode) (x : Val) : Nat :=
  match x with
  | .nan => 0x20
  | .inf n => if sm = .nonsat then 0x20 else (if n then 0x3F else 0x1F)
  | .fin n m e =>
    let above (l : Nat) : Bool :=
      let mid := l6Mag l + l6Mag (l + 1)
      let c := (finSum false m e true mid (-21)).1
      decide (0 < c) || (decide (c = 0) && decide (l % 2 = 1))
    let code := ((List.range 31).filter above).length
    let big := decide (0 < (finSum false m e true (l6Mag 31) (-20)).1)
    if big && sm = .nonsat then 0x20 else if code = 0 then 0 else (if n then 32 else 0) + code

/-! ### Decoding (R95) -/

/-- A two's complement pattern of width w. -/
def sextNat (w v : Nat) : Int := if v % 2 ^ w < 2 ^ (w - 1) then (v % 2 ^ w : Nat) else (v % 2 ^ w : Nat) - 2 ^ w

/-- dec of a format with sign, exponent and mantissa fields (R91). -/
def decFloat (f : Fmt) (v : Nat) : Val :=
  let w := fmtBits f
  let pm := fmtPm f
  let neg := decide (v / 2 ^ (w - 1) % 2 = 1)
  let mag := v % 2 ^ (w - 1)
  if f = .e2m1 ∨ mag ≤ fmtMax f then
    let ef := mag / 2 ^ pm
    let m := mag % 2 ^ pm
    if ef = 0 then .fin neg m (fmtEmin f - pm) else .fin neg (m + 2 ^ pm) (fmtEmin f - pm + (ef - 1))
  else if f ≠ .e4m3 ∧ mag = fmtInf f then .inf neg
  else .nan

/-- dec(fmt, bits): the exact value of an element (R95). -/
def dec (f : Fmt) (v : Nat) : Val :=
  match f with
  | .i32 => valOfInt (sextNat 32 v)
  | .i8 => valOfInt (sextNat 8 v)
  | .i4 => valOfInt (sextNat 4 v)
  | .e8m0 => if v % 256 = 255 then .nan else .fin false 1 ((v % 256 : Nat) - 127)
  | .l6 =>
    let c := v % 64
    if c = 0 then .fin false 0 0 else if c = 0x20 then .nan else .fin (decide (32 ≤ c)) (l6Mag (c % 32)) (-20)
  | g => decFloat g v

/-! ### Rounding (R98-R106) -/

/-- The rounding step of a magnitude `n + r/d` (0 <= r < d): whether it moves one unit away from zero. `v` is the
24-bit stochastic value (R106). -/
def roundsAway (mode : Rnd) (neg : Bool) (v n r d : Nat) : Bool :=
  match mode with
  | .rne => decide (d < 2 * r) || (decide (2 * r = d) && decide (n % 2 = 1))
  | .rtz => false
  | .rup => !neg && decide (r ≠ 0)
  | .rdn => neg && decide (r ≠ 0)
  | .stoch => decide (v < 2 ^ 24 * r / d)

/-- The pattern of an overflow of a floating format (R100). -/
def overflowPattern (f : Fmt) (mode : Rnd) (sm : SatMode) (neg infinite : Bool) : Nat :=
  let sign := if neg then 2 ^ (fmtBits f - 1) else 0
  let directed := (mode = .rtz) || (mode = .rup && neg) || (mode = .rdn && !neg)
  match f with
  | .e2m1 => sign + fmtMax f
  | .e4m3 => if sm = .nonsat then (if directed && !infinite then sign + fmtMax f else fmtNan f) else sign + fmtMax f
  | .e5m2 => if sm = .nonsat then (if directed && !infinite then sign + fmtMax f else sign + fmtInf f) else sign + fmtMax f
  | g => if directed && !infinite then sign + fmtMax g else sign + fmtInf g

/-- rnd to a format with sign, exponent and mantissa fields (R98-R100, R106). -/
def rndFloat (f : Fmt) (mode : Rnd) (sm : SatMode) (v : Nat) (x : Val) : Nat :=
  match x with
  | .nan => fmtNan f
  | .inf neg => overflowPattern f mode sm neg true
  | .fin neg m e =>
    let sign := if neg then 2 ^ (fmtBits f - 1) else 0
    if m = 0 then sign else
    let qmin := fmtEmin f - fmtPm f
    let top := log2Dyadic m e - fmtPm f
    let q := if top < qmin then qmin else top
    let n := shiftNat m (e - q)
    let d := 2 ^ (q - e).toNat
    let r := if e < q then m % d else 0
    let n' := if roundsAway mode neg v n r d then n + 1 else n
    let code := (q - qmin).toNat * 2 ^ fmtPm f + n'
    if fmtMax f < code then overflowPattern f mode sm neg false else sign + code

/-- x rounded to an integer by a mode (R103). -/
def roundInt (mode : Rnd) (v : Nat) (neg : Bool) (m : Nat) (e : Int) : Int :=
  let n := shiftNat m e
  let d := 2 ^ (-e).toNat
  let r := if e < 0 then m % d else 0
  let n' := if roundsAway mode neg v n r d then n + 1 else n
  if neg then -(n' : Int) else n'

/-- Clamp to the w-bit signed range (R103). -/
def clampInt (w : Nat) (x : Int) : Int :=
  if x < -(2 ^ (w - 1)) then -(2 ^ (w - 1)) else if 2 ^ (w - 1) - 1 < x then 2 ^ (w - 1) - 1 else x

/-- The w-bit two's complement pattern of an integer (R123, trunc). -/
def truncInt (w : Nat) (x : Int) : Nat := (x % 2 ^ w).toNat

/-- wrapint as a pattern (R103). -/
def wrapInt (w : Nat) (x : Int) : Nat := truncInt w x

/-- satint as a pattern (R103). -/
def satInt (w : Nat) (x : Int) : Nat := truncInt w (clampInt w x)

/-- rnd to an integer format (R103). -/
def rndInt (f : Fmt) (mode : Rnd) (v : Nat) (x : Val) : Nat :=
  let w := fmtBits f
  match x with
  | .nan => 0
  | .inf neg => satInt w (if neg then -(2 ^ (w - 1)) else 2 ^ (w - 1) - 1)
  | .fin neg m e => satInt w (roundInt mode v neg m e)

/-- rnd to E8M0 (R102). NONSAT does not reach here from tile arithmetic (R212, log 44). -/
def rndE8m0 (sm : SatMode) (x : Val) : Nat :=
  match x with
  | .fin false m e =>
    if m = 0 then 0xFF else
    let n := log2Dyadic m e
    if n < -127 then 0 else if 127 < n then (if sm = .nonsat then 0xFF else 0xFE) else (n + 127).toNat
  | _ => 0xFF

/-- rnd(x, fmt, mode, satmode) (R98-R103, R106), with `v` the 24-bit value of the stochastic step. -/
def rnd (f : Fmt) (mode : Rnd) (sm : SatMode) (v : Nat) (x : Val) : Nat :=
  match f with
  | .l6 => roundL6 sm x
  | .e8m0 => rndE8m0 sm x
  | .i32 => rndInt .i32 mode v x
  | .i8 => rndInt .i8 mode v x
  | .i4 => rndInt .i4 mode v x
  | g => rndFloat g mode sm v x

/-- f32(x): the FP32 pattern of R98. -/
def f32 (x : Val) : Nat := rndFloat .fp32 .rne .dflt 0 x

/-- f32(x) as a value. -/
def f32v (x : Val) : Val := dec .fp32 (f32 x)

/-- One stoch_step (R105): the next generator state, which is also the value returned. -/
def stochStep (x0 : BitVec 32) : BitVec 32 :=
  let x := if x0 = 0 then 1 else x0
  let x := x ^^^ (x <<< 13)
  let x := x ^^^ (x >>> 17)
  x ^^^ (x <<< 5)

/-- The 24-bit value v of a step (R106). -/
def stochValue (x : BitVec 32) : Nat := x.toNat / 256

/-! ### Sums (R108) -/

/-- sum_asc of a list of values: the f32 of every step, from the left (R108). -/
def sumAsc (xs : List Val) : Val :=
  match xs with
  | [] => .fin false 0 0
  | x :: r => r.foldl (fun s y => f32v (addVal false s y)) x

/-- scan_asc: the inclusive prefixes (R108). -/
def scanAsc (s : Val) (xs : List Val) : List Val :=
  match xs with
  | [] => []
  | y :: r => f32v (addVal false s y) :: scanAsc (f32v (addVal false s y)) r

/-! ### Special functions (R111-R115) -/

/-- EXPT of R112: 2^(j/64), rounded to FP32. -/
def exptTable : List Nat :=
     [0x3F800000, 0x3F8164D2, 0x3F82CD87, 0x3F843A29, 0x3F85AAC3, 0x3F871F62, 0x3F88980F, 0x3F8A14D5, 0x3F8B95C2, 0x3F8D1ADF, 0x3F8EA43A, 0x3F9031DC, 0x3F91C3D3, 0x3F935A2B, 0x3F94F4F0, 0x3F96942D]
  ++ [0x3F9837F0, 0x3F99E046, 0x3F9B8D3A, 0x3F9D3EDA, 0x3F9EF532, 0x3FA0B051, 0x3FA27043, 0x3FA43516, 0x3FA5FED7, 0x3FA7CD94, 0x3FA9A15B, 0x3FAB7A3A, 0x3FAD583F, 0x3FAF3B79, 0x3FB123F6, 0x3FB311C4]
  ++ [0x3FB504F3, 0x3FB6FD92, 0x3FB8FBAF, 0x3FBAFF5B, 0x3FBD08A4, 0x3FBF179A, 0x3FC12C4D, 0x3FC346CD, 0x3FC5672A, 0x3FC78D75, 0x3FC9B9BE, 0x3FCBEC15, 0x3FCE248C, 0x3FD06334, 0x3FD2A81E, 0x3FD4F35B]
  ++ [0x3FD744FD, 0x3FD99D16, 0x3FDBFBB8, 0x3FDE60F5, 0x3FE0CCDF, 0x3FE33F89, 0x3FE5B907, 0x3FE8396A, 0x3FEAC0C7, 0x3FED4F30, 0x3FEFE4BA, 0x3FF28177, 0x3FF5257D, 0x3FF7D0DF, 0x3FFA83B3, 0x3FFD3E0C]

/-- RCPT of R112: 1/(1 + j/64), rounded to FP32. -/
def rcptTable : List Nat :=
     [0x3F800000, 0x3F7C0FC1, 0x3F783E10, 0x3F74898D, 0x3F70F0F1, 0x3F6D7304, 0x3F6A0EA1, 0x3F66C2B4, 0x3F638E39, 0x3F607038, 0x3F5D67C9, 0x3F5A740E, 0x3F579436, 0x3F54C77B, 0x3F520D21, 0x3F4F6475]
  ++ [0x3F4CCCCD, 0x3F4A4588, 0x3F47CE0C, 0x3F4565C8, 0x3F430C31, 0x3F40C0C1, 0x3F3E82FA, 0x3F3C5264, 0x3F3A2E8C, 0x3F381703, 0x3F360B61, 0x3F340B41, 0x3F321643, 0x3F302C0B, 0x3F2E4C41, 0x3F2C7692]
  ++ [0x3F2AAAAB, 0x3F28E83F, 0x3F272F05, 0x3F257EB5, 0x3F23D70A, 0x3F2237C3, 0x3F20A0A1, 0x3F1F1166, 0x3F1D89D9, 0x3F1C09C1, 0x3F1A90E8, 0x3F191F1A, 0x3F17B426, 0x3F164FDA, 0x3F14F209, 0x3F139A86]
  ++ [0x3F124925, 0x3F10FDBC, 0x3F0FB824, 0x3F0E7835, 0x3F0D3DCB, 0x3F0C08C1, 0x3F0AD8F3, 0x3F09AE41, 0x3F088889, 0x3F0767AB, 0x3F064B8A, 0x3F053408, 0x3F042108, 0x3F03126F, 0x3F020821, 0x3F010204]

/-- LOGT of R112: -log2 of RCPT[j] at its FP32 value, rounded to FP32. -/
def logtTable : List Nat :=
     [0x00000000, 0x3CB73CB3, 0x3D35D690, 0x3D8759C9, 0x3DB31FB7, 0x3DDE420E, 0x3E0462C4, 0x3E195751, 0x3E2E00D1, 0x3E42615F, 0x3E567AEF, 0x3E6A4F70, 0x3E7DE0B5, 0x3E88983F, 0x3E92203D, 0x3E9B8925]
  ++ [0x3EA4D3C2, 0x3EAE00D1, 0x3EB71110, 0x3EC0052D, 0x3EC8DDD3, 0x3ED19BAF, 0x3EDA3F60, 0x3EE2C97E, 0x3EEB3A9E, 0x3EF39355, 0x3EFBD42A, 0x3F01FED4, 0x3F060828, 0x3F0A0650, 0x3F0DF98A, 0x3F11E20E]
  ++ [0x3F15C01A, 0x3F1993E4, 0x3F1D5DA0, 0x3F211D84, 0x3F24D3C3, 0x3F28808D, 0x3F2C2410, 0x3F2FBE7F, 0x3F335004, 0x3F36D8CA, 0x3F3A58FE, 0x3F3DD0C9, 0x3F41404E, 0x3F44A7BB, 0x3F480731, 0x3F4B5ED6]
  ++ [0x3F4EAECF, 0x3F51F740, 0x3F553847, 0x3F58720A, 0x3F5BA4A5, 0x3F5ED038, 0x3F61F4E5, 0x3F6512C6, 0x3F6829FA, 0x3F6B3AA0, 0x3F6E44CF, 0x3F7148A2, 0x3F744636, 0x3F773DA2, 0x3F7A2F03, 0x3F7D1A71]

/-- RSQT of R112: 1/sqrt((1 + (j mod 32)/32) * 2^(j div 32)), rounded to FP32. -/
def rsqtTable : List Nat :=
     [0x3F800000, 0x3F7C1764, 0x3F785B42, 0x3F74C867, 0x3F715BEF, 0x3F6E133E, 0x3F6AEBF5, 0x3F67E3ED, 0x3F64F92E, 0x3F6229ED, 0x3F5F7483, 0x3F5CD76E, 0x3F5A514A, 0x3F57E0CF, 0x3F5584CD, 0x3F533C2E]
  ++ [0x3F5105EC, 0x3F4EE116, 0x3F4CCCCD, 0x3F4AC83F, 0x3F48D2AB, 0x3F46EB5A, 0x3F4511A3, 0x3F4344E6, 0x3F41848F, 0x3F3FD012, 0x3F3E26EB, 0x3F3C889F, 0x3F3AF4BA, 0x3F396ACE, 0x3F37EA74, 0x3F36734A]
  ++ [0x3F3504F3, 0x3F32416A, 0x3F2F9D53, 0x3F2D166C, 0x3F2AAAAB, 0x3F285835, 0x3F261D5F, 0x3F23F8A2, 0x3F21E89B, 0x3F1FEC04, 0x3F1E01B3, 0x3F1C2896, 0x3F1A5FB2, 0x3F18A61F, 0x3F16FB06, 0x3F155DA2]
  ++ [0x3F13CD3A, 0x3F124925, 0x3F10D0C3, 0x3F0F6381, 0x3F0E00D5, 0x3F0CA83F, 0x3F0B5948, 0x3F0A137D, 0x3F08D677, 0x3F07A1D2, 0x3F067532, 0x3F05503E, 0x3F0432A5, 0x3F031C1A, 0x3F020C52, 0x3F01030A]

/-- An FP32 constant as a value. -/
def c32 (v : Nat) : Val := dec .fp32 v

/-- Entry j of a table, as a value. -/
def tab32 (t : List Nat) (j : Nat) : Val := dec .fp32 (t.getD j 0)

/-- x * 2^k, exact. -/
def scale2 (x : Val) (k : Int) : Val :=
  match x with
  | .fin n m e => .fin n m (e + k)
  | y => y

/-- 1.0 -/
def valOne : Val := .fin false 1 0

/-- split of a positive value: its exponent e with x = m * 2^e and 1 <= m < 2 (R114). -/
def splitExp (m : Nat) (e : Int) : Int := log2Dyadic m e

/-- floor((m' - 1) * k) for the split significand m' of m: its leading bits below the first. -/
def splitIndex (m k : Nat) : Nat := (m * k) / 2 ^ Nat.log2 m - k

/-- The polynomial step p := f32(f32(c1 + f32(c2 * z)) * z) of every core (R114). -/
def polyStep (c1 c2 z : Val) : Val := f32v (mulVal (f32v (addVal false c1 (f32v (mulVal c2 z)))) z)

/-- v := f32(t + f32(t * p)) (R114). -/
def tableStep (t p : Val) : Val := f32v (addVal false t (f32v (mulVal t p)))

/-- exp2_core of a finite value (R114). -/
def exp2Core (neg : Bool) (m : Nat) (e : Int) : Val :=
  let x : Val := .fin neg m e
  if !ltVal x (valOfInt 128) then .inf false
  else if ltVal x (valOfInt (-150)) then .fin false 0 0
  else
    let s := sigOf neg m
    let k := floorDyadic s e
    let j := floorDyadic (s * 64) e - k * 64
    let z := addVal false x (negVal (valOfDyadic (k * 64 + j) (-6)))
    let p := polyStep (c32 0x3F317218) (c32 0x3E75FDF0) z
    f32v (scale2 (tableStep (tab32 exptTable j.toNat) p) k)

/-- log2_core of a positive finite value (R114). -/
def log2Core (m : Nat) (e : Int) : Val :=
  let ex := splitExp m e
  let j := splitIndex m 64
  let ms : Val := .fin false m (e - ex)
  let z := f32v (addVal false (f32v (mulVal ms (tab32 rcptTable j))) (valOfInt (-1)))
  let p := polyStep (c32 0x3FB8AA3B) (c32 0xBF38AA3B) z
  f32v (addVal false (valOfInt ex) (f32v (addVal false (tab32 logtTable j) p)))

/-- rcp_core of a finite non-zero value (R114). -/
def rcpCore (neg : Bool) (m : Nat) (e : Int) : Val :=
  let ex := splitExp m e
  let j := splitIndex m 64
  let ms : Val := .fin false m (e - ex)
  let d := f32v (addVal false valOne (negVal (f32v (mulVal ms (tab32 rcptTable j)))))
  let p := polyStep (c32 0x3F800000) (c32 0x3F800000) d
  let r := f32v (scale2 (tableStep (tab32 rcptTable j) p) (-ex))
  if neg then negVal r else r

/-- The values M, v and (e - h)/2 of rsqrt_core for a positive finite value (R114). -/
def rsqrtParts (m : Nat) (e : Int) : Val × Val × Int :=
  let ex := splitExp m e
  let h := ex % 2
  let big : Val := .fin false m (e - ex + h)
  let j := splitIndex m 32 + 32 * h.toNat
  let t := tab32 rsqtTable j
  let d := f32v (addVal false valOne (negVal (f32v (mulVal (f32v (mulVal big t)) t))))
  let p := polyStep (c32 0x3F000000) (c32 0x3EC00000) d
  (big, tableStep t p, (ex - h) / 2)

/-- rsqrt_core (R114). -/
def rsqrtCore (m : Nat) (e : Int) : Val :=
  let (_, v, k) := rsqrtParts m e
  f32v (scale2 v (-k))

/-- TEXP2 in FP32, with its special operands (R115). -/
def fnExp2 (x : Val) : Val :=
  match x with
  | .nan => .nan
  | .inf neg => if neg then .fin false 0 0 else .inf false
  | .fin neg m e => if m = 0 then valOne else exp2Core neg m e

/-- TLOG2 in FP32 (R115). -/
def fnLog2 (x : Val) : Val :=
  match x with
  | .nan => .nan
  | .inf neg => if neg then .nan else .inf false
  | .fin neg m e => if m = 0 then .inf true else if neg then .nan else log2Core m e

/-- TRCP in FP32 (R115). -/
def fnRcp (x : Val) : Val :=
  match x with
  | .nan => .nan
  | .inf neg => .fin neg 0 0
  | .fin neg m e => if m = 0 then .inf neg else rcpCore neg m e

/-- TRSQRT in FP32 (R115). -/
def fnRsqrt (x : Val) : Val :=
  match x with
  | .nan => .nan
  | .inf neg => if neg then .nan else .fin false 0 0
  | .fin neg m e => if m = 0 then .inf neg else if neg then .nan else rsqrtCore m e

/-- TSQRT in FP32 (R115). -/
def fnSqrt (x : Val) : Val :=
  match x with
  | .nan => .nan
  | .inf neg => if neg then .nan else .inf false
  | .fin neg m e =>
    if m = 0 then .fin neg 0 0 else if neg then .nan else
    let (big, v, k) := rsqrtParts m e
    scale2 (f32v (mulVal big v)) k

/-- TTANH in FP32 (R115): ±1 from 10 up, x unchanged below 2^-12. -/
def fnTanh (x : Val) : Val :=
  match x with
  | .nan => .nan
  | .inf neg => .fin neg 1 0
  | .fin neg m e =>
    let a : Val := .fin false m e
    if m = 0 then x
    else if !ltVal a (valOfInt 10) then .fin neg 1 0
    else if ltVal a (.fin false 1 (-12)) then x
    else
      let g := fnExp2 (f32v (mulVal a (c32 0x4038AA3B)))
      let q := fnRcp (f32v (addVal false g valOne))
      let r := f32v (addVal false valOne (negVal (mulVal (valOfInt 2) q)))
      if neg then negVal r else r

/-! ### The matrix path (R116-R120) -/

/-- What R118 asks about an element before its alignment. -/
inductive ElClass where
  | zero
  | finite
  | inf (neg : Bool)
  | nan
  deriving DecidableEq, Repr

/-- An element of an aligned block: the aligned integer (for L6 the code itself) and its class (R116, R118). -/
structure AlignedEl where
  a : Int
  cls : ElClass
  neg : Bool
  deriving DecidableEq, Repr

/-- A block of 32 elements after alignment: its exponent with the scale of R117, and whether its scale is NaN. -/
structure AlignedBlock where
  e : Int
  nanScale : Bool
  els : List AlignedEl
  deriving DecidableEq, Repr

/-- The retained width W - 2 of R116; 0 for the integer formats (R118). -/
def alignBits (f : Fmt) : Nat :=
  match f with
  | .bf16 => 11
  | .e4m3 => 7
  | .e5m2 => 7
  | .e2m1 => 3
  | _ => 0

/-- The class of an element (R118). -/
def elClass (x : Val) : ElClass :=
  match x with
  | .nan => .nan
  | .inf n => .inf n
  | .fin _ m _ => if m = 0 then .zero else .finite

/-- Significand and exponent e of a finite non-zero element: M with M * 2^(e - pm) its magnitude (R116). -/
def elSig (f : Fmt) (x : Val) : Option (Bool × Nat × Int) :=
  match x with
  | .fin n m e => if m = 0 then none else some (n, m, e + fmtPm f)
  | _ => none

/-- The largest exponent of a list, 0 for the empty list (R116). -/
def maxExp (l : List Int) : Int :=
  match l with
  | [] => 0
  | x :: r => r.foldl (fun a b => if a < b then b else a) x

/-- Alignment of a block (R116, R117): `scale` is the E8M0 code of its scale, if it has one. -/
def alignBlock (f : Fmt) (scale : Option Nat) (els : List Nat) : AlignedBlock :=
  let vals := els.map (dec f)
  let se : Int := match scale with
    | none => 0
    | some c => (c % 256 : Nat) - 127
  let nanScale := match scale with
    | none => false
    | some c => c % 256 == 255
  if f = .l6 then
    { e := 0, nanScale := false,
      els := els.map (fun v => { a := (v % 64 : Nat), cls := elClass (dec .l6 v), neg := decide (32 ≤ v % 64) }) }
  else if fmtIsInt f then
    { e := 0, nanScale := false,
      els := vals.map (fun x => { a := match x with | .fin n m _ => sigOf n m | _ => 0, cls := elClass x, neg := valNeg x }) }
  else
    let big := maxExp (vals.filterMap (fun x => (elSig f x).map (fun t => t.2.2)))
    { e := big + se, nanScale := nanScale,
      els := vals.map (fun x =>
        { a := match elSig f x with
            | none => 0
            | some (n, m, e) => sigOf n (shiftNat m ((alignBits f : Int) - fmtPm f + (e - big))),
          cls := elClass x, neg := valNeg x }) }

/-- l6_mul (R120): the contribution of two codes in units of 2^-23. -/
def l6Mul (a b : Nat) : Int :=
  if a % 32 = 0 ∨ b % 32 = 0 then 0
  else
    let p : Int := ((a % 32 + b % 32 : Nat) : Int) - 32
    let i := p / 4
    let f := (p - 4 * i).toNat
    sigOf (decide (a / 32 % 2 ≠ b / 32 % 2)) (l6Lt f * 2 ^ (i + 8).toNat)

/-- The pair of one product position is an infinity with a zero (R118). -/
def infZero (x y : ElClass) : Bool :=
  match x, y with
  | .inf _, .zero => true
  | .zero, .inf _ => true
  | _, _ => false

/-- The sign of an infinite product, if the product position has one (R118). -/
def infProduct (x y : AlignedEl) : Option Bool :=
  match x.cls, y.cls with
  | .inf n, .inf m => some (n != m)
  | .inf n, .finite => some (n != y.neg)
  | .finite, .inf m => some (x.neg != m)
  | _, _ => none

/-- The block partial P (R118, R120) of an A block of format fa and a B block of format fb. -/
def blockPartial (fa fb : Fmt) (x y : AlignedBlock) : Val :=
  let ps := x.els.zip y.els
  let nan := x.nanScale || y.nanScale || (x.els ++ y.els).any (fun t => t.cls == .nan)
  let infs := ps.filterMap (fun (a, b) => infProduct a b)
  if nan then .nan
  else if ps.any (fun (a, b) => infZero a.cls b.cls) then .nan
  else if infs.contains true && infs.contains false then .nan
  else if infs.contains true then .inf true
  else if infs.contains false then .inf false
  else if fa = .l6 then
    valOfDyadic (ps.foldl (fun t (a, b) => t + l6Mul a.a.toNat b.a.toNat) 0) (-23)
  else
    valOfDyadic (ps.foldl (fun t (a, b) => t + a.a * b.a) 0)
      ((x.e - alignBits fa) + (y.e - alignBits fb))

/-- The accumulator update of R119: acc := f32(acc + f32(P)). -/
def accAdd (acc : BitVec 32) (p : Val) : BitVec 32 :=
  BitVec.ofNat 32 (f32 (addVal false (dec .fp32 acc.toNat) (f32v p)))

/-- The formats that pair on the matrix path (R287). -/
def pairsWith (fa fb : Fmt) : Bool :=
  match fa, fb with
  | .bf16, .bf16 => true
  | .e4m3, .e4m3 => true
  | .e4m3, .e5m2 => true
  | .e5m2, .e4m3 => true
  | .e5m2, .e5m2 => true
  | .i8, .i8 => true
  | .e2m1, .e2m1 => true
  | .i4, .i4 => true
  | .l6, .l6 => true
  | _, _ => false

end Sys2Proof.Machine
end

