-- ==== Sys2Proof/Machine/Tab.lean ====
section
/-! DEFINITION. Finite tables and memories as plain data: sorted lists of keys and values, with the reads and writes
over them. An unlisted key reads as a default; a memory lists no byte that equals the default 0 (log 2). -/

namespace Sys2Proof.Machine

/-- A finite table: the entries that differ, or may differ, from the default. -/
abbrev Tab (α : Type) := List (Nat × α)

/-- A memory: bytes by address, an unlisted address reading as 0 (log 2). -/
abbrev Memory := List Host.Cell

/-- The value of a key. -/
def tabGet {α : Type} (dflt : α) (t : Tab α) (k : Nat) : α :=
  match t with
  | [] => dflt
  | (j, v) :: r => if j = k then v else tabGet dflt r k

/-- The table with one key set; keys stay in rising order. -/
def tabSet {α : Type} (t : Tab α) (k : Nat) (v : α) : Tab α :=
  match t with
  | [] => [(k, v)]
  | (j, w) :: r => if j = k then (k, v) :: r else if k < j then (k, v) :: (j, w) :: r else (j, w) :: tabSet r k v

/-- The byte at an address. -/
def memGet (m : Memory) (a : Nat) : Byte :=
  match m with
  | [] => 0
  | (b, v) :: r => if b = a then v else memGet r a

/-- The memory without an address. -/
def memErase (m : Memory) (a : Nat) : Memory := m.filter (fun c => c.1 != a)

/-- Insertion at the place of an address. -/
def memInsert (m : Memory) (a : Nat) (v : Byte) : Memory :=
  match m with
  | [] => [(a, v)]
  | (b, w) :: r =>
    if b = a then (a, v) :: r else if a < b then (a, v) :: (b, w) :: r else (b, w) :: memInsert r a v

/-- The memory with one byte written, in canonical form: writing 0 removes the entry. -/
def memSet (m : Memory) (a : Nat) (v : Byte) : Memory := if v = 0 then memErase m a else memInsert m a v

/-- The n bytes from an address. -/
def memRead (m : Memory) (a n : Nat) : List Byte := (List.range n).map (fun i => memGet m (a + i))

/-- The memory with consecutive bytes written. -/
def memWrite (m : Memory) (a : Nat) (bs : List Byte) : Memory :=
  match bs with
  | [] => m
  | b :: r => memWrite (memSet m a b) (a + 1) r

/-- Addresses strictly rising from a bound, and no entry that equals the default. -/
def memRising (lo : Nat) (m : Memory) : Bool :=
  match m with
  | [] => true
  | (a, v) :: r => decide (lo ≤ a) && decide (v ≠ 0) && memRising (a + 1) r

/-- The canonical form of a memory. -/
def memWf (m : Memory) : Bool := memRising 0 m

/-- The memory with a range of bytes set to a repeated 4-byte fill (R57). -/
def memFill (m : Memory) (a n : Nat) (fill : BitVec 32) : Memory :=
  memWrite m a ((List.range n).map (fun i => (fill >>> (8 * (i % 4))).setWidth 8))

end Sys2Proof.Machine
end

