-- ==== Sys2Proof/Machine/CoreState.lean ====
section
/-! DEFINITION. What a core holds, as plain data: the context of an activation (R551) and the core's own stores. -/

namespace Sys2Proof.Machine

/-- Why a register is poisoned: the load's address, the first faulting byte and the fault kind (R155, R541). -/
structure Poison where
  ldPc : Word
  addr : Word
  kind : Nat
  deriving DecidableEq, Repr

/-- What a register waits for: nothing, an operation's status (R157), a load in flight (R265) or the decrement of a
LOOPNZ whose branch is unresolved (R173). -/
inductive Mark where
  | clear
  | op (id : Nat)
  | load (id : Nat)
  | branch (gen : Nat)
  deriving DecidableEq, Repr

/-- A general register (R154, R155, R157). -/
structure Reg where
  val : Word
  poison : Option Poison
  mark : Mark
  deriving DecidableEq, Repr

/-- The fields of an XMOD word (R129). -/
structure Xmod where
  rnd : BitVec 3
  sat : BitVec 2
  dup : BitVec 1
  ord : BitVec 2
  deriving DecidableEq, Repr

/-- The prefix words of a unit executed so far (R131): the address of the first, and whether one of them is ILLEGAL or
the arrangement is. -/
structure Pfx where
  upc : Word
  ximm : Option (BitVec 24)
  xmod : Option Xmod
  ill : Bool
  bad : Bool
  deriving DecidableEq, Repr

/-- A binding (R181). -/
structure Tile where
  base : Nat
  rows : Nat
  cols : Nat
  pitch : Nat
  fmt : Fmt
  vrows : Nat
  vcols : Nat
  fill : Nat
  deriving DecidableEq, Repr

/-- An entry of a queue register with its branch generation (R160). -/
structure QEntry where
  val : Word
  gen : Option Nat
  deriving DecidableEq, Repr

/-- A tile-stream unit as dispatched: a number in dispatch order, the address of its first word, the instruction and its
modifiers, the captured register value and the branch generation (R204). -/
structure TileUnit where
  id : Nat
  upc : Word
  instr : Instr
  xmod : Option Xmod
  gval : Word
  gen : Option Nat
  deriving DecidableEq, Repr

/-- A sequencer entry; a TLOOP keeps its body (R204, R205). -/
structure SeqEntry where
  unit : TileUnit
  body : List TileUnit
  deriving DecidableEq, Repr

/-- The tile instruction in progress at the head of the sequencer: whether its begin has passed (R188), the popped queue
value, the completed rows (%xstep of R191), the band-start %rseed (R107) of each gang member, the leave drawn from the
reservation and from the pool (R281), whether it waits for leave, whether it stands stopped inside its rows by a trap of its own,
the kill of a member or a pre-emption (R189, R191, R194), and of a TLOOP the repetitions left and the place in the body (R205). -/
structure TileRun where
  begun : Bool
  popped : Option Word
  row : Nat
  seeds : List (BitVec 32)
  fromHeld : Nat
  fromPool : Nat
  waitLeave : Bool
  stopped : Bool
  loopLeft : Option Nat
  loopIdx : Nat
  deriving DecidableEq, Repr

/-- A trap that the tile stream has raised and the control stream has not yet taken (R189). -/
structure TileTrap where
  code : Nat
  param : Nat
  addr : Word
  upc : Word
  deriving DecidableEq, Repr

/-- A branch generation (R173): its branch, the predicted direction, and the registers and the units that a TLOOP could name before
it (R70, R205). -/
structure Gen where
  id : Nat
  upc : Word
  instr : Instr
  taken : Bool
  regs : Vector Reg 32
  recent : List TileUnit
  deriving DecidableEq, Repr

/-- A staging-buffer entry: a load issued ahead and its value when it has arrived (R67, R174). -/
structure Staged where
  load : Nat
  gen : Nat
  value : Option Word
  deriving DecidableEq, Repr

/-- An HLIKELY hint in force (R178). -/
structure Hint where
  target : Word
  taken : Bool
  deriving DecidableEq, Repr

/-- What the control stream waits for at a unit boundary: at a DRAIN (R270) or a WFE (R246), which completes when its event
comes, or after a TWAIT or a GSYNC outside a gang (R206, R374), until the tile stream is idle; the GSYNC's status then goes to
its register, which is 0 for a TWAIT. -/
inductive Wait where
  | none
  | drain (mask : BitVec 3)
  | wfe (mask : BitVec 4)
  | tileIdle (reg : BitVec 5)
  deriving DecidableEq, Repr

/-- The copy set-up registers (R237). -/
structure Cx where
  src : Word
  dst : Word
  rows : BitVec 17
  rbytes : BitVec 24
  rstride : Word
  wstride : Word
  bypass : Bool
  qos : BitVec 2
  deriving DecidableEq, Repr

/-- A work record (R354). -/
structure WorkRec where
  ltag : Nat
  dual : Bool
  prio : Nat
  cls : Nat
  entry : BitVec 48
  args : List Word
  deriving DecidableEq, Repr

/-- How an activation started (R45). -/
inductive ActKind where
  | task
  | continuation
  | round
  | urgent
  deriving DecidableEq, Repr

/-- The activation that a context runs: a serial number, its launch, the retained record of R564, the copy number of a
dual pair and its message index (R556), the commit latch (R564) and the payload binding of a continuation (R46). -/
structure Activation where
  serial : Nat
  ltag : Nat
  kind : ActKind
  record : WorkRec
  t15 : Option Tile
  pair : Option (Nat × Nat)
  msgIdx : Nat
  commit : Bool
  deriving DecidableEq, Repr

/-- A FENCE that has not completed (R268). `held` says that it was issued while a trap held the tile stream, so that the units held come
after it (R189). -/
structure Fence where
  id : Nat
  reg : BitVec 5
  scope : Nat
  acq : Bool
  rel : Bool
  held : Bool
  deriving DecidableEq, Repr

/-- The failed stores of a task that no FENCE has reported yet (R269). -/
structure Tally where
  fails : Nat
  refused : Bool
  lost : Bool
  deriving DecidableEq, Repr

/-- The system registers of a context other than those with a structure of their own (R237). %class and %core are
computed. -/
structure SysRegs where
  tid : BitVec 28
  evt : BitVec 4
  restart : Bool
  migr : Bool
  restored : Bool
  urg : Bool
  dual : Bool
  prio : BitVec 2
  rcls : BitVec 2
  xstep : BitVec 9
  rseed : BitVec 32
  held : BitVec 16
  sup : Bool
  psup : Bool
  code : BitVec 16
  tile : Bool
  param : BitVec 12
  epc : Word
  faultpc : Word
  faultaddr : Word
  svbase : Word
  cx : Cx
  deriving DecidableEq, Repr

/-- An accumulator store by entry (R278): an entry that is not listed is 0, or the free value of its place where the store is
undefined (R46, log 4). -/
structure AccStore where
  vals : Tab (BitVec 32)
  free : Option Nat
  deriving DecidableEq, Repr

/-- The context that a pre-emption saves (R551). `acqs` lists the acquire atomics in flight (R322). -/
structure Ctx where
  pc : Word
  pfx : Option Pfx
  regs : Vector Reg 32
  queues : Vector (List QEntry) 8
  tiles : Vector (Option Tile) 16
  seq : List SeqEntry
  recent : List TileUnit
  run : TileRun
  tileTrap : Option TileTrap
  heldStream : Bool
  gens : List Gen
  staging : List Staged
  hint : Option Hint
  wait : Wait
  fences : List Fence
  acqs : List Nat
  sys : SysRegs
  acc : AccStore
  act : Option Activation
  deriving DecidableEq, Repr

/-- The states of a CIM slot (R275). -/
inductive SlotState where
  | empty
  | loading
  | ready
  | reloading
  | lost
  deriving DecidableEq, Repr

/-- The recorded source of a slot (R276). -/
structure SlotSource where
  addr : Word
  scale : Option Tile
  deriving DecidableEq, Repr

/-- A CIM slot (R273, R274): the header's geometry with PITCH, the rows of the image read so far while LOADING, the aligned blocks
of each column once READY, the recorded source, and whether the MLOADB that loads it completes into LOST, since a restore has left
rows that no record names (R286). -/
structure Slot where
  state : SlotState
  fmt : Fmt
  k : Nat
  n : Nat
  a0 : Nat
  pitch : Nat
  rows : List (List Byte)
  cols : List (List AlignedBlock)
  source : Option SlotSource
  lossy : Bool
  touched : Bool
  deriving DecidableEq, Repr

/-- What a core does (R48, R235, R248, R563, R570). -/
inductive RunState where
  | reset
  | idle
  | running
  | stopped
  | killed
  deriving DecidableEq, Repr

/-- Why a core that runs stands stopped: HALT or a trap in supervisor mode (R248, R538). -/
inductive StopCause where
  | none
  | halt
  | trap
  deriving DecidableEq, Repr

/-- A 64-byte line of the instruction cache (R179, R247): context identifier, virtual line number and bytes. -/
structure ICLine where
  ctx : Nat
  line : Nat
  bytes : List Byte
  deriving DecidableEq, Repr

/-- A deque entry, bottom first; reserved for a steal under its reply's number (R361). `after` names the activation and the
moment whose accesses the release of its SPAWN waits for (R325). -/
structure DqEntry where
  record : WorkRec
  reserved : Option Nat
  after : Nat × Nat
  deriving DecidableEq, Repr

/-- A delivered record of the activation queue (R47): its place in the order of delivery, how it starts, the generation
that a continuation keeps, the payload binding and the dual pair. -/
structure AqRecord where
  order : Nat
  kind : ActKind
  record : WorkRec
  gen : Option Nat
  t15 : Option Tile
  pair : Option (Nat × Nat)
  restart : Bool
  deriving DecidableEq, Repr

/-- An entry of the activation queue (R47). -/
inductive AqEntry where
  | free
  | delivered (r : AqRecord)
  | continuation (gen : Nat) (reg : Nat)
  | round (round : Nat)
  deriving DecidableEq, Repr

/-- A stored message (R363): generation addressed, sender's task name, kind 1 MSEND or 2 RETV, body. -/
structure Mail where
  gen : Nat
  sender : Nat
  kind : Nat
  body : List Word
  deriving DecidableEq, Repr

/-- A live generation, its XFREE counter and the failed stores of its task (R42, R269, R533). -/
structure LiveGen where
  gen : Nat
  xfree : BitVec 32
  tally : Tally
  deriving DecidableEq, Repr

/-- An urgent ingress event (R54, R56): launch tag, entry, and the frame values of R46. -/
structure UrgentEvent where
  ltag : Nat
  entry : BitVec 48
  args : List Word
  deriving DecidableEq, Repr

/-- The search for work of an idle core (R359): the next probe of 45, whether a probe is out, and the back-off. -/
structure Steal where
  next : Nat
  busy : Bool
  backoff : Bool
  deriving DecidableEq, Repr

/-- A core's part in a gang (R73-R78): leader, size, its own index, and the first name that a unit of the gang can have, so that
units dispatched before the gang formed stay their core's own; or a GANG that waits to form. -/
inductive GangState where
  | none
  | waiting (n : Nat) (reg : BitVec 5) (op : Nat)
  | member (leader : Nat) (n : Nat) (idx : Nat) (reg : BitVec 5) (op : Nat) (since : Nat)
  deriving DecidableEq, Repr

/-- A round entry (R500). -/
structure RoundEntry where
  valid : Bool
  round : Nat
  group : Nat
  base : Nat
  limit : Nat
  rows : Nat
  closed : Nat
  entry : BitVec 48
  prio : Nat
  aq : Nat
  deriving DecidableEq, Repr

/-- A named region of a launch (R57, R58): 0 KEEP, 1 SPILL, 2 DISCARD. -/
structure Region where
  attr : Nat
  offset : Nat
  size : Nat
  fill : BitVec 32
  deriving DecidableEq, Repr

/-- A core, keyed by its logical identifier (R22). `pastRounds` lists the ranges of rounds that have fired or been withdrawn and whose
entries hold other rounds since (R502, R527). `waited` lists the objects and counters that the core has
waited on, as places at their points of coherence with their lengths (R246, R314); a mailbox XFREE counter stands as place 6000 with
its generation. -/
structure Core where
  state : RunState
  stop : StopCause
  ctx : Ctx
  susp : Option Ctx
  suspSlots : List Slot
  slots : Vector Slot 4
  spad : Memory
  supArea : Memory
  icache : List ICLine
  launch : Option Nat
  disc : BitVec 8
  deque : List DqEntry
  aq : Vector AqEntry 16
  mail : List Mail
  sealedStore : Bool
  genCounter : BitVec 16
  live : List LiveGen
  sealedGens : List Nat
  urgents : List UrgentEvent
  created : BitVec 30
  ended : BitVec 30
  parent : Option Nat
  storeErr : Bool
  norstErr : Bool
  faultErr : Bool
  gang : GangState
  steal : Steal
  rounds : Vector RoundEntry 16
  pastRounds : List (Nat × Nat)
  spilling : List Nat
  waited : List ((Nat × Nat) × Nat)
  deriving DecidableEq, Repr

end Sys2Proof.Machine
end

