-- ==== Sys2Proof/Machine/MemState.lean ====
section
/-! DEFINITION. The memory system's state as plain data: accesses in flight, cache-slice lines, stations, fault queues, the
engine operations of copies and multicast, and the tables that name who belongs together (R250-R312, R401-R410,
R504-R517). -/

namespace Sys2Proof.Machine

/-- What an access asks for (R265-R267): a load with its extension, a store, an atomic operation (0 AMOADD to 7 CAS) with its
operand, expected value, order and scope, or a BARA (R528). `upc` is the address a poisoned register reports. -/
inductive AccKind where
  | load (reg : BitVec 5) (sx : Bool) (upc : Word)
  | store
  | atom (op : Nat) (reg : BitVec 5) (x expected : Word) (acq rel : Bool) (scope : Nat) (upc : Word)
  | bara (reg : BitVec 5) (op : Nat) (addend : Nat)
  deriving DecidableEq, Repr

/-- How far an access has come: sent, parked or held at a station port (R408, R410), translated to its home (R259) or to a
helper (R263), translated to a remote window (R514), and its outcome on the way back. -/
inductive AccStage where
  | sent
  | parked (port : Nat)
  | held (port : Nat)
  | home (pa : Nat)
  | helper (h pa : Nat)
  | window (raddr : Nat)
  | replied (bytes : List Byte)
  | failed (kind : Nat) (addr : Word)
  deriving DecidableEq, Repr

/-- A scalar access in flight; `gen` is the generation of its task, `sender` is the block that has sent its response, with the name that came next at that moment. -/
structure Access where
  id : Nat
  core : Nat
  serial : Nat
  gen : Nat
  kind : AccKind
  addr : Word
  size : Nat
  data : List Byte
  egen : Nat
  stage : AccStage
  sender : Option (SnapBlock × Nat)
  deriving DecidableEq, Repr

/-- A line of 256 bytes at its home slice (R260): filled sectors, whose other bytes are those of HBM, byte mask, the bytes of the mask,
and the holders of replicas and redirects
whose acknowledgements of an invalidation are outstanding (R263). -/
structure Line where
  filled : BitVec 4
  mask : BitVec 256
  data : Memory
  invalidating : List Nat
  deriving DecidableEq, Repr

/-- A replica of a line at a helper slice (R262). -/
structure Replica where
  line : Nat
  helper : Nat
  filled : BitVec 4
  data : Memory
  deriving DecidableEq, Repr

/-- A redirect entry at a network interface (R517). -/
structure Redirect where
  ni : Nat
  ctx : Nat
  vline : Nat
  line : Nat
  helper : Nat
  deriving DecidableEq, Repr

/-- A line's reads in the window of its slice (R262): count, the interfaces that read it with the context and virtual line
they used, and whether it was written. -/
structure HotLine where
  line : Nat
  count : Nat
  readers : List (Nat × Nat × Nat)
  written : Bool
  deriving DecidableEq, Repr

/-- A translation station's registers (R510, R514). -/
structure Station where
  ctxBase : Nat
  winBase : Nat
  deriving DecidableEq, Repr

/-- A request in a fault queue (R408): an access, a row of an engine operation, or the write of a COPY packet. -/
inductive Parked where
  | access (id : Nat)
  | row (op row : Nat)
  | packet (q n : Nat)
  deriving DecidableEq, Repr

/-- A fault-queue entry (R407): its port, the request, and whether it waits on its own page fault or behind another. -/
structure FaultEntry where
  port : Nat
  what : Parked
  own : Bool
  deriving DecidableEq, Repr

/-- A flow that has escaped (R404): source core, class and endpoint. -/
structure Escaped where
  core : Nat
  cls : Nat
  dst : Nat
  deriving DecidableEq, Repr

/-- The virtual channels of a link (R402). -/
inductive Channel where
  | req
  | mc
  | col (comm : Nat)
  | rsp
  | esc
  deriving DecidableEq, Repr

/-- XCOPY, XGATH or XSCAT (R302). -/
inductive CopyKind where
  | copy
  | gather
  | scatter
  deriving DecidableEq, Repr

/-- A copy in flight (R294-R305): the latched registers, the index column, whether the release at issue is in force, the
rows performed, parked and failed, whether it was cancelled before any row failed, and whether its core was killed. -/
structure CopyOp where
  kind : CopyKind
  cx : Cx
  idx : List Int
  rel : Bool
  performed : List Nat
  parked : List Nat
  failed : List (Nat × Nat)
  cancelled : Bool
  dead : Bool
  deriving DecidableEq, Repr

/-- A receiver of a multicast: its rank, core, and whether it was delivered to, or the outcome code of its failure (R307). -/
structure Receiver where
  rank : Nat
  core : Nat
  egen : Nat
  done : Bool
  code : Nat
  freed : Bool
  deriving DecidableEq, Repr

/-- An XMCAST or XMREAD in flight, or ended and not yet freed by every receiver (R306-R312). `rows` is the source tile of an
XMCAST, once it has been read (`loaded`); `src` the source address of an XMREAD. `linesDone` lists the lines of an XMREAD delivered to a
rank, `srcFail` whether a source line could not be read. -/
structure McastOp where
  read : Bool
  tile : Tile
  word : Word
  src : Word
  rows : List (List Byte)
  loaded : Bool
  rel : Bool
  name : Nat
  receivers : List Receiver
  linesDone : List (Nat × Nat)
  srcFail : Bool
  ended : Bool
  deriving DecidableEq, Repr

/-- A merge entry of an XMREAD line at its home slice (R310, R311): the operations merged, the line of the request, the
sectors sent, the receiving cores of the first transfer, each with its entry generation, and the late joiners with the sector at which
they joined. -/
structure MergeEntry where
  id : Nat
  ops : List Nat
  row : Nat
  off : Nat
  len : Nat
  pa : Nat
  sent : Nat
  cores : List (Nat × Nat)
  late : List ((Nat × Nat) × Nat)
  deriving DecidableEq, Repr

/-- A group-table entry (R504). -/
structure Group where
  valid : Bool
  ltag : Nat
  members : List Nat
  deriving DecidableEq, Repr

/-- A core-map entry (R506). -/
structure MapEntry where
  egen : BitVec 8
  bound : Bool
  pdie : Nat
  pclu : Nat
  ppos : Nat
  deriving DecidableEq, Repr

/-- A core-map change on its way to the interfaces (R508): the core, its entry before, the interfaces that have not
acknowledged it, and whether a kill caused it. -/
structure MapChange where
  core : Nat
  old : MapEntry
  waiting : List Nat
  kill : Bool
  deriving DecidableEq, Repr

/-- Who waits for leave (R249, R281, R416, R535): a LEAVE by its operation, the tile stream of a core, an instruction of a core
that waits at issue, or a collective chunk of a communicator. -/
inductive LeaveWho where
  | op (id : Nat)
  | tile (core : Nat)
  | issue (core : Nat)
  | chunk (comm : Nat)
  | restore (core : Nat)
  deriving DecidableEq, Repr

/-- A request that waits for leave in the share of a partition. -/
structure LeaveReq where
  part : Nat
  units : Nat
  who : LeaveWho
  deriving DecidableEq, Repr

/-- A leave pool (R535): CAP, the clusters of the die by which its shares are divided among the partitions, the units in use in each partition's share, and the requests waiting, oldest first. FREE is CAP
less the units in use, WAIT the number of requests. -/
structure Pool where
  cap : Nat
  weights : Tab Nat
  used : Tab Nat
  waiting : List LeaveReq
  deriving DecidableEq, Repr

end Sys2Proof.Machine
end

