-- ==== Sys2Proof/Machine/UnitState.lean ====
section
/-! DEFINITION. The state of the units beside the cores and the memory, as plain data: the key space and its homes, the
combine slices, the collective and stack engines, the task messages, the distributor, the front end, reliability,
bring-up, power and snapshots (R338-R400, R411-R499, R518, R536, R555-R582). -/

namespace Sys2Proof.Machine

/-! ### Task messages (R353-R371, R502, R508, R555) -/

/-- A dual copy's tag on a message (R556): pair, copy, pair sequence number and message hash. -/
structure PairTag where
  pair : Nat
  copy : Nat
  idx : Nat
  hash : BitVec 64
  deriving DecidableEq, Repr

/-- What a message of the task plane carries. -/
inductive TaskBody where
  | callat (record : WorkRec)
  | mail (kind : Nat) (name : Nat) (body : List Word)
  | xfree (name : Nat)
  | rndclose (round : Nat)
  | stealReq (cls : Nat) (ltag : Option Nat) (free : Nat)
  | stealReply (records : List WorkRec)
  | stealAck (reply : Nat)
  | root (record : WorkRec) (restart : Bool)
  | dualSpawn (record : WorkRec)
  | urgent (e : UrgentEvent)
  | mcast (op : Nat)
  deriving DecidableEq, Repr

/-- A message of the task plane: its sender core, task name and activation, the target core with the EGEN of the sender's
map copy (R508), the operation whose status it settles, a dual copy's tag, whether it waits at an Assay point, and the
operation of the twin that shares its status (R559). -/
structure TaskMsg where
  id : Nat
  core : Nat
  name : Nat
  target : Nat
  egen : BitVec 8
  op : Nat
  tag : Option PairTag
  assayed : Bool
  serial : Nat
  twin : Option Nat
  body : TaskBody
  deriving DecidableEq, Repr

/-- The points that hold first arrivals of dual pairs (R559). -/
inductive AssayPoint where
  | core (c : Nat)
  | home (h : Nat)
  | distributor
  deriving DecidableEq, Repr

/-- A dual pair (R555, R556): identifier, partition, record, the cores of the copies and those that have ended, whether it is the second
placing of its record (R560), whether the record has been counted as ended (R561), and the messages that a copy's ended activations have
sent (R556). -/
structure DualPair where
  pair : Nat
  part : Nat
  record : WorkRec
  cores : List Nat
  ended : List Nat
  second : Bool
  counted : Bool
  sent : Tab Nat
  deriving DecidableEq, Repr

/-- A dual record that waits at the distributor (R358), whether it is placed for the second time and has been counted as ended (R560,
R561), and the core, activation and moment whose accesses the release of its SPAWN waits for (R325). -/
structure DualWait where
  id : Nat
  part : Nat
  record : WorkRec
  second : Bool
  counted : Bool
  core : Nat
  after : Nat × Nat
  deriving DecidableEq, Repr

/-- A root record that waits at the distributor (R362): its launch, its partition, the record, and whether it restarts a task
of a killed core (R567). -/
structure RootWait where
  id : Nat
  ltag : Nat
  part : Nat
  record : WorkRec
  restart : Bool
  deriving DecidableEq, Repr

/-- A wave status word (R366). -/
structure WaveWord where
  created : BitVec 30
  ended : BitVec 30
  act : Bool
  store : Bool
  norst : Bool
  fault : Bool
  deriving DecidableEq, Repr

/-- A running launch (R51, R365-R367, R384): tag, partition, seed, regions, root core, the packet that started it, the
answers of the wave in progress by core, and the word of the last wave. -/
structure Launch where
  ltag : Nat
  part : Nat
  seed : BitVec 32
  regions : List Region
  root : Option Nat
  packet : Nat × Nat
  wave : Option (List (Nat × WaveWord))
  last : Option WaveWord
  deriving DecidableEq, Repr

/-- What a partition is doing (R553, R578). -/
inductive PartState where
  | absent
  | live
  | switching
  | halted
  | out
  | gated
  deriving DecidableEq, Repr

/-- A partition (R32, R258, R507): clusters as die*8 + cluster, context identifier, %clmapgen, and the saved cores of a
switched-out partition (R553). -/
structure Partition where
  state : PartState
  ctxid : Nat
  clusters : List Nat
  clmapgen : BitVec 32
  saved : List (Nat × Core)
  waking : Bool
  deriving DecidableEq, Repr

/-! ### The key space (R425-R476) -/

/-- A stored tuple (R426-R428, R455): the units of the heap that its payload fills, by number (R463). -/
structure Tuple where
  key : BitVec 256
  ctx : Nat
  seq : Nat
  shape : BitVec 32
  payload : List Byte
  chain : Bool
  units : List Nat := []
  deriving DecidableEq, Repr

/-- Where a payload is delivered (R436, R440): a tile of the issuing core, an image, a registered continuation, or
another module, which keeps the destination itself. -/
inductive KeyDest where
  | tile (t : Tile)
  | image (addr : Word) (cap : Nat)
  | cont (aq : Nat) (reg : Nat) (entry : BitVec 48) (prio : Nat) (t : Tile)
  | remote (cont : Bool)
  deriving DecidableEq, Repr

/-- What a key request asks for (R450-R452); a re-deposit keeps its sequence (R437). `fetch` is a KPUT whose payload of `len`
bytes has still to be read from memory; `copy` carries a tuple of the upper half of a split to the destination's module, or, `gone`,
tells that it has been removed since (R465, R471). -/
inductive KeyAsk where
  | fetch (key : BitVec 256) (shape : BitVec 32) (addr : Word) (len : Nat)
  | put (key : BitVec 256) (shape : BitVec 32) (payload : List Byte)
  | read (take : Bool) (v m : BitVec 256) (poll : Bool) (dest : KeyDest)
  | cancel (v m : BitVec 256)
  | redeposit (t : Tuple)
  | stat (sel : Nat)
  | copy (t : Tuple) (gone : Bool)
  deriving DecidableEq, Repr

/-- Who issued a key request: a core's task, a command packet, an ingress queue, a combine slice (with the release word of the token
and its context), another module, or a home. -/
inductive KeyIssuer where
  | task (core serial name op : Nat)
  | packet (q n : Nat)
  | ingress (iq : Nat)
  | combine (slice ctx : Nat) (word : Word)
  | module (m reqid name : Nat)
  | home (h : Nat)
  deriving DecidableEq, Repr

/-- The other copy's part in a key operation that a home performs once for a dual pair (R445). -/
structure KeyTwin where
  core : Nat
  serial : Nat
  name : Nat
  op : Nat
  dest : KeyDest
  deriving DecidableEq, Repr

/-- A key request on its way to, or waiting at, a home (R432, R460). `rid` is its number on a Waidric connection, `twinRemote`
the module and number of another module's second copy, `stored` says that it was stored through the overflow chain (R462), `served`
that its tuple has come while its status has not (R440), and `pair` names the dual pair for which it is performed (R445). -/
structure KeyReq where
  id : Nat
  issuer : KeyIssuer
  ctx : Nat
  ask : KeyAsk
  hash : Nat
  home : Nat
  mapgen : Nat
  fwd : Nat
  forwarded : Bool
  held : Bool
  tag : Option PairTag
  twin : Option KeyTwin
  twinRemote : Option (Nat × Nat)
  assayed : Bool
  chain : Bool
  rid : Nat
  stored : Bool := false
  served : Bool := false
  pair : Option Nat := none
  deriving DecidableEq, Repr

/-- What travels back from a home (R436, R446): an outcome code with its flags, or a served tuple. -/
inductive KeyAnswer where
  | status (code : Nat) (overflow : Bool)
  | serve (t : Tuple) (take overflow : Bool)
  | stat (v : Word)
  deriving DecidableEq, Repr

/-- A delivery in transit from a home (R436, R441), held while it waits for the acknowledgements of another module: those that are
left, by module and number, and whether one of them has refused the tuple (R437, R445). -/
structure KeyDelivery where
  id : Nat
  home : Nat
  req : KeyReq
  answer : KeyAnswer
  held : Bool
  left : List (Nat × Nat) := []
  bad : Bool := false
  deriving DecidableEq, Repr

/-- A delivery's acknowledgement on its way to the home (R437): whether the take stands. -/
structure KeyAck where
  id : Nat
  home : Nat
  tuple : Tuple
  hash : Nat
  rid : Nat
  ok : Bool
  deriving DecidableEq, Repr

/-- A home (R425, R453): stored tuples, waiting templates in arrival order, the sequence counter, the heap region, the
tuples served and not acknowledged. -/
structure Home where
  present : Bool
  tuples : List Tuple
  waiters : List KeyReq
  seq : BitVec 64
  heapBase : Nat
  heapSize : Nat
  unacked : List Tuple
  deriving DecidableEq, Repr

/-- A home-map entry (R457); its split state is that of the split in progress. -/
structure HomeRange where
  lo : Nat
  home : Nat
  deriving DecidableEq, Repr

/-- The home map with its generation (R457, R458). -/
structure HomeMap where
  gen : BitVec 32
  ranges : List HomeRange
  deriving DecidableEq, Repr

/-- The split in progress (R465-R470): phase 1 PREPARE, 2 COPY, 3 CUTOVER; the range and its halves, source and
destination, the operation that waits, the tuples copied so far, and the heap units reserved at the destination. -/
structure Split where
  phase : Nat
  lo : Nat
  mid : Nat
  hi : Nat
  src : Nat
  dst : Nat
  op : Nat
  copied : List Tuple
  reserved : Nat
  deriving DecidableEq, Repr

/-- A Waidric connection to another module (R471, R472): last request number sent, the highest one performed of those received, the
key requests outstanding with their numbers, and the number reported when the connection was last re-established. -/
structure Waidric where
  sent : Nat
  received : Nat
  outstanding : List (Nat × KeyReq)
  reported : Nat
  deriving DecidableEq, Repr

/-! ### The combine buffer (R477-R499) -/

/-- A latched buffer descriptor (R478, R479). -/
structure CmbDesc where
  tupleMode : Bool
  eager : Bool
  policy : Nat
  ofmt : Fmt
  k : Nat
  cols : Nat
  opitch : Nat
  linger : Nat
  timeout : Nat
  cnt : Word
  rwbase : Word
  obase : Word
  deriving DecidableEq, Repr

/-- A bound buffer (R479). -/
structure CmbBuf where
  ctx : Nat
  d : Nat
  desc : CmbDesc
  deriving DecidableEq, Repr

/-- The states of a combine slot (R482); FREE slots are not listed. -/
inductive CmbState where
  | opened
  | complete
  | linger
  deriving DecidableEq, Repr

/-- A combine slot (R481): buffer, token, the expected experts and weights in ascending expert index, the staged rows by
position, the positions arrived and arrived late, state, substitution code and result, and the slice cycles left of its countdown (0:
none runs). -/
structure CmbSlot where
  ctx : Nat
  d : Nat
  token : Nat
  experts : List Nat
  weights : List (BitVec 32)
  rows : List (Option (List (BitVec 32)))
  lateBits : List Nat
  state : CmbState
  subst : Nat
  closed : Bool
  late : Bool
  result : List Nat
  present : Nat
  countdown : Nat
  opening : Nat
  order : Nat
  deriving DecidableEq, Repr

/-- A combine command (R496-R499). -/
inductive CmbAsk where
  | open (f n : Nat) (blk : Bool) (k : Nat) (pairs : List (List (Int × BitVec 32)))
  | put (expert cols : Nat) (rows : List (Int × List (BitVec 32)))
  | close (f c : Nat)
  | stat (f : Nat)
  deriving DecidableEq, Repr

/-- A combine command on its way to, or waiting at, a slice (R491). -/
structure CmbMsg where
  id : Nat
  core : Nat
  serial : Nat
  op : Nat
  ctx : Nat
  d : Nat
  slice : Nat
  rel : Bool
  ask : CmbAsk
  deriving DecidableEq, Repr

/-- A cache slice's combine tables (R477): slots are keyed 0 to 511. -/
structure CmbSlice where
  bufs : List CmbBuf
  slots : Tab (Option CmbSlot)
  waiting : List CmbMsg
  deriving DecidableEq, Repr

/-! ### Stack and collective engines (R338-R352, R411-R424) -/

/-- MSIRED, MSISCAT or MSTOPK. -/
inductive MsKind where
  | ired
  | iscat
  | topk (k : Nat)
  deriving DecidableEq, Repr

/-- A stack-engine operation (R343-R352): table and command area, the issuer's context identifier, the bags of indices, whether
the release at issue is in force, the header once it is checked, the packets as positions in the list of indices (of MSTOPK: the
rows), how many have started, the positions updated, the rows read so far, the result rows written, the code of the failure (0
none), and whether the kill of its core cut it short. -/
structure MsOp where
  kind : MsKind
  table : Word
  area : Word
  ctx : Nat
  bags : List (List Int)
  rel : Bool
  checked : Bool
  fmt : Fmt
  rowsN : Nat
  cols : Nat
  packets : List (List Nat)
  started : Nat
  performed : List Nat
  got : List (Nat × List Byte)
  results : Nat
  code : Nat
  stopped : Bool
  deriving DecidableEq, Repr

/-- COLRS, COLAR, COLAG, COLBC or COLBAR. -/
inductive ColKind where
  | rs
  | ar
  | ag
  | bc
  | bar
  deriving DecidableEq, Repr

/-- A collective operation of one participant (R417-R423): kind, mode, communicator, the descriptor's address and fields, the
instance joined with its number, the participant's rank, the bytes that it reads and writes, the chunks that it has to move (0
until data movement starts), those that have started and those moved. -/
structure ColOp where
  kind : ColKind
  exact : Bool
  comm : Nat
  desc : Word
  src : Word
  dst : Word
  count : Nat
  root : Nat
  fmt : Fmt
  red : Nat
  inst : Nat
  rank : Nat
  rd : Nat
  wr : Nat
  total : Nat
  next : Nat
  moved : Nat
  deriving DecidableEq, Repr

/-- A collective instance (R413): communicator, number, partition and members, the members that have joined with the operations of
those that wait, whether its data movement has started, the contributions in order of global rank, its outcome, and whether it
has ended for those that joined. -/
structure Instance where
  comm : Nat
  inst : Nat
  part : Nat
  members : List Nat
  joined : List Nat
  ops : List Nat
  started : Bool
  data : List (List Byte)
  code : Nat
  ended : Bool
  deriving DecidableEq, Repr

/-- A reservation that an engine holds for a chunk: communicator, the die of the next hop, and whether a shared buffer holds it. -/
structure ChunkRes where
  comm : Nat
  next : Nat
  shared : Bool
  deriving DecidableEq, Repr

/-- A chunk that has started: its operation and its place there, its buffer, and the units of leave drawn (R415, R416). -/
structure ChunkRun where
  op : Nat
  idx : Nat
  res : ChunkRes
  units : Nat
  deriving DecidableEq, Repr

/-- A die's collective engine (R414-R416): the chunk in progress; the chunks that wait parked, behind which nothing waits (R408); the
reservations taken and not yet used; of its own buffers, the dedicated ones and the shared ones in use by communicator; the
requests that wait for a shared one, by communicator and die; and the last communicator served. -/
structure ColEngine where
  chunk : Option ChunkRun
  parked : List ChunkRun
  taken : List ChunkRes
  dedicated : List Nat
  shared : List Nat
  pending : List (Nat × Nat)
  served : Nat
  deriving DecidableEq, Repr

/-! ### Operations in flight -/

/-- What an operation in flight is (R157). -/
inductive OpBody where
  | copy (c : CopyOp)
  | mcast (m : McastOp)
  | ms (m : MsOp)
  | key
  | cmb
  | col (c : ColOp)
  | fence
  | leave (n : Nat)
  | barw (off : Nat)
  | cntrd (addr thr : Word)
  | task
  | split
  | stat
  deriving DecidableEq, Repr

/-- An operation in flight with the register its status goes to (0: none), the activation that issued it and the generation of its
task, the leave that it holds, from the task's reservation and from the pool (R249), and the bytes of its core's scratchpad that it has
still to read where these no longer stand there as at its issue (R296, R301). -/
structure Op where
  id : Nat
  core : Nat
  serial : Nat
  gen : Nat
  reg : BitVec 5
  upc : Word
  held : Nat
  drawn : Nat
  body : OpBody
  kept : List (Nat × List Byte) := []
  deriving DecidableEq, Repr

/-! ### The front end (R375-R400) -/

/-- A fetched packet (R377, R388): its number, the control block in force when it was fetched, its bytes, and how far it has come;
`tests` counts a WAITCOND's tests, and `moment` is the name that came next when it completed. The number is that of R377 with 2^64 added for each reset of its queue's counts before it. -/
structure Packet where
  n : Nat
  blk : QueueBlock
  bytes : List Byte
  started : Bool
  completed : Bool
  status : Nat
  detail : Nat
  written : Bool
  issued : Bool
  tests : Nat
  ltag : Nat
  moment : Nat := 0
  deriving DecidableEq, Repr

/-- A host work queue (R376-R381): control-block copies, commit word, the block in force, HEAD, TAIL, error, the wake
latch, packets not yet retired, the packets that have failed since the last FENCE packet, and packets still to pass over. Beside
HEAD stand how often the counts have been reset, how many packets have been fetched since (HEAD is its low 32 bits), and
whether the head shadow has still to be written. -/
structure HostQueue where
  blkA : QueueBlock
  blkB : QueueBlock
  commit : Word
  force : Option QueueBlock
  pendingCommit : Bool
  head : BitVec 32
  epoch : Nat
  fetched : Nat
  shadowDue : Bool
  tail : BitVec 32
  error : Nat
  latch : Option (BitVec 32)
  packets : List Packet
  failed : List Nat
  passOver : Nat
  deriving DecidableEq, Repr

/-- A frame as it is classified: its port and stamp, its bytes, and its entry, queue and sequence number. -/
structure Framed where
  port : Nat
  ts : BitVec 80
  bytes : List Byte
  entry : Nat
  queue : Nat
  seq : Nat
  deriving DecidableEq, Repr

/-- An ingress queue (R394, R395), whether a dead link takes its next ring write (R396), and its frames that wait for a held page of the
ring, in the order of their numbers. -/
structure IngressQueue where
  desc : Option IngressDesc
  seq : BitVec 64
  lossy : Bool
  waits : List Framed := []
  deriving DecidableEq, Repr

/-- What a connection of a host has sent and the module has not performed (R337, R381): an RDMA write, or a doorbell behind one. -/
inductive HostItem where
  | write (conn ctx : Nat) (va : Word) (bytes : List Byte)
  | bell (conn q : Nat) (value : Word)
  deriving DecidableEq, Repr

/-- A frame that waits at its port for host-assisted classification (R399). -/
structure PortFrame where
  port : Nat
  ts : BitVec 80
  bytes : List Byte
  deriving DecidableEq, Repr

/-! ### Reliability, bring-up, power, snapshots -/

/-- An error classification entry (R518): its number, class 0 CELL, 1 ROW, 2 COLUMN, 3 BANK. -/
structure ErrEntry where
  num : Nat
  count : Nat
  cls : Nat
  bank : BitVec 6
  row : BitVec 18
  col : BitVec 10
  req : Bool
  deriving DecidableEq, Repr

/-- What a Foreman has been told and has not dealt with: an entry of an engine that asks for a repair (R520), a sector that an
uncorrectable error has poisoned (R562), or a dual pair that has been killed (R560). -/
inductive Notice where
  | repair (eng num : Nat)
  | sector (n : Nat)
  | pair (p : Nat)
  deriving DecidableEq, Repr

/-- A firmware block's state (R572, R573). -/
inductive BlockState where
  | held
  | accepted
  | ready
  | failed
  deriving DecidableEq, Repr

/-- A block that runs firmware (R570-R574): state, measurement, security version, heartbeats missed in a row. -/
structure FwState where
  blk : FwBlock
  state : BlockState
  measurement : BitVec 384
  svn : Nat
  missed : Nat
  deriving DecidableEq, Repr

/-- The attestation report of R573; the signature is the uninterpreted function of Config over the rest. -/
structure Report where
  nonce : BitVec 256
  device : Nat
  blocks : List FwState
  replacements : Nat
  signature : Nat
  deriving DecidableEq, Repr

/-- What a block latches for a cut (R581), as a list of numbers, and the name that the next packet had at that moment. -/
structure SnapLatch where
  tag : Nat
  blk : SnapBlock
  moment : Nat
  values : List Nat
  deriving DecidableEq, Repr

/-- A cut in progress (R580-R582): tag, the cores whose SNAP began it or joined it, blocks latched, packets recorded by block, and buffers that
overflowed. -/
structure Cut where
  tag : Nat
  cores : List Nat
  latched : List SnapLatch
  recorded : List (SnapBlock × Nat)
  overflow : List SnapBlock
  deriving DecidableEq, Repr

/-- A cut handed to the management queue (R582). -/
structure CutReport where
  tag : Nat
  complete : Bool
  latched : List SnapLatch
  recorded : List (SnapBlock × Nat)
  deriving DecidableEq, Repr

end Sys2Proof.Machine
end

