-- ==== Sys2Proof/Machine/State.lean ====
section
/-! DEFINITION. The state of the module as plain data, with the faults and refusals of a step, and the state after reset
(R9, R21, R41, R412, R458, R506, R535, R570; values that the specification does not state: log 1, log 2). -/

namespace Sys2Proof.Machine

/-- Whose step is next: an event of the agenda, or an instruction of the focus core (log 3). -/
inductive Turn where
  | event
  | core
  deriving DecidableEq, Repr

/-- The front end's counts of unbound idle cores as a die last reported them: partition, WIDE count, NARROW count (R362). -/
structure DieReport where
  part : Nat
  wide : Nat
  narrow : Nat
  deriving DecidableEq, Repr

/-- A forwarding hint on its way to an interface (R460): the interface, the generation and the new entry. -/
structure MapHint where
  id : Nat
  ni : Nat
  gen : BitVec 32
  lo : Nat
  home : Nat
  deriving DecidableEq, Repr

/-- The whole state. `badSectors` lists the poisoned sectors with the bytes of each that have been written since, as a mask (R562);
`notices` what the Foremen of the dies have been told (R520, R560, R562); `absentHomes` the homes of other modules that are absent
(R459); `escLoose` the packets of no flow that have moved to the escape channel (R405); `splitIn` and `splitReqs` what another module
has sent of the upper half of a split, by module and home (R467); `splitLock` the module that holds the split lock, where this module
knows (R470); `carried` the releases at a scope below the module, each as its core and its place in the order of names, that have left
writes of the core not yet performed (R316, R322). -/
structure State where
  fresh : Nat
  nextId : Nat
  turn : Turn
  agenda : List Event
  focus : Nat
  cores : Tab Core
  hbm : Memory
  remote : Memory
  lines : Tab Line
  badSectors : Tab (BitVec 64)
  hot : List HotLine
  replicas : List Replica
  redirects : List Redirect
  stations : Tab Station
  fq : List FaultEntry
  accs : List Access
  carried : List (Nat × Nat)
  escaped : List Escaped
  escLoose : List Nat
  ops : List Op
  merges : List MergeEntry
  msgs : List TaskMsg
  parts : Tab Partition
  groups : Tab Group
  coreMap : Tab MapEntry
  mapChanges : List MapChange
  launches : List Launch
  lastLtag : Nat
  rootWaits : List RootWait
  dualWaits : List DualWait
  pairs : List DualPair
  nextPair : Nat
  dieReports : Tab (List DieReport)
  pools : Tab Pool
  comms : Tab CommEntry
  instances : List Instance
  colJoins : Tab Nat
  engines : Tab ColEngine
  homes : Tab Home
  absentHomes : List Nat
  homeMap : HomeMap
  mapCopies : Tab HomeMap
  hints : List MapHint
  split : Option Split
  splitIn : List (Nat × Tuple)
  splitReqs : List (Nat × KeyReq)
  splitLock : Option Nat
  domainModules : Nat
  localMod : Nat
  waidric : Tab Waidric
  waidricOut : List (Nat × List Byte)
  failedModules : List Nat
  keyReqs : List KeyReq
  deliveries : List KeyDelivery
  acks : List KeyAck
  slices : Tab CmbSlice
  cmbMsgs : List CmbMsg
  queues : Tab HostQueue
  feMode : BitVec 6
  feSaved : Option (BitVec 6)
  hostWaits : List HostItem
  classifier : Tab (Option ClassEntry)
  ingress : Tab IngressQueue
  portFrames : List PortFrame
  feUrgents : List (Nat × UrgentEvent)
  counters : List (Counter × Nat)
  errTables : Tab (List ErrEntry)
  notices : List (Nat × Notice)
  mismatches : Tab Nat
  deadPhys : List Nat
  firmware : List FwState
  minSvn : Tab Nat
  flash : List FlashImage
  replacements : Nat
  reports : List Report
  cuts : List Cut
  cutReports : List CutReport
  deriving DecidableEq, Repr

/-- Why the machine stops. -/
inductive Fault where
  /-- Raised by step alone when `State.focus` names no core (R22, R23): no state that a step reaches has such a focus, and
  the hardware has no such core. Safe. -/
  | noSuchCore
  deriving DecidableEq, Repr

/-- Why a step has no meaning. -/
inductive Refusal where
  /-- Raised by exec for an instruction whose meaning is not written yet. Safe: nothing is claimed of it. -/
  | notModelled (mnemonic : String)
  deriving DecidableEq, Repr

/-- A register after reset (R9, log 1). -/
def resetReg : Reg := { val := 0, poison := none, mark := .clear }

/-- The system registers after reset (R237; values that the field maps mark Launch or leave open: log 1). -/
def resetSys : SysRegs :=
  { tid := 0, evt := 0, restart := false, migr := false, restored := false, urg := false, dual := false, prio := 0,
    rcls := 0, xstep := 0, rseed := 0, held := 0, sup := false, psup := false, code := 0, tile := false, param := 0,
    epc := 0, faultpc := 0, faultaddr := 0, svbase := 0,
    cx := { src := 0, dst := 0, rows := 0, rbytes := 0, rstride := 0, wstride := 0, bypass := false, qos := 0 } }

/-- A tile stream with no instruction in progress. -/
def resetRun : TileRun :=
  { begun := false, popped := none, row := 0, seeds := [], fromHeld := 0, fromPool := 0, waitLeave := false, stopped := false,
    loopLeft := none, loopIdx := 0 }

/-- A tally of no failure. -/
def noFails : Tally := { fails := 0, refused := false, lost := false }

/-- A context after reset. -/
def resetCtx : Ctx :=
  { pc := 0, pfx := none, regs := Vector.replicate 32 resetReg, queues := Vector.replicate 8 [],
    tiles := Vector.replicate 16 none, seq := [], recent := [], run := resetRun, tileTrap := none, heldStream := false,
    gens := [], staging := [], hint := none, wait := .none, fences := [], acqs := [],
    sys := resetSys, acc := { vals := [], free := none }, act := none }

/-- A CIM slot that is EMPTY (R275). -/
def emptySlot : Slot :=
  { state := .empty, fmt := .fp32, k := 0, n := 0, a0 := 0, pitch := 64, rows := [], cols := [], source := none, lossy := false, touched := false }

/-- A round entry with VALID clear (R500). -/
def emptyRound : RoundEntry :=
  { valid := false, round := 0, group := 0, base := 0, limit := 0, rows := 0, closed := 0, entry := 0, prio := 0, aq := 0 }

/-- A core after reset: held in reset until it is released (R570), every store empty or 0 (log 1, log 2). -/
def resetCore : Core :=
  { state := .reset, stop := .none, ctx := resetCtx, susp := none, suspSlots := [], slots := Vector.replicate 4 emptySlot,
    spad := [], supArea := [], icache := [], launch := none, disc := 0, deque := [], aq := Vector.replicate 16 .free,
    mail := [], sealedStore := false, genCounter := 0, live := [], sealedGens := [], urgents := [], created := 0, ended := 0,
    parent := none, storeErr := false, norstErr := false, faultErr := false, gang := .none,
    steal := { next := 0, busy := false, backoff := false }, rounds := Vector.replicate 16 emptyRound, pastRounds := [],
    spilling := [], waited := [] }

/-- The core-map entry of a core at reset: bound to the position of its number on its own cluster (R21, R506). -/
def resetMapEntry (c : Nat) : MapEntry :=
  { egen := 0, bound := true, pdie := c / 128, pclu := c / 16 % 8, ppos := c % 16 }

/-- A leave pool after reset (R535). -/
def resetPool : Pool := { cap := 948, weights := [], used := [], waiting := [] }

/-- An absent partition. -/
def noPartition : Partition := { state := .absent, ctxid := 0, clusters := [], clmapgen := 0, saved := [], waking := false }

/-- A group entry with VALID clear (R504). -/
def emptyGroup : Group := { valid := false, ltag := 0, members := [] }

/-- A communicator entry after reset (R412). -/
def emptyComm : CommEntry := { mrank := 0, nmod := 0, ctxid := 0, group := 0, prio := 0, part := 0, valid := false }

/-- A collective engine at rest. -/
def idleEngine : ColEngine := { chunk := none, parked := [], taken := [], dedicated := [], shared := [], pending := [], served := 0 }

/-- A home with no tuple (R453); the deposit sequence begins at the value of log 1. -/
def emptyHome : Home :=
  { present := true, tuples := [], waiters := [], seq := 1, heapBase := 0, heapSize := 0, unacked := [] }

/-- A slice with no combine buffer. -/
def emptySlice : CmbSlice := { bufs := [], slots := [], waiting := [] }

/-- A queue control block with EN clear (R379). -/
def emptyBlock : QueueBlock := { ctxid := 0, cbase := 0, rbase := 0, hshadow := 0, logn := 0, part := 0, en := false }

/-- A host queue after reset. -/
def emptyQueue : HostQueue :=
  { blkA := emptyBlock, blkB := emptyBlock, commit := 0, force := none, pendingCommit := false, head := 0, epoch := 0, fetched := 0,
    shadowDue := false, tail := 0,
    error := 0, latch := none, packets := [], failed := [], passOver := 0 }

/-- An ingress queue that is not configured. -/
def emptyIngress : IngressQueue := { desc := none, seq := 0, lossy := false }

/-- A Waidric connection that has carried nothing. -/
def emptyWaidric : Waidric := { sent := 0, received := 0, outstanding := [], reported := 0 }

/-- The home map before bring-up: generation 0, no valid entry (R458, R459). -/
def emptyMap : HomeMap := { gen := 0, ranges := [] }

/-- The machine right after reset. -/
def State.reset : State :=
  { fresh := 0, nextId := 1, turn := .core, agenda := [], focus := 0, cores := [], hbm := [], remote := [], lines := [],
    badSectors := [], hot := [], replicas := [], redirects := [], stations := [], fq := [], accs := [], carried := [], escaped := [], escLoose := [],
    ops := [], merges := [], msgs := [], parts := [], groups := [], coreMap := [], mapChanges := [], launches := [],
    lastLtag := 0, rootWaits := [], dualWaits := [], pairs := [], nextPair := 1, dieReports := [], pools := [], comms := [],
    instances := [], colJoins := [], engines := [], homes := [], absentHomes := [], homeMap := emptyMap, mapCopies := [], hints := [],
    split := none, splitIn := [], splitReqs := [], splitLock := none,
    domainModules := 1, localMod := 0, waidric := [], waidricOut := [], failedModules := [], keyReqs := [], deliveries := [],
    acks := [], slices := [], cmbMsgs := [], queues := [], feMode := 0, feSaved := none, hostWaits := [], classifier := [], ingress := [],
    portFrames := [], feUrgents := [], counters := [], errTables := [], notices := [], mismatches := [], deadPhys := [], firmware := [],
    minSvn := [], flash := [], replacements := 0, reports := [], cuts := [], cutReports := [] }

end Sys2Proof.Machine
end

