-- ==== Sys2Proof/Machine/Ops.lean ====
section
/-! DEFINITION. The named operations that the meanings share: cores and contexts, registers and their marks, the agenda,
free values, status delivery (R157, R159), event counters (R536), taking a trap and returning from one (R538, R539,
R245), the disband of a gang (R78), and the checks of a unit at issue (R130, R133, R155-R157, R543). -/

namespace Sys2Proof.Machine

/-! ### Cores, contexts and the model's own fields -/

/-- A core by its logical identifier (R22). -/
def getCore (s : State) (c : Nat) : Core := tabGet resetCore s.cores c

/-- The state with a core replaced. -/
def setCore (s : State) (c : Nat) (k : Core) : State := { s with cores := tabSet s.cores c k }

/-- The state with a core changed. -/
def modCore (s : State) (c : Nat) (f : Core → Core) : State := setCore s c (f (getCore s c))

/-- The live context of a core. -/
def getCtx (s : State) (c : Nat) : Ctx := (getCore s c).ctx

/-- The state with the live context of a core replaced. -/
def setCtx (s : State) (c : Nat) (x : Ctx) : State := modCore s c (fun k => { k with ctx := x })

/-- The state with the live context of a core changed. -/
def modCtx (s : State) (c : Nat) (f : Ctx → Ctx) : State := setCtx s c (f (getCtx s c))

/-- The state with the system registers of a core's live context changed. -/
def modSys (s : State) (c : Nat) (f : SysRegs → SysRegs) : State := modCtx s c (fun x => { x with sys := f x.sys })

/-- The state with an event at the end of the agenda (log 3). -/
def push (s : State) (e : Event) : State := { s with agenda := s.agenda ++ [e] }

/-- The state with events at the end of the agenda (log 3). -/
def pushAll (s : State) (es : List Event) : State := { s with agenda := s.agenda ++ es }

/-- The state after a name for an operation or an activation has been taken; the name is `s.nextId`. -/
def bumpId (s : State) : State := { s with nextId := s.nextId + 1 }

/-- The next free value (log 4). -/
def freeVal (s : State) : Nat := Config.freeNat s.fresh

/-- The state after a free value has been taken (log 4). -/
def bumpFree (s : State) : State := { s with fresh := s.fresh + 1 }

/-- The identifiers of the logical cores (R22, R23). -/
def coreCount : Nat := 3072

/-- An event counter (R536). -/
def counterVal (s : State) (k : Counter) : Nat := ((s.counters.find? (fun p => p.1 == k)).map (·.2)).getD 0

/-- The state with an event counter raised; the counters are 32 bits wide and saturate (R536). -/
def count (s : State) (k : Counter) (n : Nat) : State :=
  { s with counters :=
      (k, Nat.min (counterVal s k + n) (2 ^ 32 - 1)) :: s.counters.filter (fun p => p.1 != k) }

/-! ### General registers (R153-R155) -/

/-- A general register; g0 reads zero and carries no flag (R153). -/
def getReg (x : Ctx) (r : BitVec 5) : Reg := if r = 0 then resetReg else x.regs.getD r.toNat resetReg

/-- The value of a general register. -/
def regVal (x : Ctx) (r : BitVec 5) : Word := (getReg x r).val

/-- The context with a register and its flags set; a write to g0 is discarded (R153). -/
def putReg (x : Ctx) (r : BitVec 5) (v : Reg) : Ctx :=
  if r = 0 then x else { x with regs := x.regs.setIfInBounds r.toNat v }

/-- The context with a value written to a register, which clears its poison (R155) and its mark (R157). -/
def setReg (x : Ctx) (r : BitVec 5) (v : Word) : Ctx := putReg x r { val := v, poison := none, mark := .clear }

/-- The context with a register's pending mark set (R157). -/
def markReg (x : Ctx) (r : BitVec 5) (m : Mark) : Ctx := putReg x r { getReg x r with mark := m }

/-- The context with a register poisoned (R155). -/
def poisonReg (x : Ctx) (r : BitVec 5) (p : Poison) : Ctx :=
  putReg x r { val := (getReg x r).val, poison := some p, mark := .clear }

/-- The register numbers of an aligned group (R143). -/
def groupRegs (b : BitVec 5) (n : Nat) : List (BitVec 5) := (List.range n).map (fun i => b + BitVec.ofNat 5 i)

/-- The values of an aligned group, the first register first. -/
def groupVals (x : Ctx) (b : BitVec 5) (n : Nat) : List Word := (groupRegs b n).map (regVal x)

/-- The context with the registers of a group written. -/
def setGroup (x : Ctx) (b : BitVec 5) (vs : List Word) : Ctx :=
  ((groupRegs b vs.length).zip vs).foldl (fun y p => setReg y p.1 p.2) x

/-! ### Status delivery (R157, R159, R246) -/

/-- The context with wake events latched (R246). -/
def latchEvt (x : Ctx) (bits : BitVec 4) : Ctx := { x with sys := { x.sys with evt := x.sys.evt ||| bits } }

/-- Whether a context runs the activation of a serial number. -/
def runsSerial (x : Ctx) (serial : Nat) : Bool :=
  match x.act with
  | some a => a.serial == serial
  | none => false

/-- A core with the context of an activation changed, wherever the activation stands on it: live or pre-empted. -/
def coreUpdAct (k : Core) (serial : Nat) (f : Ctx → Ctx) : Option Core :=
  if runsSerial k.ctx serial then some { k with ctx := f k.ctx }
  else
    match k.susp with
    | some x => if runsSerial x serial then some { k with susp := some (f x) } else none
    | none => none

/-- The state with the context of an activation changed: on its core, in the shadow bank, or in the image of a partition
that is switched out (R159); an activation that has ended is none of them, and nothing changes (R50). -/
def updAct (s : State) (c serial : Nat) (f : Ctx → Ctx) : State :=
  match coreUpdAct (getCore s c) serial f with
  | some k => setCore s c k
  | none =>
    { s with parts := s.parts.map (fun p => (p.1, { p.2 with saved := p.2.saved.map (fun d =>
        if d.1 = c then (d.1, (coreUpdAct d.2 serial f).getD d.2) else d) })) }

/-- A register file with a register that still has a mark settled. -/
def settleRegs (m : Mark) (r : BitVec 5) (v : Reg) (regs : Vector Reg 32) : Vector Reg 32 :=
  if (regs.getD r.toNat resetReg).mark = m then regs.setIfInBounds r.toNat v else regs

/-- The context with a register settled wherever it still has a mark: in the registers as they stand, and in those that an
unresolved branch keeps (R70, R157). -/
def settleMark (x : Ctx) (m : Mark) (r : BitVec 5) (v : Reg) : Ctx :=
  if r = 0 then x
  else
    { x with
      regs := settleRegs m r v x.regs,
      gens := x.gens.map (fun g => { g with regs := settleRegs m r v g.regs }) }

/-- The context after a status or value arrives for a register that waits for operation `op`: written, mark cleared, and
event bit 1 latched (R157, R246). A status for g0 is discarded. -/
def deliver (op : Nat) (r : BitVec 5) (v : Word) (x : Ctx) : Ctx :=
  if (getReg x r).mark = .op op then latchEvt (settleMark x (.op op) r { val := v, poison := none, mark := .clear }) 2 else x

/-- The context with a status that is known at issue: the register's mark is set and cleared by the one write, which latches event
bit 1; a status for g0 is discarded (R157, R246). -/
def setStatus (x : Ctx) (d : BitVec 5) (v : Word) : Ctx := if d = 0 then x else latchEvt (setReg x d v) 2

/-- A core with wake events latched in its activations, live and pre-empted (R246). -/
def latchCore (k : Core) (bits : BitVec 4) : Core :=
  let latch (x : Ctx) : Ctx := if x.act.isSome then latchEvt x bits else x
  { k with ctx := latch k.ctx, susp := k.susp.map latch }

/-- The operation of a name. -/
def findOp (s : State) (n : Nat) : Option Op := s.ops.find? (fun o => o.id == n)

/-- The state without an operation. -/
def dropOp (s : State) (n : Nat) : State := { s with ops := s.ops.filter (fun o => o.id != n) }

/-- The state with an operation replaced. -/
def putOp (s : State) (o : Op) : State := { s with ops := s.ops.map (fun p => if p.id = o.id then o else p) }

/-- The state after an operation's status word is delivered; the operation stays listed. -/
def giveStatus (s : State) (o : Op) (v : Word) : State := updAct s o.core o.serial (deliver o.id o.reg v)

/-- The state after an operation ends with a status word. -/
def endOp (s : State) (n : Nat) (v : Word) : State :=
  match findOp s n with
  | some o => dropOp (giveStatus s o v) n
  | none => s

/-- The serial number of the live activation, 0 for none. -/
def serialOf (x : Ctx) : Nat :=
  match x.act with
  | some a => a.serial
  | none => 0

/-- The state with a new operation in flight, named `s.nextId`, its destination marked (R157), with the leave that it holds. -/
def startHeld (s : State) (c : Nat) (r : BitVec 5) (upc : Word) (held drawn : Nat) (body : OpBody) : State :=
  let x := getCtx s c
  let o : Op := { id := s.nextId, core := c, serial := serialOf x, gen := x.sys.tid.toNat % 2 ^ 16, reg := r, upc := upc,
                  held := held, drawn := drawn, body := body }
  bumpId { setCtx s c (markReg x r (.op s.nextId)) with ops := s.ops ++ [o] }

/-- The state with a new operation in flight that holds no leave. -/
def startOp (s : State) (c : Nat) (r : BitVec 5) (upc : Word) (body : OpBody) : State := startHeld s c r upc 0 0 body

/-! ### Gangs (R74, R78) -/

/-- The members of the gang that a core leads or follows, the leader first; the core alone outside a gang. -/
def gangMembers (s : State) (c : Nat) : List Nat :=
  match (getCore s c).gang with
  | .member leader n _ _ _ _ => (List.range n).map (fun i => leader + i)
  | _ => [c]

/-- The cores that execute a tile unit of a core, by the unit's name: the members of its gang, the leader first, for a unit dispatched
since the gang formed; the core alone for every other (R63, R74). -/
def unitCores (s : State) (c id : Nat) : List Nat :=
  match (getCore s c).gang with
  | .member leader n _ _ _ since => if since ≤ id then (List.range n).map (fun i => leader + i) else [c]
  | _ => [c]

/-- Whether a tile unit of a core is its gang's. -/
def gangUnit (k : Core) (id : Nat) : Bool :=
  match k.gang with
  | .member _ _ _ _ _ since => decide (since ≤ id)
  | _ => false

/-- Whether a core follows in a gang. -/
def isFollower (k : Core) : Bool :=
  match k.gang with
  | .member _ _ i _ _ _ => i != 0
  | _ => false

/-- Whether a core is in a gang. -/
def inGang (k : Core) : Bool :=
  match k.gang with
  | .member .. => true
  | _ => false

/-- The task status word of R355 with an outcome code of R356. -/
def taskStatus (code : Nat) : Word := BitVec.ofNat 64 (code * 16 + 1)

/-- One member leaves its gang; a follower's GANG completes with the code (R78, R373). A GANG that waits is withdrawn. -/
def leaveGang (code : Nat) (s : State) (m : Nat) : State :=
  let k := getCore s m
  match k.gang with
  | .member _ _ i reg op _ =>
    let t := setCore s m { k with gang := .none }
    let t := if i = 0 then t else modCtx t m (fun x => { deliver op reg (taskStatus code) x with wait := .none })
    if k.ctx.seq.isEmpty then t else push t (.tileUnitBegin m)
  | .waiting _ _ _ => setCore s m { k with gang := .none }
  | .none => s

/-- The gang of a core disbands: every member leaves it (R78). -/
def disbandGang (s : State) (c : Nat) (code : Nat) : State := (gangMembers s c).foldl (leaveGang code) s

/-! ### Traps (R537-R541) -/

/-- The cause codes (R541). -/
def causeIllegal : Nat := 1
def causeIllegalPrefix : Nat := 2
def causePriv : Nat := 3
def causeFetchFault : Nat := 4
def causeMisalign : Nat := 5
def causePoison : Nat := 6
def causeShape : Nat := 7
def causeOverlap : Nat := 8
def causeFormat : Nat := 9
def causeOffsets : Nat := 10
def causeKtemplate : Nat := 11
def causeBLost : Nat := 12
def causeTileAccess : Nat := 13
def causeMmaMismatch : Nat := 14
def causeTrap : Nat := 15

/-- A trap: what %cause receives, and the values of %epc, %faultpc and %faultaddr (R539, R541). -/
structure TrapInfo where
  code : Nat
  param : Nat
  tile : Bool
  epc : Word
  faultpc : Word
  faultaddr : Word
  deriving DecidableEq, Repr

/-- The unit that the tile stream executes: the head of the sequencer, or a body unit while the head is a loop that repeats
(R204, R205). A repetition stands where its TLOOP stands in the order of the units. -/
def curUnit (x : Ctx) : Option TileUnit :=
  match x.seq with
  | [] => none
  | e :: _ =>
    match x.run.loopLeft with
    | some _ => (e.body[x.run.loopIdx]?).map (fun u => { u with id := e.unit.id })
    | none => some e.unit

/-- Whether a tile instruction that has begun runs to completion while a trap holds the tile stream (R208): it reads no memory and
raises no trap of its own once it has begun. TLDG, TSTG, MLOADB and the matrix instructions stop where they stand. -/
def runsOut (i : Instr) : Bool :=
  match i with
  | .tldg _ _ _ => false
  | .tstg _ _ _ => false
  | .mloadb _ _ _ _ _ _ => false
  | .mma _ _ _ _ _ => false
  | .mmag _ _ _ _ _ _ _ => false
  | .mmal _ _ _ _ _ => false
  | _ => true

/-- Whether the tile stream is inside a tile instruction that a trap's hold does not stop: not one that has stopped already (R189,
R191, R208). -/
def runningOut (x : Ctx) : Bool :=
  x.run.begun && !x.run.stopped && x.tileTrap.isNone && (match curUnit x with | some u => runsOut u.instr | none => false)

/-- The completed rows of a unit that stops for another reason than a fault of one of its rows: an MLOADB stops at the boundary of
its band, and reads the rows of the band again (R282, log 82). -/
def stopRow (u : TileUnit) (row : Nat) : Nat :=
  match u.instr with
  | .mloadb _ _ _ _ _ _ => row / 8 * 8
  | _ => row

/-- %xstep at trap entry: the completed rows of a tile instruction that the trap's hold stops inside its rows (R191). -/
def heldStep (x : Ctx) : BitVec 9 :=
  if x.run.begun && !x.run.stopped && x.tileTrap.isNone && !runningOut x then
    BitVec.ofNat 9 ((curUnit x).elim x.run.row (fun u => stopRow u x.run.row))
  else x.sys.xstep

/-- The context after trap entry (R538). The unit's prefixes are forgotten: the unit had no effect (R539). -/
def trapCtx (x : Ctx) (t : TrapInfo) : Ctx :=
  { x with
    pc := x.sys.svbase, pfx := none, tileTrap := none, heldStream := true, wait := .none,
    sys := { x.sys with
      xstep := heldStep x,
      code := BitVec.ofNat 16 t.code, param := BitVec.ofNat 12 t.param, tile := t.tile, epc := t.epc,
      faultpc := t.faultpc, faultaddr := t.faultaddr, psup := x.sys.sup, sup := true } }

/-- Taking a trap: the core enters its routine, and a gang disbands with TRAPPED (R538, R78); a trap in supervisor mode
stops the core and reports to its Foreman (R235, R538). -/
def takeTrap (s : State) (c : Nat) (t : TrapInfo) : State :=
  let u := disbandGang s c 8
  if (getCtx s c).sys.sup then
    modCore u c (fun k => { k with state := .stopped, stop := .trap, ctx := { k.ctx with pfx := none, pc := t.faultpc } })
  else modCtx u c (fun x => trapCtx x t)

/-- A precise trap at issue of the unit at `upc` (R539). -/
def issueTrap (upc : Word) (code param : Nat) (faultaddr : Word) : TrapInfo :=
  { code := code, param := param, tile := false, epc := upc, faultpc := upc, faultaddr := faultaddr }

/-- Returning from a trap: SUP takes PSUP, PSUP clears, the control stream resumes at %epc and the tile stream is released
(R245). -/
def trapReturn (x : Ctx) : Ctx :=
  { x with pc := x.sys.epc, heldStream := false, sys := { x.sys with sup := x.sys.psup, psup := false } }

/-! ### Issue (R130-R133, R155-R157, R543) -/

/-- What the checks at issue need to know of an instruction: whether it may run ahead (R68), which prefixes it accepts
(R130), whether it is privileged (R236), the registers it reads and writes, and whether poison spreads through it in
supervisor mode (R543). -/
structure IssueSpec where
  reads : List (BitVec 5)
  writes : List (BitVec 5)
  ahead : Bool
  imm : Bool
  rnd : Bool
  dup : Bool
  ord : Bool
  priv : Bool
  spread : Bool
  deriving DecidableEq, Repr

/-- An instruction that accepts no prefix, needs no privilege and waits for every branch before it. -/
def plainSpec (reads writes : List (BitVec 5)) : IssueSpec :=
  { reads := reads, writes := writes, ahead := false, imm := false, rnd := false, dup := false, ord := false, priv := false,
    spread := false }

/-- A unit at issue: its core, the address of its first word, that of its instruction word, its prefixes, and the youngest
branch generation that it runs ahead of (R173). -/
structure Issued where
  core : Nat
  upc : Word
  pc : Word
  ximm : Option (BitVec 24)
  xmod : Option Xmod
  gen : Option Nat
  deriving DecidableEq, Repr

/-- The address of the first word of the unit in progress. -/
def unitPc (x : Ctx) : Word :=
  match x.pfx with
  | some p => p.upc
  | none => x.pc

/-- The youngest unresolved generation. -/
def youngestGen (x : Ctx) : Option Nat := (x.gens.getLast?).map (·.id)

/-- Whether an instruction accepts an XMOD: it accepts some field, and every field that the word sets (R130). -/
def xmodOk (q : IssueSpec) (m : Xmod) : Bool :=
  (q.rnd || q.dup || q.ord) && (q.rnd || (m.rnd == 0 && m.sat == 0)) && (q.dup || m.dup == 0) && (q.ord || m.ord == 0)

/-- Whether the unit's prefixes are accepted (R130, R131). -/
def prefixOk (q : IssueSpec) (p : Option Pfx) : Bool :=
  match p with
  | none => true
  | some p => !p.bad && (p.ximm.isNone || q.imm) && (match p.xmod with | none => true | some m => xmodOk q m)

/-- Whether an earlier prefix word of the unit is ILLEGAL (R133). -/
def prefixIll (p : Option Pfx) : Bool :=
  match p with
  | none => false
  | some p => p.ill

/-- Whether a register waits for a status, a load or a branch (R157). -/
def isMarked (x : Ctx) (r : BitVec 5) : Bool := (getReg x r).mark != .clear

/-- The lowest-numbered poisoned register of a list (R541). -/
def lowestPoison (x : Ctx) (rs : List (BitVec 5)) : Option (BitVec 5 × Poison) :=
  rs.foldl (fun best r =>
    match (getReg x r).poison with
    | none => best
    | some p =>
      match best with
      | none => some (r, p)
      | some (b, q) => if r.toNat < b.toNat then some (r, p) else some (b, q)) none

/-- The POISON trap of a unit (R155, R541). -/
def poisonTrap (upc : Word) (r : BitVec 5) (p : Poison) : TrapInfo :=
  { code := causePoison, param := r.toNat + p.kind % 8 * 32, tile := false, epc := upc, faultpc := p.ldPc, faultaddr := p.addr }

/-- The unit in progress on a core. -/
def issuedOf (x : Ctx) (c : Nat) : Issued :=
  { core := c, upc := unitPc x, pc := x.pc, ximm := x.pfx.bind (·.ximm), xmod := x.pfx.bind (·.xmod), gen := youngestGen x }

/-- The context with the unit's words passed. -/
def passUnit (x : Ctx) : Ctx := { x with pc := x.pc + 4, pfx := none }

/-- What the checks at issue decide. -/
inductive IssueVerdict where
  | wait
  | trap (t : TrapInfo)
  | spread (p : Poison)
  | go
  deriving DecidableEq, Repr

/-- The checks of a unit at issue, in the order of R133: an instruction that R68 excludes waits for every branch before it
(R177); a trap met ahead is held (R174, R176). A poisoned source traps without a wait for the mark of a destination: R157 gives no
order between that wait and POISON (DESIGN CHOICE, log 89). -/
def issueVerdict (x : Ctx) (q : IssueSpec) : IssueVerdict :=
  let upc := unitPc x
  let held (t : TrapInfo) : IssueVerdict := if x.gens.isEmpty then .trap t else .wait
  if !q.ahead && !x.gens.isEmpty then .wait
  else if prefixIll x.pfx then held (issueTrap upc causeIllegal 0 0)
  else if !prefixOk q x.pfx then held (issueTrap upc causeIllegalPrefix 0 0)
  else if q.priv && !x.sys.sup then held (issueTrap upc causePriv 0 0)
  else if q.reads.any (isMarked x) then .wait
  else
    match lowestPoison x q.reads with
    | some (r, p) =>
      if !(x.sys.sup && q.spread) then held (poisonTrap upc r p) else if q.writes.any (isMarked x) then .wait else .spread p
    | none => if q.writes.any (isMarked x) then .wait else .go

/-- Issue of a unit: the checks, then the instruction's own effect on a state whose pc is past the unit. `none` is a wait at
issue, an instruction boundary at which nothing has happened (R158, log 8). -/
def issue (s : State) (q : IssueSpec) (body : Issued → State → Option State) : Host.Outcome State Fault Refusal :=
  let c := s.focus
  let x := getCtx s c
  match issueVerdict x q with
  | .wait => .next s
  | .trap t => .next (takeTrap s c t)
  | .spread p => .next (setCtx s c (q.writes.foldl (fun y r => poisonReg y r p) (passUnit x)))
  | .go =>
    match body (issuedOf x c) (setCtx s c (passUnit x)) with
    | some t => .next t
    | none => .next s

/-- A trap that an instruction raises by itself, from a state whose pc is past the unit. -/
def trapFrom (s : State) (i : Issued) (code param : Nat) (faultaddr : Word) : State :=
  takeTrap s i.core (issueTrap i.upc code param faultaddr)

/-! ### Launches, partitions and names (R24, R32, R40, R51) -/

/-- The partition that a number names. -/
def getPart (s : State) (p : Nat) : Partition := tabGet noPartition s.parts p

/-- The state with a partition replaced. -/
def setPart (s : State) (p : Nat) (q : Partition) : State := { s with parts := tabSet s.parts p q }

/-- Whether a partition holds the cluster of a core (R32). -/
def holdsCore (q : Partition) (c : Nat) : Bool := q.state != .absent && q.clusters.contains (c / 16)

/-- The partition of a core, if its cluster is in one (R32). -/
def partOf (s : State) (c : Nat) : Option Nat := (List.range 8).find? (fun p => holdsCore (getPart s p) c)

/-- The context identifier that a core's accesses carry (R33, R258). -/
def ctxOf (s : State) (c : Nat) : Nat :=
  match partOf s c with
  | some p => (getPart s p).ctxid
  | none => 0

/-- The matrix class of a core: 1 WIDE, 2 NARROW (R24, R237). -/
def classOf (c : Nat) : Nat := if c / 16 % 8 < 4 then 1 else 2

/-- Whether a core may run a record of a class (R52). -/
def mayRun (c cls : Nat) : Bool := cls == 0 || cls == classOf c

/-- The core-map entry of a core (R506). -/
def mapOf (s : State) (c : Nat) : MapEntry := tabGet (resetMapEntry c) s.coreMap c

/-- The entry generation that core `c`'s interface holds for a core: the one before a change that has not reached it (R508). -/
def sentEgen (s : State) (c t : Nat) : BitVec 8 :=
  match s.mapChanges.find? (fun m => m.core == t && m.waiting.contains c) with
  | some m => m.old.egen
  | none => (mapOf s t).egen

/-- What the partition of a core is doing; a core outside every partition counts as live. -/
def partState (s : State) (c : Nat) : PartState :=
  match partOf s c with
  | some p => (getPart s p).state
  | none => .live

/-- Whether a core is switched out, so that requests to it wait at their senders (R553). -/
def coreOut (s : State) (c : Nat) : Bool :=
  match partState s c with
  | .halted => true
  | .out => true
  | .gated => true
  | _ => false

/-- Whether a core has been told to stop for a switch (R553). -/
def partStops (s : State) (c : Nat) : Bool := partState s c == .switching || coreOut s c

/-- The physical die of a core. -/
def dieOf (s : State) (c : Nat) : Nat := (mapOf s c).pdie

/-- Whether a core runs nothing and stands for nothing: halted, with no launch (R32). -/
def coreHalted (k : Core) : Bool := k.state != .running && k.ctx.act.isNone && k.susp.isNone && k.launch.isNone

/-- The logical cores of a cluster. -/
def clusterCores (cl : Nat) : List Nat := (List.range 16).map (fun i => cl * 16 + i)

/-- The physical cluster that a logical cluster is bound to. -/
def physCluster (s : State) (cl : Nat) : Nat := (mapOf s (cl * 16)).pdie * 8 + cl % 8

/-- The logical cores of a partition. -/
def coresOf (q : Partition) : List Nat := (q.clusters.map clusterCores).flatten

/-- Whether a partition holds physical clusters (R553, R578). -/
def partHolds (q : Partition) : Bool :=
  match q.state with
  | .absent => false
  | .out => false
  | .gated => false
  | _ => true

/-- Whether every core of a partition is halted, or it holds none (R535). -/
def partHalted (s : State) (q : Partition) : Bool :=
  !partHolds q || q.state == .halted || (coresOf q).all (fun c => coreHalted (getCore s c))

/-- The core of a task name (R40). -/
def nameCore (n : BitVec 28) : Nat := n.toNat / 2 ^ 16

/-- The generation of a task name (R40). -/
def nameGen (n : BitVec 28) : BitVec 16 := n.setWidth 16

/-- A running launch by its tag. -/
def findLaunch (s : State) (ltag : Nat) : Option Launch := s.launches.find? (fun l => l.ltag == ltag)

/-- The outcome of every meaning that completes. -/
def done (s : State) : Host.Outcome State Fault Refusal := .next s

end Sys2Proof.Machine
end

