-- ==== Sys2Proof/Machine/Phys.lean ====
section
/-! DEFINITION. Addresses and their spaces, the module's memory as its point of coherence holds it, and the walk of the
translation tables (R251, R258-R263, R510-R514, R562). -/

namespace Sys2Proof.Machine

/-! ### Addresses (R251) -/

/-- What an address names: a local offset, a peer core's offset, a virtual address, or nothing. -/
inductive Place where
  | spad (off : Nat)
  | peer (core off : Nat)
  | virt (va : Nat)
  | none
  deriving DecidableEq, Repr

/-- The size of a scratchpad (R250). -/
def spadSize : Nat := 786432

/-- The place that an address names (R251); a peer address of the core itself is local (R255). An offset may lie at or above
0xC_0000, where accesses are refused. -/
def placeOf (c : Nat) (a : Word) : Place :=
  let n := a.toNat
  if n / 2 ^ 60 = 0 then (if n / 2 ^ 20 = 0 then .spad n else .none)
  else if n / 2 ^ 60 = 1 then
    (if n / 2 ^ 48 % 2 ^ 12 = 0 ∧ n / 2 ^ 20 % 2 ^ 16 = 0 then
      (if n / 2 ^ 36 % 2 ^ 12 = c then .spad (n % 2 ^ 20) else .peer (n / 2 ^ 36 % 2 ^ 12) (n % 2 ^ 20))
     else .none)
  else if n / 2 ^ 60 = 4 then (if n / 2 ^ 48 % 2 ^ 12 = 0 then .virt (n % 2 ^ 48) else .none)
  else .none

/-- The space of an address: 0 local, 1 peer, 4 virtual. -/
def spaceOf (a : Word) : Nat := a.toNat / 2 ^ 60

/-! ### The scratchpad -/

/-- The bytes of a core's scratchpad. -/
def spadRead (s : State) (c off n : Nat) : List Byte := memRead (getCore s c).spad off n

/-- The state with bytes of a core's scratchpad written. -/
def spadWrite (s : State) (c off : Nat) (bs : List Byte) : State :=
  modCore s c (fun k => { k with spad := memWrite k.spad off bs })

/-- The launch that a core is bound to. -/
def launchOf (s : State) (c : Nat) : Option Launch := (getCore s c).launch.bind (findLaunch s)

/-- Whether two byte ranges meet. -/
def meets (a n b m : Nat) : Bool := decide (a < b + m) && decide (b < a + n) && decide (0 < n) && decide (0 < m)

/-- Whether a range of a core's scratchpad touches a region whose reload is not complete (R61). -/
def reloading (s : State) (c off n : Nat) : Bool :=
  match launchOf s c with
  | none => false
  | some l => (getCore s c).spilling.any (fun i =>
      match l.regions[i]? with
      | some r => meets off n r.offset r.size
      | none => false)

/-! ### Module memory at its point of coherence (R259-R263) -/

/-- The bound of physical addresses (R259). -/
def physLimit : Nat := 0xC000000000

/-- The line of a physical address (R259). -/
def lineOf (pa : Nat) : Nat := pa / 256

/-- The home slice of a physical address (R259). -/
def sliceOf (pa : Nat) : Nat := pa / 256 % 192

/-- A line that its slice does not hold. -/
def noLine : Line := { filled := 0, mask := 0, data := [], invalidating := [] }

/-- The line as its home slice holds it. -/
def getLine (s : State) (l : Nat) : Line := tabGet noLine s.lines l

/-- The state with a line replaced. -/
def setLine (s : State) (l : Nat) (v : Line) : State := { s with lines := tabSet s.lines l v }

/-- Whether the slice itself supplies a byte: its sector is filled or its mask bit is set (R260). -/
def lineHas (v : Line) (pa : Nat) : Bool := v.filled.getLsbD (pa % 256 / 64) || v.mask.getLsbD (pa % 256)

/-- A byte of module memory at its point of coherence: a byte whose mask bit is set as the slice holds it, any other as HBM does, of
whose bytes a filled sector is a copy (R260). -/
def physByte (s : State) (pa : Nat) : Byte :=
  if (getLine s (lineOf pa)).mask.getLsbD (pa % 256) then memGet (getLine s (lineOf pa)).data pa else memGet s.hbm pa

/-- The bytes of module memory from an address. -/
def physRead (s : State) (pa n : Nat) : List Byte := (List.range n).map (fun i => physByte s (pa + i))

/-- The lines that a slice holds at most: 8 MiB of lines of 256 bytes (R250). -/
def sliceDepth : Nat := 32768

/-- The lines of a slice that hold data: those it is the home of, and the replicas of others (R260, R262). -/
def sliceUsed (s : State) (i : Nat) : Nat :=
  (s.lines.filter (fun p => p.1 % 192 == i)).length + (s.replicas.filter (fun r => r.helper == i)).length

/-- The state with a line evicted: its masked bytes go to HBM, and the slice no longer holds it (R260). -/
def evictLine (s : State) (l : Nat) : State :=
  let v := getLine s l
  let put (m : Memory) (i : Nat) : Memory := if v.mask.getLsbD i then memSet m (l * 256 + i) (memGet v.data (l * 256 + i)) else m
  { s with hbm := (List.range 256).foldl put s.hbm, lines := s.lines.filter (fun p => p.1 != l) }

/-- The state with room for a line in its home slice: a full slice drops a replica, or evicts a line that it chooses (log 4), as
replacement is not architectural (R260). A line whose copies are being invalidated stays. -/
def makeRoom (s : State) (l : Nat) : State :=
  if s.lines.any (fun p => p.1 == l) || decide (sliceUsed s (l % 192) < sliceDepth) then s
  else
    let may := s.lines.filter (fun p => p.1 % 192 == l % 192 && p.2.invalidating.isEmpty)
    match may[freeVal s % may.length]? with
    | some p => bumpFree (evictLine s p.1)
    | none => { s with replicas := s.replicas.filter (fun r => r.helper != l % 192) }

/-- The state with one byte written at its home slice: a write does not fill (R260). -/
def physSetByte (s : State) (pa : Nat) (b : Byte) : State :=
  let t := makeRoom s (lineOf pa)
  let v := getLine t (lineOf pa)
  setLine t (lineOf pa) { v with mask := v.mask ||| (1#256 <<< (pa % 256)), data := memSet v.data pa b }

/-- The bytes of a 64-byte sector that a write of a range writes, as a mask. -/
def sectorMask (pa n sector : Nat) : BitVec 64 :=
  (List.range 64).foldl (fun m i =>
    if pa ≤ sector * 64 + i ∧ sector * 64 + i < pa + n then m ||| (1#64 <<< i) else m) 0

/-- The poisoned sectors after a write of a range: a sector whose 64 bytes have all been written is clean (R562). -/
def cleanSectors (bad : Tab (BitVec 64)) (pa n : Nat) : Tab (BitVec 64) :=
  (bad.map (fun x => (x.1, x.2 ||| sectorMask pa n x.1))).filter (fun x => x.2 != BitVec.allOnes 64)

/-- The lines that a range meets. -/
def linesOf (pa n : Nat) : List Nat := (List.range ((pa % 256 + n + 255) / 256)).map (fun i => lineOf pa + i)

/-- The counts of a window with the lines of a range written, those not read in it yet among them (R262). -/
def markWritten (hot : List HotLine) (ls : List Nat) : List HotLine :=
  hot.map (fun h => if ls.contains h.line then { h with written := true } else h) ++
    (ls.filter (fun l => !hot.any (fun h => h.line == l))).map (fun l => { line := l, count := 0, readers := [], written := true })

/-- The state with bytes written at their home slices, a line at a time (R260, R262, R562). -/
def physWrite (s : State) (pa : Nat) (bs : List Byte) : State :=
  let t := ((List.range bs.length).zip bs).foldl (fun t p => physSetByte t (pa + p.1) p.2) s
  { t with badSectors := cleanSectors t.badSectors pa bs.length, hot := markWritten t.hot (linesOf pa bs.length) }

/-- Whether a read of a range meets a poisoned sector (R562). -/
def sectorBad (s : State) (pa n : Nat) : Bool := s.badSectors.any (fun x => meets (x.1 * 64) 64 pa n)

/-- The state with the replicas and redirects of the lines of a range gone, as a write by an engine leaves it (R263,
log 11). -/
def dropCopies (s : State) (pa n : Nat) : State :=
  { s with
    replicas := s.replicas.filter (fun r => !meets (r.line * 256) 256 pa n),
    redirects := s.redirects.filter (fun r => !meets (r.line * 256) 256 pa n) }

/-- A little-endian word of module memory. -/
def physWord (s : State) (pa n : Nat) : Nat := leNat (physRead s pa n)

/-! ### Translation (R258, R510-R514) -/

/-- What an access needs of its page (R513). -/
inductive Need where
  | read
  | write
  | both
  | fetch
  deriving DecidableEq, Repr

/-- The outcome of a walk (R513): a physical address, a remote address, a page fault, a refusal, or a wait at HOLD. -/
inductive Walk where
  | page (pa : Nat)
  | window (raddr : Nat)
  | fault
  | refused
  | hold
  deriving DecidableEq, Repr

/-- The column of the router that serves a logical core (R27). -/
def columnOf (s : State) (c : Nat) : Nat :=
  let m := mapOf s c
  2 * (m.pdie % 12) + (m.pclu * 17 + m.ppos) / 4 % 2

/-- The row of the router that serves a logical core (R27). -/
def rowOf (s : State) (c : Nat) : Nat :=
  let m := mapOf s c
  17 * (m.pdie / 12) + (m.pclu * 17 + m.ppos) / 4 / 2

/-- The number of a core's router, of the 24 columns by 34 rows of R26. -/
def routerOf (s : State) (c : Nat) : Nat := rowOf s c * 24 + columnOf s c

/-- The translation station of a virtual address for a router column (R258): three per stack. -/
def stationOf (col va : Nat) : Nat := va / 256 % 16 * 3 + col % 3

/-- A station's registers. -/
def getStation (s : State) (p : Nat) : Station := tabGet { ctxBase := 0, winBase := 0 } s.stations p

/-- Whether a leaf permits an access (R513). -/
def permits (e : Nat) (need : Need) : Bool :=
  match need with
  | .read => fld e 4 1 == 1
  | .write => fld e 5 1 == 1
  | .both => fld e 4 1 == 1 && fld e 5 1 == 1
  | .fetch => fld e 6 1 == 1

/-- The size of a leaf page of a level (R511); level 0 has none. -/
def pageSize (level : Nat) : Nat := if level = 1 then 2 ^ 30 else if level = 2 then 2 ^ 21 else 2 ^ 16

/-- The index into the table of a level, and the alignment of the next table (R511). -/
def levelIndex (level va : Nat) : Nat :=
  if level = 0 then va / 2 ^ 39 % 512 else if level = 1 then va / 2 ^ 30 % 512 else if level = 2 then va / 2 ^ 21 % 512
  else va / 2 ^ 16 % 32

/-- The remote address that a window leaf names (R514), as a key of `State.remote`: connection, RKEY and address. -/
def windowAddr (s : State) (st : Station) (e va size : Nat) : Option Nat :=
  let d := st.winBase + 16 * fld e 48 16
  if fld (physWord s (d + 14) 1) 0 1 = 1 then
    some (physWord s (d + 12) 2 * 2 ^ 96 + physWord s (d + 8) 4 * 2 ^ 64 +
      (physWord s d 8 + fld e 8 40 * size + va % size) % 2 ^ 64)
  else none

/-- The outcome at a leaf (R513, R514). -/
def leafOutcome (s : State) (st : Station) (level e va : Nat) (need : Need) (windowOk : Bool) : Walk :=
  let size := pageSize level
  if fld e 1 2 = 1 then
    let base := fld e 8 32 * 256
    if level = 0 ∨ base % size ≠ 0 ∨ physLimit ≤ base ∨ fld e 40 24 ≠ 0 ∨ fld e 7 1 ≠ 0 then .refused
    else if fld e 3 1 = 1 then .hold
    else if permits e need then .page (base + va % size) else .refused
  else
    if level = 0 ∨ fld e 6 2 ≠ 0 then .refused
    else if fld e 3 1 = 1 then .hold
    else if !permits e need || !windowOk then .refused
    else match windowAddr s st e va size with
      | some r => .window r
      | none => .refused

/-- A walk from a table of some level; `fuel` levels remain (R511-R513). -/
def walkFrom (s : State) (st : Station) (table level fuel va : Nat) (need : Need) (windowOk : Bool) : Walk :=
  match fuel with
  | 0 => .refused
  | f + 1 =>
    let e := physWord s (table + 8 * levelIndex level va) 8
    if fld e 0 1 = 0 then .fault
    else if fld e 1 2 = 3 then .refused
    else if fld e 1 2 = 0 then
      let next := fld e 8 32 * 256
      let align := if level = 2 then 256 else 4096
      if level = 3 ∨ next % align ≠ 0 ∨ physLimit ≤ next ∨ fld e 40 24 ≠ 0 ∨ fld e 7 1 ≠ 0 then .refused
      else if fld e 3 1 = 1 then .hold
      else walkFrom s st next (level + 1) f va need windowOk
    else leafOutcome s st level e va need windowOk

/-- The walk of a virtual address under a context at a station (R510-R514). -/
def walk (s : State) (port ctx va : Nat) (need : Need) (windowOk : Bool) : Walk :=
  let st := getStation s port
  let e := physWord s (st.ctxBase + 8 * ctx) 8
  if fld e 0 1 = 0 ∨ fld e 1 11 ≠ 0 ∨ fld e 40 24 ≠ 0 then .refused
  else walkFrom s st (fld e 12 28 * 4096) 0 4 va need windowOk

/-- The walk that a core's access makes. -/
def coreWalk (s : State) (c va : Nat) (need : Need) (windowOk : Bool) : Walk :=
  walk s (stationOf (columnOf s c) va) (ctxOf s c) va need windowOk

end Sys2Proof.Machine
end

