-- ==== Sys2Proof/Machine/Slices.lean ====
section
/-! DEFINITION. Cache slices as reads change them: sectors filled from HBM, reads counted, and read-only lines copied to helpers
(R30, R260-R264). -/

namespace Sys2Proof.Machine

/-- The router of a slice (R30): column and row. R30 places the slices of a cache die in rows 0 to 7 of the die's block; which of its
16 slices stands at which of the 16 routers it leaves open, and the model numbers them along each row (DESIGN CHOICE, log 40). -/
def sliceAt (i : Nat) : Nat × Nat :=
  let die := 2 * (i / 16)
  (2 * (die % 12) + i % 16 % 2, 17 * (die / 12) + i % 16 / 2)

/-- The ordinary hops between a core's router and a slice's. -/
def hopsTo (s : State) (c i : Nat) : Nat :=
  let p := sliceAt i
  let dx := if columnOf s c ≤ p.1 then p.1 - columnOf s c else columnOf s c - p.1
  let dy := if rowOf s c ≤ p.2 then p.2 - rowOf s c else rowOf s c - p.2
  dx + dy

/-- The three helpers of a home slice (R262). -/
def helpersOf (h : Nat) : List Nat := [(h + 48) % 192, (h + 96) % 192, (h + 144) % 192]

/-- The nearest of some helpers of an interface, the lower slice on a tie (R262). -/
def nearestHelper (s : State) (c : Nat) (hs : List Nat) : Option Nat :=
  hs.foldl (fun best i =>
    match best with
    | none => some i
    | some b => if hopsTo s c i < hopsTo s c b ∨ (hopsTo s c i = hopsTo s c b ∧ i < b) then some i else some b) none

/-- HOT_LINE_REPLICATE: the filled sectors of a line go to its helpers that have room, and every interface that read it gets a
redirect entry to the nearest of them (R262); an interface keeps its 32 newest (R264). -/
def replicate (s : State) (line : Nat) (readers : List (Nat × Nat × Nat)) : State :=
  let v := getLine s line
  let bytes := ((List.range 4).filter (fun i => v.filled.getLsbD i)).map (fun i => (i, physRead s (line * 256 + i * 64) 64))
  let data := bytes.foldl (fun m p => memWrite m (p.1 * 64) p.2) ([] : Memory)
  let hs := (helpersOf (line % 192)).filter (fun h => decide (sliceUsed s h < sliceDepth))
  let reps := hs.map (fun h => ({ line := line, helper := h, filled := v.filled, data := data } : Replica))
  let add (rs : List Redirect) (r : Nat × Nat × Nat) : List Redirect :=
    match nearestHelper s r.1 hs with
    | none => rs
    | some h =>
      let e : Redirect := { ni := r.1, ctx := r.2.1, vline := r.2.2, line := line, helper := h }
      let old := (rs.filter (fun q => q.ni == r.1 && !(q.ctx == e.ctx && q.vline == e.vline))).take 31
      e :: (old ++ rs.filter (fun q => q.ni != r.1))
  { s with replicas := reps ++ s.replicas.filter (fun r => r.line != line), redirects := readers.foldl add s.redirects }

/-- The state with a read of a line counted, and the line replicated at the 65th read of a read-only line in a window (R262). The
reader is the interface with the context and the virtual line that it used; a read of an engine that has no redirect entries
has none (R264). -/
def countRead (s : State) (line : Nat) (reader : Option (Nat × Nat × Nat)) : State :=
  let old := (s.hot.find? (fun h => h.line == line)).getD { line := line, count := 0, readers := [], written := false }
  let h : HotLine :=
    { old with count := old.count + 1, readers := old.readers ++ reader.toList.filter (fun r => !old.readers.contains r) }
  let t := { s with hot := h :: s.hot.filter (fun q => q.line != line) }
  let v := getLine s line
  if h.count = 65 ∧ h.written = false ∧ v.mask = 0 ∧ v.invalidating.isEmpty = true then replicate t line h.readers else t

/-- The state with a sector filled from HBM, whose bytes the slice then supplies (R260). -/
def fillSector (s : State) (line sector : Nat) : State :=
  let t := makeRoom s line
  let v := getLine t line
  if v.filled.getLsbD sector then s else setLine t line { v with filled := v.filled ||| (1#4 <<< sector) }

/-- The state with the sectors of a range of one line filled as a read needs them (R260). -/
def fillRange (s : State) (pa n : Nat) : State :=
  ((List.range 4).filter (fun i => meets (lineOf pa * 256 + 64 * i) 64 pa n)).foldl (fun t i => fillSector t (lineOf pa) i) s

/-- The state after an engine or the tile stream has read a range of one line at its home: its sectors are filled and the read is
counted; a bypassing copy allocates no line (R260-R262). -/
def touchLine (s : State) (reader : Option (Nat × Nat × Nat)) (bypass : Bool) (pa n : Nat) : State :=
  countRead (if bypass && !s.lines.any (fun p => p.1 == lineOf pa) then s else fillRange s pa n) (lineOf pa) reader

end Sys2Proof.Machine
end

