-- ==== Sys2Proof/Machine/Control.lean ====
section
/-! DEFINITION. Prefix and hint words, queue registers, branches and jumps, and the resolution of predicted branches
(R128-R132, R160, R161, R168-R179, R67-R72). -/

namespace Sys2Proof.Machine

/-! ### Prefix words (R128, R131) -/

/-- The prefixes of the unit so far, a fresh unit beginning at pc. -/
def openPfx (x : Ctx) : Pfx :=
  match x.pfx with
  | some p => p
  | none => { upc := x.pc, ximm := none, xmod := none, ill := false, bad := false }

/-- A prefix word is passed and recorded; a second of its kind makes the arrangement bad (R131, log 10). -/
def passPrefix (s : State) (f : Pfx → Pfx) : State :=
  modCtx s s.focus (fun x => { x with pc := x.pc + 4, pfx := some (f (openPfx x)) })

/-- XIMM (R128). -/
def execXimm (u : BitVec 24) (s : State) : Host.Outcome State Fault Refusal :=
  done (passPrefix s (fun p => if p.ximm.isSome then { p with bad := true } else { p with ximm := some u }))

/-- XMOD (R129). -/
def execXmod (r : BitVec 3) (sm : BitVec 2) (d : BitVec 1) (o : BitVec 2) (s : State) : Host.Outcome State Fault Refusal :=
  done (passPrefix s (fun p =>
    if p.xmod.isSome then { p with bad := true } else { p with xmod := some { rnd := r, sat := sm, dup := d, ord := o } }))

/-! ### Hints (R178, R179) -/

/-- The issue checks of a hint: no operand, no prefix, and it may run ahead (R68, R132). -/
def hintSpec : IssueSpec := { plainSpec [] [] with ahead := true }

/-- HLIKELY records the hint, which acts on the next conditional branch only (R178). -/
def execHlikely (n : BitVec 8) (taken : BitVec 1) (s : State) : Host.Outcome State Fault Refusal :=
  issue s hintSpec (fun i t => some (modCtx t i.core (fun x =>
    { x with hint := some { target := i.upc + 4 * n.setWidth 64, taken := taken == 1 } })))

/-- HPREF changes no visible state; this core brings nothing in ahead of need (R179). -/
def execHpref (_lines : BitVec 4) (_w : BitVec 20) (s : State) : Host.Outcome State Fault Refusal :=
  issue s hintSpec (fun _ t => some t)

/-! ### Queue registers (R160, R161) -/

/-- The entries of a queue register. -/
def getQueue (x : Ctx) (n : Nat) : List QEntry := x.queues.getD n []

/-- The context with a queue register replaced. -/
def setQueue (x : Ctx) (n : Nat) (es : List QEntry) : Ctx := { x with queues := x.queues.setIfInBounds n es }

/-- QPUSH: waits while the queue holds 8 entries (R161). -/
def execQpush (a : BitVec 5) (n : BitVec 2) (s : State) : Host.Outcome State Fault Refusal :=
  issue s { plainSpec [a] [] with ahead := true } (fun i t =>
    let x := getCtx t i.core
    if (getQueue x n.toNat).length < 8 then
      some (setCtx t i.core (setQueue x n.toNat (getQueue x n.toNat ++ [{ val := regVal x a, gen := i.gen }])))
    else none)

/-- QPOP: removes the head of q4-q7, waiting while the queue is empty (R161). -/
def execQpop (d : BitVec 5) (n : BitVec 2) (s : State) : Host.Outcome State Fault Refusal :=
  issue s (plainSpec [] [d]) (fun i t =>
    let x := getCtx t i.core
    match getQueue x (4 + n.toNat) with
    | [] => none
    | e :: r => some (setCtx t i.core (setReg (setQueue x (4 + n.toNat) r) d e.val)))

/-- QLEN: the length of a queue register (R161). -/
def execQlen (d : BitVec 5) (n : BitVec 3) (s : State) : Host.Outcome State Fault Refusal :=
  issue s (plainSpec [] [d]) (fun i t => some (modCtx t i.core (fun x =>
    setReg x d (BitVec.ofNat 64 (getQueue x n.toNat).length))))

/-! ### Branches (R168, R169, R172-R174) -/

/-- The operands and displacement of a conditional branch, from a register file: the registers read, the condition, and the
displacement in words (R168, R169). -/
structure BranchForm where
  reads : List (BitVec 5)
  disp : Word
  taken : (BitVec 5 → Word) → Bool
  counts : Option (BitVec 5)

/-- A compare-and-branch. -/
def cmpForm (a b : BitVec 5) (o : BitVec 16) (f : Word → Word → Bool) : BranchForm :=
  { reads := [a, b], disp := 4 * o.signExtend 64, taken := fun g => f (g a) (g b), counts := none }

/-- The conditional branches (R168, R169); LOOPNZ tests the decremented register. -/
def branchForm (i : Instr) : Option BranchForm :=
  match i with
  | .beq a b o => some (cmpForm a b o (fun x y => x == y))
  | .bne a b o => some (cmpForm a b o (fun x y => x != y))
  | .blt a b o => some (cmpForm a b o (fun x y => x.slt y))
  | .bge a b o => some (cmpForm a b o (fun x y => !x.slt y))
  | .bltu a b o => some (cmpForm a b o (fun x y => x.ult y))
  | .bgeu a b o => some (cmpForm a b o (fun x y => !x.ult y))
  | .loopnz a o =>
    some { reads := [a], disp := 4 * o.signExtend 64, taken := fun g => g a - 1 != 0, counts := some a }
  | _ => none

/-- Where a branch goes (R127). -/
def branchTarget (upc : Word) (f : BranchForm) (taken : Bool) : Word := if taken then upc + f.disp else upc + 4

/-- The context after a LOOPNZ's decrement; unchanged for the other branches. -/
def countDown (x : Ctx) (f : BranchForm) : Ctx :=
  match f.counts with
  | some a => setReg x a (regVal x a - 1)
  | none => x

/-- Whether an operand waits for a load in flight or for an unresolved decrement, so that the branch is predicted (R173). -/
def loadPending (x : Ctx) (r : BitVec 5) : Bool :=
  match (getReg x r).mark with
  | .load _ => true
  | .branch _ => true
  | _ => false

/-- Whether an operand waits for an operation's status (R157). -/
def opPending (x : Ctx) (r : BitVec 5) : Bool :=
  match (getReg x r).mark with
  | .op _ => true
  | _ => false

/-- The context after a predicted branch: a generation opens with the registers before it, and fetching goes on along the
predicted path (R67, R173). -/
def openGen (x : Ctx) (id : Nat) (i : Instr) (f : BranchForm) (taken : Bool) : Ctx :=
  let y := match f.counts with
    | some a => markReg x a (.branch id)
    | none => x
  { y with pc := branchTarget x.pc f taken, hint := none,
           gens := x.gens ++ [{ id := id, upc := x.pc, instr := i, taken := taken, regs := x.regs, recent := x.recent }] }

/-- A conditional branch: predicted with an operand outstanding, resolved at issue otherwise (R173). The prediction is the
hint's where one names the branch (R178), else a free value, since the method is not architectural (R172). -/
def execBranch (i : Instr) (f : BranchForm) (s : State) : Host.Outcome State Fault Refusal :=
  let c := s.focus
  let x := getCtx s c
  if x.pfx.isNone && f.reads.any (loadPending x) && !f.reads.any (opPending x) then
    if 4 ≤ x.gens.length then done s
    else
      let hinted := match x.hint with
        | some h => if h.target = x.pc then some h.taken else none
        | none => none
      match hinted with
      | some t => done (push (bumpId (setCtx s c (openGen x s.nextId i f t))) (.branchResolve c s.nextId))
      | none =>
        done (push (bumpFree (bumpId (setCtx s c (openGen x s.nextId i f (freeVal s % 2 == 1))))) (.branchResolve c s.nextId))
  else
    issue s { plainSpec f.reads f.counts.toList with ahead := true } (fun j t =>
      some (modCtx t j.core (fun y =>
        { countDown y f with pc := branchTarget j.upc f (f.taken (regVal y)), hint := none })))

/-- BEQ (R168). -/
def execBeq (a b : BitVec 5) (o : BitVec 16) (s : State) : Host.Outcome State Fault Refusal :=
  execBranch (.beq a b o) (cmpForm a b o (fun x y => x == y)) s

/-- BNE (R168). -/
def execBne (a b : BitVec 5) (o : BitVec 16) (s : State) : Host.Outcome State Fault Refusal :=
  execBranch (.bne a b o) (cmpForm a b o (fun x y => x != y)) s

/-- BLT (R168). -/
def execBlt (a b : BitVec 5) (o : BitVec 16) (s : State) : Host.Outcome State Fault Refusal :=
  execBranch (.blt a b o) (cmpForm a b o (fun x y => x.slt y)) s

/-- BGE (R168). -/
def execBge (a b : BitVec 5) (o : BitVec 16) (s : State) : Host.Outcome State Fault Refusal :=
  execBranch (.bge a b o) (cmpForm a b o (fun x y => !x.slt y)) s

/-- BLTU (R168). -/
def execBltu (a b : BitVec 5) (o : BitVec 16) (s : State) : Host.Outcome State Fault Refusal :=
  execBranch (.bltu a b o) (cmpForm a b o (fun x y => x.ult y)) s

/-- BGEU (R168). -/
def execBgeu (a b : BitVec 5) (o : BitVec 16) (s : State) : Host.Outcome State Fault Refusal :=
  execBranch (.bgeu a b o) (cmpForm a b o (fun x y => !x.ult y)) s

/-- LOOPNZ: decrements, and branches while the result is not 0 (R169). -/
def execLoopnz (a : BitVec 5) (o : BitVec 14) (s : State) : Host.Outcome State Fault Refusal :=
  execBranch (.loopnz a o)
    { reads := [a], disp := 4 * o.signExtend 64, taken := fun g => g a - 1 != 0, counts := some a } s

/-- JAL: the link goes to g31 (R169). -/
def execJal (o : BitVec 26) (s : State) : Host.Outcome State Fault Refusal :=
  issue s (plainSpec [] [31]) (fun i t => some (modCtx t i.core (fun x =>
    { setReg x 31 (i.upc + 4) with pc := i.upc + 4 * o.signExtend 64, hint := none })))

/-- JALR: the target uses the old base, and its two low bits are cleared (R169). -/
def execJalr (d a : BitVec 5) (o : BitVec 14) (s : State) : Host.Outcome State Fault Refusal :=
  issue s (plainSpec [a] [d]) (fun i t => some (modCtx t i.core (fun x =>
    { setReg x d (i.upc + 4) with pc := (regVal x a + 4 * o.signExtend 64) &&& ~~~3, hint := none })))

/-! ### Resolution (R70, R173, R174) -/

/-- Whether an entry's generation is flushed with generation `id` and the younger ones (R70). -/
def flushed (id : Nat) (g : Option Nat) : Bool :=
  match g with
  | some n => decide (id ≤ n)
  | none => false

/-- Whether an entry is confirmed: its generation and every older one have resolved as predicted (R160). -/
def confirmed (x : Ctx) (g : Option Nat) : Bool :=
  match g with
  | some n => x.gens.all (fun h => decide (n < h.id))
  | none => true

/-- The context with generation `g` and the younger ones undone: their registers, queue, sequencer and staging entries are
gone, the units that a TLOOP may name are those before the branch, and the control stream stands at `pc` (R70, R205). -/
def flushGen (x : Ctx) (g : Gen) (pc : Word) : Ctx :=
  { x with
    regs := g.regs, pc := pc, pfx := none, hint := none,
    queues := ((List.range 4).foldl (fun (q : Vector (List QEntry) 8) n =>
      q.setIfInBounds n ((q.getD n []).filter (fun e => !flushed g.id e.gen))) x.queues),
    seq := x.seq.filter (fun e => !flushed g.id e.unit.gen), recent := g.recent,
    gens := x.gens.filter (fun h => decide (h.id < g.id)),
    staging := x.staging.filter (fun e => decide (e.gen < g.id)) }

/-- The context with every unresolved generation undone, at the oldest unresolved branch (R72, R177). -/
def flushAhead (x : Ctx) : Ctx :=
  match x.gens with
  | [] => x
  | g :: _ => flushGen x g g.upc

/-- The context after generation `id` resolved as predicted: its entries become ordinary, and a LOOPNZ's decrement is made
where its register still waits for it. -/
def confirmGen (x : Ctx) (g : Gen) (f : BranchForm) : Ctx :=
  let old : Ctx := { x with regs := g.regs }
  let settle : Vector Reg 32 → Vector Reg 32 := match f.counts with
    | some a => settleRegs (.branch g.id) a { val := regVal old a - 1, poison := none, mark := .clear }
    | none => id
  let gens := (x.gens.filter (fun h => h.id != g.id)).map (fun h => { h with regs := settle h.regs })
  { x with
    regs := settle x.regs, gens := gens,
    staging := x.staging.filter (fun e => gens.any (fun h => decide (h.id ≤ e.gen))) }

/-- The context after generation `g` resolves: a poisoned operand takes the branch back to its issue, where POISON is
raised once every older branch has resolved (R174, R177); a wrong prediction flushes; a right one confirms (R173). -/
def resolveGen (x : Ctx) (g : Gen) (f : BranchForm) : Ctx :=
  let old : Ctx := { x with regs := g.regs }
  if f.reads.any (fun r => (getReg old r).poison.isSome) then flushGen x g g.upc
  else if f.taken (regVal old) = g.taken then confirmGen x g f
  else
    let y := flushGen x g (branchTarget g.upc f (!g.taken))
    countDown y f

/-- The commit latch of the running activation is set (R564). -/
def setCommit (x : Ctx) : Ctx := { x with act := x.act.map (fun a => { a with commit := true }) }

/-- Whether an access to an address sets the commit latch (R564). -/
def leavesCore (c : Nat) (a : Word) : Bool :=
  match placeOf c a with
  | .spad _ => false
  | _ => spaceOf a != 0

/-- The context with the commit latch set where its sequencer holds a TSTG to an address outside the core that has been issued on the
confirmed path (R70, R564). The address that a queue supplies is known when the unit begins. -/
def latchTstg (c : Nat) (x : Ctx) : Ctx :=
  let leaves (u : TileUnit) : Bool := match u.instr with
    | .tstg _ _ q => q == 0 && leavesCore c u.gval
    | _ => false
  if x.gens.isEmpty && x.seq.any (fun e => leaves e.unit) then setCommit x else x

/-- BRANCH_RESOLVE: waits for the branch's operands (R173). -/
def execBranchResolve (c gen : Nat) (s : State) : Host.Outcome State Fault Refusal :=
  let x := getCtx s c
  match x.gens.find? (fun g => g.id == gen) with
  | none => done s
  | some g =>
    match branchForm g.instr with
    | none => done s
    | some f =>
      let old : Ctx := { x with regs := g.regs }
      if f.reads.any (isMarked old) then done (push s (.branchResolve c gen)) else done (setCtx s c (latchTstg c (resolveGen x g f)))

end Sys2Proof.Machine
end

