-- ==== Sys2Proof/Machine/Operands.lean ====
section
/-! DEFINITION. Operand forms: bindings and their elements, fill, aliasing and overlap (R75, R90, R181-R186), the register and
queue operands of tile units (R64, R125, R188), and the effective addresses of LD and ST (R138). -/

namespace Sys2Proof.Machine

/-! ### Bindings (R181-R183) -/

/-- The bytes of a row (R182). -/
def rowBytes (b : Tile) : Nat := (b.cols * fmtBits b.fmt + 7) / 8

/-- Whether a binding is legal (R182). -/
def legalTile (b : Tile) : Bool :=
  decide (rowBytes b ≤ b.pitch) && decide (b.rows * b.pitch ≤ 262144) &&
    decide (b.base + (b.rows - 1) * b.pitch + rowBytes b ≤ spadSize)

/-- The binding of a tile name. -/
def getTile (x : Ctx) (t : BitVec 4) : Option Tile := x.tiles.getD t.toNat none

/-- The context with a tile name bound. -/
def putTile (x : Ctx) (t : BitVec 4) (b : Tile) : Ctx := { x with tiles := x.tiles.setIfInBounds t.toNat (some b) }

/-- The fill pattern of a binding (R97, R181). -/
def tileFill (b : Tile) : Nat := fillPattern b.fmt b.fill

/-- The portion of a ganged tile that member `i` holds: the same places, with its own valid columns (R75). -/
def memberTile (b : Tile) (i : Nat) : Tile := { b with vcols := Nat.min b.cols (b.vcols - i * b.cols) }

/-- The bits of element (i, j) as stored (R90, R183); L6 ignores its two high bits. -/
def rawElem (m : Memory) (b : Tile) (i j : Nat) : Nat :=
  let w := fmtBits b.fmt
  let row := b.base + i * b.pitch
  if w = 4 then (memGet m (row + j / 2)).toNat / 2 ^ (4 * (j % 2)) % 16
  else if b.fmt = .l6 then (memGet m (row + j)).toNat % 64
  else leNat (memRead m (row + j * (w / 8)) (w / 8))

/-- A source element: its bits inside the valid extent, the fill outside it (R184). -/
def srcElem (m : Memory) (b : Tile) (i j : Nat) : Nat :=
  if i < b.vrows ∧ j < b.vcols then rawElem m b i j else tileFill b

/-- A source element at signed indices; every place outside the extent reads as fill (R184, R199, R200). -/
def srcElemInt (m : Memory) (b : Tile) (i j : Int) : Nat :=
  if 0 ≤ i ∧ 0 ≤ j then srcElem m b i.toNat j.toNat else tileFill b

/-- The memory with an element written; the other nibble of a 4-bit byte is kept, and L6 leaves its two high bits zero (R90,
R184). -/
def putElem (m : Memory) (b : Tile) (i j v : Nat) : Memory :=
  let w := fmtBits b.fmt
  let row := b.base + i * b.pitch
  if w = 4 then
    let old := (memGet m (row + j / 2)).toNat
    let new := if j % 2 = 0 then old / 16 * 16 + v % 16 else old % 16 + v % 16 * 16
    memSet m (row + j / 2) (BitVec.ofNat 8 new)
  else if b.fmt = .l6 then memSet m (row + j) (BitVec.ofNat 8 (v % 64))
  else memWrite m (row + j * (w / 8)) (leBytes (w / 8) (v % 2 ^ w))

/-- The memory with the elements of a row from column `j` on written. -/
def putRow (m : Memory) (b : Tile) (i j : Nat) (vs : List Nat) : Memory :=
  match vs with
  | [] => m
  | v :: r => putRow (putElem m b i j v) b i (j + 1) r

/-! ### Aliasing and overlap (R182, R186) -/

/-- Whether two bindings alias exactly (R186). -/
def aliases (a b : Tile) : Bool :=
  a.base == b.base && a.pitch == b.pitch && a.rows == b.rows && a.cols == b.cols && a.fmt == b.fmt

/-- Whether a row of a binding meets a byte range. -/
def rowMeets (b : Tile) (i off n : Nat) : Bool := meets (b.base + i * b.pitch) (rowBytes b) off n

/-- Whether rows `lo` up to `hi` of a footprint meet a byte range (R182). -/
def rowsMeet (b : Tile) (lo hi off n : Nat) : Bool :=
  meets b.base (b.rows * b.pitch) off n && (List.range (hi - lo)).any (fun k => rowMeets b (lo + k) off n)

/-- Whether a footprint meets a byte range. -/
def tileMeets (b : Tile) (off n : Nat) : Bool := rowsMeet b 0 b.rows off n

/-- Whether two footprints share a byte (R186). -/
def tilesMeet (a b : Tile) : Bool :=
  meets a.base (a.rows * a.pitch) b.base (b.rows * b.pitch) &&
    (List.range b.rows).any (fun k => tileMeets a (b.base + k * b.pitch) (rowBytes b))

/-! ### Scalar operands of tile units (R64, R125, R188) -/

/-- The register field and the Q bit of a tile instruction that takes a scalar operand. -/
def scalarField (i : Instr) : Option (BitVec 5 × BitVec 1) :=
  match i with
  | .tbind _ g q _ => some (g, q)
  | .tshape _ g q => some (g, q)
  | .tvalid _ g q => some (g, q)
  | .tldg _ g q => some (g, q)
  | .tstg _ g q => some (g, q)
  | .tset _ g q _ => some (g, q)
  | .tshift _ _ g q _ => some (g, q)
  | .tscale _ _ g q => some (g, q)
  | .tloop g q _ => some (g, q)
  | .mloadb _ g q _ _ _ => some (g, q)
  | .mma _ g q _ _ => some (g, q)
  | .mmag _ _ g q _ _ _ => some (g, q)
  | .mmal _ g q _ _ => some (g, q)
  | .azero _ g q => some (g, q)
  | .ascale _ _ g q _ _ => some (g, q)
  | .adrain _ _ g q _ _ => some (g, q)
  | .amovin _ g q => some (g, q)
  | .amovout _ g q => some (g, q)
  | _ => none

/-- The general registers that a tile instruction captures at dispatch (R64). -/
def capturedRegs (i : Instr) : List (BitVec 5) :=
  match scalarField i with
  | some (g, q) => if q = 0 then [g] else []
  | none => []

/-- The queue that a tile instruction pops each time it executes (R64, R125). -/
def poppedQueue (i : Instr) : Option Nat :=
  match scalarField i with
  | some (g, q) => if q = 1 then some (g.toNat % 4) else none
  | none => none

/-! ### Effective addresses of LD and ST (R138) -/

/-- The size in bytes of an LD or ST mode (R138). -/
def modeBytes (m : BitVec 3) : Nat := 2 ^ (m.toNat / 2)

/-- Whether an LD mode sign-extends (R265). -/
def modeSigned (m : BitVec 3) : Bool := m.toNat % 2 == 0

/-- The offset: scaled without XIMM, a signed 32-bit byte value with it (R138). -/
def memOffset (u : Option (BitVec 24)) (m : BitVec 3) (o : BitVec 8) : Word :=
  match u with
  | none => BitVec.ofNat 64 (modeBytes m) * o.signExtend 64
  | some u => (u ++ o).signExtend 64

/-- A value extended to a register (R265). -/
def extendBytes (bs : List Byte) (sx : Bool) : Word :=
  let v := leNat bs
  if sx then BitVec.ofInt 64 (sextNat (8 * bs.length) v) else BitVec.ofNat 64 v

end Sys2Proof.Machine
end

