-- ==== Sys2Proof/Machine/TileUnits.lean ====
section
/-! DEFINITION. Tile-stream units: what each reads and writes in the scratchpad, the interlocks that keep both streams in
program order (R63, R202, R296), new bindings (R195), and the dispatch of a unit into the sequencer (R62, R64, R156, R188,
R204). -/

namespace Sys2Proof.Machine

/-! ### What a unit touches -/

/-- The tile names that a unit reads. -/
def unitReads (i : Instr) : List (BitVec 4) :=
  match i with
  | .tcopy _ a _ => [a]
  | .ttrans _ a => [a]
  | .tstg d _ _ => [d]
  | .tbcast _ a _ => [a]
  | .trowg _ a b => [a, b]
  | .tshift _ a _ _ _ => [a]
  | .tpack _ a b sub => if sub = 0 then [a, b] else [a]
  | .tadd _ a b _ => [a, b]
  | .tsub _ a b _ => [a, b]
  | .tmul _ a b _ => [a, b]
  | .tmin _ a b _ => [a, b]
  | .tmax _ a b _ => [a, b]
  | .tand _ a b _ => [a, b]
  | .tor _ a b _ => [a, b]
  | .txor _ a b _ => [a, b]
  | .tshl _ a b _ => [a, b]
  | .tshr _ a b _ => [a, b]
  | .tcmp _ a b _ _ => [a, b]
  | .tneg _ a => [a]
  | .tabs _ a => [a]
  | .texp2 _ a => [a]
  | .tlog2 _ a => [a]
  | .trcp _ a => [a]
  | .trsqrt _ a => [a]
  | .tsqrt _ a => [a]
  | .ttanh _ a => [a]
  | .tcvt _ a => [a]
  | .tround _ a => [a]
  | .trsum _ a => [a]
  | .tcsum _ a => [a]
  | .trmax _ a => [a]
  | .tcmax _ a => [a]
  | .tscan _ a _ => [a]
  | .ttopk _ a _ _ => [a]
  | .thist _ a => [a]
  | .targmax _ a => [a]
  | .tfma _ a b c _ => [a, b, c]
  | .tsel _ a b c _ => [a, b, c]
  | .tscale _ a _ _ => [a]
  | .mloadb a _ _ s _ _ => if s = 1 then [a] else []
  | .mma a _ _ s _ => if s = 1 then [a, a + 1] else [a]
  | .mmag d a _ _ _ s _ => if s = 1 then [d, a, a + 1] else [d, a]
  | .mmal a _ _ s _ => if s = 1 then [a, a + 1] else [a]
  | .ascale _ a _ _ c r => if c = 1 ∧ r = 1 then [a, a + 1] else [a]
  | .adrain _ a _ _ c r => if c = 1 ∧ r = 1 then [a, a + 1] else if c = 1 ∨ r = 1 then [a] else []
  | .amovin a _ _ => [a]
  | _ => []

/-- The tile names that a unit writes in the scratchpad. -/
def unitWrites (i : Instr) : List (BitVec 4) :=
  match i with
  | .tcopy d _ _ => [d]
  | .ttrans d _ => [d]
  | .tldg d _ _ => [d]
  | .tbcast d _ _ => [d]
  | .tset d _ _ _ => [d]
  | .trowg d _ _ => [d]
  | .tshift d _ _ _ _ => [d]
  | .tpack d _ _ _ => [d]
  | .tadd d _ _ _ => [d]
  | .tsub d _ _ _ => [d]
  | .tmul d _ _ _ => [d]
  | .tmin d _ _ _ => [d]
  | .tmax d _ _ _ => [d]
  | .tand d _ _ _ => [d]
  | .tor d _ _ _ => [d]
  | .txor d _ _ _ => [d]
  | .tshl d _ _ _ => [d]
  | .tshr d _ _ _ => [d]
  | .tcmp d _ _ _ _ => [d]
  | .tneg d _ => [d]
  | .tabs d _ => [d]
  | .texp2 d _ => [d]
  | .tlog2 d _ => [d]
  | .trcp d _ => [d]
  | .trsqrt d _ => [d]
  | .tsqrt d _ => [d]
  | .ttanh d _ => [d]
  | .tcvt d _ => [d]
  | .tround d _ => [d]
  | .trsum d _ => [d]
  | .tcsum d _ => [d]
  | .trmax d _ => [d]
  | .tcmax d _ => [d]
  | .tscan d _ _ => [d]
  | .ttopk d _ b _ => [d, b]
  | .thist d _ => [d]
  | .targmax d _ => [d]
  | .tfma d _ _ _ _ => [d]
  | .tsel d _ _ _ _ => [d]
  | .tscale d _ _ _ => [d]
  | .adrain d _ _ _ _ _ => [d]
  | .amovout d _ _ => [d]
  | _ => []

/-! ### New bindings (R195) -/

/-- The binding that TBIND makes of an operand, if it is legal. -/
def bindOf (v : Word) (f : BitVec 4) : Option Tile :=
  match fmtOfCode f.toNat with
  | none => none
  | some fmt =>
    let n := v.toNat
    let b : Tile :=
      { base := n % 2 ^ 20, rows := n / 2 ^ 20 % 2 ^ 8 + 1, cols := n / 2 ^ 28 % 2 ^ 10 + 1, pitch := n / 2 ^ 38 % 2 ^ 13 * 64,
        fmt := fmt, vrows := n / 2 ^ 20 % 2 ^ 8 + 1, vcols := n / 2 ^ 28 % 2 ^ 10 + 1, fill := 0 }
    if b.base % 64 = 0 ∧ b.pitch ≠ 0 ∧ legalTile b then some b else none

/-- The binding that TSHAPE makes, if it is legal. -/
def shapeOf (b : Tile) (v : Word) : Option Tile :=
  let n := v.toNat
  let c : Tile := { b with
    rows := n / 2 ^ 20 % 2 ^ 8 + 1, cols := n / 2 ^ 28 % 2 ^ 10 + 1, vrows := n / 2 ^ 20 % 2 ^ 8 + 1,
    vcols := n / 2 ^ 28 % 2 ^ 10 + 1 }
  if legalTile c then some c else none

/-- The binding that TVALID makes: requests are clamped to the shape. -/
def validOf (b : Tile) (v : Word) : Tile :=
  { b with vrows := Nat.min (v.toNat % 2 ^ 9) b.rows, vcols := Nat.min (v.toNat / 2 ^ 16 % 2 ^ 11) b.cols }

/-! ### Interlocks (R63) -/

/-- Bindings as they will stand when a unit begins: `none` where a queue value not yet pushed decides them. -/
abbrev Binds := List (Option (Option Tile))

/-- What the interlocks follow from unit to unit: the bindings, the values that q0 to q3 hold, the value that the unit in progress
has popped, and whether an earlier unit waits for a value that the control stream has not pushed. -/
structure Scan where
  binds : Binds
  queues : List (List Word)
  popped : Option Word
  stalled : Bool
  deriving DecidableEq, Repr

/-- The scalar operand of the next unit of a scan, where the control stream has pushed it (R64). -/
def Scan.operand (sc : Scan) (u : TileUnit) : Option Word :=
  match poppedQueue u.instr with
  | none => some u.gval
  | some q => sc.popped.or (sc.queues.getD q []).head?

/-- The bindings after a unit with its operand. -/
def bindsAfter (bs : Binds) (u : TileUnit) (v : Option Word) : Binds :=
  match u.instr, v with
  | .tbind d _ _ f, some w =>
    match bindOf w f with
    | some b => bs.set d.toNat (some (some b))
    | none => bs
  | .tbind d _ _ _, none => bs.set d.toNat none
  | .tshape d _ _, some w =>
    match bs.getD d.toNat none with
    | some (some b) => match shapeOf b w with
      | some c => bs.set d.toNat (some (some c))
      | none => bs
    | _ => bs
  | .tshape d _ _, none => bs.set d.toNat none
  | _, _ => bs

/-- A scan past a unit. -/
def Scan.after (sc : Scan) (u : TileUnit) : Scan :=
  let v := sc.operand u
  { binds := bindsAfter sc.binds u v,
    queues := match poppedQueue u.instr with
      | some q => if sc.popped.isNone then sc.queues.set q (sc.queues.getD q []).tail else sc.queues
      | none => sc.queues,
    popped := none, stalled := sc.stalled || v.isNone }

/-- Whether a tile name may touch a byte range. A binding that a value not yet pushed decides holds no access back: the value comes
from an instruction behind the access, which R65 lets the control stream reach and R86 promises (DEDUCED, log 87). -/
def nameMeets (bs : Binds) (off n : Nat) (t : BitVec 4) : Bool :=
  match bs.getD t.toNat none with
  | some (some b) => tileMeets b off n
  | _ => false

/-- The memory range that the portions of `n` members of TLDG or TSTG take, one after another (R203): empty where a value not yet
pushed decides it. -/
def portionMem (bs : Binds) (v : Option Word) (d : BitVec 4) (n : Nat) : Nat × Nat :=
  match v, bs.getD d.toNat none with
  | some w, some (some b) => (w.toNat, n * b.rows * b.pitch)
  | _, _ => (0, 0)

/-- The bytes that a B image takes, where its header has been read (R277). -/
def imageMem (v : Word) (img : Option Slot) : Option (Nat × Nat) :=
  match img with
  | none => none
  | some h => if v.toNat + 64 + h.k * h.pitch ≤ 2 ^ 64 then some (v.toNat, 64 + h.k * h.pitch) else none

/-- The memory range that TLDG, TSTG or MLOADB may touch on `n` members: `none` where an image's header has still to be read. `img` is
the slot of an MLOADB that has begun, which has the header's geometry. -/
def unitMem (sc : Scan) (u : TileUnit) (n : Nat) (img : Option Slot) : Option (Nat × Nat) :=
  match u.instr, sc.operand u with
  | .tldg d _ _, v => some (portionMem sc.binds v d n)
  | .tstg d _ _, v => some (portionMem sc.binds v d n)
  | .mloadb _ _ _ _ _ _, some v => imageMem v img
  | _, _ => some (0, 0)

/-- Whether the memory range of a unit may meet a byte range: one that is not known may, unless the unit waits for a value not yet
pushed (R63, R65, log 87). -/
def memNear (sc : Scan) (u : TileUnit) (n : Nat) (img : Option Slot) (a m : Nat) : Bool :=
  match unitMem sc u n img with
  | none => !sc.stalled
  | some r => meets r.1 r.2 a m

/-- Whether a unit may touch bytes of the local scratchpad that a later access names: it writes them, or it reads them and
the access writes. -/
def unitMeets (sc : Scan) (u : TileUnit) (img : Option Slot) (off n : Nat) (wr : Bool) : Bool :=
  (unitWrites u.instr).any (nameMeets sc.binds off n) || (wr && (unitReads u.instr).any (nameMeets sc.binds off n)) ||
    (match u.instr with
     | .mloadb _ _ _ _ _ _ => wr && memNear sc u 1 img off n
     | _ => false)

/-- Whether a unit may touch memory bytes that a later access names: a store of the tile stream, or a load where the access
writes (R202). -/
def unitMemMeets (sc : Scan) (u : TileUnit) (members : Nat) (img : Option Slot) (a n : Nat) (wr : Bool) : Bool :=
  match u.instr with
  | .tstg _ _ _ => memNear sc u members img a n
  | .tldg _ _ _ => wr && memNear sc u members img a n
  | .mloadb _ _ _ _ _ _ => wr && memNear sc u members img a n
  | _ => false

/-- The body of a loop as units, which stand where the TLOOP stands in the order of the units. -/
def bodyUnits (e : SeqEntry) : List TileUnit := e.body.map (fun u => { u with id := e.unit.id })

/-- The passes of a loop's body that the interlocks look at: two where no unit of it pops a queue, since a third leaves the bindings as
the second does; else as many as a queue of 8 values can serve, and one more. -/
def loopCap (e : SeqEntry) : Nat := if e.body.any (fun u => (poppedQueue u.instr).isSome) then 9 else 2

/-- The units of a number of passes of a loop's body. -/
def passUnits (e : SeqEntry) (n : Nat) : List TileUnit := (List.replicate (Nat.min (loopCap e) n) (bodyUnits e)).flatten

/-- A scan over units, and whether a condition has held of one of them. -/
def scanUnits (p : Scan → TileUnit → Bool) (r : Bool × Scan) (us : List TileUnit) : Bool × Scan :=
  us.foldl (fun r u => (r.1 || p r.2 u, r.2.after u)) r

/-- A scan over a sequencer entry: its unit, and of a TLOOP the repetitions that its count gives (R205). -/
def scanEntry (p : Scan → TileUnit → Bool) (r : Bool × Scan) (e : SeqEntry) : Bool × Scan :=
  let passes := match e.unit.instr with
    | .tloop _ _ _ => ((r.2.operand e.unit).getD 0).toNat - 1
    | _ => 0
  scanUnits p (scanUnits p r [e.unit]) (passUnits e passes)

/-- The scan at the head of the sequencer. -/
def headScan (x : Ctx) : Scan :=
  { binds := x.tiles.toList.map some, queues := (List.range 4).map (fun q => (getQueue x q).map (·.val)), popped := x.run.popped,
    stalled := false }

/-- Whether some unit that the sequencer has still to complete meets a condition. A trap's routine comes before the units that its hold
keeps back: only an instruction that runs to completion meanwhile stands before it (R63, R189, R208, log 88). -/
def anyUnit (x : Ctx) (p : Scan → TileUnit → Bool) : Bool :=
  if x.heldStream then runningOut x && ((curUnit x).toList).any (p (headScan x))
  else
    match x.run.loopLeft, x.seq with
    | some left, e :: r =>
      (r.foldl (scanEntry p) (scanUnits p (false, headScan x)
        ((bodyUnits e).drop x.run.loopIdx ++ passUnits e (left - 1)))).1
    | _, es => (es.foldl (scanEntry p) (false, headScan x)).1

/-- The units that the sequencer has still to complete, in order; of a loop in progress, what is left of its repetition and one more
where one is left. -/
def queuedUnits (x : Ctx) : List TileUnit :=
  match x.run.loopLeft, x.seq with
  | some left, e :: r =>
    (bodyUnits e).drop x.run.loopIdx ++ passUnits e (left - 1) ++ (r.map (fun e => e.unit :: bodyUnits e)).flatten
  | _, es => (es.map (fun e => e.unit :: bodyUnits e)).flatten

/-- The units that stand before an instruction which the control stream issues now: those that a trap's hold keeps back come after its
routine (R189, R208, log 88). -/
def pendingUnits (x : Ctx) : List TileUnit :=
  if x.heldStream then (if runningOut x then (curUnit x).toList else []) else queuedUnits x

/-- The slot of a pending MLOADB that has begun. -/
def imageOf (k : Core) (u : TileUnit) : Option Slot :=
  match u.instr with
  | .mloadb _ _ _ _ _ l =>
    if k.ctx.run.begun && (curUnit k.ctx).any (fun v => v.id == u.id) then k.slots[l.toNat]? else none
  | _ => none

/-- Whether an access of the control stream to the local scratchpad waits for an earlier tile unit (R63). -/
def tileBusy (k : Core) (off n : Nat) (wr : Bool) : Bool := anyUnit k.ctx (fun sc u => unitMeets sc u (imageOf k u) off n wr)

/-- Whether an access of the control stream of a core to memory waits for an earlier tile unit, on every member of its gang (R202,
R203). -/
def tileMemBusy (s : State) (c a n : Nat) (wr : Bool) : Bool :=
  let k := getCore s c
  anyUnit k.ctx (fun sc u => unitMemMeets sc u (unitCores s c u.id).length (imageOf k u) a n wr)

/-! ### Dispatch (R62, R204) -/

/-- The longest sequencer (R62). -/
def seqDepth : Nat := 16

/-- The issue checks of a tile instruction: it may run ahead (R68). -/
def tileSpec (i : Instr) : IssueSpec := { plainSpec (capturedRegs i) [] with ahead := true }

/-- The value captured at dispatch (R64). -/
def captured (x : Ctx) (i : Instr) : Word :=
  match capturedRegs i with
  | r :: _ => regVal x r
  | [] => 0

/-- The context with a unit at the end of its sequencer. -/
def enqueue (x : Ctx) (u : TileUnit) (body : List TileUnit) (recent : List TileUnit) : Ctx :=
  { x with seq := x.seq ++ [{ unit := u, body := body }], recent := recent }

/-- The last entries of a list, at most `n`. -/
def lastN {α : Type} (n : Nat) (l : List α) : List α := l.drop (l.length - n)

/-- The entries of the sequencer in use: the units that it holds, and the completed units that it keeps as the body of a loop (R204,
R205). -/
def seqUsed (es : List SeqEntry) : Nat :=
  es.length + (((es.map (·.body)).flatten).filter (fun u => !es.any (fun e => e.unit.id == u.id))).length

/-- The unit that a dispatch makes (R204). -/
def unitOf (t : State) (i : Instr) (j : Issued) : TileUnit :=
  { id := t.nextId, upc := j.upc, instr := i, xmod := j.xmod, gval := captured (getCtx t j.core) i, gen := j.gen }

/-- Whether a unit at issue has a poisoned operand while earlier tile units are still to complete, so that its POISON waits for them
(R156). A stream that a trap holds completes nothing. -/
def poisonWaits (x : Ctx) (q : IssueSpec) : Bool :=
  match issueVerdict x q with
  | .trap t => t.code == causePoison && !x.seq.isEmpty && !x.heldStream
  | _ => false

/-- The state with a unit dispatched with the entries that it keeps as its body, where the sequencer has room (R62, R204, R205). -/
def dispatchUnit (t : State) (c : Nat) (u : TileUnit) (body recent : List TileUnit) : Option State :=
  let y := enqueue (getCtx t c) u body recent
  if seqUsed y.seq ≤ seqDepth then some (push (bumpId (setCtx t c (latchTstg c y))) (.tileUnitBegin c)) else none

/-- Dispatch of a tile instruction: it waits while the sequencer is full (R62); a poisoned operand traps once every earlier
unit has completed (R156). -/
def dispatchTile (s : State) (i : Instr) (q : IssueSpec) : Host.Outcome State Fault Refusal :=
  if poisonWaits (getCtx s s.focus) q then done s
  else
    issue s q (fun j t =>
      let u := unitOf t i j
      dispatchUnit t j.core u [] (lastN 15 ((getCtx t j.core).recent ++ [u])))

/-- TLOOP at dispatch: its body is the `n` units before it since the last TLOOP or TWAIT (R205). -/
def execTloop (g : BitVec 5) (q : BitVec 1) (n : BitVec 4) (s : State) : Host.Outcome State Fault Refusal :=
  let i : Instr := .tloop g q n
  let x := getCtx s s.focus
  if x.recent.length < n.toNat then
    (if x.gens.isEmpty then done (takeTrap s s.focus (issueTrap (unitPc x) causeIllegal 0 0)) else done s)
  else if poisonWaits x (tileSpec i) then done s
  else
    issue s (tileSpec i) (fun j t =>
      dispatchUnit t j.core (unitOf t i j) (lastN n.toNat (getCtx t j.core).recent) [])

/-- TWAIT: the control stream waits for every unit before it, or for their trap (R206). -/
def execTwait (s : State) : Host.Outcome State Fault Refusal :=
  issue s (plainSpec [] []) (fun j t => some (modCtx t j.core (fun x => { x with recent := [], wait := .tileIdle 0 })))

end Sys2Proof.Machine
end

