-- ==== Sys2Proof/Machine/Rows.lean ====
section
/-! DEFINITION. The accesses of engines and of tile rows: a range of bytes read or written in one step (R190, R252, R255-R259,
R299, log 11), and the interlock of a core's own scratchpad with engine operations in flight (R296). -/

namespace Sys2Proof.Machine

/-- The outcome of a row access: the bytes, a failure with its fault kind (R541) and its first byte, or a wait. -/
inductive RowOut where
  | ok (bytes : List Byte)
  | fail (kind : Nat) (addr : Word)
  | wait
  deriving DecidableEq, Repr

/-- Why a core may not reach another, as a fault kind: an identifier that names no core, a core outside the partition, a
killed or unbound core, one whose new place the sender's interface does not know yet (R23, R25, R33, R252, R256, R508). -/
def reachKind (s : State) (c t : Nat) : Option Nat :=
  if coreCount ≤ t then some 2
  else if partOf s c ≠ partOf s t ∨ (partOf s c).isNone then some 1
  else if !(mapOf s t).bound || (getCore s t).state == .killed || sentEgen s c t != (mapOf s t).egen then some 2
  else none

/-- The pieces of a virtual range that lie in one line of 256 bytes each, so that each has one page, one translation station and
one home slice (R258, R259, R511). -/
def linePieces (fuel va n : Nat) : List (Nat × Nat) :=
  match fuel with
  | 0 => []
  | f + 1 =>
    if n = 0 then []
    else
      let len := Nat.min n (256 - va % 256)
      (va, len) :: linePieces f (va + len) (n - len)

/-- The first byte of a range that lies in a poisoned sector. -/
def firstBad (s : State) (pa n : Nat) : Nat :=
  ((List.range n).find? (fun i => sectorBad s (pa + i) 1)).getD 0

/-- Reading the pieces of a virtual range, the first failure ending it; `win` says that windows serve the access (R514). -/
def readPieces (s : State) (c : Nat) (win : Bool) (need : Need) (base : Word) (va0 : Nat) (ps : List (Nat × Nat)) : RowOut :=
  match ps with
  | [] => .ok []
  | (va, n) :: r =>
    match coreWalk s c va need win with
    | .page pa =>
      if sectorBad s pa n then .fail 2 (base + BitVec.ofNat 64 (va - va0 + firstBad s pa n))
      else
        match readPieces s c win need base va0 r with
        | .ok bs => .ok (physRead s pa n ++ bs)
        | o => o
    | .window ra =>
      match readPieces s c win need base va0 r with
      | .ok bs => .ok (memRead s.remote ra n ++ bs)
      | o => o
    | .fault => .fail 0 (base + BitVec.ofNat 64 (va - va0))
    | .refused => .fail 1 (base + BitVec.ofNat 64 (va - va0))
    | .hold => .wait

/-- Whether the pieces of a virtual range may be written. -/
def checkPieces (s : State) (c : Nat) (win : Bool) (base : Word) (va0 : Nat) (ps : List (Nat × Nat)) : RowOut :=
  match ps with
  | [] => .ok []
  | (va, _) :: r =>
    match coreWalk s c va .write win with
    | .page _ => checkPieces s c win base va0 r
    | .window _ => checkPieces s c win base va0 r
    | .fault => .fail 0 (base + BitVec.ofNat 64 (va - va0))
    | .refused => .fail 1 (base + BitVec.ofNat 64 (va - va0))
    | .hold => .wait

/-- The state with the pieces of a virtual range written. -/
def writePieces (s : State) (c : Nat) (ps : List (Nat × Nat)) (bs : List Byte) : State :=
  match ps with
  | [] => s
  | (va, n) :: r =>
    let t := match coreWalk s c va .write true with
      | .page pa => physWrite (dropCopies s pa n) pa (bs.take n)
      | .window ra => { s with remote := memWrite s.remote ra (bs.take n) }
      | _ => s
    writePieces t c r (bs.drop n)

/-- The pieces of a range of space 0x4, each in one line. -/
def virtPieces (va n : Nat) : List (Nat × Nat) := linePieces (n / 256 + 2) va n

/-- A range of a scratchpad, refused past its end (R252). -/
def spadRow (s : State) (t off n : Nat) (a : Word) : RowOut :=
  if spadSize < off + n then .fail 1 (a + BitVec.ofNat 64 (spadSize - off))
  else if coreOut s t || reloading s t off n then .wait
  else .ok (spadRead s t off n)

/-- Reading a range for core `c`. -/
def rowReadBy (win : Bool) (s : State) (c : Nat) (a : Word) (n : Nat) : RowOut :=
  match placeOf c a with
  | .spad off => spadRow s c off n a
  | .peer t off =>
    match reachKind s c t with
    | some k => .fail k a
    | none => spadRow s t off n a
  | .virt va =>
    if 2 ^ 48 < va + n then .fail 1 (a + BitVec.ofNat 64 (2 ^ 48 - va)) else readPieces s c win .read a va (virtPieces va n)
  | .none => .fail 1 a

/-- Reading a range as copies, TLDG and counter reads do: remote windows are reached (R514). -/
def rowRead (s : State) (c : Nat) (a : Word) (n : Nat) : RowOut := rowReadBy true s c a n

/-- Reading a range as the others do: an image, a descriptor or a payload in a remote window is refused (R514). -/
def homeRead (s : State) (c : Nat) (a : Word) (n : Nat) : RowOut := rowReadBy false s c a n

/-- Whether a range may be written by core `c`. -/
def rowCheckBy (win : Bool) (s : State) (c : Nat) (a : Word) (n : Nat) : RowOut :=
  match placeOf c a with
  | .spad off => spadRow s c off n a
  | .peer t off =>
    match reachKind s c t with
    | some k => .fail k a
    | none => spadRow s t off n a
  | .virt va =>
    if 2 ^ 48 < va + n then .fail 1 (a + BitVec.ofNat 64 (2 ^ 48 - va)) else checkPieces s c win a va (virtPieces va n)
  | .none => .fail 1 a

/-- Whether a range may be written as copies and TSTG write, remote windows included (R514). -/
def rowCheck (s : State) (c : Nat) (a : Word) (n : Nat) : RowOut := rowCheckBy true s c a n

/-- Whether a range may be written as a key delivery writes: no remote window (R514). -/
def homeCheck (s : State) (c : Nat) (a : Word) (n : Nat) : RowOut := rowCheckBy false s c a n

/-- The state with a range written for core `c`, where `rowCheck` answers ok. -/
def rowPut (s : State) (c : Nat) (a : Word) (bs : List Byte) : State :=
  match placeOf c a with
  | .spad off => spadWrite s c off bs
  | .peer t off => spadWrite s t off bs
  | .virt va => writePieces s c (virtPieces va bs.length) bs
  | .none => s

/-- The state after a read of a range for core `c`, where `rowRead` answers ok: the lines read have changed as reads change them
(R260-R262). -/
def rowTouch (s : State) (c : Nat) (bypass : Bool) (a : Word) (n : Nat) : State :=
  match placeOf c a with
  | .virt va =>
    (virtPieces va n).foldl (fun t p =>
      match coreWalk t c p.1 .read true with
      | .page pa => touchLine t (some (c, ctxOf t c, p.1 / 256)) bypass pa p.2
      | _ => t) s
  | _ => s

/-! ### Accesses in flight that a row follows (R202, R314, R321, R329) -/

/-- Whether an access has been performed, or is known to have failed. -/
def accSettled (a : Access) : Bool :=
  match a.stage with
  | .replied _ => true
  | .failed _ _ => true
  | _ => false

/-- Whether an access is a load. -/
def accLoad (a : Access) : Bool :=
  match a.kind with
  | .load _ _ _ => true
  | _ => false

/-- Whether an access takes a release effect of its own (R267, R325). -/
def accReleases (a : Access) : Bool :=
  match a.kind with
  | .atom _ _ _ _ _ rel _ _ => rel
  | .bara _ _ _ => true
  | _ => false

/-- The station port of an access (R258). -/
def portOf (s : State) (a : Access) : Nat := stationOf (columnOf s a.core) (a.addr.toNat % 2 ^ 48)

/-- Whether an access still stands before its translation. -/
def accUntranslated (a : Access) : Bool :=
  match a.stage with
  | .sent => spaceOf a.addr == 4
  | .held _ => true
  | _ => false

/-- A place at its point of coherence (R314): module memory 0, the scratchpad of core t 1 + t, remote windows 5000, with an address
in it. -/
abbrev CohPlace := Nat × Nat

/-- The place that an access names, once it is known. -/
def accPlace (a : Access) : Option CohPlace :=
  match placeOf a.core a.addr with
  | .peer t off => some (1 + t, off)
  | _ =>
    match a.stage with
    | .home pa => some (0, pa)
    | .helper _ pa => some (0, pa)
    | .window ra => some (5000, ra)
    | _ => none

/-- The places that a range names for core `c`, in pieces with their lengths: a piece whose page cannot be reached names none. -/
def placesOf (s : State) (c : Nat) (a : Word) (n : Nat) : List (CohPlace × Nat) :=
  match placeOf c a with
  | .spad off => [((1 + c, off), n)]
  | .peer t off => [((1 + t, off), n)]
  | .virt va =>
    (virtPieces va n).filterMap (fun p =>
      match coreWalk s c p.1 .read true, coreWalk s c p.1 .write true with
      | .page pa, _ => some ((0, pa), p.2)
      | .window ra, _ => some ((5000, ra), p.2)
      | _, .page pa => some ((0, pa), p.2)
      | _, .window ra => some ((5000, ra), p.2)
      | _, _ => none)
  | .none => []

/-- Whether two sets of places have a byte in common (R314). -/
def placesMeet (xs ys : List (CohPlace × Nat)) : Bool :=
  xs.any (fun x => ys.any (fun y => x.1.1 == y.1.1 && meets x.1.2 x.2 y.1.2 y.2))

/-- Whether an access names a byte of a range, by its address or by the place it has been translated to (R314). -/
def accInRange (s : State) (c : Nat) (r : Access) (a : Word) (n : Nat) : Bool :=
  meets r.addr.toNat r.size a.toNat n ||
    (match accPlace r with
     | some p => placesMeet [(p, r.size)] (placesOf s c a n)
     | none => false)

/-- The endpoint of a place (R321). -/
def placeEnd (p : CohPlace) : Nat × Nat :=
  if p.1 = 0 then (0, sliceOf p.2) else if p.1 = 5000 then (5000, p.2 / 2 ^ 96) else (p.1, 0)

/-- Whether an access that holds a port, or has not been translated there, stands before a row at one of the row's ports: its flow
cannot be told apart (R329, R408). Before translation this concerns writes alone. -/
def atRowPort (s : State) (m : Nat) (r : Access) (a : Word) (n : Nat) (store : Bool) : Bool :=
  let ports := (virtPieces (a.toNat % 2 ^ 48) n).map (fun p => stationOf (columnOf s m) p.1)
  spaceOf a == 4 &&
    ((match r.stage with
      | .parked p => ports.contains p
      | _ => false) ||
     (store && !accLoad r && accUntranslated r && ports.contains (portOf s r)))

/-- Whether a write of a core's flow stands before a row that stores: it goes to an endpoint of the row (R321). -/
def inRowFlow (s : State) (m : Nat) (r : Access) (a : Word) (n : Nat) : Bool :=
  match accPlace r with
  | none => false
  | some p => !accLoad r && (placesOf s m a n).any (fun q => placeEnd q.1 == placeEnd p)

/-- Whether a write of a core that stands at a station may go to a remote-window connection (R321): its page is one of the connection's, or
cannot be told while it faults or is held. -/
def mayReach (s : State) (r : Access) (conn : Nat) : Bool :=
  let atStation := accUntranslated r || (match r.stage with | .parked _ => true | _ => false)
  atStation && !accLoad r &&
    (match coreWalk s r.core (r.addr.toNat % 2 ^ 48) .write true with
     | .window ra => ra / 2 ^ 96 == conn
     | .page _ => false
     | .refused => false
     | _ => true)

/-- Whether a write stands before a row that stores to a remote-window connection, at whatever port (R321, R332). -/
def inWindowFlow (s : State) (m : Nat) (r : Access) (a : Word) (n : Nat) : Bool :=
  (placesOf s m a n).any (fun q => q.1.1 == 5000 && mayReach s r (q.1.2 / 2 ^ 96))

/-- Whether an access has been issued before a row of a tile unit of place `before` is issued: it comes earlier in program order,
or it is under way and no release holds it back for the unit's rows. -/
def accBefore (s : State) (before : Nat) (r : Access) : Bool :=
  decide (r.id < before) ||
    !s.accs.any (fun q => q.core == r.core && accReleases q && decide (before ≤ q.id) && decide (q.id ≤ r.id))

/-- Whether a row of a tile unit of core `c` waits for a scalar access in flight, where core `m` makes the row's access: for one of
the unit's own task that names a byte of it and comes earlier in program order (R202, R317); for one parked at a port of the
row; and, for a row that stores, for every write of its flow issued before it (R321, R329, R408). -/
def rowFollows (s : State) (c m : Nat) (before : Nat) (a : Word) (n : Nat) (store : Bool) : Bool :=
  s.accs.any (fun r => !accSettled r &&
    ((r.core == c && decide (r.id < before) && (store || !accLoad r) && accInRange s m r a n) ||
     (r.core == m && accBefore s before r && (atRowPort s m r a n store || (store && (inRowFlow s m r a n || inWindowFlow s m r a n))))))

/-! ### Operations in flight and the core's own scratchpad (R296) -/

/-- The local range of an address range: empty where the range is not in the core's own scratchpad. -/
def localRange (c : Nat) (a : Word) (n : Nat) : List (Nat × Nat) :=
  match placeOf c a with
  | .spad off => [(off, n)]
  | _ => []

/-- The address of a copy's row on one side (R299): the base plus the row's stride, or the indexed row. -/
def copyRowAddr (base stride : Word) (k : Int) : Word := base + BitVec.ofInt 64 (k * stride.toInt)

/-- The number of rows of a copy (R302, R303). -/
def copyRows (o : CopyOp) : Nat :=
  match o.kind with
  | .copy => o.cx.rows.toNat
  | _ => o.idx.length

/-- The row number on the source side and on the destination side of row `i` (R303). -/
def copySides (o : CopyOp) (i : Nat) : Int × Int :=
  match o.kind with
  | .copy => ((i : Int), (i : Int))
  | .gather => (o.idx.getD i (-1), (i : Int))
  | .scatter => ((i : Int), o.idx.getD i (-1))

/-- The rows of a copy that have neither been performed nor failed. -/
def copyOpen (o : CopyOp) : List Nat :=
  (List.range (copyRows o)).filter (fun i => !o.performed.contains i && !(o.failed.map (·.1)).contains i)

/-- The bytes of a row's valid columns (R307). -/
def validBytes (b : Tile) : Nat := (b.vcols * fmtBits b.fmt + 7) / 8

/-- The local bytes of the valid rows of a multicast's tile. -/
def mcastBytes (m : McastOp) : List (Nat × Nat) :=
  (List.range m.tile.vrows).map (fun i => (m.tile.base + i * m.tile.pitch, validBytes m.tile))

/-- The rows of a copy that may still be performed: none but the parked ones once it has failed or was cancelled (R299, R305). -/
def copyLeft (o : CopyOp) : List Nat :=
  if o.failed.isEmpty && !o.cancelled then copyOpen o else (copyOpen o).filter o.parked.contains

/-- The bytes of the data rows of an MS operation's command area; until the table's header has been read their number is unknown
(R341). -/
def msRows (m : MsOp) : Nat :=
  if !m.checked then spadSize
  else
    match m.kind with
    | .topk _ => 64 * m.rowsN
    | _ => m.bags.length * ((4 * m.cols + 63) / 64 * 64)

/-- The local bytes that an operation still has to read. -/
def opLocalReads (o : Op) : List (Nat × Nat) :=
  match o.body with
  | .copy p => ((copyLeft p).map (fun i =>
      localRange o.core (copyRowAddr p.cx.src p.cx.rstride (copySides p i).1) p.cx.rbytes.toNat)).flatten
  | .mcast m => if m.loaded || m.ended then [] else mcastBytes m
  | .ms m => if m.kind == .iscat then localRange o.core (m.area + 64) (msRows m) else []
  | .col p => if p.total = 0 then localRange o.core p.src p.rd else []
  | _ => []

/-- The state as an operation reads its core's scratchpad: with the bytes that have gone there since its issue (R296, R301). -/
def opView (s : State) (o : Op) : State :=
  if o.kept.isEmpty then s
  else modCore s o.core (fun k => { k with spad := o.kept.foldl (fun m p => memWrite m p.1 p.2) k.spad })

/-- The state in which the operations of a core keep what they have still to read of its scratchpad, before these bytes go (R59, R296,
R301). -/
def keepUnread (s : State) (c : Nat) : State :=
  { s with ops := s.ops.map (fun o =>
      if o.core = c then { o with kept := (opLocalReads o).map (fun r => (r.1, memRead (getCore (opView s o) c).spad r.1 r.2)) } else o) }

/-- The local bytes that an operation still has to write. -/
def opLocalWrites (o : Op) : List (Nat × Nat) :=
  match o.body with
  | .copy p => ((copyLeft p).map (fun i =>
      localRange o.core (copyRowAddr p.cx.dst p.cx.wstride (copySides p i).2) p.cx.rbytes.toNat)).flatten
  | .mcast m => if !m.ended && m.receivers.any (fun r => r.core == o.core && !r.done && r.code == 0) then mcastBytes m else []
  | .ms m => localRange o.core m.area 8 ++ (if m.kind == .iscat then [] else localRange o.core (m.area + 64) (msRows m))
  | .col p => localRange o.core p.dst p.wr
  | _ => []

/-- Whether an access to the core's own scratchpad waits for an engine operation issued before `before` (R296). -/
def engineBusy (s : State) (c off n : Nat) (wr : Bool) (before : Nat) : Bool :=
  s.ops.any (fun o => o.core == c && decide (o.id < before) &&
    ((opLocalWrites o).any (fun r => meets r.1 r.2 off n) || (wr && (opLocalReads o).any (fun r => meets r.1 r.2 off n))))

/-- Whether a footprint waits for an engine operation (R296). -/
def tileEngineBusy (s : State) (c : Nat) (b : Tile) (wr : Bool) (before : Nat) : Bool :=
  (List.range b.rows).any (fun i => engineBusy s c (b.base + i * b.pitch) (rowBytes b) wr before)

/-- Whether an access of the control stream to the core's own scratchpad waits: for an earlier tile unit (R63), an earlier
engine operation (R296), or a reload (R61). -/
def localBusy (s : State) (c off n : Nat) (wr : Bool) : Bool :=
  tileBusy (getCore s c) off n wr || engineBusy s c off n wr s.nextId || reloading s c off n

end Sys2Proof.Machine
end

