-- ==== Sys2Proof/Machine/Counts.lean ====
section
/-! DEFINITION. What scratchpads and interfaces count: barrier objects (R522-R524) and the rows of exchange rounds (R500,
R501). -/

namespace Sys2Proof.Machine

/-- A barrier object (R522). -/
structure BarObj where
  armed : Bool
  expect : Nat
  count : Nat
  deriving DecidableEq, Repr

/-- The barrier object at an offset of a core's scratchpad. -/
def readBar (s : State) (c off : Nat) : BarObj :=
  let hi := leNat (spadRead s c (off + 8) 8)
  { armed := hi / 2 ^ 63 == 1, expect := hi % 2 ^ 48, count := leNat (spadRead s c off 8) }

/-- The state with a barrier object written. -/
def writeBar (s : State) (c off : Nat) (b : BarObj) : State :=
  spadWrite s c off (leBytes 8 b.count ++ leBytes 8 (b.expect % 2 ^ 48 + b.armed.toNat * 2 ^ 63))

/-- Whether an object is reached (R524). -/
def barReached (b : BarObj) : Bool := b.armed && decide (b.expect ≤ b.count)

/-- A place on which a core has waited, with its length (R246). -/
abbrev WaitPlace := CohPlace × Nat

/-- What stands at a place: the bytes at its point of coherence (R314), or a mailbox XFREE counter of the core (R533). -/
def placeVal (s : State) (c : Nat) (p : WaitPlace) : List Byte :=
  if p.1.1 = 0 then physRead s p.1.2 p.2
  else if p.1.1 = 5000 then memRead s.remote p.1.2 p.2
  else if p.1.1 = 6000 then
    ((getCore s c).live.filter (fun g => g.gen == p.1.2)).flatMap (fun g => leBytes 4 g.xfree.toNat)
  else spadRead s (p.1.1 - 1) p.1.2 p.2

/-- The state with places noted on which a core waits (R246). -/
def noteWait (s : State) (c : Nat) (ps : List WaitPlace) : State :=
  modCore s c (fun k => { k with waited := k.waited ++ ps.filter (fun p => !k.waited.contains p) })

/-- Whether the bytes of a place stand on no core at this moment, since its partition is switched out: they are in its image (R553). -/
def placeOut (s : State) (c : Nat) (p : WaitPlace) : Bool :=
  if p.1.1 = 6000 then coreOut s c else decide (0 < p.1.1) && decide (p.1.1 ≤ coreCount) && coreOut s (p.1.1 - 1)

/-- The state after a change from `s`, with event bit 2 latched on every core that has waited on a place whose value has changed; a
restore brings what its image holds and changes nothing (R246, R554). -/
def noteChanges (s t : State) : State :=
  if t.cores.all (fun p => p.2.waited.isEmpty) then t
  else
    { t with cores := t.cores.map (fun p =>
        if p.2.waited.any (fun w => !placeOut s p.1 w && !placeOut t p.1 w && placeVal s p.1 w != placeVal t p.1 w) then (p.1, latchCore p.2 4) else p) }

/-- BARRIER_COUNT_UPDATE: bytes are counted into an object, as one step of its scratchpad (R523). -/
def barAdd (s : State) (c off n : Nat) : State :=
  let b := readBar s c off
  writeBar s c off { b with count := Nat.min (b.count + n) (2 ^ 64 - 1) }

/-- The state with a valid round entry's count raised. -/
def countEntry (off : Nat) (r : RoundEntry) : RoundEntry :=
  if r.valid ∧ r.base ≤ off ∧ off < r.limit then { r with rows := Nat.min (r.rows + 1) (2 ^ 32 - 1) } else r

/-- ROUND_ROW_COUNT: a row whose first byte is written at an offset counts in every valid entry that holds it (R501), or as a
late row where the range's entry has gone, whether or not another round has its place since (R502, R527). -/
def countRoundRow (s : State) (c off : Nat) : State :=
  let rs := (getCore s c).rounds.toList
  let hit := rs.any (fun r => r.valid && decide (r.base ≤ off) && decide (off < r.limit))
  let late := rs.any (fun r => !r.valid && decide (r.base ≤ off) && decide (off < r.limit)) ||
    (getCore s c).pastRounds.any (fun r => decide (r.1 ≤ off) && decide (off < r.2))
  let t := modCore s c (fun k => { k with rounds := k.rounds.map (countEntry off) })
  if !hit && late then count t (.lateRows c) 1 else t

end Sys2Proof.Machine
end

