-- ==== Sys2Proof/Machine/Flags.lean ====
section
/-! DEFINITION. The modifiers of a unit and the words that report outcomes. The machine has no condition flags: what other
machines hold in flags stands here in status words (R129, R101, R244, R249, R269, R297, R342, R355, R446, R493, R525). -/

namespace Sys2Proof.Machine

/-- mode_rnd(): the rounding mode that a unit's XMOD selects; the default is RNE (R129, R210). -/
def modeRnd (m : Option Xmod) : Rnd :=
  match m with
  | none => .rne
  | some x =>
    if x.rnd = 2 then .rtz else if x.rnd = 3 then .rup else if x.rnd = 4 then .rdn else if x.rnd = 5 then .stoch else .rne

/-- mode_sat(): the saturation mode that a unit's XMOD selects (R129). -/
def modeSat (m : Option Xmod) : SatMode :=
  match m with
  | none => .dflt
  | some x => if x.sat = 1 then .sat else if x.sat = 2 then .nonsat else .dflt

/-- Whether a unit runs in the duplicate mode (R129). -/
def modeDup (m : Option Xmod) : Bool :=
  match m with
  | none => false
  | some x => x.dup == 1

/-- Whether an engine operation releases at issue: always, but under NOREL (R129, R326). -/
def modeRel (m : Option Xmod) : Bool :=
  match m with
  | none => true
  | some x => x.ord != 1

/-- A word of numbered fields: each a value and the place of its low bit. -/
def packWord (fs : List (Nat × Nat)) : Word := BitVec.ofNat 64 (fs.foldl (fun n f => n + f.1 * 2 ^ f.2) 0)

/-- The status word of LEAVE (R249). -/
def leaveStatus (granted tooBig already : Bool) (held : Nat) : Word :=
  packWord [(granted.toNat, 0), (tooBig.toNat, 1), (already.toNat, 2), (held % 2 ^ 16, 16)]

/-- The status word of FENCE (R269). -/
def fenceStatus (t : Tally) : Word :=
  packWord [(1, 0), (t.lost.toNat, 1), (t.refused.toNat, 2), (Nat.min t.fails 65535, 16)]

end Sys2Proof.Machine
end

