-- ==== Sys2Proof/Machine/Leave.lean ====
section
/-! DEFINITION. Leave: the pools of the dies, their shares, draws and returns, and LEAVE (R249, R281, R534, R535). -/

namespace Sys2Proof.Machine

/-- A die's pool. -/
def getPool (s : State) (die : Nat) : Pool := tabGet resetPool s.pools die

/-- The state with a die's pool replaced. -/
def setPool (s : State) (die : Nat) (p : Pool) : State := { s with pools := tabSet s.pools die p }

/-- The clusters of a die that a partition's share of its pool counts (R535). -/
def clustersOn (s : State) (part die : Nat) : Nat := tabGet 0 (getPool s die).weights part

/-- The clusters of a die that the shares of its pool count. -/
def clustersHeld (s : State) (die : Nat) : Nat := ((List.range 8).map (fun p => clustersOn s p die)).sum

/-- The proportional part of a share, before the units left over (R535). -/
def shareBase (s : State) (part die : Nat) : Nat :=
  if clustersHeld s die = 0 then 0 else (getPool s die).cap * clustersOn s part die / clustersHeld s die

/-- The capacity of a partition's share of a die's pool (R535): the units left over go to the lowest-numbered partition. -/
def shareCap (s : State) (part die : Nat) : Nat :=
  let lowest := (List.range 8).find? (fun p => decide (0 < clustersOn s p die))
  let rest := (getPool s die).cap - ((List.range 8).map (fun p => shareBase s p die)).sum
  shareBase s part die + (if lowest = some part then rest else 0)

/-- The units of a share in use. -/
def shareUsed (s : State) (part die : Nat) : Nat := tabGet 0 (getPool s die).used part

/-- The free units of a share; none while more are in use than its capacity (R535). -/
def shareFree (s : State) (part die : Nat) : Nat := shareCap s part die - shareUsed s part die

/-- The free units of a pool, over the shares of its partitions: FREE of R521 and R535. -/
def poolFree (s : State) (die : Nat) : Nat := ((List.range 8).map (fun p => shareFree s p die)).sum

/-- Whether a share can grant a request at this moment: it has the units, or the request exceeds its capacity and all of it is
free (R535). -/
def canGrant (s : State) (part die units : Nat) : Bool :=
  decide (units ≤ shareFree s part die) || (decide (shareCap s part die < units) && shareUsed s part die == 0)

/-- The units that a grant takes (R535). -/
def grantUnits (s : State) (part die units : Nat) : Nat := Nat.min units (shareCap s part die)

/-- The state with units of a share taken. -/
def takeUnits (s : State) (part die units : Nat) : State :=
  let p := getPool s die
  setPool s die { p with used := tabSet p.used part (tabGet 0 p.used part + units) }

/-- The clusters of a die that each partition holds. -/
def heldWeights (s : State) (die : Nat) : Tab Nat :=
  (List.range 8).filterMap (fun p =>
    let q := getPart s p
    let n := if partHolds q then (q.clusters.filter (fun c => physCluster s c / 8 == die)).length else 0
    if n = 0 then none else some (p, n))

/-- The state with the shares of a die's pool as the clusters held give them, where every partition whose share changes is halted;
otherwise the Foreman leaves them as they are (R535). -/
def redivide (s : State) (die : Nat) : State :=
  let p := getPool s die
  let t := setPool s die { p with weights := heldWeights s die }
  if (List.range 8).all (fun q => shareCap t q die == shareCap s q die || partHalted s (getPart s q)) then t else s

/-- The first request that waits in a share. -/
def headWait (s : State) (part die : Nat) : Option LeaveReq := (getPool s die).waiting.find? (fun r => r.part == part)

/-- The state without a requester's waiting request. -/
def cancelWait (s : State) (die : Nat) (who : LeaveWho) : State :=
  let p := getPool s die
  setPool s die { p with waiting := p.waiting.filter (fun r => r.who != who) }

/-- The state without a requester's waiting request, given up for good: the next request of its share may then be served (R535). -/
def dropWait (s : State) (die : Nat) (who : LeaveWho) : State :=
  pushAll (cancelWait s die who) (((getPool s die).waiting.filter (fun r => r.who == who)).map (fun r => .leaveGrant die r.part))

/-- The state with a request at the end of its share's queue, unless it waits there already. -/
def joinWait (s : State) (part die units : Nat) (who : LeaveWho) : State :=
  let p := getPool s die
  if p.waiting.any (fun r => r.who == who) then s
  else setPool s die { p with waiting := p.waiting ++ [{ part := part, units := units, who := who }] }

/-- Asking for units: granted when no earlier request waits in the share and the units are there, with the units taken; else
the request waits in arrival order (R535). -/
def askLeave (s : State) (part die units : Nat) (who : LeaveWho) : Bool × Nat × State :=
  let first := match headWait s part die with
    | none => true
    | some r => r.who == who
  if first && canGrant s part die units then
    let n := grantUnits s part die units
    (true, n, takeUnits (cancelWait s die who) part die n)
  else (false, 0, joinWait s part die units who)

/-- Event bit 3 latches in every activation on a die, pre-empted ones among them (R246). -/
def wakeLeave (s : State) (die : Nat) : State :=
  { s with cores := s.cores.map (fun p => if dieOf s p.1 = die then (p.1, latchCore p.2 8) else p) }

/-- The state with units of a share returned; requests that wait may then be granted (R535). -/
def returnUnits (s : State) (part die units : Nat) : State :=
  if units = 0 then s
  else
    let p := getPool s die
    push (wakeLeave (setPool s die { p with used := tabSet p.used part (tabGet 0 p.used part - units) }) die)
      (.leaveGrant die part)

/-- The share that a core's draws are made from: its die and its partition. -/
def shareOf (s : State) (c : Nat) : Nat × Nat := ((partOf s c).getD 0, dieOf s c)

/-- The part of a core's reservation that its operations in flight hold (R249). -/
def heldInUse (s : State) (c : Nat) : Nat :=
  (getCtx s c).run.fromHeld +
    ((s.ops.filter (fun o => o.core == c && o.serial == serialOf (getCtx s c))).map (·.held)).sum

/-- A draw of a heavy operation for a core's task: from HELD first, and from the share for the remainder (R249). -/
def drawLeave (s : State) (c units : Nat) (who : LeaveWho) : Bool × Nat × Nat × State :=
  let spare := (getCtx s c).sys.held.toNat - heldInUse s c
  let fromHeld := Nat.min spare units
  if units - fromHeld = 0 then (true, fromHeld, 0, s)
  else
    let sh := shareOf s c
    match askLeave s sh.1 sh.2 (units - fromHeld) who with
    | (ok, n, t) => (ok, if ok then fromHeld else 0, n, t)

/-- The state with the leave of an operation returned. -/
def returnOpLeave (s : State) (o : Op) : State :=
  let sh := shareOf s o.core
  returnUnits s sh.1 sh.2 o.drawn

/-- LEAVE (R249): a return, a refusal, or a reservation granted now or later by LEAVE_GRANT. -/
def execLeave (d a : BitVec 5) (s : State) : Host.Outcome State Fault Refusal :=
  issue s (plainSpec [a] [d]) (fun i t =>
    let c := i.core
    let x := getCtx t c
    let n := (regVal x a).toNat
    let held := x.sys.held.toNat
    let sh := shareOf t c
    let setHeld (u : State) (h : Nat) := modSys u c (fun y => { y with held := BitVec.ofNat 16 h })
    let write (u : State) (v : Word) := modCtx u c (fun y => setStatus y d v)
    if n = 0 then some (write (setHeld (returnUnits t sh.1 sh.2 held) 0) (leaveStatus true false false 0))
    else if held ≠ 0 then some (write t (leaveStatus false false true held))
    else if shareCap t sh.1 sh.2 < n ∨ 65535 < n then some (write t (leaveStatus false true false 0))
    else
      let id := t.nextId
      let u := startOp t c d i.upc (.leave n)
      let p := getPool u sh.2
      some (push (setPool u sh.2 { p with waiting := p.waiting ++ [{ part := sh.1, units := n, who := .op id }] })
        (.leaveGrant sh.2 sh.1)))

/-- The state with the reservations of a restored core's tasks granted again: the live task's first, and what is left to the
pre-empted one's; the core goes on (R551, R554). -/
def grantRestored (s : State) (c n : Nat) : State :=
  modCore s c (fun k =>
    let live := Nat.min n k.ctx.sys.held.toNat
    { k with
      state := .running, stop := .none, ctx := { k.ctx with sys := { k.ctx.sys with held := BitVec.ofNat 16 live } },
      susp := k.susp.map (fun x =>
        { x with sys := { x.sys with held := BitVec.ofNat 16 (Nat.min (n - live) x.sys.held.toNat) } }) })

/-- The units that the activation of an operation holds by a LEAVE. -/
def heldOf (s : State) (o : Op) : Nat :=
  let k := getCore s o.core
  if runsSerial k.ctx o.serial then k.ctx.sys.held.toNat
  else match k.susp with
    | some x => if runsSerial x o.serial then x.sys.held.toNat else 0
    | none => 0

/-- LEAVE_GRANT: the first request that waits in a share is served if its units are there (R249, R535). A LEAVE completes, with
HELD_ALREADY where an earlier LEAVE of its activation was granted meanwhile; a restored task's reservation is granted again; an operation that waits at its begin, its issue or its start draws for itself
at its next try, as the first of the share. -/
def execLeaveGrant (die part : Nat) (s : State) : Host.Outcome State Fault Refusal :=
  match headWait s part die with
  | none => done s
  | some r =>
    if !canGrant s part die r.units then done s
    else
      match r.who with
      | .op id =>
        match findOp s id with
        | none => done (push (cancelWait s die r.who) (.leaveGrant die part))
        | some o =>
          let held := heldOf s o
          let t := cancelWait s die r.who
          if held ≠ 0 then done (push (endOp t id (leaveStatus false false true held)) (.leaveGrant die part))
          else
            let n := grantUnits s part die r.units
            let u := updAct (takeUnits t part die n) o.core o.serial (fun x =>
              { x with sys := { x.sys with held := BitVec.ofNat 16 n } })
            done (push (endOp u id (leaveStatus true false false n)) (.leaveGrant die part))
      | .restore c =>
        let t := takeUnits (cancelWait s die r.who) part die (grantUnits s part die r.units)
        done (pushAll (grantRestored t c (grantUnits s part die r.units)) [.leaveGrant die part, .tileUnitBegin c, .urgentPreempt c])
      | .tile c => done (push s (.tileUnitBegin c))
      | .issue _ => done s
      | .chunk m => done (push s (.chunkStart die m))

end Sys2Proof.Machine
end

