-- ==== Sys2Proof/Machine/TileArith.lean ====
section
/-! DEFINITION. The elements that tile movement and tile arithmetic compute (R184-R187, R197-R201, R207-R234): from the
scratchpads of a gang's members to the bits of one destination element. -/

namespace Sys2Proof.Machine

/-! ### Writing values (R187, R210) -/

/-- The integer value of an element of an integer format. -/
def intElem (f : Fmt) (v : Nat) : Int := sextNat (fmtBits f) v

/-- The integer that an integral value stands for; 0 for the special markers. -/
def valInt (x : Val) : Int :=
  match x with
  | .fin n m e => floorDyadic (sigOf n m) e
  | _ => 0

/-- An exact value written to a destination (R210); `ints` says that every source is integer. -/
def writeVal (f : Fmt) (mode : Rnd) (sm : SatMode) (v : Nat) (ints : Bool) (x : Val) : Nat :=
  if fmtIsInt f && ints then (if sm = .sat then satInt (fmtBits f) (valInt x) else wrapInt (fmtBits f) (valInt x))
  else rnd f mode sm v x

/-- A source element converted to a destination's format: equal formats copy the bits (R187). -/
def convert (fa fd : Fmt) (mode : Rnd) (sm : SatMode) (v pat : Nat) : Nat := if fa = fd then pat else rnd fd mode sm v (dec fa pat)

/-! ### What a member sees -/

/-- A member's view of a unit (R75, R76, R215): its scratchpad, that of its neighbours on either side with their indices, its
own index, and the accumulator store. -/
structure View where
  mem : Memory
  plus : Option Memory
  minus : Option Memory
  idx : Nat
  deriving DecidableEq, Repr

/-- The source element of an operand with a neighbour field: 1 is :+1, 2 is :-1 (R76). -/
def nbElem (w : View) (b : Tile) (nb : BitVec 2) (i j : Nat) : Nat :=
  if nb = 1 then
    match w.plus with
    | some m => srcElem m (memberTile b (w.idx + 1)) i j
    | none => tileFill b
  else if nb = 2 then
    match w.minus with
    | some m => srcElem m (memberTile b (w.idx - 1)) i j
    | none => tileFill b
  else srcElem w.mem (memberTile b w.idx) i j

/-- A source element of the member's own portion. -/
def ownElem (w : View) (b : Tile) (i j : Nat) : Nat := srcElem w.mem (memberTile b w.idx) i j

/-- A source element through a broadcast form (R185). -/
def bcElem (w : View) (b : Tile) (i j : Nat) : Nat :=
  ownElem w b (if b.rows = 1 then 0 else i) (if b.cols = 1 then 0 else j)

/-! ### Element operations -/

/-- A two-operand arithmetic element (R217). -/
def arith2 (fd fa fb : Fmt) (mode : Rnd) (sm : SatMode) (v : Nat) (f : Val → Val → Val) (a b : Nat) : Nat :=
  writeVal fd mode sm v (fmtIsInt fa && fmtIsInt fb) (f (dec fa a) (dec fb b))

/-- A minimum or maximum: bits are copied where the three formats are one floating format (R217). -/
def extreme2 (fd fa fb : Fmt) (mode : Rnd) (sm : SatMode) (v : Nat) (f : Val → Val → Val) (a b : Nat) : Nat :=
  let x := f (dec fa a) (dec fb b)
  if fa = fb ∧ fa = fd ∧ fmtIsFloat fd ∧ !valIsNan x then (if x = dec fa a then a else b)
  else writeVal fd mode sm v (fmtIsInt fa && fmtIsInt fb) x

/-- A comparison (R220): cc is the sub code. -/
def compareVals (cc : BitVec 3) (a b : Val) : Bool :=
  let un := valIsNan a || valIsNan b
  match cc.toNat with
  | 0 => eqVal a b
  | 1 => un || !eqVal a b
  | 2 => ltVal a b
  | 3 => ltVal a b || eqVal a b
  | 4 => ltVal b a
  | 5 => ltVal b a || eqVal a b
  | _ => un

/-- TROUND's integral value (R223). -/
def integralOf (mode : Rnd) (v : Nat) (a : Val) : Val :=
  match a with
  | .fin neg m e => if 0 ≤ e then a else .fin neg (roundInt mode v neg m e).natAbs 0
  | x => x

/-- TROUND's element (R223). An infinity that stays in its floating format is written exactly, as the rule's last sentence says, where
rnd would saturate it (E5M2, or SAT; DEDUCED, log 45). -/
def roundElem (fd fa : Fmt) (mode : Rnd) (sm : SatMode) (v pat : Nat) : Nat :=
  let y := integralOf mode v (dec fa pat)
  if fd = fa ∧ fmtIsFloat fd ∧ fd ≠ .l6 ∧ (y = .inf true ∨ y = .inf false) then pat else rnd fd .rne sm 0 y

/-- The operand of a special function: an integer is first rounded by f32 (R222). -/
def specialArg (f : Fmt) (a : Nat) : Val := if fmtIsInt f then f32v (dec f a) else dec f a

/-- The values of a list of elements. -/
def decAll (f : Fmt) (l : List Nat) : List Val := l.map (dec f)

/-- A sum of elements: with a floating source each step is rounded by f32, with an integer source it is exact (R225). -/
def sumElems (fd fa : Fmt) (mode : Rnd) (sm : SatMode) (v : Nat) (l : List Nat) : Nat :=
  if fmtIsInt fa then writeVal fd mode sm v true (valOfInt (l.foldl (fun t x => t + intElem fa x) 0))
  else writeVal fd mode sm v false (sumAsc (decAll fa l))

/-- The maximum of elements (R225): NaN if any is NaN; bits are copied between equal formats. -/
def maxElems (fd fa : Fmt) (mode : Rnd) (sm : SatMode) (v : Nat) (l : List Nat) : Nat :=
  if (decAll fa l).any valIsNan then rnd fd mode sm v .nan
  else
    match l with
    | [] => 0
    | x :: r => convert fa fd mode sm v (r.foldl (fun best y => if ltZero (dec fa best) (dec fa y) then y else best) x)

/-- Insertion of a candidate in rank order (R110, R228). -/
def rankInsert (f : Fmt) (c : Nat × Nat) (l : List (Nat × Nat)) : List (Nat × Nat) :=
  match l with
  | [] => [c]
  | d :: r => if rankGt (dec f c.2) c.1 (dec f d.2) d.1 then c :: d :: r else d :: rankInsert f c r

/-- The candidates of a row of a member's portion in rank order: local column and bits (R228). -/
def rankedRow (w : View) (b : Tile) (i : Nat) : List (Nat × Nat) :=
  let m := memberTile b w.idx
  if i < m.vrows then
    ((List.range m.vcols).map (fun j => (j, rawElem w.mem m i j))).foldl (fun l c => rankInsert b.fmt c l) []
  else []

/-- How many of a row's valid elements equal a value (R230). -/
def countRow (w : View) (b : Tile) (i v : Nat) : Nat :=
  let m := memberTile b w.idx
  if i < m.vrows then
    ((List.range m.vcols).filter (fun j => intElem b.fmt (rawElem w.mem m i j) == (v : Int))).length
  else 0

/-- The bindings that an instruction names, as its checks found them. -/
structure Ops4 where
  d : Tile
  a : Tile
  b : Tile
  c : Tile
  deriving DecidableEq, Repr

/-- Bits of an Option-free choice of unary function (R222). -/
def unaryElem (fd fa : Fmt) (mode : Rnd) (sm : SatMode) (v : Nat) (f : Val → Val) (a : Nat) : Nat :=
  writeVal fd mode sm v (fmtIsInt fa) (f (dec fa a))

/-- The bits that an instruction writes to element (i, j) of its destination, for `val` the scalar operand and `v` the value
of a stochastic step. For TTOPK this is td; `topkValue` gives tb. -/
def elemValue (ins : Instr) (mode : Rnd) (sm : SatMode) (val : Word) (t : Ops4) (w : View) (i j v : Nat) : Nat :=
  let rdn := mode == .rdn
  let cv (f : Fmt) (x : Nat) := convert f t.d.fmt mode sm v x
  let pb := bcElem w t.b i j
  let pc := bcElem w t.c i j
  let pa := ownElem w t.a i j
  let fd := t.d.fmt
  let fa := t.a.fmt
  let fb := t.b.fmt
  let special (f : Val → Val) := rnd fd mode sm v (f (specialArg fa pa))
  match ins with
  | .tcopy _ _ n => cv fa (nbElem w t.a n i j)
  | .ttrans _ _ => ownElem w t.a j i
  | .tbcast _ _ s => if s = 0 then cv fa (ownElem w t.a 0 j) else if s = 1 then cv fa (ownElem w t.a i 0) else cv fa (ownElem w t.a 0 0)
  | .tset _ _ _ f => if f = 0 then val.toNat % 2 ^ fmtBits fd else rnd fd mode sm v (dec .fp32 (val.toNat % 2 ^ 32))
  | .trowg _ _ _ => cv fa (srcElemInt w.mem (memberTile t.a w.idx) (sextNat 32 (ownElem w t.b i 0)) j)
  | .tshift _ _ _ _ c =>
    if c = 0 then srcElemInt w.mem (memberTile t.a w.idx) ((i : Int) - val.toInt) j
    else srcElemInt w.mem (memberTile t.a w.idx) i ((j : Int) - val.toInt)
  | .tpack _ _ _ s =>
    if s = 0 then (if j < t.a.cols then cv fa pa else cv fb (ownElem w t.b i (j - t.a.cols)))
    else if s = 1 then cv fa pa
    else cv fa (ownElem w t.a i (t.a.cols - t.d.cols + j))
  | .tadd _ _ _ n => arith2 fd fa fb mode sm v (addVal rdn) (nbElem w t.a n i j) pb
  | .tsub _ _ _ n => arith2 fd fa fb mode sm v (fun x y => addVal rdn x (negVal y)) (nbElem w t.a n i j) pb
  | .tmul _ _ _ n => arith2 fd fa fb mode sm v mulVal (nbElem w t.a n i j) pb
  | .tmin _ _ _ n => extreme2 fd fa fb mode sm v fminn (nbElem w t.a n i j) pb
  | .tmax _ _ _ n => extreme2 fd fa fb mode sm v fmaxn (nbElem w t.a n i j) pb
  | .tand _ _ _ n => Nat.land (nbElem w t.a n i j) pb
  | .tor _ _ _ n => Nat.lor (nbElem w t.a n i j) pb
  | .txor _ _ _ n => Nat.xor (nbElem w t.a n i j) pb
  | .tshl _ _ _ n =>
    let sh := (intElem fb pb % fmtBits fd).toNat
    writeVal fd mode sm v true (valOfInt (intElem fa (nbElem w t.a n i j) * 2 ^ sh))
  | .tshr _ _ _ n =>
    let sh := (intElem fb pb % fmtBits fd).toNat
    writeVal fd mode sm v true (valOfInt (intElem fa (nbElem w t.a n i j) / 2 ^ sh))
  | .tcmp _ _ _ n cc => if compareVals cc (dec fa (nbElem w t.a n i j)) (dec fb pb) then 2 ^ fmtBits fd - 1 else 0
  | .tneg _ _ => unaryElem fd fa mode sm v negVal pa
  | .tabs _ _ => unaryElem fd fa mode sm v absVal pa
  | .texp2 _ _ => special fnExp2
  | .tlog2 _ _ => special fnLog2
  | .trcp _ _ => special fnRcp
  | .trsqrt _ _ => special fnRsqrt
  | .tsqrt _ _ => special fnSqrt
  | .ttanh _ _ => special fnTanh
  | .tcvt _ _ => cv fa pa
  | .tround _ _ => roundElem fd fa mode sm v pa
  | .trsum _ _ => sumElems fd fa mode sm v ((List.range t.a.cols).map (fun k => ownElem w t.a i k))
  | .tcsum _ _ => sumElems fd fa mode sm v ((List.range t.a.rows).map (fun k => ownElem w t.a k j))
  | .trmax _ _ => maxElems fd fa mode sm v ((List.range t.a.cols).map (fun k => ownElem w t.a i k))
  | .tcmax _ _ => maxElems fd fa mode sm v ((List.range t.a.rows).map (fun k => ownElem w t.a k j))
  | .tscan _ _ s =>
    if s = 0 then sumElems fd fa mode sm v ((List.range (j + 1)).map (fun k => ownElem w t.a i k))
    else sumElems fd fa mode sm v ((List.range (i + 1)).map (fun k => ownElem w t.a k j))
  | .ttopk _ _ _ _ =>
    match (rankedRow w t.a i)[j]? with
    | some c => wrapInt 32 ((w.idx * t.a.cols + c.1 : Nat) : Int)
    | none => wrapInt 32 (-1)
  | .thist _ _ =>
    if t.d.rows = 1 then wrapInt 32 (((List.range t.a.rows).foldl (fun n r => n + countRow w t.a r j) 0 : Nat) : Int)
    else wrapInt 32 ((countRow w t.a i j : Nat) : Int)
  | .targmax _ _ =>
    match rankedRow w t.a i with
    | c :: _ => wrapInt 32 ((w.idx * t.a.cols + c.1 : Nat) : Int)
    | [] => wrapInt 32 (-1)
  | .tfma _ _ _ _ n =>
    writeVal fd mode sm v (fmtIsInt fa && fmtIsInt fb && fmtIsInt t.c.fmt)
      (addVal rdn (mulVal (dec fa (nbElem w t.a n i j)) (dec fb pb)) (dec t.c.fmt pc))
  | .tsel _ _ _ _ n => if intElem fa (nbElem w t.a n i j) ≠ 0 then cv fb pb else cv t.c.fmt pc
  | .tscale _ _ _ _ => writeVal fd mode sm v false (mulVal (dec fa pa) (dec .fp32 (val.toNat % 2 ^ 32)))
  | _ => 0

/-- TTOPK's element of tb (R228). -/
def topkValue (mode : Rnd) (sm : SatMode) (t : Ops4) (w : View) (i m v : Nat) : Nat :=
  match (rankedRow w t.a i)[m]? with
  | some c => convert t.a.fmt t.b.fmt mode sm v c.2
  | none => tileFill t.b

/-! ### Rows and stochastic steps (R107, R184, R190) -/

/-- The elements of a row from column `j` on, `n` of them, with the generator after them: one step for each element where
`draws` (R107). -/
def rowElems (f : Nat → Nat → Nat) (draws : Bool) (seed : BitVec 32) (j n : Nat) : List Nat × BitVec 32 :=
  match n with
  | 0 => ([], seed)
  | k + 1 =>
    let next := if draws then stochStep seed else seed
    let r := rowElems f draws next (j + 1) k
    (f j (stochValue next) :: r.1, r.2)

/-- A row of a destination written within its valid extent (R184). -/
def writeRow (m : Memory) (b : Tile) (f : Nat → Nat → Nat) (draws : Bool) (seed : BitVec 32) (i : Nat) : Memory × BitVec 32 :=
  if i < b.vrows then
    let r := rowElems f draws seed 0 b.vcols
    (putRow m b i 0 r.1, r.2)
  else (m, seed)

/-- The generator after the steps of a row whose values are discarded (R193). -/
def skipRow (b : Tile) (seed : BitVec 32) (i : Nat) : BitVec 32 :=
  if i < b.vrows then (List.range b.vcols).foldl (fun x _ => stochStep x) seed else seed

/-- One row of an element-writing instruction on one member: its scratchpad and generator afterwards. -/
def execRow (ins : Instr) (mode : Rnd) (sm : SatMode) (val : Word) (t : Ops4) (w : View) (seed : BitVec 32) (i : Nat) :
    Memory × BitVec 32 :=
  let draws := mode == .stoch
  let td := memberTile t.d w.idx
  match ins with
  | .ttopk _ _ _ _ =>
    let r := writeRow w.mem td (fun j v => elemValue ins mode sm val t w i j v) false seed i
    writeRow r.1 (memberTile t.b w.idx) (fun j v => topkValue mode sm t w i j v) draws r.2 i
  | _ => writeRow w.mem td (fun j v => elemValue ins mode sm val t w i j v) draws seed i

/-- Consecutive rows from `i` on. The sources are read as they stood before the rows: a source that shares a byte with the
destination aliases it exactly, so each element is read before it is written (R186). -/
def execRows (ins : Instr) (mode : Rnd) (sm : SatMode) (val : Word) (t : Ops4) (w : View) (m : Memory) (seed : BitVec 32)
    (i n : Nat) : Memory × BitVec 32 :=
  match n with
  | 0 => (m, seed)
  | k + 1 =>
    let r := execRow ins mode sm val t { w with mem := m } seed i
    execRows ins mode sm val t w r.1 r.2 (i + 1) k

end Sys2Proof.Machine
end

