-- ==== Sys2Proof/Machine/TileChecks.lean ====
section
/-! DEFINITION. The checks of tile movement and tile arithmetic when the tile stream begins an instruction (R185, R186, R188,
R195, R197-R202, R209, R213, R217-R234): in the order SHAPE for an unbound operand, FORMAT, the remaining SHAPE conditions,
OVERLAP, the entry's own. PARAM is the operand code of R541; for OVERLAP it names the source. -/

namespace Sys2Proof.Machine

/-- A check: the condition that fails it, the cause and the operand code. -/
abbrev Check := Bool × Nat × Nat

/-- The first check that fails. -/
def firstFail (l : List Check) : Option (Nat × Nat) := (l.find? (fun c => c.1)).map (fun c => c.2)

/-- A binding that stands in for an unbound name, after the check that refuses it. -/
def noTile : Tile := { base := 0, rows := 1, cols := 1, pitch := 64, fmt := .fp32, vrows := 0, vcols := 0, fill := 0 }

/-- The binding of a name. -/
def tileOr (x : Ctx) (t : BitVec 4) : Tile := (getTile x t).getD noTile

/-- The tile names of an instruction of majors 0x18 to 0x1D with their operand codes: td, ta, tb, tc. -/
def operandNames (i : Instr) : List (Nat × BitVec 4) :=
  match i with
  | .tshape d _ _ => [(0, d)]
  | .tvalid d _ _ => [(0, d)]
  | .tfill d _ => [(0, d)]
  | .tset d _ _ _ => [(0, d)]
  | .tldg d _ _ => [(0, d)]
  | .tstg d _ _ => [(0, d)]
  | .tcopy d a _ => [(0, d), (1, a)]
  | .ttrans d a => [(0, d), (1, a)]
  | .tbcast d a _ => [(0, d), (1, a)]
  | .trowg d a b => [(0, d), (1, a), (2, b)]
  | .tshift d a _ _ _ => [(0, d), (1, a)]
  | .tpack d a b s => if s = 0 then [(0, d), (1, a), (2, b)] else [(0, d), (1, a)]
  | .tadd d a b _ => [(0, d), (1, a), (2, b)]
  | .tsub d a b _ => [(0, d), (1, a), (2, b)]
  | .tmul d a b _ => [(0, d), (1, a), (2, b)]
  | .tmin d a b _ => [(0, d), (1, a), (2, b)]
  | .tmax d a b _ => [(0, d), (1, a), (2, b)]
  | .tand d a b _ => [(0, d), (1, a), (2, b)]
  | .tor d a b _ => [(0, d), (1, a), (2, b)]
  | .txor d a b _ => [(0, d), (1, a), (2, b)]
  | .tshl d a b _ => [(0, d), (1, a), (2, b)]
  | .tshr d a b _ => [(0, d), (1, a), (2, b)]
  | .tcmp d a b _ _ => [(0, d), (1, a), (2, b)]
  | .tneg d a => [(0, d), (1, a)]
  | .tabs d a => [(0, d), (1, a)]
  | .texp2 d a => [(0, d), (1, a)]
  | .tlog2 d a => [(0, d), (1, a)]
  | .trcp d a => [(0, d), (1, a)]
  | .trsqrt d a => [(0, d), (1, a)]
  | .tsqrt d a => [(0, d), (1, a)]
  | .ttanh d a => [(0, d), (1, a)]
  | .tcvt d a => [(0, d), (1, a)]
  | .tround d a => [(0, d), (1, a)]
  | .trsum d a => [(0, d), (1, a)]
  | .tcsum d a => [(0, d), (1, a)]
  | .trmax d a => [(0, d), (1, a)]
  | .tcmax d a => [(0, d), (1, a)]
  | .tscan d a _ => [(0, d), (1, a)]
  | .ttopk d a b _ => [(0, d), (1, a), (2, b)]
  | .thist d a => [(0, d), (1, a)]
  | .targmax d a => [(0, d), (1, a)]
  | .tfma d a b c _ => [(0, d), (1, a), (2, b), (3, c)]
  | .tsel d a b c _ => [(0, d), (1, a), (2, b), (3, c)]
  | .tscale d a _ _ => [(0, d), (1, a)]
  | _ => []

/-- The binding that an operand code names in an instruction. -/
def operandTile (x : Ctx) (i : Instr) (code : Nat) : Tile :=
  match (operandNames i).find? (fun p => p.1 == code) with
  | some p => tileOr x p.2
  | none => noTile

/-- The bindings that an instruction names. -/
def ops4 (x : Ctx) (i : Instr) : Ops4 :=
  { d := operandTile x i 0, a := operandTile x i 1, b := operandTile x i 2, c := operandTile x i 3 }

/-- SHAPE for an unbound operand (R188). -/
def unboundChecks (x : Ctx) (i : Instr) : List Check :=
  (operandNames i).map (fun p => ((getTile x p.2).isNone, causeShape, p.1))

/-- The neighbour field of an instruction (R140). -/
def nbField (i : Instr) : BitVec 2 :=
  match i with
  | .tcopy _ _ n => n
  | .tadd _ _ _ n => n
  | .tsub _ _ _ n => n
  | .tmul _ _ _ n => n
  | .tmin _ _ _ n => n
  | .tmax _ _ _ n => n
  | .tand _ _ _ n => n
  | .tor _ _ _ n => n
  | .txor _ _ _ n => n
  | .tshl _ _ _ n => n
  | .tshr _ _ _ n => n
  | .tcmp _ _ _ n _ => n
  | .tfma _ _ _ _ n => n
  | .tsel _ _ _ _ n => n
  | _ => 0

/-- A FORMAT check of an operand. -/
def fmtCheck (bad : Bool) (code : Nat) : Check := (bad, causeFormat, code)

/-- An E8M0 operand where it is not accepted (R209). -/
def noScale (b : Tile) (code : Nat) : Check := fmtCheck (b.fmt == .e8m0) code

/-- An L6 or E8M0 destination under a rounding mode other than RNE (R101, R187). -/
def modeCheck (mode : Rnd) (b : Tile) (code : Nat) : Check :=
  fmtCheck ((b.fmt == .l6 || b.fmt == .e8m0) && mode != .rne) code

/-- The FORMAT checks, operand by operand. R188 and R541 do not say which operand PARAM names where formats have to agree, or where
several operands fail: it is the source that differs, and td, ta, tb, tc are checked in this order (DESIGN CHOICE, log 84). -/
def formatChecks (i : Instr) (mode : Rnd) (t : Ops4) : List Check :=
  let m := modeCheck mode t.d 0
  let arith := [noScale t.d 0, m, noScale t.a 1, noScale t.b 2]
  let bits := [m, fmtCheck (t.a.fmt != t.d.fmt) 1, fmtCheck (t.b.fmt != t.d.fmt) 2]
  let shift := [fmtCheck (!fmtIsInt t.d.fmt) 0, m, fmtCheck (!fmtIsInt t.a.fmt || t.a.fmt != t.d.fmt) 1,
    fmtCheck (!fmtIsInt t.b.fmt) 2]
  let una := [noScale t.d 0, m, noScale t.a 1]
  let special := [fmtCheck (!fmtIsFloat t.d.fmt) 0, m, noScale t.a 1]
  match i with
  | .tcopy _ _ _ => [m]
  | .tbcast _ _ _ => [m]
  | .tset _ _ _ _ => [m]
  | .ttrans _ _ => [fmtCheck (t.a.fmt != t.d.fmt) 1]
  | .trowg _ _ _ => [m, fmtCheck (t.b.fmt != .i32) 2]
  | .tshift _ _ _ _ _ => [fmtCheck (t.a.fmt != t.d.fmt) 1]
  | .tpack _ _ _ _ => [m]
  | .tadd _ _ _ _ => arith
  | .tsub _ _ _ _ => arith
  | .tmul _ _ _ _ => arith
  | .tmin _ _ _ _ => arith
  | .tmax _ _ _ _ => arith
  | .tand _ _ _ _ => bits
  | .tor _ _ _ _ => bits
  | .txor _ _ _ _ => bits
  | .tshl _ _ _ _ => shift
  | .tshr _ _ _ _ => shift
  | .tcmp _ _ _ _ _ => [fmtCheck (!fmtIsInt t.d.fmt) 0, noScale t.a 1, noScale t.b 2]
  | .tneg _ _ => una
  | .tabs _ _ => una
  | .texp2 _ _ => special
  | .tlog2 _ _ => special
  | .trcp _ _ => special
  | .trsqrt _ _ => special
  | .tsqrt _ _ => special
  | .ttanh _ _ => special
  | .tcvt _ _ => [m]
  | .tround _ _ => una
  | .trsum _ _ => una
  | .tcsum _ _ => una
  | .trmax _ _ => una
  | .tcmax _ _ => una
  | .tscan _ _ _ => una
  | .ttopk _ _ _ _ =>
    [fmtCheck (t.d.fmt != .i32) 0, noScale t.a 1, noScale t.b 2, modeCheck mode t.b 2]
  | .thist _ _ => [fmtCheck (t.d.fmt != .i32) 0, fmtCheck (!fmtIsInt t.a.fmt) 1]
  | .targmax _ _ => [fmtCheck (t.d.fmt != .i32) 0, noScale t.a 1]
  | .tfma _ _ _ _ _ => arith ++ [noScale t.c 3]
  | .tsel _ _ _ _ _ => [noScale t.d 0, m, fmtCheck (!fmtIsInt t.a.fmt) 1]
  | .tscale _ _ _ _ => una
  | _ => []

/-- A SHAPE check of an operand. -/
def shapeCheck (bad : Bool) (code : Nat) : Check := (bad, causeShape, code)

/-- A binding's rows and cols are not these. -/
def notShape (b : Tile) (r c : Nat) : Bool := b.rows != r || b.cols != c

/-- A binding is neither of td's shape nor one of its broadcast forms (R185). -/
def notBroadcast (b d : Tile) : Bool := !(b.rows == d.rows || b.rows == 1) || !(b.cols == d.cols || b.cols == 1)

/-- The remaining SHAPE checks; `gang` says that the core is in a gang (R76). -/
def shapeChecks (i : Instr) (gang : Bool) (t : Ops4) : List Check :=
  let same := shapeCheck (notShape t.a t.d.rows t.d.cols) 1
  let nb := shapeCheck (nbField i != 0 && !gang) 1
  let bb := shapeCheck (notBroadcast t.b t.d) 2
  let bc := shapeCheck (notBroadcast t.c t.d) 3
  match i with
  | .tcopy _ _ _ => [same, nb]
  | .ttrans _ _ => [shapeCheck (notShape t.a t.d.cols t.d.rows) 1]
  | .tbcast _ _ s =>
    if s = 0 then [shapeCheck (notShape t.a 1 t.d.cols) 1] else if s = 1 then [shapeCheck (notShape t.a t.d.rows 1) 1]
    else [shapeCheck (notShape t.a 1 1) 1]
  | .trowg _ _ _ => [shapeCheck (t.a.cols != t.d.cols) 1, shapeCheck (notShape t.b t.d.rows 1) 2]
  | .tshift _ _ _ _ _ => [same]
  | .tpack _ _ _ s =>
    if s = 0 then
      [shapeCheck (t.a.rows != t.d.rows) 1, shapeCheck (t.b.rows != t.d.rows) 2,
        shapeCheck (t.d.cols != t.a.cols + t.b.cols) 0]
    else [shapeCheck (t.a.rows != t.d.rows || decide (t.a.cols < t.d.cols)) 1]
  | .tstg _ _ _ => [shapeCheck (fmtBits t.d.fmt == 4 && t.d.vcols % 2 == 1) 0]
  | .tadd _ _ _ _ => [same, nb, bb]
  | .tsub _ _ _ _ => [same, nb, bb]
  | .tmul _ _ _ _ => [same, nb, bb]
  | .tmin _ _ _ _ => [same, nb, bb]
  | .tmax _ _ _ _ => [same, nb, bb]
  | .tand _ _ _ _ => [same, nb, bb]
  | .tor _ _ _ _ => [same, nb, bb]
  | .txor _ _ _ _ => [same, nb, bb]
  | .tshl _ _ _ _ => [same, nb, bb]
  | .tshr _ _ _ _ => [same, nb, bb]
  | .tcmp _ _ _ _ _ => [same, nb, bb]
  | .tfma _ _ _ _ _ => [same, nb, bb, bc]
  | .tsel _ _ _ _ _ => [same, nb, bb, bc]
  | .tneg _ _ => [same]
  | .tabs _ _ => [same]
  | .texp2 _ _ => [same]
  | .tlog2 _ _ => [same]
  | .trcp _ _ => [same]
  | .trsqrt _ _ => [same]
  | .tsqrt _ _ => [same]
  | .ttanh _ _ => [same]
  | .tcvt _ _ => [same]
  | .tround _ _ => [same]
  | .tscale _ _ _ _ => [same]
  | .trsum _ _ => [shapeCheck (notShape t.d t.a.rows 1) 0]
  | .tcsum _ _ => [shapeCheck (notShape t.d 1 t.a.cols) 0]
  | .trmax _ _ => [shapeCheck (notShape t.d t.a.rows 1) 0]
  | .tcmax _ _ => [shapeCheck (notShape t.d 1 t.a.cols) 0]
  | .tscan _ _ _ => [shapeCheck (notShape t.d t.a.rows t.a.cols) 0]
  | .ttopk _ _ _ k => [shapeCheck (notShape t.d t.a.rows (k.toNat + 1)) 0, shapeCheck (notShape t.b t.a.rows (k.toNat + 1)) 2]
  | .thist _ _ => [shapeCheck (!(t.d.rows == 1 || t.d.rows == t.a.rows)) 0]
  | .targmax _ _ => [shapeCheck (notShape t.d t.a.rows 1) 0]
  | _ => []

/-- OVERLAP where exact aliasing is permitted (R186). -/
def overlapAlias (d b : Tile) (code : Nat) : Check := (tilesMeet d b && !aliases d b, causeOverlap, code)

/-- OVERLAP where exact aliasing is not permitted (R186). -/
def overlapAny (d b : Tile) (code : Nat) : Check := (tilesMeet d b, causeOverlap, code)

/-- OVERLAP of a source with a neighbour field (R213). -/
def overlapNb (nb : BitVec 2) (d b : Tile) (code : Nat) : Check := if nb = 0 then overlapAlias d b code else overlapAny d b code

/-- The OVERLAP checks. -/
def overlapChecks (i : Instr) (t : Ops4) : List Check :=
  let alu := [overlapNb (nbField i) t.d t.a 1, overlapAlias t.d t.b 2]
  let una := [overlapAlias t.d t.a 1]
  let red := [overlapAny t.d t.a 1]
  match i with
  | .tcopy _ _ _ => una
  | .ttrans _ _ => red
  | .tbcast _ _ _ => red
  | .trowg _ _ _ => [overlapAny t.d t.a 1, overlapAny t.d t.b 2]
  | .tshift _ _ _ _ _ => red
  | .tpack _ _ _ s => if s = 0 then [overlapAny t.d t.a 1, overlapAny t.d t.b 2] else red
  | .tadd _ _ _ _ => alu
  | .tsub _ _ _ _ => alu
  | .tmul _ _ _ _ => alu
  | .tmin _ _ _ _ => alu
  | .tmax _ _ _ _ => alu
  | .tand _ _ _ _ => alu
  | .tor _ _ _ _ => alu
  | .txor _ _ _ _ => alu
  | .tshl _ _ _ _ => alu
  | .tshr _ _ _ _ => alu
  | .tcmp _ _ _ _ _ => alu
  | .tfma _ _ _ _ _ => alu ++ [overlapAlias t.d t.c 3]
  | .tsel _ _ _ _ _ => alu ++ [overlapAlias t.d t.c 3]
  | .tneg _ _ => una
  | .tabs _ _ => una
  | .texp2 _ _ => una
  | .tlog2 _ _ => una
  | .trcp _ _ => una
  | .trsqrt _ _ => una
  | .tsqrt _ _ => una
  | .ttanh _ _ => una
  | .tcvt _ _ => una
  | .tround _ _ => una
  | .tscale _ _ _ _ => una
  | .trsum _ _ => red
  | .tcsum _ _ => red
  | .trmax _ _ => red
  | .tcmax _ _ => red
  | .tscan _ _ _ => red
  | .ttopk _ _ _ _ => [overlapAny t.d t.a 1, overlapAny t.b t.a 1, overlapAny t.d t.b 2]
  | .thist _ _ => red
  | .targmax _ _ => red
  | _ => []

/-- The outcome of a begin check that may also have to wait. -/
inductive BeginOut where
  | pass
  | trap (code param : Nat) (addr : Word)
  | wait
  deriving DecidableEq, Repr

/-- The outcome of checks, and of what follows them where none fails. -/
def afterChecks (l : List Check) (next : BeginOut) : BeginOut :=
  match firstFail l with
  | some (code, p) => .trap code p 0
  | none => next

/-- A check that needs the scalar operand: it waits while the queue has none (R188). -/
def withValue (v : Option Word) (f : Word → BeginOut) : BeginOut :=
  match v with
  | some w => f w
  | none => .wait

/-- The begin checks of movement and arithmetic, up to the first that needs a scalar operand which is not there (R188). -/
def beginChecks (x : Ctx) (i : Instr) (mode : Rnd) (gang : Bool) (v : Option Word) : BeginOut :=
  let t := ops4 x i
  let shape (bad : Bool) : BeginOut := if bad then .trap causeShape 0 0 else .pass
  let aligned (w : Word) : BeginOut := if w.toNat % 64 ≠ 0 then .trap causeMisalign 0 w else .pass
  afterChecks (unboundChecks x i ++ formatChecks i mode t ++ shapeChecks i gang t ++ overlapChecks i t)
    (withValue v (fun w =>
      match i with
      | .tbind _ _ _ f => shape (bindOf w f).isNone
      | .tshape _ _ _ => shape (shapeOf t.d w).isNone
      | .tldg _ _ _ => aligned w
      | .tstg _ _ _ => aligned w
      | _ => .pass))

end Sys2Proof.Machine
end

