-- ==== Sys2Proof/Machine/Matrix.lean ====
section
/-! DEFINITION. The matrix path: slots and B images, the begin checks and bands of MLOADB, MMA, MMAG, MMAL and of the
accumulator instructions (R272-R292). -/

namespace Sys2Proof.Machine

/-! ### Slots (R273, R277) -/

/-- The array's width in array columns for a class: 1 WIDE, 2 NARROW (R272). -/
def arrayWidth (cls : Nat) : Nat := if cls = 1 then 512 else 1536

/-- The formats of B that a class takes (R273). -/
def classTakes (cls : Nat) (f : Fmt) : Bool :=
  if cls = 1 then f == .bf16 || f == .e4m3 || f == .e5m2 || f == .i8 else f == .e2m1 || f == .i4 || f == .l6

/-- The largest N of a format (R273). -/
def largestN (f : Fmt) : Nat :=
  match f with
  | .bf16 => 512
  | .e2m1 => 1536
  | .i4 => 1536
  | _ => 1024

/-- The span of N columns: their array columns, rounded up to a multiple of 64 (R273). -/
def slotSpan (f : Fmt) (n : Nat) : Nat :=
  let cols := match f with
    | .bf16 => n
    | .e2m1 => n
    | .i4 => n
    | .l6 => (3 * n + 1) / 2
    | _ => (n + 1) / 2
  (cols + 63) / 64 * 64

/-- The header of a B image (R277). -/
structure BHeader where
  k : Nat
  n : Nat
  a0 : Nat
  fmt : Nat
  pitch : Nat
  rest : Nat
  deriving DecidableEq, Repr

/-- The header's fields, little-endian (R277). -/
def readHeader (bs : List Byte) : BHeader :=
  let w := leNat bs
  { k := fld w 0 32, n := fld w 32 32, a0 := fld w 64 32, fmt := fld w 96 32, pitch := fld w 128 64, rest := w / 2 ^ 192 }

/-- The bytes of a row of B. -/
def bRowBytes (f : Fmt) (n : Nat) : Nat := (n * fmtBits f + 7) / 8

/-- Whether a header breaks R273 or R277 beside its format. -/
def badHeader (cls : Nat) (f : Fmt) (h : BHeader) : Bool :=
  h.rest != 0 || h.k == 0 || decide (256 < h.k) || h.n == 0 || decide (largestN f < h.n) || h.a0 % 64 != 0 ||
    decide (arrayWidth cls < h.a0 + slotSpan f h.n) || h.pitch % 64 != 0 || decide (h.pitch < bRowBytes f h.n)

/-- A slot of a core. -/
def getSlot (k : Core) (i : Nat) : Slot := k.slots.getD i emptySlot

/-- The state with a slot replaced; a change is noted for an urgent resume (R286). -/
def putSlot (s : State) (c i : Nat) (v : Slot) : State :=
  modCore s c (fun k => { k with slots := k.slots.setIfInBounds i { v with touched := true } })

/-- Whether the spans of two slots meet (R273). -/
def spansMeet (a0 n : Nat) (f : Fmt) (v : Slot) : Bool :=
  v.state != .empty && v.n != 0 && meets a0 (slotSpan f n) v.a0 (slotSpan v.fmt v.n)

/-- Whether a footprint lies wholly inside one KEEP region of a launch (R276). -/
def inKeep (l : Option Launch) (b : Tile) : Bool :=
  match l with
  | none => false
  | some l => l.regions.any (fun r => r.attr == 0 && decide (r.offset ≤ b.base) &&
      decide (b.base + (b.rows - 1) * b.pitch + rowBytes b ≤ r.offset + r.size))

/-- The bits of element (k, n) of the rows of a B image. -/
def bElem (f : Fmt) (rows : List (List Byte)) (k n : Nat) : Nat :=
  let r := rows.getD k []
  let w := fmtBits f
  if w = 4 then (r.getD (n / 2) 0).toNat / 2 ^ (4 * (n % 2)) % 16
  else if f = .l6 then (r.getD n 0).toNat % 64
  else leNat ((r.drop (n * (w / 8))).take (w / 8))

/-- The aligned blocks of a column (R274): missing K indices of the last block are zeros. -/
def alignColumn (f : Fmt) (k : Nat) (rows : List (List Byte)) (scale : Option (Memory × Tile)) (n : Nat) : List AlignedBlock :=
  (List.range ((k + 31) / 32)).map (fun blk =>
    alignBlock f (scale.map (fun p => srcElem p.1 p.2 blk n))
      ((List.range 32).map (fun i => if blk * 32 + i < k then bElem f rows (blk * 32 + i) n else 0)))

/-- The source that MLOADB records: a B image in space 0x4 with no scale tile, or with one that lies inside one KEEP region (R276). -/
def slotSource (l : Option Launch) (addr : Word) (scale : Option Tile) : Option SlotSource :=
  if spaceOf addr = 4 ∧ scale.all (inKeep l) = true then some { addr := addr, scale := scale } else none

/-- The slot as MLOADB leaves it when it completes: every block aligned, READY, the source recorded where R276 permits. -/
def readySlot (k : Core) (l : Option Launch) (v : Slot) (addr : Word) (scale : Option Tile) : Slot :=
  { v with
    state := .ready, rows := [],
    cols := (List.range v.n).map (alignColumn v.fmt v.k v.rows (scale.map (fun b => (k.spad, b)))),
    source := slotSource l addr scale }

/-- A slot whose contents are gone, with no source (R275). -/
def lostSlot (v : Slot) : Slot := { v with state := .lost, rows := [], cols := [], source := none, lossy := false }

/-- Rows of a B image as read again: all of them, a failure, or a wait. -/
inductive ImageRows where
  | ok (rows : List (List Byte))
  | fail
  | wait

/-- Rows `i` up to `i + fuel` of a B image of a pitch, each of `n` bytes (R277). -/
def imageRows (s : State) (c : Nat) (v : Word) (pitch n i fuel : Nat) : ImageRows :=
  match fuel with
  | 0 => .ok []
  | f + 1 =>
    match homeRead s c (v + BitVec.ofNat 64 (64 + i * pitch)) n with
    | .fail _ _ => .fail
    | .wait => .wait
    | .ok bs =>
      match imageRows s c v pitch n (i + 1) f with
      | .ok rs => .ok (bs :: rs)
      | o => o

/-! ### Begin checks (R283) -/

/-- Whether a part of a B image in the core's own scratchpad waits for an engine operation issued before (R276, R296). -/
def imageBusy (s : State) (c : Nat) (a : Word) (n before : Nat) : Bool :=
  (localRange c a n).any (fun r => engineBusy s c r.1 r.2 false before)

/-- The checks of an MLOADB's header on one member (R273, R277, R284), in the order of R284's operation: the header's own SHAPE comes
before FORMAT of a scale tile that is not E8M0, although R283 puts FORMAT before the remaining SHAPE conditions (DEDUCED,
log 83). `g` is the member's index. -/
def headerCheck (s : State) (c m g : Nat) (a : BitVec 4) (sc : BitVec 1) (f : BitVec 4) (fmt : Fmt) (l : BitVec 2) (h : BHeader) :
    BeginOut :=
  let st := memberTile (tileOr (getCtx s c) a) g
  afterChecks [
    fmtCheck (h.fmt != f.toNat) 6, shapeCheck (badHeader (classOf m) fmt h) 6, fmtCheck (sc == 1 && st.fmt != .e8m0) 1,
    shapeCheck (sc == 1 && notShape st ((h.k + 31) / 32) h.n) 1,
    ((List.range 4).any (fun j => j != l.toNat && spansMeet h.a0 h.n fmt (getSlot (getCore s m) j)), causeOverlap, 6)] .pass

/-- What MLOADB checks and waits for on one member before it reads the image's header (R284): the header is read in program order
towards the core's own accesses. `before` is the unit's place. -/
def mloadbStart (s : State) (c m before : Nat) (i : Instr) (v : Option Word) : BeginOut :=
  let x := getCtx s c
  match i with
  | .mloadb a _ _ sc f _ =>
    match fmtOfCode f.toNat with
    | none => .trap causeFormat 6 0
    | some fmt =>
      afterChecks [
        shapeCheck (sc == 1 && (getTile x a).isNone) 1, fmtCheck (!classTakes (classOf m) fmt) 6,
        fmtCheck (sc == 1 && (fmtIsInt fmt || fmt == .l6)) 1]
        (withValue v (fun w =>
          if w.toNat % 64 ≠ 0 then .trap causeMisalign 0 w
          else if rowFollows s c m before w 64 false || imageBusy s m w 64 before then .wait
          else .pass))
  | _ => .pass

/-- The checks of MLOADB on one member (R284), the header's after it has been read. `g` is the member's index. -/
def mloadbCheck (s : State) (c m : Nat) (g before : Nat) (i : Instr) (v : Option Word) : BeginOut :=
  match mloadbStart s c m before i v, i with
  | .pass, .mloadb a _ _ sc f l =>
    match homeRead s m (v.getD 0) 64 with
    | .wait => .wait
    | .fail kind addr => .trap causeTileAccess (kind + g * 256) addr
    | .ok bs => headerCheck s c m g a sc f ((fmtOfCode f.toNat).getD .fp32) l (readHeader bs)
  | o, _ => o

/-- What the three matrix instructions share (R287, R288): the A tile's name, the scalar form, S, the first slot, the number of
groups, the offsets tile, and whether the accumulators are zeroed first. -/
structure MmaForm where
  a : BitVec 4
  scaled : Bool
  slot : Nat
  groups : Nat
  offs : Option (BitVec 4)
  zero : Bool
  deriving DecidableEq, Repr

/-- The form of a matrix instruction. -/
def mmaForm (i : Instr) : Option MmaForm :=
  match i with
  | .mma a _ _ s l => some { a := a, scaled := s == 1, slot := l.toNat, groups := 1, offs := none, zero := false }
  | .mmag d a _ _ n s l =>
    some { a := a, scaled := s == 1, slot := l.toNat, groups := n.toNat, offs := some d, zero := false }
  | .mmal a _ _ s l => some { a := a, scaled := s == 1, slot := l.toNat, groups := 1, offs := none, zero := true }
  | _ => none

/-- The slots that a form uses on a core. -/
def formSlots (k : Core) (f : MmaForm) : List Slot := (List.range f.groups).map (fun g => getSlot k (f.slot + g))

/-- The largest N of the slots (R279). -/
def maxN (l : List Slot) : Nat := l.foldl (fun n v => Nat.max n v.n) 0

/-- The height of the accumulator store for a class (R278). -/
def accHeight (cls : Nat) : Nat := if cls = 1 then 96 else 32

/-- The origin (R0, C0) of an operand (R278). -/
def accOrigin (v : Word) : Nat × Nat := (v.toNat % 2 ^ 7, v.toNat / 2 ^ 16 % 2 ^ 11)

/-- The offsets of a form: those of its tile, or (0, M) (R288). -/
def formOffsets (w : View) (x : Ctx) (f : MmaForm) (rows : Nat) : List Int :=
  match f.offs with
  | none => [0, (rows : Int)]
  | some d => (List.range (f.groups + 1)).map (fun g => sextNat 32 (ownElem w (tileOr x d) 0 g))

/-- Whether offsets break R288. -/
def badOffsets (o : List Int) (rows : Nat) : Bool :=
  decide (o.headD 0 < 0) || (List.range (o.length - 1)).any (fun g => decide (o.getD (g + 1) 0 < o.getD g 0)) ||
    decide ((rows : Int) < o.getLastD 0)

/-- Whether a product placed at an origin does not fit the accumulator store (R279). -/
def misplaced (cls rows nmax : Nat) (v : Word) : Bool :=
  let width := arrayWidth cls
  let folds := (nmax + width - 1) / width
  let (r0, c0) := accOrigin v
  decide (accHeight cls < r0 + folds * rows) || decide (width < c0 + Nat.min nmax width) || (decide (1 < folds) && c0 != 0)

/-- The checks of MMA, MMAG and MMAL on one member (R283, R287, R288). A LOADING slot, which R275 says no matrix instruction can
reach, counts as EMPTY (DESIGN CHOICE, log 30). R275 does not place the wait for a RELOADING slot among the checks: it stands after
the checks for an unbound tile and an EMPTY slot, before FORMAT (DESIGN CHOICE, log 83). -/
def mmaCheck (s : State) (c m : Nat) (w : View) (i : Instr) (v : Option Word) : BeginOut :=
  match mmaForm i with
  | none => .pass
  | some f =>
    let x := getCtx s c
    let cls := classOf m
    let ta := tileOr x f.a
    let sc := tileOr x (f.a + 1)
    let td := match f.offs with
      | some d => tileOr x d
      | none => noTile
    let sl := formSlots (getCore s m) f
    let k := (sl.headD emptySlot).k
    let unbound : List Check := [
      shapeCheck (match f.offs with | some d => (getTile x d).isNone | none => false) 6,
      shapeCheck (getTile x f.a).isNone 1, shapeCheck (f.scaled && (getTile x (f.a + 1)).isNone) 5,
      shapeCheck (sl.any (fun v => v.state == .empty || v.state == .loading)) 6]
    let formats : List Check := [
      fmtCheck (!classTakes cls ta.fmt) 1,
      fmtCheck (sl.any (fun v => !pairsWith ta.fmt v.fmt || v.fmt != (sl.headD emptySlot).fmt)) 6,
      fmtCheck (f.scaled && (fmtIsInt ta.fmt || ta.fmt == .l6)) 1, fmtCheck (f.scaled && sc.fmt != .e8m0) 5,
      fmtCheck (f.offs.isSome && td.fmt != .i32) 6]
    let shapes : List Check := [
      shapeCheck (sl.any (fun v => v.k != k)) 6, shapeCheck (ta.cols != k) 1,
      shapeCheck (f.scaled && notShape sc ta.rows ((k + 31) / 32)) 5,
      shapeCheck (f.offs.isSome && notShape td 1 (f.groups + 1)) 6]
    let lost := (List.range f.groups).find? (fun g => (getSlot (getCore s m) (f.slot + g)).state == .lost)
    afterChecks unbound
      (if sl.any (fun v => v.state == .reloading) then .wait
       else
        afterChecks (formats ++ shapes)
          (withValue v (fun u =>
            afterChecks [
              shapeCheck (misplaced cls ta.rows (maxN sl) u) 6,
              (lost.isSome, causeBLost, f.slot + lost.getD 0),
              (badOffsets (formOffsets w x f ta.rows) ta.rows, causeOffsets, 0)] .pass)))

/-- Whether a matrix instruction in progress may take its next band on one member: it waits for a slot that is RELOADING, and a slot that
has become LOST ends it as at begin (R275, R286). -/
def slotsStand (k : Core) (i : Instr) : BeginOut :=
  match mmaForm i with
  | none => .pass
  | some f =>
    match (List.range f.groups).find? (fun g => (getSlot k (f.slot + g)).state == .lost) with
    | some g => .trap causeBLost (f.slot + g) 0
    | none => if (formSlots k f).any (fun v => v.state == .reloading) then .wait else .pass

/-- Whether a matrix instruction is heavy (R281). -/
def isHeavy (s : State) (c : Nat) (i : Instr) : Bool :=
  match mmaForm i with
  | none => false
  | some f => decide (4096 < (tileOr (getCtx s c) f.a).rows * maxN (formSlots (getCore s c) f))

/-! ### Accumulator instructions (R280, R291, R292) -/

/-- The extent tile of an accumulator instruction with its operand code (R280). -/
def accExtent (i : Instr) : Option (BitVec 4 × Nat) :=
  match i with
  | .azero d _ _ => some (d, 0)
  | .ascale d _ _ _ _ _ => some (d, 0)
  | .adrain d _ _ _ _ _ => some (d, 0)
  | .amovin a _ _ => some (a, 1)
  | .amovout d _ _ => some (d, 0)
  | _ => none

/-- The row-scale and column-scale tiles of an accumulator instruction with their operand codes (R291). -/
def accScales (i : Instr) : Option (BitVec 4 × Nat) × Option (BitVec 4 × Nat) :=
  let pick (a : BitVec 4) (c r : BitVec 1) : Option (BitVec 4 × Nat) × Option (BitVec 4 × Nat) :=
    if r = 1 ∧ c = 1 then (some (a, 1), some (a + 1, 5)) else if r = 1 then (some (a, 1), none)
    else if c = 1 then (none, some (a, 1)) else (none, none)
  match i with
  | .ascale _ a _ _ c r => pick a c r
  | .adrain _ a _ _ c r => pick a c r
  | _ => (none, none)

/-- The begin checks of an accumulator instruction (R292). -/
def accCheck (x : Ctx) (cls : Nat) (i : Instr) (mode : Rnd) (v : Option Word) : BeginOut :=
  match accExtent i with
  | none => .pass
  | some (d, dc) =>
    let td := tileOr x d
    let (rs, cs) := accScales i
    let scales := rs.toList ++ cs.toList
    let formats : List Check := match i with
      | .adrain _ _ _ _ _ _ => [noScale td 0, modeCheck mode td 0]
      | .amovin _ _ _ => [fmtCheck (td.fmt != .fp32) 1]
      | .amovout _ _ _ => [fmtCheck (td.fmt != .fp32) 0]
      | _ => []
    let overlaps : List Check := match i with
      | .adrain _ _ _ _ _ _ => scales.map (fun q => overlapAny td (tileOr x q.1) q.2)
      | _ => []
    let misfit (w : Word) : Bool :=
      decide (accHeight cls < (accOrigin w).1 + td.rows) || decide (arrayWidth cls < (accOrigin w).2 + td.cols)
    afterChecks (
        [shapeCheck (getTile x d).isNone dc] ++ scales.map (fun q => shapeCheck (getTile x q.1).isNone q.2) ++ formats ++
        scales.map (fun q => fmtCheck (!fmtIsFloat (tileOr x q.1).fmt) q.2) ++
        rs.toList.map (fun q => shapeCheck (notShape (tileOr x q.1) td.rows 1) q.2) ++
        cs.toList.map (fun q => shapeCheck (notShape (tileOr x q.1) 1 td.cols) q.2))
      (withValue v (fun w => afterChecks (shapeCheck (misfit w) dc :: overlaps) .pass))

/-- The key of an accumulator entry. -/
def accKey (cls r c : Nat) : Nat := r * arrayWidth cls + c

/-- a·rs·cs of an entry, exact (R292). -/
def scaledAcc (x : Ctx) (w : View) (i : Instr) (a : BitVec 32) (r c : Nat) : Val :=
  let factor (q : Option (BitVec 4 × Nat)) (i j : Nat) : Val := match q with
    | some (t, _) => dec (tileOr x t).fmt (ownElem w (tileOr x t) i j)
    | none => valOne
  let (rs, cs) := accScales i
  mulVal (mulVal (dec .fp32 a.toNat) (factor rs r 0)) (factor cs 0 c)

/-- An entry of an accumulator store. -/
def accGet (a : AccStore) (k : Nat) : BitVec 32 :=
  tabGet (match a.free with | some n => BitVec.ofNat 32 (Config.freeNat (n + k)) | none => 0) a.vals k

/-- The accumulator store with an entry written. -/
def accSet (a : AccStore) (k : Nat) (v : BitVec 32) : AccStore := { a with vals := tabSet a.vals k v }

/-- A row of an accumulator instruction on one member: `lead` is the context with the bindings, `acc` the member's store. The
scratchpad, the store and the generator afterwards. -/
def accRow (lead : Ctx) (cls : Nat) (i : Instr) (mode : Rnd) (sm : SatMode) (v : Word) (w : View) (acc : AccStore)
    (seed : BitVec 32) (r : Nat) : Memory × AccStore × BitVec 32 :=
  match accExtent i with
  | none => (w.mem, acc, seed)
  | some (d, _) =>
    let td := memberTile (tileOr lead d) w.idx
    let (r0, c0) := accOrigin v
    let entry (j : Nat) : BitVec 32 := accGet acc (accKey cls (r0 + r) (c0 + j))
    let store (vals : List Nat) : AccStore :=
      ((List.range vals.length).zip vals).foldl (fun t p => accSet t (accKey cls (r0 + r) (c0 + p.1)) (BitVec.ofNat 32 p.2)) acc
    if td.vrows ≤ r then (w.mem, acc, seed)
    else
      match i with
      | .azero _ _ _ => (w.mem, store (List.replicate td.vcols 0), seed)
      | .amovin _ _ _ => (w.mem, store ((List.range td.vcols).map (fun j => rawElem w.mem td r j)), seed)
      | .ascale _ _ _ _ _ _ =>
        let e := rowElems (fun j st => rnd .fp32 mode sm st (scaledAcc lead w i (entry j) r j)) (mode == .stoch) seed 0 td.vcols
        (w.mem, store e.1, e.2)
      | .adrain _ _ _ _ _ _ =>
        let e := rowElems (fun j st => writeVal td.fmt mode sm st false (scaledAcc lead w i (entry j) r j)) (mode == .stoch)
          seed 0 td.vcols
        (putRow w.mem td r 0 e.1, acc, e.2)
      | .amovout _ _ _ =>
        let e := rowElems (fun j _ => (entry j).toNat) (mode == .stoch) seed 0 td.vcols
        (putRow w.mem td r 0 e.1, acc, e.2)
      | _ => (w.mem, acc, seed)

/-! ### Matrix rows (R289) -/

/-- The aligned blocks of an A row (R116, R117). -/
def alignARow (w : View) (x : Ctx) (f : MmaForm) (k m : Nat) : List AlignedBlock :=
  let ta := tileOr x f.a
  (List.range ((k + 31) / 32)).map (fun blk =>
    alignBlock ta.fmt (if f.scaled then some (ownElem w (tileOr x (f.a + 1)) m blk) else none)
      ((List.range 32).map (fun i => if blk * 32 + i < k then ownElem w ta m (blk * 32 + i) else 0)))

/-- An output element's accumulator after a row: block partials added in ascending K order (R119, R289). -/
def dotAcc (fa fb : Fmt) (acc : BitVec 32) (xs ys : List AlignedBlock) : BitVec 32 :=
  (xs.zip ys).foldl (fun a p => accAdd a (blockPartial fa fb p.1 p.2)) acc

/-- The group of a row (R289). -/
def rowGroup (o : List Int) (m : Nat) : Option Nat :=
  (List.range (o.length - 1)).find? (fun g => decide (o.getD g 0 ≤ (m : Int)) && decide ((m : Int) < o.getD (g + 1) 0))

/-- A row of a matrix instruction on one member: its accumulator store afterwards. The offsets of MMAG are read again for each row,
and not checked again (DESIGN CHOICE, log 31: R288 says when they are checked, not whether they are kept). -/
def mmaRow (lead : Ctx) (k : Core) (cls : Nat) (f : MmaForm) (v : Word) (w : View) (acc : AccStore) (m : Nat) : AccStore :=
  let ta := memberTile (tileOr lead f.a) w.idx
  let offs := formOffsets w lead f ta.rows
  if ta.vrows ≤ m then acc
  else
    match rowGroup offs m with
    | none => acc
    | some g =>
      let sl := getSlot k (f.slot + g)
      let xs := alignARow w lead f sl.k m
      let (r0, c0) := accOrigin v
      let width := arrayWidth cls
      (List.range sl.n).foldl (fun t n =>
        let key := accKey cls (r0 + m + ta.rows * (n / width)) (c0 + n % width)
        let old := if f.zero then 0 else accGet t key
        accSet t key (dotAcc ta.fmt sl.fmt old xs (sl.cols.getD n []))) acc

end Sys2Proof.Machine
end

