-- ==== Sys2Proof/Machine/TileExec.lean ====
section
/-! DEFINITION. The tile stream: beginning a unit, its bands and rows, loops, completion, traps and restart (R64, R69, R77,
R107, R188-R194, R202-R205, R282, R284-R292), with the dispatch of every tile instruction (R62). -/

namespace Sys2Proof.Machine

/-! ### The unit at the head of the sequencer -/

/-- The scalar operand of a unit: the captured value, the popped queue value, or the confirmed head of its queue; `none` where
the queue has no entry to take (R69, R188). -/
def unitValue (x : Ctx) (u : TileUnit) : Option Word :=
  match poppedQueue u.instr with
  | none => some u.gval
  | some q =>
    match x.run.popped with
    | some v => some v
    | none =>
      match getQueue x q with
      | e :: _ => if confirmed x e.gen then some e.val else none
      | [] => none

/-- The scalar operand of a unit in progress. -/
def runValue (x : Ctx) (u : TileUnit) : Word := (unitValue x u).getD 0

/-- The context with the unit's queue entry popped and kept (R188). -/
def popOperand (x : Ctx) (u : TileUnit) (v : Word) : Ctx :=
  match poppedQueue u.instr with
  | none => x
  | some q => { setQueue x q (getQueue x q).tail with run := { x.run with popped := some v } }

/-- The members of a unit with their indices, the leader first (R74). -/
def unitMembers (s : State) (c : Nat) (u : TileUnit) : List (Nat × Nat) :=
  let ms := unitCores s c u.id
  (List.range ms.length).zip ms

/-- A member's view (R75, R76). -/
def viewOf (s : State) (c : Nat) (u : TileUnit) (idx : Nat) : View :=
  let ms := unitCores s c u.id
  { mem := (getCore s (ms.getD idx c)).spad,
    plus := (ms[idx + 1]?).map (fun m => (getCore s m).spad),
    minus := if idx = 0 then none else (ms[idx - 1]?).map (fun m => (getCore s m).spad),
    idx := idx }

/-- Whether a gang's unit waits for a follower's own units, dispatched before the gang formed (R63, R74). -/
def followersBusy (s : State) (c : Nat) (u : TileUnit) : Bool :=
  (unitCores s c u.id).any (fun m => m != c && !(getCtx s m).seq.isEmpty)

/-- Whether a unit waits for an engine operation or for a reload on some member's scratchpad (R61, R296). -/
def unitWaits (s : State) (c : Nat) (u : TileUnit) : Bool :=
  let x := getCtx s c
  let tileWaits (m : Nat) (wr : Bool) (t : BitVec 4) : Bool :=
    match getTile x t with
    | none => false
    | some b => tileEngineBusy s m b wr u.id || reloading s m b.base (b.rows * b.pitch)
  (unitCores s c u.id).any (fun m =>
    (unitWrites u.instr).any (tileWaits m true) || (unitReads u.instr).any (tileWaits m false))

/-- The units of leave that a unit draws: for a heavy matrix instruction by class, and two for each member of a gang (R281,
R534, R79). Whether a gang's heavy matrix instruction draws its 8 or 10 units once or for each member, and whose slots give Nmax,
R281 leaves open: it draws them once, by the slots of its leader (DESIGN CHOICE, log 85). -/
def leaveUnits (s : State) (c : Nat) (u : TileUnit) : Nat :=
  (if isHeavy s c u.instr then (if classOf c = 1 then 8 else 10) else 0) +
    (if gangUnit (getCore s c) u.id then 2 * (unitCores s c u.id).length else 0)

/-! ### Completion and traps -/

/-- The state with the leave of the unit in progress returned (R281). -/
def returnRunLeave (s : State) (c : Nat) : State :=
  let sh := shareOf s c
  let n := (getCtx s c).run.fromPool
  returnUnits (modCtx s c (fun x => { x with run := { x.run with fromHeld := 0, fromPool := 0 } })) sh.1 sh.2 n

/-- The context after a unit has completed: the next body unit of a loop, the end of the loop, or the next entry (R204,
R205). -/
def advanceUnit (x : Ctx) : Ctx :=
  match x.run.loopLeft, x.seq with
  | some left, e :: r =>
    if x.run.loopIdx + 1 < e.body.length then
      { x with run := { resetRun with loopLeft := some left, loopIdx := x.run.loopIdx + 1 } }
    else if 1 < left then { x with run := { resetRun with loopLeft := some (left - 1) } }
    else { x with seq := r, run := resetRun }
  | none, _ :: r => { x with seq := r, run := resetRun }
  | _, [] => { x with run := resetRun }

/-- The state after the unit in progress has completed: its leave is returned and %xstep reads 0 (R191, R281). -/
def completeUnit (s : State) (c : Nat) : State :=
  let t := modCtx (returnRunLeave s c) c (fun x => { advanceUnit x with sys := { x.sys with xstep := 0 } })
  if (getCtx t c).seq.isEmpty then t else push t (.tileUnitBegin c)

/-- The seeds of the members, restored at a trap inside a band (R107). -/
def restoreSeeds (s : State) (c : Nat) (u : TileUnit) : State :=
  ((unitMembers s c u).zip (getCtx s c).run.seeds).foldl
    (fun t p => modSys t p.1.2 (fun y => { y with rseed := p.2 })) s

/-- The state with a tile-stream trap pending at the control stream's next unit boundary, `row` rows complete (R189, R191). -/
def raiseTileTrap (s : State) (c : Nat) (u : TileUnit) (code param : Nat) (addr : Word) (row : Nat) : State :=
  modCtx (returnRunLeave s c) c (fun x =>
    { x with
      tileTrap := some { code := code, param := param, addr := addr, upc := u.upc },
      run := { x.run with row := row, waitLeave := x.run.begun, stopped := x.run.begun },
      sys := { x.sys with xstep := BitVec.ofNat 9 row } })

/-! ### Begin -/

/-- The begin checks of a unit over all members, up to the first that needs a scalar operand which is not there (R188, R283). -/
def beginUnit (s : State) (c : Nat) (u : TileUnit) (v : Option Word) : BeginOut :=
  let x := getCtx s c
  let each (f : Nat × Nat → BeginOut) : BeginOut := (((unitMembers s c u).map f).find? (fun b => b != .pass)).getD .pass
  let matrix : BeginOut := each (fun p => mmaCheck s c p.2 (viewOf s c u p.1) u.instr v)
  let accum : BeginOut := accCheck x (classOf c) u.instr (modeRnd u.xmod) v
  match u.instr with
  | .mloadb _ _ _ _ _ _ => each (fun p => mloadbCheck s c p.2 p.1 u.id u.instr v)
  | .mma _ _ _ _ _ => matrix
  | .mmag _ _ _ _ _ _ _ => matrix
  | .mmal _ _ _ _ _ => matrix
  | .azero _ _ _ => accum
  | .ascale _ _ _ _ _ _ => accum
  | .adrain _ _ _ _ _ _ => accum
  | .amovin _ _ _ => accum
  | .amovout _ _ _ => accum
  | _ => beginChecks x u.instr (modeRnd u.xmod) (gangUnit (getCore s c) u.id) v

/-- The value that TGET pushes (R196). -/
def tgetValue (x : Ctx) (a : BitVec 4) (f : BitVec 3) : Word :=
  match getTile x a with
  | none => BitVec.allOnes 64
  | some b =>
    BitVec.ofNat 64 (match f.toNat with
      | 0 => b.base
      | 1 => b.rows
      | 2 => b.cols
      | 3 => b.pitch
      | 4 => fmtCode b.fmt
      | 5 => b.vrows
      | 6 => b.vcols
      | _ => b.fill)

/-- The effect of a unit that has no rows: the bindings, TGET and MFREE (R195, R196, R285). `none` for the others. -/
def stepUnit (s : State) (c : Nat) (u : TileUnit) (v : Word) : Option State :=
  let x := getCtx s c
  match u.instr with
  | .tbind d _ _ f => some (match bindOf v f with
    | some b => setCtx s c (putTile x d b)
    | none => s)
  | .tshape d _ _ => some (match shapeOf (tileOr x d) v with
    | some b => setCtx s c (putTile x d b)
    | none => s)
  | .tvalid d _ _ => some (setCtx s c (putTile x d (validOf (tileOr x d) v)))
  | .tfill d f => some (setCtx s c (putTile x d { tileOr x d with fill := f.toNat }))
  | .tget a n f =>
    some (setCtx s c (setQueue x (4 + n.toNat) (getQueue x (4 + n.toNat) ++ [{ val := tgetValue x a f, gen := none }])))
  | .mfree al l =>
    let named := if al = 1 then [0, 1, 2, 3] else [l.toNat]
    some ((unitCores s c u.id).foldl (fun t m => named.foldl (fun t i => putSlot t m i emptySlot) t) s)
  | _ => none

/-- Whether a unit advances by rows of memory (R190, R202, R284). -/
def isRowUnit (i : Instr) : Bool :=
  match i with
  | .tldg _ _ _ => true
  | .tstg _ _ _ => true
  | .mloadb _ _ _ _ _ _ => true
  | _ => false

/-- The scale tile of an MLOADB on a member. -/
def scaleTile (s : State) (c : Nat) (a : BitVec 4) (sc : BitVec 1) (idx : Nat) : Option Tile :=
  if sc = 1 then some (memberTile (tileOr (getCtx s c) a) idx) else none

/-- The state with the slots of an MLOADB set to LOADING with the geometry of their headers, and with the source that completion will
record, from which a restore reloads the rows already read (R276, R284, R286). -/
def openSlots (s : State) (c : Nat) (u : TileUnit) (v : Word) : State :=
  match u.instr with
  | .mloadb a _ _ sc f l =>
    (unitMembers s c u).foldl (fun t p =>
      match homeRead t p.2 v 64 with
      | .ok bs =>
        let h := readHeader bs
        putSlot t p.2 l.toNat
          { state := .loading, fmt := (fmtOfCode f.toNat).getD .fp32, k := h.k, n := h.n, a0 := h.a0, pitch := h.pitch,
            rows := [], cols := [], source := slotSource (launchOf t p.2) v (scaleTile s c a sc p.1), lossy := false, touched := true }
      | _ => t) s
  | _ => s

/-- The event that carries a unit in progress on. -/
def progressEvent (i : Instr) (c : Nat) : Event := if isRowUnit i then .tileRowComplete c else .tileBandComplete c false

/-- The leave of a unit that has begun: drawn, or waited for in the share's queue (R281, R283). -/
def drawUnit (s : State) (c : Nat) (u : TileUnit) : State :=
  let n := leaveUnits s c u
  match drawLeave s c n (.tile c) with
  | (ok, h, p, t) =>
    if ok then
      push (modCtx t c (fun x => { x with run := { x.run with waitLeave := false, fromHeld := h, fromPool := p } }))
        (progressEvent u.instr c)
    else t

/-- Whether the tile stream of a core may move: the core runs, and its stream is not stopped, nor held but for an instruction that
runs to completion (R189, R208, R538). A follower's stream has only the units that it dispatched before its gang formed. -/
def tileLive (k : Core) : Bool :=
  k.state == .running && (!k.ctx.heldStream || runningOut k.ctx) && k.ctx.tileTrap.isNone && !k.ctx.seq.isEmpty

/-- TGET waits while its queue is full (R196). -/
def queueFull (x : Ctx) (i : Instr) : Bool :=
  match i with
  | .tget _ n _ => decide (8 ≤ (getQueue x (4 + n.toNat)).length)
  | _ => false

/-- Whether a fence or an acquire atomic before a unit still holds its accesses back (R268, R322). -/
def fenceHolds (x : Ctx) (u : TileUnit) : Bool :=
  x.fences.any (fun f => decide (f.id < u.id)) || x.acqs.any (fun n => decide (n < u.id))

/-- A loop begins: its count is taken, and its body runs c - 1 times more (R205). -/
def beginLoop (s : State) (c : Nat) (u : TileUnit) (v : Word) : State :=
  let x := popOperand (getCtx s c) u v
  if v.toNat ≤ 1 then completeUnit (setCtx s c x) c
  else push (setCtx s c { x with run := { resetRun with loopLeft := some (v.toNat - 1) } }) (.tileUnitBegin c)

/-- Whether the tile stream of a core stands at a band boundary for a switch of its partition (R550, R553). -/
def bandHolds (s : State) (c : Nat) : Bool :=
  let x := getCtx s c
  partStops s c && !x.sys.sup && decide (x.run.row % 8 = 0)

/-- The state with the tile stream's place in its share's queue given up, since the stream does not move: the next request is
served, and the unit asks afresh when it goes on (R281, R535). -/
def yieldLeave (s : State) (c : Nat) : State :=
  dropWait s (shareOf s c).2 (.tile c)

/-- The unit at the head of the sequencer begun with its operand taken: a step of the bindings, or the start of its rows (R188). -/
def startUnit (s : State) (c : Nat) (u : TileUnit) (v : Word) : State :=
  let y := popOperand (getCtx s c) u v
  match stepUnit (setCtx s c y) c u v with
  | some t => completeUnit t c
  | none =>
    let y := match u.instr with
      | .tstg _ _ _ => if leavesCore c v then setCommit y else y
      | _ => y
    drawUnit (openSlots (setCtx s c { y with run := { y.run with begun := true, waitLeave := true, row := 0 } }) c u v) c u

/-- TILE_UNIT_BEGIN: the tile stream begins the unit at its head, or goes on with one that waits for leave (R188, R281). -/
def execTileUnitBegin (c : Nat) (s : State) : Host.Outcome State Fault Refusal :=
  let k := getCore s c
  let x := k.ctx
  if !tileLive k then done (yieldLeave s c)
  else
    match curUnit x with
    | none => done s
    | some u =>
      if bandHolds s c then done (push s (.tileUnitBegin c))
      else if x.run.begun then (if x.run.waitLeave then done (drawUnit s c u) else done s)
      else if !confirmed x u.gen || !((x.seq.head?).map (fun e => confirmed x e.unit.gen)).getD true then
        done (push s (.tileUnitBegin c))
      else
        match u.instr, unitValue x u with
        | .tloop _ _ _, some v => done (beginLoop s c u v)
        | .tloop _ _ _, none => done (push s (.tileUnitBegin c))
        | _, w =>
          if unitWaits s c u || followersBusy s c u || queueFull x u.instr || fenceHolds x u then done (push s (.tileUnitBegin c))
          else
            match beginUnit s c u w with
            | .wait => done (push s (.tileUnitBegin c))
            | .trap code p a => done (raiseTileTrap s c u code p a 0)
            | .pass => done (startUnit s c u (w.getD 0))

/-! ### Bands (R190, R282) -/

/-- The rows of the band tile (R190, R282). -/
def bandRows (s : State) (c : Nat) (u : TileUnit) : Nat :=
  let x := getCtx s c
  match u.instr with
  | .mloadb _ _ _ _ _ l => (unitCores s c u.id).foldl (fun n m => Nat.max n (getSlot (getCore s m) l.toNat).k) 0
  | .tldg d _ _ => (tileOr x d).rows
  | .tstg d _ _ => (tileOr x d).rows
  | i =>
    match mmaForm i with
    | some f => (tileOr x f.a).rows
    | none =>
      match accExtent i with
      | some (d, _) => (tileOr x d).rows
      | none => (operandTile x i 0).rows

/-- The state with a member's scratchpad, accumulator store and generator set. -/
def putMember (s : State) (m : Nat) (spad : Memory) (acc : AccStore) (seed : BitVec 32) : State :=
  modCore s m (fun k => { k with spad := spad, ctx := { k.ctx with acc := acc, sys := { k.ctx.sys with rseed := seed } } })

/-- Whether an instruction is one of tile arithmetic: of TALU, TUNA, TRED or TFMA (R207). -/
def isArith (i : Instr) : Bool :=
  match i with
  | .tcopy _ _ _ => false
  | .ttrans _ _ => false
  | .tbcast _ _ _ => false
  | .tset _ _ _ _ => false
  | .trowg _ _ _ => false
  | .tshift _ _ _ _ _ => false
  | .tpack _ _ _ _ => false
  | _ => true

/-- The saturation mode that a unit writes with. NONSAT has an effect on L6 and E8M0 where an instruction converts to them (R101,
R102), but none for tile arithmetic, whose chapter names the destinations of R100 and R103 alone (R212, log 44). -/
def unitSat (x : Ctx) (i : Instr) (sm : SatMode) : SatMode :=
  let f := (match i with
    | .ttopk _ _ _ _ => operandTile x i 2
    | _ => operandTile x i 0).fmt
  if isArith i ∧ (f = .l6 ∨ f = .e8m0) ∧ sm = .nonsat then .dflt else sm

/-- Rows `lo` to `hi` of a unit on one member, from the state at the start of the band. -/
def memberBand (s0 : State) (c : Nat) (u : TileUnit) (v : Word) (lo hi : Nat) (s : State) (p : Nat × Nat) : State :=
  let x := getCtx s0 c
  let w := viewOf s0 c u p.1
  let k := getCore s0 p.2
  let mode := modeRnd u.xmod
  let sm := modeSat u.xmod
  let seed := k.ctx.sys.rseed
  let rows := (List.range (hi - lo)).map (fun i => lo + i)
  match mmaForm u.instr with
  | some f => putMember s p.2 w.mem (rows.foldl (fun a m => mmaRow x k (classOf p.2) f v w a m) k.ctx.acc) seed
  | none =>
    match accExtent u.instr with
    | some _ =>
      let r := rows.foldl (fun (r : Memory × AccStore × BitVec 32) i =>
        accRow x (classOf p.2) u.instr mode sm v { w with mem := r.1 } r.2.1 r.2.2 i) (w.mem, k.ctx.acc, seed)
      putMember s p.2 r.1 r.2.1 r.2.2
    | none =>
      let r := execRows u.instr mode (unitSat x u.instr sm) v (ops4 x u.instr) w w.mem seed lo (hi - lo)
      putMember s p.2 r.1 k.ctx.acc r.2

/-- The physical core of a logical core: die * 136 + cluster * 17 + position (R27). -/
def physCore (s : State) (c : Nat) : Nat :=
  let m := mapOf s c
  m.pdie * 136 + m.pclu * 17 + m.ppos

/-- The member that was killed or stopped in a gang, whose neighbour links answer with error data (R563). -/
def deadMember (s : State) (c : Nat) (u : TileUnit) : Option Nat :=
  ((unitMembers s c u).find? (fun p => (getCore s p.2).state == .killed)).map (·.1)

/-- The slots of a unit in progress on every member, the first that does not stand deciding (R275, R286). -/
def slotsOnAll (s : State) (ms : List (Nat × Nat)) (i : Instr) : BeginOut :=
  ((ms.map (fun p => slotsStand (getCore s p.2) i)).find? (fun b => b != .pass)).getD .pass

/-- TILE_BAND_COMPLETE: the next band of the unit in progress on every member, at once (R77, R190, R282). `mismatch` says that
the two passes of the duplicate mode differ in this band (R290). -/
def execTileBandComplete (c : Nat) (mismatch : Bool) (s : State) : Host.Outcome State Fault Refusal :=
  let k := getCore s c
  let x := k.ctx
  match curUnit x with
  | none => done s
  | some u =>
    if !tileLive k || !x.run.begun || x.run.waitLeave || isRowUnit u.instr then done s
    else if bandHolds s c || unitWaits s c u then done (push s (.tileBandComplete c mismatch))
    else
      let v := runValue x u
      let total := bandRows s c u
      let lo := x.run.row
      let hi := Nat.min total ((lo / 8 + 1) * 8)
      if mismatch && modeDup u.xmod && (mmaForm u.instr).isSome then
        done (raiseTileTrap s c u causeMmaMismatch ((accOrigin v).1 + lo) 0 lo)
      else
        match deadMember s c u with
        | some m => done (raiseTileTrap s c u causeTileAccess (2 + m * 256) 0 lo)
        | none =>
          match slotsOnAll s (unitMembers s c u) u.instr with
          | .wait => done (push s (.tileBandComplete c mismatch))
          | .trap code p a => done (raiseTileTrap s c u code p a lo)
          | .pass =>
            let seeds := (unitCores s c u.id).map (fun m => (getCtx s m).sys.rseed)
            let t := (unitMembers s c u).foldl (memberBand s c u v lo hi) s
            let t := modCtx t c (fun y => { y with run := { y.run with row := hi, seeds := seeds } })
            if hi = total then done (completeUnit t c) else done (push t (.tileBandComplete c false))

/-! ### Rows of memory (R192, R202, R203, R284) -/

/-- The memory address of a member's row (R203). -/
def tileRowAddr (v : Word) (b : Tile) (idx i : Nat) : Word := v + BitVec.ofNat 64 ((idx * b.rows + i) * b.pitch)

/-- A row of TLDG placed in the scratchpad: whole bytes, but the last nibble of a 4-bit row with odd vcols (R202). The codes of an L6
tile are written unconverted, with the two bits above each code zero, as every write of an L6 element leaves them (R90, log 42). -/
def placeRow (m : Memory) (b : Tile) (i : Nat) (bs : List Byte) : Memory :=
  let bs := if b.fmt = .l6 then bs.map (fun x => x &&& 0x3F) else bs
  if fmtBits b.fmt = 4 ∧ b.vcols % 2 = 1 then
    putElem (memWrite m (b.base + i * b.pitch) (bs.take (b.vcols / 2))) b i (b.vcols - 1) ((bs.getD (b.vcols / 2) 0).toNat % 16)
  else memWrite m (b.base + i * b.pitch) bs

/-- The outcome of one member's row: the state, a fault, or a wait. -/
inductive RowStep where
  | ok (s : State)
  | fault (kind : Nat) (addr : Word)
  | wait

/-- The rows of a B image below the one that an MLOADB reads next. -/
inductive EarlierRows where
  | ok (rows : List (List Byte))
  | lost
  | wait

/-- The rows below row `i` of a slot that is LOADING: those that it has, or, where a restore emptied it and it has a source, those of the
image read again; lost where there is no source or the reload meets a fault (R286). -/
def earlierRows (s : State) (m : Nat) (v : Word) (i : Nat) (sl : Slot) : EarlierRows :=
  if i ≤ sl.rows.length then .ok (sl.rows.take i)
  else if sl.source.isNone then .lost
  else
    match imageRows s m v sl.pitch (bRowBytes sl.fmt sl.n) 0 i with
    | .ok rs => .ok rs
    | .fail => .lost
    | .wait => .wait

/-- One member's row of TLDG, TSTG or MLOADB. -/
def memberRow (s : State) (c : Nat) (u : TileUnit) (v : Word) (i idx m : Nat) : RowStep :=
  let x := getCtx s c
  match u.instr with
  | .tldg d _ _ =>
    let b := memberTile (tileOr x d) idx
    let a := tileRowAddr v b idx i
    if b.vrows ≤ i ∨ b.vcols = 0 then .ok s
    else if spaceOf a ≠ 4 then .fault 1 a
    else if rowFollows s c m u.id a (validBytes b) false then .wait
    else
      match rowRead s m a (validBytes b) with
      | .ok bs => .ok (modCore (rowTouch s m false a (validBytes b)) m (fun k => { k with spad := placeRow k.spad b i bs }))
      | .fail kind addr => .fault kind addr
      | .wait => .wait
  | .tstg d _ _ =>
    let b := memberTile (tileOr x d) idx
    let a := tileRowAddr v b idx i
    if b.vrows ≤ i ∨ b.vcols = 0 then .ok s
    else if spaceOf a ≠ 4 ∨ x.sys.dual = true then .fault 1 a
    else if rowFollows s c m u.id a (validBytes b) true then .wait
    else
      match rowCheck s m a (validBytes b) with
      | .ok _ => .ok (rowPut s m a (spadRead s m (b.base + i * b.pitch) (validBytes b)))
      | .fail kind addr => .fault kind addr
      | .wait => .wait
  | .mloadb _ _ _ _ _ l =>
    let sl := getSlot (getCore s m) l.toNat
    let a := v + BitVec.ofNat 64 (64 + i * sl.pitch)
    if sl.k ≤ i then .ok s
    else if rowFollows s c m u.id a (bRowBytes sl.fmt sl.n) false || imageBusy s m a (bRowBytes sl.fmt sl.n) u.id then .wait
    else
      match homeRead s m a (bRowBytes sl.fmt sl.n), earlierRows s m v i sl with
      | .ok bs, .ok rs => .ok (putSlot (rowTouch s m false a (bRowBytes sl.fmt sl.n)) m l.toNat { sl with rows := rs ++ [bs] })
      | .ok _, .lost => .ok (putSlot s m l.toNat { sl with source := none, lossy := true })
      | .ok _, .wait => .wait
      | .fail kind addr, _ => .fault kind addr
      | .wait, _ => .wait
  | _ => .ok s

/-- A row on every member: nothing of it happens unless every member's access succeeds; a fault names the lowest-numbered
member (R77, R190, R549). -/
def rowOnAll (s : State) (c : Nat) (u : TileUnit) (v : Word) (i : Nat) (ms : List (Nat × Nat)) : RowStep × Nat :=
  match ms with
  | [] => (.ok s, 0)
  | p :: r =>
    match memberRow s c u v i p.1 p.2 with
    | .ok t => rowOnAll t c u v i r
    | o => (o, p.1)

/-- The slots of an MLOADB when its rows have ended: aligned and READY with their source recorded; LOST where a restore left
rows that could not be read again (R276, R284, R286). -/
def closeSlots (s : State) (c : Nat) (u : TileUnit) (v : Word) : State :=
  match u.instr with
  | .mloadb a _ _ sc _ l =>
    (unitMembers s c u).foldl (fun t p =>
      let k := getCore t p.2
      let sl := getSlot k l.toNat
      putSlot t p.2 l.toNat
        (if sl.lossy || decide (sl.rows.length < sl.k) then lostSlot sl else readySlot k (launchOf t p.2) sl v (scaleTile s c a sc p.1))) s
  | _ => s

/-- TILE_ROW_COMPLETE: the next row of TLDG, TSTG or MLOADB on every member (R192). -/
def execTileRowComplete (c : Nat) (s : State) : Host.Outcome State Fault Refusal :=
  let k := getCore s c
  let x := k.ctx
  match curUnit x with
  | none => done s
  | some u =>
    if !tileLive k || !x.run.begun || x.run.waitLeave || !isRowUnit u.instr then done s
    else if bandHolds s c || unitWaits s c u then done (push s (.tileRowComplete c))
    else
      let v := runValue x u
      let i := x.run.row
      match deadMember s c u with
      | some m => done (raiseTileTrap s c u causeTileAccess (2 + m * 256) 0 (stopRow u i))
      | none =>
        match rowOnAll s c u v i (unitMembers s c u) with
        | (.wait, _) => done (push s (.tileRowComplete c))
        | (.fault kind addr, m) => done (raiseTileTrap s c u causeTileAccess (kind + m * 256) addr i)
        | (.ok t, _) =>
          let t := modCtx t c (fun y => { y with run := { y.run with row := i + 1 } })
          if bandRows t c u ≤ i + 1 then done (completeUnit (closeSlots t c u v) c) else done (push t (.tileRowComplete c))

/-! ### Trap entry and resumption of the tile stream (R189, R193, R538) -/

/-- The mismatch count of a physical core rises; at 4 in a window the Foreman kills the core (R545, R568). -/
def countMismatch (s : State) (c : Nat) : State :=
  let n := tabGet 0 s.mismatches (physCore s c) + 1
  let t := { s with mismatches := tabSet s.mismatches (physCore s c) n }
  if n = 4 then push t (.coreKill c) else t

/-- The context after a TWAIT's or a GSYNC's wait for the tile stream; a GSYNC outside a gang reports NOGANG (R206, R374). -/
def endTileWait (x : Ctx) : Ctx :=
  match x.wait with
  | .tileIdle d => setStatus { x with wait := .none } d (taskStatus 9)
  | _ => x

/-- The tile stream's pending trap is taken at the boundary before the unit in progress, on the confirmed path (R72, R131, R189,
R540). -/
def takeTileTrap (s : State) (c : Nat) (t : TileTrap) : State :=
  let u := modCtx (if t.code = causeMmaMismatch then countMismatch s c else s) c endTileWait
  takeTrap u c { code := t.code, param := t.param, tile := true, epc := unitPc (getCtx s c), faultpc := t.upc, faultaddr := t.addr }

/-- TRAP_ENTRY: a pending tile-stream trap is taken (R538). -/
def execTrapEntry (c : Nat) (s : State) : Host.Outcome State Fault Refusal :=
  let k := getCore s c
  match k.ctx.tileTrap with
  | none => done s
  | some t => if k.state = .running ∧ k.ctx.gens = [] then done (takeTileTrap s c t) else done s

/-- The rows of a band that a resumed instruction draws again without writing (R193). -/
def skipBand (s : State) (c : Nat) (u : TileUnit) (row : Nat) : State :=
  if modeRnd u.xmod = .stoch then
    let x := getCtx s c
    let b := match accExtent u.instr with
      | some (d, _) => tileOr x d
      | none => operandTile x u.instr (match u.instr with | .ttopk _ _ _ _ => 2 | _ => 0)
    modSys s c (fun y => { y with rseed := (List.range (row % 8)).foldl (fun seed i => skipRow b seed (row / 8 * 8 + i)) y.rseed })
  else s

/-- Whether the tile stream stands stopped inside a tile instruction: by a trap of its own, a kill or a pre-emption, or by a trap's
hold (R191). -/
def stoppedUnit (x : Ctx) : Bool := x.run.begun && (x.run.stopped || !runningOut x)

/-- The state with the event that carries the unit at the head of the sequencer on. -/
def wakeTile (s : State) (c : Nat) : State :=
  let x := getCtx s c
  match curUnit x with
  | none => s
  | some u => push s (if x.run.begun && !x.run.waitLeave then progressEvent u.instr c else .tileUnitBegin c)

/-- The tile stream resumes: a stopped instruction at row %xstep, with its band's generator state, and with its leave drawn again
where it was returned (R193, R281). One that runs on is not touched. -/
def resumeTile (s : State) (c : Nat) : State :=
  let x := getCtx s c
  match curUnit x with
  | none => s
  | some u =>
    if stoppedUnit x then
      let row := x.sys.xstep.toNat
      let t := if row % 8 = 0 then s else skipBand (restoreSeeds s c u) c u row
      let t := modCtx t c (fun y => { y with run := { y.run with row := row, stopped := false }, sys := { y.sys with xstep := 0 } })
      wakeTile t c
    else wakeTile s c

/-! ### Dispatch of the tile instructions (R62, R130) -/

/-- A tile instruction that accepts RND and SATM (R130). -/
def dispatchRnd (s : State) (i : Instr) : Host.Outcome State Fault Refusal := dispatchTile s i { tileSpec i with rnd := true }

/-- A tile instruction that accepts no prefix. -/
def dispatchPlain (s : State) (i : Instr) : Host.Outcome State Fault Refusal := dispatchTile s i (tileSpec i)

/-- A matrix instruction, which accepts DUP (R130). -/
def dispatchDup (s : State) (i : Instr) : Host.Outcome State Fault Refusal := dispatchTile s i { tileSpec i with dup := true }

/-- TADD at dispatch (R217). -/
def execTadd (d : BitVec 4) (a : BitVec 4) (b : BitVec 4) (n : BitVec 2) (s : State) : Host.Outcome State Fault Refusal :=
  dispatchRnd s (.tadd d a b n)

/-- TSUB at dispatch (R217). -/
def execTsub (d : BitVec 4) (a : BitVec 4) (b : BitVec 4) (n : BitVec 2) (s : State) : Host.Outcome State Fault Refusal :=
  dispatchRnd s (.tsub d a b n)

/-- TMUL at dispatch (R217). -/
def execTmul (d : BitVec 4) (a : BitVec 4) (b : BitVec 4) (n : BitVec 2) (s : State) : Host.Outcome State Fault Refusal :=
  dispatchRnd s (.tmul d a b n)

/-- TMIN at dispatch (R217). -/
def execTmin (d : BitVec 4) (a : BitVec 4) (b : BitVec 4) (n : BitVec 2) (s : State) : Host.Outcome State Fault Refusal :=
  dispatchRnd s (.tmin d a b n)

/-- TMAX at dispatch (R217). -/
def execTmax (d : BitVec 4) (a : BitVec 4) (b : BitVec 4) (n : BitVec 2) (s : State) : Host.Outcome State Fault Refusal :=
  dispatchRnd s (.tmax d a b n)

/-- TAND at dispatch (R218). -/
def execTand (d : BitVec 4) (a : BitVec 4) (b : BitVec 4) (n : BitVec 2) (s : State) : Host.Outcome State Fault Refusal :=
  dispatchRnd s (.tand d a b n)

/-- TOR at dispatch (R218). -/
def execTor (d : BitVec 4) (a : BitVec 4) (b : BitVec 4) (n : BitVec 2) (s : State) : Host.Outcome State Fault Refusal :=
  dispatchRnd s (.tor d a b n)

/-- TXOR at dispatch (R218). -/
def execTxor (d : BitVec 4) (a : BitVec 4) (b : BitVec 4) (n : BitVec 2) (s : State) : Host.Outcome State Fault Refusal :=
  dispatchRnd s (.txor d a b n)

/-- TSHL at dispatch (R219). -/
def execTshl (d : BitVec 4) (a : BitVec 4) (b : BitVec 4) (n : BitVec 2) (s : State) : Host.Outcome State Fault Refusal :=
  dispatchRnd s (.tshl d a b n)

/-- TSHR at dispatch (R219). -/
def execTshr (d : BitVec 4) (a : BitVec 4) (b : BitVec 4) (n : BitVec 2) (s : State) : Host.Outcome State Fault Refusal :=
  dispatchRnd s (.tshr d a b n)

/-- TCMP at dispatch (R220). -/
def execTcmp (d : BitVec 4) (a : BitVec 4) (b : BitVec 4) (n : BitVec 2) (c : BitVec 3) (s : State) : Host.Outcome State Fault Refusal :=
  dispatchRnd s (.tcmp d a b n c)

/-- TNEG at dispatch (R222). -/
def execTneg (d : BitVec 4) (a : BitVec 4) (s : State) : Host.Outcome State Fault Refusal :=
  dispatchRnd s (.tneg d a)

/-- TABS at dispatch (R222). -/
def execTabs (d : BitVec 4) (a : BitVec 4) (s : State) : Host.Outcome State Fault Refusal :=
  dispatchRnd s (.tabs d a)

/-- TEXP2 at dispatch (R222). -/
def execTexp2 (d : BitVec 4) (a : BitVec 4) (s : State) : Host.Outcome State Fault Refusal :=
  dispatchRnd s (.texp2 d a)

/-- TLOG2 at dispatch (R222). -/
def execTlog2 (d : BitVec 4) (a : BitVec 4) (s : State) : Host.Outcome State Fault Refusal :=
  dispatchRnd s (.tlog2 d a)

/-- TRCP at dispatch (R222). -/
def execTrcp (d : BitVec 4) (a : BitVec 4) (s : State) : Host.Outcome State Fault Refusal :=
  dispatchRnd s (.trcp d a)

/-- TRSQRT at dispatch (R222). -/
def execTrsqrt (d : BitVec 4) (a : BitVec 4) (s : State) : Host.Outcome State Fault Refusal :=
  dispatchRnd s (.trsqrt d a)

/-- TSQRT at dispatch (R222). -/
def execTsqrt (d : BitVec 4) (a : BitVec 4) (s : State) : Host.Outcome State Fault Refusal :=
  dispatchRnd s (.tsqrt d a)

/-- TTANH at dispatch (R222). -/
def execTtanh (d : BitVec 4) (a : BitVec 4) (s : State) : Host.Outcome State Fault Refusal :=
  dispatchRnd s (.ttanh d a)

/-- TCVT at dispatch (R222). -/
def execTcvt (d : BitVec 4) (a : BitVec 4) (s : State) : Host.Outcome State Fault Refusal :=
  dispatchRnd s (.tcvt d a)

/-- TROUND at dispatch (R223). -/
def execTround (d : BitVec 4) (a : BitVec 4) (s : State) : Host.Outcome State Fault Refusal :=
  dispatchRnd s (.tround d a)

/-- TRSUM at dispatch (R225). -/
def execTrsum (d : BitVec 4) (a : BitVec 4) (s : State) : Host.Outcome State Fault Refusal :=
  dispatchRnd s (.trsum d a)

/-- TCSUM at dispatch (R225). -/
def execTcsum (d : BitVec 4) (a : BitVec 4) (s : State) : Host.Outcome State Fault Refusal :=
  dispatchRnd s (.tcsum d a)

/-- TRMAX at dispatch (R225). -/
def execTrmax (d : BitVec 4) (a : BitVec 4) (s : State) : Host.Outcome State Fault Refusal :=
  dispatchRnd s (.trmax d a)

/-- TCMAX at dispatch (R225). -/
def execTcmax (d : BitVec 4) (a : BitVec 4) (s : State) : Host.Outcome State Fault Refusal :=
  dispatchRnd s (.tcmax d a)

/-- TSCAN at dispatch (R226). -/
def execTscan (d : BitVec 4) (a : BitVec 4) (sv : BitVec 1) (s : State) : Host.Outcome State Fault Refusal :=
  dispatchRnd s (.tscan d a sv)

/-- TTOPK at dispatch (R228). -/
def execTtopk (d : BitVec 4) (a : BitVec 4) (b : BitVec 4) (k : BitVec 3) (s : State) : Host.Outcome State Fault Refusal :=
  dispatchRnd s (.ttopk d a b k)

/-- THIST at dispatch (R230). -/
def execThist (d : BitVec 4) (a : BitVec 4) (s : State) : Host.Outcome State Fault Refusal :=
  dispatchRnd s (.thist d a)

/-- TARGMAX at dispatch (R229). -/
def execTargmax (d : BitVec 4) (a : BitVec 4) (s : State) : Host.Outcome State Fault Refusal :=
  dispatchRnd s (.targmax d a)

/-- TFMA at dispatch (R232). -/
def execTfma (d : BitVec 4) (a : BitVec 4) (b : BitVec 4) (c : BitVec 4) (n : BitVec 2) (s : State) : Host.Outcome State Fault Refusal :=
  dispatchRnd s (.tfma d a b c n)

/-- TSEL at dispatch (R233). -/
def execTsel (d : BitVec 4) (a : BitVec 4) (b : BitVec 4) (c : BitVec 4) (n : BitVec 2) (s : State) : Host.Outcome State Fault Refusal :=
  dispatchRnd s (.tsel d a b c n)

/-- TSCALE at dispatch (R234). -/
def execTscale (d : BitVec 4) (a : BitVec 4) (g : BitVec 5) (q : BitVec 1) (s : State) : Host.Outcome State Fault Refusal :=
  dispatchRnd s (.tscale d a g q)

/-- TCOPY at dispatch (R197). -/
def execTcopy (d : BitVec 4) (a : BitVec 4) (n : BitVec 2) (s : State) : Host.Outcome State Fault Refusal :=
  dispatchRnd s (.tcopy d a n)

/-- TBCAST at dispatch (R197). -/
def execTbcast (d : BitVec 4) (a : BitVec 4) (sv : BitVec 3) (s : State) : Host.Outcome State Fault Refusal :=
  dispatchRnd s (.tbcast d a sv)

/-- TSET at dispatch (R198). -/
def execTset (d : BitVec 4) (g : BitVec 5) (q : BitVec 1) (v : BitVec 1) (s : State) : Host.Outcome State Fault Refusal :=
  dispatchRnd s (.tset d g q v)

/-- TROWG at dispatch (R199). -/
def execTrowg (d : BitVec 4) (a : BitVec 4) (b : BitVec 4) (s : State) : Host.Outcome State Fault Refusal :=
  dispatchRnd s (.trowg d a b)

/-- TPACK at dispatch (R201). -/
def execTpack (d : BitVec 4) (a : BitVec 4) (b : BitVec 4) (sv : BitVec 3) (s : State) : Host.Outcome State Fault Refusal :=
  dispatchRnd s (.tpack d a b sv)

/-- ADRAIN at dispatch (R292). -/
def execAdrain (d : BitVec 4) (a : BitVec 4) (g : BitVec 5) (q : BitVec 1) (c : BitVec 1) (r : BitVec 1) (s : State) : Host.Outcome State Fault Refusal :=
  dispatchRnd s (.adrain d a g q c r)

/-- ASCALE at dispatch (R292). -/
def execAscale (d : BitVec 4) (a : BitVec 4) (g : BitVec 5) (q : BitVec 1) (c : BitVec 1) (r : BitVec 1) (s : State) : Host.Outcome State Fault Refusal :=
  dispatchRnd s (.ascale d a g q c r)

/-- AMOVOUT at dispatch (R292). -/
def execAmovout (d : BitVec 4) (g : BitVec 5) (q : BitVec 1) (s : State) : Host.Outcome State Fault Refusal :=
  dispatchRnd s (.amovout d g q)

/-- MMA at dispatch (R289). -/
def execMma (a : BitVec 4) (g : BitVec 5) (q : BitVec 1) (sv : BitVec 1) (l : BitVec 2) (s : State) : Host.Outcome State Fault Refusal :=
  dispatchDup s (.mma a g q sv l)

/-- MMAG at dispatch (R288). -/
def execMmag (d : BitVec 4) (a : BitVec 4) (g : BitVec 5) (q : BitVec 1) (n : BitVec 3) (sv : BitVec 1) (l : BitVec 2) (s : State) : Host.Outcome State Fault Refusal :=
  dispatchDup s (.mmag d a g q n sv l)

/-- MMAL at dispatch (R289). -/
def execMmal (a : BitVec 4) (g : BitVec 5) (q : BitVec 1) (sv : BitVec 1) (l : BitVec 2) (s : State) : Host.Outcome State Fault Refusal :=
  dispatchDup s (.mmal a g q sv l)

/-- TBIND at dispatch (R195). -/
def execTbind (d : BitVec 4) (g : BitVec 5) (q : BitVec 1) (f : BitVec 4) (s : State) : Host.Outcome State Fault Refusal :=
  dispatchPlain s (.tbind d g q f)

/-- TSHAPE at dispatch (R195). -/
def execTshape (d : BitVec 4) (g : BitVec 5) (q : BitVec 1) (s : State) : Host.Outcome State Fault Refusal :=
  dispatchPlain s (.tshape d g q)

/-- TVALID at dispatch (R195). -/
def execTvalid (d : BitVec 4) (g : BitVec 5) (q : BitVec 1) (s : State) : Host.Outcome State Fault Refusal :=
  dispatchPlain s (.tvalid d g q)

/-- TFILL at dispatch (R195). -/
def execTfill (d : BitVec 4) (f : BitVec 2) (s : State) : Host.Outcome State Fault Refusal :=
  dispatchPlain s (.tfill d f)

/-- TGET at dispatch (R196). -/
def execTget (a : BitVec 4) (n : BitVec 2) (f : BitVec 3) (s : State) : Host.Outcome State Fault Refusal :=
  dispatchPlain s (.tget a n f)

/-- TTRANS at dispatch (R197). -/
def execTtrans (d : BitVec 4) (a : BitVec 4) (s : State) : Host.Outcome State Fault Refusal :=
  dispatchPlain s (.ttrans d a)

/-- TLDG at dispatch (R202). -/
def execTldg (d : BitVec 4) (g : BitVec 5) (q : BitVec 1) (s : State) : Host.Outcome State Fault Refusal :=
  dispatchPlain s (.tldg d g q)

/-- TSTG at dispatch (R202). -/
def execTstg (d : BitVec 4) (g : BitVec 5) (q : BitVec 1) (s : State) : Host.Outcome State Fault Refusal :=
  dispatchPlain s (.tstg d g q)

/-- TSHIFT at dispatch (R200). -/
def execTshift (d : BitVec 4) (a : BitVec 4) (g : BitVec 5) (q : BitVec 1) (c : BitVec 1) (s : State) : Host.Outcome State Fault Refusal :=
  dispatchPlain s (.tshift d a g q c)

/-- MLOADB at dispatch (R284). -/
def execMloadb (a : BitVec 4) (g : BitVec 5) (q : BitVec 1) (sv : BitVec 1) (f : BitVec 4) (l : BitVec 2) (s : State) : Host.Outcome State Fault Refusal :=
  dispatchPlain s (.mloadb a g q sv f l)

/-- MFREE at dispatch (R285). -/
def execMfree (a : BitVec 1) (sv : BitVec 2) (s : State) : Host.Outcome State Fault Refusal :=
  dispatchPlain s (.mfree a sv)

/-- AZERO at dispatch (R292). -/
def execAzero (d : BitVec 4) (g : BitVec 5) (q : BitVec 1) (s : State) : Host.Outcome State Fault Refusal :=
  dispatchPlain s (.azero d g q)

/-- AMOVIN at dispatch (R292). -/
def execAmovin (a : BitVec 4) (g : BitVec 5) (q : BitVec 1) (s : State) : Host.Outcome State Fault Refusal :=
  dispatchPlain s (.amovin a g q)

end Sys2Proof.Machine
end

