-- ==== Sys2Proof/Machine/Mem.lean ====
section
/-! DEFINITION. Scalar accesses: LD, ST, the atomics, FENCE and DRAIN, with the way of an access through its station, its home
slice or its target core and back (R251-R271, R315-R322, R407-R410, R513, R514, R542). -/

namespace Sys2Proof.Machine

/-! ### Accesses in flight -/

/-- The access of a name. -/
def findAcc (s : State) (n : Nat) : Option Access := s.accs.find? (fun a => a.id == n)

/-- The state without an access. -/
def dropAcc (s : State) (n : Nat) : State := { s with accs := s.accs.filter (fun a => a.id != n) }

/-- The block that answers an access at its present stage, where it is one that latches for a cut (R580). -/
def answerer (a : Access) : Option SnapBlock :=
  match a.stage with
  | .home pa => some (.slice (sliceOf pa))
  | .helper h _ => some (.slice h)
  | .sent =>
    (match placeOf a.core a.addr with
     | .peer t _ => some (.core t)
     | _ => none)
  | _ => none

/-- The state with an access at another stage. -/
def stageAcc (s : State) (n : Nat) (st : AccStage) : State :=
  { s with accs := s.accs.map (fun a =>
      if a.id = n then { a with stage := st, sender := (answerer a).map (fun b => (b, s.nextId)) } else a) }

/-- The endpoint of an access, once it is known (R321): a target core, a home slice or a connection. -/
def accEnd (a : Access) : Option (Nat × Nat) := (accPlace a).map placeEnd

/-- Whether two accesses name a byte in common, by their addresses or by the places they have been translated to (R314). -/
def accsMeet (a b : Access) : Bool :=
  meets a.addr.toNat a.size b.addr.toNat b.size ||
    (match accPlace a, accPlace b with
     | some x, some y => placesMeet [(x, a.size)] [(y, b.size)]
     | _, _ => false)

/-- Whether an access must wait for an earlier one of its core: an access to a byte in common (R317), or a write of the same
flow where it is a write itself (R321). -/
def accFollows (a r : Access) : Bool :=
  r.core == a.core && decide (r.id < a.id) && !accSettled r &&
    (accsMeet a r || (!accLoad a && !accLoad r && (accEnd a).isSome && accEnd a == accEnd r))

/-- Whether a write to a remote-window connection must wait for an earlier write of its core that may go to the same connection and
still stands at a station, at whatever port (R321, R332, R405). -/
def windowFollows (s : State) (a r : Access) : Bool :=
  match accEnd a with
  | some (5000, conn) => r.core == a.core && decide (r.id < a.id) && !accSettled r && !accLoad a && mayReach s r conn
  | _ => false

/-- Whether some earlier access holds an access back. -/
def accBlocked (s : State) (a : Access) : Bool := s.accs.any (fun r => accFollows a r || windowFollows s a r)

/-! ### Failures (R252, R269) -/

/-- Whether an activation still stands somewhere: live, pre-empted or in a saved image. -/
def hasAct (s : State) (c serial : Nat) : Bool :=
  (coreUpdAct (getCore s c) serial id).isSome ||
    s.parts.any (fun p => p.2.saved.any (fun d => d.1 == c && (coreUpdAct d.2 serial id).isSome))

/-- The tally with one more failed store. -/
def tallyFail (lost : Bool) (t : Tally) : Tally :=
  { fails := t.fails + 1, refused := t.refused || !lost, lost := t.lost || lost }

/-- The generation of a context's task. -/
def genOf (x : Ctx) : Nat := (nameGen x.sys.tid).toNat

/-- The state after a store has failed: it counts for the next FENCE of its task, or, where that has ended, as an error
event of the core (R252, R269). -/
def failStore (s : State) (c gen : Nat) (lost : Bool) : State :=
  let t := if lost then s else count s (.refusedStores c) 1
  if (getCore t c).live.any (fun e => e.gen == gen) then
    modCore t c (fun k => { k with live := k.live.map (fun e => if e.gen = gen then { e with tally := tallyFail lost e.tally } else e) })
  else count (modCore t c (fun k => { k with storeErr := true })) (.lateStores c) 1

/-- The state after an access has failed: a store leaves it, the others answer (R252). -/
def failAcc (s : State) (a : Access) (kind : Nat) (addr : Word) : State :=
  match a.kind with
  | .store => failStore (dropAcc s a.id) a.core a.gen (kind == 3)
  | _ => push (stageAcc s a.id (.failed kind addr)) (.loadResponse a.id)

/-! ### What fences and acquires hold back (R268, R322) -/

/-- Whether a unit of the tile stream reads or writes memory. -/
def unitAccesses (u : TileUnit) : Bool :=
  !(unitReads u.instr).isEmpty || !(unitWrites u.instr).isEmpty || isRowUnit u.instr

/-- Whether a fence waits for units that a trap's hold keeps back: it then holds nothing of the trap's routine back, at whose end the
units go on (R86, R189, log 88). -/
def fenceStuck (x : Ctx) (f : Fence) : Bool :=
  x.heldStream && !f.held && f.rel && !runningOut x && (queuedUnits x).any (fun u => decide (u.id < f.id) && unitAccesses u)

/-- Whether a later load waits at issue. -/
def holdsLoads (x : Ctx) : Bool := x.fences.any (fun f => f.acq && !fenceStuck x f) || !x.acqs.isEmpty

/-- Whether a later store, atomic or engine operation waits at issue. -/
def holdsStores (x : Ctx) : Bool := x.fences.any (fun f => !fenceStuck x f) || !x.acqs.isEmpty

/-- Whether the location of an access lies in the reach of a scope of a party on core `c`: 0 core, 1 cluster, 2 die, 3 module, 4 system
(R315). Two cores are on one die where the core map binds them to one physical die; the die field of the logical identifiers is not
asked (DEDUCED, log 49). -/
def inReach (s : State) (c : Nat) (a : Access) (scope : Nat) : Bool :=
  match placeOf a.core a.addr with
  | .peer t _ =>
    if scope = 0 then t == c else if scope = 1 then t / 16 == c / 16 else if scope = 2 then dieOf s t == dieOf s c else true
  | _ =>
    match a.stage with
    | .window _ => decide (4 ≤ scope)
    | _ => decide (3 ≤ scope)

/-- Whether an access is a write that a release of core `r.1` at moment `r.2` has left unperformed (R316, R322). -/
def leftBy (r : Nat × Nat) (a : Access) : Bool := a.core == r.1 && decide (a.id < r.2) && !accLoad a && !accSettled a

/-- The state after a release of a core at a scope and a moment: one below module scope is listed where it leaves writes
unperformed. -/
def releasedAt (s : State) (c scope moment : Nat) : State :=
  let live (r : Nat × Nat) : Bool := s.accs.any (leftBy r)
  if scope < 3 then { s with carried := s.carried.filter live ++ [(c, moment)].filter live } else s

/-- Whether every write of other parties, earlier activations of the core among them, that may happen before a release of core `c` at a
moment is performed at a scope: each that an earlier release at a narrower scope has left, and at system scope every one on its way to a
remote window (R322, log 50). -/
def carriedReady (s : State) (c scope moment : Nat) : Bool :=
  s.accs.all (fun a => !inReach s c a scope || decide (moment ≤ a.id) || accLoad a || accSettled a ||
    (!s.carried.any (fun r => decide (r.2 ≤ moment) && leftBy r a) &&
      (match a.stage with
       | .window _ => false
       | _ => true)))

/-- Whether every access of a task before `before` has been performed at a scope, with every write that may happen before (R316,
R268, R322). -/
def releaseReady (s : State) (c gen : Nat) (x : Ctx) (scope before : Nat) : Bool :=
  s.accs.all (fun a => a.core != c || a.gen != gen || decide (before ≤ a.id) || accSettled a || !inReach s c a scope) &&
    (pendingUnits x).all (fun u => decide (before ≤ u.id) || !unitAccesses u) && carriedReady s c scope before

/-- Whether every load and atomic of a task before `before` has returned its value (R268). -/
def acquireReady (s : State) (c gen before : Nat) : Bool :=
  s.accs.all (fun a => a.core != c || a.gen != gen || decide (before ≤ a.id) || a.kind == .store)

/-- The context of an activation on a core: live or pre-empted. -/
def actCtx (k : Core) (serial : Nat) : Option Ctx :=
  if runsSerial k.ctx serial then some k.ctx
  else
    match k.susp with
    | some x => if runsSerial x serial then some x else none
    | none => none

/-- Whether an access in flight may take its release effect (R322). -/
def accReleased (s : State) (a : Access) (scope : Nat) : Bool :=
  match actCtx (getCore s a.core) a.serial with
  | some x => releaseReady s a.core a.gen x scope a.id
  | none =>
    s.accs.all (fun r => r.core != a.core || r.gen != a.gen || decide (a.id ≤ r.id) || accSettled r || !inReach s a.core r scope) &&
      carriedReady s a.core scope a.id

/-! ### Issue -/

/-- The requests of a core in flight at most (R25, R265). -/
def accLimit : Nat := 48

/-- Whether a core's 48 requests are all in flight. -/
def accFull (s : State) (c : Nat) : Bool := decide (accLimit ≤ (s.accs.filter (fun a => a.core == c)).length)

/-- The redirect entry that a read may use (R264, R517). -/
def findRedirect (s : State) (c : Nat) (va : Nat) : Option Redirect :=
  s.redirects.find? (fun r => r.ni == c && r.ctx == ctxOf s c && r.vline == va / 256)

/-- The stage at which an access leaves its interface, and the event that carries it on. -/
def firstHop (s : State) (c : Nat) (load : Bool) (a : Word) (n : Nat) : AccStage × Event :=
  match placeOf c a with
  | .peer _ _ => (.sent, .peerAccessArrive n)
  | .virt va =>
    match (if load then findRedirect s c va else none) with
    | some r => (.helper r.helper (r.line * 256 + va % 256), .helperRead n)
    | none => (.sent, .stationTranslate n)
  | _ => (.sent, .stationTranslate n)

/-- The entry generation that a request to an address carries (R508). -/
def egenOf (s : State) (c : Nat) (a : Word) : Nat :=
  match placeOf c a with
  | .peer t _ => (sentEgen s c t).toNat
  | _ => 0

/-- The state with an access sent, named `s.nextId`. -/
def sendAcc (s : State) (c : Nat) (kind : AccKind) (a : Word) (size : Nat) (data : List Byte) : State :=
  let load := match kind with
    | .load _ _ _ => true
    | _ => false
  let hop := firstHop s c load a s.nextId
  let acc : Access :=
    { id := s.nextId, core := c, serial := serialOf (getCtx s c), gen := genOf (getCtx s c), kind := kind, addr := a, size := size, data := data,
      egen := egenOf s c a, stage := hop.1, sender := none }
  push (bumpId { s with accs := s.accs ++ [acc] }) hop.2

/-- A trap that an instruction raises by itself; ahead of a branch it is held (R174, R176). -/
def heldTrap (s : State) (i : Issued) (code param : Nat) (addr : Word) : Option State :=
  if i.gen.isSome then none else some (trapFrom s i code param addr)

/-- Where a scalar access goes: to the own scratchpad, to the supervisor area, onto the network, or nowhere with a fault kind
(R251, R252, R542). -/
inductive Route where
  | own (off : Nat)
  | sup (off : Nat)
  | net
  | bad (kind : Nat)
  deriving DecidableEq, Repr

/-- The route of an aligned access. -/
def routeOf (s : State) (c : Nat) (plain : Bool) (a : Word) : Route :=
  match placeOf c a with
  | .spad off =>
    if off < spadSize then .own off
    else if plain ∧ (getCtx s c).sys.sup = true ∧ 0xFF000 ≤ off ∧ a.toNat / 2 ^ 60 = 0 then .sup (off - 0xFF000) else .bad 1
  | .peer t off =>
    match reachKind s c t with
    | some k => .bad k
    | none => if off < spadSize then .net else .bad 1
  | .virt _ => .net
  | .none => .bad 1

/-- The poison record of a failed load (R155, R543). -/
def poisonOf (x : Ctx) (upc : Word) (a : Word) (kind : Nat) : Poison :=
  { ldPc := if x.sys.sup then x.sys.faultpc else upc, addr := a, kind := kind }

/-- The context with a load staged where the core runs ahead (R67, R174). -/
def stageLoad (x : Ctx) (g : Option Nat) (n : Nat) : Ctx :=
  match g with
  | some g => { x with staging := x.staging ++ [{ load := n, gen := g, value := none }] }
  | none => x

/-- The state with a load performed at issue; ahead of a branch it takes a staging-buffer entry, which has its value (R67, R174). -/
def loadNow (t : State) (i : Issued) (put : Ctx → Ctx) (v : Option Word) : State :=
  match i.gen with
  | none => modCtx t i.core put
  | some g =>
    bumpId (modCtx t i.core (fun x => put { x with staging := x.staging ++ [{ load := t.nextId, gen := g, value := v }] }))

/-- The effect of a load at issue (R265). -/
def loadBody (d a : BitVec 5) (m : BitVec 3) (o : BitVec 8) (i : Issued) (t : State) : Option State :=
  let c := i.core
  let x := getCtx t c
  let addr := regVal x a + memOffset i.ximm m o
  let n := modeBytes m
  if addr.toNat % n ≠ 0 then heldTrap t i causeMisalign 0 addr
  else if holdsLoads x || (i.gen.isSome && decide (16 ≤ x.staging.length)) then none
  else
    match routeOf t c true addr with
    | .own off =>
      if localBusy t c off n false then none
      else
        let v := extendBytes (spadRead t c off n) (modeSigned m)
        some (loadNow t i (fun y => setReg y d v) (some v))
    | .sup off =>
      let v := extendBytes (memRead (getCore t c).supArea off n) (modeSigned m)
      some (loadNow t i (fun y => setReg y d v) (some v))
    | .bad kind => some (loadNow t i (fun y => poisonReg y d (poisonOf x i.upc addr kind)) none)
    | .net =>
      if accFull t c || tileMemBusy t c addr.toNat n false then none
      else
        let y := stageLoad (markReg x d (.load t.nextId)) i.gen t.nextId
        some (sendAcc (setCtx t c y) c (.load d (modeSigned m) (poisonOf x i.upc addr 0).ldPc) addr n [])

/-- LD (R265). -/
def execLd (d a : BitVec 5) (m : BitVec 3) (o : BitVec 8) (s : State) : Host.Outcome State Fault Refusal :=
  issue s { plainSpec [a] [d] with ahead := true, imm := true } (loadBody d a m o)

/-- The state with the commit latch set for an access outside the core (R564). -/
def latchCommit (s : State) (c : Nat) (a : Word) : State := if leavesCore c a then modCtx s c setCommit else s

/-- ST (R266): at once in the own scratchpad, posted otherwise; a dual copy stores nowhere else (R557). -/
def execSt (a b : BitVec 5) (m : BitVec 3) (o : BitVec 8) (s : State) : Host.Outcome State Fault Refusal :=
  issue s { plainSpec [a, b] [] with imm := true } (fun i t =>
    let c := i.core
    let x := getCtx t c
    let addr := regVal x a + memOffset i.ximm m o
    let n := modeBytes m
    let bs := leBytes n ((regVal x b).toNat % 2 ^ (8 * n))
    if addr.toNat % n ≠ 0 then heldTrap t i causeMisalign 0 addr
    else if holdsStores x then none
    else
      match routeOf t c true addr with
      | .own off => if localBusy t c off n true then none else some (spadWrite t c off bs)
      | .sup off => some (modCore t c (fun k => { k with supArea := memWrite k.supArea off bs }))
      | .bad _ => some (failStore (latchCommit t c addr) c (genOf x) false)
      | .net =>
        if x.sys.dual then some (failStore (latchCommit t c addr) c (genOf x) false)
        else if accFull t c || tileMemBusy t c addr.toNat n true then none
        else some (sendAcc (latchCommit t c addr) c .store addr n bs))

/-! ### Atomics (R267) -/

/-- The bytes that an atomic writes (R267). -/
def atomNew (op n old x expected : Nat) : Nat :=
  let m := 2 ^ (8 * n)
  let so := sextNat (8 * n) old
  let sx := sextNat (8 * n) x
  if op = 0 then (old + x) % m
  else if op = 1 then (if sx < so then x else old)
  else if op = 2 then (if so < sx then x else old)
  else if op = 3 then old &&& x
  else if op = 4 then old ||| x
  else if op = 5 then old ^^^ x
  else if op = 6 then x
  else if old = expected then x
  else old

/-- The old bytes as the register receives them (R267). -/
def atomOld (bs : List Byte) : Word := extendBytes bs true

/-- What an atomic writes over old bytes. -/
def atomBytes (op : Nat) (old : List Byte) (x expected : Word) : List Byte :=
  let n := old.length
  leBytes n (atomNew op n (leNat old) (x.toNat % 2 ^ (8 * n)) (expected.toNat % 2 ^ (8 * n)))

/-- The order field of an atomic or a fence: whether it acquires, and whether it releases (R267, R268). -/
def orderAcq (o : BitVec 2) : Bool := o.getLsbD 0

/-- Whether an order releases. -/
def orderRel (o : BitVec 2) : Bool := o.getLsbD 1

/-- The effect of an atomic at issue: at once on the own scratchpad, sent otherwise; refused to a dual copy elsewhere (R557). -/
def atomBody (op : Nat) (d a b : BitVec 5) (scope : BitVec 3) (size : BitVec 1) (order : BitVec 2) (i : Issued) (t : State) :
    Option State :=
  let c := i.core
  let x := getCtx t c
  let addr := regVal x a
  let n := if size = 1 then 8 else 4
  if addr.toNat % n ≠ 0 then heldTrap t i causeMisalign 0 addr
  else if holdsStores x then none
  else
    let poison (kind : Nat) : State :=
      modCtx (latchCommit t c addr) c (fun y => poisonReg y d (poisonOf x i.upc addr kind))
    match routeOf t c false addr with
    | .own off =>
      if localBusy t c off n true || (orderRel order && !releaseReady t c (genOf x) x scope.toNat t.nextId) then none
      else
        let old := spadRead t c off n
        let u := if orderRel order then releasedAt t c scope.toNat t.nextId else t
        some (modCtx (spadWrite u c off (atomBytes op old (regVal x b) (regVal x d))) c (fun y => setReg y d (atomOld old)))
    | .sup _ => some (poison 1)
    | .bad kind => some (poison kind)
    | .net =>
      if x.sys.dual then some (poison 1)
      else if accFull t c || tileMemBusy t c addr.toNat n true then none
      else
        let y := markReg x d (.op t.nextId)
        let y := if orderAcq order then { y with acqs := y.acqs ++ [t.nextId] } else y
        let kind : AccKind :=
          .atom op d (regVal x b) (regVal x d) (orderAcq order) (orderRel order) scope.toNat (poisonOf x i.upc addr 0).ldPc
        some (sendAcc (latchCommit (setCtx t c y) c addr) c kind addr n [])

/-- AMOADD (R267). -/
def execAmoadd (d a b : BitVec 5) (sc : BitVec 3) (z : BitVec 1) (o : BitVec 2) (s : State) : Host.Outcome State Fault Refusal :=
  issue s (plainSpec [a, b] [d]) (atomBody 0 d a b sc z o)

/-- AMOMIN (R267). -/
def execAmomin (d a b : BitVec 5) (sc : BitVec 3) (z : BitVec 1) (o : BitVec 2) (s : State) : Host.Outcome State Fault Refusal :=
  issue s (plainSpec [a, b] [d]) (atomBody 1 d a b sc z o)

/-- AMOMAX (R267). -/
def execAmomax (d a b : BitVec 5) (sc : BitVec 3) (z : BitVec 1) (o : BitVec 2) (s : State) : Host.Outcome State Fault Refusal :=
  issue s (plainSpec [a, b] [d]) (atomBody 2 d a b sc z o)

/-- AMOAND (R267). -/
def execAmoand (d a b : BitVec 5) (sc : BitVec 3) (z : BitVec 1) (o : BitVec 2) (s : State) : Host.Outcome State Fault Refusal :=
  issue s (plainSpec [a, b] [d]) (atomBody 3 d a b sc z o)

/-- AMOOR (R267). -/
def execAmoor (d a b : BitVec 5) (sc : BitVec 3) (z : BitVec 1) (o : BitVec 2) (s : State) : Host.Outcome State Fault Refusal :=
  issue s (plainSpec [a, b] [d]) (atomBody 4 d a b sc z o)

/-- AMOXOR (R267). -/
def execAmoxor (d a b : BitVec 5) (sc : BitVec 3) (z : BitVec 1) (o : BitVec 2) (s : State) : Host.Outcome State Fault Refusal :=
  issue s (plainSpec [a, b] [d]) (atomBody 5 d a b sc z o)

/-- AMOSWAP (R267). -/
def execAmoswap (d a b : BitVec 5) (sc : BitVec 3) (z : BitVec 1) (o : BitVec 2) (s : State) : Host.Outcome State Fault Refusal :=
  issue s (plainSpec [a, b] [d]) (atomBody 6 d a b sc z o)

/-- CAS: gd holds the expected value, so it is read as well (R267). -/
def execCas (d a b : BitVec 5) (sc : BitVec 3) (z : BitVec 1) (o : BitVec 2) (s : State) : Host.Outcome State Fault Refusal :=
  issue s (plainSpec [a, b, d] [d]) (atomBody 7 d a b sc z o)

/-! ### Stations (R258, R407-R410, R513, R514) -/

/-- What an access needs of its page (R513). -/
def accNeed (a : Access) : Need :=
  match a.kind with
  | .load _ _ _ => .read
  | .store => .write
  | _ => .both

/-- Whether an access may reach a remote window (R514). -/
def accWindowOk (a : Access) : Bool :=
  match a.kind with
  | .load _ _ _ => true
  | .store => true
  | .atom op _ _ _ _ _ _ _ => a.size == 8 && (op == 0 || op == 7)
  | _ => false

/-- The event that performs a translated access. -/
def performEvent (a : Access) (window : Bool) : Event :=
  match a.kind with
  | .load _ _ _ => if window then .loadResponse a.id else .sliceRead a.id
  | .store => .storePerform a.id
  | _ => .atomicPerform a.id

/-- The outcome of an access's walk. -/
def accWalk (s : State) (a : Access) : Walk :=
  walk s (portOf s a) (ctxOf s a.core) (a.addr.toNat % 2 ^ 48) (accNeed a) (accWindowOk a)

/-- The state with an access translated, and on its way to where it is performed. -/
def translated (s : State) (a : Access) (window : Bool) (pa : Nat) : State :=
  push (stageAcc s a.id (if window then .window pa else .home pa)) (performEvent a window)

/-- The depth of a fault queue (R407). -/
def faultDepth : Nat := 64

/-- The state with an access parked, or returned to its interface where the queue is full (R408, R410). -/
def parkAcc (s : State) (a : Access) (own : Bool) : State :=
  let port := portOf s a
  if faultDepth ≤ (s.fq.filter (fun e => e.port == port)).length then
    push (count (stageAcc s a.id (.held port)) (.returned port) 1) (.faultQueueRetry a.id)
  else
    count { stageAcc s a.id (.parked port) with fq := s.fq ++ [{ port := port, what := .access a.id, own := own }] } (.parks port) 1

/-- Whether an access of the same core is parked at the port of an access (R329, R408). -/
def parkedBefore (s : State) (a : Access) : Bool :=
  s.accs.any (fun r => r.core == a.core && decide (r.id < a.id) && r.stage == .parked (portOf s a))

/-- Whether an earlier access of the same core has not yet been translated at the port of an access (R321, R410). -/
def waitsAtPort (s : State) (a : Access) : Bool :=
  s.accs.any (fun r => r.core == a.core && decide (r.id < a.id) && accUntranslated r && portOf s r == portOf s a)

/-- STATION_TRANSLATE (R408, R513). -/
def execStationTranslate (n : Nat) (s : State) : Host.Outcome State Fault Refusal :=
  match findAcc s n with
  | none => done s
  | some a =>
    if !accUntranslated a then done s
    else if waitsAtPort s a then done (push s (.stationTranslate n))
    else if parkedBefore s a then done (parkAcc s a false)
    else
      match accWalk s a with
      | .page pa => done (translated s a false pa)
      | .window ra => done (translated s a true ra)
      | .fault => if a.kind = .store then done (parkAcc s a true) else done (failAcc s a 0 a.addr)
      | .refused => done (failAcc s a 1 a.addr)
      | .hold => done (push s (.stationTranslate n))

/-- FAULT_QUEUE_RETRY: the interface sends a returned request again (R410). -/
def execFaultQueueRetry (n : Nat) (s : State) : Host.Outcome State Fault Refusal :=
  match findAcc s n with
  | none => done s
  | some a =>
    match a.stage with
    | .held _ => done (push (stageAcc s n .sent) (.stationTranslate n))
    | _ => done s

/-! ### Cache slices (R260-R264) -/

/-- The interfaces and helpers that hold copies of a line: helpers by slice, interfaces of cores from 192 on. -/
def holdersOf (s : State) (line : Nat) : List Nat :=
  (s.replicas.filter (fun r => r.line == line)).map (·.helper) ++
    ((s.redirects.filter (fun r => r.line == line)).map (fun r => 192 + r.ni)).eraseDups

/-- The state with the copies of a line being invalidated; nothing where the line has none, so that a write may be performed
(REPLICA_INVALIDATE, R263). -/
def invalidateCopies (s : State) (line : Nat) : Option State :=
  let hs := holdersOf s line
  let v := getLine s line
  if !v.invalidating.isEmpty then some s
  else if hs.isEmpty then none
  else some (pushAll (setLine s line { v with invalidating := hs }) (hs.map (fun h => .replicaInvalidateAck line h)))

/-- REPLICA_INVALIDATE_ACK (R263). -/
def execReplicaInvalidateAck (line holder : Nat) (s : State) : Host.Outcome State Fault Refusal :=
  let v := getLine s line
  if !v.invalidating.contains holder then done s
  else
    let t := { s with
      replicas := s.replicas.filter (fun r => !(r.line == line && r.helper == holder)),
      redirects := s.redirects.filter (fun r => !(r.line == line && 192 + r.ni == holder)) }
    done (setLine t line { v with invalidating := v.invalidating.filter (fun h => h != holder) })

/-- STORE_PERFORM (R263, R266). -/
def execStorePerform (n : Nat) (s : State) : Host.Outcome State Fault Refusal :=
  match findAcc s n with
  | none => done s
  | some a =>
    if a.kind ≠ .store then done s
    else
      match a.stage with
      | .home pa =>
        if accBlocked s a then done (push s (.storePerform n))
        else
          match invalidateCopies s (lineOf pa) with
          | some t => done (push t (.storePerform n))
          | none => done (dropAcc (physWrite s pa a.data) n)
      | .window ra =>
        if accBlocked s a then done (push s (.storePerform n))
        else done (dropAcc { s with remote := memWrite s.remote ra a.data } n)
      | _ => done s

/-- ATOMIC_PERFORM at a home slice or a remote window: one step (R263, R267), after what its release waits for (R322). -/
def execAtomicPerform (n : Nat) (s : State) : Host.Outcome State Fault Refusal :=
  match findAcc s n with
  | none => done s
  | some a =>
    match a.kind with
    | .atom op _ x expected _ rel scope _ =>
      let reply (t : State) (old : List Byte) := push (stageAcc t n (.replied old)) (.loadResponse n)
      match a.stage with
      | .home pa =>
        if accBlocked s a || (rel && !accReleased s a scope) then done (push s (.atomicPerform n))
        else if sectorBad s pa a.size then done (failAcc s a 2 a.addr)
        else
          match invalidateCopies s (lineOf pa) with
          | some t => done (push t (.atomicPerform n))
          | none =>
            let old := physRead s pa a.size
            let u := if rel then releasedAt s a.core scope a.id else s
            done (reply (physWrite (fillRange u pa a.size) pa (atomBytes op old x expected)) old)
      | .window ra =>
        if accBlocked s a || (rel && !accReleased s a scope) then done (push s (.atomicPerform n))
        else
          let old := memRead s.remote ra a.size
          let u := if rel then releasedAt s a.core scope a.id else s
          done (reply { u with remote := memWrite s.remote ra (atomBytes op old x expected) } old)
      | _ => done s
    | _ => done s

/-- SECTOR_FILL (R260). -/
def execSectorFill (line sector : Nat) (s : State) : Host.Outcome State Fault Refusal :=
  if sector < 4 then done (fillSector s line sector) else done s

/-- The virtual line that an access names. -/
def vlineOf (a : Access) : Nat := a.addr.toNat % 2 ^ 48 / 256

/-- SLICE_READ: a load is served at its home slice, from filled sectors and masked bytes (R260, R262). -/
def execSliceRead (n : Nat) (s : State) : Host.Outcome State Fault Refusal :=
  match findAcc s n with
  | none => done s
  | some a =>
    match a.stage with
    | .home pa =>
      if !accLoad a then done s
      else if accBlocked s a then done (push s (.sliceRead n))
      else if sectorBad s pa a.size then done (failAcc s a 2 a.addr)
      else if (List.range a.size).all (fun i => lineHas (getLine s (lineOf pa)) (pa + i)) then
        let t := countRead s (lineOf pa) (some (a.core, ctxOf s a.core, vlineOf a))
        done (push (stageAcc t n (.replied (physRead s pa a.size))) (.loadResponse n))
      else done (pushAll s [.sectorFill (lineOf pa) (pa % 256 / 64), .sliceRead n])
    | _ => done s

/-- HOT_WINDOW_END: the counts of a slice's lines begin afresh (R262). -/
def execHotWindowEnd (slice : Nat) (s : State) : Host.Outcome State Fault Refusal :=
  done { s with hot := s.hot.filter (fun h => h.line % 192 != slice) }

/-- Whether an earlier write of the core may still name a byte of an access that goes by a redirect, which no station has
ordered (R317). -/
def writeAhead (s : State) (a : Access) : Bool :=
  s.accs.any (fun r => r.core == a.core && decide (r.id < a.id) && !accLoad r &&
    (accUntranslated r || (match r.stage with | .parked _ => true | _ => false)) && portOf s r == portOf s a)

/-- HELPER_READ: a helper with a valid replica serves the read, else it goes to the home (R262, R263). -/
def execHelperRead (n : Nat) (s : State) : Host.Outcome State Fault Refusal :=
  match findAcc s n with
  | none => done s
  | some a =>
    match a.stage with
    | .helper h pa =>
      if accBlocked s a || writeAhead s a then done (push s (.helperRead n))
      else
        match s.replicas.find? (fun r => r.line == lineOf pa && r.helper == h && r.filled.getLsbD (pa % 256 / 64)) with
        | some r => done (push (stageAcc s n (.replied (memRead r.data (pa % 256) a.size))) (.loadResponse n))
        | none => done (push (stageAcc s n (.home pa)) (.sliceRead n))
    | _ => done s

/-- REPLICA_DROP: a helper or an interface drops its copy of its own accord (R262). -/
def execReplicaDrop (line holder : Nat) (s : State) : Host.Outcome State Fault Refusal :=
  done { s with
    replicas := s.replicas.filter (fun r => !(r.line == line && r.helper == holder)),
    redirects := s.redirects.filter (fun r => !(r.line == line && 192 + r.ni == holder)) }

/-! ### Peer accesses (R255-R257, R508) -/

/-- Why a request to a logical core under an entry generation is answered with an error message (R256, R508). -/
def peerKind (s : State) (c t egen : Nat) : Option Nat :=
  match reachKind s c t with
  | some k => some k
  | none => if (mapOf s t).egen.toNat = egen then none else some 2

/-- PEER_ACCESS_ARRIVE: the access is performed on the target's scratchpad in one step, or answered with an error message
(R254-R257); a BARA counts into its object (R528). -/
def execPeerAccessArrive (n : Nat) (s : State) : Host.Outcome State Fault Refusal :=
  match findAcc s n with
  | none => done s
  | some a =>
    match a.stage, placeOf a.core a.addr with
    | .sent, .peer t off =>
      match peerKind s a.core t a.egen with
      | some kind => done (failAcc s a kind a.addr)
      | none =>
        if accBlocked s a || coreOut s t || reloading s t off a.size then done (push s (.peerAccessArrive n))
        else
          let reply (u : State) (bs : List Byte) := push (stageAcc u n (.replied bs)) (.loadResponse n)
          match a.kind with
          | .load _ _ _ => done (reply s (spadRead s t off a.size))
          | .store => done (dropAcc (spadWrite s t off a.data) n)
          | .atom op _ x expected _ rel scope _ =>
            if rel && !accReleased s a scope then done (push s (.peerAccessArrive n))
            else
              let old := spadRead s t off a.size
              let u := if rel then releasedAt s a.core scope a.id else s
              done (reply (spadWrite u t off (atomBytes op old x expected)) old)
          | .bara _ _ addend =>
            if !accReleased s a 3 then done (push s (.peerAccessArrive n))
            else done (reply (barAdd s t off addend) [])
    | _, _ => done s

/-! ### Answers (R265, R330) -/

/-- The barrier status word (R525). -/
def barStatus (code value : Nat) : Word := packWord [(1, 0), (code, 4), (value % 2 ^ 48, 16)]

/-- A register as an answer leaves it: written, or poisoned. -/
def settleReg (g : Reg) (r : Reg) (m : Mark) : Reg := if g.mark = m then r else g

/-- The context after an answer for a register that waits for mark `m`: in the live registers, in the images of the branch
generations, and in the staging buffer (R174). -/
def answerReg (m : Mark) (n : Nat) (reg : BitVec 5) (r : Reg) (x : Ctx) : Ctx :=
  let put (regs : Vector Reg 32) : Vector Reg 32 :=
    if reg = 0 then regs else regs.setIfInBounds reg.toNat (settleReg (regs.getD reg.toNat resetReg) r m)
  { x with
    regs := put x.regs, gens := x.gens.map (fun g => { g with regs := put g.regs }),
    staging := x.staging.map (fun e => if e.load = n then { e with value := some r.val } else e),
    acqs := x.acqs.filter (fun a => a != n) }

/-- A register with a value. -/
def valueReg (v : Word) : Reg := { val := v, poison := none, mark := .clear }

/-- The context after a failure for a register that waits for mark `m`: the register keeps its value and is poisoned (R155). -/
def failReg (m : Mark) (n : Nat) (reg : BitVec 5) (p : Poison) (x : Ctx) : Ctx :=
  let bad (regs : Vector Reg 32) : Vector Reg 32 :=
    let g := regs.getD reg.toNat resetReg
    if reg = 0 ∨ g.mark ≠ m then regs else regs.setIfInBounds reg.toNat { g with poison := some p, mark := .clear }
  { x with
    regs := bad x.regs, gens := x.gens.map (fun g => { g with regs := bad g.regs }),
    acqs := x.acqs.filter (fun a => a != n) }

/-- The state after the answer of an access has reached its activation. -/
def answerAcc (s : State) (a : Access) (bytes : List Byte) : State :=
  let t := dropAcc s a.id
  match a.kind with
  | .load reg sx _ => updAct t a.core a.serial (answerReg (.load a.id) a.id reg (valueReg (extendBytes bytes sx)))
  | .atom _ reg _ _ _ _ _ _ => updAct t a.core a.serial (answerReg (.op a.id) a.id reg (valueReg (atomOld bytes)))
  | .bara reg _ _ => updAct t a.core a.serial (deliver a.id reg (barStatus 0 0))
  | .store => t

/-- The state after the failure of an access has reached its activation (R155, R330, R528). -/
def answerFail (s : State) (a : Access) (kind : Nat) (addr : Word) : State :=
  let t := dropAcc s a.id
  match a.kind with
  | .load reg _ upc => updAct t a.core a.serial (failReg (.load a.id) a.id reg { ldPc := upc, addr := addr, kind := kind })
  | .atom _ reg _ _ _ _ _ upc => updAct t a.core a.serial (failReg (.op a.id) a.id reg { ldPc := upc, addr := addr, kind := kind })
  | .bara reg _ _ => updAct t a.core a.serial (deliver a.id reg (barStatus (if kind = 1 then 2 else 3) 0))
  | .store => t

/-- LOAD_RESPONSE: a value or an error answers a load or an atomic; a load of a remote window reads it (R265, R514). -/
def execLoadResponse (n : Nat) (s : State) : Host.Outcome State Fault Refusal :=
  match findAcc s n with
  | none => done s
  | some a =>
    match a.stage with
    | .replied bytes => done (answerAcc s a bytes)
    | .failed kind addr => done (answerFail s a kind addr)
    | .window ra =>
      if !accLoad a then done s
      else if accBlocked s a then done (push s (.loadResponse n))
      else done (answerAcc s a (memRead s.remote ra a.size))
    | _ => done s

/-! ### FENCE and DRAIN (R268-R270) -/

/-- FENCE (R268). -/
def execFence (d : BitVec 5) (sc : BitVec 3) (o : BitVec 2) (s : State) : Host.Outcome State Fault Refusal :=
  issue s (plainSpec [] [d]) (fun i t =>
    let c := i.core
    let f : Fence := { id := t.nextId, reg := d, scope := sc.toNat, acq := orderAcq o, rel := orderRel o, held := (getCtx t c).heldStream }
    some (push (bumpId (modCtx t c (fun x => { markReg x d (.op t.nextId) with fences := x.fences ++ [f] })))
      (.fenceComplete c)))

/-- Whether a fence's waits have ended: for the units that stood before it when it was issued, too (R189, R268). -/
def fenceReady (s : State) (c : Nat) (x : Ctx) (f : Fence) : Bool :=
  (!f.rel || releaseReady s c (genOf x) { x with heldStream := f.held } f.scope f.id) && (!f.acq || acquireReady s c (genOf x) f.id)

/-- The failures of a task that no FENCE has reported (R269). -/
def tallyOf (gens : List LiveGen) (g : Nat) : Tally :=
  ((gens.find? (fun e => e.gen == g)).map (·.tally)).getD noFails

/-- The context with its fences that are ready completed, with the live generations: each fence reports the failures of its task
not yet reported (R269). -/
def completeFences (s : State) (c : Nat) (x : Ctx) (gens : List LiveGen) : Ctx × List LiveGen :=
  let g := genOf x
  x.fences.foldl (fun y f =>
    if fenceReady s c x f then
      ({ deliver f.id f.reg (fenceStatus (tallyOf y.2 g)) y.1 with fences := y.1.fences.filter (fun g => g.id != f.id) },
       y.2.map (fun e => if e.gen = g then { e with tally := noFails } else e))
    else y) (x, gens)

/-- The core with the fences of its activations that are ready completed. -/
def coreFences (s : State) (c : Nat) (k : Core) : Core :=
  let p := completeFences s c k.ctx k.live
  match k.susp with
  | none => { k with ctx := p.1, live := p.2 }
  | some y =>
    let q := completeFences s c y p.2
    { k with ctx := p.1, susp := some q.1, live := q.2 }

/-- The fences of a core's activations, live and pre-empted. -/
def openFences (k : Core) : List Fence := k.ctx.fences ++ ((k.susp.map (·.fences)).getD [])

/-- The state after fences of a core have completed, from the state before, with the releases among them noted (R322). -/
def noteFences (s : State) (c : Nat) (t : State) : State :=
  ((openFences (getCore s c)).filter (fun f => f.rel && !(openFences (getCore t c)).any (fun g => g.id == f.id))).foldl
    (fun u f => releasedAt u c f.scope f.id) t

/-- FENCE_COMPLETE, for the activations that stand on a core (R268). -/
def execFenceComplete (c : Nat) (s : State) : Host.Outcome State Fault Refusal :=
  let t := noteFences s c (modCore s c (coreFences s c))
  let k := getCore t c
  let left := !k.ctx.fences.isEmpty || ((k.susp.map (fun x => !x.fences.isEmpty)).getD false)
  if left then done (push t (.fenceComplete c)) else done t

/-- The space that a copy or multicast writes, as DRAIN classes it (R294). -/
def drainSpace (o : Op) : Option Nat :=
  match o.body with
  | .copy p => some (spaceOf p.cx.dst)
  | .mcast m => if m.ended then none else some 1
  | _ => none

/-- Whether a mask of DRAIN selects a space: bit 0 local, bit 1 peer, bit 2 virtual (R270). -/
def drainSelects (mask : BitVec 3) (sp : Nat) : Bool :=
  (sp == 0 && mask.getLsbD 0) || (sp == 1 && mask.getLsbD 1) || (sp == 4 && mask.getLsbD 2)

/-- Whether no operation that a DRAIN waits for is in flight (R270). -/
def drained (s : State) (c : Nat) (mask : BitVec 3) : Bool :=
  s.ops.all (fun o => o.core != c || o.serial != serialOf (getCtx s c) ||
    (match drainSpace o with
     | some sp => !drainSelects mask sp
     | none => true))

/-- The context that stands at the boundary before a unit and waits (R158). -/
def waitAt (i : Issued) (w : Wait) (x : Ctx) : Ctx := { x with pc := i.pc, wait := w }

/-- DRAIN: complete at once, or a wait at its boundary until DRAIN_COMPLETE (R270). -/
def execDrain (m : BitVec 3) (s : State) : Host.Outcome State Fault Refusal :=
  issue s (plainSpec [] []) (fun i t =>
    if drained t i.core m then some t else some (push (modCtx t i.core (waitAt i (.drain m))) (.drainComplete i.core)))

/-- DRAIN_COMPLETE: the control stream passes the DRAIN at which it waits (R270). -/
def execDrainComplete (c : Nat) (s : State) : Host.Outcome State Fault Refusal :=
  match (getCtx s c).wait with
  | .drain m =>
    if drained s c m then done (modCtx s c (fun x => { x with pc := x.pc + 4, wait := .none }))
    else done (push s (.drainComplete c))
  | _ => done s

end Sys2Proof.Machine
end

