-- ==== Sys2Proof/Machine/System.lean ====
section
/-! DEFINITION. The SYS instructions but LEAVE and SNAP, and the system registers (R235-R248). -/

namespace Sys2Proof.Machine

/-- ILLEGAL for a word that its checks refuse before every other check; ahead of a branch it is held (R133, R176). -/
def illegalNow (s : State) : Host.Outcome State Fault Refusal :=
  let x := getCtx s s.focus
  if x.gens.isEmpty then done (takeTrap s s.focus (issueTrap (unitPc x) causeIllegal 0 0)) else done s

/-! ### The registers (R237, R238) -/

/-- Whether a number names a register (R237). -/
def namesSys (p : BitVec 12) : Bool :=
  decide (p.toNat ≤ 7) || p.toNat == 0x10 || (decide (0x20 ≤ p.toNat) && decide (p.toNat ≤ 0x24)) ||
    (decide (0x40 ≤ p.toNat) && decide (p.toNat ≤ 0x46))

/-- Whether a register is privileged (R237). -/
def privSys (p : BitVec 12) : Bool := decide (0x10 ≤ p.toNat) && decide (p.toNat ≤ 0x24)

/-- %class.GSZ of a gang size (R237). -/
def gangCode (n : Nat) : Nat := if n = 2 then 1 else if n = 4 then 2 else if n = 8 then 3 else 0

/-- %class: LEAD, GSZ and CLS (R237). -/
def classWord (k : Core) (c : Nat) : Word :=
  match k.gang with
  | .member _ n idx _ _ _ => packWord [(classOf c, 0), (gangCode n, 2), ((idx == 0).toNat, 4)]
  | _ => packWord [(classOf c, 0)]

/-- %core: LID, PPOS, PDIE and PART (R237). -/
def coreWord (s : State) (c : Nat) : Word :=
  packWord [(c, 0), ((mapOf s c).ppos, 12), ((mapOf s c).pdie, 17), ((partOf s c).getD 0, 22)]

/-- %tstat (R237); DISC is the core's (R60). -/
def tstatWord (y : SysRegs) (disc : BitVec 8) : Word :=
  packWord [(disc.toNat, 0), (y.rcls.toNat, 10), (y.prio.toNat, 12), (y.dual.toNat, 15), (y.urg.toNat, 16),
    (y.restored.toNat, 17), (y.migr.toNat, 18), (y.restart.toNat, 19), (y.evt.toNat, 20)]

/-- %cause (R237). -/
def causeWord (y : SysRegs) : Word := packWord [(y.code.toNat, 0), (y.tile.toNat, 16), (y.param.toNat, 20)]

/-- %leave: HELD, and the free units of the partition's share, sampled at the read (R237). -/
def leaveWord (s : State) (c : Nat) : Word :=
  let sh := shareOf s c
  packWord [((getCtx s c).sys.held.toNat, 0), (shareFree s sh.1 sh.2 % 2 ^ 16, 16)]

/-- The value of a register; reserved fields read 0 (R237, R243). -/
def sysRead (s : State) (c : Nat) (p : BitVec 12) : Word :=
  let k := getCore s c
  let y := k.ctx.sys
  match p.toNat with
  | 0x000 => y.tid.setWidth 64
  | 0x001 => coreWord s c
  | 0x002 => classWord k c
  | 0x003 => y.xstep.setWidth 64
  | 0x004 => tstatWord y k.disc
  | 0x005 => y.rseed.setWidth 64
  | 0x006 => leaveWord s c
  | 0x007 => (match partOf s c with
    | some q => (getPart s q).clmapgen.setWidth 64
    | none => 0)
  | 0x010 => packWord [(y.sup.toNat, 0), (y.psup.toNat, 1)]
  | 0x020 => causeWord y
  | 0x021 => y.epc
  | 0x022 => y.faultpc
  | 0x023 => y.faultaddr
  | 0x024 => y.svbase
  | 0x040 => y.cx.src
  | 0x041 => y.cx.dst
  | 0x042 => y.cx.rows.setWidth 64
  | 0x043 => y.cx.rbytes.setWidth 64
  | 0x044 => y.cx.rstride
  | 0x045 => y.cx.wstride
  | 0x046 => packWord [(y.cx.qos.toNat, 0), (y.cx.bypass.toNat, 2)]
  | _ => 0

/-- The system registers of a context after a write, field by field (R237, R238, R243); a supervisor may write %xstep. -/
def sysWrite (y : SysRegs) (p : BitVec 12) (v : Word) : SysRegs :=
  match p.toNat with
  | 0x003 => if y.sup then { y with xstep := v.setWidth 9 } else y
  | 0x004 => { y with migr := y.migr && !v.getLsbD 18, restored := y.restored && !v.getLsbD 17 }
  | 0x005 => { y with rseed := v.setWidth 32 }
  | 0x010 => { y with psup := v.getLsbD 1 }
  | 0x020 => { y with param := (v >>> 20).setWidth 12, tile := v.getLsbD 16, code := v.setWidth 16 }
  | 0x021 => { y with epc := v }
  | 0x022 => { y with faultpc := v }
  | 0x023 => { y with faultaddr := v }
  | 0x024 => { y with svbase := v &&& ~~~63 }
  | 0x040 => { y with cx := { y.cx with src := v } }
  | 0x041 => { y with cx := { y.cx with dst := v } }
  | 0x042 => { y with cx := { y.cx with rows := v.setWidth 17 } }
  | 0x043 => { y with cx := { y.cx with rbytes := v.setWidth 24 } }
  | 0x044 => { y with cx := { y.cx with rstride := v } }
  | 0x045 => { y with cx := { y.cx with wstride := v } }
  | 0x046 => { y with cx := { y.cx with bypass := v.getLsbD 2, qos := v.setWidth 2 } }
  | _ => y

/-- Whether the tile stream has no unit in progress, or is stopped or held, which an instruction that runs to completion is not yet
(R208, R243). -/
def streamQuiet (x : Ctx) : Bool := x.seq.isEmpty || x.tileTrap.isSome || (x.heldStream && !runningOut x)

/-- Whether SYSR or SYSW waits for the tile stream: %xstep and %rseed (R243). -/
def sysWaits (x : Ctx) (p : BitVec 12) : Bool := (p == 3 || p == 5) && !streamQuiet x

/-- SYSR (R243). -/
def execSysr (d : BitVec 5) (p : BitVec 12) (s : State) : Host.Outcome State Fault Refusal :=
  if !namesSys p then illegalNow s
  else
    issue s { plainSpec [] [d] with priv := privSys p } (fun i t =>
      if sysWaits (getCtx t i.core) p then none
      else some (modCtx t i.core (fun x => setReg x d (sysRead t i.core p))))

/-- SYSW (R243); the discarded flags of %tstat are the core's (R60). -/
def execSysw (a : BitVec 5) (p : BitVec 12) (s : State) : Host.Outcome State Fault Refusal :=
  if !namesSys p then illegalNow s
  else
    issue s { plainSpec [a] [] with priv := privSys p } (fun i t =>
      let v := regVal (getCtx t i.core) a
      if sysWaits (getCtx t i.core) p then none
      else some (modCore (modSys t i.core (fun y => sysWrite y p v)) i.core (fun k =>
        if p = 4 then { k with disc := k.disc &&& ~~~(v.setWidth 8) } else k)))

/-! ### Traps and returns -/

/-- TRAP: complete when its trap is taken, so that %epc names the next unit (R244). -/
def execTrap (p : BitVec 12) (s : State) : Host.Outcome State Fault Refusal :=
  issue s (plainSpec [] []) (fun i t => some (takeTrap t i.core
    { code := causeTrap, param := p.toNat, tile := false, epc := i.pc + 4, faultpc := i.upc, faultaddr := 0 }))

/-- ERET: the mode, the control stream and a stopped tile instruction resume (R245). -/
def execEret (s : State) : Host.Outcome State Fault Refusal :=
  issue s { plainSpec [] [] with priv := true } (fun i t => some (resumeTile (modCtx t i.core trapReturn) i.core))

/-! ### Waiting, flushing, halting -/

/-- The context with the selected wake events cleared (R246). -/
def clearEvt (m : BitVec 4) (x : Ctx) : Ctx := { x with sys := { x.sys with evt := x.sys.evt &&& ~~~m } }

/-- WFE: complete at once where a selected event is latched, else a wait at its boundary (R246). -/
def execWfe (m : BitVec 4) (s : State) : Host.Outcome State Fault Refusal :=
  issue s (plainSpec [] []) (fun i t =>
    if (getCtx t i.core).sys.evt &&& m ≠ 0 then some (modCtx t i.core (clearEvt m))
    else some (push (modCtx t i.core (waitAt i (.wfe m))) (.wfeWake i.core)))

/-- WFE_WAKE: a selected event has latched while WFE waits (R246). -/
def execWfeWake (c : Nat) (s : State) : Host.Outcome State Fault Refusal :=
  match (getCtx s c).wait with
  | .wfe m =>
    if (getCtx s c).sys.evt &&& m ≠ 0 then
      done (modCtx s c (fun x => { clearEvt m x with pc := x.pc + 4, wait := .none }))
    else done (push s (.wfeWake c))
  | _ => done s

/-- Whether a store, atomic, tile store or copy of the running task into virtual memory has not been performed, those of its earlier
activations among them (R39, R247). -/
def writesOpen (s : State) (c : Nat) : Bool :=
  let x := getCtx s c
  s.accs.any (fun a => a.core == c && a.gen == genOf x && !accLoad a && !accSettled a && spaceOf a.addr == 4) ||
    (pendingUnits x).any (fun u => match u.instr with | .tstg _ _ _ => true | _ => false) ||
    s.ops.any (fun o => o.core == c && o.gen == genOf x && (match o.body with | .copy p => spaceOf p.cx.dst == 4 | _ => false))

/-- IFLUSH (R247). -/
def execIflush (s : State) : Host.Outcome State Fault Refusal :=
  issue s (plainSpec [] []) (fun i t =>
    if writesOpen t i.core then none else some (modCore t i.core (fun k => { k with icache := [] })))

/-- HALT: the core stops at the boundary after it, and its Foreman restarts it (R248). -/
def execHalt (s : State) : Host.Outcome State Fault Refusal :=
  issue s { plainSpec [] [] with priv := true } (fun i t =>
    some (modCore t i.core (fun k => { k with state := .stopped, stop := .halt })))

end Sys2Proof.Machine
end

