-- ==== Sys2Proof/Machine/Wire.lean ====
section
/-! DEFINITION. Key requests as they travel: their status words, who waits for them, and the Waidric messages that carry them to the
other modules of the domain (R446, R447, R471, R472). -/

namespace Sys2Proof.Machine

/-! ### Status (R446, R447) -/

/-- The key status word. -/
def keyStatus (code : Nat) (trunc short overflow forwarded : Bool) (len : Nat) : Word :=
  packWord [(1, 0), (code, 4), (trunc.toNat, 8), (short.toNat, 9), (overflow.toNat, 10), (forwarded.toNat, 11), (len, 32)]

/-! ### Who waits for a request -/

/-- Whether a destination is a registered continuation's. -/
def isCont (d : KeyDest) : Bool :=
  match d with
  | .cont _ _ _ _ _ => true
  | _ => false

/-- The core of an issuer, if it is a task. -/
def issuerCore (i : KeyIssuer) : Option Nat :=
  match i with
  | .task c _ _ _ => some c
  | _ => none

/-- The operation that a key request settles. -/
def reqOp (r : KeyReq) : Option Nat :=
  match r.issuer with
  | .task _ _ _ op => some op
  | _ => none

/-- The operations that a request's status goes to: the issuer's, and its twin's (R445). -/
def reqOps (r : KeyReq) : List Nat := (reqOp r).toList ++ (r.twin.map (·.op)).toList

/-- The state without a request in transit. -/
def dropReq (s : State) (n : Nat) : State := { s with keyReqs := s.keyReqs.filter (fun r => r.id != n) }

/-! ### Waidric messages (R471) -/

/-- The bytes of a key, as memory holds them (R426). -/
def keyBytes (k : BitVec 256) : List Byte := leBytes 32 k.toNat

/-- A Waidric header (R471): operation, flags, destination home, map generation, request number, task, tag, hash, status,
length and sequence, and the source module. -/
structure WaidricHead where
  op : Nat
  flags : Nat
  smod : Nat
  dhome : Nat
  mapgen : Nat
  reqid : Nat
  task : Nat
  pairseq : Nat
  hash : Nat
  status : Nat
  len : Nat
  seq : Nat
  deriving DecidableEq, Repr

/-- The 64 bytes of a header. -/
def headBytes (h : WaidricHead) : List Byte :=
  [1, BitVec.ofNat 8 h.op] ++ leBytes 3 h.flags ++ leBytes 1 h.smod ++ leBytes 2 h.dhome ++ leBytes 4 h.mapgen ++ leBytes 4 h.reqid ++
    leBytes 4 h.task ++ leBytes 4 h.pairseq ++ leBytes 8 h.hash ++ leBytes 4 h.status ++ leBytes 4 h.len ++ leBytes 8 h.seq ++
    leBytes 16 0

/-- A header from the bytes of a message; none where VER, OP or the zero bytes are wrong (R471). -/
def readHead (bs : List Byte) : Option WaidricHead :=
  let f (lo n : Nat) : Nat := leNat ((bs.drop lo).take n)
  if bs.length < 64 ∨ f 0 1 ≠ 1 ∨ f 1 1 = 0 ∨ 12 < f 1 1 ∨ f 48 16 ≠ 0 ∨ 2 ^ 28 ≤ f 16 4 then none
  else
    some { op := f 1 1, flags := f 2 3, smod := f 5 1, dhome := f 6 2, mapgen := f 8 4, reqid := f 12 4, task := f 16 4,
           pairseq := f 20 4, hash := f 24 8, status := f 32 4, len := f 36 4, seq := f 40 8 }

/-- A connection to another module. -/
def getWaidric (s : State) (m : Nat) : Waidric := tabGet emptyWaidric s.waidric m

/-- The state with a connection replaced. -/
def setWaidric (s : State) (m : Nat) (w : Waidric) : State := { s with waidric := tabSet s.waidric m w }

/-- Whether a waiter stands for a continuation, on this module or another (R440). -/
def contDest (d : KeyDest) : Bool :=
  match d with
  | .remote cont => cont
  | d => isCont d

/-- The operation code, mode bits and CONT bit of a request, as Waidric carries them (R471, R448). -/
def askCode (a : KeyAsk) : Nat × Nat × Bool :=
  match a with
  | .fetch _ _ _ _ => (1, 0, false)
  | .put _ _ _ => (1, 0, false)
  | .read take _ _ poll dest => (if take then 3 else 2, if contDest dest then 2 else if poll then 1 else 0, contDest dest)
  | .cancel _ _ => (4, 0, false)
  | .redeposit _ => (8, 0, false)
  | .stat _ => (12, 0, false)
  | .copy _ gone => (10, gone.toNat, false)

/-- The key or template, and the payload, that a request carries. -/
def askBytes (a : KeyAsk) : List Byte × List Byte :=
  match a with
  | .fetch k _ _ _ => (keyBytes k, [])
  | .put k _ payload => (keyBytes k, payload)
  | .read _ v m _ _ => (keyBytes v ++ keyBytes m, [])
  | .cancel v m => (keyBytes v ++ keyBytes m, [])
  | .redeposit t => (keyBytes t.key, t.payload)
  | .stat _ => ([], [])
  | .copy t _ => (keyBytes t.key, t.payload)

/-- What a request's header carries in STATUS, which only a STATUS message uses for a status word: the shape word of a payload, or
the selector of a STAT (log 14). -/
def askWord (a : KeyAsk) : Nat :=
  match a with
  | .put _ shape _ => shape.toNat
  | .redeposit t => t.shape.toNat
  | .stat sel => sel
  | .copy t _ => t.shape.toNat
  | _ => 0

/-- The task name of an issuer. -/
def issuerName (i : KeyIssuer) : Nat :=
  match i with
  | .task _ _ name _ => name
  | .module _ _ name => name
  | _ => 0

/-- The header of a request to another module; `moved` marks a waiting template or a held dual arrival that a split takes there, in the
highest mode bit (R467, log 14). -/
def reqHead (s : State) (r : KeyReq) (reqid : Nat) (moved : Bool) : WaidricHead :=
  let k := askCode r.ask
  let pair := match r.tag with
    | some t => t.pair * 4096 + t.idx
    | none => 0
  { op := k.1, flags := r.tag.isSome.toNat + k.2.2.toNat * 2 + r.forwarded.toNat * 4 + k.2.1 * 8 + moved.toNat * 128 + r.ctx * 256,
    smod := s.localMod,
    dhome := r.home, mapgen := r.mapgen, reqid := reqid, task := issuerName r.issuer, pairseq := pair,
    hash := (match r.tag with | some t => t.hash.toNat | none => 0), status := askWord r.ask, len := (askBytes r.ask).2.length,
    seq := (match r.ask with | .redeposit t => t.seq | .copy t _ => t.seq | _ => 0) }

/-- The state with a message queued for another module (R471). -/
def sendWaidric (s : State) (m : Nat) (h : WaidricHead) (body : List Byte) : State :=
  { s with waidricOut := s.waidricOut ++ [(m, headBytes h ++ body)] }

/-- The state with a request sent to a home of another module, and outstanding there (R471, R472). -/
def sendTo (s : State) (r : KeyReq) (moved : Bool) : State :=
  let m := r.home / 64
  let w := getWaidric s m
  let t := setWaidric (dropReq s r.id) m { w with sent := w.sent + 1, outstanding := w.outstanding ++ [(w.sent + 1, { r with rid := w.sent + 1 })] }
  sendWaidric t m (reqHead s r (w.sent + 1) moved) ((askBytes r.ask).1 ++ (askBytes r.ask).2)

/-- The state with a request sent to a home of another module. -/
def sendRemote (s : State) (r : KeyReq) : State := sendTo s r false

/-- The requests outstanding at other modules that a condition holds of. -/
def outstandingReqs (s : State) (p : KeyReq → Bool) : List KeyReq :=
  ((s.waidric.map (fun w => w.2.outstanding.map (·.2))).flatten).filter p

/-- The state with a KCANCEL on its way for a waiter at a home of another module (R438, R546): it reaches the home behind the request
that it withdraws, which is served or withdrawn there. -/
def recallReq (s : State) (r : KeyReq) : State :=
  match r.ask with
  | .read _ v m false _ =>
    sendRemote (bumpId s) { r with
      id := s.nextId, ask := .cancel v m, tag := none, twin := none, twinRemote := none, assayed := false, chain := false }
  | _ => s

end Sys2Proof.Machine
end

