-- ==== Sys2Proof/Machine/Activate.lean ====
section
/-! DEFINITION. Launch binding, generations, the start and the end of an activation, failed activations, and what scratchpad
regions and slots become (R40-R60, R239, R240, R286, R365, R371, R546, R566). -/

namespace Sys2Proof.Machine

/-! ### Regions (R57-R60) -/

/-- The offset past the regions of a launch, which fill the scratchpad from offset 0 (R58). -/
def regionsEnd (rs : List Region) : Nat := rs.foldl (fun n r => Nat.max n (r.offset + r.size)) 0

/-- The regions of the launch that a core is bound to. -/
def regionsOf (s : State) (c : Nat) : List Region :=
  match launchOf s c with
  | some l => l.regions
  | none => []

/-- A free byte (log 4). -/
def freeByte (n : Nat) : Byte := BitVec.ofNat 8 (Config.freeNat n)

/-- A memory with every byte from an offset to the end of the scratchpad undefined (R6, R59), each a free value. -/
def scrambleFrom (k lo : Nat) (m : Memory) : Memory :=
  let byte (i : Nat) : Byte := freeByte (k + i)
  m.filter (fun p => decide (p.1 < lo)) ++
    (List.range (spadSize - lo)).filterMap (fun i => if byte i = 0 then none else some (lo + i, byte i))

/-- The entries that an accumulator store has at most (R278). -/
def accSpan : Nat := 2 ^ 16

/-- An accumulator store of which nothing is known: each entry the free value of its place (R6, R46, log 4). -/
def freeAcc (k : Nat) : AccStore := { vals := [], free := some k }

/-- The state with the unregioned bytes of a core's scratchpad undefined (R59); its operations keep what they have still to read. -/
def scramble (s : State) (c : Nat) : State :=
  let lo := regionsEnd (regionsOf s c)
  { modCore (keepUnread s c) c (fun k => { k with spad := scrambleFrom s.fresh lo k.spad }) with fresh := s.fresh + spadSize }

/-- The state with a core that belongs to no launch, its scratchpad and its accumulator store undefined: what the launch or the
partition that it leaves had there reaches no other (R5, R6). -/
def scrubCore (s : State) (c : Nat) : State :=
  let t := scramble (modCore s c (fun k => { k with launch := none, parent := none, waited := [] })) c
  { modCtx t c (fun x => { x with acc := freeAcc t.fresh }) with fresh := t.fresh + accSpan }

/-- The scratchpad with the regions of some attributes reading as their fill. -/
def fillRegions (attrs : List Nat) (rs : List Region) (m : Memory) : Memory :=
  rs.foldl (fun m r => if attrs.contains r.attr then memFill m r.offset r.size r.fill else m) m

/-- The discarded flags of all DISCARD regions (R60). -/
def allDisc (rs : List Region) : BitVec 8 := BitVec.ofNat 8 (2 ^ (rs.filter (fun r => r.attr == 2)).length - 1)

/-- The state with the DISCARD regions of a core filled and flagged (R59, R60); its operations keep what they have still to read. -/
def discardRegions (s : State) (c : Nat) : State :=
  let rs := regionsOf s c
  modCore (keepUnread s c) c (fun k => { k with spad := fillRegions [2] rs k.spad, disc := k.disc ||| allDisc rs })

/-! ### Launch binding (R51, R60, R240, R286) -/

/-- A core bound to a launch: its deque empty, its slots EMPTY, %rseed from the launch's seed, its counts at zero. -/
def boundCore (c ltag : Nat) (seed : BitVec 32) (parent : Option Nat) (k : Core) : Core :=
  { k with
    launch := some ltag, disc := 0, deque := [], slots := Vector.replicate 4 emptySlot, created := 0, ended := 0,
    parent := parent, storeErr := false, norstErr := false, faultErr := false,
    ctx := { k.ctx with sys := { k.ctx.sys with rseed := seed ^^^ BitVec.ofNat 32 c } } }

/-- LAUNCH_BIND: the state with a core bound to a launch; one bound to it already stays as it is. -/
def bindLaunch (s : State) (c ltag : Nat) (parent : Option Nat) : State :=
  if (getCore s c).launch = some ltag then s
  else
    let seed := match findLaunch s ltag with
      | some l => l.seed
      | none => 0
    modCore s c (boundCore c ltag seed parent)

/-- The state with CREATED of a core raised (R365). -/
def countCreated (s : State) (c : Nat) : State := modCore s c (fun k => { k with created := k.created + 1 })

/-- The state with ENDED of a core raised (R365). -/
def countEnded (s : State) (c : Nat) : State := modCore s c (fun k => { k with ended := k.ended + 1 })

/-! ### Generations (R41, R42, R566) -/

/-- The generation after one in the sequence (R41). -/
def nextGen (g : BitVec 16) : BitVec 16 := if g = 0xFFFF then 1 else g + 1

/-- The core's counter moved to the next generation that is neither live nor sealed; a sealed one that it passes is unsealed. -/
def advanceGen (fuel : Nat) (k : Core) : Core :=
  match fuel with
  | 0 => k
  | f + 1 =>
    let g := nextGen k.genCounter
    let k' := { k with genCounter := g }
    if k.live.any (fun e => e.gen == g.toNat) then advanceGen f k'
    else if k.sealedGens.contains g.toNat then advanceGen f { k' with sealedGens := k.sealedGens.filter (fun n => n != g.toNat) }
    else k'

/-- GENERATION_ASSIGN: the core with a new live generation, which its counter names. -/
def assignGen (k : Core) : Core :=
  let k' := advanceGen 131072 k
  { k' with live := k'.live ++ [{ gen := k'.genCounter.toNat, xfree := 0, tally := noFails }] }

/-- The core with a generation live. -/
def keepGen (g : Nat) (k : Core) : Core :=
  if k.live.any (fun e => e.gen == g) then k else { k with live := k.live ++ [{ gen := g, xfree := 0, tally := noFails }] }

/-- The name of a task (R40). -/
def taskName (c g : Nat) : BitVec 28 := BitVec.ofNat 28 (c * 2 ^ 16 + g)

/-- Whether a core keeps a registered continuation of a generation, or a delivered one that has not started (R42). -/
def hasReg (k : Core) (g : Nat) : Bool :=
  k.aq.toList.any (fun e =>
    match e with
    | .continuation n _ => n == g
    | .delivered r => r.gen == some g
    | _ => false)

/-- What stands for the name of a task that has retired: no task name, which has 28 bits (R40, R312). -/
def retiredName : Nat := 2 ^ 28

/-- The operations after a task name has retired: a multicast that has ended owes it nothing more, and one that runs on will
owe it nothing (R312). -/
def retireOps (name : Nat) (os : List Op) : List Op :=
  os.filterMap (fun o =>
    match o.body with
    | .mcast m =>
      if m.name ≠ name then some o
      else if m.ended then none
      else some { o with body := .mcast { m with name := retiredName } }
    | _ => some o)

/-- The state after the failures of a task that no FENCE has reported have been handed to the Foreman and counted (R269). -/
def settleTally (s : State) (c g : Nat) : State :=
  let n := ((getCore s c).live.filter (fun e => e.gen == g)).foldl (fun n e => n + e.tally.fails) 0
  if n = 0 then s else count (modCore s c (fun k => { k with storeErr := true })) (.lateStores c) n

/-- The state after a task name has retired: its unread messages are discarded and counted (R364), its counter with it (R533). -/
def retire (s : State) (c g : Nat) : State :=
  let s := settleTally s c g
  let s := { s with ops := retireOps (taskName c g).toNat s.ops }
  let k := getCore s c
  let lost := (k.mail.filter (fun m => m.gen == g)).length
  let t := setCore s c { k with live := k.live.filter (fun e => e.gen != g), mail := k.mail.filter (fun m => m.gen != g) }
  if lost = 0 then t else count t (.staleMessages c) lost

/-- Whether an activation runs under a generation of a core, live or pre-empted. -/
def nameRuns (k : Core) (g : Nat) : Bool :=
  let runs (x : Ctx) : Bool := x.act.isSome && (nameGen x.sys.tid).toNat == g
  runs k.ctx || (match k.susp with | some x => runs x | none => false)

/-- The state after a dormant task has lost a registration: it retires with the last (R42). -/
def retireDormant (s : State) (c g : Nat) : State :=
  let k := getCore s c
  if k.live.any (fun e => e.gen == g) && !nameRuns k g && !hasReg k g then retire s c g else s

/-! ### Starting (R45, R46, R239) -/

/-- The registers at the start of an activation (R46). -/
def startRegs (args : List Word) : Vector Reg 32 :=
  ((List.range args.length).zip args).foldl (fun (v : Vector Reg 32) p =>
    v.setIfInBounds (1 + p.1) { resetReg with val := p.2 }) (Vector.replicate 32 resetReg)

/-- What an activation starts from: how, under which record, and with what. -/
structure Start where
  kind : ActKind
  record : WorkRec
  t15 : Option Tile
  pair : Option (Nat × Nat)
  restart : Bool
  gen : Nat
  msgIdx : Nat
  deriving DecidableEq, Repr

/-- The context at the start of an activation (R46, R237, R239): %tstat is set up afresh, %rseed stays, the CX registers read zero, and
the accumulator store is undefined for the task, its free values numbered from `fresh` (R6). -/
def startCtx (k : Core) (c serial fresh : Nat) (a : Start) : Ctx :=
  let urgent := a.kind == .urgent
  let sys : SysRegs :=
    { k.ctx.sys with
      tid := taskName c a.gen, evt := if k.mail.any (fun m => m.gen == a.gen) then 1 else 0, restart := a.restart,
      migr := false, restored := false, urg := urgent, dual := a.pair.isSome,
      prio := if urgent then 3 else BitVec.ofNat 2 a.record.prio, rcls := if urgent then 0 else BitVec.ofNat 2 a.record.cls,
      xstep := 0, held := 0, sup := false, psup := false, cx := resetSys.cx }
  { resetCtx with
    pc := BitVec.ofNat 64 (4 * 2 ^ 60 + a.record.entry.toNat), regs := startRegs a.record.args,
    tiles := resetCtx.tiles.setIfInBounds 15 a.t15, sys := sys, acc := freeAcc fresh,
    act := some { serial := serial, ltag := a.record.ltag, kind := a.kind, record := a.record, t15 := a.t15, pair := a.pair,
                  msgIdx := a.msgIdx, commit := a.kind == .continuation } }

/-- The messages that a copy of a pair has sent so far in activations that have ended (R556). -/
def sentSoFar (s : State) (pair : Option (Nat × Nat)) : Nat :=
  match pair with
  | some (p, copy) => (match s.pairs.find? (fun d => d.pair == p) with | some d => tabGet 0 d.sent copy | none => 0)
  | none => 0

/-- ACTIVATION_STATE_SET: the state with an activation running on a core (R46); a new task takes a new generation (R41). -/
def startAct (s : State) (c : Nat) (kind : ActKind) (rec : WorkRec) (gen : Option Nat) (t15 : Option Tile)
    (pair : Option (Nat × Nat)) (restart : Bool) : State :=
  let k := match gen with
    | some g => keepGen g (getCore s c)
    | none => assignGen (getCore s c)
  let g := match gen with
    | some g => g
    | none => k.genCounter.toNat
  let a : Start := { kind := kind, record := rec, t15 := t15, pair := pair, restart := restart, gen := g, msgIdx := sentSoFar s pair }
  bumpId { setCore s c { k with state := .running, stop := .none, ctx := startCtx k c s.nextId s.fresh a } with fresh := s.fresh + accSpan }

/-! ### Waiters and operations of an activation that ends (R438, R496, R529, R546) -/

/-- Whether a key request is a waiter of an activation, or of its twin's, other than a continuation's (R445). -/
def blkOf (c serial : Nat) (r : KeyReq) : Bool :=
  match r.issuer, r.ask with
  | .task core ser _ _, .read _ _ _ false d =>
    !isCont d && ((core == c && ser == serial) || r.twin.any (fun t => t.core == c && t.serial == serial))
  | _, _ => false

/-- Whether a key request is a continuation's waiter of a task name, or of its twin's (R445). -/
def contOf (c name : Nat) (r : KeyReq) : Bool :=
  match r.issuer, r.ask with
  | .task core _ nm _, .read _ _ _ _ d =>
    isCont d && ((core == c && nm == name) || r.twin.any (fun t => t.core == c && t.name == name))
  | _, _ => false

/-- The state with waiters withdrawn from every home: from those of this module at once, from those of another by a message (R438,
R546). -/
def withdrawWaiters (s : State) (p : KeyReq → Bool) : State :=
  (outstandingReqs s p).foldl recallReq
    { s with homes := s.homes.map (fun h => (h.1, { h.2 with waiters := h.2.waiters.filter (fun r => !p r) })) }

/-- The operations of the waiters of every home, here or at another module, that a condition holds of. -/
def waiterOps (s : State) (p : KeyReq → Bool) : List Nat :=
  (s.homes.map (fun h => ((h.2.waiters.filter p).map reqOps).flatten)).flatten ++ ((outstandingReqs s p).map reqOps).flatten

/-- A slice without the buffers that hold no slot and have no open waiting (R479). -/
def tidySlice (v : CmbSlice) : CmbSlice :=
  let used (b : CmbBuf) : Bool :=
    v.slots.any (fun p => match p.2 with | some t => t.ctx == b.ctx && t.d == b.d | none => false) ||
      v.waiting.any (fun m => m.ctx == b.ctx && m.d == b.d)
  { v with bufs := v.bufs.filter used }

/-- The state without the operations that end with their activation: waiters, BARW, CNTRD and a LEAVE that still waits. The other copy
of a pair, whose waiter goes too, receives CANCELLED (R438, R445). -/
def dropWaits (s : State) (c serial : Nat) : State :=
  let opens := (s.slices.map (fun p => (p.2.waiting.filter (fun m => m.core == c && m.serial == serial)).map (·.op))).flatten
  let waits := waiterOps s (blkOf c serial)
  let gone := waits ++ opens
  let mine (o : Op) : Bool := o.core == c && o.serial == serial &&
    (match o.body with
     | .leave _ => true
     | .barw _ => true
     | .cntrd _ _ => true
     | _ => gone.contains o.id)
  let leaves := (s.ops.filter (fun o => o.core == c && o.serial == serial)).filterMap (fun o =>
    match o.body with
    | .leave _ => some o.id
    | _ => none)
  let t := leaves.foldl (fun u n => dropWait u (dieOf s c) (.op n)) s
  let t := withdrawWaiters
    { t with
      ops := t.ops.filter (fun o => !mine o),
      slices := t.slices.map (fun p =>
        (p.1, tidySlice { p.2 with waiting := p.2.waiting.filter (fun m => !(m.core == c && m.serial == serial)) })),
      agenda := t.agenda ++ (t.slices.filter (fun p => p.2.waiting.any (fun m => m.core == c && m.serial == serial))).map (fun p => .openWaitServe p.1) }
    (blkOf c serial)
  waits.foldl (fun u op => endOp u op (keyStatus 6 false false false false 0)) t

/-- The state with the continuations that a task has registered withdrawn, their reservations released (R546, R47). -/
def dropConts (s : State) (c g : Nat) : State :=
  let t := withdrawWaiters s (contOf c (taskName c g).toNat)
  modCore t c (fun k => { k with aq := k.aq.map (fun e =>
    match e with
    | .continuation n _ => if n = g then .free else e
    | _ => e) })

/-! ### Ending (R50, R371, R546) -/

/-- The state after what an activation leaves behind has been settled, apart from its context: leave, waiters, its name and the counts. A failed activation's continuations are withdrawn and its name retires (R546). -/
def settleAct (s : State) (c : Nat) (x : Ctx) (failed counts : Bool) : State :=
  let serial := serialOf x
  let g := (nameGen x.sys.tid).toNat
  let sh := shareOf s c
  let t := returnUnits s sh.1 sh.2 (x.sys.held.toNat + x.run.fromPool)
  let t := dropWait (dropWait t sh.2 (.tile c)) sh.2 (.issue c)
  let t := dropWaits t c serial
  let t := if failed then dropConts t c g else t
  let t := if failed || !hasReg (getCore t c) g then retire t c g else t
  if counts then countEnded t c else t

/-- The context of a core that runs no activation: %rseed, the saved trap registers and the accumulator store stay. -/
def idleCtx (x : Ctx) : Ctx :=
  { resetCtx with
    acc := x.acc,
    sys := { resetSys with
      rseed := x.sys.rseed, svbase := x.sys.svbase, code := x.sys.code, param := x.sys.param, tile := x.sys.tile,
      epc := x.sys.epc, faultpc := x.sys.faultpc, faultaddr := x.sys.faultaddr } }

/-- A slot after the END of an activation (R286). -/
def endSlot (v : Slot) : Slot := if v.state = .loading then lostSlot v else v

/-- A slot after an urgent activation has ended, from the slot as saved and as it stands (R286). -/
def resumeSlot (saved now : Slot) : Slot :=
  if !now.touched then saved
  else
    match saved.state with
    | .empty => { emptySlot with touched := true }
    | .loading => { saved with rows := [], lossy := saved.lossy || saved.source.isNone, touched := true }
    | .ready => { saved with state := if saved.source.isSome then .reloading else .lost, touched := true }
    | .reloading => { saved with touched := true }
    | .lost => { saved with touched := true }

/-- The slots of a core that wait for a reload, as events. -/
def reloadEvents (s : State) (c : Nat) : List Event :=
  ((List.range 4).filter (fun i => (getSlot (getCore s c) i).state == .reloading)).map (fun i => .slotReloadComplete c i)

/-- URGENT_RESUME: the pre-empted activation stands on its core again, exactly as it stopped (R54, R551). -/
def resumeAct (s : State) (c : Nat) (x : Ctx) : State :=
  let k := getCore s c
  let slots : Vector Slot 4 := (Vector.range 4).map (fun i => resumeSlot (k.suspSlots.getD i emptySlot) (getSlot k i))
  let t := setCore s c { k with state := .running, ctx := x, susp := none, suspSlots := [], slots := slots }
  let t := if k.urgents.isEmpty then t else push t (.urgentPreempt c)
  resumeTile (pushAll t (reloadEvents t c)) c

/-- The state after the live activation of a core has ended: the slot is free, or the pre-empted activation resumes; the
unregioned scratchpad bytes are undefined (R50, R54, R59). -/
def closeAct (s : State) (c : Nat) (failed counts : Bool) : State :=
  let t := settleAct (disbandGang s c 7) c (getCtx s c) failed counts
  let t := scramble (modCore t c (fun k => { k with slots := k.slots.map endSlot })) c
  match (getCore t c).susp with
  | some x => resumeAct t c x
  | none =>
    push (modCore t c (fun k => { k with state := .idle, stop := .none, ctx := idleCtx k.ctx })) (.activationChoose c)

/-- The state after the pre-empted activation of a core has ended where it stands (R546, R565). -/
def closeSusp (s : State) (c : Nat) (x : Ctx) (failed counts : Bool) : State :=
  modCore (settleAct s c x failed counts) c (fun k => { k with susp := none, suspSlots := [] })

/-- Whether a tag names a pair. -/
def tagged (p : Nat) (t : Option PairTag) : Bool :=
  match t with
  | some u => u.pair == p
  | none => false

/-- Whether a key request is one of a pair of this module: a copy's, or one performed for both. -/
def pairReq (p : Nat) (r : KeyReq) : Bool :=
  match r.issuer with
  | .task _ _ _ _ => tagged p r.tag || r.pair == some p
  | _ => false

/-- Whether a context runs a copy of a pair. -/
def runsPair (p : Nat) (x : Ctx) : Bool :=
  match x.act.bind (·.pair) with
  | some (q, _) => q == p
  | none => false

/-- Whether a core keeps a delivered record of a pair, or runs a copy of it. -/
def keepsPair (p : Nat) (k : Core) : Bool :=
  runsPair p k.ctx || k.susp.any (runsPair p) ||
    k.aq.toList.any (fun e => match e with | .delivered r => (r.pair.map (·.1)) == some p | _ => false)

/-- Whether a pair is live: a copy has not ended, a message of it has not been performed, or a continuation stands for it (R556, R560). -/
def pairLive (s : State) (d : DualPair) : Bool :=
  !(d.ended.contains 0 && d.ended.contains 1) || s.msgs.any (fun m => tagged d.pair m.tag) || s.keyReqs.any (pairReq d.pair) ||
    s.homes.any (fun h => h.2.waiters.any (pairReq d.pair)) || !(outstandingReqs s (pairReq d.pair)).isEmpty ||
    s.deliveries.any (fun e => pairReq d.pair e.req) || d.cores.any (fun c => keepsPair d.pair (getCore s c))

/-- The state without the pairs that are done. -/
def tidyPairs (s : State) : State := { s with pairs := s.pairs.filter (pairLive s) }

/-- Whether the END of an activation counts: of a dual pair, copy 0's only, and its record's once (R561). -/
def endCounts (s : State) (x : Ctx) : Bool :=
  match x.act with
  | some a =>
    (match a.pair with
     | some (p, copy) => copy == 0 && (a.kind == .continuation || !s.pairs.any (fun d => d.pair == p && d.counted))
     | none => true)
  | none => false

/-- The state with a copy's END noted at its pair (R556, R561). -/
def notePairEnd (s : State) (x : Ctx) : State :=
  match x.act with
  | none => s
  | some a =>
    match a.pair with
    | none => s
    | some (p, copy) =>
      tidyPairs { s with pairs := s.pairs.map (fun d =>
        if d.pair = p then
          { d with ended := if d.ended.contains copy then d.ended else d.ended ++ [copy], counted := d.counted || copy == 0,
                   sent := tabSet d.sent copy a.msgIdx }
        else d) }

/-- A failed activation on a core (R546): the live one of a serial number, or the pre-empted one. -/
def failAct (s : State) (c serial : Nat) (counts : Bool) : State :=
  if runsSerial (getCtx s c) serial then closeAct s c true counts
  else
    match (getCore s c).susp with
    | some x => if runsSerial x serial then closeSusp s c x true counts else s
    | none => s

/-- Whether every member of a core's gang has completed the tile units dispatched to it (R374). -/
def gangQuiet (s : State) (c : Nat) : Bool := (gangMembers s c).all (fun m => (getCtx s m).seq.isEmpty)

/-- END: waits for the tile stream, a leader's as UNGANG does for those of every member of its gang, then ends the activation (R50, R371,
R374). -/
def execEndAct (s : State) : Host.Outcome State Fault Refusal :=
  issue s (plainSpec [] []) (fun i t =>
    let x := getCtx t i.core
    if gangQuiet t i.core then some (notePairEnd (closeAct t i.core false (endCounts t x)) x) else none)

end Sys2Proof.Machine
end

