-- ==== Sys2Proof/Machine/Alu.lean ====
section
/-! DEFINITION. The integer families INT.R, INT.I, MULDIV and BIT (R162-R167, R121, R122, R136). -/

namespace Sys2Proof.Machine

/-- The issue checks of an integer instruction: it may run ahead (R68), and in supervisor mode poison spreads through it
(R543). -/
def intSpec (reads writes : List (BitVec 5)) : IssueSpec := { plainSpec reads writes with ahead := true, spread := true }

/-- An instruction whose only effect is a value for one register, computed from the context at issue. -/
def computeTo (s : State) (q : IssueSpec) (d : BitVec 5) (f : Issued → Ctx → Word) : Host.Outcome State Fault Refusal :=
  issue s q (fun i t => some (modCtx t i.core (fun x => setReg x d (f i x))))

/-- A three-register integer instruction (R163, R166, R167). -/
def intOp (s : State) (d a b : BitVec 5) (f : Word → Word → Word) : Host.Outcome State Fault Refusal :=
  computeTo s (intSpec [a, b] [d]) d (fun _ x => f (regVal x a) (regVal x b))

/-- A two-register bit instruction (R167). -/
def bitOp (s : State) (d a : BitVec 5) (f : Word → Word) : Host.Outcome State Fault Refusal :=
  computeTo s (intSpec [a] [d]) d (fun _ x => f (regVal x a))

/-- The working immediate, sign-extended (R136). -/
def immSigned (u : Option (BitVec 24)) (k : BitVec 12) : Word :=
  match u with
  | none => k.signExtend 64
  | some u => (u ++ k).signExtend 64

/-- The working immediate, zero-extended (R136). -/
def immUnsigned (u : Option (BitVec 24)) (k : BitVec 12) : Word :=
  match u with
  | none => k.setWidth 64
  | some u => (u ++ k).setWidth 64

/-- A register and immediate instruction that accepts XIMM (R130, R164). -/
def immOp (s : State) (d a : BitVec 5) (f : Issued → Word → Word) : Host.Outcome State Fault Refusal :=
  computeTo s { intSpec [a] [d] with imm := true } d (fun i x => f i (regVal x a))

/-- 1 for true, 0 for false. -/
def boolWord (b : Bool) : Word := if b then 1 else 0

/-- div_s of R121: truncation toward zero; all ones for a zero divisor; the overflowing case gives -2^63 again. -/
def divS (a b : Word) : Word := if b = 0 then BitVec.allOnes 64 else BitVec.ofInt 64 (Int.tdiv a.toInt b.toInt)

/-- div_u of R121. -/
def divU (a b : Word) : Word := if b = 0 then BitVec.allOnes 64 else BitVec.ofNat 64 (a.toNat / b.toNat)

/-- rem_s of R121: the remainder takes the sign of the dividend. -/
def remS (a b : Word) : Word := if b = 0 then a else BitVec.ofInt 64 (Int.tmod a.toInt b.toInt)

/-- rem_u of R121. -/
def remU (a b : Word) : Word := if b = 0 then a else BitVec.ofNat 64 (a.toNat % b.toNat)

/-- The high half of the signed product (R166). -/
def mulHigh (a b : Word) : Word := BitVec.ofInt 64 (a.toInt * b.toInt / 2 ^ 64)

/-- The high half of the unsigned product (R166). -/
def mulHighU (a b : Word) : Word := BitVec.ofNat 64 (a.toNat * b.toNat / 2 ^ 64)

/-- The number of leading zero bits, 64 for 0 (R167). -/
def leadingZeros (a : Word) : Nat := if a = 0 then 64 else 63 - Nat.log2 a.toNat

/-- The number of trailing zero bits, 64 for 0 (R167). -/
def trailingZeros (a : Word) : Nat := ((List.range 64).find? (fun i => a.getLsbD i)).getD 64

/-- The number of one bits (R167). -/
def onesCount (a : Word) : Nat := ((List.range 64).filter (fun i => a.getLsbD i)).length

/-- The bits in reverse order (R167). -/
def reverseBits (a : Word) : Word :=
  BitVec.ofNat 64 ((List.range 64).foldl (fun n i => n * 2 + (if a.getLsbD i then 1 else 0)) 0)

/-- The position of a bit field (R167). -/
def fieldPos (b : Word) : Nat := b.toNat % 64

/-- The length of a bit field; 0 stands for 64 (R167). -/
def fieldLen (b : Word) : Nat := if b.toNat / 256 % 64 = 0 then 64 else b.toNat / 256 % 64

/-- BEXT (R167). -/
def extractField (a b : Word) : Word := BitVec.ofNat 64 (a.toNat / 2 ^ fieldPos b % 2 ^ fieldLen b)

/-- BINS (R167). -/
def insertField (old a b : Word) : Word :=
  let m : Word := BitVec.ofNat 64 ((2 ^ fieldLen b - 1) * 2 ^ fieldPos b)
  (old &&& ~~~m) ||| (BitVec.ofNat 64 (a.toNat * 2 ^ fieldPos b) &&& m)

/-- ADD: a + b (R163). -/
def execAdd (d a b : BitVec 5) (s : State) : Host.Outcome State Fault Refusal := intOp s d a b (fun x y => x + y)

/-- SUB: a - b (R163). -/
def execSub (d a b : BitVec 5) (s : State) : Host.Outcome State Fault Refusal := intOp s d a b (fun x y => x - y)

/-- AND: R163. -/
def execAnd (d a b : BitVec 5) (s : State) : Host.Outcome State Fault Refusal := intOp s d a b (fun x y => x &&& y)

/-- OR: R163. -/
def execOr (d a b : BitVec 5) (s : State) : Host.Outcome State Fault Refusal := intOp s d a b (fun x y => x ||| y)

/-- XOR: R163. -/
def execXor (d a b : BitVec 5) (s : State) : Host.Outcome State Fault Refusal := intOp s d a b (fun x y => x ^^^ y)

/-- ANDN: a and not b (R163). -/
def execAndn (d a b : BitVec 5) (s : State) : Host.Outcome State Fault Refusal := intOp s d a b (fun x y => x &&& ~~~y)

/-- ORN: a or not b (R163). -/
def execOrn (d a b : BitVec 5) (s : State) : Host.Outcome State Fault Refusal := intOp s d a b (fun x y => x ||| ~~~y)

/-- SLL: left shift by b mod 64 (R163, R122). -/
def execSll (d a b : BitVec 5) (s : State) : Host.Outcome State Fault Refusal := intOp s d a b (fun x y => x <<< (y.toNat % 64))

/-- SRL: logical right shift by b mod 64 (R163, R122). -/
def execSrl (d a b : BitVec 5) (s : State) : Host.Outcome State Fault Refusal := intOp s d a b (fun x y => x >>> (y.toNat % 64))

/-- SRA: arithmetic right shift by b mod 64 (R163, R122). -/
def execSra (d a b : BitVec 5) (s : State) : Host.Outcome State Fault Refusal := intOp s d a b (fun x y => x.sshiftRight (y.toNat % 64))

/-- SLT: signed less-than (R163). -/
def execSlt (d a b : BitVec 5) (s : State) : Host.Outcome State Fault Refusal := intOp s d a b (fun x y => boolWord (x.slt y))

/-- SLTU: unsigned less-than (R163). -/
def execSltu (d a b : BitVec 5) (s : State) : Host.Outcome State Fault Refusal := intOp s d a b (fun x y => boolWord (x.ult y))

/-- MIN: signed minimum (R163). -/
def execMin (d a b : BitVec 5) (s : State) : Host.Outcome State Fault Refusal := intOp s d a b (fun x y => if x.slt y then x else y)

/-- MAX: signed maximum (R163). -/
def execMax (d a b : BitVec 5) (s : State) : Host.Outcome State Fault Refusal := intOp s d a b (fun x y => if x.slt y then y else x)

/-- MINU: unsigned minimum (R163). -/
def execMinu (d a b : BitVec 5) (s : State) : Host.Outcome State Fault Refusal := intOp s d a b (fun x y => if x.ult y then x else y)

/-- MAXU: unsigned maximum (R163). -/
def execMaxu (d a b : BitVec 5) (s : State) : Host.Outcome State Fault Refusal := intOp s d a b (fun x y => if x.ult y then y else x)

/-- MUL: low half of the product (R166). -/
def execMul (d a b : BitVec 5) (s : State) : Host.Outcome State Fault Refusal := intOp s d a b (fun x y => x * y)

/-- MULH: high half of the signed product (R166). -/
def execMulh (d a b : BitVec 5) (s : State) : Host.Outcome State Fault Refusal := intOp s d a b (fun x y => mulHigh x y)

/-- MULHU: high half of the unsigned product (R166). -/
def execMulhu (d a b : BitVec 5) (s : State) : Host.Outcome State Fault Refusal := intOp s d a b (fun x y => mulHighU x y)

/-- DIV: signed division (R166). -/
def execDiv (d a b : BitVec 5) (s : State) : Host.Outcome State Fault Refusal := intOp s d a b (fun x y => divS x y)

/-- DIVU: unsigned division (R166). -/
def execDivu (d a b : BitVec 5) (s : State) : Host.Outcome State Fault Refusal := intOp s d a b (fun x y => divU x y)

/-- REM: signed remainder (R166). -/
def execRem (d a b : BitVec 5) (s : State) : Host.Outcome State Fault Refusal := intOp s d a b (fun x y => remS x y)

/-- REMU: unsigned remainder (R166). -/
def execRemu (d a b : BitVec 5) (s : State) : Host.Outcome State Fault Refusal := intOp s d a b (fun x y => remU x y)

/-- BEXT: extract a bit field (R167). -/
def execBext (d a b : BitVec 5) (s : State) : Host.Outcome State Fault Refusal := intOp s d a b (fun x y => extractField x y)

/-- LEA: a + b * 2^s (R163). -/
def execLea (d a b : BitVec 5) (sh : BitVec 2) (s : State) : Host.Outcome State Fault Refusal :=
  intOp s d a b (fun x y => x + (y <<< sh.toNat))

/-- ADDI (R164). -/
def execAddi (d a : BitVec 5) (k : BitVec 12) (s : State) : Host.Outcome State Fault Refusal :=
  immOp s d a (fun i x => x + immSigned i.ximm k)

/-- ANDI (R164). -/
def execAndi (d a : BitVec 5) (k : BitVec 12) (s : State) : Host.Outcome State Fault Refusal :=
  immOp s d a (fun i x => x &&& immUnsigned i.ximm k)

/-- ORI (R164). -/
def execOri (d a : BitVec 5) (k : BitVec 12) (s : State) : Host.Outcome State Fault Refusal :=
  immOp s d a (fun i x => x ||| immUnsigned i.ximm k)

/-- XORI (R164). -/
def execXori (d a : BitVec 5) (k : BitVec 12) (s : State) : Host.Outcome State Fault Refusal :=
  immOp s d a (fun i x => x ^^^ immUnsigned i.ximm k)

/-- SLTI (R164). -/
def execSlti (d a : BitVec 5) (k : BitVec 12) (s : State) : Host.Outcome State Fault Refusal :=
  immOp s d a (fun i x => boolWord (x.slt (immSigned i.ximm k)))

/-- SLTIU (R164). -/
def execSltiu (d a : BitVec 5) (k : BitVec 12) (s : State) : Host.Outcome State Fault Refusal :=
  immOp s d a (fun i x => boolWord (x.ult (immSigned i.ximm k)))

/-- LIH (R164). -/
def execLih (d a : BitVec 5) (k : BitVec 12) (s : State) : Host.Outcome State Fault Refusal :=
  immOp s d a (fun i x => (immSigned i.ximm k <<< 36) ||| (x &&& BitVec.ofNat 64 (2 ^ 36 - 1)))

/-- SLLI: accepts no XIMM (R164). -/
def execSlli (d a : BitVec 5) (k : BitVec 6) (s : State) : Host.Outcome State Fault Refusal :=
  bitOp s d a (fun x => x <<< k.toNat)

/-- SRLI: accepts no XIMM (R164). -/
def execSrli (d a : BitVec 5) (k : BitVec 6) (s : State) : Host.Outcome State Fault Refusal :=
  bitOp s d a (fun x => x >>> k.toNat)

/-- SRAI: accepts no XIMM (R164). -/
def execSrai (d a : BitVec 5) (k : BitVec 6) (s : State) : Host.Outcome State Fault Refusal :=
  bitOp s d a (fun x => x.sshiftRight k.toNat)

/-- CLZ (R167). -/
def execClz (d a : BitVec 5) (s : State) : Host.Outcome State Fault Refusal := bitOp s d a (fun x => BitVec.ofNat 64 (leadingZeros x))

/-- CTZ (R167). -/
def execCtz (d a : BitVec 5) (s : State) : Host.Outcome State Fault Refusal := bitOp s d a (fun x => BitVec.ofNat 64 (trailingZeros x))

/-- POPC (R167). -/
def execPopc (d a : BitVec 5) (s : State) : Host.Outcome State Fault Refusal := bitOp s d a (fun x => BitVec.ofNat 64 (onesCount x))

/-- BREV (R167). -/
def execBrev (d a : BitVec 5) (s : State) : Host.Outcome State Fault Refusal := bitOp s d a (fun x => reverseBits x)

/-- BINS reads its destination too (R167). -/
def execBins (d a b : BitVec 5) (s : State) : Host.Outcome State Fault Refusal :=
  computeTo s (intSpec [a, b, d] [d]) d (fun _ x => insertField (regVal x d) (regVal x a) (regVal x b))

end Sys2Proof.Machine
end

