-- ==== Sys2Proof/Machine/FrontBase.lean ====
section
/-! DEFINITION. Host queues and packets: looking up, changing and completing them (R376-R390). -/

namespace Sys2Proof.Machine

/-- A host queue. -/
def getHq (s : State) (q : Nat) : HostQueue := tabGet emptyQueue s.queues q

/-- The state with a host queue replaced. -/
def setHq (s : State) (q : Nat) (h : HostQueue) : State := { s with queues := tabSet s.queues q h }

/-- A packet of a queue that has not retired. -/
def findPacket (s : State) (q n : Nat) : Option Packet := (getHq s q).packets.find? (fun p => p.n == n)

/-- The state with a packet changed. -/
def modPacket (s : State) (q n : Nat) (f : Packet → Packet) : State :=
  let h := getHq s q
  setHq s q { h with packets := h.packets.map (fun p => if p.n = n then f p else p) }

/-- The header of a packet (R382). -/
def pktHeader (p : Packet) : Nat := leNat (p.bytes.take 8)

/-- The number of R377 of a packet. -/
def pktNumber (n : Nat) : Nat := n % 2 ^ 64

/-- How often the counts of a packet's queue had been reset before it was fetched. -/
def pktEpoch (n : Nat) : Nat := n / 2 ^ 64

/-- The word of a packet at a byte offset (R383). -/
def pktWord (p : Packet) (off : Nat) : Word := BitVec.ofNat 64 (leNat ((p.bytes.drop off).take 8))

/-- Whether a packet asks for a completion record (R382). -/
def pktCmpl (p : Packet) : Bool := fld (pktHeader p) 9 1 == 1

/-- The state with the completed packets that owe no record retired. -/
def retirePackets (s : State) (q : Nat) : State :=
  let h := getHq s q
  setHq s q { h with packets := h.packets.filter (fun p => !(p.completed && p.written)) }

/-- The state after a packet has completed with a status (R389, R390); `force` asks for a record whatever CMPL says. -/
def finishPacket (s : State) (q n status detail : Nat) (force : Bool) : State :=
  match findPacket s q n with
  | none => s
  | some p =>
    if p.completed then s
    else
      let rec_ := pktCmpl p || force
      let t := modPacket s q n (fun p =>
        { p with started := true, completed := true, status := status, detail := detail, written := !rec_, moment := s.nextId })
      let h := getHq t q
      let t := if status = 0 then t else setHq t q { h with failed := h.failed ++ [n] }
      if rec_ then push t (.completionRecordWrite q n) else retirePackets t q

end Sys2Proof.Machine
end

