-- ==== Sys2Proof/Machine/Pairs.lean ====
section
/-! DEFINITION. Dual pairs: the hash and the sequence number of a copy's messages, the killing of a pair, and what a dual copy
may not send (R555-R561). -/

namespace Sys2Proof.Machine

/-- One bit of CRC-64 with the ECMA-182 polynomial, unreflected (R556). -/
def crcBit (v : BitVec 64) : BitVec 64 := if v.msb then (v <<< 1) ^^^ 0x42F0E1EBA9EA3693 else v <<< 1

/-- One byte of CRC-64. -/
def crcByte (v : BitVec 64) (b : Byte) : BitVec 64 :=
  (List.range 8).foldl (fun u _ => crcBit u) (v ^^^ (b.setWidth 64 <<< 56))

/-- The hash of a message: CRC-64 over the operation code, the destination, every operand and the payload bytes (R556); each
number stands as 8 bytes, little-endian (log 12). -/
def messageHash (op dest : Nat) (operands : List Nat) (payload : List Byte) : BitVec 64 :=
  (((op :: dest :: operands).map (leBytes 8)).flatten ++ payload).foldl crcByte 0

/-- A value of `n` words as words, the lowest first, each an operand of a message hash (R556). -/
def hashWords (n v : Nat) : List Nat := (List.range n).map (fun i => v / 2 ^ (64 * i) % 2 ^ 64)

/-- The tag of a copy's next message: pair, copy, index and hash; none for an ordinary task (R556). -/
def tagOf (x : Ctx) (op dest : Nat) (operands : List Nat) (payload : List Byte) : Option PairTag :=
  match x.act with
  | none => none
  | some a =>
    match a.pair with
    | none => none
    | some (p, copy) => some { pair := p, copy := copy, idx := a.msgIdx, hash := messageHash op dest operands payload }

/-- The context after a copy has sent a message: its index rises modulo 4096 (R556). -/
def nextIdx (x : Ctx) : Ctx :=
  { x with act := x.act.map (fun a => if a.pair.isSome then { a with msgIdx := (a.msgIdx + 1) % 4096 } else a) }

/-- Whether the running activation of a core is a dual copy. -/
def isDual (s : State) (c : Nat) : Bool := (getCtx s c).sys.dual

/-- The pair of a number, while it is live. -/
def findPair (s : State) (p : Nat) : Option DualPair := s.pairs.find? (fun d => d.pair == p)

/-- Whether a failed copy counts as ended: a continuation of copy 0, which was counted as created (R365, R561). -/
def failCounts (x : Ctx) : Bool :=
  match x.act with
  | some a => a.kind == .continuation && (a.pair.map (·.2)) == some 0
  | none => false

/-- The delivered continuations of copy 0 of a pair that wait on a core. -/
def pairConts (p : Nat) (k : Core) : Nat :=
  (k.aq.toList.filter (fun e => match e with
    | .delivered r => r.kind == .continuation && r.pair == some (p, 0)
    | _ => false)).length

/-- The generation of a registered continuation of a dual pair's waiters on a core. -/
def pairGens (s : State) (p c : Nat) : List Nat :=
  let of_ (r : KeyReq) : List Nat := match r.issuer with
    | .task core _ name _ => (if core = c then [name % 2 ^ 16] else []) ++ (r.twin.toList.filter (fun t => t.core == c)).map (fun t => t.name % 2 ^ 16)
    | _ => []
  (((s.homes.map (fun h => h.2.waiters)).flatten ++ outstandingReqs s (fun _ => true)).filter (pairReq p)).flatMap of_

/-- The state after a copy of a pair has failed on a core, running, pre-empted, dormant or not yet started (R560). -/
def failCopy (p : Nat) (s : State) (c : Nat) : State :=
  let k := getCore s c
  let gens := pairGens s p c
  let t := if runsPair p k.ctx then closeAct s c true (failCounts k.ctx)
    else
      match k.susp with
      | some x => if runsPair p x then closeSusp s c x true (failCounts x) else s
      | none => s
  let t := (List.range (pairConts p (getCore t c))).foldl (fun u _ => countEnded u c) t
  let t := modCore t c (fun k => { k with aq := k.aq.map (fun e =>
    match e with
    | .delivered r => if (r.pair.map (·.1)) = some p then .free else e
    | _ => e) })
  gens.foldl (fun u g => retireDormant (dropConts u c g) c g) t

/-- The die of the Foreman of a core. -/
def coreForeman (s : State) (c : Nat) : Nat := physCore s c / 136

/-- PAIR_KILL: held arrivals are discarded, both copies fail, and the record is placed again once; the second time the launch
gets FAULT and the record counts as ended, unless it has been counted. The Foremans of both cores are told (R560, R561). `blame` lists the
cores whose mismatch counts rise (R568). -/
def killPair (s : State) (p : Nat) (blame : List Nat) : State :=
  match s.pairs.find? (fun d => d.pair == p && pairLive s d) with
  | none => s
  | some d =>
    let heldReq (r : KeyReq) : Bool := (issuerCore r.issuer).isSome && tagged p r.tag
    let gone := (s.msgs.filter (fun m => tagged p m.tag)).map (·.op) ++
      (s.keyReqs.filter heldReq).filterMap reqOp
    let t := { s with
      ops := s.ops.filter (fun o => !gone.contains o.id),
      notices := s.notices ++ d.cores.map (fun c => (coreForeman s c, Notice.pair p)),
      pairs := s.pairs.filter (fun e => e.pair != p),
      msgs := s.msgs.filter (fun m => !tagged p m.tag), keyReqs := s.keyReqs.filter (fun r => !heldReq r) }
    let t := d.cores.foldl (failCopy p) t
    let t := withdrawWaiters t (pairReq p)
    let t := blame.foldl countMismatch t
    if d.second then
      match d.cores with
      | c :: _ => modCore (if d.counted then t else countEnded t c) c (fun k => { k with faultErr := true })
      | [] => t
    else
      push (bumpId { t with
        dualWaits := t.dualWaits ++ [{ id := t.nextId, part := d.part, record := d.record, second := true, counted := d.counted, core := 0, after := (0, 0) }] })
        (.dualPairPlace t.nextId)

end Sys2Proof.Machine
end

