-- ==== Sys2Proof/Machine/Messages.lean ====
section
/-! DEFINITION. The messages of the task plane: sending them, their order and their release, and what CALLAT, MSEND, RETV and a
round close do where they arrive (R33, R47, R321, R325, R355, R356, R363, R364, R368, R369, R502, R508, R557). -/

namespace Sys2Proof.Machine

/-! ### Sending -/

/-- The message of a name. -/
def findMsg (s : State) (n : Nat) : Option TaskMsg := s.msgs.find? (fun m => m.id == n)

/-- The state without a message. -/
def dropMsg (s : State) (n : Nat) : State := { s with msgs := s.msgs.filter (fun m => m.id != n) }

/-- The event with which a message arrives. -/
def msgEvent (b : TaskBody) (n : Nat) : Event :=
  match b with
  | .callat _ => .callatArrive n
  | .mail _ _ _ => .messageArrive n
  | .xfree _ => .xfreeNoticeArrive n
  | .rndclose _ => .roundCloseArrive n
  | .stealReq _ _ _ => .stealRequestServe n
  | .stealReply _ => .stealReplyArrive n
  | .stealAck _ => .stealAckArrive n
  | .root _ _ => .rootRecordArrive n
  | .dualSpawn _ => .assayFirstArrival n
  | .urgent _ => .urgentEventArrive n
  | .mcast op => .multicastDelivery op n

/-- The state with a message sent, named `s.nextId`; one with a tag goes to an Assay point first (R559). -/
def sendMsg (s : State) (c target op : Nat) (tag : Option PairTag) (body : TaskBody) : State :=
  let x := getCtx s c
  let m : TaskMsg :=
    { id := s.nextId, core := c, name := x.sys.tid.toNat, target := target, egen := sentEgen s c target, op := op, tag := tag,
      assayed := false, serial := serialOf x, twin := none, body := body }
  push (bumpId { s with msgs := s.msgs ++ [m] }) (if tag.isSome then .assayFirstArrival s.nextId else msgEvent body s.nextId)

/-- Whether every access of an activation before a moment has been performed at a scope, wherever the activation stands. -/
def relDone (s : State) (c serial before scope : Nat) : Bool :=
  match actCtx (getCore s c) serial with
  | some x => releaseReady s c (genOf x) x scope before
  | none =>
    s.accs.all (fun a => a.core != c || a.serial != serial || decide (before ≤ a.id) || accSettled a || !inReach s c a scope) &&
      carriedReady s c scope before

/-- Whether a message belongs to the task class of a flow (R321). -/
def inFlow (b : TaskBody) : Bool :=
  match b with
  | .callat _ => true
  | .mail _ _ _ => true
  | .xfree _ => true
  | .rndclose _ => true
  | _ => false

/-- Whether a message must wait: an earlier one of its flow is under way, its release is not done, or the partition of its
target is switched out (R321, R325, R553). -/
def msgWaits (s : State) (m : TaskMsg) : Bool :=
  s.msgs.any (fun r => r.core == m.core && r.target == m.target && decide (r.id < m.id) && inFlow r.body && !r.assayed) ||
    !relDone s m.core m.serial m.id 3 || coreOut s m.target

/-- Why a message does not reach its target, as a task outcome code: 2 REFUSED, 4 BOUNCED (R33, R356, R508). -/
def taskReach (s : State) (c t : Nat) (egen : BitVec 8) : Option Nat :=
  if coreCount ≤ t then some 2
  else if partOf s c ≠ partOf s t ∨ (partOf s c).isNone then some 2
  else if !(mapOf s t).bound || (getCore s t).state == .killed || (mapOf s t).egen != egen then some 4
  else none

/-- The state after a message has ended with a status, at its sender and at the sender's twin (R355, R559). -/
def endMsg (s : State) (m : TaskMsg) (v : Word) : State :=
  let t := endOp (dropMsg s m.id) m.op v
  match m.twin with
  | some op => endOp t op v
  | none => t

/-! ### Arrivals -/

/-- The first free entry of an activation queue (R47). -/
def freeAq (k : Core) : Option Nat := (List.range 16).find? (fun i => k.aq.getD i .free == .free)

/-- The core with an entry of its activation queue set. -/
def putAq (k : Core) (i : Nat) (e : AqEntry) : Core := { k with aq := k.aq.setIfInBounds i e }

/-- The state with a record delivered into an entry of a core's activation queue; the core may then choose it. -/
def deliverAq (s : State) (c i : Nat) (r : AqRecord) : State :=
  push (modCore (bumpId s) c (fun k => putAq k i (.delivered { r with order := s.nextId }))) (.activationChoose c)

/-- A delivered work record. -/
def plainAq (rec : WorkRec) (pair : Option (Nat × Nat)) (restart : Bool) : AqRecord :=
  { order := 0, kind := .task, record := rec, gen := none, t15 := none, pair := pair, restart := restart }

/-- A CALLAT at its target (R368): the state and the outcome code. -/
def callatAt (s : State) (m : TaskMsg) (rec : WorkRec) : State × Nat :=
  match taskReach s m.core m.target m.egen with
  | some code => (s, code)
  | none =>
    let k := getCore s m.target
    let elsewhere := match k.launch with
      | some l => l != rec.ltag
      | none => false
    if elsewhere then (s, 2)
    else if !mayRun m.target rec.cls then (s, 10)
    else
      match freeAq k with
      | none => (s, 1)
      | some i =>
        let t := countCreated (bindLaunch s m.target rec.ltag (some m.core)) m.target
        (deliverAq t m.target i (plainAq rec none false), 0)

/-- The context of the task that a name addresses, with event bit 0 latched (R246). -/
def latchMail (name : BitVec 28) (x : Ctx) : Ctx := if x.act.isSome ∧ x.sys.tid = name then latchEvt x 1 else x

/-- Whether a task name is a dual copy's (R557). -/
def dualName (k : Core) (name : BitVec 28) : Bool :=
  let is (x : Ctx) : Bool := x.act.isSome && x.sys.tid == name && x.sys.dual
  is k.ctx || (match k.susp with | some x => is x | none => false)

/-- An MSEND or RETV at its target (R363, R364, R369, R566): the state and the outcome code. -/
def mailAt (s : State) (m : TaskMsg) (kind name : Nat) (body : List Word) : State × Nat :=
  match taskReach s m.core m.target m.egen with
  | some code => (s, code)
  | none =>
    let k := getCore s m.target
    let g := name % 2 ^ 16
    let tid : BitVec 28 := BitVec.ofNat 28 name
    if k.sealedStore || k.sealedGens.contains g then (s, 4)
    else if !k.live.any (fun e => e.gen == g) then (count s (.staleMessages m.target) 1, 3)
    else if dualName k tid then (s, 2)
    else if 32 ≤ k.mail.length then (s, 1)
    else
      (setCore s m.target { k with
        mail := k.mail ++ [{ gen := g, sender := m.name, kind := kind, body := body }],
        ctx := latchMail tid k.ctx, susp := k.susp.map (latchMail tid) }, 0)

/-- The rounds of a core with the valid entry of a number changed. -/
def modRound (k : Core) (round : Nat) (f : RoundEntry → RoundEntry) : Core :=
  { k with rounds := k.rounds.map (fun r => if r.valid ∧ r.round = round then f r else r) }

/-- The member count of a group of a core's partition (R504). -/
def groupOf (s : State) (c g : Nat) : Group := tabGet emptyGroup s.groups (((partOf s c).getD 0) * 256 + g)

/-- ROUND_FIRE: a round entry whose closes equal its group's members becomes a delivered record, and is freed (R502, R46). -/
def fireRound (s : State) (c : Nat) (r : RoundEntry) : State :=
  let k := getCore s c
  let args : List Word := [r.round, r.rows, r.group, r.closed].map (BitVec.ofNat 64)
  let rec_ : WorkRec := { ltag := k.launch.getD 0, dual := false, prio := r.prio, cls := 0, entry := r.entry, args := args }
  let a : AqRecord := { order := 0, kind := .round, record := rec_, gen := none, t15 := none, pair := none, restart := false }
  let t := setCore s c (modRound k r.round (fun e => { e with valid := false }))
  countCreated (deliverAq t c r.aq a) c

/-- A round close at its target (R502, R532): the state and the outcome code. -/
def closeAt (s : State) (m : TaskMsg) (round : Nat) : State × Nat :=
  match taskReach s m.core m.target m.egen with
  | some 4 => (s, 3)
  | some _ => (s, 2)
  | none =>
    let c := m.target
    match (getCore s c).rounds.toList.find? (fun r => r.valid && r.round == round) with
    | none => (count s (.staleCloses c) 1, 0)
    | some r =>
      let r' := { r with closed := r.closed + 1 }
      let t := modCore s c (fun k => modRound k round (fun _ => r'))
      (if r'.closed = (groupOf s c r.group).members.length then fireRound t c r' else t, 0)

/-- CALLAT_ARRIVE (R368). -/
def execCallatArrive (n : Nat) (s : State) : Host.Outcome State Fault Refusal :=
  match findMsg s n with
  | none => done s
  | some m =>
    match m.body with
    | .callat rec =>
      if m.tag.isSome then done s
      else if msgWaits s m then done (push s (.callatArrive n))
      else
        let r := callatAt s m rec
        done (endMsg r.1 m (taskStatus r.2))
    | _ => done s

/-- MESSAGE_ARRIVE (R363, R369). -/
def execMessageArrive (n : Nat) (s : State) : Host.Outcome State Fault Refusal :=
  match findMsg s n with
  | none => done s
  | some m =>
    match m.body with
    | .mail kind name body =>
      if m.tag.isSome then done s
      else if msgWaits s m then done (push s (.messageArrive n))
      else
        let r := mailAt s m kind name body
        done (endMsg r.1 m (taskStatus r.2))
    | _ => done s

/-- ROUND_CLOSE_ARRIVE (R502, R532). -/
def execRoundCloseArrive (n : Nat) (s : State) : Host.Outcome State Fault Refusal :=
  match findMsg s n with
  | none => done s
  | some m =>
    match m.body with
    | .rndclose round =>
      if msgWaits s m then done (push s (.roundCloseArrive n))
      else
        let r := closeAt s m round
        done (endMsg r.1 m (barStatus r.2 0))
    | _ => done s

end Sys2Proof.Machine
end

