-- ==== Sys2Proof/Machine/Tasks.lean ====
section
/-! DEFINITION. The task instructions: SPAWN, CALLAT, RETV, MSEND, MPOLL, GANG, UNGANG and GSYNC (R368-R374). -/

namespace Sys2Proof.Machine

/-! ### SPAWN and CALLAT (R357, R358, R368) -/

/-- The register of an operand field that names an aligned group of four (R143). -/
def quadReg (b : BitVec 3) : BitVec 5 := b ++ 0#2

/-- The register of an operand field that names an aligned group of eight (R143). -/
def octReg (a : BitVec 2) : BitVec 5 := a ++ 0#3

/-- The state with a task status word written to a register at once. -/
def putTask (t : State) (c : Nat) (d : BitVec 5) (v : Word) : State := modCtx t c (fun x => setStatus x d v)

/-- The work record of a SPAWN or CALLAT (R354, R368). -/
def spawnRecord (k : Core) (a b : BitVec 5) (p c : BitVec 2) (dual : Bool) : WorkRec :=
  { ltag := k.launch.getD 0, dual := dual, prio := p.toNat, cls := c.toNat, entry := (regVal k.ctx a).setWidth 48,
    args := groupVals k.ctx b 4 }

/-- A record as numbers, for a message hash (R556). -/
def recordOperands (r : WorkRec) : List Nat :=
  [r.dual.toNat, r.prio, r.cls, r.entry.toNat] ++ r.args.map BitVec.toNat

/-- The dual records that the distributor holds for a partition at most (R358). -/
def dualDepth : Nat := 256

/-- The state with a dual record accepted by the distributor, from the copy or task of a core (R358, R365). -/
def acceptDual (s : State) (c : Nat) (rec_ : WorkRec) (after : Nat × Nat) : State × Nat :=
  let p := (partOf s c).getD 0
  if dualDepth ≤ (s.dualWaits.filter (fun w => w.part == p)).length then (s, 1)
  else
    let t := { s with
      dualWaits := s.dualWaits ++ [{ id := s.nextId, part := p, record := rec_, second := false, counted := false, core := c, after := after }] }
    (push (bumpId (countCreated t c)) (.dualPairPlace s.nextId), 0)

/-- The depth of a deque (R353). -/
def dequeDepth : Nat := 64

/-- A SPAWN of an ordinary record: pushed at the bottom, or FULL (R357). -/
def pushDeque (s : State) (c : Nat) (rec_ : WorkRec) : State × Nat :=
  let k := getCore s c
  if dequeDepth ≤ k.deque.length then (s, 1)
  else
    let e : DqEntry := { record := rec_, reserved := none, after := (serialOf k.ctx, s.nextId) }
    (countCreated (bumpId (setCore s c { k with deque := e :: k.deque })) c, 0)

/-- The state with a message of the running task sent, its operation started and its index counted (R321, R556). -/
def sendTask (t : State) (i : Issued) (d : BitVec 5) (target opcode dest : Nat) (operands : List Nat) (body : TaskBody) : State :=
  let tag := tagOf (getCtx t i.core) opcode dest operands []
  let op := t.nextId
  modCtx (sendMsg (startOp t i.core d i.upc .task) i.core target op tag body) i.core nextIdx

/-- SPAWN (R357, R358, R557). -/
def execSpawn (d a : BitVec 5) (b : BitVec 3) (p c : BitVec 2) (u : BitVec 1) (s : State) : Host.Outcome State Fault Refusal :=
  let g := quadReg b
  issue s (plainSpec (a :: groupRegs g 4) [d]) (fun i t =>
    let k := getCore t i.core
    let r := spawnRecord k a g p c (u == 1)
    let t := modCtx t i.core setCommit
    if holdsStores k.ctx then none
    else if k.ctx.sys.dual then
      if u = 1 then some (sendTask t i d 0 0x1400 0 (recordOperands r) (.dualSpawn r))
      else some (putTask t i.core d (taskStatus 2))
    else
      let o := if u = 1 then acceptDual t i.core r (serialOf k.ctx, t.nextId) else pushDeque t i.core r
      some (putTask o.1 i.core d (taskStatus o.2)))

/-- CALLAT (R368). -/
def execCallat (d a : BitVec 5) (b : BitVec 3) (p c : BitVec 2) (s : State) : Host.Outcome State Fault Refusal :=
  let g := quadReg b
  issue s (plainSpec (a :: groupRegs g 4) [d]) (fun i t =>
    let k := getCore t i.core
    let r := spawnRecord k a g p c false
    let target := (regVal k.ctx a).toNat / 2 ^ 48 % 2 ^ 12
    if holdsStores k.ctx then none
    else some (sendTask (modCtx t i.core setCommit) i d target 0x1401 target (recordOperands r) (.callat r)))

/-! ### Messages (R363, R369, R370) -/

/-- The effect of RETV and MSEND at issue: a message to a task name. -/
def mailBody (d : BitVec 5) (kind opcode : Nat) (name : Nat) (body : List Word) (i : Issued) (t : State) : Option State :=
  if holdsStores (getCtx t i.core) then none
  else
    some (sendTask (modCtx t i.core setCommit) i d (name / 2 ^ 16) opcode name (body.map BitVec.toNat) (.mail kind name body))

/-- RETV: the value, with zeros above (R369). -/
def execRetv (d a b : BitVec 5) (s : State) : Host.Outcome State Fault Refusal :=
  issue s (plainSpec [a, b] [d]) (fun i t =>
    let x := getCtx t i.core
    mailBody d 2 0x1402 ((regVal x a).toNat % 2 ^ 28) [regVal x b, 0, 0, 0] i t)

/-- MSEND (R369). -/
def execMsend (d a : BitVec 5) (b : BitVec 3) (s : State) : Host.Outcome State Fault Refusal :=
  let g := quadReg b
  issue s (plainSpec (a :: groupRegs g 4) [d]) (fun i t =>
    let x := getCtx t i.core
    mailBody d 1 0x1404 ((regVal x a).toNat % 2 ^ 28) (groupVals x g 4) i t)

/-- The status of an MPOLL that returns a message (R355). -/
def mailStatus (m : Mail) : Word := packWord [(1, 0), (m.kind, 12), (m.sender, 32)]

/-- The messages without the oldest one of a generation. -/
def takeMail (g : Nat) (ms : List Mail) : Option (Mail × List Mail) :=
  match ms with
  | [] => none
  | m :: r => if m.gen = g then some (m, r) else (takeMail g r).map (fun p => (p.1, m :: p.2))

/-- MPOLL: the oldest message of the own name, or EMPTY (R370); a dual copy finds none (R557). -/
def execMpoll (d : BitVec 5) (b : BitVec 3) (s : State) : Host.Outcome State Fault Refusal :=
  let g := quadReg b
  issue s (plainSpec [] (d :: groupRegs g 4)) (fun i t =>
    let t := modCtx t i.core setCommit
    let k := getCore t i.core
    if holdsLoads k.ctx then none
    else
      match (if k.ctx.sys.dual then none else takeMail (nameGen k.ctx.sys.tid).toNat k.mail) with
      | none => some (putTask t i.core d (taskStatus 5))
      | some (m, rest) =>
        some (setCore t i.core { k with mail := rest, ctx := setStatus (setGroup k.ctx g m.body) d (mailStatus m) }))

/-! ### Gangs (R73, R78, R373, R374) -/

/-- The size that a size code names (R372). -/
def gangSize (z : BitVec 2) : Nat := if z = 1 then 2 else if z = 2 then 4 else 8

/-- The aligned set of a core (R73). -/
def gangSet (c n : Nat) : List Nat := (List.range n).map (fun i => c - c % n + i)

/-- Whether a core waits in GANG with a size. -/
def waitsGang (n : Nat) (k : Core) : Bool :=
  match k.gang with
  | .waiting m _ _ => m == n && k.state == .running
  | _ => false

/-- Whether a core waits in GANG with another size. -/
def waitsOther (n : Nat) (k : Core) : Bool :=
  match k.gang with
  | .waiting m _ _ => m != n
  | _ => false

/-- Whether a core of the set is bound to a launch other than the issuer's (R73). -/
def boundElsewhere (s : State) (c n : Nat) : Bool :=
  (gangSet c n).any (fun m => (getCore s m).launch.isSome && (getCore s m).launch != (getCore s c).launch)

/-- A core whose GANG completes with a code before any gang forms: past its GANG, with the status word. -/
def endGang (code : Nat) (s : State) (c : Nat) : State :=
  let k := getCore s c
  match k.gang with
  | .waiting _ r _ => setCore s c { k with gang := .none, ctx := setStatus (passUnit k.ctx) r (taskStatus code) }
  | _ => s

/-- One core of the set becomes a member of the gang (R73, R373): the leader's GANG completes, a follower's is pending. -/
def joinGang (leader n : Nat) (s : State) (c : Nat) : State :=
  let k := getCore s c
  match k.gang with
  | .waiting _ r op =>
    let x := passUnit k.ctx
    let y := if c = leader then setStatus x r (taskStatus 0) else markReg x r (.op op)
    setCore s c { k with gang := .member leader n (c - leader) r op s.nextId, ctx := y }
  | _ => s

/-- GANG_FORM: the gang of a set whose cores all wait with one size (R73). -/
def formGang (s : State) (c n : Nat) : State := (gangSet c n).foldl (joinGang (c - c % n) n) s

/-- GANG: forms, mismatches, or waits at its boundary (R73, R373). -/
def execGang (d : BitVec 5) (sv : BitVec 2) (s : State) : Host.Outcome State Fault Refusal :=
  issue s (plainSpec [] [d]) (fun i t =>
    let c := i.core
    let n := gangSize sv
    let k := getCore t c
    let wait (u : State) : State :=
      modCore (bumpId u) c (fun k => { k with gang := .waiting n d u.nextId, ctx := { k.ctx with pc := i.pc } })
    if k.ctx.sys.urg || inGang k then some (putTask t c d (taskStatus 6))
    else
      let fresh := !waitsGang n k
      let u := if fresh then wait t else modCtx t c (fun x => { x with pc := i.pc })
      let others := if fresh then (gangSet c n).filter (fun m => m != c && waitsOther n (getCore t m)) else []
      if !others.isEmpty || boundElsewhere t c n then some ((c :: others).foldl (endGang 6) u)
      else if (gangSet c n).all (fun m => waitsGang n (getCore u m)) then some (formGang u c n)
      else some u)

/-- UNGANG: a leader waits for the members' tile units and disbands; nothing outside a gang (R374). -/
def execUngang (s : State) : Host.Outcome State Fault Refusal :=
  issue s (plainSpec [] []) (fun i t =>
    if !inGang (getCore t i.core) then some t
    else if gangQuiet t i.core then some (disbandGang t i.core 7)
    else none)

/-- GSYNC: in a gang it waits for the members' tile units and reports OK; outside it acts as TWAIT, and reports NOGANG when that wait
ends (R206, R374). -/
def execGsync (d : BitVec 5) (s : State) : Host.Outcome State Fault Refusal :=
  issue s (plainSpec [] [d]) (fun i t =>
    if !inGang (getCore t i.core) then some (modCtx t i.core (fun x => { x with recent := [], wait := .tileIdle d }))
    else if gangQuiet t i.core then some (modCtx t i.core (fun x => setStatus x d (taskStatus 0)))
    else none)

end Sys2Proof.Machine
end

