-- ==== Sys2Proof/Machine/Schedule.lean ====
section
/-! DEFINITION. What runs next on a core and where work goes: the choice of an activation, urgent events, stealing, the master
distributor, and the stops that a Foreman ends (R48, R51-R56, R248, R359-R362, R538, R550, R551, R555, R568). -/

namespace Sys2Proof.Machine

/-! ### The choice (R48) -/

/-- Whether a core's partition lets it choose: it is in one, and no switch has been requested (R32, R48, R553). -/
def partLive (s : State) (c : Nat) : Bool := (partOf s c).isSome && partState s c == .live

/-- Whether a core may take an urgent event (R56). -/
def takable (k : Core) (e : UrgentEvent) : Bool := k.launch.isNone || k.launch == some e.ltag

/-- Whether a launch still runs in the partition of a core, so that the core may take an urgent event that names it (R32, R56). -/
def urgentLive (s : State) (c ltag : Nat) : Bool := (findLaunch s ltag).any (fun l => partOf s c == some l.part)

/-- The state with the urgent events of completed launches, and of those of a partition that the core has left, dropped from a core's
latch and counted (R32, R56). -/
def dropUrgents (s : State) (c : Nat) : State :=
  let k := getCore s c
  let live (e : UrgentEvent) : Bool := urgentLive s c e.ltag
  let n := (k.urgents.filter (fun e => !live e)).length
  if n = 0 then s else count (setCore s c { k with urgents := k.urgents.filter live }) .urgentDrops n

/-- The oldest event of a latch that a core may take, and the events that stay. -/
def takeUrgent (k : Core) (es : List UrgentEvent) : Option (UrgentEvent × List UrgentEvent) :=
  match es with
  | [] => none
  | e :: r => if takable k e then some (e, r) else (takeUrgent k r).map (fun p => (p.1, e :: p.2))

/-- The record under which an urgent event runs (R46, R56). -/
def urgentRecord (e : UrgentEvent) : WorkRec :=
  { ltag := e.ltag, dual := false, prio := 3, cls := 0, entry := e.entry, args := e.args }

/-- The state with an urgent activation started on a core, which is bound to its launch and counts it (R54, R56, R365). -/
def startUrgent (s : State) (c : Nat) (e : UrgentEvent) (rest : List UrgentEvent) : State :=
  let t := bindLaunch (modCore s c (fun k => { k with urgents := rest })) c e.ltag none
  startAct (countCreated t c) c .urgent (urgentRecord e) none none none false

/-- The delivered records of an activation queue with their entries. -/
def deliveredOf (k : Core) : List (Nat × AqRecord) :=
  (List.range 16).filterMap (fun i =>
    match k.aq.getD i .free with
    | .delivered r => some (i, r)
    | _ => none)

/-- Whether a deque entry may be taken: not reserved, and its SPAWN's release done (R361, R325). -/
def entryFree (s : State) (c : Nat) (e : DqEntry) : Bool := e.reserved.isNone && relDone s c e.after.1 e.after.2 3

/-- Whether a core may pop a deque entry (R357). -/
def poppable (s : State) (c : Nat) (e : DqEntry) : Bool := entryFree s c e && mayRun c e.record.cls

/-- The deque without the bottom-most entry of which a condition holds. -/
def popFirst (p : DqEntry → Bool) (es : List DqEntry) : Option (DqEntry × List DqEntry) :=
  match es with
  | [] => none
  | e :: r => if p e then some (e, r) else (popFirst p r).map (fun q => (q.1, e :: q.2))

/-- The highest priority at which a core has a record to choose (R48). -/
def topLevel (s : State) (c : Nat) : Option Nat :=
  let k := getCore s c
  let ps := (deliveredOf k).map (fun p => p.2.record.prio) ++ ((k.deque.filter (poppable s c)).map (fun e => e.record.prio))
  match ps with
  | [] => none
  | p :: r => some (r.foldl Nat.max p)

/-- The oldest delivered record of a level. -/
def oldestAt (k : Core) (level : Nat) : Option (Nat × AqRecord) :=
  ((deliveredOf k).filter (fun p => p.2.record.prio == level)).foldl (fun best p =>
    match best with
    | none => some p
    | some b => if p.2.order < b.2.order then some p else some b) none

/-- The state with the choice of a level made. -/
def chooseAt (s : State) (c level : Nat) : State :=
  let k := getCore s c
  match oldestAt k level with
  | some (i, r) => startAct (setCore s c (putAq k i .free)) c r.kind r.record r.gen r.t15 r.pair r.restart
  | none =>
    match popFirst (fun e => poppable s c e && e.record.prio == level) k.deque with
    | some (e, rest) => startAct (setCore s c { k with deque := rest }) c .task e.record none none none false
    | none => s

/-- Whether a core is the root of its launch. -/
def isRoot (s : State) (c : Nat) : Option Nat :=
  match launchOf s c with
  | some l => if l.root = some c then some l.ltag else none
  | none => none

/-- The state of a core that has found nothing to run: it searches, and a root starts a wave (R48, R359, R366). -/
def goIdle (s : State) (c : Nat) : State :=
  let k := getCore s c
  let t := if k.deque.isEmpty then s else push s (.activationChoose c)
  let t := if k.steal.busy || k.steal.backoff then t else push t (.stealProbe c)
  match isRoot t c with
  | some l => push t (.waveStart l)
  | none => t

/-- ACTIVATION_CHOOSE (R48). -/
def execActivationChoose (c : Nat) (s : State) : Host.Outcome State Fault Refusal :=
  if (getCore s c).state ≠ .idle ∨ partLive s c = false then done s
  else
    let t := dropUrgents s c
    let k := getCore t c
    match takeUrgent k k.urgents with
    | some (e, rest) => done (startUrgent t c e rest)
    | none =>
      match topLevel t c with
      | some level => done (chooseAt t c level)
      | none => done (goIdle t c)

/-! ### Urgent events (R54, R56, R396, R550, R551) -/

/-- The events that an urgent latch holds (R54). -/
def urgentDepth : Nat := 64

/-- URGENT_EVENT_ARRIVE: the event enters the latch, or is dropped and counted; while the partition is out it waits at the
front end (R54, R56, R396). -/
def execUrgentEventArrive (n : Nat) (s : State) : Host.Outcome State Fault Refusal :=
  match findMsg s n with
  | none => done s
  | some m =>
    match m.body with
    | .urgent e =>
      let c := m.target
      let t := dropMsg s n
      let k := getCore t c
      if urgentLive t c e.ltag = false ∨ k.state = .killed ∨ urgentDepth ≤ k.urgents.length then done (count t .urgentDrops 1)
      else if msgWaits s m then
        if urgentDepth ≤ (t.feUrgents.filter (fun p => p.1 == c)).length then done (count t .urgentDrops 1)
        else done { t with feUrgents := t.feUrgents ++ [(c, e)] }
      else
        let u := setCore t c { k with urgents := k.urgents ++ [e] }
        done (push u (if k.state = .idle then .activationChoose c else .urgentPreempt c))
    | _ => done s

/-- Whether the live activation of a core stands at a pre-emption point of R550, the gang aside; inside a unit the control
stream stands at the boundary before it, since the unit's prefixes have had no effect (R131), and ahead of a branch at the oldest
unresolved one (R72). -/
def preemptible (k : Core) : Bool :=
  k.state == .running && k.ctx.act.isSome && k.ctx.tileTrap.isNone && !k.ctx.sys.sup && decide (k.ctx.run.row % 8 = 0)

/-- The context as a pre-emption saves it: the unresolved generations are discarded, a wait at issue issues afresh, %xstep counts the
completed rows, and the leave of an instruction in progress has been returned (R72, R158, R281, R551). -/
def savedCtx (x : Ctx) : Ctx :=
  let y := flushAhead x
  { y with
    pc := unitPc y, pfx := none,
    wait := match y.wait with
      | .tileIdle d => .tileIdle d
      | _ => .none,
    run := { y.run with waitLeave := y.run.begun, stopped := y.run.begun },
    sys := if y.run.begun then { y.sys with xstep := BitVec.ofNat 9 y.run.row } else y.sys }

/-- The state with the live activation of a core in the shadow bank, its slots noted and its regions as a pre-emption leaves
them (R54, R59, R286, R551). -/
def suspend (s : State) (c : Nat) : State :=
  let t := dropWait (dropWait (returnRunLeave s c) (dieOf s c) (.tile c)) (dieOf s c) (.issue c)
  let t := modCore t c (fun k =>
    let slots := k.slots.map (fun v => { v with touched := false })
    { k with susp := some (savedCtx k.ctx), suspSlots := slots.toList, slots := slots, gang := .none })
  scramble (discardRegions t c) c

/-- URGENT_PREEMPT: at a pre-emption point the running activation goes to the shadow bank and the urgent one starts
(R54, R550). -/
def execUrgentPreempt (c : Nat) (s : State) : Host.Outcome State Fault Refusal :=
  let t := dropUrgents s c
  let k := getCore t c
  if k.state ≠ .running ∨ k.ctx.act.isNone ∨ k.ctx.sys.urg = true ∨ partLive t c = false then done t
  else
    match takeUrgent k k.urgents with
    | none => done t
    | some (e, rest) =>
      if !preemptible k || inGang k then done (push t (.urgentPreempt c))
      else done (startUrgent (suspend t c) c e rest)

/-! ### Stealing (R359-R361) -/

/-- The victim of probe `j`, 0 to 44, of a thief (R359). -/
def victimOf (c j : Nat) : Nat :=
  let die := c / 128
  let clu := c / 16 % 8
  let n := c % 16
  if j < 15 then c - n + (n + j + 1) % 16
  else if j < 22 then die * 128 + (clu + (j - 14)) % 8 * 16 + n
  else (die + (j - 21)) % 24 * 128 + clu * 16 + n

/-- Whether a thief skips an identifier: outside its partition, unbound in the map or killed, or bound to another launch. -/
def skipsVictim (s : State) (c v : Nat) : Bool :=
  (reachKind s c v).isSome ||
    (match (getCore s c).launch, (getCore s v).launch with
     | some l, some m => l != m
     | _, _ => false)

/-- The next probe from `j` that the thief does not skip. -/
def nextProbe (s : State) (c fuel j : Nat) : Option Nat :=
  match fuel with
  | 0 => none
  | f + 1 => if 45 ≤ j then none else if skipsVictim s c (victimOf c j) then nextProbe s c f (j + 1) else some j

/-- The state with a core's search changed. -/
def setSteal (s : State) (c next : Nat) (busy backoff : Bool) : State :=
  modCore s c (fun k => { k with steal := { next := next, busy := busy, backoff := backoff } })

/-- Whether a core has something that it may choose (R48). -/
def choosable (s : State) (c : Nat) : Bool :=
  let k := getCore s c
  (takeUrgent k k.urgents).isSome || (topLevel s c).isSome

/-- Whether a core searches: idle, with a free deque entry and nothing to choose, in a partition that lets it (R359). -/
def searches (s : State) (c : Nat) : Bool :=
  let k := getCore s c
  k.state == .idle && partLive s c && decide (k.deque.length < dequeDepth) && !choosable s c

/-- STEAL_PROBE (R359). -/
def execStealProbe (c : Nat) (s : State) : Host.Outcome State Fault Refusal :=
  let k := getCore s c
  if searches s c = false ∨ k.steal.busy = true ∨ k.steal.backoff = true then done s
  else
    match nextProbe s c 46 k.steal.next with
    | none => done (push (setSteal s c 0 false true) (.stealBackoffExpire c))
    | some j =>
      done (sendMsg (setSteal s c (j + 1) true false) c (victimOf c j) 0 none
        (.stealReq (classOf c) k.launch (dequeDepth - k.deque.length)))

/-- STEAL_BACKOFF_EXPIRE (R359). -/
def execStealBackoffExpire (c : Nat) (s : State) : Host.Outcome State Fault Refusal :=
  let k := getCore s c
  if !k.steal.backoff then done s
  else
    let t := setSteal s c 0 false false
    done (if searches t c then push t (.activationChoose c) else t)

/-- The entries that a victim yields to a thief with `f` free entries, top to bottom (R360). -/
def yielded (s : State) (v cls f : Nat) : List DqEntry :=
  let elig := ((getCore s v).deque.filter (fun e => entryFree s v e && (e.record.cls == 0 || e.record.cls == cls))).reverse
  let half := (elig.filter (fun e => mayRun v e.record.cls)).length / 2
  let pick := elig.foldl (fun (acc : List DqEntry × Nat) e =>
    if !mayRun v e.record.cls then (acc.1 ++ [e], acc.2)
    else if acc.2 < half then (acc.1 ++ [e], acc.2 + 1)
    else acc) (([] : List DqEntry), 0)
  pick.1.take f

/-- The state with entries of a deque reserved under a reply's number (R361): each listed entry once, from the top. -/
def reserveEntries (reply : Nat) (ys : List DqEntry) (es : List DqEntry) : List DqEntry :=
  (es.reverse.foldl (fun (acc : List DqEntry × List DqEntry) e =>
    match acc.2 with
    | y :: r => if e = y then ({ e with reserved := some reply } :: acc.1, r) else (e :: acc.1, acc.2)
    | [] => (e :: acc.1, [])) (([] : List DqEntry), ys)).1

/-- Whether a victim serves a thief's request, sent under an EGEN, with records (R33, R51, R360, R508). -/
def serves (s : State) (v thief : Nat) (egen : BitVec 8) (ltag : Option Nat) : Bool :=
  (taskReach s thief v egen).isNone && partLive s v && (getCore s v).launch.isSome &&
    (ltag.isNone || (getCore s v).launch == ltag)

/-- STEAL_REQUEST_SERVE (R360, R361). -/
def execStealRequestServe (n : Nat) (s : State) : Host.Outcome State Fault Refusal :=
  match findMsg s n with
  | none => done s
  | some m =>
    match m.body with
    | .stealReq cls ltag f =>
      let v := m.target
      let t := dropMsg s n
      let ys := if serves t v m.core m.egen ltag then yielded t v cls f else []
      let u := modCore t v (fun k => { k with deque := reserveEntries t.nextId ys k.deque })
      done (sendMsg u v m.core 0 none (.stealReply (ys.map (·.record))))
    | _ => done s

/-- Whether a thief may keep the records of a reply: still the core that asked, alive, not bound elsewhere, with room (R361, R508). -/
def keepsReply (s : State) (thief v : Nat) (egen : BitVec 8) (rs : List WorkRec) : Bool :=
  let k := getCore s thief
  (reachKind s v thief).isNone && (mapOf s thief).egen == egen && (k.launch.isNone || k.launch == (getCore s v).launch) &&
    decide (k.deque.length + rs.length ≤ dequeDepth)

/-- STEAL_REPLY_ARRIVE (R51, R361). -/
def execStealReplyArrive (n : Nat) (s : State) : Host.Outcome State Fault Refusal :=
  match findMsg s n with
  | none => done s
  | some m =>
    match m.body with
    | .stealReply rs =>
      let thief := m.target
      let quiet (t : State) (next : Nat) : State :=
        modCore t thief (fun k => { k with steal := { k.steal with next := next, busy := false } })
      if rs.isEmpty then
        done (push (quiet (dropMsg s n) (getCore s thief).steal.next) (.stealProbe thief))
      else if !keepsReply s thief m.core m.egen rs then done (push s (.stealReplyReturn n))
      else
        let ltag := ((getCore s m.core).launch).getD 0
        let t := bindLaunch (dropMsg s n) thief ltag (some m.core)
        let es := rs.reverse.map (fun r => ({ record := r, reserved := none, after := (0, 0) } : DqEntry))
        let u := quiet (modCore t thief (fun k => { k with deque := k.deque ++ es })) 0
        done (push (sendMsg u thief m.core 0 none (.stealAck n)) (.activationChoose thief))
    | _ => done s

/-- STEAL_ACK_ARRIVE: the reserved entries are freed (R361). It counts whatever has become of the victim's binding since it was sent: the
records have reached the thief, and would run twice otherwise (R84, R361, R508; DEDUCED, log 96). -/
def execStealAckArrive (n : Nat) (s : State) : Host.Outcome State Fault Refusal :=
  match findMsg s n with
  | none => done s
  | some m =>
    match m.body with
    | .stealAck reply =>
      done (modCore (dropMsg s n) m.target (fun k => { k with deque := k.deque.filter (fun e => e.reserved != some reply) }))
    | _ => done s

/-- STEAL_REPLY_RETURN: the records stand in their entries again (R361). -/
def execStealReplyReturn (n : Nat) (s : State) : Host.Outcome State Fault Refusal :=
  match findMsg s n with
  | none => done s
  | some m =>
    match m.body with
    | .stealReply rs =>
      if rs.isEmpty then done s
      else
        let t := modCore (dropMsg s n) m.core (fun k =>
          { k with deque := k.deque.map (fun e => if e.reserved = some n then { e with reserved := none } else e) })
        let u := modCore t m.target (fun k => { k with steal := { k.steal with busy := false } })
        done (pushAll u [.activationChoose m.core, .stealProbe m.target])
    | _ => done s

/-! ### The master distributor (R53, R362, R555, R567) -/

/-- Whether a core is idle and unbound, so that its die counts it (R362). -/
def unboundIdle (s : State) (c : Nat) : Bool :=
  let k := getCore s c
  k.state == .idle && k.launch.isNone && (mapOf s c).bound

/-- The unbound idle cores of a die in rising order. -/
def idleOn (s : State) (die : Nat) : List Nat := (s.cores.map (·.1)).filter (fun c => dieOf s c == die && unboundIdle s c)

/-- DIE_RESOURCE_REPORT (R362). -/
def execDieResourceReport (die : Nat) (s : State) : Host.Outcome State Fault Refusal :=
  let cs := idleOn s die
  let line (p : Nat) : DieReport :=
    let mine := cs.filter (holdsCore (getPart s p))
    { part := p, wide := (mine.filter (fun c => classOf c == 1)).length, narrow := (mine.filter (fun c => classOf c == 2)).length }
  if die < 24 then done { s with dieReports := tabSet s.dieReports die ((List.range 8).map line) } else done s

/-- The cores of a class that a die has reported for a partition; ANY counts both (R362). -/
def reported (s : State) (die part cls : Nat) : Nat :=
  match (tabGet [] s.dieReports die).find? (fun (r : DieReport) => r.part == part) with
  | some r => (if cls = 2 then 0 else r.wide) + (if cls = 1 then 0 else r.narrow)
  | none => 0

/-- The dies of a partition. -/
def diesOf (s : State) (part : Nat) : List Nat := ((getPart s part).clusters.map (fun c => physCluster s c / 8)).eraseDups

/-- The die of a partition with the largest count, the lower number on a tie; none where every count is 0. -/
def bestDie (s : State) (part cls : Nat) : Option Nat :=
  ((List.range 24).filter (fun d => (diesOf s part).contains d)).foldl (fun best d =>
    let n := reported s d part cls
    match best with
    | none => if 0 < n then some d else none
    | some b => if reported s b part cls < n then some d else some b) none

/-- ROOT_PLACE (R362). -/
def execRootPlace (ltag : Nat) (s : State) : Host.Outcome State Fault Refusal :=
  match s.rootWaits.find? (fun w => w.ltag == ltag) with
  | none => done s
  | some w =>
    match (if (getPart s w.part).state = .live then bestDie s w.part w.record.cls else none) with
    | none => done (pushAll s ((diesOf s w.part).map (fun d => .dieResourceReport d) ++ [.rootPlace ltag]))
    | some die =>
      done (sendMsg { s with rootWaits := s.rootWaits.filter (fun v => v.id != w.id) } 0 die 0 none (.root w.record w.restart))

/-- The partition of a running launch. -/
def launchPart (s : State) (ltag : Nat) : Nat :=
  match findLaunch s ltag with
  | some l => l.part
  | none => 0

/-- The state with a root record waiting at the distributor; the dies of its partition report before the choice, which is made from
fresh counts (R362). -/
def awaitRoot (s : State) (rec_ : WorkRec) (restart : Bool) : State :=
  let part := launchPart s rec_.ltag
  let w : RootWait := { id := s.nextId, ltag := rec_.ltag, part := part, record := rec_, restart := restart }
  pushAll (bumpId { s with rootWaits := s.rootWaits ++ [w] }) ((diesOf s part).map (fun d => .dieResourceReport d) ++ [.rootPlace rec_.ltag])

/-- Whether a launch still needs a root core: none was chosen, or the chosen one is gone for good (R567). -/
def needsRoot (s : State) (l : Launch) : Bool :=
  match l.root with
  | none => true
  | some c => !(mapOf s c).bound

/-- The state with a core the root of a launch that needs one; the LAUNCH packet starts with the first (R53, R388). -/
def takeRoot (s : State) (ltag c : Nat) : State :=
  match findLaunch s ltag with
  | none => s
  | some l =>
    if !needsRoot s l then s
    else
      let t := { s with launches := s.launches.map (fun m => if m.ltag = ltag then { m with root := some c } else m) }
      modPacket t l.packet.1 l.packet.2 (fun p => { p with started := true })

/-- The state with a root record placed on a core (R51, R362, R365, R567). -/
def placeRoot (s : State) (c : Nat) (rec_ : WorkRec) (restart : Bool) : State :=
  let t := bindLaunch s c rec_.ltag none
  let t := match findLaunch s rec_.ltag with
    | some l => if l.root.isNone then countCreated t c else t
    | none => t
  let t := takeRoot t rec_.ltag c
  match freeAq (getCore t c) with
  | some i => deliverAq t c i (plainAq rec_ none restart)
  | none => t

/-- ROOT_RECORD_ARRIVE: the die's lowest-numbered unbound idle core of a matching class takes the record, or it returns to the
distributor (R362). -/
def execRootRecordArrive (n : Nat) (s : State) : Host.Outcome State Fault Refusal :=
  match findMsg s n with
  | none => done s
  | some m =>
    match m.body with
    | .root rec_ restart =>
      let t := dropMsg s n
      let q := getPart t (launchPart t rec_.ltag)
      let fits (c : Nat) : Bool :=
        holdsCore q c && q.state == .live && mayRun c rec_.cls && (freeAq (getCore t c)).isSome
      if (findLaunch t rec_.ltag).isNone then done t
      else
        match (idleOn t m.target).find? fits with
        | some c => done (placeRoot t c rec_ restart)
        | none => done (awaitRoot t rec_ restart)
    | _ => done s

/-- Whether a core may run a copy of a dual record (R555). -/
def fitsDual (s : State) (part : Nat) (rec_ : WorkRec) (c : Nat) : Bool :=
  let k := getCore s c
  let q := getPart s part
  k.state == .idle && holdsCore q c && q.state == .live && (mapOf s c).bound && k.launch.all (· == rec_.ltag) &&
    mayRun c rec_.cls && (freeAq k).isSome

/-- The ordinary hops between the routers of two cores (R27, R555). -/
def coreHops (s : State) (a b : Nat) : Nat :=
  (columnOf s a - columnOf s b) + (columnOf s b - columnOf s a) + (rowOf s a - rowOf s b) + (rowOf s b - rowOf s a)

/-- Two cores for the copies of a dual record, the lower identifier first (R555; which pair is taken: log 13). -/
def pairCores (s : State) (part : Nat) (rec_ : WorkRec) : Option (Nat × Nat) :=
  let cs := ((((getPart s part).clusters.map (fun k => (List.range 16).map (fun i => k * 16 + i))).flatten).filter
    (fitsDual s part rec_))
  let mate (a : Nat) : Option (Nat × Nat) :=
    (cs.find? (fun b => decide (a < b) && classOf a == classOf b && decide (2 ≤ coreHops s a b))).map (fun b => (a, b))
  cs.findSome? mate

/-- The first pair identifier from a number on that no live pair has (R556). -/
def freshPair (s : State) (fuel p : Nat) : Nat :=
  match fuel with
  | 0 => p
  | f + 1 => if p = 0 ∨ (findPair s p).isSome = true then freshPair s f ((p + 1) % 2 ^ 20) else p

/-- The state with one copy of a pair delivered to a core (R555). -/
def placeCopy (s : State) (rec_ : WorkRec) (pair copy c : Nat) : State :=
  let t := bindLaunch s c rec_.ltag none
  match freeAq (getCore t c) with
  | some i => deliverAq t c i (plainAq rec_ (some (pair, copy)) false)
  | none => t

/-- DUAL_PAIR_PLACE (R555, R556). -/
def execDualPairPlace (k : Nat) (s : State) : Host.Outcome State Fault Refusal :=
  match s.dualWaits.find? (fun w => w.id == k) with
  | none => done s
  | some w =>
    if !relDone s w.core w.after.1 w.after.2 3 then done (push s (.dualPairPlace k))
    else
      match pairCores s w.part w.record with
      | none => done (push s (.dualPairPlace k))
      | some (a, b) =>
        let p := freshPair s (s.pairs.length + 2) s.nextPair
        let t := { s with
          dualWaits := s.dualWaits.filter (fun v => v.id != k), nextPair := (p + 1) % 2 ^ 20,
          pairs := s.pairs ++ [{ pair := p, part := w.part, record := w.record, cores := [a, b], ended := [], second := w.second, counted := w.counted, sent := [] }] }
        let t := if (findLaunch t w.record.ltag).any (fun l => l.root.isNone) then takeRoot (countCreated (bindLaunch t a w.record.ltag none) a) w.record.ltag a else t
        done (placeCopy (placeCopy t w.record p 0 a) w.record p 1 b)

/-! ### Stopped cores and mismatch windows (R248, R538, R568) -/

/-- The state after a task of a core has failed, with FAULT set for the next wave word (R366, R546). -/
def failTask (s : State) (c serial : Nat) (counts : Bool) : State :=
  modCore (failAct s c serial counts) c (fun k => { k with faultErr := true })

/-- The state after the live activation of a core has failed: of a dual copy, the pair is killed (R546, R560). -/
def failLive (s : State) (c : Nat) : State :=
  let x := getCtx s c
  match x.act.bind (·.pair) with
  | some (p, _) => killPair s p (match findPair s p with | some d => d.cores | none => [])
  | none => failTask s c (serialOf x) true

/-- FOREMAN_CORE_RESTART: a core stopped by a trap in supervisor mode fails its activation and is free to choose; one stopped
by HALT goes on at the boundary after it (R248, R538). -/
def execForemanCoreRestart (c : Nat) (s : State) : Host.Outcome State Fault Refusal :=
  let k := getCore s c
  if k.state ≠ .stopped then done s
  else
    let idle (t : State) : State :=
      push (modCore t c (fun k => { k with state := .idle, stop := .none, ctx := idleCtx k.ctx })) (.activationChoose c)
    match k.stop with
    | .none => done s
    | .halt =>
      if k.ctx.act.isSome then
        let t := push (setCore s c { k with state := .running, stop := .none }) (.urgentPreempt c)
        done (if runningOut k.ctx then wakeTile t c else t)
      else done (idle s)
    | .trap => if k.ctx.act.isSome then done (failLive s c) else done (idle s)

/-- MISMATCH_WINDOW_END: the mismatch counts of a die's physical cores begin afresh; that of a core whose kill is due stands until the
kill (R568). -/
def execMismatchWindowEnd (die : Nat) (s : State) : Host.Outcome State Fault Refusal :=
  done { s with mismatches := s.mismatches.filter (fun p => p.1 / 136 != die || (decide (4 ≤ p.2) && !s.deadPhys.contains p.1)) }

end Sys2Proof.Machine
end

