-- ==== Sys2Proof/Machine/Bar.lean ====
section
/-! DEFINITION. The BAR instructions: barrier objects, counters and exchange rounds (R521-R533). -/

namespace Sys2Proof.Machine

/-! ### Shared checks -/

/-- The own-scratchpad offset that an address names, with `n` bytes in the scratchpad (R527). -/
def localOff (c : Nat) (a : Word) (n : Nat) : Option Nat :=
  match placeOf c a with
  | .spad off => if off + n ≤ spadSize then some off else none
  | _ => none

/-- Whether an earlier BAR instruction of the task that names the same object has not written its register (R524). -/
def barPending (s : State) (c : Nat) (a : Word) : Bool :=
  let gen := genOf (getCtx s c)
  s.ops.any (fun o => o.core == c && o.gen == gen &&
      (match o.body with
       | .barw off => placeOf c a == .spad off
       | _ => false)) ||
    s.accs.any (fun r => r.core == c && r.gen == gen &&
      (match r.kind with
       | .bara _ _ _ => placeOf c r.addr == placeOf c a
       | _ => false))

/-- Whether a release at module scope of the running task may take effect (R325). -/
def relNow (s : State) (c : Nat) : Bool :=
  let x := getCtx s c
  !holdsStores x && releaseReady s c (genOf x) x 3 s.nextId

/-- The state with a barrier status word written to a register at once. -/
def putBar (t : State) (c : Nat) (d : BitVec 5) (code value : Nat) : State :=
  modCtx t c (fun x => setStatus x d (barStatus code value))

/-- The poisoning of a value form whose access fails (R525). -/
def poisonBar (t : State) (i : Issued) (d : BitVec 5) (kind : Nat) (a : Word) : State :=
  modCtx t i.core (fun x => poisonReg x d (poisonOf x i.upc a kind))

/-! ### BARM (R527) -/

/-- Arming an object (R527). -/
def armObject (t : State) (c : Nat) (d : BitVec 5) (off expect : Nat) : State :=
  let b := readBar t c off
  if b.armed ∧ b.count < b.expect then putBar t c d 4 0
  else
    let n := if b.armed then b.count - b.expect else b.count
    let u := writeBar t c off { armed := true, expect := expect, count := n }
    putBar u c d 0 n

/-- The round entry that a descriptor asks for, with the activation-queue entry still to be chosen; none where it is malformed
(R527). -/
def roundOf (bs : List Byte) : Option RoundEntry :=
  let f (lo n : Nat) : Nat := leNat ((bs.drop lo).take n)
  if f 24 8 ≠ 0 ∨ f 22 2 ≠ 0 ∨ f 4 4 ≠ 0 ∨ 4 ≤ f 3 1 ∨ spadSize < f 12 4 ∨ f 12 4 ≤ f 8 4 then none
  else
    some { valid := true, round := f 0 2, group := f 2 1, base := f 8 4, limit := f 12 4, rows := 0, closed := 0,
           entry := BitVec.ofNat 48 (f 16 6), prio := f 3 1, aq := 0 }

/-- The first round entry of a core that is not VALID. -/
def freeRound (k : Core) : Option Nat := (List.range 16).find? (fun i => !(k.rounds.getD i emptyRound).valid)

/-- The ranges of past rounds with that of an entry which another round takes (R502, R527). -/
def pastOf (l : List (Nat × Nat)) (r : RoundEntry) : List (Nat × Nat) :=
  if r.limit = 0 ∨ (r.base, r.limit) ∈ l then l else l ++ [(r.base, r.limit)]

/-- Opening a round from the bytes of its descriptor (R527): the state and the status code. -/
def openRound (t : State) (c : Nat) (bs : List Byte) : State × Nat :=
  let k := getCore t c
  match roundOf bs with
  | none => (t, 5)
  | some e =>
    let g := groupOf t c e.group
    if g.valid = false ∨ k.launch ≠ some g.ltag then (t, 5)
    else if k.rounds.toList.any (fun r => r.valid && r.round == e.round) then (t, 6)
    else
      match freeRound k, freeAq k with
      | some j, some q =>
        (setCore t c { putAq k q (.round e.round) with
          rounds := k.rounds.setIfInBounds j { e with aq := q }, pastRounds := pastOf k.pastRounds (k.rounds.getD j emptyRound) }, 0)
      | _, _ => (t, 1)

/-- Withdrawing a round (R527): the state and the status code. -/
def withdrawRound (t : State) (c round : Nat) : State × Nat :=
  let k := getCore t c
  match k.rounds.toList.find? (fun r => r.valid && r.round == round) with
  | none => (t, 5)
  | some r => (setCore t c (putAq (modRound k round (fun e => { e with valid := false })) r.aq .free), 0)

/-- The effect of BARM, in the way that the top bits of gb name (R527). -/
def barmBody (d a b : BitVec 5) (i : Issued) (t : State) : Option State :=
  let c := i.core
  let x := getCtx t c
  let addr := regVal x a
  let v := (regVal x b).toNat
  let finish (o : State × Nat) : Option State := some (putBar o.1 c d o.2 0)
  if v / 2 ^ 62 = 3 then
    if !relNow t c then none else finish (withdrawRound t c (addr.toNat % 2 ^ 16))
  else if v / 2 ^ 62 = 2 then
    if addr.toNat % 32 ≠ 0 then some (trapFrom t i causeMisalign 0 addr)
    else if !relNow t c then none
    else
      match localOff c addr 32 with
      | none => finish (t, 5)
      | some off => if localBusy t c off 32 false then none else finish (openRound t c (spadRead t c off 32))
  else if addr.toNat % 16 ≠ 0 then some (trapFrom t i causeMisalign 0 addr)
  else if barPending t c addr || !relNow t c then none
  else
    match localOff c addr 16 with
    | none => finish (t, 5)
    | some off => if localBusy t c off 16 true then none else some (armObject t c d off (v % 2 ^ 48))

/-- BARM, by its row that arms an object; the three rows share one word, and gb says which way it acts (R527). -/
def execBarmArm (d a b : BitVec 5) (s : State) : Host.Outcome State Fault Refusal :=
  issue s (plainSpec [a, b] [d]) (barmBody d a b)

/-- BARM, by its row that opens a round (R527). -/
def execBarmOpenRound (d a b : BitVec 5) (s : State) : Host.Outcome State Fault Refusal :=
  issue s (plainSpec [a, b] [d]) (barmBody d a b)

/-- BARM, by its row that withdraws a round (R527). -/
def execBarmWithdrawRound (d a b : BitVec 5) (s : State) : Host.Outcome State Fault Refusal :=
  issue s (plainSpec [a, b] [d]) (barmBody d a b)

/-! ### BARA and BARW (R528, R529) -/

/-- BARA (R528). -/
def execBara (d a b : BitVec 5) (s : State) : Host.Outcome State Fault Refusal :=
  issue s (plainSpec [a, b] [d]) (fun i t =>
    let c := i.core
    let x := getCtx t c
    let addr := regVal x a
    let n := (regVal x b).toNat % 2 ^ 48
    if addr.toNat % 16 ≠ 0 then some (trapFrom t i causeMisalign 0 addr)
    else if barPending t c addr || holdsStores x then none
    else
      match placeOf c addr with
      | .spad off =>
        if spadSize ≤ off then some (putBar t c d 5 0)
        else if localBusy t c off 16 true || !relNow t c then none
        else some (putBar (barAdd t c off n) c d 0 0)
      | .peer target off =>
        let u := modCtx t c setCommit
        if spadSize ≤ off then some (putBar u c d 5 0)
        else if x.sys.dual || decide (coreCount ≤ target) then some (putBar u c d 2 0)
        else if accFull t c || tileMemBusy t c addr.toNat 16 true then none
        else some (sendAcc (modCtx u c (fun y => markReg y d (.op u.nextId))) c (.bara d 0 n) addr 16 [])
      | _ => some (putBar t c d 5 0))

/-- BARW: it finds what the task's earlier tile units and engine operations have written of the object (R63, R296, R529). -/
def execBarw (d a : BitVec 5) (s : State) : Host.Outcome State Fault Refusal :=
  issue s (plainSpec [a] [d]) (fun i t =>
    let c := i.core
    let addr := regVal (getCtx t c) a
    if addr.toNat % 16 ≠ 0 then some (trapFrom t i causeMisalign 0 addr)
    else if barPending t c addr || holdsLoads (getCtx t c) then none
    else
      match localOff c addr 16 with
      | none => some (poisonBar t i d 1 addr)
      | some off =>
        if localBusy t c off 16 false then none
        else
        some (push (noteWait (startOp t c d i.upc (.barw off)) c [((1 + c, off), 16)]) (.barwComplete t.nextId)))

/-- Whether an activation stands on its core at this moment, live or pre-empted. -/
def standsOn (s : State) (c serial : Nat) : Bool := (coreUpdAct (getCore s c) serial id).isSome

/-- The state after an operation has given its value with event bit 2 latched (R246, R529). -/
def endWait (s : State) (o : Op) (v : Word) : State :=
  dropOp (updAct s o.core o.serial (fun x => latchEvt (deliver o.id o.reg v x) 4)) o.id

/-- BARW_COMPLETE (R524, R529). -/
def execBarwComplete (op : Nat) (s : State) : Host.Outcome State Fault Refusal :=
  match findOp s op with
  | none => done s
  | some o =>
    match o.body with
    | .barw off =>
      let b := readBar s o.core off
      if standsOn s o.core o.serial && !reloading s o.core off 16 && barReached b then
        done (endWait s o (BitVec.ofNat 64 b.count))
      else done (push s (.barwComplete op))
    | _ => done s

/-! ### Counters (R530, R531, R533) -/

/-- The designator of the task's mailbox XFREE counter (R530). -/
def xfreeDesignator : Word := 0xF000000000000000

/-- Whether a word names one of the spaces that hold counters (R530). -/
def counterSpace (a : Word) : Bool := spaceOf a == 0 || spaceOf a == 1 || spaceOf a == 4

/-- CNTRD: it reads what the task's earlier tile units and engine operations have written of the counter (R202, R296, R317, R530). -/
def execCntrd (d a b : BitVec 5) (s : State) : Host.Outcome State Fault Refusal :=
  issue s (plainSpec [a, b] [d]) (fun i t =>
    let c := i.core
    let x := getCtx t c
    let addr := regVal x a
    if counterSpace addr && decide (addr.toNat % 8 ≠ 0) then some (trapFrom t i causeMisalign 0 addr)
    else if !counterSpace addr && addr != xfreeDesignator then some (poisonBar t i d 1 addr)
    else if holdsLoads x || (localRange c addr 8).any (fun r => localBusy t c r.1 r.2 false) ||
        (spaceOf addr == 4 && tileMemBusy t c addr.toNat 8 false) then none
    else
      some (push (startOp t c d i.upc (.cntrd addr (regVal x b))) (.cntrdReading t.nextId)))

/-- Whether an earlier store or atomic of the task to a byte of a range has not been performed (R317). -/
def ownWriteAhead (s : State) (c gen before : Nat) (a : Word) (n : Nat) : Bool :=
  s.accs.any (fun r => r.core == c && r.gen == gen && decide (r.id < before) && !accLoad r && !accSettled r &&
    meets r.addr.toNat r.size a.toNat n)

/-- The XFREE counter of the task that an activation runs (R533). -/
def xfreeOf (s : State) (c serial : Nat) : Nat :=
  let k := getCore s c
  match actCtx k serial with
  | some x => (((k.live.find? (fun g => g.gen == (nameGen x.sys.tid).toNat)).map (fun g => g.xfree.toNat)).getD 0)
  | none => 0

/-- A reading of a counter (R530). -/
def readCounter (s : State) (o : Op) (a : Word) : RowOut :=
  if a = xfreeDesignator then .ok (leBytes 8 (xfreeOf s o.core o.serial))
  else if ownWriteAhead s o.core o.gen o.id a 8 then .wait
  else homeRead s o.core a 8

/-- The places of a counter (R246, R530). -/
def counterPlaces (s : State) (o : Op) (a : Word) : List WaitPlace :=
  if a = xfreeDesignator then
    ((actCtx (getCore s o.core) o.serial).map (fun x => ((6000, (nameGen x.sys.tid).toNat), 4))).toList
  else placesOf s o.core a 8

/-- CNTRD_READING: a reading that does not reach the threshold is taken again, and a change of the counter latches from now on (R246,
R530). -/
def execCntrdReading (op : Nat) (s : State) : Host.Outcome State Fault Refusal :=
  match findOp s op with
  | none => done s
  | some o =>
    match o.body with
    | .cntrd a thr =>
      if !standsOn s o.core o.serial then done (push s (.cntrdReading op))
      else
        match readCounter s o a with
        | .wait => done (push s (.cntrdReading op))
        | .fail kind addr =>
          done (dropOp (updAct s o.core o.serial
            (failReg (.op o.id) o.id o.reg { ldPc := o.upc, addr := addr, kind := kind })) op)
        | .ok bs =>
          let t := noteWait s o.core (counterPlaces s o a)
          if thr.toNat ≤ leNat bs then done (endOp t o.id (BitVec.ofNat 64 (leNat bs))) else done (push t (.cntrdReading op))
    | _ => done s

/-- CNTADD: AMOADD.d.rel.mod; a designator is refused (R531), and to a dual copy every counter, its own scratchpad's among them
(R557). -/
def execCntadd (d a b : BitVec 5) (s : State) : Host.Outcome State Fault Refusal :=
  issue s (plainSpec [a, b] [d]) (fun i t =>
    let x := getCtx t i.core
    let addr := regVal x a
    if counterSpace addr && decide (addr.toNat % 8 ≠ 0) then some (trapFrom t i causeMisalign 0 addr)
    else if holdsStores x then none
    else if !counterSpace addr || x.sys.dual then some (poisonBar (modCtx t i.core setCommit) i d 1 addr)
    else atomBody 0 d a b 3 1 2 i (modCtx t i.core setCommit))

/-- RNDCLOSE (R532); refused to a dual copy (R557). -/
def execRndclose (d a b : BitVec 5) (s : State) : Host.Outcome State Fault Refusal :=
  issue s (plainSpec [a, b] [d]) (fun i t =>
    let x := getCtx t i.core
    let u := modCtx t i.core setCommit
    let target := (regVal x a).toNat % 2 ^ 12
    if holdsStores x then none
    else if x.sys.dual then some (putBar u i.core d 2 0)
    else some (sendTask u i d target 0x1605 target [] (.rndclose ((regVal x b).toNat % 2 ^ 16))))

end Sys2Proof.Machine
end

