-- ==== Sys2Proof/Machine/Copies.lean ====
section
/-! DEFINITION. Copies: XCOPY, XGATH, XSCAT, XCANCEL, and the rows that they move (R294-R305). -/

namespace Sys2Proof.Machine

/-! ### What the operations of R294 share -/

/-- The operations of copies and multicasts of a core in flight at most (R294). -/
def copyLimit : Nat := 16

/-- Whether a core has as many copies and multicasts in flight as it may (R294). -/
def copiesFull (s : State) (c : Nat) : Bool :=
  decide (copyLimit ≤ (s.ops.filter (fun o => o.core == c && (drainSpace o).isSome)).length)

/-- The engine status word (R297). -/
def engineStatus (code skipped fails first rowsDone : Nat) : Word :=
  packWord [(1, 0), (code, 4), (skipped, 8), (fails, 32), (first, 40), (rowsDone, 47)]

/-- The issue checks of an engine operation that accepts NOREL (R304, R308). -/
def engineSpec (reads : List (BitVec 5)) (d : BitVec 5) : IssueSpec := { plainSpec reads [d] with ord := true }

/-- The state whose control stream stands again before the unit at issue, which waits (R158). -/
def waitIssue (t : State) (i : Issued) : State := modCtx t i.core (fun x => { x with pc := i.upc, pfx := none })

/-- Whether the implicit release at issue of an engine operation has been done at a scope (R295, R326). -/
def opReleased (s : State) (o : Op) (rel : Bool) (scope : Nat) : Bool := !rel || relDone s o.core o.serial o.id scope

/-- Whether a core has a binding read by an engine instruction ready: the tile stream idle, no engine operation and no reload on
its footprint (R61, R296). -/
def tileReady (s : State) (c : Nat) (b : Tile) (wr : Bool) : Bool :=
  (getCtx s c).seq.isEmpty && !tileEngineBusy s c b wr s.nextId && !reloading s c b.base (b.rows * b.pitch)

/-- The state with a row of an engine operation parked at a port, or tried again where its queue is full (R407, R408, R410). -/
def parkRow (s : State) (port op row : Nat) (retry : Event) : State × Bool :=
  if faultDepth ≤ (s.fq.filter (fun e => e.port == port)).length then (push (count s (.returned port) 1) retry, false)
  else (count { s with fq := s.fq ++ [{ port := port, what := .row op row, own := true }] } (.parks port) 1, true)

/-- Whether a row stands in a fault queue. -/
def rowParked (s : State) (op row : Nat) : Bool := s.fq.any (fun e => e.what == .row op row)

/-! ### Issue (R302-R304) -/

/-- Whether a range lies wholly inside one space's valid range (R251, R303). -/
def rangeOk (c : Nat) (a : Word) (n : Nat) : Bool :=
  match placeOf c a with
  | .spad off => decide (off + n ≤ spadSize)
  | .peer _ off => decide (off + n ≤ spadSize)
  | .virt va => decide (va + n ≤ 2 ^ 48)
  | .none => false

/-- Whether the first and last rows of a strided side are inside a valid range (R303). -/
def sideOk (c : Nat) (base stride : Word) (n b : Nat) : Bool :=
  rangeOk c base b && rangeOk c (copyRowAddr base stride ((n : Int) - 1)) b

/-- The operand checks of a copy, and the refusal of what leaves the core to a dual copy (R303, R557). -/
def copyArgsOk (s : State) (c : Nat) (o : CopyOp) : Bool :=
  let n := o.cx.rows.toNat
  let b := o.cx.rbytes.toNat
  decide (0 < n) && decide (0 < b) && decide (n * b ≤ 2 ^ 30) &&
    (o.kind == .gather || sideOk c o.cx.src o.cx.rstride n b) && (o.kind == .scatter || sideOk c o.cx.dst o.cx.wstride n b) &&
    (!isDual s c || (copyOpen o).all (fun i =>
      match placeOf c (copyRowAddr o.cx.dst o.cx.wstride (copySides o i).2) with
      | .spad _ => true
      | _ => false))

/-- The index column of a gather or scatter (R302). -/
def indexColumn (m : Memory) (b : Tile) (n : Nat) : List Int := (List.range n).map (fun i => sextNat 32 (srcElem m b i 0))

/-- The copy that an instruction starts, from the latched registers: skipped rows count as performed (R241, R302). -/
def newCopy (kind : CopyKind) (cx : Cx) (idx : List Int) (rel : Bool) : CopyOp :=
  { kind := kind, cx := cx, idx := idx, rel := rel,
    performed := (List.range idx.length).filter (fun i => decide (idx.getD i 0 < 0)), parked := [], failed := [], cancelled := false, dead := false }

/-- The rows of a copy that are skipped (R302). -/
def skippedRows (o : CopyOp) : Nat := (o.idx.filter (fun k => decide (k < 0))).length

/-- The largest n such that rows 0 to n - 1 are each performed or skipped (R297). -/
def rowsDone (o : CopyOp) : Nat :=
  ((List.range (copyRows o)).takeWhile (fun i => o.performed.contains i)).length

/-- The code of a copy that ends (R298, R299): CANCELLED where XCANCEL stopped it, whatever its rows under way became; else the
failure of the lowest-numbered failed row (R305). -/
def copyCode (o : CopyOp) : Nat :=
  if o.cancelled then 4
  else
    match o.failed with
    | f :: r => (r.foldl (fun (best : Nat × Nat) g => if g.1 < best.1 then g else best) f).2
    | [] => 0

/-- Whether a copy has nothing left to do. -/
def copyDone (o : CopyOp) : Bool := o.parked.isEmpty && ((copyOpen o).isEmpty || !o.failed.isEmpty || o.cancelled)

/-- The state after a copy has changed: ended with its status where nothing is left to do. -/
def settleCopy (s : State) (o : Op) (p : CopyOp) : State :=
  let t := putOp s { o with body := .copy p }
  if copyDone p then endOp t o.id (engineStatus (copyCode p) (skippedRows p) 0 0 (rowsDone p)) else t

/-- Whether an earlier unit of the tile stream still uses local bytes that a copy names (R63, R296). -/
def copyTileBusy (s : State) (c : Nat) (p : CopyOp) : Bool :=
  let o : Op := { id := 0, core := c, serial := 0, gen := 0, reg := 0, upc := 0, held := 0, drawn := 0, body := .copy p }
  let busy (wr : Bool) (r : Nat × Nat) : Bool := tileBusy (getCore s c) r.1 r.2 wr
  (opLocalReads o).any (busy false) || (opLocalWrites o).any (busy true)

/-- The state with a copy started, or ended at once: with BADARG, or with every row skipped (R294, R303). -/
def startCopy (t : State) (i : Issued) (d : BitVec 5) (p : CopyOp) : Option State :=
  let c := i.core
  let u := if leavesCore c p.cx.dst then modCtx t c setCommit else t
  let answer (code skipped rows : Nat) : State := modCtx u c (fun x => setStatus x d (engineStatus code skipped 0 0 rows))
  if !copyArgsOk t c p then some (answer 5 0 0)
  else if copyTileBusy t c p then none
  else if (copyOpen p).isEmpty then some (answer 0 (skippedRows p) (rowsDone p))
  else some (pushAll (startOp u c d i.upc (.copy p)) ((copyOpen p).map (fun r => .copyRowComplete t.nextId r)))

/-- XCOPY (R302-R304). -/
def execXcopy (d : BitVec 5) (s : State) : Host.Outcome State Fault Refusal :=
  issue s (engineSpec [] d) (fun i t =>
    let x := getCtx t i.core
    if copiesFull t i.core || holdsStores x then none
    else startCopy t i d (newCopy .copy x.sys.cx [] (modeRel i.xmod)))

/-- The effect of XGATH and XSCAT at issue: the index tile is checked and read (R302, R304). -/
def indexedBody (kind : CopyKind) (d : BitVec 5) (tn : BitVec 4) (i : Issued) (t : State) : Option State :=
  let c := i.core
  let x := getCtx t c
  if copiesFull t c || holdsStores x || !x.seq.isEmpty then none
  else
    match getTile x tn with
    | none => some (trapFrom t i causeShape 4 0)
    | some b =>
      let n := x.sys.cx.rows.toNat
      if b.cols ≠ 1 ∨ b.rows < n then some (trapFrom t i causeShape 4 0)
      else if b.fmt ≠ .i32 then some (trapFrom t i causeFormat 4 0)
      else if !tileReady t c b false then none
      else startCopy t i d (newCopy kind x.sys.cx (indexColumn (getCore t c).spad b n) (modeRel i.xmod))

/-- XGATH (R302-R304). -/
def execXgath (d : BitVec 5) (tn : BitVec 4) (s : State) : Host.Outcome State Fault Refusal :=
  issue s (engineSpec [] d) (indexedBody .gather d tn)

/-- XSCAT (R302-R304). -/
def execXscat (d : BitVec 5) (tn : BitVec 4) (s : State) : Host.Outcome State Fault Refusal :=
  issue s (engineSpec [] d) (indexedBody .scatter d tn)

/-- XCANCEL: acts on the copy that a register is pending for; one that has failed keeps its failure (R305). -/
def execXcancel (sv : BitVec 5) (s : State) : Host.Outcome State Fault Refusal :=
  issue s (plainSpec [] []) (fun i t =>
    let x := getCtx t i.core
    match (getReg x sv).mark with
    | .op n =>
      match findOp t n with
      | some o =>
        match o.body with
        | .copy p =>
          if o.core = i.core ∧ o.serial = serialOf x ∧ p.failed = [] then some (settleCopy t o { p with cancelled := true }) else some t
        | _ => some t
      | none => some t
    | _ => some t)

/-! ### Rows (R296, R299, R300) -/

/-- The places of a row of a copy on one side (R314). -/
def rowPlaces (s : State) (o : Op) (p : CopyOp) (src : Bool) (i : Nat) : List (CohPlace × Nat) :=
  placesOf s o.core (if src then copyRowAddr p.cx.src p.cx.rstride (copySides p i).1
    else copyRowAddr p.cx.dst p.cx.wstride (copySides p i).2) p.cx.rbytes.toNat

/-- The source places of a copy: those of the rows that are not skipped. -/
def sourcePlaces (s : State) (o : Op) (p : CopyOp) : List (CohPlace × Nat) :=
  (((List.range (copyRows p)).filter (fun i => !decide (p.idx.getD i 0 < 0))).map (rowPlaces s o p true)).flatten

/-- The places of the bytes of a range, one by one. -/
def bytePlaces (ps : List (CohPlace × Nat)) : List CohPlace :=
  (ps.map (fun p => (List.range p.2).map (fun i => (p.1.1, p.1.2 + i)))).flatten

/-- The bytes that a row writes: those that are source bytes of the operation as well, by their places, are free values (R300, R314,
log 4). -/
def rowBytesOf (s : State) (o : Op) (p : CopyOp) (row : Nat) (bs : List Byte) : List Byte :=
  let dst := rowPlaces s o p false row
  let src := sourcePlaces s o p
  if !placesMeet src dst then bs
  else
    ((bytePlaces dst).zip ((List.range bs.length).zip bs)).map (fun q =>
      if placesMeet src [(q.1, 1)] then freeByte (s.fresh + q.2.1) else q.2.2)

/-- Whether a row of lower index that has still to be performed writes a byte of a row (R300, R314). -/
def lowerRowOpen (s : State) (o : Op) (p : CopyOp) (row : Nat) : Bool :=
  p.kind != .gather && (copyLeft p).any (fun j => decide (j < row) && placesMeet (rowPlaces s o p false j) (rowPlaces s o p false row))

/-- Whether a row of a killed core's copy would reach the core's own scratchpad, where the core that was is gone (R256, R301). -/
def deadRow (o : Op) (p : CopyOp) (a : Word) (n : Nat) : Bool := p.dead && !(localRange o.core a n).isEmpty

/-- The state after a row's bytes have been read and written, and the row counted in its rounds; one without bytes
has no first byte that would count (R260, R299, R501). -/
def putCopyRow (s : State) (o : Op) (p : CopyOp) (row : Nat) (bs : List Byte) : State :=
  let dst := copyRowAddr p.cx.dst p.cx.wstride (copySides p row).2
  let src := copyRowAddr p.cx.src p.cx.rstride (copySides p row).1
  let t := rowPut (rowTouch s o.core p.cx.bypass src bs.length) o.core dst (rowBytesOf s o p row bs)
  let t := { t with fresh := t.fresh + bs.length }
  if bs.isEmpty then t
  else
  match placeOf o.core dst with
  | .spad off => countRoundRow t o.core off
  | .peer c off => countRoundRow t c off
  | _ => t

/-- The state after an access of a row has failed: a page fault parks the row, every other failure ends it (R299). -/
def failCopyRow (s : State) (o : Op) (p : CopyOp) (row kind code : Nat) (a : Word) : State :=
  if kind = 0 then
    match parkRow s (stationOf (columnOf s o.core) (a.toNat % 2 ^ 48)) o.id row (.copyRowComplete o.id row) with
    | (t, true) => putOp t { o with body := .copy { p with parked := row :: p.parked.filter (· != row) } }
    | (t, false) => t
  else
    settleCopy s o { p with
      parked := p.parked.filter (· != row), failed := p.failed ++ [(row, if kind = 3 then 3 else code)] }

/-- COPY_ROW_COMPLETE: a row that may start is read and written in one step (log 11), fails, or parks (R296, R299, R300). -/
def execCopyRowComplete (op row : Nat) (s : State) : Host.Outcome State Fault Refusal :=
  match findOp s op with
  | none => done s
  | some o =>
    match o.body with
    | .copy p =>
      if !(copyOpen p).contains row || rowParked s op row then done s
      else if (!p.failed.isEmpty || p.cancelled) && !p.parked.contains row then done (settleCopy s o p)
      else
        let again := done (push s (.copyRowComplete op row))
        let n := p.cx.rbytes.toNat
        let src := copyRowAddr p.cx.src p.cx.rstride (copySides p row).1
        let dst := copyRowAddr p.cx.dst p.cx.wstride (copySides p row).2
        if deadRow o p src n then done (failCopyRow s o p row 2 1 0)
        else if deadRow o p dst n then done (failCopyRow s o p row 2 2 0)
        else if !opReleased s o p.rel 4 || lowerRowOpen s o p row ||
            (localRange o.core src n).any (fun r => engineBusy s o.core r.1 r.2 false op) ||
            (localRange o.core dst n).any (fun r => engineBusy s o.core r.1 r.2 true op) then again
        else
          match rowRead (opView s o) o.core src n with
          | .wait => again
          | .fail kind a => done (failCopyRow s o p row kind 1 a)
          | .ok bs =>
            match rowCheck s o.core dst n with
            | .wait => again
            | .fail kind a => done (failCopyRow s o p row kind 2 a)
            | .ok _ =>
              done (settleCopy (putCopyRow s o p row bs) o
                { p with parked := p.parked.filter (· != row), performed := p.performed ++ [row] })
    | _ => done s

end Sys2Proof.Machine
end

