-- ==== Sys2Proof/Machine/Multicast.lean ====
section
/-! DEFINITION. Multicasts: XMCAST, XMREAD, XFREE, their deliveries and their merging (R306-R312, R533). -/

namespace Sys2Proof.Machine

/-! ### Issue (R306, R308, R309) -/

/-- The group that a delivery word names (R306). -/
def wordGroup (w : Word) : Nat := w.toNat % 2 ^ 8

/-- The offset of the receivers' barrier object (R306). -/
def wordBoff (w : Word) : Nat := w.toNat / 2 ^ 8 % 2 ^ 20

/-- Whether delivered bytes are counted (R306). -/
def wordCnt (w : Word) : Bool := w.getLsbD 28

/-- Whether the barrier object of a delivery word meets the delivered footprint (R306). -/
def boffMeets (b : Tile) (w : Word) : Bool :=
  wordCnt w && (List.range b.vrows).any (fun i => meets (b.base + i * b.pitch) (validBytes b) (wordBoff w) 16)

/-- Whether a launch holds a group (R80, R306). -/
def groupHeld (s : State) (c : Nat) (g : Group) : Bool := g.valid && (getCore s c).launch == some g.ltag

/-- The checks of a multicast's operands (R306). -/
def mcastArgsOk (s : State) (c : Nat) (b : Tile) (w mask : Word) : Bool :=
  let g := groupOf s c (wordGroup w)
  groupHeld s c g && decide (w.toNat < 2 ^ 29) && mask != 0 && decide (mask.toNat < 2 ^ Nat.min 64 g.members.length) &&
    wordBoff w % 16 == 0 && decide (wordBoff w < spadSize) && !boffMeets b w

/-- The receivers that a mask names, in rank order (R82, R306). -/
def maskReceivers (s : State) (c : Nat) (w mask : Word) : List Receiver :=
  let ms := (groupOf s c (wordGroup w)).members
  ((List.range 64).filter (fun m => mask.getLsbD m)).map (fun m =>
    let t := ms.getD m 0
    { rank := m, core := t, egen := (sentEgen s c t).toNat, done := false, code := 0, freed := false })

/-- The bytes of the valid extent of a tile, by rows (R307). -/
def validRows (m : Memory) (b : Tile) : List (List Byte) :=
  (List.range b.vrows).map (fun i => memRead m (b.base + i * b.pitch) (validBytes b))

/-- The SHAPE check of a multicast's tile (R308). -/
def mcastTile (x : Ctx) (tn : BitVec 4) : Option Tile :=
  match getTile x tn with
  | some b => if fmtBits b.fmt = 4 ∧ b.vcols % 2 = 1 then none else some b
  | none => none

/-- A multicast at issue. An XMCAST reads its tile once its release has been done (R295, R309). -/
def newMcast (s : State) (i : Issued) (read : Bool) (b : Tile) (w src mask : Word) : McastOp :=
  let x := getCtx s i.core
  { read := read, tile := b, word := w, src := src, rows := [], loaded := read,
    rel := modeRel i.xmod, name := x.sys.tid.toNat, receivers := maskReceivers s i.core w mask, linesDone := [],
    srcFail := false, ended := false }

/-- The waits that XMCAST and XMREAD share (R294, R296, R322). -/
def mcastWaits (t : State) (c : Nat) : Bool := copiesFull t c || holdsStores (getCtx t c) || !(getCtx t c).seq.isEmpty

/-- The state with a BADARG status (R298). -/
def badCopy (t : State) (c : Nat) (d : BitVec 5) : State := modCtx t c (fun x => setStatus x d (engineStatus 5 0 0 0 0))

/-- The units of leave that XMCAST draws (R534). -/
def mcastLeave : Nat := 4

/-- XMCAST (R306-R309); BADARG to a dual copy (R557). -/
def execXmcast (d a b : BitVec 5) (tn : BitVec 4) (s : State) : Host.Outcome State Fault Refusal :=
  issue s (engineSpec [a, b] d) (fun i t =>
    let c := i.core
    let x := getCtx t c
    let w := regVal x a
    let mask := regVal x b
    if mcastWaits t c then none
    else
      match mcastTile x tn with
      | none => some (trapFrom t i causeShape 4 0)
      | some tile =>
        let u := modCtx t c setCommit
        if x.sys.dual || !mcastArgsOk t c tile w mask then some (badCopy u c d)
        else if !tileReady t c tile false then none
        else
          match drawLeave t c mcastLeave (.issue c) with
          | (false, _, _, v) => some (waitIssue v i)
          | (true, held, drawn, v) =>
            let n := v.nextId
            let m := newMcast v i false tile w 0 mask
            let v := startHeld (modCtx v c setCommit) c d i.upc held drawn (.mcast m)
            some (pushAll v (m.receivers.map (fun r => .multicastDelivery n r.rank))))

/-- The line requests of an XMREAD: the row, and the offset and length in it (R310). -/
def readPiecesOf (m : McastOp) : List (Nat × Nat × Nat) :=
  let vb := validBytes m.tile
  ((List.range m.tile.vrows).map (fun i =>
    let va := m.src.toNat + i * m.tile.pitch
    (virtPieces va vb).map (fun p => (i, p.1 - va, p.2)))).flatten

/-- XMREAD (R306-R308, R310); BADARG to a dual copy (R557). -/
def execXmread (d a b : BitVec 5) (tn : BitVec 4) (s : State) : Host.Outcome State Fault Refusal :=
  issue s (engineSpec [a, b] d) (fun i t =>
    let c := i.core
    let x := getCtx t c
    let src := regVal x a
    let mask := regVal x b
    let w := x.sys.cx.dst
    if mcastWaits t c then none
    else
      match mcastTile x tn with
      | none => some (trapFrom t i causeShape 4 0)
      | some tile =>
        if src.toNat % 64 ≠ 0 then some (trapFrom t i causeMisalign 0 src)
        else
          let u := modCtx t c setCommit
          if x.sys.dual || !mcastArgsOk t c tile w mask || spaceOf src != 4 then some (badCopy u c d)
          else
            let n := t.nextId
            let m := newMcast t i true tile w src mask
            let v := startOp u c d i.upc (.mcast m)
            some (pushAll v ((List.range (readPiecesOf m).length).map (fun k => .xmreadRequestArrive n k) ++ [.multicastEnd n])))

/-! ### Freeing (R312, R533) -/

/-- Whether every receiver of an ended multicast has freed it. -/
def allFreed (m : McastOp) : Bool := m.ended && m.receivers.all (·.freed)

/-- The state with a task's XFREE counter raised (R533). -/
def raiseXfree (s : State) (name : Nat) : State :=
  let tid : BitVec 28 := BitVec.ofNat 28 name
  modCore s (nameCore tid) (fun k =>
    { k with live := k.live.map (fun g => if g.gen = (nameGen tid).toNat then { g with xfree := g.xfree + 1 } else g) })

/-- The oldest multicast that a task name still has open. -/
def oldestMcast (s : State) (name : Nat) : Option (Op × McastOp) :=
  s.ops.findSome? (fun o =>
    match o.body with
    | .mcast m => if m.name = name then some (o, m) else none
    | _ => none)

/-- The counter rises for the multicasts that every receiver has freed, in issue order (R312). -/
def countFreed (s : State) (name fuel : Nat) : State :=
  match fuel with
  | 0 => s
  | f + 1 =>
    match oldestMcast s name with
    | none => s
    | some (o, m) => if allFreed m then countFreed (raiseXfree (dropOp s o.id) name) name f else s

/-- The state after the freeing of a task's multicasts has changed. -/
def settleFreed (s : State) (name : Nat) : State := countFreed s name (s.ops.length + 1)

/-- The receivers with the first one on a core freed. -/
def freeReceiver (c : Nat) (rs : List Receiver) : List Receiver :=
  rs.map (fun r => if r.core = c then { r with freed := true } else r)

/-- XFREE: one notice for a task name (R312); refused to a dual copy (R557). -/
def execXfree (a : BitVec 5) (s : State) : Host.Outcome State Fault Refusal :=
  issue s (plainSpec [a] []) (fun i t =>
    let x := getCtx t i.core
    let name := (regVal x a).toNat % 2 ^ 28
    let u := modCtx t i.core setCommit
    if holdsStores x then none
    else if x.sys.dual then some (count u (.refusedStores i.core) 1)
    else some (sendMsg u i.core (name / 2 ^ 16) 0 none (.xfree name)))

/-- XFREE_NOTICE_ARRIVE: the notice frees the first multicast of the name towards the sender's core that it has not yet freed, where a
receiver whose delivery failed counts as having done so; otherwise it is stale, and the counter of the network interface that it reaches rises: R312 gives each interface one counter and
does not say whether the sender's or that of the named task's core counts (DESIGN CHOICE, log 48). -/
def execXfreeNoticeArrive (n : Nat) (s : State) : Host.Outcome State Fault Refusal :=
  match findMsg s n with
  | none => done s
  | some m =>
    match m.body with
    | .xfree name =>
      if msgWaits s m then done (push s (.xfreeNoticeArrive n))
      else
        let t := dropMsg s n
        let hit := t.ops.find? (fun o =>
          match o.body with
          | .mcast p => p.name == name && p.receivers.any (fun r => r.core == m.core && !r.freed && r.code == 0)
          | _ => false)
        match hit with
        | none => done (count t (.staleXfree m.target) 1)
        | some o =>
          match o.body with
          | .mcast p =>
            done (settleFreed (putOp t { o with body := .mcast { p with receivers := freeReceiver m.core p.receivers } }) name)
          | _ => done t
    | _ => done s

/-! ### The end (R307, R309, R310) -/

/-- Whether a receiver still waits for its delivery. -/
def receiverOpen (r : Receiver) : Bool := !r.done && r.code == 0

/-- The code of a multicast that ends (R307). -/
def mcastCode (m : McastOp) : Nat :=
  if m.srcFail then 1
  else
    match m.receivers.find? (fun r => r.code != 0) with
    | some r => r.code
    | none => 0

/-- MULTICAST_END: the status is written and the leave returned (R307, R309); a receiver whose delivery failed counts as having
freed it (R312). -/
def execMulticastEnd (op : Nat) (s : State) : Host.Outcome State Fault Refusal :=
  match findOp s op with
  | none => done s
  | some o =>
    match o.body with
    | .mcast m =>
      if m.ended then done s
      else if m.receivers.any receiverOpen && !(m.read && (readPiecesOf m).isEmpty) then done s
      else
        let bad := m.receivers.filter (fun r => r.code != 0)
        let first := match bad with
          | r :: _ => r.rank
          | [] => 0
        let t := returnOpLeave (giveStatus s o (engineStatus (mcastCode m) 0 bad.length first 0)) o
        let m' := { m with
          ended := true, receivers := m.receivers.map (fun r => if r.code ≠ 0 then { r with freed := true } else r) }
        done (settleFreed (putOp t { o with held := 0, drawn := 0, body := .mcast m' }) m.name)
    | _ => done s

/-! ### Deliveries (R307) -/

/-- Whether an earlier multicast of the issuer still has to deliver to a core (R307). -/
def mcastBefore (s : State) (o : Op) (core : Nat) : Bool :=
  s.ops.any (fun p => p.core == o.core && decide (p.id < o.id) &&
    (match p.body with
     | .mcast m => !m.ended && m.receivers.any (fun r => r.core == core && receiverOpen r)
     | _ => false))

/-- Whether bytes for a receiver's scratchpad must wait: for a reload, or, at the issuer itself, for an earlier operation. -/
def placeBusy (s : State) (o : Op) (core off n : Nat) : Bool :=
  reloading s core off n || (core == o.core && engineBusy s core off n true o.id)

/-- The state after the rows of an XMCAST have been written, counted in rounds, and in the barrier object (R307, R501). A row with no
valid column writes no byte, so that no round counts it. -/
def deliverRows (s : State) (m : McastOp) (core : Nat) : State :=
  let t := ((List.range m.rows.length).zip m.rows).foldl (fun t p =>
    let off := m.tile.base + p.1 * m.tile.pitch
    if p.2.isEmpty then t else countRoundRow (spadWrite t core off p.2) core off) s
  if wordCnt m.word then barAdd t core (wordBoff m.word) ((m.rows.map (·.length)).sum) else t

/-- The multicast with a receiver changed. -/
def setReceiver (m : McastOp) (rank : Nat) (f : Receiver → Receiver) : McastOp :=
  { m with receivers := m.receivers.map (fun r => if r.rank = rank then f r else r) }

/-- An XMCAST with its source tile read, once for all receivers (R309). -/
def loadTile (s : State) (o : Op) (m : McastOp) : McastOp :=
  { m with rows := validRows (getCore (opView s o) o.core).spad m.tile, loaded := true }

/-- MULTICAST_DELIVERY: an XMCAST's tile is read once its release has been done, and written at one receiver (R295, R307). -/
def execMulticastDelivery (op rank : Nat) (s : State) : Host.Outcome State Fault Refusal :=
  match findOp s op with
  | none => done s
  | some o =>
    match o.body with
    | .mcast m =>
      match m.receivers.find? (fun r => r.rank == rank && receiverOpen r) with
      | none => done s
      | some r =>
        if m.read || m.ended then done s
        else if !opReleased s o m.rel 4 || mcastBefore s o r.core then done (push s (.multicastDelivery op rank))
        else if !m.loaded then done (push (putOp s { o with body := .mcast (loadTile s o m) }) (.multicastDelivery op rank))
        else
          match peerKind s o.core r.core r.egen with
          | some _ =>
            done (push (putOp s { o with body := .mcast (setReceiver m rank (fun r => { r with code := 2 })) }) (.multicastEnd op))
          | none =>
            if (List.range m.tile.vrows).any (fun i => placeBusy s o r.core (m.tile.base + i * m.tile.pitch) (validBytes m.tile)) ||
                (wordCnt m.word && reloading s r.core (wordBoff m.word) 16) then done (push s (.multicastDelivery op rank))
            else
              let t := deliverRows s m r.core
              done (push (putOp t { o with body := .mcast (setReceiver m rank (fun r => { r with done := true })) })
                (.multicastEnd op))
    | _ => done s

/-! ### XMREAD at the home slices (R310, R311) -/

/-- What must be equal for two requests to merge (R310): context, source address, geometry and delivery word. -/
def sameRead (s : State) (o p : Op) : Bool :=
  match o.body, p.body with
  | .mcast a, .mcast b =>
    ctxOf s o.core == ctxOf s p.core && a.src == b.src && a.word == b.word && a.tile.base == b.tile.base &&
      a.tile.pitch == b.tile.pitch && a.tile.rows == b.tile.rows && a.tile.cols == b.tile.cols && a.tile.fmt == b.tile.fmt &&
      a.tile.vrows == b.tile.vrows && a.tile.vcols == b.tile.vcols
  | _, _ => false

/-- The merge entry of a line that a request joins (R310, R311). -/
def entryFor (s : State) (o : Op) (row off pa : Nat) : Option MergeEntry :=
  s.merges.find? (fun e => e.row == row && e.off == off && e.pa == pa && e.ops.any (fun n => (findOp s n).any (sameRead s o)))

/-- The receivers of a multicast that still wait, as cores with the entry generations under which they were named. -/
def openCores (m : McastOp) : List (Nat × Nat) := (m.receivers.filter receiverOpen).map (fun r => (r.core, r.egen))

/-- The sectors of a piece of a line. -/
def sectorsOf (pa len : Nat) : Nat := (pa % 64 + len + 63) / 64

/-- The bytes of a piece that lie in its sector `k`: offset in the piece, and length. -/
def sectorRange (pa len k : Nat) : Nat × Nat :=
  let lo := if k = 0 then 0 else k * 64 - pa % 64
  let hi := Nat.min len ((k + 1) * 64 - pa % 64)
  (lo, hi - lo)

/-- The state with a merge entry replaced. -/
def putMerge (s : State) (e : MergeEntry) : State := { s with merges := s.merges.map (fun f => if f.id = e.id then e else f) }

/-- The multicast of an operation's name. -/
def mcastOf (s : State) (n : Nat) : Option McastOp :=
  match findOp s n with
  | some o =>
    match o.body with
    | .mcast m => some m
    | _ => none
  | none => none

/-- The state after a line of an XMREAD could not be read: every receiver that its request names has failed, and takes no further line
of that operation. R307 fails the delivery of the one line and does not say whether the operation's other lines still come to these
receivers (DESIGN CHOICE, log 91). -/
def failLineOp (s : State) (op : Nat) : State :=
  match findOp s op with
  | none => s
  | some o =>
    match o.body with
    | .mcast m =>
      putOp s { o with
        body := .mcast { m with srcFail := true, receivers := m.receivers.map (fun r => if r.code = 0 then { r with code := 1 } else r) } }
    | _ => s

/-- The address of the line of a merge entry, as an operation of it named it. -/
def mergeAddr (s : State) (e : MergeEntry) : Option (Nat × Word) :=
  e.ops.findSome? (fun n => (findOp s n).bind (fun o => match o.body with
    | .mcast m => some (o.core, m.src + BitVec.ofNat 64 (e.row * m.tile.pitch + e.off))
    | _ => none))

/-- The walk of a line of an XMREAD's source: it must lie in space 0x4, and is never a window's (R251, R310). -/
def lineWalk (s : State) (c : Nat) (a : Word) (len : Nat) : Walk :=
  match placeOf c a with
  | .virt va => if va + len ≤ 2 ^ 48 then coreWalk s c va .read false else .refused
  | _ => .refused

/-- The bytes of sectors `i` up to `j` of a piece. -/
def sectorBytes (e : MergeEntry) (i j : Nat) : Nat := (((List.range j).drop i).map (fun k => (sectorRange e.pa e.len k).2)).sum

/-- The state with a receiver counted for the sectors of a response that it has had before a request of `m` came to name it as well: all
that were sent, or those since it joined late (R310). A receiver that can no longer be reached counts nothing (R307). -/
def countSent (e : MergeEntry) (o : Op) (m : McastOp) (s : State) (c : Nat × Nat) : State :=
  let n :=
    if e.cores.contains c then sectorBytes e 0 e.sent
    else match e.late.find? (fun p => p.1 == c) with
      | some p => sectorBytes e p.2 e.sent
      | none => 0
  if wordCnt m.word && n != 0 && (peerKind s o.core c.1 c.2).isNone then barAdd s c.1 (wordBoff m.word) n else s

/-- XMREAD_REQUEST_ARRIVE: the line is translated and its request merges, joins late, or starts a response (R310, R311). -/
def execXmreadRequestArrive (op line : Nat) (s : State) : Host.Outcome State Fault Refusal :=
  match findOp s op with
  | none => done s
  | some o =>
    match o.body with
    | .mcast m =>
      match (readPiecesOf m)[line]? with
      | none => done s
      | some (row, off, len) =>
        let again := done (push s (.xmreadRequestArrive op line))
        let at_ := m.src + BitVec.ofNat 64 (row * m.tile.pitch + off)
        let asked := s.merges.any (fun e => e.ops.contains op && e.row == row && e.off == off) ||
          m.linesDone.any (fun p => p.1 == line)
        if !m.read || m.ended || asked then done s
        else if !opReleased s o m.rel 4 || (openCores m).any (fun c => mcastBefore s o c.1) then again
        else
          match lineWalk s o.core at_ len with
          | .hold => again
          | .page pa =>
            match entryFor s o row off pa with
            | none =>
              let e : MergeEntry :=
                { id := s.nextId, ops := [op], row := row, off := off, len := len, pa := pa, sent := 0, cores := openCores m, late := [] }
              done (push (bumpId { s with merges := s.merges ++ [e] }) (.xmreadSectorSend s.nextId))
            | some e =>
              let have_ := e.cores ++ e.late.map (·.1)
              let new := (openCores m).filter (fun c => !have_.contains c)
              if e.sent = 0 then done (putMerge s { e with ops := e.ops ++ [op], cores := e.cores ++ new })
              else
                let t := putMerge s { e with ops := e.ops ++ [op], late := e.late ++ new.map (fun c => (c, e.sent)) }
                done ((openCores m).foldl (countSent e o m) t)
          | _ => done (push (failLineOp s op) (.multicastEnd op))
    | _ => done s

/-- Whether a receiving core of an operation may still take bytes; a failed one is noted (R256, R307). -/
def checkReceivers (s : State) (op : Nat) : State :=
  match findOp s op with
  | none => s
  | some o =>
    match o.body with
    | .mcast m =>
      putOp s { o with body := .mcast { m with receivers := m.receivers.map (fun r =>
        if receiverOpen r && (peerKind s o.core r.core r.egen).isSome then { r with code := 2 } else r) } }
    | _ => s

/-- How many operations of an entry name a receiver that still waits. -/
def namedBy (s : State) (e : MergeEntry) (c : Nat × Nat) : Nat :=
  (e.ops.filter (fun op =>
    match mcastOf s op with
    | some m => (openCores m).contains c
    | _ => false)).length

/-- The state after one sector of a response has been read at its slice and written at one receiver, and counted once for each request
that names it (R310, R311). -/
def sendSector (e : MergeEntry) (m : McastOp) (k : Nat) (s : State) (c : Nat × Nat) : State :=
  let n := namedBy s e c
  if n = 0 then s
  else
    let r := sectorRange e.pa e.len k
    let t := spadWrite s c.1 (m.tile.base + e.row * m.tile.pitch + e.off + r.1) (physRead s (e.pa + r.1) r.2)
    if wordCnt m.word then barAdd t c.1 (wordBoff m.word) (r.2 * n) else t

/-- The rank of a core among an operation's receivers that wait. -/
def rankOf (m : McastOp) (c : Nat × Nat) : Option Nat :=
  (m.receivers.find? (fun r => (r.core, r.egen) == c && receiverOpen r)).map (·.rank)

/-- Whether every line of a row has been delivered at a rank. -/
def rowAt (m : McastOp) (row rank : Nat) : Bool :=
  ((List.range (readPiecesOf m).length).zip (readPiecesOf m)).all (fun p => p.2.1 != row || m.linesDone.contains (p.1, rank))

/-- The multicast with a line delivered at receivers, and the receivers that have every line done. -/
def lineDone (m : McastOp) (line : Nat) (cs : List (Nat × Nat)) : McastOp :=
  let ld := m.linesDone ++ (cs.filterMap (rankOf m)).map (fun r => (line, r))
  let total := (readPiecesOf m).length
  { m with
    linesDone := ld,
    receivers := m.receivers.map (fun r =>
      if receiverOpen r ∧ (ld.filter (fun p => p.2 == r.rank)).length = total then { r with done := true } else r) }

/-- The state after a line of an operation has been delivered at receivers. -/
def lineDoneOp (e : MergeEntry) (cs : List (Nat × Nat)) (s : State) (op : Nat) : State :=
  match findOp s op with
  | none => s
  | some o =>
    match o.body with
    | .mcast m =>
      let line := ((readPiecesOf m).findIdx? (fun p => p.1 == e.row && p.2.1 == e.off)).getD 0
      putOp s { o with body := .mcast (lineDone m line cs) }
    | _ => s

/-- Whether a line has completed its row at a receiver, for some operation that names it. -/
def rowComplete (s : State) (e : MergeEntry) (c : Nat × Nat) : Bool :=
  e.ops.any (fun op =>
    match mcastOf s op with
    | some m => m.receivers.any (fun r => (r.core, r.egen) == c && r.code == 0 && rowAt m e.row r.rank)
    | _ => false)

/-- The state with the rows counted that a line has completed at receivers: once for each (R501). -/
def countLineRows (s : State) (e : MergeEntry) (m : McastOp) (cs : List (Nat × Nat)) : State :=
  (cs.filter (rowComplete s e)).foldl (fun t c => countRoundRow t c.1 (m.tile.base + e.row * m.tile.pitch)) s

/-- The receivers of an entry that some operation of it still waits for. -/
def waitingCores (s : State) (e : MergeEntry) (cs : List (Nat × Nat)) : List (Nat × Nat) := cs.filter (fun c => decide (0 < namedBy s e c))

/-- Whether a receiver of a response must wait for its bytes: for a reload, or, at an issuer itself, for its earlier operations (R61,
R296). -/
def entryBusy (s : State) (e : MergeEntry) (m : McastOp) (c : Nat × Nat) : Bool :=
  let off := m.tile.base + e.row * m.tile.pitch + e.off
  reloading s c.1 off e.len || (wordCnt m.word && reloading s c.1 (wordBoff m.word) 16) ||
    e.ops.any (fun n => (findOp s n).any (fun o => o.core == c.1 && engineBusy s c.1 off e.len true o.id))

/-- The state after the last sector of a response has been sent: the late joiners receive the sectors that they missed, and the response
has ended, so that a later request starts a new one (R311). -/
def endResponse (s : State) (e : MergeEntry) (m : McastOp) (live : List (Nat × Nat)) : State :=
  let t := e.late.foldl (fun u p => (List.range p.2).foldl (fun v k => sendSector e m k v p.1) u) s
  countLineRows (e.ops.foldl (lineDoneOp e live) t) e m live

/-- XMREAD_SECTOR_SEND: the next sector goes to the receivers that the entry holds; the last one ends the response (R310, R311). A core
that no operation of the entry waits for any longer gets no sector and leaves the entry, so that a later request that names it is a
late joiner's. -/
def execXmreadSectorSend (entry : Nat) (s : State) : Host.Outcome State Fault Refusal :=
  match s.merges.find? (fun e => e.id == entry) with
  | none => done s
  | some e =>
    let t := e.ops.foldl checkReceivers s
    let live := waitingCores t e (e.cores ++ e.late.map (·.1))
    let drop (u : State) : State :=
      pushAll { u with merges := u.merges.filter (fun f => f.id != entry) } (e.ops.map (fun n => .multicastEnd n))
    match e.ops.findSome? (mcastOf t) with
    | some m =>
      if live.isEmpty then done (drop t)
      else if live.any (entryBusy t e m) then done (push t (.xmreadSectorSend entry))
      else if sectorBad t e.pa e.len then done (drop (e.ops.foldl failLineOp t))
      else
        let t := if e.sent = 0 then touchLine t none false e.pa e.len else t
        let u := live.foldl (sendSector e m e.sent) t
        if e.sent + 1 < sectorsOf e.pa e.len then
          done (push (putMerge u { e with
            sent := e.sent + 1, cores := waitingCores t e e.cores, late := e.late.filter (fun p => decide (0 < namedBy t e p.1)) })
            (.xmreadSectorSend entry))
        else done (drop (endResponse u e m live))
    | _ => done (drop t)

end Sys2Proof.Machine
end

