-- ==== Sys2Proof/Machine/KeyBase.lean ====
section
/-! DEFINITION. The key space: hashes, homes and their map, what a home holds and how much room it has, requests and their
answers (R425-R432, R446, R447, R454-R464). -/

namespace Sys2Proof.Machine

/-- A number that names no core, for units that have no local space. -/
def noCore : Nat := 4096

/-! ### Hashes and homes (R426, R430, R454-R459) -/

/-- One bit of CRC-32C, reflected. -/
def crc32Bit (v : BitVec 32) : BitVec 32 := if v.getLsbD 0 then (v >>> 1) ^^^ 0x82F63B78 else v >>> 1

/-- One byte of CRC-32C. -/
def crc32Byte (v : BitVec 32) (b : Byte) : BitVec 32 := (List.range 8).foldl (fun u _ => crc32Bit u) (v ^^^ b.setWidth 32)

/-- CRC-32C of RFC 3720 (R454). -/
def crc32c (bs : List Byte) : BitVec 32 := ~~~(bs.foldl crc32Byte 0xFFFFFFFF)

/-- A field of a key (R426). -/
def keyField (k : BitVec 256) (i : Nat) : BitVec 32 := (k >>> (32 * i)).setWidth 32

/-- The home hash of a key or of a template's value (R454). -/
def keyHash (k : BitVec 256) : Nat :=
  let spread := (keyField k 1).msb
  (crc32c ((leBytes 4 (keyField k 0).toNat) ++ (leBytes 4 (keyField k 1).toNat) ++
    (if spread then leBytes 4 (keyField k 2).toNat else []))).toNat

/-- The key in an aligned group of registers (R426). -/
def keyOfWords (ws : List Word) : BitVec 256 :=
  BitVec.ofNat 256 (((List.range 4).zip ws).map (fun p => p.2.toNat * 2 ^ (64 * p.1))).sum

/-- A key as the four arguments of a continuation (R46, R426). -/
def wordsOfKey (k : BitVec 256) : List Word := (List.range 4).map (fun i => (k >>> (64 * i)).setWidth 64)

/-- Whether a key matches a template (R430). -/
def keyMatches (v m k : BitVec 256) : Bool := (k ^^^ v) &&& m == 0

/-- The entry of a map that covers a hash (R457). -/
def coverOf (m : HomeMap) (h : Nat) : Option HomeRange := (m.ranges.filter (fun r => decide (r.lo ≤ h))).getLast?

/-- The home that a map names for a hash (R457). -/
def homeFor (m : HomeMap) (h : Nat) : Nat :=
  match coverOf m h with
  | some r => r.home
  | none => 0

/-- The map copy of an interface; one that is not listed holds the current map (R460). -/
def mapCopy (s : State) (ni : Nat) : HomeMap := tabGet s.homeMap s.mapCopies ni

/-- The initial map over the homes present, in ascending number (R459). -/
def initialMap (homes : List Nat) : HomeMap :=
  let n := homes.length
  { gen := 1, ranges := ((List.range n).zip homes).map (fun p => { lo := p.1 * 2 ^ 32 / n, home := p.2 }) }

/-- A home. -/
def getHome (s : State) (h : Nat) : Home := tabGet emptyHome s.homes h

/-- The state with a home replaced. -/
def setHome (s : State) (h : Nat) (v : Home) : State := { s with homes := tabSet s.homes h v }

/-- Whether a home belongs to this module (R456). -/
def homeLocal (s : State) (h : Nat) : Bool := h / 64 == s.localMod

/-! ### Room (R462-R464) -/

/-- The match entries of a slice (R462). -/
def matchEntries : Nat := 65536

/-- The match entries in use. -/
def arrayUsed (h : Home) : Nat := (h.tuples.filter (fun t => !t.chain)).length + (h.waiters.filter (fun w => !w.chain)).length

/-- The entries in the overflow chain. -/
def chainUsed (h : Home) : Nat := (h.tuples.filter (·.chain)).length + (h.waiters.filter (·.chain)).length

/-- The heap units of a payload (R463). -/
def payloadUnits (n : Nat) : Nat := (n + 63) / 64

/-- The heap units in use: payloads stored or not yet acknowledged, and chain entries (R437, R463). -/
def heapUsed (h : Home) : Nat :=
  ((h.tuples ++ h.unacked).map (fun t => payloadUnits t.payload.length)).sum + chainUsed h

/-- The heap units of a home. -/
def heapUnits (h : Home) : Nat := h.heapSize / 64

/-- Whether `n` more units fit; 1/16 of the heap is kept for re-deposits and splits (R464). -/
def heapFits (h : Home) (n : Nat) (kept : Bool) : Bool :=
  decide (heapUsed h + n ≤ heapUnits h - (if kept then 0 else heapUnits h / 16))

/-- The units of a home's heap that payloads fill. -/
def usedUnits (h : Home) : List Nat := ((h.tuples ++ h.unacked).map (·.units)).flatten

/-- The `n` lowest units that are not in use; which units a payload takes is the model's choice (R463, log 21). -/
def lowestFree (used : List Nat) (n : Nat) : List Nat :=
  ((List.range (used.length + n)).filter (fun u => !used.contains u)).take n

/-- A stack's capacity in bytes (R463). -/
def stackBytes : Nat := 48 * 2 ^ 30

/-- The physical address of a byte of a home's heap: its stack holds every sixteenth line (R258, R463). -/
def heapPa (home base off : Nat) : Nat :=
  let a := base % stackBytes + off
  ((a / 256) * 16 + home % 64 / 4) * 256 + a % 256

/-- The state with a payload written into units of a home's heap (R250, R450, R463). -/
def writeHeap (s : State) (h : Nat) (units : List Nat) (payload : List Byte) : State :=
  match units with
  | [] => s
  | u :: r => writeHeap (physWrite s (heapPa h (getHome s h).heapBase (64 * u)) (payload.take 64)) h r (payload.drop 64)

/-- Whether a hash lies in the upper half of a split. -/
def inUpper (p : Split) (h : Nat) : Bool := decide (p.mid ≤ h) && decide (h < p.hi)

/-- The units of a home's heap that are reserved: for the split in progress here, or for what another module's split has sent (R465). -/
def reservedAt (s : State) (h : Nat) : Nat :=
  (match s.split with
   | some p => if p.dst = h then p.reserved else 0
   | none => 0) +
    ((s.splitIn.filter (fun p => p.1 % 1024 == h)).map (fun p => payloadUnits p.2.payload.length)).sum

/-- Whether `n` more units fit beside those that are reserved (R464, R465). -/
def roomFits (s : State) (h n : Nat) (kept : Bool) : Bool := heapFits (getHome s h) (n + reservedAt s h) kept

/-- Whether a request has to wait at its home while the upper half that holds its hash moves (R465). -/
def cutWaits (s : State) (r : KeyReq) : Bool :=
  match s.split with
  | some p => p.phase == 3 && p.src == r.home && inUpper p r.hash
  | none => false

/-- Entries with the first `n` of the chain moved into the array. -/
def promoteTuples (n : Nat) (ts : List Tuple) : List Tuple :=
  match n, ts with
  | 0, ts => ts
  | _, [] => []
  | m + 1, t :: r => if t.chain then { t with chain := false } :: promoteTuples m r else t :: promoteTuples (m + 1) r

/-- Waiters with the first `n` of the chain moved into the array. -/
def promoteWaiters (n : Nat) (ws : List KeyReq) : List KeyReq :=
  match n, ws with
  | 0, ws => ws
  | _, [] => []
  | m + 1, w :: r => if w.chain then { w with chain := false } :: promoteWaiters m r else w :: promoteWaiters (m + 1) r

/-- The home with its chain entries moved into the entries that are free (R462). -/
def promote (h : Home) : Home :=
  let h1 := { h with tuples := promoteTuples (matchEntries - arrayUsed h) h.tuples }
  { h1 with waiters := promoteWaiters (matchEntries - arrayUsed h1) h1.waiters }

/-! ### Requests -/

/-- The operands of a KPUT, for its hash: the key as four words, and the shape word (R556). -/
def keyOperands (key : BitVec 256) (shape : BitVec 32) : List Nat := hashWords 4 key.toNat ++ [shape.toNat]

/-- The request of a name. -/
def findReq (s : State) (n : Nat) : Option KeyReq := s.keyReqs.find? (fun r => r.id == n)

/-- The state with a request replaced. -/
def putReq (s : State) (r : KeyReq) : State := { s with keyReqs := s.keyReqs.map (fun q => if q.id = r.id then r else q) }

/-- The event with which a request arrives at its home. -/
def keyEvent (a : KeyAsk) (n : Nat) : Event :=
  match a with
  | .fetch _ _ _ _ => .homeKputArrive n
  | .put _ _ _ => .homeKputArrive n
  | .read take _ _ _ _ => if take then .homeKtakeArrive n else .homeKreadArrive n
  | .cancel _ _ => .homeKcancelArrive n
  | .redeposit _ => .homeRedepositArrive n
  | .stat _ => .keyDeliveryArrive n
  | .copy _ _ => .homeRedepositArrive n

/-- Whether a KPUT's payload has still to be read. -/
def isFetch (a : KeyAsk) : Bool :=
  match a with
  | .fetch _ _ _ _ => true
  | _ => false

/-- The event that carries a request on: a dual copy's goes to the Assay once its payload is known (R445). -/
def reqEvent (r : KeyReq) : Event := if r.tag.isSome && !isFetch r.ask then .assayFirstArrival r.id else keyEvent r.ask r.id

/-- The state with a request sent by an interface, routed by its map copy (R458, R460). -/
def sendReq (s : State) (issuer : KeyIssuer) (ni ctx hash : Nat) (ask : KeyAsk) (tag : Option PairTag) : State :=
  let m := mapCopy s ni
  let r : KeyReq :=
    { id := s.nextId, issuer := issuer, ctx := ctx, ask := ask, hash := hash, home := homeFor m hash, mapgen := m.gen.toNat,
      fwd := 0, forwarded := false, held := false, tag := tag, twin := none, twinRemote := none, assayed := false, chain := false, rid := 0 }
  push (bumpId { s with keyReqs := s.keyReqs ++ [r] }) (reqEvent r)

/-- Whether the release of a request has been done: the fork release of a task's (R326), and that of a deposit which a combine release, a
queue or a packet makes, with every write that may happen before it (R322, R325). -/
def keyReleased (s : State) (r : KeyReq) : Bool :=
  match r.issuer with
  | .task c serial _ _ => relDone s c serial r.id 4
  | .combine _ _ _ => carriedReady s noCore 4 r.id
  | .ingress _ => carriedReady s noCore 4 r.id
  | .packet _ _ => carriedReady s noCore 4 r.id
  | _ => true

/-- Whether the requests of two issuers keep their order: those of one core, of this module or another, whose number a task name begins
with (R40, R432, R471), and of one ingress queue (R336). -/
def sameFlow (a b : KeyIssuer) : Bool :=
  match a, b with
  | .task c _ _ _, .task d _ _ _ => c == d
  | .module m _ name, .module n _ other => m == n && name / 2 ^ 16 == other / 2 ^ 16
  | .ingress p, .ingress q => p == q
  | _, _ => false

/-- Whether an issuer's requests are performed in order whatever their homes: frame n + 1 of an ingress queue follows frame n
(R336). -/
def wholeFlow (i : KeyIssuer) : Bool :=
  match i with
  | .ingress _ => true
  | _ => false

/-- Whether home of another module `m` has appended a request by now (R334): no message tells, so it is a free value (log 4). A
registration whose status is due has not been appended (R440). -/
def appendedThere (s : State) (m : Nat) (r : KeyReq) : Bool :=
  match r.ask with
  | .read _ _ _ poll d => !poll && !contDest d && Config.freeNat (s.fresh + m % 256 * 2 ^ 32 + r.rid % 2 ^ 32) % 2 == 1
  | _ => false

/-- Whether a request that is on its way has still to be performed, or to be appended at its home: no answer of it has come (R440,
R461). -/
def unperformed (s : State) (m : Nat) (r : KeyReq) : Bool :=
  match r.ask with
  | .read _ _ _ _ d => !r.served && !(contDest d && (reqOps r).all (fun op => (findOp s op).isNone)) && !appendedThere s m r
  | _ => true

/-- Whether an earlier request of the same flow that has gone to another module holds a request back: of the same range, to a home that
the range has left since (R461), or any of an ingress queue (R336). One to the same home keeps its place on the connection (R471). -/
def remoteFlowWaits (s : State) (r : KeyReq) : Bool :=
  s.waidric.any (fun w => w.2.outstanding.any (fun e =>
    sameFlow r.issuer e.2.issuer && decide (e.2.id < r.id) && unperformed s w.1 e.2 &&
      (wholeFlow r.issuer || (e.2.home != r.home && coverOf s.homeMap e.2.hash == coverOf s.homeMap r.hash))))

/-- Whether an earlier request of the same flow holds a request back: one to the same home (R432), one of the same range that has
not been performed (R461), or any of an ingress queue (R336). -/
def keyFlowWaits (s : State) (r : KeyReq) : Bool :=
  s.keyReqs.any (fun q => sameFlow r.issuer q.issuer && decide (q.id < r.id) &&
    !q.assayed && (wholeFlow r.issuer || q.home == r.home || coverOf s.homeMap q.hash == coverOf s.homeMap r.hash)) ||
    remoteFlowWaits s r

/-- Whether a request waits for its issuer's earlier requests or accesses. -/
def keyWaits (s : State) (r : KeyReq) : Bool := !keyReleased s r || keyFlowWaits s r

/-- The state with an answer on its way from a home (R436). -/
def answerReq (s : State) (home : Nat) (r : KeyReq) (a : KeyAnswer) : State :=
  push (bumpId { s with deliveries := s.deliveries ++ [{ id := s.nextId, home := home, req := r, answer := a, held := false }] })
    (.keyDeliveryArrive s.nextId)

end Sys2Proof.Machine
end

