-- ==== Sys2Proof/Machine/KeyHome.lean ====
section
/-! DEFINITION. What a home does with the requests that reach it, and how its answers are delivered: KPUT, KREAD, KTAKE,
KCANCEL, re-deposits, deliveries and their acknowledgements, and continuations (R433-R445, R460, R464, R468). -/

namespace Sys2Proof.Machine

/-! ### Serving (R433, R436, R437) -/

/-- The state with a waiter or an arriving operation served (R433, R436): a taken tuple is kept until it is acknowledged. OVERFLOW says
that the service, or the storing of the waiter, went through the chain (R446, R462). -/
def serve (s : State) (h : Nat) (r : KeyReq) (t : Tuple) (take : Bool) : State :=
  let chained := t.chain || r.chain
  let v := getHome s h
  let u := if take then setHome s h { v with unacked := v.unacked ++ [t] } else s
  let u := if chained then count u (.overflows h) 1 else u
  answerReq u h r (.serve t take (chained || r.stored))

/-- What a waiter asks for, if it is one: whether it takes, its template. -/
def waitForm (a : KeyAsk) : Option (Bool × BitVec 256 × BitVec 256) :=
  match a with
  | .read take v m _ _ => some (take, v, m)
  | _ => none

/-- The waiting templates that a deposit serves: all matching KREADs before the oldest matching KTAKE, and that KTAKE (R433);
with the waiters that stay, and whether the tuple is taken. -/
def matchWaiters (t : Tuple) (ws : List KeyReq) : List KeyReq × List KeyReq × Bool :=
  match ws with
  | [] => ([], [], false)
  | w :: r =>
    match waitForm w.ask with
    | some (take, v, m) =>
      if w.ctx = t.ctx ∧ keyMatches v m t.key = true then
        if take then ([w], r, true)
        else
          let o := matchWaiters t r
          (w :: o.1, o.2.1, o.2.2)
      else
        let o := matchWaiters t r
        (o.1, w :: o.2.1, o.2.2)
    | none =>
      let o := matchWaiters t r
      (o.1, w :: o.2.1, o.2.2)

/-- The state after a deposit has served its waiters and, unless it was taken, been stored (R433): with whether it went to the
overflow chain. Its payload is in the heap before any template matches it (R450). -/
def deposit (s : State) (h : Nat) (tuple : Tuple) : State × Bool :=
  let v := getHome s h
  let t := { tuple with chain := false, units := lowestFree (usedUnits v) (payloadUnits tuple.payload.length) }
  let o := matchWaiters t v.waiters
  let u := setHome (writeHeap s h t.units t.payload) h (promote { v with waiters := o.2.1 })
  let takes (w : KeyReq) : Bool :=
    match waitForm w.ask with
    | some (take, _, _) => take
    | none => false
  let u := o.1.foldl (fun u w => serve u h w t (takes w)) u
  if o.2.2 then (u, false)
  else
    let v := getHome u h
    let chain := decide (matchEntries ≤ arrayUsed v)
    let u := setHome u h { v with tuples := v.tuples ++ [{ t with chain := chain }] }
    (if chain then count u (.overflows h) 1 else u, chain)

/-- A KPUT at its home (R433, R450, R464). -/
def putAt (s : State) (h : Nat) (r : KeyReq) (key : BitVec 256) (shape : BitVec 32) (payload : List Byte) : State :=
  let v := getHome s h
  let t : Tuple := { key := key, ctx := r.ctx, seq := v.seq.toNat, shape := shape, payload := payload, chain := false }
  let m := matchWaiters t v.waiters
  let chained := !m.2.2 && decide (matchEntries ≤ arrayUsed (promote { v with waiters := m.2.1 }))
  if !roomFits s h (payloadUnits payload.length + chained.toNat) false then answerReq s h r (.status 2 false)
  else
    let o := deposit (setHome s h { v with seq := v.seq + 1 }) h t
    answerReq o.1 h r (.status 0 o.2)

/-- The stored tuple of the lowest sequence that a template matches (R433, R455). -/
def bestTuple (v : Home) (ctx : Nat) (val mask : BitVec 256) : Option Tuple :=
  (v.tuples.filter (fun t => t.ctx == ctx && keyMatches val mask t.key)).foldl (fun best t =>
    match best with
    | none => some t
    | some b => if t.seq < b.seq then some t else some b) none

/-- Whether an entry of a core's activation queue is reserved for a registration. -/
def coreReg (s : State) (c aq reg : Nat) : Bool :=
  match (getCore s c).aq.getD aq .free with
  | .continuation _ n => n == reg
  | _ => false

/-- The state with a registration's reservation released, a dormant task retiring with its last (R42, R47, R452). -/
def releaseReg (s : State) (c : Nat) (d : KeyDest) : State :=
  match d with
  | .cont aq reg _ _ _ =>
    let k := getCore s c
    match k.aq.getD aq .free with
    | .continuation g n => if n = reg then retireDormant (setCore s c (putAq k aq .free)) c g else s
    | _ => s
  | _ => s

/-- The core and destination of every copy that a request stands for. -/
def reqDests (r : KeyReq) : List (Nat × KeyDest) :=
  let own := match r.issuer, r.ask with
    | .task c _ _ _, .read _ _ _ _ d => [(c, d)]
    | _, _ => []
  own ++ (match r.twin with | some t => [(t.core, t.dest)] | none => [])

/-- Whether a copy's part in a request that must wait is still wanted: its activation has not ended, or its registration stands (R438,
R442). -/
def wantedBy (s : State) (c serial : Nat) (dest : KeyDest) : Bool :=
  match dest with
  | .cont aq reg _ _ _ => coreReg s c aq reg
  | _ => hasAct s c serial

/-- Whether a request that must wait is still wanted, by both copies of a pair (R445). -/
def stillWanted (s : State) (r : KeyReq) (dest : KeyDest) : Bool :=
  (match r.issuer with
   | .task c serial _ _ => wantedBy s c serial dest
   | _ => true) && r.twin.all (fun t => wantedBy s t.core t.serial t.dest)

/-- The state with a waiter at the end of a home's list, and whether it went to the overflow chain (R433, R462). -/
def appendWaiter (s : State) (h : Nat) (r : KeyReq) : State × Bool :=
  let v := getHome s h
  let chain := decide (matchEntries ≤ arrayUsed v)
  let u := setHome s h { v with waiters := v.waiters ++ [{ r with chain := chain, stored := r.stored || chain }] }
  (if chain then count u (.overflows h) 1 else u, chain)

/-- A KREAD or KTAKE at its home (R433, R438-R440, R464). -/
def readAt (s : State) (h : Nat) (r : KeyReq) (take : Bool) (val mask : BitVec 256) (poll : Bool) (dest : KeyDest) : State :=
  let v := getHome s h
  match bestTuple v r.ctx val mask with
  | some t =>
    let u := if take then setHome s h (promote { v with tuples := v.tuples.erase t }) else s
    let u := if contDest dest then answerReq u h r (.status 0 t.chain) else u
    serve u h r t take
  | none =>
    if poll then answerReq s h r (.status 1 false)
    else if !stillWanted s r dest then answerReq s h r (.status 6 false)
    else if decide (matchEntries ≤ arrayUsed v) && !roomFits s h 1 false then
      answerReq ((reqDests r).foldl (fun u p => releaseReg u p.1 p.2) s) h r (.status 2 false)
    else
      let o := appendWaiter s h r
      if contDest dest then answerReq o.1 h r (.status 0 o.2) else o.1

/-- Whether a waiter is the one that a KCANCEL names (R452). -/
def cancels (r : KeyReq) (val mask : BitVec 256) (w : KeyReq) : Bool :=
  match w.issuer, r.issuer, waitForm w.ask with
  | .task c _ name _, .task d _ other _, some (_, v, m) => c == d && name == other && w.ctx == r.ctx && v == val && m == mask
  | .module a _ n, .module b _ o, some (_, v, m) => a == b && n == o && w.ctx == r.ctx && v == val && m == mask
  | _, _, _ => false

/-- The state after a waiter has been withdrawn: a status CANCELLED falls due, but that a continuation of this module gives its
reservation back at once (R42, R47, R452). Another module releases the reservation when the status reaches it. -/
def withdrawn (s : State) (h : Nat) (w : KeyReq) : State :=
  let cont := match w.ask with
    | .read _ _ _ _ d => contDest d
    | _ => false
  let t := if cont then (reqDests w).foldl (fun u p => releaseReg u p.1 p.2) s else s
  if cont && (issuerCore w.issuer).isSome && w.twinRemote.isNone then t else answerReq t h w (.status 6 false)

/-- A KCANCEL at its home: the oldest waiter that it names is withdrawn (R452). -/
def cancelAt (s : State) (h : Nat) (r : KeyReq) (val mask : BitVec 256) : State :=
  let v := getHome s h
  match v.waiters.find? (cancels r val mask) with
  | none => answerReq s h r (.status 1 false)
  | some w =>
    let u := setHome s h (promote { v with waiters := v.waiters.filter (fun x => x.id != w.id) })
    answerReq (withdrawn u h w) h r (.status 0 false)

/-- The state with a STATUS or an ACK on its way to another module, under the number of its request (R471). -/
def replyTo (s : State) (m reqid op ctx home status : Nat) : State :=
  sendWaidric s m
    { op := op, flags := ctx * 256, smod := s.localMod, dhome := home, mapgen := s.homeMap.gen.toNat, reqid := reqid, task := 0,
      pairseq := 0, hash := 0, status := status, len := 0, seq := 0 } []

/-- A re-deposit at its home: a KPUT that keeps its sequence (R433, R437); one that another module has forwarded is acknowledged. -/
def redepositAt (s : State) (h : Nat) (r : KeyReq) (t : Tuple) : State :=
  let u := (deposit s h t).1
  match r.issuer with
  | .module m reqid _ => replyTo u m reqid 6 t.ctx h 0
  | _ => u

/-! ### The way to the home (R432, R460) -/

/-- Where a request goes next: it is performed here, or the state in which it has moved on. -/
inductive KeyRoute where
  | here
  | moved (s : State)

/-- The header of the hint that a request of another module gets: MAPSET with the new entry and generation (R460, R471, log 14). -/
def hintHead (s : State) (e : HomeRange) : WaidricHead :=
  { op := 9, flags := 0, smod := s.localMod, dhome := e.home, mapgen := s.homeMap.gen.toNat, reqid := 0, task := 0, pairseq := 0, hash := e.lo,
    status := 0, len := 0, seq := 0 }

/-- The state with a request forwarded to the home that holds its hash, and a hint on its way to the sender (R460). -/
def forwardReq (s : State) (r : KeyReq) (home : Nat) : State :=
  let q := { r with home := home, fwd := Nat.min (r.fwd + 1) 15, forwarded := true, held := false }
  let t := count (putReq s q) (.forwards r.home) 1
  let t := match issuerCore r.issuer, coverOf s.homeMap r.hash with
    | some c, some e =>
      push (bumpId { t with hints := t.hints ++ [{ id := t.nextId, ni := c, gen := s.homeMap.gen, lo := e.lo, home := e.home }] })
        (.forwardHintArrive t.nextId)
    | none, some e =>
      (match r.issuer with
       | .module m _ _ => sendWaidric t m (hintHead t e) []
       | _ => t)
    | _, _ => t
  push t (reqEvent q)

/-- Whether a request that would wait is no longer wanted (R438, R442). -/
def unwanted (s : State) (r : KeyReq) : Bool :=
  match r.ask with
  | .read _ _ _ false dest => !stillWanted s r dest
  | _ => false

/-- The route of a request from where it stands (R460, R471); one to another module that is no longer wanted does not leave (R438). -/
def routeReq (s : State) (r : KeyReq) : KeyRoute :=
  if !homeLocal s r.home then
    .moved (if s.failedModules.contains (r.home / 64) then answerReq (dropReq s r.id) r.home r (.status 7 false)
      else if unwanted s r then answerReq (dropReq s r.id) r.home r (.status 6 false)
      else sendRemote s r)
  else
    let now := homeFor s.homeMap r.hash
    if now = r.home then .here
    else if 15 ≤ r.fwd then .moved (push (putReq s { r with held := true }) (.heldForwardRelease r.id))
    else .moved (forwardReq s r now)

/-- The state with a request that waits to be performed: a free value says, at the next look, what another module has appended since. -/
def keyAgain (s : State) (r : KeyReq) (again : Event) : State := push (if remoteFlowWaits s r then bumpFree s else s) again

/-- The state with the requests of other modules that are performed here noted on their connections (R472). -/
def notePerformed (s : State) (r : KeyReq) : State :=
  let own := match r.issuer with
    | .module m n _ => [(m, n)]
    | _ => []
  (own ++ r.twinRemote.toList).foldl (fun t p =>
    let w := getWaidric t p.1
    setWaidric t p.1 { w with received := Nat.max w.received p.2 }) s

/-- A request at its home: it waits for its issuer's earlier accesses and requests, and while its half of a range moves (R465), is
routed, and is performed whole (R432). -/
def atHome (n : Nat) (s : State) (again : Event) (act : KeyReq → Option (State → State)) : Host.Outcome State Fault Refusal :=
  match findReq s n with
  | none => done s
  | some r =>
    match act r with
    | none => done s
    | some f =>
      if r.tag.isSome || r.assayed || r.held then done s
      else if keyWaits s r then done (keyAgain s r again)
      else if cutWaits s r then done (push s again)
      else
        match routeReq s r with
        | .moved t => done t
        | .here => done (f (notePerformed (dropReq s n) r))

/-- The state after the payload of a KPUT has been read, or its source has failed (R449, R450). -/
def fetchPayload (s : State) (r : KeyReq) (key : BitVec 256) (shape : BitVec 32) (a : Word) (len : Nat) : State :=
  match issuerCore r.issuer with
  | none => s
  | some c =>
    match (if len = 0 then .ok [] else homeRead s c a len) with
    | .wait => push s (.homeKputArrive r.id)
    | .fail kind _ => answerReq (dropReq s r.id) r.home r (.status (if kind = 3 then 7 else 3) false)
    | .ok bs =>
      let tag := r.tag.map (fun t => { t with hash := messageHash 0x28 r.hash (keyOperands key shape) bs })
      let q := { r with ask := .put key shape bs, tag := tag }
      push (putReq s q) (reqEvent q)

/-- HOME_KPUT_ARRIVE (R433, R450). -/
def execHomeKputArrive (n : Nat) (s : State) : Host.Outcome State Fault Refusal :=
  match findReq s n with
  | none => done s
  | some r =>
    match r.ask with
    | .fetch key shape a len =>
      if !keyReleased s r then done (push s (.homeKputArrive n)) else done (fetchPayload s r key shape a len)
    | .put key shape payload => atHome n s (.homeKputArrive n) (fun q => some (fun t => putAt t q.home q key shape payload))
    | _ => done s

/-- HOME_KREAD_ARRIVE (R433, R451). -/
def execHomeKreadArrive (n : Nat) (s : State) : Host.Outcome State Fault Refusal :=
  atHome n s (.homeKreadArrive n) (fun r =>
    match r.ask with
    | .read false v m poll dest => some (fun t => readAt t r.home r false v m poll dest)
    | _ => none)

/-- HOME_KTAKE_ARRIVE (R433, R451). -/
def execHomeKtakeArrive (n : Nat) (s : State) : Host.Outcome State Fault Refusal :=
  atHome n s (.homeKtakeArrive n) (fun r =>
    match r.ask with
    | .read true v m poll dest => some (fun t => readAt t r.home r true v m poll dest)
    | _ => none)

/-- HOME_KCANCEL_ARRIVE (R452). -/
def execHomeKcancelArrive (n : Nat) (s : State) : Host.Outcome State Fault Refusal :=
  atHome n s (.homeKcancelArrive n) (fun r =>
    match r.ask with
    | .cancel v m => some (fun t => cancelAt t r.home r v m)
    | _ => none)

/-- HOME_REDEPOSIT_ARRIVE: one that finds no room waits at its home (R437, R464, R468). -/
def execHomeRedepositArrive (n : Nat) (s : State) : Host.Outcome State Fault Refusal :=
  atHome n s (.homeRedepositArrive n) (fun r =>
    match r.ask with
    | .redeposit t =>
      some (fun u =>
        let n := payloadUnits t.payload.length + (decide (matchEntries ≤ arrayUsed (getHome u r.home))).toNat
        if n = 0 || roomFits u r.home n true then redepositAt u r.home r t
        else push { u with keyReqs := u.keyReqs ++ [r] } (.homeRedepositArrive n))
    | _ => none)

/-! ### Delivering (R436, R437, R443) -/

/-- How a delivery to one destination ends: it waits, its activation has ended, or a status code with TRUNC and SHORT. -/
inductive Delivered where
  | wait
  | gone
  | ended (code : Nat) (trunc short : Bool)
  deriving DecidableEq, Repr

/-- The state with a payload written row by row into a tile's valid extent (R436). -/
def writeTile (s : State) (c : Nat) (b : Tile) (payload : List Byte) : State :=
  let n := validBytes b
  (List.range b.vrows).foldl (fun t i =>
    spadWrite t c (b.base + i * b.pitch) ((payload.drop (i * n)).take n)) s

/-- Whether a tile's valid extent must wait for a reload (R61). -/
def tileReloads (s : State) (c : Nat) (b : Tile) : Bool :=
  (List.range b.vrows).any (fun i => reloading s c (b.base + i * b.pitch) (validBytes b))

/-- The header of an image, its key first (R429). -/
def imageHeader (t : Tuple) : List Byte :=
  keyBytes t.key ++ leBytes 4 t.payload.length ++ leBytes 4 t.shape.toNat ++ leBytes 8 t.seq ++ leBytes 16 0

/-- The state with a tuple written into an image, its header last (R436). -/
def writeImage (s : State) (c : Nat) (a : Word) (cap : Nat) (t : Tuple) : State × Delivered :=
  let n := Nat.min t.payload.length cap
  let fail (kind : Nat) : Delivered := .ended (if kind = 3 then 7 else 4) false false
  match homeCheck s c a 64, (if n = 0 then .ok [] else homeCheck s c (a + 64) n) with
  | .wait, _ => (s, .wait)
  | _, .wait => (s, .wait)
  | .fail kind _, _ => (s, fail kind)
  | _, .fail kind _ => (s, fail kind)
  | .ok _, .ok _ =>
    let u := if n = 0 then s else rowPut s c (a + 64) (t.payload.take n)
    (rowPut u c a (imageHeader t), .ended 0 (decide (cap < t.payload.length)) false)

/-- Whether a tile's valid extent holds bytes that an engine operation of its core, issued before `before`, has still to read or to write
(R296). -/
def tileHeld (s : State) (c before : Nat) (b : Tile) : Bool :=
  (List.range b.vrows).any (fun i => engineBusy s c (b.base + i * b.pitch) (validBytes b) true before)

/-- Whether the image of a tuple at an address holds such bytes of its core's own scratchpad (R296). -/
def imageHeld (s : State) (c before : Nat) (a : Word) (cap : Nat) (t : Tuple) : Bool :=
  (localRange c a (64 + Nat.min t.payload.length cap)).any (fun r => engineBusy s c r.1 r.2 true before)

/-- A served tuple at one destination (R436, R437, R443); `op` is the operation that reads it. -/
def deliverTo (s : State) (c serial op : Nat) (dest : KeyDest) (t : Tuple) : State × Delivered :=
  match dest with
  | .tile b =>
    if !hasAct s c serial then (s, .gone)
    else if !standsOn s c serial || tileReloads s c b || tileHeld s c op b then (s, .wait)
    else
      let n := b.vrows * validBytes b
      (writeTile s c b t.payload, .ended 0 (decide (n < t.payload.length)) (decide (t.payload.length < n)))
  | .image a cap =>
    if !hasAct s c serial then (s, .gone)
    else if !standsOn s c serial || imageHeld s c op a cap t then (s, .wait)
    else writeImage s c a cap t
  | _ => (s, .gone)

/-- Whether a registration still stands on a core (R441). -/
def regStands (s : State) (c : Nat) (dest : KeyDest) : Bool :=
  match dest with
  | .cont aq reg _ _ _ => coreReg s c aq reg && (getCore s c).state != .killed
  | _ => false

/-- Whether a delivery to a core is held at the home: its partition is switched out, or about to be (R443). One whose partition has been
discarded is not (R442). -/
def deliveryHeld (s : State) (c : Nat) : Bool := (partOf s c).isSome && !partLive s c

/-- The state with an acknowledgement on its way to a home, where the tuple was taken (R437). -/
def ackTake (s : State) (d : KeyDelivery) (t : Tuple) (take ok : Bool) : State :=
  if !take then s
  else
    push (bumpId { s with acks := s.acks ++ [{ id := s.nextId, home := d.home, tuple := t, hash := d.req.hash, rid := d.req.rid, ok := ok }] })
      (.keyDeliveryAck s.nextId)

/-- The state without a delivery. -/
def dropDelivery (s : State) (n : Nat) : State := { s with deliveries := s.deliveries.filter (fun d => d.id != n) }

/-- Where a slice finds a word of virtual memory that it reads and writes (R487, R513). -/
def slicePlace (s : State) (slice ctx : Nat) (a : Word) : Walk :=
  let va := a.toNat % 2 ^ 48
  walk s (stationOf (sliceAt slice).1 va) ctx va .both false

/-- Whether the page of a slice's word is held, so that an access to it waits (R516). -/
def orHeld (s : State) (slice ctx : Nat) (a : Word) : Bool := slicePlace s slice ctx a == .hold

/-- The state with bits set in a word of virtual memory by an atomic OR; a failure is counted at the slice (R487-R489). -/
def orWord (s : State) (slice ctx : Nat) (a : Word) (bits : Nat) : State :=
  match slicePlace s slice ctx a with
  | .page pa => physWrite (fillRange (dropCopies s pa 8) pa 8) pa (leBytes 8 (physWord s pa 8 ||| bits))
  | _ => count s (.releaseFails slice) 1

/-- Whether an answer to a combine release has to wait: it marks a word whose page is held (R488, R516). -/
def answerHeld (s : State) (r : KeyReq) (code : Nat) : Bool :=
  match r.issuer with
  | .combine slice ctx word => code != 0 && orHeld s slice ctx word
  | _ => false

/-- The state with a status given to a packet, an ingress queue, a combine slot or another module (R385, R396, R471, R488). -/
def answerUnit (s : State) (r : KeyReq) (home code : Nat) (v : Word) : State :=
  match r.issuer with
  | .packet q n => finishPacket s q n (if code = 0 then 0 else 6) code false
  | .ingress iq => if code = 0 then s else count s (.queueDrops iq) 1
  | .combine slice ctx word => if code = 0 then s else orWord s slice ctx word 0x1000
  | .module m reqid _ => ((m, reqid) :: r.twinRemote.toList).foldl (fun t p => replyTo t p.1 p.2 7 r.ctx home (v.toNat % 2 ^ 32)) s
  | _ => s

/-- The state after a request's status word has reached its issuer; a registration that did not succeed is released, and a dormant task
whose last it was retires (R42, R440). -/
def settleReq (s : State) (r : KeyReq) (home code : Nat) (v : Word) : State :=
  let t := if code = 0 then s else (reqDests r).foldl (fun u p => releaseReg u p.1 p.2) s
  (reqOps r).foldl (fun u op => endOp u op v) (answerUnit t r home code v)

/-- The state after a status word of a home has reached its issuer (R446). -/
def deliverStatus (s : State) (d : KeyDelivery) (code : Nat) (overflow : Bool) : State :=
  settleReq s d.req d.home code (keyStatus code false false overflow d.req.forwarded 0)

/-- The destinations of a request with their activations and operations. -/
def reqTargets (r : KeyReq) : List (Nat × Nat × Nat × KeyDest) :=
  let own := match r.issuer, r.ask with
    | .task c serial _ op, .read _ _ _ _ dest => [(c, serial, op, dest)]
    | _, _ => []
  own ++ (match r.twin with | some t => [(t.core, t.serial, t.op, t.dest)] | none => [])

/-- The state after a served tuple has been written at every destination, with how each ended. -/
def deliverAll (s : State) (t : Tuple) (xs : List (Nat × Nat × Nat × KeyDest)) : State × List (Nat × Delivered) :=
  match xs with
  | [] => (s, [])
  | (c, serial, op, dest) :: r =>
    let o := deliverTo s c serial op dest t
    let u := deliverAll o.1 t r
    (u.1, (op, o.2) :: u.2)

/-- The state with the statuses of a delivery written (R436, R446). -/
def giveServed (s : State) (d : KeyDelivery) (t : Tuple) (overflow : Bool) (os : List (Nat × Delivered)) : State :=
  os.foldl (fun u p =>
    match p.2 with
    | .ended code trunc short =>
      endOp u p.1 (keyStatus code trunc short overflow d.req.forwarded (if code = 0 then t.payload.length else 0))
    | _ => dropOp u p.1) s

/-- Whether a delivery's tuple has reached every destination. -/
def allServed (os : List (Nat × Delivered)) : Bool :=
  os.all (fun p => match p.2 with | .ended code _ _ => code == 0 | _ => false)

/-- The state with a served tuple sent to another module (R471); OVERFLOW stands in its mode bits (log 14). -/
def deliverRemote (s : State) (d : KeyDelivery) (t : Tuple) (overflow : Bool) (m reqid : Nat) : State :=
  sendWaidric s m
    { op := 5, flags := d.req.forwarded.toNat * 4 + overflow.toNat * 8 + d.req.ctx * 256, smod := s.localMod, dhome := d.home,
      mapgen := s.homeMap.gen.toNat, reqid := reqid, task := 0, pairseq := 0, hash := 0, status := t.shape.toNat,
      len := t.payload.length, seq := t.seq } (keyBytes t.key ++ t.payload)

/-- KEY_DELIVERY_ARRIVE: a status, a value of KSTAT, or a served tuple reaches its issuer (R436, R437, R443, R476). A
continuation's record follows its payload (R441). -/
def execKeyDeliveryArrive (n : Nat) (s : State) : Host.Outcome State Fault Refusal :=
  match s.deliveries.find? (fun d => d.id == n) with
  | none => done s
  | some d =>
    let t := dropDelivery s n
    match d.answer with
    | .status code overflow => done (if answerHeld s d.req code then push s (.keyDeliveryArrive n) else deliverStatus t d code overflow)
    | .stat v => done ((reqOps d.req).foldl (fun u op => endOp u op v) t)
    | .serve tup take overflow =>
      match d.req.issuer with
      | .module m reqid _ =>
        if d.held then done s
        else
          let tos := (m, reqid) :: d.req.twinRemote.toList
          let u := if take then { s with deliveries := s.deliveries.map (fun e => if e.id = n then { e with held := true, left := tos } else e) } else t
          done (tos.foldl (fun v p => deliverRemote v d tup overflow p.1 p.2) u)
      | _ =>
        let xs := reqTargets d.req
        if xs.any (fun x => isCont x.2.2.2) then
          if xs.any (fun x => match x.2.2.2 with
              | .cont _ _ _ _ b => tileReloads s x.1 b || deliveryHeld s x.1 || tileHeld s x.1 x.2.2.1 b
              | _ => false) then done (push s (.keyDeliveryArrive n))
          else
            let u := xs.foldl (fun u x => match x.2.2.2 with
              | .cont _ _ _ _ b => if regStands u x.1 x.2.2.2 then writeTile u x.1 b tup.payload else u
              | _ => u) s
            done (push u (.continuationDeliver n))
        else
          let o := deliverAll t tup xs
          if o.2.any (fun p => p.2 == .wait) then done (push s (.keyDeliveryArrive n))
          else done (ackTake (giveServed o.1 d tup overflow o.2) d tup take (allServed o.2))

/-- The pair and the copy for which a request's own destination, or its twin's, stands (R445, R556). -/
def copyOf (r : KeyReq) (twin : Bool) : Option (Nat × Nat) :=
  match r.tag with
  | some u => some (u.pair, u.copy)
  | none => r.pair.map (fun p => (p, twin.toNat))

/-- The state with a registration turned into a delivered record (R365, R441): a copy's runs as that copy (R557), and the two are counted
as one (R561). -/
def fireCont (s : State) (c : Nat) (dest : KeyDest) (t : Tuple) (pair : Option (Nat × Nat)) : State :=
  match dest with
  | .cont aq _ entry prio b =>
    let k := getCore s c
    match k.aq.getD aq .free with
    | .continuation g _ =>
      let rec_ : WorkRec := { ltag := k.launch.getD 0, dual := pair.isSome, prio := prio, cls := 0, entry := entry, args := wordsOfKey t.key }
      let a : AqRecord := { order := 0, kind := .continuation, record := rec_, gen := some g, t15 := some b, pair := pair, restart := false }
      let u := deliverAq s c aq a
      if (pair.map (·.2)).getD 0 = 0 then countCreated u c else u
    | _ => s
  | _ => s

/-- CONTINUATION_DELIVER: the record is accepted where every registration stands; otherwise a taken tuple is re-deposited and
the continuation counted as stale (R441, R442, R445). -/
def execContinuationDeliver (n : Nat) (s : State) : Host.Outcome State Fault Refusal :=
  match s.deliveries.find? (fun d => d.id == n) with
  | none => done s
  | some d =>
    match d.answer with
    | .serve tup take _ =>
      let xs := (reqTargets d.req).filter (fun x => isCont x.2.2.2)
      if xs.isEmpty then done s
      else if xs.any (fun x => deliveryHeld s x.1) then done (push s (.continuationDeliver n))
      else
        let t := dropDelivery s n
        if xs.all (fun x => regStands t x.1 x.2.2.2) then
          let fired := (xs.zip [false, true]).foldl (fun u x => fireCont u x.1.1 x.1.2.2.2 tup (copyOf d.req x.2)) t
          done (ackTake fired d tup take true)
        else done (ackTake (if homeLocal t d.home then count t (.staleConts d.home) 1 else t) d tup take false)
    | _ => done s

/-- The state with an acknowledgement, or a tuple for re-deposit, sent to a home of another module (R437, R471). -/
def ackRemote (s : State) (a : KeyAck) : State :=
  sendWaidric s (a.home / 64)
    { op := if a.ok then 6 else 8, flags := a.tuple.ctx * 256, smod := s.localMod, dhome := a.home, mapgen := s.homeMap.gen.toNat,
      reqid := a.rid, task := 0, pairseq := 0, hash := 0, status := if a.ok then 0 else a.tuple.shape.toNat,
      len := if a.ok then 0 else a.tuple.payload.length, seq := if a.ok then 0 else a.tuple.seq }
    (if a.ok then [] else keyBytes a.tuple.key ++ a.tuple.payload)

/-- KEY_DELIVERY_ACK: the home releases the payload, or the tuple is re-deposited with its sequence (R437, R468). -/
def execKeyDeliveryAck (n : Nat) (s : State) : Host.Outcome State Fault Refusal :=
  match s.acks.find? (fun a => a.id == n) with
  | none => done s
  | some a =>
    if !homeLocal s a.home then done (ackRemote { s with acks := s.acks.filter (fun b => b.id != n) } a)
    else
      let v := getHome s a.home
      let t := { setHome s a.home { v with unacked := v.unacked.erase a.tuple } with
        acks := s.acks.filter (fun b => b.id != n) }
      if a.ok then done t
      else
        let r : KeyReq :=
          { id := t.nextId, issuer := .home a.home, ctx := a.tuple.ctx, ask := .redeposit { a.tuple with chain := false }, hash := a.hash,
            home := a.home, mapgen := 0, fwd := 0, forwarded := false, held := false, tag := none, twin := none, twinRemote := none, assayed := false,
            chain := false, rid := 0 }
        done (push (count (bumpId { t with keyReqs := t.keyReqs ++ [r] }) (.redeposits a.home) 1) (.homeRedepositArrive t.nextId))

end Sys2Proof.Machine
end

