-- ==== Sys2Proof/Machine/Key.lean ====
section
/-! DEFINITION. The key instructions: KPUT, KREAD, KTAKE, KCANCEL, KMAP and KSTAT (R448-R452, R473, R475, R476). -/

namespace Sys2Proof.Machine

/-! ### What they share (R449) -/

/-- The key operations of a core in flight at most (R449). -/
def keyLimit : Nat := 16

/-- Whether a core has as many key operations in flight as it may (R449). -/
def keysFull (s : State) (c : Nat) : Bool :=
  decide (keyLimit ≤ (s.ops.filter (fun o => o.core == c && o.body == .key)).length)

/-- The key in an aligned group of four registers (R426). -/
def groupKey (x : Ctx) (b : BitVec 5) : BitVec 256 := keyOfWords (groupVals x b 4)

/-- Whether a template's mask is all ones over fields 0 and 1 (R431). -/
def maskOk (m : BitVec 256) : Bool := m.setWidth 64 == BitVec.allOnes 64

/-- The limits of a payload (R427). -/
def payloadLimit : Nat := 0x100000

/-- Whether a shape word is well formed (R427, R449). -/
def shapeOk (w : BitVec 32) : Bool :=
  let rows := w.toNat / 16 % 512
  let cols := w.toNat / 2 ^ 13 % 2 ^ 11
  let fmt := w.toNat % 16
  decide (w.toNat < 2 ^ 24) && decide (rows ≤ 256) && decide (cols ≤ 1024) && decide (fmt ≤ 9) &&
    (rows != 0 || (fmt == 0 && cols == 0))

/-- The state with a key status word written to a register at once. -/
def putKey (t : State) (c : Nat) (d : BitVec 5) (code : Nat) : State :=
  modCtx t c (fun x => setStatus x d (keyStatus code false false false false 0))

/-- The waits of a key operation after KTEMPLATE (R322, R449). -/
def keyBusy (t : State) (c : Nat) (d : BitVec 5) : Bool := isMarked (getCtx t c) d || holdsStores (getCtx t c) || keysFull t c

/-- The state with a key request of the running task sent: a dual copy's carries its tag (R445, R556). -/
def sendKey (t : State) (i : Issued) (d : BitVec 5) (hash : Nat) (ask : KeyAsk) (operands : List Nat) (payload : List Byte) : State :=
  let c := i.core
  let x := getCtx t c
  let op := t.nextId
  let u := startOp t c d i.upc .key
  let issuer : KeyIssuer := .task c (serialOf x) x.sys.tid.toNat op
  modCtx (sendReq u issuer c (ctxOf t c) hash ask (tagOf x 0x28 hash operands payload)) c nextIdx

/-- The checks of an image before its header is read: MISALIGN is separate (R449). -/
def imageOk (c : Nat) (a : Word) (n : Nat) : Bool := rangeOk c a (64 + n)

/-- Whether the own-scratchpad bytes of an image are still in use by earlier units or operations (R63, R296). -/
def keyImageBusy (t : State) (c : Nat) (a : Word) (n : Nat) (wr : Bool) : Bool :=
  (localRange c a n).any (fun r => localBusy t c r.1 r.2 wr)

/-- A word of an image header. -/
def headerWord (bs : List Byte) (lo n : Nat) : Nat := leNat ((bs.drop lo).take n)

/-! ### KPUT (R427, R450) -/

/-- The payload and the shape word of a tile (R427); the unused nibble of a 4-bit row is zero. -/
def tilePayload (m : Memory) (b : Tile) : List Byte × BitVec 32 :=
  if b.vrows = 0 then ([], 0)
  else
    let odd := fmtBits b.fmt = 4 ∧ b.vcols % 2 = 1
    let row (i : Nat) : List Byte :=
      let bs := memRead m (b.base + i * b.pitch) (validBytes b)
      if odd then bs.dropLast ++ (bs.getLast?.toList.map (fun x => x &&& 0x0F)) else bs
    (((List.range b.vrows).map row).flatten, BitVec.ofNat 32 (fmtCode b.fmt + b.vrows * 16 + b.vcols * 2 ^ 13))

/-- KPUT from a tile: its payload is read at issue, once the fork release has been done (R427, R450). -/
def execKputTile (d : BitVec 5) (a : BitVec 3) (tn : BitVec 4) (s : State) : Host.Outcome State Fault Refusal :=
  let g := quadReg a
  issue s (plainSpec (groupRegs g 4) []) (fun i t =>
    let c := i.core
    let x := getCtx t c
    if keyBusy t c d || !x.seq.isEmpty then none
    else
      match getTile x tn with
      | none => some (trapFrom t i causeShape 4 0)
      | some b =>
        if !tileReady t c b false || !relDone t c (serialOf x) t.nextId 4 then none
        else
          let key := groupKey x g
          let p := tilePayload (getCore t c).spad b
          some (sendKey (modCtx t c setCommit) i d (keyHash key) (.put key p.2 p.1) (keyOperands key p.2) p.1))

/-- KPUT from an image: its header is read at issue, and its payload too where it lies in the own scratchpad (R296, R449,
R450). -/
def execKputImage (d : BitVec 5) (a : BitVec 3) (b : BitVec 5) (s : State) : Host.Outcome State Fault Refusal :=
  let g := quadReg a
  issue s (plainSpec (b :: groupRegs g 4) []) (fun i t =>
    let c := i.core
    let x := getCtx t c
    let addr := regVal x b
    let key := groupKey x g
    let u := modCtx t c setCommit
    if keyBusy t c d then none
    else if addr.toNat % 64 ≠ 0 then some (trapFrom t i causeMisalign 0 addr)
    else if !imageOk c addr 0 then some (putKey u c d 5)
    else if keyImageBusy t c addr 64 false || ownWriteAhead t c (genOf x) t.nextId addr 64 then none
    else
      match homeRead t c addr 64 with
      | .wait => none
      | .fail kind _ => some (putKey u c d (if kind = 3 then 7 else 3))
      | .ok bs =>
        let len := headerWord bs 32 4
        let shape : BitVec 32 := BitVec.ofNat 32 (headerWord bs 36 4)
        if payloadLimit < len ∨ shapeOk shape = false ∨ imageOk c addr len = false then some (putKey u c d 5)
        else
          match placeOf c addr with
          | .spad off =>
            if keyImageBusy t c addr (64 + len) false || !relDone t c (serialOf x) t.nextId 4 then none
            else
              let p := spadRead t c (off + 64) len
              some (sendKey u i d (keyHash key) (.put key shape p) (keyOperands key shape) p)
          | _ => some (sendKey u i d (keyHash key) (.fetch key shape (addr + 64) len) (keyOperands key shape) []))

/-! ### KREAD and KTAKE (R438-R440, R451) -/

/-- The template in an aligned group of eight registers (R430). -/
def groupTemplate (x : Ctx) (g : BitVec 5) : BitVec 256 × BitVec 256 := (groupKey x g, groupKey x (g + 4))

/-- The state after the commit latch has been set where an operation is listed under R564. -/
def commitIf (t : State) (c : Nat) (yes : Bool) : State := if yes then modCtx t c setCommit else t

/-- The operands of a key operation, for its hash (R556). -/
def templateOperands (v m : BitVec 256) (extra : List Nat) : List Nat := hashWords 4 v.toNat ++ hashWords 4 m.toNat ++ extra

/-- A tile's binding as numbers, for a message hash (R556). -/
def tileOperands (b : Tile) : List Nat := [b.base, b.rows, b.cols, b.pitch, fmtCode b.fmt, b.vrows, b.vcols]

/-- The effect of KREAD and KTAKE with a tile at issue (R449, R451). -/
def readTileBody (take : Bool) (d g : BitVec 5) (tn : BitVec 4) (poll : Bool) (i : Issued) (t : State) : Option State :=
  let c := i.core
  let x := getCtx t c
  let vm := groupTemplate x g
  if !maskOk vm.2 then some (trapFrom t i causeKtemplate 0 0)
  else if keyBusy t c d || !x.seq.isEmpty then none
  else
    match getTile x tn with
    | none => some (trapFrom t i causeShape 4 0)
    | some b =>
      some (sendKey (commitIf t c take) i d (keyHash vm.1) (.read take vm.1 vm.2 poll (.tile b))
        (templateOperands vm.1 vm.2 (take.toNat :: poll.toNat :: tileOperands b)) [])

/-- The effect of KREAD and KTAKE with an image at issue: CAP is read from its header (R429, R449, R451). -/
def readImageBody (take : Bool) (d g b : BitVec 5) (poll : Bool) (i : Issued) (t : State) : Option State :=
  let c := i.core
  let x := getCtx t c
  let vm := groupTemplate x g
  let addr := regVal x b
  let u := commitIf t c take
  if !maskOk vm.2 then some (trapFrom t i causeKtemplate 0 0)
  else if keyBusy t c d then none
  else if addr.toNat % 64 ≠ 0 then some (trapFrom t i causeMisalign 0 addr)
  else if !imageOk c addr 0 then some (putKey u c d 5)
  else if keyImageBusy t c addr 64 false || ownWriteAhead t c (genOf x) t.nextId addr 64 then none
  else
    match homeRead t c addr 64 with
    | .wait => none
    | .fail kind _ => some (putKey u c d (if kind = 3 then 7 else 4))
    | .ok bs =>
      let cap := headerWord bs 32 4
      if payloadLimit < cap ∨ imageOk c addr cap = false then some (putKey u c d 5)
      else
        some (sendKey u i d (keyHash vm.1) (.read take vm.1 vm.2 poll (.image addr cap))
          (templateOperands vm.1 vm.2 [take.toNat, poll.toNat, addr.toNat, cap]) [])

/-- The effect of KREAD.cont and KTAKE.cont at issue: an activation-queue entry is reserved for the continuation (R440, R449). -/
def readContBody (take : Bool) (d g b : BitVec 5) (tn : BitVec 4) (i : Issued) (t : State) : Option State :=
  let c := i.core
  let x := getCtx t c
  let vm := groupTemplate x g
  let entry : BitVec 48 := (regVal x b).setWidth 48
  let u := commitIf t c take
  if !maskOk vm.2 then some (trapFrom t i causeKtemplate 0 0)
  else if keyBusy t c d || !x.seq.isEmpty then none
  else
    match getTile x tn with
    | none => some (trapFrom t i causeShape 4 0)
    | some tile =>
      match freeAq (getCore t c) with
      | none => some (putKey u c d 2)
      | some q =>
        if !inKeep (launchOf t c) tile then some (putKey u c d 5)
        else
          let reg := t.nextId
          let v := modCore u c (fun k => putAq k q (.continuation (nameGen x.sys.tid).toNat reg))
          some (sendKey v i d (keyHash vm.1) (.read take vm.1 vm.2 false (.cont q reg entry x.sys.prio.toNat tile))
            (templateOperands vm.1 vm.2 (take.toNat :: 2 :: entry.toNat :: tileOperands tile)) [])

/-- KREAD into a tile (R451). -/
def execKreadTile (d : BitVec 5) (a : BitVec 2) (tn : BitVec 4) (m : BitVec 1) (s : State) : Host.Outcome State Fault Refusal :=
  issue s (plainSpec (groupRegs (octReg a) 8) []) (readTileBody false d (octReg a) tn (m == 1))

/-- KREAD into an image (R451). -/
def execKreadImage (d : BitVec 5) (a : BitVec 2) (b : BitVec 5) (m : BitVec 1) (s : State) : Host.Outcome State Fault Refusal :=
  issue s (plainSpec (b :: groupRegs (octReg a) 8) []) (readImageBody false d (octReg a) b (m == 1))

/-- KREAD.cont (R440, R451). -/
def execKreadCont (d : BitVec 5) (a : BitVec 2) (b : BitVec 5) (tn : BitVec 4) (s : State) : Host.Outcome State Fault Refusal :=
  issue s (plainSpec (b :: groupRegs (octReg a) 8) []) (readContBody false d (octReg a) b tn)

/-- KTAKE into a tile (R451). -/
def execKtakeTile (d : BitVec 5) (a : BitVec 2) (tn : BitVec 4) (m : BitVec 1) (s : State) : Host.Outcome State Fault Refusal :=
  issue s (plainSpec (groupRegs (octReg a) 8) []) (readTileBody true d (octReg a) tn (m == 1))

/-- KTAKE into an image (R451). -/
def execKtakeImage (d : BitVec 5) (a : BitVec 2) (b : BitVec 5) (m : BitVec 1) (s : State) : Host.Outcome State Fault Refusal :=
  issue s (plainSpec (b :: groupRegs (octReg a) 8) []) (readImageBody true d (octReg a) b (m == 1))

/-- KTAKE.cont (R440, R451). -/
def execKtakeCont (d : BitVec 5) (a : BitVec 2) (b : BitVec 5) (tn : BitVec 4) (s : State) : Host.Outcome State Fault Refusal :=
  issue s (plainSpec (b :: groupRegs (octReg a) 8) []) (readContBody true d (octReg a) b tn)

/-- KCANCEL (R452). -/
def execKcancel (d : BitVec 5) (a : BitVec 2) (s : State) : Host.Outcome State Fault Refusal :=
  let g := octReg a
  issue s (plainSpec (groupRegs g 8) []) (fun i t =>
    let c := i.core
    let vm := groupTemplate (getCtx t c) g
    if !maskOk vm.2 then some (trapFrom t i causeKtemplate 0 0)
    else if keyBusy t c d then none
    else
      some (sendKey (modCtx t c setCommit) i d (keyHash vm.1) (.cancel vm.1 vm.2) (templateOperands vm.1 vm.2 [4]) []))

/-! ### KMAP and KSTAT (R475, R476) -/

/-- KMAP: from the interface's own map copy, once its fork release has been done (R326, R475). -/
def execKmap (d : BitVec 5) (a : BitVec 3) (s : State) : Host.Outcome State Fault Refusal :=
  let g := quadReg a
  issue s (plainSpec (groupRegs g 4) [d]) (fun i t =>
    let c := i.core
    let h := keyHash (groupKey (getCtx t c) g)
    let m := mapCopy t c
    if !relDone t c (serialOf (getCtx t c)) t.nextId 4 then none
    else some (modCtx t c (fun x => setReg x d (packWord [(m.gen.toNat % 2 ^ 16, 0), (homeFor m h, 16), (h, 32)]))))

/-- The split state code of a home's first range (R465, R476). -/
def homeSplit (s : State) (h : Nat) : Nat :=
  match s.split, s.homeMap.ranges.find? (fun r => r.home == h) with
  | some p, some r => if p.src = h ∧ p.lo = r.lo then p.phase else 0
  | _, _ => 0

/-- The value of a selector at a home (R476). -/
def statValue (s : State) (h sel : Nat) : Word :=
  let v := getHome s h
  BitVec.ofNat 64 (
    if sel = 0 then arrayUsed v
    else if sel = 1 then chainUsed v
    else if sel = 2 then v.tuples.length
    else if sel = 3 then v.waiters.length
    else if sel = 4 then heapUnits v - heapUsed v
    else if sel = 5 then homeSplit s h
    else if sel = 6 then counterVal s (.redeposits h)
    else if sel = 7 then counterVal s (.staleConts h)
    else if sel = 8 then counterVal s (.overflows h)
    else counterVal s (.forwards h))

/-- KSTAT (R476): the value is sampled at the home after the fork release (R326) and travels back; a home of another module is asked by Waidric. -/
def execKstat (d a b : BitVec 5) (s : State) : Host.Outcome State Fault Refusal :=
  issue s (plainSpec [a, b] [d]) (fun i t =>
    let c := i.core
    let x := getCtx t c
    let h := (regVal x a).toNat % 2 ^ 10
    let sel := (regVal x b).toNat % 16
    if holdsStores x || !relDone t c (serialOf x) t.nextId 4 then none
    else if 10 ≤ sel ∨ t.domainModules ≤ h / 64 ∨ t.failedModules.contains (h / 64) = true then some (modCtx t c (fun y => setStatus y d (BitVec.allOnes 64)))
    else
      let r : KeyReq :=
        { id := t.nextId + 1, issuer := .task c (serialOf x) x.sys.tid.toNat t.nextId, ctx := ctxOf t c, ask := .stat sel, hash := 0,
          home := h, mapgen := (mapCopy t c).gen.toNat, fwd := 0, forwarded := false, held := false, tag := none, twin := none, twinRemote := none,
          assayed := false, chain := false, rid := 0 }
      let u := bumpId (startOp t c d i.upc .stat)
      some (if homeLocal u h then answerReq u h r (.stat (statValue u h sel)) else sendRemote u r))

end Sys2Proof.Machine
end

