-- ==== Sys2Proof/Machine/Wave.lean ====
section
/-! DEFINITION. Termination detection: the waves of a launch's tree and the completion of a launch (R365-R367). -/

namespace Sys2Proof.Machine

/-- The cores that are bound to a launch. -/
def boundCores (s : State) (ltag : Nat) : List Nat := (s.cores.filter (fun p => p.2.launch == some ltag)).map (·.1)

/-- The parent of a participant; one whose parent is not known is a child of the root (R365). -/
def waveParent (s : State) (root c : Nat) : Nat :=
  match (getCore s c).parent with
  | some p => if p = c ∨ (getCore s p).launch ≠ (getCore s c).launch then root else p
  | none => root

/-- The children of a participant (R365). -/
def waveChildren (s : State) (ltag root c : Nat) : List Nat :=
  (boundCores s ltag).filter (fun x => x != root && waveParent s root x == c)

/-- Whether a message of a launch is unacknowledged: a CALLAT, or a steal reply (R366). -/
def msgActive (s : State) (c : Nat) : Bool :=
  s.msgs.any (fun m => m.core == c &&
    (match m.body with
     | .callat _ => true
     | .stealReply rs => !rs.isEmpty
     | _ => false))

/-- Whether an operation is an engine operation that has not ended (R301, R326, R366). -/
def engineLive (o : Op) : Bool :=
  match o.body with
  | .mcast m => !m.ended
  | .copy _ => true
  | .ms _ => true
  | .key => true
  | .cmb => true
  | .col _ => true
  | .split => true
  | .stat => true
  | _ => false

/-- ACT of a core (R366): it runs or keeps an activation, holds a record, a reservation, an urgent event of the launch or a dormant
task, or has something of the launch unacknowledged. -/
def coreActive (s : State) (ltag c : Nat) : Bool :=
  let k := getCore s c
  k.ctx.act.isSome || k.susp.isSome || !k.deque.isEmpty || k.aq.toList.any (· != .free) || k.urgents.any (fun e => e.ltag == ltag) || msgActive s c || s.ops.any (fun o => o.core == c && engineLive o)

/-- A core's own part of the wave status word (R366). -/
def ownWord (s : State) (ltag c : Nat) : WaveWord :=
  let k := getCore s c
  { created := k.created, ended := k.ended, act := coreActive s ltag c, store := k.storeErr, norst := k.norstErr, fault := k.faultErr }

/-- Two words combined (R366). -/
def joinWords (a b : WaveWord) : WaveWord :=
  { created := a.created + b.created, ended := a.ended + b.ended, act := a.act || b.act, store := a.store || b.store,
    norst := a.norst || b.norst, fault := a.fault || b.fault }

/-- Whether a root may start a wave: it runs nothing (R366). -/
def rootIdle (s : State) (c : Nat) : Bool :=
  let k := getCore s c
  (k.state == .idle || k.state == .killed) && k.ctx.act.isNone

/-- The state with a launch replaced. -/
def putLaunch (s : State) (l : Launch) : State :=
  { s with launches := s.launches.map (fun m => if m.ltag = l.ltag then l else m) }

/-- WAVE_START (R366). -/
def execWaveStart (ltag : Nat) (s : State) : Host.Outcome State Fault Refusal :=
  match findLaunch s ltag with
  | none => done s
  | some l =>
    match l.root with
    | none => done s
    | some r =>
      if l.wave.isSome || !rootIdle s r || !partLive s r then done s
      else done (push (putLaunch s { l with wave := some [] }) (.waveAnswer r))

/-- The ERR bits of a word as a number (R366). -/
def errBits (w : WaveWord) : Nat := w.fault.toNat + 2 * w.norst.toNat + 4 * w.store.toNat

/-- Whether a wave's word says that a launch may be complete (R367). -/
def quietWord (w : WaveWord) : Bool := !w.act && w.created == w.ended

/-- Whether every access of the cores of a launch has been performed, refused or reported lost (R325). -/
def launchSettled (s : State) (ltag : Nat) : Bool :=
  s.accs.all (fun a => (getCore s a.core).launch != some ltag || accSettled a)

/-- LAUNCH_COMPLETE: the launch is reported, its cores become unbound and its groups free (R367, R389). -/
def completeLaunch (s : State) (l : Launch) (w : WaveWord) : State :=
  let cs := boundCores s l.ltag
  let t := cs.foldl scrubCore s
  let t := { t with
    launches := t.launches.filter (fun m => m.ltag != l.ltag),
    groups := t.groups.map (fun g => if g.2.valid ∧ g.2.ltag = l.ltag ∧ g.1 / 256 = l.part then (g.1, emptyGroup) else g) }
  let e := errBits w
  pushAll (finishPacket t l.packet.1 l.packet.2 (if e = 0 then 0 else 1) e false) (cs.map (fun c => .activationChoose c))

/-- The state after a wave has reached its root: the launch completes after two equal quiet waves (R367); otherwise the root
starts the next one. -/
def endWave (s : State) (l : Launch) (w : WaveWord) : State :=
  if quietWord w && l.last == some w && launchSettled s l.ltag then completeLaunch s l w
  else push (putLaunch s { l with wave := none, last := some w }) (.waveStart l.ltag)

/-- Whether a core's partition holds a wave up: it is switched out. The wave goes on after the restore, with the cores' state as it
stands (R367). -/
def waveHeld (s : State) (c : Nat) : Bool :=
  match partOf s c with
  | some p => (match (getPart s p).state with | .out => true | .gated => true | _ => false)
  | none => false

/-- WAVE_ANSWER: the first child that has not answered is asked; a core all of whose children have answered answers its
parent with the combined word (R366). -/
def execWaveAnswer (c : Nat) (s : State) : Host.Outcome State Fault Refusal :=
  if waveHeld s c then done (push s (.waveAnswer c))
  else
  match launchOf s c with
  | none => done s
  | some l =>
    match l.wave, l.root with
    | some ans, some r =>
      if ans.any (fun p => p.1 == c) then done s
      else
        let cs := waveChildren s l.ltag r c
        match cs.find? (fun x => !ans.any (fun p => p.1 == x)) with
        | some x => done (push s (.waveAnswer x))
        | none =>
          let w := ((ans.filter (fun p => cs.contains p.1)).map (·.2)).foldl joinWords (ownWord s l.ltag c)
          if c = r then done (endWave s l w)
          else done (push (putLaunch s { l with wave := some (ans ++ [(c, w)]) }) (.waveAnswer (waveParent s r c)))
    | _, _ => done s

end Sys2Proof.Machine
end

