-- ==== Sys2Proof/Machine/Split.lean ====
section
/-! DEFINITION. Splitting a range of the home map, and the way of the new map to the interfaces (R460, R463, R465-R470, R474). -/

namespace Sys2Proof.Machine

/-! ### Map copies (R460) -/

/-- Whether a generation is older than another, the generations counting modulo 2^32 (R458). -/
def genOlder (g h : BitVec 32) : Bool := g != h && decide ((h - g).toNat < 2 ^ 31)

/-- A map with an entry for a lower bound set, its generation never going back. -/
def mapWith (m : HomeMap) (gen : BitVec 32) (lo home : Nat) : HomeMap :=
  let rest := m.ranges.filter (fun r => r.lo != lo)
  { gen := if genOlder gen m.gen then m.gen else gen, ranges := rest.filter (fun r => decide (r.lo < lo)) ++ [{ lo := lo, home := home }] ++ rest.filter (fun r => decide (lo < r.lo)) }

/-- The state with a new current map on its way to every interface that has been in use; the others have it at once (R460). -/
def changeMap (s : State) (m : HomeMap) : State :=
  let cs := s.cores.map (·.1)
  let old := cs.foldl (fun t c => if t.any (fun p => p.1 == c) then t else tabSet t c s.homeMap) s.mapCopies
  pushAll { s with homeMap := m, mapCopies := old } (cs.map (fun c => .mapBroadcastArrive c))

/-- MAP_BROADCAST_ARRIVE: the interface holds the current map (R460). -/
def execMapBroadcastArrive (ni : Nat) (s : State) : Host.Outcome State Fault Refusal :=
  done { s with mapCopies := s.mapCopies.filter (fun p => p.1 != ni) }

/-- FORWARD_HINT_ARRIVE: the interface's copy takes the entry and the generation of the hint, unless the copy is newer (R460). -/
def execForwardHintArrive (n : Nat) (s : State) : Host.Outcome State Fault Refusal :=
  match s.hints.find? (fun h => h.id == n) with
  | none => done s
  | some h =>
    let t := { s with hints := s.hints.filter (fun g => g.id != n) }
    let m := mapCopy t h.ni
    if genOlder h.gen m.gen then done t
    else done { t with mapCopies := tabSet t.mapCopies h.ni (mapWith m h.gen h.lo h.home) }

/-- Whether a cut-over of the domain may be in progress, or have changed a map that has not reached this module: its own is in its last
phase, another module's split has begun to arrive, or, since no message tells of the other modules' splits, a free value says so (R460,
log 4, log 15). -/
def cutInProgress (s : State) : Bool :=
  (match s.split with | some p => p.phase == 3 | none => false) || !s.splitIn.isEmpty || !s.splitReqs.isEmpty ||
    (decide (1 < s.domainModules) && freeVal s % 2 == 1)

/-- HELD_FORWARD_RELEASE: a request forwarded 15 times goes on once the home's map is the domain's and no cut-over is in progress
(R460). -/
def execHeldForwardRelease (n : Nat) (s : State) : Host.Outcome State Fault Refusal :=
  match findReq s n with
  | none => done s
  | some r =>
    if !r.held then done s
    else
      if cutInProgress s then done (push (bumpFree s) (.heldForwardRelease n)) else done (forwardReq s r (homeFor s.homeMap r.hash))

/-! ### KSPLIT (R470, R474) -/

/-- The KSPLIT status word (R474). -/
def splitStatus (code gen : Nat) : Word := packWord [(1, 0), (code, 4), (gen, 32)]

/-- The upper bound of the range that begins at a lower bound. -/
def rangeEnd (m : HomeMap) (lo : Nat) : Nat :=
  (m.ranges.filter (fun r => decide (lo < r.lo))).foldl (fun best r => Nat.min best r.lo) (2 ^ 32)

/-- The entries that a home map holds at most (R474). -/
def mapLimit : Nat := 1024

/-- Whether another module of the domain holds the split lock: this module knows that it does, its split having begun to arrive here, or,
no message of the Banksman that grants it being an input of the model, a free value says so (R470, log 4, log 15). -/
def lockTaken (s : State) : Bool :=
  s.splitLock.any (· != s.localMod) || (decide (1 < s.domainModules) && freeVal s % 2 == 1)

/-- The code with which KSPLIT ends at once, or the split that it starts (R470, R474). -/
def planSplit (s : State) (hash dst op : Nat) : Nat ⊕ Split :=
  match coverOf s.homeMap hash with
  | none => .inl 5
  | some r =>
    let hi := rangeEnd s.homeMap r.lo
    if hi - r.lo < 2 ∨ homeLocal s r.home = false ∨ dst = r.home ∨ s.domainModules ≤ dst / 64 ∨ s.absentHomes.contains dst = true then .inl 5
    else if s.homes.any (fun h => h.1 == dst && !h.2.present) then .inl 5
    else if s.split.isSome ∨ lockTaken s = true then .inl 1
    else if mapLimit ≤ s.homeMap.ranges.length then .inl 2
    else if s.failedModules.contains (dst / 64) then .inl 3
    else .inr { phase := 1, lo := r.lo, mid := r.lo + (hi - r.lo) / 2, hi := hi, src := r.home, dst := dst, op := op, copied := [], reserved := 0 }

/-- KSPLIT (R473, R474). -/
def execKsplit (d a b : BitVec 5) (s : State) : Host.Outcome State Fault Refusal :=
  issue s { plainSpec [a, b] [d] with priv := true } (fun i t =>
    let c := i.core
    let x := getCtx t c
    let hash := (regVal x a).toNat % 2 ^ 32
    let dst := (regVal x b).toNat % 2 ^ 10
    let u := modCtx (bumpFree t) c setCommit
    let ended (code : Nat) : State := modCtx u c (fun y => setStatus y d (splitStatus code 0))
    if holdsStores x then none
    else if x.sys.dual then some (ended 5)
    else
      match planSplit t hash dst t.nextId with
      | .inl code => some (ended code)
      | .inr p => some (push { startOp u c d i.upc .split with split := some { p with op := u.nextId }, splitLock := some t.localMod } .splitCopy))

/-! ### The steps of a split (R465-R469) -/

/-- The tuples of the upper half at the source. -/
def upperTuples (s : State) (p : Split) : List Tuple := (getHome s p.src).tuples.filter (fun t => inUpper p (keyHash t.key))

/-- The waiters of the upper half at the source, in arrival order. -/
def upperWaiters (s : State) (p : Split) : List KeyReq := (getHome s p.src).waiters.filter (fun r => inUpper p r.hash)

/-- The chain entries that arriving entries need at a home: those beyond its array (R462, R463). -/
def chainNeed (h : Home) (n : Nat) : Nat := n - (matchEntries - arrayUsed h)

/-- The heap units that the upper half needs at the destination: its payloads, and its entries beyond the array. -/
def upperUnits (s : State) (p : Split) : Nat :=
  let ts := upperTuples s p
  (ts.map (fun t => payloadUnits t.payload.length)).sum + chainNeed (getHome s p.dst) (ts.length + (upperWaiters s p).length)

/-- Whether the destination has room for the upper half, its reserve included (R464, R465); another module's says so itself. -/
def splitFits (s : State) (p : Split) : Bool := !homeLocal s p.dst || heapFits (getHome s p.dst) (upperUnits s p) true

/-- The state after a split has ended, with the outcome that its KSPLIT gives and the lock returned (R470, R474). -/
def endSplit (s : State) (p : Split) (v : Word) : State := endOp { s with split := none, splitLock := none } p.op v

/-- The state after a split has aborted: before cut-over the range returns to NORMAL at the source, and from then on a split never aborts
(R469). -/
def abortSplit (s : State) (lost : Bool) : State :=
  match s.split with
  | none => s
  | some p => if p.phase = 3 then s else endSplit s p (splitStatus (if lost then 3 else 2) 0)

/-- The request that carries a tuple of the upper half, or the news of its removal, to the destination's module (R465, R471). -/
def copyReq (s : State) (p : Split) (t : Tuple) (gone : Bool) : KeyReq :=
  { id := s.nextId, issuer := .home p.src, ctx := t.ctx, ask := .copy { t with chain := false, payload := if gone then [] else t.payload } gone,
    hash := keyHash t.key, home := p.dst, mapgen := s.homeMap.gen.toNat, fwd := 0, forwarded := false, held := false, tag := none, twin := none,
    twinRemote := none, assayed := false, chain := false, rid := 0 }

/-- The state with tuples copied to the destination of a split: another module's gets them by messages, and in this module they need none,
since copied tuples match nothing before cut-over (R465, R466). -/
def copyUpper (s : State) (p : Split) (ts : List Tuple) : State :=
  if homeLocal s p.dst then s else ts.foldl (fun u t => sendRemote (bumpId u) (copyReq u p t false)) s

/-- The tuples of the upper half that have not been copied yet. -/
def uncopied (s : State) (p : Split) : List Tuple := (upperTuples s p).filter (fun t => !p.copied.any (fun c => c.seq == t.seq))

/-- Whether the destination's module has still to answer a copy (R464, R469). -/
def copyOut (s : State) (p : Split) : Bool :=
  !(outstandingReqs s (fun r => r.home == p.dst && (match r.ask with | .copy _ _ => true | _ => false))).isEmpty

/-- The state of a split in COPY: the destination reserves room, and the source copies the tuples of the upper half that have come since
(R465, R466). -/
def splitOnward (s : State) (p : Split) : State :=
  let ts := uncopied s p
  let q := { p with phase := 2, copied := p.copied ++ ts, reserved := upperUnits s p }
  push { copyUpper s p ts with split := some q } .splitCutover

/-- SPLIT_COPY: the destination reserves room, and the source copies the upper half's tuples; changes to them are the delta of
SPLIT_CUTOVER (R465, R466). -/
def execSplitCopy (s : State) : Host.Outcome State Fault Refusal :=
  match s.split with
  | none => done s
  | some p =>
    if p.phase ≠ 1 then done s
    else if (match findOp s p.op with | some o => !opReleased s o true 4 | none => false) then done (push s .splitCopy)
    else if !splitFits s p then done (push s (.splitAbort false))
    else done (splitOnward s p)

/-- A home without the upper half of a split. -/
def withoutUpper (p : Split) (h : Home) : Home :=
  promote { h with
    tuples := h.tuples.filter (fun t => !inUpper p (keyHash t.key)), waiters := h.waiters.filter (fun r => !inUpper p r.hash) }

/-- The state with a waiter that has moved to a home: a tuple stored there serves it, or it waits on (R434, R467). -/
def moveWaiter (h : Nat) (s : State) (w : KeyReq) : State :=
  let r := { w with home := h, chain := false }
  match waitForm r.ask with
  | none => s
  | some (take, val, mask) =>
    match bestTuple (getHome s h) r.ctx val mask with
    | some t =>
      let v := getHome s h
      serve (if take then setHome s h (promote { v with tuples := v.tuples.erase t }) else s) h r t take
    | none => (appendWaiter s h r).1

/-- The state with a home's part of a split taken in: its tuples in the order of their sequences, each against the waiters that stand
there, the waiters in their arrival order, and the larger sequence counter (R434, R467). -/
def takeUpper (s : State) (h : Nat) (ts : List Tuple) (ws : List KeyReq) (seq : BitVec 64) : State :=
  let t := ts.foldl (fun u t => (deposit u h t).1) s
  let t := ws.foldl (moveWaiter h) t
  let v := getHome t h
  setHome t h { v with seq := if v.seq.toNat < seq.toNat then seq else v.seq }

/-- The header of a message about a home's contents: MAPSET or SPLITCUT (R471; LO stands in HASH, log 14). -/
def moveHead (s : State) (op home gen lo seq : Nat) : WaidricHead :=
  { op := op, flags := 0, smod := s.localMod, dhome := home, mapgen := gen, reqid := 0, task := 0, pairseq := 0, hash := lo,
    status := 0, len := 0, seq := seq }

/-- The state with the upper half handed to a home of another module: the removals among the tuples copied, the waiting templates and the
held dual arrivals as requests marked as moved, and the cut behind them (R467, R471). -/
def moveRemote (s : State) (p : Split) (ws rs : List KeyReq) (seq : BitVec 64) (gen : BitVec 32) : State :=
  let now := upperTuples s p
  let gone := p.copied.filter (fun t => !now.any (fun c => c.seq == t.seq))
  let t := gone.foldl (fun u t => sendRemote (bumpId u) (copyReq u p t true)) s
  let t := (ws ++ rs).foldl (fun u w => sendTo u { w with home := p.dst, chain := false } true) t
  sendWaidric t (p.dst / 64) (moveHead t 11 p.dst gen.toNat p.mid seq.toNat) []

/-- The state with every other module of the domain told of a new entry (R460, R471). -/
def tellModules (s : State) (gen : BitVec 32) (lo home : Nat) : State :=
  ((List.range s.domainModules).filter (fun m => m != s.localMod && !s.failedModules.contains m)).foldl (fun t m =>
    sendWaidric t m (moveHead t 9 home gen.toNat lo 0) []) s

/-- The held dual arrivals of the upper half at the source (R467). -/
def upperHeld (s : State) (p : Split) : List KeyReq := s.keyReqs.filter (fun r => r.assayed && r.home == p.src && inUpper p r.hash)

/-- The state after cut-over: in one step the destination takes the upper half's tuples, waiters and held dual arrivals, and the map gains
an entry (R467). -/
def cutOver (s : State) (p : Split) : State :=
  let ts := upperTuples s p
  let ws := upperWaiters s p
  let rs := upperHeld s p
  let seq := (getHome s p.src).seq
  let gen := s.homeMap.gen + 1
  let t :=
    if homeLocal s p.dst then
      let t := takeUpper (setHome s p.src (withoutUpper p (getHome s p.src))) p.dst ts ws seq
      { t with keyReqs := t.keyReqs.map (fun r => if r.assayed ∧ r.home = p.src ∧ inUpper p r.hash = true then { r with home := p.dst } else r) }
    else
      let t := moveRemote s p ws rs seq gen
      setHome t p.src (withoutUpper p (getHome t p.src))
  let t := tellModules (changeMap t (mapWith t.homeMap gen p.mid p.dst)) gen p.mid p.dst
  endSplit t p (splitStatus 0 gen.toNat)

/-- SPLIT_CUTOVER: COPY goes on until every tuple of the upper half is at the destination; then requests for it wait while it moves, in
one step (R465-R467). -/
def execSplitCutover (s : State) : Host.Outcome State Fault Refusal :=
  match s.split with
  | none => done s
  | some p =>
    if p.phase = 3 then done (cutOver s p)
    else if p.phase ≠ 2 then done s
    else if !splitFits s p then done (push s (.splitAbort false))
    else if homeLocal s p.dst || ((uncopied s p).isEmpty && !copyOut s p) then done (push { s with split := some { p with phase := 3 } } .splitCutover)
    else done (splitOnward s p)

/-- SPLIT_ABORT (R469). -/
def execSplitAbort (lost : Bool) (s : State) : Host.Outcome State Fault Refusal := done (abortSplit s lost)

/-! ### Heaps (R463) -/

/-- The other homes of this module whose heaps lie in the stack of a home. -/
def stackHomes (s : State) (home : Nat) : List Home := (s.homes.filter (fun h => h.1 != home && h.1 / 4 == home / 4)).map (·.2)

/-- The pages of HBM that a table of some level maps, with their sizes (R511, R512). -/
def pagesFrom (s : State) (table level fuel : Nat) : List (Nat × Nat) :=
  match fuel with
  | 0 => []
  | f + 1 =>
    (List.range (if level = 3 then 32 else 512)).flatMap (fun i =>
      let e := physWord s (table + 8 * i) 8
      if fld e 0 1 = 0 then []
      else if fld e 1 2 = 0 then pagesFrom s (fld e 8 32 * 256) (level + 1) f
      else if fld e 1 2 = 1 ∧ level ≠ 0 then [(fld e 8 32 * 256, pageSize level)]
      else [])

/-- The pages that the contexts of the partitions map, as a station of a stack finds them (R463, R510). -/
def mappedPages (s : State) (stack : Nat) : List (Nat × Nat) :=
  let st := getStation s (3 * stack)
  ((s.parts.filter (fun p => p.2.state != .absent)).flatMap (fun p =>
    let e := physWord s (st.ctxBase + 8 * p.2.ctxid) 8
    if fld e 0 1 = 0 then [] else pagesFrom s (fld e 12 28 * 4096) 0 4)).eraseDups

/-- Whether a heap region is one that its stack can give a home: whole multiples of 64 KiB within the capacity less what the other homes
and the mapped memory use, and clear of both (R463). A page lies in every stack, a sixteenth of it in each (R258). -/
def heapGranted (s : State) (home base size : Nat) : Bool :=
  let pages := mappedPages s (home % 64 / 4)
  let off := base % stackBytes
  decide (base % 65536 = 0) && decide (size % 65536 = 0) && decide (65536 ≤ size) && base / stackBytes == home % 64 / 4 &&
    decide (off + size ≤ stackBytes) &&
    decide (size + ((stackHomes s home).map (·.heapSize)).sum + (pages.map (fun p => p.2 / 16)).sum ≤ stackBytes) &&
    (stackHomes s home).all (fun h => !meets off size (h.heapBase % stackBytes) h.heapSize) &&
    pages.all (fun p => !meets off size (p.1 / 16) (p.2 / 16))

/-- HEAP_RESIZE_REQUEST: applied only to a home that holds nothing, and within the stack's capacity (R463). -/
def execHeapResizeRequest (home base size : Nat) (s : State) : Host.Outcome State Fault Refusal :=
  let h := getHome s home
  if h.tuples.isEmpty && h.waiters.isEmpty && h.unacked.isEmpty && homeLocal s home && heapGranted s home base size then
    done (setHome s home { h with heapBase := base, heapSize := size })
  else done s

end Sys2Proof.Machine
end

