-- ==== Sys2Proof/Machine/Waidric.lean ====
section
/-! DEFINITION. What arrives from the other modules of the key-space domain, and the failure of a connection or of a module (R437,
R471, R472). -/

namespace Sys2Proof.Machine

/-- The home that counts a discarded message: the one that the message names where it is one of this module's, else this module's first
(R471, R536; which home counts is the model's choice: log 14). -/
def dropHome (s : State) (bs : List Byte) : Nat :=
  let h := leNat ((bs.drop 6).take 2)
  if homeLocal s h then h else 64 * s.localMod

/-- The state with a message discarded and counted (R471). -/
def dropWaidric (s : State) (h : Nat) : State := count s (.waidricDrops h) 1

/-- The bytes of a message that follow its header (R471): a key, a template or nothing, then the payload. -/
def waidricBody (h : WaidricHead) : Nat :=
  (if h.op = 2 ∨ h.op = 3 ∨ h.op = 4 then 64
   else if h.op = 1 ∨ h.op = 5 ∨ h.op = 8 ∨ h.op = 10 then 32 else 0) + h.len

/-- A 256-bit value in the bytes of a message. -/
def keyAt (bs : List Byte) (off : Nat) : BitVec 256 := BitVec.ofNat 256 (leNat ((bs.drop off).take 32))

/-- The context identifier of a header (R471). -/
def headCtx (h : WaidricHead) : Nat := h.flags / 256

/-- The mode bits of a header (R448, R471). -/
def headMode (h : WaidricHead) : Nat := h.flags / 8 % 16

/-- Whether a header marks a waiting template or a held dual arrival that a split moves (R467, log 14). -/
def headMoved (h : WaidricHead) : Bool := h.flags / 128 % 2 == 1

/-- Whether a header has FORWARDED set. -/
def headForwarded (h : WaidricHead) : Bool := h.flags / 4 % 2 == 1

/-- The tuple that a message carries. -/
def headTuple (h : WaidricHead) (bs : List Byte) : Tuple :=
  { key := keyAt bs 64, ctx := headCtx h, seq := h.seq, shape := BitVec.ofNat 32 h.status, payload := (bs.drop 96).take h.len, chain := false }

/-- What a request message asks for. -/
def headAsk (h : WaidricHead) (bs : List Byte) : KeyAsk :=
  if h.op = 1 then .put (keyAt bs 64) (BitVec.ofNat 32 h.status) ((bs.drop 96).take h.len)
  else if h.op = 4 then .cancel (keyAt bs 64) (keyAt bs 96)
  else .read (h.op == 3) (keyAt bs 64) (keyAt bs 96) (headMode h == 1) (.remote (headMode h == 2))

/-- The dual tag of a message (R556, R471): its copy is the one of which nothing has arrived from that module at its home. -/
def headTag (s : State) (h : WaidricHead) : Option PairTag :=
  if h.flags % 2 = 0 then none
  else
    let pair := h.pairseq / 4096
    let idx := h.pairseq % 4096
    let ours (r : KeyReq) : Bool := r.home == h.dhome && (match r.issuer with | .module m _ _ => m == h.smod | _ => false)
    let seen := s.keyReqs.any (fun r => ours r && (match r.tag with | some t => t.pair == pair && t.idx == idx && t.copy == 0 | none => false))
    some { pair := pair, copy := if seen then 1 else 0, idx := idx, hash := BitVec.ofNat 64 h.hash }

/-- A request of another module as it stands here. Its forward count has no field in the header: one that arrives FORWARDED counts as
forwarded once (R460; the model's choice: log 93). -/
def takenReq (s : State) (h : WaidricHead) (bs : List Byte) : KeyReq :=
  { id := s.nextId, issuer := .module h.smod h.reqid h.task, ctx := headCtx h, ask := headAsk h bs, hash := keyHash (keyAt bs 64), home := h.dhome,
    mapgen := h.mapgen, fwd := if headForwarded h then 1 else 0, forwarded := headForwarded h, held := false, tag := headTag s h, twin := none,
    twinRemote := none, assayed := false, chain := false, rid := 0 }

/-- A split of another module towards a home of this one, as its messages are kept: its module and the home. -/
def splitName (h : WaidricHead) : Nat := h.smod * 1024 + h.dhome

/-- The state with a request of another module on its way to its home, or kept for the cut where a split moves it (R467). -/
def takeRequest (s : State) (h : WaidricHead) (bs : List Byte) : State :=
  let r := takenReq s h bs
  if headMoved h then bumpId { s with splitReqs := s.splitReqs ++ [(splitName h, r)] }
  else push (bumpId { s with keyReqs := s.keyReqs ++ [r] }) (reqEvent r)

/-- The request that a number names at another module. -/
def findOutstanding (s : State) (m reqid : Nat) : Option KeyReq :=
  (((getWaidric s m).outstanding.find? (fun p => p.1 == reqid)).map (·.2))

/-- The state with a request no longer outstanding. -/
def dropOutstanding (s : State) (m reqid : Nat) : State :=
  let w := getWaidric s m
  setWaidric s m { w with outstanding := w.outstanding.filter (fun p => p.1 != reqid) }

/-- Whether a request takes its tuple. -/
def askTakes (a : KeyAsk) : Bool :=
  match a with
  | .read take _ _ _ _ => take
  | _ => false

/-- Whether a request registers a continuation. -/
def askCont (a : KeyAsk) : Bool :=
  match a with
  | .read _ _ _ _ d => contDest d
  | _ => false

/-- Whether a registration's status has still to come (R440). -/
def statusDue (s : State) (r : KeyReq) : Bool := askCont r.ask && (reqOps r).any (fun op => (findOp s op).isSome)

/-- The state with an outstanding request replaced. -/
def putOutstanding (s : State) (m reqid : Nat) (r : KeyReq) : State :=
  let w := getWaidric s m
  setWaidric s m { w with outstanding := w.outstanding.map (fun p => if p.1 = reqid then (reqid, r) else p) }

/-- The state with a served tuple of another module on its way to its issuer (R436). A continuation that is served at once keeps its place
until its status has come too, in whichever order they come (R440). -/
def takeDelivery (s : State) (h : WaidricHead) (bs : List Byte) : State :=
  match findOutstanding s h.smod h.reqid with
  | none => dropWaidric s (dropHome s bs)
  | some r =>
    if r.served then dropWaidric s (dropHome s bs)
    else
      let t := if statusDue s r then putOutstanding s h.smod h.reqid { r with served := true } else dropOutstanding s h.smod h.reqid
      let d : KeyDelivery :=
        { id := t.nextId, home := h.dhome, req := { r with forwarded := r.forwarded || headForwarded h },
          answer := .serve (headTuple h bs) (askTakes r.ask) (headMode h % 2 == 1), held := false }
      push (bumpId { t with deliveries := t.deliveries ++ [d] }) (.keyDeliveryArrive t.nextId)

/-- Whether a request carries a copy of a split's tuple. -/
def askCopy (a : KeyAsk) : Bool :=
  match a with
  | .copy _ _ => true
  | _ => false

/-- The state after a status word of another module: a continuation stays registered there until it is delivered (R440); a copy that finds
no room there ends the split (R464, R469). -/
def takeStatus (s : State) (h : WaidricHead) : State :=
  match findOutstanding s h.smod h.reqid with
  | none => dropWaidric s (64 * s.localMod)
  | some r =>
    let isStat := match r.ask with
      | .stat _ => true
      | _ => false
    let code := if isStat then 0 else h.status / 16 % 16
    let t := if askCont r.ask && code == 0 && !r.served then s else dropOutstanding s h.smod h.reqid
    if askCopy r.ask then (if code = 0 then t else abortSplit t false)
    else settleReq t r h.dhome code (BitVec.ofNat 64 h.status)

/-- The delivery that waits for another module's acknowledgement. -/
def findHeldFor (s : State) (m reqid : Nat) : Option KeyDelivery :=
  s.deliveries.find? (fun d => d.held &&
    ((match d.req.issuer with | .module a r _ => a == m && r == reqid | _ => false) || d.req.twinRemote == some (m, reqid)))

/-- The state with a delivery to another module acknowledged, or its tuple given back, a continuation's as stale (R437, R442). -/
def ackHeld (s : State) (d : KeyDelivery) (ok : Bool) : State :=
  match d.answer with
  | .serve t take _ =>
    let u := dropDelivery s d.id
    ackTake (if !ok && askCont d.req.ask then count u (.staleConts d.home) 1 else u) d t take ok
  | _ => dropDelivery s d.id

/-- The state after one copy's module has acknowledged a delivery, or given its tuple back: the take stands once every copy has
acknowledged it (R437, R445). -/
def answerHeldDelivery (s : State) (d : KeyDelivery) (m reqid : Nat) (ok : Bool) : State :=
  let e := { d with left := d.left.filter (· != (m, reqid)), bad := d.bad || !ok }
  if e.left.isEmpty then ackHeld s e (!e.bad)
  else { s with deliveries := s.deliveries.map (fun f => if f.id = d.id then e else f) }

/-- Whether an outstanding request carries a tuple, which an ACK settles: a re-deposit or a copy. -/
def carriesTuple (a : KeyAsk) : Bool :=
  match a with
  | .redeposit _ => true
  | .copy _ _ => true
  | _ => false

/-- The state after an ACK of another module: of a tuple that it was sent, or of one forwarded to it (R437, R468). -/
def takeAck (s : State) (h : WaidricHead) : State :=
  match findHeldFor s h.smod h.reqid with
  | some d => answerHeldDelivery s d h.smod h.reqid true
  | none =>
    if (findOutstanding s h.smod h.reqid).any (fun r => carriesTuple r.ask) then dropOutstanding s h.smod h.reqid
    else dropWaidric s (64 * s.localMod)

/-- The state after a re-deposit of another module: of a tuple that it was sent, or one that has been forwarded (R437, R468). -/
def takeRedeposit (s : State) (h : WaidricHead) (bs : List Byte) : State :=
  match findHeldFor s h.smod h.reqid with
  | some d => answerHeldDelivery s d h.smod h.reqid false
  | none =>
    if !headForwarded h then dropWaidric s (dropHome s bs)
    else
      let t := headTuple h bs
      let r : KeyReq :=
        { id := s.nextId, issuer := .module h.smod h.reqid 0, ctx := t.ctx, ask := .redeposit t, hash := keyHash t.key, home := h.dhome,
          mapgen := h.mapgen, fwd := 1, forwarded := true, held := false, tag := none, twin := none, twinRemote := none, assayed := false,
          chain := false, rid := 0 }
      push (bumpId { s with keyReqs := s.keyReqs ++ [r] }) (.homeRedepositArrive s.nextId)

/-- The state without what another module has sent for a split. -/
def dropStaged (s : State) (p : Nat → Bool) : State :=
  { s with
    splitIn := s.splitIn.filter (fun e => !p e.1), splitReqs := s.splitReqs.filter (fun e => !p e.1),
    splitLock := if s.splitLock.any (fun m => s.splitIn.any (fun e => p e.1 && e.1 / 1024 == m)) then none else s.splitLock }

/-- The state after a tuple of another module's split has come: it is kept for the cut and acknowledged, or its removal noted; where the
home has no room for what has come, the copies are discarded and the source is told FULL (R464-R466, R469). -/
def takeCopy (s : State) (h : WaidricHead) (bs : List Byte) : State :=
  let name := splitName h
  let t := headTuple h bs
  let reply (u : State) (op status : Nat) : State := replyTo u h.smod h.reqid op t.ctx h.dhome status
  let staged := (s.splitIn.filter (fun p => p.1 == name)).length
  let need := payloadUnits t.payload.length + chainNeed (getHome s h.dhome) (staged + 1)
  if s.split.isSome then dropWaidric s (dropHome s bs)
  else if headMode h % 2 = 1 then reply { s with splitIn := s.splitIn.filter (fun p => !(p.1 == name && p.2.seq == t.seq)) } 6 0
  else if !roomFits s h.dhome need true then reply (dropStaged s (· == name)) 7 (keyStatus 2 false false false false 0).toNat
  else reply { s with splitIn := s.splitIn ++ [(name, t)], splitLock := some h.smod } 6 0

/-- The state after a split of another module has reached its cut-over with its upper half here: tuples, waiting templates in their order
and held dual arrivals stand here in one step (R467). -/
def takeCut (s : State) (h : WaidricHead) (bs : List Byte) : State :=
  if s.split.isSome then dropWaidric s (dropHome s bs)
  else
    let mine := (s.splitReqs.filter (fun p => p.1 == splitName h)).map (·.2)
    let ts := (s.splitIn.filter (fun p => p.1 == splitName h)).map (·.2)
    let t := { dropStaged s (· == splitName h) with splitLock := none }
    let t := takeUpper t h.dhome ts (mine.filter (fun r => r.tag.isNone)) (BitVec.ofNat 64 h.seq)
    let t := { t with keyReqs := t.keyReqs ++ (mine.filter (fun r => r.tag.isSome)).map (fun r => { r with assayed := true }) }
    changeMap t (mapWith t.homeMap (BitVec.ofNat 32 h.mapgen) h.hash h.dhome)

/-- The state after a STAT of another module: the value travels back in STATUS (R476, log 14). -/
def takeStat (s : State) (h : WaidricHead) : State :=
  sendWaidric s h.smod
    { op := 7, flags := headCtx h * 256, smod := s.localMod, dhome := h.dhome, mapgen := s.homeMap.gen.toNat, reqid := h.reqid, task := 0,
      pairseq := 0, hash := 0, status := (statValue s h.dhome (h.status % 16)).toNat % 2 ^ 32, len := 0, seq := 0 } []

/-- Whether a message is well formed and meant for this module (R471). -/
def waidricOk (s : State) (h : WaidricHead) (bs : List Byte) : Bool :=
  decide (h.smod < s.domainModules) && h.smod != s.localMod && bs.length == 64 + waidricBody h && decide (h.dhome < 1024) &&
    (h.op == 5 || h.op == 6 || h.op == 7 || h.op == 9 || homeLocal s h.dhome)

/-- The state after a well-formed message has been acted on. -/
def actWaidric (s : State) (h : WaidricHead) (bs : List Byte) : State :=
  if h.op ≤ 4 then takeRequest s h bs
  else if h.op = 5 then takeDelivery s h bs
  else if h.op = 6 then takeAck s h
  else if h.op = 7 then takeStatus s h
  else if h.op = 8 then takeRedeposit s h bs
  else if h.op = 9 then changeMap s (mapWith s.homeMap (BitVec.ofNat 32 h.mapgen) h.hash h.dhome)
  else if h.op = 10 then takeCopy s h bs
  else if h.op = 11 then takeCut s h bs
  else takeStat s h

/-- WAIDRIC_MESSAGE_RECEIVE (R471). -/
def execWaidricMessageReceive (bytes : List Byte) (s : State) : Host.Outcome State Fault Refusal :=
  match readHead bytes with
  | none => done (dropWaidric s (dropHome s bytes))
  | some h => if waidricOk s h bytes then done (actWaidric s h bytes) else done (dropWaidric s (dropHome s bytes))

/-- The state after an outstanding request has been lost: it completes LOST (R447, R472), a re-deposit goes again, so that no tuple is lost
(R435), unless its home's module has failed with all its tuples, and a copy's split aborts (R469). -/
def loseOut (gone : Bool) (s : State) (r : KeyReq) : State :=
  match r.ask with
  | .stat _ => settleReq s r r.home 7 (BitVec.allOnes 64)
  | .redeposit _ =>
    if gone then s else push (bumpId { s with keyReqs := s.keyReqs ++ [{ r with id := s.nextId, rid := 0 }] }) (.homeRedepositArrive s.nextId)
  | .copy _ _ => abortSplit s true
  | _ => settleReq s r r.home 7 (keyStatus 7 false false false r.forwarded 0)

/-- The state after the requests of a connection that a condition holds of have been lost (R447, R472). -/
def loseOutstanding (s : State) (m : Nat) (gone : Bool) (p : Nat → Bool) : State :=
  let w := getWaidric s m
  let t := setWaidric s m { w with outstanding := w.outstanding.filter (fun e => !p e.1) }
  ((w.outstanding.filter (fun e => p e.1)).map (·.2)).foldl (loseOut gone) t

/-- The state without the copies of tuples that a module has sent for a split that now aborts (R469). -/
def dropCopiesOf (s : State) (m : Nat) : State := dropStaged s (fun n => n / 1024 == m)

/-- Whether a request came from another module by a number above one. -/
def reqAbove (m n : Nat) (r : KeyReq) : Bool :=
  match r.issuer with
  | .module a k _ => a == m && decide (n < k)
  | _ => false

/-- The state after the home's side of a failed connection: the highest number performed is reported, and no request above it is ever
performed (R472). -/
def reportPerformed (s : State) (m : Nat) : State :=
  let w := getWaidric s m
  setWaidric { s with keyReqs := s.keyReqs.filter (fun r => !reqAbove m w.received r) } m { w with reported := w.received }

/-- The state after a split over a connection that has failed has aborted, unless it has reached its cut-over (R469). -/
def abortOver (s : State) (m : Nat) : State :=
  match s.split with
  | some p => if p.dst / 64 = m then abortSplit s true else s
  | none => s

/-- WAIDRIC_CONNECTION_FAIL: the requests above the last one performed complete LOST, in both directions (R472), and a split over the
connection that has not reached its cut-over aborts (R469). -/
def execWaidricConnectionFail (modnum reqid : Nat) (s : State) : Host.Outcome State Fault Refusal :=
  let t := abortOver s modnum
  done (dropCopiesOf (loseOutstanding (reportPerformed t modnum) modnum false (fun n => decide (reqid < n))) modnum)

/-- The deliveries to a module that wait for its acknowledgement. -/
def heldForModule (s : State) (m : Nat) : List KeyDelivery :=
  s.deliveries.filter (fun d => d.held && (match d.req.issuer with | .module a _ _ => a == m | _ => false))

/-- MODULE_FAILED: every outstanding request to its homes completes LOST (R472); its own waiters here are withdrawn, and tuples that
were on their way to it are deposited again (R437). -/
def execModuleFailed (modnum : Nat) (s : State) : Host.Outcome State Fault Refusal :=
  let t := abortOver { s with failedModules := (modnum :: s.failedModules).eraseDups } modnum
  let t := loseOutstanding t modnum true (fun _ => true)
  let t := dropCopiesOf ((heldForModule t modnum).foldl (fun u d => ackHeld u d false) t) modnum
  done (withdrawWaiters t (fun r => match r.issuer with | .module a _ _ => a == modnum | _ => false))

end Sys2Proof.Machine
end

