-- ==== Sys2Proof/Machine/Assay.lean ====
section
/-! DEFINITION. The Assay: the first arrivals of dual copies' messages, their twins, and what is performed once for both (R445,
R559, R560). -/

namespace Sys2Proof.Machine

/-- The first arrivals that an Assay point holds at most (R559). -/
def assayDepth : Nat := 64

/-- The point that compares a message (R557, R559). -/
def msgPoint (m : TaskMsg) : AssayPoint :=
  match m.body with
  | .dualSpawn _ => .distributor
  | _ => .core m.target

/-- The first arrivals that a point holds. -/
def heldAt (s : State) (p : AssayPoint) : Nat :=
  (s.msgs.filter (fun m => m.assayed && msgPoint m == p)).length +
    (s.keyReqs.filter (fun r => r.assayed && AssayPoint.home r.home == p)).length

/-- Whether two tags are the two copies' of one message index (R556). -/
def twinTags (a b : Option PairTag) : Bool :=
  match a, b with
  | some x, some y => x.pair == y.pair && x.idx == y.idx && x.copy != y.copy
  | _, _ => false

/-- The module that a request comes from, if it is another one. -/
def issuerModule (i : KeyIssuer) : Option Nat :=
  match i with
  | .module m _ _ => some m
  | _ => none

/-- The first arrival that a message is the twin of. -/
def twinMsg (s : State) (m : TaskMsg) : Option TaskMsg :=
  s.msgs.find? (fun r => r.assayed && twinTags r.tag m.tag && msgPoint r == msgPoint m)

/-- The first arrival that a request is the twin of. -/
def twinReq (s : State) (q : KeyReq) : Option KeyReq :=
  s.keyReqs.find? (fun r => r.assayed && twinTags r.tag q.tag && r.home == q.home && issuerModule r.issuer == issuerModule q.issuer)

/-- The state after a message has reached its point (R559). -/
def firstMsg (s : State) (m : TaskMsg) : State :=
  if m.tag.isNone || m.assayed then s
  else if msgWaits s m then push s (.assayFirstArrival m.id)
  else if (twinMsg s m).isSome then push s (.assayTwinArrival m.id)
  else if assayDepth ≤ heldAt s (msgPoint m) then push s (.assayRetry m.id)
  else { s with msgs := s.msgs.map (fun r => if r.id = m.id then { r with assayed := true } else r) }

/-- The state after a request has reached its home (R559): it travels as any other does (R460). -/
def firstReq (s : State) (r : KeyReq) : State :=
  if r.tag.isNone || r.assayed || r.held then s
  else if keyWaits s r then keyAgain s r (.assayFirstArrival r.id)
  else if cutWaits s r then push s (.assayFirstArrival r.id)
  else
    match routeReq s r with
    | .moved t => t
    | .here =>
      if (twinReq s r).isSome then push s (.assayTwinArrival r.id)
      else if assayDepth ≤ heldAt s (.home r.home) then push s (.assayRetry r.id)
      else putReq s { r with assayed := true }

/-- ASSAY_FIRST_ARRIVAL (R559). -/
def execAssayFirstArrival (n : Nat) (s : State) : Host.Outcome State Fault Refusal :=
  match findMsg s n, findReq s n with
  | some m, _ => done (firstMsg s m)
  | none, some r => done (firstReq s r)
  | none, none => done s

/-- ASSAY_RETRY: the sender sends a returned first arrival again (R559). -/
def execAssayRetry (n : Nat) (s : State) : Host.Outcome State Fault Refusal := done (push s (.assayFirstArrival n))

/-- The cores of the pair of a tag. -/
def pairCoresOf (s : State) (t : Option PairTag) : List Nat :=
  match t with
  | some x => (match findPair s x.pair with | some d => d.cores | none => [])
  | none => []

/-- The state after the pair of a tag has been killed (R560). -/
def killTag (s : State) (t : Option PairTag) (blame : List Nat) : State :=
  match t with
  | some x => killPair s x.pair blame
  | none => s

/-- The hash of a tag. -/
def tagHash (t : Option PairTag) : Option (BitVec 64) := t.map (·.hash)

/-- Whether a tag is copy 0's. -/
def isCopy0 (t : Option PairTag) : Bool :=
  match t with
  | some x => x.copy == 0
  | none => false

/-- The operation that a message carries, as a number. -/
def bodyCode (b : TaskBody) : Nat :=
  match b with
  | .callat _ => 1
  | .mail kind _ _ => 1 + kind
  | .dualSpawn _ => 4
  | _ => 0

/-- The destination of a message besides its target: the task name of a mailbox message. -/
def bodyDest (b : TaskBody) : Nat :=
  match b with
  | .mail _ name _ => name
  | _ => 0

/-- The state after a message of both copies has been performed, or is on its way to be, with the first arrival's operands; both
copies get its status (R559). -/
def performMsg (s : State) (first second : TaskMsg) : State :=
  let zero := if isCopy0 first.tag then first else second
  let one := if isCopy0 first.tag then second else first
  let m : TaskMsg := { first with core := zero.core, name := zero.name, op := zero.op, serial := zero.serial, tag := none, assayed := false, twin := some one.op }
  let t := { s with msgs := (s.msgs.filter (fun r => r.id != second.id)).map (fun r => if r.id = first.id then m else r) }
  let t := tidyPairs t
  match m.body with
  | .dualSpawn rec_ =>
    let o := acceptDual t m.core rec_ (0, 0)
    endMsg o.1 m (taskStatus o.2)
  | b => push t (msgEvent b m.id)

/-- What a request asks for, with another destination. -/
def withDest (a : KeyAsk) (d : Option KeyDest) : KeyAsk :=
  match a, d with
  | .read take v m poll _, some x => .read take v m poll x
  | a, _ => a

/-- The destination of a request. -/
def askDest (a : KeyAsk) : Option KeyDest :=
  match a with
  | .read _ _ _ _ d => some d
  | _ => none

/-- A copy's part in an operation performed once for a pair. -/
def twinOf (r : KeyReq) : Option KeyTwin :=
  match r.issuer with
  | .task core serial name op => some { core := core, serial := serial, name := name, op := op, dest := (askDest r.ask).getD (.remote false) }
  | _ => none

/-- The number of a request at the module that sent it. -/
def remoteOf (r : KeyReq) : Option (Nat × Nat) :=
  match r.issuer with
  | .module m reqid _ => some (m, reqid)
  | _ => none

/-- The state with a request of both copies on its way to be performed at its home (R445, R559). -/
def performReq (s : State) (first second : KeyReq) : State :=
  let zero := if isCopy0 first.tag then first else second
  let one := if isCopy0 first.tag then second else first
  let q : KeyReq :=
    { first with
      issuer := zero.issuer, ask := withDest first.ask (askDest zero.ask), tag := none, assayed := false, twin := twinOf one,
      twinRemote := remoteOf one, pair := if (issuerCore zero.issuer).isSome then first.tag.map (·.pair) else none }
  push (putReq (dropReq s second.id) q) (keyEvent q.ask q.id)

/-- ASSAY_TWIN_ARRIVAL: equal arrivals are performed once; others kill their pair (R559, R560). -/
def execAssayTwinArrival (n : Nat) (s : State) : Host.Outcome State Fault Refusal :=
  match findMsg s n, findReq s n with
  | some m, _ =>
    (match (if m.tag.isSome ∧ m.assayed = false then twinMsg s m else none) with
     | none => done s
     | some f =>
       if tagHash f.tag = tagHash m.tag ∧ bodyCode f.body = bodyCode m.body ∧ bodyDest f.body = bodyDest m.body then done (performMsg s f m)
       else done (killTag s m.tag (pairCoresOf s m.tag)))
  | none, some r =>
    (match (if r.tag.isSome ∧ r.assayed = false then twinReq s r else none) with
     | none => done s
     | some f =>
       if tagHash f.tag = tagHash r.tag ∧ (askCode f.ask).1 = (askCode r.ask).1 ∧ f.hash = r.hash then done (performReq s f r)
       else
         match r.issuer with
         | .task _ _ _ _ => done (killTag s r.tag (pairCoresOf s r.tag))
         | _ => done (dropReq (dropReq s r.id) f.id))
  | none, none => done s

/-- The cores of a pair without the one whose copy arrived. -/
def otherCores (s : State) (t : Option PairTag) (core : Nat) : List Nat := (pairCoresOf s t).filter (· != core)

/-- The request of a copy that stands at another module's home under a name. -/
def copyThere (s : State) (n : Nat) : Option KeyReq := (outstandingReqs s (fun r => r.id == n && r.tag.isSome)).head?

/-- ASSAY_TIMEOUT: a twin that has not arrived kills the pair (R560, R568). A first arrival may stand at another module's home, of which no
message of R471 tells: the event then stands for that home's report of its time-out, or of its mismatch (log 14). -/
def execAssayTimeout (n : Nat) (s : State) : Host.Outcome State Fault Refusal :=
  match findMsg s n, findReq s n with
  | some m, _ => if m.assayed then done (killTag s m.tag (otherCores s m.tag m.core)) else done s
  | none, some r =>
    if !r.assayed then done s
    else
      match r.issuer with
      | .task c _ _ _ => done (killTag s r.tag (otherCores s r.tag c))
      | _ => done (dropReq s r.id)
  | none, none =>
    match copyThere s n with
    | some r => done (killTag s r.tag (match issuerCore r.issuer with | some c => otherCores s r.tag c | none => []))
    | none => done s

end Sys2Proof.Machine
end

