-- ==== Sys2Proof/Machine/Engines.lean ====
section
/-! DEFINITION. The accesses of the stack engines, the cache slices, the collective engines and the front end: a range read or
written in one step in the context of who asked (R258, R329, R340, R383, R412, R487, R514, log 11). -/

namespace Sys2Proof.Machine

/-- Who makes an access: the core whose local space it may name, the partition whose cores it may reach, its context identifier, the
column that chooses its stations, and whether remote windows serve it (R258, R514). -/
structure Agent where
  core : Nat
  part : Option Nat
  ctx : Nat
  col : Nat
  windows : Bool
  deriving DecidableEq, Repr

/-- The agent of an engine that works for a core. -/
def coreAgent (s : State) (c : Nat) (windows : Bool) : Agent :=
  { core := c, part := partOf s c, ctx := ctxOf s c, col := columnOf s c, windows := windows }

/-- The agent of a unit that works in a context by itself. The rules do not say from which router column the units of BD0, and the host
through them, send a request into space 0x4, on which its station depends (R16, R30, R258): it is column 0 (DESIGN CHOICE,
log 90). -/
def unitAgent (part : Option Nat) (ctx : Nat) (windows : Bool) : Agent :=
  { core := noCore, part := part, ctx := ctx, col := 0, windows := windows }

/-- The walk that an agent's access makes. -/
def agentWalk (s : State) (g : Agent) (va : Nat) (need : Need) : Walk := walk s (stationOf g.col va) g.ctx va need g.windows

/-- Reading the pieces of a virtual range, whose pages have to allow `need`: for an update that counts as a write this is W (R352, R513). -/
def agentReadPieces (s : State) (g : Agent) (need : Need) (base : Word) (va0 : Nat) (ps : List (Nat × Nat)) : RowOut :=
  match ps with
  | [] => .ok []
  | (va, n) :: r =>
    match agentWalk s g va need with
    | .page pa =>
      if sectorBad s pa n then .fail 2 (base + BitVec.ofNat 64 (va - va0 + firstBad s pa n))
      else
        match agentReadPieces s g need base va0 r with
        | .ok bs => .ok (physRead s pa n ++ bs)
        | o => o
    | .window ra =>
      match agentReadPieces s g need base va0 r with
      | .ok bs => .ok (memRead s.remote ra n ++ bs)
      | o => o
    | .fault => .fail 0 (base + BitVec.ofNat 64 (va - va0))
    | .refused => .fail 1 (base + BitVec.ofNat 64 (va - va0))
    | .hold => .wait

/-- Whether the pieces of a virtual range may be written, or read and written. -/
def agentCheckPieces (s : State) (g : Agent) (need : Need) (base : Word) (va0 : Nat) (ps : List (Nat × Nat)) : RowOut :=
  match ps with
  | [] => .ok []
  | (va, _) :: r =>
    match agentWalk s g va need with
    | .page _ => agentCheckPieces s g need base va0 r
    | .window _ => agentCheckPieces s g need base va0 r
    | .fault => .fail 0 (base + BitVec.ofNat 64 (va - va0))
    | .refused => .fail 1 (base + BitVec.ofNat 64 (va - va0))
    | .hold => .wait

/-- The state with the pieces of a virtual range written. -/
def agentWritePieces (s : State) (g : Agent) (ps : List (Nat × Nat)) (bs : List Byte) : State :=
  match ps with
  | [] => s
  | (va, n) :: r =>
    let t := match agentWalk s g va .write with
      | .page pa => physWrite (dropCopies s pa n) pa (bs.take n)
      | .window ra => { s with remote := memWrite s.remote ra (bs.take n) }
      | _ => s
    agentWritePieces t g r (bs.drop n)

/-- Why an agent may not reach a core, as a fault kind (R33, R252). -/
def agentReach (s : State) (g : Agent) (t : Nat) : Option Nat :=
  if coreCount ≤ t then some 2
  else if g.part ≠ partOf s t ∨ g.part.isNone then some 1
  else if !(mapOf s t).bound || (getCore s t).state == .killed then some 2
  else none

/-- Reading a range for an agent. -/
def agentRead (s : State) (g : Agent) (a : Word) (n : Nat) : RowOut :=
  match placeOf g.core a with
  | .spad off => if coreCount ≤ g.core then .fail 1 a else spadRow s g.core off n a
  | .peer t off =>
    match agentReach s g t with
    | some k => .fail k a
    | none => spadRow s t off n a
  | .virt va => if 2 ^ 48 < va + n then .fail 1 (a + BitVec.ofNat 64 (2 ^ 48 - va)) else agentReadPieces s g .read a va (virtPieces va n)
  | .none => .fail 1 a

/-- Whether an agent may write a range. -/
def agentCheck (s : State) (g : Agent) (a : Word) (n : Nat) : RowOut :=
  match placeOf g.core a with
  | .spad off => if coreCount ≤ g.core then .fail 1 a else spadRow s g.core off n a
  | .peer t off =>
    match agentReach s g t with
    | some k => .fail k a
    | none => spadRow s t off n a
  | .virt va =>
    if 2 ^ 48 < va + n then .fail 1 (a + BitVec.ofNat 64 (2 ^ 48 - va)) else agentCheckPieces s g .write a va (virtPieces va n)
  | .none => .fail 1 a

/-- The state with a range written for an agent, where `agentCheck` answers ok. -/
def agentPut (s : State) (g : Agent) (a : Word) (bs : List Byte) : State :=
  match placeOf g.core a with
  | .spad off => spadWrite s g.core off bs
  | .peer t off => spadWrite s t off bs
  | .virt va => agentWritePieces s g (virtPieces va bs.length) bs
  | .none => s

/-- The station port at which an agent's write to an address parks (R407). -/
def agentPort (g : Agent) (a : Word) : Nat := stationOf g.col (a.toNat % 2 ^ 48)

/-- The places that a range names for an agent, in pieces with their lengths (R314). -/
def agentPlaces (s : State) (g : Agent) (a : Word) (n : Nat) : List (CohPlace × Nat) :=
  match placeOf g.core a with
  | .spad off => [((1 + g.core, off), n)]
  | .peer t off => [((1 + t, off), n)]
  | .virt va =>
    (virtPieces va n).filterMap (fun p =>
      match agentWalk s g p.1 .read, agentWalk s g p.1 .write with
      | .page pa, _ => some ((0, pa), p.2)
      | .window ra, _ => some ((5000, ra), p.2)
      | _, .page pa => some ((0, pa), p.2)
      | _, .window ra => some ((5000, ra), p.2)
      | _, _ => none)
  | .none => []

/-- The state after a read of a range for an agent, where `agentRead` answers ok: the lines read have changed as reads change them
(R260-R262); no redirect entry is an engine's (R264). -/
def agentTouch (s : State) (g : Agent) (a : Word) (n : Nat) : State :=
  match placeOf g.core a with
  | .virt va =>
    (virtPieces va n).foldl (fun t p =>
      match agentWalk t g p.1 .read with
      | .page pa => touchLine t none false pa p.2
      | _ => t) s
  | _ => s

/-- An atomic on a word of virtual memory for an agent (R267, R385, R487): the state with the word changed and its old value, or a
failure with its kind, or a wait. -/
def agentAtom (s : State) (g : Agent) (a : Word) (n : Nat) (f : Nat → Nat) : State × RowOut :=
  match placeOf noCore a with
  | .virt va =>
    match agentWalk s g va .both with
    | .page pa =>
      if sectorBad s pa n then (s, .fail 2 a)
      else
        let old := physWord s pa n
        (physWrite (fillRange (dropCopies s pa n) pa n) pa (leBytes n (f old)), .ok (leBytes n old))
    | .window ra => ({ s with remote := memWrite s.remote ra (leBytes n (f (leNat (memRead s.remote ra n)))) }, .ok (memRead s.remote ra n))
    | .fault => (s, .fail 0 a)
    | .refused => (s, .fail 1 a)
    | .hold => (s, .wait)
  | _ => (s, .fail 1 a)

/-- A virtual address with its space (R251). -/
def virtWord (va : Nat) : Word := BitVec.ofNat 64 (4 * 2 ^ 60 + va % 2 ^ 48)

/-- Whether an address names a whole range of space 0x4 (R251). -/
def virtRange (a : Word) (n : Nat) : Bool :=
  match placeOf noCore a with
  | .virt va => decide (va + n ≤ 2 ^ 48)
  | _ => false

end Sys2Proof.Machine
end

