-- ==== Sys2Proof/Machine/Combine.lean ====
section
/-! DEFINITION. Combine buffers at the cache slices: descriptors, slots, arrivals, substitution and release (R477-R490, R496-R499). -/

namespace Sys2Proof.Machine

/-! ### Slices, buffers and descriptors (R478-R480) -/

/-- A slice. -/
def getSlice (s : State) (i : Nat) : CmbSlice := tabGet emptySlice s.slices i

/-- The state with a slice replaced. -/
def setSlice (s : State) (i : Nat) (v : CmbSlice) : State := { s with slices := tabSet s.slices i v }

/-- The combine status word (R493). -/
def cmbStatus (code n bounced late discard : Nat) : Word :=
  packWord [(1, 0), (code, 4), (discard % 2 ^ 12, 12), (late % 2 ^ 12, 24), (bounced % 2 ^ 12, 36), (n % 2 ^ 16, 48)]

/-- The formats of a result (R478). -/
def ofmtOf (c : Nat) : Option Fmt :=
  match fmtOfCode c with
  | some .fp32 => some .fp32
  | some .bf16 => some .bf16
  | some .e4m3 => some .e4m3
  | some .e5m2 => some .e5m2
  | some .e2m1 => some .e2m1
  | some .l6 => some .l6
  | _ => none

/-- The bytes of a result row (R487). -/
def resultBytes (f : Fmt) (cols : Nat) : Nat := (cols * fmtBits f + 7) / 8

/-- Whether the field of a descriptor that names memory is a 48-bit virtual address in space 0x4 with an alignment (R478). -/
def descAddrOk (v align : Nat) : Bool := decide (v % align = 0) && virtRange (BitVec.ofNat 64 v) align

/-- A descriptor from its 64 bytes; none where a field breaks R478. -/
def readDesc (bs : List Byte) : Option CmbDesc :=
  let f (lo n : Nat) : Nat := leNat ((bs.drop lo).take n)
  let tuple := f 43 1 == 1
  match ofmtOf (f 40 1) with
  | none => none
  | some fmt =>
    if f 44 20 ≠ 0 ∨ 1 < f 43 1 ∨ 1 < f 42 1 ∨ 2 < f 41 1 ∨ f 39 1 < 1 ∨ 8 < f 39 1 ∨ f 38 1 ≠ 0 ∨ f 36 2 < 1 ∨ 16384 < f 36 2 ∨ f 24 4 = 0 then none
    else if descAddrOk (f 8 8) 8 = false then none
    else if tuple = true ∧ f 0 8 ≠ 0 then none
    else if tuple = false ∧ (f 32 4 % 64 ≠ 0 ∨ f 32 4 < resultBytes fmt (f 36 2) ∨ descAddrOk (f 16 8) 8 = false ∨ descAddrOk (f 0 8) 64 = false) then none
    else
      some { tupleMode := tuple, eager := f 42 1 == 1, policy := f 41 1, ofmt := fmt, k := f 39 1, cols := f 36 2, opitch := f 32 4,
             linger := f 28 4, timeout := f 24 4, cnt := BitVec.ofNat 64 (f 16 8), rwbase := BitVec.ofNat 64 (f 8 8), obase := BitVec.ofNat 64 (f 0 8) }

/-- The agent of a slice in a buffer's context. -/
def sliceAgent (slice ctx : Nat) : Agent := { unitAgent none ctx false with col := (sliceAt slice).1 }

/-- A slice's buffer of a context and descriptor address. -/
def findBuf (v : CmbSlice) (ctx d : Nat) : Option CmbBuf := v.bufs.find? (fun b => b.ctx == ctx && b.d == d)

/-- The buffers that a slice binds at most (R477). -/
def bufLimit : Nat := 32

/-- The slots of a slice (R477). -/
def slotLimit : Nat := 512

/-- The staging units of a slice: 4 MiB in units of 256 bytes (R477). -/
def stagingUnits : Nat := 16384

/-- The slots of a slice in use, with their keys. -/
def usedSlots (v : CmbSlice) : List (Nat × CmbSlot) := v.slots.filterMap (fun p => p.2.map (fun t => (p.1, t)))

/-- A slot of a slice. -/
def getCmbSlot (v : CmbSlice) (k : Nat) : Option CmbSlot := tabGet none v.slots k

/-- The slice with a slot set or freed. -/
def putCmbSlot (v : CmbSlice) (k : Nat) (t : Option CmbSlot) : CmbSlice := { v with slots := tabSet v.slots k t }

/-- The slots of a buffer. -/
def bufSlots (v : CmbSlice) (ctx d : Nat) : List (Nat × CmbSlot) := (usedSlots v).filter (fun p => p.2.ctx == ctx && p.2.d == d)

/-- The slot of a token. -/
def tokenSlot (v : CmbSlice) (ctx d token : Nat) : Option (Nat × CmbSlot) := (bufSlots v ctx d).find? (fun p => p.2.token == token)

/-- The staging units of a slot of `e` experts (R481). -/
def slotUnits (e cols : Nat) : Nat := e * ((4 * cols + 255) / 256)

/-- The staging units in use: a slot's are returned with its release. -/
def unitsUsed (v : CmbSlice) : Nat :=
  ((usedSlots v).map (fun p =>
    if p.2.state = .linger then 0
    else
      match findBuf v p.2.ctx p.2.d with
      | some b => slotUnits p.2.experts.length b.desc.cols
      | none => 0)).sum

/-! ### Completion and release (R485-R490) -/

/-- The exact quotient of two finite values to 80 bits beyond the divisor, with a sticky bit, for one rounding to FP32. -/
def quotient (n1 : Bool) (m1 : Nat) (e1 : Int) (n2 : Bool) (m2 : Nat) (e2 : Int) : Val :=
  let q := m1 * 2 ^ 120 / m2
  let sticky := if m1 * 2 ^ 120 % m2 = 0 then 0 else 1
  .fin (n1 != n2) (2 * q + sticky) (e1 - e2 - 121)

/-- Division as IEEE 754 gives it (R99, R485). -/
def divVal (x y : Val) : Val :=
  match x, y with
  | .nan, _ => .nan
  | _, .nan => .nan
  | .inf _, .inf _ => .nan
  | .inf a, .fin b _ _ => .inf (a != b)
  | .fin a _ _, .inf b => .fin (a != b) 0 0
  | .fin a m e, .fin b n f => if n = 0 then (if m = 0 then .nan else .inf (a != b)) else quotient a m e b n f

/-- The positions of a slot whose rows have arrived. -/
def arrived (t : CmbSlot) : List Nat := (List.range t.experts.length).filter (fun p => (t.rows.getD p none).isSome)

/-- Positions as a bitmap. -/
def bitsOf (ps : List Nat) : Nat := (ps.map (fun p => 2 ^ p)).sum

/-- The weights of a slot's present positions, with its substitution code (R485); none where no row results. -/
def substWeights (policy : Nat) (t : CmbSlot) (ps : List Nat) : Nat × Option (List (Nat × Val)) :=
  let w (p : Nat) : Val := dec .fp32 (t.weights.getD p 0).toNat
  if ps.length = t.experts.length then (0, some (ps.map (fun p => (p, w p))))
  else if policy = 0 then (1, some (ps.map (fun p => (p, w p))))
  else if policy = 1 ∧ ps ≠ [] then
    let total := sumAsc (ps.map w)
    (2, some (ps.map (fun p => (p, f32v (divVal (w p) total)))))
  else (3, none)

/-- An element of a staged row. -/
def stagedElem (t : CmbSlot) (p j : Nat) : Val := dec .fp32 (((t.rows.getD p none).getD []).getD j 0).toNat

/-- The result row (R486). -/
def resultRow (d : CmbDesc) (t : CmbSlot) (ws : List (Nat × Val)) : List Nat :=
  (List.range d.cols).map (fun j =>
    rnd d.ofmt .rne .dflt 0 (ws.foldl (fun acc w => f32v (addVal false (mulVal w.2 (stagedElem t w.1 j)) acc)) (.fin false 0 0)))

/-- A slot that has become COMPLETE, with its result computed (R485, R486). -/
def completeSlot (d : CmbDesc) (closed : Bool) (t : CmbSlot) : CmbSlot :=
  let ps := arrived t
  let w := substWeights d.policy t ps
  { t with
    state := .complete, subst := w.1, closed := closed, present := if w.2.isSome then bitsOf ps else 0,
    result := match w.2 with | some ws => resultRow d t ws | none => [] }

/-- The state with a slot complete and due for its release; `cycle` marks the event in which it became so (R490). -/
def completeAt (s : State) (i k : Nat) (b : CmbBuf) (closed : Bool) (cycle : Nat) (t : CmbSlot) : State :=
  let t' := { completeSlot b.desc closed t with order := cycle, countdown := 0 }
  push (setSlice s i (putCmbSlot (getSlice s i) k (some t'))) (.combineRelease i k)

/-- The state with a slot freed; waiting opens may then be served (R479, R496). -/
def freeSlotAt (s : State) (i k : Nat) : State :=
  let v := tidySlice (putCmbSlot (getSlice s i) k none)
  let t := setSlice s i v
  if v.waiting.isEmpty then t else push t (.openWaitServe i)

/-- The release word (R487). -/
def releaseWord (t : CmbSlot) (outfail : Bool) : Word :=
  packWord [(1, 0), (t.subst, 8), (t.closed.toNat, 10), (t.late.toNat, 11), (outfail.toNat, 12), (2 ^ t.experts.length - 1, 16), (t.present, 24),
    (t.token, 32)]

/-- Whether a slot is released in the order of its buffer (R490): where it is ORDERED no lower token is OPEN or COMPLETE; where it is
EAGER none is COMPLETE that became so in an earlier cycle, or in the same one with a lower token. -/
def releaseTurn (v : CmbSlice) (b : CmbBuf) (t : CmbSlot) : Bool :=
  !(bufSlots v t.ctx t.d).any (fun p =>
    if b.desc.eager then
      p.2.state == .complete && (decide (p.2.order < t.order) || (p.2.order == t.order && decide (p.2.token < t.token)))
    else decide (p.2.token < t.token) && p.2.state != .linger)

/-- Whether a tuple of an earlier release of a slice's buffers is still on its way, here or to another module's home (R487). -/
def depositing (s : State) (i ctx : Nat) : Bool :=
  let mine (r : KeyReq) : Bool :=
    match r.issuer with
    | .combine j c _ => i == j && c == ctx
    | _ => false
  s.keyReqs.any mine || s.deliveries.any (fun d => mine d.req) || s.waidric.any (fun w => w.2.outstanding.any (fun e => mine e.2))

/-- Packed elements as bytes (R90, R183). -/
def packElems (f : Fmt) (vs : List Nat) : List Byte :=
  leBytes (resultBytes f vs.length) (((List.range vs.length).zip vs).map (fun p => p.2 * 2 ^ (p.1 * fmtBits f))).sum

/-- The bytes of a result row as written: the other nibble of the last byte keeps its bits (R184). -/
def rowOver (s : State) (g : Agent) (a : Word) (f : Fmt) (vs : List Nat) : List Byte :=
  let bs := packElems f vs
  if fmtBits f * vs.length % 8 = 0 then bs
  else
    match agentWalk s g ((a.toNat + bs.length - 1) % 2 ^ 48) .write, bs.getLast? with
    | .page pa, some b => bs.dropLast ++ [(physByte s pa &&& 0xF0) ||| (b &&& 0x0F)]
    | _, _ => bs

/-- The address of a token's result row (R487). -/
def resultAddr (b : CmbBuf) (t : CmbSlot) : Word := b.desc.obase + BitVec.ofNat 64 (t.token * b.desc.opitch)

/-- The state with the result row written, and whether that failed (R487, R488). -/
def putResult (s : State) (i : Nat) (b : CmbBuf) (t : CmbSlot) : State × Bool :=
  if b.desc.tupleMode || t.subst == 3 then (s, false)
  else
    let g := sliceAgent i b.ctx
    let a := resultAddr b t
    let bs := rowOver s g a b.desc.ofmt t.result
    match agentCheck s g a bs.length with
    | .ok _ => (agentPut s g a bs, false)
    | _ => (s, true)

/-- The payload and shape word of a release tuple (R487). -/
def tuplePayload (b : CmbBuf) (t : CmbSlot) : List Byte × BitVec 32 :=
  if t.subst = 3 then ([], 0)
  else (packElems b.desc.ofmt t.result, if 1024 < b.desc.cols then 0 else BitVec.ofNat 32 (fmtCode b.desc.ofmt + 16 + b.desc.cols * 2 ^ 13))

/-- The key of a release tuple (R487). -/
def tupleKey (b : CmbBuf) (t : CmbSlot) (word : Word) : BitVec 256 :=
  BitVec.ofNat 256 (b.desc.cnt.toNat + t.token * 2 ^ 64 + word.toNat * 2 ^ 96)

/-- The address of a token's release word. -/
def wordAddr (b : CmbBuf) (token : Nat) : Word := b.desc.rwbase + BitVec.ofNat 64 (8 * token)

/-- The state after the third step of a release: the counter, or the tuple (R487, R488). -/
def announce (s : State) (i : Nat) (b : CmbBuf) (t : CmbSlot) (word : Word) : State :=
  if b.desc.tupleMode then
    let p := tuplePayload b t
    let key := tupleKey b t word
    sendReq s (.combine i b.ctx (wordAddr b t.token)) noCore b.ctx (keyHash key) (.put key p.2 p.1) none
  else
    match agentAtom s (sliceAgent i b.ctx) b.desc.cnt 8 (· + 1) with
    | (u, .ok _) => u
    | (u, _) => count u (.releaseFails i) 1

/-- The positions of which a row has arrived in time or late. -/
def seenBits (t : CmbSlot) : List Nat := arrived t ++ t.lateBits

/-- Whether every expected row has been seen. -/
def allSeen (t : CmbSlot) : Bool := (List.range t.experts.length).all (fun p => (seenBits t).contains p)

/-- Whether a page that a release writes is held, so that the release waits: that is neither a fault nor a refusal (R488, R516). -/
def releaseHeld (s : State) (i : Nat) (b : CmbBuf) (t : CmbSlot) : Bool :=
  let g := sliceAgent i b.ctx
  let row := if b.desc.tupleMode || t.subst == 3 then .ok [] else agentCheck s g (resultAddr b t) (resultBytes b.desc.ofmt b.desc.cols)
  row == .wait || agentCheck s g (wordAddr b t.token) 8 == .wait || (!b.desc.tupleMode && agentCheck s g b.desc.cnt 8 == .wait)

/-- COMBINE_RELEASE: the row, the word, and the counter or tuple, in this order; then the slot is FREE or lingers, with its countdown
loaded with LINGER and its staging returned (R483, R487, R488, R490, R496). -/
def execCombineRelease (slice slot : Nat) (s : State) : Host.Outcome State Fault Refusal :=
  let v := getSlice s slice
  match getCmbSlot v slot with
  | none => done s
  | some t =>
    match findBuf v t.ctx t.d with
    | none => done s
    | some b =>
      if t.state ≠ .complete ∨ releaseTurn v b t = false then done s
      else if depositing s slice t.ctx || releaseHeld s slice b t then done (push s (.combineRelease slice slot))
      else
        let r := putResult s slice b t
        let word := releaseWord t r.2
        let g := sliceAgent slice b.ctx
        let a := wordAddr b t.token
        let u := match agentCheck r.1 g a 8 with
          | .ok _ => agentPut r.1 g a (leBytes 8 word.toNat)
          | _ => count r.1 (.releaseFails slice) 1
        let u := announce u slice b t word
        let next := ((bufSlots v t.ctx t.d).filter (fun p => p.2.state == .complete && p.1 != slot)).map (fun p => Event.combineRelease slice p.1)
        let u := pushAll u next
        if t.subst ≠ 0 ∧ allSeen t = false ∧ 0 < b.desc.linger then
          let z := setSlice u slice (putCmbSlot (getSlice u slice) slot (some { t with state := .linger, countdown := b.desc.linger }))
          done (if v.waiting.isEmpty then z else push z (.openWaitServe slice))
        else done (freeSlotAt u slice slot)

/-- The OPEN slots that one CMBOPEN opened, as theirs are the countdowns that reach 0 in the same cycle (R483, R484). -/
def openedWith (v : CmbSlice) (t : CmbSlot) : List (Nat × CmbSlot) :=
  (bufSlots v t.ctx t.d).filter (fun p => p.2.opening == t.opening && p.2.state == .opened)

/-- COMBINE_TIMEOUT: the countdown of an OPEN slot, loaded with TIMEOUT at its open, has reached 0, and so have those of the other slots
of its CMBOPEN (R483, R485). Which slice cycle an event falls in is the order of the events: what arrives in the cycle in which a
countdown reaches 0 stands before this event (R484; log 4). -/
def execCombineTimeout (slice slot : Nat) (s : State) : Host.Outcome State Fault Refusal :=
  let v := getSlice s slice
  match getCmbSlot v slot with
  | none => done s
  | some t =>
    match findBuf v t.ctx t.d with
    | some b =>
      if t.state = .opened then
        done (bumpId ((openedWith v t).foldl (fun u p => completeAt u slice p.1 b false s.nextId p.2) s))
      else done s
    | none => done s

/-- LINGER_EXPIRE: a lingering slot becomes FREE (R483). -/
def execLingerExpire (slice slot : Nat) (s : State) : Host.Outcome State Fault Refusal :=
  match getCmbSlot (getSlice s slice) slot with
  | some t => if t.state = .linger then done (freeSlotAt s slice slot) else done s
  | none => done s

/-! ### Rows (R483, R489, R497) -/

/-- What becomes of a row that arrives (R483, R493). -/
inductive RowFate where
  | accepted
  | noslot
  | late
  | discarded
  deriving DecidableEq, Repr

/-- The position of an expert in a slot. -/
def positionOf (t : CmbSlot) (x : Nat) : Option Nat := (List.range t.experts.length).find? (fun p => t.experts.getD p 0 == x)

/-- The state with LATE set for a token, in the word that has been written or in the slot (R489). -/
def markLate (s : State) (i k : Nat) (b : CmbBuf) (t : CmbSlot) : State :=
  if t.state = .linger then
    let u := orWord s i b.ctx (wordAddr b t.token) 0x800
    if allSeen t then freeSlotAt u i k else setSlice u i (putCmbSlot (getSlice u i) k (some { t with late := true }))
  else setSlice s i (putCmbSlot (getSlice s i) k (some { t with late := true }))

/-- A row of expert `x` at its token's slot (R483); `cycle` marks the command that brought it. -/
def arrivalAt (s : State) (i ctx d x token cycle : Nat) (row : List (BitVec 32)) : State × RowFate :=
  let v := getSlice s i
  match findBuf v ctx d, tokenSlot v ctx d token with
  | some b, some (k, t) =>
    (match positionOf t x with
     | none => (count s (.strays i) 1, .discarded)
     | some p =>
       if (seenBits t).contains p then (count s (.duplicates i) 1, .discarded)
       else if t.state = .opened then
         let t' := { t with rows := t.rows.set p (some row) }
         if (arrived t').length = t.experts.length then (completeAt s i k b false cycle t', .accepted)
         else (setSlice s i (putCmbSlot v k (some t')), .accepted)
       else (markLate (count s (.lateCmb i) 1) i k b { t with lateBits := t.lateBits ++ [p] }, .late))
  | _, _ => (count s (.noslot i) 1, .noslot)

/-- The counts of a CMBPUT: accepted, bounced, late, discarded. -/
def tallyRow (n : Nat × Nat × Nat × Nat) (f : RowFate) : Nat × Nat × Nat × Nat :=
  match f with
  | .accepted => (n.1 + 1, n.2.1, n.2.2.1, n.2.2.2)
  | .noslot => (n.1, n.2.1 + 1, n.2.2.1, n.2.2.2)
  | .late => (n.1, n.2.1, n.2.2.1 + 1, n.2.2.2)
  | .discarded => (n.1, n.2.1, n.2.2.1, n.2.2.2 + 1)

/-- The rows of a CMBPUT, one at a time (R497). -/
def putRows (s : State) (i ctx d x : Nat) (rows : List (Int × List (BitVec 32))) : State × Nat × Nat × Nat × Nat :=
  rows.foldl (fun (acc : State × Nat × Nat × Nat × Nat) r =>
    if r.1 < 0 then acc
    else if 65535 < r.1 then (count acc.1 (.noslot i) 1, tallyRow acc.2 .noslot)
    else
      let o := arrivalAt acc.1 i ctx d x r.1.toNat s.nextId r.2
      (o.1, tallyRow acc.2 o.2)) (s, 0, 0, 0, 0)

/-- Whether a row of a CMBPUT marks a release word whose page is held, so that the command waits (R489, R516). -/
def lateHeld (s : State) (i ctx d x : Nat) (rows : List (Int × List (BitVec 32))) : Bool :=
  let v := getSlice s i
  rows.any (fun r =>
    match findBuf v ctx d, tokenSlot v ctx d r.1.toNat with
    | some b, some (_, t) =>
      decide (0 ≤ r.1) && t.state == .linger && orHeld s i ctx (wordAddr b t.token) &&
        (match positionOf t x with
         | some p => !(seenBits t).contains p
         | none => false)
    | _, _ => false)

/-! ### Commands at the slice (R480, R491, R496, R498) -/

/-- The combine command of a name. -/
def findCmb (s : State) (n : Nat) : Option CmbMsg := s.cmbMsgs.find? (fun m => m.id == n)

/-- The state without a combine command on its way. -/
def dropCmb (s : State) (n : Nat) : State := { s with cmbMsgs := s.cmbMsgs.filter (fun m => m.id != n) }

/-- Whether a command waits for its core's earlier commands or for its fork release (R326, R491). -/
def cmbWaits (s : State) (m : CmbMsg) : Bool :=
  s.cmbMsgs.any (fun r => r.core == m.core && decide (r.id < m.id)) || (m.rel && !relDone s m.core m.serial m.id 3)

/-- The place of a command's descriptor: its slice and physical address, a failure to reach it, or a wait (R478). -/
inductive CmbPlace where
  | at (slice pa : Nat)
  | fail
  | wait
  deriving DecidableEq, Repr

/-- The slice that performs the commands of a descriptor address (R259, R478). -/
def cmbPlace (s : State) (core ctx d : Nat) : CmbPlace :=
  match walk s (stationOf (columnOf s core) d) ctx d .read false with
  | .page pa => .at (sliceOf pa) pa
  | .hold => .wait
  | _ => .fail

/-- The buffer that a command finds or would bind, or the code with which it ends (R480). -/
def bindBuf (s : State) (i pa ctx d : Nat) : Nat ⊕ CmbBuf :=
  let v := getSlice s i
  match findBuf v ctx d with
  | some b => .inr b
  | none =>
    if sectorBad s pa 64 then .inl 2
    else
      match readDesc (physRead s pa 64) with
      | none => .inl 5
      | some desc => if bufLimit ≤ v.bufs.length then .inl 1 else .inr { ctx := ctx, d := d, desc := desc }

/-- A slice with a buffer bound. -/
def withBuf (v : CmbSlice) (b : CmbBuf) : CmbSlice :=
  if (findBuf v b.ctx b.d).isSome then v else { v with bufs := v.bufs ++ [b] }

/-- The pairs of a token that are present, ascending by index (R496). -/
def presentPairs (row : List (Int × BitVec 32)) : List (Nat × BitVec 32) :=
  (row.filterMap (fun p => if p.1 < 0 then none else some (p.1.toNat, p.2))).insertionSort (fun a b => a.1 ≤ b.1)

/-- Whether the operands of a CMBOPEN are in range (R496). -/
def openArgsOk (b : CmbBuf) (f n k : Nat) (pairs : List (List (Int × BitVec 32))) : Bool :=
  decide (0 < n) && decide (f + n ≤ 65536) && k == b.desc.k &&
    pairs.all (fun row =>
      let xs := row.filterMap (fun p => if p.1 < 0 then none else some p.1)
      xs.all (fun x => decide (x ≤ 1023)) && decide xs.Nodup)

/-- Whether a token of a range has a slot (R496). -/
def rangeInUse (v : CmbSlice) (ctx d f n : Nat) : Bool :=
  (bufSlots v ctx d).any (fun p => decide (f ≤ p.2.token) && decide (p.2.token < f + n))

/-- Whether a slice has room for the slots of a range (R481, R496). -/
def openFits (v : CmbSlice) (b : CmbBuf) (pairs : List (List (Int × BitVec 32))) : Bool :=
  decide ((usedSlots v).length + pairs.length ≤ slotLimit) &&
    decide (unitsUsed v + (pairs.map (fun row => slotUnits (presentPairs row).length b.desc.cols)).sum ≤ stagingUnits)

/-- A slot as it is allocated, its countdown loaded with TIMEOUT (R481, R483, R496). -/
def newCmbSlot (b : CmbBuf) (token opening : Nat) (row : List (Int × BitVec 32)) : CmbSlot :=
  let ps := presentPairs row
  { ctx := b.ctx, d := b.d, token := token, experts := ps.map (·.1), weights := ps.map (·.2), rows := List.replicate ps.length none, lateBits := [],
    state := .opened, subst := 0, closed := false, late := false, result := [], present := 0,
    countdown := b.desc.timeout, opening := opening, order := 0 }

/-- The lowest slot of a slice that is FREE. -/
def freeKey (v : CmbSlice) : Nat := ((List.range slotLimit).find? (fun k => (getCmbSlot v k).isNone)).getD 0

/-- The state with the slots of a range allocated; one that expects nothing is COMPLETE at once (R483, R496). -/
def allocSlots (s : State) (i : Nat) (b : CmbBuf) (token opening : Nat) (pairs : List (List (Int × BitVec 32))) : State :=
  match pairs with
  | [] => s
  | row :: r =>
    let v := getSlice s i
    let k := freeKey v
    let t := newCmbSlot b token opening row
    let u := setSlice s i (putCmbSlot v k (some t))
    allocSlots (if t.experts.isEmpty then completeAt u i k b false opening t else u) i b (token + 1) opening r

/-- How an open ends at its slice: a status, or a wait in the open-wait list (R496). -/
inductive OpenFate where
  | code (n : Nat)
  | wait
  deriving DecidableEq, Repr

/-- The state after an open has been tried: allocated, ended with a code, or left to wait (R480, R496). `waiting` says that the open is
the first of the open-wait list. -/
def tryOpen (s : State) (i : Nat) (b : CmbBuf) (m : CmbMsg) (f n : Nat) (blk : Bool) (pairs : List (List (Int × BitVec 32)))
    (waiting : Bool) : State × OpenFate :=
  let v := getSlice s i
  let behind := !waiting && !v.waiting.isEmpty
  if behind && blk then (s, .wait)
  else if rangeInUse v m.ctx m.d f n then (s, .code 4)
  else if behind then (s, .code 1)
  else if openFits v b pairs then (bumpId (allocSlots (setSlice s i (withBuf v b)) i b f s.nextId pairs), .code 0)
  else (s, if blk then .wait else .code 1)

/-- The status word of an open (R493). -/
def openStatus (code n : Nat) : Word := cmbStatus code (if code = 0 then n else 0) 0 0 0

/-- SLICE_CMBOPEN_ARRIVE: an open that would wait for an activation that has ended is withdrawn (R480, R496). -/
def execSliceCmbopenArrive (n : Nat) (s : State) : Host.Outcome State Fault Refusal :=
  match findCmb s n with
  | none => done s
  | some m =>
    match m.ask with
    | .open f cnt blk k pairs =>
      if cmbWaits s m then done (push s (.sliceCmbopenArrive n))
      else
        match cmbPlace s m.core m.ctx m.d with
        | .wait => done (push s (.sliceCmbopenArrive n))
        | .fail => done (endOp (dropCmb s n) m.op (openStatus 2 0))
        | .at i pa =>
          let t := dropCmb s n
          match bindBuf t i pa m.ctx m.d with
          | .inl code => done (endOp t m.op (openStatus code 0))
          | .inr b =>
            if !openArgsOk b f cnt k pairs then done (endOp t m.op (openStatus 5 0))
            else
              match tryOpen t i b m f cnt blk pairs false with
              | (u, .code code) => done (endOp u m.op (openStatus code cnt))
              | (u, .wait) =>
                if !hasAct s m.core m.serial then done (dropOp u m.op)
                else
                let v := withBuf (getSlice u i) b
                done (setSlice u i { v with waiting := v.waiting ++ [{ m with slice := i }] })
    | _ => done s

/-- OPEN_WAIT_SERVE: the first waiting open is served once there is room (R496). -/
def execOpenWaitServe (slice : Nat) (s : State) : Host.Outcome State Fault Refusal :=
  let v := getSlice s slice
  match v.waiting with
  | [] => done s
  | m :: rest =>
    match m.ask, findBuf v m.ctx m.d with
    | .open f cnt blk _ pairs, some b =>
      (match tryOpen s slice b m f cnt blk pairs true with
       | (_, .wait) => done s
       | (u, .code code) =>
         let t := setSlice u slice (tidySlice { getSlice u slice with waiting := rest })
         done (push (endOp t m.op (openStatus code cnt)) (.openWaitServe slice)))
    | _, _ => done s

/-- SLICE_CMBPUT_ARRIVE (R497). -/
def execSliceCmbputArrive (n : Nat) (s : State) : Host.Outcome State Fault Refusal :=
  match findCmb s n with
  | none => done s
  | some m =>
    match m.ask with
    | .put x cols rows =>
      if cmbWaits s m then done (push s (.sliceCmbputArrive n))
      else
        match cmbPlace s m.core m.ctx m.d with
        | .wait => done (push s (.sliceCmbputArrive n))
        | .fail => done (endOp (dropCmb s n) m.op (cmbStatus 2 0 0 0 0))
        | .at i _ =>
          let t := dropCmb s n
          let bad := match findBuf (getSlice t i) m.ctx m.d with
            | some b => cols != b.desc.cols
            | none => false
          if bad then done (endOp t m.op (cmbStatus 5 0 0 0 0))
          else
            if lateHeld t i m.ctx m.d x rows then done (push s (.sliceCmbputArrive n))
            else
            let o := putRows t i m.ctx m.d x rows
            done (endOp (bumpId o.1) m.op (cmbStatus (if o.2.2.1 = 0 then 0 else 6) o.2.1 o.2.2.1 o.2.2.2.1 o.2.2.2.2))
    | _ => done s

/-- The state after the OPEN slots of a range have been forced, with their number (R498). -/
def forceSlots (s : State) (i ctx d : Nat) (tokens : List Nat) : State × Nat :=
  tokens.foldl (fun (acc : State × Nat) token =>
    let v := getSlice acc.1 i
    match findBuf v ctx d, tokenSlot v ctx d token with
    | some b, some (k, t) => if t.state = .opened then (completeAt acc.1 i k b true s.nextId t, acc.2 + 1) else acc
    | _, _ => acc) (s, 0)

/-- The tokens of a buffer's slots in a range, ascending. -/
def tokensIn (v : CmbSlice) (ctx d f c : Nat) : List Nat :=
  (((bufSlots v ctx d).map (fun p => p.2.token)).filter (fun t => decide (f ≤ t) && decide (t < f + c))).insertionSort (· ≤ ·)

/-- SLICE_CMBCLOSE_ARRIVE (R498). -/
def execSliceCmbcloseArrive (n : Nat) (s : State) : Host.Outcome State Fault Refusal :=
  match findCmb s n with
  | none => done s
  | some m =>
    match m.ask with
    | .close f c =>
      if cmbWaits s m then done (push s (.sliceCmbcloseArrive n))
      else if c = 0 ∨ 65536 < f + c then done (endOp (dropCmb s n) m.op (cmbStatus 5 0 0 0 0))
      else
        match cmbPlace s m.core m.ctx m.d with
        | .wait => done (push s (.sliceCmbcloseArrive n))
        | .fail => done (endOp (dropCmb s n) m.op (cmbStatus 2 0 0 0 0))
        | .at i _ =>
          let o := forceSlots (dropCmb s n) i m.ctx m.d (tokensIn (getSlice s i) m.ctx m.d f c)
          done (endOp (bumpId o.1) m.op (cmbStatus 0 o.2 0 0 0))
    | _ => done s

/-! ### The instructions (R495-R499) -/

/-- The combine commands of a core in flight at most (R495). -/
def cmbLimit : Nat := 8

/-- Whether a combine command waits at issue (R495). -/
def cmbBusy (t : State) (c : Nat) : Bool :=
  holdsStores (getCtx t c) || decide (cmbLimit ≤ (t.ops.filter (fun o => o.core == c && o.body == .cmb)).length)

/-- The descriptor address and the token index of a combine operand (R495). -/
def cmbOperand (v : Word) : Nat × Nat := (v.toNat % 2 ^ 48, v.toNat / 2 ^ 48)

/-- The event with which a combine command arrives at its slice. -/
def cmbEvent (a : CmbAsk) (n : Nat) : Event :=
  match a with
  | .open _ _ _ _ _ => .sliceCmbopenArrive n
  | .put _ _ _ => .sliceCmbputArrive n
  | .close _ _ => .sliceCmbcloseArrive n
  | .stat _ => .sliceCmbcloseArrive n

/-- The state with a combine command of the running task on its way; a dual copy's ends with BADARG (R557). -/
def sendCmb (t : State) (i : Issued) (d : BitVec 5) (dd : Nat) (rel : Bool) (ask : CmbAsk) : State :=
  let c := i.core
  let x := getCtx t c
  let u := modCtx t c setCommit
  if x.sys.dual then modCtx u c (fun y => setStatus y d (cmbStatus 5 0 0 0 0))
  else
    let op := u.nextId
    let v := startOp u c d i.upc .cmb
    let m : CmbMsg :=
      { id := v.nextId, core := c, serial := serialOf x, op := op, ctx := ctxOf t c, d := dd, slice := 0, rel := rel, ask := ask }
    push (bumpId { v with cmbMsgs := v.cmbMsgs ++ [m] }) (cmbEvent ask m.id)

/-- The pairs of a CMBOPEN, row by row (R496). -/
def readPairs (m : Memory) (w x : Tile) : List (List (Int × BitVec 32)) :=
  (List.range w.rows).map (fun i => (List.range w.cols).map (fun j =>
    (sextNat 32 (srcElem m x i j), BitVec.ofNat 32 (srcElem m w i j))))

/-- CMBOPEN (R495, R496). -/
def execCmbopen (d a b : BitVec 5) (tn : BitVec 4) (k : BitVec 1) (s : State) : Host.Outcome State Fault Refusal :=
  issue s (plainSpec [a, b] [d]) (fun i t =>
    let c := i.core
    let x := getCtx t c
    let o := cmbOperand (regVal x a)
    let n := (regVal x b).toNat % 2 ^ 10
    if cmbBusy t c || !x.seq.isEmpty then none
    else
      match getTile x tn, getTile x (tn + 1) with
      | none, _ => some (trapFrom t i causeShape 4 0)
      | _, none => some (trapFrom t i causeShape 5 0)
      | some w, some y =>
        if w.rows ≠ y.rows ∨ w.cols ≠ y.cols then some (trapFrom t i causeShape 5 0)
        else if 0 < n ∧ w.rows ≠ n then some (trapFrom t i causeShape 4 0)
        else if w.fmt ≠ .fp32 then some (trapFrom t i causeFormat 4 0)
        else if y.fmt ≠ .i32 then some (trapFrom t i causeFormat 5 0)
        else if o.1 % 64 ≠ 0 then some (trapFrom t i causeMisalign 0 (BitVec.ofNat 64 o.1))
        else if !tileReady t c w false || !tileReady t c y false then none
        else some (sendCmb t i d o.1 true (.open o.2 n (k == 1) w.cols (readPairs (getCore t c).spad w y))))

/-- The rows of a CMBPUT with their tokens, decoded exactly into FP32 (R486, R497). -/
def readRows (m : Memory) (w y : Tile) : List (Int × List (BitVec 32)) :=
  (List.range w.vrows).map (fun i =>
    (sextNat 32 (srcElem m y i 0), (List.range w.cols).map (fun j => BitVec.ofNat 32 (f32 (dec w.fmt (srcElem m w i j))))))

/-- CMBPUT: its rows are read at issue, once its fork release has been done (R495, R497). -/
def execCmbput (d a b : BitVec 5) (tn : BitVec 4) (s : State) : Host.Outcome State Fault Refusal :=
  issue s (engineSpec [a, b] d) (fun i t =>
    let c := i.core
    let x := getCtx t c
    let o := cmbOperand (regVal x a)
    let e := (regVal x b).toNat % 2 ^ 10
    if cmbBusy t c || !x.seq.isEmpty then none
    else
      match getTile x tn, getTile x (tn + 1) with
      | none, _ => some (trapFrom t i causeShape 4 0)
      | _, none => some (trapFrom t i causeShape 5 0)
      | some w, some y =>
        if y.rows ≠ w.rows ∨ y.cols ≠ 1 then some (trapFrom t i causeShape 5 0)
        else if fmtIsFloat w.fmt = false then some (trapFrom t i causeFormat 4 0)
        else if y.fmt ≠ .i32 then some (trapFrom t i causeFormat 5 0)
        else if o.1 % 64 ≠ 0 then some (trapFrom t i causeMisalign 0 (BitVec.ofNat 64 o.1))
        else if !tileReady t c w false || !tileReady t c y false || (modeRel i.xmod && !relDone t c (serialOf x) t.nextId 3) then none
        else some (sendCmb t i d o.1 (modeRel i.xmod) (.put e w.cols (readRows (getCore t c).spad w y))))

/-- CMBCLOSE (R495, R498). -/
def execCmbclose (d a b : BitVec 5) (s : State) : Host.Outcome State Fault Refusal :=
  issue s (plainSpec [a, b] [d]) (fun i t =>
    let c := i.core
    let x := getCtx t c
    let o := cmbOperand (regVal x a)
    if cmbBusy t c then none
    else if o.1 % 64 ≠ 0 then some (trapFrom t i causeMisalign 0 (BitVec.ofNat 64 o.1))
    else some (sendCmb t i d o.1 true (.close o.2 ((regVal x b).toNat % 2 ^ 17))))

/-- The state code of a slot (R482). -/
def cmbStateCode (c : CmbState) : Nat :=
  match c with
  | .opened => 1
  | .complete => 2
  | .linger => 3

/-- The cycles left of a countdown when a slot is read: how many slice cycles have passed since it was loaded or last read is a free
value, and at least one is left, or the slot would have left its state (R483, R484, log 4, log 6). -/
def cyclesLeft (t : CmbSlot) (free : Nat) : Nat := t.countdown - free % t.countdown

/-- The word that CMBSTAT writes for a slot (R499). -/
def cmbStatWord (t : CmbSlot) : Word :=
  packWord [(1, 0), (cmbStateCode t.state, 4), (t.subst, 8), (t.closed.toNat, 10), (t.late.toNat, 11), (2 ^ t.experts.length - 1, 16),
    (bitsOf (seenBits t), 24), (if t.state = .complete then 0 else t.countdown % 2 ^ 32, 32)]

/-- CMBSTAT: it waits for the core's earlier commands and its fork release, and reads the slot at one moment (R491, R499). -/
def execCmbstat (d a : BitVec 5) (s : State) : Host.Outcome State Fault Refusal :=
  issue s (plainSpec [a] [d]) (fun i t =>
    let c := i.core
    let x := getCtx t c
    let o := cmbOperand (regVal x a)
    let put (u : State) (v : Word) : State := modCtx u c (fun y => setStatus y d v)
    if cmbBusy t c then none
    else if o.1 % 64 ≠ 0 then some (trapFrom t i causeMisalign 0 (BitVec.ofNat 64 o.1))
    else if t.cmbMsgs.any (fun m => m.core == c) || !relDone t c (serialOf x) t.nextId 3 then none
    else
      match cmbPlace t c (ctxOf t c) o.1 with
      | .wait => none
      | .fail => some (put t (BitVec.allOnes 64))
      | .at j pa =>
        let v := getSlice t j
        match findBuf v (ctxOf t c) o.1, tokenSlot v (ctxOf t c) o.1 o.2 with
        | some _, some (k, slot) =>
          let now := { slot with countdown := cyclesLeft slot (freeVal t) }
          some (put (bumpFree (setSlice t j (putCmbSlot v k (some now)))) (cmbStatWord now))
        | some _, none => some (put t 1)
        | none, _ => some (put t (if sectorBad t pa 64 then BitVec.allOnes 64 else 1)))

end Sys2Proof.Machine
end

