-- ==== Sys2Proof/Machine/Stack.lean ====
section
/-! DEFINITION. The stack engines: MSIRED, MSISCAT and MSTOPK, their packets and their ends (R338-R352). -/

namespace Sys2Proof.Machine

/-! ### Tables and command areas (R339-R342) -/

/-- The header of a table: format, elements per row and rows; none where it is malformed (R339). -/
def tableHeader (bs : List Byte) : Option (Fmt × Nat × Nat) :=
  let f (lo n : Nat) : Nat := leNat ((bs.drop lo).take n)
  let n := f 4 2
  if f 7 57 ≠ 0 ∨ 1 < f 6 1 ∨ n < 1 ∨ (if f 6 1 = 0 then 1024 else 2048) < n ∨ f 0 4 < 1 then none
  else some (if f 6 1 = 0 then .fp32 else .bf16, n, f 0 4)

/-- The lines of a row (R339). -/
def rowLines (f : Fmt) (n : Nat) : Nat := (n * fmtBits f + 2047) / 2048

/-- The offset of byte `o` of row `r` from the table's start (R340). -/
def rowOffset (lines r o : Nat) : Nat := 4096 + (r / 16 * lines + o / 256) * 4096 + r % 16 * 256 + o % 256

/-- The pieces of a row, one for each line: address and length (R340). -/
def rowPieces (m : MsOp) (r : Nat) : List (Word × Nat) :=
  let bytes := m.cols * fmtBits m.fmt / 8
  let lines := rowLines m.fmt m.cols
  (List.range lines).map (fun l => (m.table + BitVec.ofNat 64 (rowOffset lines r (256 * l)), Nat.min 256 (bytes - 256 * l)))

/-- The pitch of the data rows of a command area (R341). -/
def areaPitch (cols : Nat) : Nat := (4 * cols + 63) / 64 * 64

/-- The address of a data row of the command area. -/
def areaRow (m : MsOp) (i : Nat) : Word :=
  match m.kind with
  | .topk _ => m.area + BitVec.ofNat 64 (64 + 64 * i)
  | _ => m.area + BitVec.ofNat 64 (64 + i * areaPitch m.cols)

/-- The bytes of a command area with its rows (R341). -/
def areaBytes (m : MsOp) : Nat :=
  match m.kind with
  | .topk _ => 64 + 64 * m.rowsN
  | _ => 64 + m.bags.length * areaPitch m.cols

/-- The MS status word (R342). -/
def msStatus (code skipped packets : Nat) : Word := packWord [(1, 0), (code, 4), (skipped % 2 ^ 16, 16), (packets % 2 ^ 16, 32)]

/-- The indices of an operation in list order (R345). -/
def msList (m : MsOp) : List Int := m.bags.flatten

/-- The bag of a position of the list. -/
def bagAt (m : MsOp) (p : Nat) : Nat := p / (m.bags.headD []).length

/-- The pieces of a list, `n` elements each. -/
def chunksOf (fuel n : Nat) (l : List Nat) : List (List Nat) :=
  match fuel with
  | 0 => []
  | f + 1 => if l.isEmpty then [] else l.take n :: chunksOf f n (l.drop n)

/-- The packets of an operation as positions of its list: per stack, up to 24 in list order (R346); of MSTOPK, the rows. How the
packets of different stacks are numbered among themselves, which says what failed packet is the lowest-numbered, the rules leave open: the
model numbers them stack by stack, in ascending order (DESIGN CHOICE, log 94). -/
def packetsOf (m : MsOp) : List (List Nat) :=
  match m.kind with
  | .topk _ => (List.range m.rowsN).map (fun r => [r])
  | _ =>
    let xs := msList m
    let on (st : Nat) : List Nat := (List.range xs.length).filter (fun p => decide (0 ≤ xs.getD p 0) && (xs.getD p 0).toNat % 16 == st)
    ((List.range 16).map (fun st => chunksOf xs.length 24 (on st))).flatten

/-- The agent of an operation; stack engines reach no window (R340, R514). Where a kill has stopped the operation, the scratchpad of
its core is gone (R352). -/
def msAgent (s : State) (o : Op) (m : MsOp) : Agent :=
  { core := if m.stopped then noCore else o.core, part := partOf s o.core, ctx := m.ctx, col := columnOf s o.core, windows := false }

/-! ### The start (R344) -/

/-- What the check of an operation decides. -/
inductive MsCheck where
  | wait
  | park (a : Word)
  | code (n : Nat)
  | ok (m : MsOp)

/-- The header is read and the operands are checked (R344). -/
def checkMs (s : State) (o : Op) (m : MsOp) : MsCheck :=
  match placeOf noCore m.table with
  | .virt va =>
    if 2 ^ 48 < va + 64 then .code 5
    else
      match agentRead s (msAgent s o m) m.table 64 with
      | .wait => .wait
      | .fail kind a => if kind = 0 then .park a else .code (if kind = 3 then 3 else 1)
      | .ok bs =>
        match tableHeader bs with
        | none => .code 5
        | some (fmt, n, rows) =>
          let m1 := { m with fmt := fmt, cols := n, rowsN := rows, checked := true }
          let last := va + rowOffset (rowLines fmt n) (rows - 1) (n * fmtBits fmt / 8 - 1)
          if 2 ^ 48 ≤ last ∨ rangeOk o.core m.area (areaBytes m1) = false ∨ (msList m1).any (fun k => decide ((rows : Int) ≤ k)) then .code 5
          else .ok { m1 with packets := packetsOf m1 }
  | _ => .code 5

/-! ### Packets (R346-R349, R352) -/

/-- Reading the pieces of a row. -/
def readRowPieces (s : State) (g : Agent) (ps : List (Word × Nat)) : RowOut :=
  match ps with
  | [] => .ok []
  | (a, n) :: r =>
    match agentRead s g a n with
    | .ok bs =>
      (match readRowPieces s g r with
       | .ok cs => .ok (bs ++ cs)
       | x => x)
    | x => x

/-- Whether the pieces of a row may be updated. -/
def checkRowPieces (s : State) (g : Agent) (ps : List (Word × Nat)) : RowOut :=
  match ps with
  | [] => .ok []
  | (a, n) :: r =>
    match agentCheckPieces s g .write a (a.toNat % 2 ^ 48) (virtPieces (a.toNat % 2 ^ 48) n) with
    | .ok _ => checkRowPieces s g r
    | x => x

/-- Reading the pieces of a row that is updated: its pages need W alone, since the update counts as a write (R352, R513). -/
def readUpdated (s : State) (g : Agent) (ps : List (Word × Nat)) : RowOut :=
  match ps with
  | [] => .ok []
  | (a, n) :: r =>
    match agentReadPieces s g .write a (a.toNat % 2 ^ 48) (virtPieces (a.toNat % 2 ^ 48) n) with
    | .ok bs =>
      (match readUpdated s g r with
       | .ok cs => .ok (bs ++ cs)
       | x => x)
    | x => x

/-- The state with the pieces of a row written. -/
def putRowPieces (s : State) (g : Agent) (ps : List (Word × Nat)) (bs : List Byte) : State :=
  match ps with
  | [] => s
  | (a, n) :: r => putRowPieces (agentPut s g a (bs.take n)) g r (bs.drop n)

/-- The elements of a row's bytes. -/
def rowElemsOf (f : Fmt) (bs : List Byte) : List Nat :=
  let w := fmtBits f / 8
  (List.range (bs.length / w)).map (fun j => leNat ((bs.drop (j * w)).take w))

/-- The bytes of a table from its header to the last byte of its last row (R339, R340). -/
def tableBytes (m : MsOp) : Nat := rowOffset (rowLines m.fmt m.cols) (m.rowsN - 1) (m.cols * fmtBits m.fmt / 8 - 1) + 1

/-- Whether a range of the command area has a byte in common with the operation's table, by whatever addresses (R314, R347,
R348). -/
def meetsTable (s : State) (g : Agent) (m : MsOp) (a : Word) (n : Nat) : Bool :=
  placesMeet (agentPlaces s g a n) (agentPlaces s g m.table (tableBytes m))

/-- Whether a result row of an operation overlaps its table (R347). -/
def resultsMeetTable (s : State) (g : Agent) (m : MsOp) : Bool :=
  (List.range m.bags.length).any (fun i => meetsTable s g m (areaRow m i) (4 * m.cols))

/-- The state after the pieces of a row have been read. -/
def touchRow (s : State) (g : Agent) (ps : List (Word × Nat)) : State := ps.foldl (fun t p => agentTouch t g p.1 p.2) s

/-- Bytes, or free values in their place where they are undefined (R6, log 4), with the state after them. -/
def freeIf (s : State) (undef : Bool) (bs : List Byte) : State × List Byte :=
  if undef then ({ s with fresh := s.fresh + bs.length }, (List.range bs.length).map (fun i => freeByte (s.fresh + i))) else (s, bs)

/-- How a position of a packet ends: done, with the state and the row read; to be tried again; parked at a place; or failed. -/
inductive MsStep where
  | done (s : State) (row : List Byte)
  | wait
  | park (a : Word)
  | fail (code : Nat)

/-- The code of a failure by its direction (R352). -/
def msFail (kind direction : Nat) : MsStep := .fail (if kind = 3 then 3 else direction)

/-- The step of a read that has met a failure: a page fault parks it, as for a copy row (R340, R352). -/
def msReadFail (kind : Nat) (a : Word) : MsStep := if kind = 0 then .park a else msFail kind 1

/-- The step of a write that has met a failure: a page fault parks it (R340, R407). -/
def msWriteFail (kind : Nat) (a : Word) : MsStep := if kind = 0 then .park a else msFail kind 2

/-- An MSIRED position: its row is read (R347). -/
def iredStep (s : State) (o : Op) (m : MsOp) (p : Nat) : MsStep :=
  let ps := rowPieces m ((msList m).getD p 0).toNat
  match readRowPieces s (msAgent s o m) ps with
  | .ok bs => .done (touchRow s (msAgent s o m) ps) bs
  | .wait => .wait
  | .fail kind a => msReadFail kind a

/-- The updated elements of a table row (R348). -/
def scatRow (f : Fmt) (row grad : List Nat) : List Byte :=
  (((List.range row.length).zip row).map (fun p =>
    leBytes (fmtBits f / 8) (rnd f .rne .dflt 0 (addVal false (dec f p.2) (dec .fp32 (grad.getD p.1 0)))))).flatten

/-- An MSISCAT position: its row is updated in one step (R348). -/
def iscatStep (s : State) (o : Op) (m : MsOp) (p : Nat) : MsStep :=
  let g := msAgent s o m
  let ps := rowPieces m ((msList m).getD p 0).toNat
  match agentRead (opView s o) g (areaRow m (bagAt m p)) (4 * m.cols) with
  | .wait => .wait
  | .fail kind a => msReadFail kind a
  | .ok grad =>
    match checkRowPieces s g ps with
    | .wait => .wait
    | .fail kind a => msWriteFail kind a
    | .ok _ =>
      match readUpdated s g ps with
      | .wait => .wait
      | .fail kind a => if kind = 0 then msFail 1 2 else msWriteFail kind a
      | .ok row =>
        let a := areaRow m (bagAt m p)
        let r := freeIf s (meetsTable s g m a (4 * m.cols)) (scatRow m.fmt (rowElemsOf m.fmt row) (rowElemsOf .fp32 grad))
        .done (putRowPieces (agentTouch r.1 g a (4 * m.cols)) g ps r.2) []

/-- The record of a ranked row: index and value places up to `k` (R349). -/
def topkRecord (f : Fmt) (k : Nat) (row : List Nat) : List (Nat × List Byte) :=
  let ranked := ((List.range row.length).zip row).foldl (fun l c => rankInsert f c l) []
  let wide (v : Nat) : Nat := if f = .bf16 then v * 2 ^ 16 else v
  ((List.range k).map (fun i =>
    match ranked[i]? with
    | some c => [(4 * i, leBytes 4 c.1), (32 + 4 * i, leBytes 4 (wide c.2))]
    | none => [(4 * i, leBytes 4 0xFFFFFFFF), (32 + 4 * i, leBytes 4 0xFF800000)])).flatten

/-- An MSTOPK row: it is ranked and its record written (R349). -/
def topkStep (s : State) (o : Op) (m : MsOp) (k r : Nat) : MsStep :=
  let g := msAgent s o m
  match readRowPieces s g (rowPieces m r) with
  | .wait => .wait
  | .fail kind a => msReadFail kind a
  | .ok row =>
    match agentCheck s g (areaRow m r) 64 with
    | .wait => .wait
    | .fail kind a => msWriteFail kind a
    | .ok _ =>
      .done ((topkRecord m.fmt k (rowElemsOf m.fmt row)).foldl (fun t w => agentPut t g (areaRow m r + BitVec.ofNat 64 w.1) w.2)
        (touchRow s g (rowPieces m r))) []

/-- Whether the data row of a bag or of a ranked row, in the core's own scratchpad, waits for an earlier engine operation (R296). -/
def areaBusy (s : State) (o : Op) (m : MsOp) (i n : Nat) (wr : Bool) : Bool :=
  (localRange o.core (areaRow m i) n).any (fun r => engineBusy s o.core r.1 r.2 wr o.id)

/-- Whether a position of an operation waits for an earlier engine operation on its core's own bytes (R296). -/
def stepBusy (s : State) (o : Op) (m : MsOp) (p : Nat) : Bool :=
  match m.kind with
  | .ired => false
  | .iscat => areaBusy s o m (bagAt m p) (4 * m.cols) false
  | .topk _ => areaBusy s o m p 64 true

/-- The step of a position of an operation. -/
def msStep (s : State) (o : Op) (m : MsOp) (p : Nat) : MsStep :=
  if stepBusy s o m p then .wait
  else
  match m.kind with
  | .ired => iredStep s o m p
  | .iscat => iscatStep s o m p
  | .topk k => topkStep s o m k p

/-- The state with an operation's body replaced. -/
def putMs (s : State) (o : Op) (m : MsOp) : State := putOp s { o with body := .ms m }

/-- The positions of a packet that have still to be performed. -/
def openPositions (m : MsOp) (k : Nat) : List Nat := (m.packets.getD k []).filter (fun p => !m.performed.contains p)

/-- The packet in progress, or the next one: the first with a position that has not been performed. -/
def currentPacket (m : MsOp) : Option Nat := (List.range m.packets.length).find? (fun k => !(openPositions m k).isEmpty)

/-- The number under which a packet stands in a fault queue; the header stands under that of packet 0. -/
def packetRowNo (k : Nat) : Nat := 4 * k

/-- The number under which the row of a result stands in a fault queue. -/
def resultRowNo (i : Nat) : Nat := 4 * i + 1

/-- The number under which the completion word stands in a fault queue. -/
def wordRowNo : Nat := 2

/-- The state after a packet has been executed as far as it goes (R346, R352). -/
def runPacket (s : State) (o : Op) (m : MsOp) (k : Nat) (ps : List Nat) : State :=
  match ps with
  | [] => push (putMs s o m) (.msPacketExecute o.id)
  | p :: r =>
    match msStep s o m p with
    | .wait => push (putMs s o m) (.msPacketExecute o.id)
    | .park a => (parkRow (putMs s o m) (agentPort (msAgent s o m) a) o.id (packetRowNo k) (.msPacketExecute o.id)).1
    | .fail code => push (putMs s o { m with code := code }) (.msComplete o.id)
    | .done t row => runPacket t o { m with performed := m.performed ++ [p], got := if row.isEmpty then m.got else m.got ++ [(p, row)] } k r

/-- Whether an earlier MS command of the same core has still to be performed at the stack engine: the header of every table lies on
one stack, so that a core's commands are one flow (R321, R344). -/
def msFollows (s : State) (o : Op) : Bool :=
  s.ops.any (fun r => r.core == o.core && decide (r.id < o.id) &&
    (match r.body with
     | .ms m => !m.checked && m.code == 0 && !m.stopped
     | _ => false))

/-- MS_PACKET_EXECUTE: the operation is checked first (R344), then its packets are executed one by one (R346, R352). -/
def execMsPacketExecute (op : Nat) (s : State) : Host.Outcome State Fault Refusal :=
  match findOp s op with
  | none => done s
  | some o =>
    match o.body with
    | .ms m =>
      if m.code ≠ 0 ∨ (m.stopped = true ∧ (m.checked = false ∨ m.started = 0)) then done (push s (.msComplete op))
      else if !m.checked && rowParked s op 0 then done s
      else if !m.checked then
        if !opReleased s o m.rel 3 || msFollows s o then done (push s (.msPacketExecute op))
        else
          match checkMs s o m with
          | .wait => done (push s (.msPacketExecute op))
          | .park a => done (parkRow s (agentPort (msAgent s o m) a) op 0 (.msPacketExecute op)).1
          | .code n => done (push (putMs s o { m with code := n }) (.msComplete op))
          | .ok m1 => done (push (putMs (agentTouch s (msAgent s o m) m.table 64) o m1) (.msPacketExecute op))
      else
        match currentPacket m with
        | none => done (push s (.msComplete op))
        | some k =>
          if rowParked s op (packetRowNo k) then done s
          else if m.stopped && decide (m.started ≤ k) then done (push s (.msComplete op))
          else done (runPacket s o { m with started := Nat.max m.started (k + 1) } k (openPositions m k))
    | _ => done s

/-! ### The end (R342, R347) -/

/-- The sum of the rows of a bag in one column (R347). -/
def bagSum (m : MsOp) (i j : Nat) : Nat :=
  let w := fmtBits m.fmt / 8
  let xs := msList m
  let mine := (List.range xs.length).filter (fun p => bagAt m p == i && decide (0 ≤ xs.getD p 0))
  let elem (p : Nat) : Val :=
    match m.got.find? (fun e => e.1 == p) with
    | some e => dec m.fmt (leNat ((e.2.drop (j * w)).take w))
    | none => .fin false 0 0
  let add (x y : Val) : Val := f32v (addVal false x y)
  let part (st : Nat) : Option Val :=
    match mine.filter (fun p => (xs.getD p 0).toNat % 16 == st) with
    | [] => none
    | p :: r => some (r.foldl (fun acc q => add acc (elem q)) (elem p))
  match (List.range 16).filterMap part with
  | [] => 0
  | x :: r => f32 (r.foldl add x)

/-- The result row of a bag (R347). -/
def bagRow (m : MsOp) (i : Nat) : List Byte := ((List.range m.cols).map (fun j => leBytes 4 (bagSum m i j))).flatten

/-- The code with which an operation ends: one that a kill has cut short before all its packets or rows had started ends with 2, whatever
those that had started give (R342, R352). -/
def msCode (m : MsOp) : Nat := if m.stopped ∧ (m.checked = false ∨ m.started < m.packets.length) then 2 else m.code

/-- The packets that the status word counts (R342, R346). -/
def msPackets (m : MsOp) : Nat :=
  match m.kind with
  | .topk _ => 0
  | _ => if m.checked then (if msCode m = 0 then m.packets.length else m.started) else 0

/-- The indices that were skipped (R345); none where no row was begun. -/
def msSkipped (m : MsOp) : Nat := if m.checked then ((msList m).filter (fun k => decide (k < 0))).length else 0

/-- The final status word of an operation. -/
def msWord (m : MsOp) : Word := msStatus (msCode m) (msSkipped m) (msPackets m)

/-- The state after an operation has ended: its leave returned, its status written (R342, R343). -/
def endMs (s : State) (o : Op) (m : MsOp) : State := endOp (returnOpLeave s o) o.id (msWord m)

/-- Whether the packets of an operation have come to their end: one that a kill has stopped finishes the packets that have started
(R352). -/
def packetsOver (m : MsOp) : Bool :=
  m.code != 0 ||
    (if m.checked then (match currentPacket m with | none => true | some k => m.stopped && decide (m.started ≤ k)) else m.stopped)

/-- The bag whose result row is due next. -/
def resultDue (m : MsOp) : Option Nat :=
  if m.kind = .ired ∧ msCode m = 0 ∧ m.results < m.bags.length then some m.results else none

/-- MS_COMPLETE: the result rows are written one by one, then the completion word, then the status (R342, R347, R352). -/
def execMsComplete (op : Nat) (s : State) : Host.Outcome State Fault Refusal :=
  match findOp s op with
  | none => done s
  | some o =>
    match o.body with
    | .ms m =>
      let g := msAgent s o m
      if !packetsOver m || s.fq.any (fun e => match e.what with | .row n _ => n == op | _ => false) then done s
      else
        match resultDue m with
        | some i =>
          (match (if areaBusy s o m i (4 * m.cols) true then .wait else agentCheck s g (areaRow m i) (4 * m.cols)) with
           | .wait => done (push s (.msComplete op))
           | .ok _ =>
             let r := freeIf s (resultsMeetTable s g m) (bagRow m i)
             done (push (putMs (agentPut r.1 g (areaRow m i) r.2) o { m with results := i + 1 }) (.msComplete op))
           | .fail kind a =>
             if kind = 0 then done (parkRow s (agentPort g a) op (resultRowNo i) (.msComplete op)).1
             else done (push (putMs s o { m with code := if kind = 3 then 3 else 2 }) (.msComplete op)))
        | none =>
          (match (if (localRange o.core m.area 8).any (fun r => engineBusy s o.core r.1 r.2 true op) then .wait
              else if rangeOk o.core m.area 64 then agentCheck s g m.area 8 else .fail 1 m.area) with
           | .wait => done (push s (.msComplete op))
           | .ok _ => done (endMs (agentPut s g m.area (leBytes 8 (msWord m).toNat)) o m)
           | .fail kind a =>
             if kind = 0 then done (parkRow s (agentPort g a) op wordRowNo (.msComplete op)).1 else done (endMs s o m))
    | _ => done s

/-! ### The instructions (R343) -/

/-- The MS operations of a core in flight at most (R343). -/
def msLimit : Nat := 8

/-- The units of leave of an MS operation (R249, R281). -/
def msLeave : Nat := 3

/-- Whether an operation is an MS operation. -/
def isMs (b : OpBody) : Bool :=
  match b with
  | .ms _ => true
  | _ => false

/-- Whether an MS operation waits at issue for a free slot or an acquire (R343). -/
def msBusy (t : State) (c : Nat) : Bool :=
  holdsStores (getCtx t c) || decide (msLimit ≤ (t.ops.filter (fun o => o.core == c && isMs o.body)).length)

/-- An operation before its check. -/
def newMs (t : State) (c : Nat) (kind : MsKind) (table area : Word) (bags : List (List Int)) (rel : Bool) : MsOp :=
  { kind := kind, table := table, area := area, ctx := ctxOf t c, bags := bags, rel := rel, checked := false, fmt := .fp32, rowsN := 0, cols := 0,
    packets := [], started := 0, performed := [], got := [], results := 0, code := 0, stopped := false }

/-- Whether an operation sets the commit latch (R564). -/
def msCommits (c : Nat) (kind : MsKind) (area : Word) : Bool := kind == .iscat || leavesCore c area

/-- The last steps of an MS operation at issue: MISALIGN, the leave draw and the start (R343); BADARG to a dual copy (R557). -/
def startMs (t : State) (i : Issued) (d : BitVec 5) (kind : MsKind) (table area : Word) (bags : List (List Int)) : Option State :=
  let c := i.core
  if table.toNat % 4096 ≠ 0 then some (trapFrom t i causeMisalign 0 table)
  else if area.toNat % 64 ≠ 0 then some (trapFrom t i causeMisalign 0 area)
  else
    let commit (u : State) : State := if msCommits c kind area then modCtx u c setCommit else u
    if (getCtx t c).sys.dual then some (modCtx (commit t) c (fun y => setStatus y d (msStatus 5 0 0)))
    else
      match drawLeave t c msLeave (.issue c) with
      | (false, _, _, v) => some (waitIssue v i)
      | (true, held, drawn, v) =>
        let n := v.nextId
        let u := startHeld (commit v) c d i.upc held drawn (.ms (newMs t c kind table area bags (modeRel i.xmod)))
        some (push u (.msPacketExecute n))

/-- The bags of an index tile (R345). -/
def readBags (m : Memory) (b : Tile) : List (List Int) :=
  (List.range b.rows).map (fun i => (List.range b.cols).map (fun j => sextNat 32 (srcElem m b i j)))

/-- The effect of MSIRED and MSISCAT at issue (R343, R345). -/
def bagBody (kind : MsKind) (d a b : BitVec 5) (tn : BitVec 4) (i : Issued) (t : State) : Option State :=
  let c := i.core
  let x := getCtx t c
  if msBusy t c || !x.seq.isEmpty then none
  else
    match getTile x tn with
    | none => some (trapFrom t i causeShape 4 0)
    | some w =>
      if w.fmt ≠ .i32 then some (trapFrom t i causeFormat 4 0)
      else if !tileReady t c w false then none
      else startMs t i d kind (regVal x a) (regVal x b) (readBags (getCore t c).spad w)

/-- MSIRED (R343, R347). -/
def execMsired (d a b : BitVec 5) (tn : BitVec 4) (s : State) : Host.Outcome State Fault Refusal :=
  issue s (engineSpec [a, b] d) (bagBody .ired d a b tn)

/-- MSISCAT (R343, R348). -/
def execMsiscat (d a b : BitVec 5) (tn : BitVec 4) (s : State) : Host.Outcome State Fault Refusal :=
  issue s (engineSpec [a, b] d) (bagBody .iscat d a b tn)

/-- MSTOPK (R343, R349). -/
def execMstopk (d a b : BitVec 5) (k : BitVec 3) (s : State) : Host.Outcome State Fault Refusal :=
  issue s (engineSpec [a, b] d) (fun i t =>
    let x := getCtx t i.core
    if msBusy t i.core || !x.seq.isEmpty then none
    else startMs t i d (.topk (k.toNat + 1)) (regVal x a) (regVal x b) [])

end Sys2Proof.Machine
end

