-- ==== Sys2Proof/Machine/Collective.lean ====
section
/-! DEFINITION. Communicators and collectives: COLRS, COLAR, COLAG, COLBC, COLBAR, their instances and chunks (R411-R424). -/

namespace Sys2Proof.Machine

/-! ### Communicators and status (R411-R413, R422) -/

/-- A communicator entry; an identifier of 16 or more has none. -/
def getComm (s : State) (m : Nat) : CommEntry := tabGet emptyComm s.comms m

/-- The group of a communicator (R411). -/
def commGroup (s : State) (e : CommEntry) : Group := tabGet emptyGroup s.groups (e.part * 256 + e.group)

/-- The global ranks of a communicator (R411). -/
def commRanks (e : CommEntry) (members : List Nat) : Nat := e.nmod * members.length

/-- The collective status word (R422). -/
def colStatus (code chunks inst : Nat) : Word := packWord [(1, 0), (code, 4), (chunks % 2 ^ 16, 16), (inst % 2 ^ 16, 32)]

/-- How many operations of a communicator a core has issued since the entry was written (R413). -/
def joinCount (s : State) (comm c : Nat) : Nat := tabGet 0 s.colJoins (comm * 4096 + c)

/-- The state with one more operation of a core on a communicator. -/
def countJoin (s : State) (comm c : Nat) : State :=
  { s with colJoins := tabSet s.colJoins (comm * 4096 + c) (joinCount s comm c + 1) }

/-- An instance. -/
def findInst (s : State) (comm inst : Nat) : Option Instance := s.instances.find? (fun x => x.comm == comm && x.inst == inst)

/-- The state with an instance replaced. -/
def putInst (s : State) (x : Instance) : State :=
  { s with instances := s.instances.map (fun y => if y.comm = x.comm ∧ y.inst = x.inst then x else y) }

/-- The collective body of an operation. -/
def colOf (o : Op) : Option ColOp :=
  match o.body with
  | .col c => some c
  | _ => none

/-- The operations of an instance with their bodies, in the order of joining. -/
def instOps (s : State) (x : Instance) : List (Op × ColOp) :=
  x.ops.filterMap (fun n => (findOp s n).bind (fun o => (colOf o).map (fun c => (o, c))))

/-! ### Descriptors (R418, R421) -/

/-- The formats of a collective (R418). -/
def colFmt (c : Nat) : Option Fmt := if c = 0 then some .fp32 else if c = 1 then some .bf16 else if c = 7 then some .i32 else none

/-- The elements that a participant reads, and those it writes (R419). -/
def colExtents (k : ColKind) (ranks count : Nat) : Nat × Nat :=
  match k with
  | .rs => (ranks * count, count)
  | .ar => (count, count)
  | .ag => (count, ranks * count)
  | .bc => (count, count)
  | .bar => (0, 0)

/-- Whether an address is in a space that a collective may name: 0x0 or 0x4 (R418). -/
def colSpace (a : Word) : Bool := spaceOf a == 0 || spaceOf a == 4

/-- An operation without a descriptor, as COLBAR has it. -/
def barCol (comm : Nat) : ColOp :=
  { kind := .bar, exact := false, comm := comm, desc := 0, src := 0, dst := 0, count := 0, root := 0, fmt := .fp32, red := 0, inst := 0, rank := 0,
    rd := 0, wr := 0, total := 0, next := 0, moved := 0 }

/-- The operation that a descriptor describes; none for BADARG (R418, R421). -/
def readColDesc (c : Nat) (k : ColKind) (exact : Bool) (comm ranks : Nat) (desc : Word) (bs : List Byte) : Option ColOp :=
  let f (lo n : Nat) : Nat := leNat ((bs.drop lo).take n)
  let count := f 16 8
  let src : Word := BitVec.ofNat 64 (f 0 8)
  let dst : Word := BitVec.ofNat 64 (f 8 8)
  match colFmt (f 26 1) with
  | none => none
  | some fmt =>
    let w := fmtBits fmt / 8
    let e := colExtents k ranks count
    let plain := k == .ag || k == .bc
    if f 28 36 ≠ 0 ∨ count = 0 ∨ 2 ^ 32 < count ∨ 2 < f 27 1 ∨ (plain = true ∧ f 27 1 ≠ 0) ∨ (k ≠ .bc ∧ f 24 2 ≠ 0) ∨ (k = .bc ∧ ranks ≤ f 24 2) then none
    else if colSpace src = false ∨ colSpace dst = false ∨ rangeOk c src (e.1 * w) = false ∨ rangeOk c dst (e.2 * w) = false then none
    else
      some { barCol comm with
        kind := k, exact := exact, desc := desc, src := src, dst := dst, count := count, root := f 24 2, fmt := fmt, red := f 27 1 }

/-- The bytes that a participant contributes (R419). -/
def readsBytes (op : ColOp) (ranks : Nat) : Nat :=
  if op.kind = .bc ∧ op.rank ≠ op.root then 0 else (colExtents op.kind ranks op.count).1 * (fmtBits op.fmt / 8)

/-- The bytes that a participant writes. -/
def writesBytes (op : ColOp) (ranks : Nat) : Nat := (colExtents op.kind ranks op.count).2 * (fmtBits op.fmt / 8)

/-- How a collective ends at issue, or what it joins with (R421); COLBAR reads no descriptor. -/
inductive ColPlan where
  | wait
  | code (n : Nat)
  | ok (c : ColOp)

/-- The place of a member in its group (R80). -/
def memberRank (members : List Nat) (c : Nat) : Option Nat := (List.range members.length).find? (fun i => members.getD i noCore == c)

/-- The checks of the engine (R421). -/
def planCol (s : State) (c : Nat) (k : ColKind) (exact : Bool) (a desc : Word) : ColPlan :=
  let comm := a.toNat
  let e := getComm s comm
  let g := commGroup s e
  let ranks := commRanks e g.members
  let member (op : ColOp) : ColPlan :=
    match memberRank g.members c with
    | none => .code 9
    | some r =>
      let q := { op with rank := e.mrank * g.members.length + r }
      .ok { q with rd := readsBytes q ranks, wr := writesBytes q ranks }
  if k ≠ .bar ∧ (colSpace desc = false ∨ rangeOk c desc 64 = false) then .code 5
  else if 16 ≤ comm ∨ e.valid = false ∨ e.nmod = 0 ∨ e.nmod ≤ e.mrank ∨ partOf s c ≠ some e.part ∨ g.valid = false then .code 5
  else if k = .bar then member (barCol comm)
  else
    match homeRead s c desc 64 with
    | .wait => .wait
    | .fail kind _ => if (memberRank g.members c).isNone then .code 9 else .code (if kind = 3 then 3 else 1)
    | .ok bs =>
      match readColDesc c k exact comm ranks desc bs with
      | none => .code 5
      | some op => member op

/-! ### Issue (R417, R421, R424) -/

/-- The collective operations of a core in flight at most (R421). -/
def colLimit : Nat := 4

/-- Whether a collective waits at issue: for an acquire or for a free place (R421). -/
def colBusy (t : State) (c : Nat) : Bool :=
  holdsStores (getCtx t c) || decide (colLimit ≤ (t.ops.filter (fun o => o.core == c && (colOf o).isSome)).length)

/-- Whether an operation's own bytes are still in use by earlier tile units or engine operations (R63, R296): without its fork release
it waits for these alone (R326). -/
def colLocalBusy (t : State) (c : Nat) (op : ColOp) : Bool :=
  (localRange c op.src op.rd).any (fun r => localBusy t c r.1 r.2 false) || (localRange c op.dst op.wr).any (fun r => localBusy t c r.1 r.2 true)

/-- The state with a participant joined to the instance of its number: it ends at once where the instance has been aborted, or its
partition is being switched out (R413, R424). -/
def joinCol (t : State) (i : Issued) (d : BitVec 5) (op : ColOp) : State :=
  let c := i.core
  let u := countJoin t op.comm c
  let n := joinCount u op.comm c
  let e := getComm t op.comm
  let fresh : Instance :=
    { comm := op.comm, inst := n, part := e.part, members := (commGroup t e).members, joined := [], ops := [], started := false, data := [],
      code := if partLive t c then 0 else 7, ended := !partLive t c }
  let u := if (findInst u op.comm n).isSome then u else { u with instances := u.instances ++ [fresh] }
  match findInst u op.comm n with
  | none => u
  | some x =>
    if x.ended then
      let y := { x with joined := c :: x.joined }
      let v := if y.members.all (fun m => y.joined.contains m) then
          { u with instances := u.instances.filter (fun z => !(z.comm == x.comm && z.inst == x.inst)) } else putInst u y
      modCtx v c (fun z => setStatus z d (colStatus x.code 0 n))
    else
      let id := u.nextId
      let v := startOp u c d i.upc (.col { op with inst := n })
      push (putInst v { x with joined := c :: x.joined, ops := x.ops ++ [id] }) (.collectiveInstanceStart op.comm n)

/-- The effect of a collective at issue (R421); BADARG to a dual copy (R557). -/
def colBody (k : ColKind) (exact : Bool) (d a b : BitVec 5) (i : Issued) (t : State) : Option State :=
  let c := i.core
  let x := getCtx t c
  let rel := k == .bar || modeRel i.xmod
  let desc := if k = .bar then 0 else regVal x b
  if colBusy t c then none
  else if desc.toNat % 64 ≠ 0 then some (trapFrom t i causeMisalign 0 desc)
  else if rel && !relDone t c (serialOf x) t.nextId 4 then none
  else if k != .bar && (localRange c desc 64).any (fun r => localBusy t c r.1 r.2 false) then none
  else
    let u := modCtx t c setCommit
    let ended (code : Nat) : State := modCtx u c (fun y => setStatus y d (colStatus code 0 0))
    if x.sys.dual then some (ended 5)
    else
      match planCol t c k exact (regVal x a) desc with
      | .wait => none
      | .code n => some (ended n)
      | .ok op => if colLocalBusy t c op then none else some (joinCol u i d op)

/-- COLRS (R417, R419). -/
def execColrs (d a b : BitVec 5) (m : BitVec 1) (s : State) : Host.Outcome State Fault Refusal :=
  issue s (engineSpec [a, b] d) (colBody .rs (m == 1) d a b)

/-- COLAR (R417, R419). -/
def execColar (d a b : BitVec 5) (m : BitVec 1) (s : State) : Host.Outcome State Fault Refusal :=
  issue s (engineSpec [a, b] d) (colBody .ar (m == 1) d a b)

/-- COLAG (R417, R419). -/
def execColag (d a b : BitVec 5) (s : State) : Host.Outcome State Fault Refusal :=
  issue s (engineSpec [a, b] d) (colBody .ag false d a b)

/-- COLBC (R417, R419). -/
def execColbc (d a b : BitVec 5) (s : State) : Host.Outcome State Fault Refusal :=
  issue s (engineSpec [a, b] d) (colBody .bc false d a b)

/-- COLBAR (R417, R419). -/
def execColbar (d a : BitVec 5) (s : State) : Host.Outcome State Fault Refusal :=
  issue s (plainSpec [a] [d]) (colBody .bar false d a 0)

/-! ### Contributions and reductions (R419, R420) -/

/-- The agent of a participant: virtual buffers are in the communicator's context, and no window serves them (R418, R514). -/
def colAgent (s : State) (o : Op) (op : ColOp) : Agent :=
  let e := getComm s op.comm
  { core := o.core, part := some e.part, ctx := e.ctxid, col := columnOf s o.core, windows := false }

/-- The contributions of the participants, read in one step (log 11). -/
def readAll (s : State) (xs : List (Op × ColOp)) : List (Nat × List Byte) ⊕ RowOut :=
  match xs with
  | [] => .inl []
  | (o, op) :: r =>
    match (if op.rd = 0 then .ok [] else agentRead (opView s o) (colAgent s o op) op.src op.rd) with
    | .ok bs =>
      (match readAll s r with
       | .inl l => .inl ((op.rank, bs) :: l)
       | x => x)
    | x => .inr x

/-- The contributions in order of global rank; those of other modules' participants are free values (log 4, log 15). -/
def byRank (s : State) (ranks n : Nat) (l : List (Nat × List Byte)) : List (List Byte) :=
  (List.range ranks).map (fun r =>
    match l.find? (fun p => p.1 == r) with
    | some p => p.2
    | none => (List.range n).map (fun i => freeByte (s.fresh + r * n + i)))

/-- The least k with `n ≤ 2 ^ k`. -/
def log2Up (n : Nat) : Nat := if n ≤ 1 then 0 else Nat.log2 (n - 1) + 1

/-- The ORDERED sum of contributions (R420). -/
def orderedSum (fuel : Nat) (xs : List Val) : Val :=
  match fuel with
  | 0 => .fin false 0 0
  | f + 1 =>
    match xs with
    | [] => .fin false 0 0
    | [x] => x
    | _ =>
      let m := 2 ^ (log2Up xs.length - 1)
      f32v (addVal false (orderedSum f (xs.take m)) (orderedSum f (xs.drop m)))

/-- A fold that starts from the first contribution. -/
def foldVals (f : Val → Val → Val) (xs : List Val) : Val :=
  match xs with
  | [] => .fin false 0 0
  | x :: r => r.foldl f x

/-- The reduction of integer contributions (R420). -/
def reduceInts (red : Nat) (xs : List Int) : Nat :=
  match xs with
  | [] => 0
  | x :: r =>
    if red = 0 then wrapInt 32 (r.foldl (· + ·) x) else if red = 1 then truncInt 32 (r.foldl max x) else truncInt 32 (r.foldl min x)

/-- The reduction of contributions in global rank order (R420). -/
def reduceElems (op : ColOp) (xs : List Nat) : Nat :=
  if op.fmt = .i32 then reduceInts op.red (xs.map (sextNat 32))
  else
    let vs := xs.map (dec op.fmt)
    rnd op.fmt .rne .dflt 0
      (if op.red = 1 then foldVals fmaxn vs
       else if op.red = 2 then foldVals fminn vs
       else if op.exact then foldVals (addVal false) vs
       else orderedSum (vs.length + 1) vs)

/-- An element of a contribution. -/
def contribElem (op : ColOp) (bs : List Byte) (j : Nat) : Nat :=
  let w := fmtBits op.fmt / 8
  leNat ((bs.drop (j * w)).take w)

/-- What a participant's destination receives (R419). -/
def colResult (op : ColOp) (data : List (List Byte)) : List Byte :=
  let w := fmtBits op.fmt / 8
  let reduced (off : Nat) : List Byte :=
    ((List.range op.count).map (fun j => leBytes w (reduceElems op (data.map (fun bs => contribElem op bs (off + j)))))).flatten
  match op.kind with
  | .rs => reduced (op.rank * op.count)
  | .ar => reduced 0
  | .ag => data.flatten
  | .bc => data.getD op.root []
  | .bar => []

/-- Whether the destination of one participant overlaps the source of another or of itself, or its own descriptor, so that the values
written are undefined (R419); COLAR and COLBC may name one buffer as both. -/
def colMixed (s : State) (xs : List (Op × ColOp)) : Bool :=
  xs.any (fun p =>
    let dst := agentPlaces s (colAgent s p.1 p.2) p.2.dst p.2.wr
    let inPlace (q : Op × ColOp) : Bool := (p.2.kind == .ar || p.2.kind == .bc) && p.1.id == q.1.id && p.2.src == p.2.dst
    (p.2.kind != .bar && placesMeet dst (placesOf s p.1.core p.2.desc 64)) ||
      xs.any (fun q => !inPlace q && placesMeet dst (agentPlaces s (colAgent s q.1 q.2) q.2.src q.2.rd)))

/-! ### Instances (R413, R422, R424, R505) -/

/-- The wire data of a chunk at most (R414). -/
def chunkBytes : Nat := 16384

/-- The chunks of a participant. -/
def chunkTotal (op : ColOp) : Nat := Nat.max 1 ((op.wr + chunkBytes - 1) / chunkBytes)

/-- Whether a core is lost to its groups: killed, or its identifier unbound (R424, R505). -/
def lostCore (s : State) (c : Nat) : Bool := (getCore s c).state == .killed || !(mapOf s c).bound

/-- The state with an instance due to end with a code. -/
def failInst (s : State) (x : Instance) (code : Nat) : State :=
  push (putInst s { x with code := if x.code = 0 then code else x.code }) (.collectiveInstanceEnd x.comm x.inst)

/-- Whether two joiners issued the same operation (R413). -/
def sameCol (a b : ColOp) : Bool :=
  a.kind == b.kind && a.exact == b.exact && a.count == b.count && a.fmt == b.fmt && a.red == b.red && a.root == b.root

/-- Whether an earlier instance of a communicator has not ended (R413). -/
def earlierOpen (s : State) (x : Instance) : Bool :=
  s.instances.any (fun y => y.comm == x.comm && decide (y.inst < x.inst) && !y.ended)

/-- What the participants of other modules do by now, for an instance that spans modules: a free value, since no message of theirs is
an input of the model (R411, R413, log 4, log 15). None: some have still to join; otherwise the code with which they end it, 0
for none. -/
def elsewhere (v : Nat) : Option Nat := [none, some 0, some 1, some 2, some 3, some 6, some 7, some 8].getD (v % 8) none

/-- Whether an instance spans modules. -/
def spansModules (s : State) (x : Instance) : Bool := decide (1 < (getComm s x.comm).nmod)

/-- The state with an instance's data movement started: the contributions have been read, those bytes that the operation may
overwrite meanwhile as free values (R419). -/
def startInst (s : State) (x : Instance) (ranks : Nat) (xs : List (Op × ColOp)) (l : List (Nat × List Byte)) : State :=
  let n := match xs with
    | p :: _ => (colExtents p.2.kind ranks p.2.count).1 * (fmtBits p.2.fmt / 8)
    | [] => 0
  let data := byRank s ranks n (if colMixed s xs then [] else l)
  let t := putInst { s with fresh := s.fresh + ranks * n } { x with started := true, data := data }
  let t := xs.foldl (fun u p => putOp (agentTouch u (colAgent u p.1 p.2) p.2.src p.2.rd) { p.1 with body := .col { p.2 with total := chunkTotal p.2 } }) t
  pushAll t (xs.map (fun p => .chunkStart (dieOf s p.1.core) x.comm))

/-- COLLECTIVE_INSTANCE_START (R413, R505). -/
def execCollectiveInstanceStart (comm inst : Nat) (s : State) : Host.Outcome State Fault Refusal :=
  match findInst s comm inst with
  | none => done s
  | some x =>
    let xs := instOps s x
    let v := freeVal s
    let again := done (push (bumpFree s) (.collectiveInstanceStart comm inst))
    if x.started || x.ended || x.code != 0 then done s
    else if x.members.any (lostCore s) then done (failInst s x 8)
    else if !(x.members.all (fun m => x.joined.contains m)) then done s
    else if earlierOpen s x then done (push s (.collectiveInstanceStart comm inst))
    else
      match xs with
      | [] => done (failInst s x 8)
      | p :: r =>
        if !r.all (fun q => sameCol p.2 q.2) then done (failInst s x 6)
        else
          match (if spansModules s x then elsewhere v else some 0) with
          | none => again
          | some (c + 1) => done (failInst (bumpFree s) x (c + 1))
          | some 0 =>
            match readAll s xs with
            | .inl l => done (startInst (bumpFree s) x (commRanks (getComm s comm) x.members) xs l)
            | .inr .wait => again
            | .inr (.fail kind _) => done (failInst s x (if kind = 3 then 3 else 1))
            | .inr (.ok _) => done s

/-- A die's engine. -/
def getEngine (s : State) (die : Nat) : ColEngine := tabGet idleEngine s.engines die

/-- The state with a die's engine replaced. -/
def setEngine (s : State) (die : Nat) (e : ColEngine) : State := { s with engines := tabSet s.engines die e }

/-- The chunks of an engine that have started and not ended. -/
def chunksOn (e : ColEngine) : List ChunkRun := e.chunk.toList ++ e.parked

/-- Whether a chunk of an instance is in progress at some engine. -/
def chunkRuns (s : State) (x : Instance) : Bool := s.engines.any (fun e => (chunksOn e.2).any (fun r => x.ops.contains r.op))

/-- The state with a reservation returned. -/
def freeBuffer (s : State) (r : ChunkRes) : State :=
  let e := getEngine s r.next
  setEngine s r.next (if r.shared then { e with shared := e.shared.erase r.comm } else { e with dedicated := e.dedicated.erase r.comm })

/-- The state with the requests for buffers that a die has made for some communicators withdrawn. -/
def withdrawRequests (s : State) (die : Nat) (p : Nat → Bool) : State :=
  { s with engines := s.engines.map (fun e => (e.1, { e.2 with pending := e.2.pending.filter (fun q => !(q.2 == die && p q.1)) })) }

/-- The state after a die's engine has given up what it keeps for a communicator's next chunk: the reservations that it has taken, its
requests for buffers, and its request for leave (R415, R416, R535). -/
def leaveChunks (s : State) (die comm : Nat) : State :=
  let e := getEngine s die
  let t := (e.taken.filter (fun r => r.comm == comm)).foldl freeBuffer (setEngine s die { e with taken := e.taken.filter (fun r => r.comm != comm) })
  push (dropWait (withdrawRequests t die (· == comm)) die (.chunk comm)) (.chunkStart die comm)

/-- The state after the participants that joined an instance have received its status; the chunks that they sent over the engine's
tree are a free value once one has started (R414, R422, log 4). Their engines keep nothing for its chunks. -/
def endInst (s : State) (x : Instance) : State :=
  let dies := ((instOps s x).map (fun p => dieOf s p.1.core)).eraseDups
  let t := dies.foldl (fun u die => leaveChunks u die x.comm) s
  let t := (instOps s x).foldl (fun u p =>
    if 0 < p.2.next then endOp (bumpFree u) p.1.id (colStatus x.code (freeVal u) x.inst) else endOp u p.1.id (colStatus x.code 0 x.inst)) t
  if x.members.all (fun m => x.joined.contains m) then
    { t with instances := t.instances.filter (fun y => !(y.comm == x.comm && y.inst == x.inst)) }
  else putInst t { x with ops := [], ended := true, data := [] }

/-- COLLECTIVE_INSTANCE_END (R422). -/
def execCollectiveInstanceEnd (comm inst : Nat) (s : State) : Host.Outcome State Fault Refusal :=
  match findInst s comm inst with
  | none => done s
  | some x =>
    let allMoved := x.started && (instOps s x).all (fun p => p.2.moved == p.2.total)
    if x.ended || (x.code == 0 && !allMoved) then done s
    else if chunkRuns s x then done (push s (.collectiveInstanceEnd comm inst))
    else done (endInst s x)

/-! ### Chunks (R414-R416) -/

/-- The shared receive buffers of an engine (R415). -/
def sharedBuffers : Nat := 16

/-- The units of leave of a chunk (R281, R416). -/
def chunkLeave : Nat := 6

/-- The operation with a chunk ready on a die for a communicator, with its instance. -/
def readyOp (s : State) (die comm : Nat) : Option (Op × ColOp × Instance) :=
  (s.instances.filter (fun x => x.comm == comm && x.started && !x.ended && x.code == 0 && (getPart s x.part).state == .live)).findSome? (fun x =>
    ((instOps s x).find? (fun p => dieOf s p.1.core == die && decide (p.2.next < p.2.total))).map (fun p => (p.1, p.2, x)))

/-- The communicator that an engine serves next: the highest PRIO, ties by round robin after the last one served (R414). -/
def nextComm (s : State) (die : Nat) : Option Nat :=
  let served := (getEngine s die).served
  let order := (List.range 16).map (fun i => (served + 1 + i) % 16)
  (order.filter (fun m => (readyOp s die m).isSome)).foldl (fun best m =>
    match best with
    | none => some m
    | some b => if (getComm s b).prio < (getComm s m).prio then some m else some b) none

/-- The die of the next hop: that of the member after a core (R414; the ring is the model's). -/
def nextHop (s : State) (x : Instance) (c : Nat) : Nat :=
  match memberRank x.members c with
  | some r => dieOf s (x.members.getD ((r + 1) % x.members.length) c)
  | none => dieOf s c

/-- The requests for a shared buffer of an engine that stand: their die still has a chunk of the communicator to start. -/
def standing (s : State) (e : ColEngine) : List (Nat × Nat) := e.pending.filter (fun p => (readyOp s p.2 p.1).isSome)

/-- A buffer of the next hop for a communicator: the dedicated one, or a shared one in its turn, in ascending identifier order
(R415). -/
def takeBuffer (s : State) (comm next : Nat) : Option ChunkRes :=
  let e := getEngine s next
  if !e.dedicated.contains comm then some { comm := comm, next := next, shared := false }
  else if e.shared.length < sharedBuffers ∧ (standing s e).all (fun p => decide (comm ≤ p.1)) then
    some { comm := comm, next := next, shared := true }
  else none

/-- The state with a reservation of a die taken at its next hop; its request stands no longer. -/
def holdBuffer (s : State) (die : Nat) (r : ChunkRes) : State :=
  let e := getEngine s r.next
  let f := { e with pending := e.pending.filter (· != (r.comm, die)) }
  setEngine s r.next (if r.shared then { f with shared := f.shared ++ [r.comm] } else { f with dedicated := f.dedicated ++ [r.comm] })

/-- The reservation of a die for a communicator at its next hop, taken now if it can be (R415). -/
def reserveChunk (s : State) (die comm next : Nat) : State × Option ChunkRes :=
  match (getEngine s die).taken.find? (fun r => r.comm == comm && r.next == next) with
  | some r => (s, some r)
  | none =>
    match takeBuffer s comm next with
    | some r =>
      let t := holdBuffer s die r
      let e := getEngine t die
      (setEngine t die { e with taken := e.taken ++ [r] }, some r)
    | none =>
      let e := getEngine s next
      (setEngine s next { e with pending := if e.pending.contains (comm, die) then e.pending else e.pending ++ [(comm, die)] }, none)

/-- The communicator whose chunk a die has chosen and which waits for leave; else the one that is served next. An engine that has chosen
keeps to its choice while it waits: the request for leave keeps its place in the share (R414, R416, R535; log 95). -/
def chosenComm (s : State) (die : Nat) : Option Nat :=
  match (List.range 16).find? (fun m => (getPool s die).waiting.any (fun r => r.who == .chunk m)) with
  | some m => some m
  | none => nextComm s die

/-- CHUNK_START: with its buffer reserved and its leave drawn, the chunk that the arbitration chooses starts (R414-R416). -/
def execChunkStart (die comm : Nat) (s : State) : Host.Outcome State Fault Refusal :=
  if (getEngine s die).chunk.isSome then done s
  else
    match chosenComm s die with
    | none => done (withdrawRequests s die (fun _ => true))
    | some m =>
      if m ≠ comm then done (push s (.chunkStart die m))
      else
        match readyOp s die m with
        | none => done (leaveChunks s die m)
        | some (o, op, x) =>
          let r := reserveChunk (withdrawRequests s die (· != m)) die m (nextHop s x o.core)
          match r.2 with
          | none => done (push r.1 (.chunkStart die m))
          | some res =>
            match askLeave r.1 x.part die chunkLeave (.chunk m) with
            | (false, _, t) => done t
            | (true, units, t) =>
              let e := getEngine t die
              let run : ChunkRun := { op := o.id, idx := op.next, res := res, units := units }
              let u := setEngine t die { e with chunk := some run, taken := e.taken.filter (fun y => y.comm != m), served := m }
              done (push (putOp u { o with body := .col { op with next := op.next + 1 } }) (.chunkEnd die))

/-- CHUNK_RESERVATION_TIMEOUT: requests for a chunk's reservations that have not all been granted are withdrawn, and made again (R415). A
chunk has one next hop, so that what has been taken has been taken in full and stays. -/
def execChunkReservationTimeout (die comm : Nat) (s : State) : Host.Outcome State Fault Refusal :=
  if (getEngine s die).taken.any (fun r => r.comm == comm) then done s
  else done (push (withdrawRequests s die (· == comm)) (.chunkStart die comm))

/-- The state with a chunk no longer at its engine, its buffer and its leave returned (R415, R416). -/
def dropChunk (s : State) (die : Nat) (r : ChunkRun) (part : Nat) : State :=
  let e := getEngine s die
  let t := setEngine s die { e with chunk := if e.chunk = some r then none else e.chunk, parked := e.parked.filter (· != r) }
  returnUnits (freeBuffer t r.res) part die r.units

/-- The state after a chunk has ended, with the outcome of its write (R414, R416, R422); for an instance that spans modules, what the
other participants have done by then (log 15). -/
def endChunk (s : State) (die : Nat) (o : Op) (op : ColOp) (x : Instance) (r : ChunkRun) (code : Nat) : State :=
  let t := dropChunk s die r x.part
  let t := putOp t { o with body := .col { op with moved := op.moved + 1 } }
  let other := if spansModules s x then (elsewhere (freeVal s)).getD 0 else 0
  let t := if code ≠ 0 then failInst t x code else if other ≠ 0 then failInst (bumpFree t) x other else bumpFree t
  pushAll t [.chunkStart die op.comm, .collectiveInstanceEnd op.comm op.inst]

/-- The bytes of a chunk as they are written. -/
def chunkData (op : ColOp) (x : Instance) (idx : Nat) : List Byte := ((colResult op x.data).drop (idx * chunkBytes)).take chunkBytes

/-- The chunks of an engine that go on: those that have been replayed, and the one in progress (R408). -/
def chunksDue (s : State) (e : ColEngine) : List ChunkRun := e.parked.filter (fun r => !rowParked s r.op r.idx) ++ e.chunk.toList

/-- The state with a chunk beside the one in progress, where it waits for its fault queue: nothing waits behind it (R408). -/
def asideChunk (s : State) (die : Nat) (r : ChunkRun) : State :=
  let e := getEngine s die
  if e.parked.contains r then s else setEngine s die { e with chunk := if e.chunk = some r then none else e.chunk, parked := e.parked ++ [r] }

/-- The state with a chunk parked on a page fault, or returned by a full queue, and whether it has to be tried again (R408, R410). -/
def parkChunk (s : State) (die port : Nat) (r : ChunkRun) (comm : Nat) : State × Bool :=
  let t := push (asideChunk s die r) (.chunkStart die comm)
  if faultDepth ≤ (s.fq.filter (fun e => e.port == port)).length then (count t (.returned port) 1, true)
  else (count { t with fq := t.fq ++ [{ port := port, what := .row r.op r.idx, own := true }] } (.parks port) 1, false)

/-- The state after a chunk has gone on, and whether it has to be tried again: its bytes are written in one step (log 11), or it parks,
or it fails its instance (R408, R414, R422). -/
def stepChunk (die : Nat) (s : State) (r : ChunkRun) : State × Bool :=
  match (findOp s r.op).bind (fun o => (colOf o).map (fun c => (o, c))) with
  | none => (dropChunk s die r (((s.instances.find? (fun x => x.ops.contains r.op)).map (·.part)).getD 0), false)
  | some (o, op) =>
    match findInst s op.comm op.inst with
    | none => (s, false)
    | some x =>
      let bs := chunkData op x r.idx
      let dst := op.dst + BitVec.ofNat 64 (r.idx * chunkBytes)
      let g := colAgent s o op
      match (if bs.isEmpty then .ok [] else agentCheck s g dst bs.length) with
      | .wait => (s, true)
      | .ok _ => (endChunk (agentPut s g dst bs) die o op x r 0, false)
      | .fail kind a =>
        if kind = 0 then parkChunk s die (agentPort g a) r op.comm else (endChunk s die o op x r (if kind = 3 then 3 else 2), false)

/-- CHUNK_END: the chunks of a die that are due go on (R408, R414, R416). -/
def execChunkEnd (die : Nat) (s : State) : Host.Outcome State Fault Refusal :=
  let o := (chunksDue s (getEngine s die)).foldl (fun (u : State × Bool) r => let v := stepChunk die u.1 r; (v.1, u.2 || v.2)) (s, false)
  done (if o.2 then push o.1 (.chunkEnd die) else o.1)

/-- A communicator entry as its fields hold it (R412). -/
def commFields (e : CommEntry) : CommEntry :=
  { mrank := e.mrank % 2 ^ 8, nmod := e.nmod % 2 ^ 8, ctxid := e.ctxid % 2 ^ 16, group := e.group % 2 ^ 8, prio := e.prio % 4, part := e.part % 8,
    valid := e.valid }

/-- COMMUNICATOR_WRITE: refused while an instance of the communicator is in flight; instances count from 1 again (R412, R413). -/
def execCommunicatorWrite (comm : Nat) (e : CommEntry) (s : State) : Host.Outcome State Fault Refusal :=
  if 16 ≤ comm ∨ s.instances.any (fun x => x.comm == comm && !x.ended) then done s
  else
    done { s with
      comms := tabSet s.comms comm (commFields e), instances := s.instances.filter (fun x => x.comm != comm),
      colJoins := s.colJoins.filter (fun p => p.1 / 4096 != comm) }

end Sys2Proof.Machine
end

