-- ==== Sys2Proof/Machine/Fetch.lean ====
section
/-! DEFINITION. Fetching a word: the instruction cache, the fault of a fetch, and what stops a core before it fetches (R170, R176, R179,
R540, R553). -/

namespace Sys2Proof.Machine

/-- The number of lines of the instruction cache: 32 KiB of 64 bytes (R179, log 7). -/
def icacheLines : Nat := 512

/-- The outcome of a fetch: the word's bytes, with the line that a miss brings in and its physical address; a fault of a kind of R541; or a wait. -/
inductive Fetched where
  | word (bytes : List Byte) (line : Option (ICLine × Nat))
  | fault (kind : Nat)
  | hold
  deriving DecidableEq, Repr

/-- The instruction-cache line of an address. -/
def findLine (k : Core) (ctx line : Nat) : Option ICLine := k.icache.find? (fun l => l.ctx == ctx && l.line == line)

/-- Fetching the word at an address: it must be word-aligned, in space 0x4 and mapped for execution (R170). -/
def fetchAt (s : State) (c : Nat) (pc : Word) : Fetched :=
  if pc.toNat % 4 ≠ 0 then .fault 1
  else
    match placeOf c pc with
    | .virt va =>
      match findLine (getCore s c) (ctxOf s c) (va / 64) with
      | some l => .word ((l.bytes.drop (va % 64)).take 4) none
      | none =>
        match coreWalk s c va .fetch false with
        | .page pa =>
          if sectorBad s (pa - pa % 64) 64 then .fault 2
          else
            let bytes := physRead s (pa - pa % 64) 64
            .word ((bytes.drop (va % 64)).take 4) (some ({ ctx := ctxOf s c, line := va / 64, bytes := bytes }, pa - pa % 64))
        | .window _ => .fault 1
        | .fault => .fault 0
        | .refused => .fault 1
        | .hold => .hold
    | _ => .fault 1

/-- The state with a line brought into the instruction cache, the oldest leaving a full one (log 7); the read is counted at its home
slice and fills its sector (R260, R262, R264). -/
def fillLine (s : State) (c : Nat) (l : Option (ICLine × Nat)) : State :=
  match l with
  | none => s
  | some (l, pa) =>
    modCore (touchLine s (some (c, l.ctx, l.line / 4)) false pa 64) c (fun k => { k with icache := (l :: k.icache).take icacheLines })

/-- A trap met while the control stream fetches: held while it is ahead (R176), taken otherwise. -/
def fetchTrap (s : State) (c : Nat) (t : TrapInfo) : State := if (getCtx s c).gens.isEmpty then takeTrap s c t else s

/-- What a core does whose partition is to stop: a routine runs to its end; else nothing more issues, and what it has issued ahead of
a branch is discarded (R72, R550, R553). `none` where the core runs on. -/
def stopCore (s : State) (c : Nat) : Option State :=
  let x := getCtx s c
  if !partStops s c || x.sys.sup then none else some (if x.gens.isEmpty then s else setCtx s c (flushAhead x))

end Sys2Proof.Machine
end

