-- ==== Sys2Proof/Machine/Front.lean ====
section
/-! DEFINITION. The front end: doorbells, fetch, command packets and completion records (R375-R390, R397-R399). -/

namespace Sys2Proof.Machine

/-! ### Queues (R376-R381) -/

/-- Whether the front end has failed at bring-up: no host queue and no ingress queue is enabled (R572). -/
def frontFailed (s : State) : Bool := s.firmware.any (fun f => f.blk == .frontEnd && f.state == .failed)

/-- Whether a control block enables its queue (R379). -/
def blockOn (b : QueueBlock) : Bool := b.en && decide (6 ≤ b.logn) && decide (b.logn ≤ 16)

/-- The control block in force, where it enables its queue (R379, R380). -/
def queueBlock (s : State) (q : Nat) : Option QueueBlock :=
  match (getHq s q).force with
  | some b => if blockOn b ∧ frontFailed s = false then some b else none
  | none => none

/-- The agent of a queue's rings and reads, which no remote window serves (R38, R376, R514). -/
def queueAgent (b : QueueBlock) : Agent := unitAgent (some b.part) b.ctxid false

/-- The agent of a queue's COPY and SIGNAL packets, which reach remote windows (R385, R514). -/
def dataAgent (b : QueueBlock) : Agent := unitAgent (some b.part) b.ctxid true

/-- Whether the front-end firmware is held in reset (R399). -/
def frontHeld (s : State) : Bool := s.firmware.any (fun f => f.blk == .frontEnd && f.state != .ready)

/-- Whether a function of the front end stands still: host-assisted, with the firmware in reset (R397-R399). -/
def functionHeld (s : State) (i : Nat) : Bool := s.feMode.getLsbD i && frontHeld s

/-- Bits [63:62] of the head shadow (R378): clear, 2 after an overrun, 3 after an unreadable slot. -/
def shadowBits (error : Nat) : Nat := if error = 0 then 0 else if error = 1 then 2 else 3

/-- The state with a queue's head shadow written: HEAD, with the error bits (R378); it stays due while its page is on HOLD (R516). -/
def putShadow (s : State) (q : Nat) (b : QueueBlock) : State :=
  let g := queueAgent b
  let h := getHq s q
  let a := virtWord b.hshadow
  match agentCheck s g a 8 with
  | .ok _ => agentPut (setHq s q { h with shadowDue := false }) g a (leBytes 8 (h.head.toNat + shadowBits h.error * 2 ^ 62))
  | .wait => setHq s q { h with shadowDue := true }
  | .fail _ _ => setHq s q { h with shadowDue := false }

/-- The state with a queue in error (R378): 1 overrun, 2 unreadable slot. -/
def queueError (s : State) (q : Nat) (b : QueueBlock) (code : Nat) : State := putShadow (setHq s q { getHq s q with error := code }) q b

/-- The host queues (R38). -/
def queueCount : Nat := 65536

/-- The state after a doorbell has reached the wake latch: the latch takes the value; other bits are ignored and counted; a gated
partition is to be woken (R381, R578). -/
def ringBell (s : State) (q : Nat) (value : Word) : State :=
  if queueCount ≤ q then s
  else if value.toNat / 2 ^ 32 ≠ 0 then count s .doorbells 1
  else
    let t := setHq s q { getHq s q with latch := some (value.setWidth 32) }
    match queueBlock t q with
    | some b =>
      let p := getPart t b.part
      push (if p.state = .gated then setPart t b.part { p with waking := true } else t) (.packetFetch q)
    | none => t

/-- The connection of an item. -/
def itemConn (i : HostItem) : Nat :=
  match i with
  | .write c _ _ _ => c
  | .bell c _ _ => c

/-- DOORBELL: it follows the writes of its connection that have still to be performed (R337, R381). -/
def execDoorbell (q : QueueBell) (value : Word) (s : State) : Host.Outcome State Fault Refusal :=
  done (if s.hostWaits.any (fun i => itemConn i == q.conn) then { s with hostWaits := s.hostWaits ++ [.bell q.conn q.queue value] }
    else ringBell s q.queue value)

/-- Whether a queue's fetch is held: its partition gated, or a function stopped (R381, R399, R578). -/
def fetchHeld (s : State) (b : QueueBlock) : Bool :=
  (getPart s b.part).state == .gated || functionHeld s 0 || functionHeld s 4

/-- The state with the latched TAIL acted on (R377, R378, R381). -/
def takeTail (s : State) (q : Nat) (b : QueueBlock) : State :=
  let h := getHq s q
  match h.latch with
  | none => s
  | some v =>
    let t := setHq s q { h with latch := none, tail := v }
    if h.error = 0 ∧ 2 ^ b.logn < (v - h.head).toNat then queueError t q b 1 else t

/-- A packet as it is fetched. -/
def newPacket (n : Nat) (blk : QueueBlock) (bytes : List Byte) : Packet :=
  { n := n, blk := blk, bytes := bytes, started := false, completed := false, status := 0, detail := 0, written := false, issued := false,
    tests := 0, ltag := 0 }

/-- Whether a header is well formed (R382). -/
def headerOk (p : Packet) : Bool :=
  let h := pktHeader p
  h / 2 ^ 32 == 0 && fld h 10 6 == 0 && decide (1 ≤ fld h 0 8) && decide (fld h 0 8 ≤ 6)

/-- The event that runs a packet; one with a malformed header has its turn as a LAUNCH would. -/
def packetEvent (q : Nat) (p : Packet) : Event :=
  if !headerOk p then .launchPacket q p.n
  else
    match fld (pktHeader p) 0 8 with
    | 1 => .launchPacket q p.n
    | 2 => .copyPacket q p.n
    | 3 => .kputPacket q p.n
    | 4 => .signalPacket q p.n
    | 5 => .fencePacket q p.n
    | _ => .waitcondPacket q p.n

/-- The packets of a queue fetched before one, since its counts were last reset. -/
def packetsBefore (h : HostQueue) (n : Nat) : List Packet := (h.packets.takeWhile (fun p => p.n != n)).filter (fun p => pktEpoch p.n == pktEpoch n)

/-- Whether a packet may start: every earlier one has started, no WAITCOND still tests, and under BAR all have completed (R388). -/
def mayStart (s : State) (q : Nat) (p : Packet) : Bool :=
  (packetsBefore (getHq s q) p.n).all (fun e =>
    e.started && (e.completed || (fld (pktHeader p) 8 1 == 0 && fld (pktHeader e) 0 8 != 6)))

/-- The state after a packet with a malformed header or operand has completed with BADPKT, which always has its record (R382). -/
def badPacket (s : State) (q n : Nat) : State := finishPacket s q n 3 0 true

/-- The state with up to `fuel` fetched packets that have not started passed over, with how many are still to be fetched (R387): each
retires with SKIPPED. -/
def passPackets (s : State) (q epoch fuel : Nat) : State × Nat :=
  match fuel with
  | 0 => (s, 0)
  | f + 1 =>
    match (getHq s q).packets.find? (fun p => !p.started && pktEpoch p.n == epoch) with
    | none => (s, f + 1)
    | some p => passPackets (finishPacket s q p.n 4 0 false) q epoch f

/-- The state with the next packet fetched (R377, R378). -/
def fetchNext (s : State) (q : Nat) (b : QueueBlock) : State :=
  let h := getHq s q
  let a := virtWord (b.rbase + 64 * (h.fetched % 2 ^ b.logn))
  match agentRead s (queueAgent b) a 64 with
  | .wait => push s (.packetFetch q)
  | .fail _ _ => push (queueError s q b 2) (.packetFetch q)
  | .ok bs =>
    let p := newPacket (h.epoch * 2 ^ 64 + h.fetched) b bs
    let t := setHq (agentTouch s (queueAgent b) a 64) q { h with
      head := h.head + 1, fetched := h.fetched + 1, packets := h.packets ++ [p], passOver := h.passOver - 1 }
    let t := putShadow t q b
    pushAll (if 0 < h.passOver then finishPacket t q p.n 4 0 false else t) [packetEvent q p, .packetFetch q]

/-- PACKET_FETCH (R377, R378, R381): a head shadow that is still due is written first. -/
def execPacketFetch (q : Nat) (s : State) : Host.Outcome State Fault Refusal :=
  match queueBlock s q with
  | none => done s
  | some b =>
    if (getHq s q).pendingCommit || fetchHeld s b then done s
    else
      let t := takeTail (if (getHq s q).shadowDue then putShadow s q b else s) q b
      let h := getHq t q
      if h.shadowDue then done (push t (.packetFetch q))
      else if h.error ≠ 0 ∨ h.head = h.tail then done t
      else done (fetchNext t q b)

/-- A control block as its fields hold it (R379); the low bits of addresses that are multiples of 64 or 8 are not held (log 51). -/
def blockFields (b : QueueBlock) : QueueBlock :=
  { ctxid := b.ctxid % 2 ^ 16, cbase := b.cbase % 2 ^ 48 / 64 * 64, rbase := b.rbase % 2 ^ 48 / 64 * 64, hshadow := b.hshadow % 2 ^ 48 / 8 * 8,
    logn := b.logn % 2 ^ 5, part := b.part % 8, en := b.en }

/-- QUEUE_COMMIT: a copy and the commit word that names it (R379, R380). -/
def execQueueCommit (q : Nat) (copyB : Bool) (blk : QueueBlock) (word : Word) (s : State) : Host.Outcome State Fault Refusal :=
  let h := getHq s q
  let h := if copyB then { h with blkB := blockFields blk } else { h with blkA := blockFields blk }
  if queueCount ≤ q then done s
  else done (push (setHq s q { h with commit := word, pendingCommit := true }) (.commitTakeEffect q))

/-- The copy that a commit word names; SEQ = 0 names none (R380). -/
def committed (h : HostQueue) : Option QueueBlock :=
  if h.commit.toNat / 2 = 0 then none else some (if h.commit.toNat % 2 = 1 then h.blkB else h.blkA)

/-- Whether a commit resets HEAD and TAIL: it changes RBASE, LOGN, PART or CTXID, clears an error (R380), or enables the queue, whose
packets are then counted from 0 (R377). -/
def commitResets (h : HostQueue) (b : Option QueueBlock) : Bool :=
  h.error != 0 ||
    (match h.force, b with
     | some x, some y => (blockOn y && !blockOn x) || x.rbase != y.rbase || x.logn != y.logn || x.part != y.part || x.ctxid != y.ctxid
     | none, some y => blockOn y
     | _, none => false)

/-- COMMIT_TAKE_EFFECT: every event lies at a packet boundary. The packets fetched before a reset run on under the block that they were
fetched under, and hold none of the new ones back (R380, log 16). -/
def execCommitTakeEffect (q : Nat) (s : State) : Host.Outcome State Fault Refusal :=
  let h := getHq s q
  if !h.pendingCommit then done s
  else
    let b := committed h
    let g := { h with force := b, pendingCommit := false }
    done (push (setHq s q (if commitResets h b then
      { g with head := 0, epoch := h.epoch + 1, fetched := 0, shadowDue := false, tail := 0, error := 0, passOver := 0 } else g)) (.packetFetch q))

/-! ### LAUNCH (R384) -/

/-- Regions one after another from an offset. -/
def regionList (off : Nat) (rs : List (Nat × Nat × BitVec 32)) : List Region :=
  match rs with
  | [] => []
  | (attr, size, fill) :: r => { attr := attr, offset := off, size := size, fill := fill } :: regionList (off + size) r

/-- Whether the regions of a launch are within the limits of R57. -/
def regionsOk (rs : List Region) : Bool :=
  let total (p : Region → Bool) : Nat := ((rs.filter p).map (·.size)).sum
  rs.all (fun r => decide (64 ≤ r.size) && decide (r.size % 64 = 0) && decide (r.attr ≤ 2)) && decide (rs.length ≤ 16) &&
    decide ((rs.filter (fun r => r.attr == 2)).length ≤ 8) && decide (total (fun r => r.attr == 0) ≤ 196608) && decide (total (fun _ => true) ≤ spadSize)

/-- A launch descriptor as read (R384): whether its reserved bits are zero, its regions, and its groups with their reserved bytes. -/
structure LaunchDesc where
  clean : Bool
  regions : List Region
  groups : List (Nat × Bool × List Nat)
  deriving DecidableEq, Repr

/-- The members of a bitmap, ascending. -/
def bitmapMembers (bs : List Byte) : List Nat :=
  (((List.range bs.length).zip bs).map (fun p => ((List.range 8).filter (fun i => p.2.getLsbD i)).map (fun i => 8 * p.1 + i))).flatten

/-- The regions of a launch in their layout: the KEEP ones first, then SPILL, then DISCARD, each group in declaration order (R58); an
entry of no attribute stands last, and its launch is refused (R384). -/
def layOut (rs : List (Nat × Nat × BitVec 32)) : List Region :=
  regionList 0 (([0, 1, 2, 3].map (fun a => rs.filter (fun r => r.1 == a))).flatten)

/-- A descriptor from its bytes. -/
def parseLaunch (bs : List Byte) : LaunchDesc :=
  let f (lo n : Nat) : Nat := leNat ((bs.drop lo).take n)
  let nreg := f 0 1
  let ngrp := f 1 1
  let reg (i : Nat) : Nat := f (64 + 16 * i) 16
  let regs := (List.range nreg).map reg
  let grp (i : Nat) : Nat × Bool × List Nat :=
    let o := 64 + 16 * nreg + 392 * i
    (f o 1, f (o + 1) 7 == 0, bitmapMembers ((bs.drop (o + 8)).take 384))
  { clean := f 2 62 == 0 && decide (nreg ≤ 16) && regs.all (fun r => fld r 34 30 == 0 && fld r 96 32 == 0),
    regions := layOut (regs.map (fun r => (fld r 32 2, fld r 0 32, BitVec.ofNat 32 (fld r 64 32)))),
    groups := (List.range ngrp).map grp }

/-- Reading a descriptor: its header says how long it is (R384). -/
def readLaunch (s : State) (g : Agent) (desc : Word) : LaunchDesc ⊕ RowOut :=
  if desc = 0 then .inl { clean := true, regions := [], groups := [] }
  else
    match agentRead s g desc 64 with
    | .ok h =>
      let n := 64 + 16 * leNat (h.take 1) + 392 * leNat ((h.drop 1).take 1)
      (match agentRead s g desc n with
       | .ok bs => .inl (parseLaunch bs)
       | x => .inr x)
    | x => .inr x

/-- The operand words of a LAUNCH that must be well formed (R382-R384). -/
def launchFormOk (p : Packet) : Bool :=
  let e := (pktWord p 8).toNat
  let desc := pktWord p 16
  fld e 51 1 == 0 && fld e 57 7 == 0 && decide (fld e 54 2 ≤ 2) && (desc == 0 || (decide (desc.toNat % 64 = 0) && virtRange desc 64)) &&
    decide ((pktWord p 24).toNat < 2 ^ 32)

/-- The root record of a LAUNCH (R354, R384). -/
def launchRecord (p : Packet) (ltag : Nat) : WorkRec :=
  let e := (pktWord p 8).toNat
  { ltag := ltag, dual := fld e 56 1 == 1, prio := fld e 52 2, cls := fld e 54 2, entry := BitVec.ofNat 48 (fld e 0 48),
    args := [pktWord p 32, pktWord p 40, pktWord p 48, pktWord p 56] }

/-- Whether a group of a partition is held (R80). -/
def groupHeldBy (s : State) (part g : Nat) : Bool := (tabGet emptyGroup s.groups (part * 256 + g)).valid

/-- The groups of a partition that a core belongs to, with those that a launch adds (R81). -/
def groupsOf (s : State) (part : Nat) (added : List (List Nat)) (c : Nat) : Nat :=
  (s.groups.filter (fun g => g.1 / 256 == part && g.2.valid && g.2.members.contains c)).length + (added.filter (·.contains c)).length

/-- The code with which a launch is refused, in the order of R384. A descriptor that names one group index twice, held by no launch,
is refused as GROUPBUSY: R80 and R384 do not name the case (DESIGN CHOICE, log 41). -/
def launchRefusal (s : State) (part : Nat) (d : LaunchDesc) : Option Nat :=
  let members := d.groups.map (fun g => g.2.2)
  if !d.clean || !regionsOk d.regions then some 1
  else if d.groups.any (fun g => !g.2.1 || g.2.2.any (fun c => !holdsCore (getPart s part) c)) then some 4
  else if d.groups.any (fun g => groupHeldBy s part g.1) || !decide (d.groups.map (·.1)).Nodup then some 2
  else if members.flatten.any (fun c => decide (4 < groupsOf s part members c)) then some 3
  else none

/-- Whether a launch tag is still named (R384). -/
def tagNamed (s : State) (t : Nat) : Bool :=
  s.launches.any (fun l => l.ltag == t) ||
    s.ingress.any (fun p => match p.2.desc with | some d => d.urgent.isSome && d.ultag == t | none => false) ||
    s.feUrgents.any (fun p => p.2.ltag == t) || s.cores.any (fun p => p.2.urgents.any (fun e => e.ltag == t)) ||
    s.msgs.any (fun m => match m.body with | .urgent e => e.ltag == t | _ => false)

/-- The tag after one: 0x0001 to 0xFFFF (R384). -/
def nextTag (t : Nat) : Nat := if 0xFFFF ≤ t then 1 else t + 1

/-- The next free tag; none while every one is named. -/
def findTag (s : State) (fuel t : Nat) : Option Nat :=
  match fuel with
  | 0 => none
  | f + 1 => if tagNamed s t then findTag s f (nextTag t) else some t

/-- The state with a launch begun: its groups filled and its root record at the distributor (R362, R384, R505). -/
def beginLaunch (s : State) (q : Nat) (p : Packet) (part ltag : Nat) (d : LaunchDesc) : State :=
  let l : Launch :=
    { ltag := ltag, part := part, seed := (pktWord p 24).setWidth 32, regions := d.regions, root := none, packet := (q, p.n), wave := none, last := none }
  let groups := d.groups.foldl (fun t g => tabSet t (part * 256 + g.1) { valid := true, ltag := ltag, members := g.2.2 }) s.groups
  let t := { s with launches := s.launches ++ [l], groups := groups, lastLtag := ltag }
  let t := modPacket t q p.n (fun r => { r with ltag := ltag })
  let rec_ := launchRecord p ltag
  if rec_.dual then
    let w : DualWait := { id := t.nextId, part := part, record := rec_, second := false, counted := false, core := noCore, after := (0, 0) }
    push (bumpId { t with dualWaits := t.dualWaits ++ [w] }) (.dualPairPlace w.id)
  else awaitRoot t rec_ false

/-- What a packet's event finds: nothing, a wait for its turn, a malformed packet, or the packet in its turn with its queue's block. -/
inductive Turned where
  | absent
  | wait
  | go (p : Packet) (b : QueueBlock)

/-- The turn of a packet of some operation (R388), under the block that it was fetched under; it waits while its decoding stands
still (R399), and one that has started is not taken up again unless it is `again`. -/
def packetTurn (s : State) (q n op : Nat) (again : Bool) : Turned :=
  match findPacket s q n with
  | some p =>
    if p.completed || (headerOk p && fld (pktHeader p) 0 8 != op) || (p.started && !again) then .absent
    else if p.started || (mayStart s q p && !functionHeld s 1) then .go p p.blk
    else .wait
  | none => .absent

/-- LAUNCH packet (R384). -/
def execLaunchPacket (q n : Nat) (s : State) : Host.Outcome State Fault Refusal :=
  match packetTurn s q n 1 false with
  | .absent => done s
  | .wait => done (push s (.launchPacket q n))
  | .go p b =>
    if p.ltag ≠ 0 then done s
    else if !headerOk p || !launchFormOk p then done (badPacket s q n)
    else if fld (pktWord p 8).toNat 48 3 ≠ b.part then done (finishPacket s q n 2 6 false)
    else
      match readLaunch s (queueAgent b) (pktWord p 16) with
      | .inr .wait => done (push s (.launchPacket q n))
      | .inr _ => done (finishPacket s q n 2 5 false)
      | .inl d =>
        match launchRefusal s b.part d with
        | some code => done (finishPacket s q n 2 code false)
        | none =>
          match findTag s 65535 (nextTag s.lastLtag) with
          | none => done (push s (.launchPacket q n))
          | some tag => done (beginLaunch s q p b.part tag d)

/-! ### COPY, KPUT, SIGNAL, FENCE and WAITCOND (R385-R387) -/

/-- Whether words of a packet from a byte offset on are zero (R382). -/
def zeroFrom (p : Packet) (off : Nat) : Bool := (p.bytes.drop off).all (· == 0)

/-- Whether an address of a COPY is in a space that R383 permits. -/
def copySpace (a : Word) : Bool :=
  match placeOf noCore a with
  | .peer _ _ => true
  | .virt _ => true
  | _ => false

/-- The bytes of a COPY as written: those that are source bytes as well, by their places, are free values (R300, R314, log 4). -/
def copyOver (s : State) (g : Agent) (src dst : Word) (bs : List Byte) : State × List Byte :=
  let n := bs.length
  let from_ := agentPlaces s g src n
  let to_ := agentPlaces s g dst n
  if placesMeet from_ to_ then
    ({ s with fresh := s.fresh + n }, ((bytePlaces to_).zip ((List.range n).zip bs)).map (fun q =>
      if placesMeet from_ [(q.1, 1)] then freeByte (s.fresh + q.2.1) else q.2.2))
  else (s, bs)

/-- Whether a COPY packet's write stands in a fault queue. -/
def packetParked (s : State) (q n : Nat) : Bool := s.fq.any (fun e => e.what == .packet q n)

/-- The state with a COPY packet's write parked, or tried again where the queue is full (R407, R410). -/
def parkPacket (s : State) (port q n : Nat) : State :=
  if faultDepth ≤ (s.fq.filter (fun e => e.port == port)).length then push (count s (.returned port) 1) (.copyPacket q n)
  else count { s with fq := s.fq ++ [{ port := port, what := .packet q n, own := true }] } (.parks port) 1

/-- The state with a packet started. -/
def startPacket (s : State) (q n : Nat) : State := modPacket s q n (fun p => { p with started := true })

/-- The state with a packet's first access issued: the packet has started, and its event comes again to perform the access (R388). -/
def issuePacket (s : State) (q n : Nat) (again : Event) : State := push (startPacket s q n) again

/-- COPY packet: one row (R385). -/
def execCopyPacket (q n : Nat) (s : State) : Host.Outcome State Fault Refusal :=
  match packetTurn s q n 2 true with
  | .absent => done s
  | .wait => done (push s (.copyPacket q n))
  | .go p b =>
    let src := pktWord p 8
    let dst := pktWord p 16
    let len := (pktWord p 24).toNat
    let g := dataAgent b
    if packetParked s q n then done s
    else if !headerOk p ∨ len < 1 ∨ 2 ^ 32 < len ∨ copySpace src = false ∨ copySpace dst = false ∨ zeroFrom p 32 = false then done (badPacket s q n)
    else if !p.started then done (issuePacket s q n (.copyPacket q n))
    else
      match agentRead s g src len with
      | .wait => done (push s (.copyPacket q n))
      | .fail kind a => if kind = 0 then done (parkPacket s (agentPort g a) q n) else done (finishPacket s q n 6 1 false)
      | .ok bs =>
        match agentCheck s g dst len with
        | .wait => done (push s (.copyPacket q n))
        | .fail kind a => if kind = 0 then done (parkPacket s (agentPort g a) q n) else done (finishPacket s q n 6 2 false)
        | .ok _ =>
          let r := copyOver (agentTouch s g src len) g src dst bs
          done (finishPacket (agentPut r.1 g dst r.2) q n 0 0 false)

/-- The code of a COPY packet whose page fault is declined, by the side that met it (R298, R299). -/
def copyPacketDecline (s : State) (p : Packet) : Nat :=
  match agentRead s (dataAgent p.blk) (pktWord p 8) (pktWord p 24).toNat with
  | .fail 0 _ => 1
  | _ => 2

/-- The key of a KPUT packet (R383). -/
def packetKey (p : Packet) : BitVec 256 := BitVec.ofNat 256 (leNat ((p.bytes.drop 8).take 32))

/-- KPUT packet: an untyped tuple (R385, R427). -/
def execKputPacket (q n : Nat) (s : State) : Host.Outcome State Fault Refusal :=
  match packetTurn s q n 3 true with
  | .absent => done s
  | .wait => done (push s (.kputPacket q n))
  | .go p b =>
    let va := pktWord p 40
    let len := (pktWord p 48).toNat
    let g := queueAgent b
    if p.issued then done s
    else if !headerOk p ∨ payloadLimit < len ∨ virtRange va 1 = false ∨ zeroFrom p 56 = false then done (badPacket s q n)
    else if !p.started then done (issuePacket s q n (.kputPacket q n))
    else
      match (if len = 0 then .ok [] else agentRead s g va len) with
      | .wait => done (push s (.kputPacket q n))
      | .fail _ _ => done (finishPacket s q n 6 3 false)
      | .ok bs =>
        let key := packetKey p
        let t := modPacket (agentTouch s g va len) q n (fun p => { p with issued := true })
        done (sendReq t (.packet q n) noCore b.ctxid (keyHash key) (.put key 0 bs) none)

/-- SIGNAL packet (R385): AMOSWAP reaches no window (R514). -/
def execSignalPacket (q n : Nat) (s : State) : Host.Outcome State Fault Refusal :=
  match packetTurn s q n 4 true with
  | .absent => done s
  | .wait => done (push s (.signalPacket q n))
  | .go p b =>
    let a := pktWord p 8
    let v := (pktWord p 16).toNat
    let op := (pktWord p 24).toNat
    if !headerOk p ∨ a.toNat % 8 ≠ 0 ∨ virtRange a 8 = false ∨ 1 < op ∨ zeroFrom p 32 = false then done (badPacket s q n)
    else if !p.started then done (issuePacket s q n (.signalPacket q n))
    else
      match agentAtom s (if op = 1 then dataAgent b else queueAgent b) a 8 (fun old => if op = 1 then (old + v) % 2 ^ 64 else v) with
      | (_, .wait) => done (push s (.signalPacket q n))
      | (u, .ok _) => done (finishPacket u q n 0 0 false)
      | (u, .fail _ _) => done (finishPacket u q n 6 2 false)

/-- FENCE packet: it counts the failures since the FENCE before it (R386). -/
def execFencePacket (q n : Nat) (s : State) : Host.Outcome State Fault Refusal :=
  match packetTurn s q n 5 true with
  | .absent => done s
  | .wait => done (push s (.fencePacket q n))
  | .go p _ =>
    let before := packetsBefore (getHq s q) n
    if !headerOk p ∨ zeroFrom p 8 = false then done (badPacket s q n)
    else if !before.all (·.completed) then done (push (startPacket s q n) (.fencePacket q n))
    else
      let h := getHq s q
      let old (k : Nat) : Bool := pktEpoch k == pktEpoch n && decide (k < n)
      done (finishPacket (setHq s q { h with failed := h.failed.filter (fun k => !old k) }) q n 0 (Nat.min 255 (h.failed.filter old).length) true)

/-- Whether a WAITCOND's word meets its condition (R387). -/
def condHolds (cond : Nat) (w imm : Word) : Bool :=
  match cond with
  | 0 => w == imm
  | 1 => w != imm
  | 2 => w.slt imm
  | 3 => !w.slt imm
  | _ => w &&& imm != 0

/-- Whether a WAITCOND's operands are well formed (R387). -/
def waitFormOk (p : Packet) : Bool :=
  let a := pktWord p 8
  let c := (pktWord p 24).toNat
  a.toNat % 8 == 0 && virtRange a 8 && fld c 40 24 == 0 && fld c 6 2 == 0 && fld c 3 1 == 0 && decide (fld c 0 3 ≤ 4) && decide (fld c 4 2 ≤ 2) &&
    (fld c 4 2 != 2 || fld c 16 8 != 0) && zeroFrom p 32

/-- The state after a WAITCOND has stopped testing, the next N packets passed over where it says so (R387). -/
def stopWait (s : State) (q n status detail pass : Nat) (force : Bool) : State :=
  let r := passPackets (finishPacket (startPacket s q n) q n status detail force) q (pktEpoch n) pass
  let h := getHq r.1 q
  if pktEpoch n = h.epoch then setHq r.1 q { h with passOver := h.passOver + r.2 } else r.1

/-- The packets that a WAITCOND passes over (R387). -/
def waitPass (p : Packet) : Nat := fld (pktWord p 24).toNat 8 8

/-- A test of a WAITCOND (R387). -/
def testWait (s : State) (q : Nat) (p : Packet) (again : Event) : State :=
  let c := (pktWord p 24).toNat
  let n := p.n
  let pass := waitPass p
  let act := fld c 4 2
  let g := queueAgent p.blk
  match agentRead s g (pktWord p 8) 8 with
  | .wait => push s again
  | .fail _ _ => stopWait s q n 6 1 pass true
  | .ok bs =>
    let t := agentTouch s g (pktWord p 8) 8
    let holds := condHolds (fld c 0 3) (BitVec.ofNat 64 (leNat bs)) (pktWord p 16)
    if act ≠ 2 then stopWait t q n 0 0 (if holds == (act == 1) then pass else 0) false
    else if holds then stopWait t q n 0 0 0 false
    else if fld c 24 16 ≠ 0 ∧ p.tests + 1 = fld c 24 16 then stopWait t q n 5 0 pass false
    else push (modPacket t q n (fun r => { r with tests := r.tests + 1 })) (.waitcondRetest q n)

/-- WAITCOND packet: its first evaluation, and then its first test (R387, R388). -/
def execWaitcondPacket (q n : Nat) (s : State) : Host.Outcome State Fault Refusal :=
  match packetTurn s q n 6 true with
  | .absent => done s
  | .wait => done (push s (.waitcondPacket q n))
  | .go p _ =>
    if 0 < p.tests then done s
    else if functionHeld s 2 then done (push s (.waitcondPacket q n))
    else if !headerOk p || !waitFormOk p then done (badPacket s q n)
    else if !p.started then done (issuePacket s q n (.waitcondPacket q n))
    else done (testWait s q p (.waitcondPacket q n))

/-- WAITCOND_RETEST: the back-off is over (R387). -/
def execWaitcondRetest (q n : Nat) (s : State) : Host.Outcome State Fault Refusal :=
  match packetTurn s q n 6 true with
  | .go p _ =>
    if p.tests = 0 then done s
    else if functionHeld s 2 then done (push s (.waitcondRetest q n))
    else done (testWait s q p (.waitcondRetest q n))
  | _ => done s

/-! ### Loss to a dead link (R298, R378, R384, R385, R387) -/

/-- The state after an access of a packet has been lost: a LAUNCH's descriptor is unreadable, a KPUT's payload unread (R447). -/
def losePacket (s : State) (q n : Nat) : State :=
  match findPacket s q n with
  | none => s
  | some p =>
    if p.completed || !headerOk p || packetParked s q n then s
    else
      match fld (pktHeader p) 0 8, p.started with
      | 1, false => if mayStart s q p && p.ltag == 0 && pktWord p 16 != 0 then finishPacket s q n 2 5 false else s
      | 2, true => finishPacket s q n 6 3 false
      | 3, true => if p.issued then s else finishPacket s q n 6 7 false
      | 4, true => finishPacket s q n 6 3 false
      | 6, true => stopWait s q n 6 3 (waitPass p) true
      | _, _ => s

/-- The state after the slot read of a queue has been lost, where one is due (R378). -/
def loseSlot (s : State) (q : Nat) : State :=
  match queueBlock s q with
  | none => s
  | some b =>
    let h := getHq s q
    if h.error ≠ 0 ∨ h.head = h.tail ∨ h.pendingCommit = true ∨ fetchHeld s b = true then s else push (queueError s q b 2) (.packetFetch q)

/-! ### Completion records (R390) -/

/-- A completion record (R390). -/
def completionBytes (p : Packet) : List Byte :=
  leBytes 8 (2 ^ 63 + pktNumber p.n % 2 ^ 63) ++ leBytes 8 (fld (pktHeader p) 16 16 + p.status * 2 ^ 16 + p.detail % 256 * 2 ^ 24)

/-- Whether the slot of a record may still hold one: V is set (R390). -/
def slotTaken (bs : List Byte) : Bool := leNat (bs.take 8) / 2 ^ 63 == 1

/-- COMPLETION_RECORD_WRITE: a record whose slot still holds V = 1 waits (R390); it is a release at system scope, which waits for every
write that may happen before it (R322, R325). -/
def execCompletionRecordWrite (q n : Nat) (s : State) : Host.Outcome State Fault Refusal :=
  match findPacket s q n with
  | none => done s
  | some p =>
    if !p.completed || p.written then done s
    else
      let again := push s (.completionRecordWrite q n)
      let b := p.blk
      let a := virtWord (b.cbase + 16 * (pktNumber n % 2 ^ b.logn))
      let g := queueAgent b
      let over_ := retirePackets (modPacket s q n (fun r => { r with written := true })) q
      if functionHeld s 5 || !carriedReady s noCore 4 p.moment then done again
      else
        match agentRead s g a 16, agentCheck s g a 16 with
        | .wait, _ => done again
        | _, .wait => done again
        | .ok old, .ok _ => if slotTaken old then done again else done (agentPut over_ g a (completionBytes p))
        | _, .fail _ _ => done over_
        | .fail _ _, .ok _ => done (agentPut over_ g a (completionBytes p))

end Sys2Proof.Machine
end

