-- ==== Sys2Proof/Machine/Ingress.lean ====
section
/-! DEFINITION. Frames from the Ethernet ports: their check, stamp, classification and the way into a ring or the key space; and the
RDMA writes of hosts (R337, R391-R396, R399). -/

namespace Sys2Proof.Machine

/-! ### The classifier (R391-R393) -/

/-- A number from bytes in the order of transmission. -/
def beNat (bs : List Byte) : Nat := bs.foldl (fun n b => n * 256 + b.toNat) 0

/-- The field of a frame from a byte offset, in the order of transmission. -/
def frameField (bs : List Byte) (lo n : Nat) : Nat := beNat ((bs.drop lo).take n)

/-- Whether a type field announces a VLAN tag (log 17). -/
def vlanType (n : Nat) : Bool := n == 0x8100 || n == 0x88A8

/-- The EtherType after the VLAN tags from an offset (R393). -/
def etherType (bs : List Byte) (fuel lo : Nat) : Nat :=
  match fuel with
  | 0 => frameField bs lo 2
  | f + 1 => if vlanType (frameField bs lo 2) && decide (lo + 6 ≤ bs.length) then etherType bs f (lo + 4) else frameField bs lo 2

/-- The outer VLAN identifier of a frame, if it has a tag. -/
def outerVlan (bs : List Byte) : Option Nat :=
  if vlanType (frameField bs 12 2) && decide (18 ≤ bs.length) then some (frameField bs 14 2 % 2 ^ 12) else none

/-- Whether a classifier entry matches a frame (R393). -/
def classMatches (e : ClassEntry) (port : Nat) (bs : List Byte) : Bool :=
  e.valid && e.ports.getLsbD port && (!e.etm || etherType bs (bs.length / 4) 12 == e.etype.toNat) &&
    (!e.vm || outerVlan bs == some e.vid.toNat) && (!e.dm || frameField bs 0 6 == e.dmac.toNat)

/-- The classifier entry of a number, valid or not. -/
def getClass (s : State) (i : Nat) : Option ClassEntry := tabGet none s.classifier i

/-- The first entry in ascending order that matches a frame, with its ingress queue (R392). -/
def classify (s : State) (port : Nat) (bs : List Byte) : Option (Nat × Nat) :=
  (List.range 1024).findSome? (fun i =>
    match getClass s i with
    | some e => if classMatches e port bs then some (i, e.queue % 4096) else none
    | none => none)

/-! ### Rings and tuples (R394-R396) -/

/-- An ingress queue. -/
def getIngress (s : State) (q : Nat) : IngressQueue := tabGet emptyIngress s.ingress q

/-- The state with an ingress queue replaced. -/
def setIngress (s : State) (q : Nat) (v : IngressQueue) : State := { s with ingress := tabSet s.ingress q v }

/-- The descriptor of a slot (R395); the bytes to which the rule gives no field are free values (log 4). -/
def slotBytesOf (s : State) (f : Framed) : List Byte :=
  leBytes 10 f.ts.toNat ++ [freeByte s.fresh, freeByte (s.fresh + 1)] ++ leBytes 2 f.bytes.length ++
    [BitVec.ofNat 8 f.port, freeByte (s.fresh + 2)] ++ leBytes 2 f.entry ++ (List.range 38).map (fun i => freeByte (s.fresh + 3 + i)) ++
    leBytes 8 f.seq

/-- The agent of an ingress queue's accesses, which no remote window serves (R394, R514). -/
def ingressAgent (d : IngressDesc) : Agent := unitAgent (some d.part) d.ctxid false

/-- The state after the frame of a ring has been published: an urgent event follows (R54, R56, R395). -/
def afterRing (s : State) (d : IngressDesc) (f : Framed) (va : Nat) : State :=
  match d.urgent with
  | none => s
  | some c =>
    let args : List Word := [BitVec.ofNat 64 f.queue, BitVec.ofNat 64 f.seq, virtWord va, BitVec.ofNat 64 f.bytes.length]
    sendMsg s noCore c 0 none (.urgent { ltag := d.ultag, entry := BitVec.ofNat 48 d.uentry, args := args })

/-- The state after a dropped frame of a queue (R396). -/
def dropFrame (s : State) (q : Nat) : State := count s (.queueDrops q) 1

/-- The state after a write of a slot has been cut off by a dead link: each byte outside SEQ stands as before or as the frame has it, as
a free value says (R396, log 4). -/
def lostWrite (s : State) (g : Agent) (slot : Nat) (bs : List Byte) : State :=
  let t := { s with fresh := s.fresh + 41 + bs.length }
  ((List.range bs.length).zip bs).foldl (fun u p =>
    if (56 ≤ p.1 ∧ p.1 < 64) ∨ Config.freeNat (s.fresh + 41 + p.1) % 2 = 0 then u else agentPut u g (virtWord (slot + p.1)) [p.2]) t

/-- A frame of a RING queue: written with its descriptor, or dropped; none while a page of the ring is held (R395, R396). Of a frame
whose write is lost to a dead link the slot holds the descriptor's and the frame's bytes as far as they came: a free value,
and no SEQ. -/
def ringFrame (s : State) (d : IngressDesc) (f : Framed) : Option State :=
  let g := ingressAgent d
  let slot := d.base + f.seq % 2 ^ d.logn * d.slotBytes
  match agentRead s g (virtWord d.cons) 8 with
  | .wait => none
  | .fail _ _ => some (dropFrame s f.queue)
  | .ok cons =>
    if leNat cons + 2 ^ d.logn ≤ f.seq ∨ d.slotBytes - 64 < f.bytes.length then some (dropFrame s f.queue)
    else
      match agentCheck s g (virtWord slot) (64 + f.bytes.length) with
      | .wait => none
      | .fail _ _ => some (dropFrame s f.queue)
      | .ok _ =>
        if (getIngress s f.queue).lossy then
          let all := slotBytesOf s f ++ f.bytes
          let t := lostWrite (setIngress s f.queue { getIngress s f.queue with lossy := false }) g slot all
          some (dropFrame t f.queue)
        else
          let t := agentPut s g (virtWord slot) (slotBytesOf s f ++ f.bytes)
          some (afterRing { t with fresh := t.fresh + 41 } d f (slot + 64))

/-- The key of a frame of a TUPLE queue (R395). -/
def frameKey (d : IngressDesc) (f : Framed) : BitVec 256 :=
  BitVec.ofNat 256 (leNat (leBytes 4 d.key0.toNat ++ leBytes 4 d.key1.toNat ++ leBytes 4 f.queue ++ leBytes 8 f.seq ++ leBytes 10 f.ts.toNat ++
    leBytes 2 (f.port % 8)))

/-- A frame of a TUPLE queue: an untyped deposit (R395, R427). -/
def tupleFrame (s : State) (d : IngressDesc) (f : Framed) : State :=
  let key := frameKey d f
  sendReq s (.ingress f.queue) noCore d.ctxid (keyHash key) (.put key 0 f.bytes) none

/-- The state after a classified frame has been written or deposited, or none while a page of its ring is held (R395). -/
def writeFrame (s : State) (d : IngressDesc) (f : Framed) : Option State :=
  match d.mode with
  | .ring => ringFrame s d f
  | .tuple => some (tupleFrame s d f)

/-- The state with the frames of an ingress queue that wait. -/
def setWaits (s : State) (q : Nat) (fs : List Framed) : State := setIngress s q { getIngress s q with waits := fs }

/-- The event with which a frame that waits for a page of its ring is tried again. -/
def frameAgain (f : Framed) : Event := .frameReceive f.port true f.ts f.bytes

/-- The state after a frame has passed the classifier: it takes its queue's next number, and is written, or waits for a held page of its
ring or behind the frames of its queue that wait already, so that they are written in the order of their numbers (R392, R395, R516). -/
def passFrame (s : State) (port : Nat) (ts : BitVec 80) (bytes : List Byte) : State :=
  match classify s port bytes with
  | none => count s (.portDrops port) 1
  | some (entry, q) =>
    let v := getIngress s q
    match v.desc with
    | none => count s (.portDrops port) 1
    | some d =>
      let f : Framed := { port := port, ts := ts, bytes := bytes, entry := entry, queue := q, seq := v.seq.toNat }
      let t := setIngress s q { v with seq := v.seq + 1 }
      if !v.waits.isEmpty then setWaits t q (v.waits ++ [f])
      else
        match writeFrame t d f with
        | some u => u
        | none => push (setWaits t q [f]) (frameAgain f)

/-- The first frame of a queue that waits, where it is the frame received again; an identical frame behind it is a new one. -/
def frameWaiting (s : State) (port : Nat) (ts : BitVec 80) (bytes : List Byte) : Option Framed :=
  (s.ingress.findSome? (fun p => p.2.waits.head?.filter (fun f => f.port == port && f.ts == ts && f.bytes == bytes))).filter
    (fun f => !s.agenda.contains (frameAgain f))

/-- The state after the first frame that waits in a queue has been tried again; the next one follows it. -/
def tryFrame (s : State) (f : Framed) : State :=
  let rest := (getIngress s f.queue).waits.tail
  let next (u : State) : State := pushAll (setWaits u f.queue rest) (rest.head?.map frameAgain).toList
  match (getIngress s f.queue).desc with
  | none => next (dropFrame s f.queue)
  | some d =>
    match writeFrame s d f with
    | some u => next u
    | none => push s (frameAgain f)

/-- The bytes of the buffer that holds frames for host-assisted classification (R399). -/
def portBuffer : Nat := 2 ^ 20

/-- The bytes of the frames that wait at a port. -/
def portHeld (s : State) (port : Nat) : Nat := ((s.portFrames.filter (fun f => f.port == port)).map (fun f => f.bytes.length)).sum

/-- FRAME_RECEIVE (R391-R396, R399). -/
def execFrameReceive (port : Nat) (fcsOk : Bool) (ts : BitVec 80) (bytes : List Byte) (s : State) : Host.Outcome State Fault Refusal :=
  match fcsOk, frameWaiting s port ts bytes with
  | true, some f => done (if frontFailed s || functionHeld s 3 then push s (frameAgain f) else tryFrame s f)
  | _, _ =>
    if !fcsOk || frontFailed s then done (count s (.portDrops port) 1)
    else if functionHeld s 3 then
      if portBuffer < portHeld s port + bytes.length then done (count s (.portDrops port) 1)
      else done { s with portFrames := s.portFrames ++ [{ port := port, ts := ts, bytes := bytes }] }
    else done (passFrame s port ts bytes)

/-- The state with the frames that waited at the ports sent on to the classifier, in their order (R399). -/
def resumeFrames (s : State) : State :=
  { s with portFrames := [], agenda := s.agenda ++ s.portFrames.map (fun f => .frameReceive f.port true f.ts f.bytes) }

/-! ### Hosts (R337) -/

/-- A host's write performed in one step, through the tables of a context; a write that its page does not permit has no effect in the
module (log 18); none while its page is on HOLD. -/
def hostWrite (s : State) (ctx : Nat) (va : Word) (bytes : List Byte) : Option State :=
  let g := unitAgent none ctx false
  match (if virtRange va bytes.length then agentCheck s g va bytes.length else .fail 1 va) with
  | .wait => none
  | .fail _ _ => some s
  | .ok _ => some (agentPut s g va bytes)

/-- The state after the items of a connection that wait have been taken up: doorbells at the front are performed, and the first write
comes next. -/
def nextItems (s : State) (conn fuel : Nat) : State :=
  match fuel with
  | 0 => s
  | f + 1 =>
    match s.hostWaits.find? (fun i => itemConn i == conn) with
    | some (.bell c q v) => nextItems (ringBell { s with hostWaits := s.hostWaits.erase (.bell c q v) } q v) conn f
    | some (.write c x va bs) => push s (.hostRdmaWrite c x va bs)
    | none => s

/-- HOST_RDMA_WRITE: the writes of one connection are performed in order, and its doorbells after them (R337): one behind another that
waits waits too. Of two identical writes that are due, one is the write that waits at the front tried again, and the other a new one. -/
def execHostRdmaWrite (conn ctx : Nat) (va : Word) (bytes : List Byte) (s : State) : Host.Outcome State Fault Refusal :=
  let me : HostItem := .write conn ctx va bytes
  match s.hostWaits.find? (fun i => itemConn i == conn) with
  | none =>
    (match hostWrite s ctx va bytes with
     | some t => done t
     | none => done (push { s with hostWaits := s.hostWaits ++ [me] } (.hostRdmaWrite conn ctx va bytes)))
  | some i =>
    if i ≠ me ∨ s.agenda.contains (.hostRdmaWrite conn ctx va bytes) = true then done { s with hostWaits := s.hostWaits ++ [me] }
    else
      match hostWrite s ctx va bytes with
      | some t => done (nextItems { t with hostWaits := t.hostWaits.erase me } conn (s.hostWaits.length + 1))
      | none => done (push s (.hostRdmaWrite conn ctx va bytes))

end Sys2Proof.Machine
end

