-- ==== Sys2Proof/Machine/Firmware.lean ====
section
/-! DEFINITION. Bring-up, firmware trust, the watchdog, attestation, the tables that firmware writes, and the current monitors (R32,
R375, R393, R394, R399, R400, R459, R463, R510, R514, R535, R570-R579). -/

namespace Sys2Proof.Machine

/-! ### Blocks (R570-R572) -/

/-- The blocks of each unlock stage, in order (R572). -/
def fwStages : List (List FwBlock) :=
  [(List.range 24).map FwBlock.foreman, [.frontEnd], (List.range 16).map FwBlock.stackEngine]

/-- The TARGET of a block's images (R570). -/
def fwTarget (b : FwBlock) : Nat :=
  match b with
  | .foreman _ => 1
  | .frontEnd => 2
  | .stackEngine _ => 3

/-- A block's firmware state. -/
def findFw (s : State) (b : FwBlock) : Option FwState := s.firmware.find? (fun f => f.blk == b)

/-- The state with a block's firmware state changed. -/
def modFw (s : State) (b : FwBlock) (f : FwState → FwState) : State :=
  { s with firmware := s.firmware.map (fun x => if x.blk = b then f x else x) }

/-- Whether a block is in some state. -/
def fwIs (s : State) (b : FwBlock) (st : BlockState) : Bool := (findFw s b).any (fun f => f.state == st)

/-- Whether a block has reported ready or has failed. -/
def fwSettled (s : State) (b : FwBlock) : Bool := fwIs s b .ready || fwIs s b .failed

/-- The image of a block in flash. -/
def flashImage (s : State) (b : FwBlock) : Option Image := (s.flash.find? (fun f => f.blk == b)).map (·.img)

/-- The header constant of an image (R570). -/
def imageMagic : BitVec 32 := 0x4F524F31

/-- Whether the Banksman accepts an image for a block (R571). -/
def acceptsImage (s : State) (b : FwBlock) (i : Image) : Bool :=
  i.magic == imageMagic && i.target == fwTarget b && i.digestOk && i.sigOk && decide (tabGet 0 s.minSvn (fwTarget b) ≤ i.svn)

/-- The state after a block has failed: a Foreman's leave pool holds no units (R572). -/
def failBlock (s : State) (b : FwBlock) : State :=
  let t := modFw s b (fun f => { f with state := .failed })
  match b with
  | .foreman d => setPool t d { getPool t d with cap := 0 }
  | _ => t

/-- The state with the image of a block sent to its check; a block that has none fails (R570, R572). -/
def verifyBlock (s : State) (b : FwBlock) : State :=
  match flashImage s b with
  | some i => push s (.imageVerify b i)
  | none => failBlock s b

/-- The state with a stage begun: the blocks that no image has been measured for. -/
def startStage (s : State) (bs : List FwBlock) : State :=
  (bs.filter (fun b => (findFw s b).any (fun f => f.state == .held && f.measurement == 0))).foldl verifyBlock s

/-- The state with every stage begun whose earlier stages are settled (R572). -/
def advanceStages (s : State) (stages : List (List FwBlock)) : State :=
  match stages with
  | [] => s
  | bs :: r =>
    let t := startStage s bs
    if bs.all (fwSettled t) then advanceStages t r else t

/-- POWER_ON: every core but the Banksman is held in reset, and the Foremans' images are loaded; fuses and the memory outside the
module keep their contents (R570, R572). -/
def execPowerOn (flash : List FlashImage) (s : State) : Host.Outcome State Fault Refusal :=
  let held (b : FwBlock) : FwState := { blk := b, state := .held, measurement := 0, svn := 0, missed := 0 }
  done (advanceStages
    { State.reset with
      fresh := s.fresh, nextId := s.nextId, turn := s.turn, agenda := s.agenda, focus := s.focus, remote := s.remote, minSvn := s.minSvn,
      flash := flash, firmware := fwStages.flatten.map held } fwStages)

/-- IMAGE_VERIFY: a block held in reset is unlocked with an image that passes every check; any other image is never run (R571). -/
def execImageVerify (blk : FwBlock) (img : Image) (s : State) : Host.Outcome State Fault Refusal :=
  if !fwIs s blk .held then done s
  else if acceptsImage s blk img then
    done (push (modFw s blk (fun f => { f with state := .accepted, measurement := img.digest, svn := img.svn })) (.blockReady blk))
  else done (advanceStages (failBlock s blk) fwStages)

/-- The state with the front end's functions going on: doorbells and frames that waited are taken up (R381, R399). -/
def resumeFront (s : State) : State :=
  resumeFrames (pushAll s ((s.queues.filter (fun p => p.2.latch.isSome || p.2.head != p.2.tail || p.2.shadowDue)).map (fun p => .packetFetch p.1)))

/-- FRONT_END_MODE_WRITE: every event lies at a packet and frame boundary, and what stood still under the old mode goes on (R398, R399);
during a replacement the bits are those to be restored (R400). -/
def execFrontEndModeWrite (v : BitVec 6) (s : State) : Host.Outcome State Fault Refusal :=
  done (if s.feSaved.isSome then { s with feSaved := some v } else resumeFront { s with feMode := v })

/-- BLOCK_READY (R572). -/
def execBlockReady (blk : FwBlock) (s : State) : Host.Outcome State Fault Refusal :=
  if !fwIs s blk .accepted then done s
  else
    let t := advanceStages (modFw s blk (fun f => { f with state := .ready, missed := 0 })) fwStages
    done (if blk = .frontEnd then resumeFront t else t)

/-- MIN_SVN_RAISE: only on a signed request, and never lowered (R571). -/
def execMinSvnRaise (target svn : Nat) (signed : Bool) (s : State) : Host.Outcome State Fault Refusal :=
  if signed = true ∧ tabGet 0 s.minSvn target < svn then done { s with minSvn := tabSet s.minSvn target svn } else done s

/-! ### Attestation (R573) -/

/-- A block and its state as numbers, for the signature of a report. -/
def fwNumbers (f : FwState) : List Nat :=
  let blk := match f.blk with
    | .foreman d => 100 + d
    | .frontEnd => 200
    | .stackEngine i => 300 + i
  let st := match f.state with
    | .ready => 1
    | .failed => 2
    | _ => 0
  [blk, st, f.measurement.toNat, f.svn]

/-- ATTESTATION_REQUEST: the report of the Banksman, signed (R573). -/
def execAttestationRequest (nonce : BitVec 256) (s : State) : Host.Outcome State Fault Refusal :=
  let body := [nonce.toNat, Config.deviceId] ++ (s.firmware.map fwNumbers).flatten ++ [s.replacements]
  done { s with reports := s.reports ++
    [{ nonce := nonce, device := Config.deviceId, blocks := s.firmware, replacements := s.replacements, signature := Config.signature body }] }

/-! ### The watchdog and replacement (R399, R400, R574, R576) -/

/-- HEARTBEAT: a block that misses two in a row is reset (R574). -/
def execHeartbeat (blk : FwBlock) (answered : Bool) (s : State) : Host.Outcome State Fault Refusal :=
  match findFw s blk with
  | none => done s
  | some f =>
    if f.state ≠ .ready then done s
    else if answered then done (modFw s blk (fun x => { x with missed := 0 }))
    else
      let t := modFw s blk (fun x => { x with missed := x.missed + 1 })
      done (if 2 ≤ f.missed + 1 then push t (.firmwareWatchdogReset blk) else t)

/-- Whether a home belongs to a stack engine of this module (R425). -/
def homeOfStack (s : State) (stack h : Nat) : Bool := homeLocal s h && h % 64 / 4 == stack

/-- Whether a request at a home still owes its status: one that has not been performed, or a waiter in .blk mode (log 19). -/
def owesStatus (r : KeyReq) : Bool :=
  (r.tag.isNone || r.assayed) &&
    (match r.ask with
     | .read _ _ _ _ d => !contDest d
     | .redeposit _ => false
     | _ => true)

/-- The state with the operations in progress at the homes of a stack engine ended LOST; no stored tuple is lost (R574, log 19). -/
def loseHomes (s : State) (stack : Nat) : State :=
  let way := s.keyReqs.filter (fun r => homeOfStack s stack r.home && owesStatus r)
  let waits := ((s.homes.filter (fun h => homeOfStack s stack h.1)).map (fun h => h.2.waiters.filter owesStatus)).flatten
  let t := { s with
    keyReqs := s.keyReqs.filter (fun r => !(way.any (fun q => q.id == r.id))),
    homes := s.homes.map (fun h => if homeOfStack s stack h.1 then (h.1, promote { h.2 with waiters := h.2.waiters.filter (fun r => !owesStatus r) }) else h) }
  (way ++ waits).foldl (fun u r => answerReq u r.home r (.status 7 false)) t

/-- FIRMWARE_WATCHDOG_RESET: the block is held, its image measured again and restarted (R574). -/
def execFirmwareWatchdogReset (blk : FwBlock) (s : State) : Host.Outcome State Fault Refusal :=
  match findFw s blk with
  | none => done s
  | some f =>
    if f.missed < 2 ∨ f.state ≠ .ready then done s
    else
      let t := verifyBlock (modFw s blk (fun x => { x with state := .held, missed := 0 })) blk
      done (match blk with
        | .stackEngine i => loseHomes t i
        | _ => t)

/-- Whether a block is quiet enough for a replacement (R400, R576): of the front end no control-block update is uncommitted; of a
Foreman no fault request is outstanding and no kill in progress. -/
def fwQuiet (s : State) (b : FwBlock) : Bool :=
  match b with
  | .frontEnd => s.queues.all (fun p => !p.2.pendingCommit)
  | .foreman _ => s.fq.isEmpty && s.mapChanges.all (fun m => !m.kill)
  | .stackEngine _ => true

/-- The state with the front end's six functions in hardware mode while its firmware is replaced, and the mode bits kept (R400). -/
def holdMode (s : State) (b : FwBlock) : State :=
  if b = .frontEnd ∧ s.feSaved.isNone = true then { s with feSaved := some s.feMode, feMode := 0 } else s

/-- The state with the mode bits as they stood before the replacement (R400). -/
def giveMode (s : State) (b : FwBlock) : State :=
  match s.feSaved with
  | some v => if b = .frontEnd then { s with feSaved := none, feMode := v } else s
  | none => s

/-- FIRMWARE_REPLACE: the new image is measured and takes over at a quiet point; the functions of the front end run in hardware mode
until then, and its mode bits stand as before afterwards (R400, R576). -/
def execFirmwareReplace (blk : FwBlock) (img : Image) (s : State) : Host.Outcome State Fault Refusal :=
  if !fwIs s blk .ready || !acceptsImage s blk img then done (giveMode s blk)
  else if !fwQuiet s blk then done (push (holdMode s blk) (.firmwareReplace blk img))
  else
    let t := giveMode (modFw s blk (fun f => { f with measurement := img.digest, svn := img.svn, missed := 0 })) blk
    done { t with
      replacements := t.replacements + 1,
      flash := t.flash.filter (fun f => f.blk != blk) ++ [{ blk := blk, img := img }] }

/-! ### Leave capacity (R535, R577, R579) -/

/-- The state with a pool's capacity set: where that makes units free event bit 3 latches, and requests that wait may then be granted
(R246, R535). -/
def setCap (s : State) (die cap : Nat) : State :=
  let t := setPool s die { getPool s die with cap := cap }
  pushAll (if poolFree s die < poolFree t die then wakeLeave t die else t)
    (((List.range 8).filter (fun p => decide (0 < clustersOn s p die))).map (fun p => .leaveGrant die p))

/-- Whether the Foreman of a die has failed (R572). -/
def foremanFailed (s : State) (die : Nat) : Bool := fwIs s (.foreman die) .failed

/-- LEAVE_CAP_WRITE (R535). -/
def execLeaveCapWrite (die cap : Nat) (s : State) : Host.Outcome State Fault Refusal :=
  if 24 ≤ die ∨ foremanFailed s die = true then done s else done (setCap s die (cap % 2 ^ 16))

/-- One eighth of the reset capacity (R579, log 20). -/
def capStep : Nat := 118

/-- The state with the capacity of every Foreman's pool changed. -/
def mapCaps (s : State) (f : Nat → Nat) : State :=
  ((List.range 24).filter (fun d => !foremanFailed s d)).foldl (fun t d => setCap t d (f (getPool t d).cap)) s

/-- CURRENT_MONITOR_HIGH: every Foreman lowers CAP by one step, down to 474 (R579). -/
def execCurrentMonitorHigh (s : State) : Host.Outcome State Fault Refusal :=
  done (mapCaps s (fun cap => Nat.min cap (Nat.max 474 (cap - capStep))))

/-- CURRENT_MONITOR_LOW_SUSTAINED: CAP rises by one step, up to its reset value (R579). -/
def execCurrentMonitorLowSustained (s : State) : Host.Outcome State Fault Refusal :=
  done (mapCaps s (fun cap => Nat.max cap (Nat.min 948 (cap + capStep))))

/-! ### Tables written by firmware -/

/-- The physical clusters that partitions other than one hold. -/
def clustersTaken (s : State) (p : Nat) : List Nat :=
  ((s.parts.filter (fun q => q.1 != p && partHolds q.2)).map (fun q => q.2.clusters.map (physCluster s))).flatten

/-- Whether a partition may be set to a list of clusters (R32, R535, R572). -/
def partitionOk (s : State) (p : Nat) (clusters : List Nat) : Bool :=
  let old := getPart s p
  let dies := (clusters ++ old.clusters).map (fun c => physCluster s c / 8)
  decide (p < 8) && decide clusters.Nodup && clusters.all (fun c => decide (c < 192)) && (old.state == .absent || old.state == .live) &&
    clusters.all (fun c => !(clustersTaken s p).contains (physCluster s c) && !foremanFailed s (mapOf s (c * 16)).pdie) &&
    s.parts.all (fun q => q.1 == p || q.2.state == .absent || clusters.all (fun c => !q.2.clusters.contains c)) &&
    ((clusters ++ old.clusters).map clusterCores).flatten.all (fun c => coreHalted (getCore s c)) &&
    s.parts.all (fun q => !q.2.clusters.any (fun c => dies.contains (physCluster s c / 8)) || partHalted s q.2)

/-- The state with a partition's clusters set; a cluster that it did not hold brings nothing of its last partition's data (R6), and its
idle cores look for work (R32, R48). -/
def writePartition (s : State) (p ctxid : Nat) (clusters : List Nat) : State :=
  let q : Partition :=
    { getPart s p with state := if clusters.isEmpty then .absent else .live, ctxid := ctxid % 2 ^ 16, clusters := clusters, saved := [] }
  let t := ((clusters ++ (getPart s p).clusters).map (fun c => physCluster s c / 8)).eraseDups.foldl redivide (setPart s p q)
  let new := ((clusters.filter (fun c => !(getPart s p).clusters.contains c)).map clusterCores).flatten
  let t := (new.filter (fun c => (t.cores.map (·.1)).contains c)).foldl scrubCore t
  pushAll t ((((clusters.map clusterCores).flatten).filter (fun c => (getCore t c).state == .idle)).map (fun c => .activationChoose c))

/-- Whether an ingress descriptor is within the limits of R394. -/
def ingressOk (s : State) (d : IngressDesc) : Bool :=
  decide (d.part < 8) &&
    (match d.mode with
     | .ring =>
       d.base % 64 == 0 && decide (4 ≤ d.logn) && decide (d.logn ≤ 16) && [2048, 4096, 8192, 16384].contains d.slotBytes &&
         (match d.urgent with
          | some c => decide (c < coreCount) && holdsCore (getPart s d.part) c
          | none => true)
     | .tuple => !d.key1.msb)

/-- The homes of this module that bring-up has left present (R456, R572). -/
def localHomes (s : State) (localMod : Nat) : List (Nat × Bool) :=
  (List.range 64).map (fun i => (64 * localMod + i, !fwIs s (.stackEngine (i / 4)) .failed))

/-- The heap region that bring-up gives a home of this module: 1 GiB of its stack's memory (R463, log 21). -/
def heapRegion (i : Nat) : Nat × Nat := ((i / 4) * 2 ^ 30 * 48 + i % 4 * 2 ^ 30, 2 ^ 30)

/-- The state with the key-space domain set: the initial map over the homes present, of the other modules all but those named, and this
module's heaps (R459, R463). -/
def writeDomain (s : State) (modules localMod : Nat) (absent : List Nat) : State :=
  let own := localHomes s localMod
  let all := ((List.range modules).map (fun m =>
    if m = localMod then (own.filter (·.2)).map (·.1)
    else ((List.range 64).map (fun i => 64 * m + i)).filter (fun h => !absent.contains h))).flatten
  let homes := own.foldl (fun t h =>
    let r := heapRegion (h.1 % 64)
    tabSet t h.1 { tabGet emptyHome t h.1 with present := h.2, heapBase := r.1, heapSize := r.2 }) s.homes
  { s with domainModules := modules, localMod := localMod, homes := homes, absentHomes := absent, homeMap := initialMap all, mapCopies := [] }

/-- The state with the worker cores of a die released from reset by their Foreman (R572). -/
def releaseDie (s : State) (die : Nat) : State :=
  let cs := ((List.range 128).map (fun i => die * 128 + i)).filter (fun c => (getCore s c).state == .reset)
  pushAll (cs.foldl (fun t c => modCore t c (fun k => { k with state := .idle })) s) (cs.map (fun c => .activationChoose c))

/-- FIRMWARE_TABLE_WRITE: a write outside the limits of its table changes nothing. -/
def execFirmwareTableWrite (w : FwWrite) (s : State) : Host.Outcome State Fault Refusal :=
  match w with
  | .partition p ctxid clusters => done (if partitionOk s p clusters then writePartition s p ctxid clusters else s)
  | .classifier i e => done (if i < 1024 then { s with classifier := tabSet s.classifier i (some e) } else s)
  | .ingress iq d => done (if iq < 4096 ∧ ingressOk s d = true then setIngress s iq { desc := some d, seq := 0, lossy := false } else s)
  | .ctxBase st base => done (if st < 48 then { s with stations := tabSet s.stations st { getStation s st with ctxBase := base } } else s)
  | .winBase st base => done (if st < 48 then { s with stations := tabSet s.stations st { getStation s st with winBase := base } } else s)
  | .svbase c v => done (if c < coreCount then modSys s c (fun y => { y with svbase := v &&& ~~~63 }) else s)
  | .domain modules localMod absent =>
    done (if 1 ≤ modules ∧ modules ≤ 16 ∧ localMod < modules then writeDomain s modules localMod absent else s)
  | .releaseCores die => done (if die < 24 ∧ fwIs s (.foreman die) .ready = true then releaseDie s die else s)
  | .memory pa bytes => done (if pa + bytes.length ≤ physLimit then physWrite (dropCopies s pa bytes.length) pa bytes else s)
  | .clearCounter k => done { s with counters := s.counters.filter (fun p => p.1 != k) }

end Sys2Proof.Machine
end

