-- ==== Sys2Proof/Machine/Faults.lean ====
section
/-! DEFINITION. What the mesh and the fault queues do by themselves: the answers of a Foreman to parked requests, deadlock recovery, and
the loss of what is in flight on a dead link (R298, R404-R410, R437, R447). -/

namespace Sys2Proof.Machine

/-! ### Parked requests (R408, R409) -/

/-- The number under which a parked request is named to its Foreman: 3 apart, by what it is (log 22). -/
def parkedNo (p : Parked) : Nat :=
  match p with
  | .access id => 3 * id
  | .row op row => 3 * (op * 2 ^ 40 + row) + 1
  | .packet q n => 3 * (n * 2 ^ 16 + q) + 2

/-- The entry of a port that waits on its own fault under a number. -/
def ownEntry (s : State) (port n : Nat) : Option FaultEntry :=
  s.fq.find? (fun e => e.port == port && e.own && parkedNo e.what == n)

/-- The core of a parked access. -/
def parkedCore (s : State) (p : Parked) : Option Nat :=
  match p with
  | .access id => (findAcc s id).map (·.core)
  | _ => none

/-- The accesses of a core parked at a port, in park order. -/
def parkedOf (s : State) (port core : Nat) : List Nat :=
  (s.fq.filter (fun e => e.port == port)).filterMap (fun e =>
    match e.what with
    | .access id => if parkedCore s e.what = some core then some id else none
    | _ => none)

/-- The state with the accesses of a core parked at a port translated again, in park order (R409). -/
def replayAccs (s : State) (port core : Nat) : State :=
  let ids := parkedOf s port core
  let t := { s with fq := s.fq.filter (fun e => !(e.port == port && (parkedCore s e.what == some core))) }
  ids.foldl (fun u id => push (stageAcc u id .sent) (.stationTranslate id)) t

/-- The state without an entry of a fault queue. -/
def dropEntry (s : State) (e : FaultEntry) : State := { s with fq := s.fq.filter (fun f => f != e) }

/-- The event that tries a parked row again: of a copy, of an MS packet or result, of a chunk, or of a COPY packet. -/
def rowEvent (s : State) (o : Op) (row : Nat) : Option Event :=
  match o.body with
  | .copy _ => some (.copyRowComplete o.id row)
  | .ms _ => some (if row % 4 = 0 then .msPacketExecute o.id else .msComplete o.id)
  | .col _ => some (.chunkEnd (dieOf s o.core))
  | _ => none

/-- FAULT_RESOLVE: the port replays what it has parked, in park order (R409). -/
def execFaultResolve (port n : Nat) (s : State) : Host.Outcome State Fault Refusal :=
  match ownEntry s port n with
  | none => done s
  | some e =>
    match e.what with
    | .access id =>
      match findAcc s id with
      | some a => done (replayAccs s port a.core)
      | none => done (dropEntry s e)
    | .row op row =>
      match (findOp s op).bind (fun o => rowEvent s o row) with
      | some v => done (push (dropEntry s e) v)
      | none => done (dropEntry s e)
    | .packet q k => done (push (dropEntry s e) (.copyPacket q k))

/-- The code of a copy's row whose page fault is declined: SRCFAIL for its source, else DSTFAIL (R298, R299). -/
def copyDecline (s : State) (o : Op) (p : CopyOp) (row : Nat) : Nat :=
  match rowRead (opView s o) o.core (copyRowAddr p.cx.src p.cx.rstride (copySides p row).1) p.cx.rbytes.toNat with
  | .fail 0 _ => 1
  | _ => 2

/-- The code of an MS access whose page fault is declined, by its direction (R352). -/
def msDecline (s : State) (o : Op) (m : MsOp) (row : Nat) : Nat :=
  let g := msAgent s o m
  let readFails (a : Word) (n : Nat) : Bool := match agentRead s g a n with | .fail 0 _ => true | _ => false
  let rowFails (r : Nat) : Bool := match readRowPieces s g (rowPieces m r) with | .fail 0 _ => true | _ => false
  if row % 4 ≠ 0 then 2
  else if !m.checked then 1
  else
    match m.kind, (openPositions m (row / 4)) with
    | .ired, _ => 1
    | .iscat, p :: _ => if readFails (areaRow m (bagAt m p)) (4 * m.cols) then 1 else 2
    | .topk _, p :: _ => if rowFails p then 1 else 2
    | _, [] => 2

/-- The state after the page fault of an operation's row has been declined: the row fails (R299, R352, R422). -/
def declineRow (s : State) (o : Op) (row : Nat) : State :=
  match o.body with
  | .copy p => failCopyRow s o p row 1 (copyDecline s o p row) 0
  | .ms m =>
    if row = wordRowNo then endMs s o m else push (putMs s o { m with code := msDecline s o m row }) (.msComplete o.id)
  | .col c =>
    match (getEngine s (dieOf s o.core)).parked.find? (fun r => r.op == o.id && r.idx == row), findInst s c.comm c.inst with
    | some r, some x => endChunk s (dieOf s o.core) o c x r 2
    | _, _ => s
  | _ => s

/-- The state after a Foreman has declined a fault, or has not answered: the request is refused and counted, and those behind it are
replayed (R331, R409). -/
def declineFault (s : State) (port n : Nat) : State :=
  match ownEntry s port n with
  | none => s
  | some e =>
    let t := count (dropEntry s e) (.refusals port) 1
    match e.what with
    | .access id =>
      match findAcc s id with
      | some a => replayAccs (failAcc t a 1 a.addr) port a.core
      | none => t
    | .row op row =>
      match findOp t op with
      | some o => declineRow t o row
      | none => t
    | .packet q k => finishPacket t q k 6 (match findPacket t q k with | some p => copyPacketDecline t p | none => 2) false

/-- FAULT_DECLINE (R409). -/
def execFaultDecline (port n : Nat) (s : State) : Host.Outcome State Fault Refusal := done (declineFault s port n)

/-- FAULT_RESOLVE_TIMEOUT (R409). -/
def execFaultResolveTimeout (port n : Nat) (s : State) : Host.Outcome State Fault Refusal := done (declineFault s port n)

/-! ### Flows and the escape channel (R404, R405) -/

/-- The number of an endpoint. -/
def endNo (p : Nat × Nat) : Nat := p.1 + 8192 * p.2

/-- The number by which a flow is named while its endpoint is not known: that of the station port where it stands. -/
def portNo (port : Nat) : Nat := 2 ^ 60 + port

/-- The endpoint of an access as its flow names it: its target, its home or connection, as its translation gives it; its station where
that is not known. -/
def accDst (s : State) (a : Access) : Nat :=
  match accEnd a, (placesOf s a.core a.addr 1).head? with
  | some p, _ => endNo p
  | none, some p => endNo (placeEnd p.1)
  | none, none => portNo (portOf s a)

/-- The flow of a packet in flight: of an access, a task message, a key request, a combine command or a stack engine's command; what
belongs to no flow has none (R321). A collective's command is performed at its issue. -/
def flowOf (s : State) (n : Nat) : Option Escaped :=
  match findAcc s n, findMsg s n, findReq s n, findCmb s n with
  | some a, _, _, _ => some { core := a.core, cls := 0, dst := accDst s a }
  | _, some m, _, _ => if inFlow m.body then some { core := m.core, cls := 1, dst := m.target } else none
  | _, _, some r, _ => (issuerCore r.issuer).map (fun c => { core := c, cls := 2, dst := r.home })
  | _, _, _, some m => some { core := m.core, cls := 3, dst := m.slice }
  | _, _, _, _ =>
    match findOp s n with
    | none => none
    | some o =>
      match o.body with
      | .ms m => if m.checked then none else some { core := o.core, cls := 4, dst := 0 }
      | _ => none

/-- Whether a packet of a flow has still to be acknowledged (R404). A flow that escaped under its station stays until nothing is
outstanding there. -/
def flowOpen (s : State) (f : Escaped) : Bool :=
  if f.cls = 0 then
    s.accs.any (fun a => a.core == f.core && !accSettled a && (accDst s a == f.dst || (spaceOf a.addr == 4 && portNo (portOf s a) == f.dst)))
  else if f.cls = 1 then s.msgs.any (fun m => m.core == f.core && m.target == f.dst && inFlow m.body)
  else if f.cls = 2 then s.keyReqs.any (fun r => issuerCore r.issuer == some f.core && r.home == f.dst)
  else if f.cls = 3 then s.cmbMsgs.any (fun m => m.core == f.core && m.slice == f.dst)
  else s.ops.any (fun o => o.core == f.core && (match o.body with | .ms m => !m.checked | _ => false))

/-- The number of a flow. -/
def flowNo (f : Escaped) : Nat := (f.core * 8 + f.cls) * 2 ^ 80 + f.dst

/-- Whether a number names a packet in flight that belongs to no flow: a copy row, a delivery or a chunk (R405). -/
def looseNo (s : State) (n : Nat) : Bool :=
  (findMsg s n).isSome || (findOp s n).isSome || s.deliveries.any (fun d => d.id == n)

/-- The channel that carries a packet in flight: the escape channel once its flow, or it alone, has escaped (R402, R404, R405). -/
def channelOf (s : State) (n : Nat) : Channel :=
  match flowOf s n with
  | some f => if s.escaped.contains f then .esc else .req
  | none =>
    if s.escLoose.contains n then .esc
    else
      match findOp s n with
      | some o =>
        (match o.body with
         | .mcast _ => .mc
         | .col c => .col c.comm
         | _ => .req)
      | none => if s.deliveries.any (fun d => d.id == n) then .rsp else .req

/-- VC_DEADLOCK_TIMEOUT: the flow of the packet that stands at a router goes on the escape channel, or the packet alone where it belongs
to no flow, and the router counts an escape; no order changes (R404, R405). A packet of a flow that has escaped may still stand on the
ordinary channel, where it was sent before; one that escaped alone never blocks again. -/
def execVcDeadlockTimeout (p : StuckPacket) (s : State) : Host.Outcome State Fault Refusal :=
  let t := count s (.escapes p.router) 1
  match flowOf s p.packet with
  | none =>
    if !looseNo s p.packet || channelOf s p.packet == .esc then done s
    else done { t with escLoose := s.escLoose.filter (looseNo s) ++ [p.packet] }
  | some f => if s.escaped.contains f then done t else done (push { t with escaped := t.escaped ++ [f] } (.flowAck (flowNo f)))

/-- FLOW_ACK: an escaped flow with nothing outstanding returns to its ordinary channel (R404). -/
def execFlowAck (flow : Nat) (s : State) : Host.Outcome State Fault Refusal :=
  match s.escaped.find? (fun f => flowNo f == flow) with
  | none => done s
  | some f => if flowOpen s f then done (push s (.flowAck flow)) else done { s with escaped := s.escaped.filter (fun g => g != f) }

/-! ### Dead links (R269, R298, R307, R352, R422, R437, R447, R469) -/

/-- Whether an access is on its way, and not at a station port; one that has been performed cannot be lost any more (R330). -/
def accMoves (a : Access) : Bool :=
  match a.stage with
  | .parked _ => false
  | .held _ => false
  | .failed _ _ => false
  | .replied _ => false
  | _ => true

/-- The state after a task message has been lost: one with a status is answered as by an error message, the others go again (log 23). -/
def loseMsg (s : State) (m : TaskMsg) : State :=
  match m.body with
  | .callat _ => if m.tag.isSome then s else endMsg s m (taskStatus 4)
  | .mail _ _ _ => if m.tag.isSome then s else endMsg s m (taskStatus 4)
  | .rndclose _ => endMsg s m (barStatus 3 0)
  | _ => s

/-- The state after a key request has been lost before it was performed; a re-deposit goes again, so that no tuple is lost (R435,
R447). -/
def loseReq (s : State) (r : KeyReq) : State :=
  match r.ask with
  | .redeposit _ => s
  | .copy _ _ => abortSplit (dropReq s r.id) true
  | _ => if r.tag.isSome && !r.assayed then s else settleReq (dropReq s r.id) r r.home 7 (keyStatus 7 false false false r.forwarded 0)

/-- Whether a request is a KPUT, whose deposit LOST would deny (R447). -/
def asksPut (a : KeyAsk) : Bool :=
  match a with
  | .put _ _ _ => true
  | .fetch _ _ _ _ => true
  | _ => false

/-- The state after a delivery has been lost: LOST, to another module as well, and a taken tuple is given back (R437). What has left by
Waidric is on no link of this module; the answer to a KPUT is not lost but late, since a KPUT that is LOST has deposited nothing
(R447). -/
def loseDelivery (s : State) (d : KeyDelivery) : State :=
  let t := dropDelivery s d.id
  let lost := keyStatus 7 false false false d.req.forwarded 0
  match d.answer with
  | .serve tup take overflow =>
    if d.held then s
    else
      ackTake (answerUnit (giveServed t d tup overflow ((reqOps d.req).map (fun op => (op, .ended 7 false false)))) d.req d.home 7 lost) d tup take false
  | .stat _ => (reqOps d.req).foldl (fun u op => endOp u op (BitVec.ofInt 64 (-1))) t
  | .status _ _ => if asksPut d.req.ask then s else settleReq t d.req d.home 7 lost

/-- The state after a row, delivery or chunk of an engine operation has been lost: the event says which (R298, R307, R352, R422). -/
def loseRow (s : State) (o : Op) (i : Nat) : State :=
  match o.body with
  | .copy p => if (copyOpen p).contains i && !rowParked s o.id i then failCopyRow s o p i 3 3 0 else s
  | .mcast m =>
    (match m.receivers.find? (fun r => r.rank == i && receiverOpen r) with
     | some _ => if m.ended then s else push (putOp s { o with body := .mcast (setReceiver m i (fun r => { r with code := 3 })) }) (.multicastEnd o.id)
     | none => s)
  | .ms m =>
    if s.fq.any (fun e => match e.what with | .row n _ => n == o.id | _ => false) then s
    else if m.code = 0 ∧ (packetsOver m = false ∨ (resultDue m).isSome = true) then push (putMs s o { m with code := 3 }) (.msComplete o.id)
    else endMs s o m
  | .col c =>
    (match (chunksOn (getEngine s (dieOf s o.core))).find? (fun r => r.op == o.id && r.idx == i), findInst s c.comm c.inst with
     | some r, some x => if rowParked s o.id i then s else endChunk s (dieOf s o.core) o c x r 3
     | _, _ => s)
  | .split => abortSplit s true
  | _ => s

/-- The address of the row in progress of a memory tile instruction on a gang member. -/
def tileRowAt (s : State) (c : Nat) (u : TileUnit) (idx : Nat) : Word :=
  let x := getCtx s c
  let v := runValue x u
  match u.instr with
  | .tldg d _ _ => tileRowAddr v (memberTile (tileOr x d) idx) idx x.run.row
  | .tstg d _ _ => tileRowAddr v (memberTile (tileOr x d) idx) idx x.run.row
  | .mloadb _ _ _ _ _ l =>
    match (unitMembers s c u).find? (fun p => p.1 == idx) with
    | some p => v + BitVec.ofNat 64 (64 + x.run.row * (getSlot (getCore s p.2) l.toNat).pitch)
    | none => v
  | _ => v

/-- Whether the tile stream reads the header of an MLOADB on a member: the unit is about to begin, and nothing stops it before that
(R283, R284). -/
def headerRead (s : State) (c : Nat) (u : TileUnit) (member : Nat) : Bool :=
  let k := getCore s c
  let v := unitValue k.ctx u
  let ready := confirmed k.ctx u.gen && !bandHolds s c && !unitWaits s c u && !followersBusy s c u && !fenceHolds k.ctx u
  (match u.instr with | .mloadb _ _ _ _ _ _ => true | _ => false) && !k.ctx.run.begun && ready && v.isSome && (unitMembers s c u).any (fun p => p.1 == member) &&
    (unitMembers s c u).all (fun p =>
      if p.1 < member then mloadbCheck s c p.2 p.1 u.id u.instr v == .pass
      else decide (member < p.1) || mloadbStart s c p.2 u.id u.instr v == .pass)

/-- The state after the row of a member of the tile instruction in progress, or the header that it begins with, has been lost:
TILE_ACCESS of fault kind 3 (R190, R202, R282, R541). -/
def loseTileRow (s : State) (c member : Nat) : State :=
  let k := getCore s c
  match curUnit k.ctx with
  | none => s
  | some u =>
    if tileLive k && headerRead s c u member then raiseTileTrap s c u causeTileAccess (3 + member * 256) (runValue k.ctx u) 0
    else if !tileLive k || !k.ctx.run.begun || k.ctx.run.waitLeave || !isRowUnit u.instr || !(unitMembers s c u).any (fun p => p.1 == member) then s
    else raiseTileTrap s c u causeTileAccess (3 + member * 256) (tileRowAt s c u member) k.ctx.run.row

/-- The state after the fetch of the word at a core's pc has been lost: FETCH_FAULT of fault kind 3 (R541). -/
def loseFetch (s : State) (c : Nat) : State :=
  let k := getCore s c
  let x := k.ctx
  let runs := k.state == .running && !coreOut s c && x.tileTrap.isNone && !isFollower k && (stopCore s c).isNone && x.wait == .none
  match runs, fetchAt s c x.pc with
  | true, .word _ (some _) => fetchTrap s c { issueTrap (unitPc x) causeFetchFault 3 x.pc with faultpc := unitPc x }
  | _, _ => s

/-- The state after the item in flight of a number has been lost. -/
def loseItem (s : State) (n : Nat) : State :=
  match findAcc s n with
  | some a => if accMoves a then failAcc s a 3 a.addr else s
  | none =>
    match findMsg s n, findReq s n, s.deliveries.find? (fun d => d.id == n), findCmb s n with
    | some m, _, _, _ => loseMsg s m
    | _, some r, _, _ => loseReq s r
    | _, _, some d, _ => loseDelivery s d
    | _, _, _, some m => endOp (dropCmb s n) m.op (cmbStatus 3 0 0 0 0)
    | _, _, _, _ => s

/-- LINK_DEATH: what was in flight on the link is reported LOST. -/
def execLinkDeath (x : InFlight) (s : State) : Host.Outcome State Fault Refusal :=
  done (match x with
    | .item n => loseItem s n
    | .row op i => (match findOp s op with | some o => loseRow s o i | none => s)
    | .tileRow c member => loseTileRow s c member
    | .packet q n => losePacket s q n
    | .slot q => loseSlot s q
    | .fetch c => loseFetch s c
    | .ingress iq => setIngress s iq { getIngress s iq with lossy := true })

end Sys2Proof.Machine
end

