-- ==== Sys2Proof/Machine/Partition.lean ====
section
/-! DEFINITION. Partition switches, restores, gating and waking (R61, R286, R334, R424, R507, R551-R554, R578). -/

namespace Sys2Proof.Machine

/-! ### Switching out (R334, R550-R553) -/

/-- PARTITION_SWITCH_REQUEST: the cores of a partition are told to stop, and its collective instances are aborted (R424, R553). -/
def execPartitionSwitchRequest (p : Nat) (s : State) : Host.Outcome State Fault Refusal :=
  let q := getPart s p
  if q.state ≠ .live then done s
  else
    let t := (s.instances.filter (fun x => x.part == p && !x.ended)).foldl (fun t x => failInst t x 7) (setPart s p { q with state := .switching })
    done (push t (.partitionHalt p))

/-- Whether a core stands at a pre-emption point of R550, or runs nothing. A core stopped in a routine waits for its Foreman. -/
def coreStands (k : Core) : Bool :=
  match k.state with
  | .running => k.ctx.tileTrap.isNone && !k.ctx.sys.sup && decide (k.ctx.run.row % 8 = 0)
  | .stopped => k.stop == .none
  | _ => true

/-- The free values that a look at the other modules' homes may draw: one for each module and request number. -/
def haltSpan : Nat := 2 ^ 40

/-- Whether a key operation waits at its home, here or in another module: a waiter of R334. -/
def keyWaiting (s : State) (op : Nat) : Bool :=
  let is (r : KeyReq) : Bool := (reqOps r).contains op
  s.homes.any (fun h => h.2.waiters.any is) || s.waidric.any (fun w => w.2.outstanding.any (fun e => is e.2 && appendedThere s w.1 e.2))

/-- Whether an operation lets a halt be reached: it has ended but for what its receivers owe, or it is a waiter, or none of the
engines' (R301, R334). -/
def opRests (s : State) (o : Op) : Bool :=
  match o.body with
  | .mcast m => m.ended
  | .key => keyWaiting s o.id
  | .cmb => s.slices.any (fun v => v.2.waiting.any (fun m => m.op == o.id))
  | .fence => true
  | .leave _ => true
  | .barw _ => true
  | .cntrd _ _ => true
  | .task => true
  | _ => false

/-- Whether a message is a part of a steal that its thief and its victim have still to settle. -/
def isSteal (b : TaskBody) : Bool :=
  match b with
  | .stealReq _ _ _ => true
  | .stealReply _ => true
  | .stealAck _ => true
  | _ => false

/-- Whether the halt of R334 is reached for a list of cores. -/
def haltReached (s : State) (cs : List Nat) : Bool :=
  cs.all (fun c => coreStands (getCore s c)) &&
    s.accs.all (fun a => !cs.contains a.core) &&
    s.ops.all (fun o => !cs.contains o.core || opRests s o) &&
    s.fq.all (fun e => match e.what with
      | .access id => (findAcc s id).all (fun a => !cs.contains a.core)
      | .row op _ => (findOp s op).all (fun o => !cs.contains o.core)
      | .packet _ _ => true) &&
    s.msgs.all (fun m => !isSteal m.body || !(cs.contains m.core || cs.contains m.target)) &&
    s.mapChanges.all (fun m => !cs.contains m.core)

/-- The names of the LEAVEs of a core that wait. -/
def leaveOps (s : State) (c : Nat) : List Nat :=
  s.ops.filterMap (fun o =>
    match o.body with
    | .leave _ => if o.core = c then some o.id else none
    | _ => none)

/-- The reservations of the activations of a core. -/
def coreHeld (k : Core) : Nat :=
  k.ctx.sys.held.toNat + (match k.susp with | some x => x.sys.held.toNat | none => 0)

/-- The state with a core halted for a switch: a waiting GANG withdrawn, its leave returned and its waits for leave withdrawn, and
its live context as a pre-emption saves it (R373, R551, R552, R553). -/
def haltCore (s : State) (c : Nat) : State :=
  let k := getCore s c
  let sh := shareOf s c
  let t := match k.gang with
    | .waiting _ _ _ => leaveGang 0 s c
    | _ => s
  let t := returnRunLeave t c
  let t := (leaveOps t c).foldl (fun u n => dropWait u sh.2 (.op n)) t
  let t := [LeaveWho.tile c, .issue c, .restore c].foldl (fun u w => dropWait u sh.2 w) t
  let t := if k.state = .stopped then t else returnUnits t sh.1 sh.2 (coreHeld k)
  setCtx t c (savedCtx (getCtx t c))

/-- PARTITION_HALT (R334, R553). -/
def execPartitionHalt (p : Nat) (s : State) : Host.Outcome State Fault Refusal :=
  let q := getPart s p
  if q.state ≠ .switching then done s
  else if !haltReached s (coresOf q) then done (push { s with fresh := s.fresh + haltSpan } (.partitionHalt p))
  else
    let t := ((coresOf q).filter (fun c => (s.cores.map (·.1)).contains c)).foldl haltCore s
    done (push (setPart t p { q with state := .halted }) (.contextWriteOut p))

/-- A core of which no partition keeps anything: released from reset, idle. -/
def vacantCore : Core := { resetCore with state := .idle }

/-- Whether a core has state that a write-out saves. -/
def savesCore (k : Core) : Bool :=
  match k.state with
  | .killed => false
  | .reset => false
  | _ => true

/-- CONTEXT_WRITE_OUT: each core's context and its shadow image stand in the partition's context area, and the clusters are free
(R552, R553). -/
def execContextWriteOut (p : Nat) (s : State) : Host.Outcome State Fault Refusal :=
  let q := getPart s p
  if q.state ≠ .halted then done s
  else
    let cs := (coresOf q).filter (fun c => savesCore (getCore s c))
    let saved := cs.map (fun c => (c, getCore s c))
    let dies := (q.clusters.map (fun c => physCluster s c / 8)).eraseDups
    let t := cs.foldl (fun t c => setCore t c vacantCore) (setPart s p { q with state := .out, saved := saved })
    done (dies.foldl redivide t)

/-! ### Restoring (R507, R554) -/

/-- The die that a restore binds a logical cluster to. -/
def bindDie (onto : List ClusterBind) (cl : Nat) : Option Nat := (onto.find? (fun b => b.cluster == cl)).map (·.pdie)

/-- The core of a cluster that takes the spare of a physical cluster, among those whose own position there is dead: the one that holds
it, else the first that is bound, else the first (R25, R507). -/
def spareFor (s : State) (pdie cl : Nat) : Option Nat :=
  let dead := (List.range 16).filter (fun i => s.deadPhys.contains (pdie * 136 + cl % 8 * 17 + i))
  let m (i : Nat) : MapEntry := mapOf s (cl * 16 + i)
  match dead.find? (fun i => (m i).bound && (m i).pdie == pdie && (m i).ppos == 16), dead.find? (fun i => (m i).bound) with
  | some i, _ => some i
  | none, some i => some i
  | none, none => dead.head?

/-- The position that logical core `n` of a cluster takes on a die: its own, or the spare's where it takes that; none where neither
is left (R21, R25, R507). -/
def positionOn (s : State) (pdie cl n : Nat) : Option Nat :=
  let alive (i : Nat) : Bool := !s.deadPhys.contains (pdie * 136 + cl % 8 * 17 + i)
  if alive n then some n else if spareFor s pdie cl = some n ∧ alive 16 = true then some 16 else none

/-- The core-map entry of a core after a restore onto a die; EGEN rises where it changes (R506, R507). -/
def reboundEntry (s : State) (c pdie : Nat) : MapEntry :=
  let old := mapOf s c
  let new := match positionOn s pdie (c / 16) (c % 16) with
    | some i => { old with bound := true, pdie := pdie, pclu := c / 16 % 8, ppos := i }
    | none => { old with bound := false, pdie := pdie, pclu := c / 16 % 8 }
  if new = old then old else { new with egen := old.egen + 1 }

/-- Whether a partition can be restored onto clusters: each is bound to a free physical cluster of its number on a die whose Foreman
works, and every bound core finds a position (R507, R554, R572). -/
def restoreOk (s : State) (p : Nat) (onto : List ClusterBind) : Bool :=
  let q := getPart s p
  let phys := q.clusters.filterMap (fun cl => (bindDie onto cl).map (fun d => d * 8 + cl % 8))
  phys.length == q.clusters.length && decide phys.Nodup &&
    phys.all (fun f => decide (f < 192) && !(clustersTaken s p).contains f && !foremanFailed s (f / 8)) &&
    q.clusters.all (fun cl => (clusterCores cl).all (fun c =>
      !(mapOf s c).bound || (positionOn s ((bindDie onto cl).getD 0) cl (c % 16)).isSome))

/-- A context after a restore: RESTORED, and MIGR where the physical core differs (R554). -/
def restoredCtx (moved : Bool) (x : Ctx) : Ctx :=
  if x.act.isSome then { x with sys := { x.sys with restored := true, migr := x.sys.migr || moved } } else x

/-- A supervisor area of which nothing is known: each byte a free value (R542). -/
def freeArea (k : Nat) : Memory :=
  (List.range 4096).filterMap (fun i => if freeByte (k + i) = 0 then none else some (i, freeByte (k + i)))

/-- The indices of the SPILL regions of a launch. -/
def spillRegions (rs : List Region) : List Nat :=
  (List.range rs.length).filter (fun i => (rs[i]?).any (fun r => r.attr == 1))

/-- The state with a LEAVE of a restored core waiting again in its share. -/
def rejoinLeave (sh : Nat × Nat) (s : State) (n : Nat) : State :=
  match findOp s n with
  | some o =>
    match o.body with
    | .leave m => push (joinWait s sh.1 sh.2 m (.op n)) (.leaveGrant sh.2 sh.1)
    | _ => s
  | none => s

/-- The state with a core's image in place on its new physical core: KEEP regions, DISCARD regions as fill, SPILL regions still to
come, slots by the restore row of R286, and its reservations still to be granted, ahead of a LEAVE that waits (R59, R60, R249, R286, R551,
R554). -/
def placeCore (s : State) (c : Nat) (img : Core) (moved : Bool) : State :=
  let sh := shareOf s c
  let t := setCore s c { img with
    ctx := restoredCtx moved img.ctx, susp := img.susp.map (restoredCtx moved), icache := [], supArea := freeArea s.fresh,
    slots := img.slots.map (fun v => resumeSlot { v with touched := true } { v with touched := true }),
    steal := { next := 0, busy := false, backoff := false }, spilling := [] }
  let t := { t with fresh := t.fresh + 4096 }
  let spill := spillRegions (regionsOf t c)
  let t := scramble (discardRegions t c) c
  let t := modCore t c (fun k => { k with spilling := spill })
  let t := if img.state = .running ∧ 0 < coreHeld img then
      push (joinWait (modCore t c (fun k => { k with state := .stopped, stop := .none })) sh.1 sh.2 (coreHeld img) (.restore c))
        (.leaveGrant sh.2 sh.1)
    else if img.state = .stopped then push (joinWait t sh.1 sh.2 (coreHeld img) (.restore c)) (.leaveGrant sh.2 sh.1)
    else t
  let t := (leaveOps t c).foldl (rejoinLeave sh) t
  let t := if img.ctx.act.isSome then resumeTile t c else t
  let t := pushAll t (spill.map (fun i => .spillReloadComplete c i) ++ reloadEvents t c)
  pushAll t ((if (openFences img).isEmpty then [] else [.fenceComplete c]) ++
    (if img.state = .idle then [.activationChoose c] else []) ++ (if img.urgents.isEmpty then [] else [.urgentPreempt c]))

/-- The state with an urgent event that waited at the front end in its core's latch, or dropped and counted (R56, R396, R578). -/
def deliverUrgent (s : State) (c : Nat) (e : UrgentEvent) : State :=
  let k := getCore s c
  if (findLaunch s e.ltag).isNone ∨ urgentDepth ≤ k.urgents.length then count s .urgentDrops 1
  else pushAll (setCore s c { k with urgents := k.urgents ++ [e] }) [.activationChoose c, .urgentPreempt c]

/-- The state with a partition restored (R443, R507, R554). -/
def restorePart (s : State) (p : Nat) (onto : List ClusterBind) : State :=
  let q := getPart s p
  let cs := coresOf q
  let entry (c : Nat) : MapEntry := reboundEntry s c ((bindDie onto (c / 16)).getD 0)
  let changed := cs.filter (fun c => decide (entry c ≠ mapOf s c))
  let q' : Partition := { q with
    state := .live, saved := [], waking := false, clmapgen := if changed.isEmpty then q.clmapgen else q.clmapgen + 1 }
  let t := setPart { s with coreMap := changed.foldl (fun m c => tabSet m c (entry c)) s.coreMap } p q'
  let t := (cs.filter (fun c => (getCore s c).state == .killed && (entry c).bound)).foldl
    (fun (t : State) (c : Nat) => push (modCore t c (fun k => { k with state := .idle, stop := .none, sealedStore := false, ctx := idleCtx k.ctx }))
      (.activationChoose c)) t
  let t : State := (q.clusters.map (fun c => physCluster t c / 8)).eraseDups.foldl redivide t
  let t : State := q.saved.foldl (fun t d => placeCore t d.1 d.2 (changed.contains d.1)) t
  let t := { t with msgs := t.msgs.map (fun (m : TaskMsg) => if cs.contains m.target then { m with egen := (mapOf t m.target).egen } else m) }
  let mine := t.feUrgents.filter (fun (u : Nat × UrgentEvent) => cs.contains u.1)
  mine.foldl (fun t u => deliverUrgent t u.1 u.2) { t with feUrgents := t.feUrgents.filter (fun (u : Nat × UrgentEvent) => !cs.contains u.1) }

/-- PARTITION_RESTORE (R554). -/
def execPartitionRestore (p : Nat) (onto : List ClusterBind) (s : State) : Host.Outcome State Fault Refusal :=
  if (getPart s p).state = .out ∧ restoreOk s p onto = true then done (restorePart s p onto) else done s

/-- SPILL_RELOAD_COMPLETE: the region's bytes stand as they were written out, and accesses to it go on (R61). -/
def execSpillReloadComplete (c region : Nat) (s : State) : Host.Outcome State Fault Refusal :=
  done (modCore s c (fun k => { k with spilling := k.spilling.filter (fun i => i != region) }))

/-- A slot as a reload leaves it, or a wait. -/
inductive Reload where
  | wait
  | slot (v : Slot)

/-- Whether the image of a slot can be loaded as its header stands (R273, R277, R284). -/
def reloadOk (s : State) (c slot : Nat) (v : Slot) (scale : Option Tile) (h : BHeader) : Bool :=
  h.fmt == fmtCode v.fmt && !badHeader (classOf c) v.fmt h && scale.all (fun b => b.fmt == .e8m0 && !notShape b ((h.k + 31) / 32) h.n) &&
    !(List.range 4).any (fun j => j != slot && spansMeet h.a0 h.n v.fmt (getSlot (getCore s c) j))

/-- The slot after its recorded source has been read again, header and scale tile as they stand (R276, R286): LOST where that fails. -/
def reloadSlot (s : State) (c slot : Nat) (v : Slot) (src : SlotSource) : Reload :=
  match homeRead s c src.addr 64 with
  | .wait => .wait
  | .fail _ _ => .slot (lostSlot v)
  | .ok bs =>
    let h := readHeader bs
    if !reloadOk s c slot v src.scale h then .slot (lostSlot v)
    else
      match imageRows s c src.addr h.pitch (bRowBytes v.fmt h.n) 0 h.k with
      | .wait => .wait
      | .fail => .slot (lostSlot v)
      | .ok rows =>
        let w := { v with k := h.k, n := h.n, a0 := h.a0, pitch := h.pitch, rows := rows }
        .slot (readySlot (getCore s c) (launchOf s c) w src.addr src.scale)

/-- SLOT_RELOAD_COMPLETE: READY from the recorded source, or LOST (R286). One that completes during an urgent activation counts as a
change of the slot, so that the slot is RELOADING again at the resume (DESIGN CHOICE, log 86). -/
def execSlotReloadComplete (c slot : Nat) (s : State) : Host.Outcome State Fault Refusal :=
  let v := getSlot (getCore s c) slot
  match v.state, v.source with
  | .reloading, some src =>
    (match reloadSlot s c slot v src with
     | .wait => done (push s (.slotReloadComplete c slot))
     | .slot w => done (putSlot s c slot w))
  | _, _ => done s

/-! ### Gating (R578) -/

/-- PARTITION_GATE: a switch-out, after which the partition is gated (R578). -/
def execPartitionGate (p : Nat) (s : State) : Host.Outcome State Fault Refusal :=
  let q := getPart s p
  match q.state with
  | .live => done (pushAll s [.partitionSwitchRequest p, .partitionGate p])
  | .switching => done (push s (.partitionGate p))
  | .halted => done (push s (.partitionGate p))
  | .out => done (setPart s p { q with state := .gated })
  | _ => done s

/-- The host queues of a partition. -/
def queuesOf (s : State) (p : Nat) : List Nat :=
  (s.queues.filter (fun q => q.2.force.any (fun b => b.part == p))).map (·.1)

/-- PARTITION_WAKE: while too few clusters are free the sequence waits; then the partition is restored and fetch goes on (R578). -/
def execPartitionWake (p : Nat) (onto : List ClusterBind) (s : State) : Host.Outcome State Fault Refusal :=
  let q := getPart s p
  if q.state ≠ .gated then done s
  else if !restoreOk s p onto then done (push (setPart s p { q with waking := true }) (.partitionWake p onto))
  else
    let t := restorePart s p onto
    done (pushAll t ((queuesOf t p).map (fun n => .packetFetch n)))

end Sys2Proof.Machine
end

