-- ==== Sys2Proof/Machine/Reliability.lean ====
section
/-! DEFINITION. Errors that no code corrects, the killing of a core and what becomes of its activations, the classification of corrected
errors, repairs, and translation invalidations (R25, R312, R335, R364, R424, R506-R509, R515-R520, R562-R569). -/

namespace Sys2Proof.Machine

/-! ### Killing a core (R563-R566) -/

/-- Whether the spare of a core's cluster is free: it works and no core stands on it (R25, R507). -/
def spareFree (s : State) (c : Nat) : Bool :=
  let m := mapOf s c
  !s.deadPhys.contains (m.pdie * 136 + m.pclu * 17 + 16) &&
    (clusterCores (c / 16)).all (fun d => !((mapOf s d).bound && (mapOf s d).ppos == 16))

/-- The core-map entry after the kill of a core (R507). -/
def killedEntry (s : State) (c : Nat) : MapEntry :=
  let m := mapOf s c
  if spareFree s c then { m with egen := m.egen + 1, ppos := 16 } else { m with egen := m.egen + 1, bound := false }

/-- The state with the gang of a killed core disbanded: a leader's instruction in progress stops with error data, naming the member
(R549, R563). -/
def breakGang (s : State) (c : Nat) : State :=
  match (getCore s c).gang with
  | .member leader _ idx _ _ _ =>
    let x := getCtx s leader
    let t := match curUnit x with
      | some u =>
        if idx ≠ 0 ∧ x.run.begun = true ∧ x.run.stopped = false ∧ x.tileTrap.isNone = true ∧ gangUnit (getCore s leader) u.id = true then
          raiseTileTrap s leader u causeTileAccess (2 + idx * 256) 0 (stopRow u x.run.row)
        else s
      | none => s
    disbandGang t c 8
  | .waiting _ _ _ => leaveGang 8 s c
  | .none => s

/-- The state with an engine operation of a killed core cut short: nothing further of it starts (R301, R352). -/
def cutOp (s : State) (o : Op) : State :=
  match o.body with
  | .copy p => settleCopy s o { p with cancelled := true, dead := true }
  | .mcast m =>
    if m.ended then s
    else
      push (putOp s { o with body := .mcast { m with
        receivers := m.receivers.map (fun r => if receiverOpen r then { r with code := 2 } else r) } }) (.multicastEnd o.id)
  | .ms m => push (putMs s o { m with stopped := true }) (.msComplete o.id)
  | _ => s

/-- A context under a new serial number, so that nothing on its way to the old one reaches it, and with no reservation. -/
def orphanCtx (serial : Nat) (x : Ctx) : Ctx :=
  { x with act := x.act.map (fun a => { a with serial := serial }), sys := { x.sys with held := 0 } }

/-- An activation queue without its reservations (R563). -/
def dropReservations (e : AqEntry) : AqEntry :=
  match e with
  | .delivered r => .delivered r
  | _ => .free

/-- The stores of a core as its spare has them: regions as fill, the other bytes zero, slots EMPTY, generations sealed, reservations and
round entries gone; the deque and the delivered records stand (R59, R286, R503, R563, R566). -/
def spareCore (rs : List Region) (fresh serial : Nat) (spare : Bool) (k : Core) : Core :=
  { k with
    state := if spare then .stopped else .killed, stop := .none, spad := fillRegions [0, 1, 2] rs [], supArea := freeArea fresh,
    disc := k.disc ||| allDisc rs, slots := Vector.replicate 4 emptySlot, suspSlots := [], icache := [], spilling := [],
    aq := k.aq.map dropReservations, rounds := Vector.replicate 16 emptyRound, pastRounds := [], mail := [], sealedStore := true,
    sealedGens := k.sealedGens ++ k.live.map (·.gen), live := [],
    ctx := { orphanCtx serial k.ctx with acc := freeAcc (fresh + 4096) }, susp := k.susp.map (orphanCtx (serial + 1)) }

/-- The serial numbers of a core's activations. -/
def serialsOf (k : Core) : List Nat :=
  let f (x : Ctx) : List Nat := if x.act.isSome then [serialOf x] else []
  f k.ctx ++ (match k.susp with | some x => f x | none => [])

/-- The state with the leave of a killed core's activations returned and their waits withdrawn (R249, R535). -/
def freeLeave (s : State) (c : Nat) : State :=
  let k := getCore s c
  let sh := shareOf s c
  let t := returnRunLeave s c
  let t := [LeaveWho.tile c, .issue c, .restore c].foldl (fun u w => dropWait u sh.2 w) t
  if k.state = .stopped ∧ k.stop = .none then t else returnUnits t sh.1 sh.2 (coreHeld k)

/-- The state with a core stopped for good: its waits and reservations gone, its operations cut short, its instances ended, its stores those
of the spare (R424, R438, R563, R566). -/
def stopForGood (s : State) (c : Nat) (spare : Bool) : State :=
  let rs := regionsOf s c
  let t := freeLeave (breakGang s c) c
  let t := (serialsOf (getCore t c)).foldl (fun u n => dropWaits u c n) t
  let t := (t.ops.filter (fun o => o.core == c)).foldl (fun u o => match findOp u o.id with | some o => cutOp u o | none => u) t
  let t := (t.instances.filter (fun x => x.members.contains c && !x.ended)).foldl (fun u x => failInst u x 8) t
  let t := { t with ops := (getCore t c).live.foldl (fun os g => retireOps (taskName c g.gen).toNat os) t.ops }
  let t := (getCore t c).live.foldl (fun u g => settleTally u c g.gen) t
  let t := modCore t c (spareCore rs t.fresh t.nextId spare)
  { t with fresh := t.fresh + 4096 + accSpan, nextId := t.nextId + 2 }

/-- The interfaces of the other cores of a partition (R508). -/
def otherInterfaces (s : State) (c : Nat) : List Nat :=
  match partOf s c with
  | some p => (coresOf (getPart s p)).filter (fun d => d != c && (s.cores.map (·.1)).contains d)
  | none => []

/-- The state with the map change of a killed core under way (R507, R508). -/
def beginMapChange (s : State) (c : Nat) : State :=
  let new := killedEntry s c
  let nis := otherInterfaces s c
  let t := { s with
    coreMap := tabSet s.coreMap c new, mapChanges := s.mapChanges ++ [{ core := c, old := mapOf s c, waiting := nis, kill := true }] }
  let t := match partOf s c with
    | some p => setPart t p { getPart t p with clmapgen := (getPart t p).clmapgen + 1 }
    | none => t
  pushAll t (nis.map (fun n => .coreMapUpdateArrive n c) ++ [.coreMapChangeComplete c])

/-- The state after the kill of a core (R560, R563); a core whose partition is being written out, or whose last map change is under way,
is killed after that. -/
def killCore (s : State) (c : Nat) : Host.Outcome State Fault Refusal :=
  let k := getCore s c
  if coreCount ≤ c ∨ k.state = .killed ∨ (mapOf s c).bound = false then done s
  else if partState s c = .halted ∨ s.mapChanges.any (fun m => m.core == c) = true then done (push s (.coreKill c))
  else if coreOut s c then done s
  else
    let t := (s.pairs.filter (fun d => d.cores.contains c)).foldl (fun u d => killPair u d.pair d.cores) s
    let spare := spareFree t c
    done (beginMapChange (stopForGood { t with deadPhys := physCore t c :: t.deadPhys } c spare) c)

/-- Whether the kill of a core for its mismatches waits for a band boundary of the instruction in progress (R568). -/
def killWaits (s : State) (c : Nat) : Bool :=
  let k := getCore s c
  decide (4 ≤ tabGet 0 s.mismatches (physCore s c)) && k.state == .running && decide (k.ctx.run.row % 8 ≠ 0)

/-- CORE_KILL (R560, R563, R568). -/
def execCoreKill (c : Nat) (s : State) : Host.Outcome State Fault Refusal :=
  if killWaits s c then done (push s (.coreKill c)) else killCore s c

/-- CORE_MAP_UPDATE_ARRIVE: an interface has the new entry and acknowledges it (R508). -/
def execCoreMapUpdateArrive (ni c : Nat) (s : State) : Host.Outcome State Fault Refusal :=
  done { s with mapChanges := s.mapChanges.map (fun m => if m.core = c then { m with waiting := m.waiting.filter (· != ni) } else m) }

/-! ### What becomes of the activations (R312, R565, R567) -/

/-- The state after a core's debts to multicasts issued before its last map change are paid (R312): those that name it by an earlier
generation of its entry. -/
def freeDebts (s : State) (c : Nat) : State :=
  let egen := (mapOf s c).egen.toNat
  let names := (s.ops.filterMap (fun o => match o.body with
    | .mcast m => if m.receivers.any (fun r => r.core == c && r.egen != egen && !r.freed) then some m.name else none
    | _ => none)).eraseDups
  let free (o : Op) : Op := match o.body with
    | .mcast m => { o with body := .mcast { m with
        receivers := m.receivers.map (fun r => if r.core = c ∧ r.egen ≠ egen then { r with freed := true } else r) } }
    | _ => o
  names.foldl settleFreed { s with ops := s.ops.map free }

/-- The state after something of a killed core has failed for good: NORST and FAULT for the next wave word (R366, R546, R565). -/
def markLost (s : State) (c : Nat) : State := modCore s c (fun k => { k with norstErr := true, faultErr := true })

/-- The state with an activation of a killed core restarted on the spare, or handed to the distributor; the new context is the core's live
one (R565, R567). -/
def restartAct (s : State) (c : Nat) (a : Activation) (spare : Bool) : State :=
  if spare then startAct s c a.kind a.record none none none true else awaitRoot s a.record true

/-- The state with one activation of a killed core handled: restarted where its commit latch is clear, else failed. Answers whether
it runs again on the spare (R565). -/
def handleAct (s : State) (c : Nat) (x : Ctx) (spare : Bool) : State × Bool :=
  match x.act with
  | none => (s, false)
  | some a =>
    if a.commit then (markLost (settleAct s c x true true) c, false)
    else
      let t := dropConts s c (nameGen x.sys.tid).toNat
      (restartAct t c a spare, spare)

/-- The state with both activations of a killed core handled, the urgent one first (R565). -/
def handleActs (s : State) (c : Nat) (spare : Bool) : State :=
  let k := getCore s c
  let bare (x : Ctx) : Ctx := { idleCtx x with acc := k.ctx.acc }
  let start := modCore s c (fun k => { k with ctx := bare k.ctx, susp := none })
  let r := handleAct start c k.ctx spare
  match k.susp with
  | none => r.1
  | some y =>
    let live := getCtx r.1 c
    let q := handleAct (modCore r.1 c (fun k => { k with ctx := bare live })) c y spare
    if !r.2 then q.1
    else modCore q.1 c (fun k => { k with ctx := live, susp := if q.2 then some k.ctx else none })

/-- The state with the delivered continuations of a killed core failed: their payload reads as fill (R565). -/
def failDelivered (s : State) (c : Nat) : State :=
  let k := getCore s c
  let isC (e : AqEntry) : Bool := match e with
    | .delivered r => r.kind == .continuation
    | _ => false
  let n := (k.aq.toList.filter isC).length
  let t := setCore s c { k with aq := k.aq.map (fun e => if isC e then .free else e) }
  if n = 0 then t else markLost ((List.range n).foldl (fun u _ => countEnded u c) t) c

/-- The state with the retained records of a core without a spare handed to the distributor; events in its urgent latch are dropped
and counted (R567). A root runs nothing from then on, so that its launch's next wave may start (R366). -/
def handOver (s : State) (c : Nat) : State :=
  let k := getCore s c
  let rs := k.deque.reverse.map (·.record) ++ (deliveredOf k).map (·.2.record)
  let t := setCore s c { k with deque := [], aq := Vector.replicate 16 .free, urgents := [] }
  let n := k.urgents.length + (s.feUrgents.filter (fun u => u.1 == c)).length
  let t := { t with feUrgents := t.feUrgents.filter (fun u => u.1 != c) }
  let t := if n = 0 then t else count t .urgentDrops n
  let t := rs.foldl (fun u r => awaitRoot u r false) t
  match isRoot t c with
  | some l => push t (.waveStart l)
  | none => t

/-- CORE_MAP_CHANGE_COMPLETE: every interface has acknowledged and every access of the killed core is settled; its activations restart
on the spare, fail, or go to the distributor (R312, R335, R509, R565-R567). -/
def execCoreMapChangeComplete (c : Nat) (s : State) : Host.Outcome State Fault Refusal :=
  match s.mapChanges.find? (fun m => m.core == c) with
  | none => done s
  | some m =>
    let spare := (mapOf s c).bound
    if !m.waiting.isEmpty || s.accs.any (fun a => a.core == c) ||
        (!spare && (getCore s c).deque.any (fun e => e.reserved.isSome)) then done (push s (.coreMapChangeComplete c))
    else
      let t := freeDebts { s with mapChanges := s.mapChanges.filter (fun n => n.core != c) } c
      let t := failDelivered (handleActs t c spare) c
      if !spare then done (handOver (modCore t c (fun k => { k with state := .killed })) c)
      else
        let runs := (getCtx t c).act.isSome
        let t := modCore t c (fun k => { k with sealedStore := false, state := if runs then .running else .idle, stop := .none })
        done (push t (if runs then .urgentPreempt c else .activationChoose c))

/-- The engines that keep classification entries: the stack engines 0 to 15, then the cache dies of the twelve base dies that carry one
(R518). -/
def errEngines : Nat := 28

/-- The compute die whose Foreman an engine notifies (R520). -/
def foremanOf (eng : Nat) : Nat :=
  if eng < 8 then 3 * eng / 2 else if eng < 16 then 12 + 3 * (eng - 8) / 2 else 2 * (eng - 16)

/-- The engine that meets an error in a sector: the cache die of its slice, or the engine of its stack (R30, R258, R562). -/
def errEngine (cache : Bool) (sector : Nat) : Nat := if cache then 16 + sliceOf (sector * 64) / 16 else sector / 4 % 16

/-- The state with a sector poisoned and reported to its Foreman (R562). -/
def poisonSector (s : State) (cache : Bool) (n : Nat) : State :=
  if n * 64 < physLimit then
    { s with badSectors := tabSet s.badSectors n 0, notices := s.notices ++ [(foremanOf (errEngine cache n), Notice.sector n)] }
  else s

/-- UNCORRECTABLE_ERROR: one consumed inside a core kills it; one in a cache slice or in HBM poisons the sector (R562). -/
def execUncorrectableError (place : ErrorPlace) (s : State) : Host.Outcome State Fault Refusal :=
  match place with
  | .core c => killCore s c
  | .sector n => done (poisonSector s false n)
  | .cached n => done (poisonSector s true n)

/-! ### Corrected errors (R518-R520) -/

/-- A place that an error is reported at: bank, row and column (R518). -/
structure ErrPlace where
  bank : BitVec 6
  row : BitVec 18
  col : BitVec 10
  deriving DecidableEq, Repr

/-- The classes of an entry: 0 CELL, 1 ROW, 2 COLUMN, 3 BANK (R518). -/
def entryCovers (e : ErrEntry) (cls : Nat) (p : ErrPlace) : Bool :=
  e.cls == cls && e.bank == p.bank && (cls == 2 || cls == 3 || e.row == p.row) && (cls == 1 || cls == 3 || e.col == p.col)

/-- An engine's classification entries. -/
def errTable (s : State) (eng : Nat) : List ErrEntry := tabGet [] s.errTables eng

/-- The entries that an engine keeps (R518). -/
def errDepth : Nat := 64

/-- The entry that a full table gives up: the lowest COUNT with REQ clear (R520). -/
def errVictim (es : List ErrEntry) : Option ErrEntry :=
  (es.filter (fun e => !e.req)).foldl (fun best e =>
    match best with
    | none => some e
    | some b => if e.count < b.count then some e else some b) none

/-- The lowest entry number that is free. -/
def freeEntry (es : List ErrEntry) : Nat :=
  ((List.range errDepth).find? (fun i => !es.any (fun e => e.num == i))).getD 0

/-- The state with a Foreman notified of an entry that asks for a repair (R520). -/
def askRepair (s : State) (eng num : Nat) : State :=
  push { s with notices := s.notices ++ [(foremanOf eng, Notice.repair eng num)] } (.repairServe eng num)

/-- The state with one error counted in an entry of a class: matched, allocated, or in the place of another; an entry that has reached
its threshold requests a repair (R518, R519, R520). -/
def countError (s : State) (eng cls : Nat) (p : ErrPlace) : State :=
  let es := errTable s eng
  let put (u : State) (l : List ErrEntry) : State := { u with errTables := tabSet u.errTables eng l }
  match es.find? (fun e => entryCovers e cls p) with
  | some e =>
    let n := Nat.min (e.count + 1) 65535
    let ask := !e.req && (cls != 0 || decide (3 ≤ n))
    let t := put s (es.map (fun f => if f.num = e.num then { f with count := n, req := f.req || ask } else f))
    if ask then askRepair t eng e.num else t
  | none =>
    let new (i : Nat) : ErrEntry :=
      { num := i, count := 1, cls := cls, bank := p.bank, row := p.row, col := p.col, req := decide (cls ≠ 0) }
    let add (u : State) (l : List ErrEntry) (i : Nat) : State :=
      if cls ≠ 0 then askRepair (put u (l ++ [new i])) eng i else put u (l ++ [new i])
    if es.length < errDepth then add s es (freeEntry es)
    else
      let t := count s (.classOverflow eng) 1
      match errVictim es with
      | some v => add t (es.filter (fun e => e.num != v.num)) v.num
      | none => t

/-- Whether the errors of the cells met in the window widen a location into a class (R519). -/
def widens (es : List ErrEntry) (cls : Nat) (p : ErrPlace) : Bool :=
  let cells := es.filter (fun e => e.cls == 0 && e.bank == p.bank && decide (0 < e.count))
  if cls = 1 then decide (4 ≤ ((cells.filter (fun e => e.row == p.row)).map (·.col)).eraseDups.length)
  else if cls = 2 then decide (4 ≤ ((cells.filter (fun e => e.col == p.col)).map (·.row)).eraseDups.length)
  else
    decide (16 ≤ (cells.map (·.count)).sum) && decide (3 ≤ (cells.map (·.row)).eraseDups.length) &&
      decide (3 ≤ (cells.map (·.col)).eraseDups.length)

/-- CORRECTED_ERROR_REPORT, of an engine that keeps entries and a location that its fields can name (R518, R519). -/
def execCorrectedErrorReport (eng bank row col : Nat) (s : State) : Host.Outcome State Fault Refusal :=
  if errEngines ≤ eng ∨ 2 ^ 6 ≤ bank ∨ 2 ^ 18 ≤ row ∨ 2 ^ 10 ≤ col then done s
  else
    let p : ErrPlace := { bank := BitVec.ofNat 6 bank, row := BitVec.ofNat 18 row, col := BitVec.ofNat 10 col }
    let t := countError s eng 0 p
    done ([1, 2, 3].foldl (fun u cls => if widens (errTable u eng) cls p then countError u eng cls p else u) t)

/-- CLASSIFICATION_WINDOW_END: entries whose REQ is clear are freed, and the others count afresh (R518, R519). -/
def execClassificationWindowEnd (eng : Nat) (s : State) : Host.Outcome State Fault Refusal :=
  done { s with errTables := tabSet s.errTables eng (((errTable s eng).filter (·.req)).map (fun e => { e with count := 0 })) }

/-- REPAIR_SERVE: the repair is complete and the Foreman clears REQ; a page moves by writes of its tables and invalidations (R516,
R569). -/
def execRepairServe (eng idx : Nat) (s : State) : Host.Outcome State Fault Refusal :=
  done { s with
    errTables := tabSet s.errTables eng ((errTable s eng).map (fun e => if e.num = idx then { e with req := false } else e)),
    notices := s.notices.filter (fun n => n.2 != Notice.repair eng idx) }

/-! ### Translation invalidations (R515, R517) -/

/-- Whether the bytes of an access lie in a range of virtual addresses of a context. -/
def accIn (s : State) (ctx lo hi c : Nat) (a : Word) (n : Nat) : Bool :=
  (match placeOf c a with
   | .virt va => decide (lo < va + n) && decide (va < hi)
   | _ => false) && ctxOf s c == ctx

/-- Whether an access was translated under a walk that an invalidation covers. -/
def translatedIn (s : State) (ctx lo hi : Nat) (a : Access) : Bool :=
  let way := match a.stage with
    | .home _ => true
    | .helper _ _ => true
    | .window _ => true
    | _ => false
  way && accIn s ctx lo hi a.core a.addr a.size

/-- Whether the line of a merge entry was translated under such a walk: its sectors are still to be read (R310). -/
def mergeIn (s : State) (ctx lo hi : Nat) (e : MergeEntry) : Bool :=
  match mergeAddr s e with
  | some (c, a) => accIn s ctx lo hi c a e.len
  | none => false

/-- Whether a line of 256 bytes of a context meets the range of an invalidation. -/
def vlineIn (ctx lo hi c v : Nat) : Bool := c == ctx && decide (lo < v * 256 + 256) && decide (v * 256 < hi)

/-- TRANSLATION_INVALIDATE: the redirects of the range are dropped, with the readings by which a redirect could still be made, and the
invalidation completes once every access translated under an old walk is settled (R515, R517). -/
def execTranslationInvalidate (ctx lo hi : Nat) (s : State) : Host.Outcome State Fault Refusal :=
  let t := { s with
    redirects := s.redirects.filter (fun r => !vlineIn ctx lo hi r.ctx r.vline),
    hot := s.hot.map (fun h => { h with readers := h.readers.filter (fun r => !vlineIn ctx lo hi r.2.1 r.2.2) }) }
  done (if t.accs.any (translatedIn t ctx lo hi) || t.merges.any (mergeIn t ctx lo hi) then push t (.translationInvalidate ctx lo hi) else t)

end Sys2Proof.Machine
end

