-- ==== Sys2Proof/Machine/Snapshot.lean ====
section
/-! DEFINITION. Snapshots: SNAP, what each block latches, the packets in flight across a cut, and its completion (R248, R580-R582). -/

namespace Sys2Proof.Machine

/-! ### What a block latches (R581) -/

/-- A snapshot register for each event counter that a core's interface holds (R536). -/
def counterValues (s : State) (c : Nat) : List Nat :=
  [Counter.staleMessages c, Counter.refusedStores c, Counter.lateStores c, Counter.staleXfree c, Counter.staleCloses c,
    Counter.lateRows c, Counter.escapes (routerOf s c)].map (counterVal s)

/-- A round entry as numbers. -/
def roundValues (r : RoundEntry) : List Nat :=
  [r.valid.toNat, r.round, r.group, r.base, r.limit, r.rows, r.closed, r.entry.toNat, r.prio, r.aq]

/-- A stored tuple as numbers. -/
def tupleValues (t : Tuple) : List Nat := [t.key.toNat, t.ctx, t.seq, t.shape.toNat, t.payload.length] ++ t.payload.map BitVec.toNat

/-- A waiting template as numbers. -/
def waiterValues (r : KeyReq) : List Nat :=
  match r.ask with
  | .read take v m poll _ => [r.id, r.ctx, take.toNat, v.toNat, m.toNat, poll.toNat]
  | _ => [r.id, r.ctx]

/-- A combine slot as numbers, with the cycles left of its countdown where one runs (log 6). -/
def slotValues (p : Nat × Option CmbSlot) (free : Nat) : List Nat :=
  match p.2 with
  | some v => [p.1, v.ctx, v.d, v.token, (match v.state with | .opened => 1 | .complete => 2 | .linger => 3), cyclesLeft v free]
  | none => [p.1, 0]

/-- The values that a block latches (R581); how many cycles of a countdown have passed is a free value (log 6). -/
def blockValues (s : State) (b : SnapBlock) : List Nat :=
  match b with
  | .core c =>
    let k := getCore s c
    [k.ctx.sys.tid.toNat, (unitPc k.ctx).toNat, k.ctx.sys.xstep.toNat, k.genCounter.toNat, k.deque.length,
      (k.aq.toList.filter (· != .free)).length, k.mail.length]
  | .interface c =>
    let k := getCore s c
    [k.created.toNat, k.ended.toNat] ++ (k.rounds.toList.map roundValues).flatten ++ counterValues s c
  | .home h =>
    let v := tabGet emptyHome s.homes h
    (v.tuples.map tupleValues).flatten ++ (v.waiters.map waiterValues).flatten ++ [v.seq.toNat, s.homeMap.gen.toNat]
  | .slice i =>
    let v := tabGet emptySlice s.slices i
    ((List.range v.slots.length).zip v.slots).map (fun p => slotValues p.2 (Config.freeNat (s.fresh + p.1))) |>.flatten
  | .frontEnd =>
    (s.queues.map (fun q => [q.1, q.2.head.toNat, q.2.tail.toNat])).flatten ++ (s.ingress.map (fun q => [q.1, q.2.seq.toNat])).flatten
  | .pool d =>
    [poolFree s d, (getPool s d).waiting.length]

/-! ### Latching (R580) -/

/-- The cut of a tag. -/
def findCut (s : State) (tag : Nat) : Option Cut := s.cuts.find? (fun k => k.tag == tag)

/-- The state with a cut changed. -/
def modCut (s : State) (tag : Nat) (f : Cut → Cut) : State := { s with cuts := s.cuts.map (fun k => if k.tag = tag then f k else k) }

/-- The latch of a block in a cut. -/
def latchOf (k : Cut) (b : SnapBlock) : Option SnapLatch := k.latched.find? (fun l => l.blk == b)

/-- The state with a block latched for a tag, once. Every packet with a name below the latch's moment was sent before it. -/
def latchBlock (s : State) (tag : Nat) (b : SnapBlock) : State :=
  match findCut s tag with
  | none => s
  | some k =>
    if (latchOf k b).isSome then s
    else
      let l : SnapLatch := { tag := tag, blk := b, moment := s.nextId + 1, values := blockValues s b }
      let t := modCut s tag (fun k => { k with latched := k.latched ++ [l] })
      { t with nextId := s.nextId + 1, fresh := s.fresh + 512 }

/-- The blocks that a marker reaches (R580, R581). -/
def allBlocks : List SnapBlock :=
  (List.range 3072).map SnapBlock.core ++ (List.range 3072).map SnapBlock.interface ++ (List.range 64).map SnapBlock.home ++
    (List.range 192).map SnapBlock.slice ++ [.frontEnd] ++ (List.range 24).map SnapBlock.pool

/-- The block with its number in the module: a home's counts on from those of the modules before. -/
def localBlock (s : State) (b : SnapBlock) : SnapBlock :=
  match b with
  | .home h => .home (64 * s.localMod + h)
  | _ => b

/-- Whether every block has latched for a cut. -/
def allLatched (k : Cut) : Bool := decide (allBlocks.length ≤ k.latched.length)

/-! ### Packets across a cut (R580, R582) -/

/-- A packet in flight: its number, the block that sent it and the name that came next then, and the block that it reaches. -/
structure CutPacket where
  n : Nat
  sender : SnapBlock
  sent : Nat
  receiver : SnapBlock
  deriving DecidableEq, Repr

/-- The block of an issuer in this module. -/
def issuerBlock (i : KeyIssuer) : Option SnapBlock :=
  match i with
  | .task c _ _ _ => some (.core c)
  | .packet _ _ => some .frontEnd
  | .ingress _ => some .frontEnd
  | .combine i _ _ => some (.slice i)
  | .module _ _ _ => none
  | .home h => some (.home h)

/-- A task message as a packet. -/
def msgPacket (m : TaskMsg) : Option CutPacket :=
  let pkt (sender receiver : SnapBlock) : Option CutPacket := some { n := m.id, sender := sender, sent := m.id, receiver := receiver }
  match m.body with
  | .callat _ => pkt (.core m.core) (.core m.target)
  | .mail _ _ _ => pkt (.core m.core) (.core m.target)
  | .xfree _ => pkt (.core m.core) (.interface m.target)
  | .rndclose _ => pkt (.core m.core) (.interface m.target)
  | .stealReq _ _ _ => pkt (.core m.core) (.core m.target)
  | .stealReply _ => pkt (.core m.core) (.core m.target)
  | .stealAck _ => pkt (.core m.core) (.core m.target)
  | .urgent _ => pkt .frontEnd (.core m.target)
  | _ => none

/-- An access as a packet: its request on the way to a block, or its response. -/
def accPacket (a : Access) : Option CutPacket :=
  match a.stage with
  | .home pa => some { n := a.id, sender := .core a.core, sent := a.id, receiver := .slice (sliceOf pa) }
  | .helper h _ => some { n := a.id, sender := .core a.core, sent := a.id, receiver := .slice h }
  | .sent =>
    (match placeOf a.core a.addr with
     | .peer t _ => some { n := a.id, sender := .core a.core, sent := a.id, receiver := .core t }
     | _ => none)
  | .replied _ => a.sender.map (fun p => { n := a.id, sender := p.1, sent := p.2, receiver := .core a.core })
  | .failed _ _ => a.sender.map (fun p => { n := a.id, sender := p.1, sent := p.2, receiver := .core a.core })
  | _ => none

/-- The packets in flight between blocks that latch. -/
def packetsInFlight (s : State) : List CutPacket :=
  s.msgs.filterMap msgPacket ++ s.accs.filterMap accPacket ++
    (s.keyReqs.filter (fun r => homeLocal s r.home)).filterMap (fun r =>
      (issuerBlock r.issuer).map (fun b => { n := r.id, sender := b, sent := r.id, receiver := .home r.home })) ++
    s.deliveries.filterMap (fun d =>
      (issuerBlock d.req.issuer).map (fun b => { n := d.id, sender := .home d.home, sent := d.id, receiver := b })) ++
    s.cmbMsgs.map (fun m => { n := m.id, sender := .core m.core, sent := m.id, receiver := .slice m.slice })

/-- Whether a packet was sent after its sender latched for a cut. -/
def postCut (k : Cut) (p : CutPacket) : Bool := (latchOf k p.sender).any (fun l => decide (l.moment ≤ p.sent))

/-- The entries of a block's snapshot buffer (R582). -/
def snapDepth : Nat := 4096

/-- The packets that a block's buffer holds. -/
def buffered (s : State) (b : SnapBlock) : Nat := ((s.cuts.map (fun k => (k.recorded.filter (fun r => r.1 == b)).length))).sum

/-- The state with a pre-cut packet in the record of the block that accepts it, once; a full buffer overflows (R582). -/
def recordPacket (s : State) (tag : Nat) (p : CutPacket) : State :=
  match findCut s tag with
  | none => s
  | some k =>
    if (latchOf k p.receiver).isNone || postCut k p || k.recorded.contains (p.receiver, p.n) then s
    else if snapDepth ≤ buffered s p.receiver then modCut s tag (fun k => { k with overflow := (p.receiver :: k.overflow).eraseDups })
    else modCut s tag (fun k => { k with recorded := k.recorded ++ [(p.receiver, p.n)] })

/-- The state as a packet is about to be accepted, for one cut: a post-cut packet latches its receiver first (R580). -/
def meetPacket (p : CutPacket) (s : State) (tag : Nat) : State :=
  match findCut s tag with
  | none => s
  | some k => if postCut k p then latchBlock s tag p.receiver else recordPacket s tag p

/-- The number of the packet that an event accepts. -/
def eventPacket (e : Event) : Option Nat :=
  match e with
  | .callatArrive n => some n
  | .messageArrive n => some n
  | .xfreeNoticeArrive n => some n
  | .roundCloseArrive n => some n
  | .stealRequestServe n => some n
  | .stealReplyArrive n => some n
  | .stealAckArrive n => some n
  | .urgentEventArrive n => some n
  | .storePerform n => some n
  | .atomicPerform n => some n
  | .sliceRead n => some n
  | .helperRead n => some n
  | .peerAccessArrive n => some n
  | .loadResponse n => some n
  | .homeKputArrive n => some n
  | .homeKreadArrive n => some n
  | .homeKtakeArrive n => some n
  | .homeKcancelArrive n => some n
  | .homeRedepositArrive n => some n
  | .keyDeliveryArrive n => some n
  | .sliceCmbopenArrive n => some n
  | .sliceCmbputArrive n => some n
  | .sliceCmbcloseArrive n => some n
  | _ => none

/-- The state as an event finds it: while a cut is in progress, the packet that the event accepts has met it (R580, R582). -/
def meetCuts (s : State) (e : Event) : State :=
  if s.cuts.isEmpty then s
  else
    match eventPacket e with
    | none => s
    | some n => ((packetsInFlight s).filter (fun p => p.n == n)).foldl (fun t p => (t.cuts.map (·.tag)).foldl (meetPacket p) t) s

/-! ### The instruction and its events -/

/-- SNAP: begins the cut of its tag or joins it; the core's own registers are latched at the boundary after it (R248, R580). -/
def execSnap (p : BitVec 12) (s : State) : Host.Outcome State Fault Refusal :=
  issue s { plainSpec [] [] with priv := true } (fun i t =>
    let tag := p.toNat
    let join (u : State) : State := latchBlock (modCut u tag (fun k => { k with cores := k.cores ++ [i.core] })) tag (.core i.core)
    if t.cuts.any (fun k => k.cores.contains i.core && !allLatched k) then none
    else if (findCut t tag).isSome then some (join t)
    else if t.cutReports.any (fun r => r.tag == tag) then some t
    else if 4 ≤ t.cuts.length then none
    else
      let u := { t with cuts := t.cuts ++ [{ tag := tag, cores := [], latched := [], recorded := [], overflow := [] }] }
      some (pushAll (join u) (allBlocks.map (fun b => .snapshotMarkerArrive tag (localBlock t b)) ++ [.cutComplete tag])))

/-- SNAPSHOT_MARKER_ARRIVE (R580). -/
def execSnapshotMarkerArrive (tag : Nat) (blk : SnapBlock) (s : State) : Host.Outcome State Fault Refusal :=
  done (latchBlock s tag blk)

/-- SNAPSHOT_PACKET_RECORD: a packet that reaches a latched block and was sent before its sender latched (R582). -/
def execSnapshotPacketRecord (n : Nat) (blk : SnapBlock) (s : State) : Host.Outcome State Fault Refusal :=
  done (((packetsInFlight s).filter (fun p => p.n == n && p.receiver == blk)).foldl
    (fun t p => (t.cuts.map (·.tag)).foldl (fun u tag => recordPacket u tag p) t) s)

/-- CUT_COMPLETE: every block has latched and no packet is still in flight across the cut; the cut goes to the management queue
(R582). -/
def execCutComplete (tag : Nat) (s : State) : Host.Outcome State Fault Refusal :=
  match findCut s tag with
  | none => done s
  | some k =>
    if !allLatched k || (packetsInFlight s).any (fun p => !postCut k p) then done (push s (.cutComplete tag))
    else
      done { s with
        cuts := s.cuts.filter (fun c => c.tag != tag),
        cutReports := s.cutReports ++ [{ tag := tag, complete := k.overflow.isEmpty, latched := k.latched, recorded := k.recorded }] }

end Sys2Proof.Machine
end

