-- ==== Sys2Proof/Machine/Dispatch.lean ====
section
/-! DEFINITION. One arm for each instruction and event of the opcode table, each a call of its meaning. -/

namespace Sys2Proof.Machine

/-- The meaning of an instruction or event. -/
def exec (i : Instr) (s : State) : Host.Outcome State Fault Refusal :=
  match i with
  | .sysr d p => Sys2Proof.Machine.execSysr d p s
  | .sysw a p => Sys2Proof.Machine.execSysw a p s
  | .trap p => Sys2Proof.Machine.execTrap p s
  | .eret => Sys2Proof.Machine.execEret s
  | .wfe m => Sys2Proof.Machine.execWfe m s
  | .iflush => Sys2Proof.Machine.execIflush s
  | .halt => Sys2Proof.Machine.execHalt s
  | .snap p => Sys2Proof.Machine.execSnap p s
  | .leave d a => Sys2Proof.Machine.execLeave d a s
  | .add d a b => Sys2Proof.Machine.execAdd d a b s
  | .sub d a b => Sys2Proof.Machine.execSub d a b s
  | .and d a b => Sys2Proof.Machine.execAnd d a b s
  | .or d a b => Sys2Proof.Machine.execOr d a b s
  | .xor d a b => Sys2Proof.Machine.execXor d a b s
  | .andn d a b => Sys2Proof.Machine.execAndn d a b s
  | .orn d a b => Sys2Proof.Machine.execOrn d a b s
  | .sll d a b => Sys2Proof.Machine.execSll d a b s
  | .srl d a b => Sys2Proof.Machine.execSrl d a b s
  | .sra d a b => Sys2Proof.Machine.execSra d a b s
  | .slt d a b => Sys2Proof.Machine.execSlt d a b s
  | .sltu d a b => Sys2Proof.Machine.execSltu d a b s
  | .min d a b => Sys2Proof.Machine.execMin d a b s
  | .max d a b => Sys2Proof.Machine.execMax d a b s
  | .minu d a b => Sys2Proof.Machine.execMinu d a b s
  | .maxu d a b => Sys2Proof.Machine.execMaxu d a b s
  | .lea d a b sv => Sys2Proof.Machine.execLea d a b sv s
  | .addi d a k => Sys2Proof.Machine.execAddi d a k s
  | .andi d a k => Sys2Proof.Machine.execAndi d a k s
  | .ori d a k => Sys2Proof.Machine.execOri d a k s
  | .xori d a k => Sys2Proof.Machine.execXori d a k s
  | .slli d a k => Sys2Proof.Machine.execSlli d a k s
  | .srli d a k => Sys2Proof.Machine.execSrli d a k s
  | .srai d a k => Sys2Proof.Machine.execSrai d a k s
  | .slti d a k => Sys2Proof.Machine.execSlti d a k s
  | .sltiu d a k => Sys2Proof.Machine.execSltiu d a k s
  | .lih d a k => Sys2Proof.Machine.execLih d a k s
  | .mul d a b => Sys2Proof.Machine.execMul d a b s
  | .mulh d a b => Sys2Proof.Machine.execMulh d a b s
  | .mulhu d a b => Sys2Proof.Machine.execMulhu d a b s
  | .div d a b => Sys2Proof.Machine.execDiv d a b s
  | .divu d a b => Sys2Proof.Machine.execDivu d a b s
  | .rem d a b => Sys2Proof.Machine.execRem d a b s
  | .remu d a b => Sys2Proof.Machine.execRemu d a b s
  | .clz d a => Sys2Proof.Machine.execClz d a s
  | .ctz d a => Sys2Proof.Machine.execCtz d a s
  | .popc d a => Sys2Proof.Machine.execPopc d a s
  | .brev d a => Sys2Proof.Machine.execBrev d a s
  | .bext d a b => Sys2Proof.Machine.execBext d a b s
  | .bins d a b => Sys2Proof.Machine.execBins d a b s
  | .qpush a n => Sys2Proof.Machine.execQpush a n s
  | .qpop d n => Sys2Proof.Machine.execQpop d n s
  | .qlen d n => Sys2Proof.Machine.execQlen d n s
  | .beq a b o => Sys2Proof.Machine.execBeq a b o s
  | .bne a b o => Sys2Proof.Machine.execBne a b o s
  | .blt a b o => Sys2Proof.Machine.execBlt a b o s
  | .bge a b o => Sys2Proof.Machine.execBge a b o s
  | .bltu a b o => Sys2Proof.Machine.execBltu a b o s
  | .bgeu a b o => Sys2Proof.Machine.execBgeu a b o s
  | .jal o => Sys2Proof.Machine.execJal o s
  | .jalr d a o => Sys2Proof.Machine.execJalr d a o s
  | .loopnz a o => Sys2Proof.Machine.execLoopnz a o s
  | .ld d a m o => Sys2Proof.Machine.execLd d a m o s
  | .st a b m o => Sys2Proof.Machine.execSt a b m o s
  | .amoadd d a b sv z o => Sys2Proof.Machine.execAmoadd d a b sv z o s
  | .amomin d a b sv z o => Sys2Proof.Machine.execAmomin d a b sv z o s
  | .amomax d a b sv z o => Sys2Proof.Machine.execAmomax d a b sv z o s
  | .amoand d a b sv z o => Sys2Proof.Machine.execAmoand d a b sv z o s
  | .amoor d a b sv z o => Sys2Proof.Machine.execAmoor d a b sv z o s
  | .amoxor d a b sv z o => Sys2Proof.Machine.execAmoxor d a b sv z o s
  | .amoswap d a b sv z o => Sys2Proof.Machine.execAmoswap d a b sv z o s
  | .cas d a b sv z o => Sys2Proof.Machine.execCas d a b sv z o s
  | .fence d sv o => Sys2Proof.Machine.execFence d sv o s
  | .drain m => Sys2Proof.Machine.execDrain m s
  | .spawn d a b p c u => Sys2Proof.Machine.execSpawn d a b p c u s
  | .callat d a b p c => Sys2Proof.Machine.execCallat d a b p c s
  | .retv d a b => Sys2Proof.Machine.execRetv d a b s
  | .endAct => Sys2Proof.Machine.execEndAct s
  | .msend d a b => Sys2Proof.Machine.execMsend d a b s
  | .mpoll d b => Sys2Proof.Machine.execMpoll d b s
  | .gang d sv => Sys2Proof.Machine.execGang d sv s
  | .ungang => Sys2Proof.Machine.execUngang s
  | .gsync d => Sys2Proof.Machine.execGsync d s
  | .barmArm d a b => Sys2Proof.Machine.execBarmArm d a b s
  | .barmOpenRound d a b => Sys2Proof.Machine.execBarmOpenRound d a b s
  | .barmWithdrawRound d a b => Sys2Proof.Machine.execBarmWithdrawRound d a b s
  | .bara d a b => Sys2Proof.Machine.execBara d a b s
  | .barw d a => Sys2Proof.Machine.execBarw d a s
  | .cntrd d a b => Sys2Proof.Machine.execCntrd d a b s
  | .cntadd d a b => Sys2Proof.Machine.execCntadd d a b s
  | .rndclose d a b => Sys2Proof.Machine.execRndclose d a b s
  | .tbind d g q f => Sys2Proof.Machine.execTbind d g q f s
  | .tshape d g q => Sys2Proof.Machine.execTshape d g q s
  | .tvalid d g q => Sys2Proof.Machine.execTvalid d g q s
  | .tfill d f => Sys2Proof.Machine.execTfill d f s
  | .tget a n f => Sys2Proof.Machine.execTget a n f s
  | .tcopy d a n => Sys2Proof.Machine.execTcopy d a n s
  | .ttrans d a => Sys2Proof.Machine.execTtrans d a s
  | .tldg d g q => Sys2Proof.Machine.execTldg d g q s
  | .tstg d g q => Sys2Proof.Machine.execTstg d g q s
  | .tbcast d a sv => Sys2Proof.Machine.execTbcast d a sv s
  | .tset d g q v => Sys2Proof.Machine.execTset d g q v s
  | .trowg d a b => Sys2Proof.Machine.execTrowg d a b s
  | .tshift d a g q c => Sys2Proof.Machine.execTshift d a g q c s
  | .tpack d a b sv => Sys2Proof.Machine.execTpack d a b sv s
  | .tadd d a b n => Sys2Proof.Machine.execTadd d a b n s
  | .tsub d a b n => Sys2Proof.Machine.execTsub d a b n s
  | .tmul d a b n => Sys2Proof.Machine.execTmul d a b n s
  | .tmin d a b n => Sys2Proof.Machine.execTmin d a b n s
  | .tmax d a b n => Sys2Proof.Machine.execTmax d a b n s
  | .tand d a b n => Sys2Proof.Machine.execTand d a b n s
  | .tor d a b n => Sys2Proof.Machine.execTor d a b n s
  | .txor d a b n => Sys2Proof.Machine.execTxor d a b n s
  | .tshl d a b n => Sys2Proof.Machine.execTshl d a b n s
  | .tshr d a b n => Sys2Proof.Machine.execTshr d a b n s
  | .tcmp d a b n c => Sys2Proof.Machine.execTcmp d a b n c s
  | .tneg d a => Sys2Proof.Machine.execTneg d a s
  | .tabs d a => Sys2Proof.Machine.execTabs d a s
  | .texp2 d a => Sys2Proof.Machine.execTexp2 d a s
  | .tlog2 d a => Sys2Proof.Machine.execTlog2 d a s
  | .trcp d a => Sys2Proof.Machine.execTrcp d a s
  | .trsqrt d a => Sys2Proof.Machine.execTrsqrt d a s
  | .tsqrt d a => Sys2Proof.Machine.execTsqrt d a s
  | .ttanh d a => Sys2Proof.Machine.execTtanh d a s
  | .tcvt d a => Sys2Proof.Machine.execTcvt d a s
  | .tround d a => Sys2Proof.Machine.execTround d a s
  | .trsum d a => Sys2Proof.Machine.execTrsum d a s
  | .tcsum d a => Sys2Proof.Machine.execTcsum d a s
  | .trmax d a => Sys2Proof.Machine.execTrmax d a s
  | .tcmax d a => Sys2Proof.Machine.execTcmax d a s
  | .tscan d a sv => Sys2Proof.Machine.execTscan d a sv s
  | .ttopk d a b k => Sys2Proof.Machine.execTtopk d a b k s
  | .thist d a => Sys2Proof.Machine.execThist d a s
  | .targmax d a => Sys2Proof.Machine.execTargmax d a s
  | .tfma d a b c n => Sys2Proof.Machine.execTfma d a b c n s
  | .tsel d a b c n => Sys2Proof.Machine.execTsel d a b c n s
  | .tscale d a g q => Sys2Proof.Machine.execTscale d a g q s
  | .tloop g q n => Sys2Proof.Machine.execTloop g q n s
  | .twait => Sys2Proof.Machine.execTwait s
  | .mloadb a g q sv f l => Sys2Proof.Machine.execMloadb a g q sv f l s
  | .mfree a sv => Sys2Proof.Machine.execMfree a sv s
  | .mma a g q sv l => Sys2Proof.Machine.execMma a g q sv l s
  | .mmag d a g q n sv l => Sys2Proof.Machine.execMmag d a g q n sv l s
  | .mmal a g q sv l => Sys2Proof.Machine.execMmal a g q sv l s
  | .azero d g q => Sys2Proof.Machine.execAzero d g q s
  | .ascale d a g q c r => Sys2Proof.Machine.execAscale d a g q c r s
  | .adrain d a g q c r => Sys2Proof.Machine.execAdrain d a g q c r s
  | .amovin a g q => Sys2Proof.Machine.execAmovin a g q s
  | .amovout d g q => Sys2Proof.Machine.execAmovout d g q s
  | .xcopy d => Sys2Proof.Machine.execXcopy d s
  | .xgath d t => Sys2Proof.Machine.execXgath d t s
  | .xscat d t => Sys2Proof.Machine.execXscat d t s
  | .xcancel sv => Sys2Proof.Machine.execXcancel sv s
  | .xmcast d a b t => Sys2Proof.Machine.execXmcast d a b t s
  | .xmread d a b t => Sys2Proof.Machine.execXmread d a b t s
  | .xfree a => Sys2Proof.Machine.execXfree a s
  | .kputTile d a t => Sys2Proof.Machine.execKputTile d a t s
  | .kputImage d a b => Sys2Proof.Machine.execKputImage d a b s
  | .kreadTile d a t m => Sys2Proof.Machine.execKreadTile d a t m s
  | .kreadImage d a b m => Sys2Proof.Machine.execKreadImage d a b m s
  | .kreadCont d a b t => Sys2Proof.Machine.execKreadCont d a b t s
  | .ktakeTile d a t m => Sys2Proof.Machine.execKtakeTile d a t m s
  | .ktakeImage d a b m => Sys2Proof.Machine.execKtakeImage d a b m s
  | .ktakeCont d a b t => Sys2Proof.Machine.execKtakeCont d a b t s
  | .kcancel d a => Sys2Proof.Machine.execKcancel d a s
  | .ksplit d a b => Sys2Proof.Machine.execKsplit d a b s
  | .kmap d a => Sys2Proof.Machine.execKmap d a s
  | .kstat d a b => Sys2Proof.Machine.execKstat d a b s
  | .cmbopen d a b t k => Sys2Proof.Machine.execCmbopen d a b t k s
  | .cmbput d a b t => Sys2Proof.Machine.execCmbput d a b t s
  | .cmbclose d a b => Sys2Proof.Machine.execCmbclose d a b s
  | .cmbstat d a => Sys2Proof.Machine.execCmbstat d a s
  | .msired d a b t => Sys2Proof.Machine.execMsired d a b t s
  | .msiscat d a b t => Sys2Proof.Machine.execMsiscat d a b t s
  | .mstopk d a b k => Sys2Proof.Machine.execMstopk d a b k s
  | .colrs d a b m => Sys2Proof.Machine.execColrs d a b m s
  | .colar d a b m => Sys2Proof.Machine.execColar d a b m s
  | .colag d a b => Sys2Proof.Machine.execColag d a b s
  | .colbc d a b => Sys2Proof.Machine.execColbc d a b s
  | .colbar d a => Sys2Proof.Machine.execColbar d a s
  | .hlikely n t => Sys2Proof.Machine.execHlikely n t s
  | .hpref l w => Sys2Proof.Machine.execHpref l w s
  | .ximm u => Sys2Proof.Machine.execXimm u s
  | .xmod r sv d o => Sys2Proof.Machine.execXmod r sv d o s
  | .activationChoose c => Sys2Proof.Machine.execActivationChoose c s
  | .urgentEventArrive n => Sys2Proof.Machine.execUrgentEventArrive n s
  | .urgentPreempt c => Sys2Proof.Machine.execUrgentPreempt c s
  | .stealProbe c => Sys2Proof.Machine.execStealProbe c s
  | .stealBackoffExpire c => Sys2Proof.Machine.execStealBackoffExpire c s
  | .stealRequestServe n => Sys2Proof.Machine.execStealRequestServe n s
  | .stealReplyArrive n => Sys2Proof.Machine.execStealReplyArrive n s
  | .stealAckArrive n => Sys2Proof.Machine.execStealAckArrive n s
  | .stealReplyReturn n => Sys2Proof.Machine.execStealReplyReturn n s
  | .callatArrive n => Sys2Proof.Machine.execCallatArrive n s
  | .messageArrive n => Sys2Proof.Machine.execMessageArrive n s
  | .dieResourceReport die => Sys2Proof.Machine.execDieResourceReport die s
  | .rootPlace ltag => Sys2Proof.Machine.execRootPlace ltag s
  | .rootRecordArrive n => Sys2Proof.Machine.execRootRecordArrive n s
  | .dualPairPlace k => Sys2Proof.Machine.execDualPairPlace k s
  | .continuationDeliver n => Sys2Proof.Machine.execContinuationDeliver n s
  | .roundCloseArrive n => Sys2Proof.Machine.execRoundCloseArrive n s
  | .waveStart ltag => Sys2Proof.Machine.execWaveStart ltag s
  | .waveAnswer c => Sys2Proof.Machine.execWaveAnswer c s
  | .branchResolve c gen => Sys2Proof.Machine.execBranchResolve c gen s
  | .loadResponse n => Sys2Proof.Machine.execLoadResponse n s
  | .fenceComplete c => Sys2Proof.Machine.execFenceComplete c s
  | .drainComplete c => Sys2Proof.Machine.execDrainComplete c s
  | .wfeWake c => Sys2Proof.Machine.execWfeWake c s
  | .tileUnitBegin c => Sys2Proof.Machine.execTileUnitBegin c s
  | .tileRowComplete c => Sys2Proof.Machine.execTileRowComplete c s
  | .tileBandComplete c mismatch => Sys2Proof.Machine.execTileBandComplete c mismatch s
  | .trapEntry c => Sys2Proof.Machine.execTrapEntry c s
  | .leaveGrant die part => Sys2Proof.Machine.execLeaveGrant die part s
  | .barwComplete op => Sys2Proof.Machine.execBarwComplete op s
  | .cntrdReading op => Sys2Proof.Machine.execCntrdReading op s
  | .stationTranslate n => Sys2Proof.Machine.execStationTranslate n s
  | .faultResolve port n => Sys2Proof.Machine.execFaultResolve port n s
  | .faultDecline port n => Sys2Proof.Machine.execFaultDecline port n s
  | .faultResolveTimeout port n => Sys2Proof.Machine.execFaultResolveTimeout port n s
  | .faultQueueRetry n => Sys2Proof.Machine.execFaultQueueRetry n s
  | .storePerform n => Sys2Proof.Machine.execStorePerform n s
  | .replicaInvalidateAck line holder => Sys2Proof.Machine.execReplicaInvalidateAck line holder s
  | .atomicPerform n => Sys2Proof.Machine.execAtomicPerform n s
  | .peerAccessArrive n => Sys2Proof.Machine.execPeerAccessArrive n s
  | .sliceRead n => Sys2Proof.Machine.execSliceRead n s
  | .sectorFill line sector => Sys2Proof.Machine.execSectorFill line sector s
  | .hotWindowEnd slice => Sys2Proof.Machine.execHotWindowEnd slice s
  | .helperRead n => Sys2Proof.Machine.execHelperRead n s
  | .copyRowComplete op row => Sys2Proof.Machine.execCopyRowComplete op row s
  | .multicastDelivery op rank => Sys2Proof.Machine.execMulticastDelivery op rank s
  | .xmreadRequestArrive op line => Sys2Proof.Machine.execXmreadRequestArrive op line s
  | .xmreadSectorSend entry => Sys2Proof.Machine.execXmreadSectorSend entry s
  | .multicastEnd op => Sys2Proof.Machine.execMulticastEnd op s
  | .xfreeNoticeArrive n => Sys2Proof.Machine.execXfreeNoticeArrive n s
  | .msPacketExecute op => Sys2Proof.Machine.execMsPacketExecute op s
  | .msComplete op => Sys2Proof.Machine.execMsComplete op s
  | .vcDeadlockTimeout p => Sys2Proof.Machine.execVcDeadlockTimeout p s
  | .flowAck flow => Sys2Proof.Machine.execFlowAck flow s
  | .collectiveInstanceStart comm inst => Sys2Proof.Machine.execCollectiveInstanceStart comm inst s
  | .chunkStart die comm => Sys2Proof.Machine.execChunkStart die comm s
  | .chunkReservationTimeout die comm => Sys2Proof.Machine.execChunkReservationTimeout die comm s
  | .chunkEnd die => Sys2Proof.Machine.execChunkEnd die s
  | .collectiveInstanceEnd comm inst => Sys2Proof.Machine.execCollectiveInstanceEnd comm inst s
  | .communicatorWrite comm e => Sys2Proof.Machine.execCommunicatorWrite comm e s
  | .homeKputArrive n => Sys2Proof.Machine.execHomeKputArrive n s
  | .homeKreadArrive n => Sys2Proof.Machine.execHomeKreadArrive n s
  | .homeKtakeArrive n => Sys2Proof.Machine.execHomeKtakeArrive n s
  | .homeKcancelArrive n => Sys2Proof.Machine.execHomeKcancelArrive n s
  | .homeRedepositArrive n => Sys2Proof.Machine.execHomeRedepositArrive n s
  | .keyDeliveryArrive n => Sys2Proof.Machine.execKeyDeliveryArrive n s
  | .keyDeliveryAck n => Sys2Proof.Machine.execKeyDeliveryAck n s
  | .assayFirstArrival n => Sys2Proof.Machine.execAssayFirstArrival n s
  | .assayTwinArrival n => Sys2Proof.Machine.execAssayTwinArrival n s
  | .assayRetry n => Sys2Proof.Machine.execAssayRetry n s
  | .assayTimeout n => Sys2Proof.Machine.execAssayTimeout n s
  | .forwardHintArrive n => Sys2Proof.Machine.execForwardHintArrive n s
  | .heldForwardRelease n => Sys2Proof.Machine.execHeldForwardRelease n s
  | .mapBroadcastArrive ni => Sys2Proof.Machine.execMapBroadcastArrive ni s
  | .splitCopy => Sys2Proof.Machine.execSplitCopy s
  | .splitCutover => Sys2Proof.Machine.execSplitCutover s
  | .splitAbort lost => Sys2Proof.Machine.execSplitAbort lost s
  | .waidricMessageReceive bytes => Sys2Proof.Machine.execWaidricMessageReceive bytes s
  | .waidricConnectionFail modnum reqid => Sys2Proof.Machine.execWaidricConnectionFail modnum reqid s
  | .moduleFailed modnum => Sys2Proof.Machine.execModuleFailed modnum s
  | .heapResizeRequest home base size => Sys2Proof.Machine.execHeapResizeRequest home base size s
  | .sliceCmbopenArrive n => Sys2Proof.Machine.execSliceCmbopenArrive n s
  | .sliceCmbputArrive n => Sys2Proof.Machine.execSliceCmbputArrive n s
  | .sliceCmbcloseArrive n => Sys2Proof.Machine.execSliceCmbcloseArrive n s
  | .combineTimeout slice slot => Sys2Proof.Machine.execCombineTimeout slice slot s
  | .combineRelease slice slot => Sys2Proof.Machine.execCombineRelease slice slot s
  | .lingerExpire slice slot => Sys2Proof.Machine.execLingerExpire slice slot s
  | .openWaitServe slice => Sys2Proof.Machine.execOpenWaitServe slice s
  | .doorbell q value => Sys2Proof.Machine.execDoorbell q value s
  | .packetFetch q => Sys2Proof.Machine.execPacketFetch q s
  | .launchPacket q n => Sys2Proof.Machine.execLaunchPacket q n s
  | .copyPacket q n => Sys2Proof.Machine.execCopyPacket q n s
  | .kputPacket q n => Sys2Proof.Machine.execKputPacket q n s
  | .signalPacket q n => Sys2Proof.Machine.execSignalPacket q n s
  | .fencePacket q n => Sys2Proof.Machine.execFencePacket q n s
  | .waitcondPacket q n => Sys2Proof.Machine.execWaitcondPacket q n s
  | .waitcondRetest q n => Sys2Proof.Machine.execWaitcondRetest q n s
  | .completionRecordWrite q n => Sys2Proof.Machine.execCompletionRecordWrite q n s
  | .queueCommit q copyB blk word => Sys2Proof.Machine.execQueueCommit q copyB blk word s
  | .commitTakeEffect q => Sys2Proof.Machine.execCommitTakeEffect q s
  | .frontEndModeWrite v => Sys2Proof.Machine.execFrontEndModeWrite v s
  | .firmwareTableWrite w => Sys2Proof.Machine.execFirmwareTableWrite w s
  | .frameReceive port fcsOk ts bytes => Sys2Proof.Machine.execFrameReceive port fcsOk ts bytes s
  | .firmwareWatchdogReset blk => Sys2Proof.Machine.execFirmwareWatchdogReset blk s
  | .heartbeat blk answered => Sys2Proof.Machine.execHeartbeat blk answered s
  | .firmwareReplace blk img => Sys2Proof.Machine.execFirmwareReplace blk img s
  | .partitionSwitchRequest p => Sys2Proof.Machine.execPartitionSwitchRequest p s
  | .partitionHalt p => Sys2Proof.Machine.execPartitionHalt p s
  | .contextWriteOut p => Sys2Proof.Machine.execContextWriteOut p s
  | .partitionRestore p onto => Sys2Proof.Machine.execPartitionRestore p onto s
  | .spillReloadComplete c region => Sys2Proof.Machine.execSpillReloadComplete c region s
  | .slotReloadComplete c slot => Sys2Proof.Machine.execSlotReloadComplete c slot s
  | .partitionGate p => Sys2Proof.Machine.execPartitionGate p s
  | .partitionWake p onto => Sys2Proof.Machine.execPartitionWake p onto s
  | .uncorrectableError place => Sys2Proof.Machine.execUncorrectableError place s
  | .coreKill c => Sys2Proof.Machine.execCoreKill c s
  | .coreMapUpdateArrive ni c => Sys2Proof.Machine.execCoreMapUpdateArrive ni c s
  | .coreMapChangeComplete c => Sys2Proof.Machine.execCoreMapChangeComplete c s
  | .mismatchWindowEnd die => Sys2Proof.Machine.execMismatchWindowEnd die s
  | .correctedErrorReport eng bank row col => Sys2Proof.Machine.execCorrectedErrorReport eng bank row col s
  | .classificationWindowEnd eng => Sys2Proof.Machine.execClassificationWindowEnd eng s
  | .repairServe eng idx => Sys2Proof.Machine.execRepairServe eng idx s
  | .translationInvalidate ctx lo hi => Sys2Proof.Machine.execTranslationInvalidate ctx lo hi s
  | .powerOn flash => Sys2Proof.Machine.execPowerOn flash s
  | .imageVerify blk img => Sys2Proof.Machine.execImageVerify blk img s
  | .blockReady blk => Sys2Proof.Machine.execBlockReady blk s
  | .minSvnRaise target svn signed => Sys2Proof.Machine.execMinSvnRaise target svn signed s
  | .attestationRequest nonce => Sys2Proof.Machine.execAttestationRequest nonce s
  | .leaveCapWrite die cap => Sys2Proof.Machine.execLeaveCapWrite die cap s
  | .currentMonitorHigh => Sys2Proof.Machine.execCurrentMonitorHigh s
  | .currentMonitorLowSustained => Sys2Proof.Machine.execCurrentMonitorLowSustained s
  | .snapshotMarkerArrive tag blk => Sys2Proof.Machine.execSnapshotMarkerArrive tag blk s
  | .snapshotPacketRecord n blk => Sys2Proof.Machine.execSnapshotPacketRecord n blk s
  | .cutComplete tag => Sys2Proof.Machine.execCutComplete tag s
  | .linkDeath x => Sys2Proof.Machine.execLinkDeath x s
  | .hostRdmaWrite conn ctx va bytes => Sys2Proof.Machine.execHostRdmaWrite conn ctx va bytes s
  | .replicaDrop line holder => Sys2Proof.Machine.execReplicaDrop line holder s
  | .foremanCoreRestart c => Sys2Proof.Machine.execForemanCoreRestart c s

end Sys2Proof.Machine
end

