-- ==== Sys2Proof/Machine/Events.lean ====
section
/-! DEFINITION. What an event of an agenda does: the meaning that the constructor of Instr of its name has. -/

namespace Sys2Proof.Machine

/-- The effect of an event. -/
def runEvent (e : Event) (s : State) : Host.Outcome State Fault Refusal :=
  match e with
  | .activationChoose c => Sys2Proof.Machine.execActivationChoose c s
  | .urgentEventArrive n => Sys2Proof.Machine.execUrgentEventArrive n s
  | .urgentPreempt c => Sys2Proof.Machine.execUrgentPreempt c s
  | .stealProbe c => Sys2Proof.Machine.execStealProbe c s
  | .stealBackoffExpire c => Sys2Proof.Machine.execStealBackoffExpire c s
  | .stealRequestServe n => Sys2Proof.Machine.execStealRequestServe n s
  | .stealReplyArrive n => Sys2Proof.Machine.execStealReplyArrive n s
  | .stealAckArrive n => Sys2Proof.Machine.execStealAckArrive n s
  | .stealReplyReturn n => Sys2Proof.Machine.execStealReplyReturn n s
  | .callatArrive n => Sys2Proof.Machine.execCallatArrive n s
  | .messageArrive n => Sys2Proof.Machine.execMessageArrive n s
  | .dieResourceReport die => Sys2Proof.Machine.execDieResourceReport die s
  | .rootPlace ltag => Sys2Proof.Machine.execRootPlace ltag s
  | .rootRecordArrive n => Sys2Proof.Machine.execRootRecordArrive n s
  | .dualPairPlace k => Sys2Proof.Machine.execDualPairPlace k s
  | .continuationDeliver n => Sys2Proof.Machine.execContinuationDeliver n s
  | .roundCloseArrive n => Sys2Proof.Machine.execRoundCloseArrive n s
  | .waveStart ltag => Sys2Proof.Machine.execWaveStart ltag s
  | .waveAnswer c => Sys2Proof.Machine.execWaveAnswer c s
  | .branchResolve c gen => Sys2Proof.Machine.execBranchResolve c gen s
  | .loadResponse n => Sys2Proof.Machine.execLoadResponse n s
  | .fenceComplete c => Sys2Proof.Machine.execFenceComplete c s
  | .drainComplete c => Sys2Proof.Machine.execDrainComplete c s
  | .wfeWake c => Sys2Proof.Machine.execWfeWake c s
  | .tileUnitBegin c => Sys2Proof.Machine.execTileUnitBegin c s
  | .tileRowComplete c => Sys2Proof.Machine.execTileRowComplete c s
  | .tileBandComplete c mismatch => Sys2Proof.Machine.execTileBandComplete c mismatch s
  | .trapEntry c => Sys2Proof.Machine.execTrapEntry c s
  | .leaveGrant die part => Sys2Proof.Machine.execLeaveGrant die part s
  | .barwComplete op => Sys2Proof.Machine.execBarwComplete op s
  | .cntrdReading op => Sys2Proof.Machine.execCntrdReading op s
  | .stationTranslate n => Sys2Proof.Machine.execStationTranslate n s
  | .faultResolve port n => Sys2Proof.Machine.execFaultResolve port n s
  | .faultDecline port n => Sys2Proof.Machine.execFaultDecline port n s
  | .faultResolveTimeout port n => Sys2Proof.Machine.execFaultResolveTimeout port n s
  | .faultQueueRetry n => Sys2Proof.Machine.execFaultQueueRetry n s
  | .storePerform n => Sys2Proof.Machine.execStorePerform n s
  | .replicaInvalidateAck line holder => Sys2Proof.Machine.execReplicaInvalidateAck line holder s
  | .atomicPerform n => Sys2Proof.Machine.execAtomicPerform n s
  | .peerAccessArrive n => Sys2Proof.Machine.execPeerAccessArrive n s
  | .sliceRead n => Sys2Proof.Machine.execSliceRead n s
  | .sectorFill line sector => Sys2Proof.Machine.execSectorFill line sector s
  | .hotWindowEnd slice => Sys2Proof.Machine.execHotWindowEnd slice s
  | .helperRead n => Sys2Proof.Machine.execHelperRead n s
  | .copyRowComplete op row => Sys2Proof.Machine.execCopyRowComplete op row s
  | .multicastDelivery op rank => Sys2Proof.Machine.execMulticastDelivery op rank s
  | .xmreadRequestArrive op line => Sys2Proof.Machine.execXmreadRequestArrive op line s
  | .xmreadSectorSend entry => Sys2Proof.Machine.execXmreadSectorSend entry s
  | .multicastEnd op => Sys2Proof.Machine.execMulticastEnd op s
  | .xfreeNoticeArrive n => Sys2Proof.Machine.execXfreeNoticeArrive n s
  | .msPacketExecute op => Sys2Proof.Machine.execMsPacketExecute op s
  | .msComplete op => Sys2Proof.Machine.execMsComplete op s
  | .vcDeadlockTimeout p => Sys2Proof.Machine.execVcDeadlockTimeout p s
  | .flowAck flow => Sys2Proof.Machine.execFlowAck flow s
  | .collectiveInstanceStart comm inst => Sys2Proof.Machine.execCollectiveInstanceStart comm inst s
  | .chunkStart die comm => Sys2Proof.Machine.execChunkStart die comm s
  | .chunkReservationTimeout die comm => Sys2Proof.Machine.execChunkReservationTimeout die comm s
  | .chunkEnd die => Sys2Proof.Machine.execChunkEnd die s
  | .collectiveInstanceEnd comm inst => Sys2Proof.Machine.execCollectiveInstanceEnd comm inst s
  | .communicatorWrite comm e => Sys2Proof.Machine.execCommunicatorWrite comm e s
  | .homeKputArrive n => Sys2Proof.Machine.execHomeKputArrive n s
  | .homeKreadArrive n => Sys2Proof.Machine.execHomeKreadArrive n s
  | .homeKtakeArrive n => Sys2Proof.Machine.execHomeKtakeArrive n s
  | .homeKcancelArrive n => Sys2Proof.Machine.execHomeKcancelArrive n s
  | .homeRedepositArrive n => Sys2Proof.Machine.execHomeRedepositArrive n s
  | .keyDeliveryArrive n => Sys2Proof.Machine.execKeyDeliveryArrive n s
  | .keyDeliveryAck n => Sys2Proof.Machine.execKeyDeliveryAck n s
  | .assayFirstArrival n => Sys2Proof.Machine.execAssayFirstArrival n s
  | .assayTwinArrival n => Sys2Proof.Machine.execAssayTwinArrival n s
  | .assayRetry n => Sys2Proof.Machine.execAssayRetry n s
  | .assayTimeout n => Sys2Proof.Machine.execAssayTimeout n s
  | .forwardHintArrive n => Sys2Proof.Machine.execForwardHintArrive n s
  | .heldForwardRelease n => Sys2Proof.Machine.execHeldForwardRelease n s
  | .mapBroadcastArrive ni => Sys2Proof.Machine.execMapBroadcastArrive ni s
  | .splitCopy => Sys2Proof.Machine.execSplitCopy s
  | .splitCutover => Sys2Proof.Machine.execSplitCutover s
  | .splitAbort lost => Sys2Proof.Machine.execSplitAbort lost s
  | .waidricMessageReceive bytes => Sys2Proof.Machine.execWaidricMessageReceive bytes s
  | .waidricConnectionFail modnum reqid => Sys2Proof.Machine.execWaidricConnectionFail modnum reqid s
  | .moduleFailed modnum => Sys2Proof.Machine.execModuleFailed modnum s
  | .heapResizeRequest home base size => Sys2Proof.Machine.execHeapResizeRequest home base size s
  | .sliceCmbopenArrive n => Sys2Proof.Machine.execSliceCmbopenArrive n s
  | .sliceCmbputArrive n => Sys2Proof.Machine.execSliceCmbputArrive n s
  | .sliceCmbcloseArrive n => Sys2Proof.Machine.execSliceCmbcloseArrive n s
  | .combineTimeout slice slot => Sys2Proof.Machine.execCombineTimeout slice slot s
  | .combineRelease slice slot => Sys2Proof.Machine.execCombineRelease slice slot s
  | .lingerExpire slice slot => Sys2Proof.Machine.execLingerExpire slice slot s
  | .openWaitServe slice => Sys2Proof.Machine.execOpenWaitServe slice s
  | .doorbell q value => Sys2Proof.Machine.execDoorbell q value s
  | .packetFetch q => Sys2Proof.Machine.execPacketFetch q s
  | .launchPacket q n => Sys2Proof.Machine.execLaunchPacket q n s
  | .copyPacket q n => Sys2Proof.Machine.execCopyPacket q n s
  | .kputPacket q n => Sys2Proof.Machine.execKputPacket q n s
  | .signalPacket q n => Sys2Proof.Machine.execSignalPacket q n s
  | .fencePacket q n => Sys2Proof.Machine.execFencePacket q n s
  | .waitcondPacket q n => Sys2Proof.Machine.execWaitcondPacket q n s
  | .waitcondRetest q n => Sys2Proof.Machine.execWaitcondRetest q n s
  | .completionRecordWrite q n => Sys2Proof.Machine.execCompletionRecordWrite q n s
  | .queueCommit q copyB blk word => Sys2Proof.Machine.execQueueCommit q copyB blk word s
  | .commitTakeEffect q => Sys2Proof.Machine.execCommitTakeEffect q s
  | .frontEndModeWrite v => Sys2Proof.Machine.execFrontEndModeWrite v s
  | .firmwareTableWrite w => Sys2Proof.Machine.execFirmwareTableWrite w s
  | .frameReceive port fcsOk ts bytes => Sys2Proof.Machine.execFrameReceive port fcsOk ts bytes s
  | .firmwareWatchdogReset blk => Sys2Proof.Machine.execFirmwareWatchdogReset blk s
  | .heartbeat blk answered => Sys2Proof.Machine.execHeartbeat blk answered s
  | .firmwareReplace blk img => Sys2Proof.Machine.execFirmwareReplace blk img s
  | .partitionSwitchRequest p => Sys2Proof.Machine.execPartitionSwitchRequest p s
  | .partitionHalt p => Sys2Proof.Machine.execPartitionHalt p s
  | .contextWriteOut p => Sys2Proof.Machine.execContextWriteOut p s
  | .partitionRestore p onto => Sys2Proof.Machine.execPartitionRestore p onto s
  | .spillReloadComplete c region => Sys2Proof.Machine.execSpillReloadComplete c region s
  | .slotReloadComplete c slot => Sys2Proof.Machine.execSlotReloadComplete c slot s
  | .partitionGate p => Sys2Proof.Machine.execPartitionGate p s
  | .partitionWake p onto => Sys2Proof.Machine.execPartitionWake p onto s
  | .uncorrectableError place => Sys2Proof.Machine.execUncorrectableError place s
  | .coreKill c => Sys2Proof.Machine.execCoreKill c s
  | .coreMapUpdateArrive ni c => Sys2Proof.Machine.execCoreMapUpdateArrive ni c s
  | .coreMapChangeComplete c => Sys2Proof.Machine.execCoreMapChangeComplete c s
  | .mismatchWindowEnd die => Sys2Proof.Machine.execMismatchWindowEnd die s
  | .correctedErrorReport eng bank row col => Sys2Proof.Machine.execCorrectedErrorReport eng bank row col s
  | .classificationWindowEnd eng => Sys2Proof.Machine.execClassificationWindowEnd eng s
  | .repairServe eng idx => Sys2Proof.Machine.execRepairServe eng idx s
  | .translationInvalidate ctx lo hi => Sys2Proof.Machine.execTranslationInvalidate ctx lo hi s
  | .powerOn flash => Sys2Proof.Machine.execPowerOn flash s
  | .imageVerify blk img => Sys2Proof.Machine.execImageVerify blk img s
  | .blockReady blk => Sys2Proof.Machine.execBlockReady blk s
  | .minSvnRaise target svn signed => Sys2Proof.Machine.execMinSvnRaise target svn signed s
  | .attestationRequest nonce => Sys2Proof.Machine.execAttestationRequest nonce s
  | .leaveCapWrite die cap => Sys2Proof.Machine.execLeaveCapWrite die cap s
  | .currentMonitorHigh => Sys2Proof.Machine.execCurrentMonitorHigh s
  | .currentMonitorLowSustained => Sys2Proof.Machine.execCurrentMonitorLowSustained s
  | .snapshotMarkerArrive tag blk => Sys2Proof.Machine.execSnapshotMarkerArrive tag blk s
  | .snapshotPacketRecord n blk => Sys2Proof.Machine.execSnapshotPacketRecord n blk s
  | .cutComplete tag => Sys2Proof.Machine.execCutComplete tag s
  | .linkDeath x => Sys2Proof.Machine.execLinkDeath x s
  | .hostRdmaWrite conn ctx va bytes => Sys2Proof.Machine.execHostRdmaWrite conn ctx va bytes s
  | .replicaDrop line holder => Sys2Proof.Machine.execReplicaDrop line holder s
  | .foremanCoreRestart c => Sys2Proof.Machine.execForemanCoreRestart c s

end Sys2Proof.Machine
end

