-- ==== Sys2Proof/Machine/Run.lean ====
section
/-! DEFINITION. Running the next word of a core (R124, R131, R133, R170, R171, R176, R540), and which
core is next (log 3). -/

namespace Sys2Proof.Machine

/-- Whether a word that the decoder refuses is a prefix word all the same, so that the unit goes on (R128, R133). -/
def isPrefixWord (bytes : List Byte) : Bool := decide (leNat bytes / 2 ^ 24 % 2 ^ 8 = 0xFD)

/-- The word at a core's pc, fetched, decoded and executed. -/
def runWord (s : State) (c : Nat) : Host.Outcome State Fault Refusal :=
  let x := getCtx s c
  match fetchAt s c x.pc with
  | .hold => .next s
  | .fault kind => .next (fetchTrap s c { issueTrap (unitPc x) causeFetchFault kind x.pc with faultpc := unitPc x })
  | .word bytes line =>
    let t := { fillLine s c line with focus := c }
    match decodeBytes bytes with
    | .ok i => exec i t
    | .error _ =>
      if isPrefixWord bytes then .next (passPrefix t (fun p => { p with ill := true }))
      else .next (fetchTrap t c (issueTrap (unitPc x) causeIllegal 0 0))

/-- The next word of a core: the tile stream's pending trap is taken at a unit boundary on the confirmed path, a follower's too (R77,
R78, R131, R189, R540); else a core that does not follow in a gang, is not to stop and does not wait executes the word at its pc. -/
def runCore (s : State) (c : Nat) : Host.Outcome State Fault Refusal :=
  let k := getCore s c
  let x := k.ctx
  if k.state ≠ .running ∨ coreOut s c = true then .next s
  else
    match x.tileTrap, x.gens with
    | some t, [] => .next (takeTileTrap s c t)
    | _, _ =>
      if isFollower k then .next s
      else
        match stopCore s c, x.wait with
        | some t, _ => .next t
        | none, .none => runWord s c
        | none, .tileIdle _ => .next (if x.seq.isEmpty then setCtx s c (endTileWait x) else s)
        | none, _ => .next s

/-- The core that runs after one: the next running core in rising order, round the end; itself when no other runs. -/
def nextFocus (s : State) : Nat :=
  let run := (s.cores.filter (fun p => p.2.state == .running)).map (·.1)
  match run.find? (fun c => decide (s.focus < c)) with
  | some c => c
  | none => run.headD s.focus

/-- Whether a step of a core would disband its gang while a tile instruction of the gang that no trap stops is inside its bands: it runs to
its end on every member first, and the core takes its trap, or ends, after that (R208, log 92). -/
def holdsDisband (s t : State) (c : Nat) : Bool :=
  let x := getCtx s c
  inGang (getCore s c) && !inGang (getCore t c) && runningOut x && ((curUnit x).any (fun u => gangUnit (getCore s c) u.id))

/-- The word that the focus core runs, after which an event is next and the focus moves on (log 3); what it changes of the objects and
counters that cores have waited on latches (R246). -/
def coreStep (s : State) : Host.Outcome State Fault Refusal :=
  if coreCount ≤ s.focus then .fault .noSuchCore
  else
    match runCore s s.focus with
    | .next u =>
      let t := if holdsDisband s u s.focus then s else u
      .next (noteChanges s { t with turn := .event, focus := nextFocus t })
    | .fault r => .fault r
    | .refused r => .refused r

/-- The state in which the event at the head of the agenda happens: it has left the agenda, the focus core is next, and a packet that it
accepts has met the cuts in progress (log 3, R580, R582). -/
def eventState (s : State) (e : Event) (rest : List Event) : State := meetCuts { s with agenda := rest, turn := .core } e

/-- The event at the head of the agenda (log 3); what it changes of the objects and counters that cores have waited on latches (R246). -/
def eventStep (s : State) (e : Event) (rest : List Event) : Host.Outcome State Fault Refusal :=
  match runEvent e (eventState s e rest) with
  | .next t => .next (noteChanges s t)
  | .fault r => .fault r
  | .refused r => .refused r

/-- The address at which `placeWord` lays an instruction: in space 0x4 (log 5). -/
def fetchBase : Word := 0x4000000000001000

/-- The focus core running, at a unit boundary, with an instruction in its instruction cache at its pc (log 5). -/
def placeWord (s : State) (nbits w : Nat) : State :=
  let c := if s.focus < coreCount then s.focus else 0
  let line : ICLine :=
    { ctx := ctxOf s c, line := fetchBase.toNat % 2 ^ 48 / 64, bytes := leBytes 64 (w % 2 ^ nbits) }
  let t := modCore s c (fun k =>
    { k with
      state := .running, stop := .none, gang := .none, icache := line :: k.icache,
      ctx := { k.ctx with pc := fetchBase, pfx := none, gens := [], wait := .none, tileTrap := none } })
  { t with turn := .core, focus := c }

end Sys2Proof.Machine
end

