-- ==== Sys2Proof/Machine/Step.lean ====
section
/-! DEFINITION. One step of the module: an event of the agenda or a word of the focus core, in turn (log 3). -/

namespace Sys2Proof.Machine

/-- One step. -/
def step (s : State) : Host.Outcome State Fault Refusal :=
  match s.turn, s.agenda with
  | .event, e :: rest => Sys2Proof.Machine.eventStep s e rest
  | _, _ => Sys2Proof.Machine.coreStep s

/-- The state with an instruction stored where step fetches its next instruction (log 5). -/
def State.withFetchWord (s : State) (nbits w : Nat) : State := Sys2Proof.Machine.placeWord s nbits w

end Sys2Proof.Machine
end

