-- ==== Sys2Proof/Safety.lean ====
section
/-! DEFINITION. The terms in which claims speak of a run: the context of the core that runs, what a unit needs to go at
issue (R130-R133, R155-R157), the canonical form of every memory, and a safe run. -/

namespace Sys2Proof.Machine

/-- The live context of the core whose instruction exec runs. -/
abbrev cur (s : State) : Ctx := getCtx s s.focus

/-- The state in which the core that runs has another live context, and nothing else differs. -/
abbrev withCur (s : State) (x : Ctx) : State := setCtx s s.focus x

/-- A register holds a value: nothing is awaited in it, and it is not poisoned (R155, R157). -/
abbrev Holds (x : Ctx) (r : BitVec 5) : Prop := (getReg x r).mark = .clear ∧ (getReg x r).poison = none

/-- A register may be written: nothing is awaited in it (R157). -/
abbrev Open (x : Ctx) (r : BitVec 5) : Prop := (getReg x r).mark = .clear

/-- What an instruction needs to go at issue, of the context alone: its prefixes are accepted and none of them is ILLEGAL
(R130, R131, R133); every branch before it has resolved, unless it may run ahead (R68, R177); supervisor mode if it is
privileged (R236); every register that it reads holds a value, and every one that it writes may be written (R155-R157). -/
abbrev Goes (x : Ctx) (q : IssueSpec) : Prop :=
  prefixIll x.pfx = false ∧ prefixOk q x.pfx = true ∧ (q.ahead = true ∨ x.gens = []) ∧
    (q.priv = true → x.sys.sup = true) ∧ (∀ r ∈ q.reads, Holds x r) ∧ ∀ r ∈ q.writes, Open x r

/-- What a claim says of an instruction whose form takes these prefixes and needs no privilege: `ahead` where it may run
ahead (R68), `imm`, `rnd`, `dup` and `ord` where it accepts XIMM and the fields of XMOD (R130). -/
abbrev needs (reads writes : List (BitVec 5)) (ahead : Bool := false) (imm : Bool := false) (rnd : Bool := false)
    (dup : Bool := false) (ord : Bool := false) (priv : Bool := false) : IssueSpec :=
  { reads := reads, writes := writes, ahead := ahead, imm := imm, rnd := rnd, dup := dup, ord := ord, priv := priv,
    spread := false }

/-- The XIMM of the unit in progress (R128). -/
abbrev unitXimm (x : Ctx) : Option (BitVec 24) := x.pfx.bind (·.ximm)

/-- The XMOD of the unit in progress (R129). -/
abbrev unitXmod (x : Ctx) : Option Xmod := x.pfx.bind (·.xmod)

/-- What a tile instruction needs at dispatch: the register that it captures (R64), and the prefix fields that it accepts: RND
and SATM, DUP, or none (R130). `none` for an instruction that does not go to the sequencer. -/
def tileNeeds (i : Instr) : Option IssueSpec :=
  match i with
  | .tadd _ _ _ _ => some (needs (capturedRegs i) [] (ahead := true) (rnd := true))
  | .tsub _ _ _ _ => some (needs (capturedRegs i) [] (ahead := true) (rnd := true))
  | .tmul _ _ _ _ => some (needs (capturedRegs i) [] (ahead := true) (rnd := true))
  | .tmin _ _ _ _ => some (needs (capturedRegs i) [] (ahead := true) (rnd := true))
  | .tmax _ _ _ _ => some (needs (capturedRegs i) [] (ahead := true) (rnd := true))
  | .tand _ _ _ _ => some (needs (capturedRegs i) [] (ahead := true) (rnd := true))
  | .tor _ _ _ _ => some (needs (capturedRegs i) [] (ahead := true) (rnd := true))
  | .txor _ _ _ _ => some (needs (capturedRegs i) [] (ahead := true) (rnd := true))
  | .tshl _ _ _ _ => some (needs (capturedRegs i) [] (ahead := true) (rnd := true))
  | .tshr _ _ _ _ => some (needs (capturedRegs i) [] (ahead := true) (rnd := true))
  | .tcmp _ _ _ _ _ => some (needs (capturedRegs i) [] (ahead := true) (rnd := true))
  | .tneg _ _ => some (needs (capturedRegs i) [] (ahead := true) (rnd := true))
  | .tabs _ _ => some (needs (capturedRegs i) [] (ahead := true) (rnd := true))
  | .texp2 _ _ => some (needs (capturedRegs i) [] (ahead := true) (rnd := true))
  | .tlog2 _ _ => some (needs (capturedRegs i) [] (ahead := true) (rnd := true))
  | .trcp _ _ => some (needs (capturedRegs i) [] (ahead := true) (rnd := true))
  | .trsqrt _ _ => some (needs (capturedRegs i) [] (ahead := true) (rnd := true))
  | .tsqrt _ _ => some (needs (capturedRegs i) [] (ahead := true) (rnd := true))
  | .ttanh _ _ => some (needs (capturedRegs i) [] (ahead := true) (rnd := true))
  | .tcvt _ _ => some (needs (capturedRegs i) [] (ahead := true) (rnd := true))
  | .tround _ _ => some (needs (capturedRegs i) [] (ahead := true) (rnd := true))
  | .trsum _ _ => some (needs (capturedRegs i) [] (ahead := true) (rnd := true))
  | .tcsum _ _ => some (needs (capturedRegs i) [] (ahead := true) (rnd := true))
  | .trmax _ _ => some (needs (capturedRegs i) [] (ahead := true) (rnd := true))
  | .tcmax _ _ => some (needs (capturedRegs i) [] (ahead := true) (rnd := true))
  | .tscan _ _ _ => some (needs (capturedRegs i) [] (ahead := true) (rnd := true))
  | .ttopk _ _ _ _ => some (needs (capturedRegs i) [] (ahead := true) (rnd := true))
  | .thist _ _ => some (needs (capturedRegs i) [] (ahead := true) (rnd := true))
  | .targmax _ _ => some (needs (capturedRegs i) [] (ahead := true) (rnd := true))
  | .tfma _ _ _ _ _ => some (needs (capturedRegs i) [] (ahead := true) (rnd := true))
  | .tsel _ _ _ _ _ => some (needs (capturedRegs i) [] (ahead := true) (rnd := true))
  | .tscale _ _ _ _ => some (needs (capturedRegs i) [] (ahead := true) (rnd := true))
  | .tcopy _ _ _ => some (needs (capturedRegs i) [] (ahead := true) (rnd := true))
  | .tbcast _ _ _ => some (needs (capturedRegs i) [] (ahead := true) (rnd := true))
  | .tset _ _ _ _ => some (needs (capturedRegs i) [] (ahead := true) (rnd := true))
  | .trowg _ _ _ => some (needs (capturedRegs i) [] (ahead := true) (rnd := true))
  | .tpack _ _ _ _ => some (needs (capturedRegs i) [] (ahead := true) (rnd := true))
  | .adrain _ _ _ _ _ _ => some (needs (capturedRegs i) [] (ahead := true) (rnd := true))
  | .ascale _ _ _ _ _ _ => some (needs (capturedRegs i) [] (ahead := true) (rnd := true))
  | .amovout _ _ _ => some (needs (capturedRegs i) [] (ahead := true) (rnd := true))
  | .mma _ _ _ _ _ => some (needs (capturedRegs i) [] (ahead := true) (dup := true))
  | .mmag _ _ _ _ _ _ _ => some (needs (capturedRegs i) [] (ahead := true) (dup := true))
  | .mmal _ _ _ _ _ => some (needs (capturedRegs i) [] (ahead := true) (dup := true))
  | .tbind _ _ _ _ => some (needs (capturedRegs i) [] (ahead := true))
  | .tshape _ _ _ => some (needs (capturedRegs i) [] (ahead := true))
  | .tvalid _ _ _ => some (needs (capturedRegs i) [] (ahead := true))
  | .tfill _ _ => some (needs (capturedRegs i) [] (ahead := true))
  | .tget _ _ _ => some (needs (capturedRegs i) [] (ahead := true))
  | .ttrans _ _ => some (needs (capturedRegs i) [] (ahead := true))
  | .tldg _ _ _ => some (needs (capturedRegs i) [] (ahead := true))
  | .tstg _ _ _ => some (needs (capturedRegs i) [] (ahead := true))
  | .tshift _ _ _ _ _ => some (needs (capturedRegs i) [] (ahead := true))
  | .mloadb _ _ _ _ _ _ => some (needs (capturedRegs i) [] (ahead := true))
  | .mfree _ _ => some (needs (capturedRegs i) [] (ahead := true))
  | .azero _ _ _ => some (needs (capturedRegs i) [] (ahead := true))
  | .amovin _ _ _ => some (needs (capturedRegs i) [] (ahead := true))
  | _ => none

/-- The activation that issued an operation runs on its core and waits for it in a register (R157). -/
abbrev Awaits (s : State) (o : Op) : Prop :=
  findOp s o.id = some o ∧ runsSerial (getCtx s o.core) o.serial = true ∧ (getReg (getCtx s o.core) o.reg).mark = .op o.id ∧ o.reg ≠ 0

/-- An operation has ended, and its register holds a status word (R157, R159). -/
abbrev Told (t : State) (o : Op) (w : Word) : Prop :=
  regVal (getCtx t o.core) o.reg = w ∧ isMarked (getCtx t o.core) o.reg = false ∧ findOp t o.id = none

/-- A binding as TBIND, TSHAPE and TVALID make it: legal, with its valid extent inside its shape (R182, R195). -/
abbrev TileOk (b : Tile) : Prop := legalTile b = true ∧ b.vrows ≤ b.rows ∧ b.vcols ≤ b.cols

/-- A core whose tile stream stands alone and may move: it runs outside a gang, its stream is neither held nor stopped, no
switch of its partition holds it, and no copy, reload or fence holds its unit back. -/
abbrev StreamFree (s : State) (c : Nat) (u : TileUnit) : Prop :=
  (getCore s c).state = .running ∧ (getCore s c).gang = .none ∧ (getCtx s c).heldStream = false ∧
    (getCtx s c).tileTrap = none ∧ (getCtx s c).run.loopLeft = none ∧ bandHolds s c = false ∧ unitWaits s c u = false ∧
    fenceHolds (getCtx s c) u = false

/-- The element-by-element instructions of R217-R222, R231-R234 on their own tile, with the place of the operands. -/
def isElementwise (i : Instr) : Bool :=
  match i with
  | .tadd _ _ _ n => n == 0
  | .tsub _ _ _ n => n == 0
  | .tmul _ _ _ n => n == 0
  | .tmin _ _ _ n => n == 0
  | .tmax _ _ _ n => n == 0
  | .tand _ _ _ n => n == 0
  | .tor _ _ _ n => n == 0
  | .txor _ _ _ n => n == 0
  | .tshl _ _ _ n => n == 0
  | .tshr _ _ _ n => n == 0
  | .tcmp _ _ _ n _ => n == 0
  | .tfma _ _ _ _ n => n == 0
  | .tsel _ _ _ _ n => n == 0
  | .tneg _ _ => true
  | .tabs _ _ => true
  | .texp2 _ _ => true
  | .tlog2 _ _ => true
  | .trcp _ _ => true
  | .trsqrt _ _ => true
  | .tsqrt _ _ => true
  | .ttanh _ _ => true
  | .tcvt _ _ => true
  | .tround _ _ => true
  | .tscale _ _ _ _ => true
  | _ => false

/-- Every byte of the module's memory and of the memory outside it reads after as it read before. -/
abbrev SameMem (s t : State) : Prop := (∀ a, physByte t a = physByte s a) ∧ ∀ a, memGet t.remote a = memGet s.remote a

/-- Every memory of a core is in canonical form. -/
def coreMemOk (k : Core) : Bool := memWf k.spad && memWf k.supArea

/-- Every memory of the module is in canonical form: addresses rise strictly, and none is listed with the byte that an unlisted
one reads (log 2). -/
def MemOk (s : State) : Prop :=
  memWf s.hbm = true ∧ memWf s.remote = true ∧ (∀ p ∈ s.cores, coreMemOk p.2 = true) ∧ (∀ p ∈ s.lines, memWf p.2.data = true) ∧
    (∀ r ∈ s.replicas, memWf r.data = true) ∧ ∀ p ∈ s.parts, ∀ d ∈ p.2.saved, coreMemOk d.2 = true

/-- A safe run of n steps: the machine never stops. -/
def safeFor (n : Nat) (s : State) : Prop :=
  match n with
  | 0 => True
  | m + 1 => ∃ t, step s = .next t ∧ safeFor m t

/-- What %xstep becomes at a trap's entry: where the trap stops a tile instruction inside its rows, the rows completed, which of an MLOADB
are those of whole bands of 8 (R191, R282; log 82); else its value. -/
def stopStep (x : Ctx) : BitVec 9 :=
  if x.run.begun = true ∧ x.run.stopped = false ∧ x.tileTrap = none ∧ runningOut x = false then
    BitVec.ofNat 9 (match curUnit x with
      | some u => match u.instr with
        | .mloadb _ _ _ _ _ _ => x.run.row - x.run.row % 8
        | _ => x.run.row
      | none => x.run.row)
  else x.sys.xstep

end Sys2Proof.Machine
end

