-- ==== Sys2Proof/Certificates/Slice0/Obligations.lean ====
section
/-! DEFINITION. The statements for the provers, from the numbered rules of spec/. -/

section

open Sys2Proof Sys2Proof.Machine


/-- R105: a step of the generator is the three exclusive-ors on its 32-bit state, a zero state counting as 1; the state is
%rseed. -/
def Obligations.StochasticStep : Prop :=
  ∀ (s : State) (c : Nat) (x : BitVec 32),
    let a := if x = 0 then 1 else x.toNat
    let b := a ^^^ (a * 2 ^ 13 % 2 ^ 32)
    let d := b ^^^ (b / 2 ^ 17)
    (stochStep x).toNat = d ^^^ (d * 2 ^ 5 % 2 ^ 32) ∧
      (sysRead s c 0x005).toNat = (getCtx s c).sys.rseed.toNat

/-- R102: a conversion to E8M0. A positive value m * 2^e has floor(log2) = k + e, where 2^k is the largest power of two that m
reaches. -/
def Obligations.ConversionToE8M0 : Prop :=
  ∀ (mode : Rnd) (sm : SatMode) (v m k : Nat) (e : Int) (neg : Bool),
    let conv := rnd .e8m0 mode sm v
    conv .nan = 0xFF ∧ conv (.inf neg) = 0xFF ∧ conv (.fin neg 0 e) = 0xFF ∧ conv (.fin true m e) = 0xFF ∧
    (2 ^ k ≤ m → m < 2 ^ (k + 1) →
      let n := (k : Int) + e
      (n < -127 → conv (.fin false m e) = 0x00) ∧
      (127 < n → conv (.fin false m e) = if sm = .nonsat then 0xFF else 0xFE) ∧
      (-127 ≤ n → n ≤ 127 → (conv (.fin false m e) : Int) = n + 127))

/-- R163 (with R162, R122 for the shift amounts): every INT.R instruction that has its operands writes one register and
passes; nothing else of the machine changes. A destination g0 discards the result (R153). -/
def Obligations.IntegerRegister : Prop :=
  ∀ (s : State) (d a b : BitVec 5) (h : BitVec 2), Goes (cur s) (needs [a, b] [d] (ahead := true)) →
    let x := regVal (cur s) a
    let y := regVal (cur s) b
    let out := fun v : Word => withCur s (setReg (passUnit (cur s)) d v)
    exec (.add d a b) s = .next (out (x + y)) ∧
    exec (.sub d a b) s = .next (out (x - y)) ∧
    exec (.and d a b) s = .next (out (x &&& y)) ∧
    exec (.or d a b) s = .next (out (x ||| y)) ∧
    exec (.xor d a b) s = .next (out (x ^^^ y)) ∧
    exec (.andn d a b) s = .next (out (x &&& ~~~y)) ∧
    exec (.orn d a b) s = .next (out (x ||| ~~~y)) ∧
    exec (.sll d a b) s = .next (out (BitVec.ofNat 64 (x.toNat * 2 ^ (y.toNat % 64)))) ∧
    exec (.srl d a b) s = .next (out (BitVec.ofNat 64 (x.toNat / 2 ^ (y.toNat % 64)))) ∧
    exec (.sra d a b) s = .next (out (BitVec.ofInt 64 (x.toInt / 2 ^ (y.toNat % 64)))) ∧
    exec (.slt d a b) s = .next (out (if x.toInt < y.toInt then 1 else 0)) ∧
    exec (.sltu d a b) s = .next (out (if x.toNat < y.toNat then 1 else 0)) ∧
    exec (.min d a b) s = .next (out (BitVec.ofInt 64 (min x.toInt y.toInt))) ∧
    exec (.max d a b) s = .next (out (BitVec.ofInt 64 (max x.toInt y.toInt))) ∧
    exec (.minu d a b) s = .next (out (BitVec.ofNat 64 (min x.toNat y.toNat))) ∧
    exec (.maxu d a b) s = .next (out (BitVec.ofNat 64 (max x.toNat y.toNat))) ∧
    exec (.lea d a b h) s = .next (out (BitVec.ofNat 64 (x.toNat + y.toNat * 2 ^ h.toNat)))

/-- R164 with R136: every INT.I instruction that has its operand, with or without an XIMM word before it; SLLI, SRLI and SRAI
take none. The working immediate is the 36-bit pattern of XIMM and k, or k alone, sign-extended or zero-extended. -/
def Obligations.IntegerImmediate : Prop :=
  ∀ (s : State) (d a : BitVec 5) (k : BitVec 12) (n : BitVec 6),
    let x := regVal (cur s) a
    let sx : Int := match unitXimm (cur s) with
      | none => k.toInt
      | some u => (u ++ k).toInt
    let zx : Nat := match unitXimm (cur s) with
      | none => k.toNat
      | some u => u.toNat * 4096 + k.toNat
    let out := fun v : Word => withCur s (setReg (passUnit (cur s)) d v)
    (Goes (cur s) (needs [a] [d] (ahead := true) (imm := true)) →
      exec (.addi d a k) s = .next (out (BitVec.ofInt 64 (x.toInt + sx))) ∧
      exec (.andi d a k) s = .next (out (x &&& BitVec.ofNat 64 zx)) ∧
      exec (.ori d a k) s = .next (out (x ||| BitVec.ofNat 64 zx)) ∧
      exec (.xori d a k) s = .next (out (x ^^^ BitVec.ofNat 64 zx)) ∧
      exec (.slti d a k) s = .next (out (if x.toInt < sx then 1 else 0)) ∧
      exec (.sltiu d a k) s = .next (out (if x.toNat < (BitVec.ofInt 64 sx).toNat then 1 else 0)) ∧
      exec (.lih d a k) s = .next (out (BitVec.ofInt 64 (sx * 2 ^ 36) ||| BitVec.ofNat 64 (x.toNat % 2 ^ 36)))) ∧
    (Goes (cur s) (needs [a] [d] (ahead := true)) →
      exec (.slli d a n) s = .next (out (BitVec.ofNat 64 (x.toNat * 2 ^ n.toNat))) ∧
      exec (.srli d a n) s = .next (out (BitVec.ofNat 64 (x.toNat / 2 ^ n.toNat))) ∧
      exec (.srai d a n) s = .next (out (BitVec.ofInt 64 (x.toInt / 2 ^ n.toNat))))

/-- R166 with R121: MULDIV, with the results for a zero divisor and for the overflowing division. R167: the BIT instructions,
each result said bit by bit or by what it counts. BEXT reads positions above bit 63 as zero, BINS drops the part of the field
above bit 63. -/
def Obligations.MultiplyDivideBit : Prop :=
  (∀ (s : State) (d a b : BitVec 5), Goes (cur s) (needs [a, b] [d] (ahead := true)) →
    let x := regVal (cur s) a
    let y := regVal (cur s) b
    let out := fun v : Word => withCur s (setReg (passUnit (cur s)) d v)
    exec (.mul d a b) s = .next (out (BitVec.ofInt 64 (x.toInt * y.toInt))) ∧
    exec (.mulh d a b) s = .next (out (((x.signExtend 128 * y.signExtend 128) >>> 64).setWidth 64)) ∧
    exec (.mulhu d a b) s = .next (out (((x.setWidth 128 * y.setWidth 128) >>> 64).setWidth 64)) ∧
    exec (.div d a b) s = .next (out (if y = 0 then BitVec.allOnes 64
      else if x = 0x8000000000000000 ∧ y = BitVec.allOnes 64 then 0x8000000000000000
      else BitVec.ofInt 64 (x.toInt.tdiv y.toInt))) ∧
    exec (.divu d a b) s = .next (out (if y = 0 then BitVec.allOnes 64 else BitVec.ofNat 64 (x.toNat / y.toNat))) ∧
    exec (.rem d a b) s = .next (out (if y = 0 then x
      else if x = 0x8000000000000000 ∧ y = BitVec.allOnes 64 then 0
      else BitVec.ofInt 64 (x.toInt - y.toInt * x.toInt.tdiv y.toInt))) ∧
    exec (.remu d a b) s = .next (out (if y = 0 then x else BitVec.ofNat 64 (x.toNat - y.toNat * (x.toNat / y.toNat))))) ∧
  (∀ (s : State) (d a b : BitVec 5),
    let x := regVal (cur s) a
    let y := regVal (cur s) b
    let pos := y.toNat % 64
    let len := if y.toNat / 256 % 64 = 0 then 64 else y.toNat / 256 % 64
    let out := fun v : Word => withCur s (setReg (passUnit (cur s)) d v)
    (Goes (cur s) (needs [a] [d] (ahead := true)) →
      (∃ n ≤ 64, exec (.clz d a) s = .next (out (BitVec.ofNat 64 n)) ∧
        (∀ i < 64, 64 - n ≤ i → x.getLsbD i = false) ∧ (n < 64 → x.getLsbD (63 - n) = true)) ∧
      (∃ n ≤ 64, exec (.ctz d a) s = .next (out (BitVec.ofNat 64 n)) ∧
        (∀ i < n, x.getLsbD i = false) ∧ (n < 64 → x.getLsbD n = true)) ∧
      exec (.popc d a) s = .next (out (BitVec.ofNat 64 ((List.range 64).countP (fun i => x.getLsbD i)))) ∧
      (∃ v : Word, exec (.brev d a) s = .next (out v) ∧ ∀ i < 64, v.getLsbD i = x.getLsbD (63 - i))) ∧
    (Goes (cur s) (needs [a, b] [d] (ahead := true)) →
      ∃ v : Word, exec (.bext d a b) s = .next (out v) ∧
        ∀ i < 64, v.getLsbD i = (decide (i < len) && decide (pos + i < 64) && x.getLsbD (pos + i))) ∧
    (Goes (cur s) (needs [a, b, d] [d] (ahead := true)) →
      ∃ v : Word, exec (.bins d a b) s = .next (out v) ∧
        ∀ i < 64, v.getLsbD i =
          if pos ≤ i ∧ i < pos + len then x.getLsbD (i - pos) else (regVal (cur s) d).getLsbD i))

/-- R153: g0 reads zero whatever is written to it, a write to any other register is read back, and no write to one register
changes another. R161: QPUSH appends to q0-q3 with the youngest branch generation, QPOP takes the head of q4-q7, QLEN reads a
length; a QPUSH into a full queue and a QPOP from an empty one wait at their boundary. -/
def Obligations.Registers : Prop :=
  (∀ (x : Ctx) (r q : BitVec 5) (v : Word),
    regVal (setReg x 0 v) 0 = 0 ∧ setReg x 0 v = x ∧
    (r ≠ 0 → getReg (setReg x r v) r = { val := v, poison := none, mark := .clear }) ∧
    (q ≠ r → getReg (setReg x r v) q = getReg x q)) ∧
  (∀ (s : State) (d a : BitVec 5) (n : BitVec 2) (m : BitVec 3),
    let x := cur s
    (Goes x (needs [a] [] (ahead := true)) →
      ((getQueue x n.toNat).length < 8 →
        exec (.qpush a n) s = .next (withCur s (setQueue (passUnit x) n.toNat
          (getQueue x n.toNat ++ [{ val := regVal x a, gen := youngestGen x }])))) ∧
      (8 ≤ (getQueue x n.toNat).length → exec (.qpush a n) s = .next s)) ∧
    (Goes x (needs [] [d]) →
      (∀ e r, getQueue x (4 + n.toNat) = e :: r →
        exec (.qpop d n) s = .next (withCur s (setReg (setQueue (passUnit x) (4 + n.toNat) r) d e.val))) ∧
      (getQueue x (4 + n.toNat) = [] → exec (.qpop d n) s = .next s) ∧
      exec (.qlen d m) s =
        .next (withCur s (setReg (passUnit x) d (BitVec.ofNat 64 (getQueue x m.toNat).length)))))

/-- R128, R129, R131: a prefix word at a unit boundary is passed and recorded for the next instruction of its unit, the second
word of a pair adds to the first, and the unit keeps the address of its first word. Nothing else changes. R178, R179: HLIKELY
records the branch that it names and the direction, and HPREF does nothing but pass; neither changes a register. -/
def Obligations.PrefixesAndHints : Prop :=
  (∀ (s : State) (u : BitVec 24) (r : BitVec 3) (sm : BitVec 2) (d : BitVec 1) (o : BitVec 2),
    let x := cur s
    let m : Xmod := { rnd := r, sat := sm, dup := d, ord := o }
    (x.pfx = none →
      exec (.ximm u) s = .next (withCur s { x with
        pc := x.pc + 4, pfx := some { upc := x.pc, ximm := some u, xmod := none, ill := false, bad := false } }) ∧
      exec (.xmod r sm d o) s = .next (withCur s { x with
        pc := x.pc + 4, pfx := some { upc := x.pc, ximm := none, xmod := some m, ill := false, bad := false } })) ∧
    (∀ p, x.pfx = some p → p.xmod = none →
      exec (.xmod r sm d o) s = .next (withCur s { x with pc := x.pc + 4, pfx := some { p with xmod := some m } })) ∧
    (∀ p, x.pfx = some p → p.ximm = none →
      exec (.ximm u) s = .next (withCur s { x with pc := x.pc + 4, pfx := some { p with ximm := some u } }))) ∧
  (∀ (s : State) (n : BitVec 8) (t : BitVec 1) (l : BitVec 4) (w : BitVec 20), Goes (cur s) (needs [] [] (ahead := true)) →
    exec (.hlikely n t) s = .next (withCur s { passUnit (cur s) with
      hint := some { target := unitPc (cur s) + 4 * n.setWidth 64, taken := decide (t = 1) } }) ∧
    exec (.hpref l w) s = .next (withCur s (passUnit (cur s))))

/-- R168, R169 (with R127 for the target): a branch whose operands are there goes to its target or to the next word, LOOPNZ
decrements first, and JAL and JALR write the link. JALR computes its target from the old base. A hint ends with the branch or
jump (R178). R173, R70: when the operands of a predicted branch have arrived, a right prediction only closes its generation:
the control stream, the queues and (but for LOOPNZ's counter) the registers stay. A wrong one undoes it and every younger
generation: the registers are those before the branch (after LOOPNZ's decrement), the entries that those generations pushed
are gone, and the control stream stands at the branch's other side. An operand that has not arrived is waited for. R173: a
branch with an operand that a load in flight still has to bring, at a unit boundary with fewer than four generations open,
opens one and goes on along the side that it predicts; its resolution is put on the agenda. The side itself is a hint's, or a
free value of the model (log 4). -/
def Obligations.Branches : Prop :=
  (∀ (s : State) (d a b : BitVec 5) (o : BitVec 16) (o14 : BitVec 14) (o26 : BitVec 26),
    let x := cur s
    let p := unitPc x
    let v := regVal x a
    let w := regVal x b
    let go := fun (y : Ctx) (taken : Bool) (disp : Word) =>
      withCur s { y with pc := if taken then p + 4 * disp else p + 4, hint := none }
    (Goes x (needs [a, b] [] (ahead := true)) →
      exec (.beq a b o) s = .next (go (passUnit x) (decide (v = w)) (o.signExtend 64)) ∧
      exec (.bne a b o) s = .next (go (passUnit x) (decide (v ≠ w)) (o.signExtend 64)) ∧
      exec (.blt a b o) s = .next (go (passUnit x) (decide (v.toInt < w.toInt)) (o.signExtend 64)) ∧
      exec (.bge a b o) s = .next (go (passUnit x) (decide (w.toInt ≤ v.toInt)) (o.signExtend 64)) ∧
      exec (.bltu a b o) s = .next (go (passUnit x) (decide (v.toNat < w.toNat)) (o.signExtend 64)) ∧
      exec (.bgeu a b o) s = .next (go (passUnit x) (decide (w.toNat ≤ v.toNat)) (o.signExtend 64))) ∧
    (Goes x (needs [a] [a] (ahead := true)) →
      exec (.loopnz a o14) s = .next (go (setReg (passUnit x) a (v - 1)) (decide (v ≠ 1)) (o14.signExtend 64))) ∧
    (Goes x (needs [] [31]) →
      exec (.jal o26) s = .next (go (setReg (passUnit x) 31 (p + 4)) true (o26.signExtend 64))) ∧
    (Goes x (needs [a] [d]) →
      exec (.jalr d a o14) s = .next (withCur s { setReg (passUnit x) d (p + 4) with
        pc := (v + 4 * o14.signExtend 64) &&& ~~~3, hint := none }))) ∧
  (∀ (s : State) (c : Nat) (g : Gen) (f : BranchForm),
    let x := getCtx s c
    let old : Ctx := { x with regs := g.regs }
    x.gens.find? (fun h => h.id == g.id) = some g → branchForm g.instr = some f →
    ((∀ r ∈ f.reads, Holds old r) →
      ∃ y, exec (.branchResolve c g.id) s = .next (setCtx s c y) ∧
        (f.taken (regVal old) = g.taken →
          y.pc = x.pc ∧ y.queues = x.queues ∧ y.seq = x.seq ∧ (f.counts = none → y.regs = x.regs) ∧
          y.gens.map (·.id) = (x.gens.map (·.id)).filter (fun n => n != g.id)) ∧
        (f.taken (regVal old) ≠ g.taken →
          y.pc = (if f.taken (regVal old) then g.upc + f.disp else g.upc + 4) ∧
          y.regs = (match f.counts with
            | some a => (setReg old a (regVal old a - 1)).regs
            | none => g.regs) ∧
          (∀ h ∈ y.gens, h.id < g.id) ∧ (∀ e ∈ y.seq, flushed g.id e.unit.gen = false) ∧
          ∀ n < 4, ∀ e ∈ getQueue y n, flushed g.id e.gen = false)) ∧
    ((∃ r ∈ f.reads, isMarked old r = true) →
      exec (.branchResolve c g.id) s = .next (push s (.branchResolve c g.id)))) ∧
  (∀ (s : State) (a b : BitVec 5) (o : BitVec 16),
    let x := cur s
    x.pfx = none → x.gens.length < 4 → opPending x a = false → opPending x b = false →
    (loadPending x a = true ∨ loadPending x b = true) →
    ∃ (t : Bool) (u : State), exec (.beq a b o) s = .next u ∧
      cur u = { x with
        pc := if t then x.pc + 4 * o.signExtend 64 else x.pc + 4, hint := none,
        gens := x.gens ++ [{ id := s.nextId, upc := x.pc, instr := .beq a b o, taken := t, regs := x.regs, recent := x.recent }] } ∧
      u.agenda = s.agenda ++ [Event.branchResolve s.focus s.nextId] ∧
      (∀ h, x.hint = some h → h.target = x.pc → t = h.taken))

/-- R243: SYSR writes the register's value to gd, and SYSW writes each field of the register by its access code, in the mode
that may (R236), once the tile stream is quiet where the register is %xstep or %rseed; while it is not, they wait. Only %tstat
has fields that the core holds beside the context (DISC, R60). The field maps of R237 for the registers of a context: where
each field stands in the value that SYSR reads, with every reserved field reading 0. R243 with the field maps of R237: a read
after a write gives the written bits of a register's RW fields and leaves its other fields; a W1C bit clears where 1 is
written; a read-only register keeps its value; and no write of one register changes another. %xstep is writable in supervisor
mode alone (R238). R236, R133, R538, R539: in task mode with no branch unresolved, a SYSR or SYSW of a privileged register,
ERET, HALT and SNAP take PRIV whatever their operands hold: %cause, %epc, %faultpc, %faultaddr and %mode receive their values
and the control stream stands at %svbase. In either mode a SYSR or SYSW that names no register raises ILLEGAL. -/
def Obligations.SystemRegisters : Prop :=
  (∀ (s : State) (d a : BitVec 5) (p : BitVec 12), namesSys p = true →
    let x := cur s
    let c := s.focus
    let busy := (p = 3 ∨ p = 5) ∧ x.seq ≠ [] ∧ x.tileTrap = none ∧ (x.heldStream = false ∨ runningOut x = true)
    (Goes x (needs [] [d] (priv := privSys p)) →
      (¬ busy → exec (.sysr d p) s = .next (withCur s (setReg (passUnit x) d (sysRead s c p)))) ∧
      (busy → exec (.sysr d p) s = .next s)) ∧
    (Goes x (needs [a] [] (priv := privSys p)) →
      (¬ busy → ∃ t : State, exec (.sysw a p) s = .next t ∧
        getCtx t c = { passUnit x with sys := sysWrite x.sys p (regVal x a) } ∧
        (getCore t c).disc = (if p = 4 then (getCore s c).disc &&& ~~~((regVal x a).setWidth 8) else (getCore s c).disc) ∧
        (∀ c' ≠ c, getCore t c' = getCore s c') ∧ SameMem s t) ∧
      (busy → exec (.sysw a p) s = .next s))) ∧
  (∀ (s : State) (c : Nat),
    let y := (getCtx s c).sys
    let rd := fun p => (sysRead s c p).toNat
    rd 0x000 = y.tid.toNat ∧
    rd 0x003 = y.xstep.toNat ∧
    rd 0x004 = (getCore s c).disc.toNat + 2 ^ 10 * y.rcls.toNat + 2 ^ 12 * y.prio.toNat + 2 ^ 15 * y.dual.toNat +
      2 ^ 16 * y.urg.toNat + 2 ^ 17 * y.restored.toNat + 2 ^ 18 * y.migr.toNat + 2 ^ 19 * y.restart.toNat +
      2 ^ 20 * y.evt.toNat ∧
    rd 0x005 = y.rseed.toNat ∧
    rd 0x010 = y.sup.toNat + 2 * y.psup.toNat ∧
    rd 0x020 = y.code.toNat + 2 ^ 16 * y.tile.toNat + 2 ^ 20 * y.param.toNat ∧
    rd 0x021 = y.epc.toNat ∧ rd 0x022 = y.faultpc.toNat ∧ rd 0x023 = y.faultaddr.toNat ∧ rd 0x024 = y.svbase.toNat ∧
    rd 0x040 = y.cx.src.toNat ∧ rd 0x041 = y.cx.dst.toNat ∧ rd 0x042 = y.cx.rows.toNat ∧ rd 0x043 = y.cx.rbytes.toNat ∧
    rd 0x044 = y.cx.rstride.toNat ∧ rd 0x045 = y.cx.wstride.toNat ∧
    rd 0x046 = y.cx.qos.toNat + 4 * y.cx.bypass.toNat) ∧
  (∀ (y : SysRegs) (p : BitVec 12) (v : Word),
    let z := sysWrite y p v
    ((p = 0x000 ∨ p = 0x001 ∨ p = 0x002 ∨ p = 0x006 ∨ p = 0x007) → z = y) ∧
    (p = 0x003 → z = { y with xstep := if y.sup then v.setWidth 9 else y.xstep }) ∧
    (p = 0x004 → z = { y with migr := y.migr && !v.getLsbD 18, restored := y.restored && !v.getLsbD 17 }) ∧
    (p = 0x005 → z = { y with rseed := v.setWidth 32 }) ∧
    (p = 0x010 → z = { y with psup := v.getLsbD 1 }) ∧
    (p = 0x020 → z = { y with
      code := v.setWidth 16, tile := v.getLsbD 16, param := v.extractLsb' 20 12 }) ∧
    (p = 0x021 → z = { y with epc := v }) ∧ (p = 0x022 → z = { y with faultpc := v }) ∧
    (p = 0x023 → z = { y with faultaddr := v }) ∧
    (p = 0x024 → z.svbase.toNat = v.toNat - v.toNat % 64 ∧ { z with svbase := y.svbase } = y) ∧
    (p = 0x040 → z = { y with cx := { y.cx with src := v } }) ∧ (p = 0x041 → z = { y with cx := { y.cx with dst := v } }) ∧
    (p = 0x042 → z = { y with cx := { y.cx with rows := v.setWidth 17 } }) ∧
    (p = 0x043 → z = { y with cx := { y.cx with rbytes := v.setWidth 24 } }) ∧
    (p = 0x044 → z = { y with cx := { y.cx with rstride := v } }) ∧
    (p = 0x045 → z = { y with cx := { y.cx with wstride := v } }) ∧
    (p = 0x046 → z = { y with cx := { y.cx with bypass := v.getLsbD 2, qos := v.setWidth 2 } })) ∧
  (∀ (s : State) (d a : BitVec 5) (p q : BitVec 12),
    let x := cur s
    let trapped := fun code =>
      takeTrap s s.focus { code := code, param := 0, tile := false, epc := unitPc x, faultpc := unitPc x, faultaddr := 0 }
    (x.pfx = none → x.gens = [] → x.sys.sup = false →
      (privSys p = true → namesSys p = true → exec (.sysr d p) s = .next (trapped 3) ∧ exec (.sysw a p) s = .next (trapped 3)) ∧
      exec .eret s = .next (trapped 3) ∧ exec .halt s = .next (trapped 3) ∧ exec (.snap q) s = .next (trapped 3)) ∧
    (x.gens = [] → namesSys p = false → exec (.sysr d p) s = .next (trapped 1) ∧ exec (.sysw a p) s = .next (trapped 1)))

/-- R538, R539, R235: taking a trap in task mode writes %cause, %epc, %faultpc, %faultaddr and %mode, sends the control stream
to %svbase and holds the tile stream, with %xstep at the completed rows of a tile instruction that it stops inside its rows
(R191); registers, queues, bindings, %rseed and every memory stay. In supervisor mode no routine is entered: the core stops.
(Outside a gang; a gang disbands, R78.) R189, R538, R540: TRAP_ENTRY takes the pending trap of the tile stream at a unit
boundary with no branch unresolved: %cause has TILE set, %epc is the unit at which the control stream stands, %faultpc the
tile instruction's. (In task mode, outside a gang, for a trap other than MMA_MISMATCH.) Where none is pending nothing happens.
R244, R245: TRAP enters its routine with %epc at the next unit, and ERET in supervisor mode restores the mode from PSUP and
resumes at %epc exactly as written; outside a gang. -/
def Obligations.Traps : Prop :=
  (∀ (s : State) (c : Nat) (t : TrapInfo), inGang (getCore s c) = false →
    let x := getCtx s c
    let u := takeTrap s c t
    let y := getCtx u c
    (x.sys.sup = false →
      y.pc = x.sys.svbase ∧ y.heldStream = true ∧
      y.sys = { x.sys with
        xstep := stopStep x,
        code := BitVec.ofNat 16 t.code, param := BitVec.ofNat 12 t.param, tile := t.tile, epc := t.epc,
        faultpc := t.faultpc, faultaddr := t.faultaddr, psup := false, sup := true } ∧
      y.regs = x.regs ∧ y.queues = x.queues ∧ y.tiles = x.tiles ∧ y.seq = x.seq ∧ y.acc = x.acc ∧
      (getCore u c).spad = (getCore s c).spad ∧ (getCore u c).state = (getCore s c).state) ∧
    (x.sys.sup = true →
      (getCore u c).state = .stopped ∧ (getCore u c).stop = .trap ∧ y.sys = x.sys ∧ y.regs = x.regs) ∧
    SameMem s u ∧ ∀ c' ≠ c, getCore u c' = getCore s c') ∧
  (∀ (s : State) (c : Nat) (t : TileTrap), inGang (getCore s c) = false →
    let x := getCtx s c
    (x.tileTrap = some t → (getCore s c).state = .running → x.pfx = none → x.gens = [] → x.sys.sup = false → t.code ≠ 14 →
      ∃ u : State, exec (.trapEntry c) s = .next u ∧ (getCtx u c).pc = x.sys.svbase ∧ (getCtx u c).tileTrap = none ∧
        (getCtx u c).heldStream = true ∧ (getCtx u c).seq = x.seq ∧ (getCtx u c).run = x.run ∧ (getCtx u c).regs = x.regs ∧
        (getCtx u c).sys = { x.sys with
          code := BitVec.ofNat 16 t.code, param := BitVec.ofNat 12 t.param, tile := true, epc := x.pc, faultpc := t.upc,
          faultaddr := t.addr, psup := false, sup := true }) ∧
    (x.tileTrap = none → exec (.trapEntry c) s = .next s)) ∧
  (∀ (s : State) (p : BitVec 12), inGang (getCore s s.focus) = false →
    let x := cur s
    (Goes x (needs [] []) → x.sys.sup = false →
      ∃ t : State, exec (.trap p) s = .next t ∧ (cur t).pc = x.sys.svbase ∧ (cur t).regs = x.regs ∧
        (cur t).sys = { x.sys with
          xstep := stopStep x,
          code := 15, param := p, tile := false, epc := x.pc + 4, faultpc := unitPc x, faultaddr := 0, psup := false,
          sup := true }) ∧
    (Goes x (needs [] [] (priv := true)) → x.seq = [] →
      exec .eret s = .next (withCur s { passUnit x with
        pc := x.sys.epc, heldStream := false, sys := { x.sys with sup := x.sys.psup, psup := false } })))

/-- R246-R248: WFE completes at once where a selected event is latched, clearing the selected bits, and otherwise waits at its
boundary, from where WFE_WAKE completes it once one latches; IFLUSH empties the instruction cache when nothing of the task is
still to be written; HALT stops the core in supervisor mode. R268-R270: FENCE marks gd and waits as a fence of its activation,
and FENCE_COMPLETE, once its waits have ended, writes the status of R269 and forgets the failures that it reports; DRAIN
passes at once where no operation that it selects is in flight, else it waits at its boundary and DRAIN_COMPLETE passes it. -/
def Obligations.WaitsAndFences : Prop :=
  (∀ (s : State) (m : BitVec 4) (c : Nat),
    let x := cur s
    (Goes x (needs [] []) →
      (x.sys.evt &&& m ≠ 0 →
        exec (.wfe m) s = .next (withCur s { passUnit x with sys := { x.sys with evt := x.sys.evt &&& ~~~m } })) ∧
      (x.sys.evt &&& m = 0 → x.pfx = none →
        exec (.wfe m) s = .next (push (withCur s { x with wait := .wfe m }) (.wfeWake s.focus))) ∧
      (writesOpen s s.focus = false →
        exec .iflush s = .next (modCore (withCur s (passUnit x)) s.focus (fun k => { k with icache := [] }))) ∧
      (writesOpen s s.focus = true → exec .iflush s = .next s)) ∧
    (Goes x (needs [] [] (priv := true)) →
      exec .halt s = .next (modCore (withCur s (passUnit x)) s.focus (fun k => { k with state := .stopped, stop := .halt }))) ∧
    (let y := getCtx s c
     y.wait = .wfe m → y.sys.evt &&& m ≠ 0 →
      exec (.wfeWake c) s =
        .next (setCtx s c { y with pc := y.pc + 4, wait := .none, sys := { y.sys with evt := y.sys.evt &&& ~~~m } }))) ∧
  (∀ (s : State) (d : BitVec 5) (sc : BitVec 3) (o : BitVec 2) (m : BitVec 3) (c : Nat) (f : Fence),
    let x := cur s
    (Goes x (needs [] [d]) →
      ∃ t : State, exec (.fence d sc o) s = .next t ∧ t.agenda = s.agenda ++ [Event.fenceComplete s.focus] ∧ t.nextId = s.nextId + 1 ∧
        cur t = { markReg (passUnit x) d (.op s.nextId) with fences := x.fences ++ [{
          id := s.nextId, reg := d, scope := sc.toNat, acq := o.getLsbD 0, rel := o.getLsbD 1,
          held := x.heldStream }] }) ∧
    (let k := getCore s c
     let tal := tallyOf k.live (genOf k.ctx)
     k.susp = none → k.ctx.fences = [f] → fenceReady s c k.ctx f = true → f.reg ≠ 0 → (getReg k.ctx f.reg).mark = .op f.id →
      ∃ t : State, exec (.fenceComplete c) s = .next t ∧ (getCtx t c).fences = [] ∧
        (getReg (getCtx t c) f.reg) = {
          val := BitVec.ofNat 64 (1 + tal.lost.toNat * 2 + tal.refused.toNat * 4 + min tal.fails 0xFFFF * 2 ^ 16),
          poison := none, mark := .clear } ∧
        tallyOf (getCore t c).live (genOf k.ctx) = noFails ∧ t.agenda = s.agenda) ∧
    (Goes x (needs [] []) →
      (drained s s.focus m = true → exec (.drain m) s = .next (withCur s (passUnit x))) ∧
      (drained s s.focus m = false → x.pfx = none →
        exec (.drain m) s = .next (push (withCur s { x with wait := .drain m }) (.drainComplete s.focus)))) ∧
    (let y := getCtx s c
     y.wait = .drain m →
      (drained s c m = true → exec (.drainComplete c) s = .next (setCtx s c { y with pc := y.pc + 4, wait := .none })) ∧
      (drained s c m = false → exec (.drainComplete c) s = .next (push s (.drainComplete c)))))

/-- R249: LEAVE with 0 returns what is held; a second reservation and one beyond the capacity of the share (or beyond 0xFFFF)
are turned away with their status and nothing changes; any other joins the share's queue, and LEAVE_GRANT, when the share has
the units, takes them, sets HELD and writes the granted status. R249, R535: LEAVE_GRANT for the first request of a share, a
LEAVE of the activation that runs on its core, when the share has the units free: they are taken, HELD says so, and gd
receives granted with the units in bits 31:16. While the share has not the units, the request waits. -/
def Obligations.LeaveUnits : Prop :=
  (∀ (s : State) (d a : BitVec 5), Goes (cur s) (needs [a] [d]) →
    let x := cur s
    let c := s.focus
    let n := (regVal x a).toNat
    let held := x.sys.held.toNat
    let part := (partOf s c).getD 0
    let die := dieOf s c
    (n = 0 → ∃ t : State, exec (.leave d a) s = .next t ∧ (cur t).sys.held = 0 ∧ (cur t).pc = x.pc + 4 ∧
      regVal (cur t) d = (if d = 0 then 0 else 1) ∧ shareUsed t part die = shareUsed s part die - held) ∧
    (n ≠ 0 → held ≠ 0 →
      exec (.leave d a) s = .next (withCur s (setStatus (passUnit x) d (BitVec.ofNat 64 (4 + held * 2 ^ 16))))) ∧
    (n ≠ 0 → held = 0 → (shareCap s part die < n ∨ 0xFFFF < n) →
      exec (.leave d a) s = .next (withCur s (setStatus (passUnit x) d 2))) ∧
    (n ≠ 0 → held = 0 → n ≤ shareCap s part die → n ≤ 0xFFFF →
      ∃ t : State, exec (.leave d a) s = .next t ∧ cur t = markReg (passUnit x) d (.op s.nextId) ∧
        (getPool t die).waiting = (getPool s die).waiting ++ [{ part := part, units := n, who := .op s.nextId }] ∧
        shareUsed t part die = shareUsed s part die ∧ t.agenda = s.agenda ++ [Event.leaveGrant die part])) ∧
  (∀ (s : State) (die part n : Nat) (r : LeaveReq) (o : Op), headWait s part die = some r → r.who = .op o.id → r.units = n →
    findOp s o.id = some o → 0 < n → n ≤ 0xFFFF → runsSerial (getCtx s o.core) o.serial = true → heldOf s o = 0 →
    (getReg (getCtx s o.core) o.reg).mark = .op o.id → o.reg ≠ 0 → n ≤ shareCap s part die →
    (n ≤ shareFree s part die →
      ∃ t : State, exec (.leaveGrant die part) s = .next t ∧ (getCtx t o.core).sys.held = BitVec.ofNat 16 n ∧
        getReg (getCtx t o.core) o.reg = { val := BitVec.ofNat 64 (1 + n * 2 ^ 16), poison := none, mark := .clear } ∧
        shareUsed t part die = shareUsed s part die + n ∧ findOp t o.id = none) ∧
    (shareFree s part die < n → exec (.leaveGrant die part) s = .next s))

/-- R265, R266 on the core's own scratchpad: an aligned LD writes the little-endian bytes, extended as its mode says (behind a
branch with an entry of the staging buffer, R174), and a ST writes the low bytes of its register at once and leaves every
other byte. An access waits where an earlier tile unit, engine operation or reload still has those bytes (R61, R63, R296) or a
fence holds it (R268). R542: in supervisor mode the offsets 0xFF000 to 0xFFFFF of space 0 reach the 4 KiB supervisor area; in
task mode they are refused: an LD poisons its destination with the kind of a refusal, its own address and the address refused
(R155, R251). R265-R267, R541: a misaligned LD, ST or atomic with no branch unresolved raises MISALIGN with the unaligned
address, whatever space it names; the unit has no other effect. -/
def Obligations.LocalAccesses : Prop :=
  (∀ (s : State) (d a b : BitVec 5) (m : BitVec 3) (o : BitVec 8) (off : Nat),
    let x := cur s
    let c := s.focus
    let addr := regVal x a + memOffset (unitXimm x) m o
    let n := 2 ^ (m.toNat / 2)
    let bytes := leNat (memRead (getCore s c).spad off n)
    addr.toNat % n = 0 → placeOf c addr = .spad off → off < spadSize →
    let value := if m.toNat % 2 = 0 ∧ 2 ^ (8 * n - 1) ≤ bytes then BitVec.ofInt 64 (bytes - 2 ^ (8 * n)) else BitVec.ofNat 64 bytes
    (Goes x (needs [a] [d] (ahead := true) (imm := true)) → holdsLoads x = false →
      localBusy (withCur s (passUnit x)) c off n false = false →
      (youngestGen x = none → exec (.ld d a m o) s = .next (withCur s (setReg (passUnit x) d value))) ∧
      (∀ g, youngestGen x = some g → x.staging.length < 16 →
        ∃ t : State, exec (.ld d a m o) s = .next t ∧ t.nextId = s.nextId + 1 ∧
          cur t = setReg { passUnit x with
            staging := x.staging ++ [{ load := s.nextId, gen := g, value := some value }] } d value)) ∧
    (Goes x (needs [a, b] [] (imm := true)) → holdsStores x = false →
      localBusy (withCur s (passUnit x)) c off n true = false →
      ∃ t : State, exec (.st a b m o) s = .next t ∧ cur t = passUnit x ∧
        (∀ i < n, memGet (getCore t c).spad (off + i) = (regVal x b).extractLsb' (8 * i) 8) ∧
        (∀ p, p < off ∨ off + n ≤ p → memGet (getCore t c).spad p = memGet (getCore s c).spad p) ∧
        (getCore t c).supArea = (getCore s c).supArea ∧ SameMem s t ∧ t.accs = s.accs ∧
        ∀ c' ≠ c, getCore t c' = getCore s c')) ∧
  (∀ (s : State) (d a b : BitVec 5) (m : BitVec 3) (o : BitVec 8),
    let x := cur s
    let c := s.focus
    let addr := regVal x a + memOffset (unitXimm x) m o
    let n := 2 ^ (m.toNat / 2)
    let at' := addr.toNat - 0xFF000
    addr.toNat % n = 0 → 0xFF000 ≤ addr.toNat → addr.toNat < 0x100000 → x.gens = [] →
    (Goes x (needs [a] [d] (ahead := true) (imm := true)) → holdsLoads x = false →
      (x.sys.sup = true → exec (.ld d a m o) s =
        .next (withCur s (setReg (passUnit x) d (extendBytes (memRead (getCore s c).supArea at' n) (modeSigned m))))) ∧
      (x.sys.sup = false → exec (.ld d a m o) s =
        .next (withCur s (poisonReg (passUnit x) d { ldPc := unitPc x, addr := addr, kind := 1 })))) ∧
    (Goes x (needs [a, b] [] (imm := true)) → holdsStores x = false → x.sys.sup = true →
      ∃ t : State, exec (.st a b m o) s = .next t ∧ cur t = passUnit x ∧ (getCore t c).spad = (getCore s c).spad ∧
        (∀ i < n, memGet (getCore t c).supArea (at' + i) = (regVal x b).extractLsb' (8 * i) 8) ∧
        ∀ p, p < at' ∨ at' + n ≤ p → memGet (getCore t c).supArea p = memGet (getCore s c).supArea p)) ∧
  (∀ (s : State) (d a b : BitVec 5) (m sc : BitVec 3) (o : BitVec 8) (z : BitVec 1) (r : BitVec 2),
    let x := cur s
    let addr := regVal x a + memOffset (unitXimm x) m o
    let trapped := fun w : Word => takeTrap (withCur s (passUnit x)) s.focus
      { code := 5, param := 0, tile := false, epc := unitPc x, faultpc := unitPc x, faultaddr := w }
    x.gens = [] →
    (addr.toNat % 2 ^ (m.toNat / 2) ≠ 0 →
      (Goes x (needs [a] [d] (ahead := true) (imm := true)) → exec (.ld d a m o) s = .next (trapped addr)) ∧
      (Goes x (needs [a, b] [] (imm := true)) → exec (.st a b m o) s = .next (trapped addr))) ∧
    (let w := regVal x a
     w.toNat % (if z = 1 then 8 else 4) ≠ 0 →
      (Goes x (needs [a, b] [d]) →
        exec (.amoadd d a b sc z r) s = .next (trapped w) ∧ exec (.amomin d a b sc z r) s = .next (trapped w) ∧
        exec (.amomax d a b sc z r) s = .next (trapped w) ∧ exec (.amoand d a b sc z r) s = .next (trapped w) ∧
        exec (.amoor d a b sc z r) s = .next (trapped w) ∧ exec (.amoxor d a b sc z r) s = .next (trapped w) ∧
        exec (.amoswap d a b sc z r) s = .next (trapped w)) ∧
      (Goes x (needs [a, b, d] [d]) → exec (.cas d a b sc z r) s = .next (trapped w))))

/-- R267 on the core's own scratchpad: the old bytes go to gd sign-extended, the new ones are as the operation says, in one
step, and no other byte changes. -/
def Obligations.LocalAtomics : Prop :=
  ∀ (s : State) (d a b : BitVec 5) (sc : BitVec 3) (z : BitVec 1) (r : BitVec 2) (off : Nat),
    let x := cur s
    let c := s.focus
    let n : Nat := if z = 1 then 8 else 4
    let w := 8 * n
    let old : Nat := leNat (memRead (getCore s c).spad off n)
    let arg : Nat := (regVal x b).toNat % 2 ^ w
    let sold : Int := if old < 2 ^ (w - 1) then (old : Int) else (old : Int) - 2 ^ w
    let sarg : Int := if arg < 2 ^ (w - 1) then (arg : Int) else (arg : Int) - 2 ^ w
    let is (i : Instr) (new : Nat) : Prop :=
      ∃ t : State, exec i s = .next t ∧ cur t = setReg (passUnit x) d (BitVec.ofInt 64 sold) ∧
        leNat (memRead (getCore t c).spad off n) = new ∧
        (∀ p, p < off ∨ off + n ≤ p → memGet (getCore t c).spad p = memGet (getCore s c).spad p) ∧
        SameMem s t ∧ t.accs = s.accs ∧ ∀ c' ≠ c, getCore t c' = getCore s c'
    (regVal x a).toNat % n = 0 → placeOf c (regVal x a) = .spad off → off < spadSize → holdsStores x = false →
    localBusy (withCur s (passUnit x)) c off n true = false →
    (r.getLsbD 1 = false ∨ releaseReady (withCur s (passUnit x)) c (genOf x) (passUnit x) sc.toNat s.nextId = true) →
    (Goes x (needs [a, b] [d]) →
      is (.amoadd d a b sc z r) ((old + arg) % 2 ^ w) ∧
      is (.amomin d a b sc z r) (if sarg < sold then arg else old) ∧
      is (.amomax d a b sc z r) (if sold < sarg then arg else old) ∧
      is (.amoand d a b sc z r) (old &&& arg) ∧
      is (.amoor d a b sc z r) (old ||| arg) ∧
      is (.amoxor d a b sc z r) (old ^^^ arg) ∧
      is (.amoswap d a b sc z r) arg) ∧
    (Goes x (needs [a, b, d] [d]) →
      is (.cas d a b sc z r) (if old = (regVal x d).toNat % 2 ^ w then arg else old))

/-- R266, R265, R258: an LD, ST or AMOADD to a virtual address with no redirect for its line, once the accesses that it has to
wait for allow, sends one access that carries its operands to its translation station; gd of LD and of an atomic is marked
pending, an ST goes on. An atomic that acquires holds later accesses back (R322). R265, R155, R330: an answer reaches the
activation that runs on its core, outside a branch: a load's register receives the value that its mode extends, an atomic's
the old value, and a failed access poisons the register with the load's address, the first faulting byte and the fault kind,
its value kept. The access is gone, and no other core changes. -/
def Obligations.AccessesAndAnswers : Prop :=
  (∀ (s : State) (d a b : BitVec 5) (m sc : BitVec 3) (o : BitVec 8) (z : BitVec 1) (r : BitVec 2) (va : Nat),
    let x := cur s
    let c := s.focus
    let free := fun (w : Word) (n : Nat) (wr : Bool) =>
      w.toNat % n = 0 ∧ placeOf c w = .virt va ∧ accFull s c = false ∧ tileMemBusy (withCur s (passUnit x)) c w.toNat n wr = false
    let sent := fun (t : State) (k : AccKind) (w : Word) (n : Nat) (data : List Byte) =>
      t.accs = s.accs ++ [{
        id := s.nextId, core := c, serial := serialOf x, gen := genOf x, kind := k, addr := w, size := n, data := data,
        egen := 0, stage := .sent, sender := none }] ∧
      t.agenda = s.agenda ++ [Event.stationTranslate s.nextId] ∧ t.nextId = s.nextId + 1 ∧ SameMem s t ∧
      (getCore t c).spad = (getCore s c).spad
    let addr := regVal x a + memOffset (unitXimm x) m o
    let n := 2 ^ (m.toNat / 2)
    let w := regVal x a
    let n' := if z = 1 then 8 else 4
    x.gens = [] → x.sys.dual = false →
    (Goes x (needs [a] [d] (ahead := true) (imm := true)) → free addr n false → findRedirect s c va = none →
      holdsLoads x = false →
      ∃ t : State, exec (.ld d a m o) s = .next t ∧ cur t = markReg (passUnit x) d (.load s.nextId) ∧
        sent t (.load d (decide (m.toNat % 2 = 0)) (if x.sys.sup then x.sys.faultpc else unitPc x)) addr n []) ∧
    (Goes x (needs [a, b] [] (imm := true)) → free addr n true → holdsStores x = false →
      ∃ t : State, exec (.st a b m o) s = .next t ∧ cur t = setCommit (passUnit x) ∧
        sent t .store addr n (leBytes n ((regVal x b).toNat % 2 ^ (8 * n)))) ∧
    (Goes x (needs [a, b] [d]) → free w n' true → holdsStores x = false →
      ∃ t : State, exec (.amoadd d a b sc z r) s = .next t ∧
        cur t = setCommit (if r.getLsbD 0
          then { markReg (passUnit x) d (.op s.nextId) with acqs := x.acqs ++ [s.nextId] }
          else markReg (passUnit x) d (.op s.nextId)) ∧
        sent t (.atom 0 d (regVal x b) (regVal x d) (r.getLsbD 0) (r.getLsbD 1) sc.toNat
          (if x.sys.sup then x.sys.faultpc else unitPc x)) w n' [])) ∧
  (∀ (s : State) (a : Access), findAcc s a.id = some a → runsSerial (getCtx s a.core) a.serial = true →
    let x := getCtx s a.core
    let becomes := fun (reg : BitVec 5) (g : Reg) =>
      ∃ t : State, exec (.loadResponse a.id) s = .next t ∧ getReg (getCtx t a.core) reg = g ∧
        (∀ q ≠ reg, getReg (getCtx t a.core) q = getReg x q) ∧ findAcc t a.id = none ∧ SameMem s t ∧
        (getCore t a.core).spad = (getCore s a.core).spad ∧ ∀ c ≠ a.core, getCore t c = getCore s c
    (∀ reg sx upc, a.kind = .load reg sx upc → reg ≠ 0 → (getReg x reg).mark = .load a.id →
      (∀ bs, a.stage = .replied bs → becomes reg { val := extendBytes bs sx, poison := none, mark := .clear }) ∧
      (∀ k w, a.stage = .failed k w →
        becomes reg { val := regVal x reg, poison := some { ldPc := upc, addr := w, kind := k }, mark := .clear })) ∧
    (∀ op reg y v acq rel sc upc, a.kind = .atom op reg y v acq rel sc upc → reg ≠ 0 → (getReg x reg).mark = .op a.id →
      (∀ bs, a.stage = .replied bs → becomes reg { val := extendBytes bs true, poison := none, mark := .clear }) ∧
      (∀ k w, a.stage = .failed k w →
        becomes reg { val := regVal x reg, poison := some { ldPc := upc, addr := w, kind := k }, mark := .clear })))

/-- R513, R407, R408, R252: what STATION_TRANSLATE does with an access that is first at its port: a page takes it to its home
slice; a page fault parks a store in the port's fault queue and answers a load at once with kind 0; a refusal answers a load
with kind 1 and counts a store as failed. R409, R410: the Foreman's answer to a parked store: resolved, the accesses of its
core parked at the port leave the queue and are translated again, the oldest first; declined, or unanswered, the store has
failed and those behind it are translated again. A request returned by a full queue is sent again. -/
def Obligations.Translation : Prop :=
  (∀ (s : State) (a : Access), findAcc s a.id = some a → a.stage = .sent → spaceOf a.addr = 4 → waitsAtPort s a = false →
    parkedBefore s a = false →
    let port := portOf s a
    let at' := fun (t : State) (st : AccStage) => ∃ e : Access, findAcc t a.id = some e ∧ e.stage = st ∧ e.data = a.data ∧ e.kind = a.kind
    (∀ pa, accWalk s a = .page pa →
      ∃ t : State, exec (.stationTranslate a.id) s = .next t ∧ at' t (.home pa) ∧ t.cores = s.cores ∧ SameMem s t ∧
        t.agenda = s.agenda ++ [match a.kind with
          | .load _ _ _ => .sliceRead a.id
          | .store => .storePerform a.id
          | _ => .atomicPerform a.id]) ∧
    (accWalk s a = .fault → a.kind = .store → (s.fq.filter (fun e => e.port == port)).length < 64 →
      ∃ t : State, exec (.stationTranslate a.id) s = .next t ∧ at' t (.parked port) ∧ t.agenda = s.agenda ∧
        t.fq = s.fq ++ [{ port := port, what := .access a.id, own := true }]) ∧
    (accWalk s a = .fault → a.kind = .store → 64 ≤ (s.fq.filter (fun e => e.port == port)).length →
      ∃ t : State, exec (.stationTranslate a.id) s = .next t ∧ at' t (.held port) ∧ t.fq = s.fq ∧
        t.agenda = s.agenda ++ [Event.faultQueueRetry a.id]) ∧
    (∀ d sx upc, a.kind = .load d sx upc →
      (accWalk s a = .fault → ∃ t : State, exec (.stationTranslate a.id) s = .next t ∧ at' t (.failed 0 a.addr) ∧ t.fq = s.fq ∧
        t.agenda = s.agenda ++ [Event.loadResponse a.id]) ∧
      (accWalk s a = .refused → ∃ t : State, exec (.stationTranslate a.id) s = .next t ∧ at' t (.failed 1 a.addr) ∧
        t.agenda = s.agenda ++ [Event.loadResponse a.id])) ∧
    (accWalk s a = .refused → a.kind = .store →
      ∃ t : State, exec (.stationTranslate a.id) s = .next t ∧ findAcc t a.id = none ∧ SameMem s t) ∧
    (accWalk s a = .hold → exec (.stationTranslate a.id) s = .next (push s (.stationTranslate a.id)))) ∧
  (∀ (s : State) (port n : Nat) (e : FaultEntry) (a : Access),
    (ownEntry s port n = some e → e.what = .access a.id → findAcc s a.id = some a → a.kind = .store →
      (∃ t : State, exec (.faultResolve port n) s = .next t ∧
        t.agenda = s.agenda ++ (parkedOf s port a.core).map .stationTranslate ∧
        (∀ f ∈ t.fq, ¬ (f.port = port ∧ parkedCore s f.what = some a.core)) ∧ t.cores = s.cores ∧ t.lines = s.lines) ∧
      ∃ t : State, exec (.faultDecline port n) s = .next t ∧ exec (.faultResolveTimeout port n) s = .next t ∧
        findAcc t a.id = none ∧ e ∉ t.fq ∧ SameMem s t ∧
        (∀ id ∈ parkedOf s port a.core, id ≠ a.id → .stationTranslate id ∈ t.agenda) ∧
        ((∃ l ∈ (getCore s a.core).live, l.gen = a.gen) →
          (tallyOf (getCore t a.core).live a.gen).fails = (tallyOf (getCore s a.core).live a.gen).fails + 1)) ∧
    (findAcc s a.id = some a → a.stage = .held port →
      exec (.faultQueueRetry a.id) s = .next (push (stageAcc s a.id .sent) (.stationTranslate a.id))))

/-- R260, R266, R267, R263: at its home slice, once no earlier access of its core meets it and no copy of the line is left, a
store writes its bytes and no other byte of memory, an atomic writes what its operation gives and answers with the old bytes,
and a load of bytes that the slice holds is answered with them. R260: filling a sector from HBM makes the slice hold it and
changes no byte that anyone reads: a byte written since keeps its value. No line of another slice changes, and none of this
one but the line where the slice has room. R262, R263: a helper with a valid replica of the sector serves a read, one without
sends it to the home; an acknowledgement of an invalidation removes the holder's copies and is no longer awaited; a holder may
drop its copies; a counting window ends with its slice's counts gone. Memory does not change. -/
def Obligations.ModuleMemory : Prop :=
  (∀ (s : State) (a : Access) (pa : Nat), findAcc s a.id = some a → a.stage = .home pa → accBlocked s a = false →
    let answered := fun (t : State) (bs : List Byte) =>
      (∃ e : Access, findAcc t a.id = some e ∧ e.stage = .replied bs) ∧ t.agenda = s.agenda ++ [Event.loadResponse a.id]
    let others := fun (t : State) (n : Nat) => ∀ p, p < pa ∨ pa + n ≤ p → physByte t p = physByte s p
    (a.kind = .store → invalidateCopies s (lineOf pa) = none →
      ∃ t : State, exec (.storePerform a.id) s = .next t ∧ physRead t pa a.data.length = a.data ∧ others t a.data.length ∧
        findAcc t a.id = none ∧ t.cores = s.cores ∧ t.agenda = s.agenda) ∧
    (∀ op d y v acq rel sc upc, a.kind = .atom op d y v acq rel sc upc → (rel = true → accReleased s a sc = true) →
      sectorBad s pa a.size = false → invalidateCopies s (lineOf pa) = none →
      ∃ t : State, exec (.atomicPerform a.id) s = .next t ∧ answered t (physRead s pa a.size) ∧
        physRead t pa a.size = atomBytes op (physRead s pa a.size) y v ∧ others t a.size ∧ t.cores = s.cores) ∧
    (∀ d sx upc, a.kind = .load d sx upc → sectorBad s pa a.size = false →
      (∀ i < a.size, lineHas (getLine s (lineOf pa)) (pa + i) = true) →
      ∃ t : State, exec (.sliceRead a.id) s = .next t ∧ answered t (physRead s pa a.size) ∧ (∀ p, physByte t p = physByte s p) ∧
        t.cores = s.cores)) ∧
  (∀ (s : State) (line sector : Nat), sector < 4 →
    ∃ t : State, exec (.sectorFill line sector) s = .next t ∧ (getLine t line).filled.getLsbD sector = true ∧
      SameMem s t ∧ (∀ l, l % 192 ≠ line % 192 → getLine t l = getLine s l) ∧
      (sliceUsed s (line % 192) < sliceDepth → ∀ l ≠ line, getLine t l = getLine s l) ∧ t.cores = s.cores) ∧
  (∀ (s : State) (line holder slice : Nat),
    (∀ (a : Access) (h pa : Nat), findAcc s a.id = some a → a.stage = .helper h pa → accBlocked s a = false → writeAhead s a = false →
      (∀ r, s.replicas.find? (fun r => r.line == lineOf pa && r.helper == h && r.filled.getLsbD (pa % 256 / 64)) = some r →
        exec (.helperRead a.id) s =
          .next (push (stageAcc s a.id (.replied (memRead r.data (pa % 256) a.size))) (.loadResponse a.id))) ∧
      (s.replicas.find? (fun r => r.line == lineOf pa && r.helper == h && r.filled.getLsbD (pa % 256 / 64)) = none →
        exec (.helperRead a.id) s = .next (push (stageAcc s a.id (.home pa)) (.sliceRead a.id)))) ∧
    (holder ∈ (getLine s line).invalidating →
      ∃ t : State, exec (.replicaInvalidateAck line holder) s = .next t ∧ holder ∉ (getLine t line).invalidating ∧
        (∀ r ∈ t.replicas, ¬ (r.line = line ∧ r.helper = holder)) ∧
        (∀ r ∈ t.redirects, ¬ (r.line = line ∧ 192 + r.ni = holder)) ∧ ∀ p, physByte t p = physByte s p) ∧
    (∃ t : State, exec (.replicaDrop line holder) s = .next t ∧ (∀ r ∈ t.replicas, ¬ (r.line = line ∧ r.helper = holder)) ∧
      (∀ r ∈ t.redirects, ¬ (r.line = line ∧ 192 + r.ni = holder)) ∧ SameMem s t) ∧
    (∃ t : State, exec (.hotWindowEnd slice) s = .next t ∧ (∀ h ∈ t.hot, h.line % 192 ≠ slice) ∧
      (∀ h ∈ s.hot, h.line % 192 ≠ slice → h ∈ t.hot) ∧ t.lines = s.lines ∧ t.replicas = s.replicas))

/-- R254-R257: a peer access that reaches the core it was sent to is performed on that core's scratchpad in one step: a store
writes its bytes and no other, a load is answered with them, an atomic does both; where the target cannot be reached a load is
answered with an error of its kind. -/
def Obligations.PeerAccess : Prop :=
  ∀ (s : State) (a : Access) (c off : Nat), findAcc s a.id = some a → a.stage = .sent → placeOf a.core a.addr = .peer c off →
    accBlocked s a = false → coreOut s c = false → reloading s c off a.size = false →
    let answered := fun (t : State) (st : AccStage) =>
      (∃ e : Access, findAcc t a.id = some e ∧ e.stage = st) ∧ t.agenda = s.agenda ++ [Event.loadResponse a.id]
    let spad := fun (t : State) => (getCore t c).spad
    let others := fun (t : State) (n : Nat) =>
      (∀ p, p < off ∨ off + n ≤ p → memGet (spad t) p = memGet (spad s) p) ∧ (∀ c' ≠ c, getCore t c' = getCore s c') ∧
        SameMem s t
    (peerKind s a.core c a.egen = none →
      (a.kind = .store → ∃ t : State, exec (.peerAccessArrive a.id) s = .next t ∧ memRead (spad t) off a.data.length = a.data ∧
        others t a.data.length ∧ findAcc t a.id = none) ∧
      (∀ d sx upc, a.kind = .load d sx upc → ∃ t : State, exec (.peerAccessArrive a.id) s = .next t ∧
        answered t (.replied (memRead (spad s) off a.size)) ∧ others t 0) ∧
      (∀ op d y v acq rel sc upc, a.kind = .atom op d y v acq rel sc upc → (rel = true → accReleased s a sc = true) →
        ∃ t : State, exec (.peerAccessArrive a.id) s = .next t ∧ answered t (.replied (memRead (spad s) off a.size)) ∧
          memRead (spad t) off a.size = atomBytes op (memRead (spad s) off a.size) y v ∧ others t a.size)) ∧
    (∀ k d sx upc, peerKind s a.core c a.egen = some k → a.kind = .load d sx upc →
      ∃ t : State, exec (.peerAccessArrive a.id) s = .next t ∧ answered t (.failed k a.addr) ∧ others t 0)

/-- R62, R64, R204: every tile instruction that has the register that it captures, its prefixes accepted and an entry of the
sequencer free goes to the end of the sequencer with the captured value, its modifiers and the youngest branch generation, and
changes nothing else of the machine but the commit latch, which a TSTG on the confirmed path to an address outside the core
sets (R564); its effect follows when the tile stream reaches it. A full sequencer, with the completed units that it keeps for
a loop (R205), makes it wait. R205, R206: TLOOP goes to the sequencer with the last n units dispatched as its body, and raises
ILLEGAL where there are fewer since the activation, the last TLOOP or the last TWAIT began; TWAIT passes and holds the control
stream until the tile stream is idle. -/
def Obligations.TileStream : Prop :=
  (∀ (s : State) (i : Instr) (q : IssueSpec), tileNeeds i = some q → Goes (cur s) q →
    let x := cur s
    let u : TileUnit := {
      id := s.nextId, upc := unitPc x, instr := i, xmod := unitXmod x,
      gval := (match capturedRegs i with | r :: _ => regVal x r | [] => 0), gen := youngestGen x }
    let room := seqUsed (x.seq ++ [{ unit := u, body := [] }]) ≤ 16
    (room →
      ∃ t : State, exec i s = .next t ∧ t.agenda = s.agenda ++ [Event.tileUnitBegin s.focus] ∧ t.nextId = s.nextId + 1 ∧
        cur t = latchTstg s.focus { passUnit x with
          seq := x.seq ++ [{ unit := u, body := [] }], recent := lastN 15 (x.recent ++ [u]) } ∧
        (∀ c ≠ s.focus, getCore t c = getCore s c) ∧ (getCore t s.focus).spad = (getCore s s.focus).spad ∧ SameMem s t) ∧
    (¬ room → exec i s = .next s)) ∧
  (∀ (s : State) (g : BitVec 5) (q : BitVec 1) (n : BitVec 4),
    let x := cur s
    let u : TileUnit := {
      id := s.nextId, upc := unitPc x, instr := .tloop g q n, xmod := unitXmod x,
      gval := (if q = 0 then regVal x g else 0), gen := youngestGen x }
    (Goes x (needs (if q = 0 then [g] else []) [] (ahead := true)) → n.toNat ≤ x.recent.length →
      let e : SeqEntry := { unit := u, body := x.recent.drop (x.recent.length - n.toNat) }
      (seqUsed (x.seq ++ [e]) ≤ 16 →
        ∃ t : State, exec (.tloop g q n) s = .next t ∧ t.agenda = s.agenda ++ [Event.tileUnitBegin s.focus] ∧
          cur t = latchTstg s.focus { passUnit x with seq := x.seq ++ [e], recent := [] }) ∧
      (16 < seqUsed (x.seq ++ [e]) → exec (.tloop g q n) s = .next s)) ∧
    (x.recent.length < n.toNat → x.gens = [] →
      exec (.tloop g q n) s = .next (takeTrap s s.focus {
        code := 1, param := 0, tile := false, epc := unitPc x, faultpc := unitPc x, faultaddr := 0 })) ∧
    (Goes x (needs [] []) →
      exec .twait s = .next (withCur s { passUnit x with recent := [], wait := .tileIdle 0 })))

/-- R188, R195, R196, R285: when the tile stream of a lone core begins a binding instruction, TGET or MFREE at its head, with
its operand there and its checks passed, the instruction has its effect and leaves the sequencer. TGET reads an unbound tile
as all ones; MFREE empties the slots that it names. -/
def Obligations.BindingUnits : Prop :=
  ∀ (s : State) (c : Nat) (u : TileUnit) (body : List TileUnit) (rest : List SeqEntry),
    let x := getCtx s c
    x.seq = { unit := u, body := body } :: rest → StreamFree s c u → x.run.begun = false → u.gen = none → x.run.popped = none →
    x.run.fromPool = 0 → poppedQueue u.instr = none →
    let v := u.gval
    let becomes := fun (t : State) (y : Ctx) =>
      getCtx t c = { y with seq := rest, run := resetRun, sys := { x.sys with xstep := 0 } } ∧
        (getCore t c).spad = (getCore s c).spad ∧ ∀ c' ≠ c, getCore t c' = getCore s c'
    (∀ d g q f b, u.instr = .tbind d g q f → bindOf v f = some b →
      ∃ t : State, exec (.tileUnitBegin c) s = .next t ∧ becomes t (putTile x d b)) ∧
    (∀ d g q f, u.instr = .tbind d g q f → bindOf v f = none →
      ∃ t : State, exec (.tileUnitBegin c) s = .next t ∧ (getCtx t c).tiles = x.tiles ∧
        (getCtx t c).tileTrap = some { code := 7, param := 0, addr := 0, upc := u.upc }) ∧
    (∀ d g q b b', u.instr = .tshape d g q → getTile x d = some b → shapeOf b v = some b' →
      ∃ t : State, exec (.tileUnitBegin c) s = .next t ∧ becomes t (putTile x d b')) ∧
    (∀ d g q b, u.instr = .tvalid d g q → getTile x d = some b →
      ∃ t : State, exec (.tileUnitBegin c) s = .next t ∧
        becomes t (putTile x d { b with vrows := min (v.toNat % 512) b.rows, vcols := min (v.toNat / 2 ^ 16 % 2048) b.cols })) ∧
    (∀ d f b, u.instr = .tfill d f → getTile x d = some b →
      ∃ t : State, exec (.tileUnitBegin c) s = .next t ∧ becomes t (putTile x d { b with fill := f.toNat })) ∧
    (∀ a n f, u.instr = .tget a n f → (getQueue x (4 + n.toNat)).length < 8 →
      ∃ t : State, exec (.tileUnitBegin c) s = .next t ∧
        becomes t (setQueue x (4 + n.toNat) (getQueue x (4 + n.toNat) ++ [{ val := tgetValue x a f, gen := none }])) ∧
        (getTile x a = none → tgetValue x a f = BitVec.allOnes 64)) ∧
    (∀ al l, u.instr = .mfree al l →
      ∃ t : State, exec (.tileUnitBegin c) s = .next t ∧
        (∀ i < 4, (al = 1 ∨ i = l.toNat) → getSlot (getCore t c) i = { emptySlot with touched := true }) ∧
        (∀ i < 4, ¬ (al = 1 ∨ i = l.toNat) → getSlot (getCore t c) i = getSlot (getCore s c) i) ∧
        (getCtx t c).seq = rest)

/-- R184, R190, R217-R222, R232-R234: a band of an element-by-element instruction on a lone core, whose begin checks its
bindings pass and whose rounding is not stochastic, writes to each element of the band inside the valid extent the value that
its rule gives from the scratchpad as it stood before the band, whichever sources alias the destination, and to no other byte;
the sources, the accumulators, %rseed and all other cores and memories stay. The band moves on to its end, and at the end of
the tile the unit leaves the sequencer. -/
def Obligations.TileElementwise : Prop :=
  ∀ (s : State) (c : Nat) (u : TileUnit) (body : List TileUnit) (rest : List SeqEntry),
    let x := getCtx s c
    let m := (getCore s c).spad
    let ops := ops4 x u.instr
    let lo := x.run.row
    let hi := min ops.d.rows ((lo / 8 + 1) * 8)
    x.seq = { unit := u, body := body } :: rest → StreamFree s c u → x.run.begun = true → x.run.waitLeave = false →
    x.run.fromPool = 0 → isElementwise u.instr = true → modeRnd u.xmod ≠ .stoch →
    (∀ p ∈ operandNames u.instr, TileOk (operandTile x u.instr p.1)) →
    beginChecks x u.instr (modeRnd u.xmod) false (some (runValue x u)) = .pass → lo < ops.d.rows →
    ∃ t : State, exec (.tileBandComplete c false) s = .next t ∧
      (∀ i j, lo ≤ i → i < hi → j < ops.d.cols →
        rawElem (getCore t c).spad ops.d i j =
          if i < ops.d.vrows ∧ j < ops.d.vcols then
            elemValue u.instr (modeRnd u.xmod) (unitSat x u.instr (modeSat u.xmod)) (runValue x u) ops
              { mem := m, plus := none, minus := none, idx := 0 } i j (stochValue x.sys.rseed) %
              (if ops.d.fmt = .l6 then 64 else 2 ^ fmtBits ops.d.fmt)
          else rawElem m ops.d i j) ∧
      (∀ p, (∀ i, lo ≤ i → i < hi → p < ops.d.base + i * ops.d.pitch ∨ ops.d.base + i * ops.d.pitch + rowBytes ops.d ≤ p) →
        memGet (getCore t c).spad p = memGet m p) ∧
      (hi < ops.d.rows → (getCtx t c).seq = x.seq ∧ (getCtx t c).run.row = hi) ∧
      (hi = ops.d.rows → (getCtx t c).seq = rest) ∧
      (getCtx t c).acc = x.acc ∧ (getCtx t c).sys.rseed = x.sys.rseed ∧ (getCtx t c).tiles = x.tiles ∧
      (∀ c' ≠ c, getCore t c' = getCore s c') ∧ SameMem s t

/-- R188, R189, R190: when the tile stream of a lone core begins a unit that works in bands or rows and draws no leave, a
failed check leaves a pending trap with %faultpc at the unit's first word and %xstep 0 and changes neither scratchpad nor
queues; a unit that passes keeps its popped queue value and goes on with its first band or row; one whose next check needs a
queue value that is not there waits. R192, R202: a row of TLDG on a lone core inside the valid extent reads its bytes from
memory into the scratchpad and nothing else of it, a row of TSTG writes them to memory; a row that faults writes nothing,
leaves %xstep at that row and a pending TILE_ACCESS with the fault kind and the first faulting byte. Formats whose rows are
whole bytes; the two bits above an L6 code are written as zero (R90; the model's choice between R90 and R202: log 42,
DEDUCED). -/
def Obligations.TileMovement : Prop :=
  (∀ (s : State) (c : Nat) (u : TileUnit) (body : List TileUnit) (rest : List SeqEntry),
    let x := getCtx s c
    x.seq = { unit := u, body := body } :: rest → StreamFree s c u → x.run.begun = false → u.gen = none → x.run.fromPool = 0 →
    (isElementwise u.instr = true ∨ (∃ d g q, u.instr = .tldg d g q) ∨ ∃ d g q, u.instr = .tstg d g q) →
    (∀ code p a, beginChecks x u.instr (modeRnd u.xmod) false (unitValue x u) = .trap code p a →
      ∃ t : State, exec (.tileUnitBegin c) s = .next t ∧
        (getCtx t c).tileTrap = some { code := code, param := p, addr := a, upc := u.upc } ∧ (getCtx t c).sys.xstep = 0 ∧
        (getCtx t c).queues = x.queues ∧ (getCtx t c).tiles = x.tiles ∧ (getCtx t c).seq = x.seq ∧
        (getCore t c).spad = (getCore s c).spad) ∧
    (beginChecks x u.instr (modeRnd u.xmod) false (unitValue x u) = .wait →
      exec (.tileUnitBegin c) s = .next (push s (.tileUnitBegin c))) ∧
    (∀ v, unitValue x u = some v → beginChecks x u.instr (modeRnd u.xmod) false (some v) = .pass →
      ∃ t : State, exec (.tileUnitBegin c) s = .next t ∧ (getCtx t c).run.begun = true ∧ (getCtx t c).run.waitLeave = false ∧
        (getCtx t c).run.row = 0 ∧ (getCtx t c).seq = x.seq ∧ (getCore t c).spad = (getCore s c).spad ∧
        (∀ n, poppedQueue u.instr = some n → (getCtx t c).run.popped = some v) ∧
        t.agenda = s.agenda ++ [if isElementwise u.instr then .tileBandComplete c false else .tileRowComplete c])) ∧
  (∀ (s : State) (c : Nat) (u : TileUnit) (body : List TileUnit) (rest : List SeqEntry) (d : BitVec 4) (g : BitVec 5) (q : BitVec 1)
    (b : Tile),
    let x := getCtx s c
    let i := x.run.row
    let a := runValue x u + BitVec.ofNat 64 (i * b.pitch)
    let n := (b.vcols * fmtBits b.fmt + 7) / 8
    x.seq = { unit := u, body := body } :: rest → StreamFree s c u → x.run.begun = true → x.run.waitLeave = false →
    x.run.fromPool = 0 → getTile x d = some b → TileOk b → fmtBits b.fmt % 8 = 0 → i < b.vrows → 0 < b.vcols → spaceOf a = 4 →
    (u.instr = .tldg d g q → rowFollows s c c u.id a n false = false →
      (∀ bs, rowRead s c a n = .ok bs → bs.length = n →
        ∃ t : State, exec (.tileRowComplete c) s = .next t ∧
          memRead (getCore t c).spad (b.base + i * b.pitch) n = (if b.fmt = .l6 then bs.map (fun x => x &&& 0x3F) else bs) ∧
          (∀ p, p < b.base + i * b.pitch ∨ b.base + i * b.pitch + n ≤ p →
            memGet (getCore t c).spad p = memGet (getCore s c).spad p) ∧
          (i + 1 < b.rows → (getCtx t c).run.row = i + 1 ∧ (getCtx t c).seq = x.seq) ∧
          (i + 1 = b.rows → (getCtx t c).seq = rest) ∧ SameMem s t) ∧
      (∀ k w, rowRead s c a n = .fail k w →
        ∃ t : State, exec (.tileRowComplete c) s = .next t ∧ (getCore t c).spad = (getCore s c).spad ∧
          (getCtx t c).sys.xstep = BitVec.ofNat 9 i ∧
          (getCtx t c).tileTrap = some { code := 13, param := k, addr := w, upc := u.upc })) ∧
    (u.instr = .tstg d g q → x.sys.dual = false → rowFollows s c c u.id a n true = false →
      (∀ bs, rowCheck s c a n = .ok bs →
        ∃ t : State, exec (.tileRowComplete c) s = .next t ∧ (getCore t c).spad = (getCore s c).spad ∧
          (let w := rowPut s c a (memRead (getCore s c).spad (b.base + i * b.pitch) n)
           t.hbm = w.hbm ∧ t.lines = w.lines ∧ t.remote = w.remote) ∧
          (i + 1 < b.rows → (getCtx t c).run.row = i + 1 ∧ (getCtx t c).seq = x.seq) ∧
          (i + 1 = b.rows → (getCtx t c).seq = rest)) ∧
      (∀ k w, rowCheck s c a n = .fail k w →
        ∃ t : State, exec (.tileRowComplete c) s = .next t ∧ SameMem s t ∧
          (getCtx t c).sys.xstep = BitVec.ofNat 9 i ∧
          (getCtx t c).tileTrap = some { code := 13, param := k, addr := w, upc := u.upc })))

/-- R292: a band of AZERO, AMOVIN or AMOVOUT on a lone core: the entries of the valid extent from the origin (R0, C0) are
zeroed, take the FP32 elements of the tile, or go to its elements unchanged; every other entry and, for AZERO and AMOVIN, the
scratchpad stay. R289, R119: a band of MMA or MMAL on a lone core, with a slot of N columns that stands (neither LOST nor
reloading, R275, R286) and that the array holds in one fold: each accumulator entry of a valid row takes the block partials of
its row and column in ascending K order, from its old value or, for MMAL, from +0; every other entry and the scratchpad stay. -/
def Obligations.MatrixUnits : Prop :=
  (∀ (s : State) (c : Nat) (u : TileUnit) (body : List TileUnit) (rest : List SeqEntry) (d : BitVec 4) (g : BitVec 5) (q : BitVec 1)
    (b : Tile),
    let x := getCtx s c
    let cls := classOf c
    let lo := x.run.row
    let hi := min b.rows ((lo / 8 + 1) * 8)
    let r0 := (runValue x u).toNat % 2 ^ 7
    let c0 := (runValue x u).toNat / 2 ^ 16 % 2 ^ 11
    let key := fun i j => accKey cls (r0 + i) (c0 + j)
    let inside := fun i j => lo ≤ i ∧ i < hi ∧ i < b.vrows ∧ j < b.vcols
    x.seq = { unit := u, body := body } :: rest → StreamFree s c u → x.run.begun = true → x.run.waitLeave = false →
    x.run.fromPool = 0 → getTile x d = some b → TileOk b → b.fmt = .fp32 → lo < b.rows → c0 + b.cols ≤ arrayWidth cls →
    let runs := fun (p : State → Prop) =>
      ∃ t : State, exec (.tileBandComplete c false) s = .next t ∧ p t ∧ (hi < b.rows → (getCtx t c).run.row = hi) ∧
        (hi = b.rows → (getCtx t c).seq = rest) ∧ SameMem s t
    let acc := fun (t : State) (k : Nat) => accGet (getCtx t c).acc k
    let kept := fun (t : State) => ∀ k, (∀ i j, inside i j → k ≠ key i j) → acc t k = acc s k
    (u.instr = .azero d g q → runs (fun t =>
      (∀ i j, inside i j → acc t (key i j) = 0) ∧ kept t ∧ (getCore t c).spad = (getCore s c).spad)) ∧
    (u.instr = .amovin d g q → runs (fun t =>
      (∀ i j, inside i j → (acc t (key i j)).toNat = leNat (memRead (getCore s c).spad (b.base + i * b.pitch + 4 * j) 4)) ∧ kept t ∧
        (getCore t c).spad = (getCore s c).spad)) ∧
    (u.instr = .amovout d g q → modeRnd u.xmod ≠ .stoch → runs (fun t =>
      (∀ i j, inside i j →
        leNat (memRead (getCore t c).spad (b.base + i * b.pitch + 4 * j) 4) = (acc s (key i j)).toNat) ∧
        (getCtx t c).acc = x.acc))) ∧
  (∀ (s : State) (c : Nat) (u : TileUnit) (body : List TileUnit) (rest : List SeqEntry) (f : MmaForm) (ta : Tile),
    let x := getCtx s c
    let cls := classOf c
    let lo := x.run.row
    let hi := min ta.rows ((lo / 8 + 1) * 8)
    let r0 := (runValue x u).toNat % 2 ^ 7
    let c0 := (runValue x u).toNat / 2 ^ 16 % 2 ^ 11
    let sl := getSlot (getCore s c) f.slot
    let xs := fun m => alignARow { mem := (getCore s c).spad, plus := none, minus := none, idx := 0 } x f sl.k m
    let acc := fun (t : State) (k : Nat) => accGet (getCtx t c).acc k
    let key := fun m n => accKey cls (r0 + m) (c0 + n)
    let inside := fun m n => lo ≤ m ∧ m < hi ∧ m < ta.vrows ∧ n < sl.n
    x.seq = { unit := u, body := body } :: rest → StreamFree s c u → x.run.begun = true → x.run.waitLeave = false →
    x.run.fromPool = 0 → mmaForm u.instr = some f → f.offs = none → f.groups = 1 → getTile x f.a = some ta → TileOk ta →
    lo < ta.rows → c0 + sl.n ≤ arrayWidth cls → slotsStand (getCore s c) u.instr = .pass →
    ∃ t : State, exec (.tileBandComplete c false) s = .next t ∧
      (∀ m n, inside m n → acc t (key m n) =
        ((xs m).zip (sl.cols.getD n [])).foldl (fun a p => accAdd a (blockPartial ta.fmt sl.fmt p.1 p.2))
          (if f.zero then 0 else acc s (key m n))) ∧
      (∀ k, (∀ m n, inside m n → k ≠ key m n) → acc t k = acc s k) ∧ (getCore t c).spad = (getCore s c).spad ∧
      (hi < ta.rows → (getCtx t c).run.row = hi) ∧ (hi = ta.rows → (getCtx t c).seq = rest))

/-- R357, R358, R368: SPAWN of an ordinary record pushes it at the bottom of the deque, or returns FULL with nothing changed;
SPAWN of a dual record goes to the distributor. The record holds the launch, the priority and the class, the entry of ga and
the four arguments; CREATED counts it. The issuer is no dual copy. R73, R373, R374: GANG waits until every core of its aligned
set waits in GANG with the same size, and then forms the gang: every core of the set is past its GANG, the leader's completes
and the others' stay pending. In an urgent activation or in a gang it is turned away, as it is where a core of the set waits
in GANG with another size. Outside a gang UNGANG passes and GSYNC waits as TWAIT. In a gang both wait for every member's tile
units; then GSYNC says OK and UNGANG disbands. R50, R371: END of an activation outside a gang with no other activation
pre-empted on its core waits for the tile stream and then frees the core: no activation, no queue entry, no sequencer entry is
left; a task with no registration retires; ENDED counts it; and the bytes of the launch's regions stay. -/
def Obligations.TasksAndGangs : Prop :=
  (∀ (s : State) (d a : BitVec 5) (b : BitVec 3) (p cl : BitVec 2),
    let x := cur s
    let c := s.focus
    let k := getCore s c
    let g := b ++ 0#2
    let r := fun (dual : Bool) =>
      WorkRec.mk (k.launch.getD 0) dual p.toNat cl.toNat ((regVal x a).setWidth 48) (groupVals x g 4)
    let y := setCommit (passUnit x)
    Goes x (needs (a :: groupRegs g 4) [d]) → holdsStores x = false → x.sys.dual = false →
    (k.deque.length < 64 →
      ∃ t : State, exec (.spawn d a b p cl 0) s = .next t ∧ cur t = setStatus y d 1 ∧
        (getCore t c).deque = { record := r false, reserved := none, after := (serialOf x, s.nextId) } :: k.deque ∧
        (getCore t c).created = k.created + 1 ∧ (getCore t c).spad = k.spad ∧ ∀ c' ≠ c, getCore t c' = getCore s c') ∧
    (64 ≤ k.deque.length →
      exec (.spawn d a b p cl 0) s = .next (withCur s (setStatus y d 0x11))) ∧
    ((s.dualWaits.filter (fun w => w.part == (partOf s c).getD 0)).length < 256 →
      ∃ t : State, exec (.spawn d a b p cl 1) s = .next t ∧ cur t = setStatus y d 1 ∧ (getCore t c).deque = k.deque ∧
        t.dualWaits = s.dualWaits ++ [{ id := s.nextId, part := (partOf s c).getD 0, record := r true, second := false, counted := false,
                                        core := c, after := (serialOf x, s.nextId) }] ∧
        (getCore t c).created = k.created + 1 ∧ t.agenda = s.agenda ++ [Event.dualPairPlace s.nextId])) ∧
  (∀ (s : State) (d : BitVec 5) (z : BitVec 2),
    let x := cur s
    let c := s.focus
    let n := if z = 1 then 2 else if z = 2 then 4 else 8
    let leader := c - c % n
    let busy := (gangMembers s c).any (fun m => !(getCtx s m).seq.isEmpty)
    (Goes x (needs [] [d]) →
      ((x.sys.urg = true ∨ inGang (getCore s c) = true) →
        exec (.gang d z) s = .next (withCur s (setStatus (passUnit x) d 0x61))) ∧
      (x.sys.urg = false → (getCore s c).gang = .none → (getCore s c).state = .running → boundElsewhere s c n = false →
        (∀ m, leader ≤ m → m < leader + n → m ≠ c → waitsOther n (getCore s m) = false) →
        ((∃ m, leader ≤ m ∧ m < leader + n ∧ m ≠ c ∧ waitsGang n (getCore s m) = false) → x.pfx = none →
          ∃ t : State, exec (.gang d z) s = .next t ∧ (getCore t c).gang = .waiting n d s.nextId ∧ cur t = x) ∧
        ((∀ m, leader ≤ m → m < leader + n → m ≠ c → waitsGang n (getCore s m) = true) →
          ∃ t : State, exec (.gang d z) s = .next t ∧
            (∀ m, leader ≤ m → m < leader + n →
              ∃ r op, (getCore t m).gang = .member leader n (m - leader) r op t.nextId ∧ (getCtx t m).pc = (getCtx s m).pc + 4) ∧
            (c = leader → regVal (cur t) d = if d = 0 then 0 else 1) ∧
            (c ≠ leader → d ≠ 0 → (getReg (cur t) d).mark = .op s.nextId))) ∧
      (x.sys.urg = false → (getCore s c).gang = .none → (getCore s c).state = .running →
        (∃ m, leader ≤ m ∧ m < leader + n ∧ m ≠ c ∧ waitsOther n (getCore s m) = true) →
        ∃ t : State, exec (.gang d z) s = .next t ∧ (getCore t c).gang = .none ∧ regVal (cur t) d = (if d = 0 then 0 else 0x61)) ∧
      (inGang (getCore s c) = false →
        exec (.gsync d) s = .next (withCur s { passUnit x with recent := [], wait := .tileIdle d })) ∧
      (inGang (getCore s c) = true → busy = false →
        exec (.gsync d) s = .next (withCur s (setStatus (passUnit x) d 1))) ∧
      (inGang (getCore s c) = true → busy = true → exec (.gsync d) s = .next s)) ∧
    (Goes x (needs [] []) →
      (inGang (getCore s c) = false → exec .ungang s = .next (withCur s (passUnit x))) ∧
      (inGang (getCore s c) = true → busy = true → exec .ungang s = .next s) ∧
      (inGang (getCore s c) = true → busy = false →
        ∃ t : State, exec .ungang s = .next t ∧ (∀ m ∈ gangMembers s c, (getCore t m).gang = .none) ∧ (cur t).pc = x.pc + 4))) ∧
  (∀ (s : State), Goes (cur s) (needs [] []) →
    let x := cur s
    let c := s.focus
    let k := getCore s c
    (x.seq ≠ [] → exec .endAct s = .next s) ∧
    (x.seq = [] → k.gang = .none → k.susp = none →
      ∃ t : State, exec .endAct s = .next t ∧ (getCore t c).state = .idle ∧ (cur t).act = none ∧ (cur t).seq = [] ∧
        (∀ n < 8, getQueue (getCtx t c) n = []) ∧ (getCtx t c).sys.held = 0 ∧ (getCtx t c).sys.rseed = x.sys.rseed ∧
        (hasReg k (nameGen x.sys.tid).toNat = false → ∀ e ∈ (getCore t c).live, e.gen ≠ (nameGen x.sys.tid).toNat) ∧
        (getCore t c).ended = (if endCounts s x then k.ended + 1 else k.ended) ∧ .activationChoose c ∈ t.agenda ∧
        ∀ p < regionsEnd (regionsOf s c), memGet (getCore t c).spad p = memGet k.spad p))

/-- R368, R369, R532: CALLAT, RETV, MSEND and RNDCLOSE of a task that is no dual copy mark gd and send one message to the core
that their operand names, with their task name and the entry generation that the interface holds for the target. R370: MPOLL
gives the oldest stored message of the task's own name, removes it, and writes its four words to the group and its kind and
sender to gd; without one it returns EMPTY. R363, R364, R368: a CALLAT record that reaches a core of its partition which is
free of other launches and may run its class takes the first free entry of the activation queue and is counted; a full queue
refuses it. A message for a live name is stored behind the others, and latches event bit 0 where the task runs; for a name
that is not live, STALE. -/
def Obligations.Messages : Prop :=
  (∀ (s : State) (d a b : BitVec 5) (q : BitVec 3) (p cl : BitVec 2),
    let x := cur s
    let c := s.focus
    let g := q ++ 0#2
    let v := regVal x a
    let sends := fun (i : Instr) (target : Nat) (body : TaskBody) (e : Event) =>
      ∃ t : State, exec i s = .next t ∧ cur t = markReg (setCommit (passUnit x)) d (.op s.nextId) ∧
        t.msgs = s.msgs ++ [{
          id := s.nextId + 1, core := c, name := x.sys.tid.toNat, target := target, egen := sentEgen s c target, op := s.nextId,
          tag := none, assayed := false, serial := serialOf x, twin := none, body := body }] ∧
        t.agenda = s.agenda ++ [e] ∧ t.nextId = s.nextId + 2
    holdsStores x = false → x.sys.dual = false → (∀ w, x.act = some w → w.pair = none) →
    (Goes x (needs (a :: groupRegs g 4) [d]) →
      sends (.callat d a q p cl) (v.toNat / 2 ^ 48 % 2 ^ 12)
        (.callat { ltag := (getCore s c).launch.getD 0, dual := false, prio := p.toNat, cls := cl.toNat, entry := v.setWidth 48,
                   args := groupVals x g 4 }) (.callatArrive (s.nextId + 1)) ∧
      sends (.msend d a q) (v.toNat % 2 ^ 28 / 2 ^ 16) (.mail 1 (v.toNat % 2 ^ 28) (groupVals x g 4))
        (.messageArrive (s.nextId + 1))) ∧
    (Goes x (needs [a, b] [d]) →
      sends (.retv d a b) (v.toNat % 2 ^ 28 / 2 ^ 16) (.mail 2 (v.toNat % 2 ^ 28) [regVal x b, 0, 0, 0])
        (.messageArrive (s.nextId + 1)) ∧
      sends (.rndclose d a b) (v.toNat % 2 ^ 12) (.rndclose ((regVal x b).toNat % 2 ^ 16))
        (.roundCloseArrive (s.nextId + 1)))) ∧
  (∀ (s : State) (d : BitVec 5) (q : BitVec 3),
    let x := cur s
    let k := getCore s s.focus
    let g := q ++ 0#2
    let gen := (nameGen x.sys.tid).toNat
    let y := setCommit (passUnit x)
    Goes x (needs [] (d :: groupRegs g 4)) → holdsLoads x = false → x.sys.dual = false →
    (∀ (pre : List Mail) (m : Mail) (post : List Mail), k.mail = pre ++ m :: post → (∀ e ∈ pre, e.gen ≠ gen) → m.gen = gen →
      ∃ t : State, exec (.mpoll d q) s = .next t ∧ (getCore t s.focus).mail = pre ++ post ∧
        cur t = setStatus (setGroup y g m.body) d (BitVec.ofNat 64 (1 + m.kind * 2 ^ 12 + m.sender * 2 ^ 32))) ∧
    ((∀ e ∈ k.mail, e.gen ≠ gen) → exec (.mpoll d q) s = .next (withCur s (setStatus y d 0x51)))) ∧
  (∀ (s : State) (m : TaskMsg) (o : Op), findMsg s m.id = some m → m.tag = none → m.twin = none → msgWaits s m = false →
    taskReach s m.core m.target m.egen = none → findOp s m.op = some o → o.id = m.op → runsSerial (getCtx s o.core) o.serial = true →
    (getReg (getCtx s o.core) o.reg).mark = .op o.id → o.reg ≠ 0 →
    let k := getCore s m.target
    let told := fun (t : State) (code : Nat) =>
      regVal (getCtx t o.core) o.reg = BitVec.ofNat 64 (code * 16 + 1) ∧ isMarked (getCtx t o.core) o.reg = false ∧
        findOp t m.op = none ∧ findMsg t m.id = none
    (∀ r, m.body = .callat r → (k.launch = none ∨ k.launch = some r.ltag) → mayRun m.target r.cls = true →
      (∀ i, freeAq k = some i →
        ∃ t : State, exec (.callatArrive m.id) s = .next t ∧ told t 0 ∧ (getCore t m.target).launch = some r.ltag ∧
          (getCore t m.target).aq.getD i .free = .delivered { plainAq r none false with order := s.nextId } ∧
          .activationChoose m.target ∈ t.agenda) ∧
      (freeAq k = none → ∃ t : State, exec (.callatArrive m.id) s = .next t ∧ told t 1 ∧ (getCore t m.target).aq = k.aq)) ∧
    (∀ kind name body, m.body = .mail kind name body → k.sealedStore = false → k.sealedGens.contains (name % 2 ^ 16) = false →
      dualName k (BitVec.ofNat 28 name) = false →
      ((∃ e ∈ k.live, e.gen = name % 2 ^ 16) → k.mail.length < 32 →
        ∃ t : State, exec (.messageArrive m.id) s = .next t ∧ told t 0 ∧
          (getCore t m.target).mail = k.mail ++ [{ gen := name % 2 ^ 16, sender := m.name, kind := kind, body := body }] ∧
          (k.ctx.act.isSome = true → k.ctx.sys.tid = BitVec.ofNat 28 name → (getCtx t m.target).sys.evt.getLsbD 0 = true)) ∧
      ((∀ e ∈ k.live, e.gen ≠ name % 2 ^ 16) →
        ∃ t : State, exec (.messageArrive m.id) s = .next t ∧ told t 3 ∧ (getCore t m.target).mail = k.mail)))

/-- R522, R523, R527, R528 on an object of the core's own scratchpad: BARM arms it, or answers BUSY where it is armed and not
reached; re-arming takes the old expectation from the count. BARA counts into it, saturating. Each of BARM's rows acts as the
top bits of gb say. No other byte changes. R524, R529, R246: BARW marks gd and waits; BARW_COMPLETE, while the object is armed
and its count has reached what it expects, gives the count and latches event bit 2, and otherwise waits on. The object does
not change. -/
def Obligations.Barriers : Prop :=
  (∀ (s : State) (d a b : BitVec 5) (off : Nat),
    let x := cur s
    let c := s.focus
    let u := withCur s (passUnit x)
    let addr := regVal x a
    let v := (regVal x b).toNat
    let o := readBar s c off
    let n := if o.armed then o.count - o.expect else o.count
    let gives := fun (i : Instr) (p : BarObj) (w : Word) =>
      ∃ t : State, exec i s = .next t ∧ readBar t c off = p ∧ (cur t).pc = x.pc + 4 ∧
        (d ≠ 0 → getReg (cur t) d = { val := w, poison := none, mark := .clear }) ∧ (∀ q ≠ d, getReg (cur t) q = getReg x q) ∧
        (∀ p, p < off ∨ off + 16 ≤ p → memGet (getCore t c).spad p = memGet (getCore s c).spad p) ∧
        ∀ c' ≠ c, getCore t c' = getCore s c'
    Goes x (needs [a, b] [d]) → addr.toNat % 16 = 0 → localOff c addr 16 = some off → barPending u c addr = false →
    relNow u c = true → localBusy u c off 16 true = false →
    (∀ i ∈ [Instr.barmArm d a b, .barmOpenRound d a b, .barmWithdrawRound d a b], v < 2 ^ 63 →
      (o.armed = true → o.count < o.expect → gives i o (barStatus 4 0)) ∧
      ((o.armed = true → o.expect ≤ o.count) → gives i { armed := true, expect := v % 2 ^ 48, count := n } (barStatus 0 n))) ∧
    gives (.bara d a b) { o with count := min (o.count + v % 2 ^ 48) (2 ^ 64 - 1) } (barStatus 0 0)) ∧
  (∀ (s : State),
    (∀ (d a : BitVec 5) (off : Nat),
      let x := cur s
      let c := s.focus
      let addr := regVal x a
      Goes x (needs [a] [d]) → addr.toNat % 16 = 0 → localOff c addr 16 = some off → barPending s c addr = false →
      holdsLoads x = false → localBusy (withCur s (passUnit x)) c off 16 false = false →
      ∃ t : State, exec (.barw d a) s = .next t ∧ cur t = markReg (passUnit x) d (.op s.nextId) ∧
        ((1 + c, off), 16) ∈ (getCore t c).waited ∧
        t.ops = s.ops ++ [{ id := s.nextId, core := c, serial := serialOf x, gen := genOf x, reg := d, upc := unitPc x, held := 0, drawn := 0,
                            body := .barw off }] ∧
        t.agenda = s.agenda ++ [Event.barwComplete s.nextId] ∧ (getCore t c).spad = (getCore s c).spad) ∧
    (∀ (o : Op) (off : Nat), findOp s o.id = some o → o.body = .barw off → runsSerial (getCtx s o.core) o.serial = true →
      (getReg (getCtx s o.core) o.reg).mark = .op o.id → o.reg ≠ 0 → reloading s o.core off 16 = false →
      let b := readBar s o.core off
      (b.armed = true → b.expect ≤ b.count →
        ∃ t : State, exec (.barwComplete o.id) s = .next t ∧ findOp t o.id = none ∧
          getReg (getCtx t o.core) o.reg = { val := BitVec.ofNat 64 b.count, poison := none, mark := .clear } ∧
          (getCtx t o.core).sys.evt.getLsbD 2 = true ∧ (getCore t o.core).spad = (getCore s o.core).spad) ∧
      (¬ (b.armed = true ∧ b.expect ≤ b.count) → exec (.barwComplete o.id) s = .next (push s (.barwComplete o.id)))))

/-- R500-R502, R527, R532: BARM with 10 in the top bits of gb opens the round that its 32-byte descriptor names, in the first
free round entry and with the first free entry of the activation queue, EXISTS where the number is in use, FULL without an
entry; with 11 it withdraws one and frees both entries. A round close counts at its entry; the last one fires the round, whose
entry becomes a delivered record with the round, its rows, its group and its closes as arguments. R530, R531, R533, R246:
CNTRD marks gd and waits; CNTRD_READING of the task's XFREE counter gives its value once it has reached the threshold, and
otherwise waits on; from its first reading on the counter is one on which the core has waited, and a change of such a place
latches event bit 2 of the core. A space that holds no counters poisons gd. CNTADD of a task that is no dual copy on a counter
of the own scratchpad adds to it and gives the old value; to a dual copy it is refused (R557). -/
def Obligations.RoundsAndCounters : Prop :=
  (∀ (s : State),
    (∀ (d a b : BitVec 5),
      let x := cur s
      let c := s.focus
      let k := getCore s c
      let u := withCur s (passUnit x)
      let addr := regVal x a
      let v := (regVal x b).toNat
      let answer := fun (t : State) (w : Word) =>
        (d ≠ 0 → getReg (cur t) d = { val := w, poison := none, mark := .clear }) ∧ (cur t).pc = x.pc + 4 ∧
          (getCore t c).spad = k.spad
      ∀ i ∈ [Instr.barmArm d a b, .barmOpenRound d a b, .barmWithdrawRound d a b],
        Goes x (needs [a, b] [d]) → relNow u c = true →
        (v / 2 ^ 62 = 3 →
          (∀ e, k.rounds.toList.find? (fun r => r.valid && r.round == addr.toNat % 2 ^ 16) = some e → e.aq < 16 →
            ∃ t : State, exec i s = .next t ∧ answer t (barStatus 0 0) ∧ (getCore t c).aq.getD e.aq .free = .free ∧
              ∀ r ∈ (getCore t c).rounds.toList, r.valid = true → r.round ≠ addr.toNat % 2 ^ 16) ∧
          ((∀ r ∈ k.rounds.toList, r.valid = true → r.round ≠ addr.toNat % 2 ^ 16) →
            ∃ t : State, exec i s = .next t ∧ answer t (barStatus 5 0) ∧ (getCore t c).rounds = k.rounds ∧ (getCore t c).aq = k.aq)) ∧
        (∀ (off : Nat) (e : RoundEntry), v / 2 ^ 62 = 2 → addr.toNat % 32 = 0 → localOff c addr 32 = some off →
          localBusy u c off 32 false = false → roundOf (spadRead s c off 32) = some e → (groupOf s c e.group).valid = true →
          k.launch = some (groupOf s c e.group).ltag →
          ((∃ r ∈ k.rounds.toList, r.valid = true ∧ r.round = e.round) →
            ∃ t : State, exec i s = .next t ∧ answer t (barStatus 6 0) ∧ (getCore t c).rounds = k.rounds) ∧
          ((∀ r ∈ k.rounds.toList, r.valid = true → r.round ≠ e.round) →
            (∀ j q, freeRound k = some j → freeAq k = some q →
              ∃ t : State, exec i s = .next t ∧ answer t (barStatus 0 0) ∧ (getCore t c).rounds.getD j emptyRound = { e with aq := q } ∧
                (getCore t c).aq.getD q .free = .round e.round ∧ e.valid = true ∧ e.rows = 0 ∧ e.closed = 0) ∧
            ((freeRound k = none ∨ freeAq k = none) →
              ∃ t : State, exec i s = .next t ∧ answer t (barStatus 1 0) ∧ (getCore t c).rounds = k.rounds ∧
                (getCore t c).aq = k.aq)))) ∧
    (∀ (m : TaskMsg) (n : Nat) (r : RoundEntry), findMsg s m.id = some m → m.body = .rndclose n → msgWaits s m = false →
      taskReach s m.core m.target m.egen = none →
      (getCore s m.target).rounds.toList.find? (fun r => r.valid && r.round == n) = some r → r.aq < 16 →
      let g := (groupOf s m.target r.group).members.length
      ∃ t : State, exec (.roundCloseArrive m.id) s = .next t ∧ findMsg t m.id = none ∧
        (r.closed + 1 ≠ g → { r with closed := r.closed + 1 } ∈ (getCore t m.target).rounds.toList) ∧
        (r.closed + 1 = g → (∀ e ∈ (getCore t m.target).rounds.toList, e.valid = true → e.round ≠ n) ∧
          ∃ w, (getCore t m.target).aq.getD r.aq .free = .delivered w ∧ w.kind = .round ∧ w.record.entry = r.entry ∧
            w.record.args = [n, r.rows, r.group, g].map (BitVec.ofNat 64)))) ∧
  (∀ (s : State),
    (∀ (d a b : BitVec 5),
      let x := cur s
      let c := s.focus
      let u := withCur s (passUnit x)
      let addr := regVal x a
      Goes x (needs [a, b] [d]) →
      (((counterSpace addr = true ∧ addr.toNat % 8 = 0) ∨ addr = xfreeDesignator) → holdsLoads x = false →
        (∀ r ∈ localRange c addr 8, localBusy u c r.1 r.2 false = false) →
        (spaceOf addr = 4 → tileMemBusy u c addr.toNat 8 false = false) →
        ∃ t : State, exec (.cntrd d a b) s = .next t ∧ cur t = markReg (passUnit x) d (.op s.nextId) ∧
          t.ops = s.ops ++ [{ id := s.nextId, core := c, serial := serialOf x, gen := genOf x, reg := d, upc := unitPc x, held := 0, drawn := 0,
                              body := .cntrd addr (regVal x b) }] ∧
          t.agenda = s.agenda ++ [Event.cntrdReading s.nextId]) ∧
      (counterSpace addr = true → addr.toNat % 8 = 0 → holdsStores x = false → x.sys.dual = true →
        ∃ t : State, exec (.cntadd d a b) s = .next t ∧ (getCore t c).spad = (getCore s c).spad ∧
          (d ≠ 0 → ∃ p, (getReg (cur t) d).poison = some p ∧ p.addr = addr ∧ p.kind = 1)) ∧
      (counterSpace addr = false → addr ≠ xfreeDesignator →
        ∃ t : State, exec (.cntrd d a b) s = .next t ∧ (d ≠ 0 → ∃ p, (getReg (cur t) d).poison = some p ∧ p.addr = addr ∧ p.kind = 1)) ∧
      (∀ off, addr.toNat % 8 = 0 → placeOf c addr = .spad off → off < spadSize → holdsStores x = false → x.sys.dual = false →
        localBusy u c off 8 true = false → releaseReady u c (genOf x) (passUnit x) 3 s.nextId = true →
        ∃ t : State, exec (.cntadd d a b) s = .next t ∧
          cur t = setReg (setCommit (passUnit x)) d (BitVec.ofNat 64 (leNat (spadRead s c off 8))) ∧
          leNat (spadRead t c off 8) = (leNat (spadRead s c off 8) + (regVal x b).toNat) % 2 ^ 64 ∧
          ∀ p, p < off ∨ off + 8 ≤ p → memGet (getCore t c).spad p = memGet (getCore s c).spad p)) ∧
    (∀ (o : Op) (thr : Word) (g : LiveGen), findOp s o.id = some o → o.body = .cntrd xfreeDesignator thr →
      runsSerial (getCtx s o.core) o.serial = true → (getReg (getCtx s o.core) o.reg).mark = .op o.id → o.reg ≠ 0 →
      (getCore s o.core).live.find? (fun e => e.gen == (nameGen (getCtx s o.core).sys.tid).toNat) = some g →
      (thr.toNat ≤ g.xfree.toNat →
        ∃ t : State, exec (.cntrdReading o.id) s = .next t ∧ findOp t o.id = none ∧
          (getCtx t o.core).sys.evt = (getCtx s o.core).sys.evt ||| 2 ∧
          ((6000, (nameGen (getCtx s o.core).sys.tid).toNat), 4) ∈ (getCore t o.core).waited ∧
          regVal (getCtx t o.core) o.reg = BitVec.ofNat 64 g.xfree.toNat) ∧
      (g.xfree.toNat < thr.toNat →
        ∃ t : State, exec (.cntrdReading o.id) s = .next t ∧ t.agenda = s.agenda ++ [Event.cntrdReading o.id] ∧ t.ops = s.ops ∧
          getCtx t o.core = getCtx s o.core ∧
          ((6000, (nameGen (getCtx s o.core).sys.tid).toNat), 4) ∈ (getCore t o.core).waited)) ∧
    (∀ (t : State) (c : Nat) (w : WaitPlace), w ∈ (getCore t c).waited → (getCtx t c).act ≠ none → placeOut s c w = false → placeOut t c w = false → placeVal s c w ≠ placeVal t c w →
      (getCtx (noteChanges s t) c).sys.evt.getLsbD 2 = true))

/-- R294-R298, R302-R305, R564: XCOPY with the latched registers, and XGATH and XSCAT with the index column of a ready i32
tile, start one operation with an event for every row that is not skipped; operands out of range answer BADARG, and a copy
that skips every row ends OK. XCANCEL ends a copy that has rows to perform, with none parked, as CANCELLED. R296, R299, R300,
R408: COPY_ROW_COMPLETE of a row that may start: into the own scratchpad, away from every source row, it writes the row's
bytes and no other; the last row ends the copy with OK; a source page that faults parks the row, and one that is refused ends
the copy with SRCFAIL. -/
def Obligations.CopyOperations : Prop :=
  (∀ (s : State) (d v : BitVec 5) (tn : BitVec 4),
    let x := cur s
    let c := s.focus
    let u := withCur s (passUnit x)
    let rel := modeRel (unitXmod x)
    let starts := fun (i : Instr) (p : CopyOp) =>
      let y := if leavesCore c p.cx.dst then setCommit (passUnit x) else passUnit x
      (copyArgsOk u c p = false → exec i s = .next (withCur s (setStatus y d (engineStatus 5 0 0 0 0)))) ∧
      (copyArgsOk u c p = true → copyTileBusy u c p = false →
        (copyOpen p = [] → exec i s = .next (withCur s (setStatus y d (engineStatus 0 (skippedRows p) 0 0 (copyRows p))))) ∧
        (copyOpen p ≠ [] →
          ∃ t : State, exec i s = .next t ∧ cur t = markReg y d (.op s.nextId) ∧
            t.ops = s.ops ++ [{ id := s.nextId, core := c, serial := serialOf x, gen := genOf x, reg := d, upc := unitPc x, held := 0, drawn := 0,
                                body := .copy p }] ∧
            t.agenda = s.agenda ++ (copyOpen p).map (.copyRowComplete s.nextId) ∧ (getCore t c).spad = (getCore s c).spad))
    (Goes x (needs [] [d] (ord := true)) → copiesFull s c = false → holdsStores x = false →
      starts (.xcopy d) (newCopy .copy x.sys.cx [] rel) ∧
      (∀ b, x.seq = [] → getTile x tn = some b → b.cols = 1 → x.sys.cx.rows.toNat ≤ b.rows → b.fmt = .i32 →
        tileReady u c b false = true →
        let idx := indexColumn (getCore s c).spad b x.sys.cx.rows.toNat
        starts (.xgath d tn) (newCopy .gather x.sys.cx idx rel) ∧ starts (.xscat d tn) (newCopy .scatter x.sys.cx idx rel))) ∧
    (Goes x (needs [] []) →
      ((getReg x v).mark = .clear → exec (.xcancel v) s = .next (withCur s (passUnit x))) ∧
      (∀ (o : Op) (p : CopyOp), findOp s o.id = some o → (getReg x v).mark = .op o.id → o.reg = v → o.body = .copy p → o.core = c →
        o.serial = serialOf x → runsSerial x o.serial = true → p.parked = [] → p.failed = [] → copyOpen p ≠ [] →
        ∃ t : State, exec (.xcancel v) s = .next t ∧ findOp t o.id = none ∧
          regVal (cur t) v = engineStatus 4 (skippedRows p) 0 0 (rowsDone p)))) ∧
  (∀ (s : State) (o : Op) (p : CopyOp) (row : Nat), findOp s o.id = some o → o.body = .copy p → row ∈ copyOpen p →
    rowParked s o.id row = false → p.failed = [] → p.cancelled = false → p.dead = false → p.parked = [] →
    opReleased s o p.rel 4 = true → lowerRowOpen s o p row = false →
    let n := p.cx.rbytes.toNat
    let src := copyRowAddr p.cx.src p.cx.rstride (copySides p row).1
    let dst := copyRowAddr p.cx.dst p.cx.wstride (copySides p row).2
    let told := fun (t : State) (w : Word) => findOp t o.id = none ∧
      (runsSerial (getCtx s o.core) o.serial = true → (getReg (getCtx s o.core) o.reg).mark = .op o.id → o.reg ≠ 0 →
        regVal (getCtx t o.core) o.reg = w)
    (∀ r ∈ localRange o.core src n, engineBusy s o.core r.1 r.2 false o.id = false) →
    (∀ r ∈ localRange o.core dst n, engineBusy s o.core r.1 r.2 true o.id = false) →
    (∀ bs q off, rowRead (opView s o) o.core src n = .ok bs → placeOf o.core dst = .spad off → rowCheck s o.core dst n = .ok q →
      placesMeet (sourcePlaces s o p) (rowPlaces s o p false row) = false →
      ∃ t : State, exec (.copyRowComplete o.id row) s = .next t ∧ spadRead t o.core off bs.length = bs ∧
        (∀ a, a < off ∨ off + bs.length ≤ a → memGet (getCore t o.core).spad a = memGet (getCore s o.core).spad a) ∧
        SameMem s t ∧ (copyOpen p = [row] → told t (engineStatus 0 (skippedRows p) 0 0 (copyRows p))) ∧
        (copyOpen p ≠ [row] → findOp t o.id = some { o with body := .copy { p with performed := p.performed ++ [row] } })) ∧
    (∀ a, rowRead (opView s o) o.core src n = .fail 0 a →
      let port := stationOf (columnOf s o.core) (a.toNat % 2 ^ 48)
      (s.fq.filter (fun e => e.port == port)).length < 64 →
      ∃ t : State, exec (.copyRowComplete o.id row) s = .next t ∧ t.fq = s.fq ++ [{ port := port, what := .row o.id row, own := true }] ∧
        t.cores = s.cores) ∧
    (∀ a, rowRead (opView s o) o.core src n = .fail 1 a →
      ∃ t : State, exec (.copyRowComplete o.id row) s = .next t ∧ told t (engineStatus 1 (skippedRows p) 0 0 (rowsDone p))))

/-- R294-R298, R306-R309, R534, R557: XMCAST and XMREAD with a good tile, group and mask, and XMCAST's four units of leave in
the reservation, start one operation, with one event per receiver or per line, whose source tile is read later; bad operands
and a dual copy answer BADARG; a tile that is not bound traps. XFREE sends one notice to the issuer that its operand names. -/
def Obligations.Multicasts : Prop :=
  ∀ (s : State) (d a b : BitVec 5) (tn : BitVec 4),
    let x := cur s
    let c := s.focus
    let u := withCur s (passUnit x)
    let w := regVal x a
    let mask := regVal x b
    let members := fun (w : Word) => (groupOf s c (w.toNat % 2 ^ 8)).members
    let starts := fun (i : Instr) (held : Nat) (tile : Tile) (word : Word) (read : Bool) (events : McastOp → List Event) =>
      ∃ (t : State) (m : McastOp), exec i s = .next t ∧ cur t = markReg (setCommit (passUnit x)) d (.op s.nextId) ∧
        t.ops = s.ops ++ [{ id := s.nextId, core := c, serial := serialOf x, gen := genOf x, reg := d, upc := unitPc x, held := held, drawn := 0,
                            body := .mcast m }] ∧
        m.read = read ∧ m.loaded = read ∧ m.tile = tile ∧ m.word = word ∧ m.ended = false ∧ m.name = x.sys.tid.toNat ∧
        m.receivers.map (·.core) = ((List.range 64).filter (fun k => mask.getLsbD k)).map (fun k => (members word).getD k 0) ∧
        t.agenda = s.agenda ++ events m ∧ (getCore t c).spad = (getCore s c).spad
    let bad : Host.Outcome State Fault Refusal := .next (withCur s (setStatus (setCommit (passUnit x)) d (engineStatus 5 0 0 0 0)))
    (Goes x (needs [a, b] [d] (ord := true)) → copiesFull s c = false → holdsStores x = false → x.seq = [] →
      (mcastTile x tn = none →
        let trapped : Host.Outcome State Fault Refusal := .next (takeTrap u c { code := 7, param := 4, tile := false, epc := unitPc x, faultpc := unitPc x, faultaddr := 0 })
        exec (.xmcast d a b tn) s = trapped ∧ exec (.xmread d a b tn) s = trapped) ∧
      (∀ tile, mcastTile x tn = some tile →
        ((x.sys.dual = true ∨ mcastArgsOk s c tile w mask = false) → exec (.xmcast d a b tn) s = bad) ∧
        (x.sys.dual = false → mcastArgsOk s c tile w mask = true → tileReady u c tile false = true →
          heldInUse s c + 4 ≤ x.sys.held.toNat →
          starts (.xmcast d a b tn) 4 tile w false (fun m => m.receivers.map (fun r => .multicastDelivery s.nextId r.rank))) ∧
        (w.toNat % 64 = 0 →
          ((x.sys.dual = true ∨ mcastArgsOk s c tile x.sys.cx.dst mask = false ∨ spaceOf w ≠ 4) → exec (.xmread d a b tn) s = bad) ∧
          (x.sys.dual = false → mcastArgsOk s c tile x.sys.cx.dst mask = true → spaceOf w = 4 →
            starts (.xmread d a b tn) 0 tile x.sys.cx.dst true (fun m =>
              (List.range (readPiecesOf m).length).map (.xmreadRequestArrive s.nextId) ++ [.multicastEnd s.nextId]))))) ∧
    (Goes x (needs [a] []) → holdsStores x = false → x.sys.dual = false →
      ∃ t : State, exec (.xfree a) s = .next t ∧ cur t = setCommit (passUnit x) ∧ t.agenda = s.agenda ++ [Event.xfreeNoticeArrive s.nextId] ∧
        ∃ m : TaskMsg, t.msgs = s.msgs ++ [m] ∧ m.core = c ∧ m.target = w.toNat % 2 ^ 28 / 2 ^ 16 ∧ m.body = .xfree (w.toNat % 2 ^ 28))

/-- R295, R307, R309, R312, R533: a delivery of an XMCAST that may go reads the source tile where none has, and then writes
the rows of the tile at one receiver and no other byte, and counts their bytes in the receiver's barrier object where CNT asks
for it; MULTICAST_END gives the status, once no receiver waits; a notice frees the first multicast whose delivery to its
sender has not failed and is not freed yet, and when every receiver of an ended one has freed it the task's XFREE counter
rises; a notice that finds no multicast is counted as stale. R310, R311: a line request of an XMREAD that may go and whose
page is there opens a merge entry with its receivers, or joins the entry of an equal request; one that cannot be translated
ends the operation. A response sends its next sector to every receiver of the entry, and with the last the entry is gone and
its requests may end. -/
def Obligations.MulticastAgenda : Prop :=
  (∀ (s : State),
    (∀ (o : Op) (m : McastOp), findOp s o.id = some o → o.body = .mcast m → m.ended = false →
      (∀ r, m.receivers.find? (fun e => e.rank == r.rank && receiverOpen e) = some r → m.read = false →
        opReleased s o m.rel 4 = true → mcastBefore s o r.core = false →
        (m.loaded = false →
          ∃ t : State, exec (.multicastDelivery o.id r.rank) s = .next t ∧ t.agenda = s.agenda ++ [Event.multicastDelivery o.id r.rank] ∧
            findOp t o.id = some { o with body := .mcast { m with
              rows := validRows (getCore (opView s o) o.core).spad m.tile, loaded := true } } ∧ t.cores = s.cores) ∧
        (m.loaded = true → peerKind s o.core r.core r.egen = none →
        (∀ i < m.tile.vrows, placeBusy s o r.core (m.tile.base + i * m.tile.pitch) (validBytes m.tile) = false) →
        (wordCnt m.word = true → reloading s r.core (wordBoff m.word) 16 = false) →
        (∀ bs ∈ m.rows, bs.length ≤ m.tile.pitch) →
        ∃ t : State, exec (.multicastDelivery o.id r.rank) s = .next t ∧ t.agenda = s.agenda ++ [Event.multicastEnd o.id] ∧
          findOp t o.id = some { o with body := .mcast (setReceiver m r.rank (fun e => { e with done := true })) } ∧
          (wordCnt m.word = false →
            (∀ i bs, m.rows[i]? = some bs → spadRead t r.core (m.tile.base + i * m.tile.pitch) bs.length = bs) ∧
            (∀ p, (∀ i bs, m.rows[i]? = some bs → p < m.tile.base + i * m.tile.pitch ∨ m.tile.base + i * m.tile.pitch + bs.length ≤ p) →
              memGet (getCore t r.core).spad p = memGet (getCore s r.core).spad p)) ∧
          (wordCnt m.word = true →
            (∀ i bs, m.rows[i]? = some bs → meets (m.tile.base + i * m.tile.pitch) bs.length (wordBoff m.word) 16 = false) →
            let b := readBar s r.core (wordBoff m.word)
            readBar t r.core (wordBoff m.word) = { b with count := min (b.count + (m.rows.map (·.length)).sum) (2 ^ 64 - 1) }))) ∧
      ((∀ r ∈ m.receivers, receiverOpen r = false) → runsSerial (getCtx s o.core) o.serial = true →
        (getReg (getCtx s o.core) o.reg).mark = .op o.id → o.reg ≠ 0 →
        let failed := m.receivers.filter (fun r => r.code != 0)
        ∃ t : State, exec (.multicastEnd o.id) s = .next t ∧
          regVal (getCtx t o.core) o.reg =
            engineStatus (mcastCode m) 0 failed.length ((failed.head?.map (·.rank)).getD 0) 0 ∧
          ∀ p q, findOp t o.id = some p → p.body = .mcast q → q.ended = true)) ∧
    (∀ (m : TaskMsg) (name : Nat), findMsg s m.id = some m → m.body = .xfree name → msgWaits s m = false →
      let hits := fun (q : McastOp) => q.name = name ∧ ∃ r ∈ q.receivers, r.core = m.core ∧ r.freed = false ∧ r.code = 0
      ((∀ o ∈ s.ops, ∀ q, o.body = .mcast q → ¬ hits q) →
        ∃ t : State, exec (.xfreeNoticeArrive m.id) s = .next t ∧ t.ops = s.ops ∧ findMsg t m.id = none ∧ t.cores = s.cores ∧
          (counterVal s (.staleXfree m.target) < 2 ^ 32 - 1 →
            counterVal t (.staleXfree m.target) = counterVal s (.staleXfree m.target) + 1)) ∧
      (∀ o q, oldestMcast s name = some (o, q) → hits q →
        let q' := { q with receivers := freeReceiver m.core q.receivers }
        (allFreed q' = false →
          ∃ t : State, exec (.xfreeNoticeArrive m.id) s = .next t ∧ findOp t o.id = some { o with body := .mcast q' } ∧ t.cores = s.cores) ∧
        (allFreed q' = true → oldestMcast (dropOp s o.id) name = none →
          ∃ t : State, exec (.xfreeNoticeArrive m.id) s = .next t ∧ findOp t o.id = none ∧
            let tid : BitVec 28 := BitVec.ofNat 28 name
            (getCore t (nameCore tid)).live = (getCore s (nameCore tid)).live.map (fun g =>
              if g.gen = (nameGen tid).toNat then { g with xfree := g.xfree + 1 } else g))))) ∧
  (∀ (s : State) (o : Op) (m : McastOp) (row off len : Nat), findOp s o.id = some o → o.body = .mcast m → m.read = true → m.ended = false →
    (∀ line, (readPiecesOf m)[line]? = some (row, off, len) →
      (∀ e ∈ s.merges, ¬ (o.id ∈ e.ops ∧ e.row = row ∧ e.off = off)) → (∀ p ∈ m.linesDone, p.1 ≠ line) →
      opReleased s o m.rel 4 = true → (∀ c ∈ openCores m, mcastBefore s o c.1 = false) →
      let found := lineWalk s o.core (m.src + BitVec.ofNat 64 (row * m.tile.pitch + off)) len
      (∀ pa, found = .page pa →
        (entryFor s o row off pa = none →
          ∃ t : State, exec (.xmreadRequestArrive o.id line) s = .next t ∧ t.agenda = s.agenda ++ [Event.xmreadSectorSend s.nextId] ∧
            t.merges = s.merges ++ [{ id := s.nextId, ops := [o.id], row := row, off := off, len := len, pa := pa, sent := 0,
                                      cores := openCores m, late := [] }]) ∧
        (∀ e, entryFor s o row off pa = some e → e.sent = 0 →
          ∃ t : State, exec (.xmreadRequestArrive o.id line) s = .next t ∧ t.agenda = s.agenda ∧ t.cores = s.cores ∧
            ∃ f ∈ t.merges, f.id = e.id ∧ f.ops = e.ops ++ [o.id] ∧ f.sent = 0 ∧ ∀ c ∈ openCores m, c ∈ f.cores ∨ c ∈ f.late.map (·.1))) ∧
      ((found = .fault ∨ found = .refused) →
        ∃ t : State, exec (.xmreadRequestArrive o.id line) s = .next t ∧ t.agenda = s.agenda ++ [Event.multicastEnd o.id] ∧
          ∃ p q, findOp t o.id = some p ∧ p.body = .mcast q ∧ q.srcFail = true)) ∧
    (∀ e, s.merges.find? (fun f => f.id == e.id) = some e → e.ops = [o.id] → e.row = row → e.off = off → e.len = len → e.late = [] →
      e.cores = openCores m → e.cores ≠ [] → (∀ r ∈ m.receivers, receiverOpen r = true → peerKind s o.core r.core r.egen = none) →
      (∀ c ∈ e.cores, entryBusy s e m c = false) → wordCnt m.word = false → sectorBad s e.pa len = false →
      let r := sectorRange e.pa len e.sent
      ∃ t : State, exec (.xmreadSectorSend e.id) s = .next t ∧ SameMem s t ∧
        (∀ c ∈ e.cores, spadRead t c.1 (m.tile.base + row * m.tile.pitch + off + r.1) r.2 = physRead s (e.pa + r.1) r.2) ∧
        (e.sent + 1 < sectorsOf e.pa len →
          t.agenda = s.agenda ++ [Event.xmreadSectorSend e.id] ∧ { e with sent := e.sent + 1 } ∈ t.merges) ∧
        (sectorsOf e.pa len ≤ e.sent + 1 → t.agenda = s.agenda ++ [Event.multicastEnd o.id] ∧ ∀ f ∈ t.merges, f.id ≠ e.id)))

/-- R426-R431, R440, R449-R452: a key instruction of a task that is no dual copy, with what it needs, sends one request with
its key or template to the home that the interface's map names for the hash, and marks gd; a continuation also reserves the
first free activation-queue entry; a template whose mask leaves field 0 or 1 open traps. R475, R476, R326: once the fork
release is done, KMAP answers from the interface's own map copy with its generation, the home and the hash. KSTAT of a present
home of this module samples the value there and sends it back; a selector or a home that does not exist, or one of a failed
module, answers all ones. -/
def Obligations.KeyOperations : Prop :=
  (∀ (s : State) (d b : BitVec 5) (q : BitVec 3) (o : BitVec 2) (tn : BitVec 4) (m : BitVec 1),
    let x := cur s
    let c := s.focus
    let k := getCore s c
    let u := withCur s (passUnit x)
    let g := quadReg q
    let h := octReg o
    let key := groupKey x g
    let v := groupKey x h
    let mask := groupKey x (h + 4)
    let addr := regVal x b
    let y := fun commit : Bool => if commit then setCommit (passUnit x) else passUnit x
    let sends := fun (i : Instr) (commit : Bool) (key : BitVec 256) (ask : KeyAsk) (e : Nat → Event) =>
      ∃ (t : State) (r : KeyReq), exec i s = .next t ∧ cur t = markReg (y commit) d (.op s.nextId) ∧
        t.ops = s.ops ++ [{ id := s.nextId, core := c, serial := serialOf x, gen := genOf x, reg := d, upc := unitPc x, held := 0, drawn := 0,
                            body := .key }] ∧
        t.keyReqs = s.keyReqs ++ [r] ∧ r.id = s.nextId + 1 ∧ r.ask = ask ∧ r.ctx = ctxOf s c ∧ r.tag = none ∧
        r.issuer = .task c (serialOf x) x.sys.tid.toNat s.nextId ∧ r.hash = keyHash key ∧
        r.home = homeFor (mapCopy s c) (keyHash key) ∧ t.agenda = s.agenda ++ [e (s.nextId + 1)] ∧ (getCore t c).spad = k.spad
    let refuses := fun (i : Instr) (commit : Bool) (code : Nat) =>
      exec i s = .next (withCur s (setStatus (y commit) d (keyStatus code false false false false 0)))
    let header := fun (bs : List Byte) => addr.toNat % 64 = 0 ∧ imageOk c addr 0 = true ∧ keyImageBusy u c addr 64 false = false ∧
      ownWriteAhead s c (genOf x) s.nextId addr 64 = false ∧ homeRead s c addr 64 = .ok bs
    let released := relDone u c (serialOf x) s.nextId 4 = true
    (∀ w, x.act = some w → w.pair = none) → holdsStores x = false → keysFull s c = false →
    (Goes x (needs (groupRegs g 4) [d]) → ∀ tile, x.seq = [] → getTile x tn = some tile → tileReady u c tile false = true → released →
      sends (.kputTile d q tn) true key (.put key (tilePayload k.spad tile).2 (tilePayload k.spad tile).1) .homeKputArrive) ∧
    (Goes x (needs (b :: groupRegs g 4) [d]) → ∀ bs, header bs →
      let len := headerWord bs 32 4
      let shape : BitVec 32 := BitVec.ofNat 32 (headerWord bs 36 4)
      ((2 ^ 20 < len ∨ shapeOk shape = false ∨ imageOk c addr len = false) → refuses (.kputImage d q b) true 5) ∧
      (len ≤ 2 ^ 20 → shapeOk shape = true → imageOk c addr len = true → ∀ off, placeOf c addr = .spad off →
        keyImageBusy u c addr (64 + len) false = false → released →
        sends (.kputImage d q b) true key (.put key shape (spadRead s c (off + 64) len)) .homeKputArrive)) ∧
    (Goes x (needs (groupRegs h 8) [d]) → maskOk mask = false →
      let trapped : Host.Outcome State Fault Refusal := .next (takeTrap u c { code := 11, param := 0, tile := false, epc := unitPc x, faultpc := unitPc x, faultaddr := 0 })
      exec (.kreadTile d o tn m) s = trapped ∧ exec (.ktakeTile d o tn m) s = trapped ∧ exec (.kcancel d o) s = trapped) ∧
    (Goes x (needs (groupRegs h 8) [d]) → maskOk mask = true →
      sends (.kcancel d o) true v (.cancel v mask) .homeKcancelArrive ∧
      (∀ tile, x.seq = [] → getTile x tn = some tile →
        sends (.kreadTile d o tn m) false v (.read false v mask (m == 1) (.tile tile)) .homeKreadArrive ∧
        sends (.ktakeTile d o tn m) true v (.read true v mask (m == 1) (.tile tile)) .homeKtakeArrive)) ∧
    (Goes x (needs (b :: groupRegs h 8) [d]) → maskOk mask = true →
      (∀ bs, header bs →
        let cap := headerWord bs 32 4
        ((2 ^ 20 < cap ∨ imageOk c addr cap = false) → refuses (.kreadImage d o b m) false 5 ∧ refuses (.ktakeImage d o b m) true 5) ∧
        (cap ≤ 2 ^ 20 → imageOk c addr cap = true →
          sends (.kreadImage d o b m) false v (.read false v mask (m == 1) (.image addr cap)) .homeKreadArrive ∧
          sends (.ktakeImage d o b m) true v (.read true v mask (m == 1) (.image addr cap)) .homeKtakeArrive)) ∧
      (∀ tile, x.seq = [] → getTile x tn = some tile →
        (freeAq k = none → refuses (.kreadCont d o b tn) false 2 ∧ refuses (.ktakeCont d o b tn) true 2) ∧
        (∀ e, freeAq k = some e → inKeep (launchOf s c) tile = false →
          refuses (.kreadCont d o b tn) false 5 ∧ refuses (.ktakeCont d o b tn) true 5) ∧
        (∀ e, freeAq k = some e → inKeep (launchOf s c) tile = true →
          let dest := KeyDest.cont e s.nextId (addr.setWidth 48) x.sys.prio.toNat tile
          sends (.kreadCont d o b tn) false v (.read false v mask false dest) .homeKreadArrive ∧
          sends (.ktakeCont d o b tn) true v (.read true v mask false dest) .homeKtakeArrive ∧
          ∃ t : State, exec (.ktakeCont d o b tn) s = .next t ∧
            (getCore t c).aq.getD e .free = .continuation (nameGen x.sys.tid).toNat s.nextId)))) ∧
  (∀ (s : State) (d a b : BitVec 5) (q : BitVec 3),
    let x := cur s
    let c := s.focus
    let h := (regVal x a).toNat % 2 ^ 10
    let sel := (regVal x b).toNat % 16
    let u := withCur s (passUnit x)
    relDone u c (serialOf x) s.nextId 4 = true →
    (Goes x (needs (groupRegs (quadReg q) 4) [d]) →
      let hash := keyHash (groupKey x (quadReg q))
      let m := mapCopy s c
      exec (.kmap d q) s = .next (withCur s (setReg (passUnit x) d
        (BitVec.ofNat 64 (m.gen.toNat % 2 ^ 16 + homeFor m hash * 2 ^ 16 + hash * 2 ^ 32))))) ∧
    (Goes x (needs [a, b] [d]) → holdsStores x = false →
      ((10 ≤ sel ∨ s.domainModules ≤ h / 64 ∨ h / 64 ∈ s.failedModules) →
        exec (.kstat d a b) s = .next (withCur s (setStatus (passUnit x) d (BitVec.allOnes 64)))) ∧
      (sel < 10 → h / 64 < s.domainModules → h / 64 = s.localMod → h / 64 ∉ s.failedModules →
        ∃ (t : State) (e : KeyDelivery), exec (.kstat d a b) s = .next t ∧ cur t = markReg (passUnit x) d (.op s.nextId) ∧
          t.deliveries = s.deliveries ++ [e] ∧ e.answer = .stat (statValue s h sel) ∧ e.home = h ∧
          e.req.issuer = .task c (serialOf x) x.sys.tid.toNat s.nextId ∧ t.agenda = s.agenda ++ [Event.keyDeliveryArrive e.id])))

/-- R432-R439, R446, R450-R452, R455, R464, R465: what a home does with a request that has reached it, waits for nothing,
neither for its issuer nor for a moving range, and is no dual copy's. A KPUT that no waiter matches is stored with the next
sequence and answered OK, is turned away FULL with no room, or goes to the oldest matching KTAKE; a KREAD or a KTAKE receives
the matching tuple of the lowest sequence, a KTAKE removing it; with none it is answered NOMATCH where it polls, is withdrawn
where its activation has ended, and waits otherwise; KCANCEL withdraws the oldest waiter of the task with its template; a
re-deposit keeps its sequence. R436, R437, R441-R443, R446, R476: a status or a sampled value that arrives is written to the
issuer's register; a tuple served into a tile is written row by row, its status says how much, and a take is acknowledged; one
for a continuation that stands becomes a delivered record with the key as arguments; an acknowledgement that stands releases
the payload, and one that does not re-deposits the tuple. -/
def Obligations.KeyEvents : Prop :=
  (∀ (s : State) (r : KeyReq), findReq s r.id = some r → r.tag = none → r.assayed = false → r.held = false → keyWaits s r = false →
    cutWaits s r = false → homeLocal s r.home = true → homeFor s.homeMap r.hash = r.home →
    let v := getHome s r.home
    let plain := (∀ t ∈ v.tuples, t.chain = false) ∧ (∀ w ∈ v.waiters, w.chain = false)
    let matching := fun (w : KeyReq) (ctx : Nat) (k : BitVec 256) =>
      ∃ take val mask poll dest, w.ask = .read take val mask poll dest ∧ w.ctx = ctx ∧ keyMatches val mask k = true
    let answered := fun (t : State) (as : List (KeyReq × KeyAnswer)) =>
      t.deliveries.map (fun e => (e.req, e.answer)) = s.deliveries.map (fun e => (e.req, e.answer)) ++ as ∧
      t.agenda = s.agenda ++ (List.range as.length).map (fun i => .keyDeliveryArrive (s.nextId + i)) ∧ findReq t r.id = none ∧
      t.cores = s.cores
    (∀ key shape payload, r.ask = .put key shape payload →
      let tup := fun n : Nat => ({ key := key, ctx := r.ctx, seq := n, shape := shape, payload := payload, chain := false, units := lowestFree (usedUnits v) (payloadUnits payload.length) } : Tuple)
      ((roomFits s r.home (payloadUnits payload.length) false = false ∨ (matchEntries ≤ arrayUsed v ∧
          roomFits s r.home (payloadUnits payload.length + 1) false = false ∧ ∀ w ∈ v.waiters, ¬ matching w r.ctx key)) →
        ∃ t : State, exec (.homeKputArrive r.id) s = .next t ∧ answered t [(r, .status 2 false)] ∧ getHome t r.home = v) ∧
      (plain → arrayUsed v < matchEntries → roomFits s r.home (payloadUnits payload.length) false = true →
        ((∀ w ∈ v.waiters, ¬ matching w r.ctx key) →
          ∃ t : State, exec (.homeKputArrive r.id) s = .next t ∧ answered t [(r, .status 0 false)] ∧
            getHome t r.home = { v with tuples := v.tuples ++ [tup v.seq.toNat], seq := v.seq + 1 }) ∧
        (∀ pre w post val mask poll dest, v.waiters = pre ++ w :: post → (∀ e ∈ pre, ¬ matching e r.ctx key) →
          w.ask = .read true val mask poll dest → w.ctx = r.ctx → keyMatches val mask key = true →
          ∃ t : State, exec (.homeKputArrive r.id) s = .next t ∧
            answered t [(w, .serve (tup v.seq.toNat) true w.stored), (r, .status 0 false)] ∧
            getHome t r.home = { v with waiters := pre ++ post, seq := v.seq + 1, unacked := v.unacked ++ [tup v.seq.toNat] }))) ∧
    (∀ take val mask poll dest, r.ask = .read take val mask poll dest → contDest dest = false →
      let i : Instr := if take then .homeKtakeArrive r.id else .homeKreadArrive r.id
      let mine := fun (t : Tuple) => t ∈ v.tuples ∧ t.ctx = r.ctx ∧ keyMatches val mask t.key = true
      (∀ tup, mine tup → (∀ e, mine e → e = tup ∨ tup.seq < e.seq) → plain → r.chain = false →
        ∃ t : State, exec i s = .next t ∧ answered t [(r, .serve tup take r.stored)] ∧
          getHome t r.home = (if take
            then { v with tuples := v.tuples.erase tup, unacked := v.unacked ++ [tup] } else v)) ∧
      ((∀ e, ¬ mine e) →
        (poll = true → ∃ t : State, exec i s = .next t ∧ answered t [(r, .status 1 false)] ∧ getHome t r.home = v) ∧
        (poll = false → stillWanted s r dest = false →
          ∃ t : State, exec i s = .next t ∧ answered t [(r, .status 6 false)] ∧ getHome t r.home = v) ∧
        (poll = false → stillWanted s r dest = true → arrayUsed v < matchEntries →
          ∃ t : State, exec i s = .next t ∧ answered t [] ∧ getHome t r.home = { v with waiters := v.waiters ++ [{ r with chain := false }] }))) ∧
    (∀ val mask, r.ask = .cancel val mask →
      ((∀ w ∈ v.waiters, cancels r val mask w = false) →
        ∃ t : State, exec (.homeKcancelArrive r.id) s = .next t ∧ answered t [(r, .status 1 false)] ∧ getHome t r.home = v) ∧
      (∀ pre w post take wv wm poll dest, v.waiters = pre ++ w :: post → (∀ e ∈ pre, cancels r val mask e = false) →
        cancels r val mask w = true → w.ask = .read take wv wm poll dest → contDest dest = false → plain →
        ∃ t : State, exec (.homeKcancelArrive r.id) s = .next t ∧ answered t [(w, .status 6 false), (r, .status 0 false)] ∧
          getHome t r.home = { v with waiters := v.waiters.filter (fun e => e.id != w.id) })) ∧
    (∀ tup, r.ask = .redeposit tup → roomFits s r.home (payloadUnits tup.payload.length) true = true → plain → arrayUsed v < matchEntries →
      (∀ w ∈ v.waiters, ¬ matching w tup.ctx tup.key) →
      ∃ t : State, exec (.homeRedepositArrive r.id) s = .next t ∧ answered t [] ∧
        getHome t r.home = { v with tuples := v.tuples ++ [{ tup with
          chain := false, units := lowestFree (usedUnits v) (payloadUnits tup.payload.length) }] })) ∧
  (∀ (s : State),
    (∀ (e : KeyDelivery) (c serial name : Nat) (o : Op), s.deliveries.find? (fun f => f.id == e.id) = some e →
      e.req.issuer = .task c serial name o.id → e.req.twin = none → findOp s o.id = some o → o.core = c → o.serial = serial →
      runsSerial (getCtx s c) serial = true → (getReg (getCtx s c) o.reg).mark = .op o.id → o.reg ≠ 0 →
      let told := fun (t : State) (w : Word) =>
        exec (.keyDeliveryArrive e.id) s = .next t ∧ regVal (getCtx t c) o.reg = w ∧ isMarked (getCtx t c) o.reg = false ∧
          findOp t o.id = none ∧ ∀ f ∈ t.deliveries, f.id ≠ e.id
      (∀ code ovf, e.answer = .status code ovf → ∃ t : State, told t (keyStatus code false false ovf e.req.forwarded 0)) ∧
      (∀ w, e.answer = .stat w → ∃ t : State, told t w) ∧
      (∀ tup take ovf take' v m poll b, e.answer = .serve tup take ovf → e.req.ask = .read take' v m poll (.tile b) →
        validBytes b ≤ b.pitch → tileReloads s c b = false → tileHeld s c o.id b = false →
        let n := b.vrows * validBytes b
        let len := tup.payload.length
        ∃ t : State, told t (keyStatus 0 (decide (n < len)) (decide (len < n)) ovf e.req.forwarded len) ∧
          (∀ i < b.vrows, ∀ j < validBytes b, i * validBytes b + j < len →
            memGet (getCore t c).spad (b.base + i * b.pitch + j) = tup.payload.getD (i * validBytes b + j) 0) ∧
          (take = true → .keyDeliveryAck s.nextId ∈ t.agenda ∧
            t.acks = s.acks ++ [{ id := s.nextId, home := e.home, tuple := tup, hash := e.req.hash, rid := e.req.rid, ok := true }]) ∧
          (take = false → t.acks = s.acks ∧ t.agenda = s.agenda))) ∧
    (∀ (e : KeyDelivery) (c serial name op : Nat) (tup : Tuple) (take ovf poll : Bool) (take' : Bool) (v m : BitVec 256)
        (aq reg : Nat) (entry : BitVec 48) (prio : Nat) (b : Tile) (g : Nat),
      s.deliveries.find? (fun f => f.id == e.id) = some e → e.req.issuer = .task c serial name op → e.req.twin = none →
      e.answer = .serve tup take ovf → e.req.ask = .read take' v m poll (.cont aq reg entry prio b) → partLive s c = true →
      (getCore s c).state ≠ .killed → aq < 16 → (getCore s c).aq.getD aq .free = .continuation g reg →
      (tileReloads s c b = false → tileHeld s c op b = false →
        ∃ t : State, exec (.keyDeliveryArrive e.id) s = .next t ∧ t.agenda = s.agenda ++ [Event.continuationDeliver e.id] ∧
          t.deliveries = s.deliveries ∧ (getCore t c).aq = (getCore s c).aq) ∧
      ∃ t : State, ∃ w, exec (.continuationDeliver e.id) s = .next t ∧ (getCore t c).aq.getD aq .free = .delivered w ∧
        w.kind = .continuation ∧ w.gen = some g ∧ w.t15 = some b ∧ w.record.entry = entry ∧ w.record.prio = prio ∧
        w.record.args = wordsOfKey tup.key ∧ ∀ f ∈ t.deliveries, f.id ≠ e.id) ∧
    (∀ (a : KeyAck), s.acks.find? (fun f => f.id == a.id) = some a → homeLocal s a.home = true →
      ∃ t : State, exec (.keyDeliveryAck a.id) s = .next t ∧ (∀ f ∈ t.acks, f.id ≠ a.id) ∧ (getHome t a.home).tuples = (getHome s a.home).tuples ∧
        (getHome t a.home).unacked = (getHome s a.home).unacked.erase a.tuple ∧
        (a.ok = true → t.keyReqs = s.keyReqs ∧ t.agenda = s.agenda) ∧
        (a.ok = false → t.agenda = s.agenda ++ [Event.homeRedepositArrive s.nextId] ∧
          ∃ r : KeyReq, t.keyReqs = s.keyReqs ++ [r] ∧ r.id = s.nextId ∧ r.home = a.home ∧ r.ask = .redeposit { a.tuple with chain := false })))

/-- R457-R459, R463, R465-R470, R474: KSPLIT of a range of a home of this module, towards another present home, starts the one
split of the module, whose upper half begins in the middle of the range, and answers BUSY while another is in progress, here
or (a free value of the model, log 15) at another module; SPLIT_COPY reserves room and copies; SPLIT_CUTOVER makes requests
for the upper half wait, and then moves its tuples and waiters in one step (those that match one another and stand at the two
homes meet there), and the map gains their entry and the next generation, modulo 2^32; SPLIT_ABORT before that leaves
everything at the source, and after it does nothing. A heap is resized only where the home holds nothing, to whole 64 KiB of
its stack that no other home's heap has (how a base names its stack is the model's choice: log 21). R458, R460: an interface
takes the current map from a broadcast, and from a hint that is not older than its copy, generations counting modulo 2^32, the
entry and the generation; a request that was forwarded fifteen times is held while a cut-over is in progress, here or at
another module (what no message tells of is a free value: log 15), and then goes to the home that the map names. -/
def Obligations.SplitsAndMaps : Prop :=
  (∀ (s : State) (d a b : BitVec 5) (r : HomeRange) (p : Split) (o : Op) (home base size : Nat),
    let x := cur s
    let hash := (regVal x a).toNat % 2 ^ 32
    let dst := (regVal x b).toNat % 2 ^ 10
    let hi := rangeEnd s.homeMap r.lo
    (Goes x (needs [a, b] [d] (priv := true)) → holdsStores x = false → x.sys.dual = false → coverOf s.homeMap hash = some r →
      2 ≤ hi - r.lo → homeLocal s r.home = true → dst ≠ r.home → dst / 64 < s.domainModules →
      (∀ h ∈ s.homes, h.1 = dst → h.2.present = true) → dst ∉ s.absentHomes →
      (s.split = none → lockTaken s = false → s.homeMap.ranges.length < 1024 → dst / 64 ∉ s.failedModules →
        ∃ t : State, exec (.ksplit d a b) s = .next t ∧ cur t = markReg (setCommit (passUnit x)) d (.op s.nextId) ∧
          t.agenda = s.agenda ++ [Event.splitCopy] ∧ t.homeMap = s.homeMap ∧ t.splitLock = some s.localMod ∧
          t.split = some { phase := 1, lo := r.lo, mid := r.lo + (hi - r.lo) / 2, hi := hi, src := r.home, dst := dst,
                           op := s.nextId, copied := [], reserved := 0 }) ∧
      ((s.split.isSome = true ∨ lockTaken s = true) →
        exec (.ksplit d a b) s = .next (bumpFree (withCur s (setStatus (setCommit (passUnit x)) d (splitStatus 1 0)))))) ∧
    (s.split = some p → Awaits s o → p.op = o.id →
      (p.phase = 1 → opReleased s o true 4 = true →
        (splitFits s p = true →
          ∃ t : State, exec .splitCopy s = .next t ∧ t.agenda = s.agenda ++ [Event.splitCutover] ∧ t.homes = s.homes ∧
            t.homeMap = s.homeMap ∧
            t.split = some { p with phase := 2, copied := p.copied ++ uncopied s p, reserved := upperUnits s p }) ∧
        (splitFits s p = false → exec .splitCopy s = .next (push s (.splitAbort false)))) ∧
      (p.phase = 2 → splitFits s p = true → homeLocal s p.dst = true →
        exec .splitCutover s = .next (push { s with split := some { p with phase := 3 } } .splitCutover)) ∧
      (p.phase = 3 → homeLocal s p.dst = true → p.src ≠ p.dst →
        ∃ t : State, exec .splitCutover s = .next t ∧ t.split = none ∧ t.splitLock = none ∧
          Told t o (splitStatus 0 (s.homeMap.gen + 1).toNat) ∧ t.homeMap.gen = s.homeMap.gen + 1 ∧
          { lo := p.mid, home := p.dst } ∈ t.homeMap.ranges ∧ (∀ e ∈ s.homeMap.ranges, e.lo ≠ p.mid → e ∈ t.homeMap.ranges) ∧
          (∀ e ∈ (getHome t p.src).tuples, inUpper p (keyHash e.key) = false) ∧
          ((∀ w ∈ (getHome s p.dst).waiters ++ upperWaiters s p, ∀ e ∈ (getHome s p.dst).tuples ++ upperTuples s p,
              ∀ take v m, waitForm w.ask = some (take, v, m) → w.ctx = e.ctx → keyMatches v m e.key = false) →
            (∀ e ∈ upperTuples s p, ∃ f ∈ (getHome t p.dst).tuples,
              f.key = e.key ∧ f.payload = e.payload ∧ f.seq = e.seq ∧ f.ctx = e.ctx) ∧
            (∀ w ∈ upperWaiters s p, waitForm w.ask ≠ none →
              ∃ v ∈ (getHome t p.dst).waiters, v.id = w.id ∧ v.ask = w.ask ∧ v.home = p.dst))) ∧
      (∀ lost : Bool,
        (p.phase ≠ 3 → ∃ t : State, exec (.splitAbort lost) s = .next t ∧ t.split = none ∧ t.splitLock = none ∧ t.homeMap = s.homeMap ∧
          t.homes = s.homes ∧ Told t o (splitStatus (if lost then 3 else 2) 0)) ∧
        (p.phase = 3 → exec (.splitAbort lost) s = .next s))) ∧
    (let h := getHome s home
     (heapGranted s home base size = true →
        base % 65536 = 0 ∧ size % 65536 = 0 ∧ 65536 ≤ size ∧ base / stackBytes = home % 64 / 4 ∧ base % stackBytes + size ≤ stackBytes ∧
          ∀ g ∈ stackHomes s home, meets (base % stackBytes) size (g.heapBase % stackBytes) g.heapSize = false) ∧
     (h.tuples = [] → h.waiters = [] → h.unacked = [] → heapGranted s home base size = true → homeLocal s home = true →
        exec (.heapResizeRequest home base size) s = .next (setHome s home { h with heapBase := base, heapSize := size })) ∧
     ((h.tuples ≠ [] ∨ h.waiters ≠ [] ∨ heapGranted s home base size = false) → exec (.heapResizeRequest home base size) s = .next s))) ∧
  (∀ (s : State) (ni : Nat),
    (∃ t : State, exec (.mapBroadcastArrive ni) s = .next t ∧ mapCopy t ni = s.homeMap ∧ ∀ j ≠ ni, mapCopy t j = mapCopy s j) ∧
    (∀ h, s.hints.find? (fun g => g.id == h.id) = some h →
      ∃ t : State, exec (.forwardHintArrive h.id) s = .next t ∧ (∀ g ∈ t.hints, g.id ≠ h.id) ∧ (∀ j ≠ h.ni, mapCopy t j = mapCopy s j) ∧
        (genOlder h.gen (mapCopy s h.ni).gen = false →
          (mapCopy t h.ni).gen = h.gen ∧ { lo := h.lo, home := h.home } ∈ (mapCopy t h.ni).ranges) ∧
        (genOlder h.gen (mapCopy s h.ni).gen = true → mapCopy t h.ni = mapCopy s h.ni)) ∧
    (∀ r, findReq s r.id = some r → r.held = true →
      (cutInProgress s = true → exec (.heldForwardRelease r.id) s = .next (push (bumpFree s) (.heldForwardRelease r.id))) ∧
      ((∃ p, s.split = some p ∧ p.phase = 3) → cutInProgress s = true) ∧
      (cutInProgress s = false →
        ∃ (t : State) (q : KeyReq), exec (.heldForwardRelease r.id) s = .next t ∧ findReq t r.id = some q ∧ q.home = homeFor s.homeMap r.hash ∧
          q.held = false ∧ q.forwarded = true ∧ q.ask = r.ask ∧ reqEvent q ∈ t.agenda)))

/-- R559, R560: the first arrival of a dual copy's message is held at its point, sent back where the point is full, and
compared when the twin stands there; the twin with the same hash, operation and destination is performed once for both; one
that differs, and one that does not come, ends the pair. A returned arrival is sent again. R471, R472, R467: a message of
another module that is malformed or not for this module is discarded and counted; a request enters the way to its home, or is
kept for the cut where a split moves it, a tuple that is served goes to the request that it answers, a map entry is taken;
when a connection fails, the requests above the last one performed complete LOST here and are performed no more for the other
module, to which the last number performed is reported, and all of them when the module has failed. Where the header carries
the moved mark, OVERFLOW and an entry's bound is the model's reading (log 14). -/
def Obligations.AssayAndModules : Prop :=
  (∀ (s : State) (m : TaskMsg) (tag : PairTag), findMsg s m.id = some m → m.tag = some tag →
    exec (.assayRetry m.id) s = .next (push s (.assayFirstArrival m.id)) ∧
    (m.assayed = false → msgWaits s m = false →
      ((twinMsg s m).isSome = true → exec (.assayFirstArrival m.id) s = .next (push s (.assayTwinArrival m.id))) ∧
      (twinMsg s m = none → 64 ≤ heldAt s (msgPoint m) → exec (.assayFirstArrival m.id) s = .next (push s (.assayRetry m.id))) ∧
      (twinMsg s m = none → heldAt s (msgPoint m) < 64 →
        ∃ t : State, exec (.assayFirstArrival m.id) s = .next t ∧ findMsg t m.id = some { m with assayed := true } ∧ t.agenda = s.agenda ∧
          t.cores = s.cores)) ∧
    (∀ f ftag, m.assayed = false → twinMsg s m = some f → f.tag = some ftag → f.id ≠ m.id → findMsg s f.id = some f →
      (∀ r, m.body ≠ .dualSpawn r) →
      (ftag.hash = tag.hash → bodyCode f.body = bodyCode m.body → bodyDest f.body = bodyDest m.body →
        ∃ (t : State) (q : TaskMsg), exec (.assayTwinArrival m.id) s = .next t ∧ findMsg t m.id = none ∧ findMsg t f.id = some q ∧ q.tag = none ∧
          q.assayed = false ∧ q.body = f.body ∧ (q.op = f.op ∧ q.twin = some m.op ∨ q.op = m.op ∧ q.twin = some f.op) ∧
          t.agenda = s.agenda ++ [msgEvent f.body f.id] ∧ t.cores = s.cores) ∧
      (ftag.hash ≠ tag.hash → ∃ t : State, exec (.assayTwinArrival m.id) s = .next t ∧ findPair t tag.pair = none)) ∧
    (m.assayed = true → ∃ t : State, exec (.assayTimeout m.id) s = .next t ∧ findPair t tag.pair = none) ∧
    (m.assayed = false → exec (.assayTimeout m.id) s = .next s)) ∧
  (∀ (s : State) (bs : List Byte) (m n : Nat),
    ((readHead bs = none ∨ ∃ h, readHead bs = some h ∧ waidricOk s h bs = false) →
      exec (.waidricMessageReceive bs) s = .next (count s (.waidricDrops (dropHome s bs)) 1)) ∧
    (∀ h, readHead bs = some h → waidricOk s h bs = true →
      (h.op ≤ 4 → headMoved h = true →
        ∃ (t : State) (r : KeyReq), exec (.waidricMessageReceive bs) s = .next t ∧ t.splitReqs = s.splitReqs ++ [(h.smod * 1024 + h.dhome, r)] ∧
          r.ask = headAsk h bs ∧ r.home = h.dhome ∧ t.keyReqs = s.keyReqs ∧ t.homes = s.homes ∧ t.agenda = s.agenda) ∧
      (h.op ≤ 4 → headMoved h = false → ∃ (t : State) (r : KeyReq), exec (.waidricMessageReceive bs) s = .next t ∧ t.keyReqs = s.keyReqs ++ [r] ∧ r.id = s.nextId ∧
        r.issuer = .module h.smod h.reqid h.task ∧ r.home = h.dhome ∧ r.hash = keyHash (keyAt bs 64) ∧ r.ctx = h.flags / 256 ∧
        r.ask = headAsk h bs ∧ t.cores = s.cores) ∧
      (h.op = 5 → ∀ r, findOutstanding s h.smod h.reqid = some r → r.served = false →
        ∃ (t : State) (e : KeyDelivery), exec (.waidricMessageReceive bs) s = .next t ∧ t.deliveries = s.deliveries ++ [e] ∧ e.req.issuer = r.issuer ∧
          e.answer = .serve (headTuple h bs) (askTakes r.ask) (headMode h % 2 == 1) ∧ t.agenda = s.agenda ++ [Event.keyDeliveryArrive e.id]) ∧
      (h.op = 9 → ∃ t : State, exec (.waidricMessageReceive bs) s = .next t ∧ (genOlder (BitVec.ofNat 32 h.mapgen) s.homeMap.gen = false → t.homeMap.gen = BitVec.ofNat 32 h.mapgen) ∧
        { lo := h.hash, home := h.dhome } ∈ t.homeMap.ranges ∧ t.cores = s.cores)) ∧
    (∃ t : State, exec (.waidricConnectionFail m n) s = .next t ∧
      (getWaidric t m).outstanding = (getWaidric s m).outstanding.filter (fun e => decide (e.1 ≤ n)) ∧
      (getWaidric t m).reported = (getWaidric s m).received ∧
      ∀ r ∈ s.keyReqs, r.id < s.nextId → reqAbove m (getWaidric s m).received r = true → r ∉ t.keyReqs) ∧
    (∃ t : State, exec (.moduleFailed m) s = .next t ∧ m ∈ t.failedModules ∧ (getWaidric t m).outstanding = []))

/-- R491, R495-R499, R557: CMBOPEN and CMBPUT with their two bound tiles of the shapes and formats that R496 and R497 ask for,
and CMBCLOSE, send one command with what the tiles and registers hold and mark gd; a dual copy's is refused. CMBSTAT reads the
token's slot at its slice; of the cycles that remain, how many have passed since the last reading is a free value (log 6). -/
def Obligations.CombineCommands : Prop :=
  ∀ (s : State) (d a b : BitVec 5) (tn : BitVec 4) (k : BitVec 1),
    let x := cur s
    let c := s.focus
    let u := withCur s (passUnit x)
    let addr := (regVal x a).toNat % 2 ^ 48
    let token := (regVal x a).toNat / 2 ^ 48
    let gb := (regVal x b).toNat
    let sends := fun (i : Instr) (rel : Bool) (ask : CmbAsk) (e : Nat → Event) =>
      (x.sys.dual = true →
        exec i s = .next (withCur s (setStatus (setCommit (passUnit x)) d (cmbStatus 5 0 0 0 0)))) ∧
      (x.sys.dual = false →
        ∃ t : State, exec i s = .next t ∧ cur t = markReg (setCommit (passUnit x)) d (.op s.nextId) ∧
          t.ops = s.ops ++ [{ id := s.nextId, core := c, serial := serialOf x, gen := genOf x, reg := d, upc := unitPc x, held := 0, drawn := 0,
                              body := .cmb }] ∧
          t.cmbMsgs = s.cmbMsgs ++ [{ id := s.nextId + 1, core := c, serial := serialOf x, op := s.nextId, ctx := ctxOf s c,
                                      d := addr, slice := 0, rel := rel, ask := ask }] ∧
          t.agenda = s.agenda ++ [e (s.nextId + 1)])
    cmbBusy s c = false → addr % 64 = 0 →
    (Goes x (needs [a, b] [d]) → sends (.cmbclose d a b) true (.close token (gb % 2 ^ 17)) .sliceCmbcloseArrive) ∧
    (∀ w y, x.seq = [] → getTile x tn = some w → getTile x (tn + 1) = some y → y.fmt = .i32 → w.rows = y.rows →
      tileReady u c w false = true → tileReady u c y false = true →
      (Goes x (needs [a, b] [d]) → w.cols = y.cols → w.fmt = .fp32 → (gb % 2 ^ 10 = 0 ∨ w.rows = gb % 2 ^ 10) →
        sends (.cmbopen d a b tn k) true (.open token (gb % 2 ^ 10) (k == 1) w.cols (readPairs (getCore s c).spad w y))
          .sliceCmbopenArrive) ∧
      (Goes x (needs [a, b] [d] (ord := true)) → y.cols = 1 → fmtIsFloat w.fmt = true →
        (modeRel (unitXmod x) = false ∨ relDone u c (serialOf x) s.nextId 3 = true) →
        sends (.cmbput d a b tn) (modeRel (unitXmod x)) (.put (gb % 2 ^ 10) w.cols (readRows (getCore s c).spad w y))
          .sliceCmbputArrive)) ∧
    (Goes x (needs [a] [d]) → (∀ m ∈ s.cmbMsgs, m.core ≠ c) → relDone u c (serialOf x) s.nextId 3 = true →
      ∀ i pa buf, cmbPlace s c (ctxOf s c) addr = .at i pa → findBuf (getSlice s i) (ctxOf s c) addr = some buf →
        (tokenSlot (getSlice s i) (ctxOf s c) addr token = none →
          exec (.cmbstat d a) s = .next (withCur s (setStatus (passUnit x) d 1))) ∧
        (∀ n slot, tokenSlot (getSlice s i) (ctxOf s c) addr token = some (n, slot) →
          ∃ (t : State) (now : CmbSlot), exec (.cmbstat d a) s = .next t ∧ t.fresh = s.fresh + 1 ∧
            now = { slot with countdown := now.countdown } ∧ (0 < slot.countdown → 0 < now.countdown ∧ now.countdown ≤ slot.countdown) ∧
            getCmbSlot (getSlice t i) n = some now ∧ cur t = setStatus (passUnit x) d (cmbStatWord now)))

/-- R480, R482, R483, R491, R493, R496-R498: at its slice, an open of one token allocates its OPEN slot with the experts that
are present in ascending order, INUSE where the token has one, FULL without room; a row of an expected expert is staged, one
for a token without a slot bounces, and one of an expert that is not expected is discarded; a close completes the OPEN slots
of its range. R482-R488, R490, R496: an OPEN slot whose countdown has run out completes with what has arrived, and so do the
other slots of its CMBOPEN, whose countdowns were loaded with it; a complete slot in tuple mode is released in its turn: the
word is written, the tuple goes to the key space under the buffer's key, and the slot is free, or lingers, its countdown
loaded with LINGER, where rows are still expected; a lingering slot becomes free; the first waiting open is served once it
fits. -/
def Obligations.CombineEvents : Prop :=
  (∀ (s : State) (m : CmbMsg) (o : Op) (i pa : Nat) (b : CmbBuf), findCmb s m.id = some m → m.op = o.id → Awaits s o →
    cmbWaits s m = false → cmbPlace s m.core m.ctx m.d = .at i pa → findBuf (getSlice s i) m.ctx m.d = some b →
    b.ctx = m.ctx → b.d = m.d →
    let v := getSlice s i
    let slot := fun (w : CmbSlice) (token : Nat) => tokenSlot w m.ctx m.d token
    (∀ f k row blk, m.ask = .open f 1 blk k [row] → openArgsOk b f 1 k [row] = true → v.waiting = [] →
      ((slot v f).isSome = true →
        ∃ t : State, exec (.sliceCmbopenArrive m.id) s = .next t ∧ Told t o (cmbStatus 4 0 0 0 0) ∧ t.slices = s.slices) ∧
      (slot v f = none → openFits v b [row] = false → blk = false →
        ∃ t : State, exec (.sliceCmbopenArrive m.id) s = .next t ∧ Told t o (cmbStatus 1 0 0 0 0) ∧ t.slices = s.slices) ∧
      (slot v f = none → openFits v b [row] = true → presentPairs row ≠ [] →
        ∃ (t : State) (n : Nat) (e : CmbSlot), exec (.sliceCmbopenArrive m.id) s = .next t ∧ Told t o (cmbStatus 0 1 0 0 0) ∧
          getCmbSlot (getSlice t i) n = some e ∧ getCmbSlot v n = none ∧ e.token = f ∧ e.state = .opened ∧
          e.countdown = b.desc.timeout ∧
          e.experts = (presentPairs row).map (·.1) ∧ e.weights = (presentPairs row).map (·.2))) ∧
    (∀ (e token : Nat) row, m.ask = .put e b.desc.cols [((token : Int), row)] → token ≤ 65535 →
      (slot v token = none →
        ∃ t : State, exec (.sliceCmbputArrive m.id) s = .next t ∧ Told t o (cmbStatus 6 0 1 0 0) ∧ t.slices = s.slices) ∧
      (∀ n q, slot v token = some (n, q) →
        (positionOf q e = none →
          ∃ t : State, exec (.sliceCmbputArrive m.id) s = .next t ∧ Told t o (cmbStatus 0 0 0 0 1) ∧ t.slices = s.slices) ∧
        (∀ p, positionOf q e = some p → p ∉ seenBits q → q.state = .opened →
          let r := { q with rows := q.rows.set p (some row) }
          (arrived r).length ≠ q.experts.length →
          ∃ t : State, exec (.sliceCmbputArrive m.id) s = .next t ∧ Told t o (cmbStatus 0 1 0 0 0) ∧
            getCmbSlot (getSlice t i) n = some r))) ∧
    (∀ f n, m.ask = .close f n →
      ((n = 0 ∨ 2 ^ 16 < f + n) →
        ∃ t : State, exec (.sliceCmbcloseArrive m.id) s = .next t ∧ Told t o (cmbStatus 5 0 0 0 0) ∧ t.slices = s.slices) ∧
      (0 < n → f + n ≤ 2 ^ 16 → (∀ p ∈ bufSlots v m.ctx m.d, p.2.token < f ∨ f + n ≤ p.2.token) →
        ∃ t : State, exec (.sliceCmbcloseArrive m.id) s = .next t ∧ Told t o (cmbStatus 0 0 0 0 0) ∧ t.slices = s.slices) ∧
      (∀ e q, 0 < n → f + n ≤ 2 ^ 16 → bufSlots v m.ctx m.d = [(e, q)] → f ≤ q.token → q.token < f + n → q.state = .opened →
        ∃ t : State, exec (.sliceCmbcloseArrive m.id) s = .next t ∧ Told t o (cmbStatus 0 1 0 0 0) ∧
          getCmbSlot (getSlice t i) e = some { completeSlot b.desc true q with order := s.nextId, countdown := 0 } ∧ .combineRelease i e ∈ t.agenda))) ∧
  (∀ (s : State) (i k : Nat) (q : CmbSlot) (b : CmbBuf),
    let v := getSlice s i
    (getCmbSlot v k = some q → findBuf v q.ctx q.d = some b → q.state = .opened → (v.slots.map (·.1)).Nodup →
      ∃ t : State, exec (.combineTimeout i k) s = .next t ∧
        ∀ p ∈ usedSlots v, (p = (k, q) ∨ p.2.ctx = q.ctx ∧ p.2.d = q.d ∧ p.2.opening = q.opening ∧ p.2.state = .opened) →
          getCmbSlot (getSlice t i) p.1 = some { completeSlot b.desc false p.2 with order := s.nextId, countdown := 0 } ∧
          .combineRelease i p.1 ∈ t.agenda) ∧
    (getCmbSlot v k = some q → q.state = .linger →
      ∃ t : State, exec (.lingerExpire i k) s = .next t ∧ getCmbSlot (getSlice t i) k = none ∧ t.cores = s.cores) ∧
    (getCmbSlot v k = some q → findBuf v q.ctx q.d = some b → q.state = .complete → releaseTurn v b q = true →
      depositing s i q.ctx = false → b.desc.tupleMode = true →
      ∀ bs, agentCheck s (sliceAgent i b.ctx) (wordAddr b q.token) 8 = .ok bs →
      let word := releaseWord q false
      ∃ (t : State) (r : KeyReq), exec (.combineRelease i k) s = .next t ∧ t.keyReqs = s.keyReqs ++ [r] ∧
        r.ask = .put (tupleKey b q word) (tuplePayload b q).2 (tuplePayload b q).1 ∧ r.ctx = b.ctx ∧
        t.lines = (agentPut s (sliceAgent i b.ctx) (wordAddr b q.token) (leBytes 8 word.toNat)).lines ∧
        (if q.subst ≠ 0 ∧ allSeen q = false ∧ 0 < b.desc.linger
          then getCmbSlot (getSlice t i) k = some { q with state := .linger, countdown := b.desc.linger } else getCmbSlot (getSlice t i) k = none)) ∧
    (∀ (m : CmbMsg) rest o f kk row blk, v.waiting = m :: rest → m.op = o.id → Awaits s o → m.ask = .open f 1 blk kk [row] →
      findBuf v m.ctx m.d = some b → b.ctx = m.ctx → b.d = m.d → tokenSlot v m.ctx m.d f = none →
      (openFits v b [row] = true →
        ∃ t : State, exec (.openWaitServe i) s = .next t ∧ Told t o (cmbStatus 0 1 0 0 0) ∧ (getSlice t i).waiting = rest ∧
          .openWaitServe i ∈ t.agenda) ∧
      (openFits v b [row] = false → blk = true → exec (.openWaitServe i) s = .next s)))

/-- R339, R341-R347, R352, R534, R557: MSIRED and MSISCAT with a ready i32 index tile, and MSTOPK, of a task that is no dual
copy, with aligned operands and three units of leave in the reservation, start one operation with the indices as read at
issue; its check ends it with a code or lays out its packets; a position of MSIRED reads its row; a result row is written as
the sum of its bag; and the end writes the completion word and the status. -/
def Obligations.StackEngines : Prop :=
  ∀ (s : State) (d a b : BitVec 5) (tn : BitVec 4) (k : BitVec 3),
    let x := cur s
    let c := s.focus
    let u := withCur s (passUnit x)
    let table := regVal x a
    let area := regVal x b
    let y := fun kind => if msCommits c kind area then setCommit (passUnit x) else passUnit x
    let starts := fun (i : Instr) (kind : MsKind) (bags : List (List Int)) =>
      (table.toNat % 4096 ≠ 0 → exec i s = .next (takeTrap u c
        { code := 5, param := 0, tile := false, epc := unitPc x, faultpc := unitPc x, faultaddr := table })) ∧
      (table.toNat % 4096 = 0 → area.toNat % 64 ≠ 0 → exec i s = .next (takeTrap u c
        { code := 5, param := 0, tile := false, epc := unitPc x, faultpc := unitPc x, faultaddr := area })) ∧
      (table.toNat % 4096 = 0 → area.toNat % 64 = 0 →
        (x.sys.dual = true → exec i s = .next (withCur s (setStatus (y kind) d (msStatus 5 0 0)))) ∧
        (x.sys.dual = false → heldInUse s c + 3 ≤ x.sys.held.toNat →
          ∃ (t : State) (m : MsOp), exec i s = .next t ∧ cur t = markReg (y kind) d (.op s.nextId) ∧ t.agenda = s.agenda ++ [Event.msPacketExecute s.nextId] ∧
            t.ops = s.ops ++ [{ id := s.nextId, core := c, serial := serialOf x, gen := x.sys.tid.toNat % 2 ^ 16, reg := d,
                                upc := unitPc x, held := 3, drawn := 0, body := .ms m }] ∧
            m.kind = kind ∧ m.table = table ∧ m.area = area ∧ m.bags = bags ∧ m.checked = false ∧ m.code = 0 ∧ m.performed = []))
    (Goes x (needs [a, b] [d] (ord := true)) → msBusy s c = false → x.seq = [] →
      starts (.mstopk d a b k) (.topk (k.toNat + 1)) [] ∧
      (∀ w, getTile x tn = some w → w.fmt = .i32 → tileReady u c w false = true →
        starts (.msired d a b tn) .ired (readBags (getCore s c).spad w) ∧
        starts (.msiscat d a b tn) .iscat (readBags (getCore s c).spad w))) ∧
    (∀ (o : Op) (m : MsOp), findOp s o.id = some o → o.body = .ms m → m.stopped = false →
      (∀ e ∈ s.fq, ∀ n, e.what ≠ .row o.id n) →
      let g := msAgent s o m
      let becomes := fun (i : Instr) (q : MsOp) (e : Event) =>
        ∃ t : State, exec i s = .next t ∧ findOp t o.id = some { o with body := .ms q } ∧ t.agenda = s.agenda ++ [e]
      (m.code = 0 → m.checked = false → opReleased s o m.rel 3 = true → msFollows s o = false →
        (∀ n, checkMs s o m = .code n → becomes (.msPacketExecute o.id) { m with code := n } (.msComplete o.id)) ∧
        (∀ q, checkMs s o m = .ok q → becomes (.msPacketExecute o.id) q (.msPacketExecute o.id))) ∧
      (m.code = 0 → m.checked = true → currentPacket m = none →
        exec (.msPacketExecute o.id) s = .next (push s (.msComplete o.id))) ∧
      (∀ n p bs, m.code = 0 → m.checked = true → currentPacket m = some n → openPositions m n = [p] → m.kind = .ired →
        readRowPieces s g (rowPieces m ((msList m).getD p 0).toNat) = .ok bs → bs ≠ [] →
        becomes (.msPacketExecute o.id)
          { m with started := max m.started (n + 1), performed := m.performed ++ [p], got := m.got ++ [(p, bs)] } (.msPacketExecute o.id)) ∧
      (packetsOver m = true →
        (∀ i bs, resultDue m = some i → areaBusy s o m i (4 * m.cols) true = false →
          agentCheck s g (areaRow m i) (4 * m.cols) = .ok bs → resultsMeetTable s g m = false →
          ∃ t : State, exec (.msComplete o.id) s = .next t ∧ findOp t o.id = some { o with body := .ms { m with results := i + 1 } } ∧
            t.agenda = s.agenda ++ [Event.msComplete o.id] ∧ t.lines = (agentPut s g (areaRow m i) (bagRow m i)).lines) ∧
        (∀ bs, resultDue m = none → rangeOk o.core m.area 64 = true →
          (∀ r ∈ localRange o.core m.area 8, engineBusy s o.core r.1 r.2 true o.id = false) → agentCheck s g m.area 8 = .ok bs → Awaits s o →
          ∃ t : State, exec (.msComplete o.id) s = .next t ∧ Told t o (msWord m) ∧
            t.lines = (agentPut s g m.area (leBytes 8 (msWord m).toNat)).lines)))

/-- R413, R417-R421, R557: a collective of a member core joins the next instance of its communicator, which it opens where no
member has joined yet, and marks gd; what the checks refuse is answered with its code. COLBAR needs no descriptor. R412-R416,
R419, R422, R424, R505: an instance starts its data movement when every member has joined with the same operation, and ends
with a code of its own where a member is lost or the operations differ; a chunk starts once its buffer and its leave are
there, writes its bytes, and frees the engine; the end gives every participant the code and the instance's number, and the
chunks sent over the tree as a free value; a communicator with nothing in flight may be rewritten. -/
def Obligations.CollectiveOperations : Prop :=
  (∀ (s : State) (d a b : BitVec 5) (m : BitVec 1),
    let x := cur s
    let c := s.focus
    let u := withCur s (passUnit x)
    let comm := (regVal x a).toNat
    let desc := regVal x b
    let e := getComm s comm
    let members := (commGroup s e).members
    let n := joinCount s comm c + 1
    let joins := fun (i : Instr) (op : ColOp) =>
      ∃ (t : State) (y : Instance), exec i s = .next t ∧ cur t = markReg (setCommit (passUnit x)) d (.op s.nextId) ∧
        t.ops = s.ops ++ [{ id := s.nextId, core := c, serial := serialOf x, gen := x.sys.tid.toNat % 2 ^ 16, reg := d,
                            upc := unitPc x, held := 0, drawn := 0, body := .col { op with inst := n } }] ∧
        t.agenda = s.agenda ++ [Event.collectiveInstanceStart comm n] ∧ joinCount t comm c = n ∧
        findInst t comm n = some y ∧ y.joined = [c] ∧ y.ops = [s.nextId] ∧ y.members = members ∧ y.started = false
    let answers := fun (i : Instr) (code : Nat) =>
      exec i s = .next (withCur s (setStatus (setCommit (passUnit x)) d (colStatus code 0 0)))
    (Goes x (needs [a, b] [d] (ord := true)) → colBusy u c = false → desc.toNat % 64 = 0 →
      (modeRel (unitXmod x) = true → relDone u c (serialOf x) s.nextId 4 = true) →
      (∀ r ∈ localRange c desc 64, localBusy u c r.1 r.2 false = false) →
      ∀ i k exact, (i, k, exact) ∈ [(Instr.colrs d a b m, ColKind.rs, m == 1), (.colar d a b m, .ar, m == 1), (.colag d a b, .ag, false),
          (.colbc d a b, .bc, false)] →
        (x.sys.dual = true → answers i 5) ∧
        (∀ code, x.sys.dual = false → planCol u c k exact (regVal x a) desc = .code code → answers i code) ∧
        (∀ op, x.sys.dual = false → planCol u c k exact (regVal x a) desc = .ok op → colLocalBusy u c op = false → op.comm = comm →
          findInst s comm n = none → partLive s c = true → joins i op)) ∧
    (Goes x (needs [a] [d]) → colBusy u c = false → relDone u c (serialOf x) s.nextId 4 = true → x.sys.dual = false →
      ((16 ≤ comm ∨ e.valid = false ∨ e.nmod = 0 ∨ e.nmod ≤ e.mrank ∨ partOf s c ≠ some e.part ∨ (commGroup s e).valid = false) → answers (.colbar d a) 5) ∧
      (comm < 16 → e.valid = true → e.mrank < e.nmod → partOf s c = some e.part → (commGroup s e).valid = true →
        (memberRank members c = none → answers (.colbar d a) 9) ∧
        (∀ r, memberRank members c = some r → findInst s comm n = none → partLive s c = true →
          joins (.colbar d a) { barCol comm with rank := e.mrank * members.length + r })))) ∧
  (∀ (s : State) (die comm n : Nat) (e : CommEntry),
    (∀ x, findInst s comm n = some x → x.comm = comm → x.inst = n → x.ended = false →
      (x.started = false → x.code = 0 →
        ((∃ c ∈ x.members, lostCore s c = true) →
          ∃ (t : State) (y : Instance), exec (.collectiveInstanceStart comm n) s = .next t ∧ findInst t comm n = some y ∧ y.code = 8 ∧
            t.agenda = s.agenda ++ [Event.collectiveInstanceEnd comm n]) ∧
        (∀ p r, (∀ c ∈ x.members, lostCore s c = false) → (∀ c ∈ x.members, c ∈ x.joined) → earlierOpen s x = false →
          instOps s x = p :: r →
          ((∃ q ∈ r, sameCol p.2 q.2 = false) →
            ∃ (t : State) (y : Instance), exec (.collectiveInstanceStart comm n) s = .next t ∧ findInst t comm n = some y ∧ y.code = 6 ∧ y.started = false) ∧
          (∀ l, (∀ q ∈ r, sameCol p.2 q.2 = true) → spansModules s x = false → readAll s (p :: r) = Sum.inl l →
            ∃ (t : State) (y : Instance), exec (.collectiveInstanceStart comm n) s = .next t ∧ findInst t comm n = some y ∧ y.started = true ∧ y.code = 0 ∧
              t.agenda = s.agenda ++ (p :: r).map (fun q => .chunkStart (dieOf s q.1.core) comm) ∧ t.cores = s.cores))) ∧
      (∀ o op, instOps s x = [(o, op)] → Awaits s o → chunkRuns s x = false → (x.code ≠ 0 ∨ (x.started = true ∧ op.moved = op.total)) →
        ∃ (t : State) (v : Nat), exec (.collectiveInstanceEnd comm n) s = .next t ∧ Told t o (colStatus x.code v n) ∧ (op.next = 0 → v = 0))) ∧
    ((getEngine s die).chunk.isSome = true → exec (.chunkStart die comm) s = .next s) ∧
    (∀ o op x r w units res, (getEngine s die).chunk = none → chosenComm s die = some comm → readyOp s die comm = some (o, op, x) →
      findOp s o.id = some o → reserveChunk (withdrawRequests s die (· != comm)) die comm (nextHop s x o.core) = (r, some res) →
      askLeave r x.part die 6 (.chunk comm) = (true, units, w) →
      ∃ t : State, exec (.chunkStart die comm) s = .next t ∧
        (getEngine t die).chunk = some { op := o.id, idx := op.next, res := res, units := units } ∧ (getEngine t die).served = comm ∧
        findOp t o.id = some { o with body := .col { op with next := op.next + 1 } } ∧ t.agenda = w.agenda ++ [Event.chunkEnd die]) ∧
    (∀ o op x q bs, (getEngine s die).chunk = some q → (getEngine s die).parked = [] → q.op = o.id → findOp s o.id = some o → o.body = .col op →
      findInst s op.comm op.inst = some x →
      let data := chunkData op x q.idx
      let dst := op.dst + BitVec.ofNat 64 (q.idx * 16384)
      data ≠ [] → agentCheck s (colAgent s o op) dst data.length = .ok bs →
      ∃ t : State, exec (.chunkEnd die) s = .next t ∧ (getEngine t die).chunk = none ∧ (getEngine t die).served = (getEngine s die).served ∧
        findOp t o.id = some { o with body := .col { op with moved := op.moved + 1 } } ∧
        t.lines = (agentPut s (colAgent s o op) dst data).lines ∧
        .chunkStart die op.comm ∈ t.agenda ∧ .collectiveInstanceEnd op.comm op.inst ∈ t.agenda) ∧
    ((∃ r ∈ (getEngine s die).taken, r.comm = comm) → exec (.chunkReservationTimeout die comm) s = .next s) ∧
    ((∀ r ∈ (getEngine s die).taken, r.comm ≠ comm) →
      ∃ t : State, exec (.chunkReservationTimeout die comm) s = .next t ∧ (∀ d, (comm, die) ∉ (getEngine t d).pending) ∧
        t.agenda = s.agenda ++ [Event.chunkStart die comm]) ∧
    (((16 ≤ comm ∨ ∃ x ∈ s.instances, x.comm = comm ∧ x.ended = false) → exec (.communicatorWrite comm e) s = .next s) ∧
     (comm < 16 → (∀ x ∈ s.instances, x.comm = comm → x.ended = true) →
       ∃ t : State, exec (.communicatorWrite comm e) s = .next t ∧ getComm t comm = commFields e ∧ (∀ m ≠ comm, getComm t m = getComm s m) ∧
         ∀ c < 4096, joinCount t comm c = 0)))

/-- R45, R46, R48, R54, R56, R550, R551: an idle core of a live partition takes the oldest urgent event that it may take, else
the oldest delivered record of its highest level, else the bottom-most record of that level that it may pop; the activation
starts in space 0x4 at the record's entry with the record's arguments in g1 upward, under a name of its own core. With nothing
to run the core stays idle. An urgent event that arrives is latched, and a running activation at a pre-emption point goes to
the shadow bank for it. -/
def Obligations.Activations : Prop :=
  ∀ (s : State) (c : Nat),
    let k := getCore s c
    let x := k.ctx
    let runs := fun (t : State) (r : WorkRec) (kind : ActKind) =>
      (getCore t c).state = .running ∧ (getCtx t c).pc = BitVec.ofNat 64 (4 * 2 ^ 60 + r.entry.toNat) ∧
        (∀ i v, i < 31 → r.args[i]? = some v → regVal (getCtx t c) (BitVec.ofNat 5 (i + 1)) = v) ∧
        (getCtx t c).sys.sup = false ∧ (getCtx t c).sys.held = 0 ∧
        ∃ w : Activation, (getCtx t c).act = some w ∧ w.record = r ∧ w.kind = kind ∧ w.serial = s.nextId
    let fresh := fun (t : State) => (getCtx t c).sys.tid.toNat / 2 ^ 16 = c % 2 ^ 12
    partLive s c = true → (∀ e ∈ k.urgents, urgentLive s c e.ltag = true) →
    (k.state = .idle →
      (∀ e rest, takeUrgent k k.urgents = some (e, rest) →
        ∃ t : State, exec (.activationChoose c) s = .next t ∧ (getCore t c).urgents = rest ∧ (getCtx t c).sys.urg = true ∧
          (getCtx t c).sys.prio = 3 ∧ runs t (urgentRecord e) .urgent ∧ fresh t) ∧
      (takeUrgent k k.urgents = none →
        (∀ level i r, topLevel s c = some level → oldestAt k level = some (i, r) →
          ∃ t : State, exec (.activationChoose c) s = .next t ∧ runs t r.record r.kind ∧ (getCore t c).aq.getD i .free = .free ∧
            (getCore t c).deque = k.deque ∧ (∀ g, r.gen = some g → (getCtx t c).sys.tid = taskName c g) ∧ (r.gen = none → fresh t)) ∧
        (∀ level e rest, topLevel s c = some level → oldestAt k level = none →
          popFirst (fun e => poppable s c e && e.record.prio == level) k.deque = some (e, rest) →
          ∃ t : State, exec (.activationChoose c) s = .next t ∧ runs t e.record .task ∧ fresh t ∧ (getCore t c).deque = rest ∧
            (getCore t c).aq = k.aq) ∧
        (topLevel s c = none → ∃ t : State, exec (.activationChoose c) s = .next t ∧ t.cores = s.cores))) ∧
    (∀ (m : TaskMsg) (e : UrgentEvent), findMsg s m.id = some m → m.target = c → m.body = .urgent e →
      ((urgentLive s c e.ltag = false ∨ k.state = .killed ∨ 64 ≤ k.urgents.length) →
        ∃ t : State, exec (.urgentEventArrive m.id) s = .next t ∧ t.cores = s.cores ∧ findMsg t m.id = none ∧ t.agenda = s.agenda) ∧
      (urgentLive s c e.ltag = true → k.state ≠ .killed → k.urgents.length < 64 → msgWaits s m = false →
        ∃ t : State, exec (.urgentEventArrive m.id) s = .next t ∧ getCore t c = { k with urgents := k.urgents ++ [e] } ∧
          findMsg t m.id = none ∧
          t.agenda = s.agenda ++ [if k.state = .idle then .activationChoose c else .urgentPreempt c])) ∧
    (∀ e rest, k.state = .running → x.sys.urg = false → takeUrgent k k.urgents = some (e, rest) → preemptible k = true →
      inGang k = false → k.launch = some e.ltag →
      let z := flushAhead x
      ∃ (t : State) (y : Ctx), exec (.urgentPreempt c) s = .next t ∧ runs t (urgentRecord e) .urgent ∧ (getCore t c).susp = some y ∧
        y.pc = unitPc z ∧ y.regs = z.regs ∧ y.act = z.act ∧ y.tiles = z.tiles ∧ y.queues = z.queues ∧ y.acc = z.acc)

/-- R51, R359-R361: an idle core asks the next victim that it does not skip, with its class and the records that it has room
for, and backs off after the last; the victim answers with records that it reserves; the thief keeps them and acknowledges,
which frees the entries at the victim, or lets them stand there again. -/
def Obligations.Stealing : Prop :=
  ∀ (s : State) (c : Nat),
    let k := getCore s c
    (searches s c = true → k.steal.busy = false → k.steal.backoff = false →
      (nextProbe s c 46 k.steal.next = none →
        ∃ t : State, exec (.stealProbe c) s = .next t ∧ getCore t c = { k with steal := { next := 0, busy := false, backoff := true } } ∧
          t.agenda = s.agenda ++ [Event.stealBackoffExpire c]) ∧
      (∀ j, nextProbe s c 46 k.steal.next = some j →
        ∃ (t : State) (m : TaskMsg), exec (.stealProbe c) s = .next t ∧ getCore t c = { k with steal := { next := j + 1, busy := true, backoff := false } } ∧
          t.msgs = s.msgs ++ [m] ∧ m.core = c ∧ m.target = victimOf c j ∧ m.body = .stealReq (classOf c) k.launch (64 - k.deque.length) ∧
          t.agenda = s.agenda ++ [Event.stealRequestServe m.id])) ∧
    (k.steal.backoff = true →
      ∃ t : State, exec (.stealBackoffExpire c) s = .next t ∧ getCore t c = { k with steal := { next := 0, busy := false, backoff := false } }) ∧
    (∀ (m : TaskMsg), findMsg s m.id = some m →
      let v := getCore s m.target
      (∀ cls ltag f, m.body = .stealReq cls ltag f →
        ∃ (t : State) (q : TaskMsg), exec (.stealRequestServe m.id) s = .next t ∧ q.target = m.core ∧ q.core = m.target ∧
          t.msgs = s.msgs.filter (fun e => e.id != m.id) ++ [q] ∧ t.agenda = s.agenda ++ [Event.stealReplyArrive q.id] ∧
          (getCore t m.target).deque.map (·.record) = v.deque.map (·.record) ∧
          (∃ rs, q.body = .stealReply rs ∧ rs.length ≤ f ∧ (∀ r ∈ rs, r ∈ v.deque.map (·.record)) ∧
            (serves s m.target m.core m.egen ltag = false → rs = []))) ∧
      (m.body = .stealReply [] →
        ∃ t : State, exec (.stealReplyArrive m.id) s = .next t ∧ (getCore t m.target).steal.busy = false ∧
          t.agenda = s.agenda ++ [Event.stealProbe m.target]) ∧
      (∀ r rs, m.body = .stealReply (r :: rs) →
        (keepsReply s m.target m.core m.egen (r :: rs) = true →
          ∃ t : State, exec (.stealReplyArrive m.id) s = .next t ∧ (getCore t m.target).steal.busy = false ∧
            (getCore t m.target).deque.map (·.record) = (if v.launch = none then [] else v.deque.map (·.record)) ++ (r :: rs).reverse ∧
            (getCore t m.target).launch = some ((getCore s m.core).launch.getD 0) ∧
            ∃ q : TaskMsg, t.msgs = s.msgs.filter (fun e => e.id != m.id) ++ [q] ∧ q.target = m.core ∧ q.body = .stealAck m.id) ∧
        (keepsReply s m.target m.core m.egen (r :: rs) = false →
          exec (.stealReplyArrive m.id) s = .next (push s (.stealReplyReturn m.id))) ∧
        (∃ t : State, exec (.stealReplyReturn m.id) s = .next t ∧ findMsg t m.id = none ∧ (getCore t m.target).steal.busy = false ∧
          (getCore t m.core).deque = (getCore s m.core).deque.map (fun e =>
            if e.reserved = some m.id then { e with reserved := none } else e) ∧
          t.agenda = s.agenda ++ [Event.activationChoose m.core, Event.stealProbe m.target])) ∧
      (∀ n, m.body = .stealAck n →
        ∃ t : State, exec (.stealAckArrive m.id) s = .next t ∧ findMsg t m.id = none ∧
          (getCore t m.target).deque = v.deque.filter (fun e => e.reserved != some n)))

/-- R51, R53, R362, R555, R556: a die reports its unbound idle cores by partition and class; a root record goes to the die
with the largest count and there to the lowest-numbered core that fits, which becomes bound to the launch with the record
delivered, or it returns to the distributor; a dual record goes to two cores that fit, one copy each, under a fresh pair.
R365-R367, R389: an idle root starts a wave; a core asks its children one by one and answers its parent with the combined
word; when the word reaches the root the launch completes where nothing is active, as many activations have ended as were
created, and the last wave said the same; otherwise another wave starts. -/
def Obligations.DistributorAndWaves : Prop :=
  (∀ (s : State),
    (∀ die, (24 ≤ die → exec (.dieResourceReport die) s = .next s) ∧
      (die < 24 →
        ∃ t : State, exec (.dieResourceReport die) s = .next t ∧ t.cores = s.cores ∧
          (∀ d ≠ die, tabGet [] t.dieReports d = tabGet [] s.dieReports d) ∧
          ∀ p < 8, reported t die p 0 = ((idleOn s die).filter (holdsCore (getPart s p))).countP
            (fun c => classOf c == 1 || classOf c == 2))) ∧
    (∀ w, s.rootWaits.find? (fun v => v.ltag == w.ltag) = some w →
      (∀ die, (getPart s w.part).state = .live → bestDie s w.part w.record.cls = some die →
        ∃ (t : State) (m : TaskMsg), exec (.rootPlace w.ltag) s = .next t ∧ t.rootWaits = s.rootWaits.filter (fun v => v.id != w.id) ∧
          t.msgs = s.msgs ++ [m] ∧ m.target = die ∧ m.body = .root w.record w.restart ∧
          t.agenda = s.agenda ++ [Event.rootRecordArrive m.id]) ∧
      (((getPart s w.part).state ≠ .live ∨ bestDie s w.part w.record.cls = none) →
        ∃ t : State, exec (.rootPlace w.ltag) s = .next t ∧ t.rootWaits = s.rootWaits ∧ t.msgs = s.msgs ∧ .rootPlace w.ltag ∈ t.agenda)) ∧
    (∀ (m : TaskMsg) r restart l, findMsg s m.id = some m → m.body = .root r restart → findLaunch s r.ltag = some l →
      let fits := fun c => holdsCore (getPart s l.part) c = true ∧ (getPart s l.part).state = .live ∧ mayRun c r.cls = true ∧
        (freeAq (getCore s c)).isSome = true
      (∀ pre c post, idleOn s m.target = pre ++ c :: post → (∀ e ∈ pre, ¬ fits e) → fits c →
        ∃ (t : State) (i : Nat), ∃ w, exec (.rootRecordArrive m.id) s = .next t ∧ (getCore t c).launch = some r.ltag ∧
          (getCore t c).aq.getD i .free = .delivered w ∧ w.record = r ∧ w.restart = restart ∧ w.kind = .task ∧
          findMsg t m.id = none ∧ .activationChoose c ∈ t.agenda) ∧
      ((∀ c ∈ idleOn s m.target, ¬ fits c) →
        ∃ (t : State) (w : RootWait), exec (.rootRecordArrive m.id) s = .next t ∧ t.rootWaits = s.rootWaits ++ [w] ∧ w.record = r ∧ w.restart = restart ∧
          t.cores = s.cores)) ∧
    (∀ w, s.dualWaits.find? (fun v => v.id == w.id) = some w → relDone s w.core w.after.1 w.after.2 3 = true →
      (pairCores s w.part w.record = none → exec (.dualPairPlace w.id) s = .next (push s (.dualPairPlace w.id))) ∧
      (∀ a b, pairCores s w.part w.record = some (a, b) →
        ∃ (t : State) (p : DualPair), exec (.dualPairPlace w.id) s = .next t ∧ t.dualWaits = s.dualWaits.filter (fun v => v.id != w.id) ∧
          t.pairs = s.pairs ++ [p] ∧ p.cores = [a, b] ∧ p.record = w.record ∧ p.ended = [] ∧
          ∀ q ∈ [(a, 0), (b, 1)], (getCore t q.1).launch = some w.record.ltag ∧
            ∃ i e, (getCore t q.1).aq.getD i .free = .delivered e ∧ e.record = w.record ∧ e.pair = some (p.pair, q.2)))) ∧
  (∀ (s : State) (l : Launch) (r : Nat), findLaunch s l.ltag = some l → l.root = some r →
    (l.wave = none → rootIdle s r = true → partLive s r = true →
      exec (.waveStart l.ltag) s = .next (push (putLaunch s { l with wave := some [] }) (.waveAnswer r))) ∧
    ((l.wave.isSome = true ∨ rootIdle s r = false) → exec (.waveStart l.ltag) s = .next s) ∧
    (∀ c ans, (getCore s c).launch = some l.ltag → l.wave = some ans → (∀ p ∈ ans, p.1 ≠ c) → waveHeld s c = false →
      let children := waveChildren s l.ltag r c
      let word := ((ans.filter (fun p => children.contains p.1)).map (·.2)).foldl joinWords (ownWord s l.ltag c)
      (∀ pre d post, children = pre ++ d :: post → (∀ e ∈ pre, ∃ p ∈ ans, p.1 = e) → (∀ p ∈ ans, p.1 ≠ d) →
        exec (.waveAnswer c) s = .next (push s (.waveAnswer d))) ∧
      ((∀ d ∈ children, ∃ p ∈ ans, p.1 = d) →
        (c ≠ r → exec (.waveAnswer c) s =
          .next (push (putLaunch s { l with wave := some (ans ++ [(c, word)]) }) (.waveAnswer (waveParent s r c)))) ∧
        (c = r → (word.act = true ∨ word.created ≠ word.ended ∨ l.last ≠ some word) → exec (.waveAnswer c) s =
          .next (push (putLaunch s { l with wave := none, last := some word }) (.waveStart l.ltag))) ∧
        (c = r → word.act = false → word.created = word.ended → l.last = some word → launchSettled s l.ltag = true →
          ∃ t : State, exec (.waveAnswer c) s = .next t ∧ findLaunch t l.ltag = none ∧
            (∀ d, (getCore s d).launch = some l.ltag → (getCore t d).launch = none) ∧
            ∀ p, findPacket s l.packet.1 l.packet.2 = some p → p.completed = false → pktCmpl p = true →
              ∃ q : Packet, findPacket t l.packet.1 l.packet.2 = some q ∧ q.completed = true ∧
                q.status = (if errBits word = 0 then 0 else 1) ∧ q.detail = errBits word))))

/-- R337, R376-R381, R397-R399, R578: a doorbell latches the new TAIL, after the writes of its connection that still wait; one
with other bits set is counted; the fetch reads the next slot of the ring, advances HEAD and hands the packet on, and an
overrun puts the queue in error; a commit takes effect at a boundary, resetting HEAD and TAIL where the geometry, the
partition or the context changes, the queue is enabled or it stands in error. -/
def Obligations.HostQueues : Prop :=
  ∀ (s : State) (conn q : Nat) (value : Word) (copyB : Bool) (blk : QueueBlock) (mode : BitVec 6), q < 65536 →
    let h := getHq s q
    let waits := fun (i : HostItem) => match i with | .write c _ _ _ => c = conn | .bell c _ _ => c = conn
    ((∃ i ∈ s.hostWaits, waits i) → exec (.doorbell ⟨conn, q⟩ value) s = .next { s with hostWaits := s.hostWaits ++ [.bell conn q value] }) ∧
    ((∀ i ∈ s.hostWaits, ¬ waits i) →
      (2 ^ 32 ≤ value.toNat → exec (.doorbell ⟨conn, q⟩ value) s = .next (count s .doorbells 1)) ∧
      (value.toNat < 2 ^ 32 →
        ∃ t : State, exec (.doorbell ⟨conn, q⟩ value) s = .next t ∧ getHq t q = { h with latch := some (value.setWidth 32) } ∧ t.cores = s.cores ∧
          (∀ b, queueBlock s q = some b → t.agenda = s.agenda ++ [Event.packetFetch q] ∧
            ((getPart s b.part).state = .gated → (getPart t b.part).waking = true)))) ∧
    ((queueBlock s q = none ∨ h.pendingCommit = true) → exec (.packetFetch q) s = .next s) ∧
    (∀ b, queueBlock s q = some b →
      (fetchHeld s b = true → exec (.packetFetch q) s = .next s) ∧
      (fetchHeld s b = false → h.pendingCommit = false → h.shadowDue = false →
        (∀ v, h.latch = some v → h.error = 0 → 2 ^ b.logn < (v - h.head).toNat →
          ∃ (t : State) (due : Bool), exec (.packetFetch q) s = .next t ∧ getHq t q = { h with latch := none, tail := v, error := 1, shadowDue := due }) ∧
        (∀ bs, h.latch = none → h.error = 0 → h.head ≠ h.tail → h.passOver = 0 →
          agentRead s (queueAgent b) (virtWord (b.rbase + 64 * (h.fetched % 2 ^ b.logn))) 64 = .ok bs →
          let p := newPacket (h.epoch * 2 ^ 64 + h.fetched) b bs
          ∃ (t : State) (due : Bool), exec (.packetFetch q) s = .next t ∧
            getHq t q = { h with head := h.head + 1, fetched := h.fetched + 1, packets := h.packets ++ [p], shadowDue := due } ∧
            t.agenda = s.agenda ++ [packetEvent q p, Event.packetFetch q]))) ∧
    (∃ t : State, exec (.queueCommit q copyB blk value) s = .next t ∧ t.agenda = s.agenda ++ [Event.commitTakeEffect q] ∧
      getHq t q = (if copyB then { h with blkB := blockFields blk, commit := value, pendingCommit := true }
        else { h with blkA := blockFields blk, commit := value, pendingCommit := true })) ∧
    (h.pendingCommit = false → exec (.commitTakeEffect q) s = .next s) ∧
    (h.pendingCommit = true →
      ∃ t : State, exec (.commitTakeEffect q) s = .next t ∧ t.agenda = s.agenda ++ [Event.packetFetch q] ∧
        getHq t q = (if commitResets h (committed h)
          then { h with force := committed h, pendingCommit := false, head := 0, epoch := h.epoch + 1, fetched := 0, shadowDue := false,
                        tail := 0, error := 0, passOver := 0 }
          else { h with force := committed h, pendingCommit := false })) ∧
    (s.feSaved = none → ∃ t : State, exec (.frontEndModeWrite mode) s = .next t ∧ t.feMode = mode)

/-- R382-R390: a packet in its turn whose header is well formed starts and has the effect of its operation, and ends with its
status: a LAUNCH takes a tag, its groups and its root record go out, or it is refused with the reason; a COPY moves its bytes;
a KPUT sends its tuple; a SIGNAL changes its word; a FENCE counts the failures before it; a WAITCOND tests, tests again, or
passes packets over. A malformed packet ends with BADPKT. R390: a completion record, once every write that happens before it
is visible (R322), is written with its packet's number, tag word, status and detail into a slot whose V bit is clear, and the
packet retires; while the slot still holds a record it waits. -/
def Obligations.PacketOperations : Prop :=
  (∀ (s : State) (q n : Nat) (p : Packet) (b : QueueBlock), findPacket s q n = some p → p.n = n → p.completed = false →
    let g := queueAgent b
    let d := dataAgent b
    let h := getHq s q
    let recorded := fun (t : State) (status detail : Nat) =>
      ∃ e : Packet, findPacket t q n = some e ∧ e.completed = true ∧ e.written = false ∧ e.status = status ∧ e.detail = detail
    let ended := fun (t : State) (status detail : Nat) =>
      (pktCmpl p = true → recorded t status detail) ∧ (pktCmpl p = false → findPacket t q n = none)
    (headerOk p = false → packetTurn s q n 1 false = .go p b → p.ltag = 0 →
      ∃ t : State, exec (.launchPacket q n) s = .next t ∧ recorded t 3 0 ∧ t.launches = s.launches) ∧
    (headerOk p = true →
    (packetTurn s q n 1 false = .go p b → p.ltag = 0 →
      (launchFormOk p = false → ∃ t : State, exec (.launchPacket q n) s = .next t ∧ recorded t 3 0 ∧ t.launches = s.launches) ∧
      (launchFormOk p = true →
        (fld (pktWord p 8).toNat 48 3 ≠ b.part →
          ∃ t : State, exec (.launchPacket q n) s = .next t ∧ ended t 2 6 ∧ t.launches = s.launches) ∧
        (∀ d, fld (pktWord p 8).toNat 48 3 = b.part → readLaunch s g (pktWord p 16) = .inl d →
          (∀ code, launchRefusal s b.part d = some code →
            ∃ t : State, exec (.launchPacket q n) s = .next t ∧ ended t 2 code ∧ t.launches = s.launches) ∧
          (∀ tag, launchRefusal s b.part d = none → findTag s 65535 (nextTag s.lastLtag) = some tag →
            ∃ (t : State) (l : Launch), exec (.launchPacket q n) s = .next t ∧ t.launches = s.launches ++ [l] ∧ l.ltag = tag ∧ l.part = b.part ∧
              l.regions = d.regions ∧ l.root = none ∧ l.packet = (q, n) ∧ l.seed = (pktWord p 24).setWidth 32 ∧ t.lastLtag = tag ∧
              (if (launchRecord p tag).dual
                then ∃ w : DualWait, t.dualWaits = s.dualWaits ++ [w] ∧ w.record = launchRecord p tag ∧ w.part = b.part
                else ∃ w : RootWait, t.rootWaits = s.rootWaits ++ [w] ∧ w.record = launchRecord p tag ∧ w.part = b.part))))) ∧
    (packetTurn s q n 2 true = .go p b → packetParked s q n = false →
      let src := pktWord p 8
      let dst := pktWord p 16
      let len := (pktWord p 24).toNat
      0 < len → len ≤ 2 ^ 32 → copySpace src = true → copySpace dst = true → zeroFrom p 32 = true →
      let u := agentTouch s d src len
      (p.started = false → exec (.copyPacket q n) s = .next (push (startPacket s q n) (.copyPacket q n))) ∧
      (p.started = true →
        (∀ bs cs, agentRead s d src len = .ok bs → agentCheck s d dst len = .ok cs →
          placesMeet (agentPlaces u d src bs.length) (agentPlaces u d dst bs.length) = false →
          ∃ t : State, exec (.copyPacket q n) s = .next t ∧ ended t 0 0 ∧ t.lines = (agentPut u d dst bs).lines ∧
            ∀ c, (getCore t c).spad = (getCore (agentPut u d dst bs) c).spad) ∧
        (∀ k a, k ≠ 0 → agentRead s d src len = .fail k a → ∃ t : State, exec (.copyPacket q n) s = .next t ∧ ended t 6 1) ∧
        (∀ bs a, agentRead s d src len = .ok bs → agentCheck s d dst len = .fail 0 a →
          (s.fq.filter (fun e => e.port == agentPort d a)).length < 64 →
          ∃ t : State, exec (.copyPacket q n) s = .next t ∧ t.fq = s.fq ++ [{ port := agentPort d a, what := .packet q n, own := true }] ∧
            t.lines = s.lines))) ∧
    (packetTurn s q n 3 true = .go p b → p.issued = false →
      let len := (pktWord p 48).toNat
      len ≤ 2 ^ 20 → virtRange (pktWord p 40) 1 = true → zeroFrom p 56 = true → 0 < len →
      (p.started = false → exec (.kputPacket q n) s = .next (push (startPacket s q n) (.kputPacket q n))) ∧
      (p.started = true → ∀ bs, agentRead s g (pktWord p 40) len = .ok bs →
        ∃ (t : State) (r : KeyReq), exec (.kputPacket q n) s = .next t ∧ t.keyReqs = s.keyReqs ++ [r] ∧ r.issuer = .packet q n ∧
          r.ask = .put (packetKey p) 0 bs ∧ r.ctx = b.ctxid ∧ ∃ e : Packet, findPacket t q n = some e ∧ e.issued = true)) ∧
    (packetTurn s q n 4 true = .go p b →
      let a := pktWord p 8
      let v := (pktWord p 16).toNat
      let op := (pktWord p 24).toNat
      a.toNat % 8 = 0 → virtRange a 8 = true → op ≤ 1 → zeroFrom p 32 = true →
      (p.started = false → exec (.signalPacket q n) s = .next (push (startPacket s q n) (.signalPacket q n))) ∧
      (p.started = true → ∀ u bs,
        agentAtom s (if op = 1 then d else g) a 8 (fun old => if op = 1 then (old + v) % 2 ^ 64 else v) = (u, .ok bs) →
        ∃ t : State, exec (.signalPacket q n) s = .next t ∧ ended t 0 0 ∧ t.lines = u.lines ∧ t.remote = u.remote ∧ t.cores = s.cores)) ∧
    (packetTurn s q n 5 true = .go p b → zeroFrom p 8 = true →
      let old := fun (k : Nat) => pktEpoch k == pktEpoch n && decide (k < n)
      ((∃ e ∈ packetsBefore h n, e.completed = false) →
        exec (.fencePacket q n) s = .next (push (startPacket s q n) (.fencePacket q n))) ∧
      ((∀ e ∈ packetsBefore h n, e.completed = true) →
        ∃ t : State, exec (.fencePacket q n) s = .next t ∧ recorded t 0 (min 255 (h.failed.countP old)) ∧
          (getHq t q).failed = h.failed.filter (fun k => !old k))) ∧
    (packetTurn s q n 6 true = .go p b → functionHeld s 2 = false →
      let c := (pktWord p 24).toNat
      let holds := fun bs => condHolds (fld c 0 3) (BitVec.ofNat 64 (leNat bs)) (pktWord p 16)
      (p.tests = 0 → waitFormOk p = false → ∃ t : State, exec (.waitcondPacket q n) s = .next t ∧ recorded t 3 0) ∧
      (p.tests = 0 → waitFormOk p = true → p.started = false →
        exec (.waitcondPacket q n) s = .next (push (startPacket s q n) (.waitcondPacket q n))) ∧
      (∀ i bs, (i = .waitcondPacket q n ∧ p.tests = 0 ∧ waitFormOk p = true ∧ p.started = true) ∨
          (i = .waitcondRetest q n ∧ p.tests ≠ 0) →
        agentRead s g (pktWord p 8) 8 = .ok bs →
        (fld c 4 2 ≠ 2 → holds bs ≠ (fld c 4 2 == 1) →
          ∃ t : State, exec i s = .next t ∧ ended t 0 0 ∧ (getHq t q).passOver = h.passOver) ∧
        (fld c 4 2 ≠ 2 → holds bs = (fld c 4 2 == 1) → (∀ e ∈ h.packets, e.n ≠ n → e.started = true) → pktEpoch n = h.epoch →
          ∃ t : State, exec i s = .next t ∧ ended t 0 0 ∧ (getHq t q).passOver = h.passOver + fld c 8 8) ∧
        (fld c 4 2 = 2 → holds bs = true → ∃ t : State, exec i s = .next t ∧ ended t 0 0) ∧
        (fld c 4 2 = 2 → holds bs = false →
          (fld c 24 16 ≠ 0 → p.tests + 1 = fld c 24 16 → (∀ e ∈ h.packets, e.n ≠ n → e.started = true) → pktEpoch n = h.epoch →
            ∃ t : State, exec i s = .next t ∧ ended t 5 0 ∧ (getHq t q).passOver = h.passOver + fld c 8 8) ∧
          ((fld c 24 16 = 0 ∨ p.tests + 1 ≠ fld c 24 16) →
            ∃ (t : State) (e : Packet), exec i s = .next t ∧ t.agenda = s.agenda ++ [Event.waitcondRetest q n] ∧
              findPacket t q n = some e ∧ e.tests = p.tests + 1 ∧ e.started = p.started ∧ e.completed = false)))))) ∧
  (∀ (s : State) (q n : Nat) (p : Packet) (old cs : List Byte), findPacket s q n = some p → p.n = n → p.completed = true →
    p.written = false → functionHeld s 5 = false → carriedReady s noCore 4 p.moment = true →
    let g := queueAgent p.blk
    let a := virtWord (p.blk.cbase + 16 * (pktNumber n % 2 ^ p.blk.logn))
    agentRead s g a 16 = .ok old → agentCheck s g a 16 = .ok cs →
    (leNat (old.take 8) / 2 ^ 63 ≠ 1 → (∀ e ∈ (getHq s q).packets, e.n = n → e = p) →
      ∃ t : State, exec (.completionRecordWrite q n) s = .next t ∧ findPacket t q n = none ∧ t.lines = (agentPut s g a
        (leBytes 8 (2 ^ 63 + pktNumber n % 2 ^ 63) ++
          leBytes 8 (fld (pktHeader p) 16 16 + p.status * 2 ^ 16 + p.detail % 256 * 2 ^ 24))).lines) ∧
    (leNat (old.take 8) / 2 ^ 63 = 1 → exec (.completionRecordWrite q n) s = .next (push s (.completionRecordWrite q n))))

/-- R392: the classifier takes the first of entries 0 to 1023 in ascending order that is valid and matches, and sends the
frame to that entry's ingress queue, whose next frame it is; a frame that matches no entry is dropped and counted at its port. -/
def Obligations.Classifier : Prop :=
  ∀ (s : State) (port : Nat) (ts : BitVec 80) (bytes : List Byte), frontFailed s = false → functionHeld s 3 = false →
    frameWaiting s port ts bytes = none →
    let hits := fun (j : Nat) => ∃ e, getClass s j = some e ∧ classMatches e port bytes = true
    ((∀ j < 1024, ¬ hits j) → exec (.frameReceive port true ts bytes) s = .next (count s (.portDrops port) 1)) ∧
    (∀ (i : Nat) (e : ClassEntry), i < 1024 → getClass s i = some e → classMatches e port bytes = true → (∀ j < i, ¬ hits j) →
      let q := e.queue % 4096
      e.valid = true ∧ classify s port bytes = some (i, q) ∧
        ∀ d, (getIngress s q).desc = some d →
          ∃ t : State, exec (.frameReceive port true ts bytes) s = .next t ∧
            (getIngress t q).seq = (getIngress s q).seq + 1 ∧ ∀ o, o ≠ q → getIngress t o = getIngress s o)

/-- R391-R396, R399, R337: a frame with a bad check sequence, or of no queue, is counted at its port; a frame of a queue takes
the queue's next sequence number and is written into its slot behind the descriptor, or dropped and counted where the ring has
no room, or deposited as a tuple; one that meets a held page of its ring waits, and the later frames of its queue behind it;
while the host classifies, frames wait; and a host's write lands whole where its page permits it, behind the earlier writes of
its connection, and nowhere else. -/
def Obligations.FramesAndHosts : Prop :=
  ∀ (s : State) (port conn ctx : Nat) (fcsOk : Bool) (ts : BitVec 80) (bytes : List Byte) (va : Word),
    let received := exec (.frameReceive port fcsOk ts bytes) s
    (fcsOk = false ∨ (frontFailed s = true ∧ frameWaiting s port ts bytes = none) → received = .next (count s (.portDrops port) 1)) ∧
    (∀ f, fcsOk = true → frontFailed s = false → functionHeld s 3 = false → frameWaiting s port ts bytes = some f →
      ∀ d, (getIngress s f.queue).desc = some d →
        (writeFrame s d f = none → received = .next (push s (.frameReceive f.port true f.ts f.bytes))) ∧
        (∀ u, writeFrame s d f = some u →
          ∃ t : State, received = .next t ∧ (getIngress t f.queue).waits = (getIngress s f.queue).waits.tail ∧ t.lines = u.lines ∧
            t.keyReqs = u.keyReqs)) ∧
    (fcsOk = true → frontFailed s = false → frameWaiting s port ts bytes = none →
      (functionHeld s 3 = true → portHeld s port + bytes.length ≤ portBuffer →
        ∃ t : State, received = .next t ∧ t.portFrames = s.portFrames ++ [{ port := port, ts := ts, bytes := bytes }] ∧
          SameMem s t ∧ t.ingress = s.ingress) ∧
      (functionHeld s 3 = true → portBuffer < portHeld s port + bytes.length → received = .next (count s (.portDrops port) 1)) ∧
      (functionHeld s 3 = false →
        (classify s port bytes = none → received = .next (count s (.portDrops port) 1)) ∧
        (∀ i q, classify s port bytes = some (i, q) →
          ((getIngress s q).desc = none → received = .next (count s (.portDrops port) 1)) ∧
          (∀ d, (getIngress s q).desc = some d →
            let v := getIngress s q
            let u := setIngress s q { v with seq := v.seq + 1 }
            let g := ingressAgent d
            let f : Framed := { port := port, ts := ts, bytes := bytes, entry := i, queue := q, seq := v.seq.toNat }
            let slot := d.base + f.seq % 2 ^ d.logn * d.slotBytes
            (v.waits ≠ [] →
              ∃ t : State, received = .next t ∧ getIngress t q = { v with seq := v.seq + 1, waits := v.waits ++ [f] } ∧ t.agenda = s.agenda ∧
                SameMem s t) ∧
            (d.mode = .tuple → v.waits = [] → received = .next (tupleFrame u d f)) ∧
            (d.mode = .ring → v.waits = [] → agentRead u g (virtWord d.cons) 8 = .wait →
              ∃ t : State, received = .next t ∧ getIngress t q = { v with seq := v.seq + 1, waits := [f] } ∧
                t.agenda = s.agenda ++ [Event.frameReceive port true ts bytes] ∧ SameMem s t) ∧
            (∀ cons ok, d.mode = .ring → v.waits = [] → v.lossy = false → agentRead u g (virtWord d.cons) 8 = .ok cons →
              (leNat cons + 2 ^ d.logn ≤ f.seq → received = .next (count u (.queueDrops q) 1)) ∧
              (d.slotBytes < 64 + bytes.length → 64 ≤ d.slotBytes → received = .next (count u (.queueDrops q) 1)) ∧
              (f.seq < leNat cons + 2 ^ d.logn → 64 + bytes.length ≤ d.slotBytes → d.urgent = none →
                agentCheck u g (virtWord slot) (64 + bytes.length) = .ok ok →
                ∃ t : State, received = .next t ∧ getIngress t q = { v with seq := v.seq + 1 } ∧
                  t.lines = (agentPut u g (virtWord slot) (slotBytesOf u f ++ bytes)).lines ∧
                  t.hbm = (agentPut u g (virtWord slot) (slotBytesOf u f ++ bytes)).hbm ∧
                  (slotBytesOf u f).length = 64 ∧ (slotBytesOf u f).take 10 = leBytes 10 ts.toNat ∧
                  ((slotBytesOf u f).drop 12).take 2 = leBytes 2 bytes.length ∧ (slotBytesOf u f).drop 56 = leBytes 8 f.seq)))))) ∧
    (∀ i, s.hostWaits.find? (fun i => itemConn i == conn) = some i → i ≠ .write conn ctx va bytes →
      exec (.hostRdmaWrite conn ctx va bytes) s = .next { s with hostWaits := s.hostWaits ++ [.write conn ctx va bytes] }) ∧
    ((∀ i ∈ s.hostWaits, itemConn i ≠ conn) →
      (virtRange va bytes.length = false → exec (.hostRdmaWrite conn ctx va bytes) s = .next s) ∧
      (virtRange va bytes.length = true →
        (∀ k w, agentCheck s (unitAgent none ctx false) va bytes.length = .fail k w →
          exec (.hostRdmaWrite conn ctx va bytes) s = .next s) ∧
        (∀ ok, agentCheck s (unitAgent none ctx false) va bytes.length = .ok ok →
          exec (.hostRdmaWrite conn ctx va bytes) s = .next (agentPut s (unitAgent none ctx false) va bytes)))) ∧
    (s.hostWaits = [.write conn ctx va bytes] → Event.hostRdmaWrite conn ctx va bytes ∈ s.agenda →
      exec (.hostRdmaWrite conn ctx va bytes) s = .next { s with hostWaits := s.hostWaits ++ [.write conn ctx va bytes] }) ∧
    (∀ ok, s.hostWaits = [.write conn ctx va bytes] → Event.hostRdmaWrite conn ctx va bytes ∉ s.agenda → virtRange va bytes.length = true →
      agentCheck s (unitAgent none ctx false) va bytes.length = .ok ok →
      exec (.hostRdmaWrite conn ctx va bytes) s = .next { agentPut s (unitAgent none ctx false) va bytes with hostWaits := [] })

/-- R404, R405: a packet held by a deadlock sends its flow to the escape channel, which its router counts, with nothing
changed in what the flow carries, and an empty flow returns; a packet that belongs to no flow goes there alone. R268, R385,
R396, R435, R437, R447: what a dead link carried is reported LOST: an access, a message or a request whose effect had not
happened, and a packet; a re-deposit goes again. -/
def Obligations.FlowsAndLinks : Prop :=
  ∀ (s : State) (n router : Nat),
    (∀ f, flowOf s n = some f → f ∉ s.escaped →
      ∃ t : State, exec (.vcDeadlockTimeout ⟨router, n⟩) s = .next t ∧ t.escaped = s.escaped ++ [f] ∧ t.agenda = s.agenda ++ [Event.flowAck (flowNo f)] ∧
        counterVal t (.escapes router) = Nat.min (counterVal s (.escapes router) + 1) (2 ^ 32 - 1) ∧
        t.accs = s.accs ∧ t.msgs = s.msgs ∧ t.keyReqs = s.keyReqs ∧ t.cmbMsgs = s.cmbMsgs ∧ t.cores = s.cores) ∧
    (flowOf s n = none → looseNo s n = true → channelOf s n ≠ .esc →
      ∃ t : State, exec (.vcDeadlockTimeout ⟨router, n⟩) s = .next t ∧ channelOf t n = .esc ∧ t.escaped = s.escaped ∧
        counterVal t (.escapes router) = Nat.min (counterVal s (.escapes router) + 1) (2 ^ 32 - 1) ∧ t.agenda = s.agenda ∧
        t.msgs = s.msgs ∧ t.ops = s.ops ∧ t.deliveries = s.deliveries ∧ t.cores = s.cores) ∧
    (flowOf s n = none → looseNo s n = false → exec (.vcDeadlockTimeout ⟨router, n⟩) s = .next s) ∧
    (∀ f, s.escaped.find? (fun e => flowNo e == n) = some f →
      (flowOpen s f = true → exec (.flowAck n) s = .next (push s (.flowAck n))) ∧
      (flowOpen s f = false → exec (.flowAck n) s = .next { s with escaped := s.escaped.filter (fun e => e != f) })) ∧
    (∀ a, findAcc s n = some a →
      (accMoves a = true → exec (.linkDeath (.item n)) s = .next (failAcc s a 3 a.addr)) ∧
      (accMoves a = false → exec (.linkDeath (.item n)) s = .next s)) ∧
    (findAcc s n = none →
      (∀ m o, findMsg s n = some m → m.op = o.id → Awaits s o → o.body = .task → m.tag = none → m.twin = none →
        (∀ r, m.body = .callat r → ∃ t : State, exec (.linkDeath (.item n)) s = .next t ∧ Told t o (taskStatus 4) ∧ findMsg t m.id = none) ∧
        (∀ r, m.body = .rndclose r → ∃ t : State, exec (.linkDeath (.item n)) s = .next t ∧ Told t o (barStatus 3 0) ∧ findMsg t m.id = none)) ∧
      (findMsg s n = none →
        (∀ r, findReq s n = some r →
          (∀ x, r.ask = .redeposit x → exec (.linkDeath (.item n)) s = .next s) ∧
          (r.tag = none → (∀ x, r.ask ≠ .redeposit x) → (∀ x g, r.ask ≠ .copy x g) →
            exec (.linkDeath (.item n)) s = .next (settleReq (dropReq s r.id) r r.home 7 (keyStatus 7 false false false r.forwarded 0)))) ∧
        (∀ m o, findReq s n = none → s.deliveries.find? (fun d => d.id == n) = none → findCmb s n = some m → m.op = o.id →
          Awaits s o → o.body = .cmb →
          ∃ t : State, exec (.linkDeath (.item n)) s = .next t ∧ Told t o (cmbStatus 3 0 0 0 0) ∧ findCmb t n = none))) ∧
    (∀ q k p, findPacket s q k = some p → p.completed = false → headerOk p = true → fld (pktHeader p) 0 8 = 2 → p.started = true →
      packetParked s q k = false → pktCmpl p = true →
      ∃ (t : State) (e : Packet), exec (.linkDeath (.packet q k)) s = .next t ∧ findPacket t q k = some e ∧ e.completed = true ∧ e.status = 6 ∧ e.detail = 3) ∧
    (∀ iq, ∃ t : State, exec (.linkDeath (.ingress iq)) s = .next t ∧ getIngress t iq = { getIngress s iq with lossy := true })

/-- R570-R576, R579: from power on, every block is held and the Foremans' images are checked first; an image that passes every
check is measured and unlocks its block, and no other image ever runs; the next stage starts when the one before has settled;
two missed heartbeats reset a block; a replacement takes over at a quiet point; the lowest version only rises, and only on a
signed request; and a report carries the nonce and every measurement under the device's signature. -/
def Obligations.BringUp : Prop :=
  ∀ (s : State) (b : FwBlock) (img : Image) (flash : List FlashImage) (target svn : Nat) (nonce : BitVec 256) (f : FwState),
    (∃ t : State, exec (.powerOn flash) s = .next t ∧ t.minSvn = s.minSvn ∧ t.remote = s.remote ∧ t.flash = flash ∧
      (∀ p ∈ t.firmware, p.state = .held ∨ p.state = .failed) ∧ (∀ c, (getCore t c).state = .reset) ∧
      (∀ d i, d < 24 → flashImage t (.foreman d) = some i → Event.imageVerify (.foreman d) i ∈ t.agenda)) ∧
    (acceptsImage s b img = true ↔
      img.magic = imageMagic ∧ img.target = fwTarget b ∧ img.digestOk = true ∧ img.sigOk = true ∧
        tabGet 0 s.minSvn (fwTarget b) ≤ img.svn) ∧
    (findFw s b = some f →
      (f.state ≠ .held → exec (.imageVerify b img) s = .next s) ∧
      (f.state = .held →
        (acceptsImage s b img = true →
          ∃ (t : State) (g : FwState), exec (.imageVerify b img) s = .next t ∧ findFw t b = some g ∧ g.state = .accepted ∧ g.measurement = img.digest ∧
            g.svn = img.svn ∧ t.agenda = s.agenda ++ [Event.blockReady b]) ∧
        (acceptsImage s b img = false →
          ∃ (t : State) (g : FwState), exec (.imageVerify b img) s = .next t ∧ findFw t b = some g ∧ g.state = .failed ∧ g.measurement = f.measurement)) ∧
      (f.state = .accepted → ∃ (t : State) (g : FwState), exec (.blockReady b) s = .next t ∧ findFw t b = some g ∧ g.state = .ready ∧ g.missed = 0) ∧
      (f.state = .ready →
        exec (.heartbeat b true) s = .next (modFw s b (fun x => { x with missed := 0 })) ∧
        (f.missed = 0 → exec (.heartbeat b false) s = .next (modFw s b (fun x => { x with missed := x.missed + 1 }))) ∧
        (f.missed = 1 → ∃ t : State, exec (.heartbeat b false) s = .next t ∧ t.agenda = s.agenda ++ [Event.firmwareWatchdogReset b]) ∧
        (∀ i, 2 ≤ f.missed → flashImage s b = some i →
          ∃ (t : State) (g : FwState), exec (.firmwareWatchdogReset b) s = .next t ∧ findFw t b = some g ∧ g.state = .held ∧ g.missed = 0 ∧
            Event.imageVerify b i ∈ t.agenda ∧
            ((∀ k, b ≠ .stackEngine k) → t.queues = s.queues ∧ t.homes = s.homes ∧ t.cores = s.cores ∧ t.fq = s.fq)) ∧
        (acceptsImage s b img = false → s.feSaved = none → exec (.firmwareReplace b img) s = .next s) ∧
        (acceptsImage s b img = true → fwQuiet s b = false → s.feSaved = none →
          exec (.firmwareReplace b img) s =
            .next (push (if b = .frontEnd then { s with feSaved := some s.feMode, feMode := 0 } else s) (.firmwareReplace b img))) ∧
        (acceptsImage s b img = true → fwQuiet s b = true →
          ∃ (t : State) (g : FwState), exec (.firmwareReplace b img) s = .next t ∧ findFw t b = some g ∧ g.state = .ready ∧ g.measurement = img.digest ∧
            t.replacements = s.replacements + 1 ∧
            t.feMode = (if b = .frontEnd then s.feSaved.getD s.feMode else s.feMode) ∧ t.queues = s.queues ∧ t.cores = s.cores))) ∧
    (tabGet 0 s.minSvn target < svn →
      ∃ t : State, exec (.minSvnRaise target svn true) s = .next t ∧ tabGet 0 t.minSvn target = svn ∧
        ∀ o, o ≠ target → tabGet 0 t.minSvn o = tabGet 0 s.minSvn o) ∧
    (svn ≤ tabGet 0 s.minSvn target → exec (.minSvnRaise target svn true) s = .next s) ∧
    exec (.minSvnRaise target svn false) s = .next s ∧
    ∃ (t : State) (r : Report), exec (.attestationRequest nonce) s = .next t ∧ t.reports = s.reports ++ [r] ∧ r.nonce = nonce ∧ r.device = Config.deviceId ∧
      r.blocks = s.firmware ∧ r.replacements = s.replacements

/-- R535, R577, R579: a die's leave capacity is what its Foreman is told, one step less each time a current monitor is high
and one step more after a long low, between half and all of its reset value; a failed Foreman's pool stays at nothing. R32,
R375, R393, R394, R459, R536, R572: firmware's tables take a write within their limits and stay as they are otherwise, and a
counter is cleared by a write. -/
def Obligations.CapacityAndTables : Prop :=
  ∀ (s : State) (die cap i iq st base c modules localMod : Nat) (e : ClassEntry) (d : IngressDesc) (v : Word) (part ctxid : Nat)
    (clusters absent : List Nat) (pa : Nat) (bytes : List Byte) (k : Counter),
    (24 ≤ die ∨ foremanFailed s die = true → exec (.leaveCapWrite die cap) s = .next s) ∧
    (die < 24 → foremanFailed s die = false →
      (∃ t : State, exec (.leaveCapWrite die cap) s = .next t ∧ (getPool t die).cap = cap % 2 ^ 16 ∧ (getPool t die).used = (getPool s die).used ∧
        ∀ o, o ≠ die → getPool t o = getPool s o) ∧
      (∃ t : State, exec .currentMonitorHigh s = .next t ∧
        (getPool t die).cap = Nat.min (getPool s die).cap (Nat.max 474 ((getPool s die).cap - 118)) ∧ t.cores = s.cores) ∧
      ∃ t : State, exec .currentMonitorLowSustained s = .next t ∧
        (getPool t die).cap = Nat.max (getPool s die).cap (Nat.min 948 ((getPool s die).cap + 118)) ∧ t.cores = s.cores) ∧
    (i < 1024 → ∃ t : State, exec (.firmwareTableWrite (.classifier i e)) s = .next t ∧ getClass t i = some e ∧
      ∀ j, j ≠ i → getClass t j = getClass s j) ∧
    (1024 ≤ i → exec (.firmwareTableWrite (.classifier i e)) s = .next s) ∧
    (iq < 4096 → ingressOk s d = true →
      ∃ t : State, exec (.firmwareTableWrite (.ingress iq d)) s = .next t ∧ getIngress t iq = { desc := some d, seq := 0, lossy := false }) ∧
    (ingressOk s d = false → exec (.firmwareTableWrite (.ingress iq d)) s = .next s) ∧
    (st < 48 →
      (∃ t : State, exec (.firmwareTableWrite (.ctxBase st base)) s = .next t ∧ (getStation t st).ctxBase = base ∧
        (getStation t st).winBase = (getStation s st).winBase) ∧
      ∃ t : State, exec (.firmwareTableWrite (.winBase st base)) s = .next t ∧ (getStation t st).winBase = base ∧
        (getStation t st).ctxBase = (getStation s st).ctxBase) ∧
    (c < coreCount → ∃ t : State, exec (.firmwareTableWrite (.svbase c v)) s = .next t ∧ (getCtx t c).sys.svbase = v &&& ~~~63) ∧
    (1 ≤ modules → modules ≤ 16 → localMod < modules →
      ∃ t : State, exec (.firmwareTableWrite (.domain modules localMod absent)) s = .next t ∧ t.domainModules = modules ∧ t.localMod = localMod ∧
        t.absentHomes = absent) ∧
    (∃ t : State, exec (.firmwareTableWrite (.clearCounter k)) s = .next t ∧ counterVal t k = 0 ∧ ∀ j, j ≠ k → counterVal t j = counterVal s j) ∧
    (die < 24 → fwIs s (.foreman die) .ready = true →
      ∃ t : State, exec (.firmwareTableWrite (.releaseCores die)) s = .next t ∧
        ∀ k < 128, (getCore s (die * 128 + k)).state = .reset → (getCore t (die * 128 + k)).state = .idle) ∧
    (fwIs s (.foreman die) .ready = false → exec (.firmwareTableWrite (.releaseCores die)) s = .next s) ∧
    (partitionOk s part clusters = true → clusters ≠ [] →
      ∃ t : State, exec (.firmwareTableWrite (.partition part ctxid clusters)) s = .next t ∧ (getPart t part).clusters = clusters ∧
        (getPart t part).ctxid = ctxid % 2 ^ 16 ∧ (getPart t part).state = .live) ∧
    (partitionOk s part clusters = false → exec (.firmwareTableWrite (.partition part ctxid clusters)) s = .next s) ∧
    (pa + bytes.length ≤ physLimit →
      exec (.firmwareTableWrite (.memory pa bytes)) s = .next (physWrite (dropCopies s pa bytes.length) pa bytes))

/-- R334, R424, R550-R553: a switch request tells a live partition's cores to stop and aborts its collective instances; the
partition halts once every core stands at a pre-emption point with nothing of its own on the way; and each core's context is
written out, after which its clusters are free. A halted core's context holds the pc of its unit, its registers and its
accumulators. R61, R286, R507, R554, R578: a partition that is out is restored onto free clusters whose cores find a position:
every saved context stands again, marked RESTORED, and MIGR where its core moved; SPILL regions and slots come back by
themselves; a gated partition's wake waits for clusters and then restores it. -/
def Obligations.Switches : Prop :=
  (∀ (s : State) (p : Nat),
    let q := getPart s p
    (q.state ≠ .live → exec (.partitionSwitchRequest p) s = .next s) ∧
    (q.state = .live →
      ∃ t : State, exec (.partitionSwitchRequest p) s = .next t ∧ (getPart t p).state = .switching ∧ (getPart t p).clusters = q.clusters ∧
        Event.partitionHalt p ∈ t.agenda ∧ t.cores = s.cores ∧
        ∀ x ∈ s.instances, x.part = p → x.ended = false → Event.collectiveInstanceEnd x.comm x.inst ∈ t.agenda) ∧
    (q.state = .switching →
      (haltReached s (coresOf q) = false → exec (.partitionHalt p) s = .next (push { s with fresh := s.fresh + 2 ^ 40 } (.partitionHalt p))) ∧
      (haltReached s (coresOf q) = true →
        ∃ t : State, exec (.partitionHalt p) s = .next t ∧ (getPart t p).state = .halted ∧ Event.contextWriteOut p ∈ t.agenda ∧
          t.homes = s.homes ∧ SameMem s t)) ∧
    (∀ c, (getCore s c).gang = .none →
      let x := getCtx s c
      let z := flushAhead x
      let y := getCtx (haltCore s c) c
      y.pc = unitPc z ∧ y.pfx = none ∧ y.regs = z.regs ∧ y.acc = z.acc ∧ y.tiles = z.tiles ∧ y.seq = z.seq ∧ y.act = z.act) ∧
    (q.state ≠ .halted → exec (.contextWriteOut p) s = .next s) ∧
    (q.state = .halted →
      ∃ t : State, exec (.contextWriteOut p) s = .next t ∧ (getPart t p).state = .out ∧
        (∀ c ∈ coresOf q, savesCore (getCore s c) = true → (c, getCore s c) ∈ (getPart t p).saved ∧ getCore t c = vacantCore) ∧
        (∀ c, c ∉ coresOf q → getCore t c = getCore s c) ∧ SameMem s t)) ∧
  (∀ (s : State) (p c region slot : Nat) (onto : List ClusterBind),
    let q := getPart s p
    let back := fun (t : State) => (getPart t p).state = .live ∧ (getPart t p).saved = [] ∧ (getPart t p).waking = false ∧
      ((q.saved.map (·.1)).Nodup → ∀ d ∈ q.saved,
        let y := getCtx t d.1
        y.regs = d.2.ctx.regs ∧ y.pc = d.2.ctx.pc ∧ y.act = d.2.ctx.act ∧ y.acc = d.2.ctx.acc ∧
          (y.act.isSome = true → y.sys.restored = true ∧
            (mapOf t d.1 ≠ mapOf s d.1 → y.sys.migr = true) ∧ (mapOf t d.1 = mapOf s d.1 → y.sys.migr = d.2.ctx.sys.migr)))
    ((q.state ≠ .out ∨ restoreOk s p onto = false) → exec (.partitionRestore p onto) s = .next s) ∧
    (q.state = .out → restoreOk s p onto = true →
      ∃ t : State, exec (.partitionRestore p onto) s = .next t ∧ back t) ∧
    (∃ t : State, exec (.spillReloadComplete c region) s = .next t ∧ region ∉ (getCore t c).spilling ∧ (getCore t c).spad = (getCore s c).spad ∧
      getCtx t c = getCtx s c) ∧
    (slot < 4 →
      let v := getSlot (getCore s c) slot
      (v.state ≠ .reloading → exec (.slotReloadComplete c slot) s = .next s) ∧
      (∀ src, v.state = .reloading → v.source = some src →
        (∀ k w, homeRead s c src.addr 64 = .fail k w →
          ∃ t : State, exec (.slotReloadComplete c slot) s = .next t ∧ getSlot (getCore t c) slot = lostSlot v) ∧
        (∀ bs, homeRead s c src.addr 64 = .ok bs →
          let h := readHeader bs
          (reloadOk s c slot v src.scale h = false →
            ∃ t : State, exec (.slotReloadComplete c slot) s = .next t ∧ getSlot (getCore t c) slot = lostSlot v) ∧
          (∀ rows, reloadOk s c slot v src.scale h = true → imageRows s c src.addr h.pitch (bRowBytes v.fmt h.n) 0 h.k = .ok rows →
            ∃ t : State, exec (.slotReloadComplete c slot) s = .next t ∧ (getSlot (getCore t c) slot).state = .ready ∧
              (getSlot (getCore t c) slot).k = h.k ∧ (getSlot (getCore t c) slot).n = h.n ∧ (getSlot (getCore t c) slot).fmt = v.fmt ∧
              (getSlot (getCore t c) slot).cols =
                (List.range h.n).map (alignColumn v.fmt h.k rows (src.scale.map (fun b => ((getCore s c).spad, b)))))))) ∧
    (q.state = .live → exec (.partitionGate p) s = .next (pushAll s [.partitionSwitchRequest p, .partitionGate p])) ∧
    ((q.state = .switching ∨ q.state = .halted) → exec (.partitionGate p) s = .next (push s (.partitionGate p))) ∧
    (q.state = .out → exec (.partitionGate p) s = .next (setPart s p { q with state := .gated })) ∧
    (q.state ≠ .gated → exec (.partitionWake p onto) s = .next s) ∧
    (q.state = .gated →
      (restoreOk s p onto = false →
        exec (.partitionWake p onto) s = .next (push (setPart s p { q with waking := true }) (.partitionWake p onto))) ∧
      (restoreOk s p onto = true →
        ∃ t : State, exec (.partitionWake p onto) s = .next t ∧ back t ∧ ∀ n ∈ queuesOf t p, Event.packetFetch n ∈ t.agenda)))

/-- R507-R509, R562-R567: an error that no code corrects kills the core that consumed it at once, or poisons its sector; a
kill for mismatches waits for the end of the band in progress; a poisoned sector is reported to a Foreman; a killed core loses
its stores and its generations, and its core-map entry changes to the free spare of its cluster, or to none, with EGEN one
higher; once every interface has the new entry and its accesses are settled, an activation that has not committed starts again
on the spare, one that has fails, and without a spare its records go to the distributor. -/
def Obligations.KilledCores : Prop :=
  ∀ (s : State) (c ni n : Nat),
    let kills := fun (o : Host.Outcome State Fault Refusal) =>
      ((coreCount ≤ c ∨ (getCore s c).state = .killed ∨ (mapOf s c).bound = false) → o = .next s) ∧
      (c < coreCount → (getCore s c).state ≠ .killed → (mapOf s c).bound = true →
        ((partState s c = .halted ∨ s.mapChanges.any (fun m => m.core == c) = true) → o = .next (push s (.coreKill c))) ∧
        (partState s c ≠ .halted → s.mapChanges.any (fun m => m.core == c) = false → coreOut s c = true → o = .next s) ∧
        (s.mapChanges.any (fun m => m.core == c) = false → coreOut s c = false →
          ∃ t : State, o = .next t ∧
            (getCore t c).state = (if spareFree s c then .stopped else .killed) ∧
            (mapOf t c).egen = (mapOf s c).egen + 1 ∧ (mapOf t c).bound = spareFree s c ∧
            (spareFree s c = true → (mapOf t c).ppos = 16) ∧ (∀ d, d ≠ c → mapOf t d = mapOf s d) ∧
            (getCore t c).live = [] ∧ (getCore t c).sealedStore = true ∧ (∀ i < 4, getSlot (getCore t c) i = emptySlot) ∧
            (getCtx t c).sys.held = 0 ∧ t.deadPhys = physCore s c :: s.deadPhys ∧ Event.coreMapChangeComplete c ∈ t.agenda ∧
            ∀ d ∈ otherInterfaces s c, Event.coreMapUpdateArrive d c ∈ t.agenda))
    kills (exec (.uncorrectableError (.core c)) s) ∧
    (killWaits s c = false → kills (exec (.coreKill c) s)) ∧
    (killWaits s c = true → exec (.coreKill c) s = .next (push s (.coreKill c))) ∧
    (n * 64 < physLimit →
      exec (.uncorrectableError (.sector n)) s =
        .next { s with badSectors := tabSet s.badSectors n 0, notices := s.notices ++ [(foremanOf (n / 4 % 16), Notice.sector n)] } ∧
      exec (.uncorrectableError (.cached n)) s =
        .next { s with badSectors := tabSet s.badSectors n 0, notices := s.notices ++ [(foremanOf (16 + sliceOf (n * 64) / 16), Notice.sector n)] }) ∧
    (∃ t : State, exec (.coreMapUpdateArrive ni c) s = .next t ∧
      ∀ m ∈ t.mapChanges, m.core = c → ni ∉ m.waiting) ∧
    (s.mapChanges.find? (fun m => m.core == c) = none → exec (.coreMapChangeComplete c) s = .next s) ∧
    (∀ m, s.mapChanges.find? (fun m => m.core == c) = some m →
      let k := getCore s c
      (m.waiting ≠ [] → exec (.coreMapChangeComplete c) s = .next (push s (.coreMapChangeComplete c))) ∧
      (s.accs.any (fun a => a.core == c) = true → exec (.coreMapChangeComplete c) s = .next (push s (.coreMapChangeComplete c))) ∧
      (m.waiting = [] → s.accs.any (fun a => a.core == c) = false →
        ((mapOf s c).bound = true → k.susp = none →
          (k.ctx.act = none →
            ∃ t : State, exec (.coreMapChangeComplete c) s = .next t ∧ (getCore t c).state = .idle ∧ (getCore t c).sealedStore = false ∧
              Event.activationChoose c ∈ t.agenda) ∧
          (∀ a, k.ctx.act = some a → a.commit = false →
            ∃ (t : State) (b : Activation), exec (.coreMapChangeComplete c) s = .next t ∧ (getCore t c).state = .running ∧ (getCtx t c).act = some b ∧
              b.record = a.record ∧ b.kind = a.kind ∧ (getCtx t c).sys.restart = true ∧
              (getCtx t c).pc = BitVec.ofNat 64 (4 * 2 ^ 60 + a.record.entry.toNat)) ∧
          (∀ a, k.ctx.act = some a → a.commit = true →
            ∃ t : State, exec (.coreMapChangeComplete c) s = .next t ∧ (getCore t c).state = .idle ∧ (getCore t c).norstErr = true ∧
              (getCore t c).faultErr = true)) ∧
        ((mapOf s c).bound = false → k.deque.any (fun e => e.reserved.isSome) = false →
          ∃ t : State, exec (.coreMapChangeComplete c) s = .next t ∧ (getCore t c).state = .killed ∧ (getCore t c).deque = [] ∧
            (getCore t c).urgents = [] ∧ ∀ e ∈ k.deque, ∃ w ∈ t.rootWaits, w.record = e.record)))

/-- R515-R520, R537, R568, R569: corrected errors are counted by cell, and a cell met three times asks its Foreman for a
repair; the end of a window frees what asks for none, and the rest count afresh; a served repair clears its request; the end
of the mismatch window clears a die's counts, but not that of a core whose kill is due; an invalidation drops the redirects of
its range and waits for the accesses and the merged lines translated before it; and the Foreman of a stopped core lets a
halted activation go on, and ends one that stands in a trap. -/
def Obligations.RepairsAndRestarts : Prop :=
  ∀ (s : State) (eng bank row col idx die ctx lo hi c : Nat),
    let asks := fun (num : Nat) (t : State) => t.agenda = s.agenda ++ [Event.repairServe eng num] ∧
      t.notices = s.notices ++ [(foremanOf eng, Notice.repair eng num)]
    (28 ≤ eng → exec (.correctedErrorReport eng bank row col) s = .next s) ∧
    (eng < 28 → bank < 2 ^ 6 → row < 2 ^ 18 → col < 2 ^ 10 →
      (errTable s eng = [] →
        ∃ t : State, exec (.correctedErrorReport eng bank row col) s = .next t ∧ t.agenda = s.agenda ∧ t.notices = s.notices ∧
          errTable t eng =
            [{ num := 0, count := 1, cls := 0, bank := BitVec.ofNat 6 bank, row := BitVec.ofNat 18 row, col := BitVec.ofNat 10 col, req := false }]) ∧
      (∀ e, errTable s eng = [e] →
        entryCovers e 0 { bank := BitVec.ofNat 6 bank, row := BitVec.ofNat 18 row, col := BitVec.ofNat 10 col } = true →
        ∃ t : State, exec (.correctedErrorReport eng bank row col) s = .next t ∧
          errTable t eng = [{ e with count := Nat.min (e.count + 1) 65535, req := e.req || decide (2 ≤ e.count) }] ∧
          (if e.req = false ∧ 2 ≤ e.count then asks e.num t else t.agenda = s.agenda ∧ t.notices = s.notices))) ∧
    (∃ t : State, exec (.classificationWindowEnd eng) s = .next t ∧
      errTable t eng = ((errTable s eng).filter (·.req)).map (fun e => { e with count := 0 }) ∧
      ∀ o, o ≠ eng → errTable t o = errTable s o) ∧
    (∃ t : State, exec (.repairServe eng idx) s = .next t ∧ (∀ e ∈ errTable t eng, e.num = idx → e.req = false) ∧
      (∀ e ∈ errTable s eng, e.num ≠ idx → e ∈ errTable t eng) ∧ (∀ o, o ≠ eng → errTable t o = errTable s o) ∧
      ∀ n ∈ t.notices, n.2 ≠ Notice.repair eng idx) ∧
    exec (.mismatchWindowEnd die) s = .next { s with
      mismatches := s.mismatches.filter (fun p => p.1 / 136 != die || (decide (4 ≤ p.2) && !s.deadPhys.contains p.1)) } ∧
    (∃ t : State, exec (.translationInvalidate ctx lo hi) s = .next t ∧
      (∀ h ∈ t.hot, ∀ r ∈ h.readers, ¬ (r.2.1 = ctx ∧ lo < r.2.2 * 256 + 256 ∧ r.2.2 * 256 < hi)) ∧
      (∀ r ∈ t.redirects, r ∈ s.redirects ∧ ¬ (r.ctx = ctx ∧ lo < r.vline * 256 + 256 ∧ r.vline * 256 < hi)) ∧
      (∀ r ∈ s.redirects, ¬ (r.ctx = ctx ∧ lo < r.vline * 256 + 256 ∧ r.vline * 256 < hi) → r ∈ t.redirects) ∧
      t.agenda = (if s.accs.any (translatedIn s ctx lo hi) || s.merges.any (mergeIn s ctx lo hi) then s.agenda ++ [Event.translationInvalidate ctx lo hi] else s.agenda) ∧
      t.accs = s.accs) ∧
    ((getCore s c).state ≠ .stopped → exec (.foremanCoreRestart c) s = .next s) ∧
    ((getCore s c).state = .stopped →
      ((getCore s c).stop = .halt → (getCtx s c).act.isSome = true →
        ∃ t : State, exec (.foremanCoreRestart c) s = .next t ∧ (getCore t c).state = .running ∧ getCtx t c = getCtx s c) ∧
      ((getCore s c).stop = .trap → (getCtx s c).act.isSome = true → exec (.foremanCoreRestart c) s = .next (failLive s c)) ∧
      ((getCore s c).stop ≠ .none → (getCtx s c).act = none →
        ∃ t : State, exec (.foremanCoreRestart c) s = .next t ∧ (getCore t c).state = .idle ∧ Event.activationChoose c ∈ t.agenda))

/-- R248, R580-R582: SNAP begins the cut of its tag, and markers reach every block; a block latches once for a tag; a packet
from before the cut that reaches a latched block is recorded there; and the cut is reported once every block has latched and
no such packet is on its way, complete unless a buffer overflowed. -/
def Obligations.Snapshots : Prop :=
  ∀ (s : State) (p : BitVec 12) (tag n : Nat) (blk : SnapBlock),
    (Goes (cur s) (needs [] [] (priv := true)) → p ≠ 0 → s.cuts.length < 4 →
      s.cuts.any (fun k => k.cores.contains s.focus && !allLatched k) = false → findCut s p.toNat = none →
      s.cutReports.any (fun r => r.tag == p.toNat) = false →
      ∃ (t : State) (k : Cut), exec (.snap p) s = .next t ∧ findCut t p.toNat = some k ∧ k.cores = [s.focus] ∧ (latchOf k (.core s.focus)).isSome = true ∧
        (cur t).pc = (cur s).pc + 4 ∧ Event.cutComplete p.toNat ∈ t.agenda ∧
        ∀ b ∈ allBlocks, Event.snapshotMarkerArrive p.toNat (localBlock s b) ∈ t.agenda) ∧
    (findCut s tag = none →
      exec (.snapshotMarkerArrive tag blk) s = .next s ∧ exec (.cutComplete tag) s = .next s) ∧
    (∀ k, findCut s tag = some k →
      ((latchOf k blk).isSome = true → exec (.snapshotMarkerArrive tag blk) s = .next s) ∧
      (latchOf k blk = none →
        ∃ (t : State) (e : Cut) (l : SnapLatch), exec (.snapshotMarkerArrive tag blk) s = .next t ∧ findCut t tag = some e ∧ latchOf e blk = some l ∧
          l.values = blockValues s blk ∧ t.cores = s.cores ∧ t.homes = s.homes ∧ t.slices = s.slices ∧ t.queues = s.queues) ∧
      (∀ m, s.cuts = [k] → k.tag = tag → (packetsInFlight s).filter (fun m => m.n == n && m.receiver == blk) = [m] →
        ((latchOf k blk = none ∨ postCut k m = true) → exec (.snapshotPacketRecord n blk) s = .next s) ∧
        ((latchOf k blk).isSome = true → postCut k m = false → (blk, n) ∉ k.recorded → buffered s blk < snapDepth →
          ∃ t : State, exec (.snapshotPacketRecord n blk) s = .next t ∧
            t.cuts = [{ k with recorded := k.recorded ++ [(blk, n)] }])) ∧
      ((allLatched k = false ∨ (packetsInFlight s).any (fun m => !postCut k m) = true) →
        exec (.cutComplete tag) s = .next (push s (.cutComplete tag))) ∧
      (allLatched k = true → (packetsInFlight s).any (fun m => !postCut k m) = false →
        ∃ t : State, exec (.cutComplete tag) s = .next t ∧ findCut t tag = none ∧
          t.cutReports = s.cutReports ++
            [{ tag := tag, complete := k.overflow.isEmpty, latched := k.latched, recorded := k.recorded }]))

/-- R124-R144: decoding the word of a well-formed instruction gives the instruction back, every operand at every value that
its encoding admits; the three rows of BARM share one encoding (R527). R125, R133: whatever the decoder accepts is well
formed, and its word is the one that encodes it: no reserved bit is ignored, and no two words decode to one instruction. -/
def Obligations.EncodingsAgree : Prop :=
  (∀ (i : Instr) (w : Nat), i.check = none → encode i = some w → w < 2 ^ 32 ∧ decodeBytes (leBytes 4 w) = .ok (canonical i)) ∧
  (∀ (i : Instr) (w : Nat), w < 2 ^ 32 → decodeWord w = .ok i → i.check = none ∧ encode i = some w)

/-- Words that the worked examples of the spec write out (spec/04, 05, 06, 07, 08, 09, 25 and 26), each with the instruction
that it stands for; and END with a reserved field that is not zero, which is no instruction (R8). -/
def Obligations.SampleWords : Prop :=
  decodeTableWord 32 0x0CA00003 = some (.addi 5 0 3) ∧
  decodeTableWord 32 0x08642800 = some (.add 3 4 5) ∧
  decodeTableWord 32 0x3C057FFF = some (.loopnz 5 0x3FFF) ∧
  decodeTableWord 32 0xFC456789 = some (.ximm 0x456789) ∧
  decodeTableWord 32 0x04061005 = some (.sysw 6 0x005) ∧
  decodeTableWord 32 0x48642B1C = some (.amoadd 3 4 5 3 1 3) ∧
  decodeTableWord 32 0x6080E020 = some (.tbind 2 7 0 1) ∧
  decodeTableWord 32 0x6908C001 = some (.tsub 4 2 3 0) ∧
  decodeTableWord 32 0x86500201 = some (.mmag 9 4 0 0 2 0 0) ∧
  decodeTableWord 32 0x95841041 = some (.xmread 12 4 2 1) ∧
  decodeTableWord 32 0xA1E80040 = some (.kputTile 15 2 1) ∧
  decodeTableWord 32 0xB18A5800 = some (.colrs 12 10 11 0) ∧
  decodeTableWord 32 0xAAA47981 = some (.cmbput 21 4 15 6) ∧
  decodeTableWord 32 0x5000031F = none

/-- A word's turn (log 3): where the focus core runs and nothing holds its control stream, the word at its pc is fetched, and
a step is the execution of the instruction that it decodes to; then an event is next, the focus moves to the next running
core, and the places that cores have waited on are compared (R246). A step that would disband a gang while an instruction of
the gang that no trap stops is inside its bands waits for its end (R208, log 92). A word that is no instruction traps as
ILLEGAL, unless it is a prefix word, which makes its unit ILLEGAL (R133, R176); an address that cannot be fetched from traps
as FETCH_FAULT (R170); and a trap of the tile stream that is due on the confirmed path comes first (R540). -/
def Obligations.StepRunsInstruction : Prop :=
  ∀ (s : State) (bytes : List Byte) (line : Option (ICLine × Nat)),
    let c := s.focus
    let k := getCore s c
    let x := k.ctx
    let t := { fillLine s c line with focus := c }
    let out := fun (u : State) =>
      let v := if holdsDisband s u c then s else u
      (.next (noteChanges s { v with turn := .event, focus := nextFocus v }) : Host.Outcome State Fault Refusal)
    let after := fun (u : State) => step s = out u
    (s.turn = .core ∨ s.agenda = []) → c < coreCount → k.state = .running → coreOut s c = false →
    (∀ e, x.tileTrap = some e → x.gens = [] → after (takeTileTrap s c e)) ∧
    (isFollower k = false → stopCore s c = none → x.wait = .none → (x.tileTrap = none ∨ x.gens ≠ []) →
      ∀ kind, fetchAt s c x.pc = .fault kind → x.gens = [] →
        after (takeTrap s c { issueTrap (unitPc x) causeFetchFault kind x.pc with faultpc := unitPc x })) ∧
    (isFollower k = false → stopCore s c = none → x.wait = .none → (x.tileTrap = none ∨ x.gens ≠ []) → fetchAt s c x.pc = .word bytes line →
    (∀ i, decodeBytes bytes = .ok i →
      step s = (match exec i t with
        | .next u => out u
        | .fault r => .fault r
        | .refused r => .refused r)) ∧
    (∀ e, decodeBytes bytes = .error e →
      (isPrefixWord bytes = false → x.gens = [] → after (takeTrap t c (issueTrap (unitPc x) causeIllegal 0 0))) ∧
      (isPrefixWord bytes = false → x.gens ≠ [] → after t) ∧
      (isPrefixWord bytes = true → after (passPrefix t (fun p => { p with ill := true })))))

/-- An event's turn (log 3): a step is the execution of the event at the head of the agenda, which leaves it; a word is next,
and the places that cores have waited on are compared (R246). Every event is an instruction of the table without an encoding,
and every instruction without one is an event. -/
def Obligations.StepRunsEvent : Prop :=
  (∀ (s : State) (e : Event) (rest : List Event), s.turn = .event → s.agenda = e :: rest →
    step s = (match runEvent e (eventState s e rest) with
      | .next t => .next (noteChanges s t)
      | .fault r => .fault r
      | .refused r => .refused r) ∧
      (s.cuts = [] → eventState s e rest = { s with agenda := rest, turn := .core })) ∧
  (∀ e : Event, ∃ i, encode i = none ∧ ∀ s, runEvent e s = exec i s) ∧
  (∀ i : Instr, encode i = none → ∃ e : Event, ∀ s, runEvent e s = exec i s)

/-- No instruction and no event stops the machine: every one has a next state in every state. A step stops only where the
focus names no core, in a word's turn. -/
def Obligations.EveryInstructionGoesOn : Prop :=
  (∀ (i : Instr) (s : State), ∃ t : State, exec i s = .next t) ∧
  (∀ s : State, s.focus < coreCount → ∃ t : State, step s = .next t) ∧
  (∀ s : State, (s.turn = .core ∨ s.agenda = []) → coreCount ≤ s.focus → step s = .fault .noSuchCore)

/-- R46, R153, R236, R534, R535, R570: the machine right after reset: every core is held in reset, without an activation, in
user mode; the general registers, the queue registers and the accumulators are zero and nothing is awaited; every leave pool
is full; the key-space domain is one module; and nothing is on its way. (The registers' zeros are the model's choice where the
spec gives none: log 1; so is memory's: log 2.) -/
def Obligations.ResetState : Prop :=
  (∀ c, (getCore State.reset c).state = .reset ∧ (getCtx State.reset c).act = none ∧ (getCtx State.reset c).sys.sup = false ∧
    (getCtx State.reset c).pc = 0 ∧ (∀ r, getReg (getCtx State.reset c) r = resetReg) ∧ (getCtx State.reset c).seq = [] ∧
    (getCtx State.reset c).tileTrap = none ∧ ∀ i < 4, getSlot (getCore State.reset c) i = emptySlot) ∧
  (∀ d, (getPool State.reset d).cap = 948 ∧ (getPool State.reset d).waiting = []) ∧
  State.reset.accs = [] ∧ State.reset.ops = [] ∧ State.reset.msgs = [] ∧ State.reset.launches = [] ∧
  State.reset.domainModules = 1 ∧ (∀ p, (getPart State.reset p).state = .absent) ∧
  (∀ a, physByte State.reset a = 0) ∧ MemOk State.reset ∧ State.reset.focus < coreCount

/-- Every memory of the module keeps its canonical form in every step (log 2). -/
def Obligations.MemoryStaysCanonical : Prop :=
  ∀ s t : State, MemOk s → step s = .next t → MemOk t

/-- R571 over the whole machine: no instruction and no event, power on among them, lowers the lowest version that a block
accepts. -/
def Obligations.LowestVersionNeverFalls : Prop :=
  ∀ (s t : State) (target : Nat), step s = .next t → tabGet 0 s.minSvn target ≤ tabGet 0 t.minSvn target

end
end

