-- ==== Sys2Proof/Laws/Memory.lean ====
section
/-! SUPPORT. Tables and memories: reading what was written, the frame of a write, and the canonical form (log 2). -/

namespace Sys2Proof.Machine

/-! ### Tables -/

theorem tabGet_tabSet_self {α : Type} (d : α) (t : Tab α) (k : Nat) (v : α) : tabGet d (tabSet t k v) k = v := by
  induction t with
  | nil => simp [tabSet, tabGet]
  | cons p r ih =>
    obtain ⟨j, w⟩ := p
    simp only [tabSet]
    split
    · simp [tabGet]
    · split
      · simp [tabGet]
      · simp [tabGet, *]

theorem tabGet_tabSet_ne {α : Type} (d : α) (t : Tab α) (k j : Nat) (v : α) (h : j ≠ k) :
    tabGet d (tabSet t k v) j = tabGet d t j := by
  induction t with
  | nil => simp [tabSet, tabGet, Ne.symm h]
  | cons p r ih =>
    obtain ⟨i, w⟩ := p
    simp only [tabSet]
    split
    · subst i
      simp [tabGet, Ne.symm h]
    · split
      · simp [tabGet, Ne.symm h]
      · simp [tabGet, ih]

/-- The later of two writes to one key stands alone. -/
theorem tabSet_tabSet {α : Type} (t : Tab α) (k : Nat) (v w : α) : tabSet (tabSet t k v) k w = tabSet t k w := by
  induction t with
  | nil => simp [tabSet]
  | cons p r ih =>
    obtain ⟨i, u⟩ := p
    by_cases h1 : i = k
    · simp [tabSet, h1]
    · by_cases h2 : k < i
      · simp [tabSet, h1, h2]
      · simp [tabSet, h1, h2, ih]

/-! ### Single bytes -/

theorem memGet_memErase_self (m : Memory) (a : Nat) : memGet (memErase m a) a = 0 := by
  induction m with
  | nil => rfl
  | cons c r ih =>
    obtain ⟨b, v⟩ := c
    simp only [memErase, List.filter_cons] at ih ⊢
    by_cases h : b = a
    · simp [h, ih]
    · simp [h, memGet, ih]

theorem memGet_memErase_ne (m : Memory) (a x : Nat) (h : x ≠ a) : memGet (memErase m a) x = memGet m x := by
  induction m with
  | nil => rfl
  | cons c r ih =>
    obtain ⟨b, v⟩ := c
    simp only [memErase, List.filter_cons] at ih ⊢
    by_cases hb : b = a
    · subst b
      simp [memGet, ih, Ne.symm h]
    · simp [hb, memGet, ih]

theorem memGet_memInsert_self (m : Memory) (a : Nat) (v : Byte) : memGet (memInsert m a v) a = v := by
  induction m with
  | nil => simp [memInsert, memGet]
  | cons c r ih =>
    obtain ⟨b, w⟩ := c
    simp only [memInsert]
    split
    · simp [memGet]
    · split
      · simp [memGet]
      · simp [memGet, *]

theorem memGet_memInsert_ne (m : Memory) (a x : Nat) (v : Byte) (h : x ≠ a) : memGet (memInsert m a v) x = memGet m x := by
  induction m with
  | nil => simp [memInsert, memGet, Ne.symm h]
  | cons c r ih =>
    obtain ⟨b, w⟩ := c
    simp only [memInsert]
    split
    · subst b
      simp [memGet, Ne.symm h]
    · split
      · simp [memGet, Ne.symm h]
      · simp [memGet, ih]

/-- A byte reads back as it was written. -/
theorem memGet_memSet_self (m : Memory) (a : Nat) (v : Byte) : memGet (memSet m a v) a = v := by
  unfold memSet
  split
  · simp [memGet_memErase_self, *]
  · exact memGet_memInsert_self m a v

/-- Writing a byte leaves every other address alone. -/
theorem memGet_memSet_ne (m : Memory) (a x : Nat) (v : Byte) (h : x ≠ a) : memGet (memSet m a v) x = memGet m x := by
  unfold memSet
  split
  · exact memGet_memErase_ne m a x h
  · exact memGet_memInsert_ne m a x v h

/-! ### Ranges -/

/-- Writing a range leaves every address outside it alone. -/
theorem memGet_memWrite_of_outside (bs : List Byte) (m : Memory) (a x : Nat) (h : x < a ∨ a + bs.length ≤ x) :
    memGet (memWrite m a bs) x = memGet m x := by
  induction bs generalizing m a with
  | nil => rfl
  | cons b r ih =>
    simp only [List.length_cons] at h
    simp only [memWrite]
    rw [ih _ _ (by omega), memGet_memSet_ne _ _ _ _ (by omega)]

/-- Each byte of a range reads back as it was written. -/
theorem memGet_memWrite_of_inside (bs : List Byte) (m : Memory) (a i : Nat) (h : i < bs.length) :
    memGet (memWrite m a bs) (a + i) = bs[i] := by
  induction bs generalizing m a i with
  | nil => simp at h
  | cons b r ih =>
    simp only [memWrite]
    cases i with
    | zero => rw [memGet_memWrite_of_outside _ _ _ _ (by omega)]; simp [memGet_memSet_self]
    | succ j =>
      have := ih (memSet m a b) (a + 1) j (by simpa using h)
      rw [show a + (j + 1) = a + 1 + j by omega, this]
      rfl

/-- A range reads back as it was written. -/
theorem memRead_memWrite_self (bs : List Byte) (m : Memory) (a : Nat) : memRead (memWrite m a bs) a bs.length = bs := by
  apply List.ext_getElem
  · simp [memRead]
  · intro i h _
    have hi : i < bs.length := by simpa [memRead] using h
    simp [memRead, memGet_memWrite_of_inside bs m a i hi]

/-! ### The canonical form (log 2) -/

theorem memRising_weaken (m : Memory) (lo hi : Nat) (h : lo ≤ hi) (hm : memRising hi m = true) : memRising lo m = true := by
  cases m with
  | nil => rfl
  | cons c r =>
    obtain ⟨a, v⟩ := c
    simp only [memRising, Bool.and_eq_true, decide_eq_true_eq] at hm ⊢
    exact ⟨⟨by omega, hm.1.2⟩, hm.2⟩

theorem memRising_cons (lo a : Nat) (v : Byte) (r : Memory) :
    memRising lo ((a, v) :: r) = true ↔ (lo ≤ a ∧ v ≠ 0) ∧ memRising (a + 1) r = true := by
  simp only [memRising, Bool.and_eq_true, decide_eq_true_eq]

theorem memRising_erase (m : Memory) (a lo : Nat) (hm : memRising lo m = true) : memRising lo (memErase m a) = true := by
  induction m generalizing lo with
  | nil => rfl
  | cons c r ih =>
    obtain ⟨b, v⟩ := c
    rw [memRising_cons] at hm
    have hr := ih (b + 1) hm.2
    simp only [memErase, List.filter_cons] at hr ⊢
    by_cases hb : b = a
    · simpa [hb] using memRising_weaken _ lo (b + 1) (by omega) hr
    · rw [if_pos (by simpa using hb), memRising_cons]
      exact ⟨hm.1, hr⟩

theorem memRising_insert (m : Memory) (a lo : Nat) (v : Byte) (hv : v ≠ 0) (hl : lo ≤ a) (hm : memRising lo m = true) :
    memRising lo (memInsert m a v) = true := by
  induction m generalizing lo with
  | nil => exact (memRising_cons lo a v []).2 ⟨⟨hl, hv⟩, rfl⟩
  | cons c r ih =>
    obtain ⟨b, w⟩ := c
    rw [memRising_cons] at hm
    simp only [memInsert]
    split
    · subst b
      exact (memRising_cons _ _ _ _).2 ⟨⟨hl, hv⟩, hm.2⟩
    · split
      · exact (memRising_cons _ _ _ _).2 ⟨⟨hl, hv⟩, (memRising_cons _ _ _ _).2 ⟨⟨by omega, hm.1.2⟩, hm.2⟩⟩
      · exact (memRising_cons _ _ _ _).2 ⟨hm.1, ih (b + 1) (by omega) hm.2⟩

/-- Writing a byte keeps the canonical form. -/
theorem memWf_memSet (m : Memory) (a : Nat) (v : Byte) (hm : memWf m = true) : memWf (memSet m a v) = true := by
  unfold memSet
  split
  · exact memRising_erase m a 0 hm
  · exact memRising_insert m a 0 v (by assumption) (Nat.zero_le a) hm

/-- Writing a range keeps the canonical form. -/
theorem memWf_memWrite (bs : List Byte) (m : Memory) (a : Nat) (hm : memWf m = true) : memWf (memWrite m a bs) = true := by
  induction bs generalizing m a with
  | nil => exact hm
  | cons b r ih => exact ih _ _ (memWf_memSet m a b hm)

/-- A fill keeps the canonical form. -/
theorem memWf_memFill (m : Memory) (a n : Nat) (f : BitVec 32) (hm : memWf m = true) : memWf (memFill m a n f) = true :=
  memWf_memWrite _ m a hm

end Sys2Proof.Machine
end

