-- ==== Sys2Proof/Laws/Core.lean ====
section
/-! SUPPORT. Cores, contexts and registers: reading what an update wrote, what it leaves, and everything that the checks at
issue can do. -/

namespace Sys2Proof.Machine

/-! ### Cores and contexts -/

@[simp] theorem getCore_setCore_self (s : State) (c : Nat) (k : Core) : getCore (setCore s c k) c = k :=
  tabGet_tabSet_self _ _ _ _

theorem getCore_setCore_ne (s : State) (c d : Nat) (k : Core) (h : d ≠ c) : getCore (setCore s c k) d = getCore s d :=
  tabGet_tabSet_ne _ _ _ _ _ h

@[simp] theorem setCore_setCore (s : State) (c : Nat) (k l : Core) : setCore (setCore s c k) c l = setCore s c l := by
  simp only [setCore, tabSet_tabSet]

@[simp] theorem getCore_setCtx_self (s : State) (c : Nat) (x : Ctx) : getCore (setCtx s c x) c = { getCore s c with ctx := x } := by
  simp only [setCtx, modCore, getCore_setCore_self]

@[simp] theorem getCtx_setCtx_self (s : State) (c : Nat) (x : Ctx) : getCtx (setCtx s c x) c = x := by
  simp only [getCtx, getCore_setCtx_self]

theorem getCore_setCtx_ne (s : State) (c d : Nat) (x : Ctx) (h : d ≠ c) : getCore (setCtx s c x) d = getCore s d :=
  getCore_setCore_ne s c d _ h

theorem getCtx_setCtx_ne (s : State) (c d : Nat) (x : Ctx) (h : d ≠ c) : getCtx (setCtx s c x) d = getCtx s d := by
  simp only [getCtx, getCore_setCtx_ne s c d x h]

@[simp] theorem setCtx_setCtx (s : State) (c : Nat) (x y : Ctx) : setCtx (setCtx s c x) c y = setCtx s c y := by
  simp only [setCtx, modCore, getCore_setCore_self, setCore_setCore]

@[simp] theorem getCtx_modCtx_self (s : State) (c : Nat) (f : Ctx → Ctx) : getCtx (modCtx s c f) c = f (getCtx s c) := by
  simp only [modCtx, getCtx_setCtx_self]

@[simp] theorem modCtx_setCtx (s : State) (c : Nat) (x : Ctx) (f : Ctx → Ctx) :
    modCtx (setCtx s c x) c f = setCtx s c (f x) := by
  simp only [modCtx, getCtx_setCtx_self, setCtx_setCtx]

/-- An update of the cores and one of the agenda commute. -/
@[simp] theorem getCore_push (s : State) (e : Event) (c : Nat) : getCore (push s e) c = getCore s c := rfl

@[simp] theorem getCtx_push (s : State) (e : Event) (c : Nat) : getCtx (push s e) c = getCtx s c := rfl

@[simp] theorem getCore_pushAll (s : State) (es : List Event) (c : Nat) : getCore (pushAll s es) c = getCore s c := rfl

@[simp] theorem getCore_bumpId (s : State) (c : Nat) : getCore (bumpId s) c = getCore s c := rfl

@[simp] theorem getCtx_bumpId (s : State) (c : Nat) : getCtx (bumpId s) c = getCtx s c := rfl

@[simp] theorem getCore_bumpFree (s : State) (c : Nat) : getCore (bumpFree s) c = getCore s c := rfl

@[simp] theorem getCore_count (s : State) (k : Counter) (n c : Nat) : getCore (count s k n) c = getCore s c := rfl

/-! ### Registers (R153-R157) -/

@[simp] theorem getReg_zero (x : Ctx) : getReg x 0 = resetReg := rfl

/-- g0 reads zero (R153). -/
@[simp] theorem regVal_zero (x : Ctx) : regVal x 0 = 0 := rfl

@[simp] theorem putReg_zero (x : Ctx) (v : Reg) : putReg x 0 v = x := rfl

/-- A write to g0 is discarded (R153). -/
@[simp] theorem setReg_zero (x : Ctx) (v : Word) : setReg x 0 v = x := rfl

theorem getReg_putReg_self (x : Ctx) (r : BitVec 5) (v : Reg) (h : r ≠ 0) : getReg (putReg x r v) r = v := by
  have := r.isLt
  unfold getReg putReg
  rw [if_neg h, if_neg h]
  simp [Vector.getD, this]

theorem getReg_putReg_ne (x : Ctx) (r d : BitVec 5) (v : Reg) (h : d ≠ r) : getReg (putReg x r v) d = getReg x d := by
  have hd := d.isLt
  have hr := r.isLt
  have hne : r.toNat ≠ d.toNat := fun e => h (BitVec.eq_of_toNat_eq e.symm)
  unfold getReg putReg
  by_cases h0 : r = 0
  · rw [if_pos h0]
  · rw [if_neg h0]
    by_cases hd0 : d = 0
    · rw [if_pos hd0, if_pos hd0]
    · rw [if_neg hd0, if_neg hd0]
      simp [Vector.getD, hd, hne]

/-- A register reads what was written, and nothing but g0 refuses the write (R153, R155). -/
theorem regVal_setReg_self (x : Ctx) (r : BitVec 5) (v : Word) : regVal (setReg x r v) r = if r = 0 then 0 else v := by
  by_cases h : r = 0
  · rw [if_pos h, h]
    rfl
  · rw [if_neg h, regVal, setReg, getReg_putReg_self _ _ _ h]

theorem regVal_setReg_ne (x : Ctx) (r d : BitVec 5) (v : Word) (h : d ≠ r) : regVal (setReg x r v) d = regVal x d := by
  simp only [regVal, setReg, getReg_putReg_ne x r d _ h]

/-- A register write changes the registers and nothing else of a context. -/
theorem putReg_regs (x : Ctx) (r : BitVec 5) (v : Reg) : putReg x r v = { x with regs := (putReg x r v).regs } := by
  unfold putReg
  split <;> rfl

@[simp] theorem putReg_pc (x : Ctx) (r : BitVec 5) (v : Reg) : (putReg x r v).pc = x.pc := by rw [putReg_regs]

@[simp] theorem putReg_sys (x : Ctx) (r : BitVec 5) (v : Reg) : (putReg x r v).sys = x.sys := by rw [putReg_regs]

@[simp] theorem putReg_act (x : Ctx) (r : BitVec 5) (v : Reg) : (putReg x r v).act = x.act := by rw [putReg_regs]

@[simp] theorem putReg_acc (x : Ctx) (r : BitVec 5) (v : Reg) : (putReg x r v).acc = x.acc := by rw [putReg_regs]

@[simp] theorem putReg_queues (x : Ctx) (r : BitVec 5) (v : Reg) : (putReg x r v).queues = x.queues := by rw [putReg_regs]

@[simp] theorem putReg_tiles (x : Ctx) (r : BitVec 5) (v : Reg) : (putReg x r v).tiles = x.tiles := by rw [putReg_regs]

@[simp] theorem putReg_seq (x : Ctx) (r : BitVec 5) (v : Reg) : (putReg x r v).seq = x.seq := by rw [putReg_regs]

@[simp] theorem putReg_gens (x : Ctx) (r : BitVec 5) (v : Reg) : (putReg x r v).gens = x.gens := by rw [putReg_regs]

@[simp] theorem putReg_fences (x : Ctx) (r : BitVec 5) (v : Reg) : (putReg x r v).fences = x.fences := by rw [putReg_regs]

@[simp] theorem putReg_acqs (x : Ctx) (r : BitVec 5) (v : Reg) : (putReg x r v).acqs = x.acqs := by rw [putReg_regs]

@[simp] theorem setReg_pc (x : Ctx) (r : BitVec 5) (v : Word) : (setReg x r v).pc = x.pc := putReg_pc _ _ _

@[simp] theorem setReg_sys (x : Ctx) (r : BitVec 5) (v : Word) : (setReg x r v).sys = x.sys := putReg_sys _ _ _

@[simp] theorem passUnit_regs (x : Ctx) : (passUnit x).regs = x.regs := rfl

@[simp] theorem passUnit_sys (x : Ctx) : (passUnit x).sys = x.sys := rfl

@[simp] theorem getReg_passUnit (x : Ctx) (r : BitVec 5) : getReg (passUnit x) r = getReg x r := rfl

@[simp] theorem regVal_passUnit (x : Ctx) (r : BitVec 5) : regVal (passUnit x) r = regVal x r := rfl

/-! ### Issue (R130-R133, R155-R157, R543) -/

/-- What a unit that may go does: its own effect on the state past the unit, or nothing where it waits at issue. -/
theorem issue_of_go (s : State) (q : IssueSpec) (f : Issued → State → Option State)
    (h : issueVerdict (getCtx s s.focus) q = .go) :
    issue s q f =
      match f (issuedOf (getCtx s s.focus) s.focus) (setCtx s s.focus (passUnit (getCtx s s.focus))) with
      | some t => .next t
      | none => .next s := by
  unfold issue
  simp only [h] <;> rfl

/-- Everything that an issue can answer: it waits, it traps, poison spreads, or the instruction has its effect. -/
theorem issue_cases (s t : State) (q : IssueSpec) (f : Issued → State → Option State) (h : issue s q f = .next t) :
    t = s ∨
    (∃ i, issueVerdict (getCtx s s.focus) q = .trap i ∧ t = takeTrap s s.focus i) ∨
    (∃ p, issueVerdict (getCtx s s.focus) q = .spread p ∧
      t = setCtx s s.focus (q.writes.foldl (fun y r => poisonReg y r p) (passUnit (getCtx s s.focus)))) ∨
    (issueVerdict (getCtx s s.focus) q = .go ∧
      f (issuedOf (getCtx s s.focus) s.focus) (setCtx s s.focus (passUnit (getCtx s s.focus))) = some t) := by
  unfold issue at h
  simp only at h
  split at h
  · left
    injection h with h
    exact h.symm
  · right; left
    injection h with h
    exact ⟨_, by assumption, h.symm⟩
  · right; right; left
    injection h with h
    exact ⟨_, by assumption, h.symm⟩
  · split at h
    · right; right; right
      injection h with h
      subst h
      exact ⟨by assumption, by assumption⟩
    · left
      injection h with h
      exact h.symm

/-- An issue never faults and never refuses. -/
theorem issue_next (s : State) (q : IssueSpec) (f : Issued → State → Option State) : ∃ t, issue s q f = .next t := by
  unfold issue
  simp only
  split
  · exact ⟨_, rfl⟩
  · exact ⟨_, rfl⟩
  · exact ⟨_, rfl⟩
  · split
    · exact ⟨_, rfl⟩
    · exact ⟨_, rfl⟩

end Sys2Proof.Machine
end

