-- ==== Sys2Proof/Laws/Events.lean ====
section
/-! SUPPORT. Each event as the instruction of its name. -/

namespace Sys2Proof.Machine

/-- The instruction of an event's name. -/
noncomputable def instrOf (e : Event) : Instr :=
  match e with
  | .activationChoose c => .activationChoose c
  | .urgentEventArrive n => .urgentEventArrive n
  | .urgentPreempt c => .urgentPreempt c
  | .stealProbe c => .stealProbe c
  | .stealBackoffExpire c => .stealBackoffExpire c
  | .stealRequestServe n => .stealRequestServe n
  | .stealReplyArrive n => .stealReplyArrive n
  | .stealAckArrive n => .stealAckArrive n
  | .stealReplyReturn n => .stealReplyReturn n
  | .callatArrive n => .callatArrive n
  | .messageArrive n => .messageArrive n
  | .dieResourceReport die => .dieResourceReport die
  | .rootPlace ltag => .rootPlace ltag
  | .rootRecordArrive n => .rootRecordArrive n
  | .dualPairPlace k => .dualPairPlace k
  | .continuationDeliver n => .continuationDeliver n
  | .roundCloseArrive n => .roundCloseArrive n
  | .waveStart ltag => .waveStart ltag
  | .waveAnswer c => .waveAnswer c
  | .branchResolve c gen => .branchResolve c gen
  | .loadResponse n => .loadResponse n
  | .fenceComplete c => .fenceComplete c
  | .drainComplete c => .drainComplete c
  | .wfeWake c => .wfeWake c
  | .tileUnitBegin c => .tileUnitBegin c
  | .tileRowComplete c => .tileRowComplete c
  | .tileBandComplete c mismatch => .tileBandComplete c mismatch
  | .trapEntry c => .trapEntry c
  | .leaveGrant die part => .leaveGrant die part
  | .barwComplete op => .barwComplete op
  | .cntrdReading op => .cntrdReading op
  | .stationTranslate n => .stationTranslate n
  | .faultResolve port n => .faultResolve port n
  | .faultDecline port n => .faultDecline port n
  | .faultResolveTimeout port n => .faultResolveTimeout port n
  | .faultQueueRetry n => .faultQueueRetry n
  | .storePerform n => .storePerform n
  | .replicaInvalidateAck line holder => .replicaInvalidateAck line holder
  | .atomicPerform n => .atomicPerform n
  | .peerAccessArrive n => .peerAccessArrive n
  | .sliceRead n => .sliceRead n
  | .sectorFill line sector => .sectorFill line sector
  | .hotWindowEnd slice => .hotWindowEnd slice
  | .helperRead n => .helperRead n
  | .copyRowComplete op row => .copyRowComplete op row
  | .multicastDelivery op rank => .multicastDelivery op rank
  | .xmreadRequestArrive op line => .xmreadRequestArrive op line
  | .xmreadSectorSend entry => .xmreadSectorSend entry
  | .multicastEnd op => .multicastEnd op
  | .xfreeNoticeArrive n => .xfreeNoticeArrive n
  | .msPacketExecute op => .msPacketExecute op
  | .msComplete op => .msComplete op
  | .vcDeadlockTimeout p => .vcDeadlockTimeout p
  | .flowAck flow => .flowAck flow
  | .collectiveInstanceStart comm inst => .collectiveInstanceStart comm inst
  | .chunkStart die comm => .chunkStart die comm
  | .chunkReservationTimeout die comm => .chunkReservationTimeout die comm
  | .chunkEnd die => .chunkEnd die
  | .collectiveInstanceEnd comm inst => .collectiveInstanceEnd comm inst
  | .communicatorWrite comm e => .communicatorWrite comm e
  | .homeKputArrive n => .homeKputArrive n
  | .homeKreadArrive n => .homeKreadArrive n
  | .homeKtakeArrive n => .homeKtakeArrive n
  | .homeKcancelArrive n => .homeKcancelArrive n
  | .homeRedepositArrive n => .homeRedepositArrive n
  | .keyDeliveryArrive n => .keyDeliveryArrive n
  | .keyDeliveryAck n => .keyDeliveryAck n
  | .assayFirstArrival n => .assayFirstArrival n
  | .assayTwinArrival n => .assayTwinArrival n
  | .assayRetry n => .assayRetry n
  | .assayTimeout n => .assayTimeout n
  | .forwardHintArrive n => .forwardHintArrive n
  | .heldForwardRelease n => .heldForwardRelease n
  | .mapBroadcastArrive ni => .mapBroadcastArrive ni
  | .splitCopy => .splitCopy
  | .splitCutover => .splitCutover
  | .splitAbort lost => .splitAbort lost
  | .waidricMessageReceive bytes => .waidricMessageReceive bytes
  | .waidricConnectionFail modnum reqid => .waidricConnectionFail modnum reqid
  | .moduleFailed modnum => .moduleFailed modnum
  | .heapResizeRequest home base size => .heapResizeRequest home base size
  | .sliceCmbopenArrive n => .sliceCmbopenArrive n
  | .sliceCmbputArrive n => .sliceCmbputArrive n
  | .sliceCmbcloseArrive n => .sliceCmbcloseArrive n
  | .combineTimeout slice slot => .combineTimeout slice slot
  | .combineRelease slice slot => .combineRelease slice slot
  | .lingerExpire slice slot => .lingerExpire slice slot
  | .openWaitServe slice => .openWaitServe slice
  | .doorbell q value => .doorbell q value
  | .packetFetch q => .packetFetch q
  | .launchPacket q n => .launchPacket q n
  | .copyPacket q n => .copyPacket q n
  | .kputPacket q n => .kputPacket q n
  | .signalPacket q n => .signalPacket q n
  | .fencePacket q n => .fencePacket q n
  | .waitcondPacket q n => .waitcondPacket q n
  | .waitcondRetest q n => .waitcondRetest q n
  | .completionRecordWrite q n => .completionRecordWrite q n
  | .queueCommit q copyB blk word => .queueCommit q copyB blk word
  | .commitTakeEffect q => .commitTakeEffect q
  | .frontEndModeWrite v => .frontEndModeWrite v
  | .firmwareTableWrite w => .firmwareTableWrite w
  | .frameReceive port fcsOk ts bytes => .frameReceive port fcsOk ts bytes
  | .firmwareWatchdogReset blk => .firmwareWatchdogReset blk
  | .heartbeat blk answered => .heartbeat blk answered
  | .firmwareReplace blk img => .firmwareReplace blk img
  | .partitionSwitchRequest p => .partitionSwitchRequest p
  | .partitionHalt p => .partitionHalt p
  | .contextWriteOut p => .contextWriteOut p
  | .partitionRestore p onto => .partitionRestore p onto
  | .spillReloadComplete c region => .spillReloadComplete c region
  | .slotReloadComplete c slot => .slotReloadComplete c slot
  | .partitionGate p => .partitionGate p
  | .partitionWake p onto => .partitionWake p onto
  | .uncorrectableError place => .uncorrectableError place
  | .coreKill c => .coreKill c
  | .coreMapUpdateArrive ni c => .coreMapUpdateArrive ni c
  | .coreMapChangeComplete c => .coreMapChangeComplete c
  | .mismatchWindowEnd die => .mismatchWindowEnd die
  | .correctedErrorReport eng bank row col => .correctedErrorReport eng bank row col
  | .classificationWindowEnd eng => .classificationWindowEnd eng
  | .repairServe eng idx => .repairServe eng idx
  | .translationInvalidate ctx lo hi => .translationInvalidate ctx lo hi
  | .powerOn flash => .powerOn flash
  | .imageVerify blk img => .imageVerify blk img
  | .blockReady blk => .blockReady blk
  | .minSvnRaise target svn signed => .minSvnRaise target svn signed
  | .attestationRequest nonce => .attestationRequest nonce
  | .leaveCapWrite die cap => .leaveCapWrite die cap
  | .currentMonitorHigh => .currentMonitorHigh
  | .currentMonitorLowSustained => .currentMonitorLowSustained
  | .snapshotMarkerArrive tag blk => .snapshotMarkerArrive tag blk
  | .snapshotPacketRecord n blk => .snapshotPacketRecord n blk
  | .cutComplete tag => .cutComplete tag
  | .linkDeath x => .linkDeath x
  | .hostRdmaWrite conn ctx va bytes => .hostRdmaWrite conn ctx va bytes
  | .replicaDrop line holder => .replicaDrop line holder
  | .foremanCoreRestart c => .foremanCoreRestart c

/-- An event is no encoded instruction. -/
theorem encode_instrOf (e : Event) : encode (instrOf e) = none := by cases e <;> rfl

/-- An event means what the instruction of its name means (log 3). -/
theorem runEvent_exec (e : Event) (s : State) : runEvent e s = exec (instrOf e) s := by cases e <;> rfl

end Sys2Proof.Machine
end

