-- ==== Sys2Proof/Laws/Issue.lean ====
section
/-! SUPPORT. A unit that has what it needs goes (R130-R133, R155-R157), and what it answers then. -/

namespace Sys2Proof.Machine

theorem isMarked_false {x : Ctx} {r : BitVec 5} (h : (getReg x r).mark = .clear) : isMarked x r = false := by
  simp [isMarked, h]

theorem any_isMarked_false {x : Ctx} {rs : List (BitVec 5)} (h : ∀ r ∈ rs, (getReg x r).mark = .clear) :
    rs.any (isMarked x) = false := by
  rw [List.any_eq_false]
  intro r hr
  simp [isMarked_false (h r hr)]

theorem lowestPoison_none {x : Ctx} {rs : List (BitVec 5)} (h : ∀ r ∈ rs, (getReg x r).poison = none) :
    lowestPoison x rs = none := by
  unfold lowestPoison
  induction rs with
  | nil => rfl
  | cons r t ih =>
    simp only [List.foldl_cons, h r (List.mem_cons_self ..)]
    exact ih (fun q hq => h q (List.mem_cons_of_mem _ hq))

/-- A unit that has what it needs goes. -/
theorem verdict_of_goes {x : Ctx} {q : IssueSpec} (h : Goes x q) : issueVerdict x q = .go := by
  obtain ⟨hi, hp, hg, hs, hr, hw⟩ := h
  have h1 : (!q.ahead && !x.gens.isEmpty) = false := by
    rcases hg with h | h <;> simp [h]
  have h2 : (q.priv && !x.sys.sup) = false := by
    cases hq : q.priv
    · rfl
    · simp [hs hq]
  unfold issueVerdict
  simp only [h1, hi, hp, h2, any_isMarked_false (fun r m => (hr r m).1), lowestPoison_none (fun r m => (hr r m).2),
    any_isMarked_false hw, Bool.not_true, Bool.false_eq_true, if_false]

/-- What a unit that has what it needs answers. -/
theorem issue_of_goes (s : State) (q : IssueSpec) (f : Issued → State → Option State) (h : Goes (getCtx s s.focus) q) :
    issue s q f =
      match f (issuedOf (getCtx s s.focus) s.focus) (setCtx s s.focus (passUnit (getCtx s s.focus))) with
      | some t => .next t
      | none => .next s :=
  issue_of_go s q f (verdict_of_goes h)

/-- The privilege to let poison spread decides nothing for a unit that goes. -/
theorem goes_spread {x : Ctx} {q : IssueSpec} {b : Bool} (h : Goes x q) : Goes x { q with spread := b } := h

end Sys2Proof.Machine
end

