-- ==== Sys2Proof/Laws/State.lean ====
section
/-! SUPPORT. What each named update leaves of the state: one lemma for each field that it does not write. -/

namespace Sys2Proof.Machine

/-! ### setCore -/

@[simp] theorem setCore_fresh (s : State) (c : Nat) (k : Core) : (setCore s c k).fresh = s.fresh := rfl
@[simp] theorem setCore_nextId (s : State) (c : Nat) (k : Core) : (setCore s c k).nextId = s.nextId := rfl
@[simp] theorem setCore_turn (s : State) (c : Nat) (k : Core) : (setCore s c k).turn = s.turn := rfl
@[simp] theorem setCore_agenda (s : State) (c : Nat) (k : Core) : (setCore s c k).agenda = s.agenda := rfl
@[simp] theorem setCore_focus (s : State) (c : Nat) (k : Core) : (setCore s c k).focus = s.focus := rfl
@[simp] theorem setCore_hbm (s : State) (c : Nat) (k : Core) : (setCore s c k).hbm = s.hbm := rfl
@[simp] theorem setCore_remote (s : State) (c : Nat) (k : Core) : (setCore s c k).remote = s.remote := rfl
@[simp] theorem setCore_lines (s : State) (c : Nat) (k : Core) : (setCore s c k).lines = s.lines := rfl
@[simp] theorem setCore_badSectors (s : State) (c : Nat) (k : Core) : (setCore s c k).badSectors = s.badSectors := rfl
@[simp] theorem setCore_hot (s : State) (c : Nat) (k : Core) : (setCore s c k).hot = s.hot := rfl
@[simp] theorem setCore_replicas (s : State) (c : Nat) (k : Core) : (setCore s c k).replicas = s.replicas := rfl
@[simp] theorem setCore_redirects (s : State) (c : Nat) (k : Core) : (setCore s c k).redirects = s.redirects := rfl
@[simp] theorem setCore_stations (s : State) (c : Nat) (k : Core) : (setCore s c k).stations = s.stations := rfl
@[simp] theorem setCore_fq (s : State) (c : Nat) (k : Core) : (setCore s c k).fq = s.fq := rfl
@[simp] theorem setCore_accs (s : State) (c : Nat) (k : Core) : (setCore s c k).accs = s.accs := rfl
@[simp] theorem setCore_carried (s : State) (c : Nat) (k : Core) : (setCore s c k).carried = s.carried := rfl
@[simp] theorem setCore_escaped (s : State) (c : Nat) (k : Core) : (setCore s c k).escaped = s.escaped := rfl
@[simp] theorem setCore_escLoose (s : State) (c : Nat) (k : Core) : (setCore s c k).escLoose = s.escLoose := rfl
@[simp] theorem setCore_ops (s : State) (c : Nat) (k : Core) : (setCore s c k).ops = s.ops := rfl
@[simp] theorem setCore_merges (s : State) (c : Nat) (k : Core) : (setCore s c k).merges = s.merges := rfl
@[simp] theorem setCore_msgs (s : State) (c : Nat) (k : Core) : (setCore s c k).msgs = s.msgs := rfl
@[simp] theorem setCore_parts (s : State) (c : Nat) (k : Core) : (setCore s c k).parts = s.parts := rfl
@[simp] theorem setCore_groups (s : State) (c : Nat) (k : Core) : (setCore s c k).groups = s.groups := rfl
@[simp] theorem setCore_coreMap (s : State) (c : Nat) (k : Core) : (setCore s c k).coreMap = s.coreMap := rfl
@[simp] theorem setCore_mapChanges (s : State) (c : Nat) (k : Core) : (setCore s c k).mapChanges = s.mapChanges := rfl
@[simp] theorem setCore_launches (s : State) (c : Nat) (k : Core) : (setCore s c k).launches = s.launches := rfl
@[simp] theorem setCore_lastLtag (s : State) (c : Nat) (k : Core) : (setCore s c k).lastLtag = s.lastLtag := rfl
@[simp] theorem setCore_rootWaits (s : State) (c : Nat) (k : Core) : (setCore s c k).rootWaits = s.rootWaits := rfl
@[simp] theorem setCore_dualWaits (s : State) (c : Nat) (k : Core) : (setCore s c k).dualWaits = s.dualWaits := rfl
@[simp] theorem setCore_pairs (s : State) (c : Nat) (k : Core) : (setCore s c k).pairs = s.pairs := rfl
@[simp] theorem setCore_nextPair (s : State) (c : Nat) (k : Core) : (setCore s c k).nextPair = s.nextPair := rfl
@[simp] theorem setCore_dieReports (s : State) (c : Nat) (k : Core) : (setCore s c k).dieReports = s.dieReports := rfl
@[simp] theorem setCore_pools (s : State) (c : Nat) (k : Core) : (setCore s c k).pools = s.pools := rfl
@[simp] theorem setCore_comms (s : State) (c : Nat) (k : Core) : (setCore s c k).comms = s.comms := rfl
@[simp] theorem setCore_instances (s : State) (c : Nat) (k : Core) : (setCore s c k).instances = s.instances := rfl
@[simp] theorem setCore_colJoins (s : State) (c : Nat) (k : Core) : (setCore s c k).colJoins = s.colJoins := rfl
@[simp] theorem setCore_engines (s : State) (c : Nat) (k : Core) : (setCore s c k).engines = s.engines := rfl
@[simp] theorem setCore_homes (s : State) (c : Nat) (k : Core) : (setCore s c k).homes = s.homes := rfl
@[simp] theorem setCore_absentHomes (s : State) (c : Nat) (k : Core) : (setCore s c k).absentHomes = s.absentHomes := rfl
@[simp] theorem setCore_homeMap (s : State) (c : Nat) (k : Core) : (setCore s c k).homeMap = s.homeMap := rfl
@[simp] theorem setCore_mapCopies (s : State) (c : Nat) (k : Core) : (setCore s c k).mapCopies = s.mapCopies := rfl
@[simp] theorem setCore_hints (s : State) (c : Nat) (k : Core) : (setCore s c k).hints = s.hints := rfl
@[simp] theorem setCore_split (s : State) (c : Nat) (k : Core) : (setCore s c k).split = s.split := rfl
@[simp] theorem setCore_splitIn (s : State) (c : Nat) (k : Core) : (setCore s c k).splitIn = s.splitIn := rfl
@[simp] theorem setCore_splitReqs (s : State) (c : Nat) (k : Core) : (setCore s c k).splitReqs = s.splitReqs := rfl
@[simp] theorem setCore_splitLock (s : State) (c : Nat) (k : Core) : (setCore s c k).splitLock = s.splitLock := rfl
@[simp] theorem setCore_domainModules (s : State) (c : Nat) (k : Core) : (setCore s c k).domainModules = s.domainModules := rfl
@[simp] theorem setCore_localMod (s : State) (c : Nat) (k : Core) : (setCore s c k).localMod = s.localMod := rfl
@[simp] theorem setCore_waidric (s : State) (c : Nat) (k : Core) : (setCore s c k).waidric = s.waidric := rfl
@[simp] theorem setCore_waidricOut (s : State) (c : Nat) (k : Core) : (setCore s c k).waidricOut = s.waidricOut := rfl
@[simp] theorem setCore_failedModules (s : State) (c : Nat) (k : Core) : (setCore s c k).failedModules = s.failedModules := rfl
@[simp] theorem setCore_keyReqs (s : State) (c : Nat) (k : Core) : (setCore s c k).keyReqs = s.keyReqs := rfl
@[simp] theorem setCore_deliveries (s : State) (c : Nat) (k : Core) : (setCore s c k).deliveries = s.deliveries := rfl
@[simp] theorem setCore_acks (s : State) (c : Nat) (k : Core) : (setCore s c k).acks = s.acks := rfl
@[simp] theorem setCore_slices (s : State) (c : Nat) (k : Core) : (setCore s c k).slices = s.slices := rfl
@[simp] theorem setCore_cmbMsgs (s : State) (c : Nat) (k : Core) : (setCore s c k).cmbMsgs = s.cmbMsgs := rfl
@[simp] theorem setCore_queues (s : State) (c : Nat) (k : Core) : (setCore s c k).queues = s.queues := rfl
@[simp] theorem setCore_feMode (s : State) (c : Nat) (k : Core) : (setCore s c k).feMode = s.feMode := rfl
@[simp] theorem setCore_feSaved (s : State) (c : Nat) (k : Core) : (setCore s c k).feSaved = s.feSaved := rfl
@[simp] theorem setCore_hostWaits (s : State) (c : Nat) (k : Core) : (setCore s c k).hostWaits = s.hostWaits := rfl
@[simp] theorem setCore_classifier (s : State) (c : Nat) (k : Core) : (setCore s c k).classifier = s.classifier := rfl
@[simp] theorem setCore_ingress (s : State) (c : Nat) (k : Core) : (setCore s c k).ingress = s.ingress := rfl
@[simp] theorem setCore_portFrames (s : State) (c : Nat) (k : Core) : (setCore s c k).portFrames = s.portFrames := rfl
@[simp] theorem setCore_feUrgents (s : State) (c : Nat) (k : Core) : (setCore s c k).feUrgents = s.feUrgents := rfl
@[simp] theorem setCore_counters (s : State) (c : Nat) (k : Core) : (setCore s c k).counters = s.counters := rfl
@[simp] theorem setCore_errTables (s : State) (c : Nat) (k : Core) : (setCore s c k).errTables = s.errTables := rfl
@[simp] theorem setCore_notices (s : State) (c : Nat) (k : Core) : (setCore s c k).notices = s.notices := rfl
@[simp] theorem setCore_mismatches (s : State) (c : Nat) (k : Core) : (setCore s c k).mismatches = s.mismatches := rfl
@[simp] theorem setCore_deadPhys (s : State) (c : Nat) (k : Core) : (setCore s c k).deadPhys = s.deadPhys := rfl
@[simp] theorem setCore_firmware (s : State) (c : Nat) (k : Core) : (setCore s c k).firmware = s.firmware := rfl
@[simp] theorem setCore_minSvn (s : State) (c : Nat) (k : Core) : (setCore s c k).minSvn = s.minSvn := rfl
@[simp] theorem setCore_flash (s : State) (c : Nat) (k : Core) : (setCore s c k).flash = s.flash := rfl
@[simp] theorem setCore_replacements (s : State) (c : Nat) (k : Core) : (setCore s c k).replacements = s.replacements := rfl
@[simp] theorem setCore_reports (s : State) (c : Nat) (k : Core) : (setCore s c k).reports = s.reports := rfl
@[simp] theorem setCore_cuts (s : State) (c : Nat) (k : Core) : (setCore s c k).cuts = s.cuts := rfl
@[simp] theorem setCore_cutReports (s : State) (c : Nat) (k : Core) : (setCore s c k).cutReports = s.cutReports := rfl

/-! ### modCore -/

@[simp] theorem modCore_fresh (s : State) (c : Nat) (f : Core → Core) : (modCore s c f).fresh = s.fresh := rfl
@[simp] theorem modCore_nextId (s : State) (c : Nat) (f : Core → Core) : (modCore s c f).nextId = s.nextId := rfl
@[simp] theorem modCore_turn (s : State) (c : Nat) (f : Core → Core) : (modCore s c f).turn = s.turn := rfl
@[simp] theorem modCore_agenda (s : State) (c : Nat) (f : Core → Core) : (modCore s c f).agenda = s.agenda := rfl
@[simp] theorem modCore_focus (s : State) (c : Nat) (f : Core → Core) : (modCore s c f).focus = s.focus := rfl
@[simp] theorem modCore_hbm (s : State) (c : Nat) (f : Core → Core) : (modCore s c f).hbm = s.hbm := rfl
@[simp] theorem modCore_remote (s : State) (c : Nat) (f : Core → Core) : (modCore s c f).remote = s.remote := rfl
@[simp] theorem modCore_lines (s : State) (c : Nat) (f : Core → Core) : (modCore s c f).lines = s.lines := rfl
@[simp] theorem modCore_badSectors (s : State) (c : Nat) (f : Core → Core) : (modCore s c f).badSectors = s.badSectors := rfl
@[simp] theorem modCore_hot (s : State) (c : Nat) (f : Core → Core) : (modCore s c f).hot = s.hot := rfl
@[simp] theorem modCore_replicas (s : State) (c : Nat) (f : Core → Core) : (modCore s c f).replicas = s.replicas := rfl
@[simp] theorem modCore_redirects (s : State) (c : Nat) (f : Core → Core) : (modCore s c f).redirects = s.redirects := rfl
@[simp] theorem modCore_stations (s : State) (c : Nat) (f : Core → Core) : (modCore s c f).stations = s.stations := rfl
@[simp] theorem modCore_fq (s : State) (c : Nat) (f : Core → Core) : (modCore s c f).fq = s.fq := rfl
@[simp] theorem modCore_accs (s : State) (c : Nat) (f : Core → Core) : (modCore s c f).accs = s.accs := rfl
@[simp] theorem modCore_carried (s : State) (c : Nat) (f : Core → Core) : (modCore s c f).carried = s.carried := rfl
@[simp] theorem modCore_escaped (s : State) (c : Nat) (f : Core → Core) : (modCore s c f).escaped = s.escaped := rfl
@[simp] theorem modCore_escLoose (s : State) (c : Nat) (f : Core → Core) : (modCore s c f).escLoose = s.escLoose := rfl
@[simp] theorem modCore_ops (s : State) (c : Nat) (f : Core → Core) : (modCore s c f).ops = s.ops := rfl
@[simp] theorem modCore_merges (s : State) (c : Nat) (f : Core → Core) : (modCore s c f).merges = s.merges := rfl
@[simp] theorem modCore_msgs (s : State) (c : Nat) (f : Core → Core) : (modCore s c f).msgs = s.msgs := rfl
@[simp] theorem modCore_parts (s : State) (c : Nat) (f : Core → Core) : (modCore s c f).parts = s.parts := rfl
@[simp] theorem modCore_groups (s : State) (c : Nat) (f : Core → Core) : (modCore s c f).groups = s.groups := rfl
@[simp] theorem modCore_coreMap (s : State) (c : Nat) (f : Core → Core) : (modCore s c f).coreMap = s.coreMap := rfl
@[simp] theorem modCore_mapChanges (s : State) (c : Nat) (f : Core → Core) : (modCore s c f).mapChanges = s.mapChanges := rfl
@[simp] theorem modCore_launches (s : State) (c : Nat) (f : Core → Core) : (modCore s c f).launches = s.launches := rfl
@[simp] theorem modCore_lastLtag (s : State) (c : Nat) (f : Core → Core) : (modCore s c f).lastLtag = s.lastLtag := rfl
@[simp] theorem modCore_rootWaits (s : State) (c : Nat) (f : Core → Core) : (modCore s c f).rootWaits = s.rootWaits := rfl
@[simp] theorem modCore_dualWaits (s : State) (c : Nat) (f : Core → Core) : (modCore s c f).dualWaits = s.dualWaits := rfl
@[simp] theorem modCore_pairs (s : State) (c : Nat) (f : Core → Core) : (modCore s c f).pairs = s.pairs := rfl
@[simp] theorem modCore_nextPair (s : State) (c : Nat) (f : Core → Core) : (modCore s c f).nextPair = s.nextPair := rfl
@[simp] theorem modCore_dieReports (s : State) (c : Nat) (f : Core → Core) : (modCore s c f).dieReports = s.dieReports := rfl
@[simp] theorem modCore_pools (s : State) (c : Nat) (f : Core → Core) : (modCore s c f).pools = s.pools := rfl
@[simp] theorem modCore_comms (s : State) (c : Nat) (f : Core → Core) : (modCore s c f).comms = s.comms := rfl
@[simp] theorem modCore_instances (s : State) (c : Nat) (f : Core → Core) : (modCore s c f).instances = s.instances := rfl
@[simp] theorem modCore_colJoins (s : State) (c : Nat) (f : Core → Core) : (modCore s c f).colJoins = s.colJoins := rfl
@[simp] theorem modCore_engines (s : State) (c : Nat) (f : Core → Core) : (modCore s c f).engines = s.engines := rfl
@[simp] theorem modCore_homes (s : State) (c : Nat) (f : Core → Core) : (modCore s c f).homes = s.homes := rfl
@[simp] theorem modCore_absentHomes (s : State) (c : Nat) (f : Core → Core) : (modCore s c f).absentHomes = s.absentHomes := rfl
@[simp] theorem modCore_homeMap (s : State) (c : Nat) (f : Core → Core) : (modCore s c f).homeMap = s.homeMap := rfl
@[simp] theorem modCore_mapCopies (s : State) (c : Nat) (f : Core → Core) : (modCore s c f).mapCopies = s.mapCopies := rfl
@[simp] theorem modCore_hints (s : State) (c : Nat) (f : Core → Core) : (modCore s c f).hints = s.hints := rfl
@[simp] theorem modCore_split (s : State) (c : Nat) (f : Core → Core) : (modCore s c f).split = s.split := rfl
@[simp] theorem modCore_splitIn (s : State) (c : Nat) (f : Core → Core) : (modCore s c f).splitIn = s.splitIn := rfl
@[simp] theorem modCore_splitReqs (s : State) (c : Nat) (f : Core → Core) : (modCore s c f).splitReqs = s.splitReqs := rfl
@[simp] theorem modCore_splitLock (s : State) (c : Nat) (f : Core → Core) : (modCore s c f).splitLock = s.splitLock := rfl
@[simp] theorem modCore_domainModules (s : State) (c : Nat) (f : Core → Core) : (modCore s c f).domainModules = s.domainModules := rfl
@[simp] theorem modCore_localMod (s : State) (c : Nat) (f : Core → Core) : (modCore s c f).localMod = s.localMod := rfl
@[simp] theorem modCore_waidric (s : State) (c : Nat) (f : Core → Core) : (modCore s c f).waidric = s.waidric := rfl
@[simp] theorem modCore_waidricOut (s : State) (c : Nat) (f : Core → Core) : (modCore s c f).waidricOut = s.waidricOut := rfl
@[simp] theorem modCore_failedModules (s : State) (c : Nat) (f : Core → Core) : (modCore s c f).failedModules = s.failedModules := rfl
@[simp] theorem modCore_keyReqs (s : State) (c : Nat) (f : Core → Core) : (modCore s c f).keyReqs = s.keyReqs := rfl
@[simp] theorem modCore_deliveries (s : State) (c : Nat) (f : Core → Core) : (modCore s c f).deliveries = s.deliveries := rfl
@[simp] theorem modCore_acks (s : State) (c : Nat) (f : Core → Core) : (modCore s c f).acks = s.acks := rfl
@[simp] theorem modCore_slices (s : State) (c : Nat) (f : Core → Core) : (modCore s c f).slices = s.slices := rfl
@[simp] theorem modCore_cmbMsgs (s : State) (c : Nat) (f : Core → Core) : (modCore s c f).cmbMsgs = s.cmbMsgs := rfl
@[simp] theorem modCore_queues (s : State) (c : Nat) (f : Core → Core) : (modCore s c f).queues = s.queues := rfl
@[simp] theorem modCore_feMode (s : State) (c : Nat) (f : Core → Core) : (modCore s c f).feMode = s.feMode := rfl
@[simp] theorem modCore_feSaved (s : State) (c : Nat) (f : Core → Core) : (modCore s c f).feSaved = s.feSaved := rfl
@[simp] theorem modCore_hostWaits (s : State) (c : Nat) (f : Core → Core) : (modCore s c f).hostWaits = s.hostWaits := rfl
@[simp] theorem modCore_classifier (s : State) (c : Nat) (f : Core → Core) : (modCore s c f).classifier = s.classifier := rfl
@[simp] theorem modCore_ingress (s : State) (c : Nat) (f : Core → Core) : (modCore s c f).ingress = s.ingress := rfl
@[simp] theorem modCore_portFrames (s : State) (c : Nat) (f : Core → Core) : (modCore s c f).portFrames = s.portFrames := rfl
@[simp] theorem modCore_feUrgents (s : State) (c : Nat) (f : Core → Core) : (modCore s c f).feUrgents = s.feUrgents := rfl
@[simp] theorem modCore_counters (s : State) (c : Nat) (f : Core → Core) : (modCore s c f).counters = s.counters := rfl
@[simp] theorem modCore_errTables (s : State) (c : Nat) (f : Core → Core) : (modCore s c f).errTables = s.errTables := rfl
@[simp] theorem modCore_notices (s : State) (c : Nat) (f : Core → Core) : (modCore s c f).notices = s.notices := rfl
@[simp] theorem modCore_mismatches (s : State) (c : Nat) (f : Core → Core) : (modCore s c f).mismatches = s.mismatches := rfl
@[simp] theorem modCore_deadPhys (s : State) (c : Nat) (f : Core → Core) : (modCore s c f).deadPhys = s.deadPhys := rfl
@[simp] theorem modCore_firmware (s : State) (c : Nat) (f : Core → Core) : (modCore s c f).firmware = s.firmware := rfl
@[simp] theorem modCore_minSvn (s : State) (c : Nat) (f : Core → Core) : (modCore s c f).minSvn = s.minSvn := rfl
@[simp] theorem modCore_flash (s : State) (c : Nat) (f : Core → Core) : (modCore s c f).flash = s.flash := rfl
@[simp] theorem modCore_replacements (s : State) (c : Nat) (f : Core → Core) : (modCore s c f).replacements = s.replacements := rfl
@[simp] theorem modCore_reports (s : State) (c : Nat) (f : Core → Core) : (modCore s c f).reports = s.reports := rfl
@[simp] theorem modCore_cuts (s : State) (c : Nat) (f : Core → Core) : (modCore s c f).cuts = s.cuts := rfl
@[simp] theorem modCore_cutReports (s : State) (c : Nat) (f : Core → Core) : (modCore s c f).cutReports = s.cutReports := rfl

/-! ### setCtx -/

@[simp] theorem setCtx_fresh (s : State) (c : Nat) (x : Ctx) : (setCtx s c x).fresh = s.fresh := rfl
@[simp] theorem setCtx_nextId (s : State) (c : Nat) (x : Ctx) : (setCtx s c x).nextId = s.nextId := rfl
@[simp] theorem setCtx_turn (s : State) (c : Nat) (x : Ctx) : (setCtx s c x).turn = s.turn := rfl
@[simp] theorem setCtx_agenda (s : State) (c : Nat) (x : Ctx) : (setCtx s c x).agenda = s.agenda := rfl
@[simp] theorem setCtx_focus (s : State) (c : Nat) (x : Ctx) : (setCtx s c x).focus = s.focus := rfl
@[simp] theorem setCtx_hbm (s : State) (c : Nat) (x : Ctx) : (setCtx s c x).hbm = s.hbm := rfl
@[simp] theorem setCtx_remote (s : State) (c : Nat) (x : Ctx) : (setCtx s c x).remote = s.remote := rfl
@[simp] theorem setCtx_lines (s : State) (c : Nat) (x : Ctx) : (setCtx s c x).lines = s.lines := rfl
@[simp] theorem setCtx_badSectors (s : State) (c : Nat) (x : Ctx) : (setCtx s c x).badSectors = s.badSectors := rfl
@[simp] theorem setCtx_hot (s : State) (c : Nat) (x : Ctx) : (setCtx s c x).hot = s.hot := rfl
@[simp] theorem setCtx_replicas (s : State) (c : Nat) (x : Ctx) : (setCtx s c x).replicas = s.replicas := rfl
@[simp] theorem setCtx_redirects (s : State) (c : Nat) (x : Ctx) : (setCtx s c x).redirects = s.redirects := rfl
@[simp] theorem setCtx_stations (s : State) (c : Nat) (x : Ctx) : (setCtx s c x).stations = s.stations := rfl
@[simp] theorem setCtx_fq (s : State) (c : Nat) (x : Ctx) : (setCtx s c x).fq = s.fq := rfl
@[simp] theorem setCtx_accs (s : State) (c : Nat) (x : Ctx) : (setCtx s c x).accs = s.accs := rfl
@[simp] theorem setCtx_carried (s : State) (c : Nat) (x : Ctx) : (setCtx s c x).carried = s.carried := rfl
@[simp] theorem setCtx_escaped (s : State) (c : Nat) (x : Ctx) : (setCtx s c x).escaped = s.escaped := rfl
@[simp] theorem setCtx_escLoose (s : State) (c : Nat) (x : Ctx) : (setCtx s c x).escLoose = s.escLoose := rfl
@[simp] theorem setCtx_ops (s : State) (c : Nat) (x : Ctx) : (setCtx s c x).ops = s.ops := rfl
@[simp] theorem setCtx_merges (s : State) (c : Nat) (x : Ctx) : (setCtx s c x).merges = s.merges := rfl
@[simp] theorem setCtx_msgs (s : State) (c : Nat) (x : Ctx) : (setCtx s c x).msgs = s.msgs := rfl
@[simp] theorem setCtx_parts (s : State) (c : Nat) (x : Ctx) : (setCtx s c x).parts = s.parts := rfl
@[simp] theorem setCtx_groups (s : State) (c : Nat) (x : Ctx) : (setCtx s c x).groups = s.groups := rfl
@[simp] theorem setCtx_coreMap (s : State) (c : Nat) (x : Ctx) : (setCtx s c x).coreMap = s.coreMap := rfl
@[simp] theorem setCtx_mapChanges (s : State) (c : Nat) (x : Ctx) : (setCtx s c x).mapChanges = s.mapChanges := rfl
@[simp] theorem setCtx_launches (s : State) (c : Nat) (x : Ctx) : (setCtx s c x).launches = s.launches := rfl
@[simp] theorem setCtx_lastLtag (s : State) (c : Nat) (x : Ctx) : (setCtx s c x).lastLtag = s.lastLtag := rfl
@[simp] theorem setCtx_rootWaits (s : State) (c : Nat) (x : Ctx) : (setCtx s c x).rootWaits = s.rootWaits := rfl
@[simp] theorem setCtx_dualWaits (s : State) (c : Nat) (x : Ctx) : (setCtx s c x).dualWaits = s.dualWaits := rfl
@[simp] theorem setCtx_pairs (s : State) (c : Nat) (x : Ctx) : (setCtx s c x).pairs = s.pairs := rfl
@[simp] theorem setCtx_nextPair (s : State) (c : Nat) (x : Ctx) : (setCtx s c x).nextPair = s.nextPair := rfl
@[simp] theorem setCtx_dieReports (s : State) (c : Nat) (x : Ctx) : (setCtx s c x).dieReports = s.dieReports := rfl
@[simp] theorem setCtx_pools (s : State) (c : Nat) (x : Ctx) : (setCtx s c x).pools = s.pools := rfl
@[simp] theorem setCtx_comms (s : State) (c : Nat) (x : Ctx) : (setCtx s c x).comms = s.comms := rfl
@[simp] theorem setCtx_instances (s : State) (c : Nat) (x : Ctx) : (setCtx s c x).instances = s.instances := rfl
@[simp] theorem setCtx_colJoins (s : State) (c : Nat) (x : Ctx) : (setCtx s c x).colJoins = s.colJoins := rfl
@[simp] theorem setCtx_engines (s : State) (c : Nat) (x : Ctx) : (setCtx s c x).engines = s.engines := rfl
@[simp] theorem setCtx_homes (s : State) (c : Nat) (x : Ctx) : (setCtx s c x).homes = s.homes := rfl
@[simp] theorem setCtx_absentHomes (s : State) (c : Nat) (x : Ctx) : (setCtx s c x).absentHomes = s.absentHomes := rfl
@[simp] theorem setCtx_homeMap (s : State) (c : Nat) (x : Ctx) : (setCtx s c x).homeMap = s.homeMap := rfl
@[simp] theorem setCtx_mapCopies (s : State) (c : Nat) (x : Ctx) : (setCtx s c x).mapCopies = s.mapCopies := rfl
@[simp] theorem setCtx_hints (s : State) (c : Nat) (x : Ctx) : (setCtx s c x).hints = s.hints := rfl
@[simp] theorem setCtx_split (s : State) (c : Nat) (x : Ctx) : (setCtx s c x).split = s.split := rfl
@[simp] theorem setCtx_splitIn (s : State) (c : Nat) (x : Ctx) : (setCtx s c x).splitIn = s.splitIn := rfl
@[simp] theorem setCtx_splitReqs (s : State) (c : Nat) (x : Ctx) : (setCtx s c x).splitReqs = s.splitReqs := rfl
@[simp] theorem setCtx_splitLock (s : State) (c : Nat) (x : Ctx) : (setCtx s c x).splitLock = s.splitLock := rfl
@[simp] theorem setCtx_domainModules (s : State) (c : Nat) (x : Ctx) : (setCtx s c x).domainModules = s.domainModules := rfl
@[simp] theorem setCtx_localMod (s : State) (c : Nat) (x : Ctx) : (setCtx s c x).localMod = s.localMod := rfl
@[simp] theorem setCtx_waidric (s : State) (c : Nat) (x : Ctx) : (setCtx s c x).waidric = s.waidric := rfl
@[simp] theorem setCtx_waidricOut (s : State) (c : Nat) (x : Ctx) : (setCtx s c x).waidricOut = s.waidricOut := rfl
@[simp] theorem setCtx_failedModules (s : State) (c : Nat) (x : Ctx) : (setCtx s c x).failedModules = s.failedModules := rfl
@[simp] theorem setCtx_keyReqs (s : State) (c : Nat) (x : Ctx) : (setCtx s c x).keyReqs = s.keyReqs := rfl
@[simp] theorem setCtx_deliveries (s : State) (c : Nat) (x : Ctx) : (setCtx s c x).deliveries = s.deliveries := rfl
@[simp] theorem setCtx_acks (s : State) (c : Nat) (x : Ctx) : (setCtx s c x).acks = s.acks := rfl
@[simp] theorem setCtx_slices (s : State) (c : Nat) (x : Ctx) : (setCtx s c x).slices = s.slices := rfl
@[simp] theorem setCtx_cmbMsgs (s : State) (c : Nat) (x : Ctx) : (setCtx s c x).cmbMsgs = s.cmbMsgs := rfl
@[simp] theorem setCtx_queues (s : State) (c : Nat) (x : Ctx) : (setCtx s c x).queues = s.queues := rfl
@[simp] theorem setCtx_feMode (s : State) (c : Nat) (x : Ctx) : (setCtx s c x).feMode = s.feMode := rfl
@[simp] theorem setCtx_feSaved (s : State) (c : Nat) (x : Ctx) : (setCtx s c x).feSaved = s.feSaved := rfl
@[simp] theorem setCtx_hostWaits (s : State) (c : Nat) (x : Ctx) : (setCtx s c x).hostWaits = s.hostWaits := rfl
@[simp] theorem setCtx_classifier (s : State) (c : Nat) (x : Ctx) : (setCtx s c x).classifier = s.classifier := rfl
@[simp] theorem setCtx_ingress (s : State) (c : Nat) (x : Ctx) : (setCtx s c x).ingress = s.ingress := rfl
@[simp] theorem setCtx_portFrames (s : State) (c : Nat) (x : Ctx) : (setCtx s c x).portFrames = s.portFrames := rfl
@[simp] theorem setCtx_feUrgents (s : State) (c : Nat) (x : Ctx) : (setCtx s c x).feUrgents = s.feUrgents := rfl
@[simp] theorem setCtx_counters (s : State) (c : Nat) (x : Ctx) : (setCtx s c x).counters = s.counters := rfl
@[simp] theorem setCtx_errTables (s : State) (c : Nat) (x : Ctx) : (setCtx s c x).errTables = s.errTables := rfl
@[simp] theorem setCtx_notices (s : State) (c : Nat) (x : Ctx) : (setCtx s c x).notices = s.notices := rfl
@[simp] theorem setCtx_mismatches (s : State) (c : Nat) (x : Ctx) : (setCtx s c x).mismatches = s.mismatches := rfl
@[simp] theorem setCtx_deadPhys (s : State) (c : Nat) (x : Ctx) : (setCtx s c x).deadPhys = s.deadPhys := rfl
@[simp] theorem setCtx_firmware (s : State) (c : Nat) (x : Ctx) : (setCtx s c x).firmware = s.firmware := rfl
@[simp] theorem setCtx_minSvn (s : State) (c : Nat) (x : Ctx) : (setCtx s c x).minSvn = s.minSvn := rfl
@[simp] theorem setCtx_flash (s : State) (c : Nat) (x : Ctx) : (setCtx s c x).flash = s.flash := rfl
@[simp] theorem setCtx_replacements (s : State) (c : Nat) (x : Ctx) : (setCtx s c x).replacements = s.replacements := rfl
@[simp] theorem setCtx_reports (s : State) (c : Nat) (x : Ctx) : (setCtx s c x).reports = s.reports := rfl
@[simp] theorem setCtx_cuts (s : State) (c : Nat) (x : Ctx) : (setCtx s c x).cuts = s.cuts := rfl
@[simp] theorem setCtx_cutReports (s : State) (c : Nat) (x : Ctx) : (setCtx s c x).cutReports = s.cutReports := rfl

/-! ### modCtx -/

@[simp] theorem modCtx_fresh (s : State) (c : Nat) (f : Ctx → Ctx) : (modCtx s c f).fresh = s.fresh := rfl
@[simp] theorem modCtx_nextId (s : State) (c : Nat) (f : Ctx → Ctx) : (modCtx s c f).nextId = s.nextId := rfl
@[simp] theorem modCtx_turn (s : State) (c : Nat) (f : Ctx → Ctx) : (modCtx s c f).turn = s.turn := rfl
@[simp] theorem modCtx_agenda (s : State) (c : Nat) (f : Ctx → Ctx) : (modCtx s c f).agenda = s.agenda := rfl
@[simp] theorem modCtx_focus (s : State) (c : Nat) (f : Ctx → Ctx) : (modCtx s c f).focus = s.focus := rfl
@[simp] theorem modCtx_hbm (s : State) (c : Nat) (f : Ctx → Ctx) : (modCtx s c f).hbm = s.hbm := rfl
@[simp] theorem modCtx_remote (s : State) (c : Nat) (f : Ctx → Ctx) : (modCtx s c f).remote = s.remote := rfl
@[simp] theorem modCtx_lines (s : State) (c : Nat) (f : Ctx → Ctx) : (modCtx s c f).lines = s.lines := rfl
@[simp] theorem modCtx_badSectors (s : State) (c : Nat) (f : Ctx → Ctx) : (modCtx s c f).badSectors = s.badSectors := rfl
@[simp] theorem modCtx_hot (s : State) (c : Nat) (f : Ctx → Ctx) : (modCtx s c f).hot = s.hot := rfl
@[simp] theorem modCtx_replicas (s : State) (c : Nat) (f : Ctx → Ctx) : (modCtx s c f).replicas = s.replicas := rfl
@[simp] theorem modCtx_redirects (s : State) (c : Nat) (f : Ctx → Ctx) : (modCtx s c f).redirects = s.redirects := rfl
@[simp] theorem modCtx_stations (s : State) (c : Nat) (f : Ctx → Ctx) : (modCtx s c f).stations = s.stations := rfl
@[simp] theorem modCtx_fq (s : State) (c : Nat) (f : Ctx → Ctx) : (modCtx s c f).fq = s.fq := rfl
@[simp] theorem modCtx_accs (s : State) (c : Nat) (f : Ctx → Ctx) : (modCtx s c f).accs = s.accs := rfl
@[simp] theorem modCtx_carried (s : State) (c : Nat) (f : Ctx → Ctx) : (modCtx s c f).carried = s.carried := rfl
@[simp] theorem modCtx_escaped (s : State) (c : Nat) (f : Ctx → Ctx) : (modCtx s c f).escaped = s.escaped := rfl
@[simp] theorem modCtx_escLoose (s : State) (c : Nat) (f : Ctx → Ctx) : (modCtx s c f).escLoose = s.escLoose := rfl
@[simp] theorem modCtx_ops (s : State) (c : Nat) (f : Ctx → Ctx) : (modCtx s c f).ops = s.ops := rfl
@[simp] theorem modCtx_merges (s : State) (c : Nat) (f : Ctx → Ctx) : (modCtx s c f).merges = s.merges := rfl
@[simp] theorem modCtx_msgs (s : State) (c : Nat) (f : Ctx → Ctx) : (modCtx s c f).msgs = s.msgs := rfl
@[simp] theorem modCtx_parts (s : State) (c : Nat) (f : Ctx → Ctx) : (modCtx s c f).parts = s.parts := rfl
@[simp] theorem modCtx_groups (s : State) (c : Nat) (f : Ctx → Ctx) : (modCtx s c f).groups = s.groups := rfl
@[simp] theorem modCtx_coreMap (s : State) (c : Nat) (f : Ctx → Ctx) : (modCtx s c f).coreMap = s.coreMap := rfl
@[simp] theorem modCtx_mapChanges (s : State) (c : Nat) (f : Ctx → Ctx) : (modCtx s c f).mapChanges = s.mapChanges := rfl
@[simp] theorem modCtx_launches (s : State) (c : Nat) (f : Ctx → Ctx) : (modCtx s c f).launches = s.launches := rfl
@[simp] theorem modCtx_lastLtag (s : State) (c : Nat) (f : Ctx → Ctx) : (modCtx s c f).lastLtag = s.lastLtag := rfl
@[simp] theorem modCtx_rootWaits (s : State) (c : Nat) (f : Ctx → Ctx) : (modCtx s c f).rootWaits = s.rootWaits := rfl
@[simp] theorem modCtx_dualWaits (s : State) (c : Nat) (f : Ctx → Ctx) : (modCtx s c f).dualWaits = s.dualWaits := rfl
@[simp] theorem modCtx_pairs (s : State) (c : Nat) (f : Ctx → Ctx) : (modCtx s c f).pairs = s.pairs := rfl
@[simp] theorem modCtx_nextPair (s : State) (c : Nat) (f : Ctx → Ctx) : (modCtx s c f).nextPair = s.nextPair := rfl
@[simp] theorem modCtx_dieReports (s : State) (c : Nat) (f : Ctx → Ctx) : (modCtx s c f).dieReports = s.dieReports := rfl
@[simp] theorem modCtx_pools (s : State) (c : Nat) (f : Ctx → Ctx) : (modCtx s c f).pools = s.pools := rfl
@[simp] theorem modCtx_comms (s : State) (c : Nat) (f : Ctx → Ctx) : (modCtx s c f).comms = s.comms := rfl
@[simp] theorem modCtx_instances (s : State) (c : Nat) (f : Ctx → Ctx) : (modCtx s c f).instances = s.instances := rfl
@[simp] theorem modCtx_colJoins (s : State) (c : Nat) (f : Ctx → Ctx) : (modCtx s c f).colJoins = s.colJoins := rfl
@[simp] theorem modCtx_engines (s : State) (c : Nat) (f : Ctx → Ctx) : (modCtx s c f).engines = s.engines := rfl
@[simp] theorem modCtx_homes (s : State) (c : Nat) (f : Ctx → Ctx) : (modCtx s c f).homes = s.homes := rfl
@[simp] theorem modCtx_absentHomes (s : State) (c : Nat) (f : Ctx → Ctx) : (modCtx s c f).absentHomes = s.absentHomes := rfl
@[simp] theorem modCtx_homeMap (s : State) (c : Nat) (f : Ctx → Ctx) : (modCtx s c f).homeMap = s.homeMap := rfl
@[simp] theorem modCtx_mapCopies (s : State) (c : Nat) (f : Ctx → Ctx) : (modCtx s c f).mapCopies = s.mapCopies := rfl
@[simp] theorem modCtx_hints (s : State) (c : Nat) (f : Ctx → Ctx) : (modCtx s c f).hints = s.hints := rfl
@[simp] theorem modCtx_split (s : State) (c : Nat) (f : Ctx → Ctx) : (modCtx s c f).split = s.split := rfl
@[simp] theorem modCtx_splitIn (s : State) (c : Nat) (f : Ctx → Ctx) : (modCtx s c f).splitIn = s.splitIn := rfl
@[simp] theorem modCtx_splitReqs (s : State) (c : Nat) (f : Ctx → Ctx) : (modCtx s c f).splitReqs = s.splitReqs := rfl
@[simp] theorem modCtx_splitLock (s : State) (c : Nat) (f : Ctx → Ctx) : (modCtx s c f).splitLock = s.splitLock := rfl
@[simp] theorem modCtx_domainModules (s : State) (c : Nat) (f : Ctx → Ctx) : (modCtx s c f).domainModules = s.domainModules := rfl
@[simp] theorem modCtx_localMod (s : State) (c : Nat) (f : Ctx → Ctx) : (modCtx s c f).localMod = s.localMod := rfl
@[simp] theorem modCtx_waidric (s : State) (c : Nat) (f : Ctx → Ctx) : (modCtx s c f).waidric = s.waidric := rfl
@[simp] theorem modCtx_waidricOut (s : State) (c : Nat) (f : Ctx → Ctx) : (modCtx s c f).waidricOut = s.waidricOut := rfl
@[simp] theorem modCtx_failedModules (s : State) (c : Nat) (f : Ctx → Ctx) : (modCtx s c f).failedModules = s.failedModules := rfl
@[simp] theorem modCtx_keyReqs (s : State) (c : Nat) (f : Ctx → Ctx) : (modCtx s c f).keyReqs = s.keyReqs := rfl
@[simp] theorem modCtx_deliveries (s : State) (c : Nat) (f : Ctx → Ctx) : (modCtx s c f).deliveries = s.deliveries := rfl
@[simp] theorem modCtx_acks (s : State) (c : Nat) (f : Ctx → Ctx) : (modCtx s c f).acks = s.acks := rfl
@[simp] theorem modCtx_slices (s : State) (c : Nat) (f : Ctx → Ctx) : (modCtx s c f).slices = s.slices := rfl
@[simp] theorem modCtx_cmbMsgs (s : State) (c : Nat) (f : Ctx → Ctx) : (modCtx s c f).cmbMsgs = s.cmbMsgs := rfl
@[simp] theorem modCtx_queues (s : State) (c : Nat) (f : Ctx → Ctx) : (modCtx s c f).queues = s.queues := rfl
@[simp] theorem modCtx_feMode (s : State) (c : Nat) (f : Ctx → Ctx) : (modCtx s c f).feMode = s.feMode := rfl
@[simp] theorem modCtx_feSaved (s : State) (c : Nat) (f : Ctx → Ctx) : (modCtx s c f).feSaved = s.feSaved := rfl
@[simp] theorem modCtx_hostWaits (s : State) (c : Nat) (f : Ctx → Ctx) : (modCtx s c f).hostWaits = s.hostWaits := rfl
@[simp] theorem modCtx_classifier (s : State) (c : Nat) (f : Ctx → Ctx) : (modCtx s c f).classifier = s.classifier := rfl
@[simp] theorem modCtx_ingress (s : State) (c : Nat) (f : Ctx → Ctx) : (modCtx s c f).ingress = s.ingress := rfl
@[simp] theorem modCtx_portFrames (s : State) (c : Nat) (f : Ctx → Ctx) : (modCtx s c f).portFrames = s.portFrames := rfl
@[simp] theorem modCtx_feUrgents (s : State) (c : Nat) (f : Ctx → Ctx) : (modCtx s c f).feUrgents = s.feUrgents := rfl
@[simp] theorem modCtx_counters (s : State) (c : Nat) (f : Ctx → Ctx) : (modCtx s c f).counters = s.counters := rfl
@[simp] theorem modCtx_errTables (s : State) (c : Nat) (f : Ctx → Ctx) : (modCtx s c f).errTables = s.errTables := rfl
@[simp] theorem modCtx_notices (s : State) (c : Nat) (f : Ctx → Ctx) : (modCtx s c f).notices = s.notices := rfl
@[simp] theorem modCtx_mismatches (s : State) (c : Nat) (f : Ctx → Ctx) : (modCtx s c f).mismatches = s.mismatches := rfl
@[simp] theorem modCtx_deadPhys (s : State) (c : Nat) (f : Ctx → Ctx) : (modCtx s c f).deadPhys = s.deadPhys := rfl
@[simp] theorem modCtx_firmware (s : State) (c : Nat) (f : Ctx → Ctx) : (modCtx s c f).firmware = s.firmware := rfl
@[simp] theorem modCtx_minSvn (s : State) (c : Nat) (f : Ctx → Ctx) : (modCtx s c f).minSvn = s.minSvn := rfl
@[simp] theorem modCtx_flash (s : State) (c : Nat) (f : Ctx → Ctx) : (modCtx s c f).flash = s.flash := rfl
@[simp] theorem modCtx_replacements (s : State) (c : Nat) (f : Ctx → Ctx) : (modCtx s c f).replacements = s.replacements := rfl
@[simp] theorem modCtx_reports (s : State) (c : Nat) (f : Ctx → Ctx) : (modCtx s c f).reports = s.reports := rfl
@[simp] theorem modCtx_cuts (s : State) (c : Nat) (f : Ctx → Ctx) : (modCtx s c f).cuts = s.cuts := rfl
@[simp] theorem modCtx_cutReports (s : State) (c : Nat) (f : Ctx → Ctx) : (modCtx s c f).cutReports = s.cutReports := rfl

/-! ### modSys -/

@[simp] theorem modSys_fresh (s : State) (c : Nat) (f : SysRegs → SysRegs) : (modSys s c f).fresh = s.fresh := rfl
@[simp] theorem modSys_nextId (s : State) (c : Nat) (f : SysRegs → SysRegs) : (modSys s c f).nextId = s.nextId := rfl
@[simp] theorem modSys_turn (s : State) (c : Nat) (f : SysRegs → SysRegs) : (modSys s c f).turn = s.turn := rfl
@[simp] theorem modSys_agenda (s : State) (c : Nat) (f : SysRegs → SysRegs) : (modSys s c f).agenda = s.agenda := rfl
@[simp] theorem modSys_focus (s : State) (c : Nat) (f : SysRegs → SysRegs) : (modSys s c f).focus = s.focus := rfl
@[simp] theorem modSys_hbm (s : State) (c : Nat) (f : SysRegs → SysRegs) : (modSys s c f).hbm = s.hbm := rfl
@[simp] theorem modSys_remote (s : State) (c : Nat) (f : SysRegs → SysRegs) : (modSys s c f).remote = s.remote := rfl
@[simp] theorem modSys_lines (s : State) (c : Nat) (f : SysRegs → SysRegs) : (modSys s c f).lines = s.lines := rfl
@[simp] theorem modSys_badSectors (s : State) (c : Nat) (f : SysRegs → SysRegs) : (modSys s c f).badSectors = s.badSectors := rfl
@[simp] theorem modSys_hot (s : State) (c : Nat) (f : SysRegs → SysRegs) : (modSys s c f).hot = s.hot := rfl
@[simp] theorem modSys_replicas (s : State) (c : Nat) (f : SysRegs → SysRegs) : (modSys s c f).replicas = s.replicas := rfl
@[simp] theorem modSys_redirects (s : State) (c : Nat) (f : SysRegs → SysRegs) : (modSys s c f).redirects = s.redirects := rfl
@[simp] theorem modSys_stations (s : State) (c : Nat) (f : SysRegs → SysRegs) : (modSys s c f).stations = s.stations := rfl
@[simp] theorem modSys_fq (s : State) (c : Nat) (f : SysRegs → SysRegs) : (modSys s c f).fq = s.fq := rfl
@[simp] theorem modSys_accs (s : State) (c : Nat) (f : SysRegs → SysRegs) : (modSys s c f).accs = s.accs := rfl
@[simp] theorem modSys_carried (s : State) (c : Nat) (f : SysRegs → SysRegs) : (modSys s c f).carried = s.carried := rfl
@[simp] theorem modSys_escaped (s : State) (c : Nat) (f : SysRegs → SysRegs) : (modSys s c f).escaped = s.escaped := rfl
@[simp] theorem modSys_escLoose (s : State) (c : Nat) (f : SysRegs → SysRegs) : (modSys s c f).escLoose = s.escLoose := rfl
@[simp] theorem modSys_ops (s : State) (c : Nat) (f : SysRegs → SysRegs) : (modSys s c f).ops = s.ops := rfl
@[simp] theorem modSys_merges (s : State) (c : Nat) (f : SysRegs → SysRegs) : (modSys s c f).merges = s.merges := rfl
@[simp] theorem modSys_msgs (s : State) (c : Nat) (f : SysRegs → SysRegs) : (modSys s c f).msgs = s.msgs := rfl
@[simp] theorem modSys_parts (s : State) (c : Nat) (f : SysRegs → SysRegs) : (modSys s c f).parts = s.parts := rfl
@[simp] theorem modSys_groups (s : State) (c : Nat) (f : SysRegs → SysRegs) : (modSys s c f).groups = s.groups := rfl
@[simp] theorem modSys_coreMap (s : State) (c : Nat) (f : SysRegs → SysRegs) : (modSys s c f).coreMap = s.coreMap := rfl
@[simp] theorem modSys_mapChanges (s : State) (c : Nat) (f : SysRegs → SysRegs) : (modSys s c f).mapChanges = s.mapChanges := rfl
@[simp] theorem modSys_launches (s : State) (c : Nat) (f : SysRegs → SysRegs) : (modSys s c f).launches = s.launches := rfl
@[simp] theorem modSys_lastLtag (s : State) (c : Nat) (f : SysRegs → SysRegs) : (modSys s c f).lastLtag = s.lastLtag := rfl
@[simp] theorem modSys_rootWaits (s : State) (c : Nat) (f : SysRegs → SysRegs) : (modSys s c f).rootWaits = s.rootWaits := rfl
@[simp] theorem modSys_dualWaits (s : State) (c : Nat) (f : SysRegs → SysRegs) : (modSys s c f).dualWaits = s.dualWaits := rfl
@[simp] theorem modSys_pairs (s : State) (c : Nat) (f : SysRegs → SysRegs) : (modSys s c f).pairs = s.pairs := rfl
@[simp] theorem modSys_nextPair (s : State) (c : Nat) (f : SysRegs → SysRegs) : (modSys s c f).nextPair = s.nextPair := rfl
@[simp] theorem modSys_dieReports (s : State) (c : Nat) (f : SysRegs → SysRegs) : (modSys s c f).dieReports = s.dieReports := rfl
@[simp] theorem modSys_pools (s : State) (c : Nat) (f : SysRegs → SysRegs) : (modSys s c f).pools = s.pools := rfl
@[simp] theorem modSys_comms (s : State) (c : Nat) (f : SysRegs → SysRegs) : (modSys s c f).comms = s.comms := rfl
@[simp] theorem modSys_instances (s : State) (c : Nat) (f : SysRegs → SysRegs) : (modSys s c f).instances = s.instances := rfl
@[simp] theorem modSys_colJoins (s : State) (c : Nat) (f : SysRegs → SysRegs) : (modSys s c f).colJoins = s.colJoins := rfl
@[simp] theorem modSys_engines (s : State) (c : Nat) (f : SysRegs → SysRegs) : (modSys s c f).engines = s.engines := rfl
@[simp] theorem modSys_homes (s : State) (c : Nat) (f : SysRegs → SysRegs) : (modSys s c f).homes = s.homes := rfl
@[simp] theorem modSys_absentHomes (s : State) (c : Nat) (f : SysRegs → SysRegs) : (modSys s c f).absentHomes = s.absentHomes := rfl
@[simp] theorem modSys_homeMap (s : State) (c : Nat) (f : SysRegs → SysRegs) : (modSys s c f).homeMap = s.homeMap := rfl
@[simp] theorem modSys_mapCopies (s : State) (c : Nat) (f : SysRegs → SysRegs) : (modSys s c f).mapCopies = s.mapCopies := rfl
@[simp] theorem modSys_hints (s : State) (c : Nat) (f : SysRegs → SysRegs) : (modSys s c f).hints = s.hints := rfl
@[simp] theorem modSys_split (s : State) (c : Nat) (f : SysRegs → SysRegs) : (modSys s c f).split = s.split := rfl
@[simp] theorem modSys_splitIn (s : State) (c : Nat) (f : SysRegs → SysRegs) : (modSys s c f).splitIn = s.splitIn := rfl
@[simp] theorem modSys_splitReqs (s : State) (c : Nat) (f : SysRegs → SysRegs) : (modSys s c f).splitReqs = s.splitReqs := rfl
@[simp] theorem modSys_splitLock (s : State) (c : Nat) (f : SysRegs → SysRegs) : (modSys s c f).splitLock = s.splitLock := rfl
@[simp] theorem modSys_domainModules (s : State) (c : Nat) (f : SysRegs → SysRegs) : (modSys s c f).domainModules = s.domainModules := rfl
@[simp] theorem modSys_localMod (s : State) (c : Nat) (f : SysRegs → SysRegs) : (modSys s c f).localMod = s.localMod := rfl
@[simp] theorem modSys_waidric (s : State) (c : Nat) (f : SysRegs → SysRegs) : (modSys s c f).waidric = s.waidric := rfl
@[simp] theorem modSys_waidricOut (s : State) (c : Nat) (f : SysRegs → SysRegs) : (modSys s c f).waidricOut = s.waidricOut := rfl
@[simp] theorem modSys_failedModules (s : State) (c : Nat) (f : SysRegs → SysRegs) : (modSys s c f).failedModules = s.failedModules := rfl
@[simp] theorem modSys_keyReqs (s : State) (c : Nat) (f : SysRegs → SysRegs) : (modSys s c f).keyReqs = s.keyReqs := rfl
@[simp] theorem modSys_deliveries (s : State) (c : Nat) (f : SysRegs → SysRegs) : (modSys s c f).deliveries = s.deliveries := rfl
@[simp] theorem modSys_acks (s : State) (c : Nat) (f : SysRegs → SysRegs) : (modSys s c f).acks = s.acks := rfl
@[simp] theorem modSys_slices (s : State) (c : Nat) (f : SysRegs → SysRegs) : (modSys s c f).slices = s.slices := rfl
@[simp] theorem modSys_cmbMsgs (s : State) (c : Nat) (f : SysRegs → SysRegs) : (modSys s c f).cmbMsgs = s.cmbMsgs := rfl
@[simp] theorem modSys_queues (s : State) (c : Nat) (f : SysRegs → SysRegs) : (modSys s c f).queues = s.queues := rfl
@[simp] theorem modSys_feMode (s : State) (c : Nat) (f : SysRegs → SysRegs) : (modSys s c f).feMode = s.feMode := rfl
@[simp] theorem modSys_feSaved (s : State) (c : Nat) (f : SysRegs → SysRegs) : (modSys s c f).feSaved = s.feSaved := rfl
@[simp] theorem modSys_hostWaits (s : State) (c : Nat) (f : SysRegs → SysRegs) : (modSys s c f).hostWaits = s.hostWaits := rfl
@[simp] theorem modSys_classifier (s : State) (c : Nat) (f : SysRegs → SysRegs) : (modSys s c f).classifier = s.classifier := rfl
@[simp] theorem modSys_ingress (s : State) (c : Nat) (f : SysRegs → SysRegs) : (modSys s c f).ingress = s.ingress := rfl
@[simp] theorem modSys_portFrames (s : State) (c : Nat) (f : SysRegs → SysRegs) : (modSys s c f).portFrames = s.portFrames := rfl
@[simp] theorem modSys_feUrgents (s : State) (c : Nat) (f : SysRegs → SysRegs) : (modSys s c f).feUrgents = s.feUrgents := rfl
@[simp] theorem modSys_counters (s : State) (c : Nat) (f : SysRegs → SysRegs) : (modSys s c f).counters = s.counters := rfl
@[simp] theorem modSys_errTables (s : State) (c : Nat) (f : SysRegs → SysRegs) : (modSys s c f).errTables = s.errTables := rfl
@[simp] theorem modSys_notices (s : State) (c : Nat) (f : SysRegs → SysRegs) : (modSys s c f).notices = s.notices := rfl
@[simp] theorem modSys_mismatches (s : State) (c : Nat) (f : SysRegs → SysRegs) : (modSys s c f).mismatches = s.mismatches := rfl
@[simp] theorem modSys_deadPhys (s : State) (c : Nat) (f : SysRegs → SysRegs) : (modSys s c f).deadPhys = s.deadPhys := rfl
@[simp] theorem modSys_firmware (s : State) (c : Nat) (f : SysRegs → SysRegs) : (modSys s c f).firmware = s.firmware := rfl
@[simp] theorem modSys_minSvn (s : State) (c : Nat) (f : SysRegs → SysRegs) : (modSys s c f).minSvn = s.minSvn := rfl
@[simp] theorem modSys_flash (s : State) (c : Nat) (f : SysRegs → SysRegs) : (modSys s c f).flash = s.flash := rfl
@[simp] theorem modSys_replacements (s : State) (c : Nat) (f : SysRegs → SysRegs) : (modSys s c f).replacements = s.replacements := rfl
@[simp] theorem modSys_reports (s : State) (c : Nat) (f : SysRegs → SysRegs) : (modSys s c f).reports = s.reports := rfl
@[simp] theorem modSys_cuts (s : State) (c : Nat) (f : SysRegs → SysRegs) : (modSys s c f).cuts = s.cuts := rfl
@[simp] theorem modSys_cutReports (s : State) (c : Nat) (f : SysRegs → SysRegs) : (modSys s c f).cutReports = s.cutReports := rfl

/-! ### push -/

@[simp] theorem push_fresh (s : State) (e : Event) : (push s e).fresh = s.fresh := rfl
@[simp] theorem push_nextId (s : State) (e : Event) : (push s e).nextId = s.nextId := rfl
@[simp] theorem push_turn (s : State) (e : Event) : (push s e).turn = s.turn := rfl
@[simp] theorem push_focus (s : State) (e : Event) : (push s e).focus = s.focus := rfl
@[simp] theorem push_cores (s : State) (e : Event) : (push s e).cores = s.cores := rfl
@[simp] theorem push_hbm (s : State) (e : Event) : (push s e).hbm = s.hbm := rfl
@[simp] theorem push_remote (s : State) (e : Event) : (push s e).remote = s.remote := rfl
@[simp] theorem push_lines (s : State) (e : Event) : (push s e).lines = s.lines := rfl
@[simp] theorem push_badSectors (s : State) (e : Event) : (push s e).badSectors = s.badSectors := rfl
@[simp] theorem push_hot (s : State) (e : Event) : (push s e).hot = s.hot := rfl
@[simp] theorem push_replicas (s : State) (e : Event) : (push s e).replicas = s.replicas := rfl
@[simp] theorem push_redirects (s : State) (e : Event) : (push s e).redirects = s.redirects := rfl
@[simp] theorem push_stations (s : State) (e : Event) : (push s e).stations = s.stations := rfl
@[simp] theorem push_fq (s : State) (e : Event) : (push s e).fq = s.fq := rfl
@[simp] theorem push_accs (s : State) (e : Event) : (push s e).accs = s.accs := rfl
@[simp] theorem push_carried (s : State) (e : Event) : (push s e).carried = s.carried := rfl
@[simp] theorem push_escaped (s : State) (e : Event) : (push s e).escaped = s.escaped := rfl
@[simp] theorem push_escLoose (s : State) (e : Event) : (push s e).escLoose = s.escLoose := rfl
@[simp] theorem push_ops (s : State) (e : Event) : (push s e).ops = s.ops := rfl
@[simp] theorem push_merges (s : State) (e : Event) : (push s e).merges = s.merges := rfl
@[simp] theorem push_msgs (s : State) (e : Event) : (push s e).msgs = s.msgs := rfl
@[simp] theorem push_parts (s : State) (e : Event) : (push s e).parts = s.parts := rfl
@[simp] theorem push_groups (s : State) (e : Event) : (push s e).groups = s.groups := rfl
@[simp] theorem push_coreMap (s : State) (e : Event) : (push s e).coreMap = s.coreMap := rfl
@[simp] theorem push_mapChanges (s : State) (e : Event) : (push s e).mapChanges = s.mapChanges := rfl
@[simp] theorem push_launches (s : State) (e : Event) : (push s e).launches = s.launches := rfl
@[simp] theorem push_lastLtag (s : State) (e : Event) : (push s e).lastLtag = s.lastLtag := rfl
@[simp] theorem push_rootWaits (s : State) (e : Event) : (push s e).rootWaits = s.rootWaits := rfl
@[simp] theorem push_dualWaits (s : State) (e : Event) : (push s e).dualWaits = s.dualWaits := rfl
@[simp] theorem push_pairs (s : State) (e : Event) : (push s e).pairs = s.pairs := rfl
@[simp] theorem push_nextPair (s : State) (e : Event) : (push s e).nextPair = s.nextPair := rfl
@[simp] theorem push_dieReports (s : State) (e : Event) : (push s e).dieReports = s.dieReports := rfl
@[simp] theorem push_pools (s : State) (e : Event) : (push s e).pools = s.pools := rfl
@[simp] theorem push_comms (s : State) (e : Event) : (push s e).comms = s.comms := rfl
@[simp] theorem push_instances (s : State) (e : Event) : (push s e).instances = s.instances := rfl
@[simp] theorem push_colJoins (s : State) (e : Event) : (push s e).colJoins = s.colJoins := rfl
@[simp] theorem push_engines (s : State) (e : Event) : (push s e).engines = s.engines := rfl
@[simp] theorem push_homes (s : State) (e : Event) : (push s e).homes = s.homes := rfl
@[simp] theorem push_absentHomes (s : State) (e : Event) : (push s e).absentHomes = s.absentHomes := rfl
@[simp] theorem push_homeMap (s : State) (e : Event) : (push s e).homeMap = s.homeMap := rfl
@[simp] theorem push_mapCopies (s : State) (e : Event) : (push s e).mapCopies = s.mapCopies := rfl
@[simp] theorem push_hints (s : State) (e : Event) : (push s e).hints = s.hints := rfl
@[simp] theorem push_split (s : State) (e : Event) : (push s e).split = s.split := rfl
@[simp] theorem push_splitIn (s : State) (e : Event) : (push s e).splitIn = s.splitIn := rfl
@[simp] theorem push_splitReqs (s : State) (e : Event) : (push s e).splitReqs = s.splitReqs := rfl
@[simp] theorem push_splitLock (s : State) (e : Event) : (push s e).splitLock = s.splitLock := rfl
@[simp] theorem push_domainModules (s : State) (e : Event) : (push s e).domainModules = s.domainModules := rfl
@[simp] theorem push_localMod (s : State) (e : Event) : (push s e).localMod = s.localMod := rfl
@[simp] theorem push_waidric (s : State) (e : Event) : (push s e).waidric = s.waidric := rfl
@[simp] theorem push_waidricOut (s : State) (e : Event) : (push s e).waidricOut = s.waidricOut := rfl
@[simp] theorem push_failedModules (s : State) (e : Event) : (push s e).failedModules = s.failedModules := rfl
@[simp] theorem push_keyReqs (s : State) (e : Event) : (push s e).keyReqs = s.keyReqs := rfl
@[simp] theorem push_deliveries (s : State) (e : Event) : (push s e).deliveries = s.deliveries := rfl
@[simp] theorem push_acks (s : State) (e : Event) : (push s e).acks = s.acks := rfl
@[simp] theorem push_slices (s : State) (e : Event) : (push s e).slices = s.slices := rfl
@[simp] theorem push_cmbMsgs (s : State) (e : Event) : (push s e).cmbMsgs = s.cmbMsgs := rfl
@[simp] theorem push_queues (s : State) (e : Event) : (push s e).queues = s.queues := rfl
@[simp] theorem push_feMode (s : State) (e : Event) : (push s e).feMode = s.feMode := rfl
@[simp] theorem push_feSaved (s : State) (e : Event) : (push s e).feSaved = s.feSaved := rfl
@[simp] theorem push_hostWaits (s : State) (e : Event) : (push s e).hostWaits = s.hostWaits := rfl
@[simp] theorem push_classifier (s : State) (e : Event) : (push s e).classifier = s.classifier := rfl
@[simp] theorem push_ingress (s : State) (e : Event) : (push s e).ingress = s.ingress := rfl
@[simp] theorem push_portFrames (s : State) (e : Event) : (push s e).portFrames = s.portFrames := rfl
@[simp] theorem push_feUrgents (s : State) (e : Event) : (push s e).feUrgents = s.feUrgents := rfl
@[simp] theorem push_counters (s : State) (e : Event) : (push s e).counters = s.counters := rfl
@[simp] theorem push_errTables (s : State) (e : Event) : (push s e).errTables = s.errTables := rfl
@[simp] theorem push_notices (s : State) (e : Event) : (push s e).notices = s.notices := rfl
@[simp] theorem push_mismatches (s : State) (e : Event) : (push s e).mismatches = s.mismatches := rfl
@[simp] theorem push_deadPhys (s : State) (e : Event) : (push s e).deadPhys = s.deadPhys := rfl
@[simp] theorem push_firmware (s : State) (e : Event) : (push s e).firmware = s.firmware := rfl
@[simp] theorem push_minSvn (s : State) (e : Event) : (push s e).minSvn = s.minSvn := rfl
@[simp] theorem push_flash (s : State) (e : Event) : (push s e).flash = s.flash := rfl
@[simp] theorem push_replacements (s : State) (e : Event) : (push s e).replacements = s.replacements := rfl
@[simp] theorem push_reports (s : State) (e : Event) : (push s e).reports = s.reports := rfl
@[simp] theorem push_cuts (s : State) (e : Event) : (push s e).cuts = s.cuts := rfl
@[simp] theorem push_cutReports (s : State) (e : Event) : (push s e).cutReports = s.cutReports := rfl

/-! ### pushAll -/

@[simp] theorem pushAll_fresh (s : State) (es : List Event) : (pushAll s es).fresh = s.fresh := rfl
@[simp] theorem pushAll_nextId (s : State) (es : List Event) : (pushAll s es).nextId = s.nextId := rfl
@[simp] theorem pushAll_turn (s : State) (es : List Event) : (pushAll s es).turn = s.turn := rfl
@[simp] theorem pushAll_focus (s : State) (es : List Event) : (pushAll s es).focus = s.focus := rfl
@[simp] theorem pushAll_cores (s : State) (es : List Event) : (pushAll s es).cores = s.cores := rfl
@[simp] theorem pushAll_hbm (s : State) (es : List Event) : (pushAll s es).hbm = s.hbm := rfl
@[simp] theorem pushAll_remote (s : State) (es : List Event) : (pushAll s es).remote = s.remote := rfl
@[simp] theorem pushAll_lines (s : State) (es : List Event) : (pushAll s es).lines = s.lines := rfl
@[simp] theorem pushAll_badSectors (s : State) (es : List Event) : (pushAll s es).badSectors = s.badSectors := rfl
@[simp] theorem pushAll_hot (s : State) (es : List Event) : (pushAll s es).hot = s.hot := rfl
@[simp] theorem pushAll_replicas (s : State) (es : List Event) : (pushAll s es).replicas = s.replicas := rfl
@[simp] theorem pushAll_redirects (s : State) (es : List Event) : (pushAll s es).redirects = s.redirects := rfl
@[simp] theorem pushAll_stations (s : State) (es : List Event) : (pushAll s es).stations = s.stations := rfl
@[simp] theorem pushAll_fq (s : State) (es : List Event) : (pushAll s es).fq = s.fq := rfl
@[simp] theorem pushAll_accs (s : State) (es : List Event) : (pushAll s es).accs = s.accs := rfl
@[simp] theorem pushAll_carried (s : State) (es : List Event) : (pushAll s es).carried = s.carried := rfl
@[simp] theorem pushAll_escaped (s : State) (es : List Event) : (pushAll s es).escaped = s.escaped := rfl
@[simp] theorem pushAll_escLoose (s : State) (es : List Event) : (pushAll s es).escLoose = s.escLoose := rfl
@[simp] theorem pushAll_ops (s : State) (es : List Event) : (pushAll s es).ops = s.ops := rfl
@[simp] theorem pushAll_merges (s : State) (es : List Event) : (pushAll s es).merges = s.merges := rfl
@[simp] theorem pushAll_msgs (s : State) (es : List Event) : (pushAll s es).msgs = s.msgs := rfl
@[simp] theorem pushAll_parts (s : State) (es : List Event) : (pushAll s es).parts = s.parts := rfl
@[simp] theorem pushAll_groups (s : State) (es : List Event) : (pushAll s es).groups = s.groups := rfl
@[simp] theorem pushAll_coreMap (s : State) (es : List Event) : (pushAll s es).coreMap = s.coreMap := rfl
@[simp] theorem pushAll_mapChanges (s : State) (es : List Event) : (pushAll s es).mapChanges = s.mapChanges := rfl
@[simp] theorem pushAll_launches (s : State) (es : List Event) : (pushAll s es).launches = s.launches := rfl
@[simp] theorem pushAll_lastLtag (s : State) (es : List Event) : (pushAll s es).lastLtag = s.lastLtag := rfl
@[simp] theorem pushAll_rootWaits (s : State) (es : List Event) : (pushAll s es).rootWaits = s.rootWaits := rfl
@[simp] theorem pushAll_dualWaits (s : State) (es : List Event) : (pushAll s es).dualWaits = s.dualWaits := rfl
@[simp] theorem pushAll_pairs (s : State) (es : List Event) : (pushAll s es).pairs = s.pairs := rfl
@[simp] theorem pushAll_nextPair (s : State) (es : List Event) : (pushAll s es).nextPair = s.nextPair := rfl
@[simp] theorem pushAll_dieReports (s : State) (es : List Event) : (pushAll s es).dieReports = s.dieReports := rfl
@[simp] theorem pushAll_pools (s : State) (es : List Event) : (pushAll s es).pools = s.pools := rfl
@[simp] theorem pushAll_comms (s : State) (es : List Event) : (pushAll s es).comms = s.comms := rfl
@[simp] theorem pushAll_instances (s : State) (es : List Event) : (pushAll s es).instances = s.instances := rfl
@[simp] theorem pushAll_colJoins (s : State) (es : List Event) : (pushAll s es).colJoins = s.colJoins := rfl
@[simp] theorem pushAll_engines (s : State) (es : List Event) : (pushAll s es).engines = s.engines := rfl
@[simp] theorem pushAll_homes (s : State) (es : List Event) : (pushAll s es).homes = s.homes := rfl
@[simp] theorem pushAll_absentHomes (s : State) (es : List Event) : (pushAll s es).absentHomes = s.absentHomes := rfl
@[simp] theorem pushAll_homeMap (s : State) (es : List Event) : (pushAll s es).homeMap = s.homeMap := rfl
@[simp] theorem pushAll_mapCopies (s : State) (es : List Event) : (pushAll s es).mapCopies = s.mapCopies := rfl
@[simp] theorem pushAll_hints (s : State) (es : List Event) : (pushAll s es).hints = s.hints := rfl
@[simp] theorem pushAll_split (s : State) (es : List Event) : (pushAll s es).split = s.split := rfl
@[simp] theorem pushAll_splitIn (s : State) (es : List Event) : (pushAll s es).splitIn = s.splitIn := rfl
@[simp] theorem pushAll_splitReqs (s : State) (es : List Event) : (pushAll s es).splitReqs = s.splitReqs := rfl
@[simp] theorem pushAll_splitLock (s : State) (es : List Event) : (pushAll s es).splitLock = s.splitLock := rfl
@[simp] theorem pushAll_domainModules (s : State) (es : List Event) : (pushAll s es).domainModules = s.domainModules := rfl
@[simp] theorem pushAll_localMod (s : State) (es : List Event) : (pushAll s es).localMod = s.localMod := rfl
@[simp] theorem pushAll_waidric (s : State) (es : List Event) : (pushAll s es).waidric = s.waidric := rfl
@[simp] theorem pushAll_waidricOut (s : State) (es : List Event) : (pushAll s es).waidricOut = s.waidricOut := rfl
@[simp] theorem pushAll_failedModules (s : State) (es : List Event) : (pushAll s es).failedModules = s.failedModules := rfl
@[simp] theorem pushAll_keyReqs (s : State) (es : List Event) : (pushAll s es).keyReqs = s.keyReqs := rfl
@[simp] theorem pushAll_deliveries (s : State) (es : List Event) : (pushAll s es).deliveries = s.deliveries := rfl
@[simp] theorem pushAll_acks (s : State) (es : List Event) : (pushAll s es).acks = s.acks := rfl
@[simp] theorem pushAll_slices (s : State) (es : List Event) : (pushAll s es).slices = s.slices := rfl
@[simp] theorem pushAll_cmbMsgs (s : State) (es : List Event) : (pushAll s es).cmbMsgs = s.cmbMsgs := rfl
@[simp] theorem pushAll_queues (s : State) (es : List Event) : (pushAll s es).queues = s.queues := rfl
@[simp] theorem pushAll_feMode (s : State) (es : List Event) : (pushAll s es).feMode = s.feMode := rfl
@[simp] theorem pushAll_feSaved (s : State) (es : List Event) : (pushAll s es).feSaved = s.feSaved := rfl
@[simp] theorem pushAll_hostWaits (s : State) (es : List Event) : (pushAll s es).hostWaits = s.hostWaits := rfl
@[simp] theorem pushAll_classifier (s : State) (es : List Event) : (pushAll s es).classifier = s.classifier := rfl
@[simp] theorem pushAll_ingress (s : State) (es : List Event) : (pushAll s es).ingress = s.ingress := rfl
@[simp] theorem pushAll_portFrames (s : State) (es : List Event) : (pushAll s es).portFrames = s.portFrames := rfl
@[simp] theorem pushAll_feUrgents (s : State) (es : List Event) : (pushAll s es).feUrgents = s.feUrgents := rfl
@[simp] theorem pushAll_counters (s : State) (es : List Event) : (pushAll s es).counters = s.counters := rfl
@[simp] theorem pushAll_errTables (s : State) (es : List Event) : (pushAll s es).errTables = s.errTables := rfl
@[simp] theorem pushAll_notices (s : State) (es : List Event) : (pushAll s es).notices = s.notices := rfl
@[simp] theorem pushAll_mismatches (s : State) (es : List Event) : (pushAll s es).mismatches = s.mismatches := rfl
@[simp] theorem pushAll_deadPhys (s : State) (es : List Event) : (pushAll s es).deadPhys = s.deadPhys := rfl
@[simp] theorem pushAll_firmware (s : State) (es : List Event) : (pushAll s es).firmware = s.firmware := rfl
@[simp] theorem pushAll_minSvn (s : State) (es : List Event) : (pushAll s es).minSvn = s.minSvn := rfl
@[simp] theorem pushAll_flash (s : State) (es : List Event) : (pushAll s es).flash = s.flash := rfl
@[simp] theorem pushAll_replacements (s : State) (es : List Event) : (pushAll s es).replacements = s.replacements := rfl
@[simp] theorem pushAll_reports (s : State) (es : List Event) : (pushAll s es).reports = s.reports := rfl
@[simp] theorem pushAll_cuts (s : State) (es : List Event) : (pushAll s es).cuts = s.cuts := rfl
@[simp] theorem pushAll_cutReports (s : State) (es : List Event) : (pushAll s es).cutReports = s.cutReports := rfl

/-! ### bumpId -/

@[simp] theorem bumpId_fresh (s : State) : (bumpId s).fresh = s.fresh := rfl
@[simp] theorem bumpId_turn (s : State) : (bumpId s).turn = s.turn := rfl
@[simp] theorem bumpId_agenda (s : State) : (bumpId s).agenda = s.agenda := rfl
@[simp] theorem bumpId_focus (s : State) : (bumpId s).focus = s.focus := rfl
@[simp] theorem bumpId_cores (s : State) : (bumpId s).cores = s.cores := rfl
@[simp] theorem bumpId_hbm (s : State) : (bumpId s).hbm = s.hbm := rfl
@[simp] theorem bumpId_remote (s : State) : (bumpId s).remote = s.remote := rfl
@[simp] theorem bumpId_lines (s : State) : (bumpId s).lines = s.lines := rfl
@[simp] theorem bumpId_badSectors (s : State) : (bumpId s).badSectors = s.badSectors := rfl
@[simp] theorem bumpId_hot (s : State) : (bumpId s).hot = s.hot := rfl
@[simp] theorem bumpId_replicas (s : State) : (bumpId s).replicas = s.replicas := rfl
@[simp] theorem bumpId_redirects (s : State) : (bumpId s).redirects = s.redirects := rfl
@[simp] theorem bumpId_stations (s : State) : (bumpId s).stations = s.stations := rfl
@[simp] theorem bumpId_fq (s : State) : (bumpId s).fq = s.fq := rfl
@[simp] theorem bumpId_accs (s : State) : (bumpId s).accs = s.accs := rfl
@[simp] theorem bumpId_carried (s : State) : (bumpId s).carried = s.carried := rfl
@[simp] theorem bumpId_escaped (s : State) : (bumpId s).escaped = s.escaped := rfl
@[simp] theorem bumpId_escLoose (s : State) : (bumpId s).escLoose = s.escLoose := rfl
@[simp] theorem bumpId_ops (s : State) : (bumpId s).ops = s.ops := rfl
@[simp] theorem bumpId_merges (s : State) : (bumpId s).merges = s.merges := rfl
@[simp] theorem bumpId_msgs (s : State) : (bumpId s).msgs = s.msgs := rfl
@[simp] theorem bumpId_parts (s : State) : (bumpId s).parts = s.parts := rfl
@[simp] theorem bumpId_groups (s : State) : (bumpId s).groups = s.groups := rfl
@[simp] theorem bumpId_coreMap (s : State) : (bumpId s).coreMap = s.coreMap := rfl
@[simp] theorem bumpId_mapChanges (s : State) : (bumpId s).mapChanges = s.mapChanges := rfl
@[simp] theorem bumpId_launches (s : State) : (bumpId s).launches = s.launches := rfl
@[simp] theorem bumpId_lastLtag (s : State) : (bumpId s).lastLtag = s.lastLtag := rfl
@[simp] theorem bumpId_rootWaits (s : State) : (bumpId s).rootWaits = s.rootWaits := rfl
@[simp] theorem bumpId_dualWaits (s : State) : (bumpId s).dualWaits = s.dualWaits := rfl
@[simp] theorem bumpId_pairs (s : State) : (bumpId s).pairs = s.pairs := rfl
@[simp] theorem bumpId_nextPair (s : State) : (bumpId s).nextPair = s.nextPair := rfl
@[simp] theorem bumpId_dieReports (s : State) : (bumpId s).dieReports = s.dieReports := rfl
@[simp] theorem bumpId_pools (s : State) : (bumpId s).pools = s.pools := rfl
@[simp] theorem bumpId_comms (s : State) : (bumpId s).comms = s.comms := rfl
@[simp] theorem bumpId_instances (s : State) : (bumpId s).instances = s.instances := rfl
@[simp] theorem bumpId_colJoins (s : State) : (bumpId s).colJoins = s.colJoins := rfl
@[simp] theorem bumpId_engines (s : State) : (bumpId s).engines = s.engines := rfl
@[simp] theorem bumpId_homes (s : State) : (bumpId s).homes = s.homes := rfl
@[simp] theorem bumpId_absentHomes (s : State) : (bumpId s).absentHomes = s.absentHomes := rfl
@[simp] theorem bumpId_homeMap (s : State) : (bumpId s).homeMap = s.homeMap := rfl
@[simp] theorem bumpId_mapCopies (s : State) : (bumpId s).mapCopies = s.mapCopies := rfl
@[simp] theorem bumpId_hints (s : State) : (bumpId s).hints = s.hints := rfl
@[simp] theorem bumpId_split (s : State) : (bumpId s).split = s.split := rfl
@[simp] theorem bumpId_splitIn (s : State) : (bumpId s).splitIn = s.splitIn := rfl
@[simp] theorem bumpId_splitReqs (s : State) : (bumpId s).splitReqs = s.splitReqs := rfl
@[simp] theorem bumpId_splitLock (s : State) : (bumpId s).splitLock = s.splitLock := rfl
@[simp] theorem bumpId_domainModules (s : State) : (bumpId s).domainModules = s.domainModules := rfl
@[simp] theorem bumpId_localMod (s : State) : (bumpId s).localMod = s.localMod := rfl
@[simp] theorem bumpId_waidric (s : State) : (bumpId s).waidric = s.waidric := rfl
@[simp] theorem bumpId_waidricOut (s : State) : (bumpId s).waidricOut = s.waidricOut := rfl
@[simp] theorem bumpId_failedModules (s : State) : (bumpId s).failedModules = s.failedModules := rfl
@[simp] theorem bumpId_keyReqs (s : State) : (bumpId s).keyReqs = s.keyReqs := rfl
@[simp] theorem bumpId_deliveries (s : State) : (bumpId s).deliveries = s.deliveries := rfl
@[simp] theorem bumpId_acks (s : State) : (bumpId s).acks = s.acks := rfl
@[simp] theorem bumpId_slices (s : State) : (bumpId s).slices = s.slices := rfl
@[simp] theorem bumpId_cmbMsgs (s : State) : (bumpId s).cmbMsgs = s.cmbMsgs := rfl
@[simp] theorem bumpId_queues (s : State) : (bumpId s).queues = s.queues := rfl
@[simp] theorem bumpId_feMode (s : State) : (bumpId s).feMode = s.feMode := rfl
@[simp] theorem bumpId_feSaved (s : State) : (bumpId s).feSaved = s.feSaved := rfl
@[simp] theorem bumpId_hostWaits (s : State) : (bumpId s).hostWaits = s.hostWaits := rfl
@[simp] theorem bumpId_classifier (s : State) : (bumpId s).classifier = s.classifier := rfl
@[simp] theorem bumpId_ingress (s : State) : (bumpId s).ingress = s.ingress := rfl
@[simp] theorem bumpId_portFrames (s : State) : (bumpId s).portFrames = s.portFrames := rfl
@[simp] theorem bumpId_feUrgents (s : State) : (bumpId s).feUrgents = s.feUrgents := rfl
@[simp] theorem bumpId_counters (s : State) : (bumpId s).counters = s.counters := rfl
@[simp] theorem bumpId_errTables (s : State) : (bumpId s).errTables = s.errTables := rfl
@[simp] theorem bumpId_notices (s : State) : (bumpId s).notices = s.notices := rfl
@[simp] theorem bumpId_mismatches (s : State) : (bumpId s).mismatches = s.mismatches := rfl
@[simp] theorem bumpId_deadPhys (s : State) : (bumpId s).deadPhys = s.deadPhys := rfl
@[simp] theorem bumpId_firmware (s : State) : (bumpId s).firmware = s.firmware := rfl
@[simp] theorem bumpId_minSvn (s : State) : (bumpId s).minSvn = s.minSvn := rfl
@[simp] theorem bumpId_flash (s : State) : (bumpId s).flash = s.flash := rfl
@[simp] theorem bumpId_replacements (s : State) : (bumpId s).replacements = s.replacements := rfl
@[simp] theorem bumpId_reports (s : State) : (bumpId s).reports = s.reports := rfl
@[simp] theorem bumpId_cuts (s : State) : (bumpId s).cuts = s.cuts := rfl
@[simp] theorem bumpId_cutReports (s : State) : (bumpId s).cutReports = s.cutReports := rfl

/-! ### bumpFree -/

@[simp] theorem bumpFree_nextId (s : State) : (bumpFree s).nextId = s.nextId := rfl
@[simp] theorem bumpFree_turn (s : State) : (bumpFree s).turn = s.turn := rfl
@[simp] theorem bumpFree_agenda (s : State) : (bumpFree s).agenda = s.agenda := rfl
@[simp] theorem bumpFree_focus (s : State) : (bumpFree s).focus = s.focus := rfl
@[simp] theorem bumpFree_cores (s : State) : (bumpFree s).cores = s.cores := rfl
@[simp] theorem bumpFree_hbm (s : State) : (bumpFree s).hbm = s.hbm := rfl
@[simp] theorem bumpFree_remote (s : State) : (bumpFree s).remote = s.remote := rfl
@[simp] theorem bumpFree_lines (s : State) : (bumpFree s).lines = s.lines := rfl
@[simp] theorem bumpFree_badSectors (s : State) : (bumpFree s).badSectors = s.badSectors := rfl
@[simp] theorem bumpFree_hot (s : State) : (bumpFree s).hot = s.hot := rfl
@[simp] theorem bumpFree_replicas (s : State) : (bumpFree s).replicas = s.replicas := rfl
@[simp] theorem bumpFree_redirects (s : State) : (bumpFree s).redirects = s.redirects := rfl
@[simp] theorem bumpFree_stations (s : State) : (bumpFree s).stations = s.stations := rfl
@[simp] theorem bumpFree_fq (s : State) : (bumpFree s).fq = s.fq := rfl
@[simp] theorem bumpFree_accs (s : State) : (bumpFree s).accs = s.accs := rfl
@[simp] theorem bumpFree_carried (s : State) : (bumpFree s).carried = s.carried := rfl
@[simp] theorem bumpFree_escaped (s : State) : (bumpFree s).escaped = s.escaped := rfl
@[simp] theorem bumpFree_escLoose (s : State) : (bumpFree s).escLoose = s.escLoose := rfl
@[simp] theorem bumpFree_ops (s : State) : (bumpFree s).ops = s.ops := rfl
@[simp] theorem bumpFree_merges (s : State) : (bumpFree s).merges = s.merges := rfl
@[simp] theorem bumpFree_msgs (s : State) : (bumpFree s).msgs = s.msgs := rfl
@[simp] theorem bumpFree_parts (s : State) : (bumpFree s).parts = s.parts := rfl
@[simp] theorem bumpFree_groups (s : State) : (bumpFree s).groups = s.groups := rfl
@[simp] theorem bumpFree_coreMap (s : State) : (bumpFree s).coreMap = s.coreMap := rfl
@[simp] theorem bumpFree_mapChanges (s : State) : (bumpFree s).mapChanges = s.mapChanges := rfl
@[simp] theorem bumpFree_launches (s : State) : (bumpFree s).launches = s.launches := rfl
@[simp] theorem bumpFree_lastLtag (s : State) : (bumpFree s).lastLtag = s.lastLtag := rfl
@[simp] theorem bumpFree_rootWaits (s : State) : (bumpFree s).rootWaits = s.rootWaits := rfl
@[simp] theorem bumpFree_dualWaits (s : State) : (bumpFree s).dualWaits = s.dualWaits := rfl
@[simp] theorem bumpFree_pairs (s : State) : (bumpFree s).pairs = s.pairs := rfl
@[simp] theorem bumpFree_nextPair (s : State) : (bumpFree s).nextPair = s.nextPair := rfl
@[simp] theorem bumpFree_dieReports (s : State) : (bumpFree s).dieReports = s.dieReports := rfl
@[simp] theorem bumpFree_pools (s : State) : (bumpFree s).pools = s.pools := rfl
@[simp] theorem bumpFree_comms (s : State) : (bumpFree s).comms = s.comms := rfl
@[simp] theorem bumpFree_instances (s : State) : (bumpFree s).instances = s.instances := rfl
@[simp] theorem bumpFree_colJoins (s : State) : (bumpFree s).colJoins = s.colJoins := rfl
@[simp] theorem bumpFree_engines (s : State) : (bumpFree s).engines = s.engines := rfl
@[simp] theorem bumpFree_homes (s : State) : (bumpFree s).homes = s.homes := rfl
@[simp] theorem bumpFree_absentHomes (s : State) : (bumpFree s).absentHomes = s.absentHomes := rfl
@[simp] theorem bumpFree_homeMap (s : State) : (bumpFree s).homeMap = s.homeMap := rfl
@[simp] theorem bumpFree_mapCopies (s : State) : (bumpFree s).mapCopies = s.mapCopies := rfl
@[simp] theorem bumpFree_hints (s : State) : (bumpFree s).hints = s.hints := rfl
@[simp] theorem bumpFree_split (s : State) : (bumpFree s).split = s.split := rfl
@[simp] theorem bumpFree_splitIn (s : State) : (bumpFree s).splitIn = s.splitIn := rfl
@[simp] theorem bumpFree_splitReqs (s : State) : (bumpFree s).splitReqs = s.splitReqs := rfl
@[simp] theorem bumpFree_splitLock (s : State) : (bumpFree s).splitLock = s.splitLock := rfl
@[simp] theorem bumpFree_domainModules (s : State) : (bumpFree s).domainModules = s.domainModules := rfl
@[simp] theorem bumpFree_localMod (s : State) : (bumpFree s).localMod = s.localMod := rfl
@[simp] theorem bumpFree_waidric (s : State) : (bumpFree s).waidric = s.waidric := rfl
@[simp] theorem bumpFree_waidricOut (s : State) : (bumpFree s).waidricOut = s.waidricOut := rfl
@[simp] theorem bumpFree_failedModules (s : State) : (bumpFree s).failedModules = s.failedModules := rfl
@[simp] theorem bumpFree_keyReqs (s : State) : (bumpFree s).keyReqs = s.keyReqs := rfl
@[simp] theorem bumpFree_deliveries (s : State) : (bumpFree s).deliveries = s.deliveries := rfl
@[simp] theorem bumpFree_acks (s : State) : (bumpFree s).acks = s.acks := rfl
@[simp] theorem bumpFree_slices (s : State) : (bumpFree s).slices = s.slices := rfl
@[simp] theorem bumpFree_cmbMsgs (s : State) : (bumpFree s).cmbMsgs = s.cmbMsgs := rfl
@[simp] theorem bumpFree_queues (s : State) : (bumpFree s).queues = s.queues := rfl
@[simp] theorem bumpFree_feMode (s : State) : (bumpFree s).feMode = s.feMode := rfl
@[simp] theorem bumpFree_feSaved (s : State) : (bumpFree s).feSaved = s.feSaved := rfl
@[simp] theorem bumpFree_hostWaits (s : State) : (bumpFree s).hostWaits = s.hostWaits := rfl
@[simp] theorem bumpFree_classifier (s : State) : (bumpFree s).classifier = s.classifier := rfl
@[simp] theorem bumpFree_ingress (s : State) : (bumpFree s).ingress = s.ingress := rfl
@[simp] theorem bumpFree_portFrames (s : State) : (bumpFree s).portFrames = s.portFrames := rfl
@[simp] theorem bumpFree_feUrgents (s : State) : (bumpFree s).feUrgents = s.feUrgents := rfl
@[simp] theorem bumpFree_counters (s : State) : (bumpFree s).counters = s.counters := rfl
@[simp] theorem bumpFree_errTables (s : State) : (bumpFree s).errTables = s.errTables := rfl
@[simp] theorem bumpFree_notices (s : State) : (bumpFree s).notices = s.notices := rfl
@[simp] theorem bumpFree_mismatches (s : State) : (bumpFree s).mismatches = s.mismatches := rfl
@[simp] theorem bumpFree_deadPhys (s : State) : (bumpFree s).deadPhys = s.deadPhys := rfl
@[simp] theorem bumpFree_firmware (s : State) : (bumpFree s).firmware = s.firmware := rfl
@[simp] theorem bumpFree_minSvn (s : State) : (bumpFree s).minSvn = s.minSvn := rfl
@[simp] theorem bumpFree_flash (s : State) : (bumpFree s).flash = s.flash := rfl
@[simp] theorem bumpFree_replacements (s : State) : (bumpFree s).replacements = s.replacements := rfl
@[simp] theorem bumpFree_reports (s : State) : (bumpFree s).reports = s.reports := rfl
@[simp] theorem bumpFree_cuts (s : State) : (bumpFree s).cuts = s.cuts := rfl
@[simp] theorem bumpFree_cutReports (s : State) : (bumpFree s).cutReports = s.cutReports := rfl

/-! ### count -/

@[simp] theorem count_fresh (s : State) (k : Counter) (n : Nat) : (count s k n).fresh = s.fresh := rfl
@[simp] theorem count_nextId (s : State) (k : Counter) (n : Nat) : (count s k n).nextId = s.nextId := rfl
@[simp] theorem count_turn (s : State) (k : Counter) (n : Nat) : (count s k n).turn = s.turn := rfl
@[simp] theorem count_agenda (s : State) (k : Counter) (n : Nat) : (count s k n).agenda = s.agenda := rfl
@[simp] theorem count_focus (s : State) (k : Counter) (n : Nat) : (count s k n).focus = s.focus := rfl
@[simp] theorem count_cores (s : State) (k : Counter) (n : Nat) : (count s k n).cores = s.cores := rfl
@[simp] theorem count_hbm (s : State) (k : Counter) (n : Nat) : (count s k n).hbm = s.hbm := rfl
@[simp] theorem count_remote (s : State) (k : Counter) (n : Nat) : (count s k n).remote = s.remote := rfl
@[simp] theorem count_lines (s : State) (k : Counter) (n : Nat) : (count s k n).lines = s.lines := rfl
@[simp] theorem count_badSectors (s : State) (k : Counter) (n : Nat) : (count s k n).badSectors = s.badSectors := rfl
@[simp] theorem count_hot (s : State) (k : Counter) (n : Nat) : (count s k n).hot = s.hot := rfl
@[simp] theorem count_replicas (s : State) (k : Counter) (n : Nat) : (count s k n).replicas = s.replicas := rfl
@[simp] theorem count_redirects (s : State) (k : Counter) (n : Nat) : (count s k n).redirects = s.redirects := rfl
@[simp] theorem count_stations (s : State) (k : Counter) (n : Nat) : (count s k n).stations = s.stations := rfl
@[simp] theorem count_fq (s : State) (k : Counter) (n : Nat) : (count s k n).fq = s.fq := rfl
@[simp] theorem count_accs (s : State) (k : Counter) (n : Nat) : (count s k n).accs = s.accs := rfl
@[simp] theorem count_carried (s : State) (k : Counter) (n : Nat) : (count s k n).carried = s.carried := rfl
@[simp] theorem count_escaped (s : State) (k : Counter) (n : Nat) : (count s k n).escaped = s.escaped := rfl
@[simp] theorem count_escLoose (s : State) (k : Counter) (n : Nat) : (count s k n).escLoose = s.escLoose := rfl
@[simp] theorem count_ops (s : State) (k : Counter) (n : Nat) : (count s k n).ops = s.ops := rfl
@[simp] theorem count_merges (s : State) (k : Counter) (n : Nat) : (count s k n).merges = s.merges := rfl
@[simp] theorem count_msgs (s : State) (k : Counter) (n : Nat) : (count s k n).msgs = s.msgs := rfl
@[simp] theorem count_parts (s : State) (k : Counter) (n : Nat) : (count s k n).parts = s.parts := rfl
@[simp] theorem count_groups (s : State) (k : Counter) (n : Nat) : (count s k n).groups = s.groups := rfl
@[simp] theorem count_coreMap (s : State) (k : Counter) (n : Nat) : (count s k n).coreMap = s.coreMap := rfl
@[simp] theorem count_mapChanges (s : State) (k : Counter) (n : Nat) : (count s k n).mapChanges = s.mapChanges := rfl
@[simp] theorem count_launches (s : State) (k : Counter) (n : Nat) : (count s k n).launches = s.launches := rfl
@[simp] theorem count_lastLtag (s : State) (k : Counter) (n : Nat) : (count s k n).lastLtag = s.lastLtag := rfl
@[simp] theorem count_rootWaits (s : State) (k : Counter) (n : Nat) : (count s k n).rootWaits = s.rootWaits := rfl
@[simp] theorem count_dualWaits (s : State) (k : Counter) (n : Nat) : (count s k n).dualWaits = s.dualWaits := rfl
@[simp] theorem count_pairs (s : State) (k : Counter) (n : Nat) : (count s k n).pairs = s.pairs := rfl
@[simp] theorem count_nextPair (s : State) (k : Counter) (n : Nat) : (count s k n).nextPair = s.nextPair := rfl
@[simp] theorem count_dieReports (s : State) (k : Counter) (n : Nat) : (count s k n).dieReports = s.dieReports := rfl
@[simp] theorem count_pools (s : State) (k : Counter) (n : Nat) : (count s k n).pools = s.pools := rfl
@[simp] theorem count_comms (s : State) (k : Counter) (n : Nat) : (count s k n).comms = s.comms := rfl
@[simp] theorem count_instances (s : State) (k : Counter) (n : Nat) : (count s k n).instances = s.instances := rfl
@[simp] theorem count_colJoins (s : State) (k : Counter) (n : Nat) : (count s k n).colJoins = s.colJoins := rfl
@[simp] theorem count_engines (s : State) (k : Counter) (n : Nat) : (count s k n).engines = s.engines := rfl
@[simp] theorem count_homes (s : State) (k : Counter) (n : Nat) : (count s k n).homes = s.homes := rfl
@[simp] theorem count_absentHomes (s : State) (k : Counter) (n : Nat) : (count s k n).absentHomes = s.absentHomes := rfl
@[simp] theorem count_homeMap (s : State) (k : Counter) (n : Nat) : (count s k n).homeMap = s.homeMap := rfl
@[simp] theorem count_mapCopies (s : State) (k : Counter) (n : Nat) : (count s k n).mapCopies = s.mapCopies := rfl
@[simp] theorem count_hints (s : State) (k : Counter) (n : Nat) : (count s k n).hints = s.hints := rfl
@[simp] theorem count_split (s : State) (k : Counter) (n : Nat) : (count s k n).split = s.split := rfl
@[simp] theorem count_splitIn (s : State) (k : Counter) (n : Nat) : (count s k n).splitIn = s.splitIn := rfl
@[simp] theorem count_splitReqs (s : State) (k : Counter) (n : Nat) : (count s k n).splitReqs = s.splitReqs := rfl
@[simp] theorem count_splitLock (s : State) (k : Counter) (n : Nat) : (count s k n).splitLock = s.splitLock := rfl
@[simp] theorem count_domainModules (s : State) (k : Counter) (n : Nat) : (count s k n).domainModules = s.domainModules := rfl
@[simp] theorem count_localMod (s : State) (k : Counter) (n : Nat) : (count s k n).localMod = s.localMod := rfl
@[simp] theorem count_waidric (s : State) (k : Counter) (n : Nat) : (count s k n).waidric = s.waidric := rfl
@[simp] theorem count_waidricOut (s : State) (k : Counter) (n : Nat) : (count s k n).waidricOut = s.waidricOut := rfl
@[simp] theorem count_failedModules (s : State) (k : Counter) (n : Nat) : (count s k n).failedModules = s.failedModules := rfl
@[simp] theorem count_keyReqs (s : State) (k : Counter) (n : Nat) : (count s k n).keyReqs = s.keyReqs := rfl
@[simp] theorem count_deliveries (s : State) (k : Counter) (n : Nat) : (count s k n).deliveries = s.deliveries := rfl
@[simp] theorem count_acks (s : State) (k : Counter) (n : Nat) : (count s k n).acks = s.acks := rfl
@[simp] theorem count_slices (s : State) (k : Counter) (n : Nat) : (count s k n).slices = s.slices := rfl
@[simp] theorem count_cmbMsgs (s : State) (k : Counter) (n : Nat) : (count s k n).cmbMsgs = s.cmbMsgs := rfl
@[simp] theorem count_queues (s : State) (k : Counter) (n : Nat) : (count s k n).queues = s.queues := rfl
@[simp] theorem count_feMode (s : State) (k : Counter) (n : Nat) : (count s k n).feMode = s.feMode := rfl
@[simp] theorem count_feSaved (s : State) (k : Counter) (n : Nat) : (count s k n).feSaved = s.feSaved := rfl
@[simp] theorem count_hostWaits (s : State) (k : Counter) (n : Nat) : (count s k n).hostWaits = s.hostWaits := rfl
@[simp] theorem count_classifier (s : State) (k : Counter) (n : Nat) : (count s k n).classifier = s.classifier := rfl
@[simp] theorem count_ingress (s : State) (k : Counter) (n : Nat) : (count s k n).ingress = s.ingress := rfl
@[simp] theorem count_portFrames (s : State) (k : Counter) (n : Nat) : (count s k n).portFrames = s.portFrames := rfl
@[simp] theorem count_feUrgents (s : State) (k : Counter) (n : Nat) : (count s k n).feUrgents = s.feUrgents := rfl
@[simp] theorem count_errTables (s : State) (k : Counter) (n : Nat) : (count s k n).errTables = s.errTables := rfl
@[simp] theorem count_notices (s : State) (k : Counter) (n : Nat) : (count s k n).notices = s.notices := rfl
@[simp] theorem count_mismatches (s : State) (k : Counter) (n : Nat) : (count s k n).mismatches = s.mismatches := rfl
@[simp] theorem count_deadPhys (s : State) (k : Counter) (n : Nat) : (count s k n).deadPhys = s.deadPhys := rfl
@[simp] theorem count_firmware (s : State) (k : Counter) (n : Nat) : (count s k n).firmware = s.firmware := rfl
@[simp] theorem count_minSvn (s : State) (k : Counter) (n : Nat) : (count s k n).minSvn = s.minSvn := rfl
@[simp] theorem count_flash (s : State) (k : Counter) (n : Nat) : (count s k n).flash = s.flash := rfl
@[simp] theorem count_replacements (s : State) (k : Counter) (n : Nat) : (count s k n).replacements = s.replacements := rfl
@[simp] theorem count_reports (s : State) (k : Counter) (n : Nat) : (count s k n).reports = s.reports := rfl
@[simp] theorem count_cuts (s : State) (k : Counter) (n : Nat) : (count s k n).cuts = s.cuts := rfl
@[simp] theorem count_cutReports (s : State) (k : Counter) (n : Nat) : (count s k n).cutReports = s.cutReports := rfl

/-! ### setPart -/

@[simp] theorem setPart_fresh (s : State) (p : Nat) (q : Partition) : (setPart s p q).fresh = s.fresh := rfl
@[simp] theorem setPart_nextId (s : State) (p : Nat) (q : Partition) : (setPart s p q).nextId = s.nextId := rfl
@[simp] theorem setPart_turn (s : State) (p : Nat) (q : Partition) : (setPart s p q).turn = s.turn := rfl
@[simp] theorem setPart_agenda (s : State) (p : Nat) (q : Partition) : (setPart s p q).agenda = s.agenda := rfl
@[simp] theorem setPart_focus (s : State) (p : Nat) (q : Partition) : (setPart s p q).focus = s.focus := rfl
@[simp] theorem setPart_cores (s : State) (p : Nat) (q : Partition) : (setPart s p q).cores = s.cores := rfl
@[simp] theorem setPart_hbm (s : State) (p : Nat) (q : Partition) : (setPart s p q).hbm = s.hbm := rfl
@[simp] theorem setPart_remote (s : State) (p : Nat) (q : Partition) : (setPart s p q).remote = s.remote := rfl
@[simp] theorem setPart_lines (s : State) (p : Nat) (q : Partition) : (setPart s p q).lines = s.lines := rfl
@[simp] theorem setPart_badSectors (s : State) (p : Nat) (q : Partition) : (setPart s p q).badSectors = s.badSectors := rfl
@[simp] theorem setPart_hot (s : State) (p : Nat) (q : Partition) : (setPart s p q).hot = s.hot := rfl
@[simp] theorem setPart_replicas (s : State) (p : Nat) (q : Partition) : (setPart s p q).replicas = s.replicas := rfl
@[simp] theorem setPart_redirects (s : State) (p : Nat) (q : Partition) : (setPart s p q).redirects = s.redirects := rfl
@[simp] theorem setPart_stations (s : State) (p : Nat) (q : Partition) : (setPart s p q).stations = s.stations := rfl
@[simp] theorem setPart_fq (s : State) (p : Nat) (q : Partition) : (setPart s p q).fq = s.fq := rfl
@[simp] theorem setPart_accs (s : State) (p : Nat) (q : Partition) : (setPart s p q).accs = s.accs := rfl
@[simp] theorem setPart_carried (s : State) (p : Nat) (q : Partition) : (setPart s p q).carried = s.carried := rfl
@[simp] theorem setPart_escaped (s : State) (p : Nat) (q : Partition) : (setPart s p q).escaped = s.escaped := rfl
@[simp] theorem setPart_escLoose (s : State) (p : Nat) (q : Partition) : (setPart s p q).escLoose = s.escLoose := rfl
@[simp] theorem setPart_ops (s : State) (p : Nat) (q : Partition) : (setPart s p q).ops = s.ops := rfl
@[simp] theorem setPart_merges (s : State) (p : Nat) (q : Partition) : (setPart s p q).merges = s.merges := rfl
@[simp] theorem setPart_msgs (s : State) (p : Nat) (q : Partition) : (setPart s p q).msgs = s.msgs := rfl
@[simp] theorem setPart_groups (s : State) (p : Nat) (q : Partition) : (setPart s p q).groups = s.groups := rfl
@[simp] theorem setPart_coreMap (s : State) (p : Nat) (q : Partition) : (setPart s p q).coreMap = s.coreMap := rfl
@[simp] theorem setPart_mapChanges (s : State) (p : Nat) (q : Partition) : (setPart s p q).mapChanges = s.mapChanges := rfl
@[simp] theorem setPart_launches (s : State) (p : Nat) (q : Partition) : (setPart s p q).launches = s.launches := rfl
@[simp] theorem setPart_lastLtag (s : State) (p : Nat) (q : Partition) : (setPart s p q).lastLtag = s.lastLtag := rfl
@[simp] theorem setPart_rootWaits (s : State) (p : Nat) (q : Partition) : (setPart s p q).rootWaits = s.rootWaits := rfl
@[simp] theorem setPart_dualWaits (s : State) (p : Nat) (q : Partition) : (setPart s p q).dualWaits = s.dualWaits := rfl
@[simp] theorem setPart_pairs (s : State) (p : Nat) (q : Partition) : (setPart s p q).pairs = s.pairs := rfl
@[simp] theorem setPart_nextPair (s : State) (p : Nat) (q : Partition) : (setPart s p q).nextPair = s.nextPair := rfl
@[simp] theorem setPart_dieReports (s : State) (p : Nat) (q : Partition) : (setPart s p q).dieReports = s.dieReports := rfl
@[simp] theorem setPart_pools (s : State) (p : Nat) (q : Partition) : (setPart s p q).pools = s.pools := rfl
@[simp] theorem setPart_comms (s : State) (p : Nat) (q : Partition) : (setPart s p q).comms = s.comms := rfl
@[simp] theorem setPart_instances (s : State) (p : Nat) (q : Partition) : (setPart s p q).instances = s.instances := rfl
@[simp] theorem setPart_colJoins (s : State) (p : Nat) (q : Partition) : (setPart s p q).colJoins = s.colJoins := rfl
@[simp] theorem setPart_engines (s : State) (p : Nat) (q : Partition) : (setPart s p q).engines = s.engines := rfl
@[simp] theorem setPart_homes (s : State) (p : Nat) (q : Partition) : (setPart s p q).homes = s.homes := rfl
@[simp] theorem setPart_absentHomes (s : State) (p : Nat) (q : Partition) : (setPart s p q).absentHomes = s.absentHomes := rfl
@[simp] theorem setPart_homeMap (s : State) (p : Nat) (q : Partition) : (setPart s p q).homeMap = s.homeMap := rfl
@[simp] theorem setPart_mapCopies (s : State) (p : Nat) (q : Partition) : (setPart s p q).mapCopies = s.mapCopies := rfl
@[simp] theorem setPart_hints (s : State) (p : Nat) (q : Partition) : (setPart s p q).hints = s.hints := rfl
@[simp] theorem setPart_split (s : State) (p : Nat) (q : Partition) : (setPart s p q).split = s.split := rfl
@[simp] theorem setPart_splitIn (s : State) (p : Nat) (q : Partition) : (setPart s p q).splitIn = s.splitIn := rfl
@[simp] theorem setPart_splitReqs (s : State) (p : Nat) (q : Partition) : (setPart s p q).splitReqs = s.splitReqs := rfl
@[simp] theorem setPart_splitLock (s : State) (p : Nat) (q : Partition) : (setPart s p q).splitLock = s.splitLock := rfl
@[simp] theorem setPart_domainModules (s : State) (p : Nat) (q : Partition) : (setPart s p q).domainModules = s.domainModules := rfl
@[simp] theorem setPart_localMod (s : State) (p : Nat) (q : Partition) : (setPart s p q).localMod = s.localMod := rfl
@[simp] theorem setPart_waidric (s : State) (p : Nat) (q : Partition) : (setPart s p q).waidric = s.waidric := rfl
@[simp] theorem setPart_waidricOut (s : State) (p : Nat) (q : Partition) : (setPart s p q).waidricOut = s.waidricOut := rfl
@[simp] theorem setPart_failedModules (s : State) (p : Nat) (q : Partition) : (setPart s p q).failedModules = s.failedModules := rfl
@[simp] theorem setPart_keyReqs (s : State) (p : Nat) (q : Partition) : (setPart s p q).keyReqs = s.keyReqs := rfl
@[simp] theorem setPart_deliveries (s : State) (p : Nat) (q : Partition) : (setPart s p q).deliveries = s.deliveries := rfl
@[simp] theorem setPart_acks (s : State) (p : Nat) (q : Partition) : (setPart s p q).acks = s.acks := rfl
@[simp] theorem setPart_slices (s : State) (p : Nat) (q : Partition) : (setPart s p q).slices = s.slices := rfl
@[simp] theorem setPart_cmbMsgs (s : State) (p : Nat) (q : Partition) : (setPart s p q).cmbMsgs = s.cmbMsgs := rfl
@[simp] theorem setPart_queues (s : State) (p : Nat) (q : Partition) : (setPart s p q).queues = s.queues := rfl
@[simp] theorem setPart_feMode (s : State) (p : Nat) (q : Partition) : (setPart s p q).feMode = s.feMode := rfl
@[simp] theorem setPart_feSaved (s : State) (p : Nat) (q : Partition) : (setPart s p q).feSaved = s.feSaved := rfl
@[simp] theorem setPart_hostWaits (s : State) (p : Nat) (q : Partition) : (setPart s p q).hostWaits = s.hostWaits := rfl
@[simp] theorem setPart_classifier (s : State) (p : Nat) (q : Partition) : (setPart s p q).classifier = s.classifier := rfl
@[simp] theorem setPart_ingress (s : State) (p : Nat) (q : Partition) : (setPart s p q).ingress = s.ingress := rfl
@[simp] theorem setPart_portFrames (s : State) (p : Nat) (q : Partition) : (setPart s p q).portFrames = s.portFrames := rfl
@[simp] theorem setPart_feUrgents (s : State) (p : Nat) (q : Partition) : (setPart s p q).feUrgents = s.feUrgents := rfl
@[simp] theorem setPart_counters (s : State) (p : Nat) (q : Partition) : (setPart s p q).counters = s.counters := rfl
@[simp] theorem setPart_errTables (s : State) (p : Nat) (q : Partition) : (setPart s p q).errTables = s.errTables := rfl
@[simp] theorem setPart_notices (s : State) (p : Nat) (q : Partition) : (setPart s p q).notices = s.notices := rfl
@[simp] theorem setPart_mismatches (s : State) (p : Nat) (q : Partition) : (setPart s p q).mismatches = s.mismatches := rfl
@[simp] theorem setPart_deadPhys (s : State) (p : Nat) (q : Partition) : (setPart s p q).deadPhys = s.deadPhys := rfl
@[simp] theorem setPart_firmware (s : State) (p : Nat) (q : Partition) : (setPart s p q).firmware = s.firmware := rfl
@[simp] theorem setPart_minSvn (s : State) (p : Nat) (q : Partition) : (setPart s p q).minSvn = s.minSvn := rfl
@[simp] theorem setPart_flash (s : State) (p : Nat) (q : Partition) : (setPart s p q).flash = s.flash := rfl
@[simp] theorem setPart_replacements (s : State) (p : Nat) (q : Partition) : (setPart s p q).replacements = s.replacements := rfl
@[simp] theorem setPart_reports (s : State) (p : Nat) (q : Partition) : (setPart s p q).reports = s.reports := rfl
@[simp] theorem setPart_cuts (s : State) (p : Nat) (q : Partition) : (setPart s p q).cuts = s.cuts := rfl
@[simp] theorem setPart_cutReports (s : State) (p : Nat) (q : Partition) : (setPart s p q).cutReports = s.cutReports := rfl

/-! ### setLine -/

@[simp] theorem setLine_fresh (s : State) (l : Nat) (v : Line) : (setLine s l v).fresh = s.fresh := rfl
@[simp] theorem setLine_nextId (s : State) (l : Nat) (v : Line) : (setLine s l v).nextId = s.nextId := rfl
@[simp] theorem setLine_turn (s : State) (l : Nat) (v : Line) : (setLine s l v).turn = s.turn := rfl
@[simp] theorem setLine_agenda (s : State) (l : Nat) (v : Line) : (setLine s l v).agenda = s.agenda := rfl
@[simp] theorem setLine_focus (s : State) (l : Nat) (v : Line) : (setLine s l v).focus = s.focus := rfl
@[simp] theorem setLine_cores (s : State) (l : Nat) (v : Line) : (setLine s l v).cores = s.cores := rfl
@[simp] theorem setLine_hbm (s : State) (l : Nat) (v : Line) : (setLine s l v).hbm = s.hbm := rfl
@[simp] theorem setLine_remote (s : State) (l : Nat) (v : Line) : (setLine s l v).remote = s.remote := rfl
@[simp] theorem setLine_badSectors (s : State) (l : Nat) (v : Line) : (setLine s l v).badSectors = s.badSectors := rfl
@[simp] theorem setLine_hot (s : State) (l : Nat) (v : Line) : (setLine s l v).hot = s.hot := rfl
@[simp] theorem setLine_replicas (s : State) (l : Nat) (v : Line) : (setLine s l v).replicas = s.replicas := rfl
@[simp] theorem setLine_redirects (s : State) (l : Nat) (v : Line) : (setLine s l v).redirects = s.redirects := rfl
@[simp] theorem setLine_stations (s : State) (l : Nat) (v : Line) : (setLine s l v).stations = s.stations := rfl
@[simp] theorem setLine_fq (s : State) (l : Nat) (v : Line) : (setLine s l v).fq = s.fq := rfl
@[simp] theorem setLine_accs (s : State) (l : Nat) (v : Line) : (setLine s l v).accs = s.accs := rfl
@[simp] theorem setLine_carried (s : State) (l : Nat) (v : Line) : (setLine s l v).carried = s.carried := rfl
@[simp] theorem setLine_escaped (s : State) (l : Nat) (v : Line) : (setLine s l v).escaped = s.escaped := rfl
@[simp] theorem setLine_escLoose (s : State) (l : Nat) (v : Line) : (setLine s l v).escLoose = s.escLoose := rfl
@[simp] theorem setLine_ops (s : State) (l : Nat) (v : Line) : (setLine s l v).ops = s.ops := rfl
@[simp] theorem setLine_merges (s : State) (l : Nat) (v : Line) : (setLine s l v).merges = s.merges := rfl
@[simp] theorem setLine_msgs (s : State) (l : Nat) (v : Line) : (setLine s l v).msgs = s.msgs := rfl
@[simp] theorem setLine_parts (s : State) (l : Nat) (v : Line) : (setLine s l v).parts = s.parts := rfl
@[simp] theorem setLine_groups (s : State) (l : Nat) (v : Line) : (setLine s l v).groups = s.groups := rfl
@[simp] theorem setLine_coreMap (s : State) (l : Nat) (v : Line) : (setLine s l v).coreMap = s.coreMap := rfl
@[simp] theorem setLine_mapChanges (s : State) (l : Nat) (v : Line) : (setLine s l v).mapChanges = s.mapChanges := rfl
@[simp] theorem setLine_launches (s : State) (l : Nat) (v : Line) : (setLine s l v).launches = s.launches := rfl
@[simp] theorem setLine_lastLtag (s : State) (l : Nat) (v : Line) : (setLine s l v).lastLtag = s.lastLtag := rfl
@[simp] theorem setLine_rootWaits (s : State) (l : Nat) (v : Line) : (setLine s l v).rootWaits = s.rootWaits := rfl
@[simp] theorem setLine_dualWaits (s : State) (l : Nat) (v : Line) : (setLine s l v).dualWaits = s.dualWaits := rfl
@[simp] theorem setLine_pairs (s : State) (l : Nat) (v : Line) : (setLine s l v).pairs = s.pairs := rfl
@[simp] theorem setLine_nextPair (s : State) (l : Nat) (v : Line) : (setLine s l v).nextPair = s.nextPair := rfl
@[simp] theorem setLine_dieReports (s : State) (l : Nat) (v : Line) : (setLine s l v).dieReports = s.dieReports := rfl
@[simp] theorem setLine_pools (s : State) (l : Nat) (v : Line) : (setLine s l v).pools = s.pools := rfl
@[simp] theorem setLine_comms (s : State) (l : Nat) (v : Line) : (setLine s l v).comms = s.comms := rfl
@[simp] theorem setLine_instances (s : State) (l : Nat) (v : Line) : (setLine s l v).instances = s.instances := rfl
@[simp] theorem setLine_colJoins (s : State) (l : Nat) (v : Line) : (setLine s l v).colJoins = s.colJoins := rfl
@[simp] theorem setLine_engines (s : State) (l : Nat) (v : Line) : (setLine s l v).engines = s.engines := rfl
@[simp] theorem setLine_homes (s : State) (l : Nat) (v : Line) : (setLine s l v).homes = s.homes := rfl
@[simp] theorem setLine_absentHomes (s : State) (l : Nat) (v : Line) : (setLine s l v).absentHomes = s.absentHomes := rfl
@[simp] theorem setLine_homeMap (s : State) (l : Nat) (v : Line) : (setLine s l v).homeMap = s.homeMap := rfl
@[simp] theorem setLine_mapCopies (s : State) (l : Nat) (v : Line) : (setLine s l v).mapCopies = s.mapCopies := rfl
@[simp] theorem setLine_hints (s : State) (l : Nat) (v : Line) : (setLine s l v).hints = s.hints := rfl
@[simp] theorem setLine_split (s : State) (l : Nat) (v : Line) : (setLine s l v).split = s.split := rfl
@[simp] theorem setLine_splitIn (s : State) (l : Nat) (v : Line) : (setLine s l v).splitIn = s.splitIn := rfl
@[simp] theorem setLine_splitReqs (s : State) (l : Nat) (v : Line) : (setLine s l v).splitReqs = s.splitReqs := rfl
@[simp] theorem setLine_splitLock (s : State) (l : Nat) (v : Line) : (setLine s l v).splitLock = s.splitLock := rfl
@[simp] theorem setLine_domainModules (s : State) (l : Nat) (v : Line) : (setLine s l v).domainModules = s.domainModules := rfl
@[simp] theorem setLine_localMod (s : State) (l : Nat) (v : Line) : (setLine s l v).localMod = s.localMod := rfl
@[simp] theorem setLine_waidric (s : State) (l : Nat) (v : Line) : (setLine s l v).waidric = s.waidric := rfl
@[simp] theorem setLine_waidricOut (s : State) (l : Nat) (v : Line) : (setLine s l v).waidricOut = s.waidricOut := rfl
@[simp] theorem setLine_failedModules (s : State) (l : Nat) (v : Line) : (setLine s l v).failedModules = s.failedModules := rfl
@[simp] theorem setLine_keyReqs (s : State) (l : Nat) (v : Line) : (setLine s l v).keyReqs = s.keyReqs := rfl
@[simp] theorem setLine_deliveries (s : State) (l : Nat) (v : Line) : (setLine s l v).deliveries = s.deliveries := rfl
@[simp] theorem setLine_acks (s : State) (l : Nat) (v : Line) : (setLine s l v).acks = s.acks := rfl
@[simp] theorem setLine_slices (s : State) (l : Nat) (v : Line) : (setLine s l v).slices = s.slices := rfl
@[simp] theorem setLine_cmbMsgs (s : State) (l : Nat) (v : Line) : (setLine s l v).cmbMsgs = s.cmbMsgs := rfl
@[simp] theorem setLine_queues (s : State) (l : Nat) (v : Line) : (setLine s l v).queues = s.queues := rfl
@[simp] theorem setLine_feMode (s : State) (l : Nat) (v : Line) : (setLine s l v).feMode = s.feMode := rfl
@[simp] theorem setLine_feSaved (s : State) (l : Nat) (v : Line) : (setLine s l v).feSaved = s.feSaved := rfl
@[simp] theorem setLine_hostWaits (s : State) (l : Nat) (v : Line) : (setLine s l v).hostWaits = s.hostWaits := rfl
@[simp] theorem setLine_classifier (s : State) (l : Nat) (v : Line) : (setLine s l v).classifier = s.classifier := rfl
@[simp] theorem setLine_ingress (s : State) (l : Nat) (v : Line) : (setLine s l v).ingress = s.ingress := rfl
@[simp] theorem setLine_portFrames (s : State) (l : Nat) (v : Line) : (setLine s l v).portFrames = s.portFrames := rfl
@[simp] theorem setLine_feUrgents (s : State) (l : Nat) (v : Line) : (setLine s l v).feUrgents = s.feUrgents := rfl
@[simp] theorem setLine_counters (s : State) (l : Nat) (v : Line) : (setLine s l v).counters = s.counters := rfl
@[simp] theorem setLine_errTables (s : State) (l : Nat) (v : Line) : (setLine s l v).errTables = s.errTables := rfl
@[simp] theorem setLine_notices (s : State) (l : Nat) (v : Line) : (setLine s l v).notices = s.notices := rfl
@[simp] theorem setLine_mismatches (s : State) (l : Nat) (v : Line) : (setLine s l v).mismatches = s.mismatches := rfl
@[simp] theorem setLine_deadPhys (s : State) (l : Nat) (v : Line) : (setLine s l v).deadPhys = s.deadPhys := rfl
@[simp] theorem setLine_firmware (s : State) (l : Nat) (v : Line) : (setLine s l v).firmware = s.firmware := rfl
@[simp] theorem setLine_minSvn (s : State) (l : Nat) (v : Line) : (setLine s l v).minSvn = s.minSvn := rfl
@[simp] theorem setLine_flash (s : State) (l : Nat) (v : Line) : (setLine s l v).flash = s.flash := rfl
@[simp] theorem setLine_replacements (s : State) (l : Nat) (v : Line) : (setLine s l v).replacements = s.replacements := rfl
@[simp] theorem setLine_reports (s : State) (l : Nat) (v : Line) : (setLine s l v).reports = s.reports := rfl
@[simp] theorem setLine_cuts (s : State) (l : Nat) (v : Line) : (setLine s l v).cuts = s.cuts := rfl
@[simp] theorem setLine_cutReports (s : State) (l : Nat) (v : Line) : (setLine s l v).cutReports = s.cutReports := rfl

/-! ### putOp -/

@[simp] theorem putOp_fresh (s : State) (o : Op) : (putOp s o).fresh = s.fresh := rfl
@[simp] theorem putOp_nextId (s : State) (o : Op) : (putOp s o).nextId = s.nextId := rfl
@[simp] theorem putOp_turn (s : State) (o : Op) : (putOp s o).turn = s.turn := rfl
@[simp] theorem putOp_agenda (s : State) (o : Op) : (putOp s o).agenda = s.agenda := rfl
@[simp] theorem putOp_focus (s : State) (o : Op) : (putOp s o).focus = s.focus := rfl
@[simp] theorem putOp_cores (s : State) (o : Op) : (putOp s o).cores = s.cores := rfl
@[simp] theorem putOp_hbm (s : State) (o : Op) : (putOp s o).hbm = s.hbm := rfl
@[simp] theorem putOp_remote (s : State) (o : Op) : (putOp s o).remote = s.remote := rfl
@[simp] theorem putOp_lines (s : State) (o : Op) : (putOp s o).lines = s.lines := rfl
@[simp] theorem putOp_badSectors (s : State) (o : Op) : (putOp s o).badSectors = s.badSectors := rfl
@[simp] theorem putOp_hot (s : State) (o : Op) : (putOp s o).hot = s.hot := rfl
@[simp] theorem putOp_replicas (s : State) (o : Op) : (putOp s o).replicas = s.replicas := rfl
@[simp] theorem putOp_redirects (s : State) (o : Op) : (putOp s o).redirects = s.redirects := rfl
@[simp] theorem putOp_stations (s : State) (o : Op) : (putOp s o).stations = s.stations := rfl
@[simp] theorem putOp_fq (s : State) (o : Op) : (putOp s o).fq = s.fq := rfl
@[simp] theorem putOp_accs (s : State) (o : Op) : (putOp s o).accs = s.accs := rfl
@[simp] theorem putOp_carried (s : State) (o : Op) : (putOp s o).carried = s.carried := rfl
@[simp] theorem putOp_escaped (s : State) (o : Op) : (putOp s o).escaped = s.escaped := rfl
@[simp] theorem putOp_escLoose (s : State) (o : Op) : (putOp s o).escLoose = s.escLoose := rfl
@[simp] theorem putOp_merges (s : State) (o : Op) : (putOp s o).merges = s.merges := rfl
@[simp] theorem putOp_msgs (s : State) (o : Op) : (putOp s o).msgs = s.msgs := rfl
@[simp] theorem putOp_parts (s : State) (o : Op) : (putOp s o).parts = s.parts := rfl
@[simp] theorem putOp_groups (s : State) (o : Op) : (putOp s o).groups = s.groups := rfl
@[simp] theorem putOp_coreMap (s : State) (o : Op) : (putOp s o).coreMap = s.coreMap := rfl
@[simp] theorem putOp_mapChanges (s : State) (o : Op) : (putOp s o).mapChanges = s.mapChanges := rfl
@[simp] theorem putOp_launches (s : State) (o : Op) : (putOp s o).launches = s.launches := rfl
@[simp] theorem putOp_lastLtag (s : State) (o : Op) : (putOp s o).lastLtag = s.lastLtag := rfl
@[simp] theorem putOp_rootWaits (s : State) (o : Op) : (putOp s o).rootWaits = s.rootWaits := rfl
@[simp] theorem putOp_dualWaits (s : State) (o : Op) : (putOp s o).dualWaits = s.dualWaits := rfl
@[simp] theorem putOp_pairs (s : State) (o : Op) : (putOp s o).pairs = s.pairs := rfl
@[simp] theorem putOp_nextPair (s : State) (o : Op) : (putOp s o).nextPair = s.nextPair := rfl
@[simp] theorem putOp_dieReports (s : State) (o : Op) : (putOp s o).dieReports = s.dieReports := rfl
@[simp] theorem putOp_pools (s : State) (o : Op) : (putOp s o).pools = s.pools := rfl
@[simp] theorem putOp_comms (s : State) (o : Op) : (putOp s o).comms = s.comms := rfl
@[simp] theorem putOp_instances (s : State) (o : Op) : (putOp s o).instances = s.instances := rfl
@[simp] theorem putOp_colJoins (s : State) (o : Op) : (putOp s o).colJoins = s.colJoins := rfl
@[simp] theorem putOp_engines (s : State) (o : Op) : (putOp s o).engines = s.engines := rfl
@[simp] theorem putOp_homes (s : State) (o : Op) : (putOp s o).homes = s.homes := rfl
@[simp] theorem putOp_absentHomes (s : State) (o : Op) : (putOp s o).absentHomes = s.absentHomes := rfl
@[simp] theorem putOp_homeMap (s : State) (o : Op) : (putOp s o).homeMap = s.homeMap := rfl
@[simp] theorem putOp_mapCopies (s : State) (o : Op) : (putOp s o).mapCopies = s.mapCopies := rfl
@[simp] theorem putOp_hints (s : State) (o : Op) : (putOp s o).hints = s.hints := rfl
@[simp] theorem putOp_split (s : State) (o : Op) : (putOp s o).split = s.split := rfl
@[simp] theorem putOp_splitIn (s : State) (o : Op) : (putOp s o).splitIn = s.splitIn := rfl
@[simp] theorem putOp_splitReqs (s : State) (o : Op) : (putOp s o).splitReqs = s.splitReqs := rfl
@[simp] theorem putOp_splitLock (s : State) (o : Op) : (putOp s o).splitLock = s.splitLock := rfl
@[simp] theorem putOp_domainModules (s : State) (o : Op) : (putOp s o).domainModules = s.domainModules := rfl
@[simp] theorem putOp_localMod (s : State) (o : Op) : (putOp s o).localMod = s.localMod := rfl
@[simp] theorem putOp_waidric (s : State) (o : Op) : (putOp s o).waidric = s.waidric := rfl
@[simp] theorem putOp_waidricOut (s : State) (o : Op) : (putOp s o).waidricOut = s.waidricOut := rfl
@[simp] theorem putOp_failedModules (s : State) (o : Op) : (putOp s o).failedModules = s.failedModules := rfl
@[simp] theorem putOp_keyReqs (s : State) (o : Op) : (putOp s o).keyReqs = s.keyReqs := rfl
@[simp] theorem putOp_deliveries (s : State) (o : Op) : (putOp s o).deliveries = s.deliveries := rfl
@[simp] theorem putOp_acks (s : State) (o : Op) : (putOp s o).acks = s.acks := rfl
@[simp] theorem putOp_slices (s : State) (o : Op) : (putOp s o).slices = s.slices := rfl
@[simp] theorem putOp_cmbMsgs (s : State) (o : Op) : (putOp s o).cmbMsgs = s.cmbMsgs := rfl
@[simp] theorem putOp_queues (s : State) (o : Op) : (putOp s o).queues = s.queues := rfl
@[simp] theorem putOp_feMode (s : State) (o : Op) : (putOp s o).feMode = s.feMode := rfl
@[simp] theorem putOp_feSaved (s : State) (o : Op) : (putOp s o).feSaved = s.feSaved := rfl
@[simp] theorem putOp_hostWaits (s : State) (o : Op) : (putOp s o).hostWaits = s.hostWaits := rfl
@[simp] theorem putOp_classifier (s : State) (o : Op) : (putOp s o).classifier = s.classifier := rfl
@[simp] theorem putOp_ingress (s : State) (o : Op) : (putOp s o).ingress = s.ingress := rfl
@[simp] theorem putOp_portFrames (s : State) (o : Op) : (putOp s o).portFrames = s.portFrames := rfl
@[simp] theorem putOp_feUrgents (s : State) (o : Op) : (putOp s o).feUrgents = s.feUrgents := rfl
@[simp] theorem putOp_counters (s : State) (o : Op) : (putOp s o).counters = s.counters := rfl
@[simp] theorem putOp_errTables (s : State) (o : Op) : (putOp s o).errTables = s.errTables := rfl
@[simp] theorem putOp_notices (s : State) (o : Op) : (putOp s o).notices = s.notices := rfl
@[simp] theorem putOp_mismatches (s : State) (o : Op) : (putOp s o).mismatches = s.mismatches := rfl
@[simp] theorem putOp_deadPhys (s : State) (o : Op) : (putOp s o).deadPhys = s.deadPhys := rfl
@[simp] theorem putOp_firmware (s : State) (o : Op) : (putOp s o).firmware = s.firmware := rfl
@[simp] theorem putOp_minSvn (s : State) (o : Op) : (putOp s o).minSvn = s.minSvn := rfl
@[simp] theorem putOp_flash (s : State) (o : Op) : (putOp s o).flash = s.flash := rfl
@[simp] theorem putOp_replacements (s : State) (o : Op) : (putOp s o).replacements = s.replacements := rfl
@[simp] theorem putOp_reports (s : State) (o : Op) : (putOp s o).reports = s.reports := rfl
@[simp] theorem putOp_cuts (s : State) (o : Op) : (putOp s o).cuts = s.cuts := rfl
@[simp] theorem putOp_cutReports (s : State) (o : Op) : (putOp s o).cutReports = s.cutReports := rfl

/-! ### dropOp -/

@[simp] theorem dropOp_fresh (s : State) (n : Nat) : (dropOp s n).fresh = s.fresh := rfl
@[simp] theorem dropOp_nextId (s : State) (n : Nat) : (dropOp s n).nextId = s.nextId := rfl
@[simp] theorem dropOp_turn (s : State) (n : Nat) : (dropOp s n).turn = s.turn := rfl
@[simp] theorem dropOp_agenda (s : State) (n : Nat) : (dropOp s n).agenda = s.agenda := rfl
@[simp] theorem dropOp_focus (s : State) (n : Nat) : (dropOp s n).focus = s.focus := rfl
@[simp] theorem dropOp_cores (s : State) (n : Nat) : (dropOp s n).cores = s.cores := rfl
@[simp] theorem dropOp_hbm (s : State) (n : Nat) : (dropOp s n).hbm = s.hbm := rfl
@[simp] theorem dropOp_remote (s : State) (n : Nat) : (dropOp s n).remote = s.remote := rfl
@[simp] theorem dropOp_lines (s : State) (n : Nat) : (dropOp s n).lines = s.lines := rfl
@[simp] theorem dropOp_badSectors (s : State) (n : Nat) : (dropOp s n).badSectors = s.badSectors := rfl
@[simp] theorem dropOp_hot (s : State) (n : Nat) : (dropOp s n).hot = s.hot := rfl
@[simp] theorem dropOp_replicas (s : State) (n : Nat) : (dropOp s n).replicas = s.replicas := rfl
@[simp] theorem dropOp_redirects (s : State) (n : Nat) : (dropOp s n).redirects = s.redirects := rfl
@[simp] theorem dropOp_stations (s : State) (n : Nat) : (dropOp s n).stations = s.stations := rfl
@[simp] theorem dropOp_fq (s : State) (n : Nat) : (dropOp s n).fq = s.fq := rfl
@[simp] theorem dropOp_accs (s : State) (n : Nat) : (dropOp s n).accs = s.accs := rfl
@[simp] theorem dropOp_carried (s : State) (n : Nat) : (dropOp s n).carried = s.carried := rfl
@[simp] theorem dropOp_escaped (s : State) (n : Nat) : (dropOp s n).escaped = s.escaped := rfl
@[simp] theorem dropOp_escLoose (s : State) (n : Nat) : (dropOp s n).escLoose = s.escLoose := rfl
@[simp] theorem dropOp_merges (s : State) (n : Nat) : (dropOp s n).merges = s.merges := rfl
@[simp] theorem dropOp_msgs (s : State) (n : Nat) : (dropOp s n).msgs = s.msgs := rfl
@[simp] theorem dropOp_parts (s : State) (n : Nat) : (dropOp s n).parts = s.parts := rfl
@[simp] theorem dropOp_groups (s : State) (n : Nat) : (dropOp s n).groups = s.groups := rfl
@[simp] theorem dropOp_coreMap (s : State) (n : Nat) : (dropOp s n).coreMap = s.coreMap := rfl
@[simp] theorem dropOp_mapChanges (s : State) (n : Nat) : (dropOp s n).mapChanges = s.mapChanges := rfl
@[simp] theorem dropOp_launches (s : State) (n : Nat) : (dropOp s n).launches = s.launches := rfl
@[simp] theorem dropOp_lastLtag (s : State) (n : Nat) : (dropOp s n).lastLtag = s.lastLtag := rfl
@[simp] theorem dropOp_rootWaits (s : State) (n : Nat) : (dropOp s n).rootWaits = s.rootWaits := rfl
@[simp] theorem dropOp_dualWaits (s : State) (n : Nat) : (dropOp s n).dualWaits = s.dualWaits := rfl
@[simp] theorem dropOp_pairs (s : State) (n : Nat) : (dropOp s n).pairs = s.pairs := rfl
@[simp] theorem dropOp_nextPair (s : State) (n : Nat) : (dropOp s n).nextPair = s.nextPair := rfl
@[simp] theorem dropOp_dieReports (s : State) (n : Nat) : (dropOp s n).dieReports = s.dieReports := rfl
@[simp] theorem dropOp_pools (s : State) (n : Nat) : (dropOp s n).pools = s.pools := rfl
@[simp] theorem dropOp_comms (s : State) (n : Nat) : (dropOp s n).comms = s.comms := rfl
@[simp] theorem dropOp_instances (s : State) (n : Nat) : (dropOp s n).instances = s.instances := rfl
@[simp] theorem dropOp_colJoins (s : State) (n : Nat) : (dropOp s n).colJoins = s.colJoins := rfl
@[simp] theorem dropOp_engines (s : State) (n : Nat) : (dropOp s n).engines = s.engines := rfl
@[simp] theorem dropOp_homes (s : State) (n : Nat) : (dropOp s n).homes = s.homes := rfl
@[simp] theorem dropOp_absentHomes (s : State) (n : Nat) : (dropOp s n).absentHomes = s.absentHomes := rfl
@[simp] theorem dropOp_homeMap (s : State) (n : Nat) : (dropOp s n).homeMap = s.homeMap := rfl
@[simp] theorem dropOp_mapCopies (s : State) (n : Nat) : (dropOp s n).mapCopies = s.mapCopies := rfl
@[simp] theorem dropOp_hints (s : State) (n : Nat) : (dropOp s n).hints = s.hints := rfl
@[simp] theorem dropOp_split (s : State) (n : Nat) : (dropOp s n).split = s.split := rfl
@[simp] theorem dropOp_splitIn (s : State) (n : Nat) : (dropOp s n).splitIn = s.splitIn := rfl
@[simp] theorem dropOp_splitReqs (s : State) (n : Nat) : (dropOp s n).splitReqs = s.splitReqs := rfl
@[simp] theorem dropOp_splitLock (s : State) (n : Nat) : (dropOp s n).splitLock = s.splitLock := rfl
@[simp] theorem dropOp_domainModules (s : State) (n : Nat) : (dropOp s n).domainModules = s.domainModules := rfl
@[simp] theorem dropOp_localMod (s : State) (n : Nat) : (dropOp s n).localMod = s.localMod := rfl
@[simp] theorem dropOp_waidric (s : State) (n : Nat) : (dropOp s n).waidric = s.waidric := rfl
@[simp] theorem dropOp_waidricOut (s : State) (n : Nat) : (dropOp s n).waidricOut = s.waidricOut := rfl
@[simp] theorem dropOp_failedModules (s : State) (n : Nat) : (dropOp s n).failedModules = s.failedModules := rfl
@[simp] theorem dropOp_keyReqs (s : State) (n : Nat) : (dropOp s n).keyReqs = s.keyReqs := rfl
@[simp] theorem dropOp_deliveries (s : State) (n : Nat) : (dropOp s n).deliveries = s.deliveries := rfl
@[simp] theorem dropOp_acks (s : State) (n : Nat) : (dropOp s n).acks = s.acks := rfl
@[simp] theorem dropOp_slices (s : State) (n : Nat) : (dropOp s n).slices = s.slices := rfl
@[simp] theorem dropOp_cmbMsgs (s : State) (n : Nat) : (dropOp s n).cmbMsgs = s.cmbMsgs := rfl
@[simp] theorem dropOp_queues (s : State) (n : Nat) : (dropOp s n).queues = s.queues := rfl
@[simp] theorem dropOp_feMode (s : State) (n : Nat) : (dropOp s n).feMode = s.feMode := rfl
@[simp] theorem dropOp_feSaved (s : State) (n : Nat) : (dropOp s n).feSaved = s.feSaved := rfl
@[simp] theorem dropOp_hostWaits (s : State) (n : Nat) : (dropOp s n).hostWaits = s.hostWaits := rfl
@[simp] theorem dropOp_classifier (s : State) (n : Nat) : (dropOp s n).classifier = s.classifier := rfl
@[simp] theorem dropOp_ingress (s : State) (n : Nat) : (dropOp s n).ingress = s.ingress := rfl
@[simp] theorem dropOp_portFrames (s : State) (n : Nat) : (dropOp s n).portFrames = s.portFrames := rfl
@[simp] theorem dropOp_feUrgents (s : State) (n : Nat) : (dropOp s n).feUrgents = s.feUrgents := rfl
@[simp] theorem dropOp_counters (s : State) (n : Nat) : (dropOp s n).counters = s.counters := rfl
@[simp] theorem dropOp_errTables (s : State) (n : Nat) : (dropOp s n).errTables = s.errTables := rfl
@[simp] theorem dropOp_notices (s : State) (n : Nat) : (dropOp s n).notices = s.notices := rfl
@[simp] theorem dropOp_mismatches (s : State) (n : Nat) : (dropOp s n).mismatches = s.mismatches := rfl
@[simp] theorem dropOp_deadPhys (s : State) (n : Nat) : (dropOp s n).deadPhys = s.deadPhys := rfl
@[simp] theorem dropOp_firmware (s : State) (n : Nat) : (dropOp s n).firmware = s.firmware := rfl
@[simp] theorem dropOp_minSvn (s : State) (n : Nat) : (dropOp s n).minSvn = s.minSvn := rfl
@[simp] theorem dropOp_flash (s : State) (n : Nat) : (dropOp s n).flash = s.flash := rfl
@[simp] theorem dropOp_replacements (s : State) (n : Nat) : (dropOp s n).replacements = s.replacements := rfl
@[simp] theorem dropOp_reports (s : State) (n : Nat) : (dropOp s n).reports = s.reports := rfl
@[simp] theorem dropOp_cuts (s : State) (n : Nat) : (dropOp s n).cuts = s.cuts := rfl
@[simp] theorem dropOp_cutReports (s : State) (n : Nat) : (dropOp s n).cutReports = s.cutReports := rfl

/-! ### setHome -/

@[simp] theorem setHome_fresh (s : State) (h : Nat) (v : Home) : (setHome s h v).fresh = s.fresh := rfl
@[simp] theorem setHome_nextId (s : State) (h : Nat) (v : Home) : (setHome s h v).nextId = s.nextId := rfl
@[simp] theorem setHome_turn (s : State) (h : Nat) (v : Home) : (setHome s h v).turn = s.turn := rfl
@[simp] theorem setHome_agenda (s : State) (h : Nat) (v : Home) : (setHome s h v).agenda = s.agenda := rfl
@[simp] theorem setHome_focus (s : State) (h : Nat) (v : Home) : (setHome s h v).focus = s.focus := rfl
@[simp] theorem setHome_cores (s : State) (h : Nat) (v : Home) : (setHome s h v).cores = s.cores := rfl
@[simp] theorem setHome_hbm (s : State) (h : Nat) (v : Home) : (setHome s h v).hbm = s.hbm := rfl
@[simp] theorem setHome_remote (s : State) (h : Nat) (v : Home) : (setHome s h v).remote = s.remote := rfl
@[simp] theorem setHome_lines (s : State) (h : Nat) (v : Home) : (setHome s h v).lines = s.lines := rfl
@[simp] theorem setHome_badSectors (s : State) (h : Nat) (v : Home) : (setHome s h v).badSectors = s.badSectors := rfl
@[simp] theorem setHome_hot (s : State) (h : Nat) (v : Home) : (setHome s h v).hot = s.hot := rfl
@[simp] theorem setHome_replicas (s : State) (h : Nat) (v : Home) : (setHome s h v).replicas = s.replicas := rfl
@[simp] theorem setHome_redirects (s : State) (h : Nat) (v : Home) : (setHome s h v).redirects = s.redirects := rfl
@[simp] theorem setHome_stations (s : State) (h : Nat) (v : Home) : (setHome s h v).stations = s.stations := rfl
@[simp] theorem setHome_fq (s : State) (h : Nat) (v : Home) : (setHome s h v).fq = s.fq := rfl
@[simp] theorem setHome_accs (s : State) (h : Nat) (v : Home) : (setHome s h v).accs = s.accs := rfl
@[simp] theorem setHome_carried (s : State) (h : Nat) (v : Home) : (setHome s h v).carried = s.carried := rfl
@[simp] theorem setHome_escaped (s : State) (h : Nat) (v : Home) : (setHome s h v).escaped = s.escaped := rfl
@[simp] theorem setHome_escLoose (s : State) (h : Nat) (v : Home) : (setHome s h v).escLoose = s.escLoose := rfl
@[simp] theorem setHome_ops (s : State) (h : Nat) (v : Home) : (setHome s h v).ops = s.ops := rfl
@[simp] theorem setHome_merges (s : State) (h : Nat) (v : Home) : (setHome s h v).merges = s.merges := rfl
@[simp] theorem setHome_msgs (s : State) (h : Nat) (v : Home) : (setHome s h v).msgs = s.msgs := rfl
@[simp] theorem setHome_parts (s : State) (h : Nat) (v : Home) : (setHome s h v).parts = s.parts := rfl
@[simp] theorem setHome_groups (s : State) (h : Nat) (v : Home) : (setHome s h v).groups = s.groups := rfl
@[simp] theorem setHome_coreMap (s : State) (h : Nat) (v : Home) : (setHome s h v).coreMap = s.coreMap := rfl
@[simp] theorem setHome_mapChanges (s : State) (h : Nat) (v : Home) : (setHome s h v).mapChanges = s.mapChanges := rfl
@[simp] theorem setHome_launches (s : State) (h : Nat) (v : Home) : (setHome s h v).launches = s.launches := rfl
@[simp] theorem setHome_lastLtag (s : State) (h : Nat) (v : Home) : (setHome s h v).lastLtag = s.lastLtag := rfl
@[simp] theorem setHome_rootWaits (s : State) (h : Nat) (v : Home) : (setHome s h v).rootWaits = s.rootWaits := rfl
@[simp] theorem setHome_dualWaits (s : State) (h : Nat) (v : Home) : (setHome s h v).dualWaits = s.dualWaits := rfl
@[simp] theorem setHome_pairs (s : State) (h : Nat) (v : Home) : (setHome s h v).pairs = s.pairs := rfl
@[simp] theorem setHome_nextPair (s : State) (h : Nat) (v : Home) : (setHome s h v).nextPair = s.nextPair := rfl
@[simp] theorem setHome_dieReports (s : State) (h : Nat) (v : Home) : (setHome s h v).dieReports = s.dieReports := rfl
@[simp] theorem setHome_pools (s : State) (h : Nat) (v : Home) : (setHome s h v).pools = s.pools := rfl
@[simp] theorem setHome_comms (s : State) (h : Nat) (v : Home) : (setHome s h v).comms = s.comms := rfl
@[simp] theorem setHome_instances (s : State) (h : Nat) (v : Home) : (setHome s h v).instances = s.instances := rfl
@[simp] theorem setHome_colJoins (s : State) (h : Nat) (v : Home) : (setHome s h v).colJoins = s.colJoins := rfl
@[simp] theorem setHome_engines (s : State) (h : Nat) (v : Home) : (setHome s h v).engines = s.engines := rfl
@[simp] theorem setHome_absentHomes (s : State) (h : Nat) (v : Home) : (setHome s h v).absentHomes = s.absentHomes := rfl
@[simp] theorem setHome_homeMap (s : State) (h : Nat) (v : Home) : (setHome s h v).homeMap = s.homeMap := rfl
@[simp] theorem setHome_mapCopies (s : State) (h : Nat) (v : Home) : (setHome s h v).mapCopies = s.mapCopies := rfl
@[simp] theorem setHome_hints (s : State) (h : Nat) (v : Home) : (setHome s h v).hints = s.hints := rfl
@[simp] theorem setHome_split (s : State) (h : Nat) (v : Home) : (setHome s h v).split = s.split := rfl
@[simp] theorem setHome_splitIn (s : State) (h : Nat) (v : Home) : (setHome s h v).splitIn = s.splitIn := rfl
@[simp] theorem setHome_splitReqs (s : State) (h : Nat) (v : Home) : (setHome s h v).splitReqs = s.splitReqs := rfl
@[simp] theorem setHome_splitLock (s : State) (h : Nat) (v : Home) : (setHome s h v).splitLock = s.splitLock := rfl
@[simp] theorem setHome_domainModules (s : State) (h : Nat) (v : Home) : (setHome s h v).domainModules = s.domainModules := rfl
@[simp] theorem setHome_localMod (s : State) (h : Nat) (v : Home) : (setHome s h v).localMod = s.localMod := rfl
@[simp] theorem setHome_waidric (s : State) (h : Nat) (v : Home) : (setHome s h v).waidric = s.waidric := rfl
@[simp] theorem setHome_waidricOut (s : State) (h : Nat) (v : Home) : (setHome s h v).waidricOut = s.waidricOut := rfl
@[simp] theorem setHome_failedModules (s : State) (h : Nat) (v : Home) : (setHome s h v).failedModules = s.failedModules := rfl
@[simp] theorem setHome_keyReqs (s : State) (h : Nat) (v : Home) : (setHome s h v).keyReqs = s.keyReqs := rfl
@[simp] theorem setHome_deliveries (s : State) (h : Nat) (v : Home) : (setHome s h v).deliveries = s.deliveries := rfl
@[simp] theorem setHome_acks (s : State) (h : Nat) (v : Home) : (setHome s h v).acks = s.acks := rfl
@[simp] theorem setHome_slices (s : State) (h : Nat) (v : Home) : (setHome s h v).slices = s.slices := rfl
@[simp] theorem setHome_cmbMsgs (s : State) (h : Nat) (v : Home) : (setHome s h v).cmbMsgs = s.cmbMsgs := rfl
@[simp] theorem setHome_queues (s : State) (h : Nat) (v : Home) : (setHome s h v).queues = s.queues := rfl
@[simp] theorem setHome_feMode (s : State) (h : Nat) (v : Home) : (setHome s h v).feMode = s.feMode := rfl
@[simp] theorem setHome_feSaved (s : State) (h : Nat) (v : Home) : (setHome s h v).feSaved = s.feSaved := rfl
@[simp] theorem setHome_hostWaits (s : State) (h : Nat) (v : Home) : (setHome s h v).hostWaits = s.hostWaits := rfl
@[simp] theorem setHome_classifier (s : State) (h : Nat) (v : Home) : (setHome s h v).classifier = s.classifier := rfl
@[simp] theorem setHome_ingress (s : State) (h : Nat) (v : Home) : (setHome s h v).ingress = s.ingress := rfl
@[simp] theorem setHome_portFrames (s : State) (h : Nat) (v : Home) : (setHome s h v).portFrames = s.portFrames := rfl
@[simp] theorem setHome_feUrgents (s : State) (h : Nat) (v : Home) : (setHome s h v).feUrgents = s.feUrgents := rfl
@[simp] theorem setHome_counters (s : State) (h : Nat) (v : Home) : (setHome s h v).counters = s.counters := rfl
@[simp] theorem setHome_errTables (s : State) (h : Nat) (v : Home) : (setHome s h v).errTables = s.errTables := rfl
@[simp] theorem setHome_notices (s : State) (h : Nat) (v : Home) : (setHome s h v).notices = s.notices := rfl
@[simp] theorem setHome_mismatches (s : State) (h : Nat) (v : Home) : (setHome s h v).mismatches = s.mismatches := rfl
@[simp] theorem setHome_deadPhys (s : State) (h : Nat) (v : Home) : (setHome s h v).deadPhys = s.deadPhys := rfl
@[simp] theorem setHome_firmware (s : State) (h : Nat) (v : Home) : (setHome s h v).firmware = s.firmware := rfl
@[simp] theorem setHome_minSvn (s : State) (h : Nat) (v : Home) : (setHome s h v).minSvn = s.minSvn := rfl
@[simp] theorem setHome_flash (s : State) (h : Nat) (v : Home) : (setHome s h v).flash = s.flash := rfl
@[simp] theorem setHome_replacements (s : State) (h : Nat) (v : Home) : (setHome s h v).replacements = s.replacements := rfl
@[simp] theorem setHome_reports (s : State) (h : Nat) (v : Home) : (setHome s h v).reports = s.reports := rfl
@[simp] theorem setHome_cuts (s : State) (h : Nat) (v : Home) : (setHome s h v).cuts = s.cuts := rfl
@[simp] theorem setHome_cutReports (s : State) (h : Nat) (v : Home) : (setHome s h v).cutReports = s.cutReports := rfl

/-! ### setSlice -/

@[simp] theorem setSlice_fresh (s : State) (i : Nat) (v : CmbSlice) : (setSlice s i v).fresh = s.fresh := rfl
@[simp] theorem setSlice_nextId (s : State) (i : Nat) (v : CmbSlice) : (setSlice s i v).nextId = s.nextId := rfl
@[simp] theorem setSlice_turn (s : State) (i : Nat) (v : CmbSlice) : (setSlice s i v).turn = s.turn := rfl
@[simp] theorem setSlice_agenda (s : State) (i : Nat) (v : CmbSlice) : (setSlice s i v).agenda = s.agenda := rfl
@[simp] theorem setSlice_focus (s : State) (i : Nat) (v : CmbSlice) : (setSlice s i v).focus = s.focus := rfl
@[simp] theorem setSlice_cores (s : State) (i : Nat) (v : CmbSlice) : (setSlice s i v).cores = s.cores := rfl
@[simp] theorem setSlice_hbm (s : State) (i : Nat) (v : CmbSlice) : (setSlice s i v).hbm = s.hbm := rfl
@[simp] theorem setSlice_remote (s : State) (i : Nat) (v : CmbSlice) : (setSlice s i v).remote = s.remote := rfl
@[simp] theorem setSlice_lines (s : State) (i : Nat) (v : CmbSlice) : (setSlice s i v).lines = s.lines := rfl
@[simp] theorem setSlice_badSectors (s : State) (i : Nat) (v : CmbSlice) : (setSlice s i v).badSectors = s.badSectors := rfl
@[simp] theorem setSlice_hot (s : State) (i : Nat) (v : CmbSlice) : (setSlice s i v).hot = s.hot := rfl
@[simp] theorem setSlice_replicas (s : State) (i : Nat) (v : CmbSlice) : (setSlice s i v).replicas = s.replicas := rfl
@[simp] theorem setSlice_redirects (s : State) (i : Nat) (v : CmbSlice) : (setSlice s i v).redirects = s.redirects := rfl
@[simp] theorem setSlice_stations (s : State) (i : Nat) (v : CmbSlice) : (setSlice s i v).stations = s.stations := rfl
@[simp] theorem setSlice_fq (s : State) (i : Nat) (v : CmbSlice) : (setSlice s i v).fq = s.fq := rfl
@[simp] theorem setSlice_accs (s : State) (i : Nat) (v : CmbSlice) : (setSlice s i v).accs = s.accs := rfl
@[simp] theorem setSlice_carried (s : State) (i : Nat) (v : CmbSlice) : (setSlice s i v).carried = s.carried := rfl
@[simp] theorem setSlice_escaped (s : State) (i : Nat) (v : CmbSlice) : (setSlice s i v).escaped = s.escaped := rfl
@[simp] theorem setSlice_escLoose (s : State) (i : Nat) (v : CmbSlice) : (setSlice s i v).escLoose = s.escLoose := rfl
@[simp] theorem setSlice_ops (s : State) (i : Nat) (v : CmbSlice) : (setSlice s i v).ops = s.ops := rfl
@[simp] theorem setSlice_merges (s : State) (i : Nat) (v : CmbSlice) : (setSlice s i v).merges = s.merges := rfl
@[simp] theorem setSlice_msgs (s : State) (i : Nat) (v : CmbSlice) : (setSlice s i v).msgs = s.msgs := rfl
@[simp] theorem setSlice_parts (s : State) (i : Nat) (v : CmbSlice) : (setSlice s i v).parts = s.parts := rfl
@[simp] theorem setSlice_groups (s : State) (i : Nat) (v : CmbSlice) : (setSlice s i v).groups = s.groups := rfl
@[simp] theorem setSlice_coreMap (s : State) (i : Nat) (v : CmbSlice) : (setSlice s i v).coreMap = s.coreMap := rfl
@[simp] theorem setSlice_mapChanges (s : State) (i : Nat) (v : CmbSlice) : (setSlice s i v).mapChanges = s.mapChanges := rfl
@[simp] theorem setSlice_launches (s : State) (i : Nat) (v : CmbSlice) : (setSlice s i v).launches = s.launches := rfl
@[simp] theorem setSlice_lastLtag (s : State) (i : Nat) (v : CmbSlice) : (setSlice s i v).lastLtag = s.lastLtag := rfl
@[simp] theorem setSlice_rootWaits (s : State) (i : Nat) (v : CmbSlice) : (setSlice s i v).rootWaits = s.rootWaits := rfl
@[simp] theorem setSlice_dualWaits (s : State) (i : Nat) (v : CmbSlice) : (setSlice s i v).dualWaits = s.dualWaits := rfl
@[simp] theorem setSlice_pairs (s : State) (i : Nat) (v : CmbSlice) : (setSlice s i v).pairs = s.pairs := rfl
@[simp] theorem setSlice_nextPair (s : State) (i : Nat) (v : CmbSlice) : (setSlice s i v).nextPair = s.nextPair := rfl
@[simp] theorem setSlice_dieReports (s : State) (i : Nat) (v : CmbSlice) : (setSlice s i v).dieReports = s.dieReports := rfl
@[simp] theorem setSlice_pools (s : State) (i : Nat) (v : CmbSlice) : (setSlice s i v).pools = s.pools := rfl
@[simp] theorem setSlice_comms (s : State) (i : Nat) (v : CmbSlice) : (setSlice s i v).comms = s.comms := rfl
@[simp] theorem setSlice_instances (s : State) (i : Nat) (v : CmbSlice) : (setSlice s i v).instances = s.instances := rfl
@[simp] theorem setSlice_colJoins (s : State) (i : Nat) (v : CmbSlice) : (setSlice s i v).colJoins = s.colJoins := rfl
@[simp] theorem setSlice_engines (s : State) (i : Nat) (v : CmbSlice) : (setSlice s i v).engines = s.engines := rfl
@[simp] theorem setSlice_homes (s : State) (i : Nat) (v : CmbSlice) : (setSlice s i v).homes = s.homes := rfl
@[simp] theorem setSlice_absentHomes (s : State) (i : Nat) (v : CmbSlice) : (setSlice s i v).absentHomes = s.absentHomes := rfl
@[simp] theorem setSlice_homeMap (s : State) (i : Nat) (v : CmbSlice) : (setSlice s i v).homeMap = s.homeMap := rfl
@[simp] theorem setSlice_mapCopies (s : State) (i : Nat) (v : CmbSlice) : (setSlice s i v).mapCopies = s.mapCopies := rfl
@[simp] theorem setSlice_hints (s : State) (i : Nat) (v : CmbSlice) : (setSlice s i v).hints = s.hints := rfl
@[simp] theorem setSlice_split (s : State) (i : Nat) (v : CmbSlice) : (setSlice s i v).split = s.split := rfl
@[simp] theorem setSlice_splitIn (s : State) (i : Nat) (v : CmbSlice) : (setSlice s i v).splitIn = s.splitIn := rfl
@[simp] theorem setSlice_splitReqs (s : State) (i : Nat) (v : CmbSlice) : (setSlice s i v).splitReqs = s.splitReqs := rfl
@[simp] theorem setSlice_splitLock (s : State) (i : Nat) (v : CmbSlice) : (setSlice s i v).splitLock = s.splitLock := rfl
@[simp] theorem setSlice_domainModules (s : State) (i : Nat) (v : CmbSlice) : (setSlice s i v).domainModules = s.domainModules := rfl
@[simp] theorem setSlice_localMod (s : State) (i : Nat) (v : CmbSlice) : (setSlice s i v).localMod = s.localMod := rfl
@[simp] theorem setSlice_waidric (s : State) (i : Nat) (v : CmbSlice) : (setSlice s i v).waidric = s.waidric := rfl
@[simp] theorem setSlice_waidricOut (s : State) (i : Nat) (v : CmbSlice) : (setSlice s i v).waidricOut = s.waidricOut := rfl
@[simp] theorem setSlice_failedModules (s : State) (i : Nat) (v : CmbSlice) : (setSlice s i v).failedModules = s.failedModules := rfl
@[simp] theorem setSlice_keyReqs (s : State) (i : Nat) (v : CmbSlice) : (setSlice s i v).keyReqs = s.keyReqs := rfl
@[simp] theorem setSlice_deliveries (s : State) (i : Nat) (v : CmbSlice) : (setSlice s i v).deliveries = s.deliveries := rfl
@[simp] theorem setSlice_acks (s : State) (i : Nat) (v : CmbSlice) : (setSlice s i v).acks = s.acks := rfl
@[simp] theorem setSlice_cmbMsgs (s : State) (i : Nat) (v : CmbSlice) : (setSlice s i v).cmbMsgs = s.cmbMsgs := rfl
@[simp] theorem setSlice_queues (s : State) (i : Nat) (v : CmbSlice) : (setSlice s i v).queues = s.queues := rfl
@[simp] theorem setSlice_feMode (s : State) (i : Nat) (v : CmbSlice) : (setSlice s i v).feMode = s.feMode := rfl
@[simp] theorem setSlice_feSaved (s : State) (i : Nat) (v : CmbSlice) : (setSlice s i v).feSaved = s.feSaved := rfl
@[simp] theorem setSlice_hostWaits (s : State) (i : Nat) (v : CmbSlice) : (setSlice s i v).hostWaits = s.hostWaits := rfl
@[simp] theorem setSlice_classifier (s : State) (i : Nat) (v : CmbSlice) : (setSlice s i v).classifier = s.classifier := rfl
@[simp] theorem setSlice_ingress (s : State) (i : Nat) (v : CmbSlice) : (setSlice s i v).ingress = s.ingress := rfl
@[simp] theorem setSlice_portFrames (s : State) (i : Nat) (v : CmbSlice) : (setSlice s i v).portFrames = s.portFrames := rfl
@[simp] theorem setSlice_feUrgents (s : State) (i : Nat) (v : CmbSlice) : (setSlice s i v).feUrgents = s.feUrgents := rfl
@[simp] theorem setSlice_counters (s : State) (i : Nat) (v : CmbSlice) : (setSlice s i v).counters = s.counters := rfl
@[simp] theorem setSlice_errTables (s : State) (i : Nat) (v : CmbSlice) : (setSlice s i v).errTables = s.errTables := rfl
@[simp] theorem setSlice_notices (s : State) (i : Nat) (v : CmbSlice) : (setSlice s i v).notices = s.notices := rfl
@[simp] theorem setSlice_mismatches (s : State) (i : Nat) (v : CmbSlice) : (setSlice s i v).mismatches = s.mismatches := rfl
@[simp] theorem setSlice_deadPhys (s : State) (i : Nat) (v : CmbSlice) : (setSlice s i v).deadPhys = s.deadPhys := rfl
@[simp] theorem setSlice_firmware (s : State) (i : Nat) (v : CmbSlice) : (setSlice s i v).firmware = s.firmware := rfl
@[simp] theorem setSlice_minSvn (s : State) (i : Nat) (v : CmbSlice) : (setSlice s i v).minSvn = s.minSvn := rfl
@[simp] theorem setSlice_flash (s : State) (i : Nat) (v : CmbSlice) : (setSlice s i v).flash = s.flash := rfl
@[simp] theorem setSlice_replacements (s : State) (i : Nat) (v : CmbSlice) : (setSlice s i v).replacements = s.replacements := rfl
@[simp] theorem setSlice_reports (s : State) (i : Nat) (v : CmbSlice) : (setSlice s i v).reports = s.reports := rfl
@[simp] theorem setSlice_cuts (s : State) (i : Nat) (v : CmbSlice) : (setSlice s i v).cuts = s.cuts := rfl
@[simp] theorem setSlice_cutReports (s : State) (i : Nat) (v : CmbSlice) : (setSlice s i v).cutReports = s.cutReports := rfl

end Sys2Proof.Machine
end

