-- ==== Sys2Proof/Laws/Ops.lean ====
section
/-! SUPPORT. What the shared operations can do: statuses, traps, counters and module memory. -/

namespace Sys2Proof.Machine

/-! ### Statuses (R157, R159, R246) -/

/-- A status for an activation that runs on its core changes that core's context and nothing else. -/
theorem updAct_live (s : State) (c n : Nat) (f : Ctx → Ctx) (h : runsSerial (getCtx s c) n = true) :
    updAct s c n f = modCtx s c f := by
  have hk : coreUpdAct (getCore s c) n f = some { getCore s c with ctx := f (getCore s c).ctx } := by
    unfold coreUpdAct
    rw [if_pos]
    exact h
  unfold updAct
  rw [hk]
  rfl

/-- A status reaches the register that waits for it. -/
theorem deliver_marked (n : Nat) (r : BitVec 5) (v : Word) (x : Ctx) (h : (getReg x r).mark = .op n) :
    deliver n r v x = latchEvt (settleMark x (.op n) r { val := v, poison := none, mark := .clear }) 2 := if_pos h

/-- A status that no register waits for changes nothing. -/
theorem deliver_unmarked (n : Nat) (r : BitVec 5) (v : Word) (x : Ctx) (h : (getReg x r).mark ≠ .op n) : deliver n r v x = x :=
  if_neg h

/-- What the end of an awaited operation does (R157, R159). -/
theorem endOp_awaited (s : State) (o : Op) (v : Word) (h : findOp s o.id = some o) (hr : runsSerial (getCtx s o.core) o.serial = true)
    (hm : (getReg (getCtx s o.core) o.reg).mark = .op o.id) :
    endOp s o.id v =
      dropOp (modCtx s o.core (fun x => latchEvt (settleMark x (.op o.id) o.reg { val := v, poison := none, mark := .clear }) 2)) o.id := by
  unfold endOp giveStatus
  rw [h]
  simp only [updAct_live _ _ _ _ hr, modCtx]
  rw [deliver_marked _ _ _ _ hm]

/-! ### Traps (R235, R538) -/

/-- A trap in supervisor mode stops the core, and a gang of the core disbands (R78, R235). -/
theorem takeTrap_sup (s : State) (c : Nat) (t : TrapInfo) (h : (getCtx s c).sys.sup = true) :
    takeTrap s c t =
      modCore (disbandGang s c 8) c (fun k => { k with state := .stopped, stop := .trap, ctx := { k.ctx with pfx := none, pc := t.faultpc } }) :=
  if_pos h

/-- A trap in task mode enters the routine; a gang of the core disbands (R78, R538). -/
theorem takeTrap_task (s : State) (c : Nat) (t : TrapInfo) (h : (getCtx s c).sys.sup = false) :
    takeTrap s c t = modCtx (disbandGang s c 8) c (fun x => trapCtx x t) := by
  unfold takeTrap
  rw [if_neg]
  simp [h]

/-! ### Counters (R536) -/

/-- A counter that is raised saturates at 32 bits. -/
theorem counterVal_count (s : State) (k : Counter) (n : Nat) :
    counterVal (count s k n) k = Nat.min (counterVal s k + n) (2 ^ 32 - 1) := by
  simp [counterVal, count]

/-- The other counters stay. -/
theorem counterVal_count_ne (s : State) (k j : Counter) (n : Nat) (h : j ≠ k) : counterVal (count s k n) j = counterVal s j := by
  have hk : (k == j) = false := beq_eq_false_iff_ne.mpr (fun e => h e.symm)
  have hf : List.find? (fun p => p.1 == j) (s.counters.filter (fun p => p.1 != k)) = List.find? (fun p => p.1 == j) s.counters := by
    rw [List.find?_filter]
    congr 1
    funext p
    by_cases hp : p.1 = j
    · simp [hp, h]
    · simp [hp]
  unfold counterVal count
  simp only [List.find?_cons, hk, hf]

/-! ### Module memory (R260) -/

theorem getLine_setLine_self (s : State) (l : Nat) (v : Line) : getLine (setLine s l v) l = v := tabGet_tabSet_self _ _ _ _

theorem getLine_setLine_ne (s : State) (l m : Nat) (v : Line) (h : m ≠ l) : getLine (setLine s l v) m = getLine s m :=
  tabGet_tabSet_ne _ _ _ _ _ h

/-- A fold of guarded writes leaves a byte of which no write has the address. -/
theorem memGet_foldl_put_ne (p : Nat → Bool) (f : Nat → Byte) (base qa : Nat) (is : List Nat) (m : Memory) (h : ∀ i ∈ is, base + i ≠ qa) :
    memGet (is.foldl (fun m i => if p i then memSet m (base + i) (f i) else m) m) qa = memGet m qa := by
  induction is generalizing m with
  | nil => rfl
  | cons i is ih =>
    rw [List.foldl_cons, ih _ (fun j hj => h j (List.mem_cons_of_mem _ hj))]
    by_cases hp : p i
    · rw [if_pos hp, memGet_memSet_ne _ _ _ _ (Ne.symm (h i List.mem_cons_self))]
    · rw [if_neg hp]

/-- A fold of guarded writes to different addresses makes each of them. -/
theorem memGet_foldl_put (p : Nat → Bool) (f : Nat → Byte) (base i : Nat) (is : List Nat) (m : Memory) (hn : is.Nodup) (hi : i ∈ is) :
    memGet (is.foldl (fun m i => if p i then memSet m (base + i) (f i) else m) m) (base + i) =
      if p i then f i else memGet m (base + i) := by
  induction is generalizing m with
  | nil => exact absurd hi List.not_mem_nil
  | cons j is ih =>
    rw [List.nodup_cons] at hn
    rw [List.foldl_cons]
    rcases List.mem_cons.mp hi with rfl | hm
    · have hne : ∀ k ∈ is, base + k ≠ base + i := fun k hk he => hn.1 (Nat.add_left_cancel he ▸ hk)
      rw [memGet_foldl_put_ne _ _ _ _ _ _ hne]
      by_cases hp : p i
      · simp [hp, memGet_memSet_self]
      · simp [hp]
    · rw [ih _ hn.2 hm]
      by_cases hp : p j
      · have hj : i ≠ j := fun e => hn.1 (e ▸ hm)
        rw [if_pos hp, memGet_memSet_ne _ _ _ _ (by omega)]
      · rw [if_neg hp]

/-- A table without the entry of a key. -/
theorem tabGet_filter {α : Type} (d : α) (t : Tab α) (k m : Nat) :
    tabGet d (t.filter (fun p => p.1 != k)) m = if m = k then d else tabGet d t m := by
  induction t with
  | nil => simp [tabGet]
  | cons p t ih =>
    obtain ⟨j, v⟩ := p
    by_cases hj : j = k
    · rw [List.filter_cons_of_neg (by simp [hj]), ih]
      by_cases hm : m = k
      · simp [hm]
      · have : ¬ j = m := fun e => hm (e ▸ hj)
        simp [hm, tabGet, this]
    · rw [List.filter_cons_of_pos (by simp [hj])]
      by_cases hm : j = m
      · have : ¬ m = k := fun e => hj (hm.trans e)
        simp [tabGet, hm, this]
      · simp [tabGet, hm, ih]

/-- An evicted line is held no longer. -/
theorem getLine_evictLine_self (s : State) (l : Nat) : getLine (evictLine s l) l = noLine :=
  (tabGet_filter noLine s.lines l l).trans (if_pos rfl)

/-- The other lines stay as they are. -/
theorem getLine_evictLine_ne (s : State) (l m : Nat) (h : m ≠ l) : getLine (evictLine s l) m = getLine s m :=
  (tabGet_filter noLine s.lines l m).trans (if_neg h)

/-- What eviction makes of HBM. -/
theorem evictLine_hbm (s : State) (l : Nat) :
    (evictLine s l).hbm = (List.range 256).foldl
      (fun m i => if (getLine s l).mask.getLsbD i then memSet m (l * 256 + i) (memGet (getLine s l).data (l * 256 + i)) else m) s.hbm := by
  simp only [evictLine]

/-- A byte depends on the lines and on HBM alone. -/
theorem physByte_congr (s t : State) (qa : Nat) (hl : t.lines = s.lines) (hh : t.hbm = s.hbm) : physByte t qa = physByte s qa := by
  unfold physByte getLine
  rw [hl, hh]

/-- Where a line is evicted every byte keeps its value. -/
theorem physByte_evictLine (s : State) (l qa : Nat) : physByte (evictLine s l) qa = physByte s qa := by
  unfold physByte
  rw [evictLine_hbm]
  by_cases h : lineOf qa = l
  · have hlt : qa % 256 < 256 := Nat.mod_lt _ (Nat.zero_lt_succ _)
    have hq : l * 256 + qa % 256 = qa := by rw [← h, lineOf]; omega
    have hput := memGet_foldl_put (fun i => (getLine s l).mask.getLsbD i) (fun i => memGet (getLine s l).data (l * 256 + i)) (l * 256)
      (qa % 256) (List.range 256) s.hbm List.nodup_range (List.mem_range.mpr hlt)
    rw [hq] at hput
    have hno : noLine.mask.getLsbD (qa % 256) = false := by simp [noLine]
    rw [h, getLine_evictLine_self, hno, if_neg Bool.false_ne_true, hput]
  · rw [getLine_evictLine_ne _ _ _ h]
    rw [memGet_foldl_put_ne (fun i => (getLine s l).mask.getLsbD i) (fun i => memGet (getLine s l).data (l * 256 + i)) (l * 256) qa
      (List.range 256) s.hbm]
    intro i hi e
    have := List.mem_range.mp hi
    apply h
    unfold lineOf
    omega

/-- Making room for a line changes no byte (R260). -/
theorem physByte_makeRoom (s : State) (l qa : Nat) : physByte (makeRoom s l) qa = physByte s qa := by
  unfold makeRoom
  split
  · rfl
  · dsimp only
    split
    · rename_i p _
      exact (physByte_congr (evictLine s p.1) _ qa (bumpFree_lines _) (bumpFree_hbm _)).trans (physByte_evictLine s _ qa)
    · exact physByte_congr s _ qa (by simp only) (by simp only)

/-- A byte written at its home slice reads back. -/
theorem physByte_physSetByte_self (s : State) (pa : Nat) (b : Byte) : physByte (physSetByte s pa b) pa = b := by
  unfold physByte physSetByte
  simp only [getLine_setLine_self]
  have hp : pa % 256 < 256 := Nat.mod_lt _ (by decide)
  rw [if_pos (by simp [hp]), memGet_memSet_self]

/-- A byte set in a line that is already held changes no other byte. -/
theorem physByte_setMasked_ne (t : State) (pa qa : Nat) (b : Byte) (h : qa ≠ pa) :
    physByte (setLine t (lineOf pa) { getLine t (lineOf pa) with
      mask := (getLine t (lineOf pa)).mask ||| (1#256 <<< (pa % 256)), data := memSet (getLine t (lineOf pa)).data pa b }) qa =
      physByte t qa := by
  unfold physByte
  by_cases hl : lineOf qa = lineOf pa
  · simp only [hl, getLine_setLine_self, memGet_memSet_ne _ _ _ _ h]
    have hd : qa % 256 ≠ pa % 256 := by
      unfold lineOf at hl
      omega
    have hm : ((getLine t (lineOf pa)).mask ||| (1#256 <<< (pa % 256))).getLsbD (qa % 256) = (getLine t (lineOf pa)).mask.getLsbD (qa % 256) := by
      have hq : qa % 256 < 256 := Nat.mod_lt _ (by decide)
      have hz : (1#256 <<< (pa % 256)).getLsbD (qa % 256) = false := by
        rw [BitVec.getLsbD_shiftLeft, BitVec.getLsbD_one]
        by_cases hlt : qa % 256 < pa % 256
        · simp [hlt]
        · have : qa % 256 - pa % 256 ≠ 0 := by omega
          simp [this]
      simp [BitVec.getLsbD_or, hz]
    rw [hm]
    rfl
  · simp only [getLine_setLine_ne _ _ _ _ hl]
    rfl

/-- A byte written at its home slice changes no other byte. -/
theorem physByte_physSetByte_ne (s : State) (pa qa : Nat) (b : Byte) (h : qa ≠ pa) :
    physByte (physSetByte s pa b) qa = physByte s qa :=
  (physByte_setMasked_ne _ pa qa b h).trans (physByte_makeRoom s _ qa)

/-! ### Scratchpads whose bytes are free values (R59, R542) -/

/-- A list of bytes from an address, without those that an unlisted address reads as, rises. -/
theorem memRising_free (f : Nat → Byte) (lo : Nat) (n i : Nat) :
    memRising (lo + i) (((List.range' i n).filterMap (fun j => if f j = 0 then none else some (lo + j, f j)))) = true := by
  induction n generalizing i with
  | zero => rfl
  | succ n ih =>
    rw [List.range'_succ, List.filterMap_cons]
    by_cases h : f i = 0
    · rw [if_pos h]
      exact memRising_weaken _ _ _ (by omega) (ih (i + 1))
    · rw [if_neg h]
      rw [memRising_cons]
      exact ⟨⟨le_refl _, h⟩, ih (i + 1)⟩

/-- What stands below an address, followed by what rises from it, rises. -/
theorem memRising_below_append (m r : Memory) (k lo : Nat) (hk : k ≤ lo) (hm : memRising k m = true) (hr : memRising lo r = true) :
    memRising k (m.filter (fun p => decide (p.1 < lo)) ++ r) = true := by
  induction m generalizing k with
  | nil => exact memRising_weaken _ _ _ hk hr
  | cons c m ih =>
    obtain ⟨a, v⟩ := c
    rw [memRising_cons] at hm
    by_cases h : a < lo
    · rw [List.filter_cons_of_pos (by simpa using h), List.cons_append, memRising_cons]
      exact ⟨hm.1, ih (a + 1) (by omega) hm.2⟩
    · rw [List.filter_cons_of_neg (by simpa using h)]
      exact ih k hk (memRising_weaken _ _ _ (by omega) hm.2)

/-- A scratchpad whose bytes from an address are free values keeps the canonical form (R59). -/
theorem memWf_scrambleFrom (k lo : Nat) (m : Memory) (hm : memWf m = true) : memWf (scrambleFrom k lo m) = true := by
  unfold scrambleFrom
  refine memRising_below_append m _ 0 lo (Nat.zero_le _) hm ?_
  rw [List.range_eq_range']
  exact memRising_free (fun i => freeByte (k + i)) lo _ 0

/-- A supervisor area of free values has the canonical form (R542). -/
theorem memWf_freeArea (k : Nat) : memWf (freeArea k) = true := by
  have h := memRising_free (fun i => freeByte (k + i)) 0 4096 0
  rw [← List.range_eq_range'] at h
  simpa [memWf, freeArea] using h

end Sys2Proof.Machine
end

