-- ==== Sys2Proof/Laws/PerInstr.lean ====
section
/-! SUPPORT. What holds of every instruction as syntax, instruction by instruction. -/

/-! ### The word of an instruction has 32 bits (R124) -/

namespace Sys2Proof.Laws.WordBound

/-- The word of an instruction that has one is below 2^32. -/
def Statement (i : Instr) : Prop := ∀ w, encode i = some w → w < 2 ^ 32

/-- An instruction without a word. -/
theorem unencoded {i : Instr} (h : encode i = none) : Statement i := fun w e => by rw [h] at e; cases e

/-- An instruction whose word has 32 bits. -/
theorem encoded {i : Instr} {n : Nat} (h : encode i = some n) (hn : n < 2 ^ 32) : Statement i := fun w e => by
  rw [h] at e; cases e; exact hn

theorem sysr (d : BitVec 5) (p : BitVec 12) : Statement (.sysr d p) := encoded rfl (by omega)
theorem sysw (a : BitVec 5) (p : BitVec 12) : Statement (.sysw a p) := encoded rfl (by omega)
theorem trap (p : BitVec 12) : Statement (.trap p) := encoded rfl (by omega)
theorem eret : Statement .eret := encoded rfl (by omega)
theorem wfe (m : BitVec 4) : Statement (.wfe m) := encoded rfl (by omega)
theorem iflush : Statement .iflush := encoded rfl (by omega)
theorem halt : Statement .halt := encoded rfl (by omega)
theorem snap (p : BitVec 12) : Statement (.snap p) := encoded rfl (by omega)
theorem leave (d : BitVec 5) (a : BitVec 5) : Statement (.leave d a) := encoded rfl (by omega)
theorem add (d : BitVec 5) (a : BitVec 5) (b : BitVec 5) : Statement (.add d a b) := encoded rfl (by omega)
theorem sub (d : BitVec 5) (a : BitVec 5) (b : BitVec 5) : Statement (.sub d a b) := encoded rfl (by omega)
theorem and (d : BitVec 5) (a : BitVec 5) (b : BitVec 5) : Statement (.and d a b) := encoded rfl (by omega)
theorem or (d : BitVec 5) (a : BitVec 5) (b : BitVec 5) : Statement (.or d a b) := encoded rfl (by omega)
theorem xor (d : BitVec 5) (a : BitVec 5) (b : BitVec 5) : Statement (.xor d a b) := encoded rfl (by omega)
theorem andn (d : BitVec 5) (a : BitVec 5) (b : BitVec 5) : Statement (.andn d a b) := encoded rfl (by omega)
theorem orn (d : BitVec 5) (a : BitVec 5) (b : BitVec 5) : Statement (.orn d a b) := encoded rfl (by omega)
theorem sll (d : BitVec 5) (a : BitVec 5) (b : BitVec 5) : Statement (.sll d a b) := encoded rfl (by omega)
theorem srl (d : BitVec 5) (a : BitVec 5) (b : BitVec 5) : Statement (.srl d a b) := encoded rfl (by omega)
theorem sra (d : BitVec 5) (a : BitVec 5) (b : BitVec 5) : Statement (.sra d a b) := encoded rfl (by omega)
theorem slt (d : BitVec 5) (a : BitVec 5) (b : BitVec 5) : Statement (.slt d a b) := encoded rfl (by omega)
theorem sltu (d : BitVec 5) (a : BitVec 5) (b : BitVec 5) : Statement (.sltu d a b) := encoded rfl (by omega)
theorem min (d : BitVec 5) (a : BitVec 5) (b : BitVec 5) : Statement (.min d a b) := encoded rfl (by omega)
theorem max (d : BitVec 5) (a : BitVec 5) (b : BitVec 5) : Statement (.max d a b) := encoded rfl (by omega)
theorem minu (d : BitVec 5) (a : BitVec 5) (b : BitVec 5) : Statement (.minu d a b) := encoded rfl (by omega)
theorem maxu (d : BitVec 5) (a : BitVec 5) (b : BitVec 5) : Statement (.maxu d a b) := encoded rfl (by omega)
theorem lea (d : BitVec 5) (a : BitVec 5) (b : BitVec 5) (s : BitVec 2) : Statement (.lea d a b s) := encoded rfl (by omega)
theorem addi (d : BitVec 5) (a : BitVec 5) (k : BitVec 12) : Statement (.addi d a k) := encoded rfl (by omega)
theorem andi (d : BitVec 5) (a : BitVec 5) (k : BitVec 12) : Statement (.andi d a k) := encoded rfl (by omega)
theorem ori (d : BitVec 5) (a : BitVec 5) (k : BitVec 12) : Statement (.ori d a k) := encoded rfl (by omega)
theorem xori (d : BitVec 5) (a : BitVec 5) (k : BitVec 12) : Statement (.xori d a k) := encoded rfl (by omega)
theorem slli (d : BitVec 5) (a : BitVec 5) (k : BitVec 6) : Statement (.slli d a k) := encoded rfl (by omega)
theorem srli (d : BitVec 5) (a : BitVec 5) (k : BitVec 6) : Statement (.srli d a k) := encoded rfl (by omega)
theorem srai (d : BitVec 5) (a : BitVec 5) (k : BitVec 6) : Statement (.srai d a k) := encoded rfl (by omega)
theorem slti (d : BitVec 5) (a : BitVec 5) (k : BitVec 12) : Statement (.slti d a k) := encoded rfl (by omega)
theorem sltiu (d : BitVec 5) (a : BitVec 5) (k : BitVec 12) : Statement (.sltiu d a k) := encoded rfl (by omega)
theorem lih (d : BitVec 5) (a : BitVec 5) (k : BitVec 12) : Statement (.lih d a k) := encoded rfl (by omega)
theorem mul (d : BitVec 5) (a : BitVec 5) (b : BitVec 5) : Statement (.mul d a b) := encoded rfl (by omega)
theorem mulh (d : BitVec 5) (a : BitVec 5) (b : BitVec 5) : Statement (.mulh d a b) := encoded rfl (by omega)
theorem mulhu (d : BitVec 5) (a : BitVec 5) (b : BitVec 5) : Statement (.mulhu d a b) := encoded rfl (by omega)
theorem div (d : BitVec 5) (a : BitVec 5) (b : BitVec 5) : Statement (.div d a b) := encoded rfl (by omega)
theorem divu (d : BitVec 5) (a : BitVec 5) (b : BitVec 5) : Statement (.divu d a b) := encoded rfl (by omega)
theorem rem (d : BitVec 5) (a : BitVec 5) (b : BitVec 5) : Statement (.rem d a b) := encoded rfl (by omega)
theorem remu (d : BitVec 5) (a : BitVec 5) (b : BitVec 5) : Statement (.remu d a b) := encoded rfl (by omega)
theorem clz (d : BitVec 5) (a : BitVec 5) : Statement (.clz d a) := encoded rfl (by omega)
theorem ctz (d : BitVec 5) (a : BitVec 5) : Statement (.ctz d a) := encoded rfl (by omega)
theorem popc (d : BitVec 5) (a : BitVec 5) : Statement (.popc d a) := encoded rfl (by omega)
theorem brev (d : BitVec 5) (a : BitVec 5) : Statement (.brev d a) := encoded rfl (by omega)
theorem bext (d : BitVec 5) (a : BitVec 5) (b : BitVec 5) : Statement (.bext d a b) := encoded rfl (by omega)
theorem bins (d : BitVec 5) (a : BitVec 5) (b : BitVec 5) : Statement (.bins d a b) := encoded rfl (by omega)
theorem qpush (a : BitVec 5) (n : BitVec 2) : Statement (.qpush a n) := encoded rfl (by omega)
theorem qpop (d : BitVec 5) (n : BitVec 2) : Statement (.qpop d n) := encoded rfl (by omega)
theorem qlen (d : BitVec 5) (n : BitVec 3) : Statement (.qlen d n) := encoded rfl (by omega)
theorem beq (a : BitVec 5) (b : BitVec 5) (o : BitVec 16) : Statement (.beq a b o) := encoded rfl (by omega)
theorem bne (a : BitVec 5) (b : BitVec 5) (o : BitVec 16) : Statement (.bne a b o) := encoded rfl (by omega)
theorem blt (a : BitVec 5) (b : BitVec 5) (o : BitVec 16) : Statement (.blt a b o) := encoded rfl (by omega)
theorem bge (a : BitVec 5) (b : BitVec 5) (o : BitVec 16) : Statement (.bge a b o) := encoded rfl (by omega)
theorem bltu (a : BitVec 5) (b : BitVec 5) (o : BitVec 16) : Statement (.bltu a b o) := encoded rfl (by omega)
theorem bgeu (a : BitVec 5) (b : BitVec 5) (o : BitVec 16) : Statement (.bgeu a b o) := encoded rfl (by omega)
theorem jal (o : BitVec 26) : Statement (.jal o) := encoded rfl (by omega)
theorem jalr (d : BitVec 5) (a : BitVec 5) (o : BitVec 14) : Statement (.jalr d a o) := encoded rfl (by omega)
theorem loopnz (a : BitVec 5) (o : BitVec 14) : Statement (.loopnz a o) := encoded rfl (by omega)
theorem ld (d : BitVec 5) (a : BitVec 5) (m : BitVec 3) (o : BitVec 8) : Statement (.ld d a m o) := encoded rfl (by omega)
theorem st (a : BitVec 5) (b : BitVec 5) (m : BitVec 3) (o : BitVec 8) : Statement (.st a b m o) := encoded rfl (by omega)
theorem amoadd (d : BitVec 5) (a : BitVec 5) (b : BitVec 5) (s : BitVec 3) (z : BitVec 1) (o : BitVec 2) : Statement (.amoadd d a b s z o) := encoded rfl (by omega)
theorem amomin (d : BitVec 5) (a : BitVec 5) (b : BitVec 5) (s : BitVec 3) (z : BitVec 1) (o : BitVec 2) : Statement (.amomin d a b s z o) := encoded rfl (by omega)
theorem amomax (d : BitVec 5) (a : BitVec 5) (b : BitVec 5) (s : BitVec 3) (z : BitVec 1) (o : BitVec 2) : Statement (.amomax d a b s z o) := encoded rfl (by omega)
theorem amoand (d : BitVec 5) (a : BitVec 5) (b : BitVec 5) (s : BitVec 3) (z : BitVec 1) (o : BitVec 2) : Statement (.amoand d a b s z o) := encoded rfl (by omega)
theorem amoor (d : BitVec 5) (a : BitVec 5) (b : BitVec 5) (s : BitVec 3) (z : BitVec 1) (o : BitVec 2) : Statement (.amoor d a b s z o) := encoded rfl (by omega)
theorem amoxor (d : BitVec 5) (a : BitVec 5) (b : BitVec 5) (s : BitVec 3) (z : BitVec 1) (o : BitVec 2) : Statement (.amoxor d a b s z o) := encoded rfl (by omega)
theorem amoswap (d : BitVec 5) (a : BitVec 5) (b : BitVec 5) (s : BitVec 3) (z : BitVec 1) (o : BitVec 2) : Statement (.amoswap d a b s z o) := encoded rfl (by omega)
theorem cas (d : BitVec 5) (a : BitVec 5) (b : BitVec 5) (s : BitVec 3) (z : BitVec 1) (o : BitVec 2) : Statement (.cas d a b s z o) := encoded rfl (by omega)
theorem fence (d : BitVec 5) (s : BitVec 3) (o : BitVec 2) : Statement (.fence d s o) := encoded rfl (by omega)
theorem drain (m : BitVec 3) : Statement (.drain m) := encoded rfl (by omega)
theorem spawn (d : BitVec 5) (a : BitVec 5) (b : BitVec 3) (p : BitVec 2) (c : BitVec 2) (u : BitVec 1) : Statement (.spawn d a b p c u) := encoded rfl (by omega)
theorem callat (d : BitVec 5) (a : BitVec 5) (b : BitVec 3) (p : BitVec 2) (c : BitVec 2) : Statement (.callat d a b p c) := encoded rfl (by omega)
theorem retv (d : BitVec 5) (a : BitVec 5) (b : BitVec 5) : Statement (.retv d a b) := encoded rfl (by omega)
theorem endAct : Statement .endAct := encoded rfl (by omega)
theorem msend (d : BitVec 5) (a : BitVec 5) (b : BitVec 3) : Statement (.msend d a b) := encoded rfl (by omega)
theorem mpoll (d : BitVec 5) (b : BitVec 3) : Statement (.mpoll d b) := encoded rfl (by omega)
theorem gang (d : BitVec 5) (s : BitVec 2) : Statement (.gang d s) := encoded rfl (by omega)
theorem ungang : Statement .ungang := encoded rfl (by omega)
theorem gsync (d : BitVec 5) : Statement (.gsync d) := encoded rfl (by omega)
theorem barmArm (d : BitVec 5) (a : BitVec 5) (b : BitVec 5) : Statement (.barmArm d a b) := encoded rfl (by omega)
theorem barmOpenRound (d : BitVec 5) (a : BitVec 5) (b : BitVec 5) : Statement (.barmOpenRound d a b) := encoded rfl (by omega)
theorem barmWithdrawRound (d : BitVec 5) (a : BitVec 5) (b : BitVec 5) : Statement (.barmWithdrawRound d a b) := encoded rfl (by omega)
theorem bara (d : BitVec 5) (a : BitVec 5) (b : BitVec 5) : Statement (.bara d a b) := encoded rfl (by omega)
theorem barw (d : BitVec 5) (a : BitVec 5) : Statement (.barw d a) := encoded rfl (by omega)
theorem cntrd (d : BitVec 5) (a : BitVec 5) (b : BitVec 5) : Statement (.cntrd d a b) := encoded rfl (by omega)
theorem cntadd (d : BitVec 5) (a : BitVec 5) (b : BitVec 5) : Statement (.cntadd d a b) := encoded rfl (by omega)
theorem rndclose (d : BitVec 5) (a : BitVec 5) (b : BitVec 5) : Statement (.rndclose d a b) := encoded rfl (by omega)
theorem tbind (d : BitVec 4) (g : BitVec 5) (q : BitVec 1) (f : BitVec 4) : Statement (.tbind d g q f) := encoded rfl (by omega)
theorem tshape (d : BitVec 4) (g : BitVec 5) (q : BitVec 1) : Statement (.tshape d g q) := encoded rfl (by omega)
theorem tvalid (d : BitVec 4) (g : BitVec 5) (q : BitVec 1) : Statement (.tvalid d g q) := encoded rfl (by omega)
theorem tfill (d : BitVec 4) (f : BitVec 2) : Statement (.tfill d f) := encoded rfl (by omega)
theorem tget (a : BitVec 4) (n : BitVec 2) (f : BitVec 3) : Statement (.tget a n f) := encoded rfl (by omega)
theorem tcopy (d : BitVec 4) (a : BitVec 4) (n : BitVec 2) : Statement (.tcopy d a n) := encoded rfl (by omega)
theorem ttrans (d : BitVec 4) (a : BitVec 4) : Statement (.ttrans d a) := encoded rfl (by omega)
theorem tldg (d : BitVec 4) (g : BitVec 5) (q : BitVec 1) : Statement (.tldg d g q) := encoded rfl (by omega)
theorem tstg (d : BitVec 4) (g : BitVec 5) (q : BitVec 1) : Statement (.tstg d g q) := encoded rfl (by omega)
theorem tbcast (d : BitVec 4) (a : BitVec 4) (s : BitVec 3) : Statement (.tbcast d a s) := encoded rfl (by omega)
theorem tset (d : BitVec 4) (g : BitVec 5) (q : BitVec 1) (v : BitVec 1) : Statement (.tset d g q v) := encoded rfl (by omega)
theorem trowg (d : BitVec 4) (a : BitVec 4) (b : BitVec 4) : Statement (.trowg d a b) := encoded rfl (by omega)
theorem tshift (d : BitVec 4) (a : BitVec 4) (g : BitVec 5) (q : BitVec 1) (c : BitVec 1) : Statement (.tshift d a g q c) := encoded rfl (by omega)
theorem tpack (d : BitVec 4) (a : BitVec 4) (b : BitVec 4) (s : BitVec 3) : Statement (.tpack d a b s) := encoded rfl (by omega)
theorem tadd (d : BitVec 4) (a : BitVec 4) (b : BitVec 4) (n : BitVec 2) : Statement (.tadd d a b n) := encoded rfl (by omega)
theorem tsub (d : BitVec 4) (a : BitVec 4) (b : BitVec 4) (n : BitVec 2) : Statement (.tsub d a b n) := encoded rfl (by omega)
theorem tmul (d : BitVec 4) (a : BitVec 4) (b : BitVec 4) (n : BitVec 2) : Statement (.tmul d a b n) := encoded rfl (by omega)
theorem tmin (d : BitVec 4) (a : BitVec 4) (b : BitVec 4) (n : BitVec 2) : Statement (.tmin d a b n) := encoded rfl (by omega)
theorem tmax (d : BitVec 4) (a : BitVec 4) (b : BitVec 4) (n : BitVec 2) : Statement (.tmax d a b n) := encoded rfl (by omega)
theorem tand (d : BitVec 4) (a : BitVec 4) (b : BitVec 4) (n : BitVec 2) : Statement (.tand d a b n) := encoded rfl (by omega)
theorem tor (d : BitVec 4) (a : BitVec 4) (b : BitVec 4) (n : BitVec 2) : Statement (.tor d a b n) := encoded rfl (by omega)
theorem txor (d : BitVec 4) (a : BitVec 4) (b : BitVec 4) (n : BitVec 2) : Statement (.txor d a b n) := encoded rfl (by omega)
theorem tshl (d : BitVec 4) (a : BitVec 4) (b : BitVec 4) (n : BitVec 2) : Statement (.tshl d a b n) := encoded rfl (by omega)
theorem tshr (d : BitVec 4) (a : BitVec 4) (b : BitVec 4) (n : BitVec 2) : Statement (.tshr d a b n) := encoded rfl (by omega)
theorem tcmp (d : BitVec 4) (a : BitVec 4) (b : BitVec 4) (n : BitVec 2) (c : BitVec 3) : Statement (.tcmp d a b n c) := encoded rfl (by omega)
theorem tneg (d : BitVec 4) (a : BitVec 4) : Statement (.tneg d a) := encoded rfl (by omega)
theorem tabs (d : BitVec 4) (a : BitVec 4) : Statement (.tabs d a) := encoded rfl (by omega)
theorem texp2 (d : BitVec 4) (a : BitVec 4) : Statement (.texp2 d a) := encoded rfl (by omega)
theorem tlog2 (d : BitVec 4) (a : BitVec 4) : Statement (.tlog2 d a) := encoded rfl (by omega)
theorem trcp (d : BitVec 4) (a : BitVec 4) : Statement (.trcp d a) := encoded rfl (by omega)
theorem trsqrt (d : BitVec 4) (a : BitVec 4) : Statement (.trsqrt d a) := encoded rfl (by omega)
theorem tsqrt (d : BitVec 4) (a : BitVec 4) : Statement (.tsqrt d a) := encoded rfl (by omega)
theorem ttanh (d : BitVec 4) (a : BitVec 4) : Statement (.ttanh d a) := encoded rfl (by omega)
theorem tcvt (d : BitVec 4) (a : BitVec 4) : Statement (.tcvt d a) := encoded rfl (by omega)
theorem tround (d : BitVec 4) (a : BitVec 4) : Statement (.tround d a) := encoded rfl (by omega)
theorem trsum (d : BitVec 4) (a : BitVec 4) : Statement (.trsum d a) := encoded rfl (by omega)
theorem tcsum (d : BitVec 4) (a : BitVec 4) : Statement (.tcsum d a) := encoded rfl (by omega)
theorem trmax (d : BitVec 4) (a : BitVec 4) : Statement (.trmax d a) := encoded rfl (by omega)
theorem tcmax (d : BitVec 4) (a : BitVec 4) : Statement (.tcmax d a) := encoded rfl (by omega)
theorem tscan (d : BitVec 4) (a : BitVec 4) (s : BitVec 1) : Statement (.tscan d a s) := encoded rfl (by omega)
theorem ttopk (d : BitVec 4) (a : BitVec 4) (b : BitVec 4) (k : BitVec 3) : Statement (.ttopk d a b k) := encoded rfl (by omega)
theorem thist (d : BitVec 4) (a : BitVec 4) : Statement (.thist d a) := encoded rfl (by omega)
theorem targmax (d : BitVec 4) (a : BitVec 4) : Statement (.targmax d a) := encoded rfl (by omega)
theorem tfma (d : BitVec 4) (a : BitVec 4) (b : BitVec 4) (c : BitVec 4) (n : BitVec 2) : Statement (.tfma d a b c n) := encoded rfl (by omega)
theorem tsel (d : BitVec 4) (a : BitVec 4) (b : BitVec 4) (c : BitVec 4) (n : BitVec 2) : Statement (.tsel d a b c n) := encoded rfl (by omega)
theorem tscale (d : BitVec 4) (a : BitVec 4) (g : BitVec 5) (q : BitVec 1) : Statement (.tscale d a g q) := encoded rfl (by omega)
theorem tloop (g : BitVec 5) (q : BitVec 1) (n : BitVec 4) : Statement (.tloop g q n) := encoded rfl (by omega)
theorem twait : Statement .twait := encoded rfl (by omega)
theorem mloadb (a : BitVec 4) (g : BitVec 5) (q : BitVec 1) (s : BitVec 1) (f : BitVec 4) (l : BitVec 2) : Statement (.mloadb a g q s f l) := encoded rfl (by omega)
theorem mfree (a : BitVec 1) (s : BitVec 2) : Statement (.mfree a s) := encoded rfl (by omega)
theorem mma (a : BitVec 4) (g : BitVec 5) (q : BitVec 1) (s : BitVec 1) (l : BitVec 2) : Statement (.mma a g q s l) := encoded rfl (by omega)
theorem mmag (d : BitVec 4) (a : BitVec 4) (g : BitVec 5) (q : BitVec 1) (n : BitVec 3) (s : BitVec 1) (l : BitVec 2) : Statement (.mmag d a g q n s l) := encoded rfl (by omega)
theorem mmal (a : BitVec 4) (g : BitVec 5) (q : BitVec 1) (s : BitVec 1) (l : BitVec 2) : Statement (.mmal a g q s l) := encoded rfl (by omega)
theorem azero (d : BitVec 4) (g : BitVec 5) (q : BitVec 1) : Statement (.azero d g q) := encoded rfl (by omega)
theorem ascale (d : BitVec 4) (a : BitVec 4) (g : BitVec 5) (q : BitVec 1) (c : BitVec 1) (r : BitVec 1) : Statement (.ascale d a g q c r) := encoded rfl (by omega)
theorem adrain (d : BitVec 4) (a : BitVec 4) (g : BitVec 5) (q : BitVec 1) (c : BitVec 1) (r : BitVec 1) : Statement (.adrain d a g q c r) := encoded rfl (by omega)
theorem amovin (a : BitVec 4) (g : BitVec 5) (q : BitVec 1) : Statement (.amovin a g q) := encoded rfl (by omega)
theorem amovout (d : BitVec 4) (g : BitVec 5) (q : BitVec 1) : Statement (.amovout d g q) := encoded rfl (by omega)
theorem xcopy (d : BitVec 5) : Statement (.xcopy d) := encoded rfl (by omega)
theorem xgath (d : BitVec 5) (t : BitVec 4) : Statement (.xgath d t) := encoded rfl (by omega)
theorem xscat (d : BitVec 5) (t : BitVec 4) : Statement (.xscat d t) := encoded rfl (by omega)
theorem xcancel (s : BitVec 5) : Statement (.xcancel s) := encoded rfl (by omega)
theorem xmcast (d : BitVec 5) (a : BitVec 5) (b : BitVec 5) (t : BitVec 4) : Statement (.xmcast d a b t) := encoded rfl (by omega)
theorem xmread (d : BitVec 5) (a : BitVec 5) (b : BitVec 5) (t : BitVec 4) : Statement (.xmread d a b t) := encoded rfl (by omega)
theorem xfree (a : BitVec 5) : Statement (.xfree a) := encoded rfl (by omega)
theorem kputTile (d : BitVec 5) (a : BitVec 3) (t : BitVec 4) : Statement (.kputTile d a t) := encoded rfl (by omega)
theorem kputImage (d : BitVec 5) (a : BitVec 3) (b : BitVec 5) : Statement (.kputImage d a b) := encoded rfl (by omega)
theorem kreadTile (d : BitVec 5) (a : BitVec 2) (t : BitVec 4) (m : BitVec 1) : Statement (.kreadTile d a t m) := encoded rfl (by omega)
theorem kreadImage (d : BitVec 5) (a : BitVec 2) (b : BitVec 5) (m : BitVec 1) : Statement (.kreadImage d a b m) := encoded rfl (by omega)
theorem kreadCont (d : BitVec 5) (a : BitVec 2) (b : BitVec 5) (t : BitVec 4) : Statement (.kreadCont d a b t) := encoded rfl (by omega)
theorem ktakeTile (d : BitVec 5) (a : BitVec 2) (t : BitVec 4) (m : BitVec 1) : Statement (.ktakeTile d a t m) := encoded rfl (by omega)
theorem ktakeImage (d : BitVec 5) (a : BitVec 2) (b : BitVec 5) (m : BitVec 1) : Statement (.ktakeImage d a b m) := encoded rfl (by omega)
theorem ktakeCont (d : BitVec 5) (a : BitVec 2) (b : BitVec 5) (t : BitVec 4) : Statement (.ktakeCont d a b t) := encoded rfl (by omega)
theorem kcancel (d : BitVec 5) (a : BitVec 2) : Statement (.kcancel d a) := encoded rfl (by omega)
theorem ksplit (d : BitVec 5) (a : BitVec 5) (b : BitVec 5) : Statement (.ksplit d a b) := encoded rfl (by omega)
theorem kmap (d : BitVec 5) (a : BitVec 3) : Statement (.kmap d a) := encoded rfl (by omega)
theorem kstat (d : BitVec 5) (a : BitVec 5) (b : BitVec 5) : Statement (.kstat d a b) := encoded rfl (by omega)
theorem cmbopen (d : BitVec 5) (a : BitVec 5) (b : BitVec 5) (t : BitVec 4) (k : BitVec 1) : Statement (.cmbopen d a b t k) := encoded rfl (by omega)
theorem cmbput (d : BitVec 5) (a : BitVec 5) (b : BitVec 5) (t : BitVec 4) : Statement (.cmbput d a b t) := encoded rfl (by omega)
theorem cmbclose (d : BitVec 5) (a : BitVec 5) (b : BitVec 5) : Statement (.cmbclose d a b) := encoded rfl (by omega)
theorem cmbstat (d : BitVec 5) (a : BitVec 5) : Statement (.cmbstat d a) := encoded rfl (by omega)
theorem msired (d : BitVec 5) (a : BitVec 5) (b : BitVec 5) (t : BitVec 4) : Statement (.msired d a b t) := encoded rfl (by omega)
theorem msiscat (d : BitVec 5) (a : BitVec 5) (b : BitVec 5) (t : BitVec 4) : Statement (.msiscat d a b t) := encoded rfl (by omega)
theorem mstopk (d : BitVec 5) (a : BitVec 5) (b : BitVec 5) (k : BitVec 3) : Statement (.mstopk d a b k) := encoded rfl (by omega)
theorem colrs (d : BitVec 5) (a : BitVec 5) (b : BitVec 5) (m : BitVec 1) : Statement (.colrs d a b m) := encoded rfl (by omega)
theorem colar (d : BitVec 5) (a : BitVec 5) (b : BitVec 5) (m : BitVec 1) : Statement (.colar d a b m) := encoded rfl (by omega)
theorem colag (d : BitVec 5) (a : BitVec 5) (b : BitVec 5) : Statement (.colag d a b) := encoded rfl (by omega)
theorem colbc (d : BitVec 5) (a : BitVec 5) (b : BitVec 5) : Statement (.colbc d a b) := encoded rfl (by omega)
theorem colbar (d : BitVec 5) (a : BitVec 5) : Statement (.colbar d a) := encoded rfl (by omega)
theorem hlikely (n : BitVec 8) (t : BitVec 1) : Statement (.hlikely n t) := encoded rfl (by omega)
theorem hpref (l : BitVec 4) (w : BitVec 20) : Statement (.hpref l w) := encoded rfl (by omega)
theorem ximm (u : BitVec 24) : Statement (.ximm u) := encoded rfl (by omega)
theorem xmod (r : BitVec 3) (s : BitVec 2) (d : BitVec 1) (o : BitVec 2) : Statement (.xmod r s d o) := encoded rfl (by omega)
theorem activationChoose (c : Nat) : Statement (.activationChoose c) := unencoded rfl
theorem urgentEventArrive (n : Nat) : Statement (.urgentEventArrive n) := unencoded rfl
theorem urgentPreempt (c : Nat) : Statement (.urgentPreempt c) := unencoded rfl
theorem stealProbe (c : Nat) : Statement (.stealProbe c) := unencoded rfl
theorem stealBackoffExpire (c : Nat) : Statement (.stealBackoffExpire c) := unencoded rfl
theorem stealRequestServe (n : Nat) : Statement (.stealRequestServe n) := unencoded rfl
theorem stealReplyArrive (n : Nat) : Statement (.stealReplyArrive n) := unencoded rfl
theorem stealAckArrive (n : Nat) : Statement (.stealAckArrive n) := unencoded rfl
theorem stealReplyReturn (n : Nat) : Statement (.stealReplyReturn n) := unencoded rfl
theorem callatArrive (n : Nat) : Statement (.callatArrive n) := unencoded rfl
theorem messageArrive (n : Nat) : Statement (.messageArrive n) := unencoded rfl
theorem dieResourceReport (die : Nat) : Statement (.dieResourceReport die) := unencoded rfl
theorem rootPlace (ltag : Nat) : Statement (.rootPlace ltag) := unencoded rfl
theorem rootRecordArrive (n : Nat) : Statement (.rootRecordArrive n) := unencoded rfl
theorem dualPairPlace (k : Nat) : Statement (.dualPairPlace k) := unencoded rfl
theorem continuationDeliver (n : Nat) : Statement (.continuationDeliver n) := unencoded rfl
theorem roundCloseArrive (n : Nat) : Statement (.roundCloseArrive n) := unencoded rfl
theorem waveStart (ltag : Nat) : Statement (.waveStart ltag) := unencoded rfl
theorem waveAnswer (c : Nat) : Statement (.waveAnswer c) := unencoded rfl
theorem branchResolve (c gen : Nat) : Statement (.branchResolve c gen) := unencoded rfl
theorem loadResponse (n : Nat) : Statement (.loadResponse n) := unencoded rfl
theorem fenceComplete (c : Nat) : Statement (.fenceComplete c) := unencoded rfl
theorem drainComplete (c : Nat) : Statement (.drainComplete c) := unencoded rfl
theorem wfeWake (c : Nat) : Statement (.wfeWake c) := unencoded rfl
theorem tileUnitBegin (c : Nat) : Statement (.tileUnitBegin c) := unencoded rfl
theorem tileRowComplete (c : Nat) : Statement (.tileRowComplete c) := unencoded rfl
theorem tileBandComplete (c : Nat) (mismatch : Bool) : Statement (.tileBandComplete c mismatch) := unencoded rfl
theorem trapEntry (c : Nat) : Statement (.trapEntry c) := unencoded rfl
theorem leaveGrant (die part : Nat) : Statement (.leaveGrant die part) := unencoded rfl
theorem barwComplete (op : Nat) : Statement (.barwComplete op) := unencoded rfl
theorem cntrdReading (op : Nat) : Statement (.cntrdReading op) := unencoded rfl
theorem stationTranslate (n : Nat) : Statement (.stationTranslate n) := unencoded rfl
theorem faultResolve (port n : Nat) : Statement (.faultResolve port n) := unencoded rfl
theorem faultDecline (port n : Nat) : Statement (.faultDecline port n) := unencoded rfl
theorem faultResolveTimeout (port n : Nat) : Statement (.faultResolveTimeout port n) := unencoded rfl
theorem faultQueueRetry (n : Nat) : Statement (.faultQueueRetry n) := unencoded rfl
theorem storePerform (n : Nat) : Statement (.storePerform n) := unencoded rfl
theorem replicaInvalidateAck (line holder : Nat) : Statement (.replicaInvalidateAck line holder) := unencoded rfl
theorem atomicPerform (n : Nat) : Statement (.atomicPerform n) := unencoded rfl
theorem peerAccessArrive (n : Nat) : Statement (.peerAccessArrive n) := unencoded rfl
theorem sliceRead (n : Nat) : Statement (.sliceRead n) := unencoded rfl
theorem sectorFill (line sector : Nat) : Statement (.sectorFill line sector) := unencoded rfl
theorem hotWindowEnd (slice : Nat) : Statement (.hotWindowEnd slice) := unencoded rfl
theorem helperRead (n : Nat) : Statement (.helperRead n) := unencoded rfl
theorem copyRowComplete (op row : Nat) : Statement (.copyRowComplete op row) := unencoded rfl
theorem multicastDelivery (op rank : Nat) : Statement (.multicastDelivery op rank) := unencoded rfl
theorem xmreadRequestArrive (op line : Nat) : Statement (.xmreadRequestArrive op line) := unencoded rfl
theorem xmreadSectorSend (entry : Nat) : Statement (.xmreadSectorSend entry) := unencoded rfl
theorem multicastEnd (op : Nat) : Statement (.multicastEnd op) := unencoded rfl
theorem xfreeNoticeArrive (n : Nat) : Statement (.xfreeNoticeArrive n) := unencoded rfl
theorem msPacketExecute (op : Nat) : Statement (.msPacketExecute op) := unencoded rfl
theorem msComplete (op : Nat) : Statement (.msComplete op) := unencoded rfl
theorem vcDeadlockTimeout (p : StuckPacket) : Statement (.vcDeadlockTimeout p) := unencoded rfl
theorem flowAck (flow : Nat) : Statement (.flowAck flow) := unencoded rfl
theorem collectiveInstanceStart (comm inst : Nat) : Statement (.collectiveInstanceStart comm inst) := unencoded rfl
theorem chunkStart (die comm : Nat) : Statement (.chunkStart die comm) := unencoded rfl
theorem chunkReservationTimeout (die comm : Nat) : Statement (.chunkReservationTimeout die comm) := unencoded rfl
theorem chunkEnd (die : Nat) : Statement (.chunkEnd die) := unencoded rfl
theorem collectiveInstanceEnd (comm inst : Nat) : Statement (.collectiveInstanceEnd comm inst) := unencoded rfl
theorem communicatorWrite (comm : Nat) (e : CommEntry) : Statement (.communicatorWrite comm e) := unencoded rfl
theorem homeKputArrive (n : Nat) : Statement (.homeKputArrive n) := unencoded rfl
theorem homeKreadArrive (n : Nat) : Statement (.homeKreadArrive n) := unencoded rfl
theorem homeKtakeArrive (n : Nat) : Statement (.homeKtakeArrive n) := unencoded rfl
theorem homeKcancelArrive (n : Nat) : Statement (.homeKcancelArrive n) := unencoded rfl
theorem homeRedepositArrive (n : Nat) : Statement (.homeRedepositArrive n) := unencoded rfl
theorem keyDeliveryArrive (n : Nat) : Statement (.keyDeliveryArrive n) := unencoded rfl
theorem keyDeliveryAck (n : Nat) : Statement (.keyDeliveryAck n) := unencoded rfl
theorem assayFirstArrival (n : Nat) : Statement (.assayFirstArrival n) := unencoded rfl
theorem assayTwinArrival (n : Nat) : Statement (.assayTwinArrival n) := unencoded rfl
theorem assayRetry (n : Nat) : Statement (.assayRetry n) := unencoded rfl
theorem assayTimeout (n : Nat) : Statement (.assayTimeout n) := unencoded rfl
theorem forwardHintArrive (n : Nat) : Statement (.forwardHintArrive n) := unencoded rfl
theorem heldForwardRelease (n : Nat) : Statement (.heldForwardRelease n) := unencoded rfl
theorem mapBroadcastArrive (ni : Nat) : Statement (.mapBroadcastArrive ni) := unencoded rfl
theorem splitCopy : Statement .splitCopy := unencoded rfl
theorem splitCutover : Statement .splitCutover := unencoded rfl
theorem splitAbort (lost : Bool) : Statement (.splitAbort lost) := unencoded rfl
theorem waidricMessageReceive (bytes : List Byte) : Statement (.waidricMessageReceive bytes) := unencoded rfl
theorem waidricConnectionFail (modnum reqid : Nat) : Statement (.waidricConnectionFail modnum reqid) := unencoded rfl
theorem moduleFailed (modnum : Nat) : Statement (.moduleFailed modnum) := unencoded rfl
theorem heapResizeRequest (home base size : Nat) : Statement (.heapResizeRequest home base size) := unencoded rfl
theorem sliceCmbopenArrive (n : Nat) : Statement (.sliceCmbopenArrive n) := unencoded rfl
theorem sliceCmbputArrive (n : Nat) : Statement (.sliceCmbputArrive n) := unencoded rfl
theorem sliceCmbcloseArrive (n : Nat) : Statement (.sliceCmbcloseArrive n) := unencoded rfl
theorem combineTimeout (slice slot : Nat) : Statement (.combineTimeout slice slot) := unencoded rfl
theorem combineRelease (slice slot : Nat) : Statement (.combineRelease slice slot) := unencoded rfl
theorem lingerExpire (slice slot : Nat) : Statement (.lingerExpire slice slot) := unencoded rfl
theorem openWaitServe (slice : Nat) : Statement (.openWaitServe slice) := unencoded rfl
theorem doorbell (q : QueueBell) (value : Word) : Statement (.doorbell q value) := unencoded rfl
theorem packetFetch (q : Nat) : Statement (.packetFetch q) := unencoded rfl
theorem launchPacket (q n : Nat) : Statement (.launchPacket q n) := unencoded rfl
theorem copyPacket (q n : Nat) : Statement (.copyPacket q n) := unencoded rfl
theorem kputPacket (q n : Nat) : Statement (.kputPacket q n) := unencoded rfl
theorem signalPacket (q n : Nat) : Statement (.signalPacket q n) := unencoded rfl
theorem fencePacket (q n : Nat) : Statement (.fencePacket q n) := unencoded rfl
theorem waitcondPacket (q n : Nat) : Statement (.waitcondPacket q n) := unencoded rfl
theorem waitcondRetest (q n : Nat) : Statement (.waitcondRetest q n) := unencoded rfl
theorem completionRecordWrite (q n : Nat) : Statement (.completionRecordWrite q n) := unencoded rfl
theorem queueCommit (q : Nat) (copyB : Bool) (blk : QueueBlock) (word : Word) : Statement (.queueCommit q copyB blk word) := unencoded rfl
theorem commitTakeEffect (q : Nat) : Statement (.commitTakeEffect q) := unencoded rfl
theorem frontEndModeWrite (v : BitVec 6) : Statement (.frontEndModeWrite v) := unencoded rfl
theorem firmwareTableWrite (w : FwWrite) : Statement (.firmwareTableWrite w) := unencoded rfl
theorem frameReceive (port : Nat) (fcsOk : Bool) (ts : BitVec 80) (bytes : List Byte) : Statement (.frameReceive port fcsOk ts bytes) := unencoded rfl
theorem firmwareWatchdogReset (blk : FwBlock) : Statement (.firmwareWatchdogReset blk) := unencoded rfl
theorem heartbeat (blk : FwBlock) (answered : Bool) : Statement (.heartbeat blk answered) := unencoded rfl
theorem firmwareReplace (blk : FwBlock) (img : Image) : Statement (.firmwareReplace blk img) := unencoded rfl
theorem partitionSwitchRequest (p : Nat) : Statement (.partitionSwitchRequest p) := unencoded rfl
theorem partitionHalt (p : Nat) : Statement (.partitionHalt p) := unencoded rfl
theorem contextWriteOut (p : Nat) : Statement (.contextWriteOut p) := unencoded rfl
theorem partitionRestore (p : Nat) (onto : List ClusterBind) : Statement (.partitionRestore p onto) := unencoded rfl
theorem spillReloadComplete (c region : Nat) : Statement (.spillReloadComplete c region) := unencoded rfl
theorem slotReloadComplete (c slot : Nat) : Statement (.slotReloadComplete c slot) := unencoded rfl
theorem partitionGate (p : Nat) : Statement (.partitionGate p) := unencoded rfl
theorem partitionWake (p : Nat) (onto : List ClusterBind) : Statement (.partitionWake p onto) := unencoded rfl
theorem uncorrectableError (place : ErrorPlace) : Statement (.uncorrectableError place) := unencoded rfl
theorem coreKill (c : Nat) : Statement (.coreKill c) := unencoded rfl
theorem coreMapUpdateArrive (ni c : Nat) : Statement (.coreMapUpdateArrive ni c) := unencoded rfl
theorem coreMapChangeComplete (c : Nat) : Statement (.coreMapChangeComplete c) := unencoded rfl
theorem mismatchWindowEnd (die : Nat) : Statement (.mismatchWindowEnd die) := unencoded rfl
theorem correctedErrorReport (eng bank row col : Nat) : Statement (.correctedErrorReport eng bank row col) := unencoded rfl
theorem classificationWindowEnd (eng : Nat) : Statement (.classificationWindowEnd eng) := unencoded rfl
theorem repairServe (eng idx : Nat) : Statement (.repairServe eng idx) := unencoded rfl
theorem translationInvalidate (ctx lo hi : Nat) : Statement (.translationInvalidate ctx lo hi) := unencoded rfl
theorem powerOn (flash : List FlashImage) : Statement (.powerOn flash) := unencoded rfl
theorem imageVerify (blk : FwBlock) (img : Image) : Statement (.imageVerify blk img) := unencoded rfl
theorem blockReady (blk : FwBlock) : Statement (.blockReady blk) := unencoded rfl
theorem minSvnRaise (target svn : Nat) (signed : Bool) : Statement (.minSvnRaise target svn signed) := unencoded rfl
theorem attestationRequest (nonce : BitVec 256) : Statement (.attestationRequest nonce) := unencoded rfl
theorem leaveCapWrite (die cap : Nat) : Statement (.leaveCapWrite die cap) := unencoded rfl
theorem currentMonitorHigh : Statement .currentMonitorHigh := unencoded rfl
theorem currentMonitorLowSustained : Statement .currentMonitorLowSustained := unencoded rfl
theorem snapshotMarkerArrive (tag : Nat) (blk : SnapBlock) : Statement (.snapshotMarkerArrive tag blk) := unencoded rfl
theorem snapshotPacketRecord (n : Nat) (blk : SnapBlock) : Statement (.snapshotPacketRecord n blk) := unencoded rfl
theorem cutComplete (tag : Nat) : Statement (.cutComplete tag) := unencoded rfl
theorem linkDeath (x : InFlight) : Statement (.linkDeath x) := unencoded rfl
theorem hostRdmaWrite (conn ctx : Nat) (va : Word) (bytes : List Byte) : Statement (.hostRdmaWrite conn ctx va bytes) := unencoded rfl
theorem replicaDrop (line holder : Nat) : Statement (.replicaDrop line holder) := unencoded rfl
theorem foremanCoreRestart (c : Nat) : Statement (.foremanCoreRestart c) := unencoded rfl

end Sys2Proof.Laws.WordBound
end

