-- ==== Sys2Proof/Tests/Slice0.lean ====
section
/-! SUPPORT. Tests: the ill-formed terms that WellFormed refuses; a word of every encoded row of the opcode table, written out from its
encoding; small steps; and for the statements with hypotheses, states that meet them. Expected values are the spec's, or
calculated by hand from it. -/

namespace Sys2Proof.Tests

open Sys2Proof.Machine

set_option Elab.async false

/-! ### Small states -/

/-- A work record of launch 1. -/
def rec1 : WorkRec := { ltag := 1, dual := false, prio := 1, cls := 1, entry := 0x1000, args := [1, 2, 3, 4] }

/-- An activation of launch 1, of serial number 7. -/
def act1 : Activation := { serial := 7, ltag := 1, kind := .task, record := rec1, t15 := none, pair := none, msgIdx := 0, commit := false }

/-- A context with some registers set. -/
def withRegs (rs : List (BitVec 5 × Word)) (x : Ctx) : Ctx := rs.foldl (fun y p => setReg y p.1 p.2) x

/-- A running context at 0x1000 with some registers set. -/
def ctx (rs : List (BitVec 5 × Word)) : Ctx := withRegs rs { resetCtx with pc := 0x1000, act := some act1 }

/-- A core that runs a context. -/
def core (x : Ctx) : Core := { resetCore with state := .running, ctx := x, launch := some 1 }

/-- A live partition 0 over cluster 0 whose core 0 is given. -/
def one (k : Core) : State := { State.reset with cores := [(0, k)], parts := [(0, { noPartition with state := .live, clusters := [0], ctxid := 1 })] }

/-- The same with a running core. -/
def run (rs : List (BitVec 5 × Word)) : State := one (core (ctx rs))

/-- Page tables of context 1 for the pages of 1 GiB: module memory from 0 with all permissions; nothing; no permissions; HOLD. -/
def pageMem : Memory :=
  memWrite (memWrite (memWrite (memWrite (memWrite [] 0x1008 (leBytes 8 (1 + 0x10 * 4096))) 0x10000 (leBytes 8 (1 + 0x200 * 256)))
    0x20000 (leBytes 8 0x73)) 0x20010 (leBytes 8 0x03)) 0x20018 (leBytes 8 0x7B)

/-- A state with those pages at every station. -/
def paged (s : State) : State :=
  { s with hbm := pageMem, stations := (List.range 48).map (fun p => (p, { ctxBase := 0x1000, winBase := 0x3000 })) }

/-- A register marked as waited for. -/
def markAs (x : Ctx) (r : BitVec 5) (m : Mark) : Ctx := { x with regs := x.regs.set! r.toNat { getReg x r with mark := m } }

/-- Launch 1. -/
def l1 : Launch :=
  { ltag := 1, part := 0, seed := 3, regions := [{ attr := 0, offset := 0, size := 64, fill := 0 }], root := some 0, packet := (0, 0),
    wave := none, last := none }

/-- A state in which launch 1 runs. -/
def launched (k : Core) : State := { one k with launches := [l1], nextId := 100 }

/-- An operation of core 0's activation. -/
def opOf (id : Nat) (reg : BitVec 5) (b : OpBody) : Op :=
  { id := id, core := 0, serial := 7, gen := 3, reg := reg, upc := 0x100, held := 0, drawn := 0, body := b }

/-- A tile unit with a captured value. -/
def unit (i : Instr) (v : Word) : TileUnit := { id := 9, upc := 0x900, instr := i, xmod := none, gval := v, gen := none }

/-- A task message of core 0. -/
def msg (b : TaskBody) (t : Nat) : TaskMsg :=
  { id := 41, core := 0, name := 0x30003, target := t, egen := 0, op := 40, tag := none, assayed := false, serial := 7, twin := none, body := b }

/-- A core with a task of generation number 3, and an idle one without launch. -/
def busy1 : Core := { core (ctx []) with live := [{ gen := 3, xfree := 5, tally := noFails }] }
def idle1 : Core := { resetCore with state := .idle }

/-- Every check of WellFormed refuses a term that fails it alone (R126). -/
theorem test_ill_formed_terms :
    (Instr.ld 1 2 7 0).check = some .loadSize ∧ (Instr.st 1 2 1 0).check = some .storeSize ∧
    (Instr.fence 1 5 3).check = some .scope ∧ (Instr.fence 1 4 0).check = some .fenceOrder ∧ (Instr.drain 0).check = some .drainMask ∧
    (Instr.spawn 1 2 0 0 3 0).check = some .recordClass ∧ (Instr.gang 1 0).check = some .gangSize ∧
    (Instr.tset 1 4 1 0).check = some .queueOperand ∧ (Instr.tbind 1 2 0 10).check = some .formatCode ∧
    (Instr.tcopy 1 2 3).check = some .neighbour ∧ (Instr.tbcast 1 2 3).check = some .subCode ∧
    (Instr.tpack 1 2 3 1).check = some .unusedTile ∧ (Instr.tloop 5 0 0).check = some .loopLength ∧
    (Instr.mfree 1 2).check = some .unusedSlot ∧ (Instr.mma 15 2 0 1 0).check = some .tilePair ∧
    (Instr.mmag 1 2 3 0 4 0 1).check = some .gangedSlots ∧ (Instr.ascale 1 2 3 0 0 0).check = some .scaleKind ∧
    (Instr.loopnz 0 4).check = some .loopRegister ∧ (Instr.hlikely 0 1).check = some .hintDistance ∧
    (Instr.xmod 7 0 0 0).check = some .rounding ∧ (Instr.xmod 0 3 0 0).check = some .saturation ∧
    (Instr.xmod 0 0 0 3).check = some .ordering ∧ (Instr.wfe 0).check = some .wakeMask ∧ (Instr.snap 0).check = some .snapTag := by
  decide

/-- The decoder refuses a word with a reserved value in a field, with a reserved bit set, and of no row (R126). -/
theorem test_refused_words :
    decodeTableWord 32 0x5000031F = none ∧ decodeTableWord 32 0x40650709 = none ∧ decodeTableWord 32 0x44032F09 = none ∧
    decodeTableWord 32 0x0864280F = none ∧ decodeTableWord 32 0x00000000 = none ∧ decodeTableWord 32 0xFFFFFFFF = none := by
  refine ⟨rfl, rfl, rfl, rfl, rfl, rfl⟩

/-- One word for each row of the opcode table from sysr to or, written out from the row's match and its fields (R124-R144). -/
theorem test_words_sysr_to_or :
    decodeTableWord 32 0x04600005 = some (.sysr 3 5) ∧
    decodeTableWord 32 0x04031005 = some (.sysw 3 5) ∧
    decodeTableWord 32 0x04002003 = some (.trap 3) ∧
    decodeTableWord 32 0x04003000 = some (.eret) ∧
    decodeTableWord 32 0x04004003 = some (.wfe 3) ∧
    decodeTableWord 32 0x04005000 = some (.iflush) ∧
    decodeTableWord 32 0x04006000 = some (.halt) ∧
    decodeTableWord 32 0x04007003 = some (.snap 3) ∧
    decodeTableWord 32 0x04658000 = some (.leave 3 5) ∧
    decodeTableWord 32 0x08653800 = some (.add 3 5 7) ∧
    decodeTableWord 32 0x08653801 = some (.sub 3 5 7) ∧
    decodeTableWord 32 0x08653802 = some (.and 3 5 7) ∧
    decodeTableWord 32 0x08653803 = some (.or 3 5 7) := by
  refine ⟨rfl, rfl, rfl, rfl, rfl, rfl, rfl, rfl, rfl, rfl, rfl, rfl, rfl⟩

/-- One word for each row of the opcode table from xor to lea, written out from the row's match and its fields (R124-R144). -/
theorem test_words_xor_to_lea :
    decodeTableWord 32 0x08653804 = some (.xor 3 5 7) ∧
    decodeTableWord 32 0x08653805 = some (.andn 3 5 7) ∧
    decodeTableWord 32 0x08653806 = some (.orn 3 5 7) ∧
    decodeTableWord 32 0x08653808 = some (.sll 3 5 7) ∧
    decodeTableWord 32 0x08653809 = some (.srl 3 5 7) ∧
    decodeTableWord 32 0x0865380A = some (.sra 3 5 7) ∧
    decodeTableWord 32 0x0865380C = some (.slt 3 5 7) ∧
    decodeTableWord 32 0x0865380D = some (.sltu 3 5 7) ∧
    decodeTableWord 32 0x08653810 = some (.min 3 5 7) ∧
    decodeTableWord 32 0x08653811 = some (.max 3 5 7) ∧
    decodeTableWord 32 0x08653812 = some (.minu 3 5 7) ∧
    decodeTableWord 32 0x08653813 = some (.maxu 3 5 7) ∧
    decodeTableWord 32 0x08653819 = some (.lea 3 5 7 1) := by
  refine ⟨rfl, rfl, rfl, rfl, rfl, rfl, rfl, rfl, rfl, rfl, rfl, rfl, rfl⟩

/-- One word for each row of the opcode table from addi to mulhu, written out from the row's match and its fields (R124-R144). -/
theorem test_words_addi_to_mulhu :
    decodeTableWord 32 0x0C650007 = some (.addi 3 5 7) ∧
    decodeTableWord 32 0x0C651007 = some (.andi 3 5 7) ∧
    decodeTableWord 32 0x0C652007 = some (.ori 3 5 7) ∧
    decodeTableWord 32 0x0C653007 = some (.xori 3 5 7) ∧
    decodeTableWord 32 0x0C654007 = some (.slli 3 5 7) ∧
    decodeTableWord 32 0x0C655007 = some (.srli 3 5 7) ∧
    decodeTableWord 32 0x0C656007 = some (.srai 3 5 7) ∧
    decodeTableWord 32 0x0C657007 = some (.slti 3 5 7) ∧
    decodeTableWord 32 0x0C658007 = some (.sltiu 3 5 7) ∧
    decodeTableWord 32 0x0C659007 = some (.lih 3 5 7) ∧
    decodeTableWord 32 0x10653800 = some (.mul 3 5 7) ∧
    decodeTableWord 32 0x10653801 = some (.mulh 3 5 7) ∧
    decodeTableWord 32 0x10653802 = some (.mulhu 3 5 7) := by
  refine ⟨rfl, rfl, rfl, rfl, rfl, rfl, rfl, rfl, rfl, rfl, rfl, rfl, rfl⟩

/-- One word for each row of the opcode table from div to qlen, written out from the row's match and its fields (R124-R144). -/
theorem test_words_div_to_qlen :
    decodeTableWord 32 0x10653804 = some (.div 3 5 7) ∧
    decodeTableWord 32 0x10653805 = some (.divu 3 5 7) ∧
    decodeTableWord 32 0x10653806 = some (.rem 3 5 7) ∧
    decodeTableWord 32 0x10653807 = some (.remu 3 5 7) ∧
    decodeTableWord 32 0x14650000 = some (.clz 3 5) ∧
    decodeTableWord 32 0x14650001 = some (.ctz 3 5) ∧
    decodeTableWord 32 0x14650002 = some (.popc 3 5) ∧
    decodeTableWord 32 0x14650003 = some (.brev 3 5) ∧
    decodeTableWord 32 0x14653804 = some (.bext 3 5 7) ∧
    decodeTableWord 32 0x14653805 = some (.bins 3 5 7) ∧
    decodeTableWord 32 0x18030800 = some (.qpush 3 1) ∧
    decodeTableWord 32 0x18602801 = some (.qpop 3 1) ∧
    decodeTableWord 32 0x18602802 = some (.qlen 3 5) := by
  refine ⟨rfl, rfl, rfl, rfl, rfl, rfl, rfl, rfl, rfl, rfl, rfl, rfl, rfl⟩

/-- One word for each row of the opcode table from beq to amomin, written out from the row's match and its fields (R124-R144). -/
theorem test_words_beq_to_amomin :
    decodeTableWord 32 0x20650007 = some (.beq 3 5 7) ∧
    decodeTableWord 32 0x24650007 = some (.bne 3 5 7) ∧
    decodeTableWord 32 0x28650007 = some (.blt 3 5 7) ∧
    decodeTableWord 32 0x2C650007 = some (.bge 3 5 7) ∧
    decodeTableWord 32 0x30650007 = some (.bltu 3 5 7) ∧
    decodeTableWord 32 0x34650007 = some (.bgeu 3 5 7) ∧
    decodeTableWord 32 0x38000003 = some (.jal 3) ∧
    decodeTableWord 32 0x3C650007 = some (.jalr 3 5 7) ∧
    decodeTableWord 32 0x3C034005 = some (.loopnz 3 5) ∧
    decodeTableWord 32 0x40650609 = some (.ld 3 5 6 9) ∧
    decodeTableWord 32 0x44032C09 = some (.st 3 5 4 9) ∧
    decodeTableWord 32 0x48653914 = some (.amoadd 3 5 7 1 1 1) ∧
    decodeTableWord 32 0x48653934 = some (.amomin 3 5 7 1 1 1) := by
  refine ⟨rfl, rfl, rfl, rfl, rfl, rfl, rfl, rfl, rfl, rfl, rfl, rfl, rfl⟩

/-- One word for each row of the opcode table from amomax to msend, written out from the row's match and its fields (R124-R144). -/
theorem test_words_amomax_to_msend :
    decodeTableWord 32 0x48653954 = some (.amomax 3 5 7 1 1 1) ∧
    decodeTableWord 32 0x48653974 = some (.amoand 3 5 7 1 1 1) ∧
    decodeTableWord 32 0x48653994 = some (.amoor 3 5 7 1 1 1) ∧
    decodeTableWord 32 0x486539B4 = some (.amoxor 3 5 7 1 1 1) ∧
    decodeTableWord 32 0x486539D4 = some (.amoswap 3 5 7 1 1 1) ∧
    decodeTableWord 32 0x486539F4 = some (.cas 3 5 7 1 1 1) ∧
    decodeTableWord 32 0x4C600308 = some (.fence 3 3 2) ∧
    decodeTableWord 32 0x4C000013 = some (.drain 3) ∧
    decodeTableWord 32 0x5065E058 = some (.spawn 3 5 7 1 1 1) ∧
    decodeTableWord 32 0x5065E160 = some (.callat 3 5 7 1 2) ∧
    decodeTableWord 32 0x50653A00 = some (.retv 3 5 7) ∧
    decodeTableWord 32 0x50000300 = some (.endAct) ∧
    decodeTableWord 32 0x5065E400 = some (.msend 3 5 7) := by
  refine ⟨rfl, rfl, rfl, rfl, rfl, rfl, rfl, rfl, rfl, rfl, rfl, rfl, rfl⟩

/-- One word for each row of the opcode table from mpoll to tvalid, written out from the row's match and its fields (R124-R144). -/
theorem test_words_mpoll_to_tvalid :
    decodeTableWord 32 0x5060A500 = some (.mpoll 3 5) ∧
    decodeTableWord 32 0x54600001 = some (.gang 3 1) ∧
    decodeTableWord 32 0x54000100 = some (.ungang) ∧
    decodeTableWord 32 0x54600200 = some (.gsync 3) ∧
    decodeTableWord 32 0x58653800 = some (.barmArm 3 5 7) ∧
    decodeTableWord 32 0x58653900 = some (.bara 3 5 7) ∧
    decodeTableWord 32 0x58650200 = some (.barw 3 5) ∧
    decodeTableWord 32 0x58653B00 = some (.cntrd 3 5 7) ∧
    decodeTableWord 32 0x58653C00 = some (.cntadd 3 5 7) ∧
    decodeTableWord 32 0x58653D00 = some (.rndclose 3 5 7) ∧
    decodeTableWord 32 0x60C05080 = some (.tbind 3 2 1 4) ∧
    decodeTableWord 32 0x60C05001 = some (.tshape 3 2 1) ∧
    decodeTableWord 32 0x60C05002 = some (.tvalid 3 2 1) := by
  refine ⟨rfl, rfl, rfl, rfl, rfl, rfl, rfl, rfl, rfl, rfl, rfl, rfl, rfl⟩

/-- One word for each row of the opcode table from tfill to tsub, written out from the row's match and its fields (R124-R144). -/
theorem test_words_tfill_to_tsub :
    decodeTableWord 32 0x60C00023 = some (.tfill 3 1) ∧
    decodeTableWord 32 0x600C30E4 = some (.tget 3 1 7) ∧
    decodeTableWord 32 0x64D40200 = some (.tcopy 3 5 2) ∧
    decodeTableWord 32 0x64D40001 = some (.ttrans 3 5) ∧
    decodeTableWord 32 0x64C05002 = some (.tldg 3 2 1) ∧
    decodeTableWord 32 0x64C05003 = some (.tstg 3 2 1) ∧
    decodeTableWord 32 0x64D40044 = some (.tbcast 3 5 2) ∧
    decodeTableWord 32 0x64C05025 = some (.tset 3 2 1 1) ∧
    decodeTableWord 32 0x64D5C006 = some (.trowg 3 5 7) ∧
    decodeTableWord 32 0x64D45027 = some (.tshift 3 5 2 1 1) ∧
    decodeTableWord 32 0x64D40048 = some (.tpack 3 5 0 2) ∧
    decodeTableWord 32 0x68D5C100 = some (.tadd 3 5 7 1) ∧
    decodeTableWord 32 0x68D5C101 = some (.tsub 3 5 7 1) := by
  refine ⟨rfl, rfl, rfl, rfl, rfl, rfl, rfl, rfl, rfl, rfl, rfl, rfl, rfl⟩

/-- One word for each row of the opcode table from tmul to tlog2, written out from the row's match and its fields (R124-R144). -/
theorem test_words_tmul_to_tlog2 :
    decodeTableWord 32 0x68D5C102 = some (.tmul 3 5 7 1) ∧
    decodeTableWord 32 0x68D5C103 = some (.tmin 3 5 7 1) ∧
    decodeTableWord 32 0x68D5C104 = some (.tmax 3 5 7 1) ∧
    decodeTableWord 32 0x68D5C105 = some (.tand 3 5 7 1) ∧
    decodeTableWord 32 0x68D5C106 = some (.tor 3 5 7 1) ∧
    decodeTableWord 32 0x68D5C107 = some (.txor 3 5 7 1) ∧
    decodeTableWord 32 0x68D5C108 = some (.tshl 3 5 7 1) ∧
    decodeTableWord 32 0x68D5C109 = some (.tshr 3 5 7 1) ∧
    decodeTableWord 32 0x68D5C16A = some (.tcmp 3 5 7 1 3) ∧
    decodeTableWord 32 0x6CD40000 = some (.tneg 3 5) ∧
    decodeTableWord 32 0x6CD40001 = some (.tabs 3 5) ∧
    decodeTableWord 32 0x6CD40002 = some (.texp2 3 5) ∧
    decodeTableWord 32 0x6CD40003 = some (.tlog2 3 5) := by
  refine ⟨rfl, rfl, rfl, rfl, rfl, rfl, rfl, rfl, rfl, rfl, rfl, rfl, rfl⟩

/-- One word for each row of the opcode table from trcp to thist, written out from the row's match and its fields (R124-R144). -/
theorem test_words_trcp_to_thist :
    decodeTableWord 32 0x6CD40004 = some (.trcp 3 5) ∧
    decodeTableWord 32 0x6CD40005 = some (.trsqrt 3 5) ∧
    decodeTableWord 32 0x6CD40006 = some (.tsqrt 3 5) ∧
    decodeTableWord 32 0x6CD40007 = some (.ttanh 3 5) ∧
    decodeTableWord 32 0x6CD40008 = some (.tcvt 3 5) ∧
    decodeTableWord 32 0x6CD40009 = some (.tround 3 5) ∧
    decodeTableWord 32 0x70D40000 = some (.trsum 3 5) ∧
    decodeTableWord 32 0x70D40001 = some (.tcsum 3 5) ∧
    decodeTableWord 32 0x70D40002 = some (.trmax 3 5) ∧
    decodeTableWord 32 0x70D40003 = some (.tcmax 3 5) ∧
    decodeTableWord 32 0x70D40024 = some (.tscan 3 5 1) ∧
    decodeTableWord 32 0x70D5C025 = some (.ttopk 3 5 7 1) ∧
    decodeTableWord 32 0x70D40006 = some (.thist 3 5) := by
  refine ⟨rfl, rfl, rfl, rfl, rfl, rfl, rfl, rfl, rfl, rfl, rfl, rfl, rfl⟩

/-- One word for each row of the opcode table from targmax to ascale, written out from the row's match and its fields (R124-R144). -/
theorem test_words_targmax_to_ascale :
    decodeTableWord 32 0x70D40007 = some (.targmax 3 5) ∧
    decodeTableWord 32 0x74D5E600 = some (.tfma 3 5 7 9 2) ∧
    decodeTableWord 32 0x74D5E501 = some (.tsel 3 5 7 9 1) ∧
    decodeTableWord 32 0x74D45002 = some (.tscale 3 5 2 1) ∧
    decodeTableWord 32 0x780070E0 = some (.tloop 3 1 7) ∧
    decodeTableWord 32 0x78000001 = some (.twait) ∧
    decodeTableWord 32 0x800C58A0 = some (.mloadb 3 2 1 1 1 1) ∧
    decodeTableWord 32 0x80000061 = some (.mfree 0 3) ∧
    decodeTableWord 32 0x840C50E0 = some (.mma 3 2 1 1 3) ∧
    decodeTableWord 32 0x84D453A1 = some (.mmag 3 5 2 1 3 1 1) ∧
    decodeTableWord 32 0x840C5062 = some (.mmal 3 2 1 0 3) ∧
    decodeTableWord 32 0x88C05000 = some (.azero 3 2 1) ∧
    decodeTableWord 32 0x88D45041 = some (.ascale 3 5 2 1 1 0) := by
  refine ⟨rfl, rfl, rfl, rfl, rfl, rfl, rfl, rfl, rfl, rfl, rfl, rfl, rfl⟩

/-- One word for each row of the opcode table from adrain to kreadTile, written out from the row's match and its fields (R124-R144). -/
theorem test_words_adrain_to_kreadTile :
    decodeTableWord 32 0x88D45022 = some (.adrain 3 5 2 1 0 1) ∧
    decodeTableWord 32 0x880C5003 = some (.amovin 3 2 1) ∧
    decodeTableWord 32 0x88C05004 = some (.amovout 3 2 1) ∧
    decodeTableWord 32 0x90600000 = some (.xcopy 3) ∧
    decodeTableWord 32 0x90600141 = some (.xgath 3 5) ∧
    decodeTableWord 32 0x90600142 = some (.xscat 3 5) ∧
    decodeTableWord 32 0x90600003 = some (.xcancel 3) ∧
    decodeTableWord 32 0x94653A40 = some (.xmcast 3 5 7 9) ∧
    decodeTableWord 32 0x94653A41 = some (.xmread 3 5 7 9) ∧
    decodeTableWord 32 0x94030002 = some (.xfree 3) ∧
    decodeTableWord 32 0xA07401C0 = some (.kputTile 3 5 7) ∧
    decodeTableWord 32 0xA0743820 = some (.kputImage 3 5 7) ∧
    decodeTableWord 32 0xA06801C9 = some (.kreadTile 3 1 7 1) := by
  refine ⟨rfl, rfl, rfl, rfl, rfl, rfl, rfl, rfl, rfl, rfl, rfl, rfl, rfl⟩

/-- One word for each row of the opcode table from kreadImage to cmbstat, written out from the row's match and its fields (R124-R144). -/
theorem test_words_kreadImage_to_cmbstat :
    decodeTableWord 32 0xA0683829 = some (.kreadImage 3 1 7 1) ∧
    decodeTableWord 32 0xA0683A51 = some (.kreadCont 3 1 7 9) ∧
    decodeTableWord 32 0xA06801CA = some (.ktakeTile 3 1 7 1) ∧
    decodeTableWord 32 0xA068382A = some (.ktakeImage 3 1 7 1) ∧
    decodeTableWord 32 0xA0683A52 = some (.ktakeCont 3 1 7 9) ∧
    decodeTableWord 32 0xA0680003 = some (.kcancel 3 1) ∧
    decodeTableWord 32 0xA4653800 = some (.ksplit 3 5 7) ∧
    decodeTableWord 32 0xA4740001 = some (.kmap 3 5) ∧
    decodeTableWord 32 0xA4653802 = some (.kstat 3 5 7) ∧
    decodeTableWord 32 0xA8653A48 = some (.cmbopen 3 5 7 9 1) ∧
    decodeTableWord 32 0xA8653A41 = some (.cmbput 3 5 7 9) ∧
    decodeTableWord 32 0xA8653802 = some (.cmbclose 3 5 7) ∧
    decodeTableWord 32 0xA8650003 = some (.cmbstat 3 5) := by
  refine ⟨rfl, rfl, rfl, rfl, rfl, rfl, rfl, rfl, rfl, rfl, rfl, rfl, rfl⟩

/-- One word for each row of the opcode table from msired to xmod, written out from the row's match and its fields (R124-R144). -/
theorem test_words_msired_to_xmod :
    decodeTableWord 32 0xAC653A40 = some (.msired 3 5 7 9) ∧
    decodeTableWord 32 0xAC653A41 = some (.msiscat 3 5 7 9) ∧
    decodeTableWord 32 0xAC65380A = some (.mstopk 3 5 7 1) ∧
    decodeTableWord 32 0xB0653808 = some (.colrs 3 5 7 1) ∧
    decodeTableWord 32 0xB0653809 = some (.colar 3 5 7 1) ∧
    decodeTableWord 32 0xB0653802 = some (.colag 3 5 7) ∧
    decodeTableWord 32 0xB0653803 = some (.colbc 3 5 7) ∧
    decodeTableWord 32 0xB0650004 = some (.colbar 3 5) ∧
    decodeTableWord 32 0xF8038000 = some (.hlikely 3 1) ∧
    decodeTableWord 32 0xF9300005 = some (.hpref 3 5) ∧
    decodeTableWord 32 0xFC000003 = some (.ximm 3) ∧
    decodeTableWord 32 0xFD6D0000 = some (.xmod 3 1 1 1) := by
  refine ⟨rfl, rfl, rfl, rfl, rfl, rfl, rfl, rfl, rfl, rfl, rfl, rfl⟩

/-- Words that the worked examples of the spec write out. -/
theorem test_words_of_the_spec_1 :
    decodeTableWord 32 0x0CA00003 = some (.addi 5 0 3) ∧
    decodeTableWord 32 0xF8028000 = some (.hlikely 2 1) ∧
    decodeTableWord 32 0x08C62800 = some (.add 6 6 5) ∧
    decodeTableWord 32 0x3C057FFF = some (.loopnz 5 0x3FFF) ∧
    decodeTableWord 32 0xF9300100 = some (.hpref 3 0x100) ∧
    decodeTableWord 32 0x08642800 = some (.add 3 4 5) ∧
    decodeTableWord 32 0x68804000 = some (.tadd 2 0 1 0) ∧
    decodeTableWord 32 0xFD600000 = some (.xmod 3 0 0 0) ∧
    decodeTableWord 32 0x0CE02ABC = some (.ori 7 0 0xABC) ∧
    decodeTableWord 32 0x0CE79123 = some (.lih 7 7 0x123) ∧
    decodeTableWord 32 0xFC456789 = some (.ximm 0x456789) ∧
    decodeTableWord 32 0x04061005 = some (.sysw 6 0x005) ∧
    decodeTableWord 32 0x05600004 = some (.sysr 11 0x004) ∧
    decodeTableWord 32 0x6080E020 = some (.tbind 2 7 0 1) ∧
    decodeTableWord 32 0x64401002 = some (.tldg 1 0 1) ∧
    decodeTableWord 32 0x64403003 = some (.tstg 1 1 1) ∧
    decodeTableWord 32 0x7800A040 = some (.tloop 5 0 2) := by
  refine ⟨rfl, rfl, rfl, rfl, rfl, rfl, rfl, rfl, rfl, rfl, rfl, rfl, rfl, rfl, rfl, rfl, rfl⟩

/-- Words that the worked examples of the spec write out. -/
theorem test_words_of_the_spec_2 :
    decodeTableWord 32 0x78000001 = some (.twait) ∧
    decodeTableWord 32 0x70C80002 = some (.trmax 3 2) ∧
    decodeTableWord 32 0x6908C001 = some (.tsub 4 2 3 0) ∧
    decodeTableWord 32 0x6D100002 = some (.texp2 4 4) ∧
    decodeTableWord 32 0x71500000 = some (.trsum 5 4) ∧
    decodeTableWord 32 0x7185C085 = some (.ttopk 6 1 7 4) ∧
    decodeTableWord 32 0xA1E80040 = some (.kputTile 15 2 1) ∧
    decodeTableWord 32 0x77FCA002 = some (.tscale 15 15 5 0) ∧
    decodeTableWord 32 0xA0702BD2 = some (.ktakeCont 3 2 5 15) ∧
    decodeTableWord 32 0xA07000C1 = some (.kreadTile 3 2 3 0) ∧
    decodeTableWord 32 0xA07000C2 = some (.ktakeTile 3 2 3 0) ∧
    decodeTableWord 32 0xA4C42800 = some (.ksplit 6 4 5) ∧
    decodeTableWord 32 0xB18A5800 = some (.colrs 12 10 11 0) ∧
    decodeTableWord 32 0xB1842809 = some (.colar 12 4 5 1) ∧
    decodeTableWord 32 0xB1CD0004 = some (.colbar 14 13) ∧
    decodeTableWord 32 0xB20D7803 = some (.colbc 16 13 15) ∧
    decodeTableWord 32 0x95841041 = some (.xmread 12 4 2 1) := by
  refine ⟨rfl, rfl, rfl, rfl, rfl, rfl, rfl, rfl, rfl, rfl, rfl, rfl, rfl, rfl, rfl, rfl, rfl⟩

/-- Words that the worked examples of the spec write out. -/
theorem test_words_of_the_spec_3 :
    decodeTableWord 32 0x59454800 = some (.barmArm 10 5 9) ∧
    decodeTableWord 32 0x59650200 = some (.barw 11 5) ∧
    decodeTableWord 32 0x94090002 = some (.xfree 9) ∧
    decodeTableWord 32 0xAA840A88 = some (.cmbopen 20 4 1 10 1) ∧
    decodeTableWord 32 0x91C001C1 = some (.xgath 14 7) ∧
    decodeTableWord 32 0x80020080 = some (.mloadb 0 16 0 0 1 0) ∧
    decodeTableWord 32 0x86500201 = some (.mmag 9 4 0 0 2 0 0) ∧
    decodeTableWord 32 0xAAA47981 = some (.cmbput 21 4 15 6) ∧
    decodeTableWord 32 0x60400023 = some (.tfill 1 1) ∧
    decodeTableWord 32 0x41090602 = some (.ld 8 9 6 2) ∧
    decodeTableWord 32 0x44053402 = some (.st 5 6 4 2) ∧
    decodeTableWord 32 0x48642B1C = some (.amoadd 3 4 5 3 1 3) ∧
    decodeTableWord 32 0x4CE00308 = some (.fence 7 3 2) ∧
    decodeTableWord 32 0x4C000014 = some (.drain 4) ∧
    decodeTableWord 32 0x50000300 = some (.endAct) ∧
    decodeTableWord 32 0x54000100 = some (.ungang) := by
  refine ⟨rfl, rfl, rfl, rfl, rfl, rfl, rfl, rfl, rfl, rfl, rfl, rfl, rfl, rfl, rfl, rfl⟩

/-! ### Witnesses: registers, branches, system registers, traps, leave, local accesses -/

/-- The prefix of a unit that began a word earlier. -/
def pfx1 : Pfx := { upc := 0xFFC, ximm := some 0xABCDEF, xmod := none, ill := false, bad := false }

/-- A supervisor's and a task's context. -/
def supCtx (sup : Bool) : Ctx := { ctx [(5, 6)] with sys := { resetSys with sup := sup, svbase := 0x4000000000000040, evt := 6 } }

/-- A predicted branch. -/
def gen1 : Gen := { id := 8, upc := 0xFF0, instr := .beq 5 6 4, taken := true, regs := (ctx [(5, 1), (6, 1)]).regs, recent := [] }

theorem witness_IntegerRegister : Goes (cur (run [(5, 3), (6, 4)])) (needs [5, 6] [7] (ahead := true)) := by and_intros <;> decide +kernel

theorem witness_IntegerImmediate :
    Goes (cur (one (core { ctx [(5, 3)] with pfx := some pfx1 }))) (needs [5] [7] (ahead := true) (imm := true)) ∧
    Goes (cur (run [(5, 3)])) (needs [5] [7] (ahead := true)) := by and_intros <;> decide +kernel

theorem witness_MultiplyDivideBit :
    Goes (cur (run [(5, 3), (6, 0)])) (needs [5, 6] [7] (ahead := true)) ∧ Goes (cur (run [(5, 3)])) (needs [5] [7] (ahead := true)) ∧
    Goes (cur (run [(5, 3), (6, 4)])) (needs [5, 6, 7] [7] (ahead := true)) := by and_intros <;> decide +kernel

/-- QPUSH with room and into a full queue, QPOP with an entry and from an empty queue. -/
theorem witness_Registers :
    (let x := cur (run [(5, 3)]); Goes x (needs [5] [] (ahead := true)) ∧ (getQueue x 3).length < 8 ∧ getQueue x 4 = [] ∧ Goes x (needs [] [5])) ∧
    (let x := setQueue (ctx [(5, 3)]) 3 (List.replicate 8 { val := 1, gen := none })
     Goes x (needs [5] [] (ahead := true)) ∧ 8 ≤ (getQueue x 3).length) ∧
    (let x := setQueue (ctx []) 4 [{ val := 1, gen := none }]; Goes x (needs [] [5]) ∧ getQueue x 4 = [{ val := 1, gen := none }]) ∧
    (5 : BitVec 5) ≠ 6 := by and_intros <;> decide +kernel

theorem witness_PrefixesAndHints :
    (ctx []).pfx = none ∧ pfx1.xmod = none ∧
    (let p : Pfx := { pfx1 with ximm := none }; ({ ctx [] with pfx := some p } : Ctx).pfx = some p ∧ p.ximm = none) ∧
    Goes (ctx []) (needs [] [] (ahead := true)) := by and_intros <;> decide +kernel

/-- The branch as predicted with an operand's value, and a context in which it is open. -/
def genOf1 (v : Word) : Gen := { gen1 with regs := (ctx [(5, v), (6, 1)]).regs }

/-- Operands there. -/
theorem witness_BranchesAndJumps :
    Goes (ctx [(5, 1), (6, 1)]) (needs [5, 6] [] (ahead := true)) ∧ Goes (ctx [(5, 1)]) (needs [5] [5] (ahead := true)) ∧
    Goes (ctx []) (needs [] [31]) ∧ Goes (ctx [(5, 1)]) (needs [5] [7]) := by and_intros <;> decide +kernel

/-- A prediction that was right, one that was wrong, an operand still awaited, and a branch that is predicted. -/
theorem witness_Branches :
    ({ ctx [] with gens := [genOf1 1] } : Ctx).gens.find? (fun h => h.id == 8) = some (genOf1 1) ∧
    ({ ctx [] with gens := [genOf1 2] } : Ctx).gens.find? (fun h => h.id == 8) = some (genOf1 2) ∧
    Holds { ctx [] with regs := (genOf1 1).regs } 5 ∧ Holds { ctx [] with regs := (genOf1 2).regs } 6 ∧
    isMarked { ctx [] with regs := (markAs (ctx [(6, 1)]) 5 (.load 50)).regs } 5 = true ∧
    (markAs (ctx [(6, 1)]) 5 (.load 50)).pfx = none ∧ opPending (markAs (ctx [(6, 1)]) 5 (.load 50)) 5 = false ∧
    loadPending (markAs (ctx [(6, 1)]) 5 (.load 50)) 5 = true := by
  refine ⟨rfl, rfl, ?_⟩
  and_intros <;> decide +kernel

/-- A quiet access in each mode, one that waits for the tile stream, a privileged register in task mode, and no register. -/
theorem witness_SystemRegisters :
    namesSys 0x005 = true ∧ Goes (supCtx false) (needs [] [7] (priv := privSys 0x005)) ∧
    Goes (supCtx true) (needs [5] [] (priv := privSys 0x024)) ∧ privSys 0x024 = true ∧ namesSys 0x024 = true ∧
    (let x : Ctx := { ctx [] with seq := [{ unit := unit .twait 0, body := [] }] }; x.seq ≠ [] ∧ x.tileTrap = none ∧ x.heldStream = false) ∧
    (supCtx false).pfx = none ∧ (supCtx false).gens = [] ∧ (supCtx false).sys.sup = false ∧ namesSys 0xFFF = false := by and_intros <;> decide +kernel

theorem witness_Traps :
    inGang (core (supCtx false)) = false ∧ (supCtx false).sys.sup = false ∧ (supCtx true).sys.sup = true ∧
    Goes (supCtx false) (needs [] []) ∧ Goes (supCtx true) (needs [] [] (priv := true)) ∧ (supCtx true).seq = [] ∧
    (let u := unit (.tneg 1 2) 0
     let s := one (core { ctx [] with seq := [{ unit := u, body := [] }] })
     s.focus = 0 ∧ curUnit (getCtx s 0) = some u) := by and_intros <;> decide +kernel

/-- WFE with a latched event and without; IFLUSH with nothing to wait for and behind a store; a wait that an event ends. -/
theorem witness_WaitsAndFences :
    Goes (supCtx false) (needs [] []) ∧ (supCtx false).sys.evt &&& 2 ≠ 0 ∧ (supCtx false).sys.evt &&& 1 = 0 ∧
    writesOpen (one (core (supCtx false))) 0 = false ∧ Goes (supCtx true) (needs [] [] (priv := true)) ∧
    (let y : Ctx := { supCtx false with wait := .wfe 2 }; y.wait = .wfe 2 ∧ y.sys.evt &&& 2 ≠ 0) := by and_intros <;> decide +kernel

/-- LEAVE of nothing, of a second reservation, beyond the share's capacity, and of a reservation; a grant that can be given and one that
waits. -/
theorem witness_LeaveUnits :
    Goes (ctx [(5, 0)]) (needs [5] [6]) ∧
    (let s := one (core { ctx [(5, 3)] with sys := { resetSys with held := 8 } }); regVal (cur s) 5 ≠ 0 ∧ (cur s).sys.held ≠ 0) ∧
    (let s := run [(5, 2000)]; (cur s).sys.held = 0 ∧ shareCap s ((partOf s 0).getD 0) (dieOf s 0) < (regVal (cur s) 5).toNat) ∧
    (∀ u ∈ [0, 945],
      let o := opOf 40 6 (.leave 8)
      let s : State := { one (core (markAs (ctx [(5, 8)]) 6 (.op 40))) with
        ops := [o], pools := [(0, { resetPool with weights := [(0, 1)], used := [(0, u)], waiting := [{ part := 0, units := 8, who := .op 40 }] })] }
      headWait s 0 0 = some { part := 0, units := 8, who := .op 40 } ∧ findOp s 40 = some o ∧ runsSerial (getCtx s 0) 7 = true ∧
      heldOf s o = 0 ∧ (getReg (getCtx s 0) 6).mark = .op 40 ∧ 8 ≤ shareCap s 0 0 ∧ (8 ≤ shareFree s 0 0 ↔ u = 0)) := by and_intros <;> decide +kernel

/-- A load, a load behind a branch, a store, an atomic, the supervisor area in each mode, and a misaligned address, which is also
outside the scratchpad. -/
theorem witness_LocalAccesses :
    (let s := run [(5, 0x40), (6, 7)]
     (regVal (cur s) 5).toNat % 8 = 0 ∧ placeOf 0 (regVal (cur s) 5) = .spad 0x40 ∧ 0x40 < spadSize ∧ holdsLoads (cur s) = false ∧
     holdsStores (cur s) = false ∧ localBusy (withCur s (passUnit (cur s))) 0 0x40 8 true = false ∧ youngestGen (cur s) = none ∧
     Goes (cur s) (needs [5] [7] (ahead := true) (imm := true)) ∧ Goes (cur s) (needs [5, 6] [] (imm := true)) ∧
     Goes (cur s) (needs [5, 6] [7]) ∧ Goes (cur s) (needs [5, 6, 7] [7])) ∧
    (let x : Ctx := { ctx [(5, 0x40)] with gens := [gen1] }
     youngestGen x = some 8 ∧ x.staging.length < 16 ∧ Goes x (needs [5] [7] (ahead := true) (imm := true))) ∧
    (∀ sup ∈ [true, false],
      let x : Ctx := { ctx [(5, 0xFF008), (6, 1)] with sys := { resetSys with sup := sup } }
      (regVal x 5).toNat % 8 = 0 ∧ 0xFF000 ≤ (regVal x 5).toNat ∧ (regVal x 5).toNat < 0x100000 ∧ x.gens = [] ∧
      Goes x (needs [5, 6] [] (imm := true))) ∧
    (let x := ctx [(5, 0xF000000000000001), (6, 1)]
     (regVal x 5).toNat % 8 ≠ 0 ∧ (regVal x 5).toNat % 4 ≠ 0 ∧ Goes x (needs [5, 6] []) ∧ Goes x (needs [5, 6, 7] [7])) := by and_intros <;> decide +kernel

/-! ### Witnesses: accesses to memory -/

/-- An access of core 0's activation. -/
def acc (k : AccKind) (a : Word) (st : AccStage) (d : List Byte) : Access :=
  { id := 50, core := 0, serial := 7, gen := 3, kind := k, addr := a, size := 8, data := d, egen := 0, stage := st, sender := none }

/-- A load, a store and an atomic that releases. -/
def ld1 : AccKind := .load 5 true 0x44
def at1 : AccKind := .atom 7 5 9 0x0807060504030201 false true 2 0x44
def bs8 : List Byte := [1, 2, 3, 4, 5, 6, 7, 8]

/-- A state with pages and that access. -/
def withAcc (a : Access) : State := { paged (one (core (ctx []))) with accs := [a], lines := [(17, { filled := 1, mask := 0xFF00, data := [], invalidating := [] })] }

/-- A last word of a page, virtual. -/
theorem witness_AccessesAndAnswers :
    (let s := run [(5, 0x4000000000000FF8), (6, 7)]
     let w : Word := 0x4000000000000FF8
     let x := cur s
     x.gens = [] ∧ x.sys.dual = false ∧ Goes x (needs [5] [7] (ahead := true) (imm := true)) ∧ Goes x (needs [5, 6] [] (imm := true)) ∧
     Goes x (needs [5, 6] [7]) ∧ regVal x 5 + memOffset (unitXimm x) 6 0 = w ∧ w.toNat % 8 = 0 ∧
     placeOf s.focus w = .virt 0xFF8 ∧ accFull s s.focus = false ∧
     tileMemBusy (withCur s (passUnit x)) s.focus w.toNat 8 true = false ∧ findRedirect s s.focus 0xFF8 = none ∧
     holdsLoads x = false ∧ holdsStores x = false) ∧
    (∀ st ∈ [AccStage.replied bs8, .failed 1 0x4000000000001108],
      let a := acc ld1 0x4000000000001108 st []
      let s : State := { one (core (markAs (ctx []) 5 (.load 50))) with accs := [a] }
      findAcc s a.id = some a ∧ runsSerial (getCtx s a.core) a.serial = true ∧ (getReg (getCtx s a.core) 5).mark = .load a.id) ∧
    (∀ st ∈ [AccStage.replied bs8, .failed 1 0x4000000000001108],
      let a := acc at1 0x4000000000001108 st []
      let s : State := { one (core (markAs (ctx []) 5 (.op 50))) with accs := [a] }
      findAcc s a.id = some a ∧ runsSerial (getCtx s a.core) a.serial = true ∧ (getReg (getCtx s a.core) 5).mark = .op a.id) := by and_intros <;> decide +kernel

/-- The pages of 1 GiB from 0 on: mapped, not mapped, without permissions, HOLD; a full fault queue; and an entry answered by the
Foreman with a second store parked behind it. -/
theorem witness_Translation :
    (∀ k ∈ [ld1, .store], ∀ p ∈ [((0x4000000000001108 : Word), Walk.page 0x1108), (0x4000000040000000, .fault),
        (0x4000000080000000, .refused), (0x40000000C0000000, .hold)],
      let a := acc k p.1 .sent bs8
      let s := withAcc a
      findAcc s a.id = some a ∧ spaceOf a.addr = 4 ∧ waitsAtPort s a = false ∧ parkedBefore s a = false ∧ accWalk s a = p.2) ∧
    (let a := acc .store 0x4000000040000000 .sent bs8
     let s : State := { withAcc a with fq := List.replicate 64 { port := 0, what := .row 60 0, own := true } }
     portOf s a = 0 ∧ parkedBefore s a = false ∧ waitsAtPort s a = false ∧ accWalk s a = .fault ∧ 64 ≤ (s.fq.filter (fun e => e.port == 0)).length) ∧
    (let a := acc .store 0x4000000040000000 (.parked 0) bs8
     let e : FaultEntry := { port := 0, what := .access 50, own := true }
     let s : State := { withAcc a with accs := [a, { a with id := 51 }], fq := [e, { e with what := .access 51 }] }
     ownEntry s 0 150 = some e ∧ findAcc s 50 = some a) ∧
    (let a := acc .store 0x4000000040000000 (.held 0) bs8; findAcc (withAcc a) a.id = some a) := by and_intros <;> decide +kernel

theorem witness_ModuleMemory :
    (∀ k ∈ [ld1, .store, at1],
      let a := acc k 0x4000000000001108 (.home 0x1108) bs8
      let s := withAcc a
      findAcc s a.id = some a ∧ accBlocked s a = false ∧ invalidateCopies s (lineOf 0x1108) = none ∧ accReleased s a 2 = true ∧
      sectorBad s 0x1108 a.size = false ∧ ∀ i < a.size, lineHas (getLine s (lineOf 0x1108)) (0x1108 + i) = true) ∧
    (∀ h ∈ [3, 4],
      let a := acc ld1 0x4000000000001108 (.helper h 0x1108) []
      let r : Replica := { line := 17, helper := 3, filled := 1, data := [] }
      let s : State := { withAcc a with replicas := [r] }
      findAcc s a.id = some a ∧ accBlocked s a = false ∧ writeAhead s a = false ∧
      (s.replicas.find? (fun r => r.line == lineOf 0x1108 && r.helper == h && r.filled.getLsbD (0x1108 % 256 / 64)) = some r ↔ h = 3)) ∧
    (let s : State := { State.reset with lines := [(16, { filled := 1, mask := 0, data := [], invalidating := [3, 193] })] }
     193 ∈ (getLine s 16).invalidating) := by and_intros <;> decide +kernel

/-- A core of the same cluster group that is there, and one that is not. -/
theorem witness_PeerAccess :
    (∀ k ∈ [ld1, .store, at1],
      let a := acc k 0x10000010000BFFF8 .sent bs8
      let s := setCore (withAcc a) 1 (core (ctx []))
      findAcc s a.id = some a ∧ placeOf a.core a.addr = .peer 1 0xBFFF8 ∧ accBlocked s a = false ∧ coreOut s 1 = false ∧
      reloading s 1 0xBFFF8 a.size = false ∧ peerKind s a.core 1 a.egen = none ∧ accReleased s a 2 = true) ∧
    (let a := acc ld1 0x1000101000000000 .sent []
     let s := withAcc a
     let c := 257
     findAcc s a.id = some a ∧ placeOf a.core a.addr = .peer c 0 ∧ accBlocked s a = false ∧ coreOut s c = false ∧
     reloading s c 0 a.size = false ∧ (peerKind s a.core c a.egen).isSome) := by and_intros <;> decide +kernel

/-! ### Witnesses: atomics on the own scratchpad, fences, the tile stream -/

/-- An atomic on the last word of the scratchpad, without and with a release. -/
theorem witness_LocalAtomics :
    let s := run [(5, 0xBFFF8), (6, 7), (7, 1)]
    let x := cur s
    (regVal x 5).toNat % 8 = 0 ∧ placeOf s.focus (regVal x 5) = .spad 0xBFFF8 ∧ 0xBFFF8 < spadSize ∧ holdsStores x = false ∧
    localBusy (withCur s (passUnit x)) s.focus 0xBFFF8 8 true = false ∧ (0 : BitVec 2).getLsbD 1 = false ∧
    releaseReady (withCur s (passUnit x)) s.focus (genOf x) (passUnit x) 4 s.nextId = true ∧
    Goes x (needs [5, 6] [7]) ∧ Goes x (needs [5, 6, 7] [7]) := by and_intros <;> decide +kernel

/-- A copy in flight. -/
def copy1 : Op :=
  opOf 41 0 (.copy { kind := .copy, cx := { resetSys.cx with dst := 0x1000 }, idx := [], rel := false, performed := [], parked := [], failed := [], cancelled := false, dead := false })

/-- A fence that is complete, of each kind; a DRAIN with nothing to wait for and behind a copy. -/
theorem witness_FenceAndDrain :
    Goes (ctx []) (needs [] [6]) ∧ Goes (ctx []) (needs [] []) ∧
    (∀ f ∈ [({ id := 40, reg := 6, scope := 0, acq := true, rel := true, held := false } : Fence), { id := 40, reg := 6, scope := 4, acq := false, rel := true, held := false }],
      let x := { markAs (ctx []) 6 (.op 40) with fences := [f] }
      let s := one { core x with live := [{ gen := genOf x, xfree := 0, tally := { fails := 70000, refused := true, lost := false } }] }
      let k := getCore s 0
      k.susp = none ∧ k.ctx.fences = [f] ∧ fenceReady s 0 k.ctx f = true ∧ f.reg ≠ 0 ∧ (getReg k.ctx f.reg).mark = .op f.id) ∧
    (let s := run []; drained s s.focus 7 = true) ∧
    (let s : State := { run [] with ops := [copy1] }; drained s s.focus 1 = false ∧ (cur s).pfx = none) ∧
    (∀ b ∈ [true, false],
      let s : State := { one (core { ctx [] with wait := .drain 1 }) with ops := if b then [copy1] else [] }
      (getCtx s 0).wait = .drain 1 ∧ (drained s 0 1 = false ↔ b = true)) := by and_intros <;> decide +kernel

/-- A sequencer of n units. -/
def seqOf (n : Nat) : Ctx :=
  let us := (List.range n).map (fun i => { unit (.tneg 1 2) 0 with id := i })
  { ctx [(6, 3)] with seq := us.map (fun u => { unit := u, body := [] }), recent := lastN 15 us }

/-- The last entry of the sequencer, and none; a body of the largest length, one too long by one, and a loop that does not fit. -/
theorem witness_TileStream :
    (∀ n ∈ [15, 16],
      let x := cur (one (core (seqOf n)))
      Goes x (needs [] [] (ahead := true) (rnd := true)) ∧ (seqUsed (x.seq ++ [{ unit := unit (.tadd 1 2 3 0) 0, body := [] }]) ≤ 16 ↔ n = 15)) ∧
    (∀ n ∈ [15, 16],
      let x := cur (one (core (seqOf n)))
      Goes x (needs [6] [] (ahead := true)) ∧ (15 : BitVec 4).toNat ≤ x.recent.length ∧
      (seqUsed (x.seq ++ [{ unit := unit .twait 0, body := x.recent.drop 0 }]) ≤ 16 ↔ n = 15)) ∧
    (let x := cur (one (core (seqOf 14))); x.recent.length < (15 : BitVec 4).toNat ∧ x.gens = []) ∧ Goes (ctx []) (needs [] []) := by and_intros <;> decide +kernel

theorem witness_TileDispatch : tileNeeds (.tadd 1 2 3 0) = some (needs [] [] (ahead := true) (rnd := true)) := rfl

/-- A tile of 10 by 12 elements with its last row and column outside the valid extent. -/
def tile (b : Nat) (f : Fmt) (rows cols : Nat) : Tile :=
  { base := b, rows := rows, cols := cols, pitch := 128, fmt := f, vrows := rows - 1, vcols := cols - 1, fill := 2 }

/-- Tiles 1 and 2 share their place; 3, 4 have their own. -/
def tiles4 (f : Fmt) : Vector (Option Tile) 16 :=
  (((Vector.replicate 16 none).set! 1 (some (tile 0x1000 f 10 12))).set! 2 (some (tile 0x1000 f 10 12))).set! 3 (some (tile 0x1800 f 10 12))

/-- A core whose tile stream is at a unit, which has begun at a row or not. -/
def tiled (u : TileUnit) (f : Fmt) (row : Option Nat) : State :=
  paged (one (core { ctx [] with
    seq := [{ unit := u, body := [] }], tiles := tiles4 f,
    run := match row with | none => resetRun | some r => { resetRun with begun := true, row := r } }))

theorem tiled_seq (u : TileUnit) (f : Fmt) (row : Option Nat) : (getCtx (tiled u f row) 0).seq = [{ unit := u, body := [] }] := rfl

/-- What every statement about a unit supposes of its stream. -/
def Begins (s : State) (u : TileUnit) : Prop :=
  StreamFree s 0 u ∧ (getCtx s 0).run.begun = false ∧ u.gen = none ∧ (getCtx s 0).run.popped = none ∧ (getCtx s 0).run.fromPool = 0

/-- A binding of legal fields and one with too many columns; a shape; a clamped and an unclamped extent; TGET with room; MFREE. -/
theorem witness_BindingUnits :
    (∀ n ∈ [0x8130901000, 0xBE70901000],
      let u := unit (.tbind 1 5 0 0) (BitVec.ofNat 64 n)
      Begins (tiled u .fp32 none) u ∧ poppedQueue u.instr = none ∧ ((bindOf u.gval 0).isSome ↔ n = 0x8130901000)) ∧
    (let u := unit (.tshape 1 5 0) 0x70400000
     Begins (tiled u .fp32 none) u ∧ poppedQueue u.instr = none ∧
     (getTile (getCtx (tiled u .fp32 none) 0) 1).any (fun b => (shapeOf b u.gval).isSome) = true) ∧
    (∀ i ∈ [Instr.tvalid 1 5 0, .tfill 1 3, .tget 1 2 3, .tget 5 0 0, .mfree 1 0, .mfree 0 3],
      let u := unit i 0x5000A
      let s := tiled u .fp32 none
      Begins s u ∧ poppedQueue u.instr = none ∧ (getTile (getCtx s 0) 1).isSome ∧ (getQueue (getCtx s 0) 6).length < 8) := by
  unfold Begins
  and_intros <;> decide +kernel

/-- Both bands of a tile of ten rows, whose sources are the destination. -/
theorem witness_TileElementwise :
    ∀ r ∈ [0, 8], ∀ i ∈ [Instr.tadd 1 2 1 0, .tcvt 1 3, .tscale 1 2 6 0],
      let u := unit i 0x3F800000
      let s := tiled u .fp32 (some r)
      let x := getCtx s 0
      StreamFree s 0 u ∧ x.run.begun = true ∧ x.run.waitLeave = false ∧ x.run.fromPool = 0 ∧ isElementwise i = true ∧
      modeRnd u.xmod ≠ .stoch ∧ (∀ p ∈ operandNames i, TileOk (operandTile x i p.1)) ∧
      beginChecks x i (modeRnd u.xmod) false (some (runValue x u)) = .pass ∧ r < (ops4 x i).d.rows := by decide +kernel

/-- Checks that pass, that fail and that wait; the first and the last valid row of a load and a store, to pages that map, and to one
that does not. -/
theorem witness_TileMovement :
    (∀ p ∈ [(Instr.tadd 1 2 3 0, 0), (.tadd 1 2 4 0, 1), (.tscale 1 3 2 1, 2), (.tldg 1 6 0, 0)],
      let u := unit p.1 0x4000000000001100
      let s := tiled u .fp32 none
      let x := getCtx s 0
      Begins s u ∧ (isElementwise u.instr = true ∨ p.2 = 0) ∧
      (match beginChecks x u.instr (modeRnd u.xmod) false (unitValue x u) with | .pass => 0 | .trap _ _ _ => 1 | .wait => 2) = p.2 ∧
      (p.2 = 0 → (unitValue x u).isSome)) ∧
    (∀ p ∈ [(8, (0x4000000000001100 : Word), true), (0, 0x4000000040000000, false)], ∀ st ∈ [true, false],
      let u := unit (if st then .tstg 1 6 0 else .tldg 1 6 0) p.2.1
      let s := tiled u .fp32 (some p.1)
      let x := getCtx s 0
      let b := tile 0x1000 .fp32 10 12
      let a := runValue x u + BitVec.ofNat 64 (p.1 * b.pitch)
      StreamFree s 0 u ∧ x.run.begun = true ∧ x.run.waitLeave = false ∧ x.run.fromPool = 0 ∧ getTile x 1 = some b ∧ TileOk b ∧
      fmtBits b.fmt % 8 = 0 ∧ p.1 < b.vrows ∧ 0 < b.vcols ∧ spaceOf a = 4 ∧ x.sys.dual = false ∧
      rowFollows s 0 0 u.id a 44 st = false ∧
      (match (if st then rowCheck s 0 a 44 else rowRead s 0 a 44) with | .ok bs => decide (st ∨ bs.length = 44) && p.2.2 | .fail _ _ => !p.2.2 | _ => false) = true) := by
  unfold Begins
  and_intros <;> decide +kernel

/-- A matrix slot of five columns. -/
def slotB : Slot :=
  { emptySlot with state := .ready, fmt := .bf16, k := 12, n := 5, cols := List.replicate 5 [alignBlock .bf16 none (List.replicate 12 0x3F80)] }

/-- The last entries of the array's width; both bands; MMA and MMAL. -/
theorem witness_MatrixUnits :
    (∀ r ∈ [0, 8], ∀ i ∈ [Instr.azero 1 6 0, .amovin 1 6 0, .amovout 1 6 0],
      let u := unit i 0x1F40005
      let s := tiled u .fp32 (some r)
      let x := getCtx s 0
      let b := tile 0x1000 .fp32 10 12
      StreamFree s 0 u ∧ x.run.begun = true ∧ x.run.waitLeave = false ∧ x.run.fromPool = 0 ∧ getTile x 1 = some b ∧ TileOk b ∧
      b.fmt = .fp32 ∧ r < b.rows ∧ (runValue x u).toNat / 2 ^ 16 % 2 ^ 11 + b.cols = arrayWidth (classOf 0) ∧ modeRnd u.xmod ≠ .stoch) ∧
    (∀ r ∈ [0, 8], ∀ i ∈ [Instr.mma 1 6 0 0 2, .mmal 1 6 0 0 2],
      let u := unit i 0x1FB0005
      let s := modCore (tiled u .bf16 (some r)) 0 (fun k => { k with slots := k.slots.set! 2 slotB })
      let x := getCtx s 0
      let b := tile 0x1000 .bf16 10 12
      StreamFree s 0 u ∧ x.run.begun = true ∧ x.run.waitLeave = false ∧ x.run.fromPool = 0 ∧
      (mmaForm i).any (fun f => f.offs.isNone && f.groups == 1 && f.a == 1 && f.slot == 2) = true ∧ getTile x 1 = some b ∧ TileOk b ∧
      r < b.rows ∧ (runValue x u).toNat / 2 ^ 16 % 2 ^ 11 + (getSlot (getCore s 0) 2).n ≤ arrayWidth (classOf 0) ∧
      (match slotsStand (getCore s 0) i with | .pass => true | _ => false) = true) := by and_intros <;> decide +kernel

/-! ### Witnesses: tasks, messages, gangs, barriers, rounds, counters -/

/-- A task's context with operands for the task instructions. -/
def taskCtx (rs : List (BitVec 5 × Word)) : Ctx := { ctx rs with sys := { resetSys with tid := 0x30003 } }

/-- A stored message for the task of generation number g. -/
def mail (g : Nat) : Mail := { gen := g, sender := 5, kind := 1, body := [7, 8, 9, 10] }

/-- A message on its way to a core. -/
def arriving (b : TaskBody) (t : Nat) (k : Core) : State :=
  setCore { launched (core (markAs (taskCtx []) 6 (.op 40))) with ops := [opOf 40 6 .task], msgs := [msg b t] } 1 k

/-- A deque with its last place free, and a full one; the distributor's buffer. -/
theorem witness_Spawn :
    ∀ n ∈ [63, 64],
      let s := one { core (taskCtx [(5, 0x1000), (4, 1)]) with deque := List.replicate n { record := rec1, reserved := none, after := (7, 1) } }
      Goes (cur s) (needs (5 :: groupRegs (1#3 ++ 0#2) 4) [6]) ∧ holdsStores (cur s) = false ∧ (cur s).sys.dual = false ∧
      ((getCore s s.focus).deque.length < 64 ↔ n = 63) ∧
      (s.dualWaits.filter (fun w => w.part == (partOf s s.focus).getD 0)).length < 256 := by decide +kernel

/-- The four messages; mail in front of the task's own and none; each arrival with room, and where it is refused. -/
theorem witness_Messages :
    (let s := run [(5, 0x0003000000001000), (4, 1)]
     holdsStores (cur s) = false ∧ (cur s).sys.dual = false ∧ (cur s).act = some act1 ∧ act1.pair = none ∧
     Goes (cur s) (needs (5 :: groupRegs (1#3 ++ 0#2) 4) [6]) ∧ Goes (cur s) (needs [5, 4] [6])) ∧
    (∀ l ∈ [[5, 3, 3], [5]],
      let s := one { core (taskCtx []) with mail := l.map mail }
      Goes (cur s) (needs [] (6 :: groupRegs (1#3 ++ 0#2) 4)) ∧ holdsLoads (cur s) = false ∧ (cur s).sys.dual = false ∧
      (nameGen (cur s).sys.tid).toNat = 3 ∧ ((∀ e ∈ (getCore s s.focus).mail, e.gen ≠ 3) ↔ l = [5])) ∧
    (∀ k ∈ [idle1, { idle1 with aq := Vector.replicate 16 (.round 1) }],
      let s := arriving (.callat rec1) 1 k
      let m := msg (.callat rec1) 1
      findMsg s 41 = some m ∧ msgWaits s m = false ∧ taskReach s 0 1 0 = none ∧ Awaits s (opOf 40 6 .task) ∧ k.launch = none ∧ mayRun 1 1 = true ∧
      ((freeAq k).isSome ↔ k = idle1)) ∧
    (∀ p ∈ [(3, 0), (3, 31), (4, 0)],
      let s := arriving (.mail 1 (0x10000 + p.1) [1, 2, 3, 4]) 1 { busy1 with mail := List.replicate p.2 (mail 3) }
      let m := msg (.mail 1 (0x10000 + p.1) [1, 2, 3, 4]) 1
      let k := getCore s 1
      findMsg s 41 = some m ∧ msgWaits s m = false ∧ taskReach s 0 1 0 = none ∧ Awaits s (opOf 40 6 .task) ∧ k.sealedStore = false ∧
      k.sealedGens.contains p.1 = false ∧ dualName k (BitVec.ofNat 28 (0x10000 + p.1)) = false ∧ k.mail.length < 32 ∧
      ((∃ e ∈ k.live, e.gen = p.1) ↔ p.1 = 3)) := by
  and_intros <;> decide +kernel

/-- Cores that wait in GANG, and members. -/
def waiting (n : Nat) : Core := { core (ctx []) with gang := .waiting n 6 50 }
def member (i : Nat) (q : List SeqEntry) : Core := { core { ctx [] with seq := q } with gang := .member 0 2 i 6 50 100 }

/-- A SPAWN's task, GANG in an urgent activation, first, last and against another size; GSYNC and UNGANG outside a gang, and in one
whose units are done or not; END behind a unit, and of a task without and with a registration. -/
theorem witness_TasksAndGangs :
    Goes (ctx []) (needs [] [6]) ∧ Goes (ctx []) (needs [] []) ∧
    (let s := one (core { ctx [] with sys := { resetSys with urg := true } }); (cur s).sys.urg = true) ∧
    (∀ k ∈ [core (ctx []), waiting 2, waiting 4], ∀ f ∈ [0, 1],
      let s : State := { setCore (setCore (run []) 1 (core (ctx []))) (1 - f) k with focus := f }
      (cur s).sys.urg = false ∧ (getCore s f).gang = .none ∧ (getCore s f).state = .running ∧ (cur s).pfx = none ∧
      boundElsewhere s f 2 = false ∧ (waitsGang 2 (getCore s (1 - f)) = true ↔ k.gang = .waiting 2 6 50) ∧
      (waitsOther 2 (getCore s (1 - f)) = true ↔ k.gang = .waiting 4 6 50)) ∧
    inGang (getCore (run []) 0) = false ∧
    (∀ b ∈ [true, false],
      let s := setCore (one (member 0 [])) 1 (member 1 (if b then [{ unit := unit (.tneg 1 2) 0, body := [] }] else []))
      inGang (getCore s 0) = true ∧ (gangMembers s 0).any (fun m => !(getCtx s m).seq.isEmpty) = b) ∧
    (∀ b ∈ [true, false],
      let k := { busy1 with ctx := { taskCtx [] with seq := if b then [{ unit := unit (.tneg 1 2) 0, body := [] }] else [] } }
      let s := launched k
      Goes (cur s) (needs [] []) ∧ ((cur s).seq.isEmpty = !b) ∧ (getCore s 0).gang = .none ∧ (getCore s 0).susp = none ∧
      hasReg (getCore s 0) 3 = false) := by and_intros <;> decide +kernel

/-- A core with a barrier object at 0x100, its registers 5 and 6 given. -/
def barred (armed : Bool) (e n : Nat) (a b : Word) : State :=
  launched { busy1 with ctx := taskCtx [(5, a), (6, b)], spad := memWrite [] 0x100 (leBytes 8 n ++ leBytes 8 (e + if armed then 2 ^ 63 else 0)) }

/-- An object that is not armed, one not reached, and one reached; the greatest argument; BARW on each. -/
theorem witness_Barriers :
    (∀ p ∈ [(false, 5, 3), (true, 5, 4), (true, 5, 5)],
      let s := barred p.1 p.2.1 p.2.2 0x100 0x7FFFFFFFFFFFFFFF
      let u := withCur s (passUnit (cur s))
      let o := readBar s 0 0x100
      Goes (cur s) (needs [5, 6] [7]) ∧ Goes (cur s) (needs [5] [7]) ∧ localOff 0 0x100 16 = some 0x100 ∧
      barPending u 0 0x100 = false ∧ barPending s 0 0x100 = false ∧ relNow u 0 = true ∧ localBusy u 0 0x100 16 true = false ∧
      localBusy u 0 0x100 16 false = false ∧ holdsLoads (cur s) = false ∧ (regVal (cur s) 6).toNat < 2 ^ 63 ∧ o = { armed := p.1, expect := p.2.1, count := p.2.2 }) ∧
    (∀ p ∈ [(false, 5, 3), (true, 5, 4), (true, 5, 5)],
      let s := barred p.1 p.2.1 p.2.2 0 0
      let s : State := { setCtx s 0 (markAs (getCtx s 0) 6 (.op 40)) with ops := [opOf 40 6 (.barw 0x100)] }
      findOp s 40 = some (opOf 40 6 (.barw 0x100)) ∧ runsSerial (getCtx s 0) 7 = true ∧ (getReg (getCtx s 0) 6).mark = .op 40 ∧
      reloading s 0 0x100 16 = false ∧ readBar s 0 0x100 = { armed := p.1, expect := p.2.1, count := p.2.2 }) := by and_intros <;> decide +kernel

/-- A round, open with n closes of its group of two. -/
def round9 (n : Nat) : RoundEntry := { valid := true, round := 9, group := 2, base := 0x2000, limit := 0x3000, rows := 3, closed := n, entry := 0x5000, prio := 1, aq := 7 }

/-- A core with a round descriptor at 0x200, and that round open or not. -/
def rounds (r : Option RoundEntry) (aq : AqEntry) (a b : Word) : State :=
  { launched { core (taskCtx [(5, a), (6, b)]) with
      spad := memWrite [] 0x200 (leBytes 2 9 ++ [2, 1] ++ leBytes 4 0 ++ leBytes 4 0x2000 ++ leBytes 4 0x3000 ++ leBytes 6 0x5000),
      rounds := match r with | some e => (Vector.replicate 16 emptyRound).set! 3 e | none => Vector.replicate 16 emptyRound,
      aq := match r with | some _ => (Vector.replicate 16 AqEntry.free).set! 7 aq | none => Vector.replicate 16 aq } with
    groups := [(2, { valid := true, ltag := 1, members := [0, 1] })] }

/-- A round opened, in use, and without a queue entry; one withdrawn and one that is not there; a close before the last and the last;
a counter of the scratchpad, the XFREE counter and an address that is none; a reading below its threshold and at it. -/
theorem witness_RoundsAndCounters :
    (∀ p ∈ [(none, AqEntry.free), (some (round9 0), .round 9), (none, .round 4)],
      let s := rounds p.1 p.2 0x200 0x8000000000000000
      let u := withCur s (passUnit (cur s))
      let e := { round9 0 with rows := 0, aq := 0 }
      Goes (cur s) (needs [5, 6] [7]) ∧ relNow u 0 = true ∧ (regVal (cur s) 6).toNat / 2 ^ 62 = 2 ∧ localOff 0 0x200 32 = some 0x200 ∧
      localBusy u 0 0x200 32 false = false ∧ roundOf (spadRead s 0 0x200 32) = some e ∧ (groupOf s 0 2).valid = true ∧
      (getCore s 0).launch = some (groupOf s 0 2).ltag ∧
      ((∃ r ∈ (getCore s 0).rounds.toList, r.valid = true ∧ r.round = 9) ↔ p.1.isSome) ∧ (freeRound (getCore s 0)).isSome ∧
      ((freeAq (getCore s 0)).isSome ↔ p.2 ≠ .round 4)) ∧
    (∀ r ∈ [some (round9 0), none],
      let s := rounds r (.round 9) 9 0xC000000000000000
      Goes (cur s) (needs [5, 6] [7]) ∧ relNow (withCur s (passUnit (cur s))) 0 = true ∧ (regVal (cur s) 6).toNat / 2 ^ 62 = 3 ∧
      (getCore s 0).rounds.toList.find? (fun e => e.valid && e.round == 9) = r) ∧
    (∀ n ∈ [0, 1],
      let s : State := { rounds (some (round9 n)) (.round 9) 0 0 with msgs := [msg (.rndclose 9) 0] }
      let m := msg (.rndclose 9) 0
      findMsg s 41 = some m ∧ msgWaits s m = false ∧ taskReach s 0 0 0 = none ∧
      (getCore s 0).rounds.toList.find? (fun r => r.valid && r.round == 9) = some (round9 n) ∧ (groupOf s 0 2).members.length = 2) ∧
    (let s := barred false 0 0 0x100 5
     let u := withCur s (passUnit (cur s))
     Goes (cur s) (needs [5, 6] [7]) ∧ counterSpace 0x4000000000000108 = true ∧ counterSpace 0x2000000000000000 = false ∧
     (0x2000000000000000 : Word) ≠ xfreeDesignator ∧ (∀ r ∈ localRange 0 0x100 8, localBusy u 0 r.1 r.2 false = false) ∧
     holdsLoads (cur s) = false ∧ placeOf 0 0x100 = .spad 0x100 ∧ holdsStores (cur s) = false ∧ localBusy u 0 0x100 8 true = false ∧
     releaseReady u 0 (genOf (cur s)) (passUnit (cur s)) 3 s.nextId = true ∧ tileMemBusy u 0 0x4000000000000108 8 false = false ∧
     (cur s).sys.dual = false) ∧
    (let s := setCtx (barred false 0 0 0x4000000000000108 5) 0 { taskCtx [(5, 0x4000000000000108)] with sys := { resetSys with dual := true } }
     Goes (cur s) (needs [5, 6] [7]) ∧ (cur s).sys.dual = true ∧ holdsStores (cur s) = false) ∧
    (let s := { barred false 0 0 0x100 5 with focus := 0 }
     let t := setCore s 0 { getCore s 0 with waited := [((1, 0x100), 8)], spad := memWrite [] 0x100 [9] }
     ((1, 0x100), 8) ∈ (getCore t 0).waited ∧ (getCtx t 0).act ≠ none ∧ placeOut s 0 ((1, 0x100), 8) = false ∧
     placeOut t 0 ((1, 0x100), 8) = false ∧ placeVal s 0 ((1, 0x100), 8) ≠ placeVal t 0 ((1, 0x100), 8)) ∧
    (∀ n ∈ [5, 6],
      let o := opOf 40 6 (.cntrd xfreeDesignator (BitVec.ofNat 64 n))
      let s : State := { launched { busy1 with ctx := markAs (taskCtx []) 6 (.op 40) } with ops := [o] }
      findOp s 40 = some o ∧ runsSerial (getCtx s 0) 7 = true ∧ (getReg (getCtx s 0) 6).mark = .op 40 ∧
      (getCore s 0).live.find? (fun e => e.gen == (nameGen (getCtx s 0).sys.tid).toNat) = some { gen := 3, xfree := 5, tally := noFails }) := by and_intros <;> decide +kernel

/-! ### Witnesses: copies and multicasts -/

/-- A copy of n rows of 20 bytes from a virtual address to an address. -/
def cx1 (src dst : Word) (n : Nat) : Cx :=
  { src := src, dst := dst, rows := BitVec.ofNat 17 n, rbytes := 20, rstride := 0x20, wstride := 0x40, bypass := false, qos := 0 }

/-- An index column, and tile 1 over it. -/
def tileI : Tile := { base := 0x1000, rows := 4, cols := 1, pitch := 64, fmt := .i32, vrows := 4, vcols := 1, fill := 2 }
def memI (is : List Nat) : Memory :=
  (List.range is.length).foldl (fun m i => memWrite m (0x1000 + i * 64) (leBytes 4 (is.getD i 0))) []

/-- A core about to issue a copy. -/
def copying (cx : Cx) (is : List Nat) : State :=
  paged (launched { core { ctx [] with sys := { resetSys with tid := 3, cx := cx }, tiles := (Vector.replicate 16 none).set! 1 (some tileI) } with spad := memI is })

/-- A copy of core 0 in flight, for which register 6 waits. -/
def copies (p : CopyOp) : State :=
  { paged (launched (core (markAs (ctx []) 6 (.op 40)))) with ops := [opOf 40 6 (.copy p)] }

/-- Copies with rows to perform, without, and out of range, before the tile stream; a register to cancel that is clear, and one that
waits for a copy. -/
theorem witness_Copies :
    (∀ q ∈ [((0xBFF6C : Nat), 3, 1), (0xBFF6D, 3, 1), (0x2000, 0, 1), (0x2000, 2, 0xFFFFFFFF)],
      let s := copying (cx1 0x4000000000001100 (BitVec.ofNat 64 q.1) q.2.1) [q.2.2, 0xFFFFFFFF, 2]
      let x := cur s
      let u := withCur s (passUnit x)
      Goes x (needs [] [6] (ord := true)) ∧ Goes x (needs [] []) ∧ copiesFull s 0 = false ∧ holdsStores x = false ∧ x.seq.isEmpty = true ∧
      getTile x 1 = some tileI ∧ tileI.cols = 1 ∧ x.sys.cx.rows.toNat ≤ tileI.rows ∧ tileReady u 0 tileI false = true ∧
      (getReg x 6).mark = .clear) ∧
    (∀ q ∈ [((0xBFF6C : Nat), 3, 1), (0xBFF6D, 3, 1), (0x2000, 0, 1), (0x2000, 2, 0xFFFFFFFF)],
      let s := copying (cx1 0x4000000000001100 (BitVec.ofNat 64 q.1) q.2.1) [q.2.2, 0xFFFFFFFF, 2]
      let x := cur s
      let u := withCur s (passUnit x)
      let idx := indexColumn (getCore s 0).spad tileI x.sys.cx.rows.toNat
      (∀ p ∈ [newCopy .copy x.sys.cx [] false, newCopy .gather x.sys.cx idx false],
        (copyArgsOk u 0 p = true ↔ q.1 ≠ 0xBFF6D ∧ q.2.1 ≠ 0) ∧ copyTileBusy u 0 p = false) ∧
      (∀ p ∈ [newCopy .gather x.sys.cx idx false, newCopy .scatter x.sys.cx idx false],
        (copyArgsOk u 0 p = true ↔ q.2.1 ≠ 0 ∧ ((p.kind == .scatter) = true ∨ q.1 ≠ 0xBFF6D)) ∧ copyTileBusy u 0 p = false ∧
        (q.2.1 ≠ 0 → (copyOpen p = [] ↔ q.2.2 = 0xFFFFFFFF)))) ∧
    (let p := newCopy .gather (cx1 0x4000000000001100 0x2000 3) [2, -1, 1] false
     let o := opOf 40 6 (.copy p)
     let s := copies p
     findOp s 40 = some o ∧ (getReg (cur s) 6).mark = .op 40 ∧ Goes (cur s) (needs [] []) ∧ o.serial = serialOf (cur s) ∧
     runsSerial (cur s) 7 = true ∧ p.parked = [] ∧ p.failed = [] ∧ copyOpen p ≠ []) := by and_intros <;> decide +kernel

/-- A row with others left and the last one, from a page, from one that is not mapped, and from one without permission. -/
theorem witness_CopyRows :
    ∀ a ∈ [(0x1100 : Nat), 0x40000000, 0x80000000], ∀ n ∈ [1, 3],
      let p := newCopy .copy (cx1 (BitVec.ofNat 64 (0x4000000000000000 + a)) 0x2000 n) [] false
      let o := opOf 40 6 (.copy p)
      let s := copies p
      findOp s 40 = some o ∧ 0 ∈ copyOpen p ∧ rowParked s 40 0 = false ∧ p.failed = [] ∧ p.cancelled = false ∧ p.dead = false ∧
      p.parked = [] ∧ opReleased s o false 4 = true ∧ lowerRowOpen s o p 0 = false ∧
      (∀ r ∈ localRange 0 (BitVec.ofNat 64 (0x4000000000000000 + a)) 20, engineBusy s 0 r.1 r.2 false 40 = false) ∧
      (∀ r ∈ localRange 0 0x2000 20, engineBusy s 0 r.1 r.2 true 40 = false) ∧ placeOf 0 0x2000 = .spad 0x2000 ∧
      (match rowCheck s 0 0x2000 20 with | .ok _ => true | _ => false) = true ∧
      placesMeet (sourcePlaces s o p) (rowPlaces s o p false 0) = false ∧ runsSerial (getCtx s 0) 7 = true ∧
      (getReg (getCtx s 0) 6).mark = .op 40 ∧ (copyOpen p = [0] ↔ n = 1) ∧
      (match rowRead s 0 (BitVec.ofNat 64 (0x4000000000000000 + a)) 20 with
        | .ok bs => decide (bs.length = 20 ∧ a = 0x1100) | .fail 0 _ => decide (a = 0x40000000) | .fail 1 _ => decide (a = 0x80000000)
        | _ => false) = true ∧ s.fq = [] := by decide +kernel

/-- A source tile of two rows of 16 valid bytes. -/
def tileF : Tile := { base := 0x1000, rows := 2, cols := 5, pitch := 64, fmt := .fp32, vrows := 2, vcols := 4, fill := 2 }

/-- Cores 0 and 1 in group 2, with operands of a multicast and a reservation. -/
def casting (v w : Word) (held : BitVec 16) (dual : Bool) : State :=
  setCore { paged (launched { core (markAs { ctx [(5, v), (6, w)] with
      sys := { resetSys with tid := 3, held := held, dual := dual, cx := { resetSys.cx with dst := 2 } },
      tiles := (Vector.replicate 16 none).set! 1 (some tileF) } 7 (.op 40)) with live := [{ gen := 3, xfree := 5, tally := noFails }] }) with
    groups := [(2, { valid := true, ltag := 1, members := [0, 1] })] } 1 busy1

/-- Receivers 0 and 1, and a multicast to them. -/
def recv (k : Nat) (done : Bool) (code : Nat) : Receiver := { rank := k, core := k, egen := 0, done := done, code := code, freed := false }
def mcast (rd : Bool) (w : Word) (loaded ended : Bool) (rs : List Receiver) : McastOp :=
  { read := rd, tile := tileF, word := w, src := 0x4000000000001100,
    rows := if rd || !loaded then [] else [List.replicate 16 1, List.replicate 16 2], rel := false, name := 3, receivers := rs,
    linesDone := [], loaded := loaded, srcFail := false, ended := ended }

/-- A mask of both members and an empty mask; exactly the leave that XMCAST needs; an XMREAD; a dual copy; an unbound tile. -/
theorem witness_Multicasts :
    (∀ du ∈ [false, true], ∀ m ∈ [3, 0],
      let s := casting 2 (BitVec.ofNat 64 m) 4 du
      let x := cur s
      Goes x (needs [5, 6] [8] (ord := true)) ∧ copiesFull s 0 = false ∧ holdsStores x = false ∧ x.seq.isEmpty = true ∧
      (mcastTile x 2).isNone ∧ mcastTile x 1 = some tileF ∧ x.sys.dual = du ∧
      (mcastArgsOk s 0 tileF (regVal x 5) (regVal x 6) = true ↔ m = 3) ∧ tileReady (withCur s (passUnit x)) 0 tileF false = true ∧
      heldInUse s 0 + 4 ≤ x.sys.held.toNat ∧ Goes x (needs [5] [])) ∧
    (let s := casting 0x4000000000001100 3 0 false
     let x := cur s
     Goes x (needs [5, 6] [8] (ord := true)) ∧ (regVal x 5).toNat % 64 = 0 ∧ x.sys.dual = false ∧ spaceOf (regVal x 5) = 4 ∧
     mcastArgsOk s 0 tileF x.sys.cx.dst (regVal x 6) = true) := by and_intros <;> decide +kernel

/-- A delivery before the source is read and after, counted or not; the end with a failed receiver; notices that find nothing, the
first and the last receiver; a request that opens an entry, joins one or faults; a first sector and the last. -/
theorem witness_MulticastAgenda :
    (∀ w ∈ [2, 0x300000000002], ∀ b ∈ [false, true],
      let m := mcast false (BitVec.ofNat 64 (w + if w = 2 then 0 else 2 ^ 28)) b false [recv 0 false 0, recv 1 false 0]
      let o := opOf 40 7 (.mcast m)
      let s : State := { casting 0 0 9 false with ops := [o] }
      findOp s 40 = some o ∧ m.ended = false ∧ m.receivers.find? (fun e => e.rank == 1 && receiverOpen e) = some (recv 1 false 0) ∧
      m.read = false ∧ opReleased s o false 4 = true ∧ mcastBefore s o 1 = false ∧ peerKind s 0 1 0 = none ∧
      (∀ i < 2, placeBusy s o 1 (tileF.base + i * tileF.pitch) (validBytes tileF) = false) ∧ (∀ bs ∈ m.rows, bs.length ≤ tileF.pitch) ∧
      (wordCnt m.word = true ↔ w ≠ 2) ∧ (wordCnt m.word = true → reloading s 1 (wordBoff m.word) 16 = false) ∧
      (∀ i < 2, meets (tileF.base + i * tileF.pitch) 16 (wordBoff m.word) 16 = false)) ∧
    (let m := mcast false 2 true false [recv 0 true 0, recv 1 false 2]
     let o := opOf 40 7 (.mcast m)
     let s : State := { casting 0 0 9 false with ops := [o] }
     findOp s 40 = some o ∧ m.ended = false ∧ (∀ r ∈ m.receivers, receiverOpen r = false) ∧ runsSerial (getCtx s 0) 7 = true ∧
     (getReg (getCtx s 0) 7).mark = .op 40) ∧
    (∀ n ∈ [3, 4], ∀ f ∈ [true, false],
      let m := mcast false 2 true true [{ recv 0 true 0 with freed := f }, recv 1 true 0]
      let o := opOf 40 7 (.mcast m)
      let g : TaskMsg := { msg (.xfree n) 0 with core := 1 }
      let s : State := { casting 0 0 9 false with ops := [o], msgs := [g] }
      findMsg s 41 = some g ∧ msgWaits s g = false ∧ (m.name = n ↔ n = 3) ∧ oldestMcast s 3 = some (o, m) ∧
      (∃ r ∈ m.receivers, r.core = 1 ∧ r.freed = false) ∧ allFreed { m with receivers := freeReceiver 1 m.receivers } = f ∧
      oldestMcast (dropOp s 40) 3 = none ∧ counterVal s (.staleXfree 0) < 2 ^ 32 - 1) ∧
    (∀ a ∈ [(0x1100 : Nat), 0x40000000], ∀ l ∈ [([] : List Nat), [77]],
      let m := { mcast true 2 true false [recv 0 false 0, recv 1 false 0] with src := BitVec.ofNat 64 (0x4000000000000000 + a) }
      let o := opOf 40 7 (.mcast m)
      let s : State := { casting 0 0 9 false with
        ops := [o, opOf 77 8 (.mcast m)],
        merges := l.map (fun i => { id := 60, ops := [i], row := 0, off := 0, len := 16, pa := 0x1100, sent := 0, cores := [(0, 0), (1, 0)], late := [] }) }
      findOp s 40 = some o ∧ m.read = true ∧ m.ended = false ∧ (readPiecesOf m)[0]? = some (0, 0, 16) ∧
      (∀ e ∈ s.merges, ¬ (40 ∈ e.ops ∧ e.row = 0 ∧ e.off = 0)) ∧ m.linesDone = [] ∧ opReleased s o false 4 = true ∧
      (∀ c ∈ openCores m, mcastBefore s o c.1 = false) ∧
      lineWalk s 0 (m.src + BitVec.ofNat 64 0) 16 = (if a = 0x1100 then .page 0x1100 else .fault) ∧
      ((entryFor s o 0 0 0x1100).isSome ↔ l = [77])) ∧
    (∀ n ∈ [16, 128],
      let m := { mcast true 2 true false [recv 0 false 0, recv 1 false 0] with tile := { tileF with cols := 32, vcols := n / 4, pitch := 128 } }
      let o := opOf 40 7 (.mcast m)
      let e : MergeEntry := { id := 60, ops := [40], row := 0, off := 0, len := n, pa := 0x1100, sent := 0, cores := openCores m, late := [] }
      let s : State := { casting 0 0 9 false with ops := [o], merges := [e] }
      findOp s 40 = some o ∧ m.read = true ∧ m.ended = false ∧ s.merges.find? (fun f => f.id == 60) = some e ∧ e.cores ≠ [] ∧
      (∀ r ∈ m.receivers, peerKind s 0 r.core r.egen = none) ∧ (∀ c ∈ e.cores, entryBusy s e m c = false) ∧ wordCnt m.word = false ∧
      sectorBad s 0x1100 n = false ∧ (e.sent + 1 < sectorsOf 0x1100 n ↔ n = 128)) := by and_intros <;> decide +kernel

/-! ### Witnesses: the key space -/

/-- A source tile of 2 rows of 16 valid bytes. -/
def tileK : Tile := { base := 0x1000, rows := 2, cols := 5, pitch := 64, fmt := .fp32, vrows := 2, vcols := 4, fill := 2 }

/-- A core with a key in registers 4 to 7, a template in 8 to 15 and an image at 0x400 whose length field is n. -/
def keying (field0 : Word) (n : Nat) (e : AqEntry) (keep : Nat) : State :=
  { paged (launched { core { ctx [(4, 1), (5, 2), (6, 3), (7, 4), (8, 1), (9, 2), (10, 3), (11, 4), (12, field0), (13, 0xFFFFFFFF), (25, 0x400)] with
      sys := { resetSys with tid := 3 }, tiles := (Vector.replicate 16 none).set! 1 (some tileK) } with
      spad := memWrite [] 0x400 (leBytes 32 0 ++ leBytes 4 n ++ leBytes 4 0x40020), aq := Vector.replicate 16 e }) with
    launches := [{ l1 with regions := [{ attr := 0, offset := 0, size := keep, fill := 0 }] }],
    homeMap := { gen := 7, ranges := [{ lo := 0, home := 2 }] } }

/-- Issue with every operand; a mask that leaves field 0 open; the longest image and one too long; a full queue; a destination outside
the KEEP regions; KMAP; KSTAT of a home that is there, of one that is not, and of the first and last selector. -/
theorem witness_KeyOperations :
    (∀ f ∈ [(0xFFFFFFFFFFFFFFFF : Nat), 0xFFFFFFFFFFFFFF00],
      let s := keying (BitVec.ofNat 64 f) (2 ^ 19) .free 0x2000
      let x := cur s
      x.act = some act1 ∧ act1.pair = none ∧ holdsStores x = false ∧ keysFull s 0 = false) ∧
    (∀ f ∈ [(0xFFFFFFFFFFFFFFFF : Nat), 0xFFFFFFFFFFFFFF00],
      let s := keying (BitVec.ofNat 64 f) (2 ^ 19) .free 0x2000
      let x := cur s
      Goes x (needs (groupRegs (quadReg 1) 4) [20]) ∧ Goes x (needs (25 :: groupRegs (quadReg 1) 4) [20]) ∧
      (maskOk (groupKey x (octReg 1 + 4)) = true ↔ f = 0xFFFFFFFFFFFFFFFF) ∧ x.seq.isEmpty = true) ∧
    (let x := cur (keying 0xFFFFFFFFFFFFFFFF (2 ^ 19) .free 0x2000)
     Goes x (needs (groupRegs (octReg 1) 8) [20]) ∧ Goes x (needs (25 :: groupRegs (octReg 1) 8) [20])) ∧
    (∀ n ∈ [2 ^ 19, 2 ^ 20 + 1], ∀ e ∈ [AqEntry.free, .round 1], ∀ keep ∈ [0x1000, 0x2000],
      let s := keying 0xFFFFFFFFFFFFFFFF n e keep
      let x := cur s
      let u := withCur s (passUnit x)
      relDone u 0 (serialOf x) s.nextId 4 = true ∧ getTile x 1 = some tileK ∧ tileReady u 0 tileK false = true ∧
      (regVal x 25).toNat % 64 = 0 ∧ imageOk 0 (regVal x 25) 0 = true ∧ keyImageBusy u 0 (regVal x 25) 64 false = false ∧
      ownWriteAhead s 0 (genOf x) s.nextId (regVal x 25) 64 = false ∧
      (match homeRead s 0 (regVal x 25) 64 with
        | .ok bs => headerWord bs 32 4 == n && headerWord bs 36 4 == 0x40020 | _ => false) = true ∧
      shapeOk 0x40020 = true ∧ (imageOk 0 (regVal x 25) n = true ↔ n = 2 ^ 19) ∧ placeOf 0 (regVal x 25) = .spad 0x400 ∧
      (n = 2 ^ 19 → keyImageBusy u 0 (regVal x 25) (64 + n) false = false) ∧
      ((freeAq (getCore s 0)).isSome ↔ e = .free) ∧ (inKeep (launchOf s 0) tileK = true ↔ keep = 0x2000)) ∧
    (∀ h ∈ [0, 192], ∀ sel ∈ [0, 9, 10],
      let s := run [(4, BitVec.ofNat 64 h), (5, BitVec.ofNat 64 sel)]
      let x := cur s
      Goes x (needs (groupRegs (quadReg 1) 4) [20]) ∧ Goes x (needs [4, 5] [20]) ∧ holdsStores x = false ∧
      relDone (withCur s (passUnit x)) 0 (serialOf x) s.nextId 4 = true ∧ (regVal x 4).toNat % 2 ^ 10 = h ∧
      (regVal x 5).toNat % 16 = sel ∧ (s.domainModules ≤ h / 64 ↔ h = 192) ∧ s.localMod = 0 ∧ h / 64 ∉ s.failedModules) := by and_intros <;> decide +kernel

/-- Keys and a template that matches the first. -/
def keyA : BitVec 256 := 0x7000000000000000600000000000000050000000000000000
def maskA : BitVec 256 := 0xFFFFFFFFFFFFFFFF0000000000000000
def tup (k : BitVec 256) (n len : Nat) : Tuple := { key := k, ctx := 1, seq := n, shape := 0x40020, payload := List.replicate len 5, chain := false }
def req (id : Nat) (a : KeyAsk) : KeyReq :=
  { id := id, issuer := .task 0 7 3 40, ctx := 1, ask := a, hash := 5, home := 2, mapgen := 7, fwd := 0, forwarded := false, held := false,
    tag := none, twin := none, twinRemote := none, assayed := false, chain := false, rid := 0 }
def reads (take poll : Bool) : KeyAsk := .read take keyA maskA poll (.tile tileK)

/-- A request that reached home 2, which stands as given. -/
def homed (r : KeyReq) (ts : List Tuple) (ws : List KeyReq) (size : Nat) : State :=
  { paged (launched (core (ctx []))) with
    keyReqs := [r], homes := [(2, { emptyHome with tuples := ts, waiters := ws, seq := 11, heapSize := size })],
    homeMap := { gen := 7, ranges := [{ lo := 0, home := 2 }] } }

/-- What KEY_HOMES supposes of every request. -/
def Reached (s : State) (r : KeyReq) : Prop :=
  findReq s r.id = some r ∧ r.tag = none ∧ r.assayed = false ∧ r.held = false ∧ keyWaits s r = false ∧ cutWaits s r = false ∧ homeLocal s r.home = true ∧
    homeFor s.homeMap r.hash = r.home ∧ (∀ t ∈ (getHome s r.home).tuples, t.chain = false) ∧
    (∀ w ∈ (getHome s r.home).waiters, w.chain = false) ∧ arrayUsed (getHome s r.home) < matchEntries

/-- Every request with no room, with nothing that matches, and with the oldest match behind one of another template. -/
theorem witness_KeyHomes :
    (∀ n ∈ [0, 4096],
      let r := req 50 (.put keyA 0x40020 [1, 2, 3])
      let s := homed r [] [] n
      Reached s r ∧ (roomFits s 2 (payloadUnits 3) false = true ↔ n = 4096)) ∧
    (let r := req 50 (.put keyA 0x40020 [1, 2, 3])
     let ws := [{ req 60 (reads true false) with ctx := 2 }, req 61 (reads true false)]
     let s := homed r [] ws 4096
     Reached s r ∧ roomFits s 2 (payloadUnits 3) false = true ∧ (getHome s 2).waiters = ws ∧ keyMatches keyA maskA keyA = true) ∧
    (∀ take ∈ [true, false], ∀ poll ∈ [true, false], ∀ ts ∈ [[tup keyA 9 3, tup keyA 4 3], [tup 0 9 3]],
      let r := req 50 (reads take poll)
      let s := homed r ts [] 4096
      Reached s r ∧ contDest (.tile tileK) = false ∧ stillWanted s r (.tile tileK) = true ∧
      (keyMatches keyA maskA (tup keyA 4 3).key = true) ∧ (keyMatches keyA maskA (tup 0 4 3).key = false) ∧ (getHome s 2).tuples = ts) ∧
    (∀ b ∈ [true, false],
      let r := req 50 (.cancel keyA maskA)
      let s := homed r [] [req 60 (reads b false), { req 61 (reads true false) with ctx := 2 }] 4096
      Reached s r ∧ cancels r keyA maskA (req 60 (reads b false)) = true ∧ cancels r keyA 0 (req 60 (reads b false)) = false) ∧
    (let r := req 50 (.redeposit (tup keyA 3 3))
     let s := homed r [] [] 4096
     Reached s r ∧ roomFits s 2 (payloadUnits 3) true = true) ∧
    (let r := { req 50 (reads true false) with issuer := .task 0 8 3 40 }
     let s := homed r [] [] 4096
     Reached s r ∧ stillWanted s r (.tile tileK) = false) := by
  unfold Reached
  and_intros <;> decide +kernel

/-- A delivery on its way. -/
def deliv (a : KeyAnswer) (d : KeyDest) (tw : Bool) : KeyDelivery :=
  { id := 55, home := 2, req := req 50 (.read tw keyA maskA false d), answer := a, held := false }

/-- A core that waits for a delivery in register 6, with continuation entry 4. -/
def awaits (e : KeyDelivery) (as : List KeyAck) : State :=
  { launched { core (markAs (ctx []) 6 (.op 40)) with aq := (Vector.replicate 16 AqEntry.free).set! 15 (.continuation 3 40) } with
    deliveries := [e], ops := [opOf 40 6 .key], acks := as, homes := [(2, { emptyHome with unacked := [tup keyA 4 20] })],
    homeMap := { gen := 7, ranges := [{ lo := 0, home := 2 }] } }

/-- A status, a sample, tuples shorter and longer than the tile, a continuation, and both acknowledgements. -/
theorem witness_KeyDeliveries :
    (∀ n ∈ [0, 32, 33], ∀ take ∈ [true, false], ∀ a ∈ [KeyAnswer.status 6 true, .stat 99, .serve (tup keyA 4 n) take false],
      let e := deliv a (.tile tileK) take
      let s := awaits e []
      s.deliveries.find? (fun f => f.id == 55) = some e ∧ e.req.issuer = .task 0 7 3 40 ∧ e.req.twin.isNone ∧
      findOp s 40 = some (opOf 40 6 .key) ∧ runsSerial (getCtx s 0) 7 = true ∧ (getReg (getCtx s 0) 6).mark = .op 40 ∧
      validBytes tileK ≤ tileK.pitch ∧ tileReloads s 0 tileK = false ∧ tileHeld s 0 40 tileK = false) ∧
    (let e := deliv (.serve (tup keyA 4 32) true false) (.cont 15 40 0x5000 2 tileK) true
     let s := awaits e []
     s.deliveries.find? (fun f => f.id == 55) = some e ∧ e.req.twin.isNone ∧ partLive s 0 = true ∧ (getCore s 0).state ≠ .killed ∧
     (getCore s 0).aq.getD 15 .free = .continuation 3 40 ∧ tileReloads s 0 tileK = false ∧ tileHeld s 0 40 tileK = false) ∧
    (∀ ok ∈ [true, false],
      let a : KeyAck := { id := 56, home := 2, tuple := tup keyA 4 20, hash := 5, rid := 0, ok := ok }
      let s := awaits (deliv (.stat 99) (.tile tileK) true) [a]
      s.acks.find? (fun f => f.id == 56) = some a ∧ homeLocal s a.home = true) := by and_intros <;> decide +kernel

/-! ### Witnesses: splits, maps, dual pairs, other modules, combine buffers -/

/-- A split of home 2 towards home 3, in a phase. -/
def split1 (ph : Nat) : Split := { phase := ph, lo := 0, mid := 1, hi := 2 ^ 32, src := 2, dst := 3, op := 40, copied := [], reserved := 0 }

/-- Home 2 with a tuple and a waiter, and an empty home 3; a supervisor with the operands of a split. -/
def splitting (p : Option Split) (size : Nat) : State :=
  { launched (core { markAs (ctx [(4, 77), (5, 3)]) 6 (.op 40) with sys := { resetSys with sup := true } }) with
    ops := [opOf 40 6 .split], split := p, homeMap := { gen := 7, ranges := [{ lo := 0, home := 2 }] },
    homes := [(2, { emptyHome with tuples := [tup keyA 4 20], waiters := [req 60 (reads true false)], heapSize := 4096 }),
      (3, { emptyHome with heapSize := size })] }

/-- A split that may start and one that finds another; each phase, with room and without; a heap of the largest size beside others, and one
over another. -/
theorem witness_Splits :
    (∀ p ∈ [none, some (split1 1)],
      let s := splitting p 4096
      let x := cur s
      Goes x (needs [4, 5] [7] (priv := true)) ∧ holdsStores x = false ∧ x.sys.dual = false ∧
      coverOf s.homeMap 77 = some { lo := 0, home := 2 } ∧ rangeEnd s.homeMap 0 = 2 ^ 32 ∧ homeLocal s 2 = true ∧
      3 / 64 < s.domainModules ∧ (∀ h ∈ s.homes, h.1 = 3 → h.2.present = true) ∧ 3 ∉ s.absentHomes ∧ lockTaken s = false ∧
      s.homeMap.ranges.length < 1024 ∧ 3 / 64 ∉ s.failedModules ∧ (p = none ↔ s.split = none)) ∧
    (∀ ph ∈ [1, 2, 3], ∀ n ∈ [0, 4096],
      let s := splitting (some (split1 ph)) n
      Awaits s (opOf 40 6 .split) ∧ s.split = some (split1 ph) ∧ opReleased s (opOf 40 6 .split) true 4 = true ∧
      homeLocal s 3 = true ∧ (getHome s 3).tuples = [] ∧ upperTuples s (split1 ph) ≠ [] ∧ upperWaiters s (split1 ph) ≠ [] ∧
      (splitFits s (split1 ph) = true ↔ n = 4096)) ∧
    (∀ b ∈ [65536, 0],
     let s := splitting none 4096
     (getHome s 1).tuples = [] ∧ (getHome s 1).waiters = [] ∧ (getHome s 1).unacked = [] ∧
     (heapGranted s 1 b (48 * 2 ^ 30 - 65536) = true ↔ b = 65536) ∧ homeLocal s 1 = true ∧ (getHome s 2).tuples ≠ []) := by and_intros <;> decide +kernel

/-- A hint that is newer, one of the copy's generation and one that is older; a held request while a cut-over is in progress and after. -/
theorem witness_MapCopies :
    (∀ g ∈ [6, 7, 8],
      let h : MapHint := { id := 5, ni := 1, gen := BitVec.ofNat 32 g, lo := 0, home := 3 }
      let s : State := { splitting none 4096 with hints := [h] }
      s.hints.find? (fun e => e.id == 5) = some h ∧ (genOlder h.gen (mapCopy s 1).gen = true ↔ g = 6)) ∧
    (∀ p ∈ [some (split1 3), none],
      let r := { req 50 (reads true false) with held := true }
      let s : State := { splitting p 4096 with keyReqs := [r] }
      findReq s 50 = some r ∧ s.split = p ∧ (cutInProgress s = true ↔ p = some (split1 3))) := by and_intros <;> decide +kernel

/-- A dual copy's message. -/
def tagged (copy idx : Nat) (h : BitVec 64) (assayed : Bool) : TaskMsg :=
  { msg (.mail 1 0x10003 [1, 2, 3, 4]) 1 with
    id := 41 + copy, op := 40 + 2 * copy, tag := some { pair := 1, copy := copy, idx := idx, hash := h }, assayed := assayed }

/-- Messages at a point that has room or has none, alone, with its twin, and with a twin of another hash. -/
theorem witness_Assay :
    (∀ n ∈ [63, 64],
      let m := tagged 1 0 9 false
      let s : State := { launched (core (ctx [])) with msgs := m :: List.replicate n { tagged 0 1 9 true with id := 99 } }
      findMsg s 42 = some m ∧ m.assayed = false ∧ msgWaits s m = false ∧ twinMsg s m = none ∧ heldAt s (msgPoint m) = n) ∧
    (∀ h ∈ [9, 10],
      let m := tagged 1 0 9 false
      let f := tagged 0 0 (BitVec.ofNat 64 h) true
      let s : State := { launched (core (ctx [])) with msgs := [f, m] }
      findMsg s 42 = some m ∧ m.assayed = false ∧ msgWaits s m = false ∧ twinMsg s m = some f ∧ findMsg s 41 = some f) ∧
    (let m := tagged 0 0 9 true; findMsg { launched (core (ctx [])) with msgs := [m] } 41 = some m ∧ m.assayed = true) := by and_intros <;> decide +kernel

/-- The bytes of a message of module 1 to home 2. -/
def waidric (op len : Nat) (body : List Byte) : List Byte :=
  headBytes { op := op, flags := 0, smod := 1, dhome := 2, mapgen := 8, reqid := 3, task := 0x30003, pairseq := 0, hash := 0,
              status := 0, len := len, seq := 4 } ++ body

/-- A domain of two modules. -/
def domain2 : State :=
  { splitting none 4096 with domainModules := 2, waidric := [(1, { emptyWaidric with outstanding := [(3, req 50 (reads true false))] })] }

/-- Too short a message, one for no present home, a request, a delivery and a map entry. -/
theorem witness_OtherModules :
    readHead [] = none ∧
    (let bs := waidric 2 1 []; (readHead bs).any (fun h => !waidricOk domain2 h bs) = true) ∧
    (∀ p ∈ [(4, 64), (5, 32), (9, 0)],
      let bs := waidric p.1 0 (List.replicate p.2 0)
      (readHead bs).any (fun h => h.op == p.1 && waidricOk domain2 h bs && h.smod == 1 && h.reqid == 3) = true) ∧
    findOutstanding domain2 1 3 = some (req 50 (reads true false)) ∧ (req 50 (reads true false)).served = false ∧
    genOlder 8 domain2.homeMap.gen = false ∧
    (∀ fl ∈ [0, 128],
      let bs := headBytes { op := 1, flags := fl, smod := 1, dhome := 2, mapgen := 8, reqid := 3, task := 0x30003, pairseq := 0, hash := 0,
                            status := 0, len := 0, seq := 4 } ++ List.replicate 32 0
      (readHead bs).any (fun h => decide (h.op ≤ 4) && waidricOk domain2 h bs && (headMoved h == (fl == 128))) = true) ∧
    (let s : State := { domain2 with waidric := [(1, { emptyWaidric with received := 5 })], keyReqs := [{ req 60 (reads true false) with issuer := .module 1 6 7 }] }
     reqAbove 1 5 { req 60 (reads true false) with issuer := .module 1 6 7 } = true ∧ (getWaidric s 1).received = 5 ∧ 60 < s.nextId) := by and_intros <;> decide +kernel

/-- A combine buffer of two rows of eight FP32 sums. -/
def buf1 (eager : Bool) (linger : Nat) : CmbBuf :=
  { ctx := 1, d := 0x1140, desc := { tupleMode := true, eager := eager, policy := 0, ofmt := .fp32, k := 2, cols := 8, opitch := 64, linger := linger,
                                     timeout := 100, cnt := 0, rwbase := 0x4000000000002000, obase := 0 } }
/-- A slot of that buffer, with the rows given. -/
def cslot (tok : Nat) (st : CmbState) (rows : List (Option (List (BitVec 32)))) : CmbSlot :=
  { ctx := 1, d := 0x1140, token := tok, experts := [3, 5], weights := [0x3F800000, 0x3F800000], rows := rows, lateBits := [], state := st,
    subst := 1, closed := false, late := false, result := [], present := 2, countdown := if st = .complete then 0 else 100, opening := 1, order := 0 }
/-- A combine command for that buffer. -/
def cmb (a : CmbAsk) : CmbMsg := { id := 41, core := 0, serial := 7, op := 40, ctx := 1, d := 0x1140, slice := 0, rel := false, ask := a }

/-- A core with the tiles and registers of the combine commands, and the slice of its buffer. -/
def combining (dual : Bool) (w y : Tile) (v : CmbSlice) (ms : List CmbMsg) : State :=
  { paged (launched (core { markAs (ctx [(4, 0x7000000001140), (5, 2)]) 6 (.op 40) with
      sys := { resetSys with dual := dual }, tiles := ((Vector.replicate 16 none).set! 1 (some w)).set! 2 (some y) })) with
    ops := [opOf 40 6 .cmb], cmbMsgs := ms, slices := [(sliceOf 0x1140, v)] }

/-- Tiles for CMBOPEN and for CMBPUT, in each mode; CMBSTAT of a token with a slot and of one without. -/
theorem witness_CombineCommands :
    (∀ du ∈ [false, true], ∀ n ∈ [2, 1],
      let y : Tile := { tileF with base := 0x2000, fmt := .i32, cols := if n = 1 then 1 else 5 }
      let s := combining du tileF y emptySlice []
      let x := cur s
      let u := withCur s (passUnit x)
      Goes x (needs [4, 5] [7] (ord := true)) ∧ cmbBusy s 0 = false ∧ (regVal x 4).toNat % 2 ^ 48 % 64 = 0 ∧ x.seq.isEmpty = true ∧
      getTile x 1 = some tileF ∧ getTile x (1 + 1) = some y ∧ tileF.rows = y.rows ∧ tileReady u 0 tileF false = true ∧
      tileReady u 0 y false = true ∧ (regVal x 5).toNat % 2 ^ 10 = tileF.rows ∧ (tileF.cols = y.cols ↔ n = 2) ∧ (y.cols = 1 ↔ n = 1) ∧
      modeRel (unitXmod x) = true ∧ relDone u 0 (serialOf x) s.nextId 3 = true) ∧
    (∀ tok ∈ [7, 8],
      let s := combining false tileF tileF { bufs := [buf1 true 0], slots := [(0, some (cslot tok .opened [none, none]))], waiting := [] } []
      let x := cur s
      Goes x (needs [4, 5] [7]) ∧ Goes x (needs [4] [7]) ∧ s.cmbMsgs = [] ∧
      (match cmbPlace s 0 (ctxOf s 0) 0x1140 with | .at i _ => i == sliceOf 0x1140 | _ => false) = true ∧
      findBuf (getSlice s (sliceOf 0x1140)) (ctxOf s 0) 0x1140 = some (buf1 true 0) ∧
      ((tokenSlot (getSlice s (sliceOf 0x1140)) (ctxOf s 0) 0x1140 7).isSome ↔ tok = 7)) := by and_intros <;> decide +kernel

/-- What the arrivals suppose. -/
def AtSlice (s : State) (m : CmbMsg) : Prop :=
  findCmb s m.id = some m ∧ m.op = 40 ∧ Awaits s (opOf 40 6 .cmb) ∧ cmbWaits s m = false ∧
    (match cmbPlace s m.core m.ctx m.d with | .at i _ => i == sliceOf 0x1140 | _ => false) = true

/-- An open of the last token that is there already, that has no room and that fits; a row that is staged, is not expected, and comes
to no slot; a close of no token, past the last, of none that is there and of one. -/
theorem witness_CombineArrivals :
    (∀ p ∈ [(7, 0), (65535, 512), (65535, 511)],
      let row : List (Int × BitVec 32) := [(5, 1), (-1, 0), (3, 2)]
      let m := cmb (.open p.1 1 false 2 [row])
      let v : CmbSlice := { bufs := [buf1 true 0], slots := (0, some (cslot 7 .opened [none, none])) ::
        (List.range (p.2 - 1)).map (fun i => (i + 1, some (cslot (i + 100) .opened []))), waiting := [] }
      let s := combining false tileF tileF v [m]
      AtSlice s m ∧ openArgsOk (buf1 true 0) p.1 1 2 [row] = true ∧ v.waiting = [] ∧
      ((tokenSlot v 1 0x1140 p.1).isSome ↔ p.1 = 7) ∧ (openFits v (buf1 true 0) [row] = true ↔ p.2 ≠ 512) ∧ presentPairs row ≠ []) ∧
    (∀ e ∈ [5, 4], ∀ tok ∈ ([7, 8] : List Nat),
      let m := cmb (.put e 8 [((tok : Int), List.replicate 8 1)])
      let q := cslot 7 .opened [none, none]
      let v : CmbSlice := { bufs := [buf1 true 0], slots := [(0, some q)], waiting := [] }
      let s := combining false tileF tileF v [m]
      AtSlice s m ∧ tok ≤ 65535 ∧ (tokenSlot v 1 0x1140 tok = if tok = 7 then some (0, q) else none) ∧
      (positionOf q e = if e = 5 then some 1 else none) ∧ 1 ∉ seenBits q ∧
      (arrived { q with rows := q.rows.set 1 (some [1]) }).length ≠ q.experts.length) ∧
    (∀ p ∈ [(7, 0), (7, 65530), (8, 65528), (7, 1)],
      let m := cmb (.close p.1 p.2)
      let q := cslot 7 .opened [none, none]
      let v : CmbSlice := { bufs := [buf1 true 0], slots := [(0, some q)], waiting := [] }
      AtSlice (combining false tileF tileF v [m]) m ∧ bufSlots v 1 0x1140 = [(0, q)]) := by
  unfold AtSlice
  and_intros <;> decide +kernel

/-- An open slot, a lingering one, complete slots with and without rows still expected, and a waiting open that fits and that does not. -/
theorem witness_CombineSlots :
    (∀ st ∈ [CmbState.opened, .linger, .complete], ∀ rs ∈ [[none, some [1]], [some [1], some [1]]],
      let q := cslot 7 st rs
      let v : CmbSlice := { bufs := [buf1 false 9], slots := [(0, some q)], waiting := [] }
      let s := combining false tileF tileF v []
      getCmbSlot (getSlice s (sliceOf 0x1140)) 0 = some q ∧ findBuf v q.ctx q.d = some (buf1 false 9) ∧ releaseTurn v (buf1 false 9) q = true ∧
      (v.slots.map (·.1)).Nodup ∧ depositing s (sliceOf 0x1140) 1 = false ∧
      (match agentCheck s (sliceAgent (sliceOf 0x1140) 1) (wordAddr (buf1 false 9) 7) 8 with | .ok _ => true | _ => false) = true) ∧
    (∀ n ∈ [512, 511],
      let row : List (Int × BitVec 32) := [(5, 1), (3, 2)]
      let m := cmb (.open 7 1 true 2 [row])
      let v : CmbSlice := { bufs := [buf1 true 0], slots := (List.range n).map (fun i => (i, some (cslot (i + 100) .opened []))), waiting := [m] }
      let s := combining false tileF tileF v []
      Awaits s (opOf 40 6 .cmb) ∧ findBuf v 1 0x1140 = some (buf1 true 0) ∧ tokenSlot v 1 0x1140 7 = none ∧
      (openFits v (buf1 true 0) [row] = true ↔ n = 511)) := by and_intros <;> decide +kernel

/-! ### Witnesses: stack engines and collectives -/

/-- A core with the operands of a stack-engine command and an index tile of two bags, over a table of four rows of eight numbers. -/
def stacking (table area : Nat) (dual : Bool) (o : List Op) : State :=
  { paged (launched { core { markAs (ctx [(4, BitVec.ofNat 64 (0x4000000000003000 + table)), (5, BitVec.ofNat 64 (0x2000 + area))]) 6 (.op 40) with
      sys := { resetSys with tid := 3, held := 3, dual := dual }, tiles := (Vector.replicate 16 none).set! 1 (some tileI) } with spad := memI [2, 1, 0, 3] }) with
    hbm := memWrite pageMem 0x3000 (leBytes 4 4 ++ leBytes 2 8), ops := o }

/-- A sum of bags 2, 1 and of bag -1, at the given place. -/
def ms1 (checked : Bool) (code : Nat) (perf : List Nat) : MsOp :=
  { kind := .ired, table := 0x4000000000003000, area := 0x2000, ctx := 1, bags := [[2, 1], [-1]], rel := false, checked := checked, fmt := .fp32,
    rowsN := 4, cols := 8, packets := if checked then [[1], [0]] else [], started := 0, performed := perf,
    got := perf.map (fun p => (p, List.replicate 32 0)), results := 0, code := code, stopped := false }

/-- Aligned operands and each that is not; exactly the leave that is needed, and a dual copy. -/
theorem witness_StackIssue :
    ∀ p ∈ [(0, 0), (8, 0), (0, 32)], ∀ du ∈ [false, true],
      let s := stacking p.1 p.2 du []
      let x := cur s
      Goes x (needs [4, 5] [7] (ord := true)) ∧ msBusy s 0 = false ∧ x.seq.isEmpty = true ∧ getTile x 1 = some tileI ∧
      tileI.fmt = .i32 ∧ tileReady (withCur s (passUnit x)) 0 tileI false = true ∧ ((regVal x 4).toNat % 4096 = 0 ↔ p.1 = 0) ∧
      ((regVal x 5).toNat % 64 = 0 ↔ p.2 = 0) ∧ heldInUse s 0 + 3 = x.sys.held.toNat ∧ x.sys.dual = du := by decide +kernel

/-- The check of a good table and of one that is none; the first and the last position; a result, and the completion word. -/
theorem witness_StackEngines :
    (∀ n ∈ [0, 4096],
      let m := { ms1 false 0 [] with table := BitVec.ofNat 64 (0x4000000000003000 + n) }
      let o := opOf 40 6 (.ms m)
      let s := stacking 0 0 false [o]
      findOp s 40 = some o ∧ s.fq = [] ∧ opReleased s o false 3 = true ∧ msFollows s o = false ∧
      (match checkMs s o m with | .ok _ => n == 0 | .code _ => n == 4096 | _ => false) = true) ∧
    (∀ perf ∈ [[], [1]],
      let m := ms1 true 0 perf
      let o := opOf 40 6 (.ms m)
      let s := stacking 0 0 false [o]
      findOp s 40 = some o ∧ (currentPacket m).isSome ∧
      ((currentPacket m).all (fun n => openPositions m n == if perf = [] then [1] else [0]) = true) ∧
      (match readRowPieces s (msAgent s o m) (rowPieces m 2) with | .ok bs => !bs.isEmpty | _ => false) = true) ∧
    (∀ r ∈ [0, 1, 2],
      let m := { ms1 true 0 [1, 0] with results := r }
      let o := opOf 40 6 (.ms m)
      let s := stacking 0 0 false [o]
      currentPacket m = none ∧ packetsOver m = true ∧ (resultDue m = if r = 2 then none else some r) ∧
      areaBusy s o m r 32 true = false ∧
      (match agentCheck s (msAgent s o m) (areaRow m r) 32 with | .ok _ => true | _ => false) = true ∧
      resultsMeetTable s (msAgent s o m) m = false) ∧
    (let m := { ms1 true 0 [1, 0] with results := 2 }
     let o := opOf 40 6 (.ms m)
     let s := stacking 0 0 false [o]
     rangeOk 0 m.area 64 = true ∧ (∀ r ∈ localRange 0 m.area 8, engineBusy s 0 r.1 r.2 true 40 = false) ∧
     (match agentCheck s (msAgent s o m) m.area 8 with | .ok _ => true | _ => false) = true ∧ Awaits s o) := by and_intros <;> decide +kernel

/-- Communicator 1 over a group, and a core with a descriptor at 0x400 of an all-reduce of n FP32 numbers. -/
def collective (valid : Bool) (group : List Nat) (dual : Bool) (n : Nat) (os : List Op) (is : List Instance) : State :=
  let k := core { markAs (ctx [(4, 1), (5, 0x400)]) 6 (.op 40) with sys := { resetSys with tid := 3, dual := dual } }
  { paged (launched { k with spad := memWrite [] 0x400 (leBytes 8 0x1000 ++ leBytes 8 0x2000 ++ leBytes 8 n ++ leBytes 2 0) }) with
    groups := [(2, { valid := true, ltag := 1, members := group })],
    comms := [(1, { mrank := 0, nmod := 1, ctxid := 1, group := 2, prio := 0, part := 0, valid := valid })], ops := os, instances := is }

/-- An all-reduce and an instance of it. -/
def col1 (kind : ColKind) (moved : Nat) : ColOp :=
  { barCol 1 with kind := kind, desc := 0x400, src := 0x1000, dst := 0x2000, count := 8, inst := 1, rd := 32, wr := 32, total := 1, next := moved, moved := moved }
def inst1 (ms js os : List Nat) (started : Bool) (code : Nat) : Instance :=
  { comm := 1, inst := 1, part := 0, members := ms, joined := js, ops := os, started := started, data := if started then [List.replicate 32 5] else [],
    code := code, ended := false }

/-- A member, a core that is none, and a communicator that is not valid; a good descriptor and one of no elements. -/
theorem witness_CollectiveOperations :
    (∀ g ∈ [[0, 1], [1]], ∀ n ∈ [8, 0], ∀ du ∈ [false, true],
      let s := collective true g du n [] []
      let x := cur s
      let u := withCur s (passUnit x)
      Goes x (needs [4, 5] [7] (ord := true)) ∧ Goes x (needs [4] [7]) ∧ colBusy u 0 = false ∧ (regVal x 5).toNat % 64 = 0 ∧
      relDone u 0 (serialOf x) s.nextId 4 = true ∧ (∀ r ∈ localRange 0 (regVal x 5) 64, localBusy u 0 r.1 r.2 false = false) ∧
      (match planCol u 0 .ar false (regVal x 4) (regVal x 5) with
        | .ok op => decide (g = [0, 1] ∧ n = 8 ∧ op.comm = 1) && !colLocalBusy u 0 op
        | .code _ => decide (g = [1] ∨ n = 0)
        | _ => false) = true) ∧
    (∀ v ∈ [true, false], ∀ g ∈ [[0, 1], [1]],
      let s := collective v g false 8 [] []
      let e := getComm s 1
      findInst s 1 (joinCount s 1 0 + 1) = none ∧ partLive s 0 = true ∧ e.valid = v ∧ e.mrank < e.nmod ∧ partOf s 0 = some e.part ∧
      (commGroup s e).valid = true ∧ (memberRank (commGroup s e).members 0).isSome = decide (g = [0, 1])) := by and_intros <;> decide +kernel

/-- An instance whose member is lost, one of two operations that differ, one that starts, and one that ends, with a code or done. -/
theorem witness_CollectiveInstances :
    (let s := collective true [0, 1] false 8 [] [inst1 [0, 1] [0] [] false 0]
     findInst s 1 1 = some (inst1 [0, 1] [0] [] false 0) ∧ ∃ c ∈ [0, 1], lostCore (setCore s 1 { resetCore with state := .killed }) c = true) ∧
    (∀ k ∈ [ColKind.ar, .ag],
      let o := opOf 40 6 (.col (col1 .ar 0))
      let p := { opOf 42 6 (.col (col1 k 0)) with core := 1 }
      let x := inst1 [0, 1] [0, 1] [40, 42] false 0
      let s := setCore (collective true [0, 1] false 8 [o, p] [x]) 1 (core (ctx []))
      findInst s 1 1 = some x ∧ (∀ c ∈ x.members, lostCore s c = false) ∧ (∀ c ∈ x.members, c ∈ x.joined) ∧ earlierOpen s x = false ∧
      instOps s x = [(o, col1 .ar 0), (p, col1 k 0)] ∧ (sameCol (col1 .ar 0) (col1 k 0) = true ↔ k = .ar) ∧ spansModules s x = false ∧
      (match readAll s (instOps s x) with | .inl _ => true | _ => false) = true) ∧
    (∀ c ∈ [0, 1],
      let o := opOf 40 6 (.col (col1 .ar (1 - c)))
      let x := inst1 [0] [0] [40] true c
      let s := collective true [0] false 8 [o] [x]
      findInst s 1 1 = some x ∧ instOps s x = [(o, col1 .ar (1 - c))] ∧ Awaits s o ∧ chunkRuns s x = false ∧
      (x.code ≠ 0 ∨ (col1 .ar (1 - c)).moved = 1)) := by and_intros <;> decide +kernel

/-- A chunk that may start, and one that runs; a communicator in use, and one that is not. -/
theorem witness_Chunks :
    (let o := opOf 40 6 (.col (col1 .ar 0))
     let x := inst1 [0] [0] [40] true 0
     let s := { collective true [0] false 8 [o] [x] with pools := [(0, { resetPool with weights := [(0, 1)] })] }
     (getEngine s 0).chunk.isNone ∧ chosenComm s 0 = some 1 ∧ readyOp s 0 1 = some (o, col1 .ar 0, x) ∧ findOp s 40 = some o ∧
     (let r := reserveChunk (withdrawRequests s 0 (· != 1)) 0 1 (nextHop s x 0)
      r.2.isSome ∧ (askLeave r.1 x.part 0 6 (.chunk 1)).1 = true)) ∧
    (let o := opOf 40 6 (.col { col1 .ar 0 with next := 1 })
     let x := inst1 [0] [0] [40] true 0
     let q : ChunkRun := { op := 40, idx := 0, res := { comm := 1, next := 0, shared := false }, units := 6 }
     let s := collective true [0] false 8 [o] [x]
     let s := setEngine s 0 { getEngine s 0 with chunk := some q }
     (getEngine s 0).chunk = some q ∧ (getEngine s 0).parked = [] ∧ findOp s 40 = some o ∧ findInst s 1 1 = some x ∧
     chunkData (col1 .ar 0) x 0 ≠ [] ∧
     (match agentCheck s (colAgent s o (col1 .ar 0)) 0x2000 (chunkData (col1 .ar 0) x 0).length with | .ok _ => true | _ => false) = true) ∧
    (∀ l ∈ [[inst1 [0] [0] [40] true 0], []],
      let s := collective true [0] false 8 [] l
      ((∃ x ∈ s.instances, x.comm = 1 ∧ x.ended = false) ↔ l ≠ [])) := by and_intros <;> decide +kernel

/-! ### Witnesses: what runs next, stealing, the distributor, waves -/

/-- A delivered record of a level, and a record of the deque. -/
def aqRec (p n : Nat) : AqRecord := { plainAq { rec1 with prio := p } none false with order := n }
def dq (p : Nat) (r : Option Nat) : DqEntry := { record := { rec1 with prio := p }, reserved := r, after := (7, 1) }
def urgent1 : UrgentEvent := { ltag := 1, entry := 0x2000, args := [9, 8] }

/-- An idle core with what is given to run. -/
def choosing (us : List UrgentEvent) (aq : List (Nat × AqRecord)) (ds : List DqEntry) : State :=
  launched { resetCore with
    state := .idle, launch := some 1, urgents := us, aq := aq.foldl (fun v p => v.set! p.1 (.delivered p.2)) (Vector.replicate 16 .free), deque := ds }

/-- An urgent event, a delivered record in the last entry, the deque, and nothing; a latched event with its last place free and
none; a core that can be pre-empted, with a branch open. -/
theorem witness_Activations :
    (∀ us ∈ [[urgent1], []], ∀ aq ∈ [[(3, aqRec 1 8), (15, aqRec 2 9)], []], ∀ ds ∈ [[dq 1 (some 5), dq 1 none], []],
      let s := choosing us aq ds
      let k := getCore s 0
      partLive s 0 = true ∧ k.state = .idle ∧ (∀ e ∈ k.urgents, urgentLive s 0 e.ltag = true) ∧
      (takeUrgent k k.urgents = if us = [] then none else some (urgent1, [])) ∧
      (topLevel s 0 = if aq ≠ [] then some 2 else if ds ≠ [] then some 1 else none) ∧
      (oldestAt k 2 = if aq = [] then none else some (15, aqRec 2 9)) ∧
      (popFirst (fun e => poppable s 0 e && e.record.prio == 1) k.deque = if ds = [] then none else some (dq 1 none, [dq 1 (some 5)]))) ∧
    (∀ n ∈ [63, 64],
      let m := msg (.urgent urgent1) 0
      let s : State := { launched { core (ctx []) with urgents := List.replicate n urgent1 } with msgs := [m] }
      findMsg s 41 = some m ∧ urgentLive s 0 1 = true ∧ urgentLive s 0 2 = false ∧ (getCore s 0).state ≠ .killed ∧
      (getCore s 0).urgents.length = n ∧ msgWaits s m = false) ∧
    (∀ g ∈ [[], [gen1]],
      let s := launched { core { ctx [] with gens := g } with urgents := [urgent1] }
      let k := getCore s 0
      partLive s 0 = true ∧ urgentLive s 0 1 = true ∧ k.state = .running ∧ k.ctx.sys.urg = false ∧
      takeUrgent k k.urgents = some (urgent1, []) ∧ preemptible k = true ∧ inGang k = false ∧ k.launch = some 1) := by and_intros <;> decide +kernel

/-- The message that a reply or an acknowledgement belongs to, at core 1 and core 0. -/
def steals (b : TaskBody) (t : Nat) (thief victim : Core) : State :=
  setCore { launched thief with msgs := [{ msg b t with core := 1 - t }] } 1 victim

/-- A core that searches, at its first victim and past its last; a back-off; a request, an empty reply, one that fits exactly and one
that does not, and an acknowledgement. -/
theorem witness_Stealing :
    (∀ n ∈ [0, 45],
      let s := setCore (launched { idle1 with steal := { next := n, busy := false, backoff := false } }) 1 { busy1 with deque := [dq 1 none] }
      searches s 0 = true ∧ (getCore s 0).steal.busy = false ∧ (getCore s 0).steal.backoff = false ∧
      (nextProbe s 0 46 (getCore s 0).steal.next = if n = 0 then some 0 else none)) ∧
    (getCore (launched { idle1 with steal := { next := 0, busy := false, backoff := true } }) 0).steal.backoff = true ∧
    (∀ b ∈ [TaskBody.stealReq 1 none 64, .stealAck 41],
      let s := steals b 1 idle1 { busy1 with deque := [dq 1 none, dq 1 (some 41)] }
      findMsg s 41 = some { msg b 1 with core := 0 }) ∧
    (∀ rs ∈ [[], [rec1]], ∀ n ∈ [63, 64],
      let s := steals (.stealReply rs) 0 { idle1 with launch := some 1, deque := List.replicate n (dq 1 none) } { busy1 with deque := [dq 1 (some 41)] }
      let m := { msg (.stealReply rs) 0 with core := 1 }
      findMsg s 41 = some m ∧ (keepsReply s 0 1 0 rs = true ↔ (n = 63 ∨ rs = []))) := by and_intros <;> decide +kernel

/-- A root record at the distributor, a report of die 0 or none. -/
def rootWait : RootWait := { id := 50, ltag := 1, part := 0, record := rec1, restart := false }
def dualWait : DualWait := { id := 51, part := 0, record := { rec1 with dual := true }, second := false, counted := false, core := 0, after := (7, 0) }

theorem witness_Distributor :
    (∀ b ∈ [true, false],
      let s : State := { launched idle1 with rootWaits := [rootWait], dieReports := if b then [(0, [{ part := 0, wide := 1, narrow := 0 }])] else [] }
      s.rootWaits.find? (fun v => v.ltag == 1) = some rootWait ∧ (getPart s 0).state = .live ∧
      (bestDie s 0 1 = if b then some 0 else none)) ∧
    (∀ n ∈ [AqEntry.free, .round 1],
      let m := msg (.root rec1 false) 0
      let s : State := { setCore (launched { idle1 with aq := Vector.replicate 16 (.round 1) }) 1 { idle1 with aq := Vector.replicate 16 n } with msgs := [m] }
      findMsg s 41 = some m ∧ findLaunch s 1 = some l1 ∧ holdsCore (getPart s 0) 1 = true ∧ mayRun 1 1 = true ∧
      ((freeAq (getCore s 1)).isSome ↔ n = .free) ∧ (freeAq (getCore s 0)).isNone ∧ (idleOn s 0).take 2 = [0, 1]) ∧
    (∀ b ∈ [true, false],
      let s : State := { setCore (launched idle1) 58 idle1 with dualWaits := [dualWait], parts := [(0, { noPartition with state := .live, clusters := if b then [0, 3] else [], ctxid := 1 })] }
      s.dualWaits.find? (fun v => v.id == 51) = some dualWait ∧ relDone s 0 7 0 3 = true ∧
      ((pairCores s 0 dualWait.record).isSome ↔ b = true)) := by and_intros <;> decide +kernel

/-- A wave's answers. -/
def word0 : WaveWord := { created := 0, ended := 0, act := false, store := false, norst := false, fault := false }
def waving (k0 k1 : Core) (w : Option (List (Nat × WaveWord))) (last : Option WaveWord) : State :=
  setCore { launched k0 with launches := [{ l1 with wave := w, last := last }] } 1 k1

/-- An idle root and a busy one; a root whose child has not answered, whose child has, with other words last and with the same; and a
child that answers. -/
theorem witness_Waves :
    (∀ b ∈ [true, false],
      let s := waving (if b then { idle1 with launch := some 1 } else core (ctx [])) idle1 none none
      findLaunch s 1 = some l1 ∧ l1.root = some 0 ∧ partLive s 0 = true ∧ rootIdle s 0 = b) ∧
    (∀ p ∈ [([], none), ([(1, word0)], none), ([(1, word0)], some word0)],
      let k := { idle1 with launch := some 1 }
      let s := waving k k (some p.1) p.2
      findLaunch s 1 = some { l1 with wave := some p.1, last := p.2 } ∧ (getCore s 0).launch = some 1 ∧ (∀ q ∈ p.1, q.1 ≠ 0) ∧
      waveHeld s 0 = false ∧ waveChildren s 1 0 0 = [1] ∧ waveParent s 0 1 = 0 ∧ waveChildren s 1 0 1 = [] ∧ waveHeld s 1 = false ∧
      ownWord s 1 0 = word0 ∧ joinWords word0 word0 = word0 ∧ launchSettled s 1 = true) := by and_intros <;> decide +kernel

/-! ### Witnesses: host queues and packets -/

/-- A committed block, and queue 0 with it. -/
def blk1 : QueueBlock := { ctxid := 1, cbase := 0x5000, rbase := 0x4000, hshadow := 0x6000, logn := 8, part := 0, en := true }
def queue1 : HostQueue := { emptyQueue with blkA := blk1, force := some blk1 }
def queued (h : HostQueue) : State := { paged (launched (core (ctx []))) with queues := [(0, h)] }

/-- A waiting write and none; each branch of a doorbell and a fetch, to the last slot of the ring; commits. -/
theorem witness_HostQueues :
    (∀ b ∈ [true, false],
      let s : State := { queued queue1 with hostWaits := if b then [.write 3 1 0x2000 [1]] else [] }
      (s.hostWaits = [] ↔ b = false) ∧ queueBlock s 0 = some blk1 ∧ fetchHeld s blk1 = false ∧ queue1.pendingCommit = false) ∧
    (∀ p ∈ [(none, 0, 1), (some (257 : BitVec 32), 0, 0), (none, 255, 256)],
      let h := { queue1 with latch := p.1, head := BitVec.ofNat 32 p.2.1, fetched := p.2.1, tail := BitVec.ofNat 32 p.2.2 }
      let s := queued h
      getHq s 0 = h ∧ h.error = 0 ∧ h.shadowDue = false ∧ h.passOver = 0 ∧
      (p.1 = none → h.head ≠ h.tail) ∧ (p.1.all (fun v => decide (2 ^ 8 < (v - h.head).toNat)) = true) ∧
      (match agentRead s (queueAgent blk1) (virtWord (blk1.rbase + 64 * (h.fetched % 2 ^ 8))) 64 with | .ok _ => true | _ => false) = true) ∧
    (∀ n ∈ [0, 0x7000],
      let h := { queue1 with blkB := { blk1 with rbase := n }, pendingCommit := true, commit := 0x8000000000000000 }
      getHq (queued h) 0 = h ∧ h.pendingCommit = true) ∧ (queued queue1).feSaved = none ∧ queueBlock State.reset 7 = none := by and_intros <;> decide +kernel

/-- Packet n of queue 0, of its words; CMPL set. -/
def pkt (n op : Nat) (ws : List Nat) (started : Bool) : Packet :=
  { newPacket n blk1 ((((0x200 + op) :: ws) ++ List.replicate (7 - ws.length) 0).flatMap (leBytes 8)) with started := started }

/-- A state with packets, and a launch descriptor of an empty launch and a bad one at 0x7000 and 0x7100. -/
def packing (ps : List Packet) : State :=
  { queued { queue1 with packets := ps } with hbm := memWrite pageMem 0x7108 (leBytes 1 1) }

/-- A malformed header; a LAUNCH in another partition's name, with a good descriptor and one that is refused; COPY, KPUT and SIGNAL of
their smallest and largest sizes; a copy from and to a page without permissions, and to one that is not mapped. -/
theorem witness_Packets :
    (let p := pkt 5 7 [] false
     findPacket (packing [p]) 0 5 = some p ∧ headerOk p = false ∧ (match packetTurn (packing [p]) 0 5 1 false with | .go e _ => e == p | _ => false) = true) ∧
    (∀ w ∈ [0x1000, 0x1000000001000, 0x8000000001000], ∀ dsc ∈ [0, 0x4000000000007000, 0x4000000000007100],
      let p := pkt 5 1 [w, dsc, 3] false
      let s := packing [p]
      findPacket s 0 5 = some p ∧ headerOk p = true ∧ p.ltag = 0 ∧
      (match packetTurn s 0 5 1 false with | .go e b => e == p && b == blk1 | _ => false) = true ∧
      (launchFormOk p = true ↔ w ≠ 0x8000000001000) ∧ (fld (pktWord p 8).toNat 48 3 = 0 ↔ w ≠ 0x1000000001000) ∧
      (match readLaunch s (queueAgent blk1) (pktWord p 16) with
        | .inl d => decide ((launchRefusal s 0 d).isSome ↔ dsc = 0x4000000000007100) | _ => false) = true ∧
      (findTag s 65535 (nextTag s.lastLtag)).isSome) ∧
    (∀ st ∈ [true, false], ∀ d ∈ [0x4000000000002000, 0x4000000040000000, 0x4000000080000000],
      let p := pkt 5 2 [0x4000000000001100, d, 64] st
      let s := packing [p]
      let g := dataAgent blk1
      findPacket s 0 5 = some p ∧ (match packetTurn s 0 5 2 true with | .go e _ => e == p | _ => false) = true ∧
      packetParked s 0 5 = false ∧ copySpace (pktWord p 8) = true ∧ copySpace (pktWord p 16) = true ∧ zeroFrom p 32 = true ∧
      (match agentRead s g (pktWord p 8) 64 with | .ok bs => bs.length == 64 | _ => false) = true ∧
      (match agentCheck s g (pktWord p 16) 64 with
        | .ok _ => d == 0x4000000000002000 | .fail 0 _ => d == 0x4000000040000000 | .fail 1 _ => d == 0x4000000080000000 | _ => false) = true ∧
      s.fq = []) ∧
    (let p := pkt 5 2 [0x4000000080000000, 0x4000000000002000, 64] true
     (match agentRead (packing [p]) (dataAgent blk1) (pktWord p 8) 64 with | .fail k _ => k != 0 | _ => false) = true) ∧
    (∀ st ∈ [true, false], ∀ n ∈ [1, 64],
      let p := pkt 5 3 [1, 2, 3, 4, 0x4000000000001100, n] st
      let s := packing [p]
      findPacket s 0 5 = some p ∧ (match packetTurn s 0 5 3 true with | .go e _ => e == p | _ => false) = true ∧ p.issued = false ∧
      virtRange (pktWord p 40) 1 = true ∧ zeroFrom p 56 = true ∧ (pktWord p 48).toNat = n ∧
      (match agentRead s (queueAgent blk1) (pktWord p 40) n with | .ok bs => bs.length == n | _ => false) = true) ∧
    (∀ st ∈ [true, false], ∀ op ∈ [0, 1],
      let p := pkt 5 4 [0x4000000000002FF8, 7, op] st
      let s := packing [p]
      findPacket s 0 5 = some p ∧ (match packetTurn s 0 5 4 true with | .go e _ => e == p | _ => false) = true ∧
      virtRange (pktWord p 8) 8 = true ∧ zeroFrom p 32 = true ∧
      (match agentAtom s (if op = 1 then dataAgent blk1 else queueAgent blk1) (pktWord p 8) 8 (fun v => v) with | (_, .ok _) => true | _ => false) = true) := by and_intros <;> decide +kernel

/-- A FENCE behind a packet that is open and behind one that is done; WAITCOND's first and later tests that hold and do not hold, in
each of its forms, the last of its limit among them; a record's slot that is free and one that is not. -/
theorem witness_FencesAndWaits :
    (∀ b ∈ [true, false],
      let p := pkt 5 5 [] true
      let s := packing [{ pkt 4 2 [] true with completed := b }, p]
      findPacket s 0 5 = some p ∧ (match packetTurn s 0 5 5 true with | .go e _ => e == p | _ => false) = true ∧ zeroFrom p 8 = true ∧
      ((∃ e ∈ packetsBefore (getHq s 0) 5, e.completed = false) ↔ b = false)) ∧
    (∀ act ∈ [0, 1, 2], ∀ v ∈ [0, 1], ∀ ts ∈ [0, 2],
      let p := { pkt 5 6 [0x4000000000007000, v, act * 16 + 2 ^ 16 + 3 * 2 ^ 24] true with tests := ts }
      let s := packing [p, pkt 6 2 [] true]
      findPacket s 0 5 = some p ∧ headerOk p = true ∧ functionHeld s 2 = false ∧ waitFormOk p = true ∧
      (match packetTurn s 0 5 6 true with | .go e _ => e == p | _ => false) = true ∧
      (match agentRead s (queueAgent blk1) (pktWord p 8) 8 with | .ok bs => condHolds 0 (BitVec.ofNat 64 (leNat bs)) (pktWord p 16) == (v == 0) | _ => false) = true ∧
      fld (pktWord p 24).toNat 4 2 = act ∧ fld (pktWord p 24).toNat 24 16 = 3 ∧ pktEpoch 5 = (getHq s 0).epoch ∧
      (∀ e ∈ (getHq s 0).packets, e.n ≠ 5 → e.started = true)) ∧
    waitFormOk (pkt 5 6 [1, 0, 0] true) = false ∧
    (∀ f ∈ [0, 128],
      let p := { pkt 255 4 [] true with completed := true }
      let s : State := { packing [p] with hbm := memWrite pageMem (0x5000 + 255 * 16 + 7) [BitVec.ofNat 8 f] }
      let g := queueAgent blk1
      let a := virtWord (0x5000 + 16 * (pktNumber 255 % 2 ^ 8))
      findPacket s 0 255 = some p ∧ p.completed = true ∧ p.written = false ∧ functionHeld s 5 = false ∧ carriedReady s noCore 4 p.moment = true ∧
      (match agentRead s g a 16 with | .ok bs => decide (leNat (bs.take 8) / 2 ^ 63 = 1 ↔ f = 128) | _ => false) = true ∧
      (match agentCheck s g a 16 with | .ok _ => true | _ => false) = true ∧ (∀ e ∈ (getHq s 0).packets, e.n = 255 → e = p)) := by and_intros <;> decide +kernel

/-! ### Witnesses: frames, hosts, flows and dead links -/

/-- A frame of 64 bytes to the destination 01.., and the entry that takes it. -/
def frame1 : List Byte := [1, 2, 3, 4, 5, 6, 7, 8, 9, 10, 11, 12, 8, 0] ++ List.replicate 50 0
def class1 (q : Nat) : ClassEntry :=
  { valid := true, ports := 1, etype := 0x800, etm := true, vid := 0, vm := false, dmac := 0x010203040506, dm := true, queue := q }

/-- An ingress queue in a mode, over a ring of 2 slots of 128 bytes. -/
def ring1 (m : IngressMode) (slot : Nat) : IngressDesc :=
  { mode := m, part := 0, ctxid := 1, base := 0x2000, logn := 1, slotBytes := slot, cons := 0x3000, urgent := none, uentry := 0, ultag := 1,
    key0 := 1, key1 := 2 }
def receiving (cs : List (Nat × Option ClassEntry)) (d : Option IngressDesc) (n : Nat) : State :=
  { paged (launched (core (ctx []))) with classifier := cs, ingress := [(9, { emptyIngress with desc := d, seq := BitVec.ofNat 64 n })] }

/-- No entry; the last entry, one behind it that matches too, and the first. -/
theorem witness_Classifier :
    frontFailed (receiving [] none 0) = false ∧ functionHeld (receiving [] none 0) 3 = false ∧
    frameWaiting (receiving [] none 0) 0 77 frame1 = none ∧
    (∀ j < 1024, (getClass (receiving [] none 0) j).isNone = true) ∧
    (∀ j < 1024, (getClass (receiving [(1023, some (class1 9))] none 0) j).any (fun e => classMatches e 0 frame1) = decide (j = 1023)) ∧
    (let s := receiving [(0, some (class1 4105)), (1023, some (class1 8))] (some (ring1 .ring 128)) 0
     (getClass s 0).any (fun e => classMatches e 0 frame1) = true ∧ (getIngress s (4105 % 4096)).desc = some (ring1 .ring 128)) := by and_intros <;> decide +kernel

/-- A buffer with just room and without; a tuple queue; a ring with its last slot free, one that is full, and a slot that is just too
small; a host's write, behind another of its connection, to a page and to none. -/
theorem witness_FramesAndHosts :
    (let s : State := { receiving [] none 0 with feMode := 8, firmware := [{ blk := .frontEnd, state := .held, measurement := 0, svn := 0, missed := 0 }] }
     frontFailed s = false ∧ functionHeld s 3 = true) ∧
    (∀ m ∈ [IngressMode.ring, .tuple], ∀ p ∈ [(1, 128), (2, 128), (0, 127)],
      let s := receiving [(0, some (class1 9))] (some (ring1 m p.2)) p.1
      let v := getIngress s 9
      let u := setIngress s 9 { v with seq := v.seq + 1 }
      classify s 0 frame1 = some (0, 9) ∧ v.desc = some (ring1 m p.2) ∧ v.lossy = false ∧ v.seq.toNat = p.1 ∧
      (match agentRead u (ingressAgent (ring1 m p.2)) (virtWord 0x3000) 8 with
        | .ok c => decide (leNat c + 2 ≤ p.1 ↔ p.1 = 2) | _ => false) = true ∧
      (64 + frame1.length ≤ p.2 ↔ p.2 = 128) ∧
      (match agentCheck u (ingressAgent (ring1 m p.2)) (virtWord (0x2000 + p.1 % 2 * p.2)) 128 with | .ok _ => true | _ => false) = true) ∧
    (∀ q ∈ [(0x2FF0, 0), (0x40000000, 1), (2 ^ 48 - 15, 2)],
      let s := receiving [] none 0
      let va := virtWord q.1
      s.hostWaits = [] ∧ (virtRange va 16 = true ↔ q.2 ≠ 2) ∧
      (q.2 ≠ 2 → (match agentCheck s (unitAgent none 1 false) va 16 with | .ok _ => q.2 == 0 | .fail _ _ => q.2 == 1 | _ => false) = true)) ∧
    (let i : HostItem := .write 3 1 0x2000 [1]
     [i].find? (fun i => itemConn i == 3) = some i ∧ i ≠ .write 3 1 0x2000 [2]) ∧
    (∀ a ∈ [(0x3000, true), (0xC0000000, true), (0xC0000000, false)],
      let f : Framed := { port := 0, ts := 77, bytes := frame1, entry := 0, queue := 9, seq := 0 }
      let d := { ring1 .ring 128 with cons := a.1 }
      let s := receiving [(0, some (class1 9))] (some d) 1
      let s := if a.2 then setIngress s 9 { getIngress s 9 with waits := [f] } else s
      (getIngress s 9).desc = some d ∧ frontFailed s = false ∧ functionHeld s 3 = false ∧ classify s 0 frame1 = some (0, 9) ∧
      (frameWaiting s 0 77 frame1 = if a.2 then some f else none) ∧ frameWaiting s 0 78 frame1 = none ∧
      ((writeFrame s d f).isSome ↔ a.1 = 0x3000) ∧
      (match agentRead s (ingressAgent d) (virtWord a.1) 8 with | .wait => a.1 == 0xC0000000 | _ => a.1 == 0x3000) = true) ∧
    (∀ l ∈ [[Event.hostRdmaWrite 3 1 0x2000 [1]], []],
      let s : State := { receiving [] none 0 with hostWaits := [.write 3 1 0x2000 [1]], agenda := l }
      s.hostWaits = [.write 3 1 0x2000 [1]] ∧ (Event.hostRdmaWrite 3 1 0x2000 [1] ∈ s.agenda ↔ l ≠ [])) := by and_intros <;> decide +kernel

/-- A port's buffer with any number of bytes in it. -/
theorem witness_PortBuffer (s : State) (n : Nat) :
    portHeld { s with portFrames := [{ port := 0, ts := 0, bytes := List.replicate n 0 }] } 0 = n := by simp [portHeld]

/-- An access, a message, a request, a command and a packet on their way, and what is none. -/
def moving : State :=
  { launched (core (markAs (ctx []) 6 (.op 40))) with
    accs := [acc .store 0x4000000000001108 .sent bs8], msgs := [msg (.callat rec1) 1, { msg (.rndclose 9) 1 with id := 44, op := 40 }],
    keyReqs := [req 60 (reads true false), req 61 (.redeposit (tup keyA 4 20))], cmbMsgs := [{ cmb (.close 0 1) with id := 70 }],
    ops := [opOf 40 6 .task], queues := [(0, { queue1 with packets := [pkt 5 2 [0x4000000000001100, 0x4000000000002000, 64] true] })] }

theorem witness_FlowsAndLinks :
    (∀ n ∈ [50, 41, 60, 70], (flowOf moving n).isSome) ∧ moving.escaped = [] ∧
    flowOf moving 99 = none ∧ looseNo moving 99 = false ∧ flowOf moving 40 = none ∧ looseNo moving 40 = true ∧ channelOf moving 40 ≠ .esc ∧
    (∀ d ∈ [1, 2],
      let f : Escaped := { core := 0, cls := 1, dst := d }
      let s : State := { moving with escaped := [f] }
      s.escaped.find? (fun e => flowNo e == flowNo f) = some f ∧ (flowOpen s f = true ↔ d = 1)) ∧
    (∀ st ∈ [AccStage.sent, .replied bs8],
      let a := acc ld1 0x4000000000001108 st []
      let s : State := { moving with accs := [a] }
      findAcc s 50 = some a ∧ (accMoves a = true ↔ st = .sent)) ∧
    (∀ n ∈ [41, 44], findAcc moving n = none ∧ (findMsg moving n).any (fun m => m.op == 40 && m.tag.isNone && m.twin.isNone) = true) ∧
    Awaits moving (opOf 40 6 .task) ∧
    (∀ n ∈ [60, 61, 70], findAcc moving n = none ∧ findMsg moving n = none) ∧ findReq moving 60 = some (req 60 (reads true false)) ∧
    findReq moving 61 = some (req 61 (.redeposit (tup keyA 4 20))) ∧ findReq moving 70 = none ∧ moving.deliveries = [] ∧
    findCmb moving 70 = some { cmb (.close 0 1) with id := 70 } ∧ Awaits { moving with ops := [opOf 40 6 .cmb] } (opOf 40 6 .cmb) ∧
    (let p := pkt 5 2 [0x4000000000001100, 0x4000000000002000, 64] true
     findPacket moving 0 5 = some p ∧ p.completed = false ∧ headerOk p = true ∧ fld (pktHeader p) 0 8 = 2 ∧ packetParked moving 0 5 = false ∧
     pktCmpl p = true) := by and_intros <;> decide +kernel

/-! ### Witnesses: firmware and its tables -/

/-- An image, and a block's state. -/
def image (good : Bool) (n : Nat) : Image :=
  { magic := imageMagic, target := 2, svn := n, len := 64, digest := 77, digestOk := good, sigOk := true }
def fw (st : BlockState) (missed : Nat) : FwState := { blk := .frontEnd, state := st, measurement := 5, svn := 3, missed := missed }

/-- The front end in a state, with an image in flash and a lowest version of 3. -/
def booting (st : BlockState) (missed : Nat) (pending : Bool) : State :=
  { State.reset with
    firmware := [fw st missed], flash := [{ blk := .frontEnd, img := image true 3 }], minSvn := [(2, 3)],
    queues := [(0, { emptyQueue with pendingCommit := pending })] }

/-- Each state of a block, the heartbeats missed, the image of the lowest version and one below it, and one with a wrong digest. -/
theorem witness_BringUp :
    (∀ st ∈ [BlockState.held, .accepted, .ready], ∀ n ∈ [0, 1, 2], ∀ p ∈ [true, false],
      let s := booting st n p
      findFw s .frontEnd = some (fw st n) ∧ s.feSaved = none ∧ flashImage s .frontEnd = some (image true 3) ∧ (fwQuiet s .frontEnd = !p) ∧
      acceptsImage s .frontEnd (image true 3) = true ∧ acceptsImage s .frontEnd (image true 2) = false ∧
      acceptsImage s .frontEnd (image false 3) = false ∧ tabGet 0 s.minSvn 2 < 4 ∧ 3 ≤ tabGet 0 s.minSvn 2) := by decide +kernel

/-- A die whose Foreman runs, and one whose Foreman failed; the tables' last entries; a partition that may be written and two that may not. -/
theorem witness_CapacityAndTables :
    (∀ st ∈ [BlockState.ready, .failed],
      let s : State := { State.reset with firmware := [{ fw st 0 with blk := .foreman 23 }] }
      (foremanFailed s 23 = true ↔ st = .failed) ∧ (fwIs s (.foreman 23) .ready = true ↔ st = .ready) ∧
      ((getCore s (23 * 128 + 127)).state = .reset)) ∧
    (ingressOk State.reset (ring1 .tuple 0) = true ∧ ingressOk State.reset { ring1 .ring 2048 with logn := 16 } = true ∧
     ingressOk State.reset { ring1 .ring 2048 with logn := 17 } = false) ∧
    (let s : State := { State.reset with parts := [(1, { noPartition with state := .live, clusters := [1] })] }
     partitionOk s 0 [0, 191] = true ∧ partitionOk s 0 [0, 1] = false ∧ partitionOk s 8 [0] = false) ∧
    3071 < coreCount ∧ 2 ^ 20 ≤ physLimit := by and_intros <;> decide +kernel

/-! ### Witnesses: switches, errors, cuts -/

/-- Partition 0 in a state, over cluster 0. -/
def partIn (st : PartState) (k : Core) (saved : List (Nat × Core)) : State :=
  { launched k with parts := [(0, { noPartition with state := st, clusters := [0], ctxid := 1, saved := saved })] }

/-- Every state of a partition; a halt point that is reached, and one that a copy keeps back; a context that is saved. -/
theorem witness_SwitchingOut :
    (∀ st ∈ [PartState.live, .switching, .halted, .out], (getPart (partIn st (core (ctx [])) []) 0).state = st) ∧
    (∀ b ∈ [true, false],
      let k := core (ctx [])
      let a := acc .store 0x4000000000001108 .sent bs8
      let s : State := { partIn .switching k [] with accs := if b then [] else [a] }
      (coresOf (getPart s 0)).length = 16 ∧ haltReached s (coresOf (getPart s 0)) = b ∧ (getCore s 0).gang = .none) ∧
    (let s := partIn .halted { core (ctx []) with state := .stopped, stop := .halt } []
     savesCore (getCore s 0) = true ∧ 0 ∈ coresOf (getPart s 0) ∧ 16 ∉ coresOf (getPart s 0)) ∧
    (let s : State := { partIn .live (core (ctx [])) [] with instances := [inst1 [0] [0] [40] true 0] }
     ∃ x ∈ s.instances, x.part = 0 ∧ x.ended = false) := by and_intros <;> decide +kernel

/-- An image of B of 2 rows of 4 numbers at virtual 0x1100, and a slot that reloads it. -/
def memB : Memory := memWrite pageMem 0x1100 (leBytes 4 2 ++ leBytes 4 4 ++ leBytes 4 0 ++ leBytes 4 1 ++ leBytes 8 64)
def slotR (a : Word) : Slot := { emptySlot with state := .reloading, fmt := .bf16, k := 2, n := 4, pitch := 64, touched := true, source := some { addr := a, scale := none } }

/-- Clusters that are free and that are not; each state of a gated partition; a slot whose image is there, whose image has another form,
and whose image is not there. -/
theorem witness_RestoringAndGating :
    (∀ st ∈ [PartState.live, .switching, .halted, .out, .gated], ∀ n ∈ [0, 24],
      let s := partIn st vacantCore [(0, { core (ctx []) with state := .stopped, stop := .halt })]
      let q := getPart s 0
      q.state = st ∧ (restoreOk s 0 [{ cluster := 0, pdie := n }] = true ↔ n = 0) ∧ (q.saved.map (·.1)).Nodup ∧
      ∀ d ∈ q.saved, d.2.ctx.act.isSome = true) ∧
    (∀ a ∈ [(0x1100 : Nat), 0x2100, 0x40000000],
      let k := { core (ctx []) with slots := (Vector.replicate 4 emptySlot).set! 3 (slotR (BitVec.ofNat 64 (0x4000000000000000 + a))) }
      let s : State := { paged (launched k) with hbm := memB }
      let v := getSlot (getCore s 0) 3
      v.state = .reloading ∧ v.source = some { addr := BitVec.ofNat 64 (0x4000000000000000 + a), scale := none } ∧
      (match homeRead s 0 (BitVec.ofNat 64 (0x4000000000000000 + a)) 64 with
        | .ok bs => a != 0x40000000 && (reloadOk s 0 3 v none (readHeader bs) == (a == 0x1100)) &&
            (a != 0x1100 || (match imageRows s 0 0x4000000000001100 (readHeader bs).pitch (bRowBytes .bf16 (readHeader bs).n) 0 (readHeader bs).k with
              | .ok _ => true | _ => false))
        | .fail _ _ => a == 0x40000000
        | _ => false) = true) := by and_intros <;> decide +kernel

/-- A core map change of core 0 that waits for an interface or for none. -/
def changing (bound : Bool) (k : Core) (ws : List Nat) (as : List Access) : State :=
  { launched k with
    mapChanges := [{ core := 0, old := mapOf State.reset 0, waiting := ws, kill := true }], accs := as,
    coreMap := [(0, { mapOf State.reset 0 with bound := bound, egen := 1 })] }

/-- A core and a sector of each kind; a core with and without a map change under way; a change that waits, and one that is complete, of
a core without activation, with one that has not committed and with one that has, and of a core with no spare. -/
theorem witness_KilledCores :
    3071 < coreCount ∧ 5 * 64 < physLimit ∧
    (∀ st ∈ [PartState.halted, .out],
      let s := partIn st (core (ctx [])) []
      (getCore s 0).state ≠ .killed ∧ (mapOf s 0).bound = true ∧ s.mapChanges = [] ∧ coreOut s 0 = true ∧ (partState s 0 = .halted ↔ st = .halted)) ∧
    (∀ n ∈ [0, 3], let x := ctx []
      killWaits { one (core { x with run := { x.run with row := n } }) with mismatches := [(0, 4)] } 0 = (n == 3)) ∧
    (let s := run []
     (getCore s 0).state ≠ .killed ∧ (mapOf s 0).bound = true ∧ s.mapChanges = [] ∧ coreOut s 0 = false ∧ spareFree s 0 = true) ∧
    (let s := changing true (core (ctx [])) [3] []
     s.mapChanges.any (fun m => m.core == 0) = true ∧ (mapOf s 0).bound = true ∧ (getCore s 0).state ≠ .killed) ∧
    (∀ b ∈ [true, false], ∀ a ∈ [none, some act1, some { act1 with commit := true }],
      let k := { core { ctx [] with act := a } with state := .stopped, deque := [dq 1 none] }
      let s := changing b k [] []
      (s.mapChanges.find? (fun m => m.core == 0)).isSome ∧ s.accs.any (fun a => a.core == 0) = false ∧ (mapOf s 0).bound = b ∧
      (getCore s 0).susp.isNone ∧ (getCore s 0).ctx.act = a ∧ (getCore s 0).deque.any (fun e => e.reserved.isSome) = false) ∧
    (let s := changing true (core (ctx [])) [] [acc .store 0x4000000000001108 .sent bs8]
     s.accs.any (fun a => a.core == 0) = true) := by and_intros <;> decide +kernel

/-- A cell met twice before; an access translated in a range; a stopped core, by HALT and by a trap, and one without activation. -/
theorem witness_RepairsAndRestarts :
    errTable State.reset 3 = [] ∧
    (let e : ErrEntry := { num := 0, count := 2, cls := 0, bank := 1, row := 2, col := 3, req := false }
     let s : State := { State.reset with errTables := [(3, [e])] }
     errTable s 3 = [e] ∧ entryCovers e 0 { bank := 1, row := 2, col := 3 } = true) ∧
    (∀ w ∈ [StopCause.halt, .trap], ∀ a ∈ [none, some act1],
      let s := one { core { ctx [] with act := a } with state := .stopped, stop := w }
      (getCore s 0).state = .stopped ∧ (getCore s 0).stop = w ∧ (getCtx s 0).act = a ∧ w ≠ .none) := by and_intros <;> decide +kernel

/-- A cut of tag 7 that core 0 began. -/
def cut1 (ls : List SnapLatch) : Cut := { tag := 7, cores := [0], latched := ls, recorded := [], overflow := [] }
def latch (b : SnapBlock) (m : Nat) : SnapLatch := { tag := 7, blk := b, moment := m, values := [] }

/-- A SNAP that may begin a cut; a block that has latched and one that has not; a packet from before the cut, and one from after it; a
cut that every block has latched. -/
theorem witness_Snapshots :
    (let s := one (core (supCtx true))
     Goes (cur s) (needs [] [] (priv := true)) ∧ s.cuts = [] ∧ s.cutReports = []) ∧
    (∀ m ∈ [30, 50],
      let k := cut1 [latch (.core 1) 60, latch (.core 0) m]
      let s : State := { launched (core (ctx [])) with cuts := [k], msgs := [msg (.callat rec1) 1] }
      findCut s 7 = some k ∧ findCut s 8 = none ∧ (latchOf k (.core 1)).isSome ∧ (latchOf k (.core 2)).isNone ∧
      (match (packetsInFlight s).filter (fun p => p.n == 41 && p.receiver == .core 1) with
        | [p] => postCut k p == (m == 30) | _ => false) = true ∧ buffered s (.core 1) < snapDepth ∧ allLatched k = false) := by and_intros <;> decide +kernel

/-- A cut that every block has latched. -/
theorem cut_latched (ls : List SnapLatch) (h : ls = allBlocks.map (fun b => latch b 60)) :
    findCut { State.reset with cuts := [cut1 ls] } 7 = some (cut1 ls) ∧ allLatched (cut1 ls) = true ∧
      packetsInFlight { State.reset with cuts := [cut1 ls] } = [] :=
  ⟨rfl, by simp [allLatched, cut1, h], rfl⟩

theorem witness_CutComplete :
    ∃ ls : List SnapLatch, findCut { State.reset with cuts := [cut1 ls] } 7 = some (cut1 ls) ∧ allLatched (cut1 ls) = true ∧
      packetsInFlight { State.reset with cuts := [cut1 ls] } = [] := ⟨_, cut_latched _ rfl⟩

/-- The least and the greatest power, and a value on each side. -/
theorem witness_ConversionToE8M0 :
    (2 ^ 3 ≤ 15 ∧ 15 < 2 ^ (3 + 1)) ∧ ((3 : Int) + -131 < -127) ∧ ((3 : Int) + -130 = -127) ∧ ((3 : Int) + 124 = 127) ∧ (127 < (3 : Int) + 125) := by decide

/-- A word that is an instruction, and one that is not. -/
theorem witness_EncodingsAgree :
    (∀ i ∈ [Instr.addi 31 31 0x1FFF, .halt], i.check = none ∧ (encode i).isSome) := by decide +kernel

/-- A word at a core's pc, an instruction or not, prefix or not; an agenda; and a focus that names no core. -/
theorem witness_StepRunsInstruction :
    ∀ bs ∈ [leBytes 4 0x0CA00003, leBytes 4 0x5000031F, leBytes 4 0xFFFFFFFF],
      let s : State := { paged (launched (core { ctx [] with pc := 0x4000000000001100 })) with hbm := memWrite pageMem 0x1100 bs }
      let k := getCore s 0
      (s.turn = .core ∨ s.agenda = []) ∧ s.focus < coreCount ∧ k.state = .running ∧ coreOut s s.focus = false ∧ isFollower k = false ∧ stopCore s 0 = none ∧
      k.ctx.wait = .none ∧ k.ctx.tileTrap.isNone ∧
      (match fetchAt s 0 k.ctx.pc with | .word b _ => b == bs | _ => false) = true ∧
      ((match decodeBytes bs with | .ok _ => true | _ => false) = true ↔ bs = leBytes 4 0x0CA00003) ∧
      (match fetchAt s 0 0x4000000000001102 with | .fault k => k == 1 | _ => false) = true := by decide +kernel

/-- A trap of the tile stream that is due, and none. -/
theorem witness_StepTakesTileTrap :
    ∀ e ∈ [some ({ code := 7, param := 0, addr := 0, upc := 0x900 } : TileTrap), none],
      let s : State := launched (core { ctx [] with tileTrap := e })
      s.turn = .core ∧ s.focus < coreCount ∧ (getCore s 0).state = .running ∧ coreOut s 0 = false ∧ (getCtx s 0).tileTrap = e ∧
      (getCtx s 0).gens = [] := by decide +kernel

theorem witness_StepRunsEvent :
    (let s : State := { State.reset with turn := .event, agenda := [.currentMonitorHigh] }; s.turn = .event ∧ s.agenda = [.currentMonitorHigh]) ∧
    encode (.currentMonitorHigh) = none ∧ coreCount ≤ ({ State.reset with focus := 3072 } : State).focus ∧ State.reset.turn = .core := by and_intros <;> decide +kernel

/-- Reset memory is canonical, and the state after it takes a step. -/
theorem witness_MemoryStaysCanonical :
    MemOk State.reset ∧ (match step State.reset with | .next _ => true | _ => false) = true := by and_intros <;> decide +kernel

/-! ### Small steps -/

/-- A register after an instruction ran at the focus. -/
def regAfter (i : Instr) (s : State) (r : BitVec 5) : Option Nat :=
  match exec i s with | .next t => some (getReg (cur t) r).val.toNat | _ => none

/-- The pc after an instruction ran at the focus. -/
def pcAfter (i : Instr) (s : State) : Option Nat := match exec i s with | .next t => some (cur t).pc.toNat | _ => none

/-- R163, R164: results wrap, a shift amount is taken modulo 64, and an immediate is extended as its operation says. -/
theorem test_integer_results :
    regAfter (.sub 6 4 5) (run [(4, 3), (5, 5)]) 6 = some (2 ^ 64 - 2) ∧
    regAfter (.andn 6 4 5) (run [(4, 0xFF), (5, 0x0F)]) 6 = some 0xF0 ∧
    regAfter (.sra 4 4 5) (run [(4, 0xFFFFFFFFFFFFFF00), (5, 68)]) 4 = some (2 ^ 64 - 16) ∧
    regAfter (.slt 6 4 5) (run [(4, 0xFFFFFFFFFFFFFFFF), (5, 1)]) 6 = some 1 ∧
    regAfter (.sltu 6 4 5) (run [(4, 0xFFFFFFFFFFFFFFFF), (5, 1)]) 6 = some 0 ∧
    regAfter (.addi 6 4 0xFFF) (run [(4, 3)]) 6 = some 2 ∧
    regAfter (.xori 6 4 0xFFF) (run [(4, 1)]) 6 = some 0xFFE ∧
    regAfter (.addi 0 4 1) (run [(4, 3)]) 0 = some 0 := by and_intros <;> decide +kernel

/-- R121, R166: division by zero, the division that overflows, the sign of a remainder, and the two high products. -/
theorem test_multiply_and_divide :
    regAfter (.div 6 4 5) (run [(4, 7), (5, 0)]) 6 = some (2 ^ 64 - 1) ∧
    regAfter (.div 6 4 5) (run [(4, 0x8000000000000000), (5, 0xFFFFFFFFFFFFFFFF)]) 6 = some (2 ^ 63) ∧
    regAfter (.rem 6 4 5) (run [(4, 0xFFFFFFFFFFFFFFF9), (5, 2)]) 6 = some (2 ^ 64 - 1) ∧
    regAfter (.mulh 6 4 5) (run [(4, 0xFFFFFFFFFFFFFFFF), (5, 2)]) 6 = some (2 ^ 64 - 1) ∧
    regAfter (.mulhu 6 4 5) (run [(4, 0xFFFFFFFFFFFFFFFF), (5, 2)]) 6 = some 1 := by and_intros <;> decide +kernel

/-- R167: a field at the top of the register, a field of length 0, which is 64, and the counts of zero. -/
theorem test_bit_fields :
    regAfter (.bext 6 4 5) (run [(4, 0xF000000000000000), (5, 0x083C)]) 6 = some 0xF ∧
    regAfter (.bext 6 4 5) (run [(4, 0xF000000000000000), (5, 4)]) 6 = some 0xF00000000000000 ∧
    regAfter (.bins 6 4 5) (run [(4, 0xAB), (5, 0x0408), (6, 0xFFFF)]) 6 = some 0xFBFF ∧
    regAfter (.clz 6 4) (run [(4, 0)]) 6 = some 64 ∧ regAfter (.brev 6 4) (run [(4, 1)]) 6 = some (2 ^ 63) := by
  and_intros <;> decide +kernel

/-- R168, R169: a branch taken backwards and one not taken, the link of a jump, a target from the old register, and the last round
of a loop. -/
theorem test_branches :
    pcAfter (.bltu 4 5 0xFFFF) (run [(4, 1), (5, 2)]) = some 0xFFC ∧
    pcAfter (.blt 4 5 4) (run [(4, 1), (5, 0xFFFFFFFFFFFFFFFF)]) = some 0x1004 ∧
    pcAfter (.jalr 4 4 1) (run [(4, 0x2002)]) = some 0x2004 ∧
    regAfter (.jalr 4 4 1) (run [(4, 0x2002)]) 4 = some 0x1004 ∧
    pcAfter (.loopnz 4 0x3FFE) (run [(4, 1)]) = some 0x1004 ∧ pcAfter (.loopnz 4 0x3FFE) (run [(4, 0)]) = some 0xFF8 := by
  and_intros <;> decide +kernel

/-- R169: the spec's counted loop, its first addition, as the first instruction after reset. -/
theorem test_first_step :
    (match step (State.reset.withFetchWord 32 0x0CA00003) with
      | .next t => (getReg (getCtx t State.reset.focus) 5).val == 3
      | _ => false) = true := by decide +kernel

end Sys2Proof.Tests
end

section
/-! Every step keeps every memory in canonical form (log 2).

A memory changes only where a core, a line, a replica, HBM, remote memory or the image of a partition is written; `memOk_mk` says that
every other field of the state is free, and `memWf_memWrite` and
`memWf_memFill` say that a write and a fill keep the form. From there one lemma for each
operation of the model, in the order of the model's files, says that it keeps `MemOk`; `outOk_exec` assembles them over the instructions
and the events, and `outOk_step` over the turns. -/

namespace Sys2Proof.Machine

/-! ### What a result must keep -/

/-- The memories of a core that holds context and stores, as a proposition. -/
abbrev CoreOk (k : Core) : Prop := coreMemOk k = true

/-- Every image that a partition has written out holds memories in canonical form. -/
def PartOk (q : Partition) : Prop := ∀ d ∈ q.saved, CoreOk d.2

/-- The outcome of a meaning: where the machine goes on, every memory is in canonical form. -/
def OutOk (o : Host.Outcome State Fault Refusal) : Prop := ∀ t, o = .next t → MemOk t

/-- The effect of an instruction at issue: where it does not wait, every memory is in canonical form. -/
def OptOk (o : Option State) : Prop := ∀ t, o = some t → MemOk t

/-- A member's row of the tile stream that is done leaves every memory in canonical form. -/
def RowOk (r : RowStep) : Prop := ∀ t, r = .ok t → MemOk t

/-- A stack engine's position that is done leaves every memory in canonical form. -/
def MsOk (r : MsStep) : Prop := ∀ t row, r = .done t row → MemOk t

/-- A key request that has moved on leaves every memory in canonical form. -/
def RouteOk (r : KeyRoute) : Prop := ∀ t, r = .moved t → MemOk t

variable {s t : State}

/-- What holds of both branches holds of the choice between them, whatever it turns on. -/
theorem ite_both {α : Type} {motive : α → Prop} {c : Prop} [Decidable c] {a b : α} (ha : motive a)
    (hb : motive b) :
    motive (if c then a else b) := by
  split <;> assumption

theorem memOk_ite {c : Prop} [Decidable c] (hs : MemOk s) (ht : MemOk t) :
    MemOk (if c then s else t) :=
  ite_both (motive := MemOk) hs ht

theorem outOk_ite {c : Prop} [Decidable c] {o p : Host.Outcome State Fault Refusal} (ho : OutOk o)
    (hp : OutOk p) :
    OutOk (if c then o else p) :=
  ite_both (motive := OutOk) ho hp

theorem optOk_ite {c : Prop} [Decidable c] {o p : Option State} (ho : OptOk o) (hp : OptOk p) :
    OptOk (if c then o else p) :=
  ite_both (motive := OptOk) ho hp

theorem memOk_fst_ite {α : Type} {c : Prop} [Decidable c] {p q : State × α} (hp : MemOk p.1)
    (hq : MemOk q.1) :
    MemOk (if c then p else q).1 :=
  ite_both (motive := fun r : State × α => MemOk r.1) hp hq

theorem memWf_ite {c : Prop} [Decidable c] {m n : Memory} (hm : memWf m = true)
    (hn : memWf n = true) :
    memWf (if c then m else n) = true :=
  ite_both (motive := fun m => memWf m = true) hm hn

theorem coreOk_ite {c : Prop} [Decidable c] {k l : Core} (hk : CoreOk k) (hl : CoreOk l) :
    CoreOk (if c then k else l) :=
  ite_both (motive := CoreOk) hk hl

theorem foldl_induction {α β : Type} {motive : β → Prop} {f : β → α → β} {l : List α} {b : β}
    (hf : ∀ b a, motive b → motive (f b a)) (h : motive b) : motive (l.foldl f b) :=
  List.foldlRecOn l f h fun b hb a _ => hf b a hb

theorem memOk_foldl {α : Type} {f : State → α → State} {l : List α}
    (hf : ∀ t a, MemOk t → MemOk (f t a)) (h : MemOk s) : MemOk (l.foldl f s) :=
  foldl_induction hf h

theorem memOk_foldl_mem {α : Type} {f : State → α → State} {l : List α}
    (hf : ∀ t, ∀ a ∈ l, MemOk t → MemOk (f t a)) (h : MemOk s) : MemOk (l.foldl f s) :=
  List.foldlRecOn l f h fun t ht a ha => hf t a ha ht

theorem memWf_foldl {α : Type} {f : Memory → α → Memory} {l : List α} {m : Memory}
    (hf : ∀ m a, memWf m = true → memWf (f m a) = true) (h : memWf m = true) : memWf
        (l.foldl f m) = true :=
  foldl_induction (motive := fun m => memWf m = true) hf h

theorem rowOk_ite {c : Prop} [Decidable c] {q r : RowStep} (hq : RowOk q) (hr : RowOk r) :
    RowOk (if c then q else r) :=
  ite_both (motive := RowOk) hq hr

theorem msOk_ite {c : Prop} [Decidable c] {q r : MsStep} (hq : MsOk q) (hr : MsOk r) :
    MsOk (if c then q else r) :=
  ite_both (motive := MsOk) hq hr

theorem routeOk_ite {c : Prop} [Decidable c] {q r : KeyRoute} (hq : RouteOk q) (hr : RouteOk r) :
    RouteOk (if c then q else r) :=
  ite_both (motive := RouteOk) hq hr

theorem memOk_fst_of_eq {α : Type} {p q : State × α} (hp : MemOk p.1) (e : p = q) :
    MemOk q.1 := e ▸ hp

/-! ### Tables -/

theorem mem_tabSet {α : Type} {T : Tab α} {k : Nat} {v : α} {p : Nat × α} (hp : p ∈ tabSet T k v) :
    p = (k, v) ∨ p ∈ T := by
  induction T with
  | nil => simpa [tabSet] using hp
  | cons q r ih =>
    obtain ⟨j, w⟩ := q
    unfold tabSet at hp
    grind

/-- What holds of every entry and of the default holds of what a key reads. -/
theorem tabGet_of_forall {α : Type} {motive : α → Prop} {d : α} {T : Tab α} {k : Nat}
    (hd : motive d) (hT : ∀ p ∈ T, motive p.2) :
    motive (tabGet d T k) := by
  induction T with
  | nil => exact hd
  | cons q r ih =>
    unfold tabGet
    split
    · exact hT q List.mem_cons_self
    · exact ih fun p hp => hT p (List.mem_cons_of_mem _ hp)

theorem forall_tabSet {α : Type} {motive : α → Prop} {T : Tab α} {k : Nat} {v : α} (hv : motive v)
    (hT : ∀ p ∈ T, motive p.2) :
    ∀ p ∈ tabSet T k v, motive p.2 := by
  intro p hp
  rcases mem_tabSet hp with rfl | hp
  · exact hv
  · exact hT p hp

/-! ### Cores, lines and partitions -/

theorem coreOk_iff {k : Core} : CoreOk k ↔ memWf k.spad = true ∧ memWf k.supArea = true := by
  simp [CoreOk, coreMemOk]

theorem CoreOk.spad {k : Core} (hk : CoreOk k) : memWf k.spad = true := (coreOk_iff.1 hk).1

theorem CoreOk.supArea {k : Core} (hk : CoreOk k) : memWf k.supArea = true := (coreOk_iff.1 hk).2

theorem coreOk_resetCore : CoreOk resetCore := rfl

theorem MemOk.hbm (h : MemOk s) : memWf s.hbm = true := h.1

theorem MemOk.remote (h : MemOk s) : memWf s.remote = true := h.2.1

theorem MemOk.cores (h : MemOk s) : ∀ p ∈ s.cores, CoreOk p.2 := h.2.2.1

theorem MemOk.lines (h : MemOk s) : ∀ p ∈ s.lines, memWf p.2.data = true := h.2.2.2.1

theorem MemOk.replicas (h : MemOk s) : ∀ r ∈ s.replicas, memWf r.data = true := h.2.2.2.2.1

theorem MemOk.parts (h : MemOk s) : ∀ p ∈ s.parts, PartOk p.2 := h.2.2.2.2.2

theorem coreOk_getCore {c} (h : MemOk s) :
    CoreOk (getCore s c) := tabGet_of_forall (motive := CoreOk) coreOk_resetCore h.cores

theorem lineOk_getLine {l} (h : MemOk s) : memWf (getLine s l).data = true :=
  tabGet_of_forall (motive := fun v : Line => memWf v.data = true) rfl h.lines

theorem partOk_getPart {p} (h : MemOk s) : PartOk (getPart s p) :=
  tabGet_of_forall (motive := PartOk) (fun _ hd => nomatch hd) h.parts

theorem memOk_hbm_lines {m : Memory} {ls : Tab Line} (h : MemOk s) (hm : memWf m = true)
    (hl : ∀ p ∈ ls, memWf p.2.data = true) : MemOk { s with hbm := m, lines := ls } :=
  ⟨hm, h.remote, h.cores, hl, h.replicas, h.parts⟩

theorem memOk_remote {m : Memory} (h : MemOk s) (hm : memWf m = true) :
    MemOk { s with remote := m } :=
  ⟨h.hbm, hm, h.cores, h.lines, h.replicas, h.parts⟩

theorem memOk_cores {ks : Tab Core} (h : MemOk s) (hk : ∀ p ∈ ks, CoreOk p.2) :
    MemOk { s with cores := ks } :=
  ⟨h.hbm, h.remote, hk, h.lines, h.replicas, h.parts⟩

theorem memOk_replicas {rs : List Replica} (h : MemOk s) (hr : ∀ r ∈ rs, memWf r.data = true) :
    MemOk { s with replicas := rs } :=
  ⟨h.hbm, h.remote, h.cores, h.lines, hr, h.parts⟩

theorem memOk_parts {ps : Tab Partition} (h : MemOk s) (hp : ∀ p ∈ ps, PartOk p.2) :
    MemOk { s with parts := ps } :=
  ⟨h.hbm, h.remote, h.cores, h.lines, h.replicas, hp⟩

/-- Whatever else a state holds: the canonical form speaks of its memories alone. -/
theorem memOk_mk {fresh nextId turn agenda focus badSectors hot redirects stations fq accs carried escaped escLoose ops merges
    msgs groups coreMap mapChanges launches lastLtag rootWaits dualWaits pairs nextPair dieReports pools comms instances
    colJoins engines homes absentHomes homeMap mapCopies hints split splitIn splitReqs splitLock domainModules localMod
    waidric waidricOut failedModules keyReqs deliveries acks slices cmbMsgs queues feMode feSaved hostWaits classifier ingress
    portFrames feUrgents counters errTables notices mismatches deadPhys firmware minSvn flash replacements reports cuts
    cutReports} (h : MemOk s) :
    MemOk
      { hbm := s.hbm, remote := s.remote, cores := s.cores, lines := s.lines, replicas := s.replicas, parts := s.parts,
        fresh, nextId, turn, agenda, focus, badSectors, hot, redirects, stations, fq, accs, carried, escaped,
        escLoose, ops, merges, msgs, groups, coreMap, mapChanges, launches, lastLtag, rootWaits, dualWaits, pairs,
        nextPair, dieReports, pools, comms, instances, colJoins, engines, homes, absentHomes, homeMap, mapCopies,
        hints, split, splitIn, splitReqs, splitLock, domainModules, localMod, waidric, waidricOut, failedModules,
        keyReqs, deliveries, acks, slices, cmbMsgs, queues, feMode, feSaved, hostWaits, classifier, ingress,
        portFrames, feUrgents, counters, errTables, notices, mismatches, deadPhys, firmware, minSvn, flash,
        replacements, reports, cuts, cutReports } := h

theorem coreOk_of_memWf
    {state stop ctx susp suspSlots slots icache launch disc deque aq mail sealedStore genCounter live sealedGens
    urgents created ended parent storeErr norstErr faultErr gang steal rounds pastRounds spilling waited} {spad supArea : Memory}
    (hspad : memWf spad = true) (hsup : memWf supArea = true) :
    CoreOk
      { spad, supArea, state, stop, ctx, susp, suspSlots, slots, icache, launch, disc, deque, aq,
        mail, sealedStore, genCounter, live, sealedGens, urgents, created, ended, parent, storeErr, norstErr,
        faultErr, gang, steal, rounds, pastRounds, spilling, waited } :=
  coreOk_iff.2 ⟨hspad, hsup⟩

theorem coreOk_mk
    {state stop ctx susp suspSlots slots icache launch disc deque aq mail sealedStore genCounter live sealedGens
    urgents created ended parent storeErr norstErr faultErr gang steal rounds pastRounds spilling waited} {k : Core}
    (h : CoreOk k) :
    CoreOk
      { spad := k.spad, supArea
          := k.supArea, state, stop, ctx, susp, suspSlots, slots, icache, launch, disc, deque, aq,
        mail, sealedStore, genCounter, live, sealedGens, urgents, created, ended, parent, storeErr, norstErr,
        faultErr, gang, steal, rounds, pastRounds, spilling, waited } :=
  coreOk_of_memWf h.spad h.supArea

theorem partOk_mk {state ctxid clusters clmapgen waking} {q : Partition} (h : PartOk q) :
    PartOk
      { saved := q.saved, state, ctxid, clusters, clmapgen, waking } := h

theorem partOk_nil {state ctxid clusters clmapgen waking} :
    PartOk { saved := [], state, ctxid, clusters, clmapgen, waking } := fun _ hd =>
        absurd hd List.not_mem_nil

theorem outOk_done (h : MemOk s) : OutOk (done s) := by
  rintro _ ⟨⟩
  exact h

theorem optOk_none : OptOk none := nofun

theorem optOk_some (h : MemOk s) : OptOk (some s) := by
  rintro _ ⟨⟩
  exact h

theorem rowOk_ok (h : MemOk s) : RowOk (.ok s) := by
  rintro _ ⟨⟩
  exact h

theorem msOk_done {row} (h : MemOk s) : MsOk (.done s row) := by
  rintro _ _ ⟨⟩
  exact h

theorem routeOk_moved (h : MemOk s) : RouteOk (.moved s) := by
  rintro _ ⟨⟩
  exact h

theorem coreOk_spad {k : Core} {m : Memory} (hk : CoreOk k) (hm : memWf m = true) :
    CoreOk { k with spad := m } :=
  coreOk_iff.2 ⟨hm, hk.supArea⟩

theorem coreOk_supArea {k : Core} {m : Memory} (hk : CoreOk k) (hm : memWf m = true) :
    CoreOk { k with supArea := m } :=
  coreOk_iff.2 ⟨hk.spad, hm⟩

theorem partOk_map {q : Partition} {f : Nat × Core → Nat × Core} (hq : PartOk q)
    (hf : ∀ d, CoreOk d.2 → CoreOk (f d).2) :
    PartOk { q with saved := q.saved.map f } :=
  List.forall_mem_map.2 fun d hd => hf d (hq d hd)

theorem memOk_setCore {c k} (h : MemOk s) (hk : CoreOk k) : MemOk (setCore s c k) :=
  memOk_cores h (forall_tabSet (motive := CoreOk) hk h.cores)

theorem memOk_modCore {c} {f : Core → Core} (h : MemOk s) (hf : ∀ k, CoreOk k → CoreOk (f k)) :
    MemOk (modCore s c f) :=
  memOk_setCore h (hf _ (coreOk_getCore h))

theorem memOk_setPart {p q} (h : MemOk s) (hq : PartOk q) : MemOk (setPart s p q) :=
  memOk_parts h (forall_tabSet (motive := PartOk) hq h.parts)

theorem memOk_setLine {l v} (h : MemOk s) (hv : memWf v.data = true) : MemOk (setLine s l v) :=
  ⟨h.hbm, h.remote, h.cores, forall_tabSet (motive := fun v : Line => memWf v.data = true) hv h.lines,
    h.replicas, h.parts⟩

theorem memOk_setCtx {c x} (h : MemOk s) : MemOk (setCtx s c x) :=
  memOk_modCore h fun _ hk => coreOk_mk hk

theorem memOk_modCtx {c f} (h : MemOk s) : MemOk (modCtx s c f) := memOk_setCtx h

theorem memOk_modSys {c f} (h : MemOk s) : MemOk (modSys s c f) := memOk_modCtx h

theorem coreOk_coreUpdAct {k l n f} (hk : CoreOk k) (hl : coreUpdAct k n f = some l) :
    CoreOk l := by
  unfold coreUpdAct at hl
  grind [coreMemOk]

theorem coreOk_coreUpdAct_getD {k n f} (hk : CoreOk k) : CoreOk ((coreUpdAct k n f).getD k) := by
  cases hl : coreUpdAct k n f with
  | none => exact hk
  | some l => exact coreOk_coreUpdAct hk hl

/-! ### The state after reset -/

theorem memOk_reset : MemOk State.reset := by
  unfold MemOk State.reset
  simp [memWf, memRising]

/-! ### Named operations: contexts, registers, the agenda, operations -/

theorem memOk_push {e} (h : MemOk s) : MemOk (push s e) := memOk_mk h

theorem memOk_pushAll {es} (h : MemOk s) : MemOk (pushAll s es) := memOk_mk h

theorem memOk_bumpId (h : MemOk s) : MemOk (bumpId s) := memOk_mk h

theorem memOk_bumpFree (h : MemOk s) : MemOk (bumpFree s) := memOk_mk h

theorem memOk_count {k n} (h : MemOk s) : MemOk (count s k n) := memOk_mk h

theorem memOk_updAct {c serial f} (h : MemOk s) : MemOk (updAct s c serial f) := by
  unfold updAct
  split
  · next hk => exact memOk_setCore h (coreOk_coreUpdAct (coreOk_getCore h) hk)
  · refine memOk_parts h (List.forall_mem_map.2 fun p hp => partOk_map (h.parts p hp) fun d hd => ?_)
    split
    · exact coreOk_coreUpdAct_getD hd
    · exact hd

theorem coreOk_latchCore {k bits} (hk : CoreOk k) : CoreOk (latchCore k bits) := coreOk_mk hk

theorem memOk_dropOp {n} (h : MemOk s) : MemOk (dropOp s n) := memOk_mk h

theorem memOk_putOp {o} (h : MemOk s) : MemOk (putOp s o) := memOk_mk h

theorem memOk_giveStatus {o v} (h : MemOk s) : MemOk (giveStatus s o v) := memOk_updAct h

theorem memOk_endOp {n v} (h : MemOk s) : MemOk (endOp s n v) := by
  unfold endOp
  split
  · exact memOk_dropOp (memOk_giveStatus h)
  · exact h

theorem memOk_startHeld {c r upc held drawn body} (h : MemOk s) : MemOk (startHeld s c r upc held drawn body) :=
  memOk_bumpId (memOk_mk (memOk_setCtx h))

theorem memOk_startOp {c r upc body} (h : MemOk s) : MemOk (startOp s c r upc body) := memOk_startHeld h

theorem memOk_leaveGang {code m} (h : MemOk s) : MemOk (leaveGang code s m) := by
  unfold leaveGang
  extract_lets k
  have hset {g} : MemOk (setCore s m { k with gang := g }) := memOk_setCore h (coreOk_mk (coreOk_getCore h))
  split
  · extract_lets told
    have htold : MemOk told := memOk_ite hset (memOk_modCtx hset)
    exact memOk_ite htold (memOk_push htold)
  · exact hset
  · exact h

theorem memOk_disbandGang {c code} (h : MemOk s) : MemOk (disbandGang s c code) :=
  memOk_foldl (fun _ _ ht => memOk_leaveGang ht) h

theorem memOk_takeTrap {c t} (h : MemOk s) : MemOk (takeTrap s c t) := by
  dsimp only [takeTrap]
  refine memOk_ite (memOk_modCore (memOk_disbandGang h) fun _ hk => coreOk_mk hk) ?_
  exact memOk_modCtx (memOk_disbandGang h)

/-- An instruction that issues keeps the canonical form where its effect does, from any state that does. -/
theorem outOk_issue {q f} (h : MemOk s) (hf : ∀ i t, MemOk t → OptOk (f i t)) : OutOk (issue s q f) := by
  intro t ht
  obtain rfl | ⟨_, _, rfl⟩ | ⟨_, _, rfl⟩ | ⟨_, ht⟩ := issue_cases s t q f ht
  exacts [h, memOk_takeTrap h, memOk_setCtx h, hf _ _ (memOk_setCtx h) _ ht]

theorem memOk_trapFrom {i code param faultaddr} (h : MemOk s) : MemOk (trapFrom s i code param faultaddr) :=
  memOk_takeTrap h

/-! ### The module's memory and its addresses -/

theorem memOk_spadWrite {c off bs} (h : MemOk s) : MemOk (spadWrite s c off bs) :=
  memOk_modCore h fun _ hk => coreOk_spad hk (memWf_memWrite _ _ _ hk.spad)

theorem memOk_evictLine {l} (h : MemOk s) : MemOk (evictLine s l) := by
  dsimp only [evictLine]
  refine memOk_hbm_lines h (memWf_foldl (fun m i hm => ?_) h.hbm) fun p hp => h.lines p
      (List.mem_of_mem_filter hp)
  split
  · exact memWf_memSet _ _ _ hm
  · exact hm

theorem memOk_makeRoom {l} (h : MemOk s) : MemOk (makeRoom s l) := by
  dsimp only [makeRoom]
  split
  · exact h
  · split
    · exact memOk_bumpFree (memOk_evictLine h)
    · exact memOk_replicas h fun r hr => h.replicas r (List.mem_of_mem_filter hr)

theorem memOk_physSetByte {pa b} (h : MemOk s) : MemOk (physSetByte s pa b) :=
  memOk_setLine (memOk_makeRoom h) (memWf_memSet _ _ _ (lineOk_getLine (memOk_makeRoom h)))

theorem memOk_physWrite {pa bs} (h : MemOk s) : MemOk (physWrite s pa bs) := by
  dsimp only [physWrite]
  exact memOk_mk (memOk_foldl (fun _ _ ht => memOk_physSetByte ht) h)

theorem memOk_dropCopies {pa n} (h : MemOk s) : MemOk (dropCopies s pa n) :=
  memOk_replicas h fun r hr => h.replicas r (List.mem_of_mem_filter hr)

/-! ### Cache slices -/

theorem memOk_replicate {line readers} (h : MemOk s) : MemOk (replicate s line readers) := by
  refine memOk_replicas h fun r hr => ?_
  rcases List.mem_append.1 hr with hr | hr
  · obtain ⟨_, _, rfl⟩ := List.mem_map.1 hr
    exact memWf_foldl (fun _ _ hm => memWf_memWrite _ _ _ hm) rfl
  · exact h.replicas r (List.mem_of_mem_filter hr)

theorem memOk_countRead {line reader} (h : MemOk s) : MemOk (countRead s line reader) :=
  memOk_ite (memOk_replicate (memOk_mk h)) (memOk_mk h)

theorem memOk_fillSector {line sector} (h : MemOk s) : MemOk (fillSector s line sector) :=
  memOk_ite h (memOk_setLine (memOk_makeRoom h) (lineOk_getLine (memOk_makeRoom h)))

theorem memOk_fillRange {pa n} (h : MemOk s) : MemOk (fillRange s pa n) :=
  memOk_foldl (fun _ _ ht => memOk_fillSector ht) h

theorem memOk_touchLine {reader bypass pa n} (h : MemOk s) : MemOk (touchLine s reader bypass pa n) :=
  memOk_countRead (memOk_ite h (memOk_fillRange h))

/-! ### Prefix words, queue registers and branches -/

theorem memOk_passPrefix {f} (h : MemOk s) : MemOk (passPrefix s f) := memOk_modCtx h

theorem outOk_execXimm {u} (h : MemOk s) : OutOk (execXimm u s) := outOk_done (memOk_passPrefix h)

theorem outOk_execXmod {r sm d o} (h : MemOk s) : OutOk (execXmod r sm d o s) := outOk_done (memOk_passPrefix h)

theorem outOk_execHlikely {n taken} (h : MemOk s) : OutOk (execHlikely n taken s) := by
  refine outOk_issue h fun _ _ ht => ?_
  exact optOk_some (memOk_modCtx ht)

theorem outOk_execHpref {lines w} (h : MemOk s) : OutOk (execHpref lines w s) := by
  refine outOk_issue h fun _ _ ht => ?_
  exact optOk_some ht

theorem outOk_execQpush {a n} (h : MemOk s) : OutOk (execQpush a n s) := by
  refine outOk_issue h fun _ _ ht => ?_
  exact optOk_ite (optOk_some (memOk_setCtx ht)) optOk_none

theorem outOk_execQpop {d n} (h : MemOk s) : OutOk (execQpop d n s) := by
  refine outOk_issue h fun _ _ ht => ?_
  dsimp only
  split
  · exact optOk_none
  · exact optOk_some (memOk_setCtx ht)

theorem outOk_execQlen {d n} (h : MemOk s) : OutOk (execQlen d n s) := by
  refine outOk_issue h fun _ _ ht => ?_
  exact optOk_some (memOk_modCtx ht)

theorem outOk_execBranch {i f} (h : MemOk s) : OutOk (execBranch i f s) := by
  dsimp only [execBranch]
  refine outOk_ite (outOk_ite (outOk_done h) ?_) (outOk_issue h fun _ _ ht => ?_)
  · split
    · exact outOk_done (memOk_push (memOk_bumpId (memOk_setCtx h)))
    · exact outOk_done (memOk_push (memOk_bumpFree (memOk_bumpId (memOk_setCtx h))))
  · exact optOk_some (memOk_modCtx ht)

theorem outOk_execJal {o} (h : MemOk s) : OutOk (execJal o s) := by
  refine outOk_issue h fun _ _ ht => ?_
  exact optOk_some (memOk_modCtx ht)

theorem outOk_execJalr {d a o} (h : MemOk s) : OutOk (execJalr d a o s) := by
  refine outOk_issue h fun _ _ ht => ?_
  exact optOk_some (memOk_modCtx ht)

theorem outOk_execBranchResolve {c gen} (h : MemOk s) : OutOk (execBranchResolve c gen s) := by
  dsimp only [execBranchResolve]
  split
  · exact outOk_done h
  · split
    · exact outOk_done h
    · exact outOk_ite (outOk_done (memOk_push h)) (outOk_done (memOk_setCtx h))

/-! ### Operand forms -/

theorem memWf_putElem {m b i j v} (hm : memWf m = true) : memWf (putElem m b i j v) = true :=
  memWf_ite (memWf_memSet _ _ _ hm) (memWf_ite (memWf_memSet _ _ _ hm) (memWf_memWrite _ _ _ hm))

theorem memWf_putRow {m b i j vs} (hm : memWf m = true) : memWf (putRow m b i j vs) = true := by
  induction vs generalizing m j with
  | nil => exact hm
  | cons v r ih => exact ih (memWf_putElem hm)

/-! ### Tile-stream units -/

theorem optOk_dispatchUnit {t c u body recent} (ht : MemOk t) : OptOk (dispatchUnit t c u body recent) :=
  optOk_ite (optOk_some (memOk_push (memOk_bumpId (memOk_setCtx ht)))) optOk_none

theorem outOk_dispatchTile {i q} (h : MemOk s) : OutOk (dispatchTile s i q) := by
  unfold dispatchTile
  refine outOk_ite (outOk_done h) (outOk_issue h fun _ _ ht => ?_)
  exact optOk_dispatchUnit ht

theorem outOk_execTloop {g q n} (h : MemOk s) : OutOk (execTloop g q n s) := by
  dsimp only [execTloop]
  refine outOk_ite (outOk_ite (outOk_done (memOk_takeTrap h)) (outOk_done h)) ?_
  refine outOk_ite (outOk_done h) ?_
  refine outOk_issue h fun _ _ ht => ?_
  exact optOk_dispatchUnit ht

theorem outOk_execTwait (h : MemOk s) : OutOk (execTwait s) := by
  refine outOk_issue h fun _ _ ht => ?_
  exact optOk_some (memOk_modCtx ht)

/-! ### Rows of engines and of tile units -/

theorem memOk_writePieces {c ps bs} (h : MemOk s) : MemOk (writePieces s c ps bs) := by
  induction ps generalizing s bs with
  | nil => exact h
  | cons p r ih =>
    refine ih ?_
    split
    · exact memOk_physWrite (memOk_dropCopies h)
    · exact memOk_remote h (memWf_memWrite _ _ _ h.remote)
    · exact h

theorem memOk_rowPut {c a bs} (h : MemOk s) : MemOk (rowPut s c a bs) := by
  unfold rowPut
  split
  · exact memOk_spadWrite h
  · exact memOk_spadWrite h
  · exact memOk_writePieces h
  · exact h

theorem memOk_rowTouch {c bypass a n} (h : MemOk s) : MemOk (rowTouch s c bypass a n) := by
  unfold rowTouch
  split
  · refine memOk_foldl (fun _ _ ht => ?_) h
    split
    · exact memOk_touchLine ht
    · exact ht
  · exact h

theorem memOk_keepUnread {c} (h : MemOk s) : MemOk (keepUnread s c) := memOk_mk h

/-! ### Barrier objects and the rows of rounds -/

theorem memOk_writeBar {c off b} (h : MemOk s) : MemOk (writeBar s c off b) := memOk_spadWrite h

theorem memOk_noteWait {c ps} (h : MemOk s) : MemOk (noteWait s c ps) :=
  memOk_modCore h fun _ hk => coreOk_mk hk

theorem memOk_noteChanges {s t} (ht : MemOk t) : MemOk (noteChanges s t) := by
  unfold noteChanges
  split
  · exact ht
  · refine memOk_cores ht (List.forall_mem_map.2 fun p hp => ?_)
    split
    · exact coreOk_latchCore (ht.cores p hp)
    · exact ht.cores p hp

theorem memOk_barAdd {c off n} (h : MemOk s) : MemOk (barAdd s c off n) := memOk_writeBar h

theorem memOk_countRoundRow {c off} (h : MemOk s) : MemOk (countRoundRow s c off) := by
  dsimp only [countRoundRow]
  refine memOk_ite (memOk_count (memOk_modCore h fun _ hk => coreOk_mk hk)) ?_
  exact memOk_modCore h fun _ hk => coreOk_mk hk

/-! ### Leave -/

theorem memOk_setPool {die p} (h : MemOk s) : MemOk (setPool s die p) := memOk_mk h

theorem memOk_takeUnits {part die units} (h : MemOk s) : MemOk (takeUnits s part die units) := memOk_setPool h

theorem memOk_redivide {die} (h : MemOk s) : MemOk (redivide s die) := memOk_ite (memOk_setPool h) h

theorem memOk_cancelWait {die who} (h : MemOk s) : MemOk (cancelWait s die who) := memOk_setPool h

theorem memOk_dropWait {die who} (h : MemOk s) : MemOk (dropWait s die who) :=
  memOk_pushAll (memOk_cancelWait h)

theorem memOk_joinWait {part die units who} (h : MemOk s) : MemOk (joinWait s part die units who) :=
  memOk_ite h (memOk_setPool h)

theorem memOk_askLeave {part die units who} (h : MemOk s) : MemOk (askLeave s part die units who).2.2 := by
  dsimp only [askLeave]
  exact ite_both (motive := fun r : Bool × Nat × State => MemOk r.2.2) (memOk_takeUnits (memOk_cancelWait h))
      (memOk_joinWait h)

theorem memOk_of_askLeave {part die units who r} (h : MemOk s) (e : askLeave s part die units who = r) :
    MemOk r.2.2 :=
  e ▸ memOk_askLeave h

theorem memOk_wakeLeave {die} (h : MemOk s) : MemOk (wakeLeave s die) := by
  refine memOk_cores h (List.forall_mem_map.2 fun p hp => ?_)
  split
  · exact coreOk_latchCore (h.cores p hp)
  · exact h.cores p hp

theorem memOk_returnUnits {part die units} (h : MemOk s) : MemOk (returnUnits s part die units) :=
  memOk_ite h (memOk_push (memOk_wakeLeave (memOk_setPool h)))

theorem memOk_drawLeave {c units who} (h : MemOk s) : MemOk (drawLeave s c units who).2.2.2 := by
  dsimp only [drawLeave]
  split
  · exact h
  · exact memOk_askLeave h

theorem memOk_of_drawLeave {c units who r} (h : MemOk s) (e : drawLeave s c units who = r) : MemOk r.2.2.2 :=
  e ▸ memOk_drawLeave h

theorem memOk_returnOpLeave {o} (h : MemOk s) : MemOk (returnOpLeave s o) := memOk_returnUnits h

theorem outOk_execLeave {d a} (h : MemOk s) : OutOk (execLeave d a s) := by
  refine outOk_issue h fun _ _ ht => ?_
  refine optOk_ite (optOk_some (memOk_modCtx (memOk_modSys (memOk_returnUnits ht)))) ?_
  refine optOk_ite (optOk_some (memOk_modCtx ht)) ?_
  refine optOk_ite (optOk_some (memOk_modCtx ht)) ?_
  exact optOk_some (memOk_push (memOk_setPool (memOk_startOp ht)))

theorem memOk_grantRestored {c n} (h : MemOk s) : MemOk (grantRestored s c n) :=
  memOk_modCore h fun _ hk => coreOk_mk hk

theorem outOk_execLeaveGrant {die part} (h : MemOk s) : OutOk (execLeaveGrant die part s) := by
  unfold execLeaveGrant
  split
  · exact outOk_done h
  · refine outOk_ite (outOk_done h) ?_
    split
    · split
      · exact outOk_done (memOk_push (memOk_cancelWait h))
      · refine outOk_ite (outOk_done (memOk_push (memOk_endOp (memOk_cancelWait h)))) ?_
        exact outOk_done (memOk_push (memOk_endOp (memOk_updAct (memOk_takeUnits (memOk_cancelWait h)))))
    · exact outOk_done (memOk_pushAll (memOk_grantRestored (memOk_takeUnits (memOk_cancelWait h))))
    · exact outOk_done (memOk_push h)
    · exact outOk_done h
    · exact outOk_done (memOk_push h)

/-! ### Tile movement and tile arithmetic -/

theorem memWf_writeRow {m b f draws seed i} (hm : memWf m = true) :
    memWf (writeRow m b f draws seed i).1 = true := by
  unfold writeRow
  split
  · exact memWf_putRow hm
  · exact hm

theorem memWf_execRow {ins mode sm val t w seed i} (hw : memWf w.mem = true) :
    memWf (execRow ins mode sm val t w seed i).1 = true := by
  dsimp only [execRow]
  split
  · exact memWf_writeRow (memWf_writeRow hw)
  · exact memWf_writeRow hw

theorem memWf_execRows {ins mode sm val t w m seed i n} (hm : memWf m = true) :
    memWf (execRows ins mode sm val t w m seed i n).1 = true := by
  induction n generalizing m seed i with
  | zero => exact hm
  | succ n ih => exact ih (memWf_execRow hm)

/-! ### The matrix path -/

theorem memOk_putSlot {c i v} (h : MemOk s) : MemOk (putSlot s c i v) :=
  memOk_modCore h fun _ hk => coreOk_mk hk

theorem memWf_accRow {lead cls i mode sm v w acc seed r} (hw : memWf w.mem = true) :
    memWf (accRow lead cls i mode sm v w acc seed r).1 = true := by
  dsimp only [accRow]
  split
  · exact hw
  · split
    · exact hw
    · split
      all_goals first | exact hw | exact memWf_putRow hw

/-! ### The tile stream -/

theorem memWf_viewOf {c u idx} (h : MemOk s) : memWf (viewOf s c u idx).mem = true := (coreOk_getCore h).spad

theorem memOk_returnRunLeave {c} (h : MemOk s) : MemOk (returnRunLeave s c) :=
  memOk_returnUnits (memOk_modCtx h)

theorem memOk_completeUnit {c} (h : MemOk s) : MemOk (completeUnit s c) :=
  memOk_ite (memOk_modCtx (memOk_returnRunLeave h)) (memOk_push (memOk_modCtx (memOk_returnRunLeave h)))

theorem memOk_restoreSeeds {c u} (h : MemOk s) : MemOk (restoreSeeds s c u) :=
  memOk_foldl (fun _ _ ht => memOk_modSys ht) h

theorem memOk_raiseTileTrap {c u code param addr row} (h : MemOk s) :
    MemOk (raiseTileTrap s c u code param addr row) :=
  memOk_modCtx (memOk_returnRunLeave h)

theorem optOk_stepUnit {c u v} (h : MemOk s) : OptOk (stepUnit s c u v) := by
  dsimp only [stepUnit]
  split
  · refine optOk_some ?_
    split
    · exact memOk_setCtx h
    · exact h
  · refine optOk_some ?_
    split
    · exact memOk_setCtx h
    · exact h
  · exact optOk_some (memOk_setCtx h)
  · exact optOk_some (memOk_setCtx h)
  · exact optOk_some (memOk_setCtx h)
  · exact optOk_some (memOk_foldl (fun _ _ ht => memOk_foldl (fun _ _ hu => memOk_putSlot hu) ht) h)
  · exact optOk_none

theorem memOk_openSlots {c u v} (h : MemOk s) : MemOk (openSlots s c u v) := by
  unfold openSlots
  split
  · refine memOk_foldl (fun _ _ ht => ?_) h
    split
    · exact memOk_putSlot ht
    · exact ht
  · exact h

theorem memOk_drawUnit {c u} (h : MemOk s) : MemOk (drawUnit s c u) :=
  memOk_ite (memOk_push (memOk_modCtx (memOk_drawLeave h))) (memOk_drawLeave h)

theorem memOk_beginLoop {c u v} (h : MemOk s) : MemOk (beginLoop s c u v) :=
  memOk_ite (memOk_completeUnit (memOk_setCtx h)) (memOk_push (memOk_setCtx h))

theorem memOk_yieldLeave {c} (h : MemOk s) : MemOk (yieldLeave s c) := memOk_dropWait h

theorem memOk_startUnit {c u v} (h : MemOk s) : MemOk (startUnit s c u v) := by
  dsimp only [startUnit]
  split
  · next ht => exact memOk_completeUnit (optOk_stepUnit (memOk_setCtx h) _ ht)
  · exact memOk_drawUnit (memOk_openSlots (memOk_setCtx h))

theorem outOk_execTileUnitBegin {c} (h : MemOk s) : OutOk (execTileUnitBegin c s) := by
  dsimp only [execTileUnitBegin]
  refine outOk_ite (outOk_done (memOk_yieldLeave h)) ?_
  split
  · exact outOk_done h
  · refine outOk_ite (outOk_done (memOk_push h)) ?_
    refine outOk_ite (outOk_ite (outOk_done (memOk_drawUnit h)) (outOk_done h)) ?_
    refine outOk_ite (outOk_done (memOk_push h)) ?_
    split
    · exact outOk_done (memOk_beginLoop h)
    · exact outOk_done (memOk_push h)
    · refine outOk_ite (outOk_done (memOk_push h)) ?_
      split
      · exact outOk_done (memOk_push h)
      · exact outOk_done (memOk_raiseTileTrap h)
      · exact outOk_done (memOk_startUnit h)

theorem memOk_putMember {m spad acc seed} (h : MemOk s) (hspad : memWf spad = true) :
    MemOk (putMember s m spad acc seed) :=
  memOk_modCore h fun _ hk => coreOk_spad hk hspad

theorem memOk_memberBand {s0 c u v lo hi p} (h0 : MemOk s0) (h : MemOk s) :
    MemOk (memberBand s0 c u v lo hi s p) := by
  dsimp only [memberBand]
  split
  · exact memOk_putMember h (memWf_viewOf h0)
  · split
    · refine memOk_putMember h (foldl_induction (motive := fun r : Memory × AccStore × BitVec 32 =>
          memWf r.1 = true) (fun r _ hr => ?_) (memWf_viewOf h0))
      exact memWf_accRow hr
    · exact memOk_putMember h (memWf_execRows (memWf_viewOf h0))

theorem outOk_execTileBandComplete {c mismatch} (h : MemOk s) : OutOk (execTileBandComplete c mismatch s) := by
  dsimp only [execTileBandComplete]
  split
  · exact outOk_done h
  · refine outOk_ite (outOk_done h) ?_
    refine outOk_ite (outOk_done (memOk_push h)) ?_
    refine outOk_ite (outOk_done (memOk_raiseTileTrap h)) ?_
    split
    · exact outOk_done (memOk_raiseTileTrap h)
    · split
      · exact outOk_done (memOk_push h)
      · exact outOk_done (memOk_raiseTileTrap h)
      · refine outOk_ite (outOk_done (memOk_completeUnit (memOk_modCtx
            (memOk_foldl (fun _ _ ht => memOk_memberBand h ht) h)))) ?_
        exact outOk_done (memOk_push (memOk_modCtx (memOk_foldl (fun _ _ ht => memOk_memberBand h ht) h)))

theorem memWf_placeRow {m b i bs} (hm : memWf m = true) : memWf (placeRow m b i bs) = true :=
  memWf_ite (memWf_putElem (memWf_memWrite _ _ _ hm)) (memWf_memWrite _ _ _ hm)

theorem rowOk_memberRow {c u v i idx m} (h : MemOk s) : RowOk (memberRow s c u v i idx m) := by
  dsimp only [memberRow]
  split
  · refine rowOk_ite (rowOk_ok h) ?_
    refine rowOk_ite nofun ?_
    refine rowOk_ite nofun ?_
    split
    · exact rowOk_ok (memOk_modCore (memOk_rowTouch h) fun _ hk => coreOk_spad hk (memWf_placeRow hk.spad))
    · nofun
    · nofun
  · refine rowOk_ite (rowOk_ok h) ?_
    refine rowOk_ite nofun ?_
    refine rowOk_ite nofun ?_
    split
    · exact rowOk_ok (memOk_rowPut h)
    · nofun
    · nofun
  · refine rowOk_ite (rowOk_ok h) (rowOk_ite nofun ?_)
    split
    · exact rowOk_ok (memOk_putSlot (memOk_rowTouch h))
    · exact rowOk_ok (memOk_putSlot h)
    all_goals nofun
  · exact rowOk_ok h

theorem rowOk_rowOnAll {c u v i ms} (h : MemOk s) : RowOk (rowOnAll s c u v i ms).1 := by
  induction ms generalizing s with
  | nil => exact rowOk_ok h
  | cons p r ih =>
    unfold rowOnAll
    split
    · next ht => exact ih (rowOk_memberRow h _ ht)
    · exact rowOk_memberRow h

theorem memOk_of_rowOnAll {c u v i ms m} (h : MemOk s) (e : rowOnAll s c u v i ms = (.ok t, m)) : MemOk t :=
  rowOk_rowOnAll h _ (congrArg Prod.fst e)

theorem memOk_closeSlots {c u v} (h : MemOk s) : MemOk (closeSlots s c u v) := by
  unfold closeSlots
  split
  · exact memOk_foldl (fun _ _ ht => memOk_putSlot ht) h
  · exact h

theorem outOk_execTileRowComplete {c} (h : MemOk s) : OutOk (execTileRowComplete c s) := by
  dsimp only [execTileRowComplete]
  split
  · exact outOk_done h
  · refine outOk_ite (outOk_done h) (outOk_ite (outOk_done (memOk_push h)) ?_)
    split
    · exact outOk_done (memOk_raiseTileTrap h)
    · split
      · exact outOk_done (memOk_push h)
      · exact outOk_done (memOk_raiseTileTrap h)
      · next ht =>
        have ht := memOk_of_rowOnAll h ht
        refine outOk_ite (outOk_done (memOk_completeUnit (memOk_closeSlots (memOk_modCtx ht)))) ?_
        exact outOk_done (memOk_push (memOk_modCtx ht))

theorem memOk_countMismatch {c} (h : MemOk s) : MemOk (countMismatch s c) :=
  memOk_ite (memOk_push (memOk_mk h)) (memOk_mk h)

theorem memOk_takeTileTrap {c t} (h : MemOk s) : MemOk (takeTileTrap s c t) :=
  memOk_takeTrap (memOk_modCtx (memOk_ite (memOk_countMismatch h) h))

theorem outOk_execTrapEntry {c} (h : MemOk s) : OutOk (execTrapEntry c s) := by
  dsimp only [execTrapEntry]
  split
  · exact outOk_done h
  · exact outOk_ite (outOk_done (memOk_takeTileTrap h)) (outOk_done h)

theorem memOk_skipBand {c u row} (h : MemOk s) : MemOk (skipBand s c u row) := memOk_ite (memOk_modSys h) h

theorem memOk_wakeTile {c} (h : MemOk s) : MemOk (wakeTile s c) := by
  dsimp only [wakeTile]
  split
  · exact h
  · exact memOk_push h

theorem memOk_resumeTile {c} (h : MemOk s) : MemOk (resumeTile s c) := by
  dsimp only [resumeTile]
  split
  · exact h
  · refine memOk_ite (memOk_wakeTile (memOk_modCtx (memOk_ite h (memOk_skipBand (memOk_restoreSeeds h))))) ?_
    exact memOk_wakeTile h

theorem outOk_dispatchRnd {i} (h : MemOk s) : OutOk (dispatchRnd s i) := outOk_dispatchTile h

theorem outOk_dispatchPlain {i} (h : MemOk s) : OutOk (dispatchPlain s i) := outOk_dispatchTile h

theorem outOk_dispatchDup {i} (h : MemOk s) : OutOk (dispatchDup s i) := outOk_dispatchTile h

/-! ### Scalar accesses -/

theorem memOk_dropAcc {n} (h : MemOk s) : MemOk (dropAcc s n) := memOk_mk h

theorem memOk_stageAcc {n st} (h : MemOk s) : MemOk (stageAcc s n st) := memOk_mk h

theorem memOk_failStore {c gen lost} (h : MemOk s) : MemOk (failStore s c gen lost) := by
  dsimp only [failStore]
  refine memOk_ite (memOk_modCore (memOk_ite h (memOk_count h)) fun _ hk => coreOk_mk hk) ?_
  exact memOk_count (memOk_modCore (memOk_ite h (memOk_count h)) fun _ hk => coreOk_mk hk)

theorem memOk_failAcc {a kind addr} (h : MemOk s) : MemOk (failAcc s a kind addr) := by
  unfold failAcc
  split
  · exact memOk_failStore (memOk_dropAcc h)
  · exact memOk_push (memOk_stageAcc h)

theorem memOk_releasedAt {c scope moment} (h : MemOk s) : MemOk (releasedAt s c scope moment) :=
  memOk_ite (memOk_mk h) h

theorem memOk_sendAcc {c kind a size data} (h : MemOk s) : MemOk (sendAcc s c kind a size data) :=
  memOk_push (memOk_bumpId (memOk_mk h))

theorem optOk_heldTrap {i code param addr} (h : MemOk s) : OptOk (heldTrap s i code param addr) :=
  optOk_ite optOk_none (optOk_some (memOk_trapFrom h))

theorem memOk_loadNow {t i put v} (ht : MemOk t) : MemOk (loadNow t i put v) := by
  unfold loadNow
  split
  · exact memOk_modCtx ht
  · exact memOk_bumpId (memOk_modCtx ht)

theorem optOk_loadBody {d a m o i t} (ht : MemOk t) : OptOk (loadBody d a m o i t) := by
  dsimp only [loadBody]
  refine optOk_ite (optOk_heldTrap ht) (optOk_ite optOk_none ?_)
  split
  · exact optOk_ite optOk_none (optOk_some (memOk_loadNow ht))
  · exact optOk_some (memOk_loadNow ht)
  · exact optOk_some (memOk_loadNow ht)
  · exact optOk_ite optOk_none (optOk_some (memOk_sendAcc (memOk_setCtx ht)))

theorem outOk_execLd {d a m o} (h : MemOk s) : OutOk (execLd d a m o s) := by
  refine outOk_issue h fun _ _ ht => ?_
  exact optOk_loadBody ht

theorem memOk_latchCommit {c a} (h : MemOk s) : MemOk (latchCommit s c a) := memOk_ite (memOk_modCtx h) h

theorem outOk_execSt {a b m o} (h : MemOk s) : OutOk (execSt a b m o s) := by
  refine outOk_issue h fun i t ht => ?_
  dsimp only
  refine optOk_ite (optOk_heldTrap ht) (optOk_ite optOk_none ?_)
  split
  · exact optOk_ite optOk_none (optOk_some (memOk_spadWrite ht))
  · exact optOk_some (memOk_modCore ht fun _ hk => coreOk_supArea hk (memWf_memWrite _ _ _ hk.supArea))
  · exact optOk_some (memOk_failStore (memOk_latchCommit ht))
  · exact optOk_ite (optOk_some (memOk_failStore (memOk_latchCommit ht)))
      (optOk_ite optOk_none (optOk_some (memOk_sendAcc (memOk_latchCommit ht))))

theorem optOk_atomBody {op d a b scope size order i t} (ht : MemOk t) :
    OptOk (atomBody op d a b scope size order i t) := by
  dsimp only [atomBody]
  refine optOk_ite (optOk_heldTrap ht) (optOk_ite optOk_none ?_)
  split
  · refine optOk_ite optOk_none ?_
    exact optOk_some (memOk_modCtx (memOk_spadWrite (memOk_ite (memOk_releasedAt ht) ht)))
  · exact optOk_some (memOk_modCtx (memOk_latchCommit ht))
  · exact optOk_some (memOk_modCtx (memOk_latchCommit ht))
  · refine optOk_ite (optOk_some (memOk_modCtx (memOk_latchCommit ht))) ?_
    refine optOk_ite optOk_none ?_
    exact optOk_some (memOk_sendAcc (memOk_latchCommit (memOk_setCtx ht)))

theorem outOk_execAmoadd {d a b sc z o} (h : MemOk s) : OutOk (execAmoadd d a b sc z o s) := by
  refine outOk_issue h fun _ _ ht => ?_
  exact optOk_atomBody ht

theorem outOk_execAmomin {d a b sc z o} (h : MemOk s) : OutOk (execAmomin d a b sc z o s) := by
  refine outOk_issue h fun _ _ ht => ?_
  exact optOk_atomBody ht

theorem outOk_execAmomax {d a b sc z o} (h : MemOk s) : OutOk (execAmomax d a b sc z o s) := by
  refine outOk_issue h fun _ _ ht => ?_
  exact optOk_atomBody ht

theorem outOk_execAmoand {d a b sc z o} (h : MemOk s) : OutOk (execAmoand d a b sc z o s) := by
  refine outOk_issue h fun _ _ ht => ?_
  exact optOk_atomBody ht

theorem outOk_execAmoor {d a b sc z o} (h : MemOk s) : OutOk (execAmoor d a b sc z o s) := by
  refine outOk_issue h fun _ _ ht => ?_
  exact optOk_atomBody ht

theorem outOk_execAmoxor {d a b sc z o} (h : MemOk s) : OutOk (execAmoxor d a b sc z o s) := by
  refine outOk_issue h fun _ _ ht => ?_
  exact optOk_atomBody ht

theorem outOk_execAmoswap {d a b sc z o} (h : MemOk s) : OutOk (execAmoswap d a b sc z o s) := by
  refine outOk_issue h fun _ _ ht => ?_
  exact optOk_atomBody ht

theorem outOk_execCas {d a b sc z o} (h : MemOk s) : OutOk (execCas d a b sc z o s) := by
  refine outOk_issue h fun _ _ ht => ?_
  exact optOk_atomBody ht

theorem memOk_translated {a window pa} (h : MemOk s) : MemOk (translated s a window pa) :=
  memOk_push (memOk_stageAcc h)

theorem memOk_parkAcc {a own} (h : MemOk s) : MemOk (parkAcc s a own) :=
  memOk_ite (memOk_push (memOk_count (memOk_stageAcc h))) (memOk_count (memOk_mk (memOk_stageAcc h)))

theorem outOk_execStationTranslate {n} (h : MemOk s) : OutOk (execStationTranslate n s) := by
  unfold execStationTranslate
  split
  · exact outOk_done h
  · refine outOk_ite (outOk_done h) ?_
    refine outOk_ite (outOk_done (memOk_push h)) ?_
    refine outOk_ite (outOk_done (memOk_parkAcc h)) ?_
    split
    · exact outOk_done (memOk_translated h)
    · exact outOk_done (memOk_translated h)
    · exact outOk_ite (outOk_done (memOk_parkAcc h)) (outOk_done (memOk_failAcc h))
    · exact outOk_done (memOk_failAcc h)
    · exact outOk_done (memOk_push h)

theorem outOk_execFaultQueueRetry {n} (h : MemOk s) : OutOk (execFaultQueueRetry n s) := by
  unfold execFaultQueueRetry
  split
  · exact outOk_done h
  · split
    · exact outOk_done (memOk_push (memOk_stageAcc h))
    · exact outOk_done h

theorem optOk_invalidateCopies {line} (h : MemOk s) : OptOk (invalidateCopies s line) := by
  refine optOk_ite (optOk_some h) ?_
  refine optOk_ite optOk_none ?_
  exact optOk_some (memOk_pushAll (memOk_setLine h (lineOk_getLine h)))

theorem outOk_execReplicaInvalidateAck {line holder} (h : MemOk s) :
    OutOk (execReplicaInvalidateAck line holder s) := by
  dsimp only [execReplicaInvalidateAck]
  split
  · exact outOk_done h
  · exact outOk_done (memOk_setLine (memOk_replicas h fun r hr => h.replicas r (List.mem_of_mem_filter hr))
        (lineOk_getLine h))

theorem outOk_execStorePerform {n} (h : MemOk s) : OutOk (execStorePerform n s) := by
  unfold execStorePerform
  split
  · exact outOk_done h
  · split
    · exact outOk_done h
    · split
      · split
        · exact outOk_done (memOk_push h)
        · split
          · next ht => exact outOk_done (memOk_push (optOk_invalidateCopies h _ ht))
          · exact outOk_done (memOk_dropAcc (memOk_physWrite h))
      · refine outOk_ite (outOk_done (memOk_push h)) ?_
        exact outOk_done (memOk_dropAcc (memOk_remote h (memWf_memWrite _ _ _ h.remote)))
      · exact outOk_done h

theorem outOk_execAtomicPerform {n} (h : MemOk s) : OutOk (execAtomicPerform n s) := by
  dsimp only [execAtomicPerform]
  split
  · exact outOk_done h
  · split
    · split
      · refine outOk_ite (outOk_done (memOk_push h)) (outOk_ite (outOk_done (memOk_failAcc h)) ?_)
        split
        · next ht => exact outOk_done (memOk_push (optOk_invalidateCopies h _ ht))
        · exact outOk_done (memOk_push (memOk_stageAcc (memOk_physWrite
              (memOk_fillRange (memOk_ite (memOk_releasedAt h) h)))))
      · exact outOk_ite (outOk_done (memOk_push h)) (outOk_done (memOk_push (memOk_stageAcc
          (memOk_remote (memOk_ite (memOk_releasedAt h) h) (memWf_memWrite _ _ _ h.remote)))))
      · exact outOk_done h
    · exact outOk_done h

theorem outOk_execSectorFill {line sector} (h : MemOk s) : OutOk (execSectorFill line sector s) :=
  outOk_ite (outOk_done (memOk_fillSector h)) (outOk_done h)

theorem outOk_execSliceRead {n} (h : MemOk s) : OutOk (execSliceRead n s) := by
  unfold execSliceRead
  split
  · exact outOk_done h
  · split
    · refine outOk_ite (outOk_done h) ?_
      refine outOk_ite (outOk_done (memOk_push h)) ?_
      refine outOk_ite (outOk_done (memOk_failAcc h)) ?_
      refine outOk_ite (outOk_done (memOk_push (memOk_stageAcc (memOk_countRead h)))) ?_
      exact outOk_done (memOk_pushAll h)
    · exact outOk_done h

theorem outOk_execHotWindowEnd {slice} (h : MemOk s) : OutOk (execHotWindowEnd slice s) :=
  outOk_done (memOk_mk h)

theorem outOk_execHelperRead {n} (h : MemOk s) : OutOk (execHelperRead n s) := by
  unfold execHelperRead
  split
  · exact outOk_done h
  · split
    · refine outOk_ite (outOk_done (memOk_push h)) ?_
      split <;> exact outOk_done (memOk_push (memOk_stageAcc h))
    · exact outOk_done h

theorem outOk_execReplicaDrop {line holder} (h : MemOk s) : OutOk (execReplicaDrop line holder s) :=
  outOk_done (memOk_mk (memOk_replicas h fun r hr => h.replicas r (List.mem_of_mem_filter hr)))

theorem outOk_execPeerAccessArrive {n} (h : MemOk s) : OutOk (execPeerAccessArrive n s) := by
  dsimp only [execPeerAccessArrive]
  split
  · exact outOk_done h
  · split
    · split
      · exact outOk_done (memOk_failAcc h)
      · refine outOk_ite (outOk_done (memOk_push h)) ?_
        split
        · exact outOk_done (memOk_push (memOk_stageAcc h))
        · exact outOk_done (memOk_dropAcc (memOk_spadWrite h))
        · refine outOk_ite (outOk_done (memOk_push h)) ?_
          exact outOk_done (memOk_push (memOk_stageAcc (memOk_spadWrite (memOk_ite (memOk_releasedAt h) h))))
        · refine outOk_ite (outOk_done (memOk_push h)) ?_
          exact outOk_done (memOk_push (memOk_stageAcc (memOk_barAdd h)))
    · exact outOk_done h

theorem memOk_answerAcc {a bytes} (h : MemOk s) : MemOk (answerAcc s a bytes) := by
  dsimp only [answerAcc]
  split
  · exact memOk_updAct (memOk_dropAcc h)
  · exact memOk_updAct (memOk_dropAcc h)
  · exact memOk_updAct (memOk_dropAcc h)
  · exact memOk_dropAcc h

theorem memOk_answerFail {a kind addr} (h : MemOk s) : MemOk (answerFail s a kind addr) := by
  dsimp only [answerFail]
  split
  · exact memOk_updAct (memOk_dropAcc h)
  · exact memOk_updAct (memOk_dropAcc h)
  · exact memOk_updAct (memOk_dropAcc h)
  · exact memOk_dropAcc h

theorem outOk_execLoadResponse {n} (h : MemOk s) : OutOk (execLoadResponse n s) := by
  unfold execLoadResponse
  split
  · exact outOk_done h
  · split
    · exact outOk_done (memOk_answerAcc h)
    · exact outOk_done (memOk_answerFail h)
    · exact outOk_ite (outOk_done h) (outOk_ite (outOk_done (memOk_push h)) (outOk_done (memOk_answerAcc h)))
    · exact outOk_done h

theorem outOk_execFence {d sc o} (h : MemOk s) : OutOk (execFence d sc o s) := by
  refine outOk_issue h fun _ _ ht => ?_
  exact optOk_some (memOk_push (memOk_bumpId (memOk_modCtx ht)))

theorem coreOk_coreFences {c k} (hk : CoreOk k) : CoreOk (coreFences s c k) := by
  dsimp only [coreFences]
  split <;> exact coreOk_mk hk

theorem memOk_noteFences {c t} (ht : MemOk t) : MemOk (noteFences s c t) :=
  memOk_foldl (fun _ _ ht => memOk_releasedAt ht) ht

theorem outOk_execFenceComplete {c} (h : MemOk s) : OutOk (execFenceComplete c s) := by
  unfold execFenceComplete
  extract_lets noted _ _
  have hnoted : MemOk noted := memOk_noteFences (memOk_modCore h fun _ hk => coreOk_coreFences hk)
  exact outOk_ite (outOk_done (memOk_push hnoted)) (outOk_done hnoted)

theorem outOk_execDrain {m} (h : MemOk s) : OutOk (execDrain m s) := by
  refine outOk_issue h fun _ _ ht => ?_
  exact optOk_ite (optOk_some ht) (optOk_some (memOk_push (memOk_modCtx ht)))

theorem outOk_execDrainComplete {c} (h : MemOk s) : OutOk (execDrainComplete c s) := by
  unfold execDrainComplete
  split
  · exact outOk_ite (outOk_done (memOk_modCtx h)) (outOk_done (memOk_push h))
  · exact outOk_done h

/-! ### SYS instructions and system registers -/

theorem outOk_illegalNow (h : MemOk s) : OutOk (illegalNow s) :=
  outOk_ite (outOk_done (memOk_takeTrap h)) (outOk_done h)

theorem outOk_execSysr {d p} (h : MemOk s) : OutOk (execSysr d p s) := by
  unfold execSysr
  refine outOk_ite (outOk_illegalNow h) (outOk_issue h fun _ _ ht => ?_)
  exact optOk_ite optOk_none (optOk_some (memOk_modCtx ht))

theorem outOk_execSysw {a p} (h : MemOk s) : OutOk (execSysw a p s) := by
  unfold execSysw
  refine outOk_ite (outOk_illegalNow h) (outOk_issue h fun _ _ ht => ?_)
  dsimp only
  refine optOk_ite optOk_none ?_
  exact optOk_some (memOk_modCore (memOk_modSys ht) fun _ hk => coreOk_ite (coreOk_mk hk) hk)

theorem outOk_execTrap {p} (h : MemOk s) : OutOk (execTrap p s) := by
  refine outOk_issue h fun _ _ ht => ?_
  exact optOk_some (memOk_takeTrap ht)

theorem outOk_execEret (h : MemOk s) : OutOk (execEret s) := by
  refine outOk_issue h fun _ _ ht => ?_
  exact optOk_some (memOk_resumeTile (memOk_modCtx ht))

theorem outOk_execWfe {m} (h : MemOk s) : OutOk (execWfe m s) := by
  refine outOk_issue h fun _ _ ht => ?_
  exact optOk_ite (optOk_some (memOk_modCtx ht)) (optOk_some (memOk_push (memOk_modCtx ht)))

theorem outOk_execWfeWake {c} (h : MemOk s) : OutOk (execWfeWake c s) := by
  unfold execWfeWake
  split
  · exact outOk_ite (outOk_done (memOk_modCtx h)) (outOk_done (memOk_push h))
  · exact outOk_done h

theorem outOk_execIflush (h : MemOk s) : OutOk (execIflush s) := by
  refine outOk_issue h fun _ _ ht => ?_
  exact optOk_ite optOk_none (optOk_some (memOk_modCore ht fun _ hk => coreOk_mk hk))

theorem outOk_execHalt (h : MemOk s) : OutOk (execHalt s) := by
  refine outOk_issue h fun _ _ ht => ?_
  exact optOk_some (memOk_modCore ht fun _ hk => coreOk_mk hk)

/-! ### Key requests on their way -/

theorem memOk_dropReq {n} (h : MemOk s) : MemOk (dropReq s n) := memOk_mk h

theorem memOk_setWaidric {m w} (h : MemOk s) : MemOk (setWaidric s m w) := memOk_mk h

theorem memOk_sendWaidric {m h' body} (h : MemOk s) : MemOk (sendWaidric s m h' body) := memOk_mk h

theorem memOk_sendTo {r moved} (h : MemOk s) : MemOk (sendTo s r moved) :=
  memOk_sendWaidric (memOk_setWaidric (memOk_dropReq h))

theorem memOk_sendRemote {r} (h : MemOk s) : MemOk (sendRemote s r) := memOk_sendTo h

theorem memOk_recallReq {r} (h : MemOk s) : MemOk (recallReq s r) := by
  unfold recallReq
  split
  · exact memOk_sendRemote (memOk_bumpId h)
  · exact h

/-! ### The start and the end of an activation -/

theorem memOk_scramble {c} (h : MemOk s) : MemOk (scramble s c) :=
  memOk_modCore (memOk_keepUnread h) fun _ hk => coreOk_spad hk (memWf_scrambleFrom _ _ _ hk.spad)

theorem memOk_scrubCore {c} (h : MemOk s) : MemOk (scrubCore s c) := by
  dsimp only [scrubCore]
  exact memOk_mk (memOk_modCtx (memOk_scramble (memOk_modCore h fun _ hk => coreOk_mk hk)))

theorem memWf_fillRegions {attrs rs m} (hm : memWf m = true) : memWf (fillRegions attrs rs m) = true := by
  refine memWf_foldl (fun m r hm => ?_) hm
  split
  · exact memWf_memFill _ _ _ _ hm
  · exact hm

theorem memOk_discardRegions {c} (h : MemOk s) : MemOk (discardRegions s c) :=
  memOk_modCore (memOk_keepUnread h) fun _ hk => coreOk_spad hk (memWf_fillRegions hk.spad)

theorem coreOk_boundCore {c ltag seed parent k} (hk : CoreOk k) : CoreOk (boundCore c ltag seed parent k) :=
  coreOk_mk hk

theorem memOk_bindLaunch {c ltag parent} (h : MemOk s) : MemOk (bindLaunch s c ltag parent) := by
  dsimp only [bindLaunch]
  exact memOk_ite h (memOk_modCore h fun _ hk => coreOk_boundCore hk)

theorem memOk_countCreated {c} (h : MemOk s) : MemOk (countCreated s c) :=
  memOk_modCore h fun _ hk => coreOk_mk hk

theorem memOk_countEnded {c} (h : MemOk s) : MemOk (countEnded s c) := memOk_modCore h fun _ hk => coreOk_mk hk

theorem coreOk_advanceGen {fuel k} (hk : CoreOk k) : CoreOk (advanceGen fuel k) := by
  induction fuel generalizing k with
  | zero => exact hk
  | succ f ih => exact coreOk_ite (ih hk) (coreOk_ite (ih hk) hk)

theorem coreOk_assignGen {k} (hk : CoreOk k) : CoreOk (assignGen k) := coreOk_mk (coreOk_advanceGen hk)

theorem coreOk_keepGen {g k} (hk : CoreOk k) : CoreOk (keepGen g k) := coreOk_ite hk (coreOk_mk hk)

theorem memOk_settleTally {c g} (h : MemOk s) : MemOk (settleTally s c g) := by
  dsimp only [settleTally]
  exact memOk_ite h (memOk_count (memOk_modCore h fun _ hk => coreOk_mk hk))

theorem memOk_retire {c g} (h : MemOk s) : MemOk (retire s c g) := by
  unfold retire
  extract_lets _ settled _ _ gone
  have hsettled : MemOk settled := memOk_mk (memOk_settleTally h)
  have hgone : MemOk gone := memOk_setCore hsettled (coreOk_mk (coreOk_getCore hsettled))
  exact memOk_ite hgone (memOk_count hgone)

theorem memOk_retireDormant {c g} (h : MemOk s) : MemOk (retireDormant s c g) := memOk_ite (memOk_retire h) h

theorem memOk_startAct {c kind rec gen t15 pair restart} (h : MemOk s) :
    MemOk (startAct s c kind rec gen t15 pair restart) := by
  dsimp only [startAct]
  refine memOk_bumpId (memOk_mk (memOk_setCore h (coreOk_mk ?_)))
  split
  · exact coreOk_keepGen (coreOk_getCore h)
  · exact coreOk_assignGen (coreOk_getCore h)

theorem memOk_withdrawWaiters {p} (h : MemOk s) : MemOk (withdrawWaiters s p) :=
  memOk_foldl (fun _ _ ht => memOk_recallReq ht) (memOk_mk h)

theorem memOk_dropWaits {c serial} (h : MemOk s) : MemOk (dropWaits s c serial) := by
  dsimp only [dropWaits]
  exact memOk_foldl (fun _ _ ht => memOk_endOp ht) (memOk_withdrawWaiters
      (memOk_mk (memOk_foldl (fun _ _ ht => memOk_dropWait ht) h)))

theorem memOk_dropConts {c g} (h : MemOk s) : MemOk (dropConts s c g) := by
  dsimp only [dropConts]
  exact memOk_modCore (memOk_withdrawWaiters h) fun _ hk => coreOk_mk hk

theorem memOk_settleAct {c x failed counts} (h : MemOk s) : MemOk (settleAct s c x failed counts) := by
  unfold settleAct
  extract_lets _ _ _ returned dropped cleared orphaned retired
  have hcleared : MemOk cleared := memOk_dropWaits (memOk_dropWait (memOk_dropWait (memOk_returnUnits h)))
  have horphaned : MemOk orphaned := memOk_ite (memOk_dropConts hcleared) hcleared
  have hretired : MemOk retired := memOk_ite (memOk_retire horphaned) horphaned
  exact memOk_ite (memOk_countEnded hretired) hretired

theorem memOk_resumeAct {c x} (h : MemOk s) : MemOk (resumeAct s c x) :=
  memOk_resumeTile (memOk_pushAll (memOk_ite (memOk_setCore h (coreOk_mk (coreOk_getCore h)))
      (memOk_push (memOk_setCore h (coreOk_mk (coreOk_getCore h))))))

theorem memOk_closeAct {c failed counts} (h : MemOk s) : MemOk (closeAct s c failed counts) := by
  unfold closeAct
  extract_lets settled scrambled
  have hsettled : MemOk settled := memOk_settleAct (memOk_disbandGang h)
  have hscrambled : MemOk scrambled := memOk_scramble (memOk_modCore hsettled fun _ hk => coreOk_mk hk)
  split
  · exact memOk_resumeAct hscrambled
  · exact memOk_push (memOk_modCore hscrambled fun _ hk => coreOk_mk hk)

theorem memOk_closeSusp {c x failed counts} (h : MemOk s) : MemOk (closeSusp s c x failed counts) :=
  memOk_modCore (memOk_settleAct h) fun _ hk => coreOk_mk hk

theorem memOk_tidyPairs (h : MemOk s) : MemOk (tidyPairs s) := memOk_mk h

theorem memOk_notePairEnd {x} (h : MemOk s) : MemOk (notePairEnd s x) := by
  unfold notePairEnd
  split
  · exact h
  · split
    · exact h
    · exact memOk_tidyPairs (memOk_mk h)

theorem memOk_failAct {c serial counts} (h : MemOk s) : MemOk (failAct s c serial counts) := by
  unfold failAct
  refine memOk_ite (memOk_closeAct h) ?_
  split
  · exact memOk_ite (memOk_closeSusp h) h
  · exact h

theorem outOk_execEndAct (h : MemOk s) : OutOk (execEndAct s) := by
  refine outOk_issue h fun _ _ ht => ?_
  exact optOk_ite (optOk_some (memOk_notePairEnd (memOk_closeAct ht))) optOk_none

/-! ### The integer families -/

theorem outOk_computeTo {q d f} (h : MemOk s) : OutOk (computeTo s q d f) := by
  refine outOk_issue h fun _ _ ht => ?_
  exact optOk_some (memOk_modCtx ht)

theorem outOk_intOp {d a b f} (h : MemOk s) : OutOk (intOp s d a b f) := outOk_computeTo h

theorem outOk_bitOp {d a f} (h : MemOk s) : OutOk (bitOp s d a f) := outOk_computeTo h

theorem outOk_immOp {d a f} (h : MemOk s) : OutOk (immOp s d a f) := outOk_computeTo h

theorem outOk_execBins {d a b} (h : MemOk s) : OutOk (execBins d a b s) := outOk_computeTo h

/-! ### Host queues and packets -/

theorem memOk_setHq {q h'} (h : MemOk s) : MemOk (setHq s q h') := memOk_mk h

theorem memOk_modPacket {q n f} (h : MemOk s) : MemOk (modPacket s q n f) := memOk_setHq h

theorem memOk_retirePackets {q} (h : MemOk s) : MemOk (retirePackets s q) := memOk_setHq h

theorem memOk_finishPacket {q n status detail force} (h : MemOk s) :
    MemOk (finishPacket s q n status detail force) := by
  unfold finishPacket
  split
  · exact h
  · refine memOk_ite h ?_
    refine memOk_ite (memOk_push (memOk_ite (memOk_modPacket h) (memOk_setHq (memOk_modPacket h)))) ?_
    exact memOk_retirePackets (memOk_ite (memOk_modPacket h) (memOk_setHq (memOk_modPacket h)))

/-! ### Dual pairs -/

theorem memOk_failCopy {p c} (h : MemOk s) : MemOk (failCopy p s c) := by
  dsimp only [failCopy]
  refine memOk_foldl (fun _ _ ht => memOk_retireDormant (memOk_dropConts ht))
      (memOk_modCore (memOk_foldl (fun _ _ ht => memOk_countEnded ht) (memOk_ite (memOk_closeAct h) ?_))
      fun _ hk => coreOk_mk hk)
  split
  · exact memOk_ite (memOk_closeSusp h) h
  · exact h

theorem memOk_killPair {p blame} (h : MemOk s) : MemOk (killPair s p blame) := by
  unfold killPair
  split
  · exact h
  · extract_lets _ _ _ failed withdrawn blamed
    have hwithdrawn : MemOk withdrawn :=
      memOk_withdrawWaiters (memOk_foldl (fun _ _ ht => memOk_failCopy ht) (memOk_mk h))
    have hblamed : MemOk blamed := memOk_foldl (fun _ _ ht => memOk_countMismatch ht) hwithdrawn
    refine memOk_ite ?_ (memOk_push (memOk_bumpId (memOk_mk hblamed)))
    split
    · exact memOk_modCore (memOk_ite hblamed (memOk_countEnded hblamed)) fun _ hk => coreOk_mk hk
    · exact hblamed

/-! ### Messages of the task plane -/

theorem memOk_dropMsg {n} (h : MemOk s) : MemOk (dropMsg s n) := memOk_mk h

theorem memOk_sendMsg {c target op tag body} (h : MemOk s) : MemOk (sendMsg s c target op tag body) :=
  memOk_push (memOk_bumpId (memOk_mk h))

theorem memOk_endMsg {m v} (h : MemOk s) : MemOk (endMsg s m v) := by
  dsimp only [endMsg]
  split
  · exact memOk_endOp (memOk_endOp (memOk_dropMsg h))
  · exact memOk_endOp (memOk_dropMsg h)

theorem coreOk_putAq {k i e} (hk : CoreOk k) : CoreOk (putAq k i e) := coreOk_mk hk

theorem memOk_deliverAq {c i r} (h : MemOk s) : MemOk (deliverAq s c i r) :=
  memOk_push (memOk_modCore (memOk_bumpId h) fun _ hk => coreOk_putAq hk)

theorem memOk_callatAt {m rec} (h : MemOk s) : MemOk (callatAt s m rec).1 := by
  dsimp only [callatAt]
  split
  · exact h
  · refine memOk_fst_ite h (memOk_fst_ite h ?_)
    split
    · exact h
    · exact memOk_deliverAq (memOk_countCreated (memOk_bindLaunch h))

theorem memOk_mailAt {m kind name body} (h : MemOk s) : MemOk (mailAt s m kind name body).1 := by
  unfold mailAt
  split
  · exact h
  · exact memOk_fst_ite h (memOk_fst_ite (memOk_count h) (memOk_fst_ite h
        (memOk_fst_ite h (memOk_setCore h (coreOk_mk (coreOk_getCore h))))))

theorem coreOk_modRound {k round f} (hk : CoreOk k) : CoreOk (modRound k round f) := coreOk_mk hk

theorem memOk_fireRound {c r} (h : MemOk s) : MemOk (fireRound s c r) :=
  memOk_countCreated (memOk_deliverAq (memOk_setCore h (coreOk_modRound (coreOk_getCore h))))

theorem memOk_closeAt {m round} (h : MemOk s) : MemOk (closeAt s m round).1 := by
  dsimp only [closeAt]
  split
  · exact h
  · exact h
  · split
    · exact memOk_count h
    · refine memOk_ite (memOk_fireRound (memOk_modCore h fun _ hk => coreOk_modRound hk)) ?_
      exact memOk_modCore h fun _ hk => coreOk_modRound hk

theorem outOk_execCallatArrive {n} (h : MemOk s) : OutOk (execCallatArrive n s) := by
  unfold execCallatArrive
  split
  · exact outOk_done h
  · split
    · refine outOk_ite (outOk_done h) ?_
      refine outOk_ite (outOk_done (memOk_push h)) ?_
      exact outOk_done (memOk_endMsg (memOk_callatAt h))
    · exact outOk_done h

theorem outOk_execMessageArrive {n} (h : MemOk s) : OutOk (execMessageArrive n s) := by
  unfold execMessageArrive
  split
  · exact outOk_done h
  · split
    · refine outOk_ite (outOk_done h) ?_
      refine outOk_ite (outOk_done (memOk_push h)) ?_
      exact outOk_done (memOk_endMsg (memOk_mailAt h))
    · exact outOk_done h

theorem outOk_execRoundCloseArrive {n} (h : MemOk s) : OutOk (execRoundCloseArrive n s) := by
  unfold execRoundCloseArrive
  split
  · exact outOk_done h
  · split
    · exact outOk_ite (outOk_done (memOk_push h)) (outOk_done (memOk_endMsg (memOk_closeAt h)))
    · exact outOk_done h

/-! ### Task instructions -/

theorem memOk_putTask {t c d v} (ht : MemOk t) : MemOk (putTask t c d v) := memOk_modCtx ht

theorem memOk_acceptDual {c rec_ after} (h : MemOk s) : MemOk (acceptDual s c rec_ after).1 :=
  memOk_fst_ite h (memOk_push (memOk_bumpId (memOk_countCreated (memOk_mk h))))

theorem memOk_pushDeque {c rec_} (h : MemOk s) : MemOk (pushDeque s c rec_).1 :=
  memOk_fst_ite h (memOk_countCreated (memOk_bumpId (memOk_setCore h (coreOk_mk (coreOk_getCore h)))))

theorem memOk_sendTask {t i d target opcode dest operands body} (ht : MemOk t) :
    MemOk (sendTask t i d target opcode dest operands body) :=
  memOk_modCtx (memOk_sendMsg (memOk_startOp ht))

theorem outOk_execSpawn {d a b p c u} (h : MemOk s) : OutOk (execSpawn d a b p c u s) := by
  dsimp only [execSpawn]
  refine outOk_issue h fun _ _ ht => ?_
  refine optOk_ite optOk_none ?_
  refine optOk_ite ?_ ?_
  · refine optOk_ite (optOk_some (memOk_sendTask (memOk_modCtx ht))) ?_
    exact optOk_some (memOk_putTask (memOk_modCtx ht))
  · exact optOk_some (memOk_putTask (memOk_fst_ite (memOk_acceptDual (memOk_modCtx ht))
        (memOk_pushDeque (memOk_modCtx ht))))

theorem outOk_execCallat {d a b p c} (h : MemOk s) : OutOk (execCallat d a b p c s) := by
  dsimp only [execCallat]
  refine outOk_issue h fun _ _ ht => ?_
  exact optOk_ite optOk_none (optOk_some (memOk_sendTask (memOk_modCtx ht)))

theorem optOk_mailBody {d kind opcode name body i t} (ht : MemOk t) :
    OptOk (mailBody d kind opcode name body i t) :=
  optOk_ite optOk_none (optOk_some (memOk_sendTask (memOk_modCtx ht)))

theorem outOk_execRetv {d a b} (h : MemOk s) : OutOk (execRetv d a b s) := by
  refine outOk_issue h fun _ _ ht => ?_
  exact optOk_mailBody ht

theorem outOk_execMsend {d a b} (h : MemOk s) : OutOk (execMsend d a b s) := by
  dsimp only [execMsend]
  refine outOk_issue h fun _ _ ht => ?_
  exact optOk_mailBody ht

theorem outOk_execMpoll {d b} (h : MemOk s) : OutOk (execMpoll d b s) := by
  dsimp only [execMpoll]
  refine outOk_issue h fun _ _ ht => ?_
  refine optOk_ite optOk_none ?_
  split
  · exact optOk_some (memOk_putTask (memOk_modCtx ht))
  · exact optOk_some (memOk_setCore (memOk_modCtx ht) (coreOk_mk (coreOk_getCore (memOk_modCtx ht))))

theorem memOk_endGang {code c} (h : MemOk s) : MemOk (endGang code s c) := by
  dsimp only [endGang]
  split
  · exact memOk_setCore h (coreOk_mk (coreOk_getCore h))
  · exact h

theorem memOk_joinGang {leader n c} (h : MemOk s) : MemOk (joinGang leader n s c) := by
  dsimp only [joinGang]
  split
  · exact memOk_setCore h (coreOk_mk (coreOk_getCore h))
  · exact h

theorem memOk_formGang {c n} (h : MemOk s) : MemOk (formGang s c n) :=
  memOk_foldl (fun _ _ ht => memOk_joinGang ht) h

theorem outOk_execGang {d sv} (h : MemOk s) : OutOk (execGang d sv s) := by
  refine outOk_issue h fun _ _ ht => ?_
  extract_lets _ _ _ _ _ arrived
  refine optOk_ite (optOk_some (memOk_putTask ht)) ?_
  have harrived : MemOk arrived :=
    memOk_ite (memOk_modCore (memOk_bumpId ht) fun _ hk => coreOk_mk hk) (memOk_modCtx ht)
  refine optOk_ite (optOk_some (memOk_foldl (fun _ _ hu => memOk_endGang hu) harrived)) ?_
  exact optOk_ite (optOk_some (memOk_formGang harrived)) (optOk_some harrived)

theorem outOk_execUngang (h : MemOk s) : OutOk (execUngang s) := by
  refine outOk_issue h fun _ _ ht => ?_
  exact optOk_ite (optOk_some ht) (optOk_ite (optOk_some (memOk_disbandGang ht)) optOk_none)

theorem outOk_execGsync {d} (h : MemOk s) : OutOk (execGsync d s) := by
  refine outOk_issue h fun _ _ ht => ?_
  exact optOk_ite (optOk_some (memOk_modCtx ht)) (optOk_ite (optOk_some (memOk_modCtx ht)) optOk_none)

/-! ### What runs next, and where work goes -/

theorem memOk_dropUrgents {c} (h : MemOk s) : MemOk (dropUrgents s c) :=
  memOk_ite h (memOk_count (memOk_setCore h (coreOk_mk (coreOk_getCore h))))

theorem memOk_startUrgent {c e rest} (h : MemOk s) : MemOk (startUrgent s c e rest) := by
  dsimp only [startUrgent]
  exact memOk_startAct (memOk_countCreated (memOk_bindLaunch (memOk_modCore h fun _ hk => coreOk_mk hk)))

theorem memOk_chooseAt {c level} (h : MemOk s) : MemOk (chooseAt s c level) := by
  dsimp only [chooseAt]
  split
  · exact memOk_startAct (memOk_setCore h (coreOk_putAq (coreOk_getCore h)))
  · split
    · exact memOk_startAct (memOk_setCore h (coreOk_mk (coreOk_getCore h)))
    · exact h

theorem memOk_goIdle {c} (h : MemOk s) : MemOk (goIdle s c) := by
  dsimp only [goIdle]
  split
  · exact memOk_push (memOk_ite (memOk_ite h (memOk_push h)) (memOk_push (memOk_ite h (memOk_push h))))
  · exact memOk_ite (memOk_ite h (memOk_push h)) (memOk_push (memOk_ite h (memOk_push h)))

theorem outOk_execActivationChoose {c} (h : MemOk s) : OutOk (execActivationChoose c s) := by
  dsimp only [execActivationChoose]
  refine outOk_ite (outOk_done h) ?_
  split
  · exact outOk_done (memOk_startUrgent (memOk_dropUrgents h))
  · split
    · exact outOk_done (memOk_chooseAt (memOk_dropUrgents h))
    · exact outOk_done (memOk_goIdle (memOk_dropUrgents h))

theorem outOk_execUrgentEventArrive {n} (h : MemOk s) : OutOk (execUrgentEventArrive n s) := by
  unfold execUrgentEventArrive
  split
  · exact outOk_done h
  · split
    · refine outOk_ite (outOk_done (memOk_count (memOk_dropMsg h))) ?_
      refine outOk_ite ?_ ?_
      · refine outOk_ite (outOk_done (memOk_count (memOk_dropMsg h))) ?_
        exact outOk_done (memOk_mk (memOk_dropMsg h))
      · exact outOk_done (memOk_push (memOk_setCore (memOk_dropMsg h)
            (coreOk_mk (coreOk_getCore (memOk_dropMsg h)))))
    · exact outOk_done h

theorem memOk_suspend {c} (h : MemOk s) : MemOk (suspend s c) := by
  dsimp only [suspend]
  exact memOk_scramble (memOk_discardRegions (memOk_modCore
      (memOk_dropWait (memOk_dropWait (memOk_returnRunLeave h))) fun _ hk => coreOk_mk hk))

theorem outOk_execUrgentPreempt {c} (h : MemOk s) : OutOk (execUrgentPreempt c s) := by
  dsimp only [execUrgentPreempt]
  refine outOk_ite (outOk_done (memOk_dropUrgents h)) ?_
  split
  · exact outOk_done (memOk_dropUrgents h)
  · refine outOk_ite (outOk_done (memOk_push (memOk_dropUrgents h))) ?_
    exact outOk_done (memOk_startUrgent (memOk_suspend (memOk_dropUrgents h)))

theorem memOk_setSteal {c next busy backoff} (h : MemOk s) : MemOk (setSteal s c next busy backoff) :=
  memOk_modCore h fun _ hk => coreOk_mk hk

theorem outOk_execStealProbe {c} (h : MemOk s) : OutOk (execStealProbe c s) := by
  dsimp only [execStealProbe]
  refine outOk_ite (outOk_done h) ?_
  split
  · exact outOk_done (memOk_push (memOk_setSteal h))
  · exact outOk_done (memOk_sendMsg (memOk_setSteal h))

theorem outOk_execStealBackoffExpire {c} (h : MemOk s) : OutOk (execStealBackoffExpire c s) :=
  outOk_ite (outOk_done h) (outOk_done (memOk_ite (memOk_push (memOk_setSteal h)) (memOk_setSteal h)))

theorem outOk_execStealRequestServe {n} (h : MemOk s) : OutOk (execStealRequestServe n s) := by
  dsimp only [execStealRequestServe]
  split
  · exact outOk_done h
  · split
    · exact outOk_done (memOk_sendMsg (memOk_modCore (memOk_dropMsg h) fun _ hk => coreOk_mk hk))
    · exact outOk_done h

theorem outOk_execStealReplyArrive {n} (h : MemOk s) : OutOk (execStealReplyArrive n s) := by
  dsimp only [execStealReplyArrive]
  split
  · exact outOk_done h
  · split
    · refine outOk_ite (outOk_done (memOk_push (memOk_modCore (memOk_dropMsg h) fun _ hk => coreOk_mk hk))) ?_
      refine outOk_ite (outOk_done (memOk_push h)) ?_
      exact outOk_done (memOk_push (memOk_sendMsg (memOk_modCore
          (memOk_modCore (memOk_bindLaunch (memOk_dropMsg h)) fun _ hk => coreOk_mk hk) fun _ hk =>
          coreOk_mk hk)))
    · exact outOk_done h

theorem outOk_execStealAckArrive {n} (h : MemOk s) : OutOk (execStealAckArrive n s) := by
  unfold execStealAckArrive
  split
  · exact outOk_done h
  · split
    · exact outOk_done (memOk_modCore (memOk_dropMsg h) fun _ hk => coreOk_mk hk)
    · exact outOk_done h

theorem outOk_execStealReplyReturn {n} (h : MemOk s) : OutOk (execStealReplyReturn n s) := by
  dsimp only [execStealReplyReturn]
  split
  · exact outOk_done h
  · split
    · refine outOk_ite (outOk_done h) ?_
      exact outOk_done (memOk_pushAll (memOk_modCore (memOk_modCore (memOk_dropMsg h) fun _ hk => coreOk_mk hk)
          fun _ hk => coreOk_mk hk))
    · exact outOk_done h

theorem outOk_execDieResourceReport {die} (h : MemOk s) : OutOk (execDieResourceReport die s) :=
  outOk_ite (outOk_done (memOk_mk h)) (outOk_done h)

theorem outOk_execRootPlace {ltag} (h : MemOk s) : OutOk (execRootPlace ltag s) := by
  unfold execRootPlace
  split
  · exact outOk_done h
  · split
    · exact outOk_done (memOk_pushAll h)
    · exact outOk_done (memOk_sendMsg (memOk_mk h))

theorem memOk_awaitRoot {rec_ restart} (h : MemOk s) : MemOk (awaitRoot s rec_ restart) :=
  memOk_pushAll (memOk_bumpId (memOk_mk h))

theorem memOk_takeRoot {ltag c} (h : MemOk s) : MemOk (takeRoot s ltag c) := by
  unfold takeRoot
  split
  · exact h
  · exact memOk_ite h (memOk_modPacket (memOk_mk h))

theorem memOk_placeRoot {c rec_ restart} (h : MemOk s) : MemOk (placeRoot s c rec_ restart) := by
  dsimp only [placeRoot]
  split
  · refine memOk_deliverAq (memOk_takeRoot ?_)
    split
    · exact memOk_ite (memOk_countCreated (memOk_bindLaunch h)) (memOk_bindLaunch h)
    · exact memOk_bindLaunch h
  · refine memOk_takeRoot ?_
    split
    · exact memOk_ite (memOk_countCreated (memOk_bindLaunch h)) (memOk_bindLaunch h)
    · exact memOk_bindLaunch h

theorem outOk_execRootRecordArrive {n} (h : MemOk s) : OutOk (execRootRecordArrive n s) := by
  dsimp only [execRootRecordArrive]
  split
  · exact outOk_done h
  · split
    · refine outOk_ite (outOk_done (memOk_dropMsg h)) ?_
      split
      · exact outOk_done (memOk_placeRoot (memOk_dropMsg h))
      · exact outOk_done (memOk_awaitRoot (memOk_dropMsg h))
    · exact outOk_done h

theorem memOk_placeCopy {rec_ pair copy c} (h : MemOk s) : MemOk (placeCopy s rec_ pair copy c) := by
  dsimp only [placeCopy]
  split
  · exact memOk_deliverAq (memOk_bindLaunch h)
  · exact memOk_bindLaunch h

theorem outOk_execDualPairPlace {k} (h : MemOk s) : OutOk (execDualPairPlace k s) := by
  unfold execDualPairPlace
  split
  · exact outOk_done h
  · refine outOk_ite (outOk_done (memOk_push h)) ?_
    split
    · exact outOk_done (memOk_push h)
    · exact outOk_done (memOk_placeCopy (memOk_placeCopy (memOk_ite
          (memOk_takeRoot (memOk_countCreated (memOk_bindLaunch (memOk_mk h)))) (memOk_mk h))))

theorem memOk_failTask {c serial counts} (h : MemOk s) : MemOk (failTask s c serial counts) :=
  memOk_modCore (memOk_failAct h) fun _ hk => coreOk_mk hk

theorem memOk_failLive {c} (h : MemOk s) : MemOk (failLive s c) := by
  dsimp only [failLive]
  split
  · exact memOk_killPair h
  · exact memOk_failTask h

theorem outOk_execForemanCoreRestart {c} (h : MemOk s) : OutOk (execForemanCoreRestart c s) := by
  dsimp only [execForemanCoreRestart]
  refine outOk_ite (outOk_done h) ?_
  split
  · exact outOk_done h
  · refine outOk_ite (outOk_done (memOk_ite (memOk_wakeTile
        (memOk_push (memOk_setCore h (coreOk_mk (coreOk_getCore h)))))
        (memOk_push (memOk_setCore h (coreOk_mk (coreOk_getCore h)))))) ?_
    exact outOk_done (memOk_push (memOk_modCore h fun _ hk => coreOk_mk hk))
  · refine outOk_ite (outOk_done (memOk_failLive h)) ?_
    exact outOk_done (memOk_push (memOk_modCore h fun _ hk => coreOk_mk hk))

theorem outOk_execMismatchWindowEnd {die} (h : MemOk s) : OutOk (execMismatchWindowEnd die s) :=
  outOk_done (memOk_mk h)

/-! ### Barriers, counters and exchange rounds -/

theorem memOk_putBar {t c d code value} (ht : MemOk t) : MemOk (putBar t c d code value) := memOk_modCtx ht

theorem memOk_poisonBar {t i d kind a} (ht : MemOk t) : MemOk (poisonBar t i d kind a) := memOk_modCtx ht

theorem memOk_armObject {t c d off expect} (ht : MemOk t) : MemOk (armObject t c d off expect) :=
  memOk_ite (memOk_putBar ht) (memOk_putBar (memOk_writeBar ht))

theorem memOk_openRound {t c bs} (ht : MemOk t) : MemOk (openRound t c bs).1 := by
  dsimp only [openRound]
  split
  · exact ht
  · refine memOk_fst_ite ht (memOk_fst_ite ht ?_)
    split
    · exact memOk_setCore ht (coreOk_mk (coreOk_putAq (coreOk_getCore ht)))
    · exact ht

theorem memOk_withdrawRound {t c round} (ht : MemOk t) : MemOk (withdrawRound t c round).1 := by
  dsimp only [withdrawRound]
  split
  · exact ht
  · exact memOk_setCore ht (coreOk_putAq (coreOk_modRound (coreOk_getCore ht)))

theorem optOk_barmBody {d a b i t} (ht : MemOk t) : OptOk (barmBody d a b i t) := by
  dsimp only [barmBody]
  refine optOk_ite (optOk_ite optOk_none (optOk_some (memOk_putBar (memOk_withdrawRound ht))))
      (optOk_ite (optOk_ite (optOk_some (memOk_trapFrom ht)) (optOk_ite optOk_none ?_))
      (optOk_ite (optOk_some (memOk_trapFrom ht)) (optOk_ite optOk_none ?_)))
  · split
    · exact optOk_some (memOk_putBar ht)
    · exact optOk_ite optOk_none (optOk_some (memOk_putBar (memOk_openRound ht)))
  · split
    · exact optOk_some (memOk_putBar ht)
    · exact optOk_ite optOk_none (optOk_some (memOk_armObject ht))

theorem outOk_execBarmArm {d a b} (h : MemOk s) : OutOk (execBarmArm d a b s) := by
  refine outOk_issue h fun _ _ ht => ?_
  exact optOk_barmBody ht

theorem outOk_execBarmOpenRound {d a b} (h : MemOk s) : OutOk (execBarmOpenRound d a b s) := by
  refine outOk_issue h fun _ _ ht => ?_
  exact optOk_barmBody ht

theorem outOk_execBarmWithdrawRound {d a b} (h : MemOk s) : OutOk (execBarmWithdrawRound d a b s) := by
  refine outOk_issue h fun _ _ ht => ?_
  exact optOk_barmBody ht

theorem outOk_execBara {d a b} (h : MemOk s) : OutOk (execBara d a b s) := by
  refine outOk_issue h fun _ _ ht => ?_
  dsimp only
  refine optOk_ite (optOk_some (memOk_trapFrom ht)) (optOk_ite optOk_none ?_)
  split
  · refine optOk_ite (optOk_some (memOk_putBar ht)) ?_
    refine optOk_ite optOk_none ?_
    exact optOk_some (memOk_putBar (memOk_barAdd ht))
  · refine optOk_ite (optOk_some (memOk_putBar (memOk_modCtx ht))) ?_
    refine optOk_ite (optOk_some (memOk_putBar (memOk_modCtx ht))) ?_
    refine optOk_ite optOk_none ?_
    exact optOk_some (memOk_sendAcc (memOk_modCtx (memOk_modCtx ht)))
  · exact optOk_some (memOk_putBar ht)

theorem outOk_execBarw {d a} (h : MemOk s) : OutOk (execBarw d a s) := by
  refine outOk_issue h fun _ _ ht => ?_
  dsimp only
  refine optOk_ite (optOk_some (memOk_trapFrom ht)) (optOk_ite optOk_none ?_)
  split
  · exact optOk_some (memOk_poisonBar ht)
  · exact optOk_ite optOk_none (optOk_some (memOk_push (memOk_noteWait (memOk_startOp ht))))

theorem memOk_endWait {o v} (h : MemOk s) : MemOk (endWait s o v) := memOk_dropOp (memOk_updAct h)

theorem outOk_execBarwComplete {op} (h : MemOk s) : OutOk (execBarwComplete op s) := by
  unfold execBarwComplete
  split
  · exact outOk_done h
  · split
    · exact outOk_ite (outOk_done (memOk_endWait h)) (outOk_done (memOk_push h))
    · exact outOk_done h

theorem outOk_execCntrd {d a b} (h : MemOk s) : OutOk (execCntrd d a b s) := by
  refine outOk_issue h fun _ _ ht => ?_
  refine optOk_ite (optOk_some (memOk_trapFrom ht)) ?_
  refine optOk_ite (optOk_some (memOk_poisonBar ht)) ?_
  refine optOk_ite optOk_none ?_
  exact optOk_some (memOk_push (memOk_startOp ht))

theorem outOk_execCntrdReading {op} (h : MemOk s) : OutOk (execCntrdReading op s) := by
  unfold execCntrdReading
  split
  · exact outOk_done h
  · split
    · refine outOk_ite (outOk_done (memOk_push h)) ?_
      split
      · exact outOk_done (memOk_push h)
      · exact outOk_done (memOk_dropOp (memOk_updAct h))
      · refine outOk_ite (outOk_done (memOk_endOp (memOk_noteWait h))) ?_
        exact outOk_done (memOk_push (memOk_noteWait h))
    · exact outOk_done h

theorem outOk_execCntadd {d a b} (h : MemOk s) : OutOk (execCntadd d a b s) := by
  refine outOk_issue h fun _ _ ht => ?_
  refine optOk_ite (optOk_some (memOk_trapFrom ht)) ?_
  refine optOk_ite optOk_none ?_
  refine optOk_ite (optOk_some (memOk_poisonBar (memOk_modCtx ht))) ?_
  exact optOk_atomBody (memOk_modCtx ht)

theorem outOk_execRndclose {d a b} (h : MemOk s) : OutOk (execRndclose d a b s) := by
  refine outOk_issue h fun _ _ ht => ?_
  refine optOk_ite optOk_none ?_
  refine optOk_ite (optOk_some (memOk_putBar (memOk_modCtx ht))) ?_
  exact optOk_some (memOk_sendTask (memOk_modCtx ht))

/-! ### Copies -/

theorem memOk_waitIssue {t i} (ht : MemOk t) : MemOk (waitIssue t i) := memOk_modCtx ht

theorem memOk_parkRow {port op row retry} (h : MemOk s) : MemOk (parkRow s port op row retry).1 :=
  memOk_fst_ite (memOk_push (memOk_count h)) (memOk_count (memOk_mk h))

theorem memOk_settleCopy {o p} (h : MemOk s) : MemOk (settleCopy s o p) :=
  memOk_ite (memOk_endOp (memOk_putOp h)) (memOk_putOp h)

theorem optOk_startCopy {t i d p} (ht : MemOk t) : OptOk (startCopy t i d p) := by
  refine optOk_ite (optOk_some (memOk_modCtx (memOk_ite (memOk_modCtx ht) ht))) ?_
  refine optOk_ite optOk_none ?_
  refine optOk_ite (optOk_some (memOk_modCtx (memOk_ite (memOk_modCtx ht) ht))) ?_
  exact optOk_some (memOk_pushAll (memOk_startOp (memOk_ite (memOk_modCtx ht) ht)))

theorem outOk_execXcopy {d} (h : MemOk s) : OutOk (execXcopy d s) := by
  refine outOk_issue h fun _ _ ht => ?_
  exact optOk_ite optOk_none (optOk_startCopy ht)

theorem optOk_indexedBody {kind d tn i t} (ht : MemOk t) : OptOk (indexedBody kind d tn i t) := by
  dsimp only [indexedBody]
  refine optOk_ite optOk_none ?_
  split
  · exact optOk_some (memOk_trapFrom ht)
  · refine optOk_ite (optOk_some (memOk_trapFrom ht)) ?_
    refine optOk_ite (optOk_some (memOk_trapFrom ht)) ?_
    refine optOk_ite optOk_none ?_
    exact optOk_startCopy ht

theorem outOk_execXgath {d tn} (h : MemOk s) : OutOk (execXgath d tn s) := by
  refine outOk_issue h fun _ _ ht => ?_
  exact optOk_indexedBody ht

theorem outOk_execXscat {d tn} (h : MemOk s) : OutOk (execXscat d tn s) := by
  refine outOk_issue h fun _ _ ht => ?_
  exact optOk_indexedBody ht

theorem outOk_execXcancel {sv} (h : MemOk s) : OutOk (execXcancel sv s) := by
  refine outOk_issue h fun _ _ ht => ?_
  dsimp only
  split
  · split
    · split
      · exact optOk_ite (optOk_some (memOk_settleCopy ht)) (optOk_some ht)
      · exact optOk_some ht
    · exact optOk_some ht
  · exact optOk_some ht

theorem memOk_putCopyRow {o p row bs} (h : MemOk s) : MemOk (putCopyRow s o p row bs) := by
  unfold putCopyRow
  extract_lets _ _ put counted
  have hcounted : MemOk counted := memOk_mk (memOk_rowPut (memOk_rowTouch h))
  refine memOk_ite hcounted ?_
  split
  · exact memOk_countRoundRow hcounted
  · exact memOk_countRoundRow hcounted
  · exact hcounted

theorem memOk_failCopyRow {o p row kind code a} (h : MemOk s) : MemOk (failCopyRow s o p row kind code a) := by
  unfold failCopyRow
  split
  · split
    · next ht => exact memOk_putOp (memOk_fst_of_eq (memOk_parkRow h) ht)
    · next ht => exact memOk_fst_of_eq (memOk_parkRow h) ht
  · exact memOk_settleCopy h

theorem outOk_execCopyRowComplete {op row} (h : MemOk s) : OutOk (execCopyRowComplete op row s) := by
  dsimp only [execCopyRowComplete]
  split
  · exact outOk_done h
  · split
    · refine outOk_ite (outOk_done h) ?_
      refine outOk_ite (outOk_done (memOk_settleCopy h)) ?_
      refine outOk_ite (outOk_done (memOk_failCopyRow h)) ?_
      refine outOk_ite (outOk_done (memOk_failCopyRow h)) ?_
      refine outOk_ite (outOk_done (memOk_push h)) ?_
      split
      · exact outOk_done (memOk_push h)
      · exact outOk_done (memOk_failCopyRow h)
      · split
        · exact outOk_done (memOk_push h)
        · exact outOk_done (memOk_failCopyRow h)
        · exact outOk_done (memOk_settleCopy (memOk_putCopyRow h))
    · exact outOk_done h

/-! ### Multicasts -/

theorem memOk_badCopy {t c d} (ht : MemOk t) : MemOk (badCopy t c d) := memOk_modCtx ht

theorem outOk_execXmcast {d a b tn} (h : MemOk s) : OutOk (execXmcast d a b tn s) := by
  refine outOk_issue h fun i t ht => ?_
  dsimp only
  refine optOk_ite optOk_none ?_
  split
  · exact optOk_some (memOk_trapFrom ht)
  · refine optOk_ite (optOk_some (memOk_badCopy (memOk_modCtx ht))) (optOk_ite optOk_none ?_)
    split
    · next hv => exact optOk_some (memOk_waitIssue (memOk_of_drawLeave ht hv))
    · next hv => exact optOk_some (memOk_pushAll (memOk_startHeld (memOk_modCtx (memOk_of_drawLeave ht hv))))

theorem outOk_execXmread {d a b tn} (h : MemOk s) : OutOk (execXmread d a b tn s) := by
  refine outOk_issue h fun _ _ ht => ?_
  dsimp only
  refine optOk_ite optOk_none ?_
  split
  · exact optOk_some (memOk_trapFrom ht)
  · refine optOk_ite (optOk_some (memOk_trapFrom ht)) ?_
    refine optOk_ite (optOk_some (memOk_badCopy (memOk_modCtx ht))) ?_
    exact optOk_some (memOk_pushAll (memOk_startOp (memOk_modCtx ht)))

theorem memOk_raiseXfree {name} (h : MemOk s) : MemOk (raiseXfree s name) := by
  dsimp only [raiseXfree]
  exact memOk_modCore h fun _ hk => coreOk_mk hk

theorem memOk_countFreed {name fuel} (h : MemOk s) : MemOk (countFreed s name fuel) := by
  induction fuel generalizing s with
  | zero => exact h
  | succ f ih =>
    unfold countFreed
    split
    · exact h
    · exact memOk_ite (ih (memOk_raiseXfree (memOk_dropOp h))) h

theorem memOk_settleFreed {name} (h : MemOk s) : MemOk (settleFreed s name) := memOk_countFreed h

theorem outOk_execXfree {a} (h : MemOk s) : OutOk (execXfree a s) := by
  refine outOk_issue h fun _ _ ht => ?_
  refine optOk_ite optOk_none ?_
  refine optOk_ite (optOk_some (memOk_count (memOk_modCtx ht))) ?_
  exact optOk_some (memOk_sendMsg (memOk_modCtx ht))

theorem outOk_execXfreeNoticeArrive {n} (h : MemOk s) : OutOk (execXfreeNoticeArrive n s) := by
  dsimp only [execXfreeNoticeArrive]
  split
  · exact outOk_done h
  · split
    · refine outOk_ite (outOk_done (memOk_push h)) ?_
      split
      · exact outOk_done (memOk_count (memOk_dropMsg h))
      · split
        · exact outOk_done (memOk_settleFreed (memOk_putOp (memOk_dropMsg h)))
        · exact outOk_done (memOk_dropMsg h)
    · exact outOk_done h

theorem outOk_execMulticastEnd {op} (h : MemOk s) : OutOk (execMulticastEnd op s) := by
  unfold execMulticastEnd
  split
  · exact outOk_done h
  · split
    · refine outOk_ite (outOk_done h) ?_
      refine outOk_ite (outOk_done h) ?_
      exact outOk_done (memOk_settleFreed (memOk_putOp (memOk_returnOpLeave (memOk_giveStatus h))))
    · exact outOk_done h

theorem memOk_deliverRows {m core} (h : MemOk s) : MemOk (deliverRows s m core) := by
  dsimp only [deliverRows]
  refine memOk_ite (memOk_barAdd (memOk_foldl (fun _ _ ht => memOk_ite ht
      (memOk_countRoundRow (memOk_spadWrite ht))) h)) ?_
  exact memOk_foldl (fun _ _ ht => memOk_ite ht (memOk_countRoundRow (memOk_spadWrite ht))) h

theorem outOk_execMulticastDelivery {op rank} (h : MemOk s) : OutOk (execMulticastDelivery op rank s) := by
  unfold execMulticastDelivery
  split
  · exact outOk_done h
  · split
    · split
      · exact outOk_done h
      · refine outOk_ite (outOk_done h) ?_
        refine outOk_ite (outOk_done (memOk_push h)) ?_
        refine outOk_ite (outOk_done (memOk_push (memOk_putOp h))) ?_
        split
        · exact outOk_done (memOk_push (memOk_putOp h))
        · refine outOk_ite (outOk_done (memOk_push h)) ?_
          exact outOk_done (memOk_push (memOk_putOp (memOk_deliverRows h)))
    · exact outOk_done h

theorem memOk_putMerge {e} (h : MemOk s) : MemOk (putMerge s e) := memOk_mk h

theorem memOk_failLineOp {op} (h : MemOk s) : MemOk (failLineOp s op) := by
  unfold failLineOp
  split
  · exact h
  · split
    · exact memOk_putOp h
    · exact h

theorem memOk_countSent {e o m c} (h : MemOk s) : MemOk (countSent e o m s c) := memOk_ite (memOk_barAdd h) h

theorem outOk_execXmreadRequestArrive {op line} (h : MemOk s) : OutOk (execXmreadRequestArrive op line s) := by
  dsimp only [execXmreadRequestArrive]
  split
  · exact outOk_done h
  · split
    · split
      · exact outOk_done h
      · refine outOk_ite (outOk_done h) (outOk_ite (outOk_done (memOk_push h)) ?_)
        split
        · exact outOk_done (memOk_push h)
        · split
          · exact outOk_done (memOk_push (memOk_bumpId (memOk_mk h)))
          · refine outOk_ite (outOk_done (memOk_putMerge h)) ?_
            exact outOk_done (memOk_foldl (fun _ _ ht => memOk_countSent ht) (memOk_putMerge h))
        · exact outOk_done (memOk_push (memOk_failLineOp h))
    · exact outOk_done h

theorem memOk_checkReceivers {op} (h : MemOk s) : MemOk (checkReceivers s op) := by
  unfold checkReceivers
  split
  · exact h
  · split
    · exact memOk_putOp h
    · exact h

theorem memOk_sendSector {e m k c} (h : MemOk s) : MemOk (sendSector e m k s c) :=
  memOk_ite h (memOk_ite (memOk_barAdd (memOk_spadWrite h)) (memOk_spadWrite h))

theorem memOk_lineDoneOp {e cs op} (h : MemOk s) : MemOk (lineDoneOp e cs s op) := by
  unfold lineDoneOp
  split
  · exact h
  · split
    · exact memOk_putOp h
    · exact h

theorem memOk_countLineRows {e m cs} (h : MemOk s) : MemOk (countLineRows s e m cs) :=
  memOk_foldl (fun _ _ ht => memOk_countRoundRow ht) h

theorem memOk_endResponse {e m live} (h : MemOk s) : MemOk (endResponse s e m live) := by
  dsimp only [endResponse]
  exact memOk_countLineRows (memOk_foldl (fun _ _ ht => memOk_lineDoneOp ht)
      (memOk_foldl (fun _ _ ht => memOk_foldl (fun _ _ hu => memOk_sendSector hu) ht) h))

theorem outOk_execXmreadSectorSend {entry} (h : MemOk s) : OutOk (execXmreadSectorSend entry s) := by
  unfold execXmreadSectorSend
  split
  · exact outOk_done h
  · extract_lets checked _ drop touched
    have hchecked : MemOk checked := memOk_foldl (fun _ _ ht => memOk_checkReceivers ht) h
    have hdrop {u} (hu : MemOk u) : MemOk (drop u) := memOk_pushAll (memOk_mk hu)
    split
    · extract_lets sent
      refine outOk_ite (outOk_done (hdrop hchecked)) ?_
      refine outOk_ite (outOk_done (memOk_push hchecked)) ?_
      refine outOk_ite (outOk_done (hdrop (memOk_foldl (fun _ _ ht => memOk_failLineOp ht) hchecked))) ?_
      have htouched : MemOk touched := memOk_ite (memOk_touchLine hchecked) hchecked
      have hsent : MemOk sent := memOk_foldl (fun _ _ ht => memOk_sendSector ht) htouched
      refine outOk_ite (outOk_done (memOk_push (memOk_putMerge hsent))) ?_
      exact outOk_done (hdrop (memOk_endResponse hsent))
    · exact outOk_done (hdrop hchecked)

/-! ### Homes and their requests -/

theorem memOk_setHome {h' v} (h : MemOk s) : MemOk (setHome s h' v) := memOk_mk h

theorem memOk_writeHeap {i units payload} (h : MemOk s) : MemOk (writeHeap s i units payload) := by
  induction units generalizing s payload with
  | nil => exact h
  | cons u r ih => exact ih (memOk_physWrite h)

theorem memOk_putReq {r} (h : MemOk s) : MemOk (putReq s r) := memOk_mk h

theorem memOk_sendReq {issuer ni ctx hash ask tag} (h : MemOk s) :
    MemOk (sendReq s issuer ni ctx hash ask tag) :=
  memOk_push (memOk_bumpId (memOk_mk h))

theorem memOk_answerReq {home r a} (h : MemOk s) : MemOk (answerReq s home r a) :=
  memOk_push (memOk_bumpId (memOk_mk h))

/-! ### What a home does with the requests that reach it -/

theorem memOk_serve {h' r t take} (h : MemOk s) : MemOk (serve s h' r t take) :=
  memOk_answerReq (memOk_ite (memOk_count (memOk_ite (memOk_setHome h) h)) (memOk_ite (memOk_setHome h) h))

theorem memOk_deposit {h' tuple} (h : MemOk s) : MemOk (deposit s h' tuple).1 := by
  unfold deposit
  extract_lets _ _ _ stored _ served _ _ appended
  have hserved : MemOk served := memOk_foldl (fun _ _ ht => memOk_serve ht) (memOk_setHome (memOk_writeHeap h))
  have happended : MemOk appended := memOk_setHome hserved
  exact memOk_fst_ite hserved (memOk_ite (memOk_count happended) happended)

theorem memOk_putAt {h' r key shape payload} (h : MemOk s) : MemOk (putAt s h' r key shape payload) :=
  memOk_ite (memOk_answerReq h) (memOk_answerReq (memOk_deposit (memOk_setHome h)))

theorem memOk_releaseReg {c d} (h : MemOk s) : MemOk (releaseReg s c d) := by
  dsimp only [releaseReg]
  split
  · split
    · exact memOk_ite (memOk_retireDormant (memOk_setCore h (coreOk_putAq (coreOk_getCore h)))) h
    · exact h
  · exact h

theorem memOk_appendWaiter {h' r} (h : MemOk s) : MemOk (appendWaiter s h' r).1 :=
  memOk_ite (memOk_count (memOk_setHome h)) (memOk_setHome h)

theorem memOk_readAt {h' r take val mask poll dest} (h : MemOk s) :
    MemOk (readAt s h' r take val mask poll dest) := by
  dsimp only [readAt]
  split
  · exact memOk_serve (memOk_ite (memOk_answerReq (memOk_ite (memOk_setHome h) h))
        (memOk_ite (memOk_setHome h) h))
  · refine memOk_ite (memOk_answerReq h) ?_
    refine memOk_ite (memOk_answerReq h) ?_
    refine memOk_ite (memOk_answerReq (memOk_foldl (fun _ _ ht => memOk_releaseReg ht) h)) ?_
    refine memOk_ite (memOk_answerReq (memOk_appendWaiter h)) ?_
    exact memOk_appendWaiter h

theorem memOk_withdrawn {h' w} (h : MemOk s) : MemOk (withdrawn s h' w) := by
  unfold withdrawn
  extract_lets _ released
  have hreleased : MemOk released := memOk_ite (memOk_foldl (fun _ _ ht => memOk_releaseReg ht) h) h
  exact memOk_ite hreleased (memOk_answerReq hreleased)

theorem memOk_cancelAt {h' r val mask} (h : MemOk s) : MemOk (cancelAt s h' r val mask) := by
  dsimp only [cancelAt]
  split
  · exact memOk_answerReq h
  · exact memOk_answerReq (memOk_withdrawn (memOk_setHome h))

theorem memOk_replyTo {m reqid op ctx home status} (h : MemOk s) :
    MemOk (replyTo s m reqid op ctx home status) :=
  memOk_sendWaidric h

theorem memOk_redepositAt {h' r t} (h : MemOk s) : MemOk (redepositAt s h' r t) := by
  dsimp only [redepositAt]
  split
  · exact memOk_replyTo (memOk_deposit h)
  · exact memOk_deposit h

theorem memOk_forwardReq {r home} (h : MemOk s) : MemOk (forwardReq s r home) := by
  dsimp only [forwardReq]
  refine memOk_push ?_
  split
  · exact memOk_push (memOk_bumpId (memOk_mk (memOk_count (memOk_putReq h))))
  · split
    · exact memOk_sendWaidric (memOk_count (memOk_putReq h))
    · exact memOk_count (memOk_putReq h)
  · exact memOk_count (memOk_putReq h)

theorem routeOk_routeReq {r} (h : MemOk s) : RouteOk (routeReq s r) := by
  refine routeOk_ite (routeOk_moved (memOk_ite (memOk_answerReq (memOk_dropReq h))
      (memOk_ite (memOk_answerReq (memOk_dropReq h)) (memOk_sendRemote h)))) ?_
  refine routeOk_ite nofun ?_
  refine routeOk_ite (routeOk_moved (memOk_push (memOk_putReq h))) ?_
  exact routeOk_moved (memOk_forwardReq h)

theorem memOk_keyAgain {r again} (h : MemOk s) : MemOk (keyAgain s r again) :=
  memOk_push (memOk_ite (memOk_bumpFree h) h)

theorem memOk_notePerformed {r} (h : MemOk s) : MemOk (notePerformed s r) := by
  dsimp only [notePerformed]
  exact memOk_foldl (fun _ _ ht => memOk_setWaidric ht) h

/-- What a request does at its home (R432). -/
def ActOk (act : Option (State → State)) : Prop := ∀ f, act = some f → ∀ t, MemOk t → MemOk (f t)

theorem actOk_none : ActOk none := nofun

theorem actOk_some {f : State → State} (hf : ∀ t, MemOk t → MemOk (f t)) : ActOk (some f) := by
  rintro _ ⟨⟩
  exact hf

theorem outOk_atHome {n again act} (h : MemOk s) (hact : ∀ r, ActOk (act r)) :
    OutOk (atHome n s again act) := by
  unfold atHome
  split
  · exact outOk_done h
  · split
    · exact outOk_done h
    · next hf =>
      refine outOk_ite (outOk_done h) ?_
      refine outOk_ite (outOk_done (memOk_keyAgain h)) ?_
      refine outOk_ite (outOk_done (memOk_push h)) ?_
      split
      · next ht => exact outOk_done (routeOk_routeReq h _ ht)
      · exact outOk_done (hact _ _ hf _ (memOk_notePerformed (memOk_dropReq h)))

theorem memOk_fetchPayload {r key shape a len} (h : MemOk s) : MemOk (fetchPayload s r key shape a len) := by
  unfold fetchPayload
  split
  · exact h
  · split
    · exact memOk_push h
    · exact memOk_answerReq (memOk_dropReq h)
    · exact memOk_push (memOk_putReq h)

theorem outOk_execHomeKputArrive {n} (h : MemOk s) : OutOk (execHomeKputArrive n s) := by
  unfold execHomeKputArrive
  split
  · exact outOk_done h
  · split
    · exact outOk_ite (outOk_done (memOk_push h)) (outOk_done (memOk_fetchPayload h))
    · exact outOk_atHome h fun _ => actOk_some fun _ ht => memOk_putAt ht
    · exact outOk_done h

theorem outOk_execHomeKreadArrive {n} (h : MemOk s) : OutOk (execHomeKreadArrive n s) := by
  refine outOk_atHome h fun r => ?_
  split
  · exact actOk_some fun _ ht => memOk_readAt ht
  · exact actOk_none

theorem outOk_execHomeKtakeArrive {n} (h : MemOk s) : OutOk (execHomeKtakeArrive n s) := by
  refine outOk_atHome h fun r => ?_
  split
  · exact actOk_some fun _ ht => memOk_readAt ht
  · exact actOk_none

theorem outOk_execHomeKcancelArrive {n} (h : MemOk s) : OutOk (execHomeKcancelArrive n s) := by
  refine outOk_atHome h fun r => ?_
  split
  · exact actOk_some fun _ ht => memOk_cancelAt ht
  · exact actOk_none

theorem outOk_execHomeRedepositArrive {n} (h : MemOk s) : OutOk (execHomeRedepositArrive n s) := by
  refine outOk_atHome h fun r => ?_
  split
  · exact actOk_some fun _ ht => memOk_ite (memOk_redepositAt ht) (memOk_push (memOk_mk ht))
  · exact actOk_none

theorem memOk_writeTile {c b payload} (h : MemOk s) : MemOk (writeTile s c b payload) := by
  dsimp only [writeTile]
  exact memOk_foldl (fun _ _ ht => memOk_spadWrite ht) h

theorem memOk_writeImage {c a cap t} (h : MemOk s) : MemOk (writeImage s c a cap t).1 := by
  dsimp only [writeImage]
  split
  · exact h
  · exact h
  · exact h
  · exact h
  · exact memOk_rowPut (memOk_ite h (memOk_rowPut h))

theorem memOk_deliverTo {c serial op dest t} (h : MemOk s) : MemOk (deliverTo s c serial op dest t).1 := by
  unfold deliverTo
  split
  · exact memOk_fst_ite h (memOk_fst_ite h (memOk_writeTile h))
  · exact memOk_fst_ite h (memOk_fst_ite h (memOk_writeImage h))
  · exact h

theorem memOk_ackTake {d t take ok} (h : MemOk s) : MemOk (ackTake s d t take ok) :=
  memOk_ite h (memOk_push (memOk_bumpId (memOk_mk h)))

theorem memOk_dropDelivery {n} (h : MemOk s) : MemOk (dropDelivery s n) := memOk_mk h

theorem memOk_orWord {slice ctx a bits} (h : MemOk s) : MemOk (orWord s slice ctx a bits) := by
  unfold orWord
  split
  · exact memOk_physWrite (memOk_fillRange (memOk_dropCopies h))
  · exact memOk_count h

theorem memOk_answerUnit {r home code v} (h : MemOk s) : MemOk (answerUnit s r home code v) := by
  unfold answerUnit
  split
  · exact memOk_finishPacket h
  · exact memOk_ite h (memOk_count h)
  · exact memOk_ite h (memOk_orWord h)
  · exact memOk_foldl (fun _ _ ht => memOk_replyTo ht) h
  · exact h

theorem memOk_settleReq {r home code v} (h : MemOk s) : MemOk (settleReq s r home code v) := by
  dsimp only [settleReq]
  exact memOk_foldl (fun _ _ ht => memOk_endOp ht) (memOk_answerUnit
      (memOk_ite h (memOk_foldl (fun _ _ ht => memOk_releaseReg ht) h)))

theorem memOk_deliverStatus {d code overflow} (h : MemOk s) : MemOk (deliverStatus s d code overflow) :=
  memOk_settleReq h

theorem memOk_deliverAll {t xs} (h : MemOk s) : MemOk (deliverAll s t xs).1 := by
  induction xs generalizing s with
  | nil => exact h
  | cons x r ih => exact ih (memOk_deliverTo h)

theorem memOk_giveServed {d t overflow os} (h : MemOk s) : MemOk (giveServed s d t overflow os) := by
  unfold giveServed
  refine memOk_foldl (fun _ _ ht => ?_) h
  split
  · exact memOk_endOp ht
  · exact memOk_dropOp ht

theorem memOk_deliverRemote {d t overflow m reqid} (h : MemOk s) :
    MemOk (deliverRemote s d t overflow m reqid) :=
  memOk_sendWaidric h

theorem outOk_execKeyDeliveryArrive {n} (h : MemOk s) : OutOk (execKeyDeliveryArrive n s) := by
  dsimp only [execKeyDeliveryArrive]
  split
  · exact outOk_done h
  · split
    · exact outOk_done (memOk_ite (memOk_push h) (memOk_deliverStatus (memOk_dropDelivery h)))
    · exact outOk_done (memOk_foldl (fun _ _ ht => memOk_endOp ht) (memOk_dropDelivery h))
    · split
      · refine outOk_ite (outOk_done h) ?_
        exact outOk_done (memOk_foldl (fun _ _ ht => memOk_deliverRemote ht)
            (memOk_ite (memOk_mk h) (memOk_dropDelivery h)))
      · refine outOk_ite (outOk_ite (outOk_done (memOk_push h))
            (outOk_done (memOk_push (memOk_foldl (fun _ _ ht => ?_) h))))
            (outOk_ite (outOk_done (memOk_push h)) (outOk_done
            (memOk_ackTake (memOk_giveServed (memOk_deliverAll (memOk_dropDelivery h))))))
        split
        · exact memOk_ite (memOk_writeTile ht) ht
        · exact ht

theorem memOk_fireCont {c dest t pair} (h : MemOk s) : MemOk (fireCont s c dest t pair) := by
  dsimp only [fireCont]
  split
  · split
    · exact memOk_ite (memOk_countCreated (memOk_deliverAq h)) (memOk_deliverAq h)
    · exact h
  · exact h

theorem outOk_execContinuationDeliver {n} (h : MemOk s) : OutOk (execContinuationDeliver n s) := by
  dsimp only [execContinuationDeliver]
  split
  · exact outOk_done h
  · split
    · refine outOk_ite (outOk_done h) ?_
      refine outOk_ite (outOk_done (memOk_push h)) ?_
      refine outOk_ite (outOk_done (memOk_ackTake (memOk_foldl (fun _ _ ht => memOk_fireCont ht)
          (memOk_dropDelivery h)))) ?_
      exact outOk_done (memOk_ackTake (memOk_ite (memOk_count (memOk_dropDelivery h)) (memOk_dropDelivery h)))
    · exact outOk_done h

theorem memOk_ackRemote {a} (h : MemOk s) : MemOk (ackRemote s a) := memOk_sendWaidric h

theorem outOk_execKeyDeliveryAck {n} (h : MemOk s) : OutOk (execKeyDeliveryAck n s) := by
  unfold execKeyDeliveryAck
  split
  · exact outOk_done h
  · refine outOk_ite (outOk_done (memOk_ackRemote (memOk_mk h))) ?_
    refine outOk_ite (outOk_done (memOk_mk (memOk_setHome h))) ?_
    exact outOk_done (memOk_push (memOk_count (memOk_bumpId (memOk_mk (memOk_mk (memOk_setHome h))))))

/-! ### Key instructions -/

theorem memOk_putKey {t c d code} (ht : MemOk t) : MemOk (putKey t c d code) := memOk_modCtx ht

theorem memOk_sendKey {t i d hash ask operands payload} (ht : MemOk t) :
    MemOk (sendKey t i d hash ask operands payload) :=
  memOk_modCtx (memOk_sendReq (memOk_startOp ht))

theorem outOk_execKputTile {d a tn} (h : MemOk s) : OutOk (execKputTile d a tn s) := by
  dsimp only [execKputTile]
  refine outOk_issue h fun _ _ ht => ?_
  refine optOk_ite optOk_none ?_
  split
  · exact optOk_some (memOk_trapFrom ht)
  · exact optOk_ite optOk_none (optOk_some (memOk_sendKey (memOk_modCtx ht)))

theorem outOk_execKputImage {d a b} (h : MemOk s) : OutOk (execKputImage d a b s) := by
  dsimp only [execKputImage]
  refine outOk_issue h fun _ _ ht => ?_
  refine optOk_ite optOk_none ?_
  refine optOk_ite (optOk_some (memOk_trapFrom ht)) ?_
  refine optOk_ite (optOk_some (memOk_putKey (memOk_modCtx ht))) ?_
  refine optOk_ite optOk_none ?_
  split
  · exact optOk_none
  · exact optOk_some (memOk_putKey (memOk_modCtx ht))
  · refine optOk_ite (optOk_some (memOk_putKey (memOk_modCtx ht))) ?_
    split
    · exact optOk_ite optOk_none (optOk_some (memOk_sendKey (memOk_modCtx ht)))
    · exact optOk_some (memOk_sendKey (memOk_modCtx ht))

theorem memOk_commitIf {t c yes} (ht : MemOk t) : MemOk (commitIf t c yes) := memOk_ite (memOk_modCtx ht) ht

theorem optOk_readTileBody {take d g tn poll i t} (ht : MemOk t) :
    OptOk (readTileBody take d g tn poll i t) := by
  dsimp only [readTileBody]
  refine optOk_ite (optOk_some (memOk_trapFrom ht)) (optOk_ite optOk_none ?_)
  split
  · exact optOk_some (memOk_trapFrom ht)
  · exact optOk_some (memOk_sendKey (memOk_commitIf ht))

theorem optOk_readImageBody {take d g b poll i t} (ht : MemOk t) :
    OptOk (readImageBody take d g b poll i t) := by
  dsimp only [readImageBody]
  refine optOk_ite (optOk_some (memOk_trapFrom ht)) ?_
  refine optOk_ite optOk_none ?_
  refine optOk_ite (optOk_some (memOk_trapFrom ht)) ?_
  refine optOk_ite (optOk_some (memOk_putKey (memOk_commitIf ht))) ?_
  refine optOk_ite optOk_none ?_
  split
  · exact optOk_none
  · exact optOk_some (memOk_putKey (memOk_commitIf ht))
  · refine optOk_ite (optOk_some (memOk_putKey (memOk_commitIf ht))) ?_
    exact optOk_some (memOk_sendKey (memOk_commitIf ht))

theorem optOk_readContBody {take d g b tn i t} (ht : MemOk t) : OptOk (readContBody take d g b tn i t) := by
  dsimp only [readContBody]
  refine optOk_ite (optOk_some (memOk_trapFrom ht)) (optOk_ite optOk_none ?_)
  split
  · exact optOk_some (memOk_trapFrom ht)
  · split
    · exact optOk_some (memOk_putKey (memOk_commitIf ht))
    · refine optOk_ite (optOk_some (memOk_putKey (memOk_commitIf ht))) ?_
      exact optOk_some (memOk_sendKey (memOk_modCore (memOk_commitIf ht) fun _ hk => coreOk_putAq hk))

theorem outOk_execKreadTile {d a tn m} (h : MemOk s) : OutOk (execKreadTile d a tn m s) := by
  refine outOk_issue h fun _ _ ht => ?_
  exact optOk_readTileBody ht

theorem outOk_execKreadImage {d a b m} (h : MemOk s) : OutOk (execKreadImage d a b m s) := by
  refine outOk_issue h fun _ _ ht => ?_
  exact optOk_readImageBody ht

theorem outOk_execKreadCont {d a b tn} (h : MemOk s) : OutOk (execKreadCont d a b tn s) := by
  refine outOk_issue h fun _ _ ht => ?_
  exact optOk_readContBody ht

theorem outOk_execKtakeTile {d a tn m} (h : MemOk s) : OutOk (execKtakeTile d a tn m s) := by
  refine outOk_issue h fun _ _ ht => ?_
  exact optOk_readTileBody ht

theorem outOk_execKtakeImage {d a b m} (h : MemOk s) : OutOk (execKtakeImage d a b m s) := by
  refine outOk_issue h fun _ _ ht => ?_
  exact optOk_readImageBody ht

theorem outOk_execKtakeCont {d a b tn} (h : MemOk s) : OutOk (execKtakeCont d a b tn s) := by
  refine outOk_issue h fun _ _ ht => ?_
  exact optOk_readContBody ht

theorem outOk_execKcancel {d a} (h : MemOk s) : OutOk (execKcancel d a s) := by
  dsimp only [execKcancel]
  refine outOk_issue h fun _ _ ht => ?_
  refine optOk_ite (optOk_some (memOk_trapFrom ht)) ?_
  refine optOk_ite optOk_none ?_
  exact optOk_some (memOk_sendKey (memOk_modCtx ht))

theorem outOk_execKmap {d a} (h : MemOk s) : OutOk (execKmap d a s) := by
  dsimp only [execKmap]
  refine outOk_issue h fun _ _ ht => ?_
  exact optOk_ite optOk_none (optOk_some (memOk_modCtx ht))

theorem outOk_execKstat {d a b} (h : MemOk s) : OutOk (execKstat d a b s) := by
  refine outOk_issue h fun _ _ ht => ?_
  refine optOk_ite optOk_none ?_
  refine optOk_ite (optOk_some (memOk_modCtx ht)) ?_
  exact optOk_some (memOk_ite (memOk_answerReq (memOk_bumpId (memOk_startOp ht)))
      (memOk_sendRemote (memOk_bumpId (memOk_startOp ht))))

/-! ### Termination waves -/

theorem memOk_putLaunch {l} (h : MemOk s) : MemOk (putLaunch s l) := memOk_mk h

theorem outOk_execWaveStart {ltag} (h : MemOk s) : OutOk (execWaveStart ltag s) := by
  unfold execWaveStart
  split
  · exact outOk_done h
  · split
    · exact outOk_done h
    · exact outOk_ite (outOk_done h) (outOk_done (memOk_push (memOk_putLaunch h)))

theorem memOk_completeLaunch {l w} (h : MemOk s) : MemOk (completeLaunch s l w) := by
  dsimp only [completeLaunch]
  exact memOk_pushAll (memOk_finishPacket (memOk_mk (memOk_foldl (fun _ _ ht => memOk_scrubCore ht) h)))

theorem memOk_endWave {l w} (h : MemOk s) : MemOk (endWave s l w) :=
  memOk_ite (memOk_completeLaunch h) (memOk_push (memOk_putLaunch h))

theorem outOk_execWaveAnswer {c} (h : MemOk s) : OutOk (execWaveAnswer c s) := by
  dsimp only [execWaveAnswer]
  refine outOk_ite (outOk_done (memOk_push h)) ?_
  split
  · exact outOk_done h
  · split
    · refine outOk_ite (outOk_done h) ?_
      split
      · exact outOk_done (memOk_push h)
      · exact outOk_ite (outOk_done (memOk_endWave h)) (outOk_done (memOk_push (memOk_putLaunch h)))
    · exact outOk_done h

/-! ### Splitting the home map -/

theorem memOk_changeMap {m} (h : MemOk s) : MemOk (changeMap s m) := memOk_pushAll (memOk_mk h)

theorem outOk_execMapBroadcastArrive {ni} (h : MemOk s) : OutOk (execMapBroadcastArrive ni s) :=
  outOk_done (memOk_mk h)

theorem outOk_execForwardHintArrive {n} (h : MemOk s) : OutOk (execForwardHintArrive n s) := by
  unfold execForwardHintArrive
  split
  · exact outOk_done h
  · exact outOk_ite (outOk_done (memOk_mk h)) (outOk_done (memOk_mk (memOk_mk h)))

theorem outOk_execHeldForwardRelease {n} (h : MemOk s) : OutOk (execHeldForwardRelease n s) := by
  unfold execHeldForwardRelease
  split
  · exact outOk_done h
  · refine outOk_ite (outOk_done h) ?_
    refine outOk_ite (outOk_done (memOk_push (memOk_bumpFree h))) ?_
    exact outOk_done (memOk_forwardReq h)

theorem outOk_execKsplit {d a b} (h : MemOk s) : OutOk (execKsplit d a b s) := by
  refine outOk_issue h fun _ _ ht => ?_
  dsimp only
  refine optOk_ite optOk_none (optOk_ite (optOk_some (memOk_modCtx (memOk_modCtx (memOk_bumpFree ht)))) ?_)
  split
  · exact optOk_some (memOk_modCtx (memOk_modCtx (memOk_bumpFree ht)))
  · exact optOk_some (memOk_push (memOk_mk (memOk_startOp (memOk_modCtx (memOk_bumpFree ht)))))

theorem memOk_endSplit {p v} (h : MemOk s) : MemOk (endSplit s p v) := memOk_endOp (memOk_mk h)

theorem memOk_abortSplit {lost} (h : MemOk s) : MemOk (abortSplit s lost) := by
  unfold abortSplit
  split
  · exact h
  · exact memOk_ite h (memOk_endSplit h)

theorem memOk_copyUpper {p ts} (h : MemOk s) : MemOk (copyUpper s p ts) :=
  memOk_ite h (memOk_foldl (fun _ _ ht => memOk_sendRemote (memOk_bumpId ht)) h)

theorem memOk_splitOnward {p} (h : MemOk s) : MemOk (splitOnward s p) :=
  memOk_push (memOk_mk (memOk_copyUpper h))

theorem outOk_execSplitCopy (h : MemOk s) : OutOk (execSplitCopy s) := by
  unfold execSplitCopy
  split
  · exact outOk_done h
  · refine outOk_ite (outOk_done h) ?_
    refine outOk_ite (outOk_done (memOk_push h)) ?_
    refine outOk_ite (outOk_done (memOk_push h)) ?_
    exact outOk_done (memOk_splitOnward h)

theorem memOk_moveWaiter {h' w} (h : MemOk s) : MemOk (moveWaiter h' s w) := by
  dsimp only [moveWaiter]
  split
  · exact h
  · split
    · exact memOk_serve (memOk_ite (memOk_setHome h) h)
    · exact memOk_appendWaiter h

theorem memOk_takeUpper {h' ts ws seq} (h : MemOk s) : MemOk (takeUpper s h' ts ws seq) := by
  dsimp only [takeUpper]
  exact memOk_setHome (memOk_foldl (fun _ _ ht => memOk_moveWaiter ht)
      (memOk_foldl (fun _ _ ht => memOk_deposit ht) h))

theorem memOk_moveRemote {p ws rs seq gen} (h : MemOk s) : MemOk (moveRemote s p ws rs seq gen) := by
  dsimp only [moveRemote]
  exact memOk_sendWaidric (memOk_foldl (fun _ _ ht => memOk_sendTo ht)
      (memOk_foldl (fun _ _ ht => memOk_sendRemote (memOk_bumpId ht)) h))

theorem memOk_tellModules {gen lo home} (h : MemOk s) : MemOk (tellModules s gen lo home) :=
  memOk_foldl (fun _ _ ht => memOk_sendWaidric ht) h

theorem memOk_cutOver {p} (h : MemOk s) : MemOk (cutOver s p) :=
  memOk_endSplit (memOk_tellModules (memOk_changeMap (memOk_ite (memOk_mk (memOk_takeUpper (memOk_setHome h)))
      (memOk_setHome (memOk_moveRemote h)))))

theorem outOk_execSplitCutover (h : MemOk s) : OutOk (execSplitCutover s) := by
  unfold execSplitCutover
  split
  · exact outOk_done h
  · refine outOk_ite (outOk_done (memOk_cutOver h)) ?_
    refine outOk_ite (outOk_done h) ?_
    refine outOk_ite (outOk_done (memOk_push h)) ?_
    refine outOk_ite (outOk_done (memOk_push (memOk_mk h))) ?_
    exact outOk_done (memOk_splitOnward h)

theorem outOk_execSplitAbort {lost} (h : MemOk s) : OutOk (execSplitAbort lost s) :=
  outOk_done (memOk_abortSplit h)

theorem outOk_execHeapResizeRequest {home base size} (h : MemOk s) :
    OutOk (execHeapResizeRequest home base size s) :=
  outOk_ite (outOk_done (memOk_setHome h)) (outOk_done h)

/-! ### Messages of other modules -/

theorem memOk_dropWaidric {h'} (h : MemOk s) : MemOk (dropWaidric s h') := memOk_count h

theorem memOk_takeRequest {h' bs} (h : MemOk s) : MemOk (takeRequest s h' bs) :=
  memOk_ite (memOk_bumpId (memOk_mk h)) (memOk_push (memOk_bumpId (memOk_mk h)))

theorem memOk_dropOutstanding {m reqid} (h : MemOk s) : MemOk (dropOutstanding s m reqid) := memOk_setWaidric h

theorem memOk_putOutstanding {m reqid r} (h : MemOk s) : MemOk (putOutstanding s m reqid r) :=
  memOk_setWaidric h

theorem memOk_takeDelivery {h' bs} (h : MemOk s) : MemOk (takeDelivery s h' bs) := by
  unfold takeDelivery
  split
  · exact memOk_dropWaidric h
  · refine memOk_ite (memOk_dropWaidric h) ?_
    exact memOk_push (memOk_bumpId (memOk_mk (memOk_ite (memOk_putOutstanding h) (memOk_dropOutstanding h))))

theorem memOk_takeStatus {h'} (h : MemOk s) : MemOk (takeStatus s h') := by
  unfold takeStatus
  split
  · exact memOk_dropWaidric h
  · refine memOk_ite ?_ ?_
    · refine memOk_ite (memOk_ite h (memOk_dropOutstanding h)) ?_
      exact memOk_abortSplit (memOk_ite h (memOk_dropOutstanding h))
    · exact memOk_settleReq (memOk_ite h (memOk_dropOutstanding h))

theorem memOk_ackHeld {d ok} (h : MemOk s) : MemOk (ackHeld s d ok) := by
  unfold ackHeld
  split
  · exact memOk_ackTake (memOk_ite (memOk_count (memOk_dropDelivery h)) (memOk_dropDelivery h))
  · exact memOk_dropDelivery h

theorem memOk_answerHeldDelivery {d m reqid ok} (h : MemOk s) : MemOk (answerHeldDelivery s d m reqid ok) :=
  memOk_ite (memOk_ackHeld h) (memOk_mk h)

theorem memOk_takeAck {h'} (h : MemOk s) : MemOk (takeAck s h') := by
  unfold takeAck
  split
  · exact memOk_answerHeldDelivery h
  · exact memOk_ite (memOk_dropOutstanding h) (memOk_dropWaidric h)

theorem memOk_takeRedeposit {h' bs} (h : MemOk s) : MemOk (takeRedeposit s h' bs) := by
  unfold takeRedeposit
  split
  · exact memOk_answerHeldDelivery h
  · exact memOk_ite (memOk_dropWaidric h) (memOk_push (memOk_bumpId (memOk_mk h)))

theorem memOk_dropStaged {p} (h : MemOk s) : MemOk (dropStaged s p) := memOk_mk h

theorem memOk_takeCopy {h' bs} (h : MemOk s) : MemOk (takeCopy s h' bs) := by
  refine memOk_ite (memOk_dropWaidric h) ?_
  refine memOk_ite (memOk_replyTo (memOk_mk h)) ?_
  refine memOk_ite (memOk_replyTo (memOk_dropStaged h)) ?_
  exact memOk_replyTo (memOk_mk h)

theorem memOk_takeCut {h' bs} (h : MemOk s) : MemOk (takeCut s h' bs) :=
  memOk_ite (memOk_dropWaidric h) (memOk_changeMap (memOk_mk (memOk_takeUpper (memOk_mk (memOk_dropStaged h)))))

theorem memOk_takeStat {h'} (h : MemOk s) : MemOk (takeStat s h') := memOk_sendWaidric h

theorem memOk_actWaidric {h' bs} (h : MemOk s) : MemOk (actWaidric s h' bs) := by
  refine memOk_ite (memOk_takeRequest h) ?_
  refine memOk_ite (memOk_takeDelivery h) ?_
  refine memOk_ite (memOk_takeAck h) ?_
  refine memOk_ite (memOk_takeStatus h) ?_
  refine memOk_ite (memOk_takeRedeposit h) ?_
  refine memOk_ite (memOk_changeMap h) ?_
  refine memOk_ite (memOk_takeCopy h) ?_
  refine memOk_ite (memOk_takeCut h) ?_
  exact memOk_takeStat h

theorem outOk_execWaidricMessageReceive {bytes} (h : MemOk s) : OutOk (execWaidricMessageReceive bytes s) := by
  unfold execWaidricMessageReceive
  split
  · exact outOk_done (memOk_dropWaidric h)
  · exact outOk_ite (outOk_done (memOk_actWaidric h)) (outOk_done (memOk_dropWaidric h))

theorem memOk_loseOut {gone r} (h : MemOk s) : MemOk (loseOut gone s r) := by
  unfold loseOut
  split
  · exact memOk_settleReq h
  · exact memOk_ite h (memOk_push (memOk_bumpId (memOk_mk h)))
  · exact memOk_abortSplit h
  · exact memOk_settleReq h

theorem memOk_loseOutstanding {m gone p} (h : MemOk s) : MemOk (loseOutstanding s m gone p) := by
  dsimp only [loseOutstanding]
  exact memOk_foldl (fun _ _ ht => memOk_loseOut ht) (memOk_setWaidric h)

theorem memOk_dropCopiesOf {m} (h : MemOk s) : MemOk (dropCopiesOf s m) := memOk_dropStaged h

theorem memOk_reportPerformed {m} (h : MemOk s) : MemOk (reportPerformed s m) := memOk_setWaidric (memOk_mk h)

theorem memOk_abortOver {m} (h : MemOk s) : MemOk (abortOver s m) := by
  unfold abortOver
  split
  · exact memOk_ite (memOk_abortSplit h) h
  · exact h

theorem outOk_execWaidricConnectionFail {modnum reqid} (h : MemOk s) :
    OutOk (execWaidricConnectionFail modnum reqid s) :=
  outOk_done (memOk_dropCopiesOf (memOk_loseOutstanding (memOk_reportPerformed (memOk_abortOver h))))

theorem outOk_execModuleFailed {modnum} (h : MemOk s) : OutOk (execModuleFailed modnum s) := by
  dsimp only [execModuleFailed]
  exact outOk_done (memOk_withdrawWaiters (memOk_dropCopiesOf
      (memOk_foldl (fun _ _ ht => memOk_ackHeld ht) (memOk_loseOutstanding (memOk_abortOver (memOk_mk h))))))

/-! ### The Assay -/

theorem memOk_firstMsg {m} (h : MemOk s) : MemOk (firstMsg s m) := by
  refine memOk_ite h ?_
  refine memOk_ite (memOk_push h) ?_
  refine memOk_ite (memOk_push h) ?_
  refine memOk_ite (memOk_push h) ?_
  exact memOk_mk h

theorem memOk_firstReq {r} (h : MemOk s) : MemOk (firstReq s r) := by
  unfold firstReq
  split
  · exact h
  · split
    · exact memOk_keyAgain h
    · split
      · exact memOk_push h
      · split
        · next ht => exact routeOk_routeReq h _ ht
        · exact memOk_ite (memOk_push h) (memOk_ite (memOk_push h) (memOk_putReq h))

theorem outOk_execAssayFirstArrival {n} (h : MemOk s) : OutOk (execAssayFirstArrival n s) := by
  unfold execAssayFirstArrival
  split
  · exact outOk_done (memOk_firstMsg h)
  · exact outOk_done (memOk_firstReq h)
  · exact outOk_done h

theorem outOk_execAssayRetry {n} (h : MemOk s) : OutOk (execAssayRetry n s) := outOk_done (memOk_push h)

theorem memOk_killTag {t blame} (h : MemOk s) : MemOk (killTag s t blame) := by
  unfold killTag
  split
  · exact memOk_killPair h
  · exact h

theorem memOk_performMsg {first second} (h : MemOk s) : MemOk (performMsg s first second) := by
  dsimp only [performMsg]
  split
  · exact memOk_endMsg (memOk_acceptDual (memOk_tidyPairs (memOk_mk h)))
  · exact memOk_push (memOk_tidyPairs (memOk_mk h))

theorem memOk_performReq {first second} (h : MemOk s) : MemOk (performReq s first second) :=
  memOk_push (memOk_putReq (memOk_dropReq h))

theorem outOk_execAssayTwinArrival {n} (h : MemOk s) : OutOk (execAssayTwinArrival n s) := by
  unfold execAssayTwinArrival
  split
  · split
    · exact outOk_done h
    · exact outOk_ite (outOk_done (memOk_performMsg h)) (outOk_done (memOk_killTag h))
  · split
    · exact outOk_done h
    · refine outOk_ite (outOk_done (memOk_performReq h)) ?_
      split
      · exact outOk_done (memOk_killTag h)
      · exact outOk_done (memOk_dropReq (memOk_dropReq h))
  · exact outOk_done h

theorem outOk_execAssayTimeout {n} (h : MemOk s) : OutOk (execAssayTimeout n s) := by
  unfold execAssayTimeout
  split
  · exact outOk_ite (outOk_done (memOk_killTag h)) (outOk_done h)
  · refine outOk_ite (outOk_done h) ?_
    split
    · exact outOk_done (memOk_killTag h)
    · exact outOk_done (memOk_dropReq h)
  · split
    · exact outOk_done (memOk_killTag h)
    · exact outOk_done h

/-! ### Accesses of the engines, the slices and the front end -/

theorem memOk_agentWritePieces {g ps bs} (h : MemOk s) : MemOk (agentWritePieces s g ps bs) := by
  induction ps generalizing s bs with
  | nil => exact h
  | cons p r ih =>
    refine ih ?_
    split
    · exact memOk_physWrite (memOk_dropCopies h)
    · exact memOk_remote h (memWf_memWrite _ _ _ h.remote)
    · exact h

theorem memOk_agentPut {g a bs} (h : MemOk s) : MemOk (agentPut s g a bs) := by
  unfold agentPut
  split
  · exact memOk_spadWrite h
  · exact memOk_spadWrite h
  · exact memOk_agentWritePieces h
  · exact h

theorem memOk_agentTouch {g a n} (h : MemOk s) : MemOk (agentTouch s g a n) := by
  unfold agentTouch
  split
  · refine memOk_foldl (fun _ _ ht => ?_) h
    split
    · exact memOk_touchLine ht
    · exact ht
  · exact h

theorem memOk_agentAtom {g a n f} (h : MemOk s) : MemOk (agentAtom s g a n f).1 := by
  unfold agentAtom
  split
  · split
    · split
      · exact h
      · exact memOk_physWrite (memOk_fillRange (memOk_dropCopies h))
    · exact memOk_remote h (memWf_memWrite _ _ _ h.remote)
    all_goals exact h
  · exact h

/-! ### Combine buffers -/

theorem memOk_setSlice {i v} (h : MemOk s) : MemOk (setSlice s i v) := memOk_mk h

theorem memOk_completeAt {i k b closed cycle t} (h : MemOk s) : MemOk (completeAt s i k b closed cycle t) :=
  memOk_push (memOk_setSlice h)

theorem memOk_freeSlotAt {i k} (h : MemOk s) : MemOk (freeSlotAt s i k) :=
  memOk_ite (memOk_setSlice h) (memOk_push (memOk_setSlice h))

theorem memOk_putResult {i b t} (h : MemOk s) : MemOk (putResult s i b t).1 := by
  dsimp only [putResult]
  refine memOk_fst_ite h ?_
  split
  · exact memOk_agentPut h
  · exact h

theorem memOk_announce {i b t word} (h : MemOk s) : MemOk (announce s i b t word) := by
  dsimp only [announce]
  split
  · exact memOk_sendReq h
  · split
    · next ht => exact memOk_fst_of_eq (memOk_agentAtom h) ht
    · next ht => exact memOk_count (memOk_fst_of_eq (memOk_agentAtom h) ht)

theorem outOk_execCombineRelease {slice slot} (h : MemOk s) : OutOk (execCombineRelease slice slot s) := by
  dsimp only [execCombineRelease]
  split
  · exact outOk_done h
  · split
    · exact outOk_done h
    · refine outOk_ite (outOk_done h) ?_
      refine outOk_ite (outOk_done (memOk_push h)) ?_
      refine outOk_ite (outOk_done (memOk_ite (memOk_setSlice (memOk_pushAll (memOk_announce ?_)))
          (memOk_push (memOk_setSlice (memOk_pushAll (memOk_announce ?_))))))
          (outOk_done (memOk_freeSlotAt (memOk_pushAll (memOk_announce ?_))))
      · split
        · exact memOk_agentPut (memOk_putResult h)
        · exact memOk_count (memOk_putResult h)
      · split
        · exact memOk_agentPut (memOk_putResult h)
        · exact memOk_count (memOk_putResult h)
      · split
        · exact memOk_agentPut (memOk_putResult h)
        · exact memOk_count (memOk_putResult h)

theorem outOk_execCombineTimeout {slice slot} (h : MemOk s) : OutOk (execCombineTimeout slice slot s) := by
  dsimp only [execCombineTimeout]
  split
  · exact outOk_done h
  · split
    · refine outOk_ite (outOk_done (memOk_bumpId (memOk_foldl (fun _ _ ht => memOk_completeAt ht) h))) ?_
      exact outOk_done h
    · exact outOk_done h

theorem outOk_execLingerExpire {slice slot} (h : MemOk s) : OutOk (execLingerExpire slice slot s) := by
  unfold execLingerExpire
  split
  · exact outOk_ite (outOk_done (memOk_freeSlotAt h)) (outOk_done h)
  · exact outOk_done h

theorem memOk_markLate {i k b t} (h : MemOk s) : MemOk (markLate s i k b t) :=
  memOk_ite (memOk_ite (memOk_freeSlotAt (memOk_orWord h)) (memOk_setSlice (memOk_orWord h))) (memOk_setSlice h)

theorem memOk_arrivalAt {i ctx d x token cycle row} (h : MemOk s) :
    MemOk (arrivalAt s i ctx d x token cycle row).1 := by
  dsimp only [arrivalAt]
  split
  · split
    · exact memOk_count h
    · exact memOk_fst_ite (memOk_count h) (memOk_fst_ite (memOk_fst_ite (memOk_completeAt h) (memOk_setSlice h))
          (memOk_markLate (memOk_count h)))
  · exact memOk_count h

theorem memOk_putRows {i ctx d x rows} (h : MemOk s) : MemOk (putRows s i ctx d x rows).1 := by
  refine foldl_induction (motive := fun r : State × Nat × Nat × Nat × Nat => MemOk r.1) (fun acc r hacc => ?_) h
  dsimp only
  split
  · exact hacc
  · split
    · exact memOk_count hacc
    · exact memOk_arrivalAt hacc

theorem memOk_dropCmb {n} (h : MemOk s) : MemOk (dropCmb s n) := memOk_mk h

theorem memOk_allocSlots {i b token opening pairs} (h : MemOk s) :
    MemOk (allocSlots s i b token opening pairs) := by
  induction pairs generalizing s token with
  | nil => exact h
  | cons row r ih => exact ih (memOk_ite (memOk_completeAt (memOk_setSlice h)) (memOk_setSlice h))

theorem memOk_tryOpen {i b m f n blk pairs waiting} (h : MemOk s) :
    MemOk (tryOpen s i b m f n blk pairs waiting).1 :=
  memOk_fst_ite h (memOk_fst_ite h (memOk_fst_ite h (memOk_fst_ite
      (memOk_bumpId (memOk_allocSlots (memOk_setSlice h))) h)))

theorem outOk_execSliceCmbopenArrive {n} (h : MemOk s) : OutOk (execSliceCmbopenArrive n s) := by
  dsimp only [execSliceCmbopenArrive]
  split
  · exact outOk_done h
  · split
    · refine outOk_ite (outOk_done (memOk_push h)) ?_
      split
      · exact outOk_done (memOk_push h)
      · exact outOk_done (memOk_endOp (memOk_dropCmb h))
      · split
        · exact outOk_done (memOk_endOp (memOk_dropCmb h))
        · refine outOk_ite (outOk_done (memOk_endOp (memOk_dropCmb h))) ?_
          split
          · next hu => exact outOk_done (memOk_endOp (memOk_fst_of_eq (memOk_tryOpen (memOk_dropCmb h)) hu))
          · next hu =>
            have hu := memOk_fst_of_eq (memOk_tryOpen (memOk_dropCmb h)) hu
            exact outOk_ite (outOk_done (memOk_dropOp hu)) (outOk_done (memOk_setSlice hu))
    · exact outOk_done h

theorem outOk_execOpenWaitServe {slice} (h : MemOk s) : OutOk (execOpenWaitServe slice s) := by
  dsimp only [execOpenWaitServe]
  split
  · exact outOk_done h
  · split
    · split
      · exact outOk_done h
      · next ht => exact outOk_done (memOk_push (memOk_endOp
            (memOk_setSlice (memOk_fst_of_eq (memOk_tryOpen h) ht))))
    · exact outOk_done h

theorem outOk_execSliceCmbputArrive {n} (h : MemOk s) : OutOk (execSliceCmbputArrive n s) := by
  unfold execSliceCmbputArrive
  split
  · exact outOk_done h
  · split
    · refine outOk_ite (outOk_done (memOk_push h)) ?_
      split
      · exact outOk_done (memOk_push h)
      · exact outOk_done (memOk_endOp (memOk_dropCmb h))
      · refine outOk_ite (outOk_done (memOk_endOp (memOk_dropCmb h))) ?_
        refine outOk_ite (outOk_done (memOk_push h)) ?_
        exact outOk_done (memOk_endOp (memOk_bumpId (memOk_putRows (memOk_dropCmb h))))
    · exact outOk_done h

theorem memOk_forceSlots {i ctx d tokens} (h : MemOk s) : MemOk (forceSlots s i ctx d tokens).1 := by
  refine foldl_induction (motive := fun r : State × Nat => MemOk r.1) (fun acc r hacc => ?_) h
  dsimp only
  split
  · split
    · exact memOk_completeAt hacc
    · exact hacc
  · exact hacc

theorem outOk_execSliceCmbcloseArrive {n} (h : MemOk s) : OutOk (execSliceCmbcloseArrive n s) := by
  unfold execSliceCmbcloseArrive
  split
  · exact outOk_done h
  · split
    · refine outOk_ite (outOk_done (memOk_push h)) (outOk_ite (outOk_done (memOk_endOp (memOk_dropCmb h))) ?_)
      split
      · exact outOk_done (memOk_push h)
      · exact outOk_done (memOk_endOp (memOk_dropCmb h))
      · exact outOk_done (memOk_endOp (memOk_bumpId (memOk_forceSlots (memOk_dropCmb h))))
    · exact outOk_done h

theorem memOk_sendCmb {t i d dd rel ask} (ht : MemOk t) : MemOk (sendCmb t i d dd rel ask) := by
  refine memOk_ite (memOk_modCtx (memOk_modCtx ht)) ?_
  exact memOk_push (memOk_bumpId (memOk_mk (memOk_startOp (memOk_modCtx ht))))

theorem outOk_execCmbopen {d a b tn k} (h : MemOk s) : OutOk (execCmbopen d a b tn k s) := by
  refine outOk_issue h fun _ _ ht => ?_
  dsimp only
  refine optOk_ite optOk_none ?_
  split
  · exact optOk_some (memOk_trapFrom ht)
  · exact optOk_some (memOk_trapFrom ht)
  · refine optOk_ite (optOk_some (memOk_trapFrom ht)) ?_
    refine optOk_ite (optOk_some (memOk_trapFrom ht)) ?_
    refine optOk_ite (optOk_some (memOk_trapFrom ht)) ?_
    refine optOk_ite (optOk_some (memOk_trapFrom ht)) ?_
    refine optOk_ite (optOk_some (memOk_trapFrom ht)) ?_
    refine optOk_ite optOk_none ?_
    exact optOk_some (memOk_sendCmb ht)

theorem outOk_execCmbput {d a b tn} (h : MemOk s) : OutOk (execCmbput d a b tn s) := by
  refine outOk_issue h fun _ _ ht => ?_
  dsimp only
  refine optOk_ite optOk_none ?_
  split
  · exact optOk_some (memOk_trapFrom ht)
  · exact optOk_some (memOk_trapFrom ht)
  · refine optOk_ite (optOk_some (memOk_trapFrom ht)) ?_
    refine optOk_ite (optOk_some (memOk_trapFrom ht)) ?_
    refine optOk_ite (optOk_some (memOk_trapFrom ht)) ?_
    refine optOk_ite (optOk_some (memOk_trapFrom ht)) ?_
    refine optOk_ite optOk_none ?_
    exact optOk_some (memOk_sendCmb ht)

theorem outOk_execCmbclose {d a b} (h : MemOk s) : OutOk (execCmbclose d a b s) := by
  refine outOk_issue h fun _ _ ht => ?_
  exact optOk_ite optOk_none (optOk_ite (optOk_some (memOk_trapFrom ht)) (optOk_some (memOk_sendCmb ht)))

theorem outOk_execCmbstat {d a} (h : MemOk s) : OutOk (execCmbstat d a s) := by
  refine outOk_issue h fun _ _ ht => ?_
  dsimp only
  refine optOk_ite optOk_none ?_
  refine optOk_ite (optOk_some (memOk_trapFrom ht)) ?_
  refine optOk_ite optOk_none ?_
  split
  · exact optOk_none
  · exact optOk_some (memOk_modCtx ht)
  · split
    · exact optOk_some (memOk_modCtx (memOk_bumpFree (memOk_setSlice ht)))
    · exact optOk_some (memOk_modCtx ht)
    · exact optOk_some (memOk_modCtx ht)

/-! ### Stack engines -/

theorem memOk_putRowPieces {g ps bs} (h : MemOk s) : MemOk (putRowPieces s g ps bs) := by
  induction ps generalizing s bs with
  | nil => exact h
  | cons p r ih => exact ih (memOk_agentPut h)

theorem memOk_touchRow {g ps} (h : MemOk s) : MemOk (touchRow s g ps) :=
  memOk_foldl (fun _ _ ht => memOk_agentTouch ht) h

theorem memOk_freeIf {undef bs} (h : MemOk s) : MemOk (freeIf s undef bs).1 := memOk_fst_ite (memOk_mk h) h

theorem msOk_msFail {kind direction} : MsOk (msFail kind direction) := nofun

theorem msOk_msReadFail {kind a} : MsOk (msReadFail kind a) := msOk_ite nofun msOk_msFail

theorem msOk_msWriteFail {kind a} : MsOk (msWriteFail kind a) := msOk_ite nofun msOk_msFail

theorem msOk_iredStep {o m p} (h : MemOk s) : MsOk (iredStep s o m p) := by
  dsimp only [iredStep]
  split
  · exact msOk_done (memOk_touchRow h)
  · exact nofun
  · exact msOk_msReadFail

theorem msOk_iscatStep {o m p} (h : MemOk s) : MsOk (iscatStep s o m p) := by
  dsimp only [iscatStep]
  split
  · exact nofun
  · exact msOk_msReadFail
  · split
    · exact nofun
    · exact msOk_msWriteFail
    · split
      · exact nofun
      · exact msOk_ite msOk_msFail msOk_msWriteFail
      · exact msOk_done (memOk_putRowPieces (memOk_agentTouch (memOk_freeIf h)))

theorem msOk_topkStep {o m k r} (h : MemOk s) : MsOk (topkStep s o m k r) := by
  dsimp only [topkStep]
  split
  · exact nofun
  · exact msOk_msReadFail
  · split
    · exact nofun
    · exact msOk_msWriteFail
    · exact msOk_done (memOk_foldl (fun _ _ ht => memOk_agentPut ht) (memOk_touchRow h))

theorem msOk_msStep {o m p} (h : MemOk s) : MsOk (msStep s o m p) := by
  unfold msStep
  refine msOk_ite nofun ?_
  split
  · exact msOk_iredStep h
  · exact msOk_iscatStep h
  · exact msOk_topkStep h

theorem memOk_putMs {o m} (h : MemOk s) : MemOk (putMs s o m) := memOk_putOp h

theorem memOk_runPacket {o m k ps} (h : MemOk s) : MemOk (runPacket s o m k ps) := by
  induction ps generalizing s m with
  | nil => exact memOk_push (memOk_putMs h)
  | cons p r ih =>
    unfold runPacket
    split
    · exact memOk_push (memOk_putMs h)
    · exact memOk_parkRow (memOk_putMs h)
    · exact memOk_push (memOk_putMs h)
    · next ht => exact ih (msOk_msStep h _ _ ht)

theorem outOk_execMsPacketExecute {op} (h : MemOk s) : OutOk (execMsPacketExecute op s) := by
  unfold execMsPacketExecute
  split
  · exact outOk_done h
  · split
    · refine outOk_ite (outOk_done (memOk_push h)) ?_
      refine outOk_ite (outOk_done h) ?_
      refine outOk_ite (outOk_ite (outOk_done (memOk_push h)) ?_) ?_
      · split
        · exact outOk_done (memOk_push h)
        · exact outOk_done (memOk_parkRow h)
        · exact outOk_done (memOk_push (memOk_putMs h))
        · exact outOk_done (memOk_push (memOk_putMs (memOk_agentTouch h)))
      · split
        · exact outOk_done (memOk_push h)
        · refine outOk_ite (outOk_done h) ?_
          refine outOk_ite (outOk_done (memOk_push h)) ?_
          exact outOk_done (memOk_runPacket h)
    · exact outOk_done h

theorem memOk_endMs {o m} (h : MemOk s) : MemOk (endMs s o m) := memOk_endOp (memOk_returnOpLeave h)

theorem outOk_execMsComplete {op} (h : MemOk s) : OutOk (execMsComplete op s) := by
  dsimp only [execMsComplete]
  split
  · exact outOk_done h
  · split
    · refine outOk_ite (outOk_done h) ?_
      split
      · split
        · exact outOk_done (memOk_push h)
        · exact outOk_done (memOk_push (memOk_putMs (memOk_agentPut (memOk_freeIf h))))
        · exact outOk_ite (outOk_done (memOk_parkRow h)) (outOk_done (memOk_push (memOk_putMs h)))
      · split
        · exact outOk_done (memOk_push h)
        · exact outOk_done (memOk_endMs (memOk_agentPut h))
        · exact outOk_ite (outOk_done (memOk_parkRow h)) (outOk_done (memOk_endMs h))
    · exact outOk_done h

theorem optOk_startMs {t i d kind table area bags} (ht : MemOk t) :
    OptOk (startMs t i d kind table area bags) := by
  dsimp only [startMs]
  refine optOk_ite (optOk_some (memOk_trapFrom ht)) (optOk_ite (optOk_some (memOk_trapFrom ht))
    (optOk_ite (optOk_some (memOk_modCtx (memOk_ite (memOk_modCtx ht) ht))) ?_))
  split
  · next hv => exact optOk_some (memOk_waitIssue (memOk_of_drawLeave ht hv))
  · next hv =>
    have hv := memOk_of_drawLeave ht hv
    exact optOk_some (memOk_push (memOk_startHeld (memOk_ite (memOk_modCtx hv) hv)))

theorem optOk_bagBody {kind d a b tn i t} (ht : MemOk t) : OptOk (bagBody kind d a b tn i t) := by
  dsimp only [bagBody]
  refine optOk_ite optOk_none ?_
  split
  · exact optOk_some (memOk_trapFrom ht)
  · exact optOk_ite (optOk_some (memOk_trapFrom ht)) (optOk_ite optOk_none (optOk_startMs ht))

theorem outOk_execMsired {d a b tn} (h : MemOk s) : OutOk (execMsired d a b tn s) := by
  refine outOk_issue h fun _ _ ht => ?_
  exact optOk_bagBody ht

theorem outOk_execMsiscat {d a b tn} (h : MemOk s) : OutOk (execMsiscat d a b tn s) := by
  refine outOk_issue h fun _ _ ht => ?_
  exact optOk_bagBody ht

theorem outOk_execMstopk {d a b k} (h : MemOk s) : OutOk (execMstopk d a b k s) := by
  refine outOk_issue h fun _ _ ht => ?_
  exact optOk_ite optOk_none (optOk_startMs ht)

/-! ### Communicators and collectives -/

theorem memOk_countJoin {comm c} (h : MemOk s) : MemOk (countJoin s comm c) := memOk_mk h

theorem memOk_putInst {x} (h : MemOk s) : MemOk (putInst s x) := memOk_mk h

theorem memOk_joinCol {t i d op} (ht : MemOk t) : MemOk (joinCol t i d op) := by
  unfold joinCol
  extract_lets _ counted _ _ _ opened
  have hopened : MemOk opened := memOk_ite (memOk_countJoin ht) (memOk_mk (memOk_countJoin ht))
  split
  · exact hopened
  · refine memOk_ite (memOk_modCtx (memOk_ite (memOk_mk hopened) (memOk_putInst hopened))) ?_
    exact memOk_push (memOk_putInst (memOk_startOp hopened))

theorem optOk_colBody {k exact d a b i t} (ht : MemOk t) : OptOk (colBody k exact d a b i t) := by
  dsimp only [colBody]
  refine optOk_ite optOk_none ?_
  refine optOk_ite (optOk_some (memOk_trapFrom ht)) ?_
  refine optOk_ite optOk_none ?_
  refine optOk_ite optOk_none ?_
  refine optOk_ite (optOk_some (memOk_modCtx (memOk_modCtx ht))) ?_
  split
  · exact optOk_none
  · exact optOk_some (memOk_modCtx (memOk_modCtx ht))
  · exact optOk_ite optOk_none (optOk_some (memOk_joinCol (memOk_modCtx ht)))

theorem outOk_execColrs {d a b m} (h : MemOk s) : OutOk (execColrs d a b m s) := by
  refine outOk_issue h fun _ _ ht => ?_
  exact optOk_colBody ht

theorem outOk_execColar {d a b m} (h : MemOk s) : OutOk (execColar d a b m s) := by
  refine outOk_issue h fun _ _ ht => ?_
  exact optOk_colBody ht

theorem outOk_execColag {d a b} (h : MemOk s) : OutOk (execColag d a b s) := by
  refine outOk_issue h fun _ _ ht => ?_
  exact optOk_colBody ht

theorem outOk_execColbc {d a b} (h : MemOk s) : OutOk (execColbc d a b s) := by
  refine outOk_issue h fun _ _ ht => ?_
  exact optOk_colBody ht

theorem outOk_execColbar {d a} (h : MemOk s) : OutOk (execColbar d a s) := by
  refine outOk_issue h fun _ _ ht => ?_
  exact optOk_colBody ht

theorem memOk_failInst {x code} (h : MemOk s) : MemOk (failInst s x code) := memOk_push (memOk_putInst h)

theorem memOk_startInst {x ranks xs l} (h : MemOk s) : MemOk (startInst s x ranks xs l) := by
  dsimp only [startInst]
  exact memOk_pushAll (memOk_foldl (fun _ _ ht => memOk_putOp (memOk_agentTouch ht))
      (memOk_putInst (memOk_mk h)))

theorem outOk_execCollectiveInstanceStart {comm inst} (h : MemOk s) :
    OutOk (execCollectiveInstanceStart comm inst s) := by
  dsimp only [execCollectiveInstanceStart]
  split
  · exact outOk_done h
  · refine outOk_ite (outOk_done h) ?_
    refine outOk_ite (outOk_done (memOk_failInst h)) ?_
    refine outOk_ite (outOk_done h) ?_
    refine outOk_ite (outOk_done (memOk_push h)) ?_
    split
    · exact outOk_done (memOk_failInst h)
    · refine outOk_ite (outOk_done (memOk_failInst h)) ?_
      split
      · exact outOk_done (memOk_push (memOk_bumpFree h))
      · exact outOk_done (memOk_failInst (memOk_bumpFree h))
      · split
        · exact outOk_done (memOk_startInst (memOk_bumpFree h))
        · exact outOk_done (memOk_push (memOk_bumpFree h))
        · exact outOk_done (memOk_failInst h)
        · exact outOk_done h

theorem memOk_setEngine {die e} (h : MemOk s) : MemOk (setEngine s die e) := memOk_mk h

theorem memOk_freeBuffer {r} (h : MemOk s) : MemOk (freeBuffer s r) := memOk_setEngine h

theorem memOk_withdrawRequests {die p} (h : MemOk s) : MemOk (withdrawRequests s die p) := memOk_mk h

theorem memOk_leaveChunks {die comm} (h : MemOk s) : MemOk (leaveChunks s die comm) := by
  dsimp only [leaveChunks]
  exact memOk_push (memOk_dropWait (memOk_withdrawRequests
      (memOk_foldl (fun _ _ ht => memOk_freeBuffer ht) (memOk_setEngine h))))

theorem memOk_endInst {x} (h : MemOk s) : MemOk (endInst s x) := by
  unfold endInst
  extract_lets _ left ended
  have hleft : MemOk left := memOk_foldl (fun _ _ ht => memOk_leaveChunks ht) h
  have hended : MemOk ended :=
    memOk_foldl (fun _ _ ht => memOk_ite (memOk_endOp (memOk_bumpFree ht)) (memOk_endOp ht)) hleft
  exact memOk_ite (memOk_mk hended) (memOk_putInst hended)

theorem outOk_execCollectiveInstanceEnd {comm inst} (h : MemOk s) :
    OutOk (execCollectiveInstanceEnd comm inst s) := by
  unfold execCollectiveInstanceEnd
  split
  · exact outOk_done h
  · exact outOk_ite (outOk_done h) (outOk_ite (outOk_done (memOk_push h)) (outOk_done (memOk_endInst h)))

theorem memOk_holdBuffer {die r} (h : MemOk s) : MemOk (holdBuffer s die r) := memOk_setEngine h

theorem memOk_reserveChunk {die comm next} (h : MemOk s) : MemOk (reserveChunk s die comm next).1 := by
  unfold reserveChunk
  split
  · exact h
  · split
    · exact memOk_setEngine (memOk_holdBuffer h)
    · exact memOk_setEngine h

theorem outOk_execChunkStart {die comm} (h : MemOk s) : OutOk (execChunkStart die comm s) := by
  dsimp only [execChunkStart]
  refine outOk_ite (outOk_done h) ?_
  split
  · exact outOk_done (memOk_withdrawRequests h)
  · refine outOk_ite (outOk_done (memOk_push h)) ?_
    split
    · exact outOk_done (memOk_leaveChunks h)
    · split
      · exact outOk_done (memOk_push (memOk_reserveChunk (memOk_withdrawRequests h)))
      · split
        · next ht => exact outOk_done (memOk_of_askLeave (memOk_reserveChunk (memOk_withdrawRequests h)) ht)
        · next ht =>
          have ht := memOk_of_askLeave (memOk_reserveChunk (memOk_withdrawRequests h)) ht
          exact outOk_done (memOk_push (memOk_putOp (memOk_setEngine ht)))

theorem outOk_execChunkReservationTimeout {die comm} (h : MemOk s) :
    OutOk (execChunkReservationTimeout die comm s) :=
  outOk_ite (outOk_done h) (outOk_done (memOk_push (memOk_withdrawRequests h)))

theorem memOk_dropChunk {die r part} (h : MemOk s) : MemOk (dropChunk s die r part) :=
  memOk_returnUnits (memOk_freeBuffer (memOk_setEngine h))

theorem memOk_endChunk {die o op x r code} (h : MemOk s) : MemOk (endChunk s die o op x r code) := by
  unfold endChunk
  extract_lets _ moved _ ended
  have hmoved : MemOk moved := memOk_putOp (memOk_dropChunk h)
  have hended : MemOk ended :=
    memOk_ite (memOk_failInst hmoved) (memOk_ite (memOk_failInst (memOk_bumpFree hmoved))
        (memOk_bumpFree hmoved))
  exact memOk_pushAll hended

theorem memOk_asideChunk {die r} (h : MemOk s) : MemOk (asideChunk s die r) := memOk_ite h (memOk_setEngine h)

theorem memOk_parkChunk {die port r comm} (h : MemOk s) : MemOk (parkChunk s die port r comm).1 :=
  memOk_fst_ite (memOk_count (memOk_push (memOk_asideChunk h)))
      (memOk_count (memOk_mk (memOk_push (memOk_asideChunk h))))

theorem memOk_stepChunk {die r} (h : MemOk s) : MemOk (stepChunk die s r).1 := by
  dsimp only [stepChunk]
  split
  · exact memOk_dropChunk h
  · split
    · exact h
    · split
      · exact h
      · exact memOk_endChunk (memOk_agentPut h)
      · exact memOk_fst_ite (memOk_parkChunk h) (memOk_endChunk h)

theorem outOk_execChunkEnd {die} (h : MemOk s) : OutOk (execChunkEnd die s) := by
  have ho : MemOk ((chunksDue s (getEngine s die)).foldl
      (fun (u : State × Bool) r => let v := stepChunk die u.1 r; (v.1, u.2 || v.2)) (s, false)).1 :=
    foldl_induction (motive := fun u : State × Bool => MemOk u.1) (fun _ _ hu => memOk_stepChunk hu) h
  exact outOk_done (memOk_ite (memOk_push ho) ho)

theorem outOk_execCommunicatorWrite {comm e} (h : MemOk s) : OutOk (execCommunicatorWrite comm e s) :=
  outOk_ite (outOk_done h) (outOk_done (memOk_mk h))

/-! ### Fetching a word -/

theorem memOk_fillLine {c l} (h : MemOk s) : MemOk (fillLine s c l) := by
  unfold fillLine
  split
  · exact h
  · exact memOk_modCore (memOk_touchLine h) fun _ hk => coreOk_mk hk

theorem memOk_fetchTrap {c t} (h : MemOk s) : MemOk (fetchTrap s c t) := memOk_ite (memOk_takeTrap h) h

theorem optOk_stopCore {c} (h : MemOk s) : OptOk (stopCore s c) :=
  optOk_ite optOk_none (optOk_some (memOk_ite h (memOk_setCtx h)))

/-! ### The front end -/

theorem memOk_putShadow {q b} (h : MemOk s) : MemOk (putShadow s q b) := by
  dsimp only [putShadow]
  split
  · exact memOk_agentPut (memOk_setHq h)
  · exact memOk_setHq h
  · exact memOk_setHq h

theorem memOk_queueError {q b code} (h : MemOk s) : MemOk (queueError s q b code) :=
  memOk_putShadow (memOk_setHq h)

theorem memOk_ringBell {q value} (h : MemOk s) : MemOk (ringBell s q value) := by
  dsimp only [ringBell]
  refine memOk_ite h (memOk_ite (memOk_count h) ?_)
  split
  · exact memOk_push (memOk_ite (memOk_setPart (memOk_setHq h) (partOk_mk (partOk_getPart (memOk_setHq h))))
        (memOk_setHq h))
  · exact memOk_setHq h

theorem outOk_execDoorbell {q value} (h : MemOk s) : OutOk (execDoorbell q value s) :=
  outOk_done (memOk_ite (memOk_mk h) (memOk_ringBell h))

theorem memOk_takeTail {q b} (h : MemOk s) : MemOk (takeTail s q b) := by
  dsimp only [takeTail]
  split
  · exact h
  · exact memOk_ite (memOk_queueError (memOk_setHq h)) (memOk_setHq h)

theorem memOk_badPacket {q n} (h : MemOk s) : MemOk (badPacket s q n) := memOk_finishPacket h

theorem memOk_passPackets {q epoch fuel} (h : MemOk s) : MemOk (passPackets s q epoch fuel).1 := by
  induction fuel generalizing s with
  | zero => exact h
  | succ f ih =>
    unfold passPackets
    split
    · exact h
    · exact ih (memOk_finishPacket h)

theorem memOk_fetchNext {q b} (h : MemOk s) : MemOk (fetchNext s q b) := by
  dsimp only [fetchNext]
  split
  · exact memOk_push h
  · exact memOk_push (memOk_queueError h)
  · exact memOk_pushAll (memOk_ite (memOk_finishPacket (memOk_putShadow (memOk_setHq (memOk_agentTouch h))))
        (memOk_putShadow (memOk_setHq (memOk_agentTouch h))))

theorem outOk_execPacketFetch {q} (h : MemOk s) : OutOk (execPacketFetch q s) := by
  unfold execPacketFetch
  split
  · exact outOk_done h
  · extract_lets taken _
    refine outOk_ite (outOk_done h) ?_
    have htaken : MemOk taken := memOk_takeTail (memOk_ite (memOk_putShadow h) h)
    refine outOk_ite (outOk_done (memOk_push htaken)) ?_
    exact outOk_ite (outOk_done htaken) (outOk_done (memOk_fetchNext htaken))

theorem outOk_execQueueCommit {q copyB blk word} (h : MemOk s) : OutOk (execQueueCommit q copyB blk word s) :=
  outOk_ite (outOk_done h) (outOk_done (memOk_push (memOk_setHq h)))

theorem outOk_execCommitTakeEffect {q} (h : MemOk s) : OutOk (execCommitTakeEffect q s) :=
  outOk_ite (outOk_done h) (outOk_done (memOk_push (memOk_setHq h)))

theorem memOk_beginLaunch {q p part ltag d} (h : MemOk s) : MemOk (beginLaunch s q p part ltag d) := by
  refine memOk_ite (memOk_push (memOk_bumpId (memOk_mk (memOk_modPacket (memOk_mk h))))) ?_
  exact memOk_awaitRoot (memOk_modPacket (memOk_mk h))

theorem outOk_execLaunchPacket {q n} (h : MemOk s) : OutOk (execLaunchPacket q n s) := by
  unfold execLaunchPacket
  split
  · exact outOk_done h
  · exact outOk_done (memOk_push h)
  · refine outOk_ite (outOk_done h) ?_
    refine outOk_ite (outOk_done (memOk_badPacket h)) ?_
    refine outOk_ite (outOk_done (memOk_finishPacket h)) ?_
    split
    · exact outOk_done (memOk_push h)
    · exact outOk_done (memOk_finishPacket h)
    · split
      · exact outOk_done (memOk_finishPacket h)
      · split
        · exact outOk_done (memOk_push h)
        · exact outOk_done (memOk_beginLaunch h)

theorem memOk_copyOver {g src dst bs} (h : MemOk s) : MemOk (copyOver s g src dst bs).1 :=
  memOk_fst_ite (memOk_mk h) h

theorem memOk_parkPacket {port q n} (h : MemOk s) : MemOk (parkPacket s port q n) :=
  memOk_ite (memOk_push (memOk_count h)) (memOk_count (memOk_mk h))

theorem memOk_startPacket {q n} (h : MemOk s) : MemOk (startPacket s q n) := memOk_modPacket h

theorem memOk_issuePacket {q n again} (h : MemOk s) : MemOk (issuePacket s q n again) :=
  memOk_push (memOk_startPacket h)

theorem outOk_execCopyPacket {q n} (h : MemOk s) : OutOk (execCopyPacket q n s) := by
  dsimp only [execCopyPacket]
  split
  · exact outOk_done h
  · exact outOk_done (memOk_push h)
  · refine outOk_ite (outOk_done h) ?_
    refine outOk_ite (outOk_done (memOk_badPacket h)) ?_
    refine outOk_ite (outOk_done (memOk_issuePacket h)) ?_
    split
    · exact outOk_done (memOk_push h)
    · exact outOk_ite (outOk_done (memOk_parkPacket h)) (outOk_done (memOk_finishPacket h))
    · split
      · exact outOk_done (memOk_push h)
      · exact outOk_ite (outOk_done (memOk_parkPacket h)) (outOk_done (memOk_finishPacket h))
      · exact outOk_done (memOk_finishPacket (memOk_agentPut (memOk_copyOver (memOk_agentTouch h))))

theorem outOk_execKputPacket {q n} (h : MemOk s) : OutOk (execKputPacket q n s) := by
  dsimp only [execKputPacket]
  split
  · exact outOk_done h
  · exact outOk_done (memOk_push h)
  · refine outOk_ite (outOk_done h) ?_
    refine outOk_ite (outOk_done (memOk_badPacket h)) ?_
    refine outOk_ite (outOk_done (memOk_issuePacket h)) ?_
    split
    · exact outOk_done (memOk_push h)
    · exact outOk_done (memOk_finishPacket h)
    · exact outOk_done (memOk_sendReq (memOk_modPacket (memOk_agentTouch h)))

theorem outOk_execSignalPacket {q n} (h : MemOk s) : OutOk (execSignalPacket q n s) := by
  dsimp only [execSignalPacket]
  split
  · exact outOk_done h
  · exact outOk_done (memOk_push h)
  · refine outOk_ite (outOk_done (memOk_badPacket h)) (outOk_ite (outOk_done (memOk_issuePacket h)) ?_)
    split
    · exact outOk_done (memOk_push h)
    · next hu => exact outOk_done (memOk_finishPacket (memOk_fst_of_eq (memOk_agentAtom h) hu))
    · next hu => exact outOk_done (memOk_finishPacket (memOk_fst_of_eq (memOk_agentAtom h) hu))

theorem outOk_execFencePacket {q n} (h : MemOk s) : OutOk (execFencePacket q n s) := by
  unfold execFencePacket
  split
  · exact outOk_done h
  · exact outOk_done (memOk_push h)
  · refine outOk_ite (outOk_done (memOk_badPacket h)) ?_
    refine outOk_ite (outOk_done (memOk_push (memOk_startPacket h))) ?_
    exact outOk_done (memOk_finishPacket (memOk_setHq h))

theorem memOk_stopWait {q n status detail pass force} (h : MemOk s) :
    MemOk (stopWait s q n status detail pass force) := by
  refine memOk_ite (memOk_setHq (memOk_passPackets (memOk_finishPacket (memOk_startPacket h)))) ?_
  exact memOk_passPackets (memOk_finishPacket (memOk_startPacket h))

theorem memOk_testWait {q p again} (h : MemOk s) : MemOk (testWait s q p again) := by
  dsimp only [testWait]
  split
  · exact memOk_push h
  · exact memOk_stopWait h
  · refine memOk_ite (memOk_stopWait (memOk_agentTouch h)) ?_
    refine memOk_ite (memOk_stopWait (memOk_agentTouch h)) ?_
    refine memOk_ite (memOk_stopWait (memOk_agentTouch h)) ?_
    exact memOk_push (memOk_modPacket (memOk_agentTouch h))

theorem outOk_execWaitcondPacket {q n} (h : MemOk s) : OutOk (execWaitcondPacket q n s) := by
  unfold execWaitcondPacket
  split
  · exact outOk_done h
  · exact outOk_done (memOk_push h)
  · refine outOk_ite (outOk_done h) ?_
    refine outOk_ite (outOk_done (memOk_push h)) ?_
    refine outOk_ite (outOk_done (memOk_badPacket h)) ?_
    refine outOk_ite (outOk_done (memOk_issuePacket h)) ?_
    exact outOk_done (memOk_testWait h)

theorem outOk_execWaitcondRetest {q n} (h : MemOk s) : OutOk (execWaitcondRetest q n s) := by
  unfold execWaitcondRetest
  split
  · exact outOk_ite (outOk_done h) (outOk_ite (outOk_done (memOk_push h)) (outOk_done (memOk_testWait h)))
  · exact outOk_done h

theorem memOk_losePacket {q n} (h : MemOk s) : MemOk (losePacket s q n) := by
  unfold losePacket
  split
  · exact h
  · refine memOk_ite h ?_
    split
    · exact memOk_ite (memOk_finishPacket h) h
    · exact memOk_finishPacket h
    · exact memOk_ite h (memOk_finishPacket h)
    · exact memOk_finishPacket h
    · exact memOk_stopWait h
    · exact h

theorem memOk_loseSlot {q} (h : MemOk s) : MemOk (loseSlot s q) := by
  unfold loseSlot
  split
  · exact h
  · exact memOk_ite h (memOk_push (memOk_queueError h))

theorem outOk_execCompletionRecordWrite {q n} (h : MemOk s) : OutOk (execCompletionRecordWrite q n s) := by
  dsimp only [execCompletionRecordWrite]
  split
  · exact outOk_done h
  · refine outOk_ite (outOk_done h) (outOk_ite (outOk_done (memOk_push h)) ?_)
    split
    · exact outOk_done (memOk_push h)
    · exact outOk_done (memOk_push h)
    · refine outOk_ite (outOk_done (memOk_push h)) ?_
      exact outOk_done (memOk_agentPut (memOk_retirePackets (memOk_modPacket h)))
    · exact outOk_done (memOk_retirePackets (memOk_modPacket h))
    · exact outOk_done (memOk_agentPut (memOk_retirePackets (memOk_modPacket h)))

/-! ### Frames from the Ethernet ports -/

theorem memOk_setIngress {q v} (h : MemOk s) : MemOk (setIngress s q v) := memOk_mk h

theorem memOk_afterRing {d f va} (h : MemOk s) : MemOk (afterRing s d f va) := by
  unfold afterRing
  split
  · exact h
  · exact memOk_sendMsg h

theorem memOk_dropFrame {q} (h : MemOk s) : MemOk (dropFrame s q) := memOk_count h

theorem memOk_lostWrite {g slot bs} (h : MemOk s) : MemOk (lostWrite s g slot bs) := by
  dsimp only [lostWrite]
  exact memOk_foldl (fun _ _ ht => memOk_ite ht (memOk_agentPut ht)) (memOk_mk h)

theorem optOk_ringFrame {d f} (h : MemOk s) : OptOk (ringFrame s d f) := by
  dsimp only [ringFrame]
  split
  · exact optOk_none
  · exact optOk_some (memOk_dropFrame h)
  · refine optOk_ite (optOk_some (memOk_dropFrame h)) ?_
    split
    · exact optOk_none
    · exact optOk_some (memOk_dropFrame h)
    · refine optOk_ite (optOk_some (memOk_dropFrame (memOk_lostWrite (memOk_setIngress h)))) ?_
      exact optOk_some (memOk_afterRing (memOk_mk (memOk_agentPut h)))

theorem memOk_tupleFrame {d f} (h : MemOk s) : MemOk (tupleFrame s d f) := memOk_sendReq h

theorem optOk_writeFrame {d f} (h : MemOk s) : OptOk (writeFrame s d f) := by
  unfold writeFrame
  split
  · exact optOk_ringFrame h
  · exact optOk_some (memOk_tupleFrame h)

theorem memOk_setWaits {q fs} (h : MemOk s) : MemOk (setWaits s q fs) := memOk_setIngress h

theorem memOk_passFrame {port ts bytes} (h : MemOk s) : MemOk (passFrame s port ts bytes) := by
  dsimp only [passFrame]
  split
  · exact memOk_count h
  · split
    · exact memOk_count h
    · refine memOk_ite (memOk_setWaits (memOk_setIngress h)) ?_
      split
      · next hu => exact optOk_writeFrame (memOk_setIngress h) _ hu
      · exact memOk_push (memOk_setWaits (memOk_setIngress h))

theorem memOk_tryFrame {f} (h : MemOk s) : MemOk (tryFrame s f) := by
  dsimp only [tryFrame]
  split
  · exact memOk_pushAll (memOk_setWaits (memOk_dropFrame h))
  · split
    · next ht => exact memOk_pushAll (memOk_setWaits (optOk_writeFrame h _ ht))
    · exact memOk_push h

theorem outOk_execFrameReceive {port fcsOk ts bytes} (h : MemOk s) :
    OutOk (execFrameReceive port fcsOk ts bytes s) := by
  unfold execFrameReceive
  split
  · exact outOk_done (memOk_ite (memOk_push h) (memOk_tryFrame h))
  · refine outOk_ite (outOk_done (memOk_count h)) ?_
    refine outOk_ite (outOk_ite (outOk_done (memOk_count h)) (outOk_done (memOk_mk h))) ?_
    exact outOk_done (memOk_passFrame h)

theorem memOk_resumeFrames (h : MemOk s) : MemOk (resumeFrames s) := memOk_mk h

theorem optOk_hostWrite {ctx va bytes} (h : MemOk s) : OptOk (hostWrite s ctx va bytes) := by
  dsimp only [hostWrite]
  split
  · exact optOk_none
  · exact optOk_some h
  · exact optOk_some (memOk_agentPut h)

theorem memOk_nextItems {conn fuel} (h : MemOk s) : MemOk (nextItems s conn fuel) := by
  induction fuel generalizing s with
  | zero => exact h
  | succ f ih =>
    unfold nextItems
    split
    · exact ih (memOk_ringBell h)
    · exact memOk_push h
    · exact h

theorem outOk_execHostRdmaWrite {conn ctx va bytes} (h : MemOk s) :
    OutOk (execHostRdmaWrite conn ctx va bytes s) := by
  dsimp only [execHostRdmaWrite]
  split
  · split
    · next ht => exact outOk_done (optOk_hostWrite h _ ht)
    · exact outOk_done (memOk_push (memOk_mk h))
  · refine outOk_ite (outOk_done (memOk_mk h)) ?_
    split
    · next ht => exact outOk_done (memOk_nextItems (memOk_mk (optOk_hostWrite h _ ht)))
    · exact outOk_done (memOk_push h)

/-! ### Bring-up and firmware -/

theorem memOk_modFw {b f} (h : MemOk s) : MemOk (modFw s b f) := memOk_mk h

theorem memOk_failBlock {b} (h : MemOk s) : MemOk (failBlock s b) := by
  dsimp only [failBlock]
  split
  · exact memOk_setPool (memOk_modFw h)
  · exact memOk_modFw h

theorem memOk_verifyBlock {b} (h : MemOk s) : MemOk (verifyBlock s b) := by
  unfold verifyBlock
  split
  · exact memOk_push h
  · exact memOk_failBlock h

theorem memOk_startStage {bs} (h : MemOk s) : MemOk (startStage s bs) :=
  memOk_foldl (fun _ _ ht => memOk_verifyBlock ht) h

theorem memOk_advanceStages {stages} (h : MemOk s) : MemOk (advanceStages s stages) := by
  induction stages generalizing s with
  | nil => exact h
  | cons bs r ih => exact memOk_ite (ih (memOk_startStage h)) (memOk_startStage h)

theorem outOk_execPowerOn {flash} (h : MemOk s) : OutOk (execPowerOn flash s) :=
  outOk_done (memOk_advanceStages (memOk_mk (memOk_remote memOk_reset h.remote)))

theorem outOk_execImageVerify {blk img} (h : MemOk s) : OutOk (execImageVerify blk img s) := by
  refine outOk_ite (outOk_done h) ?_
  refine outOk_ite (outOk_done (memOk_push (memOk_modFw h))) ?_
  exact outOk_done (memOk_advanceStages (memOk_failBlock h))

theorem memOk_resumeFront (h : MemOk s) : MemOk (resumeFront s) := memOk_resumeFrames (memOk_pushAll h)

theorem outOk_execFrontEndModeWrite {v} (h : MemOk s) : OutOk (execFrontEndModeWrite v s) :=
  outOk_done (memOk_ite (memOk_mk h) (memOk_resumeFront (memOk_mk h)))

theorem outOk_execBlockReady {blk} (h : MemOk s) : OutOk (execBlockReady blk s) := by
  refine outOk_ite (outOk_done h) ?_
  exact outOk_done (memOk_ite (memOk_resumeFront (memOk_advanceStages (memOk_modFw h)))
      (memOk_advanceStages (memOk_modFw h)))

theorem outOk_execMinSvnRaise {target svn signed} (h : MemOk s) : OutOk (execMinSvnRaise target svn signed s) :=
  outOk_ite (outOk_done (memOk_mk h)) (outOk_done h)

theorem outOk_execAttestationRequest {nonce} (h : MemOk s) : OutOk (execAttestationRequest nonce s) :=
  outOk_done (memOk_mk h)

theorem outOk_execHeartbeat {blk answered} (h : MemOk s) : OutOk (execHeartbeat blk answered s) := by
  unfold execHeartbeat
  split
  · exact outOk_done h
  · refine outOk_ite (outOk_done h) ?_
    refine outOk_ite (outOk_done (memOk_modFw h)) ?_
    exact outOk_done (memOk_ite (memOk_push (memOk_modFw h)) (memOk_modFw h))

theorem memOk_loseHomes {stack} (h : MemOk s) : MemOk (loseHomes s stack) := by
  dsimp only [loseHomes]
  exact memOk_foldl (fun _ _ ht => memOk_answerReq ht) (memOk_mk h)

theorem outOk_execFirmwareWatchdogReset {blk} (h : MemOk s) : OutOk (execFirmwareWatchdogReset blk s) := by
  dsimp only [execFirmwareWatchdogReset]
  split
  · exact outOk_done h
  · refine outOk_ite (outOk_done h) (outOk_done ?_)
    split
    · exact memOk_loseHomes (memOk_verifyBlock (memOk_modFw h))
    · exact memOk_verifyBlock (memOk_modFw h)

theorem memOk_holdMode {b} (h : MemOk s) : MemOk (holdMode s b) := memOk_ite (memOk_mk h) h

theorem memOk_giveMode {b} (h : MemOk s) : MemOk (giveMode s b) := by
  unfold giveMode
  split
  · exact memOk_ite (memOk_mk h) h
  · exact h

theorem outOk_execFirmwareReplace {blk img} (h : MemOk s) : OutOk (execFirmwareReplace blk img s) := by
  refine outOk_ite (outOk_done (memOk_giveMode h)) ?_
  refine outOk_ite (outOk_done (memOk_push (memOk_holdMode h))) ?_
  exact outOk_done (memOk_mk (memOk_giveMode (memOk_modFw h)))

theorem memOk_setCap {die cap} (h : MemOk s) : MemOk (setCap s die cap) :=
  memOk_pushAll (memOk_ite (memOk_wakeLeave (memOk_setPool h)) (memOk_setPool h))

theorem outOk_execLeaveCapWrite {die cap} (h : MemOk s) : OutOk (execLeaveCapWrite die cap s) :=
  outOk_ite (outOk_done h) (outOk_done (memOk_setCap h))

theorem memOk_mapCaps {f} (h : MemOk s) : MemOk (mapCaps s f) := memOk_foldl (fun _ _ ht => memOk_setCap ht) h

theorem outOk_execCurrentMonitorHigh (h : MemOk s) : OutOk (execCurrentMonitorHigh s) :=
  outOk_done (memOk_mapCaps h)

theorem outOk_execCurrentMonitorLowSustained (h : MemOk s) : OutOk (execCurrentMonitorLowSustained s) :=
  outOk_done (memOk_mapCaps h)

theorem memOk_writePartition {p ctxid clusters} (h : MemOk s) : MemOk (writePartition s p ctxid clusters) := by
  unfold writePartition
  extract_lets _ q divided new scrubbed
  have hdivided : MemOk divided := by
    refine memOk_foldl (fun _ _ ht => ?_) (memOk_setPart h partOk_nil)
    exact memOk_redivide ht
  have hscrubbed : MemOk scrubbed := memOk_foldl (fun _ _ ht => memOk_scrubCore ht) hdivided
  exact memOk_pushAll hscrubbed

theorem memOk_writeDomain {modules localMod absent} (h : MemOk s) :
    MemOk (writeDomain s modules localMod absent) :=
  memOk_mk h

theorem memOk_releaseDie {die} (h : MemOk s) : MemOk (releaseDie s die) := by
  dsimp only [releaseDie]
  exact memOk_pushAll (memOk_foldl (fun _ _ ht => memOk_modCore ht fun _ hk => coreOk_mk hk) h)

theorem outOk_execFirmwareTableWrite {w} (h : MemOk s) : OutOk (execFirmwareTableWrite w s) := by
  unfold execFirmwareTableWrite
  split
  · exact outOk_done (memOk_ite (memOk_writePartition h) h)
  · exact outOk_done (memOk_ite (memOk_mk h) h)
  · exact outOk_done (memOk_ite (memOk_setIngress h) h)
  · exact outOk_done (memOk_ite (memOk_mk h) h)
  · exact outOk_done (memOk_ite (memOk_mk h) h)
  · exact outOk_done (memOk_ite (memOk_modSys h) h)
  · exact outOk_done (memOk_ite (memOk_writeDomain h) h)
  · exact outOk_done (memOk_ite (memOk_releaseDie h) h)
  · exact outOk_done (memOk_ite (memOk_physWrite (memOk_dropCopies h)) h)
  · exact outOk_done (memOk_mk h)

/-! ### Fault queues and deadlock recovery -/

theorem memOk_replayAccs {port core} (h : MemOk s) : MemOk (replayAccs s port core) := by
  dsimp only [replayAccs]
  exact memOk_foldl (fun _ _ ht => memOk_push (memOk_stageAcc ht)) (memOk_mk h)

theorem memOk_dropEntry {e} (h : MemOk s) : MemOk (dropEntry s e) := memOk_mk h

theorem outOk_execFaultResolve {port n} (h : MemOk s) : OutOk (execFaultResolve port n s) := by
  unfold execFaultResolve
  split
  · exact outOk_done h
  · split
    · split
      · exact outOk_done (memOk_replayAccs h)
      · exact outOk_done (memOk_dropEntry h)
    · split
      · exact outOk_done (memOk_push (memOk_dropEntry h))
      · exact outOk_done (memOk_dropEntry h)
    · exact outOk_done (memOk_push (memOk_dropEntry h))

theorem memOk_declineRow {o row} (h : MemOk s) : MemOk (declineRow s o row) := by
  unfold declineRow
  split
  · exact memOk_failCopyRow h
  · exact memOk_ite (memOk_endMs h) (memOk_push (memOk_putMs h))
  · split
    · exact memOk_endChunk h
    · exact h
  · exact h

theorem memOk_declineFault {port n} (h : MemOk s) : MemOk (declineFault s port n) := by
  dsimp only [declineFault]
  split
  · exact h
  · split
    · split
      · exact memOk_replayAccs (memOk_failAcc (memOk_count (memOk_dropEntry h)))
      · exact memOk_count (memOk_dropEntry h)
    · split
      · exact memOk_declineRow (memOk_count (memOk_dropEntry h))
      · exact memOk_count (memOk_dropEntry h)
    · exact memOk_finishPacket (memOk_count (memOk_dropEntry h))

theorem outOk_execFaultDecline {port n} (h : MemOk s) : OutOk (execFaultDecline port n s) :=
  outOk_done (memOk_declineFault h)

theorem outOk_execFaultResolveTimeout {port n} (h : MemOk s) : OutOk (execFaultResolveTimeout port n s) :=
  outOk_done (memOk_declineFault h)

theorem outOk_execVcDeadlockTimeout {p} (h : MemOk s) : OutOk (execVcDeadlockTimeout p s) := by
  dsimp only [execVcDeadlockTimeout]
  split
  · exact outOk_ite (outOk_done h) (outOk_done (memOk_mk (memOk_count h)))
  · exact outOk_ite (outOk_done (memOk_count h)) (outOk_done (memOk_push (memOk_mk (memOk_count h))))

theorem outOk_execFlowAck {flow} (h : MemOk s) : OutOk (execFlowAck flow s) := by
  unfold execFlowAck
  split
  · exact outOk_done h
  · exact outOk_ite (outOk_done (memOk_push h)) (outOk_done (memOk_mk h))

theorem memOk_loseMsg {m} (h : MemOk s) : MemOk (loseMsg s m) := by
  unfold loseMsg
  split
  · exact memOk_ite h (memOk_endMsg h)
  · exact memOk_ite h (memOk_endMsg h)
  · exact memOk_endMsg h
  · exact h

theorem memOk_loseReq {r} (h : MemOk s) : MemOk (loseReq s r) := by
  unfold loseReq
  split
  · exact h
  · exact memOk_abortSplit (memOk_dropReq h)
  · exact memOk_ite h (memOk_settleReq (memOk_dropReq h))

theorem memOk_loseDelivery {d} (h : MemOk s) : MemOk (loseDelivery s d) := by
  dsimp only [loseDelivery]
  split
  · exact memOk_ite h (memOk_ackTake (memOk_answerUnit (memOk_giveServed (memOk_dropDelivery h))))
  · exact memOk_foldl (fun _ _ ht => memOk_endOp ht) (memOk_dropDelivery h)
  · exact memOk_ite h (memOk_settleReq (memOk_dropDelivery h))

theorem memOk_loseRow {o i} (h : MemOk s) : MemOk (loseRow s o i) := by
  unfold loseRow
  split
  · exact memOk_ite (memOk_failCopyRow h) h
  · split
    · exact memOk_ite h (memOk_push (memOk_putOp h))
    · exact h
  · exact memOk_ite h (memOk_ite (memOk_push (memOk_putMs h)) (memOk_endMs h))
  · split
    · exact memOk_ite h (memOk_endChunk h)
    · exact h
  · exact memOk_abortSplit h
  · exact h

theorem memOk_loseTileRow {c member} (h : MemOk s) : MemOk (loseTileRow s c member) := by
  dsimp only [loseTileRow]
  split
  · exact h
  · exact memOk_ite (memOk_raiseTileTrap h) (memOk_ite h (memOk_raiseTileTrap h))

theorem memOk_loseFetch {c} (h : MemOk s) : MemOk (loseFetch s c) := by
  dsimp only [loseFetch]
  split
  · exact memOk_fetchTrap h
  · exact h

theorem memOk_loseItem {n} (h : MemOk s) : MemOk (loseItem s n) := by
  unfold loseItem
  split
  · exact memOk_ite (memOk_failAcc h) h
  · split
    · exact memOk_loseMsg h
    · exact memOk_loseReq h
    · exact memOk_loseDelivery h
    · exact memOk_endOp (memOk_dropCmb h)
    · exact h

theorem outOk_execLinkDeath {x} (h : MemOk s) : OutOk (execLinkDeath x s) := by
  unfold execLinkDeath
  refine outOk_done ?_
  split
  · exact memOk_loseItem h
  · split
    · exact memOk_loseRow h
    · exact h
  · exact memOk_loseTileRow h
  · exact memOk_losePacket h
  · exact memOk_loseSlot h
  · exact memOk_loseFetch h
  · exact memOk_setIngress h

/-! ### Partition switches and restores -/

theorem outOk_execPartitionSwitchRequest {p} (h : MemOk s) : OutOk (execPartitionSwitchRequest p s) := by
  dsimp only [execPartitionSwitchRequest]
  refine outOk_ite (outOk_done h) ?_
  exact outOk_done (memOk_push (memOk_foldl (fun _ _ ht => memOk_failInst ht)
      (memOk_setPart h (partOk_mk (partOk_getPart h)))))

theorem memOk_haltCore {c} (h : MemOk s) : MemOk (haltCore s c) := by
  unfold haltCore
  extract_lets _ _ ungang returned dropped cleared halted
  have hungang : MemOk ungang := by
    unfold ungang
    split
    · exact memOk_leaveGang h
    · exact h
  have hcleared : MemOk cleared :=
    memOk_foldl (fun _ _ ht => memOk_dropWait ht)
      (memOk_foldl (fun _ _ ht => memOk_dropWait ht) (memOk_returnRunLeave hungang))
  exact memOk_setCtx (memOk_ite hcleared (memOk_returnUnits hcleared))

theorem outOk_execPartitionHalt {p} (h : MemOk s) : OutOk (execPartitionHalt p s) := by
  dsimp only [execPartitionHalt]
  refine outOk_ite (outOk_done h) ?_
  refine outOk_ite (outOk_done (memOk_push (memOk_mk h))) ?_
  exact outOk_done (memOk_push (memOk_setPart (memOk_foldl (fun _ _ ht => memOk_haltCore ht) h)
      (partOk_mk (partOk_getPart h))))

theorem coreOk_vacantCore : CoreOk (vacantCore) := coreOk_mk coreOk_resetCore

theorem outOk_execContextWriteOut {p} (h : MemOk s) : OutOk (execContextWriteOut p s) := by
  dsimp only [execContextWriteOut]
  refine outOk_ite (outOk_done h) (outOk_done (memOk_foldl (fun _ _ ht => memOk_redivide ht)
    (memOk_foldl (fun _ _ ht => memOk_setCore ht coreOk_vacantCore) (memOk_setPart h ?_))))
  exact List.forall_mem_map.2 fun c _ => coreOk_getCore h

theorem memOk_rejoinLeave {sh n} (h : MemOk s) : MemOk (rejoinLeave sh s n) := by
  unfold rejoinLeave
  split
  · split
    · exact memOk_push (memOk_joinWait h)
    · exact h
  · exact h

theorem memOk_placeCore {c img moved} (h : MemOk s) (himg : CoreOk img) : MemOk (placeCore s c img moved) := by
  unfold placeCore
  extract_lets sh placed t spill cleared marked joined rejoined resumed reloads
  have hplaced : MemOk placed := memOk_setCore h (coreOk_of_memWf himg.spad (memWf_freeArea _))
  have hcleared : MemOk cleared := memOk_scramble (memOk_discardRegions (memOk_mk hplaced))
  have hmarked : MemOk marked := memOk_modCore hcleared fun _ hk => coreOk_mk hk
  have hjoined : MemOk joined :=
    memOk_ite (memOk_push (memOk_joinWait (memOk_modCore hmarked fun _ hk => coreOk_mk hk)))
      (memOk_ite (memOk_push (memOk_joinWait hmarked)) hmarked)
  have hrejoined : MemOk rejoined := memOk_foldl (fun _ _ ht => memOk_rejoinLeave ht) hjoined
  have hresumed : MemOk resumed := memOk_ite (memOk_resumeTile hrejoined) hrejoined
  exact memOk_pushAll (memOk_pushAll hresumed)

theorem memOk_deliverUrgent {c e} (h : MemOk s) : MemOk (deliverUrgent s c e) :=
  memOk_ite (memOk_count h) (memOk_pushAll (memOk_setCore h (coreOk_mk (coreOk_getCore h))))

theorem memOk_restorePart {p onto} (h : MemOk s) : MemOk (restorePart s p onto) := by
  unfold restorePart
  extract_lets q cs entry changed q' rebound woken divided placed moved mine
  have hrebound : MemOk rebound := memOk_setPart (memOk_mk h) partOk_nil
  have hwoken : MemOk woken := by
    refine memOk_foldl (fun _ _ ht => ?_) hrebound
    exact memOk_push (memOk_modCore ht fun _ hk => coreOk_mk hk)
  have hdivided : MemOk divided := by
    refine memOk_foldl (fun _ _ ht => ?_) hwoken
    exact memOk_redivide ht
  have hplaced : MemOk placed := by
    refine memOk_foldl_mem (fun _ d hd ht => ?_) hdivided
    exact memOk_placeCore ht (partOk_getPart h d hd)
  refine memOk_foldl (fun _ _ ht => ?_) (memOk_mk (memOk_mk hplaced))
  exact memOk_deliverUrgent ht

theorem outOk_execPartitionRestore {p onto} (h : MemOk s) : OutOk (execPartitionRestore p onto s) :=
  outOk_ite (outOk_done (memOk_restorePart h)) (outOk_done h)

theorem outOk_execSpillReloadComplete {c region} (h : MemOk s) : OutOk (execSpillReloadComplete c region s) :=
  outOk_done (memOk_modCore h fun _ hk => coreOk_mk hk)

theorem outOk_execSlotReloadComplete {c slot} (h : MemOk s) : OutOk (execSlotReloadComplete c slot s) := by
  dsimp only [execSlotReloadComplete]
  split
  · split
    · exact outOk_done (memOk_push h)
    · exact outOk_done (memOk_putSlot h)
  · exact outOk_done h

theorem outOk_execPartitionGate {p} (h : MemOk s) : OutOk (execPartitionGate p s) := by
  dsimp only [execPartitionGate]
  split
  · exact outOk_done (memOk_pushAll h)
  · exact outOk_done (memOk_push h)
  · exact outOk_done (memOk_push h)
  · exact outOk_done (memOk_setPart h (partOk_mk (partOk_getPart h)))
  · exact outOk_done h

theorem outOk_execPartitionWake {p onto} (h : MemOk s) : OutOk (execPartitionWake p onto s) := by
  refine outOk_ite (outOk_done h) ?_
  refine outOk_ite (outOk_done (memOk_push (memOk_setPart h (partOk_mk (partOk_getPart h))))) ?_
  exact outOk_done (memOk_pushAll (memOk_restorePart h))

/-! ### Uncorrected errors and killed cores -/

theorem memOk_breakGang {c} (h : MemOk s) : MemOk (breakGang s c) := by
  dsimp only [breakGang]
  split
  · refine memOk_disbandGang ?_
    split
    · exact memOk_ite (memOk_raiseTileTrap h) h
    · exact h
  · exact memOk_leaveGang h
  · exact h

theorem memOk_cutOp {o} (h : MemOk s) : MemOk (cutOp s o) := by
  unfold cutOp
  split
  · exact memOk_settleCopy h
  · exact memOk_ite h (memOk_push (memOk_putOp h))
  · exact memOk_push (memOk_putMs h)
  · exact h

theorem coreOk_spareCore {rs fresh serial spare k} : CoreOk (spareCore rs fresh serial spare k) :=
  coreOk_of_memWf (memWf_fillRegions rfl) (memWf_freeArea _)

theorem memOk_freeLeave {c} (h : MemOk s) : MemOk (freeLeave s c) := by
  unfold freeLeave
  extract_lets _ _ returned dropped
  have hdropped : MemOk dropped := memOk_foldl (fun _ _ ht => memOk_dropWait ht) (memOk_returnRunLeave h)
  exact memOk_ite hdropped (memOk_returnUnits hdropped)

theorem memOk_stopForGood {c spare} (h : MemOk s) : MemOk (stopForGood s c spare) := by
  unfold stopForGood
  extract_lets _ freed dropped cut failed retired settled spared
  have hdropped : MemOk dropped :=
    memOk_foldl (fun _ _ ht => memOk_dropWaits ht) (memOk_freeLeave (memOk_breakGang h))
  have hcut : MemOk cut := by
    refine memOk_foldl (fun _ _ ht => ?_) hdropped
    split
    · exact memOk_cutOp ht
    · exact ht
  have hretired : MemOk retired := memOk_mk (memOk_foldl (fun _ _ ht => memOk_failInst ht) hcut)
  have hsettled : MemOk settled := memOk_foldl (fun _ _ ht => memOk_settleTally ht) hretired
  exact memOk_mk (memOk_modCore hsettled fun _ hk => coreOk_spareCore)

theorem memOk_beginMapChange {c} (h : MemOk s) : MemOk (beginMapChange s c) := by
  dsimp only [beginMapChange]
  refine memOk_pushAll ?_
  split
  · exact memOk_setPart (memOk_mk h) (partOk_mk (partOk_getPart (memOk_mk h)))
  · exact memOk_mk h

theorem outOk_killCore {c} (h : MemOk s) : OutOk (killCore s c) := by
  dsimp only [killCore]
  refine outOk_ite (outOk_done h) ?_
  refine outOk_ite (outOk_done (memOk_push h)) ?_
  refine outOk_ite (outOk_done h) ?_
  exact outOk_done (memOk_beginMapChange (memOk_stopForGood
      (memOk_mk (memOk_foldl (fun _ _ ht => memOk_killPair ht) h))))

theorem outOk_execCoreKill {c} (h : MemOk s) : OutOk (execCoreKill c s) :=
  outOk_ite (outOk_done (memOk_push h)) (outOk_killCore h)

theorem outOk_execCoreMapUpdateArrive {ni c} (h : MemOk s) : OutOk (execCoreMapUpdateArrive ni c s) :=
  outOk_done (memOk_mk h)

theorem memOk_freeDebts {c} (h : MemOk s) : MemOk (freeDebts s c) := by
  dsimp only [freeDebts]
  exact memOk_foldl (fun _ _ ht => memOk_settleFreed ht) (memOk_mk h)

theorem memOk_markLost {c} (h : MemOk s) : MemOk (markLost s c) := memOk_modCore h fun _ hk => coreOk_mk hk

theorem memOk_restartAct {c a spare} (h : MemOk s) : MemOk (restartAct s c a spare) :=
  memOk_ite (memOk_startAct h) (memOk_awaitRoot h)

theorem memOk_handleAct {c x spare} (h : MemOk s) : MemOk (handleAct s c x spare).1 := by
  unfold handleAct
  split
  · exact h
  · exact memOk_fst_ite (memOk_markLost (memOk_settleAct h)) (memOk_restartAct (memOk_dropConts h))

theorem memOk_handleActs {c spare} (h : MemOk s) : MemOk (handleActs s c spare) := by
  unfold handleActs
  extract_lets _ _ start r
  have hr : MemOk r.1 := memOk_handleAct (memOk_modCore h fun _ hk => coreOk_mk hk)
  split
  · exact hr
  · extract_lets q
    have hq : MemOk q.1 := memOk_handleAct (memOk_modCore hr fun _ hk => coreOk_mk hk)
    exact memOk_ite hq (memOk_modCore hq fun _ hk => coreOk_mk hk)

theorem memOk_failDelivered {c} (h : MemOk s) : MemOk (failDelivered s c) := by
  unfold failDelivered
  extract_lets _ _ _ emptied
  have hemptied : MemOk emptied := memOk_setCore h (coreOk_mk (coreOk_getCore h))
  exact memOk_ite hemptied (memOk_markLost (memOk_foldl (fun _ _ ht => memOk_countEnded ht) hemptied))

theorem memOk_handOver {c} (h : MemOk s) : MemOk (handOver s c) := by
  unfold handOver
  extract_lets _ _ emptied _ kept counted waiting
  have hkept : MemOk kept := memOk_mk (memOk_setCore h (coreOk_mk (coreOk_getCore h)))
  have hcounted : MemOk counted := memOk_ite hkept (memOk_count hkept)
  have hwaiting : MemOk waiting := memOk_foldl (fun _ _ ht => memOk_awaitRoot ht) hcounted
  split
  · exact memOk_push hwaiting
  · exact hwaiting

theorem outOk_execCoreMapChangeComplete {c} (h : MemOk s) : OutOk (execCoreMapChangeComplete c s) := by
  unfold execCoreMapChangeComplete
  split
  · exact outOk_done h
  · extract_lets _ _ settled
    refine outOk_ite (outOk_done (memOk_push h)) ?_
    have hsettled : MemOk settled := memOk_failDelivered (memOk_handleActs (memOk_freeDebts (memOk_mk h)))
    refine outOk_ite (outOk_done (memOk_handOver (memOk_modCore hsettled fun _ hk => coreOk_mk hk))) ?_
    exact outOk_done (memOk_push (memOk_modCore hsettled fun _ hk => coreOk_mk hk))

theorem memOk_poisonSector {cache n} (h : MemOk s) : MemOk (poisonSector s cache n) := memOk_ite (memOk_mk h) h

theorem outOk_execUncorrectableError {place} (h : MemOk s) : OutOk (execUncorrectableError place s) := by
  unfold execUncorrectableError
  split
  · exact outOk_killCore h
  · exact outOk_done (memOk_poisonSector h)
  · exact outOk_done (memOk_poisonSector h)

theorem memOk_askRepair {eng num} (h : MemOk s) : MemOk (askRepair s eng num) := memOk_push (memOk_mk h)

theorem memOk_countError {eng cls p} (h : MemOk s) : MemOk (countError s eng cls p) := by
  dsimp only [countError]
  split
  · exact memOk_ite (memOk_askRepair (memOk_mk h)) (memOk_mk h)
  · refine memOk_ite (memOk_ite (memOk_askRepair (memOk_mk h)) (memOk_mk h)) ?_
    split
    · exact memOk_ite (memOk_askRepair (memOk_mk (memOk_count h))) (memOk_mk (memOk_count h))
    · exact memOk_count h

theorem outOk_execCorrectedErrorReport {eng bank row col} (h : MemOk s) :
    OutOk (execCorrectedErrorReport eng bank row col s) := by
  dsimp only [execCorrectedErrorReport]
  refine outOk_ite (outOk_done h) ?_
  exact outOk_done (memOk_foldl (fun _ _ ht => memOk_ite (memOk_countError ht) ht) (memOk_countError h))

theorem outOk_execClassificationWindowEnd {eng} (h : MemOk s) : OutOk (execClassificationWindowEnd eng s) :=
  outOk_done (memOk_mk h)

theorem outOk_execRepairServe {eng idx} (h : MemOk s) : OutOk (execRepairServe eng idx s) :=
  outOk_done (memOk_mk h)

theorem outOk_execTranslationInvalidate {ctx lo hi} (h : MemOk s) :
    OutOk (execTranslationInvalidate ctx lo hi s) :=
  outOk_done (memOk_ite (memOk_push (memOk_mk h)) (memOk_mk h))

/-! ### Snapshots -/

theorem memOk_modCut {tag f} (h : MemOk s) : MemOk (modCut s tag f) := memOk_mk h

theorem memOk_latchBlock {tag b} (h : MemOk s) : MemOk (latchBlock s tag b) := by
  unfold latchBlock
  split
  · exact h
  · exact memOk_ite h (memOk_mk (memOk_modCut h))

theorem memOk_recordPacket {tag p} (h : MemOk s) : MemOk (recordPacket s tag p) := by
  unfold recordPacket
  split
  · exact h
  · exact memOk_ite h (memOk_ite (memOk_modCut h) (memOk_modCut h))

theorem memOk_meetPacket {p tag} (h : MemOk s) : MemOk (meetPacket p s tag) := by
  unfold meetPacket
  split
  · exact h
  · exact memOk_ite (memOk_latchBlock h) (memOk_recordPacket h)

theorem memOk_meetCuts {e} (h : MemOk s) : MemOk (meetCuts s e) := by
  unfold meetCuts
  refine memOk_ite h ?_
  split
  · exact h
  · exact memOk_foldl (fun _ _ ht => memOk_foldl (fun _ _ hu => memOk_meetPacket hu) ht) h

theorem outOk_execSnap {p} (h : MemOk s) : OutOk (execSnap p s) := by
  refine outOk_issue h fun _ _ ht => ?_
  refine optOk_ite optOk_none ?_
  refine optOk_ite (optOk_some (memOk_latchBlock (memOk_modCut ht))) ?_
  refine optOk_ite (optOk_some ht) ?_
  refine optOk_ite optOk_none ?_
  exact optOk_some (memOk_pushAll (memOk_latchBlock (memOk_modCut (memOk_mk ht))))

theorem outOk_execSnapshotMarkerArrive {tag blk} (h : MemOk s) : OutOk (execSnapshotMarkerArrive tag blk s) :=
  outOk_done (memOk_latchBlock h)

theorem outOk_execSnapshotPacketRecord {n blk} (h : MemOk s) : OutOk (execSnapshotPacketRecord n blk s) :=
  outOk_done (memOk_foldl (fun _ _ ht => memOk_foldl (fun _ _ hu => memOk_recordPacket hu) ht) h)

theorem outOk_execCutComplete {tag} (h : MemOk s) : OutOk (execCutComplete tag s) := by
  unfold execCutComplete
  split
  · exact outOk_done h
  · exact outOk_ite (outOk_done (memOk_push h)) (outOk_done (memOk_mk h))

/-! ### Every instruction and every event -/

/-- Every instruction and every event keeps the canonical form; the families that share one operation stand together. -/
theorem outOk_exec {i} (h : MemOk s) : OutOk (exec i s) := by
  unfold exec
  split
  · exact outOk_execSysr h
  · exact outOk_execSysw h
  · exact outOk_execTrap h
  · exact outOk_execEret h
  · exact outOk_execWfe h
  · exact outOk_execIflush h
  · exact outOk_execHalt h
  · exact outOk_execSnap h
  · exact outOk_execLeave h
  iterate 17 exact outOk_intOp h
  iterate 4 exact outOk_immOp h
  iterate 3 exact outOk_bitOp h
  iterate 3 exact outOk_immOp h
  iterate 7 exact outOk_intOp h
  iterate 4 exact outOk_bitOp h
  · exact outOk_intOp h
  · exact outOk_execBins h
  · exact outOk_execQpush h
  · exact outOk_execQpop h
  · exact outOk_execQlen h
  iterate 6 exact outOk_execBranch h
  · exact outOk_execJal h
  · exact outOk_execJalr h
  · exact outOk_execBranch h
  · exact outOk_execLd h
  · exact outOk_execSt h
  · exact outOk_execAmoadd h
  · exact outOk_execAmomin h
  · exact outOk_execAmomax h
  · exact outOk_execAmoand h
  · exact outOk_execAmoor h
  · exact outOk_execAmoxor h
  · exact outOk_execAmoswap h
  · exact outOk_execCas h
  · exact outOk_execFence h
  · exact outOk_execDrain h
  · exact outOk_execSpawn h
  · exact outOk_execCallat h
  · exact outOk_execRetv h
  · exact outOk_execEndAct h
  · exact outOk_execMsend h
  · exact outOk_execMpoll h
  · exact outOk_execGang h
  · exact outOk_execUngang h
  · exact outOk_execGsync h
  · exact outOk_execBarmArm h
  · exact outOk_execBarmOpenRound h
  · exact outOk_execBarmWithdrawRound h
  · exact outOk_execBara h
  · exact outOk_execBarw h
  · exact outOk_execCntrd h
  · exact outOk_execCntadd h
  · exact outOk_execRndclose h
  iterate 5 exact outOk_dispatchPlain h
  · exact outOk_dispatchRnd h
  iterate 3 exact outOk_dispatchPlain h
  iterate 3 exact outOk_dispatchRnd h
  · exact outOk_dispatchPlain h
  iterate 33 exact outOk_dispatchRnd h
  · exact outOk_execTloop h
  · exact outOk_execTwait h
  · exact outOk_dispatchPlain h
  · exact outOk_dispatchPlain h
  iterate 3 exact outOk_dispatchDup h
  · exact outOk_dispatchPlain h
  · exact outOk_dispatchRnd h
  · exact outOk_dispatchRnd h
  · exact outOk_dispatchPlain h
  · exact outOk_dispatchRnd h
  · exact outOk_execXcopy h
  · exact outOk_execXgath h
  · exact outOk_execXscat h
  · exact outOk_execXcancel h
  · exact outOk_execXmcast h
  · exact outOk_execXmread h
  · exact outOk_execXfree h
  · exact outOk_execKputTile h
  · exact outOk_execKputImage h
  · exact outOk_execKreadTile h
  · exact outOk_execKreadImage h
  · exact outOk_execKreadCont h
  · exact outOk_execKtakeTile h
  · exact outOk_execKtakeImage h
  · exact outOk_execKtakeCont h
  · exact outOk_execKcancel h
  · exact outOk_execKsplit h
  · exact outOk_execKmap h
  · exact outOk_execKstat h
  · exact outOk_execCmbopen h
  · exact outOk_execCmbput h
  · exact outOk_execCmbclose h
  · exact outOk_execCmbstat h
  · exact outOk_execMsired h
  · exact outOk_execMsiscat h
  · exact outOk_execMstopk h
  · exact outOk_execColrs h
  · exact outOk_execColar h
  · exact outOk_execColag h
  · exact outOk_execColbc h
  · exact outOk_execColbar h
  · exact outOk_execHlikely h
  · exact outOk_execHpref h
  · exact outOk_execXimm h
  · exact outOk_execXmod h
  · exact outOk_execActivationChoose h
  · exact outOk_execUrgentEventArrive h
  · exact outOk_execUrgentPreempt h
  · exact outOk_execStealProbe h
  · exact outOk_execStealBackoffExpire h
  · exact outOk_execStealRequestServe h
  · exact outOk_execStealReplyArrive h
  · exact outOk_execStealAckArrive h
  · exact outOk_execStealReplyReturn h
  · exact outOk_execCallatArrive h
  · exact outOk_execMessageArrive h
  · exact outOk_execDieResourceReport h
  · exact outOk_execRootPlace h
  · exact outOk_execRootRecordArrive h
  · exact outOk_execDualPairPlace h
  · exact outOk_execContinuationDeliver h
  · exact outOk_execRoundCloseArrive h
  · exact outOk_execWaveStart h
  · exact outOk_execWaveAnswer h
  · exact outOk_execBranchResolve h
  · exact outOk_execLoadResponse h
  · exact outOk_execFenceComplete h
  · exact outOk_execDrainComplete h
  · exact outOk_execWfeWake h
  · exact outOk_execTileUnitBegin h
  · exact outOk_execTileRowComplete h
  · exact outOk_execTileBandComplete h
  · exact outOk_execTrapEntry h
  · exact outOk_execLeaveGrant h
  · exact outOk_execBarwComplete h
  · exact outOk_execCntrdReading h
  · exact outOk_execStationTranslate h
  · exact outOk_execFaultResolve h
  · exact outOk_execFaultDecline h
  · exact outOk_execFaultResolveTimeout h
  · exact outOk_execFaultQueueRetry h
  · exact outOk_execStorePerform h
  · exact outOk_execReplicaInvalidateAck h
  · exact outOk_execAtomicPerform h
  · exact outOk_execPeerAccessArrive h
  · exact outOk_execSliceRead h
  · exact outOk_execSectorFill h
  · exact outOk_execHotWindowEnd h
  · exact outOk_execHelperRead h
  · exact outOk_execCopyRowComplete h
  · exact outOk_execMulticastDelivery h
  · exact outOk_execXmreadRequestArrive h
  · exact outOk_execXmreadSectorSend h
  · exact outOk_execMulticastEnd h
  · exact outOk_execXfreeNoticeArrive h
  · exact outOk_execMsPacketExecute h
  · exact outOk_execMsComplete h
  · exact outOk_execVcDeadlockTimeout h
  · exact outOk_execFlowAck h
  · exact outOk_execCollectiveInstanceStart h
  · exact outOk_execChunkStart h
  · exact outOk_execChunkReservationTimeout h
  · exact outOk_execChunkEnd h
  · exact outOk_execCollectiveInstanceEnd h
  · exact outOk_execCommunicatorWrite h
  · exact outOk_execHomeKputArrive h
  · exact outOk_execHomeKreadArrive h
  · exact outOk_execHomeKtakeArrive h
  · exact outOk_execHomeKcancelArrive h
  · exact outOk_execHomeRedepositArrive h
  · exact outOk_execKeyDeliveryArrive h
  · exact outOk_execKeyDeliveryAck h
  · exact outOk_execAssayFirstArrival h
  · exact outOk_execAssayTwinArrival h
  · exact outOk_execAssayRetry h
  · exact outOk_execAssayTimeout h
  · exact outOk_execForwardHintArrive h
  · exact outOk_execHeldForwardRelease h
  · exact outOk_execMapBroadcastArrive h
  · exact outOk_execSplitCopy h
  · exact outOk_execSplitCutover h
  · exact outOk_execSplitAbort h
  · exact outOk_execWaidricMessageReceive h
  · exact outOk_execWaidricConnectionFail h
  · exact outOk_execModuleFailed h
  · exact outOk_execHeapResizeRequest h
  · exact outOk_execSliceCmbopenArrive h
  · exact outOk_execSliceCmbputArrive h
  · exact outOk_execSliceCmbcloseArrive h
  · exact outOk_execCombineTimeout h
  · exact outOk_execCombineRelease h
  · exact outOk_execLingerExpire h
  · exact outOk_execOpenWaitServe h
  · exact outOk_execDoorbell h
  · exact outOk_execPacketFetch h
  · exact outOk_execLaunchPacket h
  · exact outOk_execCopyPacket h
  · exact outOk_execKputPacket h
  · exact outOk_execSignalPacket h
  · exact outOk_execFencePacket h
  · exact outOk_execWaitcondPacket h
  · exact outOk_execWaitcondRetest h
  · exact outOk_execCompletionRecordWrite h
  · exact outOk_execQueueCommit h
  · exact outOk_execCommitTakeEffect h
  · exact outOk_execFrontEndModeWrite h
  · exact outOk_execFirmwareTableWrite h
  · exact outOk_execFrameReceive h
  · exact outOk_execFirmwareWatchdogReset h
  · exact outOk_execHeartbeat h
  · exact outOk_execFirmwareReplace h
  · exact outOk_execPartitionSwitchRequest h
  · exact outOk_execPartitionHalt h
  · exact outOk_execContextWriteOut h
  · exact outOk_execPartitionRestore h
  · exact outOk_execSpillReloadComplete h
  · exact outOk_execSlotReloadComplete h
  · exact outOk_execPartitionGate h
  · exact outOk_execPartitionWake h
  · exact outOk_execUncorrectableError h
  · exact outOk_execCoreKill h
  · exact outOk_execCoreMapUpdateArrive h
  · exact outOk_execCoreMapChangeComplete h
  · exact outOk_execMismatchWindowEnd h
  · exact outOk_execCorrectedErrorReport h
  · exact outOk_execClassificationWindowEnd h
  · exact outOk_execRepairServe h
  · exact outOk_execTranslationInvalidate h
  · exact outOk_execPowerOn h
  · exact outOk_execImageVerify h
  · exact outOk_execBlockReady h
  · exact outOk_execMinSvnRaise h
  · exact outOk_execAttestationRequest h
  · exact outOk_execLeaveCapWrite h
  · exact outOk_execCurrentMonitorHigh h
  · exact outOk_execCurrentMonitorLowSustained h
  · exact outOk_execSnapshotMarkerArrive h
  · exact outOk_execSnapshotPacketRecord h
  · exact outOk_execCutComplete h
  · exact outOk_execLinkDeath h
  · exact outOk_execHostRdmaWrite h
  · exact outOk_execReplicaDrop h
  · exact outOk_execForemanCoreRestart h

/-! ### An event of an agenda -/

theorem outOk_runEvent {e} (h : MemOk s) : OutOk (runEvent e s) := runEvent_exec e s ▸ outOk_exec h

/-! ### The next word of a core -/

theorem outOk_runWord {c} (h : MemOk s) : OutOk (runWord s c) := by
  dsimp only [runWord]
  split
  · exact outOk_done h
  · exact outOk_done (memOk_fetchTrap h)
  · split
    · exact outOk_exec (memOk_mk (memOk_fillLine h))
    · refine outOk_ite (outOk_done (memOk_passPrefix (memOk_mk (memOk_fillLine h)))) ?_
      exact outOk_done (memOk_fetchTrap (memOk_mk (memOk_fillLine h)))

theorem outOk_runCore {c} (h : MemOk s) : OutOk (runCore s c) := by
  dsimp only [runCore]
  refine outOk_ite (outOk_done h) ?_
  split
  · exact outOk_done (memOk_takeTileTrap h)
  · refine outOk_ite (outOk_done h) ?_
    split
    · next ht => exact outOk_done (optOk_stopCore h _ ht)
    · exact outOk_runWord h
    · exact outOk_done (memOk_ite (memOk_setCtx h) h)
    · exact outOk_done h

theorem outOk_coreStep (h : MemOk s) : OutOk (coreStep s) := by
  unfold coreStep
  refine outOk_ite nofun ?_
  split
  · next hu => exact outOk_done (memOk_noteChanges (memOk_mk (memOk_ite h (outOk_runCore h _ hu))))
  · nofun
  · nofun

theorem memOk_eventState {e rest} (h : MemOk s) : MemOk (eventState s e rest) := memOk_meetCuts (memOk_mk h)

theorem outOk_eventStep {e rest} (h : MemOk s) : OutOk (eventStep s e rest) := by
  unfold eventStep
  split
  · next ht => exact outOk_done (memOk_noteChanges (outOk_runEvent (memOk_eventState h) _ ht))
  · nofun
  · nofun

/-! ### A step of the module -/

/-- A step of the module keeps the canonical form. -/
theorem outOk_step (h : MemOk s) : OutOk (step s) := by
  unfold step
  split
  · exact outOk_eventStep h
  · exact outOk_coreStep h

/-- Settles O59: a step is a word of a core or an event of the agenda, and either keeps every memory in canonical form. -/
theorem memoryStaysCanonical : Obligations.MemoryStaysCanonical := fun _ t h ht => outOk_step h t ht

end Sys2Proof.Machine
end

section
/-! What reset leaves (R46, R153, R236, R534, R535, R570): a table of the machine right after reset lists nothing, so every read gives
the default. -/

namespace Sys2Proof.Machine

theorem getCore_reset (c : Nat) : getCore State.reset c = resetCore := rfl

theorem getCtx_reset (c : Nat) : getCtx State.reset c = resetCtx := rfl

/-- Every register of a context after reset reads as after reset, g0 by R153. -/
theorem getReg_resetCtx (r : BitVec 5) : getReg resetCtx r = resetReg := by
  unfold getReg
  split
  · rfl
  · simp [resetCtx, Vector.getD, r.isLt]

theorem getSlot_resetCore {i : Nat} (h : i < 4) : getSlot resetCore i = emptySlot := by
  simp [getSlot, resetCore, Vector.getD, h]

/-- A byte of the module's memory reads zero after reset (log 2). -/
theorem physByte_reset (a : Nat) : physByte State.reset a = 0 := by
  unfold physByte
  split <;> rfl

/-- Settles O58: the fields that the machine after reset writes out hold by definition; the registers, the slots and the bytes by the
lemmas above. -/
theorem resetState : Obligations.ResetState := by
  unfold Obligations.ResetState
  refine ⟨fun c => ?_, fun d => ⟨rfl, rfl⟩, rfl, rfl, rfl, rfl, rfl, fun p => rfl, physByte_reset, memOk_reset, by decide⟩
  rw [getCore_reset, getCtx_reset]
  exact ⟨rfl, rfl, rfl, rfl, getReg_resetCtx, rfl, rfl, fun i hi => getSlot_resetCore hi⟩

end Sys2Proof.Machine
end

section
/-! The dispatch of a tile instruction to the sequencer (R62, R64, R204-R206). -/

namespace Sys2Proof.Machine

/-- A tile instruction's meaning is its dispatch, with the checks that its form asks for (R62, R130). -/
theorem exec_of_tileNeeds {i : Instr} {q : IssueSpec} (h : tileNeeds i = some q) (s : State) : exec i s = dispatchTile s i q := by
  unfold tileNeeds at h
  split at h <;> cases h <;> rfl

/-- A unit that goes waits for no poisoned operand (R156). -/
theorem poisonWaits_of_goes {x : Ctx} {q : IssueSpec} (h : Goes x q) : poisonWaits x q = false := by
  simp only [poisonWaits, verdict_of_goes h]

/-- The unit that the instruction in progress on the focus core makes (R204). -/
def nextUnit (s : State) (i : Instr) : TileUnit :=
  { id := s.nextId, upc := unitPc (cur s), instr := i, xmod := unitXmod (cur s), gval := captured (cur s) i, gen := youngestGen (cur s) }

/-- The state in which the focus core has passed the unit in progress and its sequencer has one more entry. -/
def dispatched (s : State) (e : SeqEntry) (recent : List TileUnit) : State :=
  push (bumpId (withCur s (latchTstg s.focus { passUnit (cur s) with seq := (cur s).seq ++ [e], recent := recent })))
    (.tileUnitBegin s.focus)

theorem issuedOf_core (x : Ctx) (c : Nat) : (issuedOf x c).core = c := rfl

/-- The unit of an instruction past its checks is the one that the state before it gives. -/
theorem unitOf_passUnit (s : State) (i : Instr) :
    unitOf (withCur s (passUnit (cur s))) i (issuedOf (cur s) s.focus) = nextUnit s i := by
  simp only [unitOf, nextUnit, issuedOf, getCtx_setCtx_self, setCtx_nextId, TileUnit.mk.injEq, true_and, and_true]
  rfl

/-- A unit goes to the end of the sequencer where that has room (R62, R204, R205). -/
theorem dispatchUnit_passUnit (s : State) (u : TileUnit) (body recent : List TileUnit) :
    dispatchUnit (withCur s (passUnit (cur s))) s.focus u body recent =
      if seqUsed ((cur s).seq ++ [{ unit := u, body := body }]) ≤ 16 then some (dispatched s { unit := u, body := body } recent)
      else none := by
  simp only [dispatchUnit, enqueue, getCtx_setCtx_self, setCtx_setCtx]
  rfl

/-- What a unit that goes answers, where its effect is a dispatch. -/
theorem issue_dispatch {s : State} {q : IssueSpec} {f : Issued → State → Option State} {u : TileUnit} {body recent : List TileUnit}
    (h : Goes (cur s) q)
    (hf : f (issuedOf (cur s) s.focus) (withCur s (passUnit (cur s))) =
      dispatchUnit (withCur s (passUnit (cur s))) s.focus u body recent) :
    issue s q f =
      if seqUsed ((cur s).seq ++ [{ unit := u, body := body }]) ≤ 16 then .next (dispatched s { unit := u, body := body } recent)
      else .next s := by
  rw [issue_of_goes s q f h, hf, dispatchUnit_passUnit]
  by_cases hr : seqUsed ((cur s).seq ++ [{ unit := u, body := body }]) ≤ 16
  · simp only [if_pos hr]
  · simp only [if_neg hr]

/-- A tile instruction that goes enters the sequencer, or waits where that is full (R62). -/
theorem dispatchTile_of_goes {s : State} {i : Instr} {q : IssueSpec} (h : Goes (cur s) q) :
    dispatchTile s i q =
      if seqUsed ((cur s).seq ++ [{ unit := nextUnit s i, body := [] }]) ≤ 16 then
        .next (dispatched s { unit := nextUnit s i, body := [] } (lastN 15 ((cur s).recent ++ [nextUnit s i])))
      else .next s := by
  unfold dispatchTile
  rw [poisonWaits_of_goes h, if_neg Bool.false_ne_true]
  refine issue_dispatch h ?_
  simp only [unitOf_passUnit, issuedOf_core, getCtx_setCtx_self]
  rfl

/-- A TLOOP that goes enters the sequencer with the last `n` units as its body (R205). -/
theorem execTloop_of_goes {s : State} {g : BitVec 5} {q : BitVec 1} {n : BitVec 4} (h : Goes (cur s) (tileSpec (.tloop g q n)))
    (hn : n.toNat ≤ (cur s).recent.length) :
    execTloop g q n s =
      if seqUsed ((cur s).seq ++ [{ unit := nextUnit s (.tloop g q n), body := lastN n.toNat (cur s).recent }]) ≤ 16 then
        .next (dispatched s { unit := nextUnit s (.tloop g q n), body := lastN n.toNat (cur s).recent } [])
      else .next s := by
  unfold execTloop
  simp only [if_neg (Nat.not_lt.mpr hn), poisonWaits_of_goes h, Bool.false_eq_true, if_false]
  refine issue_dispatch h ?_
  simp only [unitOf_passUnit, issuedOf_core, getCtx_setCtx_self]
  rfl

section
variable (s : State) (e : SeqEntry) (recent : List TileUnit)

theorem dispatched_agenda : (dispatched s e recent).agenda = s.agenda ++ [.tileUnitBegin s.focus] := rfl

theorem dispatched_nextId : (dispatched s e recent).nextId = s.nextId + 1 := rfl

theorem cur_dispatched :
    cur (dispatched s e recent) =
      latchTstg s.focus { passUnit (cur s) with seq := (cur s).seq ++ [e], recent := recent } :=
  getCtx_setCtx_self _ _ _

theorem getCore_dispatched_ne {c : Nat} (h : c ≠ s.focus) : getCore (dispatched s e recent) c = getCore s c :=
  getCore_setCtx_ne _ _ _ _ h

theorem spad_dispatched : (getCore (dispatched s e recent) s.focus).spad = (getCore s s.focus).spad := by
  simp only [dispatched, getCore_push, getCore_bumpId, getCore_setCtx_self]

theorem sameMem_dispatched : SameMem s (dispatched s e recent) :=
  ⟨fun a => physByte_congr s _ a rfl rfl, fun _ => rfl⟩

end

/-- The value that a TLOOP captures: its register's, where it does not name a queue (R64). -/
theorem captured_tloop (x : Ctx) (g : BitVec 5) (q : BitVec 1) (n : BitVec 4) :
    captured x (.tloop g q n) = if q = 0 then regVal x g else 0 := by
  unfold captured capturedRegs scalarField
  by_cases h : q = 0
  · simp only [if_pos h]
  · simp only [if_neg h]

/-- A TLOOP that names more units than there are is ILLEGAL (R205). -/
theorem execTloop_short {s : State} {g : BitVec 5} {q : BitVec 1} {n : BitVec 4} (hn : (cur s).recent.length < n.toNat)
    (hg : (cur s).gens = []) :
    execTloop g q n s = .next (takeTrap s s.focus (issueTrap (unitPc (cur s)) causeIllegal 0 0)) := by
  unfold execTloop
  simp only [if_pos hn, hg, List.isEmpty_nil, if_true]
  rfl

/-- TWAIT passes, and holds the control stream until the tile stream is idle (R206). -/
theorem execTwait_of_goes {s : State} (h : Goes (cur s) (plainSpec [] [])) :
    execTwait s = .next (withCur s { passUnit (cur s) with recent := [], wait := .tileIdle 0 }) := by
  unfold execTwait
  rw [issue_of_goes s _ _ h]
  simp only [issuedOf_core, modCtx_setCtx]

/-- Settles O19: a tile instruction is the dispatch of its unit, TLOOP the dispatch of its loop; what a dispatch leaves is
`dispatched`. -/
theorem tileStream : Obligations.TileStream := by
  unfold Obligations.TileStream
  refine ⟨fun s i q hq h => ⟨fun hr => ?_, fun hr => ?_⟩, fun s g q n => ⟨fun h hn => ⟨fun hr => ?_, fun hr => ?_⟩, ?_, ?_⟩⟩
  · exact ⟨_, (exec_of_tileNeeds hq s).trans ((dispatchTile_of_goes h).trans (if_pos hr)), dispatched_agenda .., dispatched_nextId ..,
      cur_dispatched .., fun _ hc => getCore_dispatched_ne _ _ _ hc, spad_dispatched .., sameMem_dispatched ..⟩
  · exact (exec_of_tileNeeds hq s).trans ((dispatchTile_of_goes h).trans (if_neg hr))
  · rw [← captured_tloop] at hr ⊢
    exact ⟨_, (execTloop_of_goes h hn).trans (if_pos hr), dispatched_agenda .., cur_dispatched ..⟩
  · rw [← captured_tloop] at hr
    exact (execTloop_of_goes h hn).trans (if_neg (Nat.not_le.mpr hr))
  · exact fun hn hg => execTloop_short hn hg
  · exact fun h => execTwait_of_goes h

end Sys2Proof.Machine
end

section
/-! Messages, launch binding, deliveries and starts: what each of these operations leaves, for the choice of an activation, stealing
and the master distributor (R41, R46, R47, R51, R239, R353-R362). -/

namespace Sys2Proof.Machine

/-! ### States that differ in their cores alone -/

/-- Two states that differ in their cores alone. -/
def CoresOnly (s t : State) : Prop := t = { s with cores := t.cores }

/-- Every other field of the two states is the same. -/
theorem CoresOnly.field {α : Type} {s t : State} (h : CoresOnly s t) (f : State → α) : f t = f { s with cores := t.cores } := congrArg f h

theorem coresOnly_modCore (s : State) (c : Nat) (f : Core → Core) : CoresOnly s (modCore s c f) := rfl

/-! ### A core changed -/

@[simp] theorem getCore_modCore_self (s : State) (c : Nat) (f : Core → Core) : getCore (modCore s c f) c = f (getCore s c) :=
  getCore_setCore_self _ _ _

theorem getCore_modCore_ne (s : State) {c d : Nat} (f : Core → Core) (h : d ≠ c) : getCore (modCore s c f) d = getCore s d :=
  getCore_setCore_ne _ _ _ _ h

/-- What a change of one core leaves of a field, it leaves on every core. -/
theorem getCore_modCore_field {α : Type} (s : State) (c d : Nat) {f : Core → Core} {g : Core → α} (h : ∀ k, g (f k) = g k) :
    g (getCore (modCore s c f) d) = g (getCore s d) := by
  by_cases hd : d = c
  · rw [hd, getCore_modCore_self, h]
  · rw [getCore_modCore_ne s f hd]

/-- What no context holds is the same on every core when a context has changed. -/
theorem getCore_modCtx_field {α : Type} (s : State) (c d : Nat) {f : Ctx → Ctx} {g : Core → α} (h : ∀ k x, g { k with ctx := x } = g k) :
    g (getCore (modCtx s c f) d) = g (getCore s d) := getCore_modCore_field s c d fun k => h k _

/-- Where the unregioned bytes of a scratchpad become undefined, nothing else of a core changes (R59). -/
theorem getCore_scramble_field {α : Type} (s : State) (c d : Nat) {g : Core → α} (h : ∀ k m, g { k with spad := m } = g k) :
    g (getCore (scramble s c) d) = g (getCore s d) :=
  getCore_modCore_field (keepUnread s c) c d
    (f := fun k => { k with spad := scrambleFrom s.fresh (regionsEnd (regionsOf s c)) k.spad }) fun k => h k _

/-! ### Messages -/

@[simp] theorem getCore_dropMsg (s : State) (n c : Nat) : getCore (dropMsg s n) c = getCore s c := rfl

theorem findMsg_eq_none {s : State} {n : Nat} (h : ∀ m ∈ s.msgs, m.id ≠ n) : findMsg s n = none :=
  List.find?_eq_none.2 fun m hm => by simpa using h m hm

/-- A message that has been taken is found no more. -/
theorem findMsg_of_msgs_eq_filter {s t : State} {n : Nat} (h : t.msgs = s.msgs.filter (fun m => m.id != n)) : findMsg t n = none :=
  findMsg_eq_none (by
  intro m hm
  rw [h] at hm
  exact bne_iff_ne.1 (List.mem_filter.1 hm).2)

/-- The message that a sender puts on its way. -/
def sentMsg (s : State) (c target op : Nat) (tag : Option PairTag) (body : TaskBody) : TaskMsg :=
  { id := s.nextId, core := c, name := (getCtx s c).sys.tid.toNat, target := target, egen := sentEgen s c target, op := op, tag := tag,
    assayed := false, serial := serialOf (getCtx s c), twin := none, body := body }

@[simp] theorem getCore_sendMsg (s : State) (c target op : Nat) (tag : Option PairTag) (body : TaskBody) (d : Nat) :
    getCore (sendMsg s c target op tag body) d = getCore s d := rfl

@[simp] theorem sendMsg_msgs (s : State) (c target op : Nat) (tag : Option PairTag) (body : TaskBody) :
    (sendMsg s c target op tag body).msgs = s.msgs ++ [sentMsg s c target op tag body] := rfl

/-! ### Launch binding (R51) -/

/-- A core bound to a launch already stays as it is; any other is bound afresh. -/
theorem getCore_bindLaunch_self (s : State) (c ltag : Nat) (parent : Option Nat) :
    ((getCore s c).launch = some ltag ∧ getCore (bindLaunch s c ltag parent) c = getCore s c) ∨
      ((getCore s c).launch ≠ some ltag ∧
        ∃ seed, getCore (bindLaunch s c ltag parent) c = boundCore c ltag seed parent (getCore s c)) := by
  by_cases h : (getCore s c).launch = some ltag
  · exact .inl ⟨h, by simp only [bindLaunch, if_pos h]⟩
  · refine .inr ⟨h, ?_⟩
    unfold bindLaunch
    rw [if_neg h]
    exact ⟨_, getCore_modCore_self ..⟩

theorem coresOnly_bindLaunch (s : State) (c ltag : Nat) (parent : Option Nat) : CoresOnly s (bindLaunch s c ltag parent) := by
  unfold bindLaunch
  split
  · rfl
  · exact coresOnly_modCore _ _ _

theorem bindLaunch_nextId (s : State) (c ltag : Nat) (parent : Option Nat) : (bindLaunch s c ltag parent).nextId = s.nextId :=
  (coresOnly_bindLaunch s c ltag parent).field State.nextId

theorem getCore_bindLaunch_ne (s : State) {c d : Nat} (ltag : Nat) (parent : Option Nat) (h : d ≠ c) :
    getCore (bindLaunch s c ltag parent) d = getCore s d := by
  unfold bindLaunch
  split
  · rfl
  · exact getCore_modCore_ne s _ h

/-- A field of a core that a fresh binding leaves is the same on every core. -/
theorem getCore_bindLaunch_field {α : Type} (s : State) (c d ltag : Nat) (parent : Option Nat) {g : Core → α}
    (h : ∀ seed k, g (boundCore c ltag seed parent k) = g k) : g (getCore (bindLaunch s c ltag parent) d) = g (getCore s d) := by
  unfold bindLaunch
  split
  · rfl
  · exact getCore_modCore_field s c d (h _)

theorem launch_bindLaunch_self (s : State) (c ltag : Nat) (parent : Option Nat) :
    (getCore (bindLaunch s c ltag parent) c).launch = some ltag := by
  rcases getCore_bindLaunch_self s c ltag parent with ⟨h, e⟩ | ⟨-, seed, e⟩
  · rw [e, h]
  · rw [e]
    rfl

theorem aq_bindLaunch (s : State) (c d ltag : Nat) (parent : Option Nat) :
    (getCore (bindLaunch s c ltag parent) d).aq = (getCore s d).aq :=
  getCore_bindLaunch_field s c d ltag parent (g := Core.aq) fun _ _ => rfl

theorem susp_bindLaunch (s : State) (c d ltag : Nat) (parent : Option Nat) :
    (getCore (bindLaunch s c ltag parent) d).susp = (getCore s d).susp :=
  getCore_bindLaunch_field s c d ltag parent (g := Core.susp) fun _ _ => rfl

theorem urgents_bindLaunch (s : State) (c d ltag : Nat) (parent : Option Nat) :
    (getCore (bindLaunch s c ltag parent) d).urgents = (getCore s d).urgents :=
  getCore_bindLaunch_field s c d ltag parent (g := Core.urgents) fun _ _ => rfl

/-- A field other than CREATED is the same on every core when an activation has been counted. -/
theorem getCore_countCreated_field {α : Type} (s : State) (c d : Nat) {g : Core → α}
    (h : ∀ k n, g { k with created := n } = g k) : g (getCore (countCreated s c) d) = g (getCore s d) :=
  getCore_modCore_field s c d fun k => h k _

/-! ### Generations (R41) -/

/-- The counter of a core moves, and sealed generations that it passes are unsealed; nothing else of the core changes. -/
theorem advanceGen_eq (fuel : Nat) (k : Core) :
    advanceGen fuel k =
      { k with genCounter := (advanceGen fuel k).genCounter, sealedGens := (advanceGen fuel k).sealedGens } := by
  induction fuel generalizing k with
  | zero => rfl
  | succ f ih =>
    unfold advanceGen
    dsimp only
    split
    · rw [ih]
    · split
      · rw [ih]
      · rfl

/-- The core on which an activation starts: a continuation keeps the generation of its task, any other takes a new one. -/
def startCore (gen : Option Nat) (k : Core) : Core :=
  match gen with
  | some g => keepGen g k
  | none => assignGen k

/-- The generation of an activation that starts. -/
def startGen (gen : Option Nat) (k : Core) : Nat :=
  match gen with
  | some g => g
  | none => (assignGen k).genCounter.toNat

/-- What the generation of a start can change of a core. -/
theorem startCore_eq (gen : Option Nat) (k : Core) :
    startCore gen k =
      { k with
        genCounter := (startCore gen k).genCounter, sealedGens := (startCore gen k).sealedGens, live := (startCore gen k).live } := by
  cases gen with
  | some g =>
    unfold startCore keepGen
    dsimp only
    split <;> rfl
  | none =>
    unfold startCore assignGen
    dsimp only
    rw [advanceGen_eq]

/-- The core of a task name is the core that gave it, modulo its 12 bits (R40). -/
theorem taskName_core {c g : Nat} (h : g < 2 ^ 16) : (taskName c g).toNat / 2 ^ 16 = c % 2 ^ 12 := by
  rw [taskName, BitVec.toNat_ofNat]
  omega

theorem startGen_none_lt (k : Core) : startGen none k < 2 ^ 16 := (assignGen k).genCounter.isLt

/-! ### Starting (R46, R239) -/

/-- What an activation starts from on a core. -/
def startOf (s : State) (c : Nat) (kind : ActKind) (rec : WorkRec) (gen : Option Nat) (t15 : Option Tile) (pair : Option (Nat × Nat))
    (restart : Bool) : Start :=
  { kind := kind, record := rec, t15 := t15, pair := pair, restart := restart, gen := startGen gen (getCore s c),
    msgIdx := sentSoFar s pair }

section
variable (s : State) (c : Nat) (kind : ActKind) (rec : WorkRec) (gen : Option Nat) (t15 : Option Tile) (pair : Option (Nat × Nat))
  (restart : Bool)

/-- The core on which an activation has started. -/
theorem getCore_startAct :
    getCore (startAct s c kind rec gen t15 pair restart) c =
      { startCore gen (getCore s c) with
        state := .running, stop := .none,
        ctx := startCtx (startCore gen (getCore s c)) c s.nextId s.fresh (startOf s c kind rec gen t15 pair restart) } := by
  cases gen with
  | some g => exact getCore_setCore_self ..
  | none => exact getCore_setCore_self ..

theorem state_startAct : (getCore (startAct s c kind rec gen t15 pair restart) c).state = .running := by
  rw [getCore_startAct]

theorem getCtx_startAct :
    getCtx (startAct s c kind rec gen t15 pair restart) c =
      startCtx (startCore gen (getCore s c)) c s.nextId s.fresh (startOf s c kind rec gen t15 pair restart) := by
  rw [getCtx, getCore_startAct]

/-- A field of a core that neither a generation nor a start writes stays. -/
theorem getCore_startAct_field {α : Type} {g : Core → α}
    (h : ∀ k a b l st sp x, g { k with genCounter := a, sealedGens := b, live := l, state := st, stop := sp, ctx := x } = g k) :
    g (getCore (startAct s c kind rec gen t15 pair restart) c) = g (getCore s c) := by
  rw [getCore_startAct, startCore_eq]
  exact h (getCore s c) _ _ _ _ _ _

end

/-- The registers before a start, with arguments written from a place on (R46). -/
theorem getD_foldl_startRegs_of_ne (l : List (Nat × Word)) (v : Vector Reg 32) (j : Nat) (hj : j < 31)
    (h : ∀ p ∈ l, p.1 ≠ j) :
    (l.foldl (fun (v : Vector Reg 32) p => v.setIfInBounds (1 + p.1) { resetReg with val := p.2 }) v).getD (1 + j) resetReg =
      v.getD (1 + j) resetReg := by
  induction l generalizing v with
  | nil => rfl
  | cons p r ih =>
    rw [List.foldl_cons, ih _ fun q hq => h q (List.mem_cons_of_mem _ hq)]
    simp [Vector.getD, show 1 + j < 32 by omega, h p List.mem_cons_self]

/-- Of arguments with different places, each stands in its register. -/
theorem getD_foldl_startRegs_of_mem (l : List (Nat × Word)) (v : Vector Reg 32) (j : Nat) (w : Word) (hn : (l.map (·.1)).Nodup)
    (hm : (j, w) ∈ l) (hj : j < 31) :
    (l.foldl (fun (v : Vector Reg 32) p => v.setIfInBounds (1 + p.1) { resetReg with val := p.2 }) v).getD (1 + j) resetReg =
      { resetReg with val := w } := by
  induction l generalizing v with
  | nil => exact absurd hm List.not_mem_nil
  | cons p r ih =>
    rw [List.map_cons, List.nodup_cons] at hn
    rw [List.foldl_cons]
    rcases List.mem_cons.1 hm with rfl | hr
    · rw [getD_foldl_startRegs_of_ne _ _ _ hj fun q hq e => hn.1 (List.mem_map.2 ⟨q, hq, e⟩)]
      simp [Vector.getD, show 1 + j < 32 by omega]
    · exact ih _ hn.2 hr

/-- An argument of a record stands in g1 upward (R46). -/
theorem getD_startRegs {args : List Word} {i : Nat} {v : Word} (hi : i < 31) (hv : args[i]? = some v) :
    (startRegs args).getD (1 + i) resetReg = { resetReg with val := v } := by
  refine getD_foldl_startRegs_of_mem _ _ i v ?_ ?_ hi
  · rw [List.map_fst_zip (by simp)]
    exact List.nodup_range
  · obtain ⟨hl, -⟩ := List.getElem?_eq_some_iff.1 hv
    exact List.mem_of_getElem? (i := i) (by simp [List.getElem?_zip_eq_some, hv, List.getElem?_range hl])

/-- An activation runs on a core from its start on, in task mode and without leave, under a serial number (R45, R46). -/
def Started (t : State) (c serial : Nat) (r : WorkRec) (kind : ActKind) : Prop :=
  (getCore t c).state = .running ∧ (getCtx t c).pc = BitVec.ofNat 64 (4 * 2 ^ 60 + r.entry.toNat) ∧
    (∀ i v, i < 31 → r.args[i]? = some v → regVal (getCtx t c) (BitVec.ofNat 5 (i + 1)) = v) ∧
    (getCtx t c).sys.sup = false ∧ (getCtx t c).sys.held = 0 ∧
    ∃ w : Activation, (getCtx t c).act = some w ∧ w.record = r ∧ w.kind = kind ∧ w.serial = serial

section
variable (s : State) (c : Nat) (kind : ActKind) (rec : WorkRec) (gen : Option Nat) (t15 : Option Tile) (pair : Option (Nat × Nat))
  (restart : Bool)

/-- A start leaves the record's activation running, named by the next free number (R46). -/
theorem started_startAct : Started (startAct s c kind rec gen t15 pair restart) c s.nextId rec kind := by
  unfold Started
  rw [getCtx_startAct]
  refine ⟨state_startAct .., rfl, fun i v hi hv => ?_, rfl, rfl, _, rfl, rfl, rfl, rfl⟩
  have hr : BitVec.ofNat 5 (i + 1) ≠ 0 := by
    intro e
    have := congrArg BitVec.toNat e
    simp at this
    omega
  have hn : (BitVec.ofNat 5 (i + 1)).toNat = 1 + i := by
    rw [BitVec.toNat_ofNat]
    omega
  unfold regVal getReg
  rw [if_neg hr, hn]
  exact congrArg Reg.val (getD_startRegs hi hv)

/-- The task name of an activation that starts (R40, R41). -/
theorem tid_startAct :
    (getCtx (startAct s c kind rec gen t15 pair restart) c).sys.tid = taskName c (startGen gen (getCore s c)) := by
  rw [getCtx_startAct]
  rfl

/-- A new task takes a name of its core (R40, R41). -/
theorem tid_startAct_fresh :
    (getCtx (startAct s c kind rec none t15 pair restart) c).sys.tid.toNat / 2 ^ 16 = c % 2 ^ 12 := by
  rw [tid_startAct]
  exact taskName_core (startGen_none_lt _)

end

/-! ### The activation queue (R47) -/

theorem freeAq_lt {k : Core} {i : Nat} (h : freeAq k = some i) : i < 16 := List.mem_range.1 (List.mem_of_find?_eq_some h)

theorem aq_putAq_self (k : Core) {i : Nat} (e : AqEntry) (h : i < 16) : (putAq k i e).aq.getD i .free = e := by
  simp [putAq, Vector.getD, h]

/-- An entry that is set free reads as free, whatever its number. -/
theorem aq_putAq_free (k : Core) (i : Nat) : (putAq k i .free).aq.getD i .free = .free := by
  by_cases h : i < 16 <;> simp [putAq, Vector.getD, h]

end Sys2Proof.Machine
end

section
/-! The choice of an activation, urgent events and pre-emption (R45, R46, R48, R54, R56, R550, R551). -/

namespace Sys2Proof.Machine

/-! ### The urgent latch (R54, R56) -/

/-- A latch that holds only events of running launches drops none. -/
theorem dropUrgents_of_live {s : State} {c : Nat} (h : ∀ e ∈ (getCore s c).urgents, urgentLive s c e.ltag = true) :
    dropUrgents s c = s := by
  have hn : (getCore s c).urgents.filter (fun e => !urgentLive s c e.ltag) = [] :=
    List.filter_eq_nil_iff.2 fun e he => by simp [h e he]
  unfold dropUrgents
  simp only [hn, List.length_nil, if_true]

section
variable (s : State) (c : Nat) (e : UrgentEvent) (rest : List UrgentEvent)

/-- The state in which a core is about to start an urgent event. -/
def readyUrgent : State := countCreated (bindLaunch (modCore s c (fun k => { k with urgents := rest })) c e.ltag none) c

theorem startUrgent_eq :
    startUrgent s c e rest = startAct (readyUrgent s c e rest) c .urgent (urgentRecord e) none none none false := rfl

theorem readyUrgent_nextId : (readyUrgent s c e rest).nextId = s.nextId := by
  rw [readyUrgent, countCreated, modCore_nextId, bindLaunch_nextId, modCore_nextId]

theorem started_startUrgent : Started (startUrgent s c e rest) c s.nextId (urgentRecord e) .urgent := by
  rw [← readyUrgent_nextId s c e rest, startUrgent_eq]
  exact started_startAct ..

theorem urgents_startUrgent : (getCore (startUrgent s c e rest) c).urgents = rest := by
  rw [startUrgent_eq, getCore_startAct_field (g := Core.urgents) _ _ _ _ _ _ _ _ fun _ _ _ _ _ _ _ => rfl, readyUrgent,
    getCore_countCreated_field (g := Core.urgents) _ _ _ fun _ _ => rfl, urgents_bindLaunch, getCore_modCore_self]

theorem susp_startUrgent : (getCore (startUrgent s c e rest) c).susp = (getCore s c).susp := by
  rw [startUrgent_eq, getCore_startAct_field (g := Core.susp) _ _ _ _ _ _ _ _ fun _ _ _ _ _ _ _ => rfl, readyUrgent,
    getCore_countCreated_field (g := Core.susp) _ _ _ fun _ _ => rfl, susp_bindLaunch, getCore_modCore_self]

/-- An urgent activation runs with URG set and at priority 3 (R46). -/
theorem sys_startUrgent :
    (getCtx (startUrgent s c e rest) c).sys.urg = true ∧ (getCtx (startUrgent s c e rest) c).sys.prio = 3 := by
  rw [startUrgent_eq, getCtx_startAct]
  exact ⟨rfl, rfl⟩

end

/-! ### The choice (R48) -/

section
variable {s : State} {c : Nat} (hi : (getCore s c).state = .idle) (hl : partLive s c = true)
  (hu : ∀ e ∈ (getCore s c).urgents, urgentLive s c e.ltag = true)
include hi hl hu

/-- An idle core of a live partition takes its oldest urgent event. -/
theorem execActivationChoose_urgent {e : UrgentEvent} {rest : List UrgentEvent}
    (ht : takeUrgent (getCore s c) (getCore s c).urgents = some (e, rest)) :
    execActivationChoose c s = .next (startUrgent s c e rest) := by
  unfold execActivationChoose
  refine (if_neg (by simp [hi, hl])).trans ?_
  simp only [dropUrgents_of_live hu, ht, done]

/-- Without one that it may take it chooses at its highest level. -/
theorem execActivationChoose_level {level : Nat} (ht : takeUrgent (getCore s c) (getCore s c).urgents = none)
    (hv : topLevel s c = some level) : execActivationChoose c s = .next (chooseAt s c level) := by
  unfold execActivationChoose
  refine (if_neg (by simp [hi, hl])).trans ?_
  simp only [dropUrgents_of_live hu, ht, hv, done]

/-- With nothing to choose it goes idle. -/
theorem execActivationChoose_nothing (ht : takeUrgent (getCore s c) (getCore s c).urgents = none) (hv : topLevel s c = none) :
    execActivationChoose c s = .next (goIdle s c) := by
  unfold execActivationChoose
  refine (if_neg (by simp [hi, hl])).trans ?_
  simp only [dropUrgents_of_live hu, ht, hv, done]

end

/-- A core with nothing to run changes no core. -/
theorem goIdle_cores (s : State) (c : Nat) : (goIdle s c).cores = s.cores := by
  unfold goIdle
  dsimp only
  split <;> simp only [push_cores, apply_ite State.cores, ite_self]

/-- A delivered record of the level is taken out of its entry and started (R48). -/
theorem chooseAt_delivered {s : State} {c level i : Nat} {r : AqRecord} (h : oldestAt (getCore s c) level = some (i, r)) :
    chooseAt s c level =
      startAct (setCore s c (putAq (getCore s c) i .free)) c r.kind r.record r.gen r.t15 r.pair r.restart := by
  simp only [chooseAt, h]

/-- Without a delivered record the bottom-most entry of the level is popped and started (R48, R357). -/
theorem chooseAt_deque {s : State} {c level : Nat} {e : DqEntry} {rest : List DqEntry} (h : oldestAt (getCore s c) level = none)
    (hp : popFirst (fun e => poppable s c e && e.record.prio == level) (getCore s c).deque = some (e, rest)) :
    chooseAt s c level = startAct (setCore s c { getCore s c with deque := rest }) c .task e.record none none none false := by
  simp only [chooseAt, h, hp]

/-- A start leaves the activation queue and the deque as they stand. -/
theorem aq_deque_startAct (s : State) (c : Nat) (kind : ActKind) (rec : WorkRec) (gen : Option Nat) (t15 : Option Tile)
    (pair : Option (Nat × Nat)) (restart : Bool) :
    (getCore (startAct s c kind rec gen t15 pair restart) c).aq = (getCore s c).aq ∧
      (getCore (startAct s c kind rec gen t15 pair restart) c).deque = (getCore s c).deque :=
  ⟨getCore_startAct_field (g := Core.aq) _ _ _ _ _ _ _ _ fun _ _ _ _ _ _ _ => rfl,
    getCore_startAct_field (g := Core.deque) _ _ _ _ _ _ _ _ fun _ _ _ _ _ _ _ => rfl⟩

/-! ### The shadow bank (R54, R550, R551) -/

/-- A table of which some entries are mapped reads the entry or its image. -/
theorem tabGet_map_or {α : Type} {d : α} {f : Nat × α → Nat × α} {g : α → α} (hf : ∀ p, f p = p ∨ f p = (p.1, g p.2)) (t : Tab α)
    (k : Nat) : tabGet d (t.map f) k = tabGet d t k ∨ tabGet d (t.map f) k = g (tabGet d t k) := by
  induction t with
  | nil => exact .inl rfl
  | cons p r ih =>
    obtain ⟨j, v⟩ := p
    by_cases hj : j = k
    · subst hj
      rcases hf (j, v) with h | h <;> simp [tabGet, h]
    · rcases hf (j, v) with h | h <;> simpa [tabGet, h, hj] using ih

/-- Leave that comes back latches an event bit in the activations of a die, and changes nothing else of a core (R246). -/
theorem getCore_wakeLeave (s : State) (die c : Nat) :
    getCore (wakeLeave s die) c = getCore s c ∨ getCore (wakeLeave s die) c = latchCore (getCore s c) 8 := by
  refine tabGet_map_or (g := fun k => latchCore k 8) (fun p => ?_) s.cores c
  split
  · exact .inr rfl
  · exact .inl rfl

/-- Two contexts that differ in the tile instruction in progress and in the system registers alone. -/
def RunSysOnly (x y : Ctx) : Prop := y = { x with run := y.run, sys := y.sys }

/-- What reads neither of the two is the same. -/
theorem RunSysOnly.same {α : Type} {x y : Ctx} (h : RunSysOnly x y) (f : Ctx → α)
    (hf : ∀ x run sys, f { x with run := run, sys := sys } = f x) : f y = f x :=
  (congrArg f h).trans (hf ..)

theorem runSysOnly_latchCore {x : Ctx} {k : Core} (bits : BitVec 4) (h : RunSysOnly x k.ctx) : RunSysOnly x (latchCore k bits).ctx := by
  unfold latchCore
  dsimp only
  split
  · unfold RunSysOnly latchEvt at *
    rw [h]
  · exact h

theorem runSysOnly_wakeLeave {x : Ctx} {s : State} {c : Nat} (die : Nat) (h : RunSysOnly x (getCtx s c)) :
    RunSysOnly x (getCtx (wakeLeave s die) c) := by
  rcases getCore_wakeLeave s die c with hk | hk
  · rwa [getCtx, hk]
  · rw [getCtx, hk]
    exact runSysOnly_latchCore 8 h

/-- The leave of a unit in progress goes back without a trace in the other fields of the context (R281). -/
theorem runSysOnly_returnRunLeave (s : State) (c : Nat) : RunSysOnly (getCtx s c) (getCtx (returnRunLeave s c) c) := by
  have hm : RunSysOnly (getCtx s c) (getCtx (modCtx s c (fun x => { x with run := { x.run with fromHeld := 0, fromPool := 0 } })) c) := by
    rw [getCtx_modCtx_self]
    rfl
  unfold returnRunLeave returnUnits
  dsimp only
  split
  · exact hm
  · exact runSysOnly_wakeLeave _ hm

theorem returnRunLeave_nextId (s : State) (c : Nat) : (returnRunLeave s c).nextId = s.nextId := by
  unfold returnRunLeave returnUnits
  dsimp only
  split <;> rfl

theorem dropWait_nextId (s : State) (die : Nat) (who : LeaveWho) : (dropWait s die who).nextId = s.nextId := rfl

theorem scramble_nextId (s : State) (c : Nat) : (scramble s c).nextId = s.nextId := rfl

theorem discardRegions_nextId (s : State) (c : Nat) : (discardRegions s c).nextId = s.nextId := rfl

theorem suspend_nextId (s : State) (c : Nat) : (suspend s c).nextId = s.nextId := by
  unfold suspend
  rw [scramble_nextId, discardRegions_nextId, modCore_nextId, dropWait_nextId, dropWait_nextId, returnRunLeave_nextId]

theorem susp_discardRegions (s : State) (c d : Nat) : (getCore (discardRegions s c) d).susp = (getCore s d).susp :=
  getCore_modCore_field (g := Core.susp) (keepUnread s c) c d
    (f := fun k => { k with spad := fillRegions [2] (regionsOf s c) k.spad, disc := k.disc ||| allDisc (regionsOf s c) }) fun _ => rfl

/-- The shadow bank holds the context that the pre-emption saves. -/
theorem susp_suspend (s : State) (c : Nat) :
    (getCore (suspend s c) c).susp = some (savedCtx (getCtx (returnRunLeave s c) c)) := by
  unfold suspend
  rw [getCore_scramble_field (g := Core.susp) _ _ _ fun _ _ => rfl, susp_discardRegions, getCore_modCore_self]
  rfl

theorem RunSysOnly.flushAhead {x y : Ctx} (h : RunSysOnly x y) : RunSysOnly (flushAhead x) (flushAhead y) := by
  have hg : y.gens = x.gens := h.same Ctx.gens fun _ _ _ => rfl
  unfold Machine.flushAhead
  rw [hg]
  cases x.gens with
  | nil => exact h
  | cons g r =>
    show RunSysOnly (flushGen x g g.upc) (flushGen y g g.upc)
    rw [h]
    rfl

/-- What a pre-emption saves of a context, from the context before the leave of its unit went back (R72, R551). -/
theorem savedCtx_of_runSysOnly {x y : Ctx} (h : RunSysOnly x y) :
    (savedCtx y).pc = unitPc (flushAhead x) ∧ (savedCtx y).regs = (flushAhead x).regs ∧ (savedCtx y).act = (flushAhead x).act ∧
      (savedCtx y).tiles = (flushAhead x).tiles ∧ (savedCtx y).queues = (flushAhead x).queues ∧ (savedCtx y).acc = (flushAhead x).acc :=
  have hf := h.flushAhead
  ⟨hf.same unitPc fun _ _ _ => rfl, hf.same Ctx.regs fun _ _ _ => rfl, hf.same Ctx.act fun _ _ _ => rfl,
    hf.same Ctx.tiles fun _ _ _ => rfl, hf.same Ctx.queues fun _ _ _ => rfl, hf.same Ctx.acc fun _ _ _ => rfl⟩

/-- At a pre-emption point the running activation makes room for the urgent one (R54, R550). -/
theorem execUrgentPreempt_preemptible {s : State} {c : Nat} {e : UrgentEvent} {rest : List UrgentEvent}
    (hl : partLive s c = true) (hu : ∀ e ∈ (getCore s c).urgents, urgentLive s c e.ltag = true)
    (hr : (getCore s c).state = .running) (hg : (getCtx s c).sys.urg = false)
    (ht : takeUrgent (getCore s c) (getCore s c).urgents = some (e, rest)) (hp : preemptible (getCore s c) = true)
    (hn : inGang (getCore s c) = false) : execUrgentPreempt c s = .next (startUrgent (suspend s c) c e rest) := by
  have hact : (getCore s c).ctx.act.isNone = false := by
    simp only [preemptible, Bool.and_eq_true] at hp
    obtain ⟨⟨⟨⟨-, ha⟩, -⟩, -⟩, -⟩ := hp
    simpa using ha
  have hg' : (getCore s c).ctx.sys.urg = false := hg
  unfold execUrgentPreempt
  simp only [dropUrgents_of_live hu, hr, hact, hg', hl, ht, hp, hn]
  rfl

/-! ### An urgent event arrives (R54, R56) -/

section
variable {s : State} {m : TaskMsg} {e : UrgentEvent}

/-- An event that its core cannot take any more, or whose latch is full, is dropped and counted. -/
theorem execUrgentEventArrive_drop (hm : findMsg s m.id = some m) (hb : m.body = .urgent e)
    (h : urgentLive s m.target e.ltag = false ∨ (getCore s m.target).state = .killed ∨ 64 ≤ (getCore s m.target).urgents.length) :
    execUrgentEventArrive m.id s = .next (count (dropMsg s m.id) .urgentDrops 1) := by
  unfold execUrgentEventArrive
  simp only [hm, hb]
  exact if_pos h

/-- Any other enters the latch, and the core is told. -/
theorem execUrgentEventArrive_latch (hm : findMsg s m.id = some m) (hb : m.body = .urgent e)
    (hl : urgentLive s m.target e.ltag = true) (hk : (getCore s m.target).state ≠ .killed)
    (hd : (getCore s m.target).urgents.length < 64) (hw : msgWaits s m = false) :
    execUrgentEventArrive m.id s =
      .next (push (setCore (dropMsg s m.id) m.target
          { getCore s m.target with urgents := (getCore s m.target).urgents ++ [e] })
        (if (getCore s m.target).state = .idle then .activationChoose m.target else .urgentPreempt m.target)) := by
  have hno : ¬ (urgentLive s m.target e.ltag = false ∨ (getCore s m.target).state = .killed ∨
      64 ≤ (getCore s m.target).urgents.length) := by
    simp only [hl, hk, Bool.true_eq_false, false_or]
    omega
  unfold execUrgentEventArrive
  simp only [hm, hb]
  refine (if_neg hno).trans ?_
  rw [hw]
  rfl

end

/-- Settles O39: the choice, the arrival and the pre-emption each end in a start, of which `started_startAct` says what runs. -/
theorem activations : Obligations.Activations := by
  unfold Obligations.Activations
  intro s c k x runs fresh hl hu
  refine ⟨fun hi => ⟨fun e rest ht => ?_, fun ht => ⟨fun level i r hv ho => ?_, fun level e rest hv ho hp => ?_, fun hv => ?_⟩⟩,
    fun m e hm hc hb => ⟨fun hd => ?_, fun hlive hk hd hw => ?_⟩, fun e rest hr hg ht hp hn _ => ?_⟩
  · exact ⟨_, execActivationChoose_urgent hi hl hu ht, urgents_startUrgent .., (sys_startUrgent ..).1, (sys_startUrgent ..).2,
      started_startUrgent .., tid_startAct_fresh ..⟩
  · have hex : exec (.activationChoose c) s = .next (chooseAt s c level) :=
      execActivationChoose_level hi hl hu ht hv
    rw [chooseAt_delivered ho] at hex
    refine ⟨_, hex, started_startAct .., ?_, ?_, fun g hg => ?_, fun hg => ?_⟩
    · rw [(aq_deque_startAct ..).1, getCore_setCore_self, aq_putAq_free]
    · rw [(aq_deque_startAct ..).2, getCore_setCore_self]
      rfl
    · rw [tid_startAct, hg]
      rfl
    · show (getCtx _ c).sys.tid.toNat / 2 ^ 16 = c % 2 ^ 12
      rw [hg]
      exact tid_startAct_fresh ..
  · have hex : exec (.activationChoose c) s = .next (chooseAt s c level) :=
      execActivationChoose_level hi hl hu ht hv
    rw [chooseAt_deque ho hp] at hex
    refine ⟨_, hex, started_startAct .., tid_startAct_fresh .., ?_, ?_⟩
    · rw [(aq_deque_startAct ..).2, getCore_setCore_self]
    · rw [(aq_deque_startAct ..).1, getCore_setCore_self]
  · exact ⟨_, execActivationChoose_nothing hi hl hu ht hv, goIdle_cores s c⟩
  · subst hc
    exact ⟨_, execUrgentEventArrive_drop hm hb hd, rfl, findMsg_of_msgs_eq_filter rfl, rfl⟩
  · subst hc
    exact ⟨_, execUrgentEventArrive_latch hm hb hlive hk hd hw, getCore_setCore_self .., findMsg_of_msgs_eq_filter rfl, rfl⟩
  · refine ⟨_, _, execUrgentPreempt_preemptible hl hu hr hg ht hp hn, ?_, (susp_startUrgent ..).trans (susp_suspend s c),
      savedCtx_of_runSysOnly (runSysOnly_returnRunLeave s c)⟩
    have hs := started_startUrgent (suspend s c) c e rest
    rwa [suspend_nextId] at hs

end Sys2Proof.Machine
end

section
/-! Stealing (R51, R359-R361). -/

namespace Sys2Proof.Machine

/-! ### The thief asks (R359) -/

theorem getCore_setSteal (s : State) (c next : Nat) (busy backoff : Bool) :
    getCore (setSteal s c next busy backoff) c =
      { getCore s c with steal := { next := next, busy := busy, backoff := backoff } } := getCore_modCore_self ..

section
variable {s : State} {c : Nat} (hs : searches s c = true) (hb : (getCore s c).steal.busy = false)
  (ho : (getCore s c).steal.backoff = false)
include hs hb ho

/-- After the last victim an idle core backs off. -/
theorem execStealProbe_last (hn : nextProbe s c 46 (getCore s c).steal.next = none) :
    execStealProbe c s = .next (push (setSteal s c 0 false true) (.stealBackoffExpire c)) := by
  unfold execStealProbe
  simp only [hs, hb, ho, hn]
  rfl

/-- The next victim that it does not skip is asked. -/
theorem execStealProbe_ask {j : Nat} (hn : nextProbe s c 46 (getCore s c).steal.next = some j) :
    execStealProbe c s =
      .next (sendMsg (setSteal s c (j + 1) true false) c (victimOf c j) 0 none
        (.stealReq (classOf c) (getCore s c).launch (64 - (getCore s c).deque.length))) := by
  unfold execStealProbe
  simp only [hs, hb, ho, hn]
  rfl

end

/-- The back-off ends, and the search begins again. -/
theorem execStealBackoffExpire_steal {s : State} {c : Nat} (h : (getCore s c).steal.backoff = true) :
    ∃ t : State, execStealBackoffExpire c s = .next t ∧ getCore t c = getCore (setSteal s c 0 false false) c := by
  unfold execStealBackoffExpire
  simp only [h]
  refine ⟨_, rfl, ?_⟩
  split <;> rfl

/-! ### The victim answers (R360, R361) -/

/-- One entry of a deque while a reply's entries are reserved: it is the next one wanted, or stays as it is. -/
def reserveStep (reply : Nat) (acc : List DqEntry × List DqEntry) (e : DqEntry) : List DqEntry × List DqEntry :=
  match acc.2 with
  | y :: r => if e = y then ({ e with reserved := some reply } :: acc.1, r) else (e :: acc.1, acc.2)
  | [] => (e :: acc.1, [])

theorem reserveEntries_eq (reply : Nat) (ys es : List DqEntry) :
    reserveEntries reply ys es = (es.reverse.foldl (reserveStep reply) ([], ys)).1 := rfl

theorem record_reserveStep (reply : Nat) (acc : List DqEntry × List DqEntry) (e : DqEntry) :
    (reserveStep reply acc e).1.map (·.record) = e.record :: acc.1.map (·.record) := by
  unfold reserveStep
  split
  · split <;> rfl
  · rfl

theorem record_foldl_reserveStep (reply : Nat) (es : List DqEntry) (acc : List DqEntry × List DqEntry) :
    (es.foldl (reserveStep reply) acc).1.map (·.record) = (es.map (·.record)).reverse ++ acc.1.map (·.record) := by
  induction es generalizing acc with
  | nil => rfl
  | cons e r ih => rw [List.foldl_cons, ih, record_reserveStep, List.map_cons, List.reverse_cons, List.append_assoc]; rfl

/-- Reserved entries keep their records (R361). -/
theorem record_reserveEntries (reply : Nat) (ys es : List DqEntry) :
    (reserveEntries reply ys es).map (·.record) = es.map (·.record) := by
  rw [reserveEntries_eq, record_foldl_reserveStep]
  simp

/-- One eligible entry of a victim: a record that it may run itself counts to the half that it yields. -/
def yieldStep (v half : Nat) (acc : List DqEntry × Nat) (e : DqEntry) : List DqEntry × Nat :=
  if !mayRun v e.record.cls then (acc.1 ++ [e], acc.2)
  else if acc.2 < half then (acc.1 ++ [e], acc.2 + 1)
  else acc

theorem mem_yieldStep {v half : Nat} {acc : List DqEntry × Nat} {e x : DqEntry} (h : x ∈ (yieldStep v half acc e).1) :
    x ∈ acc.1 ∨ x = e := by
  unfold yieldStep at h
  split at h
  · simpa using h
  · split at h
    · simpa using h
    · exact .inl h

theorem mem_foldl_yieldStep {v half : Nat} {es : List DqEntry} {acc : List DqEntry × Nat} {x : DqEntry}
    (h : x ∈ (es.foldl (yieldStep v half) acc).1) : x ∈ acc.1 ∨ x ∈ es := by
  induction es generalizing acc with
  | nil => exact .inl h
  | cons e r ih =>
    rcases ih h with h | h
    · rcases mem_yieldStep h with h | rfl
      · exact .inl h
      · exact .inr List.mem_cons_self
    · exact .inr (List.mem_cons_of_mem _ h)

/-- The entries from which a victim yields: free ones of a class that suits the thief, from the top (R360). -/
def eligible (s : State) (v cls : Nat) : List DqEntry :=
  ((getCore s v).deque.filter (fun e => entryFree s v e && (e.record.cls == 0 || e.record.cls == cls))).reverse

theorem yielded_eq (s : State) (v cls f : Nat) :
    yielded s v cls f =
      ((eligible s v cls).foldl (yieldStep v (((eligible s v cls).filter (fun e => mayRun v e.record.cls)).length / 2)) ([], 0)).1.take f :=
  rfl

/-- What a victim yields stands in its deque. -/
theorem mem_deque_of_mem_yielded {s : State} {v cls f : Nat} {e : DqEntry} (h : e ∈ yielded s v cls f) : e ∈ (getCore s v).deque := by
  rw [yielded_eq] at h
  rcases mem_foldl_yieldStep (List.mem_of_mem_take h) with h | h
  · exact absurd h List.not_mem_nil
  · exact (List.mem_filter.1 (List.mem_reverse.1 h)).1

theorem length_yielded_le (s : State) (v cls f : Nat) : (yielded s v cls f).length ≤ f := List.length_take_le ..

/-- The entries that a victim gives for a request. -/
def givenFor (s : State) (m : TaskMsg) (cls : Nat) (ltag : Option Nat) (f : Nat) : List DqEntry :=
  if serves s m.target m.core m.egen ltag then yielded (dropMsg s m.id) m.target cls f else []

/-- The state in which a victim has reserved what it gives. -/
def reservedFor (s : State) (m : TaskMsg) (ys : List DqEntry) : State :=
  modCore (dropMsg s m.id) m.target (fun k => { k with deque := reserveEntries s.nextId ys k.deque })

/-- A victim reserves entries under its reply's number and sends their records. -/
theorem execStealRequestServe_eq {s : State} {m : TaskMsg} {cls f : Nat} {ltag : Option Nat} (hm : findMsg s m.id = some m)
    (hb : m.body = .stealReq cls ltag f) :
    execStealRequestServe m.id s =
      .next (sendMsg (reservedFor s m (givenFor s m cls ltag f)) m.target m.core 0 none
        (.stealReply ((givenFor s m cls ltag f).map (·.record)))) := by
  unfold execStealRequestServe
  simp only [hm, hb]
  rfl

/-! ### The thief keeps the records, or gives them back (R361) -/

/-- The state with a thief's search at rest. -/
def quietThief (s : State) (thief next : Nat) : State :=
  modCore s thief (fun k => { k with steal := { k.steal with next := next, busy := false } })

/-- An empty reply: the thief goes on with its search. -/
theorem execStealReplyArrive_empty {s : State} {m : TaskMsg} (hm : findMsg s m.id = some m) (hb : m.body = .stealReply []) :
    execStealReplyArrive m.id s =
      .next (push (quietThief (dropMsg s m.id) m.target (getCore s m.target).steal.next) (.stealProbe m.target)) := by
  unfold execStealReplyArrive
  simp only [hm, hb]
  rfl

/-- The state in which a thief, bound to its victim's launch, has the records at the end of its deque. -/
def keptRecords (s : State) (m : TaskMsg) (rs : List WorkRec) : State :=
  modCore (bindLaunch (dropMsg s m.id) m.target ((getCore s m.core).launch.getD 0) (some m.core)) m.target (fun k =>
    { k with deque := k.deque ++ rs.reverse.map (fun r => ({ record := r, reserved := none, after := (0, 0) } : DqEntry)) })

/-- The state in which the entries of a reply stand at the victim again. -/
def unreserved (s : State) (m : TaskMsg) : State :=
  modCore (dropMsg s m.id) m.core (fun k =>
    { k with deque := k.deque.map (fun e => if e.reserved = some m.id then { e with reserved := none } else e) })

section
variable {s : State} {m : TaskMsg} {r : WorkRec} {rs : List WorkRec} (hm : findMsg s m.id = some m)
  (hb : m.body = .stealReply (r :: rs))
include hm hb

/-- A thief that may keep the records does, and acknowledges them. -/
theorem execStealReplyArrive_keep (hk : keepsReply s m.target m.core m.egen (r :: rs) = true) :
    execStealReplyArrive m.id s =
      .next (push (sendMsg (quietThief (keptRecords s m (r :: rs)) m.target 0) m.target m.core 0 none (.stealAck m.id))
        (.activationChoose m.target)) := by
  unfold execStealReplyArrive
  simp only [hm, hb, hk]
  rfl

/-- A thief that may not keep them returns them. -/
theorem execStealReplyArrive_return (hk : keepsReply s m.target m.core m.egen (r :: rs) = false) :
    execStealReplyArrive m.id s = .next (push s (.stealReplyReturn m.id)) := by
  unfold execStealReplyArrive
  simp only [hm, hb, hk]
  rfl

/-- The records of a reply that was not kept stand at the victim again, and the thief goes on. -/
theorem execStealReplyReturn_eq :
    execStealReplyReturn m.id s =
      .next (pushAll (modCore (unreserved s m) m.target (fun k => { k with steal := { k.steal with busy := false } }))
        [.activationChoose m.core, .stealProbe m.target]) := by
  unfold execStealReplyReturn
  simp only [hm, hb]
  rfl

end

theorem msgs_keptRecords (s : State) (m : TaskMsg) (rs : List WorkRec) (next : Nat) :
    (quietThief (keptRecords s m rs) m.target next).msgs = s.msgs.filter (fun e => e.id != m.id) := by
  rw [quietThief, modCore_msgs, keptRecords, modCore_msgs]
  exact (coresOnly_bindLaunch ..).field State.msgs

/-- An acknowledgement frees the entries of its reply. -/
theorem execStealAckArrive_eq {s : State} {m : TaskMsg} {n : Nat} (hm : findMsg s m.id = some m) (hb : m.body = .stealAck n) :
    execStealAckArrive m.id s =
      .next (modCore (dropMsg s m.id) m.target (fun k => { k with deque := k.deque.filter (fun e => e.reserved != some n) })) := by
  unfold execStealAckArrive
  simp only [hm, hb]
  rfl

/-- What a thief that may keep records has in its deque: those of an unbound core are gone, for it is bound afresh (R51). -/
theorem deque_keptRecords {s : State} {m : TaskMsg} {rs : List WorkRec} (hk : keepsReply s m.target m.core m.egen rs = true) :
    (getCore (keptRecords s m rs) m.target).deque.map (·.record) =
      (if (getCore s m.target).launch = none then [] else (getCore s m.target).deque.map (·.record)) ++ rs.reverse := by
  have hl : (getCore s m.target).launch = none ∨ (getCore s m.target).launch = (getCore s m.core).launch := by
    simp only [keepsReply, Bool.and_eq_true, Bool.or_eq_true, Option.isNone_iff_eq_none, beq_iff_eq] at hk
    exact hk.1.2
  rw [keptRecords, getCore_modCore_self, List.map_append, List.map_map]
  congr 1
  · rcases getCore_bindLaunch_self (dropMsg s m.id) m.target ((getCore s m.core).launch.getD 0) (some m.core) with ⟨h, e⟩ | ⟨h, seed, e⟩
    · rw [getCore_dropMsg] at h
      rw [e, if_neg (by simp [h])]
      rfl
    · rw [getCore_dropMsg] at h
      rw [e]
      rcases hl with hn | he
      · rw [if_pos hn]
        rfl
      · cases hv : (getCore s m.core).launch with
        | none => rw [if_pos (he.trans hv)]; rfl
        | some l => exact absurd (by rw [he, hv]; rfl) h
  · exact List.map_id _

/-- Settles O40: each event of a steal ends in one of the states above, whose fields are read off. -/
theorem stealing : Obligations.Stealing := by
  unfold Obligations.Stealing
  intro s c k
  refine ⟨fun hs hb ho => ⟨fun hn => ?_, fun j hn => ?_⟩, fun ho => ?_, fun m hm => ⟨fun cls ltag f hb => ?_, fun hb => ?_,
    fun r rs hb => ⟨fun hk => ?_, fun hk => execStealReplyArrive_return hm hb hk, ?_⟩, fun n hb => ?_⟩⟩
  · exact ⟨_, execStealProbe_last hs hb ho hn, getCore_setSteal .., rfl⟩
  · exact ⟨_, _, execStealProbe_ask hs hb ho hn, getCore_setSteal .., rfl, rfl, rfl, rfl, rfl⟩
  · obtain ⟨t, ht, hc⟩ := execStealBackoffExpire_steal ho
    exact ⟨t, ht, hc.trans (getCore_setSteal ..)⟩
  · refine ⟨_, _, execStealRequestServe_eq hm hb, rfl, rfl, rfl, rfl, ?_, _, rfl, ?_, fun r hr => ?_, fun hno => ?_⟩
    · rw [getCore_sendMsg, reservedFor, getCore_modCore_self]
      exact record_reserveEntries ..
    · rw [List.length_map, givenFor]
      split
      · exact length_yielded_le ..
      · exact Nat.zero_le _
    · obtain ⟨e, he, rfl⟩ := List.mem_map.1 hr
      rw [givenFor] at he
      split at he
      · exact List.mem_map_of_mem (mem_deque_of_mem_yielded he)
      · exact absurd he List.not_mem_nil
    · rw [givenFor, hno]
      rfl
  · refine ⟨_, execStealReplyArrive_empty hm hb, ?_, rfl⟩
    rw [getCore_push, quietThief, getCore_modCore_self]
  · refine ⟨_, execStealReplyArrive_keep hm hb hk, ?_, ?_, ?_,
      sentMsg (quietThief (keptRecords s m (r :: rs)) m.target 0) m.target m.core 0 none (.stealAck m.id), ?_, rfl, rfl⟩
    · rw [getCore_push, getCore_sendMsg, quietThief, getCore_modCore_self]
    · rw [getCore_push, getCore_sendMsg, quietThief, getCore_modCore_self]
      exact deque_keptRecords hk
    · rw [getCore_push, getCore_sendMsg, quietThief, getCore_modCore_self, keptRecords, getCore_modCore_self]
      exact launch_bindLaunch_self ..
    · rw [push_msgs, sendMsg_msgs, msgs_keptRecords]
  · refine ⟨_, execStealReplyReturn_eq hm hb, findMsg_of_msgs_eq_filter rfl, ?_, ?_, rfl⟩
    · rw [getCore_pushAll, getCore_modCore_self]
    · rw [getCore_pushAll]
      refine Eq.trans (getCore_modCore_field (g := Core.deque) _ _ _ fun _ => rfl) ?_
      rw [unreserved, getCore_modCore_self]
      rfl
  · refine ⟨_, execStealAckArrive_eq hm hb, findMsg_of_msgs_eq_filter rfl, ?_⟩
    rw [getCore_modCore_self]
    rfl

end Sys2Proof.Machine
end

section
/-! The master distributor: the dies' reports, the placing of root records and of the copies of dual records (R51, R53, R362, R555,
R556). -/

namespace Sys2Proof.Machine

/-! ### Reports (R362) -/

/-- The line of a die's report for a partition. -/
def reportLine (s : State) (die p : Nat) : DieReport :=
  { part := p, wide := (((idleOn s die).filter (holdsCore (getPart s p))).filter (fun c => classOf c == 1)).length,
    narrow := (((idleOn s die).filter (holdsCore (getPart s p))).filter (fun c => classOf c == 2)).length }

/-- The state in which a die has reported. -/
def dieReported (s : State) (die : Nat) : State :=
  { s with dieReports := tabSet s.dieReports die ((List.range 8).map (reportLine s die)) }

theorem execDieResourceReport_eq (die : Nat) (s : State) :
    execDieResourceReport die s = .next (if die < 24 then dieReported s die else s) := by
  unfold execDieResourceReport
  split <;> rfl

/-- The line of a partition is found in a report. -/
theorem find?_reportLine (s : State) (die : Nat) {p : Nat} (hp : p < 8) :
    ((List.range 8).map (reportLine s die)).find? (fun r => r.part == p) = some (reportLine s die p) := by
  rw [List.find?_map]
  have h : (List.range 8).find? ((fun r : DieReport => r.part == p) ∘ reportLine s die) = some p := by
    rw [List.find?_range_eq_some]
    exact ⟨beq_self_eq_true p, List.mem_range.2 hp, fun j hj => by simpa [reportLine] using hj.ne⟩
  rw [h]
  rfl

/-- A core is of one class, WIDE or NARROW (R24). -/
theorem classOf_eq (c : Nat) : classOf c = 1 ∨ classOf c = 2 := by
  unfold classOf
  split
  · exact .inl rfl
  · exact .inr rfl

/-- The WIDE and the NARROW cores of a list are counted together as those of either class. -/
theorem wide_add_narrow (cs : List Nat) :
    (cs.filter (fun c => classOf c == 1)).length + (cs.filter (fun c => classOf c == 2)).length =
      cs.countP (fun c => classOf c == 1 || classOf c == 2) := by
  induction cs with
  | nil => rfl
  | cons c cs ih =>
    rw [List.countP_cons, ← ih]
    rcases classOf_eq c with h | h
    · simp [h]
      omega
    · simp [h]
      omega

/-- The cores of either class that a die has just reported for a partition. -/
theorem reported_dieReported (s : State) (die : Nat) {p : Nat} (hp : p < 8) :
    reported (dieReported s die) die p 0 =
      ((idleOn s die).filter (holdsCore (getPart s p))).countP (fun c => classOf c == 1 || classOf c == 2) := by
  unfold reported
  rw [dieReported, tabGet_tabSet_self, find?_reportLine s die hp]
  exact wide_add_narrow _

/-! ### Root records at the distributor (R362) -/

section
variable {s : State} {w : RootWait} (hw : s.rootWaits.find? (fun v => v.ltag == w.ltag) = some w)
include hw

/-- A root record goes to the die with the largest count. -/
theorem execRootPlace_send {die : Nat} (hl : (getPart s w.part).state = .live) (hd : bestDie s w.part w.record.cls = some die) :
    execRootPlace w.ltag s =
      .next (sendMsg { s with rootWaits := s.rootWaits.filter (fun v => v.id != w.id) } 0 die 0 none (.root w.record w.restart)) := by
  unfold execRootPlace
  simp only [hw, if_pos hl, hd]
  rfl

/-- Without a die that counts a core the record waits, and the dies report again. -/
theorem execRootPlace_wait (h : (getPart s w.part).state ≠ .live ∨ bestDie s w.part w.record.cls = none) :
    execRootPlace w.ltag s =
      .next (pushAll s ((diesOf s w.part).map (fun d => .dieResourceReport d) ++ [.rootPlace w.ltag])) := by
  have hn : (if (getPart s w.part).state = .live then bestDie s w.part w.record.cls else none) = none := by
    split
    · exact h.resolve_left (not_not_intro ‹_›)
    · rfl
  unfold execRootPlace
  simp only [hw, hn]
  rfl

end

/-! ### Delivery to a core (R47) -/

/-- The state with a record in the first free entry of a core's activation queue. -/
def queueRecord (s : State) (c : Nat) (r : AqRecord) : State :=
  match freeAq (getCore s c) with
  | some i => deliverAq s c i r
  | none => s

theorem freeAq_congr {k l : Core} (h : k.aq = l.aq) : freeAq k = freeAq l := by
  unfold freeAq
  rw [h]

section
variable {s : State} {c : Nat} {r : AqRecord}

theorem queueRecord_of_free {i : Nat} (h : freeAq (getCore s c) = some i) : queueRecord s c r = deliverAq s c i r := by
  simp only [queueRecord, h]

/-- The record stands in an entry that was free. -/
theorem aq_queueRecord (h : (freeAq (getCore s c)).isSome = true) :
    ∃ i, (getCore (queueRecord s c r) c).aq.getD i .free = .delivered { r with order := s.nextId } := by
  obtain ⟨i, hi⟩ := Option.isSome_iff_exists.1 h
  refine ⟨i, ?_⟩
  rw [queueRecord_of_free hi, deliverAq, getCore_push, getCore_modCore_self]
  exact aq_putAq_self _ _ (freeAq_lt hi)

/-- The core may then choose it. -/
theorem choose_mem_queueRecord (h : (freeAq (getCore s c)).isSome = true) : .activationChoose c ∈ (queueRecord s c r).agenda := by
  obtain ⟨i, hi⟩ := Option.isSome_iff_exists.1 h
  rw [queueRecord_of_free hi]
  exact List.mem_append_right _ List.mem_cons_self

theorem launch_queueRecord (d : Nat) : (getCore (queueRecord s c r) d).launch = (getCore s d).launch := by
  unfold queueRecord
  split
  · rw [deliverAq, getCore_push]
    exact Eq.trans (getCore_modCore_field (g := Core.launch) _ _ _ fun _ => rfl) rfl
  · rfl

theorem getCore_queueRecord_ne {d : Nat} (h : d ≠ c) : getCore (queueRecord s c r) d = getCore s d := by
  unfold queueRecord
  split
  · rw [deliverAq, getCore_push, getCore_modCore_ne _ _ h, getCore_bumpId]
  · rfl

theorem queueRecord_msgs : (queueRecord s c r).msgs = s.msgs := by
  unfold queueRecord
  split <;> rfl

theorem queueRecord_pairs : (queueRecord s c r).pairs = s.pairs := by
  unfold queueRecord
  split <;> rfl

theorem queueRecord_dualWaits : (queueRecord s c r).dualWaits = s.dualWaits := by
  unfold queueRecord
  split <;> rfl

end

/-! ### A root record at its die (R53, R362, R365) -/

section
variable (s : State) (ltag c : Nat)

/-- The root of a launch is noted at the launch and its packet: no core changes. -/
theorem getCore_takeRoot (d : Nat) : getCore (takeRoot s ltag c) d = getCore s d := by
  unfold takeRoot
  split
  · rfl
  · split <;> rfl

theorem takeRoot_msgs : (takeRoot s ltag c).msgs = s.msgs := by
  unfold takeRoot
  split
  · rfl
  · split <;> rfl

theorem takeRoot_pairs : (takeRoot s ltag c).pairs = s.pairs := by
  unfold takeRoot
  split
  · rfl
  · split <;> rfl

theorem takeRoot_dualWaits : (takeRoot s ltag c).dualWaits = s.dualWaits := by
  unfold takeRoot
  split
  · rfl
  · split <;> rfl

end

/-- The state in which a core, bound to a launch, counts the launch's root record where it is the first. -/
def countedRoot (s : State) (c ltag : Nat) : State :=
  match findLaunch s ltag with
  | some l => if l.root.isNone then countCreated (bindLaunch s c ltag none) c else bindLaunch s c ltag none
  | none => bindLaunch s c ltag none

theorem countedRoot_cases (s : State) (c ltag : Nat) :
    countedRoot s c ltag = countCreated (bindLaunch s c ltag none) c ∨ countedRoot s c ltag = bindLaunch s c ltag none := by
  unfold countedRoot
  split
  · split
    · exact .inl rfl
    · exact .inr rfl
  · exact .inr rfl

theorem launch_countedRoot (s : State) (c ltag : Nat) : (getCore (countedRoot s c ltag) c).launch = some ltag := by
  rcases countedRoot_cases s c ltag with h | h
  · rw [h, getCore_countCreated_field (g := Core.launch) _ _ _ fun _ _ => rfl, launch_bindLaunch_self]
  · rw [h, launch_bindLaunch_self]

theorem aq_countedRoot (s : State) (c ltag : Nat) : (getCore (countedRoot s c ltag) c).aq = (getCore s c).aq := by
  rcases countedRoot_cases s c ltag with h | h
  · rw [h, getCore_countCreated_field (g := Core.aq) _ _ _ fun _ _ => rfl, aq_bindLaunch]
  · rw [h, aq_bindLaunch]

theorem countedRoot_msgs (s : State) (c ltag : Nat) : (countedRoot s c ltag).msgs = s.msgs := by
  rcases countedRoot_cases s c ltag with h | h
  · rw [h, countCreated, modCore_msgs]
    exact (coresOnly_bindLaunch ..).field State.msgs
  · rw [h]
    exact (coresOnly_bindLaunch ..).field State.msgs

theorem placeRoot_eq (s : State) (c : Nat) (rec : WorkRec) (restart : Bool) :
    placeRoot s c rec restart = queueRecord (takeRoot (countedRoot s c rec.ltag) rec.ltag c) c (plainAq rec none restart) := rfl

section
variable {s : State} {c : Nat} {rec : WorkRec} (restart : Bool)

theorem launch_placeRoot : (getCore (placeRoot s c rec restart) c).launch = some rec.ltag := by
  rw [placeRoot_eq, launch_queueRecord, getCore_takeRoot, launch_countedRoot]

theorem placeRoot_msgs : (placeRoot s c rec restart).msgs = s.msgs := by
  rw [placeRoot_eq, queueRecord_msgs, takeRoot_msgs, countedRoot_msgs]

/-- A core with a free entry that takes a root record has it delivered, and may choose it. -/
theorem delivered_placeRoot (h : (freeAq (getCore s c)).isSome = true) :
    (∃ i w, (getCore (placeRoot s c rec restart) c).aq.getD i .free = .delivered w ∧ w.record = rec ∧ w.restart = restart ∧ w.kind = .task) ∧
      .activationChoose c ∈ (placeRoot s c rec restart).agenda := by
  have hf : (freeAq (getCore (takeRoot (countedRoot s c rec.ltag) rec.ltag c) c)).isSome = true := by
    rwa [getCore_takeRoot, freeAq_congr (aq_countedRoot ..)]
  rw [placeRoot_eq]
  obtain ⟨i, hi⟩ := aq_queueRecord (r := plainAq rec none restart) hf
  exact ⟨⟨i, _, hi, rfl, rfl, rfl⟩, choose_mem_queueRecord hf⟩

end

/-- Whether a core may take a root record of a launch: in its live partition, of the record's class, with a free entry (R362). -/
def fitsRoot (s : State) (part cls c : Nat) : Bool :=
  holdsCore (getPart s part) c && (getPart s part).state == .live && mayRun c cls && (freeAq (getCore s c)).isSome

theorem fitsRoot_iff {s : State} {part cls c : Nat} :
    fitsRoot s part cls c = true ↔
      holdsCore (getPart s part) c = true ∧ (getPart s part).state = .live ∧ mayRun c cls = true ∧ (freeAq (getCore s c)).isSome = true := by
  simp only [fitsRoot, Bool.and_eq_true, beq_iff_eq, and_assoc]

section
variable {s : State} {m : TaskMsg} {r : WorkRec} {restart : Bool} {l : Launch} (hm : findMsg s m.id = some m)
  (hb : m.body = .root r restart) (hl : findLaunch s r.ltag = some l)
include hm hb hl

/-- The lowest-numbered core of the die that fits takes the record. -/
theorem execRootRecordArrive_place {c : Nat} (hf : (idleOn s m.target).find? (fitsRoot s l.part r.cls) = some c) :
    execRootRecordArrive m.id s = .next (placeRoot (dropMsg s m.id) c r restart) := by
  have hl' : findLaunch (dropMsg s m.id) r.ltag = some l := hl
  have hp : launchPart (dropMsg s m.id) r.ltag = l.part := by simp only [launchPart, hl']
  have hf' : (idleOn (dropMsg s m.id) m.target).find? (fun c =>
      holdsCore (getPart (dropMsg s m.id) l.part) c && (getPart (dropMsg s m.id) l.part).state == .live && mayRun c r.cls &&
        (freeAq (getCore (dropMsg s m.id) c)).isSome) = some c := hf
  unfold execRootRecordArrive
  simp only [hm, hb, hl', hp, hf', Option.isNone_some, Bool.false_eq_true, if_false, done]

/-- Where none fits the record returns to the distributor. -/
theorem execRootRecordArrive_return (hf : (idleOn s m.target).find? (fitsRoot s l.part r.cls) = none) :
    execRootRecordArrive m.id s = .next (awaitRoot (dropMsg s m.id) r restart) := by
  have hl' : findLaunch (dropMsg s m.id) r.ltag = some l := hl
  have hp : launchPart (dropMsg s m.id) r.ltag = l.part := by simp only [launchPart, hl']
  have hf' : (idleOn (dropMsg s m.id) m.target).find? (fun c =>
      holdsCore (getPart (dropMsg s m.id) l.part) c && (getPart (dropMsg s m.id) l.part).state == .live && mayRun c r.cls &&
        (freeAq (getCore (dropMsg s m.id) c)).isSome) = none := hf
  unfold execRootRecordArrive
  simp only [hm, hb, hl', hp, hf', Option.isNone_some, Bool.false_eq_true, if_false, done]

end

/-- A record that returns to the distributor waits there again; no core changes. -/
theorem awaitRoot_rootWaits (s : State) (rec : WorkRec) (restart : Bool) :
    (awaitRoot s rec restart).rootWaits =
      s.rootWaits ++ [{ id := s.nextId, ltag := rec.ltag, part := launchPart s rec.ltag, record := rec, restart := restart }] := rfl

/-! ### The copies of a dual record (R555, R556) -/

/-- The two cores of a pair differ, and each may run a copy. -/
theorem pairCores_some {s : State} {part a b : Nat} {rec : WorkRec} (h : pairCores s part rec = some (a, b)) :
    a < b ∧ fitsDual s part rec a = true ∧ fitsDual s part rec b = true := by
  unfold pairCores at h
  obtain ⟨x, hx, hm⟩ := List.exists_of_findSome?_eq_some h
  obtain ⟨y, hy, he⟩ := Option.map_eq_some_iff.1 hm
  cases he
  have hp := List.find?_some hy
  simp only [Bool.and_eq_true, decide_eq_true_eq] at hp
  obtain ⟨⟨hlt, -⟩, -⟩ := hp
  exact ⟨hlt, (List.mem_filter.1 hx).2, (List.mem_filter.1 (List.mem_of_find?_eq_some hy)).2⟩

theorem freeAq_of_fitsDual {s : State} {part c : Nat} {rec : WorkRec} (h : fitsDual s part rec c = true) :
    (freeAq (getCore s c)).isSome = true := by
  simp only [fitsDual, Bool.and_eq_true] at h
  exact h.2

theorem placeCopy_eq (s : State) (rec : WorkRec) (pair copy c : Nat) :
    placeCopy s rec pair copy c = queueRecord (bindLaunch s c rec.ltag none) c (plainAq rec (some (pair, copy)) false) := rfl

/-- A core has a copy of a pair's record delivered, and is bound to its launch. -/
def HasCopy (s : State) (rec : WorkRec) (pair copy c : Nat) : Prop :=
  (getCore s c).launch = some rec.ltag ∧
    ∃ i e, (getCore s c).aq.getD i .free = .delivered e ∧ e.record = rec ∧ e.pair = some (pair, copy)

section
variable {s : State} {rec : WorkRec} (pair copy c : Nat)

theorem hasCopy_placeCopy (h : (freeAq (getCore s c)).isSome = true) : HasCopy (placeCopy s rec pair copy c) rec pair copy c := by
  have hf : (freeAq (getCore (bindLaunch s c rec.ltag none) c)).isSome = true := by rwa [freeAq_congr (aq_bindLaunch ..)]
  obtain ⟨i, hi⟩ := aq_queueRecord (r := plainAq rec (some (pair, copy)) false) hf
  rw [placeCopy_eq]
  exact ⟨by rw [launch_queueRecord, launch_bindLaunch_self], i, _, hi, rfl, rfl⟩

theorem getCore_placeCopy_ne {d : Nat} (h : d ≠ c) : getCore (placeCopy s rec pair copy c) d = getCore s d := by
  rw [placeCopy_eq, getCore_queueRecord_ne h, getCore_bindLaunch_ne _ _ _ h]

theorem placeCopy_pairs : (placeCopy s rec pair copy c).pairs = s.pairs := by
  rw [placeCopy_eq, queueRecord_pairs]
  exact (coresOnly_bindLaunch ..).field State.pairs

theorem placeCopy_dualWaits : (placeCopy s rec pair copy c).dualWaits = s.dualWaits := by
  rw [placeCopy_eq, queueRecord_dualWaits]
  exact (coresOnly_bindLaunch ..).field State.dualWaits

end

/-- The pair that a waiting dual record becomes on two cores. -/
def newPair (s : State) (w : DualWait) (a b : Nat) : DualPair :=
  { pair := freshPair s (s.pairs.length + 2) s.nextPair, part := w.part, record := w.record, cores := [a, b], ended := [],
    second := w.second, counted := w.counted, sent := [] }

/-- The state with a pair in the place of its waiting record. -/
def pairMade (s : State) (w : DualWait) (a b : Nat) : State :=
  { s with
    dualWaits := s.dualWaits.filter (fun v => v.id != w.id), nextPair := ((newPair s w a b).pair + 1) % 2 ^ 20,
    pairs := s.pairs ++ [newPair s w a b] }

/-- The state in which a launch without a root has the first core of a pair as its root. -/
def pairRooted (t : State) (rec : WorkRec) (a : Nat) : State :=
  if (findLaunch t rec.ltag).any (fun l => l.root.isNone) then
    takeRoot (countCreated (bindLaunch t a rec.ltag none) a) rec.ltag a
  else t

section
variable (t : State) (rec : WorkRec) (a : Nat)

theorem aq_pairRooted (d : Nat) : (getCore (pairRooted t rec a) d).aq = (getCore t d).aq := by
  unfold pairRooted
  split
  · rw [getCore_takeRoot, getCore_countCreated_field (g := Core.aq) _ _ _ fun _ _ => rfl, aq_bindLaunch]
  · rfl

theorem pairRooted_pairs : (pairRooted t rec a).pairs = t.pairs := by
  unfold pairRooted
  split
  · rw [takeRoot_pairs, countCreated, modCore_pairs]
    exact (coresOnly_bindLaunch ..).field State.pairs
  · rfl

theorem pairRooted_dualWaits : (pairRooted t rec a).dualWaits = t.dualWaits := by
  unfold pairRooted
  split
  · rw [takeRoot_dualWaits, countCreated, modCore_dualWaits]
    exact (coresOnly_bindLaunch ..).field State.dualWaits
  · rfl

end

/-- The state with the copies of a dual record on two cores. -/
def pairPlaced (s : State) (w : DualWait) (a b : Nat) : State :=
  placeCopy (placeCopy (pairRooted (pairMade s w a b) w.record a) w.record (newPair s w a b).pair 0 a) w.record (newPair s w a b).pair 1 b

section
variable {s : State} {w : DualWait} (hw : s.dualWaits.find? (fun v => v.id == w.id) = some w)
  (hr : relDone s w.core w.after.1 w.after.2 3 = true)
include hw hr

theorem execDualPairPlace_wait (hp : pairCores s w.part w.record = none) :
    execDualPairPlace w.id s = .next (push s (.dualPairPlace w.id)) := by
  unfold execDualPairPlace
  simp only [hw, hr, hp]
  rfl

theorem execDualPairPlace_place {a b : Nat} (hp : pairCores s w.part w.record = some (a, b)) :
    execDualPairPlace w.id s = .next (pairPlaced s w a b) := by
  unfold execDualPairPlace
  simp only [hw, hr, hp]
  rfl

end

theorem pairPlaced_pairs (s : State) (w : DualWait) (a b : Nat) : (pairPlaced s w a b).pairs = s.pairs ++ [newPair s w a b] := by
  rw [pairPlaced, placeCopy_pairs, placeCopy_pairs, pairRooted_pairs, pairMade]

theorem pairPlaced_dualWaits (s : State) (w : DualWait) (a b : Nat) :
    (pairPlaced s w a b).dualWaits = s.dualWaits.filter (fun v => v.id != w.id) := by
  rw [pairPlaced, placeCopy_dualWaits, placeCopy_dualWaits, pairRooted_dualWaits, pairMade]

/-- Each of the two cores has its copy. -/
theorem hasCopy_pairPlaced {s : State} {w : DualWait} {a b : Nat} (hp : pairCores s w.part w.record = some (a, b)) :
    HasCopy (pairPlaced s w a b) w.record (newPair s w a b).pair 0 a ∧ HasCopy (pairPlaced s w a b) w.record (newPair s w a b).pair 1 b := by
  obtain ⟨hlt, ha, hb⟩ := pairCores_some hp
  have hfree : ∀ d, (freeAq (getCore s d)).isSome = true →
      (freeAq (getCore (pairRooted (pairMade s w a b) w.record a) d)).isSome = true := fun d hd => by
    rwa [freeAq_congr (aq_pairRooted ..)]
  unfold pairPlaced
  constructor
  · have h0 := hasCopy_placeCopy (rec := w.record) (newPair s w a b).pair 0 a (hfree a (freeAq_of_fitsDual ha))
    unfold HasCopy at h0 ⊢
    rwa [getCore_placeCopy_ne _ _ _ hlt.ne]
  · refine hasCopy_placeCopy _ _ _ ?_
    rw [getCore_placeCopy_ne _ _ _ hlt.ne']
    exact hfree b (freeAq_of_fitsDual hb)

end Sys2Proof.Machine
end

section
/-! Termination detection (R365-R367, R389). -/

namespace Sys2Proof.Machine

/-! ### Waves (R366) -/

/-- The word with which a participant answers: its own, with those of its children that have answered. -/
def answerWord (s : State) (ltag r c : Nat) (ans : List (Nat × WaveWord)) : WaveWord :=
  ((ans.filter (fun p => (waveChildren s ltag r c).contains p.1)).map (·.2)).foldl joinWords (ownWord s ltag c)

section
variable {s : State} {l : Launch} {r : Nat} (hl : findLaunch s l.ltag = some l) (hr : l.root = some r)
include hl hr

/-- A root that runs nothing, in a partition that lets it, starts a wave. -/
theorem execWaveStart_start (hw : l.wave = none) (hi : rootIdle s r = true) (hp : partLive s r = true) :
    execWaveStart l.ltag s = .next (push (putLaunch s { l with wave := some [] }) (.waveAnswer r)) := by
  unfold execWaveStart
  simp only [hl, hr, hw, hi, hp]
  rfl

/-- A wave is under way, or the root runs something: nothing happens. -/
theorem execWaveStart_idle (h : l.wave.isSome = true ∨ rootIdle s r = false) : execWaveStart l.ltag s = .next s := by
  unfold execWaveStart
  simp only [hl, hr]
  refine if_pos ?_
  rcases h with h | h <;> simp [h]

section
variable {c : Nat} {ans : List (Nat × WaveWord)} (hc : (getCore s c).launch = some l.ltag) (hw : l.wave = some ans)
  (hn : ∀ p ∈ ans, p.1 ≠ c) (hh : waveHeld s c = false)
include hc hw hn hh

/-- A participant asks its first child that has not answered. -/
theorem execWaveAnswer_ask {d : Nat} {pre post : List Nat} (he : waveChildren s l.ltag r c = pre ++ d :: post)
    (hpre : ∀ e ∈ pre, ∃ p ∈ ans, p.1 = e) (hd : ∀ p ∈ ans, p.1 ≠ d) : execWaveAnswer c s = .next (push s (.waveAnswer d)) := by
  have hlo : launchOf s c = some l := by rw [launchOf, hc, Option.bind_some, hl]
  have ha : ans.any (fun p => p.1 == c) = false := by simpa using hn
  have hf : (waveChildren s l.ltag r c).find? (fun x => !ans.any (fun p => p.1 == x)) = some d :=
    List.find?_eq_some_iff_append.2 ⟨by simpa using hd, pre, post, he, fun e hm => by simpa using hpre e hm⟩
  unfold execWaveAnswer
  simp only [hh, hlo, hw, hr, ha, hf, Bool.false_eq_true, if_false, done]

/-- A participant all of whose children have answered ends the wave, if it is the root, or answers its parent. -/
theorem execWaveAnswer_all (hall : ∀ d ∈ waveChildren s l.ltag r c, ∃ p ∈ ans, p.1 = d) :
    execWaveAnswer c s =
      if c = r then .next (endWave s l (answerWord s l.ltag r c ans))
      else .next (push (putLaunch s { l with wave := some (ans ++ [(c, answerWord s l.ltag r c ans)]) }) (.waveAnswer (waveParent s r c))) := by
  have hlo : launchOf s c = some l := by rw [launchOf, hc, Option.bind_some, hl]
  have ha : ans.any (fun p => p.1 == c) = false := by simpa using hn
  have hf : (waveChildren s l.ltag r c).find? (fun x => !ans.any (fun p => p.1 == x)) = none :=
    List.find?_eq_none.2 fun d hd => by simpa using hall d hd
  unfold execWaveAnswer answerWord
  simp only [hh, hlo, hw, hr, ha, hf, Bool.false_eq_true, if_false, done]

end
end

/-- A wave that does not end its launch is followed by another (R367). -/
theorem endWave_again {s : State} {l : Launch} {w : WaveWord} (h : w.act = true ∨ w.created ≠ w.ended ∨ l.last ≠ some w) :
    endWave s l w = push (putLaunch s { l with wave := none, last := some w }) (.waveStart l.ltag) := by
  refine if_neg ?_
  simp only [quietWord, Bool.and_eq_true, Bool.not_eq_true', beq_iff_eq]
  rintro ⟨⟨⟨ha, hce⟩, hlast⟩, -⟩
  rcases h with h | h | h
  · exact absurd (h.symm.trans ha) (by decide)
  · exact h hce
  · exact h hlast

/-- Two equal quiet waves of a launch whose accesses are settled end it (R325, R367). -/
theorem endWave_complete {s : State} {l : Launch} {w : WaveWord} (ha : w.act = false) (hce : w.created = w.ended)
    (hlast : l.last = some w) (hs : launchSettled s l.ltag = true) : endWave s l w = completeLaunch s l w :=
  if_pos (by simp [quietWord, ha, hce, hlast, hs])

/-! ### Packets (R389) -/

theorem getHq_setHq_self (s : State) (q : Nat) (h : HostQueue) : getHq (setHq s q h) q = h := tabGet_tabSet_self ..

/-- A packet that is changed under its own number is found changed. -/
theorem findPacket_modPacket (s : State) (q n : Nat) {f : Packet → Packet} (hf : ∀ p, (f p).n = p.n) :
    findPacket (modPacket s q n f) q n = (findPacket s q n).map f := by
  unfold findPacket modPacket setHq
  simp only [getHq, tabGet_tabSet_self]
  induction (tabGet emptyQueue s.queues q).packets with
  | nil => rfl
  | cons p ps ih =>
    by_cases hp : p.n = n
    · simp [hp, hf]
    · simpa [List.find?_cons, hp] using ih

/-- What finds a packet reads the packets of its queue alone. -/
theorem findPacket_congr {s t : State} {q : Nat} (n : Nat) (h : (getHq t q).packets = (getHq s q).packets) :
    findPacket t q n = findPacket s q n := by
  unfold findPacket
  rw [h]

/-- A packet as it stands when it has completed and asks for a record. -/
def completedPacket (s : State) (status detail : Nat) (p : Packet) : Packet :=
  { p with started := true, completed := true, status := status, detail := detail, written := false, moment := s.nextId }

/-- A packet that asks for a record completes with its status and stays until the record is written (R389). -/
theorem findPacket_finishPacket {s : State} {q n : Nat} {p : Packet} (status detail : Nat) (hp : findPacket s q n = some p)
    (hc : p.completed = false) (hr : pktCmpl p = true) :
    findPacket (finishPacket s q n status detail false) q n = some (completedPacket s status detail p) := by
  have hm : findPacket (modPacket s q n (completedPacket s status detail)) q n = some (completedPacket s status detail p) := by
    rw [findPacket_modPacket s q n (f := completedPacket s status detail) fun _ => rfl, hp]
    rfl
  unfold finishPacket
  simp only [hp, hc, hr]
  refine Eq.trans (findPacket_congr n ?_) hm
  show (getHq (if status = 0 then _ else _) q).packets = _
  split
  · rfl
  · rw [getHq_setHq_self]
    rfl

theorem finishPacket_cores (s : State) (q n status detail : Nat) (force : Bool) :
    (finishPacket s q n status detail force).cores = s.cores := by
  unfold finishPacket
  split
  · rfl
  · split
    · rfl
    · dsimp only
      split <;> split <;> rfl

theorem finishPacket_launches (s : State) (q n status detail : Nat) (force : Bool) :
    (finishPacket s q n status detail force).launches = s.launches := by
  unfold finishPacket
  split
  · rfl
  · split
    · rfl
    · dsimp only
      split <;> split <;> rfl

/-! ### The end of a launch (R367, R389) -/

theorem getCore_withFresh (s : State) (n c : Nat) : getCore { s with fresh := n } c = getCore s c := rfl

/-- The state in which a core belongs to no launch, its scratchpad still as it was. -/
def unbindCore (s : State) (c : Nat) : State := modCore s c (fun k => { k with launch := none, parent := none, waited := [] })

theorem scrubCore_eq (s : State) (c : Nat) :
    scrubCore s c =
      { modCtx (scramble (unbindCore s c) c) c (fun x => { x with acc := freeAcc (scramble (unbindCore s c) c).fresh }) with
        fresh := (scramble (unbindCore s c) c).fresh + accSpan } := rfl

/-- Of the bindings a scrub leaves what the unbinding leaves. -/
theorem launch_scrubCore (s : State) (c d : Nat) : (getCore (scrubCore s c) d).launch = (getCore (unbindCore s c) d).launch := by
  rw [scrubCore_eq, getCore_withFresh, ← getCore_scramble_field (g := Core.launch) (unbindCore s c) c d fun _ _ => rfl]
  exact getCore_modCtx_field (g := Core.launch) _ _ _ fun _ _ => rfl

theorem launch_scrubCore_self (s : State) (c : Nat) : (getCore (scrubCore s c) c).launch = none := by
  rw [launch_scrubCore, unbindCore, getCore_modCore_self]

theorem launch_scrubCore_ne (s : State) {c d : Nat} (h : d ≠ c) : (getCore (scrubCore s c) d).launch = (getCore s d).launch := by
  rw [launch_scrubCore, unbindCore, getCore_modCore_ne _ _ h]

theorem scrubCore_queues (s : State) (c : Nat) : (scrubCore s c).queues = s.queues := rfl

/-- Scrubbing binds no core. -/
theorem launch_foldl_scrubCore (cs : List Nat) (s : State) {d : Nat} (h : (getCore s d).launch = none ∨ d ∈ cs) :
    (getCore (cs.foldl scrubCore s) d).launch = none := by
  induction cs generalizing s with
  | nil => exact h.resolve_right List.not_mem_nil
  | cons c cs ih =>
    refine ih (scrubCore s c) ?_
    by_cases hd : d = c
    · exact .inl (hd ▸ launch_scrubCore_self s c)
    · exact h.imp (launch_scrubCore_ne s hd).trans fun hm => (List.mem_cons.1 hm).resolve_left hd

theorem foldl_scrubCore_queues (cs : List Nat) (s : State) : (cs.foldl scrubCore s).queues = s.queues :=
  List.foldlRecOn cs scrubCore (motive := fun t => t.queues = s.queues) rfl fun t ht c _ => (scrubCore_queues t c).trans ht

/-- What a table reads for a key, other than the default, stands in it. -/
theorem mem_of_tabGet_ne {α : Type} {d : α} {t : Tab α} {k : Nat} (h : tabGet d t k ≠ d) : (k, tabGet d t k) ∈ t := by
  induction t with
  | nil => exact absurd rfl h
  | cons p r ih =>
    obtain ⟨j, v⟩ := p
    unfold tabGet at h ⊢
    by_cases hj : j = k
    · simp [hj]
    · simp only [if_neg hj] at h ⊢
      exact List.mem_cons_of_mem _ (ih h)

/-- The cores bound to a launch are listed. -/
theorem mem_boundCores {s : State} {ltag d : Nat} (h : (getCore s d).launch = some ltag) : d ∈ boundCores s ltag := by
  have hne : getCore s d ≠ resetCore := fun e => by
    rw [e] at h
    exact absurd h nofun
  exact List.mem_map.2 ⟨_, List.mem_filter.2 ⟨mem_of_tabGet_ne hne, beq_iff_eq.2 h⟩, rfl⟩

section
variable (s : State) (l : Launch) (w : WaveWord)

/-- The state in which a launch that has ended stands no more, and its cores and groups are free. -/
def launchGone : State :=
  { (boundCores s l.ltag).foldl scrubCore s with
    launches := ((boundCores s l.ltag).foldl scrubCore s).launches.filter (fun m => m.ltag != l.ltag),
    groups := ((boundCores s l.ltag).foldl scrubCore s).groups.map (fun g =>
      if g.2.valid ∧ g.2.ltag = l.ltag ∧ g.1 / 256 = l.part then (g.1, emptyGroup) else g) }

theorem completeLaunch_eq :
    completeLaunch s l w =
      pushAll (finishPacket (launchGone s l) l.packet.1 l.packet.2 (if errBits w = 0 then 0 else 1) (errBits w) false)
        ((boundCores s l.ltag).map (fun c => .activationChoose c)) := rfl

theorem findLaunch_completeLaunch : findLaunch (completeLaunch s l w) l.ltag = none := by
  rw [completeLaunch_eq, findLaunch, pushAll_launches, finishPacket_launches, launchGone]
  exact List.find?_eq_none.2 fun m hm => by simpa using (List.mem_filter.1 hm).2

theorem launch_completeLaunch {d : Nat} (h : (getCore s d).launch = some l.ltag) : (getCore (completeLaunch s l w) d).launch = none := by
  rw [completeLaunch_eq, getCore_pushAll, getCore, finishPacket_cores]
  exact launch_foldl_scrubCore _ s (.inr (mem_boundCores h))

theorem findPacket_completeLaunch {p : Packet} (hp : findPacket s l.packet.1 l.packet.2 = some p) (hc : p.completed = false)
    (hr : pktCmpl p = true) :
    findPacket (completeLaunch s l w) l.packet.1 l.packet.2 =
      some (completedPacket (launchGone s l) (if errBits w = 0 then 0 else 1) (errBits w) p) := by
  have hq : getHq (launchGone s l) l.packet.1 = getHq s l.packet.1 := by
    rw [getHq, launchGone, foldl_scrubCore_queues, getHq]
  rw [completeLaunch_eq]
  exact findPacket_finishPacket _ _ ((findPacket_congr _ (congrArg _ hq)).trans hp) hc hr

end

end Sys2Proof.Machine
end

section
/-! The obligation on the distributor and on waves. -/

namespace Sys2Proof.Machine

/-- Settles O41: the reports, the placings and the waves each end in one of the states above, whose fields are read off. -/
theorem distributorAndWaves : Obligations.DistributorAndWaves := by
  unfold Obligations.DistributorAndWaves
  refine ⟨fun s => ⟨fun die => ⟨fun hd => ?_, fun hd => ?_⟩, fun w hw => ⟨fun die hl hd => ?_, fun h => ?_⟩,
    fun m r restart l hm hb hl => ⟨fun pre c post hi hpre hf => ?_, fun hno => ?_⟩,
    fun w hw hr => ⟨fun hp => execDualPairPlace_wait hw hr hp, fun a b hp => ?_⟩⟩,
    fun s l r hl hr => ⟨fun hw hi hp => execWaveStart_start hl hr hw hi hp, fun h => execWaveStart_idle hl hr h,
      fun c ans hc hw hn hh => ⟨fun pre d post he hpre hd => execWaveAnswer_ask hl hr hc hw hn hh he hpre hd, fun hall =>
        ⟨fun hcr => ?_, fun hcr h => ?_, fun hcr ha hce hlast hs => ?_⟩⟩⟩⟩
  · exact (execDieResourceReport_eq die s).trans (by rw [if_neg (by omega)])
  · refine ⟨dieReported s die, (execDieResourceReport_eq die s).trans (by rw [if_pos hd]), rfl, fun d hne => ?_, fun p hp => ?_⟩
    · exact tabGet_tabSet_ne _ _ _ _ _ hne
    · exact reported_dieReported s die hp
  · exact ⟨_, _, execRootPlace_send hw hl hd, rfl, rfl, rfl, rfl, rfl⟩
  · exact ⟨_, execRootPlace_wait hw h, rfl, rfl, List.mem_append_right _ (List.mem_append_right _ List.mem_cons_self)⟩
  · have hfind : (idleOn s m.target).find? (fitsRoot s l.part r.cls) = some c :=
      List.find?_eq_some_iff_append.2 ⟨fitsRoot_iff.2 hf, pre, post, hi, fun e he => by
        rw [Bool.not_eq_true', ← Bool.not_eq_true]
        exact fun h => hpre e he (fitsRoot_iff.1 h)⟩
    obtain ⟨⟨i, w, haq, hrec, hres, hk⟩, hch⟩ := delivered_placeRoot (s := dropMsg s m.id) (rec := r) restart hf.2.2.2
    exact ⟨_, i, w, execRootRecordArrive_place hm hb hl hfind, launch_placeRoot .., haq, hrec, hres, hk,
      findMsg_of_msgs_eq_filter (placeRoot_msgs ..), hch⟩
  · have hfind : (idleOn s m.target).find? (fitsRoot s l.part r.cls) = none :=
      List.find?_eq_none.2 fun c hc h => hno c hc (fitsRoot_iff.1 h)
    exact ⟨awaitRoot (dropMsg s m.id) r restart, _, execRootRecordArrive_return hm hb hl hfind, awaitRoot_rootWaits .., rfl, rfl, rfl⟩
  · obtain ⟨h0, h1⟩ := hasCopy_pairPlaced (s := s) (w := w) hp
    refine ⟨_, newPair s w a b, execDualPairPlace_place hw hr hp, pairPlaced_dualWaits .., pairPlaced_pairs .., rfl, rfl, rfl, ?_⟩
    simp only [List.forall_mem_cons]
    exact ⟨h0, h1, nofun⟩
  · exact (execWaveAnswer_all hl hr hc hw hn hh hall).trans (if_neg hcr)
  · exact (execWaveAnswer_all hl hr hc hw hn hh hall).trans
      ((if_pos hcr).trans (congrArg Host.Outcome.next (endWave_again (w := answerWord s l.ltag r c ans) h)))
  · have he := endWave_complete (w := answerWord s l.ltag r c ans) ha hce hlast hs
    exact ⟨_, (execWaveAnswer_all hl hr hc hw hn hh hall).trans ((if_pos hcr).trans (congrArg Host.Outcome.next he)),
      findLaunch_completeLaunch .., fun d hd => launch_completeLaunch _ _ _ hd, fun p hp hcp hrp =>
        ⟨_, findPacket_completeLaunch s l _ hp hcp hrp, rfl, rfl, rfl⟩⟩

end Sys2Proof.Machine
end

section
/-! Conversions to E8M0 (R102) and the stochastic generator (R105). -/

namespace Sys2Proof.Machine

/-! ### Conversion to E8M0 (R102) -/

theorem log2Dyadic_eq {m k : Nat} (e : Int) (hle : 2 ^ k ≤ m) (hlt : m < 2 ^ (k + 1)) : log2Dyadic m e = k + e := by
  have hm : m ≠ 0 := (Nat.two_pow_pos k |>.trans_le hle).ne'
  rw [log2Dyadic, (Nat.log2_eq_iff hm).2 ⟨hle, hlt⟩]

theorem rnd_e8m0 (mode : Rnd) (sm : SatMode) (v : Nat) (x : Val) : rnd .e8m0 mode sm v x = rndE8m0 sm x := rfl

@[simp] theorem rndE8m0_nan (sm : SatMode) : rndE8m0 sm .nan = 0xFF := rfl

@[simp] theorem rndE8m0_inf (sm : SatMode) (neg : Bool) : rndE8m0 sm (.inf neg) = 0xFF := rfl

@[simp] theorem rndE8m0_negative (sm : SatMode) (m : Nat) (e : Int) : rndE8m0 sm (.fin true m e) = 0xFF := rfl

@[simp] theorem rndE8m0_zero (sm : SatMode) (neg : Bool) (e : Int) : rndE8m0 sm (.fin neg 0 e) = 0xFF := by
  cases neg <;> rfl

/-- The code of a positive value is its biased exponent, flushed below the range and saturated above it. -/
theorem rndE8m0_positive (sm : SatMode) {m k : Nat} (e : Int) (hle : 2 ^ k ≤ m) (hlt : m < 2 ^ (k + 1)) :
    rndE8m0 sm (.fin false m e) =
      if (k : Int) + e < -127 then 0 else if 127 < (k : Int) + e then (if sm = .nonsat then 0xFF else 0xFE)
        else ((k : Int) + e + 127).toNat := by
  have hm : m ≠ 0 := (Nat.two_pow_pos k |>.trans_le hle).ne'
  simp only [rndE8m0, if_neg hm, log2Dyadic_eq e hle hlt]

/-- Settles O2: NaN, infinities, zeros and negatives by the equations above, a positive value by where its exponent lies. -/
theorem conversionToE8M0 : Obligations.ConversionToE8M0 := by
  unfold Obligations.ConversionToE8M0
  intro mode sm v m k e neg
  simp only [rnd_e8m0]
  refine ⟨rndE8m0_nan sm, rndE8m0_inf sm neg, rndE8m0_zero sm neg e, rndE8m0_negative sm m e, fun hle hlt => ?_⟩
  rw [rndE8m0_positive sm e hle hlt]
  refine ⟨fun below => if_pos below, fun above => ?_, fun least greatest => ?_⟩
  · rw [if_neg (by omega), if_pos above]
  · rw [if_neg (by omega), if_neg (by omega), Int.toNat_of_nonneg (by omega)]

/-! ### The stochastic generator (R105) -/

theorem toNat_xor_shiftLeft {w : Nat} (x : BitVec w) (n : Nat) : (x ^^^ x <<< n).toNat = x.toNat ^^^ (x.toNat * 2 ^ n % 2 ^ w) := by
  rw [BitVec.toNat_xor, BitVec.toNat_shiftLeft, Nat.shiftLeft_eq]

theorem toNat_xor_shiftRight {w : Nat} (x : BitVec w) (n : Nat) : (x ^^^ x >>> n).toNat = x.toNat ^^^ (x.toNat / 2 ^ n) := by
  rw [BitVec.toNat_xor, BitVec.toNat_ushiftRight, Nat.shiftRight_eq_div_pow]

/-- The register %rseed reads as the generator's state (R237). -/
theorem sysRead_rseed (s : State) (c : Nat) : sysRead s c 0x005 = (getCtx s c).sys.rseed.setWidth 64 := rfl

/-- Settles O1: each exclusive-or with a shifted word is one with a product or a quotient by a power of two, and %rseed is read
without loss. -/
theorem stochasticStep : Obligations.StochasticStep := by
  unfold Obligations.StochasticStep
  intro s c x
  refine ⟨?_, ?_⟩
  · have hstart : (if x = 0 then 1 else x).toNat = if x = 0 then 1 else x.toNat := apply_ite BitVec.toNat _ _ _
    simp only [stochStep, toNat_xor_shiftLeft, toNat_xor_shiftRight, hstart]
  · rw [sysRead_rseed, BitVec.toNat_setWidth_of_le (by decide)]

end Sys2Proof.Machine
end

section
/-! Fields of a word (R124-R130). The encoder writes a word as a constant plus each operand times the power of two of its place; the rules
here read a field off such a sum, one operand at a time from the last and lowest: an operand lies above the field, below it, inside it, or
is the field. `x % (M * 2 ^ m) < M` says that the rest of the sum is clear where an operand of `m` bits stands at the place `M`. -/

namespace Sys2Proof

theorem toNat_fldv (w lo n : Nat) : (fldv w lo n).toNat = fld w lo n := BitVec.toNat_ofNat _ _

theorem fldv_eq {w lo n : Nat} (v : BitVec n) (h : fld w lo n = v.toNat) : fldv w lo n = v :=
  BitVec.eq_of_toNat_eq ((toNat_fldv ..).trans h)

theorem fldv_congr {w x lo n : Nat} (h : fld w lo n = fld x lo n) : fldv w lo n = fldv x lo n :=
  fldv_eq _ (h.trans (toNat_fldv ..).symm)

theorem fld_eq_mod_div (w lo n : Nat) : fld w lo n = w % 2 ^ (lo + n) / 2 ^ lo := by
  rw [fld, pow_add, Nat.mod_mul_right_div_self]

theorem fld_ofNat (k lo n : Nat) : fld (no_index (OfNat.ofNat k)) lo n = OfNat.ofNat k / 2 ^ lo % 2 ^ n := rfl

theorem fld_zero_mod (x : Nat) {n K : Nat} (h : 2 ^ n % K = 0) : fld x 0 n % K = x % K := by
  rw [fld, pow_zero, Nat.div_one, Nat.mod_mod_of_dvd _ (Nat.dvd_of_mod_eq_zero h)]

/-- A field holds a number just where its low and its high part hold those of the number. -/
theorem fld_eq_iff {w lo n c : Nat} (j : Nat) (h : j ≤ n) :
    fld w lo n = c ↔ fld w lo j = c % 2 ^ j ∧ fld w (lo + j) (n - j) = c / 2 ^ j := by
  obtain ⟨k, rfl⟩ := Nat.exists_eq_add_of_le h
  have hlow : fld w lo (j + k) % 2 ^ j = fld w lo j := by rw [fld, fld, Nat.mod_mod_of_dvd _ (Nat.pow_dvd_pow 2 h)]
  have hhigh : fld w lo (j + k) / 2 ^ j = fld w (lo + j) k := by
    rw [fld, fld, pow_add, pow_add, Nat.mod_mul_right_div_self, Nat.div_div_eq_div_mul]
  rw [Nat.add_sub_cancel_left, ← hlow, ← hhigh]
  refine ⟨by rintro rfl; exact ⟨rfl, rfl⟩, fun ⟨hm, hd⟩ => ?_⟩
  rw [← Nat.div_add_mod (fld w lo (j + k)) (2 ^ j), hm, hd, Nat.div_add_mod]

/-! ### A sum with one more operand -/

theorem add_mul_mod (x v : Nat) {M K : Nat} (h : M % K = 0) : (x + v * M) % K = x % K := by
  rw [Nat.add_mod, Nat.mul_mod, h, Nat.mul_zero, Nat.zero_mod, Nat.add_zero, Nat.mod_mod]

theorem add_eq_iff_false {k c : Nat} (h : c < k) (x : Nat) : k + x = c ↔ False := iff_false_intro (by omega)

theorem add_mul_eq_iff_false {x v M c : Nat} (h : x % M ≠ c % M) : x + v * M = c ↔ False :=
  iff_false_intro fun e => h (by rw [← e, Nat.add_mul_mod_self_right])

/-- An operand where the sum is clear carries nothing beyond its own bits. -/
theorem add_field_div {x m M N : Nat} (v : BitVec m) (hN : N % (M * 2 ^ m) = 0) (hx : x % (M * 2 ^ m) < M) :
    (x + v.toNat * M) / N = x / N := by
  have hv : (v.toNat + 1) * M ≤ 2 ^ m * M := Nat.mul_le_mul_right M v.isLt
  have hlt : x % (M * 2 ^ m) + v.toNat * M < M * 2 ^ m := by linarith
  have hdiv : (x + v.toNat * M) / (M * 2 ^ m) = x / (M * 2 ^ m) := by
    conv_lhs => rw [← Nat.div_add_mod x (M * 2 ^ m), Nat.add_assoc, Nat.mul_add_div (by omega), Nat.div_eq_of_lt hlt, Nat.add_zero]
  obtain ⟨c, rfl⟩ := Nat.dvd_of_mod_eq_zero hN
  rw [← Nat.div_div_eq_div_mul, hdiv, Nat.div_div_eq_div_mul]

theorem add_field_lt {x m M N : Nat} (v : BitVec m) (hN : N % (M * 2 ^ m) = 0) (hx : x % (M * 2 ^ m) < M) :
    x + v.toNat * M < N ↔ x < N := by
  rcases Nat.eq_zero_or_pos N with rfl | hpos
  · simp
  · rw [← Nat.div_eq_zero_iff_lt hpos, ← Nat.div_eq_zero_iff_lt hpos, add_field_div v hN hx]

theorem add_field_mod {x m M N : Nat} (v : BitVec m) (hN : N % (M * 2 ^ m) = 0) (hx : x % (M * 2 ^ m) < M) :
    (x + v.toNat * M) % N = x % N + v.toNat * M := by
  have hl := Nat.div_add_mod (x + v.toNat * M) N
  have hr := Nat.div_add_mod x N
  rw [add_field_div v hN hx] at hl
  omega

/-! ### A field of a sum with one more operand -/

theorem fld_below (x v : Nat) {M lo n : Nat} (hM : M % 2 ^ (lo + n) = 0) : fld (x + v * M) lo n = fld x lo n := by
  rw [fld_eq_mod_div, add_mul_mod x v hM, ← fld_eq_mod_div]

theorem fld_above (x : Nat) {m M lo n : Nat} (v : BitVec m) (hM : 2 ^ lo % (M * 2 ^ m) = 0) (hx : x % (M * 2 ^ m) < M) :
    fld (x + v.toNat * M) lo n = fld x lo n := by
  rw [fld, add_field_div v hM hx, ← fld]

theorem fld_inside (x : Nat) {m M lo n : Nat} (v : BitVec m) (hlo : M % 2 ^ lo = 0) (hM : 2 ^ (lo + n) % (M * 2 ^ m) = 0)
    (hx : x % (M * 2 ^ m) < M) : fld (x + v.toNat * M) lo n = fld x lo n + v.toNat * (M / 2 ^ lo) := by
  obtain ⟨c, rfl⟩ := Nat.dvd_of_mod_eq_zero hlo
  rw [fld_eq_mod_div, add_field_mod v hM hx, Nat.mul_left_comm, Nat.add_mul_div_left _ _ (Nat.two_pow_pos lo), ← fld_eq_mod_div,
    Nat.mul_div_cancel_left _ (Nat.two_pow_pos lo)]

theorem fldv_below (x v : Nat) {M lo n : Nat} (hM : M % 2 ^ (lo + n) = 0) : fldv (x + v * M) lo n = fldv x lo n :=
  fldv_congr (fld_below x v hM)

theorem fldv_above (x : Nat) {m M lo n : Nat} (v : BitVec m) (hM : 2 ^ lo % (M * 2 ^ m) = 0) (hx : x % (M * 2 ^ m) < M) :
    fldv (x + v.toNat * M) lo n = fldv x lo n :=
  fldv_congr (fld_above x v hM hx)

/-- The field where an operand was written holds it. -/
theorem fldv_self (x : Nat) {m M lo : Nat} (v : BitVec m) (hM : M = 2 ^ lo) (hx : x % (M * 2 ^ m) < M) :
    fldv (x + v.toNat * M) lo m = v := by
  subst hM
  refine fldv_eq v ?_
  rw [fld_inside x v (Nat.mod_self _) (by rw [pow_add, Nat.mod_self]) hx, Nat.div_self (Nat.two_pow_pos lo), fld_eq_mod_div, pow_add,
    Nat.div_eq_of_lt hx, Nat.zero_add, Nat.mul_one]

end Sys2Proof
end

section
/-! The decoder reads back what the encoder writes (R124-R144): the word of an instruction is in the major that the tables of R134 give its
row, no row before it matches, and each operand is in its field. An event has no word; of each other instruction the rules for fields
decide the conditions of its major's rows, in three parts of the majors. -/

namespace Sys2Proof

/-- The word of an encoded instruction has 32 bits (R124). -/
theorem encode_lt {i : Instr} {w : Nat} (h : encode i = some w) : w < 2 ^ 32 := by
  cases i
  all_goals cases h
  all_goals simp only [add_field_lt, add_mul_mod, Nat.reduceMul, Nat.reducePow, Nat.reduceMod, Nat.reduceLT]

/-- The majors 0x01 to 0x16: control, integer, branch, memory and task instructions. Three conditions of their rows
reach across an operand of a later row; each is cut where that operand ends. -/
theorem decodeRow_encode_scalar {i : Instr} {w : Nat} (h : encode i = some w) (hw : w < 0x60000000) :
    decodeRow w = some (canonical i) := by
  cases i
  all_goals cases h
  all_goals simp only [canonical, decodeRow, decodeSys, decodeIntR, decodeIntI, decodeMulDiv, decodeBit, decodeMovq, decodeBeq,
    decodeBne, decodeBlt, decodeBge, decodeBltu, decodeBgeu, decodeJal, decodeJump, decodeLd, decodeSt,
    decodeAtom, decodeOrder, decodeTask, decodeGang, decodeBar, fld_ofNat, add_mul_mod, add_field_lt, fld_below,
    fld_above, fld_inside, fldv_below, fldv_above, fldv_self, add_eq_iff_false, add_mul_eq_iff_false,
    fld_eq_iff (lo := 4) (n := 22) 8, fld_eq_iff (lo := 6) (n := 10) 6, fld_eq_iff (lo := 8) (n := 5) 3,
    and_true, false_and, and_false, and_self, ne_eq, not_false_eq_true, reduceIte, Nat.reduceAdd, Nat.reduceSub,
    Nat.reduceMul, Nat.reducePow, Nat.reduceMod, Nat.reduceDiv, Nat.reduceLT, Nat.reduceLeDiff, Nat.reduceEqDiff] at hw ⊢

/-- The majors 0x18 to 0x22: tile, matrix and accumulator instructions. -/
theorem decodeRow_encode_tile {i : Instr} {w : Nat} (h : encode i = some w) (hl : ¬ w < 0x60000000) (hw : w < 0x90000000) :
    decodeRow w = some (canonical i) := by
  cases i
  all_goals cases h
  all_goals simp only [canonical, decodeRow, decodeTileState, decodeTmov, decodeTalu, decodeTuna, decodeTred, decodeTfma, decodeTloop,
    decodeMload, decodeMma, decodeAcc, fld_ofNat, add_mul_mod, add_field_lt, fld_below, fld_above, fld_inside,
    fld_zero_mod, fldv_below, fldv_above, fldv_self, add_eq_iff_false, add_mul_eq_iff_false, true_and, and_true,
    false_and, and_self, ne_eq, not_false_eq_true, not_true_eq_false, reduceIte, Nat.reduceAdd, Nat.reduceMul,
    Nat.reducePow, Nat.reduceMod, Nat.reduceDiv, Nat.reduceLT, Nat.reduceEqDiff] at hl hw ⊢

/-- The majors 0x24 to 0x3F: copies, keys, combines, stack engines, collectives, hints, and the words of XIMM and XMOD. -/
theorem decodeRow_encode_engine {i : Instr} {w : Nat} (h : encode i = some w) (hl : ¬ w < 0x90000000) :
    decodeRow w = some (canonical i) := by
  cases i
  all_goals cases h
  all_goals simp only [canonical, decodeRow, decodeXcopy, decodeXmcast, decodeKey, decodeKsys, decodeCmb, decodeMs, decodeCol,
    decodeHint, decodePrefix, fld_ofNat, add_mul_mod, add_field_lt, fld_below, fld_above, fld_inside,
    fld_zero_mod, fldv_below, fldv_above, fldv_self, add_eq_iff_false, add_mul_eq_iff_false, true_and, and_true,
    false_and, and_false, and_self, ne_eq, not_false_eq_true, not_true_eq_false, reduceIte, Nat.reduceAdd,
    Nat.reduceMul, Nat.reducePow, Nat.reduceMod, Nat.reduceDiv, Nat.reduceLT, Nat.reduceEqDiff] at hl ⊢

/-- The row of an instruction's word is the instruction, BARM's three rows read as one (R139, R527). -/
theorem decodeRow_encode {i : Instr} {w : Nat} (h : encode i = some w) : decodeRow w = some (canonical i) := by
  by_cases hs : w < 0x60000000
  · exact decodeRow_encode_scalar h hs
  · by_cases ht : w < 0x90000000
    · exact decodeRow_encode_tile h hs ht
    · exact decodeRow_encode_engine h ht

end Sys2Proof
end

section
/-! A word that the decoder accepts is the one that the encoder writes (R125, R133): the fields that a row's condition fixes and those that
its operands take are side by side and cover the word, so that the encoder's sum telescopes to the word. -/

namespace Sys2Proof

/-- What stands in a word from a bit on. -/
def high (w k : Nat) : Nat := w / 2 ^ k

theorem high_zero (w : Nat) : high w 0 = w := by rw [high, pow_zero, Nat.div_one]

theorem high_eq_zero {w k : Nat} (h : w < 2 ^ k) : high w k = 0 := Nat.div_eq_of_lt h

/-- A field is what stands from its first bit on, without what stands after it. -/
theorem fld_high (w lo n : Nat) : fld w lo n + high w (lo + n) * 2 ^ n = high w lo := by
  rw [fld, high, high, pow_add, ← Nat.div_div_eq_div_mul, Nat.mul_comm, Nat.mod_add_div]

/-! ### The majors with more than nine rows, row by row -/

/-- What a decoder reads from a word encodes to the word. -/
def Encodes (w : Nat) (o : Option Instr) : Prop := ∀ i, o = some i → encode i = some w

theorem encodes_none (w : Nat) : Encodes w none := nofun

theorem encodes_row {w : Nat} {c : Prop} {_ : Decidable c} {i : Instr} {o : Option Instr} (hi : c → encode i = some w)
    (ho : Encodes w o) : Encodes w (if c then some i else o) := by
  intro j hj
  split at hj
  next hc => cases hj; exact hi hc
  next => exact ho j hj

theorem encodes_decodeIntR {w : Nat} (h32 : high w 32 = 0) (hm : fld w 26 6 = 2) : Encodes w (decodeIntR w) := by
  unfold decodeIntR
  repeat' refine encodes_row (fun hc => ?_) ?_
  any_goals exact encodes_none w
  all_goals grind only [encode, toNat_fldv, fld_high, high_zero]

theorem encodes_decodeIntI {w : Nat} (h32 : high w 32 = 0) (hm : fld w 26 6 = 3) : Encodes w (decodeIntI w) := by
  unfold decodeIntI
  repeat' refine encodes_row (fun hc => ?_) ?_
  any_goals exact encodes_none w
  all_goals grind only [encode, toNat_fldv, fld_high, high_zero]

theorem encodes_decodeTalu {w : Nat} (h32 : high w 32 = 0) (hm : fld w 26 6 = 26) : Encodes w (decodeTalu w) := by
  unfold decodeTalu
  repeat' refine encodes_row (fun hc => ?_) ?_
  any_goals exact encodes_none w
  all_goals grind only [encode, toNat_fldv, fld_high, high_zero]

theorem encodes_decodeTuna {w : Nat} (h32 : high w 32 = 0) (hm : fld w 26 6 = 27) : Encodes w (decodeTuna w) := by
  unfold decodeTuna
  repeat' refine encodes_row (fun hc => ?_) ?_
  any_goals exact encodes_none w
  all_goals grind only [encode, toNat_fldv, fld_high, high_zero]

/-- The row of a word of 32 bits encodes to the word: its condition fixes every bit that no operand does (R125, R133). -/
theorem encode_decodeRow {w : Nat} {i : Instr} (hw : w < 2 ^ 32) (h : decodeRow w = some i) : encode i = some w := by
  have h32 := high_eq_zero hw
  unfold decodeRow at h
  split at h
  case h_2 hm => exact encodes_decodeIntR h32 hm i h
  case h_3 hm => exact encodes_decodeIntI h32 hm i h
  case h_24 hm => exact encodes_decodeTalu h32 hm i h
  case h_25 hm => exact encodes_decodeTuna h32 hm i h
  all_goals grind only [decodeSys, decodeMulDiv, decodeBit, decodeMovq, decodeBeq, decodeBne, decodeBlt, decodeBge, decodeBltu,
    decodeBgeu, decodeJal, decodeJump, decodeLd, decodeSt, decodeAtom, decodeOrder, decodeTask, decodeGang,
    decodeBar, decodeTileState, decodeTmov, decodeTred, decodeTfma, decodeTloop, decodeMload, decodeMma,
    decodeAcc, decodeXcopy, decodeXmcast, decodeKey, decodeKsys, decodeCmb, decodeMs, decodeCol, decodeHint,
    decodePrefix, encode, toNat_fldv, fld_high, high_zero]

end Sys2Proof
end

section
/-! The obligation on encodings. -/

namespace Sys2Proof

theorem leNat_leBytes (n v : Nat) : leNat (leBytes n v) = v % 256 ^ n := by
  induction n generalizing v with
  | zero => rw [pow_zero, Nat.mod_one]; rfl
  | succ n ih =>
    rw [leBytes, leNat, ih, BitVec.toNat_ofNat, pow_succ' 256]
    exact Nat.mod_mul.symm

theorem decodeBytes_leBytes {w : Nat} (h : w < 2 ^ 32) : decodeBytes (leBytes 4 w) = decodeWord w := by
  have hw : leNat (leBytes 4 w) = w := (leNat_leBytes 4 w).trans (Nat.mod_eq_of_lt h)
  exact congrArg decodeWord hw

theorem check_canonical (i : Instr) : (canonical i).check = i.check := by
  cases i <;> rfl

/-- The decoder accepts a word just where its row is well formed (R126). -/
theorem decodeWord_eq_ok {w : Nat} {i : Instr} : decodeWord w = .ok i ↔ decodeRow w = some i ∧ i.check = none := by
  constructor
  · intro h
    unfold decodeWord at h
    split at h
    · cases h
    · next j hr =>
      split at h
      · next hc => cases h; exact ⟨hr, hc⟩
      · cases h
  · rintro ⟨hr, hc⟩
    simp only [decodeWord, hr, hc]

/-- Settles O53: an instruction's word has 32 bits and its row is the instruction, and the row of a word encodes to the word; the check
is one on both sides. -/
theorem encodingsAgree : Obligations.EncodingsAgree := by
  unfold Obligations.EncodingsAgree
  refine ⟨fun i w hc he => ⟨encode_lt he, ?_⟩, fun i w hw hd => ?_⟩
  · rw [decodeBytes_leBytes (encode_lt he)]
    exact decodeWord_eq_ok.2 ⟨decodeRow_encode he, (check_canonical i).trans hc⟩
  · obtain ⟨hr, hc⟩ := decodeWord_eq_ok.1 hd
    exact ⟨hc, encode_decodeRow hw hr⟩

end Sys2Proof
end

section
/-! General registers and queue registers (R153, R160, R161). -/

namespace Sys2Proof.Machine

/-- A unit that goes and has its effect (R130-R133). -/
theorem issue_some {s t : State} {q : IssueSpec} {f : Issued → State → Option State} (h : Goes (cur s) q)
    (hf : f (issuedOf (cur s) s.focus) (withCur s (passUnit (cur s))) = some t) : issue s q f = .next t := by
  rw [issue_of_goes s q f h, hf]

/-- A unit that goes and whose effect has to wait, at its boundary (R158). -/
theorem issue_none {s : State} {q : IssueSpec} {f : Issued → State → Option State} (h : Goes (cur s) q)
    (hf : f (issuedOf (cur s) s.focus) (withCur s (passUnit (cur s))) = none) : issue s q f = .next s := by
  rw [issue_of_goes s q f h, hf]

theorem getReg_setReg_self {x : Ctx} {r : BitVec 5} (v : Word) (h : r ≠ 0) :
    getReg (setReg x r v) r = { val := v, poison := none, mark := .clear } :=
  getReg_putReg_self x r _ h

theorem getReg_setReg_ne (x : Ctx) {r q : BitVec 5} (v : Word) (h : q ≠ r) : getReg (setReg x r v) q = getReg x q :=
  getReg_putReg_ne x r q _ h

@[simp] theorem getQueue_passUnit (x : Ctx) (n : Nat) : getQueue (passUnit x) n = getQueue x n := rfl

theorem execQpush_push {s : State} {a : BitVec 5} {n : BitVec 2} (h : Goes (cur s) (needs [a] [] (ahead := true)))
    (hlen : (getQueue (cur s) n.toNat).length < 8) :
    execQpush a n s = .next (withCur s (setQueue (passUnit (cur s)) n.toNat
      (getQueue (cur s) n.toNat ++ [{ val := regVal (cur s) a, gen := youngestGen (cur s) }]))) :=
  issue_some h (by simp [issuedOf, hlen])

theorem execQpush_full {s : State} {a : BitVec 5} {n : BitVec 2} (h : Goes (cur s) (needs [a] [] (ahead := true)))
    (hlen : 8 ≤ (getQueue (cur s) n.toNat).length) : execQpush a n s = .next s :=
  issue_none h (by simp [issuedOf, hlen.not_gt])

theorem execQpop_pop {s : State} {d : BitVec 5} {n : BitVec 2} {e : QEntry} {r : List QEntry} (h : Goes (cur s) (needs [] [d]))
    (hq : getQueue (cur s) (4 + n.toNat) = e :: r) :
    execQpop d n s = .next (withCur s (setReg (setQueue (passUnit (cur s)) (4 + n.toNat) r) d e.val)) :=
  issue_some h (by simp [issuedOf, hq])

theorem execQpop_empty {s : State} {d : BitVec 5} {n : BitVec 2} (h : Goes (cur s) (needs [] [d]))
    (hq : getQueue (cur s) (4 + n.toNat) = []) : execQpop d n s = .next s :=
  issue_none h (by simp [issuedOf, hq])

theorem execQlen_of_goes {s : State} {d : BitVec 5} {m : BitVec 3} (h : Goes (cur s) (needs [] [d])) :
    execQlen d m s = .next (withCur s (setReg (passUnit (cur s)) d (BitVec.ofNat 64 (getQueue (cur s) m.toNat).length))) :=
  issue_some h (by simp [issuedOf])

/-- Settles O6: the reads after a register write, and what each queue instruction answers by the length of its queue. -/
theorem registers : Obligations.Registers := by
  unfold Obligations.Registers
  refine ⟨fun x r q v => ⟨?_, setReg_zero x v, getReg_setReg_self v, getReg_setReg_ne x v⟩, fun s d a n m =>
    ⟨fun h => ⟨execQpush_push h, execQpush_full h⟩, fun h => ⟨fun _ _ => execQpop_pop h, execQpop_empty h, execQlen_of_goes h⟩⟩⟩
  rw [setReg_zero, regVal_zero]

end Sys2Proof.Machine
end

section
/-! Prefix words and hints (R128-R132, R178, R179). -/

namespace Sys2Proof.Machine

theorem openPfx_of_none {x : Ctx} (h : x.pfx = none) :
    openPfx x = { upc := x.pc, ximm := none, xmod := none, ill := false, bad := false } := by
  rw [openPfx, h]

theorem openPfx_of_some {x : Ctx} {p : Pfx} (h : x.pfx = some p) : openPfx x = p := by
  rw [openPfx, h]

theorem passPrefix_eq (s : State) (f : Pfx → Pfx) :
    passPrefix s f = withCur s { cur s with pc := (cur s).pc + 4, pfx := some (f (openPfx (cur s))) } := rfl

/-- The first XIMM of a unit adds to the prefixes of the unit so far (R128, R131). -/
theorem execXimm_eq {s : State} (u : BitVec 24) (h : (openPfx (cur s)).ximm = none) :
    execXimm u s = .next (withCur s { cur s with pc := (cur s).pc + 4, pfx := some { openPfx (cur s) with ximm := some u } }) := by
  rw [execXimm, passPrefix_eq, h]
  rfl

/-- The first XMOD of a unit adds to the prefixes of the unit so far (R129, R131). -/
theorem execXmod_eq {s : State} (r : BitVec 3) (sm : BitVec 2) (d : BitVec 1) (o : BitVec 2) (h : (openPfx (cur s)).xmod = none) :
    execXmod r sm d o s = .next (withCur s
      { cur s with pc := (cur s).pc + 4, pfx := some { openPfx (cur s) with xmod := some { rnd := r, sat := sm, dup := d, ord := o } } }) := by
  rw [execXmod, passPrefix_eq, h]
  rfl

theorem execHlikely_of_goes {s : State} (n : BitVec 8) (t : BitVec 1) (h : Goes (cur s) (needs [] [] (ahead := true))) :
    execHlikely n t s = .next (withCur s { passUnit (cur s) with
      hint := some { target := unitPc (cur s) + 4 * n.setWidth 64, taken := decide (t = 1) } }) :=
  issue_some h (congrArg some (modCtx_setCtx ..))

theorem execHpref_of_goes {s : State} (l : BitVec 4) (w : BitVec 20) (h : Goes (cur s) (needs [] [] (ahead := true))) :
    execHpref l w s = .next (withCur s (passUnit (cur s))) :=
  issue_some h rfl

/-- Settles O7: a word of XIMM or XMOD adds to the unit's prefixes, which a unit boundary opens afresh; a hint is a unit that goes. -/
theorem prefixesAndHints : Obligations.PrefixesAndHints := by
  unfold Obligations.PrefixesAndHints
  refine ⟨fun s u r sm d o => ⟨fun hp => ?_, fun p hp hm => ?_, fun p hp hi => ?_⟩, fun s n t l w h =>
    ⟨execHlikely_of_goes n t h, execHpref_of_goes l w h⟩⟩
  · have hopen := openPfx_of_none hp
    exact ⟨(execXimm_eq u (by rw [hopen])).trans (by rw [hopen]), (execXmod_eq r sm d o (by rw [hopen])).trans (by rw [hopen])⟩
  · have hopen := openPfx_of_some hp
    exact (execXmod_eq r sm d o (by rw [hopen, hm])).trans (by rw [hopen])
  · have hopen := openPfx_of_some hp
    exact (execXimm_eq u (by rw [hopen, hi])).trans (by rw [hopen])

end Sys2Proof.Machine
end

section
/-! An event's turn (log 3). -/

namespace Sys2Proof.Machine

/-- The event of an instruction's name, for an instruction that has one (log 3). -/
def eventOf (i : Instr) : Option Event :=
  match i with
  | .activationChoose c => some (.activationChoose c)
  | .urgentEventArrive n => some (.urgentEventArrive n)
  | .urgentPreempt c => some (.urgentPreempt c)
  | .stealProbe c => some (.stealProbe c)
  | .stealBackoffExpire c => some (.stealBackoffExpire c)
  | .stealRequestServe n => some (.stealRequestServe n)
  | .stealReplyArrive n => some (.stealReplyArrive n)
  | .stealAckArrive n => some (.stealAckArrive n)
  | .stealReplyReturn n => some (.stealReplyReturn n)
  | .callatArrive n => some (.callatArrive n)
  | .messageArrive n => some (.messageArrive n)
  | .dieResourceReport die => some (.dieResourceReport die)
  | .rootPlace ltag => some (.rootPlace ltag)
  | .rootRecordArrive n => some (.rootRecordArrive n)
  | .dualPairPlace k => some (.dualPairPlace k)
  | .continuationDeliver n => some (.continuationDeliver n)
  | .roundCloseArrive n => some (.roundCloseArrive n)
  | .waveStart ltag => some (.waveStart ltag)
  | .waveAnswer c => some (.waveAnswer c)
  | .branchResolve c gen => some (.branchResolve c gen)
  | .loadResponse n => some (.loadResponse n)
  | .fenceComplete c => some (.fenceComplete c)
  | .drainComplete c => some (.drainComplete c)
  | .wfeWake c => some (.wfeWake c)
  | .tileUnitBegin c => some (.tileUnitBegin c)
  | .tileRowComplete c => some (.tileRowComplete c)
  | .tileBandComplete c mismatch => some (.tileBandComplete c mismatch)
  | .trapEntry c => some (.trapEntry c)
  | .leaveGrant die part => some (.leaveGrant die part)
  | .barwComplete op => some (.barwComplete op)
  | .cntrdReading op => some (.cntrdReading op)
  | .stationTranslate n => some (.stationTranslate n)
  | .faultResolve port n => some (.faultResolve port n)
  | .faultDecline port n => some (.faultDecline port n)
  | .faultResolveTimeout port n => some (.faultResolveTimeout port n)
  | .faultQueueRetry n => some (.faultQueueRetry n)
  | .storePerform n => some (.storePerform n)
  | .replicaInvalidateAck line holder => some (.replicaInvalidateAck line holder)
  | .atomicPerform n => some (.atomicPerform n)
  | .peerAccessArrive n => some (.peerAccessArrive n)
  | .sliceRead n => some (.sliceRead n)
  | .sectorFill line sector => some (.sectorFill line sector)
  | .hotWindowEnd slice => some (.hotWindowEnd slice)
  | .helperRead n => some (.helperRead n)
  | .copyRowComplete op row => some (.copyRowComplete op row)
  | .multicastDelivery op rank => some (.multicastDelivery op rank)
  | .xmreadRequestArrive op line => some (.xmreadRequestArrive op line)
  | .xmreadSectorSend entry => some (.xmreadSectorSend entry)
  | .multicastEnd op => some (.multicastEnd op)
  | .xfreeNoticeArrive n => some (.xfreeNoticeArrive n)
  | .msPacketExecute op => some (.msPacketExecute op)
  | .msComplete op => some (.msComplete op)
  | .vcDeadlockTimeout p => some (.vcDeadlockTimeout p)
  | .flowAck flow => some (.flowAck flow)
  | .collectiveInstanceStart comm inst => some (.collectiveInstanceStart comm inst)
  | .chunkStart die comm => some (.chunkStart die comm)
  | .chunkReservationTimeout die comm => some (.chunkReservationTimeout die comm)
  | .chunkEnd die => some (.chunkEnd die)
  | .collectiveInstanceEnd comm inst => some (.collectiveInstanceEnd comm inst)
  | .communicatorWrite comm e => some (.communicatorWrite comm e)
  | .homeKputArrive n => some (.homeKputArrive n)
  | .homeKreadArrive n => some (.homeKreadArrive n)
  | .homeKtakeArrive n => some (.homeKtakeArrive n)
  | .homeKcancelArrive n => some (.homeKcancelArrive n)
  | .homeRedepositArrive n => some (.homeRedepositArrive n)
  | .keyDeliveryArrive n => some (.keyDeliveryArrive n)
  | .keyDeliveryAck n => some (.keyDeliveryAck n)
  | .assayFirstArrival n => some (.assayFirstArrival n)
  | .assayTwinArrival n => some (.assayTwinArrival n)
  | .assayRetry n => some (.assayRetry n)
  | .assayTimeout n => some (.assayTimeout n)
  | .forwardHintArrive n => some (.forwardHintArrive n)
  | .heldForwardRelease n => some (.heldForwardRelease n)
  | .mapBroadcastArrive ni => some (.mapBroadcastArrive ni)
  | .splitCopy => some .splitCopy
  | .splitCutover => some .splitCutover
  | .splitAbort lost => some (.splitAbort lost)
  | .waidricMessageReceive bytes => some (.waidricMessageReceive bytes)
  | .waidricConnectionFail modnum reqid => some (.waidricConnectionFail modnum reqid)
  | .moduleFailed modnum => some (.moduleFailed modnum)
  | .heapResizeRequest home base size => some (.heapResizeRequest home base size)
  | .sliceCmbopenArrive n => some (.sliceCmbopenArrive n)
  | .sliceCmbputArrive n => some (.sliceCmbputArrive n)
  | .sliceCmbcloseArrive n => some (.sliceCmbcloseArrive n)
  | .combineTimeout slice slot => some (.combineTimeout slice slot)
  | .combineRelease slice slot => some (.combineRelease slice slot)
  | .lingerExpire slice slot => some (.lingerExpire slice slot)
  | .openWaitServe slice => some (.openWaitServe slice)
  | .doorbell q value => some (.doorbell q value)
  | .packetFetch q => some (.packetFetch q)
  | .launchPacket q n => some (.launchPacket q n)
  | .copyPacket q n => some (.copyPacket q n)
  | .kputPacket q n => some (.kputPacket q n)
  | .signalPacket q n => some (.signalPacket q n)
  | .fencePacket q n => some (.fencePacket q n)
  | .waitcondPacket q n => some (.waitcondPacket q n)
  | .waitcondRetest q n => some (.waitcondRetest q n)
  | .completionRecordWrite q n => some (.completionRecordWrite q n)
  | .queueCommit q copyB blk word => some (.queueCommit q copyB blk word)
  | .commitTakeEffect q => some (.commitTakeEffect q)
  | .frontEndModeWrite v => some (.frontEndModeWrite v)
  | .firmwareTableWrite w => some (.firmwareTableWrite w)
  | .frameReceive port fcsOk ts bytes => some (.frameReceive port fcsOk ts bytes)
  | .firmwareWatchdogReset blk => some (.firmwareWatchdogReset blk)
  | .heartbeat blk answered => some (.heartbeat blk answered)
  | .firmwareReplace blk img => some (.firmwareReplace blk img)
  | .partitionSwitchRequest p => some (.partitionSwitchRequest p)
  | .partitionHalt p => some (.partitionHalt p)
  | .contextWriteOut p => some (.contextWriteOut p)
  | .partitionRestore p onto => some (.partitionRestore p onto)
  | .spillReloadComplete c region => some (.spillReloadComplete c region)
  | .slotReloadComplete c slot => some (.slotReloadComplete c slot)
  | .partitionGate p => some (.partitionGate p)
  | .partitionWake p onto => some (.partitionWake p onto)
  | .uncorrectableError place => some (.uncorrectableError place)
  | .coreKill c => some (.coreKill c)
  | .coreMapUpdateArrive ni c => some (.coreMapUpdateArrive ni c)
  | .coreMapChangeComplete c => some (.coreMapChangeComplete c)
  | .mismatchWindowEnd die => some (.mismatchWindowEnd die)
  | .correctedErrorReport eng bank row col => some (.correctedErrorReport eng bank row col)
  | .classificationWindowEnd eng => some (.classificationWindowEnd eng)
  | .repairServe eng idx => some (.repairServe eng idx)
  | .translationInvalidate ctx lo hi => some (.translationInvalidate ctx lo hi)
  | .powerOn flash => some (.powerOn flash)
  | .imageVerify blk img => some (.imageVerify blk img)
  | .blockReady blk => some (.blockReady blk)
  | .minSvnRaise target svn signed => some (.minSvnRaise target svn signed)
  | .attestationRequest nonce => some (.attestationRequest nonce)
  | .leaveCapWrite die cap => some (.leaveCapWrite die cap)
  | .currentMonitorHigh => some .currentMonitorHigh
  | .currentMonitorLowSustained => some .currentMonitorLowSustained
  | .snapshotMarkerArrive tag blk => some (.snapshotMarkerArrive tag blk)
  | .snapshotPacketRecord n blk => some (.snapshotPacketRecord n blk)
  | .cutComplete tag => some (.cutComplete tag)
  | .linkDeath x => some (.linkDeath x)
  | .hostRdmaWrite conn ctx va bytes => some (.hostRdmaWrite conn ctx va bytes)
  | .replicaDrop line holder => some (.replicaDrop line holder)
  | .foremanCoreRestart c => some (.foremanCoreRestart c)
  | _ => none

/-- The instructions without a word are those of the events' names. -/
theorem map_instrOf_eventOf (i : Instr) : (eventOf i).map instrOf = if encode i = none then some i else none := by
  cases i <;> rfl

theorem exists_instrOf {i : Instr} (h : encode i = none) : ∃ e, instrOf e = i := by
  obtain ⟨e, -, he⟩ := Option.map_eq_some_iff.1 ((map_instrOf_eventOf i).trans (if_pos h))
  exact ⟨e, he⟩

theorem meetCuts_of_no_cut {s : State} (e : Event) (h : s.cuts = []) : meetCuts s e = s := by
  rw [meetCuts, h]
  rfl

theorem step_event {s : State} {e : Event} {rest : List Event} (ht : s.turn = .event) (ha : s.agenda = e :: rest) :
    step s = eventStep s e rest := by
  rw [step, ht, ha]

/-- Settles O56: an event's turn by definition, the events and the instructions without a word each the other's name. -/
theorem stepRunsEvent : Obligations.StepRunsEvent := by
  unfold Obligations.StepRunsEvent
  refine ⟨fun s e rest ht ha => ⟨step_event ht ha, meetCuts_of_no_cut (s := { s with agenda := rest, turn := .core }) e⟩,
    fun e => ⟨instrOf e, encode_instrOf e, runEvent_exec e⟩, fun i h => ?_⟩
  obtain ⟨e, rfl⟩ := exists_instrOf h
  exact ⟨e, runEvent_exec e⟩

end Sys2Proof.Machine
end

section
/-! The integer families at issue, and INT.R (R162, R163, R122). -/

namespace Sys2Proof.Machine

/-! ### Issue of the integer families -/

section

variable {s : State} {d a b : BitVec 5} {v : Word}

/-- An integer instruction that goes writes the value that it computes to its destination, and passes. -/
theorem computeTo_of_goes {q : IssueSpec} {f : Issued → Ctx → Word} (h : Goes (cur s) q) :
    computeTo s q d f =
      .next (withCur s (setReg (passUnit (cur s)) d (f (issuedOf (cur s) s.focus) (passUnit (cur s))))) :=
  issue_some h (congrArg some (modCtx_setCtx ..))

theorem intOp_of_goes {f : Word → Word → Word} (h : Goes (cur s) (needs [a, b] [d] (ahead := true)))
    (hv : f (regVal (cur s) a) (regVal (cur s) b) = v) :
    intOp s d a b f = .next (withCur s (setReg (passUnit (cur s)) d v)) :=
  hv ▸ computeTo_of_goes (goes_spread h)

theorem bitOp_of_goes {f : Word → Word} (h : Goes (cur s) (needs [a] [d] (ahead := true))) (hv : f (regVal (cur s) a) = v) :
    bitOp s d a f = .next (withCur s (setReg (passUnit (cur s)) d v)) :=
  hv ▸ computeTo_of_goes (goes_spread h)

theorem immOp_of_goes {f : Issued → Word → Word} (h : Goes (cur s) (needs [a] [d] (ahead := true) (imm := true)))
    (hv : f (issuedOf (cur s) s.focus) (regVal (cur s) a) = v) :
    immOp s d a f = .next (withCur s (setReg (passUnit (cur s)) d v)) :=
  hv ▸ computeTo_of_goes (goes_spread h)

end

/-! ### Results as numbers -/

/-- A left shift multiplies by a power of two, modulo 2^64 (R122). -/
theorem shiftLeft_eq_ofNat (x : Word) (n : Nat) : x <<< n = BitVec.ofNat 64 (x.toNat * 2 ^ n) := by
  apply BitVec.eq_of_toNat_eq
  rw [BitVec.toNat_shiftLeft, BitVec.toNat_ofNat, Nat.shiftLeft_eq]

/-- A logical right shift divides by a power of two (R122). -/
theorem ushiftRight_eq_ofNat (x : Word) (n : Nat) : x >>> n = BitVec.ofNat 64 (x.toNat / 2 ^ n) := by
  apply BitVec.eq_of_toNat_eq
  rw [BitVec.toNat_ushiftRight, BitVec.toNat_ofNat, Nat.shiftRight_eq_div_pow,
    Nat.mod_eq_of_lt ((Nat.div_le_self _ _).trans_lt x.isLt)]

/-- An arithmetic right shift divides by a power of two, rounding down (R122). -/
theorem sshiftRight_eq_ofInt (x : Word) (n : Nat) : x.sshiftRight n = BitVec.ofInt 64 (x.toInt / 2 ^ n) := by
  rw [BitVec.sshiftRight, Int.shiftRight_eq_div_pow, Nat.cast_pow, Nat.cast_ofNat]

theorem boolWord_slt (x y : Word) : boolWord (x.slt y) = if x.toInt < y.toInt then 1 else 0 := by
  simp only [boolWord, BitVec.slt, decide_eq_true_eq]

theorem boolWord_ult (x y : Word) : boolWord (x.ult y) = if x.toNat < y.toNat then 1 else 0 := by
  simp only [boolWord, BitVec.ult, decide_eq_true_eq]

theorem ite_slt_eq_min (x y : Word) : (if x.slt y then x else y) = BitVec.ofInt 64 (min x.toInt y.toInt) := by
  simp only [min_def_lt, apply_ite (BitVec.ofInt 64), BitVec.ofInt_toInt, BitVec.slt, decide_eq_true_eq]

theorem ite_slt_eq_max (x y : Word) : (if x.slt y then y else x) = BitVec.ofInt 64 (max x.toInt y.toInt) := by
  simp only [max_def_lt, apply_ite (BitVec.ofInt 64), BitVec.ofInt_toInt, BitVec.slt, decide_eq_true_eq]

theorem ite_ult_eq_min (x y : Word) : (if x.ult y then x else y) = BitVec.ofNat 64 (min x.toNat y.toNat) := by
  simp only [min_def_lt, apply_ite (BitVec.ofNat 64), BitVec.ofNat_toNat, BitVec.setWidth_eq, BitVec.ult, decide_eq_true_eq]

theorem ite_ult_eq_max (x y : Word) : (if x.ult y then y else x) = BitVec.ofNat 64 (max x.toNat y.toNat) := by
  simp only [max_def_lt, apply_ite (BitVec.ofNat 64), BitVec.ofNat_toNat, BitVec.setWidth_eq, BitVec.ult, decide_eq_true_eq]

theorem add_shiftLeft_eq_ofNat (x y : Word) (n : Nat) : x + y <<< n = BitVec.ofNat 64 (x.toNat + y.toNat * 2 ^ n) := by
  rw [BitVec.ofNat_add, ← shiftLeft_eq_ofNat, BitVec.ofNat_toNat, BitVec.setWidth_eq]

/-- Settles O3: every INT.R instruction that goes writes the value of its operation, which the lemmas above say as a number. -/
theorem integerRegister : Obligations.IntegerRegister := by
  unfold Obligations.IntegerRegister
  intro s d a b h hg
  exact ⟨(intOp_of_goes hg rfl : execAdd d a b s = _),
    (intOp_of_goes hg rfl : execSub d a b s = _),
    (intOp_of_goes hg rfl : execAnd d a b s = _),
    (intOp_of_goes hg rfl : execOr d a b s = _),
    (intOp_of_goes hg rfl : execXor d a b s = _),
    (intOp_of_goes hg rfl : execAndn d a b s = _),
    (intOp_of_goes hg rfl : execOrn d a b s = _),
    (intOp_of_goes hg (shiftLeft_eq_ofNat ..) : execSll d a b s = _),
    (intOp_of_goes hg (ushiftRight_eq_ofNat ..) : execSrl d a b s = _),
    (intOp_of_goes hg (sshiftRight_eq_ofInt ..) : execSra d a b s = _),
    (intOp_of_goes hg (boolWord_slt ..) : execSlt d a b s = _),
    (intOp_of_goes hg (boolWord_ult ..) : execSltu d a b s = _),
    (intOp_of_goes hg (ite_slt_eq_min ..) : execMin d a b s = _),
    (intOp_of_goes hg (ite_slt_eq_max ..) : execMax d a b s = _),
    (intOp_of_goes hg (ite_ult_eq_min ..) : execMinu d a b s = _),
    (intOp_of_goes hg (ite_ult_eq_max ..) : execMaxu d a b s = _),
    (intOp_of_goes hg (add_shiftLeft_eq_ofNat ..) : execLea d a b h s = _)⟩

end Sys2Proof.Machine
end

section
/-! The working immediate and INT.I (R164, R136). -/

namespace Sys2Proof.Machine

/-! ### The working immediate -/

/-- The working immediate as a signed number: that of the 36-bit pattern of XIMM and k, or of k alone (R136). -/
def immInt (u : Option (BitVec 24)) (k : BitVec 12) : Int :=
  match u with
  | none => k.toInt
  | some u => (u ++ k).toInt

/-- The working immediate as an unsigned number (R136). -/
def immNat (u : Option (BitVec 24)) (k : BitVec 12) : Nat :=
  match u with
  | none => k.toNat
  | some u => u.toNat * 4096 + k.toNat

theorem immSigned_eq_ofInt (u : Option (BitVec 24)) (k : BitVec 12) : immSigned u k = BitVec.ofInt 64 (immInt u k) := by
  cases u <;> rfl

theorem toInt_immSigned (u : Option (BitVec 24)) (k : BitVec 12) : (immSigned u k).toInt = immInt u k := by
  cases u <;> exact BitVec.toInt_signExtend_of_le (by decide)

theorem immUnsigned_eq_ofNat (u : Option (BitVec 24)) (k : BitVec 12) : immUnsigned u k = BitVec.ofNat 64 (immNat u k) := by
  cases u with
  | none => exact (BitVec.ofNat_toNat ..).symm
  | some u =>
    rw [immUnsigned, immNat, ← BitVec.ofNat_toNat, BitVec.toNat_append, ← Nat.shiftLeft_add_eq_or_of_lt k.isLt,
      Nat.shiftLeft_eq]

/-! ### Results as numbers -/

section

variable (x : Word) (u : Option (BitVec 24)) (k : BitVec 12)

theorem add_immSigned : x + immSigned u k = BitVec.ofInt 64 (x.toInt + immInt u k) := by
  rw [BitVec.ofInt_add, BitVec.ofInt_toInt, immSigned_eq_ofInt]

theorem boolWord_slt_immSigned : boolWord (x.slt (immSigned u k)) = if x.toInt < immInt u k then 1 else 0 := by
  rw [boolWord_slt, toInt_immSigned]

theorem boolWord_ult_immSigned :
    boolWord (x.ult (immSigned u k)) = if x.toNat < (BitVec.ofInt 64 (immInt u k)).toNat then 1 else 0 := by
  rw [boolWord_ult, immSigned_eq_ofInt]

theorem immSigned_shiftLeft (n : Nat) : immSigned u k <<< n = BitVec.ofInt 64 (immInt u k * 2 ^ n) := by
  have hpow : BitVec.ofInt 64 (2 ^ n) = BitVec.twoPow 64 n := by
    rw [BitVec.twoPow_eq, shiftLeft_eq_ofNat, ← BitVec.ofInt_natCast]
    simp
  rw [BitVec.shiftLeft_eq_mul_twoPow, BitVec.ofInt_mul, immSigned_eq_ofInt, hpow]

theorem and_lowMask (n : Nat) : x &&& BitVec.ofNat 64 (2 ^ n - 1) = BitVec.ofNat 64 (x.toNat % 2 ^ n) := by
  rw [← Nat.and_two_pow_sub_one_eq_mod, BitVec.ofNat_and, BitVec.ofNat_toNat, BitVec.setWidth_eq]

end

/-- Settles O4: every INT.I instruction that goes writes the value of its operation on the working immediate. -/
theorem integerImmediate : Obligations.IntegerImmediate := by
  unfold Obligations.IntegerImmediate
  intro s d a k n
  refine ⟨fun h => ?_, fun h => ?_⟩
  · exact ⟨(immOp_of_goes h (add_immSigned ..) : execAddi d a k s = _),
      (immOp_of_goes h (congrArg (_ &&& ·) (immUnsigned_eq_ofNat ..)) : execAndi d a k s = _),
      (immOp_of_goes h (congrArg (_ ||| ·) (immUnsigned_eq_ofNat ..)) : execOri d a k s = _),
      (immOp_of_goes h (congrArg (_ ^^^ ·) (immUnsigned_eq_ofNat ..)) : execXori d a k s = _),
      (immOp_of_goes h (boolWord_slt_immSigned ..) : execSlti d a k s = _),
      (immOp_of_goes h (boolWord_ult_immSigned ..) : execSltiu d a k s = _),
      (immOp_of_goes h (congrArg₂ (· ||| ·) (immSigned_shiftLeft ..) (and_lowMask ..)) : execLih d a k s = _)⟩
  · exact ⟨(bitOp_of_goes h (shiftLeft_eq_ofNat ..) : execSlli d a n s = _),
      (bitOp_of_goes h (ushiftRight_eq_ofNat ..) : execSrli d a n s = _),
      (bitOp_of_goes h (sshiftRight_eq_ofInt ..) : execSrai d a n s = _)⟩

end Sys2Proof.Machine
end

section
/-! MULDIV and BIT (R121, R166, R167). -/

namespace Sys2Proof.Machine

/-! ### Products and quotients (R121, R166) -/

/-- The bits 64 to 127 of a number are those of its pattern of 128 bits. -/
theorem highHalf_ofInt (p : Int) : ((BitVec.ofInt 128 p) >>> 64).setWidth 64 = BitVec.ofInt 64 (p / 2 ^ 64) := by
  apply BitVec.eq_of_toNat_eq
  simp only [BitVec.toNat_setWidth, BitVec.toNat_ushiftRight, BitVec.toNat_ofInt, Nat.shiftRight_eq_div_pow]
  omega

section

variable (x y : Word)

theorem mulHigh_eq_highHalf : mulHigh x y = ((x.signExtend 128 * y.signExtend 128) >>> 64).setWidth 64 := by
  rw [BitVec.signExtend, BitVec.signExtend, ← BitVec.ofInt_mul, highHalf_ofInt, mulHigh]

theorem mulHighU_eq_highHalf : mulHighU x y = ((x.setWidth 128 * y.setWidth 128) >>> 64).setWidth 64 := by
  have hprod : x.setWidth 128 * y.setWidth 128 = BitVec.ofInt 128 (x.toNat * y.toNat : Nat) := by
    rw [BitVec.ofInt_natCast, BitVec.ofNat_mul, BitVec.ofNat_toNat, BitVec.ofNat_toNat]
  rw [hprod, highHalf_ofInt, mulHighU, ← BitVec.ofInt_natCast]
  norm_cast

theorem mul_eq_ofInt : x * y = BitVec.ofInt 64 (x.toInt * y.toInt) := by
  rw [BitVec.ofInt_mul, BitVec.ofInt_toInt, BitVec.ofInt_toInt]

/-- The quotient that overflows is 2^63, whose pattern is that of -2^63 again. -/
theorem divS_eq : divS x y = if y = 0 then BitVec.allOnes 64
    else if x = 0x8000000000000000 ∧ y = BitVec.allOnes 64 then 0x8000000000000000
    else BitVec.ofInt 64 (x.toInt.tdiv y.toInt) := by
  rw [divS]
  refine if_congr Iff.rfl rfl ?_
  split
  · next h => obtain ⟨rfl, rfl⟩ := h; decide
  · rfl

/-- The division that overflows leaves no remainder. -/
theorem remS_eq : remS x y = if y = 0 then x
    else if x = 0x8000000000000000 ∧ y = BitVec.allOnes 64 then 0
    else BitVec.ofInt 64 (x.toInt - y.toInt * x.toInt.tdiv y.toInt) := by
  rw [remS]
  refine if_congr Iff.rfl rfl ?_
  split
  · next h => obtain ⟨rfl, rfl⟩ := h; decide
  · rw [Int.tmod_def]

theorem remU_eq : remU x y = if y = 0 then x else BitVec.ofNat 64 (x.toNat - y.toNat * (x.toNat / y.toNat)) := by
  rw [remU, Nat.mod_eq_sub_mul_div]

end

/-! ### Counts (R167) -/

section

variable (x : Word)

theorem log2_toNat_lt {x : Word} (h : x ≠ 0) : x.toNat.log2 < 64 :=
  (Nat.log2_lt fun e => h (BitVec.eq_of_toNat_eq e)).2 x.isLt

theorem leadingZeros_le : leadingZeros x ≤ 64 := by
  unfold leadingZeros
  split <;> omega

/-- Below its leading zeros stands the highest one bit. -/
theorem getLsbD_leadingZeros (h : leadingZeros x < 64) : x.getLsbD (63 - leadingZeros x) = true := by
  unfold leadingZeros at h ⊢
  split at h
  · omega
  · next hx =>
    have hlog := log2_toNat_lt hx
    rw [if_neg hx, show 63 - (63 - x.toNat.log2) = x.toNat.log2 by omega, ← BitVec.testBit_toNat]
    exact Nat.testBit_log2 fun e => hx (BitVec.eq_of_toNat_eq e)

theorem getLsbD_of_leadingZeros_le {i : Nat} (h : 64 - leadingZeros x ≤ i) : x.getLsbD i = false := by
  unfold leadingZeros at h
  split at h
  · next hx => exact hx ▸ BitVec.getLsbD_zero
  · next hx =>
    have hlog := log2_toNat_lt hx
    rw [← BitVec.testBit_toNat]
    exact Nat.testBit_lt_two_pow (Nat.lt_log2_self.trans_le (Nat.pow_le_pow_right (by decide) (by omega)))

theorem trailingZeros_le : trailingZeros x ≤ 64 := by
  unfold trailingZeros
  cases h : (List.range 64).find? (fun i => x.getLsbD i) with
  | none => exact le_rfl
  | some n => exact (List.mem_range.1 (List.mem_of_find?_eq_some h)).le

/-- Above its trailing zeros stands the lowest one bit. -/
theorem getLsbD_trailingZeros (h : trailingZeros x < 64) : x.getLsbD (trailingZeros x) = true := by
  unfold trailingZeros at h ⊢
  cases hf : (List.range 64).find? (fun i => x.getLsbD i) with
  | none => simp [hf] at h
  | some n => exact List.find?_some hf

theorem getLsbD_of_lt_trailingZeros {i : Nat} (h : i < trailingZeros x) : x.getLsbD i = false := by
  unfold trailingZeros at h
  cases hf : (List.range 64).find? (fun i => x.getLsbD i) with
  | none =>
    rw [hf] at h
    simpa using List.find?_range_eq_none.1 hf i h
  | some n =>
    rw [hf] at h
    simpa using (List.find?_range_eq_some.1 hf).2.2 i h

theorem onesCount_eq_countP : onesCount x = (List.range 64).countP (fun i => x.getLsbD i) :=
  List.countP_eq_length_filter.symm

/-! ### Bits (R167) -/

/-- A number read from a list of bits, the highest first, as BREV reads a word from its lowest bit. -/
theorem testBit_foldl_bits (f : Nat → Bool) (m j : Nat) :
    ((List.range m).foldl (fun n i => n * 2 + (if f i then 1 else 0)) 0).testBit j = (decide (j < m) && f (m - 1 - j)) := by
  induction m generalizing j with
  | zero => simp
  | succ m ih =>
    have hbit (n : Nat) : n * 2 + (if f m then 1 else 0) = Nat.bit (f m) n := by
      rw [Nat.bit_val, Nat.mul_comm]
      cases f m <;> rfl
    rw [List.range_succ, List.foldl_concat, hbit]
    cases j with
    | zero => simp
    | succ j =>
      rw [Nat.testBit_bit_succ, ih, show m + 1 - 1 - (j + 1) = m - 1 - j by omega]
      simp

theorem getLsbD_reverseBits {i : Nat} (hi : i < 64) : (reverseBits x).getLsbD i = x.getLsbD (63 - i) := by
  simp only [reverseBits, BitVec.getLsbD_ofNat, testBit_foldl_bits, hi, decide_true, Bool.true_and]

theorem getLsbD_extractField (y : Word) {i : Nat} (hi : i < 64) :
    (extractField x y).getLsbD i = (decide (i < fieldLen y) && decide (fieldPos y + i < 64) && x.getLsbD (fieldPos y + i)) := by
  simp only [extractField, BitVec.getLsbD_ofNat, Nat.testBit_mod_two_pow, Nat.testBit_div_two_pow, BitVec.testBit_toNat, hi,
    decide_true, Bool.true_and, Nat.add_comm i]
  by_cases h : fieldPos y + i < 64
  · simp [h]
  · simp [h, BitVec.getLsbD_of_ge x _ (Nat.le_of_not_lt h)]

/-- Inside the field stand the low bits of the source, outside it those of the destination. -/
theorem getLsbD_insertField (old y : Word) {i : Nat} (hi : i < 64) :
    (insertField old x y).getLsbD i =
      if fieldPos y ≤ i ∧ i < fieldPos y + fieldLen y then x.getLsbD (i - fieldPos y) else old.getLsbD i := by
  simp only [insertField, BitVec.getLsbD_or, BitVec.getLsbD_and, BitVec.getLsbD_not, BitVec.getLsbD_ofNat, Nat.testBit_mul_two_pow,
    Nat.testBit_two_pow_sub_one, BitVec.testBit_toNat, hi, decide_true, Bool.true_and]
  by_cases hlo : fieldPos y ≤ i
  · by_cases hup : i - fieldPos y < fieldLen y
    · simp [hlo, hup, Nat.sub_lt_iff_lt_add' hlo |>.1 hup]
    · simp [hlo, hup, Nat.sub_lt_iff_lt_add' hlo |>.not.1 hup]
  · simp [hlo]

end

/-- Settles O5: MULDIV by the value of each result; BIT by the counts and the bits of each. -/
theorem multiplyDivideBit : Obligations.MultiplyDivideBit := by
  unfold Obligations.MultiplyDivideBit
  refine ⟨fun s d a b h => ?_, fun s d a b => ⟨fun h => ?_, fun h => ?_, fun h => ?_⟩⟩
  · exact ⟨(intOp_of_goes h (mul_eq_ofInt ..) : execMul d a b s = _),
      (intOp_of_goes h (mulHigh_eq_highHalf ..) : execMulh d a b s = _),
      (intOp_of_goes h (mulHighU_eq_highHalf ..) : execMulhu d a b s = _),
      (intOp_of_goes h (divS_eq ..) : execDiv d a b s = _),
      (intOp_of_goes h rfl : execDivu d a b s = _),
      (intOp_of_goes h (remS_eq ..) : execRem d a b s = _),
      (intOp_of_goes h (remU_eq ..) : execRemu d a b s = _)⟩
  · exact ⟨⟨_, leadingZeros_le _, (bitOp_of_goes h rfl : execClz d a s = _), fun _ _ => getLsbD_of_leadingZeros_le _,
        getLsbD_leadingZeros _⟩,
      ⟨_, trailingZeros_le _, (bitOp_of_goes h rfl : execCtz d a s = _), fun _ => getLsbD_of_lt_trailingZeros _,
        getLsbD_trailingZeros _⟩,
      (bitOp_of_goes h (congrArg _ (onesCount_eq_countP _)) : execPopc d a s = _),
      ⟨_, (bitOp_of_goes h rfl : execBrev d a s = _), fun _ => getLsbD_reverseBits _⟩⟩
  · exact ⟨_, (intOp_of_goes h rfl : execBext d a b s = _), fun _ => getLsbD_extractField _ _⟩
  · exact ⟨_, (computeTo_of_goes (goes_spread h) : execBins d a b s = _), fun _ => getLsbD_insertField _ _ _⟩

end Sys2Proof.Machine
end

section
/-! Branches and jumps at issue (R127, R168, R169, R178). -/

namespace Sys2Proof.Machine

section

variable {s : State}

/-- A branch whose operands are there resolves at issue (R173). -/
theorem execBranch_of_goes {i : Instr} {f : BranchForm}
    (h : Goes (cur s) (needs f.reads f.counts.toList (ahead := true))) :
    execBranch i f s = .next (withCur s { countDown (passUnit (cur s)) f with
      pc := branchTarget (unitPc (cur s)) f (f.taken (regVal (cur s))), hint := none }) := by
  have hload : f.reads.any (loadPending (cur s)) = false := by
    obtain ⟨-, -, -, -, hreads, -⟩ := h
    rw [List.any_eq_false]
    intro r hr
    simp [loadPending, (hreads r hr).1]
  rw [execBranch, hload, Bool.and_false, Bool.false_and, if_neg Bool.false_ne_true]
  exact issue_some h (congrArg some (modCtx_setCtx ..))

variable {d a b : BitVec 5} {t : Bool}

theorem execBranch_cmpForm {i : Instr} {o : BitVec 16} {g : Word → Word → Bool}
    (h : Goes (cur s) (needs [a, b] [] (ahead := true))) (ht : g (regVal (cur s) a) (regVal (cur s) b) = t) :
    execBranch i (cmpForm a b o g) s = .next (withCur s { passUnit (cur s) with
      pc := if t then unitPc (cur s) + 4 * o.signExtend 64 else unitPc (cur s) + 4, hint := none }) :=
  ht ▸ execBranch_of_goes (f := cmpForm a b o g) h

theorem execLoopnz_of_goes {o : BitVec 14} (h : Goes (cur s) (needs [a] [a] (ahead := true)))
    (ht : (regVal (cur s) a - 1 != 0) = t) :
    execLoopnz a o s = .next (withCur s { setReg (passUnit (cur s)) a (regVal (cur s) a - 1) with
      pc := if t then unitPc (cur s) + 4 * o.signExtend 64 else unitPc (cur s) + 4, hint := none }) :=
  ht ▸ execBranch_of_goes h

theorem execJal_of_goes {o : BitVec 26} (h : Goes (cur s) (needs [] [31])) :
    execJal o s = .next (withCur s { setReg (passUnit (cur s)) 31 (unitPc (cur s) + 4) with
      pc := unitPc (cur s) + 4 * o.signExtend 64, hint := none }) :=
  issue_some h (congrArg some (modCtx_setCtx ..))

theorem execJalr_of_goes {o : BitVec 14} (h : Goes (cur s) (needs [a] [d])) :
    execJalr d a o s = .next (withCur s { setReg (passUnit (cur s)) d (unitPc (cur s) + 4) with
      pc := (regVal (cur s) a + 4 * o.signExtend 64) &&& ~~~3, hint := none }) :=
  issue_some h (congrArg some (modCtx_setCtx ..))

end

/-! ### Conditions (R168) -/

theorem not_slt_eq_decide (x y : Word) : (!x.slt y) = decide (y.toInt ≤ x.toInt) := by
  simp only [BitVec.slt, ← decide_not, Int.not_lt]

theorem not_ult_eq_decide (x y : Word) : (!x.ult y) = decide (y.toNat ≤ x.toNat) := by
  simp only [BitVec.ult, ← decide_not, Nat.not_lt]

theorem bne_eq_decide (x y : Word) : (x != y) = decide (x ≠ y) := by
  rw [Bool.eq_iff_iff, bne_iff_ne, decide_eq_true_iff]

theorem sub_one_bne_zero (x : Word) : (x - 1 != 0) = decide (x ≠ 1) := by
  simp only [bne_eq_decide, ne_eq, sub_eq_zero]

end Sys2Proof.Machine
end

section
/-! The prediction of a branch and its resolution (R67, R70, R172, R173, R178). -/

namespace Sys2Proof.Machine

/-! ### Prediction (R172, R173, R178) -/

/-- A branch with an operand that a load in flight still has to bring opens a generation, along the hint's side if one names it,
and puts its resolution on the agenda (R173). -/
theorem execBranch_of_loadPending {s : State} {i : Instr} {f : BranchForm} (hpfx : (cur s).pfx = none)
    (hlen : (cur s).gens.length < 4) (hload : f.reads.any (loadPending (cur s)) = true)
    (hop : f.reads.any (opPending (cur s)) = false) :
    ∃ (t : Bool) (u : State), execBranch i f s = .next u ∧ cur u = openGen (cur s) s.nextId i f t ∧
      u.agenda = s.agenda ++ [Event.branchResolve s.focus s.nextId] ∧
      ∀ h, (cur s).hint = some h → h.target = (cur s).pc → t = h.taken := by
  have hguard : ((cur s).pfx.isNone && f.reads.any (loadPending (cur s)) && !f.reads.any (opPending (cur s))) = true := by
    rw [hpfx, hload, hop]
    rfl
  rw [execBranch, if_pos hguard, if_neg hlen.not_ge]
  dsimp only
  cases hhint : (cur s).hint with
  | none => exact ⟨_, _, rfl, getCtx_setCtx_self .., rfl, by simp⟩
  | some h =>
    by_cases ht : h.target = (cur s).pc
    · simp only [if_pos ht]
      exact ⟨_, _, rfl, getCtx_setCtx_self .., rfl, fun _ hh _ => congrArg Hint.taken (Option.some.inj hh)⟩
    · simp only [if_neg ht]
      exact ⟨_, _, rfl, getCtx_setCtx_self .., rfl, fun _ hh hpc => absurd (Option.some.inj hh ▸ hpc) ht⟩

/-! ### What a resolution leaves (R70, R173) -/

section

variable (x : Ctx) (g : Gen) (f : BranchForm)

/-- The context with the registers with which the branch of a generation was issued (R70). -/
abbrev atBranch : Ctx := { x with regs := g.regs }

theorem setReg_regs_of_regs_eq {x y : Ctx} (h : x.regs = y.regs) (a : BitVec 5) (v : Word) :
    (setReg x a v).regs = (setReg y a v).regs := by
  unfold setReg putReg
  split
  · exact h
  · exact congrArg (Vector.setIfInBounds · a.toNat _) h

/-- The latching of a commit changes the activation and nothing else of a context (R564). -/
theorem latchTstg_act (c : Nat) : latchTstg c x = { x with act := (latchTstg c x).act } := by
  unfold latchTstg
  dsimp only
  split <;> rfl

/-- A decrement changes the registers and nothing else of a context. -/
theorem countDown_regs : countDown x f = { x with regs := (countDown x f).regs } := by
  unfold countDown
  split
  · exact putReg_regs ..
  · rfl

@[simp] theorem latchTstg_pc (c : Nat) : (latchTstg c x).pc = x.pc := by rw [latchTstg_act]

@[simp] theorem latchTstg_regs (c : Nat) : (latchTstg c x).regs = x.regs := by rw [latchTstg_act]

@[simp] theorem latchTstg_queues (c : Nat) : (latchTstg c x).queues = x.queues := by rw [latchTstg_act]

@[simp] theorem latchTstg_seq (c : Nat) : (latchTstg c x).seq = x.seq := by rw [latchTstg_act]

@[simp] theorem latchTstg_gens (c : Nat) : (latchTstg c x).gens = x.gens := by rw [latchTstg_act]

@[simp] theorem countDown_pc : (countDown x f).pc = x.pc := by rw [countDown_regs]

@[simp] theorem countDown_queues : (countDown x f).queues = x.queues := by rw [countDown_regs]

@[simp] theorem countDown_seq : (countDown x f).seq = x.seq := by rw [countDown_regs]

@[simp] theorem countDown_gens : (countDown x f).gens = x.gens := by rw [countDown_regs]

/-- After a wrong prediction the registers are those before the branch, decremented for a LOOPNZ (R70). -/
theorem countDown_flushGen_regs (pc : Word) :
    (countDown (flushGen x g pc) f).regs =
      match f.counts with
      | some a => (setReg (atBranch x g) a (regVal (atBranch x g) a - 1)).regs
      | none => g.regs := by
  unfold countDown
  cases f.counts with
  | some a => exact setReg_regs_of_regs_eq (x := flushGen x g pc) (y := atBranch x g) rfl a _
  | none => rfl

/-- Each of q0-q3 loses the entries that the generation and the younger ones pushed (R70, R160). -/
theorem getQueue_flushGen (pc : Word) {n : Nat} (hn : n < 4) :
    getQueue (flushGen x g pc) n = (getQueue x n).filter (fun e => !flushed g.id e.gen) := by
  interval_cases n <;> simp [getQueue, flushGen, List.range_succ, Vector.getD]

theorem flushed_of_mem_flushGen_queue (pc : Word) {n : Nat} (hn : n < 4) {e : QEntry} (he : e ∈ getQueue (flushGen x g pc) n) :
    flushed g.id e.gen = false := by
  rw [getQueue_flushGen x g pc hn, List.mem_filter] at he
  simpa using he.2

theorem flushed_of_mem_flushGen_seq (pc : Word) {e : SeqEntry} (he : e ∈ (flushGen x g pc).seq) :
    flushed g.id e.unit.gen = false := by
  simpa using (List.mem_filter.1 he).2

theorem id_lt_of_mem_flushGen_gens (pc : Word) {h : Gen} (hh : h ∈ (flushGen x g pc).gens) : h.id < g.id := by
  simpa using (List.mem_filter.1 hh).2

theorem confirmGen_ids : (confirmGen x g f).gens.map (·.id) = (x.gens.map (·.id)).filter (fun n => n != g.id) := by
  simp only [confirmGen, List.map_map, List.filter_map]
  rfl

theorem confirmGen_regs (h : f.counts = none) : (confirmGen x g f).regs = x.regs := by
  simp only [confirmGen, h, id]

end

/-! ### Resolution (R173) -/

section

variable {x : Ctx} {g : Gen} {f : BranchForm}

/-- A branch with no poisoned operand is confirmed or undone (R173, R174). -/
theorem resolveGen_of_no_poison (h : ∀ r ∈ f.reads, (getReg (atBranch x g) r).poison = none) :
    resolveGen x g f =
      if f.taken (regVal (atBranch x g)) = g.taken then confirmGen x g f
      else countDown (flushGen x g (branchTarget g.upc f (!g.taken))) f := by
  refine if_neg ?_
  simpa using h

variable {s : State} {c : Nat}

theorem execBranchResolve_of_held (hg : (getCtx s c).gens.find? (fun h => h.id == g.id) = some g)
    (hf : branchForm g.instr = some f) (h : ∀ r ∈ f.reads, Holds (atBranch (getCtx s c) g) r) :
    execBranchResolve c g.id s = .next (setCtx s c (latchTstg c (resolveGen (getCtx s c) g f))) := by
  have hmark : f.reads.any (isMarked (atBranch (getCtx s c) g)) = false := any_isMarked_false fun r hr => (h r hr).1
  simp only [execBranchResolve, hg, hf]
  rw [if_neg (ne_true_of_eq_false hmark)]
  rfl

theorem execBranchResolve_of_marked (hg : (getCtx s c).gens.find? (fun h => h.id == g.id) = some g)
    (hf : branchForm g.instr = some f) (h : ∃ r ∈ f.reads, isMarked (atBranch (getCtx s c) g) r = true) :
    execBranchResolve c g.id s = .next (push s (.branchResolve c g.id)) := by
  simp only [execBranchResolve, hg, hf]
  exact if_pos (List.any_eq_true.2 h)

end

/-- Settles O8: a branch resolves at issue or opens a generation; a resolution confirms the generation or undoes it and the
younger ones. -/
theorem branches : Obligations.Branches := by
  unfold Obligations.Branches
  refine ⟨fun s d a b o o14 o26 => ⟨fun h => ?_, fun h => ?_, fun h => ?_, fun h => ?_⟩, fun s c g f => ?_, fun s a b o => ?_⟩
  · exact ⟨(execBranch_cmpForm h rfl : execBeq a b o s = _), (execBranch_cmpForm h (bne_eq_decide ..) : execBne a b o s = _),
      (execBranch_cmpForm h rfl : execBlt a b o s = _), (execBranch_cmpForm h (not_slt_eq_decide ..) : execBge a b o s = _),
      (execBranch_cmpForm h rfl : execBltu a b o s = _), (execBranch_cmpForm h (not_ult_eq_decide ..) : execBgeu a b o s = _)⟩
  · exact execLoopnz_of_goes h (sub_one_bne_zero _)
  · exact execJal_of_goes h
  · exact execJalr_of_goes h
  · intro x old hg hf
    refine ⟨fun hr => ⟨_, execBranchResolve_of_held hg hf hr, ?_⟩, fun hm => execBranchResolve_of_marked hg hf hm⟩
    rw [resolveGen_of_no_poison fun r m => (hr r m).2]
    refine ⟨fun ht => ?_, fun ht => ?_⟩
    · rw [if_pos ht]
      simp only [latchTstg_pc, latchTstg_queues, latchTstg_seq, latchTstg_regs, latchTstg_gens]
      exact ⟨rfl, rfl, rfl, confirmGen_regs x g f, confirmGen_ids x g f⟩
    · rw [if_neg ht]
      have hside : (!g.taken) = f.taken (regVal old) := (Bool.eq_not_of_ne ht).symm
      simp only [getQueue, latchTstg_pc, latchTstg_queues, latchTstg_seq, latchTstg_regs, latchTstg_gens, countDown_pc,
        countDown_queues, countDown_seq, countDown_gens, countDown_flushGen_regs, hside]
      exact ⟨rfl, rfl, fun _ => id_lt_of_mem_flushGen_gens x g _, fun _ => flushed_of_mem_flushGen_seq x g _,
        fun n hn _ => flushed_of_mem_flushGen_queue x g _ hn⟩
  · intro x hpfx hlen hopa hopb hload
    exact execBranch_of_loadPending (i := .beq a b o) (f := cmpForm a b o (· == ·)) hpfx hlen
      (by simpa [cmpForm] using hload) (by simp [cmpForm, x, hopa, hopb])

end Sys2Proof.Machine
end

section
/-! The tile stream of a lone core whose unit nothing holds back (R63, R74, R188-R192, R204, R281): which unit is in progress, what it is
checked for, and what its completion, its trap and the draw of its leave leave of the state. -/

namespace Sys2Proof.Machine

/-! ### A context and the agenda changed -/

/-- A state that differs from another in one core's context and in the agenda alone. -/
def ContextOnly (s : State) (c : Nat) (x : Ctx) (t : State) : Prop := t = { setCtx s c x with agenda := t.agenda }

section
variable {s t : State} {c : Nat} {x y : Ctx}

theorem contextOnly_setCtx (s : State) (c : Nat) (x : Ctx) : ContextOnly s c x (setCtx s c x) := rfl

theorem ContextOnly.push (h : ContextOnly s c x t) (e : Event) : ContextOnly s c x (push t e) := by
  unfold ContextOnly Machine.push at *
  rw [h]

/-- A context written before makes no difference. -/
theorem ContextOnly.of_setCtx (h : ContextOnly (setCtx s c y) c x t) : ContextOnly s c x t := by
  unfold ContextOnly at *
  rwa [setCtx_setCtx] at h

theorem ContextOnly.core (h : ContextOnly s c x t) : getCore t c = { getCore s c with ctx := x } :=
  (congrArg (getCore · c) h).trans (getCore_setCtx_self s c x)

theorem ContextOnly.ctx (h : ContextOnly s c x t) : getCtx t c = x := congrArg Core.ctx h.core

theorem ContextOnly.spad (h : ContextOnly s c x t) : (getCore t c).spad = (getCore s c).spad := by
  rw [h.core]

theorem ContextOnly.slots (h : ContextOnly s c x t) : (getCore t c).slots = (getCore s c).slots := by
  rw [h.core]

theorem ContextOnly.core_ne (h : ContextOnly s c x t) {d : Nat} (hd : d ≠ c) : getCore t d = getCore s d :=
  (congrArg (getCore · d) h).trans (getCore_setCtx_ne s c d x hd)

theorem ContextOnly.field {α : Type} (h : ContextOnly s c x t) (f : State → α)
    (hf : ∀ cs a, f { s with cores := cs, agenda := a } = f s) :
    f t = f s := (congrArg f h).trans (hf ..)

theorem ContextOnly.sameMem (h : ContextOnly s c x t) : SameMem s t :=
  ⟨fun a => physByte_congr s t a (h.field State.lines fun _ _ => rfl) (h.field State.hbm fun _ _ => rfl),
    fun a => congrArg (memGet · a) (h.field State.remote fun _ _ => rfl)⟩

end

/-! ### The unit in progress -/

section
variable {s : State} {c : Nat} {u : TileUnit} {body : List TileUnit} {rest : List SeqEntry}

theorem curUnit_of_seq {x : Ctx} (hseq : x.seq = { unit := u, body := body } :: rest) (hl : x.run.loopLeft = none) :
    curUnit x = some u := by
  simp only [curUnit, hseq, hl]

theorem unitCores_of_lone (h : (getCore s c).gang = .none) (id : Nat) : unitCores s c id = [c] := by
  simp only [unitCores, h]

theorem gangUnit_of_lone {k : Core} (h : k.gang = .none) (id : Nat) : gangUnit k id = false := by
  simp only [gangUnit, h]

theorem unitMembers_of_lone (h : (getCore s c).gang = .none) (u : TileUnit) : unitMembers s c u = [(0, c)] := by
  simp only [unitMembers, unitCores_of_lone h]
  rfl

/-- A lone core has no followers that a unit waits for. -/
theorem followersBusy_of_lone (h : (getCore s c).gang = .none) (u : TileUnit) : followersBusy s c u = false := by
  simp [followersBusy, unitCores_of_lone h]

/-- A lone core sees no neighbour. -/
theorem viewOf_of_lone (h : (getCore s c).gang = .none) (u : TileUnit) :
    viewOf s c u 0 = { mem := (getCore s c).spad, plus := none, minus := none, idx := 0 } := by
  simp [viewOf, unitCores_of_lone h]

theorem deadMember_of_lone (h : (getCore s c).gang = .none) (hr : (getCore s c).state = .running) (u : TileUnit) :
    deadMember s c u = none := by
  simp [deadMember, unitMembers_of_lone h, hr]

theorem lone_of_free (h : StreamFree s c u) : (getCore s c).gang = .none := by
  obtain ⟨-, hg, -⟩ := h
  exact hg

theorem loopLeft_of_free (h : StreamFree s c u) : (getCtx s c).run.loopLeft = none := by
  obtain ⟨-, -, -, -, hl, -⟩ := h
  exact hl

theorem tileLive_of_free (hseq : (getCtx s c).seq = { unit := u, body := body } :: rest) (h : StreamFree s c u) :
    tileLive (getCore s c) = true := by
  obtain ⟨hrun, -, hheld, htrap, -⟩ := h
  unfold getCtx at hseq hheld htrap
  simp [tileLive, hrun, hheld, htrap, hseq]

end

/-! ### Leave, completion and traps -/

section
variable {s : State} {c : Nat} {e : SeqEntry} {rest : List SeqEntry}

/-- A unit that holds nothing of the pool returns nothing (R281). -/
theorem returnRunLeave_of_none (hp : (getCtx s c).run.fromPool = 0) :
    returnRunLeave s c = modCtx s c (fun x => { x with run := { x.run with fromHeld := 0, fromPool := 0 } }) := by
  simp only [returnRunLeave, returnUnits, hp, if_pos]

/-- The context in which a unit has left the sequencer (R191, R204). -/
def unitPassed (x : Ctx) (rest : List SeqEntry) : Ctx := { x with seq := rest, run := resetRun, sys := { x.sys with xstep := 0 } }

/-- A unit that completes outside a loop leaves the sequencer (R191, R204). -/
theorem contextOnly_completeUnit (hseq : (getCtx s c).seq = e :: rest) (hl : (getCtx s c).run.loopLeft = none)
    (hp : (getCtx s c).run.fromPool = 0) : ContextOnly s c (unitPassed (getCtx s c) rest) (completeUnit s c) := by
  have hctx : modCtx (returnRunLeave s c) c (fun x => { advanceUnit x with sys := { x.sys with xstep := 0 } }) =
      setCtx s c (unitPassed (getCtx s c) rest) := by
    rw [returnRunLeave_of_none hp]
    simp only [modCtx, getCtx_setCtx_self, setCtx_setCtx, advanceUnit, hseq, hl, unitPassed]
  unfold completeUnit
  rw [hctx]
  dsimp only
  split
  · exact contextOnly_setCtx ..
  · exact (contextOnly_setCtx ..).push _

/-- After the last band or row the unit leaves the sequencer, after any other it stays with its context (R190, R204). -/
theorem contextOnly_next {y : Ctx} (hseq : y.seq = e :: rest) (hl : y.run.loopLeft = none) (hp : y.run.fromPool = 0) (s : State) (c : Nat)
    (ev : Event) (last : Prop) [Decidable last] :
    ContextOnly s c (if last then unitPassed y rest else y) (if last then completeUnit (setCtx s c y) c else push (setCtx s c y) ev) := by
  by_cases h : last
  · simp only [if_pos h]
    have hc : getCtx (setCtx s c y) c = y := getCtx_setCtx_self s c y
    have hdone := (contextOnly_completeUnit (e := e) (rest := rest) (by rw [hc, hseq]) (by rw [hc, hl]) (by rw [hc, hp])).of_setCtx
    rwa [hc] at hdone
  · simp only [if_neg h]
    exact (contextOnly_setCtx ..).push ev

/-- The context in which the unit in progress has trapped with `row` rows complete (R189, R191). -/
def unitTrapped (x : Ctx) (u : TileUnit) (code param : Nat) (addr : Word) (row : Nat) : Ctx :=
  { x with
    tileTrap := some { code := code, param := param, addr := addr, upc := u.upc },
    run := { x.run with fromHeld := 0, fromPool := 0, row := row, waitLeave := x.run.begun, stopped := x.run.begun },
    sys := { x.sys with xstep := BitVec.ofNat 9 row } }

/-- A trap of the tile stream changes the context of its core alone (R189, R191). -/
theorem contextOnly_raiseTileTrap (hp : (getCtx s c).run.fromPool = 0) (u : TileUnit) (code param : Nat) (addr : Word) (row : Nat) :
    ContextOnly s c (unitTrapped (getCtx s c) u code param addr row) (raiseTileTrap s c u code param addr row) := by
  unfold raiseTileTrap
  rw [returnRunLeave_of_none hp]
  simp only [modCtx, getCtx_setCtx_self, setCtx_setCtx]
  exact contextOnly_setCtx ..

end

end Sys2Proof.Machine
end

section
/-! Where the tile stream of a lone core begins the unit at its head (R188, R283): a failed check traps, a missing operand waits, and a
unit that passes starts. -/

namespace Sys2Proof.Machine

/-! ### Begin checks -/

/-- The units whose begin checks are those of movement and arithmetic: all but TLOOP, MLOADB, the matrix and the accumulator
instructions. -/
def isPlain (i : Instr) : Bool :=
  match i with
  | .tloop _ _ _ => false
  | .mloadb _ _ _ _ _ _ => false
  | i => (mmaForm i).isNone && (accExtent i).isNone

/-- What the tile stream does with a unit according to its begin checks (R188). -/
def beginState (s : State) (c : Nat) (u : TileUnit) (o : BeginOut) : State :=
  match o with
  | .wait => push s (.tileUnitBegin c)
  | .trap code p a => raiseTileTrap s c u code p a 0
  | .pass => startUnit s c u ((unitValue (getCtx s c) u).getD 0)

section
variable {s : State} {c : Nat} {u : TileUnit} {body : List TileUnit} {rest : List SeqEntry}

theorem beginUnit_of_plain (hg : (getCore s c).gang = .none) (hi : isPlain u.instr = true) (v : Option Word) :
    beginUnit s c u v = beginChecks (getCtx s c) u.instr (modeRnd u.xmod) false v := by
  unfold beginUnit
  rw [gangUnit_of_lone hg]
  dsimp only
  split
  case h_10 => rfl
  all_goals next he => rw [he] at hi; cases hi

/-- A unit that is not a loop goes through its begin checks once nothing holds it back (R188). -/
theorem exec_tileUnitBegin (hseq : (getCtx s c).seq = { unit := u, body := body } :: rest) (h : StreamFree s c u)
    (hb : (getCtx s c).run.begun = false) (hgen : u.gen = none) (hi : isPlain u.instr = true)
    (hq : queueFull (getCtx s c) u.instr = false) :
    exec (.tileUnitBegin c) s =
      .next (beginState s c u (beginChecks (getCtx s c) u.instr (modeRnd u.xmod) false (unitValue (getCtx s c) u))) := by
  have hlive := tileLive_of_free hseq h
  obtain ⟨-, hg, -, -, hl, hband, hwait, hfence⟩ := h
  rw [← beginUnit_of_plain hg hi]
  show execTileUnitBegin c s = _
  have hcur := curUnit_of_seq hseq hl
  unfold getCtx at *
  simp only [execTileUnitBegin, hlive, hcur, hband, hb, hgen, confirmed, hseq, hwait, followersBusy_of_lone hg, hq, hfence,
    List.head?_cons, Option.map_some, Option.getD_some, Bool.not_true, Bool.or_self, Bool.false_eq_true, if_false]
  split
  · next he _ => rw [he] at hi; cases hi
  · next he _ => rw [he] at hi; cases hi
  · cases beginUnit s c u (unitValue (getCore s c).ctx u) <;> rfl

/-- A unit that pops no queue has the operand that it captured (R64). -/
theorem unitValue_of_captured {x : Ctx} (h : poppedQueue u.instr = none) : unitValue x u = some u.gval := by
  simp only [unitValue, h]

theorem popOperand_of_captured {x : Ctx} (h : poppedQueue u.instr = none) (v : Word) : popOperand x u v = x := by
  simp only [popOperand, h]

end

end Sys2Proof.Machine
end

section
/-! The units that bind tiles, TGET and MFREE (R195, R196, R285). -/

namespace Sys2Proof.Machine

/-! ### Slots (R273) -/

section
variable {s : State} {c : Nat} (v : Slot)

@[simp] theorem getCtx_putSlot (s : State) (c i : Nat) : getCtx (putSlot s c i v) c = getCtx s c :=
  getCore_modCore_field (g := Core.ctx) s c c fun _ => rfl

theorem getSlot_putSlot (s : State) (c : Nat) {i j : Nat} (hj : j < 4) :
    getSlot (getCore (putSlot s c i v) c) j = if j = i then { v with touched := true } else getSlot (getCore s c) j := by
  unfold putSlot getSlot
  rw [getCore_modCore_self]
  by_cases h : j = i
  · simp [← h, Vector.getD, hj]
  · simp [h, Vector.getD, Array.getD, hj, Ne.symm h]

/-- The state with slots of a core replaced, one after the other. -/
def putSlots (c : Nat) (v : Slot) (is : List Nat) (s : State) : State := is.foldl (fun t i => putSlot t c i v) s

theorem getCtx_putSlots (is : List Nat) : getCtx (putSlots c v is s) c = getCtx s c := by
  induction is generalizing s with
  | nil => rfl
  | cons i is ih => exact (ih (s := putSlot s c i v)).trans (getCtx_putSlot v s c i)

theorem getSlot_putSlots (is : List Nat) {j : Nat} (hj : j < 4) :
    getSlot (getCore (putSlots c v is s) c) j = if j ∈ is then { v with touched := true } else getSlot (getCore s c) j := by
  induction is generalizing s with
  | nil => rfl
  | cons i is ih =>
    rw [putSlots, List.foldl_cons, ← putSlots, ih, getSlot_putSlot v s c hj]
    by_cases h : j = i <;> simp [h]

end

/-! ### Begin checks of the bindings (R188, R195) -/

section
variable {x : Ctx} {mode : Rnd} {gang : Bool} {w : Word} {d : BitVec 4} {b : Tile}

theorem beginChecks_tbind (x : Ctx) (d f : BitVec 4) (g : BitVec 5) (q : BitVec 1) (mode : Rnd) (gang : Bool) (w : Word) :
    beginChecks x (.tbind d g q f) mode gang (some w) = if (bindOf w f).isNone then .trap causeShape 0 0 else .pass := rfl

theorem beginChecks_tshape (hd : getTile x d = some b) (g : BitVec 5) (q : BitVec 1) :
    beginChecks x (.tshape d g q) mode gang (some w) = if (shapeOf b w).isNone then .trap causeShape 0 0 else .pass := by
  show afterChecks [((getTile x d).isNone, causeShape, 0)]
    (if (shapeOf (tileOr x d) w).isNone then BeginOut.trap causeShape 0 0 else .pass) = _
  rw [tileOr, hd]
  rfl

theorem beginChecks_tvalid (hd : getTile x d = some b) (g : BitVec 5) (q : BitVec 1) :
    beginChecks x (.tvalid d g q) mode gang (some w) = .pass := by
  show afterChecks [((getTile x d).isNone, causeShape, 0)] .pass = _
  rw [hd]
  rfl

theorem beginChecks_tfill (hd : getTile x d = some b) (f : BitVec 2) : beginChecks x (.tfill d f) mode gang (some w) = .pass := by
  show afterChecks [((getTile x d).isNone, causeShape, 0)] .pass = _
  rw [hd]
  rfl

end

/-! ### The unit's step (R188) -/

theorem mem_namedSlots {al : BitVec 1} {l : BitVec 2} {i : Nat} (hi : i < 4) :
    i ∈ (if al = 1 then [0, 1, 2, 3] else [l.toNat]) ↔ al = 1 ∨ i = l.toNat := by
  by_cases h : al = 1
  · simp only [h, if_pos, true_or, iff_true, List.mem_cons, List.not_mem_nil]
    omega
  · rw [if_neg h]
    simp only [List.mem_singleton, h, false_or]

section
variable {s : State} {c : Nat} {x : Ctx} {u : TileUnit} {v : Word} {d f : BitVec 4} {g : BitVec 5} {q : BitVec 1} {b b' : Tile}

/-- TBIND binds its name where the binding is legal (R195). -/
theorem stepUnit_tbind (hu : u.instr = .tbind d g q f) (hbind : bindOf v f = some b) :
    stepUnit (setCtx s c x) c u v = some (setCtx s c (putTile x d b)) := by
  simp only [stepUnit, hu, hbind, getCtx_setCtx_self, setCtx_setCtx]

/-- TSHAPE gives its name another shape where the binding stays legal (R195). -/
theorem stepUnit_tshape (hu : u.instr = .tshape d g q) (hd : getTile x d = some b) (hshape : shapeOf b v = some b') :
    stepUnit (setCtx s c x) c u v = some (setCtx s c (putTile x d b')) := by
  simp only [stepUnit, hu, getCtx_setCtx_self, setCtx_setCtx, tileOr, hd, Option.getD_some, hshape]

/-- TVALID gives its name another valid extent (R195). -/
theorem stepUnit_tvalid (hu : u.instr = .tvalid d g q) (hd : getTile x d = some b) :
    stepUnit (setCtx s c x) c u v = some (setCtx s c (putTile x d (validOf b v))) := by
  simp only [stepUnit, hu, getCtx_setCtx_self, setCtx_setCtx, tileOr, hd, Option.getD_some]

/-- TFILL gives its name another fill (R195). -/
theorem stepUnit_tfill {f : BitVec 2} (hu : u.instr = .tfill d f) (hd : getTile x d = some b) :
    stepUnit (setCtx s c x) c u v = some (setCtx s c (putTile x d { b with fill := f.toNat })) := by
  simp only [stepUnit, hu, getCtx_setCtx_self, setCtx_setCtx, tileOr, hd, Option.getD_some]

/-- TGET pushes a field of its binding (R196). -/
theorem stepUnit_tget {n : BitVec 2} {f : BitVec 3} (hu : u.instr = .tget d n f) :
    stepUnit (setCtx s c x) c u v =
      some (setCtx s c (setQueue x (4 + n.toNat) (getQueue x (4 + n.toNat) ++ [{ val := tgetValue x d f, gen := none }]))) := by
  simp only [stepUnit, hu, getCtx_setCtx_self, setCtx_setCtx]

end

section
variable {s : State} {c : Nat} {u : TileUnit} {body : List TileUnit} {rest : List SeqEntry}

/-- A unit without rows that passes its checks has its effect and leaves the sequencer (R188, R195). -/
theorem exec_tileUnitBegin_step (hseq : (getCtx s c).seq = { unit := u, body := body } :: rest) (h : StreamFree s c u)
    (hb : (getCtx s c).run.begun = false) (hgen : u.gen = none) (hp : (getCtx s c).run.fromPool = 0) (hv : poppedQueue u.instr = none)
    (hi : isPlain u.instr = true) (hq : queueFull (getCtx s c) u.instr = false)
    (hchk : beginChecks (getCtx s c) u.instr (modeRnd u.xmod) false (some u.gval) = .pass) {t : State}
    (hstep : stepUnit (setCtx s c (getCtx s c)) c u u.gval = some t) (hts : (getCtx t c).seq = (getCtx s c).seq)
    (htr : (getCtx t c).run = (getCtx s c).run) :
    exec (.tileUnitBegin c) s = .next (completeUnit t c) ∧ ContextOnly t c (unitPassed (getCtx t c) rest) (completeUnit t c) := by
  have hl : (getCtx s c).run.loopLeft = none := loopLeft_of_free h
  refine ⟨?_, contextOnly_completeUnit (hts.trans hseq) (by rw [htr, hl]) (by rw [htr, hp])⟩
  rw [exec_tileUnitBegin hseq h hb hgen hi hq, unitValue_of_captured hv, hchk]
  simp only [beginState, unitValue_of_captured hv, startUnit, popOperand_of_captured hv, Option.getD_some, hstep]

/-- A unit that writes bindings or queues alone leaves its core with them (R195, R196). -/
theorem exec_tileUnitBegin_binds (hseq : (getCtx s c).seq = { unit := u, body := body } :: rest) (h : StreamFree s c u)
    (hb : (getCtx s c).run.begun = false) (hgen : u.gen = none) (hp : (getCtx s c).run.fromPool = 0) (hv : poppedQueue u.instr = none)
    (hi : isPlain u.instr = true) (hq : queueFull (getCtx s c) u.instr = false)
    (hchk : beginChecks (getCtx s c) u.instr (modeRnd u.xmod) false (some u.gval) = .pass) {y : Ctx}
    (hstep : stepUnit (setCtx s c (getCtx s c)) c u u.gval = some (setCtx s c y))
    (hy : y = { getCtx s c with tiles := y.tiles, queues := y.queues }) :
    ∃ t : State, exec (.tileUnitBegin c) s = .next t ∧
      getCtx t c = { y with seq := rest, run := resetRun, sys := { (getCtx s c).sys with xstep := 0 } } ∧
      (getCore t c).spad = (getCore s c).spad ∧ ∀ c' ≠ c, getCore t c' = getCore s c' := by
  obtain ⟨he, hc⟩ := exec_tileUnitBegin_step hseq h hb hgen hp hv hi hq hchk hstep
    (by rw [getCtx_setCtx_self, hy]) (by rw [getCtx_setCtx_self, hy])
  rw [getCtx_setCtx_self] at hc
  have hc := hc.of_setCtx
  refine ⟨_, he, ?_, hc.spad, fun _ => hc.core_ne⟩
  rw [hc.ctx, unitPassed, hy]

/-- MFREE empties the slots that it names (R285). -/
theorem exec_tileUnitBegin_mfree (hseq : (getCtx s c).seq = { unit := u, body := body } :: rest) (h : StreamFree s c u)
    (hb : (getCtx s c).run.begun = false) (hgen : u.gen = none) (hp : (getCtx s c).run.fromPool = 0) {al : BitVec 1} {l : BitVec 2}
    (hu : u.instr = .mfree al l) :
    ∃ t : State, exec (.tileUnitBegin c) s = .next t ∧ (getCtx t c).seq = rest ∧ ∀ i < 4, getSlot (getCore t c) i =
      if al = 1 ∨ i = l.toNat then { emptySlot with touched := true } else getSlot (getCore s c) i := by
  have hstep : stepUnit (setCtx s c (getCtx s c)) c u u.gval =
      some (putSlots c emptySlot (if al = 1 then [0, 1, 2, 3] else [l.toNat]) (setCtx s c (getCtx s c))) := by
    have hlone : (getCore (setCtx s c (getCtx s c)) c).gang = .none := by
      rw [getCore_setCtx_self]
      exact lone_of_free h
    simp only [stepUnit, hu, unitCores_of_lone hlone]
    rfl
  have hctx := getCtx_putSlots emptySlot (s := setCtx s c (getCtx s c)) (c := c) (if al = 1 then [0, 1, 2, 3] else [l.toNat])
  rw [getCtx_setCtx_self] at hctx
  obtain ⟨he, hc⟩ := exec_tileUnitBegin_step hseq h hb hgen hp (by rw [hu]; rfl) (by rw [hu]; rfl) (by rw [hu]; rfl)
    (by rw [hu]; rfl) hstep (by rw [hctx]) (by rw [hctx])
  refine ⟨_, he, by rw [hc.ctx]; rfl, fun i hi => ?_⟩
  rw [getSlot, hc.slots, ← getSlot, getSlot_putSlots _ _ hi, getCore_setCtx_self]
  simp only [mem_namedSlots hi]
  rfl

end

/-- Settles O20: each of the units passes its checks and has its step, or, a TBIND of an illegal binding, fails them. -/
theorem bindingUnits : Obligations.BindingUnits := by
  unfold Obligations.BindingUnits
  intro s c u body rest x hseq hfree hb hgen _ hp hv v becomes
  have binds {y : Ctx} := exec_tileUnitBegin_binds hseq hfree hb hgen hp hv (y := y)
  refine ⟨?_, ?_, ?_, ?_, ?_, ?_, ?_⟩
  · intro d g q f b hu hbind
    refine binds (by rw [hu]; rfl) (by rw [hu]; rfl) ?_ ?_ rfl
    · rw [hu, beginChecks_tbind, hbind]
      rfl
    · exact stepUnit_tbind hu hbind
  · intro d g q f hu hbind
    have ht := contextOnly_raiseTileTrap hp u causeShape 0 0 0
    refine ⟨_, ?_, by rw [ht.ctx]; rfl, by rw [ht.ctx]; rfl⟩
    rw [exec_tileUnitBegin hseq hfree hb hgen (by rw [hu]; rfl) (by rw [hu]; rfl), unitValue_of_captured hv, hu, beginChecks_tbind, hbind]
    rfl
  · intro d g q b b' hu hd hshape
    refine binds (by rw [hu]; rfl) (by rw [hu]; rfl) ?_ ?_ rfl
    · rw [hu, beginChecks_tshape hd, hshape]
      rfl
    · exact stepUnit_tshape hu hd hshape
  · intro d g q b hu hd
    refine binds (by rw [hu]; rfl) (by rw [hu]; rfl) ?_ ?_ rfl
    · rw [hu, beginChecks_tvalid hd]
    · exact stepUnit_tvalid hu hd
  · intro d f b hu hd
    refine binds (by rw [hu]; rfl) (by rw [hu]; rfl) ?_ ?_ rfl
    · rw [hu, beginChecks_tfill hd]
    · exact stepUnit_tfill hu hd
  · intro a n f hu hroom
    obtain ⟨t, he, ht⟩ := binds (by rw [hu]; rfl) (by rw [hu]; exact decide_eq_false (Nat.not_le.mpr hroom)) (by rw [hu]; rfl)
      (stepUnit_tget hu) rfl
    exact ⟨t, he, ht, fun ha => by simp only [tgetValue, ha]⟩
  · intro al l hu
    obtain ⟨t, he, hrest, hslot⟩ := exec_tileUnitBegin_mfree hseq hfree hb hgen hp hu
    exact ⟨t, he, fun i hi hn => (hslot i hi).trans (if_pos hn), fun i hi hn => (hslot i hi).trans (if_neg hn), hrest⟩

end Sys2Proof.Machine
end

section
/-! What reads and writes of a row leave of the state (R202, R260-R262): a read changes no byte, neither changes a core. -/

namespace Sys2Proof.Machine

theorem sameMem_trans {s t u : State} (h : SameMem s t) (g : SameMem t u) : SameMem s u :=
  ⟨fun a => (g.1 a).trans (h.1 a), fun a => (g.2 a).trans (h.2 a)⟩

/-- The cores are the same and every byte of memory reads as before. -/
def ReadOnly (s t : State) : Prop := t.cores = s.cores ∧ SameMem s t

theorem ReadOnly.refl (s : State) : ReadOnly s s := ⟨rfl, fun _ => rfl, fun _ => rfl⟩

theorem ReadOnly.trans {s t u : State} (h : ReadOnly s t) (g : ReadOnly t u) : ReadOnly s u :=
  ⟨g.1.trans h.1, sameMem_trans h.2 g.2⟩

/-- A fold of reads is a read. -/
theorem readOnly_foldl {α : Type} {f : State → α → State} (hf : ∀ t a, ReadOnly t (f t a)) (l : List α) (s : State) :
    ReadOnly s (l.foldl f s) := by
  induction l generalizing s with
  | nil => exact .refl s
  | cons a l ih => exact (hf s a).trans (ih (f s a))

/-! ### Lines (R260-R262) -/

theorem makeRoom_cores (s : State) (l : Nat) : (makeRoom s l).cores = s.cores := by
  unfold makeRoom
  split
  · rfl
  · dsimp only
    split <;> rfl

theorem makeRoom_remote (s : State) (l : Nat) : (makeRoom s l).remote = s.remote := by
  unfold makeRoom
  split
  · rfl
  · dsimp only
    split <;> rfl

theorem readOnly_makeRoom (s : State) (l : Nat) : ReadOnly s (makeRoom s l) :=
  ⟨makeRoom_cores s l, physByte_makeRoom s l, fun a => congrArg (memGet · a) (makeRoom_remote s l)⟩

/-- A line of which no byte and no mask bit changes reads as before. -/
theorem physByte_setLine_filled (s : State) (l : Nat) (f : BitVec 4) (a : Nat) :
    physByte (setLine s l { getLine s l with filled := f }) a = physByte s a := by
  unfold physByte
  by_cases h : lineOf a = l
  · rw [h, getLine_setLine_self]
    rfl
  · rw [getLine_setLine_ne _ _ _ _ h]
    rfl

theorem readOnly_fillSector (s : State) (l i : Nat) : ReadOnly s (fillSector s l i) := by
  unfold fillSector
  dsimp only
  split
  · exact .refl s
  · exact (readOnly_makeRoom s l).trans ⟨rfl, physByte_setLine_filled _ l _, fun _ => rfl⟩

theorem readOnly_countRead (s : State) (l : Nat) (r : Option (Nat × Nat × Nat)) : ReadOnly s (countRead s l r) := by
  unfold countRead
  dsimp only
  split <;> exact ⟨rfl, fun _ => rfl, fun _ => rfl⟩

theorem readOnly_touchLine (s : State) (r : Option (Nat × Nat × Nat)) (bypass : Bool) (pa n : Nat) :
    ReadOnly s (touchLine s r bypass pa n) := by
  unfold touchLine
  split
  · exact readOnly_countRead ..
  · exact (readOnly_foldl (fun t i => readOnly_fillSector t _ i) _ s).trans (readOnly_countRead ..)

theorem readOnly_rowTouch (s : State) (c : Nat) (bypass : Bool) (a : Word) (n : Nat) : ReadOnly s (rowTouch s c bypass a n) := by
  unfold rowTouch
  split
  · refine readOnly_foldl (fun t p => ?_) _ s
    split
    · exact readOnly_touchLine ..
    · exact .refl t
  · exact .refl s

/-! ### Writes to memory (R202, R260) -/

theorem physWrite_cores (s : State) (pa : Nat) (bs : List Byte) : (physWrite s pa bs).cores = s.cores := by
  have hfold (ps : List (Nat × Byte)) (t : State) : (ps.foldl (fun t p => physSetByte t (pa + p.1) p.2) t).cores = t.cores := by
    induction ps generalizing t with
    | nil => rfl
    | cons p ps ih => exact (ih _).trans (makeRoom_cores t _)
  exact hfold _ s

theorem writePieces_cores (s : State) (c : Nat) (ps : List (Nat × Nat)) (bs : List Byte) : (writePieces s c ps bs).cores = s.cores := by
  induction ps generalizing s bs with
  | nil => rfl
  | cons p ps ih =>
    unfold writePieces
    rw [ih]
    split
    · exact physWrite_cores ..
    · rfl
    · rfl

/-- An address of space 0x4 names virtual memory or nothing (R252, R258). -/
theorem placeOf_of_space {c : Nat} {a : Word} (h : spaceOf a = 4) : (∃ va, placeOf c a = .virt va) ∨ placeOf c a = .none := by
  unfold spaceOf at h
  simp only [placeOf, h, OfNat.ofNat_ne_zero, OfNat.ofNat_ne_one, if_false, if_true]
  split
  · exact .inl ⟨_, rfl⟩
  · exact .inr rfl

theorem rowPut_cores {c : Nat} {a : Word} (h : spaceOf a = 4) (s : State) (bs : List Byte) : (rowPut s c a bs).cores = s.cores := by
  unfold rowPut
  obtain ⟨va, hp⟩ | hp := placeOf_of_space (c := c) h
  · rw [hp]
    exact writePieces_cores ..
  · rw [hp]

theorem getCore_of_cores {s t : State} (h : t.cores = s.cores) (c : Nat) : getCore t c = getCore s c := by
  unfold getCore
  rw [h]

end Sys2Proof.Machine
end

section
/-! The begin of units that work in bands or rows, and rows of TLDG and TSTG, on a lone core (R188-R192, R202). -/

namespace Sys2Proof.Machine

/-! ### The start of bands and rows (R188, R281) -/

/-- The units of which the statements on bands and rows speak: the element-by-element instructions, TLDG and TSTG. -/
def isBanded (i : Instr) : Bool :=
  match i with
  | .tldg _ _ _ => true
  | .tstg _ _ _ => true
  | i => isElementwise i

theorem isBanded_of_elementwise {i : Instr} (h : isElementwise i = true) : isBanded i = true := by
  unfold isBanded
  split
  · rfl
  · rfl
  · exact h

theorem isRowUnit_of_elementwise {i : Instr} (h : isElementwise i = true) : isRowUnit i = false := by
  unfold isRowUnit
  split
  case h_4 => rfl
  all_goals cases h

theorem mmaForm_of_isBanded {i : Instr} (h : isBanded i = true) : mmaForm i = none := by
  unfold mmaForm
  split
  case h_4 => rfl
  all_goals cases h

theorem accExtent_of_isBanded {i : Instr} (h : isBanded i = true) : accExtent i = none := by
  unfold accExtent
  split
  case h_6 => rfl
  all_goals cases h

theorem isPlain_of_isBanded {i : Instr} (h : isBanded i = true) : isPlain i = true := by
  unfold isPlain
  split
  · cases h
  · cases h
  · rw [mmaForm_of_isBanded h, accExtent_of_isBanded h]
    rfl

theorem queueFull_of_isBanded {i : Instr} (h : isBanded i = true) (x : Ctx) : queueFull x i = false := by
  unfold queueFull
  split
  · cases h
  · rfl

section
variable {s : State} {c : Nat} {u : TileUnit} {body : List TileUnit} {rest : List SeqEntry}

theorem stepUnit_of_isBanded (h : isBanded u.instr = true) (v : Word) : stepUnit s c u v = none := by
  unfold stepUnit
  split
  case h_7 => rfl
  all_goals next he => rw [he] at h; cases h

theorem openSlots_of_isBanded (h : isBanded u.instr = true) (v : Word) : openSlots s c u v = s := by
  unfold openSlots
  split
  · next he => rw [he] at h; cases h
  · rfl

/-- A unit of a lone core that is not heavy draws no leave (R281). -/
theorem leaveUnits_of_isBanded (hg : (getCore s c).gang = .none) (h : isBanded u.instr = true) : leaveUnits s c u = 0 := by
  simp [leaveUnits, isHeavy, mmaForm_of_isBanded h, gangUnit_of_lone hg]

theorem drawLeave_zero (s : State) (c : Nat) (who : LeaveWho) : drawLeave s c 0 who = (true, 0, 0, s) := by
  simp [drawLeave]

/-- A unit that draws no leave goes on with its first band or row (R281). -/
theorem drawUnit_of_isBanded (hg : (getCore s c).gang = .none) (h : isBanded u.instr = true) :
    drawUnit s c u = push (modCtx s c (fun x => { x with run := { x.run with waitLeave := false, fromHeld := 0, fromPool := 0 } }))
      (progressEvent u.instr c) := by
  simp only [drawUnit, leaveUnits_of_isBanded hg h, drawLeave_zero, if_true]

theorem progressEvent_of_isBanded (h : isBanded u.instr = true) (c : Nat) :
    progressEvent u.instr c = if isElementwise u.instr then .tileBandComplete c false else .tileRowComplete c := by
  unfold isBanded at h
  split at h
  · next he => rw [he]; rfl
  · next he => rw [he]; rfl
  · rw [if_pos h, progressEvent, isRowUnit_of_elementwise h]
    rfl

theorem popOperand_seq (x : Ctx) (u : TileUnit) (v : Word) : (popOperand x u v).seq = x.seq := by
  unfold popOperand
  split <;> rfl

theorem popped_popOperand {x : Ctx} {n : Nat} (h : poppedQueue u.instr = some n) (v : Word) : (popOperand x u v).run.popped = some v := by
  simp only [popOperand, h]

/-- A unit that works in bands or rows keeps its operand and goes on with the first of them (R188). -/
theorem startUnit_of_isBanded (hg : (getCore s c).gang = .none) (h : isBanded u.instr = true) (v : Word) :
    ∃ y : Ctx, startUnit s c u v = push (setCtx s c y) (progressEvent u.instr c) ∧ y.run.begun = true ∧ y.run.waitLeave = false ∧
      y.run.row = 0 ∧ y.seq = (getCtx s c).seq ∧ y.run.popped = (popOperand (getCtx s c) u v).run.popped := by
  have hdraw (z : Ctx) : drawUnit (openSlots (setCtx s c z) c u v) c u =
      push (setCtx s c { z with run := { z.run with waitLeave := false, fromHeld := 0, fromPool := 0 } }) (progressEvent u.instr c) := by
    rw [openSlots_of_isBanded h, drawUnit_of_isBanded _ h, modCtx_setCtx]
    rw [getCore_setCtx_self]
    exact hg
  unfold startUnit
  simp only [stepUnit_of_isBanded h]
  refine ⟨_, hdraw _, rfl, rfl, rfl, ?_, ?_⟩
  · dsimp only
    split
    · split <;> exact popOperand_seq ..
    · exact popOperand_seq ..
  · dsimp only
    split
    · split <;> rfl
    · rfl

end

/-! ### Rows of memory (R190, R192, R202) -/

section
variable {s t : State} {c : Nat} {u : TileUnit} {body : List TileUnit} {rest : List SeqEntry} {b : Tile} {d : BitVec 4} {g : BitVec 5}
  {q : BitVec 1}

/-- The portion of a lone core is the tile (R75). -/
theorem memberTile_zero (h : b.vcols ≤ b.cols) : memberTile b 0 = b := by
  unfold memberTile
  rw [Nat.zero_mul, Nat.sub_zero]
  have hmin : Nat.min b.cols b.vcols = b.vcols := Nat.min_eq_right h
  rw [hmin]

/-- A row of a lone core is the row of its one member (R192). -/
theorem rowOnAll_single (s : State) (c : Nat) (u : TileUnit) (v : Word) (i m : Nat) :
    rowOnAll s c u v i [(0, m)] = (memberRow s c u v i 0 m, 0) := by
  unfold rowOnAll
  cases memberRow s c u v i 0 m <;> rfl

/-- What the tile stream does with a row of a lone core according to its accesses (R190, R192). -/
def rowState (s : State) (c : Nat) (u : TileUnit) (r : RowStep) : State :=
  match r with
  | .wait => push s (.tileRowComplete c)
  | .fault k a => raiseTileTrap s c u causeTileAccess k a (getCtx s c).run.row
  | .ok t =>
    let t := modCtx t c (fun y => { y with run := { y.run with row := (getCtx s c).run.row + 1 } })
    if bandRows t c u ≤ (getCtx s c).run.row + 1 then completeUnit (closeSlots t c u (runValue (getCtx s c) u)) c
    else push t (.tileRowComplete c)

theorem exec_tileRowComplete (hseq : (getCtx s c).seq = { unit := u, body := body } :: rest) (h : StreamFree s c u)
    (hb : (getCtx s c).run.begun = true) (hw : (getCtx s c).run.waitLeave = false) (hi : isRowUnit u.instr = true) {r : RowStep}
    (hr : memberRow s c u (runValue (getCtx s c) u) (getCtx s c).run.row 0 c = r) :
    exec (.tileRowComplete c) s = .next (rowState s c u r) := by
  have hlive := tileLive_of_free hseq h
  obtain ⟨hrun, hg, -, -, hl, hband, hwait, -⟩ := h
  have hcur := curUnit_of_seq hseq hl
  show execTileRowComplete c s = _
  unfold getCtx at *
  simp only [execTileRowComplete, hlive, hcur, hb, hw, hi, hband, hwait, deadMember_of_lone hg hrun, unitMembers_of_lone hg,
    rowOnAll_single, hr, Bool.not_true, Bool.or_self, Bool.false_eq_true, if_false]
  cases r with
  | wait => rfl
  | fault k a => simp only [rowState, Nat.zero_mul, Nat.add_zero]; rfl
  | ok t => exact (apply_ite Host.Outcome.next ..).symm

theorem closeSlots_of_isBanded (h : isBanded u.instr = true) (v : Word) : closeSlots s c u v = s := by
  unfold closeSlots
  split
  · next he => rw [he] at h; cases h
  · rfl

/-- The rows of a TLDG or a TSTG are those of its tile (R192). -/
theorem bandRows_of_row (hu : u.instr = .tldg d g q ∨ u.instr = .tstg d g q) (hd : getTile (getCtx s c) d = some b) :
    bandRows s c u = b.rows := by
  rcases hu with hu | hu <;> simp only [bandRows, hu, tileOr, hd, Option.getD_some]

/-- After a row that is performed the next one follows, or the unit leaves the sequencer (R190, R192). -/
theorem contextOnly_rowState_ok (hu : u.instr = .tldg d g q ∨ u.instr = .tstg d g q) (hd : getTile (getCtx s c) d = some b)
    (hseq : (getCtx s c).seq = { unit := u, body := body } :: rest) (hl : (getCtx s c).run.loopLeft = none)
    (hp : (getCtx s c).run.fromPool = 0) (ht : getCtx t c = getCtx s c) :
    ∃ y, ContextOnly t c y (rowState s c u (.ok t)) ∧
      ((getCtx s c).run.row + 1 < b.rows → y.run.row = (getCtx s c).run.row + 1 ∧ y.seq = (getCtx s c).seq) ∧
      ((getCtx s c).run.row + 1 = b.rows → y.seq = rest) := by
  have hband : isBanded u.instr = true := by rcases hu with hu | hu <;> rw [hu] <;> rfl
  have hrows : bandRows (modCtx t c (fun y => { y with run := { y.run with row := (getCtx s c).run.row + 1 } })) c u = b.rows :=
    bandRows_of_row hu (by rw [getCtx_modCtx_self, ht]; exact hd)
  simp only [rowState, hrows, closeSlots_of_isBanded hband]
  unfold modCtx
  rw [ht]
  have hnext := contextOnly_next (y := { getCtx s c with run := { (getCtx s c).run with row := (getCtx s c).run.row + 1 } }) hseq hl hp t c
    (.tileRowComplete c) (b.rows ≤ (getCtx s c).run.row + 1)
  refine ⟨_, hnext, fun h => ?_, fun h => ?_⟩
  · rw [if_neg (Nat.not_le.mpr h)]
    exact ⟨rfl, rfl⟩
  · rw [if_pos h.ge]
    rfl

/-- A row that faults is a trap at that row (R189, R192). -/
theorem contextOnly_rowState_fault (hp : (getCtx s c).run.fromPool = 0) (u : TileUnit) (k : Nat) (a : Word) :
    ContextOnly s c (unitTrapped (getCtx s c) u causeTileAccess k a (getCtx s c).run.row) (rowState s c u (.fault k a)) :=
  contextOnly_raiseTileTrap hp u causeTileAccess k a _

/-! ### The accesses of a row (R202) -/

/-- A row's step from the outcome of its access, which is performed where that is ok (R192). -/
def rowStepOf (o : RowOut) (f : List Byte → State) : RowStep :=
  match o with
  | .ok bs => .ok (f bs)
  | .fail k a => .fault k a
  | .wait => .wait

/-- The state after a row of TLDG has been read into the scratchpad of its core (R202). -/
def rowLoaded (s : State) (c : Nat) (a : Word) (b : Tile) (i : Nat) (bs : List Byte) : State :=
  modCore (rowTouch s c false a (validBytes b)) c fun k => { k with spad := placeRow k.spad b i bs }

section
variable {i : Nat} {v a : Word} {o : RowOut} (hd : getTile (getCtx s c) d = some b) (hb : TileOk b) (hr : i < b.vrows) (hc : 0 < b.vcols)
  (ha : v + BitVec.ofNat 64 (i * b.pitch) = a) (hs : spaceOf a = 4)
include hd hb hr hc ha hs

/-- A row of TLDG inside the valid extent is what its read gives (R202). -/
theorem memberRow_tldg (hu : u.instr = .tldg d g q) (hf : rowFollows s c c u.id a (validBytes b) false = false)
    (ho : rowRead s c a (validBytes b) = o) :
    memberRow s c u v i 0 c = rowStepOf o (rowLoaded s c a b i) := by
  simp only [memberRow, hu, tileOr, hd, Option.getD_some, memberTile_zero hb.2.2, tileRowAddr, Nat.zero_mul, Nat.zero_add, ha,
    if_neg (not_or.mpr ⟨Nat.not_le.mpr hr, hc.ne'⟩), hs, ne_eq, not_true_eq_false, if_false, hf, Bool.false_eq_true, ho]
  cases o <;> rfl

/-- A row of TSTG inside the valid extent is written where its check allows it (R202). -/
theorem memberRow_tstg (hu : u.instr = .tstg d g q) (hdual : (getCtx s c).sys.dual = false)
    (hf : rowFollows s c c u.id a (validBytes b) true = false) (ho : rowCheck s c a (validBytes b) = o) :
    memberRow s c u v i 0 c = rowStepOf o fun _ => rowPut s c a (spadRead s c (b.base + i * b.pitch) (validBytes b)) := by
  simp only [memberRow, hu, tileOr, hd, Option.getD_some, memberTile_zero hb.2.2, tileRowAddr, Nat.zero_mul, Nat.zero_add, ha,
    if_neg (not_or.mpr ⟨Nat.not_le.mpr hr, hc.ne'⟩), hs, ne_eq, not_true_eq_false, if_false, hf, hdual, Bool.false_eq_true, or_self, ho]
  cases o <;> rfl

end

end

/-! ### The bytes of a row (R90, R202) -/

/-- The bytes that a row of TLDG leaves in the scratchpad: the two bits above an L6 code are zero (R90, log 42). -/
def placedBytes (b : Tile) (bs : List Byte) : List Byte := if b.fmt = .l6 then bs.map (fun x => x &&& 0x3F) else bs

theorem length_placedBytes (b : Tile) (bs : List Byte) : (placedBytes b bs).length = bs.length := by
  unfold placedBytes
  split
  · exact List.length_map ..
  · rfl

/-- Where an element is whole bytes a row is placed as it is read (R202). -/
theorem placeRow_of_bytes {b : Tile} (h : fmtBits b.fmt % 8 = 0) (m : Memory) (i : Nat) (bs : List Byte) :
    placeRow m b i bs = memWrite m (b.base + i * b.pitch) (placedBytes b bs) := by
  have h4 : fmtBits b.fmt ≠ 4 := by omega
  simp only [placeRow, h4, false_and, if_false, placedBytes]

section
variable (s : State) (c : Nat) (a : Word) (b : Tile) (i : Nat) (bs : List Byte)

theorem getCore_rowLoaded : getCore (rowLoaded s c a b i bs) c = { getCore s c with spad := placeRow (getCore s c).spad b i bs } := by
  rw [rowLoaded, getCore_modCore_self, getCore_of_cores (readOnly_rowTouch ..).1]

theorem getCtx_rowLoaded : getCtx (rowLoaded s c a b i bs) c = getCtx s c := by
  rw [getCtx, getCore_rowLoaded]
  rfl

theorem sameMem_rowLoaded : SameMem s (rowLoaded s c a b i bs) := (readOnly_rowTouch s c false a (validBytes b)).2

theorem spad_rowLoaded (h : fmtBits b.fmt % 8 = 0) :
    (getCore (rowLoaded s c a b i bs) c).spad = memWrite (getCore s c).spad (b.base + i * b.pitch) (placedBytes b bs) := by
  rw [getCore_rowLoaded, ← placeRow_of_bytes h]

end

/-! ### The obligation -/

section
variable {s : State} {c : Nat} {u : TileUnit} {body : List TileUnit} {rest : List SeqEntry}

/-- A unit that works in bands or rows and passes its checks goes on with the first of them (R188, R190). -/
theorem exec_tileUnitBegin_passes (hseq : (getCtx s c).seq = { unit := u, body := body } :: rest) (h : StreamFree s c u)
    (hb : (getCtx s c).run.begun = false) (hgen : u.gen = none) (hi : isBanded u.instr = true) {v : Word}
    (hv : unitValue (getCtx s c) u = some v)
    (hpass : beginChecks (getCtx s c) u.instr (modeRnd u.xmod) false (some v) = .pass) :
    ∃ t : State, exec (.tileUnitBegin c) s = .next t ∧ (getCtx t c).run.begun = true ∧ (getCtx t c).run.waitLeave = false ∧
      (getCtx t c).run.row = 0 ∧ (getCtx t c).seq = (getCtx s c).seq ∧ (getCore t c).spad = (getCore s c).spad ∧
      (∀ n, poppedQueue u.instr = some n → (getCtx t c).run.popped = some v) ∧
      t.agenda = s.agenda ++ [if isElementwise u.instr then .tileBandComplete c false else .tileRowComplete c] := by
  obtain ⟨y, hstart, hbegun, hwait, hrow, hys, hpop⟩ := startUnit_of_isBanded (lone_of_free h) hi v
  refine ⟨startUnit s c u v, ?_, ?_⟩
  · rw [exec_tileUnitBegin hseq h hb hgen (isPlain_of_isBanded hi) (queueFull_of_isBanded hi _), hv, hpass]
    simp only [beginState, hv, Option.getD_some]
  · rw [hstart, getCtx_push, getCore_push, getCtx_setCtx_self, getCore_setCtx_self]
    refine ⟨hbegun, hwait, hrow, hys, rfl, fun n hn => hpop.trans (popped_popOperand hn v), ?_⟩
    rw [← progressEvent_of_isBanded hi]
    rfl

end

/-- Settles O22: a begin is what its checks answer, a row what its access answers. -/
theorem tileMovement : Obligations.TileMovement := by
  unfold Obligations.TileMovement
  constructor
  · intro s c u body rest x hseq hfree hb hgen hp hkind
    have hi : isBanded u.instr = true := by
      rcases hkind with h | ⟨d, g, q, h⟩ | ⟨d, g, q, h⟩
      · exact isBanded_of_elementwise h
      · rw [h]; rfl
      · rw [h]; rfl
    have hexec := exec_tileUnitBegin hseq hfree hb hgen (isPlain_of_isBanded hi) (queueFull_of_isBanded hi x)
    refine ⟨fun code p a htrap => ?_, fun hwait => ?_, fun v => exec_tileUnitBegin_passes hseq hfree hb hgen hi⟩
    · have ht := contextOnly_raiseTileTrap hp u code p a 0
      rw [htrap] at hexec
      refine ⟨_, hexec, ?_⟩
      simp only [beginState, ht.ctx, ht.spad]
      exact ⟨rfl, rfl, rfl, rfl, rfl, trivial⟩
    · rwa [hwait] at hexec
  · intro s c u body rest d g q b x i a n hseq hfree hb hw hp hd hok hfmt hr hc hs
    have hl : x.run.loopLeft = none := loopLeft_of_free hfree
    have hfault (k : Nat) (w : Word) := contextOnly_rowState_fault hp u k w
    refine ⟨fun hu hf => ⟨fun bs hread hlen => ?_, fun k w hread => ?_⟩,
      fun hu hdual hf => ⟨fun bs hcheck => ?_, fun k w hcheck => ?_⟩⟩
    · have hexec := exec_tileRowComplete hseq hfree hb hw (by rw [hu]; rfl) (memberRow_tldg hd hok hr hc rfl hs hu hf hread)
      obtain ⟨y, ht, hnext, hlast⟩ := contextOnly_rowState_ok (.inl hu) hd hseq hl hp (getCtx_rowLoaded s c a b i bs)
      have hbytes : (placedBytes b bs).length = n := (length_placedBytes b bs).trans hlen
      refine ⟨_, hexec, ?_⟩
      rw [rowStepOf, ht.spad, ht.ctx, spad_rowLoaded s c a b i bs hfmt]
      refine ⟨?_, fun p hp => ?_, hnext, hlast, ?_⟩
      · rw [← hbytes, memRead_memWrite_self]
        rfl
      · exact memGet_memWrite_of_outside _ _ _ _ (by rwa [hbytes])
      · exact sameMem_trans (sameMem_rowLoaded s c a b i bs) ht.sameMem
    · have hexec := exec_tileRowComplete hseq hfree hb hw (by rw [hu]; rfl) (memberRow_tldg hd hok hr hc rfl hs hu hf hread)
      exact ⟨_, hexec, (hfault k w).spad, by rw [rowStepOf, (hfault k w).ctx]; rfl, by rw [rowStepOf, (hfault k w).ctx]; rfl⟩
    · have hexec := exec_tileRowComplete hseq hfree hb hw (by rw [hu]; rfl) (memberRow_tstg hd hok hr hc rfl hs hu hdual hf hcheck)
      have hcore := getCore_of_cores (rowPut_cores (c := c) hs s (spadRead s c (b.base + i * b.pitch) (validBytes b))) c
      obtain ⟨y, ht, hnext, hlast⟩ := contextOnly_rowState_ok (.inr hu) hd hseq hl hp (congrArg Core.ctx hcore)
      refine ⟨_, hexec, ?_⟩
      rw [rowStepOf, ht.spad, ht.ctx, hcore]
      exact ⟨rfl, ⟨ht.field State.hbm fun _ _ => rfl, ht.field State.lines fun _ _ => rfl, ht.field State.remote fun _ _ => rfl⟩,
        hnext, hlast⟩
    · have hexec := exec_tileRowComplete hseq hfree hb hw (by rw [hu]; rfl) (memberRow_tstg hd hok hr hc rfl hs hu hdual hf hcheck)
      exact ⟨_, hexec, (hfault k w).sameMem, by rw [rowStepOf, (hfault k w).ctx]; rfl, by rw [rowStepOf, (hfault k w).ctx]; rfl⟩

end Sys2Proof.Machine
end

section
/-! The elements of a tile in a scratchpad (R90, R182-R184): which bytes an element has, what reading one gives after another or itself
has been written, and the frame of a row. -/

namespace Sys2Proof.Machine

/-! ### The bytes of an element (R90, R182) -/

/-- The first byte of column `j` in a row of elements of `w` bits. -/
def elemAt (w j : Nat) : Nat := j * w / 8

/-- The bytes that an element of `w` bits meets. -/
def elemBytes (w : Nat) : Nat := (w + 7) / 8

/-- The number of values that an element of a format takes: L6 has six bits in a byte (R90). -/
def elemRange (f : Fmt) : Nat := if f = .l6 then 64 else 2 ^ fmtBits f

theorem fmtBits_cases (f : Fmt) : fmtBits f = 4 ∨ fmtBits f = 8 ∨ fmtBits f = 16 ∨ fmtBits f = 32 := by
  cases f <;> decide

theorem fmtBits_l6 : fmtBits .l6 = 8 := rfl

/-- The bytes of a column lie in its row (R182). -/
theorem elemAt_add_le {b : Tile} {j : Nat} (h : j < b.cols) :
    elemAt (fmtBits b.fmt) j + elemBytes (fmtBits b.fmt) ≤ rowBytes b := by
  unfold elemAt elemBytes rowBytes
  rcases fmtBits_cases b.fmt with hw | hw | hw | hw <;> rw [hw] <;> omega

theorem elemAt_4 (j : Nat) : elemAt 4 j = j / 2 := by
  unfold elemAt
  omega

theorem elemAt_8 (j : Nat) : elemAt 8 j = j := Nat.mul_div_cancel j (by decide)

/-- An element that is whole bytes. -/
theorem whole_bytes {f : Fmt} (h : fmtBits f ≠ 4) :
    fmtBits f = 8 * (fmtBits f / 8) ∧ 0 < fmtBits f / 8 ∧ elemBytes (fmtBits f) = fmtBits f / 8 ∧
      ∀ j, elemAt (fmtBits f) j = j * (fmtBits f / 8) := by
  unfold elemAt elemBytes
  rcases fmtBits_cases f with hw | hw | hw | hw
  · exact absurd hw h
  all_goals
    rw [hw]
    refine ⟨rfl, by decide, rfl, fun j => ?_⟩
    omega

section
variable {m m' : Memory} {b : Tile} {i j k v p : Nat}

theorem rawElem_4 (h : fmtBits b.fmt = 4) (m : Memory) (i j : Nat) :
    rawElem m b i j = (memGet m (b.base + i * b.pitch + j / 2)).toNat / 2 ^ (4 * (j % 2)) % 16 := by
  simp only [rawElem, h, if_true]

theorem rawElem_l6 (h : b.fmt = .l6) (m : Memory) (i j : Nat) :
    rawElem m b i j = (memGet m (b.base + i * b.pitch + j)).toNat % 64 := by
  simp only [rawElem, h, fmtBits_l6, if_true]
  rfl

theorem rawElem_bytes (h4 : fmtBits b.fmt ≠ 4) (h6 : b.fmt ≠ .l6) (m : Memory) (i j : Nat) :
    rawElem m b i j = leNat (memRead m (b.base + i * b.pitch + j * (fmtBits b.fmt / 8)) (fmtBits b.fmt / 8)) := by
  simp only [rawElem, h4, h6, if_false]

/-- A byte with one of its nibbles replaced. -/
def setNibble (old : Byte) (j v : Nat) : Byte :=
  BitVec.ofNat 8 (if j % 2 = 0 then old.toNat / 16 * 16 + v % 16 else old.toNat % 16 + v % 16 * 16)

theorem putElem_4 (h : fmtBits b.fmt = 4) (m : Memory) (i j v : Nat) :
    putElem m b i j v =
      memSet m (b.base + i * b.pitch + j / 2) (setNibble (memGet m (b.base + i * b.pitch + j / 2)) j v) := by
  simp only [putElem, h, if_true, setNibble]

theorem putElem_l6 (h : b.fmt = .l6) (m : Memory) (i j v : Nat) :
    putElem m b i j v = memSet m (b.base + i * b.pitch + j) (BitVec.ofNat 8 (v % 64)) := by
  simp only [putElem, h, fmtBits_l6, if_true]
  rfl

theorem putElem_bytes (h4 : fmtBits b.fmt ≠ 4) (h6 : b.fmt ≠ .l6) (m : Memory) (i j v : Nat) :
    putElem m b i j v =
      memWrite m (b.base + i * b.pitch + j * (fmtBits b.fmt / 8)) (leBytes (fmtBits b.fmt / 8) (v % 2 ^ fmtBits b.fmt)) := by
  simp only [putElem, h4, h6, if_false]

theorem nibble_setNibble_self (old : Byte) (j v : Nat) : (setNibble old j v).toNat / 2 ^ (4 * (j % 2)) % 16 = v % 16 := by
  have := old.isLt
  unfold setNibble
  rw [BitVec.toNat_ofNat]
  rcases Nat.mod_two_eq_zero_or_one j with h | h
  · rw [h, if_pos rfl]
    omega
  · rw [h, if_neg Nat.one_ne_zero]
    omega

theorem nibble_setNibble_ne (old : Byte) {j k : Nat} (v : Nat) (h : k % 2 ≠ j % 2) :
    (setNibble old j v).toNat / 2 ^ (4 * (k % 2)) % 16 = old.toNat / 2 ^ (4 * (k % 2)) % 16 := by
  have := old.isLt
  unfold setNibble
  rw [BitVec.toNat_ofNat]
  obtain ⟨hj, hk⟩ | ⟨hj, hk⟩ : j % 2 = 0 ∧ k % 2 = 1 ∨ j % 2 = 1 ∧ k % 2 = 0 := by omega
  · rw [hj, hk, if_pos rfl]
    omega
  · rw [hj, hk, if_neg Nat.one_ne_zero]
    omega

theorem length_leBytes (n v : Nat) : (leBytes n v).length = n := by
  induction n generalizing v with
  | zero => rfl
  | succ n ih => simp [leBytes, ih]

/-- An element depends on its own bytes (R183). -/
theorem rawElem_congr
    (h : ∀ q < elemBytes (fmtBits b.fmt), memGet m' (b.base + i * b.pitch + elemAt (fmtBits b.fmt) j + q) =
      memGet m (b.base + i * b.pitch + elemAt (fmtBits b.fmt) j + q)) : rawElem m' b i j = rawElem m b i j := by
  by_cases h4 : fmtBits b.fmt = 4
  · have h0 := h 0 (by rw [h4]; decide)
    rw [h4, elemAt_4, Nat.add_zero] at h0
    rw [rawElem_4 h4, rawElem_4 h4, h0]
  · by_cases h6 : b.fmt = .l6
    · have h0 := h 0 (by rw [h6]; decide)
      rw [h6, fmtBits_l6, elemAt_8, Nat.add_zero] at h0
      rw [rawElem_l6 h6, rawElem_l6 h6, h0]
    · obtain ⟨-, -, hn, hat⟩ := whole_bytes h4
      rw [hn, hat] at h
      rw [rawElem_bytes h4 h6, rawElem_bytes h4 h6, memRead, memRead]
      exact congrArg leNat (List.map_congr_left fun q hq => h q (List.mem_range.1 hq))

/-- Writing an element changes no byte but its own (R184). -/
theorem memGet_putElem_of_outside
    (h : p < b.base + i * b.pitch + elemAt (fmtBits b.fmt) j ∨
      b.base + i * b.pitch + elemAt (fmtBits b.fmt) j + elemBytes (fmtBits b.fmt) ≤ p) :
    memGet (putElem m b i j v) p = memGet m p := by
  by_cases h4 : fmtBits b.fmt = 4
  · rw [h4, elemAt_4] at h
    rw [putElem_4 h4, memGet_memSet_ne _ _ _ _ (by unfold elemBytes at h; omega)]
  · by_cases h6 : b.fmt = .l6
    · rw [h6, fmtBits_l6, elemAt_8] at h
      rw [putElem_l6 h6, memGet_memSet_ne _ _ _ _ (by unfold elemBytes at h; omega)]
    · obtain ⟨-, -, hn, hat⟩ := whole_bytes h4
      rw [hn, hat] at h
      rw [putElem_bytes h4 h6, memGet_memWrite_of_outside _ _ _ _ (by rwa [length_leBytes])]

/-- An element that is written reads back (R90, R184). -/
theorem rawElem_putElem_self : rawElem (putElem m b i j v) b i j = v % elemRange b.fmt := by
  unfold elemRange
  by_cases h4 : fmtBits b.fmt = 4
  · have h6 : b.fmt ≠ .l6 := fun h => by rw [h] at h4; cases h4
    rw [rawElem_4 h4, putElem_4 h4, memGet_memSet_self, nibble_setNibble_self, if_neg h6, h4]
    rfl
  · by_cases h6 : b.fmt = .l6
    · rw [rawElem_l6 h6, putElem_l6 h6, memGet_memSet_self, if_pos h6, BitVec.toNat_ofNat]
      omega
    · obtain ⟨hw, -, -, -⟩ := whole_bytes h4
      have hread := memRead_memWrite_self (leBytes (fmtBits b.fmt / 8) (v % 2 ^ fmtBits b.fmt)) m
        (b.base + i * b.pitch + j * (fmtBits b.fmt / 8))
      rw [length_leBytes] at hread
      have hpow : 256 ^ (fmtBits b.fmt / 8) = 2 ^ fmtBits b.fmt := by
        rw [hw, Nat.mul_div_cancel_left _ (by decide), pow_mul]
        rfl
      rw [rawElem_bytes h4 h6, putElem_bytes h4 h6, if_neg h6, hread, leNat_leBytes, hpow, Nat.mod_mod]

/-- Writing an element of a row changes no other of the row: the other nibble of a byte is kept (R90, R184). -/
theorem rawElem_putElem_ne (h : k ≠ j) : rawElem (putElem m b i j v) b i k = rawElem m b i k := by
  by_cases hbyte : fmtBits b.fmt = 4 ∧ k / 2 = j / 2
  · obtain ⟨h4, hb⟩ := hbyte
    rw [rawElem_4 h4, rawElem_4 h4, putElem_4 h4, hb, memGet_memSet_self, nibble_setNibble_ne _ _ (by omega)]
  · refine rawElem_congr fun q hq => memGet_putElem_of_outside ?_
    by_cases h4 : fmtBits b.fmt = 4
    · have hne : k / 2 ≠ j / 2 := fun hb => hbyte ⟨h4, hb⟩
      rw [h4, elemBytes] at hq
      rw [h4, elemAt_4, elemAt_4, elemBytes]
      omega
    · obtain ⟨-, -, hn, hat⟩ := whole_bytes h4
      rw [hn] at hq ⊢
      rw [hat, hat]
      rcases Nat.lt_or_gt_of_ne h with hlt | hlt
      · have := Nat.mul_le_mul_right (fmtBits b.fmt / 8) (Nat.succ_le_of_lt hlt)
        rw [Nat.succ_mul] at this
        omega
      · have := Nat.mul_le_mul_right (fmtBits b.fmt / 8) (Nat.succ_le_of_lt hlt)
        rw [Nat.succ_mul] at this
        omega

end

end Sys2Proof.Machine
end

section
/-! Rows and bands of a tile (R182, R184, R186, R190): what a row that is written leaves of the scratchpad, and the elements of a band whose
sources have exactly its destination's elements or share no byte with it. -/

namespace Sys2Proof.Machine

/-! ### The bytes of rows (R182) -/

/-- A byte that does not belong to row `i` of a tile. -/
def OutsideRow (b : Tile) (i p : Nat) : Prop := p < b.base + i * b.pitch ∨ b.base + i * b.pitch + rowBytes b ≤ p

/-- A memory that differs from another in rows `lo` up to `hi` of a tile alone. -/
def RowsKept (b : Tile) (lo hi : Nat) (m m' : Memory) : Prop :=
  ∀ p, (∀ i, lo ≤ i → i < hi → OutsideRow b i p) → memGet m' p = memGet m p

section
variable {b : Tile} {m m' m'' : Memory} {lo hi i j k : Nat}

theorem RowsKept.trans (h : RowsKept b lo hi m m') (g : RowsKept b lo hi m' m'') : RowsKept b lo hi m m'' :=
  fun p hp => (g p hp).trans (h p hp)

theorem RowsKept.mono (h : RowsKept b lo hi m m') {lo' hi' : Nat} (hl : lo' ≤ lo) (hh : hi ≤ hi') : RowsKept b lo' hi' m m' :=
  fun p hp => h p fun i h1 h2 => hp i (hl.trans h1) (h2.trans_le hh)

theorem rowBytes_le_pitch (hb : legalTile b = true) : rowBytes b ≤ b.pitch := by
  simp only [legalTile, Bool.and_eq_true, decide_eq_true_eq] at hb
  obtain ⟨⟨hp, -⟩, -⟩ := hb
  exact hp

/-- The rows of a legal tile share no byte (R182). -/
theorem outsideRow_of_ne (hb : legalTile b = true) (h : i ≠ k) {p : Nat} (hlo : b.base + i * b.pitch ≤ p)
    (hhi : p < b.base + i * b.pitch + rowBytes b) : OutsideRow b k p := by
  have hp := rowBytes_le_pitch hb
  unfold OutsideRow
  rcases Nat.lt_or_gt_of_ne h with hlt | hlt
  · have := Nat.mul_le_mul_right b.pitch (Nat.succ_le_of_lt hlt)
    rw [Nat.succ_mul] at this
    omega
  · have := Nat.mul_le_mul_right b.pitch (Nat.succ_le_of_lt hlt)
    rw [Nat.succ_mul] at this
    omega

/-- An element of another row is the same (R182, R184). -/
theorem RowsKept.rawElem_eq (h : RowsKept b lo hi m m') (hb : legalTile b = true) (hi' : i < lo ∨ hi ≤ i) (hj : j < b.cols) :
    rawElem m' b i j = rawElem m b i j := by
  refine rawElem_congr fun q hq => h _ fun k hk1 hk2 => outsideRow_of_ne hb (i := i) (by omega) (by omega) ?_
  have := elemAt_add_le hj
  omega

/-! ### A row written (R184) -/

theorem rowsKept_putElem (hj : j < b.cols) (v : Nat) : RowsKept b i (i + 1) m (putElem m b i j v) := by
  intro p hp
  have hat := elemAt_add_le hj
  have hout := hp i le_rfl (Nat.lt_succ_self i)
  unfold OutsideRow at hout
  exact memGet_putElem_of_outside (by omega)

theorem rowsKept_putRow {vs : List Nat} (h : j + vs.length ≤ b.cols) : RowsKept b i (i + 1) m (putRow m b i j vs) := by
  induction vs generalizing m j with
  | nil => exact fun _ _ => rfl
  | cons v r ih =>
    rw [List.length_cons] at h
    exact (rowsKept_putElem (by omega) v).trans (ih (by omega))

theorem rawElem_putRow_of_outside {vs : List Nat} (h : k < j ∨ j + vs.length ≤ k) :
    rawElem (putRow m b i j vs) b i k = rawElem m b i k := by
  induction vs generalizing m j with
  | nil => rfl
  | cons v r ih =>
    rw [List.length_cons] at h
    exact (ih (by omega)).trans (rawElem_putElem_ne (by omega))

theorem rawElem_putRow {vs : List Nat} (h : k < vs.length) :
    rawElem (putRow m b i j vs) b i (j + k) = vs[k] % elemRange b.fmt := by
  induction vs generalizing m j k with
  | nil => cases h
  | cons v r ih =>
    cases k with
    | zero => exact (rawElem_putRow_of_outside (j := j + 1) (.inl (Nat.lt_succ_self j))).trans rawElem_putElem_self
    | succ k =>
      have hk : k < r.length := Nat.lt_of_succ_lt_succ h
      have hr := ih (m := putElem m b i j v) (j := j + 1) hk
      rw [Nat.add_right_comm] at hr
      exact hr

/-- The memory with a row of a tile written within its valid extent (R184). -/
def writtenRow (m : Memory) (b : Tile) (i : Nat) (f : Nat → Nat) : Memory :=
  if i < b.vrows then putRow m b i 0 ((List.range b.vcols).map f) else m

theorem rowsKept_writtenRow (h : b.vcols ≤ b.cols) (f : Nat → Nat) : RowsKept b i (i + 1) m (writtenRow m b i f) := by
  unfold writtenRow
  split
  · exact rowsKept_putRow (by rw [List.length_map, List.length_range]; omega)
  · exact fun _ _ => rfl

theorem rawElem_writtenRow (m : Memory) (b : Tile) (i : Nat) (f : Nat → Nat) (j : Nat) :
    rawElem (writtenRow m b i f) b i j = if i < b.vrows ∧ j < b.vcols then f j % elemRange b.fmt else rawElem m b i j := by
  unfold writtenRow
  by_cases hi : i < b.vrows
  · by_cases hj : j < b.vcols
    · have hr := rawElem_putRow (m := m) (b := b) (i := i) (j := 0) (vs := (List.range b.vcols).map f) (k := j) (by simpa using hj)
      rw [if_pos hi, if_pos ⟨hi, hj⟩, ← Nat.zero_add j, hr, List.getElem_map, List.getElem_range, Nat.zero_add]
    · rw [if_pos hi, if_neg fun h => hj h.2]
      exact rawElem_putRow_of_outside (by rw [List.length_map, List.length_range]; omega)
  · rw [if_neg hi, if_neg fun h => hi h.1]

/-! ### Consecutive rows (R184, R190) -/

/-- The memory with `n` rows of a tile from row `i` on written, each from the memory as the rows before leave it. -/
def writtenRows (b : Tile) (f : Memory → Nat → Nat → Nat) (m : Memory) (i n : Nat) : Memory :=
  match n with
  | 0 => m
  | k + 1 => writtenRows b f (writtenRow m b i (f m i)) (i + 1) k

theorem rowsKept_writtenRows (h : b.vcols ≤ b.cols) (f : Memory → Nat → Nat → Nat) (n : Nat) :
    RowsKept b i (i + n) m (writtenRows b f m i n) := by
  induction n generalizing m i with
  | zero => exact fun _ _ => rfl
  | succ n ih =>
    exact ((rowsKept_writtenRow h _).mono le_rfl (by omega)).trans ((ih (i := i + 1)).mono (by omega) (by omega))

/-- Where each row is computed from bytes that the rows before it leave, a band has the elements that its first memory gives (R184,
R186). -/
theorem rawElem_writtenRows (hb : TileOk b) {f : Memory → Nat → Nat → Nat} {n : Nat}
    (hf : ∀ m' k j, lo ≤ k → k < b.rows → j < b.cols → RowsKept b lo k m m' → f m' k j = f m k j)
    (hrows : i + n ≤ b.rows) (hlo : lo ≤ i) (hm : RowsKept b lo i m m') (hk : i ≤ k) (hkn : k < i + n) (hj : j < b.cols) :
    rawElem (writtenRows b f m' i n) b k j =
      if k < b.vrows ∧ j < b.vcols then f m k j % elemRange b.fmt else rawElem m b k j := by
  induction n generalizing m' i with
  | zero => omega
  | succ n ih =>
    have hnext : RowsKept b lo (i + 1) m (writtenRow m' b i (f m' i)) :=
      (hm.mono le_rfl (Nat.le_succ i)).trans ((rowsKept_writtenRow hb.2.2 _).mono hlo le_rfl)
    by_cases hki : k = i
    · subst hki
      have hlater := (rowsKept_writtenRows (i := k + 1) (m := writtenRow m' b k (f m' k)) hb.2.2 f n).rawElem_eq hb.1
        (.inl (Nat.lt_succ_self k)) hj
      rw [writtenRows, hlater, rawElem_writtenRow, hf m' k j hlo (by omega) hj hm, hm.rawElem_eq hb.1 (.inr le_rfl) hj]
    · exact ih (by omega) (by omega) hnext (by omega) (by omega)

end

end Sys2Proof.Machine
end

section
/-! What an element-by-element instruction reads (R185, R186, R217-R222, R232-R234): the elements of its sources at the place of the element
that it writes, which its begin checks keep apart from the rows written before. -/

namespace Sys2Proof.Machine

/-! ### Sources (R185, R186) -/

/-- A source that its begin checks allow beside a destination: unbound, or legal and either apart from it or exactly aliased with it
(R186). -/
def SourceOk (d b : Tile) : Prop := b.vrows = 0 ∨ (TileOk b ∧ (tilesMeet d b = false ∨ aliases d b = true))

/-- Two ranges with a byte in common meet. -/
theorem meets_of_mem {a n b k p : Nat} (ha : a ≤ p) (han : p < a + n) (hb : b ≤ p) (hbk : p < b + k) : meets a n b k = true := by
  simp only [meets, Bool.and_eq_true, decide_eq_true_eq]
  omega

theorem add_row_le {b : Tile} (hb : legalTile b = true) {i : Nat} (hi : i < b.rows) :
    b.base + i * b.pitch + rowBytes b ≤ b.base + b.rows * b.pitch := by
  have hp := rowBytes_le_pitch hb
  have := Nat.mul_le_mul_right b.pitch (Nat.succ_le_of_lt hi)
  rw [Nat.succ_mul] at this
  omega

/-- Tiles that do not meet share no byte (R182, R186). -/
theorem outsideRow_of_apart {d b : Tile} (hd : legalTile d = true) (hb : legalTile b = true) (h : tilesMeet d b = false) {i k p : Nat}
    (hi : i < d.rows) (hk : k < b.rows) (hlo : b.base + k * b.pitch ≤ p) (hhi : p < b.base + k * b.pitch + rowBytes b) :
    OutsideRow d i p := by
  unfold OutsideRow
  by_contra hin
  have hdr := add_row_le hd hi
  have hbr := add_row_le hb hk
  have hall : tilesMeet d b = true := by
    simp only [tilesMeet, tileMeets, rowsMeet, rowMeets, Bool.and_eq_true, List.any_eq_true, List.mem_range]
    exact ⟨meets_of_mem (p := p) (by omega) (by omega) (by omega) (by omega), k, hk,
      meets_of_mem (p := p) (by omega) (by omega) hlo hhi, i, by omega,
      meets_of_mem (p := p) (by rw [Nat.zero_add]; omega) (by rw [Nat.zero_add]; omega) hlo hhi⟩
  rw [h] at hall
  cases hall

section
variable {d b : Tile} {m m' : Memory} {lo hi i j : Nat}

/-- A source element keeps its value while rows of the destination before its own are written (R186). -/
theorem srcElem_of_rowsKept (hd : legalTile d = true) (hb : SourceOk d b) (h : RowsKept d lo hi m m') (hhi : hi ≤ d.rows)
    (hrow : aliases d b = true → hi ≤ i) : srcElem m' b i j = srcElem m b i j := by
  unfold srcElem
  split
  · next hin =>
    rcases hb with h0 | ⟨⟨hleg, hvr, hvc⟩, hsep⟩
    · omega
    have hat := elemAt_add_le (b := b) (j := j) (by omega)
    refine rawElem_congr fun q hq => h _ fun k hk1 hk2 => ?_
    rcases hsep with hap | hal
    · exact outsideRow_of_apart hd hleg hap (by omega) (k := i) (by omega) (by omega) (by omega)
    · have hne := hrow hal
      simp only [aliases, Bool.and_eq_true, beq_iff_eq] at hal
      obtain ⟨⟨⟨⟨hbase, hpitch⟩, -⟩, hcols⟩, hfmt⟩ := hal
      have hbytes : rowBytes d = rowBytes b := by rw [rowBytes, rowBytes, hcols, hfmt]
      exact outsideRow_of_ne hd (i := i) (by omega) (by rw [hbase, hpitch]; omega) (by rw [hbase, hpitch, hbytes]; omega)
  · rfl

theorem sourceOk_memberTile (hb : SourceOk d b) : memberTile b 0 = b ∨ (memberTile b 0).vrows = 0 := by
  rcases hb with h | ⟨⟨-, -, hvc⟩, -⟩
  · exact .inr h
  · exact .inl (memberTile_zero hvc)

section
variable {w : View} (hw : w.idx = 0) (hd : legalTile d = true) (hb : SourceOk d b) (h : RowsKept d lo i w.mem m') (hid : i < d.rows)
include hw hd hb h hid

theorem ownElem_of_rowsKept {k : Nat} (hrow : aliases d b = true → i ≤ k) : ownElem { w with mem := m' } b k j = ownElem w b k j := by
  unfold ownElem
  rw [hw]
  rcases sourceOk_memberTile hb with hm | hm
  · rw [hm]
    exact srcElem_of_rowsKept hd hb h hid.le hrow
  · simp only [srcElem, hm, Nat.not_lt_zero, false_and, if_false]

/-- A source that is exactly aliased has the destination's rows, so a broadcast form reads no earlier one (R185, R186). -/
theorem bcElem_of_rowsKept : bcElem { w with mem := m' } b i j = bcElem w b i j := by
  refine ownElem_of_rowsKept hw hd hb h hid fun hal => ?_
  split
  · next h1 =>
    simp only [aliases, Bool.and_eq_true, beq_iff_eq] at hal
    omega
  · exact le_rfl

end

end

/-! ### The value of an element (R217-R222, R232-R234) -/

theorem nbField_of_elementwise {ins : Instr} (h : isElementwise ins = true) : nbField ins = 0 := by
  unfold isElementwise at h
  split at h
  case h_25 => cases h
  all_goals exact eq_of_beq h

theorem nbElem_zero (w : View) (b : Tile) (i j : Nat) : nbElem w b 0 i j = ownElem w b i j := by
  simp [nbElem, ownElem]

/-- An element's value depends on the elements of the sources at its place (R217-R222, R232-R234). -/
theorem elemValue_congr {ins : Instr} (h : isElementwise ins = true) {mode : Rnd} {sm : SatMode} {val : Word} {t : Ops4} {w w' : View}
    {i j v : Nat} (ha : ownElem w' t.a i j = ownElem w t.a i j) (hb : bcElem w' t.b i j = bcElem w t.b i j)
    (hc : bcElem w' t.c i j = bcElem w t.c i j) : elemValue ins mode sm val t w' i j v = elemValue ins mode sm val t w i j v := by
  have hn : nbElem w' t.a (nbField ins) i j = nbElem w t.a (nbField ins) i j := by
    rw [nbField_of_elementwise h, nbElem_zero, nbElem_zero, ha]
  unfold isElementwise at h
  split at h
  case h_25 => cases h
  all_goals
    simp only [nbField] at hn
    simp only [elemValue, hn, ha, hb, hc]

/-! ### The checks of the sources (R185, R186) -/

/-- Checks that pass fail none (R188). -/
theorem checks_of_pass {l : List Check} {o : BeginOut} (h : afterChecks l o = .pass) : ∀ k ∈ l, k.1 = false := by
  intro k hk
  by_contra hne
  have hsome : (firstFail l).isSome = true := by
    simp only [firstFail, Option.isSome_map, List.find?_isSome]
    exact ⟨k, hk, by simpa using hne⟩
  obtain ⟨f, hf⟩ := Option.isSome_iff_exists.1 hsome
  simp only [afterChecks, hf] at h
  cases h

theorem overlapChecks_of_pass {x : Ctx} {i : Instr} {mode : Rnd} {gang : Bool} {v : Option Word}
    (h : beginChecks x i mode gang v = .pass) : ∀ k ∈ overlapChecks i (ops4 x i), k.1 = false :=
  fun k hk => checks_of_pass h k (List.mem_append_right _ hk)

/-- Every source of an element-by-element instruction is checked for overlap, exact aliasing allowed (R186, R213). -/
theorem overlapAlias_mem {i : Instr} (h : isElementwise i = true) (x : Ctx) {p : Nat × BitVec 4} (hp : p ∈ operandNames i)
    (h0 : p.1 ≠ 0) :
    overlapAlias (operandTile x i 0) (operandTile x i p.1) p.1 ∈ overlapChecks i (ops4 x i) := by
  have hn := nbField_of_elementwise h
  unfold isElementwise at h
  split at h
  case h_25 => cases h
  all_goals
    simp only [operandNames, List.mem_cons, List.not_mem_nil, or_false] at hp
    simp only [overlapChecks, hn, overlapNb, if_true, ops4, List.mem_append, List.mem_cons, List.not_mem_nil, or_false]
    rcases hp with rfl | rfl | rfl | rfl <;> simp at h0 ⊢

theorem sourceOk_operandTile {x : Ctx} {i : Instr} (h : isElementwise i = true)
    (hok : ∀ p ∈ operandNames i, TileOk (operandTile x i p.1))
    (hchk : ∀ k ∈ overlapChecks i (ops4 x i), k.1 = false) {code : Nat} (h0 : code ≠ 0) :
    SourceOk (operandTile x i 0) (operandTile x i code) := by
  cases hf : (operandNames i).find? (fun p => p.1 == code) with
  | none =>
    refine .inl ?_
    simp only [operandTile, hf]
    rfl
  | some p =>
    have hp := List.mem_of_find?_eq_some hf
    have hcode : p.1 = code := by simpa using List.find?_some hf
    subst hcode
    have hover := hchk _ (overlapAlias_mem h x hp h0)
    refine .inr ⟨hok p hp, ?_⟩
    simp only [overlapAlias, Bool.and_eq_false_iff, Bool.not_eq_false'] at hover
    exact hover

end Sys2Proof.Machine
end

section
/-! A band of an element-by-element instruction on a lone core (R184, R190, R217-R222, R232-R234). -/

namespace Sys2Proof.Machine

/-! ### The rows of a band (R107, R184, R190) -/

/-- Without stochastic rounding the generator stays, and every element is given the same value of it (R107). -/
theorem rowElems_still (f : Nat → Nat → Nat) (seed : BitVec 32) (j n : Nat) :
    rowElems f false seed j n = ((List.range' j n).map (fun k => f k (stochValue seed)), seed) := by
  induction n generalizing j with
  | zero => rfl
  | succ n ih => simp [rowElems, ih, List.range'_succ]

theorem writeRow_still (m : Memory) (b : Tile) (f : Nat → Nat → Nat) (seed : BitVec 32) (i : Nat) :
    writeRow m b f false seed i = (writtenRow m b i (fun j => f j (stochValue seed)), seed) := by
  unfold writeRow writtenRow
  rw [rowElems_still, List.range_eq_range']
  split <;> rfl

/-- The value of each element of a destination, from a scratchpad. -/
def elemOf (ins : Instr) (mode : Rnd) (sm : SatMode) (val : Word) (t : Ops4) (w : View) (v : Nat) (m : Memory) (i j : Nat) : Nat :=
  elemValue ins mode sm val t { w with mem := m } i j v

section
variable {ins : Instr} {mode : Rnd} {sm : SatMode} {val : Word} {t : Ops4} {w : View}

theorem execRow_of_elementwise (h : isElementwise ins = true) (seed : BitVec 32) (i : Nat) :
    execRow ins mode sm val t w seed i =
      writeRow w.mem (memberTile t.d w.idx) (fun j v => elemValue ins mode sm val t w i j v) (mode == .stoch) seed i := by
  unfold execRow
  split
  · cases h
  · rfl

/-- The rows of an element-by-element instruction on a lone core whose rounding is not stochastic (R107, R190). -/
theorem execRows_of_elementwise (h : isElementwise ins = true) (hmode : mode ≠ .stoch) (hw : w.idx = 0) (hd : t.d.vcols ≤ t.d.cols)
    (m : Memory) (seed : BitVec 32) (i n : Nat) :
    execRows ins mode sm val t w m seed i n = (writtenRows t.d (elemOf ins mode sm val t w (stochValue seed)) m i n, seed) := by
  have hstill : (mode == .stoch) = false := beq_false_of_ne hmode
  have htile : memberTile t.d w.idx = t.d := by rw [hw, memberTile_zero hd]
  induction n generalizing m i with
  | zero => rfl
  | succ n ih =>
    unfold execRows
    rw [execRow_of_elementwise h, hstill]
    dsimp only
    rw [htile, writeRow_still]
    exact ih ..

/-- The elements of a row are those that the scratchpad before the band gives, since no source has a byte of an earlier row (R186). -/
theorem elemOf_of_rowsKept (h : isElementwise ins = true) (hw : w.idx = 0) (hd : legalTile t.d = true) (ha : SourceOk t.d t.a)
    (hb : SourceOk t.d t.b) (hc : SourceOk t.d t.c) {v lo i : Nat} {m' : Memory} (hm : RowsKept t.d lo i w.mem m') (hi : i < t.d.rows)
    (j : Nat) : elemOf ins mode sm val t w v m' i j = elemOf ins mode sm val t w v w.mem i j :=
  elemValue_congr h (ownElem_of_rowsKept hw hd ha hm hi fun _ => le_rfl) (bcElem_of_rowsKept hw hd hb hm hi)
    (bcElem_of_rowsKept hw hd hc hm hi)

end

/-! ### The step of a band (R190) -/

section
variable {s : State} {c : Nat} {u : TileUnit} {body : List TileUnit} {rest : List SeqEntry}

theorem bandRows_of_elementwise (h : isElementwise u.instr = true) : bandRows s c u = (operandTile (getCtx s c) u.instr 0).rows := by
  have hm := mmaForm_of_isBanded (isBanded_of_elementwise h)
  have ha := accExtent_of_isBanded (isBanded_of_elementwise h)
  unfold bandRows
  dsimp only
  split
  case h_4 => simp only [hm, ha]
  all_goals next he => rw [he] at h; cases h

/-- An element-by-element instruction waits for no slot (R275). -/
theorem slotsOnAll_of_elementwise (h : isElementwise u.instr = true) (m : Nat) : slotsOnAll s [(0, m)] u.instr = .pass := by
  simp [slotsOnAll, slotsStand, mmaForm_of_isBanded (isBanded_of_elementwise h)]

/-- The state with the scratchpad of a core replaced. -/
def setSpad (s : State) (c : Nat) (m : Memory) : State := setCore s c { getCore s c with spad := m }

theorem spad_setSpad (s : State) (c : Nat) (m : Memory) : (getCore (setSpad s c m) c).spad = m := by
  rw [setSpad, getCore_setCore_self]

theorem getCore_setSpad_ne (s : State) {c d : Nat} (m : Memory) (h : d ≠ c) : getCore (setSpad s c m) d = getCore s d :=
  getCore_setCore_ne _ _ _ _ h

theorem sameMem_setSpad (s : State) (c : Nat) (m : Memory) : SameMem s (setSpad s c m) :=
  ⟨fun a => physByte_congr s _ a rfl rfl, fun _ => rfl⟩

theorem getCtx_setSpad (s : State) (c : Nat) (m : Memory) : getCtx (setSpad s c m) c = getCtx s c := by
  rw [getCtx, setSpad, getCore_setCore_self]
  rfl

/-- The scratchpad after rows `lo` up to `hi` of an element-by-element instruction on a lone core (R190). -/
def bandSpad (s : State) (c : Nat) (u : TileUnit) (lo hi : Nat) : Memory :=
  let x := getCtx s c
  writtenRows (ops4 x u.instr).d
    (elemOf u.instr (modeRnd u.xmod) (unitSat x u.instr (modeSat u.xmod)) (runValue x u) (ops4 x u.instr)
      { mem := (getCore s c).spad, plus := none, minus := none, idx := 0 } (stochValue x.sys.rseed))
    (getCore s c).spad lo (hi - lo)

theorem memberBand_of_elementwise (hg : (getCore s c).gang = .none) (h : isElementwise u.instr = true) (hmode : modeRnd u.xmod ≠ .stoch)
    (hd : (ops4 (getCtx s c) u.instr).d.vcols ≤ (ops4 (getCtx s c) u.instr).d.cols) (lo hi : Nat) :
    memberBand s c u (runValue (getCtx s c) u) lo hi s (0, c) = setSpad s c (bandSpad s c u lo hi) := by
  simp only [memberBand, mmaForm_of_isBanded (isBanded_of_elementwise h), accExtent_of_isBanded (isBanded_of_elementwise h),
    viewOf_of_lone hg]
  rw [execRows_of_elementwise h hmode rfl hd]
  rfl

/-- The state after a band of an element-by-element instruction on a lone core, with rows up to `hi` of `total` complete (R190). -/
def bandState (s : State) (c : Nat) (u : TileUnit) (hi total : Nat) : State :=
  let t := modCtx (setSpad s c (bandSpad s c u (getCtx s c).run.row hi)) c
    (fun y => { y with run := { y.run with row := hi, seeds := [(getCtx s c).sys.rseed] } })
  if hi = total then completeUnit t c else push t (.tileBandComplete c false)

theorem exec_tileBandComplete (hseq : (getCtx s c).seq = { unit := u, body := body } :: rest) (h : StreamFree s c u)
    (hb : (getCtx s c).run.begun = true) (hw : (getCtx s c).run.waitLeave = false) (hel : isElementwise u.instr = true)
    (hmode : modeRnd u.xmod ≠ .stoch) (hd : (ops4 (getCtx s c) u.instr).d.vcols ≤ (ops4 (getCtx s c) u.instr).d.cols) :
    exec (.tileBandComplete c false) s = .next (bandState s c u
      (min (ops4 (getCtx s c) u.instr).d.rows (((getCtx s c).run.row / 8 + 1) * 8)) (ops4 (getCtx s c) u.instr).d.rows) := by
  have hlive := tileLive_of_free hseq h
  obtain ⟨hrun, hg, -, -, hl, hband, hwait, -⟩ := h
  have hcur := curUnit_of_seq hseq hl
  have hrows : bandRows s c u = (ops4 (getCtx s c) u.instr).d.rows := bandRows_of_elementwise hel
  have hmem (hi : Nat) := memberBand_of_elementwise hg hel hmode hd (getCtx s c).run.row hi
  show execTileBandComplete c false s = _
  unfold getCtx at *
  simp only [execTileBandComplete, hlive, hcur, hb, hw, isRowUnit_of_elementwise hel, hband, hwait, deadMember_of_lone hg hrun,
    unitMembers_of_lone hg, unitCores_of_lone hg, slotsOnAll_of_elementwise hel, hrows, List.foldl_cons, List.foldl_nil, hmem,
    Bool.not_true, Bool.false_and, Bool.or_self, Bool.false_eq_true, if_false]
  exact (apply_ite Host.Outcome.next ..).symm

/-- The unit stays with the rows of the band complete, or leaves the sequencer with its last band (R190, R204). -/
theorem contextOnly_bandState (hseq : (getCtx s c).seq = { unit := u, body := body } :: rest) (hl : (getCtx s c).run.loopLeft = none)
    (hp : (getCtx s c).run.fromPool = 0) (hi total : Nat) :
    ∃ run : TileRun, run.row = hi ∧
      ContextOnly (setSpad s c (bandSpad s c u (getCtx s c).run.row hi)) c
        (if hi = total then unitPassed { getCtx s c with run := run } rest else { getCtx s c with run := run })
        (bandState s c u hi total) := by
  have hnext := contextOnly_next (y := { getCtx s c with run := { (getCtx s c).run with row := hi, seeds := [(getCtx s c).sys.rseed] } })
    hseq hl hp (setSpad s c (bandSpad s c u (getCtx s c).run.row hi)) c (.tileBandComplete c false) (hi = total)
  refine ⟨{ (getCtx s c).run with row := hi, seeds := [(getCtx s c).sys.rseed] }, rfl, ?_⟩
  unfold bandState modCtx
  rw [getCtx_setSpad]
  exact hnext

end

/-- An element-by-element instruction has a destination. -/
theorem destination_mem {i : Instr} (h : isElementwise i = true) : ∃ d, (0, d) ∈ operandNames i := by
  unfold isElementwise at h
  split at h
  case h_25 => cases h
  all_goals exact ⟨_, List.mem_cons_self⟩

/-- The elements of a band (R184, R186, R217-R222, R232-R234). -/
theorem rawElem_bandSpad {s : State} {c : Nat} {u : TileUnit} (hel : isElementwise u.instr = true)
    (hok : ∀ p ∈ operandNames u.instr, TileOk (operandTile (getCtx s c) u.instr p.1))
    (hchk : ∀ k ∈ overlapChecks u.instr (ops4 (getCtx s c) u.instr), k.1 = false) {lo hi i j : Nat}
    (hrows : hi ≤ (ops4 (getCtx s c) u.instr).d.rows) (hlo : lo ≤ i) (hhi : i < hi) (hj : j < (ops4 (getCtx s c) u.instr).d.cols) :
    rawElem (bandSpad s c u lo hi) (ops4 (getCtx s c) u.instr).d i j =
      if i < (ops4 (getCtx s c) u.instr).d.vrows ∧ j < (ops4 (getCtx s c) u.instr).d.vcols then
        elemValue u.instr (modeRnd u.xmod) (unitSat (getCtx s c) u.instr (modeSat u.xmod)) (runValue (getCtx s c) u)
          (ops4 (getCtx s c) u.instr) { mem := (getCore s c).spad, plus := none, minus := none, idx := 0 } i j
          (stochValue (getCtx s c).sys.rseed) % elemRange (ops4 (getCtx s c) u.instr).d.fmt
      else rawElem (getCore s c).spad (ops4 (getCtx s c) u.instr).d i j := by
  obtain ⟨d, hd⟩ := destination_mem hel
  have hdok : TileOk (ops4 (getCtx s c) u.instr).d := hok _ hd
  have hsrc {code : Nat} (h0 : code ≠ 0) := sourceOk_operandTile hel hok hchk h0
  refine rawElem_writtenRows (lo := lo) hdok (fun m' k j h1 h2 _ hm => ?_) (by omega) le_rfl (fun _ _ => rfl) hlo (by omega) hj
  exact elemOf_of_rowsKept hel rfl hdok.1 (hsrc Nat.one_ne_zero) (hsrc (by decide)) (hsrc (by decide)) hm h2 j

/-- Settles O21: the rows of the band are `writtenRows`, of which each source is read as before the band, and what follows the band is
`bandState`. -/
theorem tileElementwise : Obligations.TileElementwise := by
  unfold Obligations.TileElementwise
  intro s c u body rest x m ops lo hi hseq hfree hb hw hp hel hmode hok hpass hlo
  obtain ⟨d, hd⟩ := destination_mem hel
  obtain ⟨-, -, hvc⟩ : TileOk ops.d := hok _ hd
  have hl : x.run.loopLeft = none := loopLeft_of_free hfree
  obtain ⟨run, hrow, ht⟩ := contextOnly_bandState hseq hl hp hi ops.d.rows
  have hspad := ht.spad.trans (spad_setSpad ..)
  refine ⟨_, exec_tileBandComplete hseq hfree hb hw hel hmode hvc, ?_⟩
  refine ⟨fun i j hli hih hj => ?_, fun p hp => ?_, fun h => ?_, fun h => ?_, ?_, ?_, ?_, fun c' hc => ?_, ?_⟩
  · rw [hspad]
    exact rawElem_bandSpad hel hok (overlapChecks_of_pass hpass) (min_le_left ..) hli hih hj
  · rw [hspad]
    exact rowsKept_writtenRows hvc _ _ p fun i h1 h2 => hp i h1 (by omega)
  · rw [ht.ctx, if_neg h.ne]
    exact ⟨rfl, hrow⟩
  · rw [ht.ctx, if_pos h]
    rfl
  · rw [ht.ctx]
    split <;> rfl
  · rw [ht.ctx]
    split <;> rfl
  · rw [ht.ctx]
    split <;> rfl
  · rw [ht.core_ne hc, getCore_setSpad_ne _ _ hc]
  · exact sameMem_trans (sameMem_setSpad ..) ht.sameMem

end Sys2Proof.Machine
end

section
/-! The system registers (R133, R235-R243): what each reads, what a write leaves of it, and the units that task mode refuses. -/

namespace Sys2Proof.Machine

/-! ### What a register reads (R237, R243) -/

theorem toNat_packWord {fs : List (Nat × Nat)} (h : fs.foldl (fun n f => n + f.1 * 2 ^ f.2) 0 < 2 ^ 64) :
    (packWord fs).toNat = fs.foldl (fun n f => n + f.1 * 2 ^ f.2) 0 :=
  (BitVec.toNat_ofNat ..).trans (Nat.mod_eq_of_lt h)

/-- The sum of a word's fields, one field at a time: an equation to rewrite with, since the kernel cannot compute a product with a large
power of two. -/
theorem foldl_field_cons (n v k : Nat) (fs : List (Nat × Nat)) :
    ((v, k) :: fs).foldl (fun n f => n + f.1 * 2 ^ f.2) n = fs.foldl (fun n f => n + f.1 * 2 ^ f.2) (n + v * 2 ^ k) := by
  rw [List.foldl_cons]

theorem foldl_field_nil (n : Nat) : List.foldl (fun n (f : Nat × Nat) => n + f.1 * 2 ^ f.2) n [] = n := by
  rw [List.foldl_nil]

theorem toNat_tstatWord (y : SysRegs) (disc : BitVec 8) :
    (tstatWord y disc).toNat = disc.toNat + 2 ^ 10 * y.rcls.toNat + 2 ^ 12 * y.prio.toNat + 2 ^ 15 * y.dual.toNat +
      2 ^ 16 * y.urg.toNat + 2 ^ 17 * y.restored.toNat + 2 ^ 18 * y.migr.toNat + 2 ^ 19 * y.restart.toNat +
      2 ^ 20 * y.evt.toNat := by
  have hdual := Bool.toNat_le y.dual
  have hurg := Bool.toNat_le y.urg
  have hrestored := Bool.toNat_le y.restored
  have hmigr := Bool.toNat_le y.migr
  have hrestart := Bool.toNat_le y.restart
  rw [tstatWord, toNat_packWord] <;> simp only [foldl_field_cons, foldl_field_nil] <;> omega

theorem toNat_causeWord (y : SysRegs) : (causeWord y).toNat = y.code.toNat + 2 ^ 16 * y.tile.toNat + 2 ^ 20 * y.param.toNat := by
  have htile := Bool.toNat_le y.tile
  rw [causeWord, toNat_packWord] <;> simp only [foldl_field_cons, foldl_field_nil] <;> omega

/-- A word of a flag and a field above it: %mode and %cxattr. -/
theorem toNat_packWord_pair {a b k : Nat} (ha : a < 2 ^ k) (hb : b ≤ 1) (hk : k ≤ 2) :
    (packWord [(a, 0), (b, k)]).toNat = a + 2 ^ k * b := by
  have hle : 2 ^ k * b ≤ 2 ^ 2 * 1 := Nat.mul_le_mul (Nat.pow_le_pow_right (by decide) hk) hb
  have hlt : 2 ^ k ≤ 2 ^ 2 := Nat.pow_le_pow_right (by decide) hk
  have hsum : [(a, 0), (b, k)].foldl (fun n f => n + f.1 * 2 ^ f.2) 0 = a + 2 ^ k * b := by
    simp only [foldl_field_cons, foldl_field_nil, Nat.mul_comm (2 ^ k)]
    omega
  rw [toNat_packWord (by omega), hsum]

/-- A register's value depends, of the live context of its core, on the system registers alone. -/
theorem sysRead_setCtx {s : State} {c : Nat} {x : Ctx} (h : x.sys = (getCtx s c).sys) (p : BitVec 12) :
    sysRead (setCtx s c x) c p = sysRead s c p := by
  have hl : leaveWord (setCtx s c x) c = leaveWord s c := by
    unfold leaveWord
    rw [getCtx_setCtx_self, h]
    rfl
  unfold sysRead
  rw [getCore_setCtx_self, hl]
  simp only [h]
  rfl

/-! ### What a write leaves (R237, R238, R243) -/

/-- The bits inside a mask and those outside it make up a word. -/
theorem toNat_and_add_toNat_and_not (v m : Word) : (v &&& m).toNat + (v &&& ~~~m).toNat = v.toNat := by
  have h : (v &&& m) &&& (v &&& ~~~m) = 0 := by
    ext i hi
    cases hm : m[i] <;> simp [hm]
  rw [← BitVec.toNat_add_of_and_eq_zero h, BitVec.add_eq_or_of_and_eq_zero _ _ h]
  congr 1
  ext i hi
  cases hm : m[i] <;> simp [hm]

/-- The low bits of a word, cleared as %svbase has them. -/
theorem toNat_and_not_lowMask (v : Word) {n : Nat} (hn : n ≤ 64) :
    (v &&& ~~~(BitVec.ofNat 64 (2 ^ n - 1))).toNat = v.toNat - v.toNat % 2 ^ n := by
  have hlow : (v &&& BitVec.ofNat 64 (2 ^ n - 1)).toNat = v.toNat % 2 ^ n := by
    rw [and_lowMask, BitVec.toNat_ofNat, Nat.mod_mod_of_dvd' (Nat.pow_dvd_pow 2 hn)]
  have := toNat_and_add_toNat_and_not v (BitVec.ofNat 64 (2 ^ n - 1))
  omega

theorem sysWrite_readOnly (y : SysRegs) {p : BitVec 12} (v : Word) (h : p = 0x000 ∨ p = 0x001 ∨ p = 0x002 ∨ p = 0x006 ∨ p = 0x007) :
    sysWrite y p v = y := by
  rcases h with rfl | rfl | rfl | rfl | rfl <;> rfl

theorem sysWrite_xstep (y : SysRegs) (v : Word) :
    sysWrite y 0x003 v = { y with xstep := if y.sup then v.setWidth 9 else y.xstep } := by
  show (if y.sup then { y with xstep := v.setWidth 9 } else y) = _
  split <;> rfl

theorem sysWrite_cause (y : SysRegs) (v : Word) :
    sysWrite y 0x020 v = { y with code := v.setWidth 16, tile := v.getLsbD 16, param := v.extractLsb' 20 12 } := by
  rw [← BitVec.setWidth_ushiftRight_eq_extractLsb]
  rfl

theorem sysWrite_svbase (y : SysRegs) (v : Word) :
    (sysWrite y 0x024 v).svbase.toNat = v.toNat - v.toNat % 64 ∧ { sysWrite y 0x024 v with svbase := y.svbase } = y :=
  ⟨toNat_and_not_lowMask v (n := 6) (by decide), rfl⟩

/-! ### SYSR and SYSW (R60, R243) -/

/-- An access waits for the tile stream at %xstep and %rseed alone, while a unit is in progress that no trap has stopped (R208, R243). -/
theorem sysWaits_iff (x : Ctx) (p : BitVec 12) :
    sysWaits x p = true ↔ (p = 3 ∨ p = 5) ∧ x.seq ≠ [] ∧ x.tileTrap = none ∧ (x.heldStream = false ∨ runningOut x = true) := by
  simp [sysWaits, streamQuiet, and_assoc]

theorem runningOut_passUnit (x : Ctx) : runningOut (passUnit x) = runningOut x := by
  simp only [runningOut, curUnit, passUnit]

theorem sysWaits_passUnit (x : Ctx) (p : BitVec 12) : sysWaits (passUnit x) p = sysWaits x p := by
  unfold sysWaits streamQuiet
  rw [runningOut_passUnit]
  rfl

section
variable {s : State} {d a : BitVec 5} {p : BitVec 12}

theorem execSysr_of_quiet (hp : namesSys p = true) (h : Goes (cur s) (needs [] [d] (priv := privSys p)))
    (hw : sysWaits (cur s) p = false) :
    execSysr d p s = .next (withCur s (setReg (passUnit (cur s)) d (sysRead s s.focus p))) := by
  unfold execSysr
  rw [if_neg (by simp [hp])]
  refine issue_some h ?_
  have hread : sysRead (withCur s (passUnit (cur s))) s.focus p = sysRead s s.focus p := sysRead_setCtx (passUnit_sys _) p
  simp [issuedOf_core, sysWaits_passUnit, hw, hread]

theorem execSysr_of_busy (hp : namesSys p = true) (h : Goes (cur s) (needs [] [d] (priv := privSys p)))
    (hw : sysWaits (cur s) p = true) : execSysr d p s = .next s := by
  unfold execSysr
  rw [if_neg (by simp [hp])]
  exact issue_none h (by simp [issuedOf_core, sysWaits_passUnit, hw])

/-- The flags of %tstat that the core holds, with those cleared where a write has a one (R60). -/
def clearDisc (p : BitVec 12) (v : Word) (k : Core) : Core :=
  if p = 4 then { k with disc := k.disc &&& ~~~(v.setWidth 8) } else k

/-- The state after a write of a system register by the unit in progress. -/
def sysWritten (s : State) (p : BitVec 12) (v : Word) : State :=
  modCore (withCur s { passUnit (cur s) with sys := sysWrite (cur s).sys p v }) s.focus (clearDisc p v)

theorem execSysw_of_quiet (hp : namesSys p = true) (h : Goes (cur s) (needs [a] [] (priv := privSys p)))
    (hw : sysWaits (cur s) p = false) : execSysw a p s = .next (sysWritten s p (regVal (cur s) a)) := by
  unfold execSysw
  rw [if_neg (by simp [hp])]
  refine issue_some h ?_
  simp [issuedOf_core, sysWaits_passUnit, hw, modSys]
  rfl

theorem execSysw_of_busy (hp : namesSys p = true) (h : Goes (cur s) (needs [a] [] (priv := privSys p)))
    (hw : sysWaits (cur s) p = true) : execSysw a p s = .next s := by
  unfold execSysw
  rw [if_neg (by simp [hp])]
  exact issue_none h (by simp [issuedOf_core, sysWaits_passUnit, hw])

end

section
variable (s : State) (p : BitVec 12) (v : Word)

theorem getCore_sysWritten :
    getCore (sysWritten s p v) s.focus =
      clearDisc p v { getCore s s.focus with ctx := { passUnit (cur s) with sys := sysWrite (cur s).sys p v } } := by
  rw [sysWritten, getCore_modCore_self, getCore_setCtx_self]

theorem getCtx_sysWritten : getCtx (sysWritten s p v) s.focus = { passUnit (cur s) with sys := sysWrite (cur s).sys p v } := by
  rw [getCtx, getCore_sysWritten, clearDisc]
  split <;> rfl

theorem disc_sysWritten :
    (getCore (sysWritten s p v) s.focus).disc =
      if p = 4 then (getCore s s.focus).disc &&& ~~~(v.setWidth 8) else (getCore s s.focus).disc := by
  rw [getCore_sysWritten, clearDisc]
  split <;> rfl

theorem getCore_sysWritten_ne {c : Nat} (h : c ≠ s.focus) : getCore (sysWritten s p v) c = getCore s c :=
  (getCore_modCore_ne _ _ h).trans (getCore_setCtx_ne _ _ _ _ h)

theorem sameMem_sysWritten : SameMem s (sysWritten s p v) := ⟨fun _ => rfl, fun _ => rfl⟩

end

/-! ### Refusals (R133, R236, R538, R539) -/

/-- A unit of a task that needs supervisor mode takes PRIV before its operands are looked at. -/
theorem issue_priv {s : State} {q : IssueSpec} {f : Issued → State → Option State} (hpfx : (cur s).pfx = none) (hgens : (cur s).gens = [])
    (hsup : (cur s).sys.sup = false) (hq : q.priv = true) :
    issue s q f = .next (takeTrap s s.focus (issueTrap (unitPc (cur s)) causePriv 0 0)) := by
  have hv : issueVerdict (cur s) q = .trap (issueTrap (unitPc (cur s)) causePriv 0 0) := by
    simp [issueVerdict, hpfx, hgens, hsup, hq, prefixIll, prefixOk]
  unfold issue
  simp only [hv]

/-- A unit that its checks refuse as ILLEGAL traps where every branch before it has resolved. -/
theorem illegalNow_of_confirmed {s : State} (hgens : (cur s).gens = []) :
    illegalNow s = .next (takeTrap s s.focus (issueTrap (unitPc (cur s)) causeIllegal 0 0)) :=
  if_pos (by simp [hgens])

/-- Settles O9: what a read and a write of each register give, and the refusals of the checks before them. -/
theorem systemRegisters : Obligations.SystemRegisters := by
  unfold Obligations.SystemRegisters
  refine ⟨fun s d a p hp => ?_, fun s c => ?_, fun y p v => ?_, fun s d a p q => ⟨fun hpfx hgens hsup => ?_, fun hgens hp => ?_⟩⟩
  · intro x c busy
    have hquiet (hb : ¬ busy) : sysWaits x p = false := by
      rwa [← Bool.not_eq_true, sysWaits_iff]
    have hbusy (hb : busy) : sysWaits x p = true := (sysWaits_iff x p).2 hb
    exact ⟨fun h => ⟨fun hb => execSysr_of_quiet hp h (hquiet hb), fun hb => execSysr_of_busy hp h (hbusy hb)⟩, fun h =>
      ⟨fun hb => ⟨_, execSysw_of_quiet hp h (hquiet hb), getCtx_sysWritten .., disc_sysWritten .., fun _ => getCore_sysWritten_ne _ _ _,
        sameMem_sysWritten ..⟩, fun hb => execSysw_of_busy hp h (hbusy hb)⟩⟩
  · intro y rd
    have hwide {w : Nat} (hw : w ≤ 64) (v : BitVec w) : (v.setWidth 64).toNat = v.toNat := BitVec.toNat_setWidth_of_le hw
    have hmode : rd 0x010 = y.sup.toNat + 2 * y.psup.toNat :=
      toNat_packWord_pair (k := 1) (Bool.toNat_lt _) (Bool.toNat_le _) (by decide)
    have hattr : rd 0x046 = y.cx.qos.toNat + 4 * y.cx.bypass.toNat :=
      toNat_packWord_pair (k := 2) y.cx.qos.isLt (Bool.toNat_le _) (by decide)
    exact ⟨hwide (by decide) _, hwide (by decide) _, toNat_tstatWord .., hwide (by decide) _, hmode, toNat_causeWord _, rfl, rfl, rfl, rfl,
      rfl, rfl, hwide (by decide) _, hwide (by decide) _, rfl, rfl, hattr⟩
  · exact ⟨sysWrite_readOnly y v, fun h => h ▸ sysWrite_xstep y v, fun h => h ▸ rfl, fun h => h ▸ rfl, fun h => h ▸ rfl,
      fun h => h ▸ sysWrite_cause y v, fun h => h ▸ rfl, fun h => h ▸ rfl, fun h => h ▸ rfl, fun h => h ▸ sysWrite_svbase y v,
      fun h => h ▸ rfl, fun h => h ▸ rfl, fun h => h ▸ rfl, fun h => h ▸ rfl, fun h => h ▸ rfl, fun h => h ▸ rfl, fun h => h ▸ rfl⟩
  · have hnames (hp : namesSys p = true) : ¬ (!namesSys p) = true := by simp [hp]
    have heret : execEret s = _ := issue_priv hpfx hgens hsup rfl
    have hhalt : execHalt s = _ := issue_priv hpfx hgens hsup rfl
    have hsnap : execSnap q s = _ := issue_priv hpfx hgens hsup rfl
    exact ⟨fun hpriv hp => ⟨(if_neg (hnames hp)).trans (issue_priv hpfx hgens hsup hpriv),
      (if_neg (hnames hp)).trans (issue_priv hpfx hgens hsup hpriv)⟩, heret, hhalt, hsnap⟩
  · have hnames : (!namesSys p) = true := by simp [hp]
    exact ⟨(if_pos hnames).trans (illegalNow_of_confirmed hgens), (if_pos hnames).trans (illegalNow_of_confirmed hgens)⟩

end Sys2Proof.Machine
end

section
/-! A word's turn (log 3; R133, R170, R176, R208, R246, R540): the word that the focus core runs, and what follows it. -/

namespace Sys2Proof.Machine

/-! ### The turn (log 3) -/

/-- A core steps in its own turn, and where no event waits. -/
theorem step_core {s : State} (h : s.turn = .core ∨ s.agenda = []) : step s = coreStep s := by
  unfold step
  split
  · rename_i ht ha
    simp [ht, ha] at h
  · rfl

/-- The state after the focus core has stepped to `u`: a step that would disband its gang waits (R208, log 92), an event is next, and
what cores wait on is compared (R246). -/
def stepped (s u : State) : State :=
  let v := if holdsDisband s u s.focus then s else u
  noteChanges s { v with turn := .event, focus := nextFocus v }

theorem step_of_runCore {s : State} (hturn : s.turn = .core ∨ s.agenda = []) (hc : s.focus < coreCount) :
    step s = (match runCore s s.focus with
      | .next u => .next (stepped s u)
      | .fault r => .fault r
      | .refused r => .refused r) := by
  rw [step_core hturn]
  unfold coreStep
  rw [if_neg (Nat.not_le.2 hc)]
  rfl

/-! ### What the core runs (R170, R176, R540) -/

section
variable {s : State} {c : Nat}

/-- A trap of the tile stream comes first on the confirmed path. -/
theorem runCore_of_tileTrap (hr : (getCore s c).state = .running) (ho : coreOut s c = false) {e : TileTrap}
    (ht : (getCtx s c).tileTrap = some e) (hg : (getCtx s c).gens = []) : runCore s c = .next (takeTileTrap s c e) := by
  have ht' : (getCore s c).ctx.tileTrap = some e := ht
  have hg' : (getCore s c).ctx.gens = [] := hg
  simp [runCore, hr, ho, ht', hg']

/-- A core that nothing holds runs the word at its pc. -/
theorem runCore_of_free (hr : (getCore s c).state = .running) (ho : coreOut s c = false) (hf : isFollower (getCore s c) = false)
    (hs : stopCore s c = none) (hw : (getCtx s c).wait = .none) (ht : (getCtx s c).tileTrap = none ∨ (getCtx s c).gens ≠ []) :
    runCore s c = runWord s c := by
  have hw' : (getCore s c).ctx.wait = .none := hw
  unfold runCore
  dsimp only
  rw [if_neg (by simp [hr, ho])]
  split
  · rename_i h1 h2
    rcases ht with h | h
    · exact absurd h1 (by rw [show (getCore s c).ctx.tileTrap = none from h]; simp)
    · exact absurd h2 h
  · rw [if_neg (by simp [hf]), hs, hw']

end

/-- A trap met at a fetch on the confirmed path is taken; ahead of a branch it is held (R176). -/
theorem fetchTrap_of_confirmed {s : State} {c : Nat} (h : (getCtx s c).gens = []) (t : TrapInfo) : fetchTrap s c t = takeTrap s c t :=
  if_pos (by simp [h])

theorem fetchTrap_of_ahead {s : State} {c : Nat} (h : (getCtx s c).gens ≠ []) (t : TrapInfo) : fetchTrap s c t = s :=
  if_neg (by simpa using h)

/-- A line brought into the instruction cache leaves every context (R179). -/
theorem getCtx_fillLine (s : State) (c d : Nat) (line : Option (ICLine × Nat)) : getCtx (fillLine s c line) d = getCtx s d := by
  match line with
  | none => rfl
  | some (l, pa) =>
    have hread := (readOnly_touchLine s (some (c, l.ctx, l.line / 4)) false pa 64).1
    exact (getCore_modCore_field (g := Core.ctx) _ c d (f := fun k => { k with icache := (l :: k.icache).take icacheLines }) fun _ => rfl).trans
      (congrArg Core.ctx (getCore_of_cores hread d))

section
variable {s : State} {c : Nat} {bytes : List Byte} {line : Option (ICLine × Nat)}

/-- The state in which a fetched word is executed. -/
def fetchedState (s : State) (c : Nat) (line : Option (ICLine × Nat)) : State := { fillLine s c line with focus := c }

theorem getCtx_fetchedState (d : Nat) : getCtx (fetchedState s c line) d = getCtx s d := getCtx_fillLine ..

/-- An address that cannot be fetched from traps on the confirmed path (R170). -/
theorem runWord_fault {kind : Nat} (h : fetchAt s c (getCtx s c).pc = .fault kind) (hg : (getCtx s c).gens = []) :
    runWord s c = .next (takeTrap s c
      { issueTrap (unitPc (getCtx s c)) causeFetchFault kind (getCtx s c).pc with faultpc := unitPc (getCtx s c) }) := by
  unfold runWord
  simp only [h, fetchTrap_of_confirmed hg]

theorem runWord_instr (h : fetchAt s c (getCtx s c).pc = .word bytes line) {i : Instr} (hd : decodeBytes bytes = .ok i) :
    runWord s c = exec i (fetchedState s c line) := by
  unfold runWord
  simp only [h, hd, fetchedState]

/-- An XMOD word that is no instruction makes its unit ILLEGAL (R128, R133, R176). -/
theorem runWord_prefix (h : fetchAt s c (getCtx s c).pc = .word bytes line) {e : DecodeError} (hd : decodeBytes bytes = .error e)
    (hp : isPrefixWord bytes = true) :
    runWord s c = .next (passPrefix (fetchedState s c line) (fun p => { p with ill := true })) := by
  unfold runWord
  simp only [h, hd, hp, if_true, fetchedState]

/-- Any other word that is no instruction is ILLEGAL by itself (R133, R176). -/
theorem runWord_illegal (h : fetchAt s c (getCtx s c).pc = .word bytes line) {e : DecodeError} (hd : decodeBytes bytes = .error e)
    (hp : isPrefixWord bytes = false) :
    runWord s c = .next (fetchTrap (fetchedState s c line) c (issueTrap (unitPc (getCtx s c)) causeIllegal 0 0)) := by
  unfold runWord
  simp only [h, hd, hp, Bool.false_eq_true, if_false, fetchedState]

end

/-- Settles O55: `step_of_runCore` says what follows the core's turn, `runCore_of_tileTrap`, `runCore_of_free` and the equations of `runWord`
what the core runs. -/
theorem stepRunsInstruction : Obligations.StepRunsInstruction := by
  unfold Obligations.StepRunsInstruction
  intro s bytes line c k x t out after hturn hc hr ho
  have hstep {u : State} (h : runCore s c = .next u) : after u := by
    show step s = _
    rw [step_of_runCore hturn hc, h]
    rfl
  refine ⟨fun e ht hg => hstep (runCore_of_tileTrap hr ho ht hg), fun hf hs hw ht kind hfetch hg => ?_, fun hf hs hw ht hfetch => ?_⟩
  · exact hstep ((runCore_of_free hr ho hf hs hw ht).trans (runWord_fault hfetch hg))
  · have hword : runCore s c = runWord s c := runCore_of_free hr ho hf hs hw ht
    have hctx : getCtx t c = x := getCtx_fetchedState c
    refine ⟨fun i hi => ?_, fun e he => ⟨fun hp hg => hstep ?_, fun hp hg => hstep ?_, fun hp => ?_⟩⟩
    · rw [step_of_runCore hturn hc, hword.trans (runWord_instr hfetch hi)]
      rfl
    · rw [hword, runWord_illegal hfetch he hp, fetchTrap_of_confirmed (hctx.symm ▸ hg)]
      rfl
    · rw [hword, runWord_illegal hfetch he hp, fetchTrap_of_ahead (hctx.symm ▸ hg)]
      rfl
    · exact hstep (hword.trans (runWord_prefix hfetch he hp))

end Sys2Proof.Machine
end

section
/-! Statuses that are known at issue, and those that arrive later (R157, R159, R246). -/

namespace Sys2Proof.Machine

/-- A status that is known at issue stands in its register; g0 reads zero all the same (R153). -/
theorem regVal_setStatus_self (x : Ctx) (d : BitVec 5) (v : Word) : regVal (setStatus x d v) d = if d = 0 then 0 else v := by
  unfold setStatus
  split
  · rename_i hd
    rw [hd, regVal_zero]
  · rename_i hd
    exact (regVal_setReg_self x d v).trans (if_neg hd)

/-- A status written at issue changes, beside its register, the wake events alone. -/
theorem setStatus_eq (x : Ctx) (d : BitVec 5) (v : Word) :
    setStatus x d v = { x with regs := (setStatus x d v).regs, sys := { x.sys with evt := (setStatus x d v).sys.evt } } := by
  unfold setStatus
  split
  · rfl
  · unfold latchEvt
    rw [setReg, putReg_regs]

@[simp] theorem setStatus_pc (x : Ctx) (d : BitVec 5) (v : Word) : (setStatus x d v).pc = x.pc := by rw [setStatus_eq]

@[simp] theorem setStatus_held (x : Ctx) (d : BitVec 5) (v : Word) : (setStatus x d v).sys.held = x.sys.held := by rw [setStatus_eq]

/-- A register that waits for a mark is settled. -/
theorem getReg_settleMark_self {x : Ctx} {m : Mark} {r : BitVec 5} (hr : r ≠ 0) (hm : (getReg x r).mark = m) (v : Reg) :
    getReg (settleMark x m r v) r = v := by
  have hlt := r.isLt
  rw [getReg, if_neg hr] at hm
  unfold settleMark settleRegs getReg
  rw [if_neg hr, if_neg hr, if_pos hm]
  simp [Vector.getD, hlt]

theorem settleMark_eq (x : Ctx) (m : Mark) (r : BitVec 5) (v : Reg) :
    settleMark x m r v = { x with regs := (settleMark x m r v).regs, gens := (settleMark x m r v).gens } := by
  unfold settleMark
  split <;> rfl

theorem getReg_latchEvt (x : Ctx) (bits : BitVec 4) (r : BitVec 5) : getReg (latchEvt x bits) r = getReg x r := rfl

theorem getCtx_dropOp (s : State) (n c : Nat) : getCtx (dropOp s n) c = getCtx s c := rfl

theorem findOp_dropOp_self (s : State) (n : Nat) : findOp (dropOp s n) n = none :=
  List.find?_eq_none.2 fun o ho => by simpa using (List.mem_filter.1 ho).2

end Sys2Proof.Machine
end

section
/-! LEAVE and the granting of leave (R249, R535). -/

namespace Sys2Proof.Machine

/-! ### Shares (R535) -/

/-- The units of a share in use depend on the pools alone. -/
theorem shareUsed_congr {s t : State} (h : t.pools = s.pools) (part die : Nat) : shareUsed t part die = shareUsed s part die := by
  unfold shareUsed getPool
  rw [h]

section
variable (s : State) (part die n : Nat)

theorem shareUsed_setPool (p : Pool) : shareUsed (setPool s die p) part die = tabGet 0 p.used part := by
  unfold shareUsed getPool setPool
  rw [tabGet_tabSet_self]

theorem shareUsed_takeUnits : shareUsed (takeUnits s part die n) part die = shareUsed s part die + n :=
  (shareUsed_setPool ..).trans (tabGet_tabSet_self ..)

theorem shareUsed_returnUnits : shareUsed (returnUnits s part die n) part die = shareUsed s part die - n := by
  unfold returnUnits
  split
  · rename_i h
    rw [h, Nat.sub_zero]
  · exact (shareUsed_setPool ..).trans (tabGet_tabSet_self ..)

/-- Units that come back leave no trace in a context but a wake event (R246). -/
theorem runSysOnly_returnUnits (c : Nat) : RunSysOnly (getCtx s c) (getCtx (returnUnits s part die n) c) := by
  unfold returnUnits
  split
  · rfl
  · exact runSysOnly_wakeLeave _ rfl

theorem shareUsed_cancelWait (who : LeaveWho) : shareUsed (cancelWait s die who) part die = shareUsed s part die :=
  shareUsed_setPool ..

end

/-- A request within the capacity of its share is granted as soon as the share has its units free. -/
theorem canGrant_of_le_cap {s : State} {part die n : Nat} (h : n ≤ shareCap s part die) :
    canGrant s part die n = decide (n ≤ shareFree s part die) := by
  simp [canGrant, Nat.not_lt.2 h]

theorem grantUnits_of_le_cap {s : State} {part die n : Nat} (h : n ≤ shareCap s part die) : grantUnits s part die n = n :=
  min_eq_left h

/-! ### The status word (R249) -/

theorem leaveStatus_returned : leaveStatus true false false 0 = 1 := by decide

theorem leaveStatus_tooBig : leaveStatus false true false 0 = 2 := by decide

theorem leaveStatus_already {n : Nat} (h : n < 2 ^ 16) : leaveStatus false false true n = BitVec.ofNat 64 (4 + n * 2 ^ 16) := by
  unfold leaveStatus packWord
  rw [Nat.mod_eq_of_lt h]
  simp only [foldl_field_cons, foldl_field_nil]
  simp

theorem leaveStatus_granted {n : Nat} (h : n < 2 ^ 16) : leaveStatus true false false n = BitVec.ofNat 64 (1 + n * 2 ^ 16) := by
  unfold leaveStatus packWord
  rw [Nat.mod_eq_of_lt h]
  simp only [foldl_field_cons, foldl_field_nil]
  simp

/-! ### LEAVE (R249) -/

theorem shareOf_setCtx (s : State) (c : Nat) (x : Ctx) (d : Nat) : shareOf (setCtx s c x) d = shareOf s d := rfl

theorem shareCap_setCtx (s : State) (c : Nat) (x : Ctx) (part die : Nat) : shareCap (setCtx s c x) part die = shareCap s part die := rfl

/-- The state past a LEAVE of the focus core that returns what is held. -/
def leaveReturned (s : State) (d : BitVec 5) : State :=
  let u := returnUnits (withCur s (passUnit (cur s))) (shareOf s s.focus).1 (shareOf s s.focus).2 (cur s).sys.held.toNat
  setCtx u s.focus (setStatus { getCtx u s.focus with sys := { (getCtx u s.focus).sys with held := 0 } } d 1)

/-- The request of the LEAVE that the focus core issues. -/
def leaveRequest (s : State) (n : Nat) : LeaveReq := { part := (shareOf s s.focus).1, units := n, who := .op s.nextId }

/-- The state past a LEAVE of the focus core that joins the queue of its share. -/
def leaveQueued (s : State) (d : BitVec 5) (n : Nat) : State :=
  let die := (shareOf s s.focus).2
  push (setPool (startOp (withCur s (passUnit (cur s))) s.focus d (unitPc (cur s)) (.leave n)) die
    { getPool s die with waiting := (getPool s die).waiting ++ [leaveRequest s n] }) (.leaveGrant die (shareOf s s.focus).1)

/-- What a LEAVE that goes answers: a return, a refusal of a second reservation or of one beyond its share, or a request. -/
theorem execLeave_of_goes {s : State} {d a : BitVec 5} (h : Goes (cur s) (needs [a] [d])) :
    let n := (regVal (cur s) a).toNat
    let held := (cur s).sys.held.toNat
    execLeave d a s = .next (
      if n = 0 then leaveReturned s d
      else if held ≠ 0 then withCur s (setStatus (passUnit (cur s)) d (leaveStatus false false true held))
      else if shareCap s (shareOf s s.focus).1 (shareOf s s.focus).2 < n ∨ 65535 < n then
        withCur s (setStatus (passUnit (cur s)) d (leaveStatus false true false 0))
      else leaveQueued s d n) := by
  intro n held
  refine issue_some h ?_
  simp only [issuedOf_core, getCtx_setCtx_self, regVal_passUnit, passUnit_sys, shareOf_setCtx, shareCap_setCtx, modCtx_setCtx,
    apply_ite some, n, held]
  congr 1
  simp only [modSys, modCtx, getCtx_setCtx_self, setCtx_setCtx, leaveStatus_returned]
  rfl

section
variable (s : State) (d : BitVec 5) (n : Nat)

theorem returnUnits_focus (part die : Nat) : (returnUnits s part die n).focus = s.focus := by
  unfold returnUnits
  split <;> rfl

theorem cur_leaveReturned :
    let u := returnUnits (withCur s (passUnit (cur s))) (shareOf s s.focus).1 (shareOf s s.focus).2 (cur s).sys.held.toNat
    cur (leaveReturned s d) = setStatus { getCtx u s.focus with sys := { (getCtx u s.focus).sys with held := 0 } } d 1 := by
  intro u
  have hf : (leaveReturned s d).focus = s.focus := returnUnits_focus ..
  unfold cur
  rw [hf]
  exact getCtx_setCtx_self ..

theorem pc_leaveReturned : (cur (leaveReturned s d)).pc = (cur s).pc + 4 := by
  rw [cur_leaveReturned, setStatus_pc, (runSysOnly_returnUnits ..).same Ctx.pc fun _ _ _ => rfl, getCtx_setCtx_self]
  rfl

theorem held_leaveReturned : (cur (leaveReturned s d)).sys.held = 0 := by
  rw [cur_leaveReturned, setStatus_held]

theorem shareUsed_leaveReturned :
    shareUsed (leaveReturned s d) (shareOf s s.focus).1 (shareOf s s.focus).2 =
      shareUsed s (shareOf s s.focus).1 (shareOf s s.focus).2 - (cur s).sys.held.toNat :=
  shareUsed_returnUnits (withCur s (passUnit (cur s))) ..

theorem cur_leaveQueued : cur (leaveQueued s d n) = markReg (passUnit (cur s)) d (.op s.nextId) := by
  show getCtx (setCtx (withCur s (passUnit (cur s))) s.focus (markReg (cur (withCur s (passUnit (cur s)))) d (.op s.nextId))) s.focus = _
  rw [getCtx_setCtx_self]
  exact congrArg (markReg · d (.op s.nextId)) (getCtx_setCtx_self ..)

theorem waiting_leaveQueued :
    (getPool (leaveQueued s d n) (shareOf s s.focus).2).waiting = (getPool s (shareOf s s.focus).2).waiting ++ [leaveRequest s n] :=
  congrArg Pool.waiting (tabGet_tabSet_self ..)

theorem shareUsed_leaveQueued (part : Nat) :
    shareUsed (leaveQueued s d n) part (shareOf s s.focus).2 = shareUsed s part (shareOf s s.focus).2 :=
  shareUsed_setPool ..

end

/-! ### LEAVE_GRANT (R249, R535) -/

section
variable {s : State} {die part n : Nat} {r : LeaveReq} {o : Op}

/-- The state in which a share's first request, that of an operation, has its units. -/
def leaveTaken (s : State) (die part n : Nat) (o : Op) : State :=
  modCtx (takeUnits (cancelWait s die (.op o.id)) part die n) o.core (fun x => { x with sys := { x.sys with held := BitVec.ofNat 16 n } })

theorem getCtx_leaveTaken :
    getCtx (leaveTaken s die part n o) o.core =
      { getCtx s o.core with sys := { (getCtx s o.core).sys with held := BitVec.ofNat 16 n } } :=
  getCtx_modCtx_self ..

theorem execLeaveGrant_waits (hr : headWait s part die = some r) (hn : r.units = n) (hcap : n ≤ shareCap s part die)
    (hfree : shareFree s part die < n) : execLeaveGrant die part s = .next s := by
  have hcan : canGrant s part die n = false := (canGrant_of_le_cap hcap).trans (decide_eq_false (Nat.not_le.2 hfree))
  unfold execLeaveGrant
  simp only [hr, hn, hcan]
  rfl

/-- The state after a LEAVE has been granted: it has its units, and its register the status (R157, R159). -/
def leaveGranted (s : State) (die part n : Nat) (o : Op) (v : Word) : State :=
  push (dropOp (modCtx (leaveTaken s die part n o) o.core (fun x =>
    latchEvt (settleMark x (.op o.id) o.reg { val := v, poison := none, mark := .clear }) 2)) o.id) (.leaveGrant die part)

theorem execLeaveGrant_grants (hr : headWait s part die = some r) (hwho : r.who = .op o.id) (hn : r.units = n) (ho : findOp s o.id = some o)
    (hrun : runsSerial (getCtx s o.core) o.serial = true) (hheld : heldOf s o = 0)
    (hm : (getReg (getCtx s o.core) o.reg).mark = .op o.id) (hcap : n ≤ shareCap s part die) (hfree : n ≤ shareFree s part die) :
    execLeaveGrant die part s = .next (leaveGranted s die part n o (leaveStatus true false false n)) := by
  have hcan : canGrant s part die n = true := (canGrant_of_le_cap hcap).trans (decide_eq_true hfree)
  have hupd : runsSerial (getCtx (takeUnits (cancelWait s die (.op o.id)) part die n) o.core) o.serial = true := hrun
  have hend := endOp_awaited (leaveTaken s die part n o) o (leaveStatus true false false n) ho (by rw [getCtx_leaveTaken]; exact hrun)
    (by rw [getCtx_leaveTaken]; exact hm)
  unfold execLeaveGrant
  simp only [hr, hwho, hn, ho, hheld, hcan, grantUnits_of_le_cap hcap, updAct_live _ _ _ _ hupd]
  exact congrArg (fun u => Host.Outcome.next (push u (.leaveGrant die part))) hend

theorem getCtx_leaveGranted (v : Word) :
    getCtx (leaveGranted s die part n o v) o.core =
      latchEvt (settleMark (getCtx (leaveTaken s die part n o) o.core) (.op o.id) o.reg { val := v, poison := none, mark := .clear }) 2 := by
  rw [leaveGranted, getCtx_push, getCtx_dropOp, getCtx_modCtx_self]

theorem held_leaveGranted (v : Word) : (getCtx (leaveGranted s die part n o v) o.core).sys.held = BitVec.ofNat 16 n := by
  rw [getCtx_leaveGranted, settleMark_eq, getCtx_leaveTaken]
  rfl

theorem getReg_leaveGranted (hreg : o.reg ≠ 0) (hm : (getReg (getCtx s o.core) o.reg).mark = .op o.id) (v : Word) :
    getReg (getCtx (leaveGranted s die part n o v) o.core) o.reg = { val := v, poison := none, mark := .clear } := by
  rw [getCtx_leaveGranted, getReg_latchEvt]
  refine getReg_settleMark_self hreg ?_ _
  rw [getCtx_leaveTaken]
  exact hm

theorem shareUsed_leaveGranted (v : Word) : shareUsed (leaveGranted s die part n o v) part die = shareUsed s part die + n := by
  have hp : (leaveGranted s die part n o v).pools = (takeUnits (cancelWait s die (.op o.id)) part die n).pools := by
    simp only [leaveGranted, leaveTaken, push_pools, dropOp_pools, modCtx_pools]
  rw [shareUsed_congr hp, shareUsed_takeUnits, shareUsed_cancelWait]

theorem findOp_leaveGranted (v : Word) : findOp (leaveGranted s die part n o v) o.id = none := findOp_dropOp_self ..

end

/-- Settles O12: a LEAVE is one of the four cases of `execLeave_of_goes`, and a grant takes the units and ends the LEAVE. -/
theorem leaveUnits_hold : Obligations.LeaveUnits := by
  unfold Obligations.LeaveUnits
  refine ⟨fun s d a h => ?_, fun s die part n r o hr hwho hn ho _ hmax hrun hheld hm hreg hcap => ⟨fun hfree => ?_, fun hfree => ?_⟩⟩
  · intro x c n held part die
    have hexec : exec (.leave d a) s = _ := execLeave_of_goes h
    refine ⟨fun hn => ⟨leaveReturned s d, hexec.trans (congrArg _ (if_pos hn)), held_leaveReturned .., pc_leaveReturned .., ?_,
      shareUsed_leaveReturned ..⟩, fun hn hh => ?_, fun hn hh hbig => ?_, fun hn hh hcap hmax => ⟨leaveQueued s d n, ?_, cur_leaveQueued ..,
        waiting_leaveQueued .., shareUsed_leaveQueued .., rfl⟩⟩
    · rw [cur_leaveReturned, regVal_setStatus_self]
    · have hlt : held < 2 ^ 16 := x.sys.held.isLt
      rw [hexec, if_neg hn, if_pos hh, leaveStatus_already hlt]
    · exact hexec.trans (congrArg _ ((if_neg hn).trans ((if_neg (not_not.2 hh)).trans (if_pos hbig))))
    · have hfits : ¬ (shareCap s part die < n ∨ 65535 < n) := by omega
      exact hexec.trans (congrArg _ ((if_neg hn).trans ((if_neg (not_not.2 hh)).trans (if_neg hfits))))
  · have hlt : n < 2 ^ 16 := by omega
    rw [← leaveStatus_granted hlt]
    exact ⟨_, execLeaveGrant_grants hr hwho hn ho hrun hheld hm hcap hfree, held_leaveGranted _, getReg_leaveGranted hreg hm _,
      shareUsed_leaveGranted _, findOp_leaveGranted _⟩
  · exact execLeaveGrant_waits hr hn hcap hfree

end Sys2Proof.Machine
end

section
/-! Snapshots: SNAP, the markers, the packets across a cut, and its end (R248, R580-R582). -/

namespace Sys2Proof.Machine

/-! ### Cuts and latches (R580, R581) -/

theorem tag_of_findCut {s : State} {tag : Nat} {k : Cut} (h : findCut s tag = some k) : k.tag = tag := by
  simpa using List.find?_some h

/-- A cut that is changed under its tag is found with its change. -/
theorem findCut_modCut {s : State} {tag : Nat} {k : Cut} (h : findCut s tag = some k) {f : Cut → Cut} (hf : ∀ k, (f k).tag = k.tag) :
    findCut (modCut s tag f) tag = some (f k) := by
  have hsame : (fun k : Cut => k.tag == tag) ∘ (fun k => if k.tag = tag then f k else k) = fun k => k.tag == tag := by
    funext k
    simp only [Function.comp_apply]
    split
    · rw [hf]
    · rfl
  have hmap : findCut (modCut s tag f) tag = (findCut s tag).map (fun k => if k.tag = tag then f k else k) := by
    rw [findCut, modCut, List.find?_map, hsame]
    rfl
  rw [hmap, h]
  exact congrArg some (if_pos (tag_of_findCut h))

/-- What a block latches for a tag. -/
def newLatch (s : State) (tag : Nat) (b : SnapBlock) : SnapLatch :=
  { tag := tag, blk := b, moment := s.nextId + 1, values := blockValues s b }

/-- A cut with one more latch. -/
def addLatch (l : SnapLatch) (k : Cut) : Cut := { k with latched := k.latched ++ [l] }

theorem latchOf_addLatch {k : Cut} {l : SnapLatch} (h : latchOf k l.blk = none) : latchOf (addLatch l k) l.blk = some l := by
  unfold latchOf addLatch at *
  simp [List.find?_append, h]

/-- The state in which a block has latched for a tag. -/
def latchedState (s : State) (tag : Nat) (b : SnapBlock) : State :=
  { modCut s tag (addLatch (newLatch s tag b)) with nextId := s.nextId + 1, fresh := s.fresh + 512 }

section
variable {s : State} {tag : Nat} {b : SnapBlock} {k : Cut}

theorem latchBlock_of_noCut (h : findCut s tag = none) : latchBlock s tag b = s := by
  unfold latchBlock
  simp only [h]

/-- A block latches once for a tag. -/
theorem latchBlock_of_latched (h : findCut s tag = some k) (hl : (latchOf k b).isSome = true) : latchBlock s tag b = s := by
  unfold latchBlock
  simp only [h, hl, if_true]

theorem latchBlock_of_open (h : findCut s tag = some k) (hl : latchOf k b = none) : latchBlock s tag b = latchedState s tag b := by
  unfold latchBlock
  simp only [h, hl]
  rfl

theorem findCut_latchedState (h : findCut s tag = some k) : findCut (latchedState s tag b) tag = some (addLatch (newLatch s tag b) k) :=
  findCut_modCut (f := addLatch (newLatch s tag b)) h fun _ => rfl

end

/-! ### SNAP (R248, R580) -/

/-- A cut that no block has latched for, with the cores that have begun or joined it. -/
def newCut (tag : Nat) (cores : List Nat) : Cut := { tag := tag, cores := cores, latched := [], recorded := [], overflow := [] }

/-- The state past a SNAP of the focus core, with the new cut among the others. -/
def cutBegun (s : State) (tag : Nat) : State :=
  let t := withCur s (passUnit (cur s))
  modCut { t with cuts := t.cuts ++ [newCut tag []] } tag (fun k => { k with cores := k.cores ++ [s.focus] })

theorem findCut_cutBegun {s : State} {tag : Nat} (h : findCut s tag = none) : findCut (cutBegun s tag) tag = some (newCut tag [s.focus]) := by
  refine findCut_modCut (k := newCut tag []) ?_ fun _ => rfl
  unfold findCut at *
  simp [List.find?_append, h, newCut]

/-- The markers of a cut, and its end (R580, R582). -/
def cutEvents (s : State) (tag : Nat) : List Event :=
  allBlocks.map (fun b => .snapshotMarkerArrive tag (localBlock s b)) ++ [.cutComplete tag]

/-- A SNAP of a new tag begins its cut: the core latches, and markers go to every block. -/
theorem execSnap_begins {s : State} {p : BitVec 12} (h : Goes (cur s) (needs [] [] (priv := true)))
    (hopen : s.cuts.any (fun k => k.cores.contains s.focus && !allLatched k) = false) (hcut : findCut s p.toNat = none)
    (hrep : s.cutReports.any (fun r => r.tag == p.toNat) = false) (hlen : s.cuts.length < 4) :
    execSnap p s = .next (pushAll (latchedState (cutBegun s p.toNat) p.toNat (.core s.focus)) (cutEvents s p.toNat)) := by
  refine issue_some h ?_
  have hcut' : findCut (withCur s (passUnit (cur s))) p.toNat = none := hcut
  have hlatch := latchBlock_of_open (b := .core s.focus) (findCut_cutBegun hcut) rfl
  simp only [issuedOf_core, setCtx_cuts, setCtx_cutReports, hopen, hcut', hrep, Nat.not_le.2 hlen, Bool.false_eq_true, if_false,
    Option.isSome_none]
  exact congrArg (fun u => some (pushAll u (cutEvents s p.toNat))) hlatch

/-! ### Packets across a cut (R582) -/

section
variable {s : State} {k : Cut} {m : CutPacket}

theorem recordPacket_ignored (h : findCut s k.tag = some k) (hm : latchOf k m.receiver = none ∨ postCut k m = true) :
    recordPacket s k.tag m = s := by
  unfold recordPacket
  rcases hm with hm | hm <;> simp [h, hm]

theorem recordPacket_recorded (h : findCut s k.tag = some k) (hl : (latchOf k m.receiver).isSome = true) (hpre : postCut k m = false)
    (hnew : (m.receiver, m.n) ∉ k.recorded) (hroom : buffered s m.receiver < snapDepth) :
    recordPacket s k.tag m = modCut s k.tag (fun k => { k with recorded := k.recorded ++ [(m.receiver, m.n)] }) := by
  have hsome : (latchOf k m.receiver).isNone = false := by simpa [Option.isSome_iff_ne_none] using hl
  unfold recordPacket
  simp only [h, hsome, hpre, List.contains_eq_mem, hnew, decide_false, Bool.or_false, Bool.false_eq_true, if_false, Nat.not_le.2 hroom]

/-- With a single cut in progress, a single packet of a number on its way to a block meets that cut. -/
theorem execSnapshotPacketRecord_single {n : Nat} {blk : SnapBlock} (hk : s.cuts = [k])
    (hm : (packetsInFlight s).filter (fun m => m.n == n && m.receiver == blk) = [m]) :
    execSnapshotPacketRecord n blk s = .next (recordPacket s k.tag m) := by
  unfold execSnapshotPacketRecord
  rw [hm]
  simp [hk, done]

theorem packet_of_filter {n : Nat} {blk : SnapBlock} (hm : (packetsInFlight s).filter (fun m => m.n == n && m.receiver == blk) = [m]) :
    m.n = n ∧ m.receiver = blk := by
  have hmem : m ∈ (packetsInFlight s).filter (fun m => m.n == n && m.receiver == blk) := hm ▸ List.mem_singleton_self m
  simpa using (List.mem_filter.1 hmem).2

end

/-! ### The end of a cut (R582) -/

section
variable {s : State} {tag : Nat} {k : Cut}

theorem execCutComplete_of_noCut (h : findCut s tag = none) : execCutComplete tag s = .next s := by
  unfold execCutComplete
  simp only [h, done]

theorem execCutComplete_waits (h : findCut s tag = some k)
    (hw : allLatched k = false ∨ (packetsInFlight s).any (fun m => !postCut k m) = true) :
    execCutComplete tag s = .next (push s (.cutComplete tag)) := by
  unfold execCutComplete
  rcases hw with hw | hw <;> simp [h, hw, done]

/-- The state in which a cut has been reported. -/
def cutReported (s : State) (k : Cut) : State :=
  { s with
    cuts := s.cuts.filter (fun c => c.tag != k.tag),
    cutReports := s.cutReports ++ [{ tag := k.tag, complete := k.overflow.isEmpty, latched := k.latched, recorded := k.recorded }] }

theorem execCutComplete_reports (h : findCut s tag = some k) (hl : allLatched k = true)
    (hp : (packetsInFlight s).any (fun m => !postCut k m) = false) : execCutComplete tag s = .next (cutReported s k) := by
  unfold execCutComplete
  simp only [h, hl, hp, Bool.not_true, Bool.or_false, Bool.false_eq_true, if_false, cutReported, tag_of_findCut h, done]

theorem findCut_cutReported (s : State) (k : Cut) : findCut (cutReported s k) k.tag = none :=
  List.find?_eq_none.2 fun c hc => by simpa using (List.mem_filter.1 hc).2

end

/-- Settles O52: each instruction and event of a cut ends in one of the states above, whose fields are read off. -/
theorem snapshots : Obligations.Snapshots := by
  unfold Obligations.Snapshots
  intro s p tag n blk
  refine ⟨fun h _ hlen hopen hcut hrep => ?_, fun h => ?_, fun k h => ⟨fun hl => ?_, fun hl => ?_, fun m hk htag hm => ?_, fun hw => ?_,
    fun hl hp => ?_⟩⟩
  · have hfind := findCut_latchedState (b := .core s.focus) (findCut_cutBegun hcut)
    have hlatch := latchOf_addLatch (k := newCut p.toNat [s.focus]) (l := newLatch (cutBegun s p.toNat) p.toNat (.core s.focus)) rfl
    refine ⟨_, _, execSnap_begins h hopen hcut hrep hlen, hfind, rfl, ?_, ?_, ?_, fun b hb => ?_⟩
    · exact Option.isSome_iff_exists.2 ⟨_, hlatch⟩
    · exact congrArg Ctx.pc (getCtx_setCtx_self s s.focus (passUnit (cur s)))
    · exact List.mem_append_right _ (List.mem_append_right _ (List.mem_singleton_self _))
    · exact List.mem_append_right _ (List.mem_append_left _ (List.mem_map.2 ⟨b, hb, rfl⟩))
  · exact ⟨congrArg Host.Outcome.next (latchBlock_of_noCut h), execCutComplete_of_noCut h⟩
  · exact congrArg Host.Outcome.next (latchBlock_of_latched h hl)
  · have hexec : exec (.snapshotMarkerArrive tag blk) s = .next (latchedState s tag blk) :=
      congrArg Host.Outcome.next (latchBlock_of_open h hl)
    exact ⟨_, _, _, hexec, findCut_latchedState h, latchOf_addLatch hl, rfl, rfl, rfl, rfl, rfl⟩
  · subst htag
    obtain ⟨rfl, rfl⟩ := packet_of_filter hm
    have hexec : exec (.snapshotPacketRecord m.n m.receiver) s = _ := execSnapshotPacketRecord_single hk hm
    refine ⟨fun hi => hexec.trans (congrArg _ (recordPacket_ignored h hi)), fun hl hpre hnew hroom =>
      ⟨_, hexec.trans (congrArg _ (recordPacket_recorded h hl hpre hnew hroom)), ?_⟩⟩
    simp [modCut, hk]
  · exact execCutComplete_waits h hw
  · obtain rfl := tag_of_findCut h
    exact ⟨_, execCutComplete_reports h hl hp, findCut_cutReported s k, rfl⟩

end Sys2Proof.Machine
end

section
/-! WFE, IFLUSH and HALT (R246-R248), FENCE and DRAIN (R268-R270). -/

namespace Sys2Proof.Machine

/-! ### Units past their words -/

/-- What waits at the boundary before a unit without prefixes differs in its wait alone (R158). -/
theorem waitAt_passUnit {x : Ctx} (h : x.pfx = none) (c : Nat) (w : Wait) : waitAt (issuedOf x c) w (passUnit x) = { x with wait := w } := by
  cases x
  cases h
  rfl

theorem queuedUnits_passUnit (x : Ctx) : queuedUnits (passUnit x) = queuedUnits x := by
  simp only [queuedUnits, passUnit]

theorem pendingUnits_passUnit (x : Ctx) : pendingUnits (passUnit x) = pendingUnits x := by
  unfold pendingUnits
  rw [runningOut_passUnit, queuedUnits_passUnit]
  rfl

/-- The writes of a task that are still to be performed are the same past the unit. -/
theorem writesOpen_passUnit (s : State) : writesOpen (withCur s (passUnit (cur s))) s.focus = writesOpen s s.focus := by
  have hgen : genOf (passUnit (cur s)) = genOf (cur s) := rfl
  unfold writesOpen
  dsimp only
  rw [getCtx_setCtx_self, pendingUnits_passUnit, hgen]
  rfl

theorem drained_passUnit (s : State) (m : BitVec 3) : drained (withCur s (passUnit (cur s))) s.focus m = drained s s.focus m := by
  have hserial : serialOf (passUnit (cur s)) = serialOf (cur s) := rfl
  unfold drained
  rw [getCtx_setCtx_self, hserial]
  rfl

/-! ### WFE, IFLUSH and HALT (R246-R248) -/

section
variable {s : State} {m : BitVec 4}

theorem execWfe_latched (h : Goes (cur s) (needs [] [])) (hm : (cur s).sys.evt &&& m ≠ 0) :
    execWfe m s = .next (withCur s { passUnit (cur s) with sys := { (cur s).sys with evt := (cur s).sys.evt &&& ~~~m } }) :=
  issue_some h (by
    simp only [issuedOf_core, getCtx_setCtx_self, passUnit_sys, if_pos hm, modCtx_setCtx]
    rfl)

theorem execWfe_waits (h : Goes (cur s) (needs [] [])) (hm : (cur s).sys.evt &&& m = 0) (hpfx : (cur s).pfx = none) :
    execWfe m s = .next (push (withCur s { cur s with wait := .wfe m }) (.wfeWake s.focus)) :=
  issue_some h (by simp [issuedOf_core, hm, waitAt_passUnit hpfx])

theorem execWfeWake_latched {c : Nat} (hw : (getCtx s c).wait = .wfe m) (hm : (getCtx s c).sys.evt &&& m ≠ 0) :
    execWfeWake c s = .next (setCtx s c { getCtx s c with
      pc := (getCtx s c).pc + 4, wait := .none, sys := { (getCtx s c).sys with evt := (getCtx s c).sys.evt &&& ~~~m } }) := by
  unfold execWfeWake
  simp only [hw, if_pos hm]
  rfl

theorem execIflush_done (h : Goes (cur s) (needs [] [])) (hw : writesOpen s s.focus = false) :
    execIflush s = .next (modCore (withCur s (passUnit (cur s))) s.focus (fun k => { k with icache := [] })) :=
  issue_some h (by simp [issuedOf_core, writesOpen_passUnit, hw])

theorem execIflush_waits (h : Goes (cur s) (needs [] [])) (hw : writesOpen s s.focus = true) : execIflush s = .next s :=
  issue_none h (by simp [issuedOf_core, writesOpen_passUnit, hw])

end

/-! ### DRAIN (R270) -/

section
variable {s : State} {m : BitVec 3}

theorem execDrain_passes (h : Goes (cur s) (needs [] [])) (hd : drained s s.focus m = true) :
    execDrain m s = .next (withCur s (passUnit (cur s))) :=
  issue_some h (by simp [issuedOf_core, drained_passUnit, hd])

theorem execDrain_waits (h : Goes (cur s) (needs [] [])) (hd : drained s s.focus m = false) (hpfx : (cur s).pfx = none) :
    execDrain m s = .next (push (withCur s { cur s with wait := .drain m }) (.drainComplete s.focus)) :=
  issue_some h (by simp [issuedOf_core, drained_passUnit, hd, waitAt_passUnit hpfx])

theorem execDrainComplete_passes {c : Nat} (hw : (getCtx s c).wait = .drain m) (hd : drained s c m = true) :
    execDrainComplete c s = .next (setCtx s c { getCtx s c with pc := (getCtx s c).pc + 4, wait := .none }) := by
  unfold execDrainComplete
  simp only [hw, hd, if_true]
  rfl

theorem execDrainComplete_waits {c : Nat} (hw : (getCtx s c).wait = .drain m) (hd : drained s c m = false) :
    execDrainComplete c s = .next (push s (.drainComplete c)) := by
  unfold execDrainComplete
  simp only [hw, hd]
  rfl

end

/-! ### FENCE at issue (R268) -/

section
variable (s : State) (d : BitVec 5) (sc : BitVec 3) (o : BitVec 2)

/-- The context past a FENCE, which waits as a fence of its activation. -/
def fencedCtx : Ctx :=
  { markReg (passUnit (cur s)) d (.op s.nextId) with
    fences := (cur s).fences ++ [{
      id := s.nextId, reg := d, scope := sc.toNat, acq := o.getLsbD 0, rel := o.getLsbD 1, held := (cur s).heldStream }] }

theorem execFence_of_goes (h : Goes (cur s) (needs [] [d])) :
    execFence d sc o s = .next (push (bumpId (withCur s (fencedCtx s d sc o))) (.fenceComplete s.focus)) :=
  issue_some h (by
    simp only [issuedOf_core, getCtx_setCtx_self, modCtx_setCtx]
    rfl)

end

/-! ### FENCE_COMPLETE (R268, R269) -/

/-- The status of a fence: COMPLETE, LOST, REFUSED and the saturated count of failures (R269). -/
theorem fenceStatus_eq (t : Tally) :
    fenceStatus t = BitVec.ofNat 64 (1 + t.lost.toNat * 2 + t.refused.toNat * 4 + min t.fails 0xFFFF * 2 ^ 16) := by
  unfold fenceStatus packWord
  simp only [foldl_field_cons, foldl_field_nil]
  simp

/-- The live generations with the failures of one of them forgotten. -/
def clearTally (g : Nat) (gens : List LiveGen) : List LiveGen := gens.map (fun e => if e.gen = g then { e with tally := noFails } else e)

theorem tallyOf_clearTally (g : Nat) (gens : List LiveGen) : tallyOf (clearTally g gens) g = noFails := by
  unfold tallyOf clearTally
  induction gens with
  | nil => rfl
  | cons e gens ih =>
    by_cases h : e.gen = g
    · simp [h]
    · simpa [h] using ih

/-- A single fence of a context that is ready is told the failures of its task, which are forgotten. -/
theorem completeFences_single {s : State} {c : Nat} {x : Ctx} {f : Fence} (hf : x.fences = [f]) (hr : fenceReady s c x f = true)
    (gens : List LiveGen) :
    completeFences s c x gens =
      ({ deliver f.id f.reg (fenceStatus (tallyOf gens (genOf x))) x with fences := [] }, clearTally (genOf x) gens) := by
  unfold completeFences clearTally
  simp [hf, hr]

/-- Noting the releases of fences changes nothing but the releases carried (R322). -/
theorem noteFences_eq (s : State) (c : Nat) (t : State) : noteFences s c t = { t with carried := (noteFences s c t).carried } := by
  unfold noteFences
  refine foldl_induction (motive := fun u : State => u = { t with carried := u.carried }) (fun u f hu => ?_) rfl
  unfold releasedAt
  dsimp only
  split
  · rw [hu]
  · exact hu

section
variable {s : State} {c : Nat} {f : Fence}

/-- The core whose single fence has completed. -/
def fencesDone (f : Fence) (k : Core) : Core :=
  { k with
    ctx := { deliver f.id f.reg (fenceStatus (tallyOf k.live (genOf k.ctx))) k.ctx with fences := [] },
    live := clearTally (genOf k.ctx) k.live }

theorem coreFences_single {k : Core} (hs : k.susp = none) (hf : k.ctx.fences = [f]) (hr : fenceReady s c k.ctx f = true) :
    coreFences s c k = fencesDone f k := by
  unfold coreFences fencesDone
  simp only [hs, completeFences_single hf hr]

/-- The state in which the single fence of a core has completed. -/
def fenceDone (s : State) (c : Nat) (f : Fence) : State := noteFences s c (setCore s c (fencesDone f (getCore s c)))

theorem getCore_fenceDone : getCore (fenceDone s c f) c = fencesDone f (getCore s c) := by
  rw [fenceDone, noteFences_eq]
  exact getCore_setCore_self ..

theorem fenceDone_agenda : (fenceDone s c f).agenda = s.agenda := by
  rw [fenceDone, noteFences_eq]
  rfl

theorem execFenceComplete_single (hs : (getCore s c).susp = none) (hf : (getCtx s c).fences = [f])
    (hr : fenceReady s c (getCtx s c) f = true) : execFenceComplete c s = .next (fenceDone s c f) := by
  have hdone : noteFences s c (modCore s c (coreFences s c)) = fenceDone s c f := by
    rw [fenceDone, modCore, coreFences_single hs hf hr]
  unfold execFenceComplete
  rw [hdone]
  simp [getCore_fenceDone, fencesDone, hs, done]

/-- The register of a completed fence holds its status. -/
theorem getReg_fencesDone {k : Core} (hreg : f.reg ≠ 0) (hm : (getReg k.ctx f.reg).mark = .op f.id) :
    getReg (fencesDone f k).ctx f.reg =
      { val := fenceStatus (tallyOf k.live (genOf k.ctx)), poison := none, mark := .clear } := by
  unfold fencesDone
  rw [deliver_marked _ _ _ _ hm]
  exact getReg_settleMark_self hreg hm _

end

/-- Settles O11: the cases of each instruction and event by what it waits for. -/
theorem waitsAndFences : Obligations.WaitsAndFences := by
  unfold Obligations.WaitsAndFences
  refine ⟨fun s m c => ⟨fun h => ⟨execWfe_latched h, execWfe_waits h, execIflush_done h, execIflush_waits h⟩, fun h => ?_,
    execWfeWake_latched⟩, fun s d sc o m c f => ⟨fun h => ?_, fun hs hf hr hreg hm => ?_, fun h => ⟨execDrain_passes h, execDrain_waits h⟩,
    fun hw => ⟨execDrainComplete_passes hw, execDrainComplete_waits hw⟩⟩⟩
  · have hhalt : execHalt s = _ := issue_some h rfl
    exact hhalt
  · exact ⟨_, execFence_of_goes s d sc o h, rfl, rfl, getCtx_setCtx_self ..⟩
  · refine ⟨_, execFenceComplete_single hs hf hr, ?_⟩
    rw [getCtx, getCore_fenceDone, ← fenceStatus_eq]
    exact ⟨rfl, getReg_fencesDone hreg hm, tallyOf_clearTally .., fenceDone_agenda⟩

end Sys2Proof.Machine
end

section
/-! Accesses in flight and their bytes (R265-R267, R330): what a stage, an answer and the end of an access leave of the state, and the
bytes that a scalar access reads and writes. -/

namespace Sys2Proof.Machine

/-! ### Bytes of memories (R2, R265) -/

@[simp] theorem length_memRead (m : Memory) (a n : Nat) : (memRead m a n).length = n := by
  rw [memRead, List.length_map, List.length_range]

@[simp] theorem length_physRead (s : State) (pa n : Nat) : (physRead s pa n).length = n := by
  rw [physRead, List.length_map, List.length_range]

/-- n bytes make a number below 256^n. -/
theorem leNat_lt (bs : List Byte) : leNat bs < 2 ^ (8 * bs.length) := by
  induction bs with
  | nil => exact Nat.one_pos
  | cons b r ih =>
    have hb := b.isLt
    have hpow : 2 ^ (8 * (b :: r).length) = 256 * 2 ^ (8 * r.length) := by
      rw [List.length_cons, Nat.mul_succ, Nat.pow_add]
      exact Nat.mul_comm ..
    rw [leNat, hpow]
    omega

theorem getElem_leBytes {n i : Nat} (v : Nat) (h : i < (leBytes n v).length) : (leBytes n v)[i] = BitVec.ofNat 8 (v / 256 ^ i) := by
  induction n generalizing v i with
  | zero => exact absurd h (Nat.not_lt_zero i)
  | succ n ih =>
    cases i with
    | zero => simp [leBytes]
    | succ i => simp [leBytes, ih, Nat.div_div_eq_div_mul, pow_succ']

/-- A number that fits its width, read as a two's complement number. -/
theorem sextNat_of_lt {w v : Nat} (h : v < 2 ^ w) : sextNat w v = if v < 2 ^ (w - 1) then (v : Int) else (v : Int) - 2 ^ w := by
  rw [sextNat, Nat.mod_eq_of_lt h]

/-- Bytes extended to a register: negative where the extension is signed and the highest bit is set (R265). -/
theorem extendBytes_eq (bs : List Byte) (sx : Bool) :
    extendBytes bs sx =
      if sx = true ∧ 2 ^ (8 * bs.length - 1) ≤ leNat bs then BitVec.ofInt 64 (leNat bs - 2 ^ (8 * bs.length))
      else BitVec.ofNat 64 (leNat bs) := by
  unfold extendBytes
  dsimp only
  rw [sextNat_of_lt (leNat_lt bs)]
  cases sx
  · simp
  · by_cases h : leNat bs < 2 ^ (8 * bs.length - 1)
    · simp [h, BitVec.ofInt_natCast]
    · simp [h, Nat.le_of_not_lt h]

/-- The bytes that an atomic writes are as many as the old ones. -/
@[simp] theorem length_atomBytes (op : Nat) (old : List Byte) (x e : Word) : (atomBytes op old x e).length = old.length :=
  length_leBytes ..

/-! ### Accesses in flight (R265, R330) -/

theorem findAcc_dropAcc_self (s : State) (n : Nat) : findAcc (dropAcc s n) n = none :=
  List.find?_eq_none.2 fun a ha => by simpa using (List.mem_filter.1 ha).2

/-- An access keeps its name at another stage. -/
theorem findAcc_stageAcc {s : State} {n : Nat} {a : Access} (h : findAcc s n = some a) (st : AccStage) :
    findAcc (stageAcc s n st) n = some { a with stage := st, sender := (answerer a).map (fun b => (b, s.nextId)) } := by
  have hid : a.id = n := by simpa using List.find?_some h
  have hcomp : ((fun r : Access => r.id == n) ∘ fun r =>
      if r.id = n then { r with stage := st, sender := (answerer r).map (fun b => (b, s.nextId)) } else r) = fun r => r.id == n := by
    funext r
    by_cases hr : r.id = n <;> simp [hr]
  unfold findAcc at h
  unfold findAcc stageAcc
  rw [List.find?_map, hcomp, h, Option.map_some, if_pos hid]

/-- The accesses in flight and the agenda are the same. -/
structure SameTraffic (s t : State) : Prop where
  accs : t.accs = s.accs
  agenda : t.agenda = s.agenda

theorem SameTraffic.refl (s : State) : SameTraffic s s := ⟨rfl, rfl⟩

theorem SameTraffic.trans {s t u : State} (h : SameTraffic s t) (g : SameTraffic t u) : SameTraffic s u :=
  ⟨g.accs.trans h.accs, g.agenda.trans h.agenda⟩

theorem sameTraffic_foldl {α : Type} {f : State → α → State} (hf : ∀ t a, SameTraffic t (f t a)) (l : List α) (s : State) :
    SameTraffic s (l.foldl f s) :=
  foldl_induction (motive := SameTraffic s) (fun t a ht => ht.trans (hf t a)) (.refl s)

/-- An access has its outcome, and the answer is on its way (R265, R330). -/
def Answered (s t : State) (n : Nat) (st : AccStage) : Prop :=
  (∃ e, findAcc t n = some e ∧ e.stage = st) ∧ t.agenda = s.agenda ++ [Event.loadResponse n]

theorem answered_stageAcc {s t : State} {n : Nat} {a : Access} (h : findAcc s n = some a) (ht : SameTraffic s t) (st : AccStage) :
    Answered s (push (stageAcc t n st) (.loadResponse n)) n st := by
  have h' : findAcc t n = some a := by rwa [findAcc, ht.accs]
  exact ⟨⟨_, findAcc_stageAcc h' st, rfl⟩, congrArg (· ++ [Event.loadResponse n]) ht.agenda⟩

/-- A release lists writes that it has left unperformed, and nothing else changes (R322). -/
theorem releasedAt_eq (s : State) (c scope moment : Nat) :
    releasedAt s c scope moment = { s with carried := (releasedAt s c scope moment).carried } := by
  unfold releasedAt
  dsimp only
  split <;> rfl

/-- The state after the release of an atomic that releases, as it is for one that does not (R322). -/
def maybeReleased (rel : Bool) (s : State) (c scope moment : Nat) : State := if rel then releasedAt s c scope moment else s

section
variable (rel : Bool) (s : State) (c scope moment : Nat)

theorem maybeReleased_eq :
    maybeReleased rel s c scope moment = { s with carried := (maybeReleased rel s c scope moment).carried } := by
  cases rel
  · rfl
  · exact releasedAt_eq s c scope moment

theorem maybeReleased_cores : (maybeReleased rel s c scope moment).cores = s.cores := by
  rw [maybeReleased_eq]

theorem maybeReleased_focus : (maybeReleased rel s c scope moment).focus = s.focus := by
  rw [maybeReleased_eq]

theorem sameMem_maybeReleased : SameMem s (maybeReleased rel s c scope moment) := by
  rw [maybeReleased_eq]
  exact ⟨fun _ => rfl, fun _ => rfl⟩

theorem sameTraffic_maybeReleased : SameTraffic s (maybeReleased rel s c scope moment) := by
  rw [maybeReleased_eq]
  exact ⟨rfl, rfl⟩

end

/-! ### Scratchpads written (R266) -/

theorem spad_spadWrite (s : State) (c off : Nat) (bs : List Byte) :
    (getCore (spadWrite s c off bs) c).spad = memWrite (getCore s c).spad off bs := by
  rw [spadWrite, getCore_modCore_self]

theorem getCtx_spadWrite_self (s : State) (c off : Nat) (bs : List Byte) : getCtx (spadWrite s c off bs) c = getCtx s c := by
  rw [getCtx, spadWrite, getCore_modCore_self]
  rfl

/-- Outside n bytes of the scratchpad of a core, and on every other core, nothing is written, and no byte of memory. -/
def SpadFrame (s t : State) (c off n : Nat) : Prop :=
  (∀ p, p < off ∨ off + n ≤ p → memGet (getCore t c).spad p = memGet (getCore s c).spad p) ∧
    (∀ d ≠ c, getCore t d = getCore s d) ∧ SameMem s t

section
variable {s t : State} {c off n : Nat}

theorem SpadFrame.refl (s : State) (c off n : Nat) : SpadFrame s s c off n :=
  ⟨fun _ _ => rfl, fun _ _ => rfl, fun _ => rfl, fun _ => rfl⟩

/-- What changes neither a core nor a byte of memory keeps the frame. -/
theorem SpadFrame.congr (h : SpadFrame s t c off n) {u : State} (hc : u.cores = t.cores) (hm : SameMem t u) : SpadFrame s u c off n := by
  obtain ⟨hspad, hcores, hmem⟩ := h
  refine ⟨fun p hp => ?_, fun d hd => (getCore_of_cores hc d).trans (hcores d hd), sameMem_trans hmem hm⟩
  rw [getCore_of_cores hc]
  exact hspad p hp

theorem spadFrame_setCtx (s : State) (c off n : Nat) (x : Ctx) : SpadFrame s (setCtx s c x) c off n :=
  ⟨fun p _ => by rw [getCore_setCtx_self], fun _ hd => getCore_setCtx_ne s c _ x hd, fun _ => rfl, fun _ => rfl⟩

/-- A range that is written in the scratchpad of a core reads back. -/
theorem memRead_spadWrite_self (s : State) (c off : Nat) (bs : List Byte) :
    memRead (getCore (spadWrite s c off bs) c).spad off bs.length = bs := by
  rw [spad_spadWrite, memRead_memWrite_self]

theorem SpadFrame.setCtx (h : SpadFrame s t c off n) (x : Ctx) : SpadFrame s (setCtx t c x) c off n := by
  obtain ⟨hspad, hcores, hmem⟩ := h
  refine ⟨fun p hp => ?_, fun d hd => (getCore_setCtx_ne t c d x hd).trans (hcores d hd), hmem⟩
  rw [getCore_setCtx_self]
  exact hspad p hp

theorem SpadFrame.spadWrite (h : SpadFrame s t c off n) {bs : List Byte} (hbs : bs.length = n) :
    SpadFrame s (spadWrite t c off bs) c off n := by
  obtain ⟨hspad, hcores, hmem⟩ := h
  refine ⟨fun p hp => ?_, fun d hd => (getCore_modCore_ne t _ hd).trans (hcores d hd), hmem⟩
  rw [spad_spadWrite, memGet_memWrite_of_outside _ _ _ _ (hbs ▸ hp), hspad p hp]

end

end Sys2Proof.Machine
end

section
/-! Loads and stores on the local scratchpad and the supervisor area, and misaligned accesses (R265-R267, R541, R542). -/

namespace Sys2Proof.Machine

/-! ### Past the unit's words -/

/-- The state in which the unit of the core that runs has passed its words. -/
abbrev pastUnit (s : State) : State := withCur s (passUnit (cur s))

theorem fenceStuck_passUnit (x : Ctx) (f : Fence) : fenceStuck (passUnit x) f = fenceStuck x f := by
  unfold fenceStuck
  rw [runningOut_passUnit, queuedUnits_passUnit]
  rfl

@[simp] theorem holdsLoads_passUnit (x : Ctx) : holdsLoads (passUnit x) = holdsLoads x := by
  unfold holdsLoads
  simp only [fenceStuck_passUnit]
  rfl

@[simp] theorem holdsStores_passUnit (x : Ctx) : holdsStores (passUnit x) = holdsStores x := by
  unfold holdsStores
  simp only [fenceStuck_passUnit]
  rfl

@[simp] theorem issuedOf_ximm (x : Ctx) (c : Nat) : (issuedOf x c).ximm = unitXimm x := rfl

@[simp] theorem issuedOf_upc (x : Ctx) (c : Nat) : (issuedOf x c).upc = unitPc x := rfl

@[simp] theorem issuedOf_gen (x : Ctx) (c : Nat) : (issuedOf x c).gen = youngestGen x := rfl

theorem youngestGen_of_confirmed {x : Ctx} (h : x.gens = []) : youngestGen x = none := by
  rw [youngestGen, h]
  rfl

@[simp] theorem spadRead_setCtx_self (s : State) (c : Nat) (x : Ctx) (off n : Nat) :
    spadRead (setCtx s c x) c off n = memRead (getCore s c).spad off n := by
  rw [spadRead, getCore_setCtx_self]

@[simp] theorem poisonOf_passUnit (x : Ctx) (upc w : Word) (kind : Nat) : poisonOf (passUnit x) upc w kind = poisonOf x upc w kind := rfl

/-- A trap that an instruction raises by itself is taken where every branch before it has resolved (R174, R176). -/
theorem heldTrap_of_confirmed {x : Ctx} (h : x.gens = []) (t : State) (c code param : Nat) (addr : Word) :
    heldTrap t (issuedOf x c) code param addr = some (takeTrap t c (issueTrap (unitPc x) code param addr)) := by
  unfold heldTrap
  rw [if_neg (by simp [issuedOf, youngestGen_of_confirmed h])]
  rfl

/-! ### Routes (R251, R252, R542) -/

section
variable {s : State} {c off : Nat} {a : Word}

theorem routeOf_spad (hp : placeOf c a = .spad off) (h : off < spadSize) (plain : Bool) : routeOf s c plain a = .own off := by
  simp only [routeOf, hp, if_pos h]

/-- An offset of space 0 names the scratchpad (R251). -/
theorem placeOf_of_lt (c : Nat) (h : a.toNat < 0x100000) : placeOf c a = .spad a.toNat := by
  have h60 : a.toNat / 2 ^ 60 = 0 := by omega
  have h20 : a.toNat / 2 ^ 20 = 0 := by omega
  simp only [placeOf, h60, h20, if_true]

theorem routeOf_supArea (hlo : 0xFF000 ≤ a.toNat) (hhi : a.toNat < 0x100000) :
    routeOf s c true a = if (getCtx s c).sys.sup = true then .sup (a.toNat - 0xFF000) else .bad 1 := by
  have hsize : ¬ a.toNat < spadSize := by
    unfold spadSize
    omega
  have h60 : a.toNat / 2 ^ 60 = 0 := by omega
  simp only [routeOf, placeOf_of_lt c hhi, if_neg hsize, hlo, h60, and_true, true_and]

end

/-! ### LD (R265) -/

/-- A load waits for room in the staging buffer where it runs ahead of a branch (R174). -/
abbrev StagingFull (x : Ctx) : Prop := ((youngestGen x).isSome && decide (16 ≤ x.staging.length)) = true

theorem not_stagingFull_of_none {x : Ctx} (h : youngestGen x = none) : ¬ StagingFull x := by
  simp [StagingFull, h]

theorem not_stagingFull_of_lt {x : Ctx} (h : x.staging.length < 16) : ¬ StagingFull x := by
  simp [StagingFull, h]

/-- The address of an LD or ST (R138). -/
abbrev memAddr (x : Ctx) (a : BitVec 5) (m : BitVec 3) (o : BitVec 8) : Word := regVal x a + memOffset (unitXimm x) m o

section
variable {s : State} {d a b : BitVec 5} {m : BitVec 3} {o : BitVec 8}

theorem execLd_misaligned (h : Goes (cur s) (needs [a] [d] (ahead := true) (imm := true))) (hg : (cur s).gens = [])
    (hn : (memAddr (cur s) a m o).toNat % modeBytes m ≠ 0) :
    execLd d a m o s = .next (takeTrap (pastUnit s) s.focus (issueTrap (unitPc (cur s)) causeMisalign 0 (memAddr (cur s) a m o))) :=
  issue_some h (by
    unfold loadBody
    simp only [issuedOf_core, issuedOf_ximm, getCtx_setCtx_self, regVal_passUnit]
    exact (if_pos hn).trans (heldTrap_of_confirmed hg ..))

/-- A load that is performed at issue, on the confirmed path (R265). -/
theorem loadNow_of_confirmed (hg : youngestGen (cur s) = none) (put : Ctx → Ctx) (v : Option Word) :
    loadNow (pastUnit s) (issuedOf (cur s) s.focus) put v = withCur s (put (passUnit (cur s))) := by
  simp only [loadNow, issuedOf_core, issuedOf_gen, hg, modCtx_setCtx]

/-- Behind a branch it takes an entry of the staging buffer (R174). -/
theorem loadNow_of_ahead {g : Nat} (hg : youngestGen (cur s) = some g) (put : Ctx → Ctx) (v : Option Word) :
    loadNow (pastUnit s) (issuedOf (cur s) s.focus) put v =
      bumpId (withCur s (put { passUnit (cur s) with
        staging := (cur s).staging ++ [{ load := s.nextId, gen := g, value := v }] })) := by
  simp only [loadNow, issuedOf_core, issuedOf_gen, hg, modCtx_setCtx]
  rfl

section
variable (h : Goes (cur s) (needs [a] [d] (ahead := true) (imm := true))) (hn : (memAddr (cur s) a m o).toNat % modeBytes m = 0)
  (hl : holdsLoads (cur s) = false) (hroom : ¬ StagingFull (cur s))
include h hn hl hroom

theorem execLd_own {off : Nat} {v : Word} (hr : routeOf (pastUnit s) s.focus true (memAddr (cur s) a m o) = .own off)
    (hb : localBusy (pastUnit s) s.focus off (modeBytes m) false = false)
    (hv : extendBytes (memRead (getCore s s.focus).spad off (modeBytes m)) (modeSigned m) = v) :
    execLd d a m o s = .next (loadNow (pastUnit s) (issuedOf (cur s) s.focus) (fun y => setReg y d v) (some v)) :=
  issue_some h (by
    unfold loadBody
    simp only [issuedOf_core, issuedOf_ximm, issuedOf_gen, getCtx_setCtx_self, regVal_passUnit, holdsLoads_passUnit, hl, hr,
      spadRead_setCtx_self, hv]
    exact (if_neg (not_not.2 hn)).trans ((if_neg hroom).trans (if_neg (Bool.eq_false_iff.1 hb))))

theorem execLd_supArea {off : Nat} {v : Word} (hr : routeOf (pastUnit s) s.focus true (memAddr (cur s) a m o) = .sup off)
    (hv : extendBytes (memRead (getCore s s.focus).supArea off (modeBytes m)) (modeSigned m) = v) :
    execLd d a m o s = .next (loadNow (pastUnit s) (issuedOf (cur s) s.focus) (fun y => setReg y d v) (some v)) :=
  issue_some h (by
    unfold loadBody
    simp only [issuedOf_core, issuedOf_ximm, issuedOf_gen, getCtx_setCtx_self, regVal_passUnit, holdsLoads_passUnit, hl, hr,
      getCore_setCtx_self, hv]
    exact (if_neg (not_not.2 hn)).trans (if_neg hroom))

theorem execLd_refused {kind : Nat} (hr : routeOf (pastUnit s) s.focus true (memAddr (cur s) a m o) = .bad kind) :
    execLd d a m o s = .next (loadNow (pastUnit s) (issuedOf (cur s) s.focus)
      (fun y => poisonReg y d (poisonOf (cur s) (unitPc (cur s)) (memAddr (cur s) a m o) kind)) none) :=
  issue_some h (by
    unfold loadBody
    simp only [issuedOf_core, issuedOf_ximm, issuedOf_upc, issuedOf_gen, getCtx_setCtx_self, regVal_passUnit, holdsLoads_passUnit, hl,
      hr, poisonOf_passUnit]
    exact (if_neg (not_not.2 hn)).trans (if_neg hroom))

end
end

/-! ### ST (R266) -/

section
variable {s : State} {a b : BitVec 5} {m : BitVec 3} {o : BitVec 8} (h : Goes (cur s) (needs [a, b] [] (imm := true)))
include h

theorem execSt_misaligned (hg : (cur s).gens = []) (hn : (memAddr (cur s) a m o).toNat % modeBytes m ≠ 0) :
    execSt a b m o s = .next (takeTrap (pastUnit s) s.focus (issueTrap (unitPc (cur s)) causeMisalign 0 (memAddr (cur s) a m o))) :=
  issue_some h (by
    simp only [issuedOf_core, issuedOf_ximm, getCtx_setCtx_self, regVal_passUnit]
    exact (if_pos hn).trans (heldTrap_of_confirmed hg ..))

/-- The bytes that an ST writes (R266). -/
def storeBytes (x : Ctx) (b : BitVec 5) (m : BitVec 3) : List Byte :=
  leBytes (modeBytes m) ((regVal x b).toNat % 2 ^ (8 * modeBytes m))

variable (hn : (memAddr (cur s) a m o).toNat % modeBytes m = 0) (hl : holdsStores (cur s) = false)
include hn hl

theorem execSt_own {off : Nat} (hr : routeOf (pastUnit s) s.focus true (memAddr (cur s) a m o) = .own off)
    (hb : localBusy (pastUnit s) s.focus off (modeBytes m) true = false) :
    execSt a b m o s = .next (spadWrite (pastUnit s) s.focus off (storeBytes (cur s) b m)) :=
  issue_some h (by
    simp only [issuedOf_core, issuedOf_ximm, getCtx_setCtx_self, regVal_passUnit, holdsStores_passUnit, hl, hr]
    exact (if_neg (not_not.2 hn)).trans (if_neg (Bool.eq_false_iff.1 hb)))

/-- The state in which bytes of a core's supervisor area are written (R542). -/
def supWrite (s : State) (c off : Nat) (bs : List Byte) : State := modCore s c (fun k => { k with supArea := memWrite k.supArea off bs })

theorem execSt_supArea {off : Nat} (hr : routeOf (pastUnit s) s.focus true (memAddr (cur s) a m o) = .sup off) :
    execSt a b m o s = .next (supWrite (pastUnit s) s.focus off (storeBytes (cur s) b m)) :=
  issue_some h (by
    simp only [issuedOf_core, issuedOf_ximm, getCtx_setCtx_self, regVal_passUnit, holdsStores_passUnit, hl, hr]
    exact if_neg (not_not.2 hn))

end

/-! ### The bytes of a store (R266) -/

@[simp] theorem length_storeBytes (x : Ctx) (b : BitVec 5) (m : BitVec 3) : (storeBytes x b m).length = modeBytes m :=
  length_leBytes ..

/-- A low part of a word, from bit 8i on, has the word's byte i. -/
theorem ofNat_div_eq_extractLsb' (v : Word) {n i : Nat} (hi : i < n) :
    BitVec.ofNat 8 (v.toNat % 2 ^ (8 * n) / 256 ^ i) = v.extractLsb' (8 * i) 8 := by
  have hpow : 2 ^ (8 * n) = 256 ^ i * (2 ^ 8 * 256 ^ (n - i - 1)) := by
    obtain ⟨k, rfl⟩ := Nat.exists_eq_add_of_lt hi
    rw [Nat.pow_mul, show i + k + 1 - i - 1 = k by omega]
    ring
  apply BitVec.eq_of_toNat_eq
  rw [BitVec.toNat_ofNat, BitVec.extractLsb'_toNat, Nat.shiftRight_eq_div_pow, Nat.pow_mul 2 8 i, hpow, Nat.mod_mul_right_div_self,
    Nat.mod_mod_of_dvd _ (Nat.dvd_mul_right ..)]

/-- Each byte of a store reads back as the byte of its register (R2, R266). -/
theorem memGet_memWrite_storeBytes (k : Memory) (off : Nat) (x : Ctx) (b : BitVec 5) (m : BitVec 3) {i : Nat} (hi : i < modeBytes m) :
    memGet (memWrite k off (storeBytes x b m)) (off + i) = (regVal x b).extractLsb' (8 * i) 8 := by
  have hlen : i < (storeBytes x b m).length := by rwa [length_storeBytes]
  rw [memGet_memWrite_of_inside _ _ _ _ hlen, ← ofNat_div_eq_extractLsb' _ hi]
  exact getElem_leBytes ..

end Sys2Proof.Machine
end

section
/-! Atomics on the local scratchpad, and misaligned ones (R267, R322, R541). -/

namespace Sys2Proof.Machine

/-! ### At issue (R267) -/

/-- The bytes of an atomic: a word or a double word (R267). -/
abbrev atomSize (z : BitVec 1) : Nat := if z = 1 then 8 else 4

section
variable {s : State} {q : IssueSpec} {op : Nat} {d a b : BitVec 5} {sc : BitVec 3} {z : BitVec 1} {r : BitVec 2} (h : Goes (cur s) q)
include h

theorem issue_atomBody_misaligned (hg : (cur s).gens = []) (hn : (regVal (cur s) a).toNat % atomSize z ≠ 0) :
    issue s q (atomBody op d a b sc z r) =
      .next (takeTrap (pastUnit s) s.focus (issueTrap (unitPc (cur s)) causeMisalign 0 (regVal (cur s) a))) :=
  issue_some h (by
    unfold atomBody
    simp only [issuedOf_core, getCtx_setCtx_self, regVal_passUnit]
    exact (if_pos hn).trans (heldTrap_of_confirmed hg ..))

omit h in
/-- The release of an atomic leaves the context past the unit (R322). -/
theorem getCtx_maybeReleased_past (rel : Bool) (scope moment : Nat) :
    getCtx (maybeReleased rel (pastUnit s) s.focus scope moment) s.focus = passUnit (cur s) :=
  (congrArg Core.ctx (getCore_of_cores (maybeReleased_cores ..) _)).trans (getCtx_setCtx_self ..)

/-- The state after an atomic on the local scratchpad: its release noted, its bytes written, the old ones in its register (R267). -/
def atomOwn (s : State) (op : Nat) (d b : BitVec 5) (sc : BitVec 3) (z : BitVec 1) (r : BitVec 2) (off : Nat) : State :=
  let old := memRead (getCore s s.focus).spad off (atomSize z)
  let t := maybeReleased (r.getLsbD 1) (pastUnit s) s.focus sc.toNat s.nextId
  setCtx (spadWrite t s.focus off (atomBytes op old (regVal (cur s) b) (regVal (cur s) d))) s.focus
    (setReg (passUnit (cur s)) d (atomOld old))

theorem issue_atomBody_own {off : Nat} (hn : (regVal (cur s) a).toNat % atomSize z = 0) (hl : holdsStores (cur s) = false)
    (hr : routeOf (pastUnit s) s.focus false (regVal (cur s) a) = .own off)
    (hb : localBusy (pastUnit s) s.focus off (atomSize z) true = false)
    (hrel : r.getLsbD 1 = false ∨ releaseReady (pastUnit s) s.focus (genOf (cur s)) (passUnit (cur s)) sc.toNat s.nextId = true) :
    issue s q (atomBody op d a b sc z r) = .next (atomOwn s op d b sc z r off) :=
  issue_some h (by
    have hgen : genOf (passUnit (cur s)) = genOf (cur s) := rfl
    have hready : ¬ (localBusy (pastUnit s) s.focus off (atomSize z) true ||
        orderRel r && !releaseReady (pastUnit s) s.focus (genOf (cur s)) (passUnit (cur s)) sc.toNat s.nextId) = true := by
      rcases hrel with hrel | hrel <;> simp [hb, hrel, orderRel, -BitVec.getLsbD_eq_getElem]
    unfold atomBody
    simp only [issuedOf_core, getCtx_setCtx_self, regVal_passUnit, holdsStores_passUnit, hl, hr, spadRead_setCtx_self, hgen]
    refine (if_neg (not_not.2 hn)).trans ((if_neg hready).trans (congrArg some ?_))
    rw [modCtx, getCtx_spadWrite_self]
    exact congrArg (fun y => setCtx _ _ (setReg y d _)) (getCtx_maybeReleased_past ..))

end

/-! ### What an atomic leaves (R267) -/

/-- What an instruction that performs an atomic on n bytes of the local scratchpad does: the register receives a value, the bytes
become those of a number, and no other byte changes. -/
def PerformsAtomic (s : State) (i : Instr) (d : BitVec 5) (v : Word) (off n new : Nat) : Prop :=
  ∃ t : State, exec i s = .next t ∧ cur t = setReg (passUnit (cur s)) d v ∧ leNat (memRead (getCore t s.focus).spad off n) = new ∧
    (∀ p, p < off ∨ off + n ≤ p → memGet (getCore t s.focus).spad p = memGet (getCore s s.focus).spad p) ∧
    SameMem s t ∧ t.accs = s.accs ∧ ∀ c ≠ s.focus, getCore t c = getCore s c

theorem performsAtomic_own {s : State} {i : Instr} {op : Nat} {d b : BitVec 5} {sc : BitVec 3} {z : BitVec 1} {r : BitVec 2} {off new : Nat}
    {v : Word} (hi : exec i s = .next (atomOwn s op d b sc z r off))
    (hv : atomOld (memRead (getCore s s.focus).spad off (atomSize z)) = v)
    (hnew : leNat (atomBytes op (memRead (getCore s s.focus).spad off (atomSize z)) (regVal (cur s) b) (regVal (cur s) d)) = new) :
    PerformsAtomic s i d v off (atomSize z) new := by
  let t := maybeReleased (r.getLsbD 1) (pastUnit s) s.focus sc.toNat s.nextId
  let bs := atomBytes op (memRead (getCore s s.focus).spad off (atomSize z)) (regVal (cur s) b) (regVal (cur s) d)
  have hlen : bs.length = atomSize z := (length_atomBytes ..).trans (length_memRead ..)
  have hreleased : SpadFrame s t s.focus off (atomSize z) :=
    (spadFrame_setCtx s s.focus off (atomSize z) (passUnit (cur s))).congr (maybeReleased_cores ..) (sameMem_maybeReleased ..)
  obtain ⟨hspad, hcores, hmem⟩ := (hreleased.spadWrite hlen).setCtx (setReg (passUnit (cur s)) d v)
  have hfocus : (atomOwn s op d b sc z r off).focus = s.focus :=
    maybeReleased_focus (r.getLsbD 1) (pastUnit s) s.focus sc.toNat s.nextId
  subst hv
  refine ⟨_, hi, ?_, ?_, hspad, hmem, ?_, hcores⟩
  · rw [cur, hfocus]
    exact getCtx_setCtx_self ..
  · have hread := memRead_spadWrite_self t s.focus off bs
    rw [hlen] at hread
    rw [atomOwn, getCore_setCtx_self, hread, hnew]
  · exact (sameTraffic_maybeReleased ..).accs

/-! ### The values of an atomic (R267) -/

section
variable {op n old x e : Nat}

theorem atomNew_lt (ho : old < 2 ^ (8 * n)) (hx : x < 2 ^ (8 * n)) : atomNew op n old x e < 2 ^ (8 * n) := by
  unfold atomNew
  dsimp only
  split_ifs
  exacts [Nat.mod_lt _ (Nat.two_pow_pos _), hx, ho, hx, ho, Nat.and_lt_two_pow _ hx, Nat.or_lt_two_pow ho hx, Nat.xor_lt_two_pow ho hx,
    hx, hx, ho]

theorem atomNew_min (ho : old < 2 ^ (8 * n)) (hx : x < 2 ^ (8 * n)) :
    atomNew 1 n old x e =
      if (if x < 2 ^ (8 * n - 1) then (x : Int) else (x : Int) - 2 ^ (8 * n)) <
        (if old < 2 ^ (8 * n - 1) then (old : Int) else (old : Int) - 2 ^ (8 * n)) then x else old := by
  rw [← sextNat_of_lt ho, ← sextNat_of_lt hx]
  rfl

theorem atomNew_max (ho : old < 2 ^ (8 * n)) (hx : x < 2 ^ (8 * n)) :
    atomNew 2 n old x e =
      if (if old < 2 ^ (8 * n - 1) then (old : Int) else (old : Int) - 2 ^ (8 * n)) <
        (if x < 2 ^ (8 * n - 1) then (x : Int) else (x : Int) - 2 ^ (8 * n)) then x else old := by
  rw [← sextNat_of_lt ho, ← sextNat_of_lt hx]
  rfl

end

/-- What the bytes that an atomic writes spell. -/
theorem leNat_atomBytes (op : Nat) (old : List Byte) (x e : Word) :
    leNat (atomBytes op old x e) =
      atomNew op old.length (leNat old) (x.toNat % 2 ^ (8 * old.length)) (e.toNat % 2 ^ (8 * old.length)) := by
  have hlt := atomNew_lt (op := op) (e := e.toNat % 2 ^ (8 * old.length)) (leNat_lt old)
    (Nat.mod_lt x.toNat (Nat.two_pow_pos (8 * old.length)))
  exact (leNat_leBytes ..).trans (Nat.mod_eq_of_lt (hlt.trans_eq (Nat.pow_mul 2 8 _)))

/-- Settles O14: every atomic performs `atomNew` of its operation on the bytes of its own scratchpad. -/
theorem localAtomics : Obligations.LocalAtomics := by
  unfold Obligations.LocalAtomics
  intro s d a b sc z r off x c n w old arg sold sarg is hn hp hoff hl hb hrel
  have hr := routeOf_spad (s := pastUnit s) hp hoff false
  have hlen : (memRead (getCore s c).spad off n).length = n := length_memRead ..
  have hold : old < 2 ^ (8 * n) := by
    have h := leNat_lt (memRead (getCore s c).spad off n)
    rwa [hlen] at h
  have harg : arg < 2 ^ (8 * n) := Nat.mod_lt _ (Nat.two_pow_pos _)
  have hv : atomOld (memRead (getCore s c).spad off n) = BitVec.ofInt 64 sold := by
    rw [atomOld, extendBytes, if_pos rfl, hlen, sextNat_of_lt hold]
  have performs {q : IssueSpec} {i : Instr} {op new : Nat} (h : Goes x q) (hi : exec i s = issue s q (atomBody op d a b sc z r))
      (hnew : atomNew op n old arg ((regVal x d).toNat % 2 ^ w) = new) : is i new := by
    refine performsAtomic_own (hi.trans (issue_atomBody_own h hn hl hr hb hrel)) hv ?_
    rw [leNat_atomBytes, hlen]
    exact hnew
  exact ⟨fun h => ⟨performs h rfl rfl, performs h rfl (atomNew_min hold harg), performs h rfl (atomNew_max hold harg),
    performs h rfl rfl, performs h rfl rfl, performs h rfl rfl, performs h rfl rfl⟩, fun h => performs h rfl rfl⟩

end Sys2Proof.Machine
end

section
/-! The obligation on loads, stores and misaligned accesses on the own core (R265-R267, R541, R542). -/

namespace Sys2Proof.Machine

/-- The value of an LD as a number (R265). -/
theorem extendBytes_memRead_mode (k : Memory) (off : Nat) (m : BitVec 3) :
    extendBytes (memRead k off (modeBytes m)) (modeSigned m) =
      if m.toNat % 2 = 0 ∧ 2 ^ (8 * 2 ^ (m.toNat / 2) - 1) ≤ leNat (memRead k off (2 ^ (m.toNat / 2)))
      then BitVec.ofInt 64 (leNat (memRead k off (2 ^ (m.toNat / 2))) - 2 ^ (8 * 2 ^ (m.toNat / 2)))
      else BitVec.ofNat 64 (leNat (memRead k off (2 ^ (m.toNat / 2)))) := by
  rw [extendBytes_eq, length_memRead]
  simp only [modeSigned, beq_iff_eq]
  rfl

/-- What a store of the local scratchpad leaves (R266). -/
theorem execSt_own_frame {s : State} {a b : BitVec 5} {m : BitVec 3} {o : BitVec 8} {off : Nat}
    (h : Goes (cur s) (needs [a, b] [] (imm := true))) (hn : (memAddr (cur s) a m o).toNat % modeBytes m = 0)
    (hl : holdsStores (cur s) = false) (hr : routeOf (pastUnit s) s.focus true (memAddr (cur s) a m o) = .own off)
    (hb : localBusy (pastUnit s) s.focus off (modeBytes m) true = false) :
    ∃ t : State, exec (.st a b m o) s = .next t ∧ cur t = passUnit (cur s) ∧
      (∀ i < modeBytes m, memGet (getCore t s.focus).spad (off + i) = (regVal (cur s) b).extractLsb' (8 * i) 8) ∧
      SpadFrame s t s.focus off (modeBytes m) ∧ (getCore t s.focus).supArea = (getCore s s.focus).supArea ∧ t.accs = s.accs := by
  have hframe := (spadFrame_setCtx s s.focus off (modeBytes m) (passUnit (cur s))).spadWrite (length_storeBytes (cur s) b m)
  refine ⟨_, execSt_own h hn hl hr hb, ?_, fun i hi => ?_, hframe, ?_, rfl⟩
  · exact (getCtx_spadWrite_self ..).trans (getCtx_setCtx_self ..)
  · rw [spad_spadWrite]
    exact memGet_memWrite_storeBytes _ _ _ _ _ hi
  · rw [spadWrite, getCore_modCore_self, getCore_setCtx_self]

/-- What a store of the supervisor area leaves (R542). -/
theorem execSt_supArea_frame {s : State} {a b : BitVec 5} {m : BitVec 3} {o : BitVec 8} {off : Nat}
    (h : Goes (cur s) (needs [a, b] [] (imm := true))) (hn : (memAddr (cur s) a m o).toNat % modeBytes m = 0)
    (hl : holdsStores (cur s) = false) (hr : routeOf (pastUnit s) s.focus true (memAddr (cur s) a m o) = .sup off) :
    ∃ t : State, exec (.st a b m o) s = .next t ∧ cur t = passUnit (cur s) ∧ (getCore t s.focus).spad = (getCore s s.focus).spad ∧
      (∀ i < modeBytes m, memGet (getCore t s.focus).supArea (off + i) = (regVal (cur s) b).extractLsb' (8 * i) 8) ∧
      ∀ p, p < off ∨ off + modeBytes m ≤ p → memGet (getCore t s.focus).supArea p = memGet (getCore s s.focus).supArea p := by
  have hcore : getCore (supWrite (pastUnit s) s.focus off (storeBytes (cur s) b m)) s.focus =
      { getCore s s.focus with
        ctx := passUnit (cur s), supArea := memWrite (getCore s s.focus).supArea off (storeBytes (cur s) b m) } := by
    rw [supWrite, getCore_modCore_self, getCore_setCtx_self]
  refine ⟨_, execSt_supArea h hn hl hr, congrArg Core.ctx hcore, ?_, fun i hi => ?_, fun p hp => ?_⟩
  · rw [hcore]
  · rw [hcore]
    exact memGet_memWrite_storeBytes _ _ _ _ _ hi
  · rw [hcore]
    exact memGet_memWrite_of_outside _ _ _ _ (by rwa [length_storeBytes])

/-- Settles O13: a load or a store is what its route says, and a misaligned access traps before any route is taken. -/
theorem localAccesses : Obligations.LocalAccesses := by
  unfold Obligations.LocalAccesses
  refine ⟨fun s d a b m o off => ?_, fun s d a b m o => ?_, fun s d a b m sc o z r => ?_⟩
  · intro x c addr n bytes hn hp hoff value
    have hr := routeOf_spad (s := pastUnit s) hp hoff true
    have hv := extendBytes_memRead_mode (getCore s c).spad off m
    refine ⟨fun h hl hb => ⟨fun hg => ?_, fun g hg hlen => ?_⟩, fun h hl hb => ?_⟩
    · exact (execLd_own h hn hl (not_stagingFull_of_none hg) hr hb hv).trans (congrArg _ (loadNow_of_confirmed hg ..))
    · have hex := (execLd_own h hn hl (not_stagingFull_of_lt hlen) hr hb hv).trans (congrArg _ (loadNow_of_ahead hg ..))
      exact ⟨_, hex, rfl, getCtx_setCtx_self ..⟩
    · obtain ⟨t, ht, hcur, hbytes, ⟨hspad, hcores, hmem⟩, hsup, haccs⟩ := execSt_own_frame h hn hl hr hb
      exact ⟨t, ht, hcur, hbytes, hspad, hsup, hmem, haccs, hcores⟩
  · intro x c addr n at' hn hlo hhi hg
    have hgen := youngestGen_of_confirmed hg
    have hroom := not_stagingFull_of_none hgen
    have hr := routeOf_supArea (s := pastUnit s) (c := c) hlo hhi
    rw [getCtx_setCtx_self] at hr
    refine ⟨fun h hl => ⟨fun hsup => ?_, fun hsup => ?_⟩, fun h hl hsup => ?_⟩
    · exact (execLd_supArea h hn hl hroom (hr.trans (if_pos hsup)) rfl).trans (congrArg _ (loadNow_of_confirmed hgen ..))
    · have hpoison : poisonOf x (unitPc x) addr 1 = { ldPc := unitPc x, addr := addr, kind := 1 } := by
        rw [poisonOf, hsup]
        rfl
      have hex := execLd_refused h hn hl hroom (hr.trans (if_neg (Bool.eq_false_iff.1 hsup)))
      rw [hpoison] at hex
      exact hex.trans (congrArg _ (loadNow_of_confirmed hgen ..))
    · exact execSt_supArea_frame h hn hl (hr.trans (if_pos hsup))
  · intro x addr trapped hg
    refine ⟨fun hn => ⟨fun h => execLd_misaligned h hg hn, fun h => execSt_misaligned h hg hn⟩, fun hn => ?_⟩
    have traps {q : IssueSpec} (op : Nat) (h : Goes x q) :
        issue s q (atomBody op d a b sc z r) = .next (trapped (regVal x a)) := issue_atomBody_misaligned h hg hn
    exact ⟨fun h => ⟨traps 0 h, traps 1 h, traps 2 h, traps 3 h, traps 4 h, traps 5 h, traps 6 h⟩, fun h => traps 7 h⟩

end Sys2Proof.Machine
end

section
/-! Accesses that leave the core for a virtual address, and their answers (R155, R258, R265-R267, R322, R330). -/

namespace Sys2Proof.Machine

/-! ### Sending (R258, R265) -/

/-- The access that a core sends to the translation station of a virtual address (R258). -/
def sentTo (s : State) (k : AccKind) (w : Word) (n : Nat) (data : List Byte) : Access :=
  { id := s.nextId, core := s.focus, serial := serialOf (cur s), gen := genOf (cur s), kind := k, addr := w, size := n, data := data,
    egen := 0, stage := .sent, sender := none }

/-- One access goes to its station; no byte of memory and none of the own scratchpad changes. -/
def Sends (s t : State) (k : AccKind) (w : Word) (n : Nat) (data : List Byte) : Prop :=
  t.accs = s.accs ++ [sentTo s k w n data] ∧ t.agenda = s.agenda ++ [Event.stationTranslate s.nextId] ∧ t.nextId = s.nextId + 1 ∧
    SameMem s t ∧ (getCore t s.focus).spad = (getCore s s.focus).spad

section
variable {s : State} {w : Word} {va : Nat} (hp : placeOf s.focus w = .virt va)
include hp

theorem routeOf_virt (t : State) (plain : Bool) : routeOf t s.focus plain w = .net := by
  simp only [routeOf, hp]

theorem egenOf_virt (t : State) : egenOf t s.focus w = 0 := by
  simp only [egenOf, hp]

/-- A virtual address lies outside the core (R251, R564). -/
theorem leavesCore_virt : leavesCore s.focus w = true := by
  have hspace : spaceOf w ≠ 0 := by
    intro h0
    have h60 : w.toNat / 2 ^ 60 = 0 := h0
    simp only [placeOf, h60, if_true] at hp
    split at hp <;> cases hp
  simp only [leavesCore, hp]
  exact bne_iff_ne.2 hspace

/-- A read without a redirect and a write go to the translation station (R258, R264). -/
theorem firstHop_virt {load : Bool} {t : State} (hr : load = true → findRedirect t s.focus va = none) (n : Nat) :
    firstHop t s.focus load w n = (.sent, .stationTranslate n) := by
  cases load
  · simp only [firstHop, hp, Bool.false_eq_true, if_false]
  · simp only [firstHop, hp, hr rfl, if_true]

end

/-- The state in which the core that runs has sent an access, its context changed. -/
def sentState (s : State) (y : Ctx) (k : AccKind) (w : Word) (n : Nat) (data : List Byte) : State :=
  push (bumpId { withCur s y with accs := s.accs ++ [sentTo s k w n data] }) (.stationTranslate s.nextId)

section
variable {s : State} {y : Ctx} {k : AccKind} {w : Word} {n : Nat} {data : List Byte}

/-- A core whose context has changed in neither its activation nor its task sends an access. -/
theorem sendAcc_virt {va : Nat} (hp : placeOf s.focus w = .virt va) (hser : serialOf y = serialOf (cur s)) (hgen : genOf y = genOf (cur s))
    (hr : ∀ d sx upc, k = .load d sx upc → findRedirect s s.focus va = none) :
    sendAcc (withCur s y) s.focus k w n data = sentState s y k w n data := by
  have hload (hr : findRedirect s s.focus va = none) := firstHop_virt hp (t := withCur s y) (load := true) (fun _ => hr) s.nextId
  have hwrite := firstHop_virt hp (t := withCur s y) (load := false) nofun s.nextId
  unfold sendAcc
  simp only [getCtx_setCtx_self, hser, hgen, egenOf_virt hp]
  cases k with
  | load d sx upc =>
    simp only [setCtx_nextId, hload (hr d sx upc rfl)]
    rfl
  | store | atom | bara =>
    simp only [setCtx_nextId, hwrite]
    rfl

theorem cur_sentState : cur (sentState s y k w n data) = y := getCtx_setCtx_self ..

theorem sends_sentState : Sends s (sentState s y k w n data) k w n data := by
  have hspad : (getCore (withCur s y) s.focus).spad = (getCore s s.focus).spad := by rw [getCore_setCtx_self]
  exact ⟨rfl, rfl, rfl, ⟨fun _ => rfl, fun _ => rfl⟩, hspad⟩

end

/-! ### At issue (R265-R267, R322) -/

/-- The address of a unit as a failed access reports it: in a trap's routine the one that the trap reported (R155, R543). -/
abbrev reportedPc (x : Ctx) : Word := if x.sys.sup then x.sys.faultpc else unitPc x

theorem serialOf_markReg (x : Ctx) (d : BitVec 5) (k : Mark) : serialOf (markReg x d k) = serialOf x := by
  rw [serialOf, markReg, putReg_act]
  rfl

theorem genOf_markReg (x : Ctx) (d : BitVec 5) (k : Mark) : genOf (markReg x d k) = genOf x := by
  rw [genOf, markReg, putReg_sys]
  rfl

theorem serialOf_setCommit (x : Ctx) : serialOf (setCommit x) = serialOf x := by
  unfold serialOf setCommit
  cases x.act <;> rfl

/-- The context past an atomic that has been sent: its register marked, and where it acquires, it holds later accesses back (R322). -/
def atomSentCtx (s : State) (d : BitVec 5) (r : BitVec 2) : Ctx :=
  let y := markReg (passUnit (cur s)) d (.op s.nextId)
  if r.getLsbD 0 then { y with acqs := y.acqs ++ [s.nextId] } else y

theorem atomSentCtx_eq (s : State) (d : BitVec 5) (r : BitVec 2) :
    atomSentCtx s d r =
      if r.getLsbD 0 then { markReg (passUnit (cur s)) d (.op s.nextId) with acqs := (cur s).acqs ++ [s.nextId] }
      else markReg (passUnit (cur s)) d (.op s.nextId) := by
  have hacqs : (markReg (passUnit (cur s)) d (.op s.nextId)).acqs = (cur s).acqs := putReg_acqs ..
  unfold atomSentCtx
  dsimp only
  rw [hacqs]

theorem serialOf_atomSentCtx (s : State) (d : BitVec 5) (r : BitVec 2) : serialOf (atomSentCtx s d r) = serialOf (cur s) := by
  unfold atomSentCtx
  dsimp only
  split <;> exact serialOf_markReg ..

theorem genOf_atomSentCtx (s : State) (d : BitVec 5) (r : BitVec 2) : genOf (atomSentCtx s d r) = genOf (cur s) := by
  unfold atomSentCtx
  dsimp only
  split <;> exact genOf_markReg ..

/-- An access outside the core sets the commit latch (R564). -/
theorem latchCommit_virt {s : State} {w : Word} {va : Nat} (hp : placeOf s.focus w = .virt va) (y : Ctx) :
    latchCommit (withCur s y) s.focus w = withCur s (setCommit y) :=
  (if_pos (leavesCore_virt hp)).trans (modCtx_setCtx ..)

/-- A core with a request to spare and no tile unit in the way may send. -/
theorem maySend {s : State} {w n : Nat} {wr : Bool} (hf : accFull s s.focus = false)
    (hb : tileMemBusy (pastUnit s) s.focus w n wr = false) :
    ¬ (accFull (pastUnit s) s.focus || tileMemBusy (pastUnit s) s.focus w n wr) = true := by
  have hf' : accFull (pastUnit s) s.focus = false := hf
  rw [hf', hb]
  exact Bool.false_ne_true

section
variable {s : State} {d a b : BitVec 5} {m sc : BitVec 3} {o : BitVec 8} {z : BitVec 1} {r : BitVec 2} {va : Nat}

theorem execLd_sends (h : Goes (cur s) (needs [a] [d] (ahead := true) (imm := true))) (hg : (cur s).gens = [])
    (hn : (memAddr (cur s) a m o).toNat % modeBytes m = 0) (hp : placeOf s.focus (memAddr (cur s) a m o) = .virt va)
    (hf : accFull s s.focus = false)
    (hb : tileMemBusy (pastUnit s) s.focus (memAddr (cur s) a m o).toNat (modeBytes m) false = false)
    (hr : findRedirect s s.focus va = none) (hl : holdsLoads (cur s) = false) :
    execLd d a m o s = .next (sentState s (markReg (passUnit (cur s)) d (.load s.nextId)) (.load d (modeSigned m) (reportedPc (cur s)))
      (memAddr (cur s) a m o) (modeBytes m) []) := by
  refine issue_some h ?_
  unfold loadBody
  simp only [issuedOf_core, issuedOf_ximm, issuedOf_upc, issuedOf_gen, getCtx_setCtx_self, regVal_passUnit, holdsLoads_passUnit, hl,
    routeOf_virt hp, youngestGen_of_confirmed hg, poisonOf_passUnit, setCtx_setCtx, stageLoad]
  refine (if_neg (not_not.2 hn)).trans ((if_neg (by simp)).trans ((if_neg (maySend hf hb)).trans (congrArg some ?_)))
  exact sendAcc_virt hp (serialOf_markReg ..) (genOf_markReg ..) (fun _ _ _ _ => hr)

theorem execSt_sends (h : Goes (cur s) (needs [a, b] [] (imm := true))) (hdual : (cur s).sys.dual = false)
    (hn : (memAddr (cur s) a m o).toNat % modeBytes m = 0) (hp : placeOf s.focus (memAddr (cur s) a m o) = .virt va)
    (hf : accFull s s.focus = false)
    (hb : tileMemBusy (pastUnit s) s.focus (memAddr (cur s) a m o).toNat (modeBytes m) true = false)
    (hl : holdsStores (cur s) = false) :
    execSt a b m o s = .next (sentState s (setCommit (passUnit (cur s))) .store (memAddr (cur s) a m o) (modeBytes m)
      (storeBytes (cur s) b m)) := by
  refine issue_some h ?_
  simp only [issuedOf_core, issuedOf_ximm, getCtx_setCtx_self, regVal_passUnit, holdsStores_passUnit, hl, routeOf_virt hp, passUnit_sys,
    hdual, latchCommit_virt hp]
  refine (if_neg (not_not.2 hn)).trans ((if_neg (maySend hf hb)).trans (congrArg some ?_))
  exact sendAcc_virt hp (serialOf_setCommit ..) rfl nofun

theorem issue_atomBody_sends {q : IssueSpec} {op : Nat} (h : Goes (cur s) q) (hdual : (cur s).sys.dual = false)
    (hn : (regVal (cur s) a).toNat % atomSize z = 0) (hp : placeOf s.focus (regVal (cur s) a) = .virt va)
    (hf : accFull s s.focus = false) (hb : tileMemBusy (pastUnit s) s.focus (regVal (cur s) a).toNat (atomSize z) true = false)
    (hl : holdsStores (cur s) = false) :
    issue s q (atomBody op d a b sc z r) = .next (sentState s (setCommit (atomSentCtx s d r))
      (.atom op d (regVal (cur s) b) (regVal (cur s) d) (r.getLsbD 0) (r.getLsbD 1) sc.toNat (reportedPc (cur s)))
      (regVal (cur s) a) (atomSize z) []) := by
  refine issue_some h ?_
  unfold atomBody
  simp only [issuedOf_core, issuedOf_upc, getCtx_setCtx_self, regVal_passUnit, holdsStores_passUnit, hl, routeOf_virt hp, passUnit_sys,
    hdual, poisonOf_passUnit, setCtx_setCtx, latchCommit_virt hp]
  refine (if_neg (not_not.2 hn)).trans ((if_neg (maySend hf hb)).trans (congrArg some ?_))
  exact sendAcc_virt hp ((serialOf_setCommit ..).trans (serialOf_atomSentCtx s d r)) (genOf_atomSentCtx s d r) (fun _ _ _ hk => nomatch hk)

end

/-! ### Answers (R155, R265, R330) -/

theorem getReg_of_regs_eq {x y : Ctx} (h : x.regs = y.regs) (q : BitVec 5) : getReg x q = getReg y q := by
  rw [getReg, h]
  rfl

/-- An answer writes the register that waits for it. -/
theorem answerReg_regs {m : Mark} {reg : BitVec 5} {x : Ctx} (h0 : reg ≠ 0) (hm : (getReg x reg).mark = m) (n : Nat) (v : Reg) :
    (answerReg m n reg v x).regs = (putReg x reg v).regs := by
  have hg : getReg x reg = x.regs.getD reg.toNat resetReg := if_neg h0
  simp only [answerReg, putReg, if_neg h0, ← hg, settleReg, if_pos hm]

/-- A failure poisons the register that waits, whose value stays (R155). -/
theorem failReg_regs {m : Mark} {reg : BitVec 5} {x : Ctx} (h0 : reg ≠ 0) (hm : (getReg x reg).mark = m) (n : Nat) (p : Poison) :
    (failReg m n reg p x).regs = (putReg x reg { val := regVal x reg, poison := some p, mark := .clear }).regs := by
  have hg : getReg x reg = x.regs.getD reg.toNat resetReg := if_neg h0
  have hc : ¬ (reg = 0 ∨ (getReg x reg).mark ≠ m) := not_or.2 ⟨h0, not_not.2 hm⟩
  simp only [failReg, putReg, if_neg h0, ← hg, if_neg hc, regVal]

/-- An access has been answered: its register has become `g`, it is in flight no longer, and nothing else of a register, a memory or
another core has changed. -/
def AnsweredTo (s : State) (a : Access) (reg : BitVec 5) (g : Reg) : Prop :=
  ∃ t : State, exec (.loadResponse a.id) s = .next t ∧ getReg (getCtx t a.core) reg = g ∧
    (∀ q ≠ reg, getReg (getCtx t a.core) q = getReg (getCtx s a.core) q) ∧ findAcc t a.id = none ∧ SameMem s t ∧
    (getCore t a.core).spad = (getCore s a.core).spad ∧ ∀ c ≠ a.core, getCore t c = getCore s c

section
variable {s : State} {a : Access} (hf : findAcc s a.id = some a)
include hf

theorem execLoadResponse_replied {bs : List Byte} (hs : a.stage = .replied bs) : execLoadResponse a.id s = .next (answerAcc s a bs) := by
  unfold execLoadResponse
  simp only [hf, hs, done]

theorem execLoadResponse_failed {k : Nat} {w : Word} (hs : a.stage = .failed k w) :
    execLoadResponse a.id s = .next (answerFail s a k w) := by
  unfold execLoadResponse
  simp only [hf, hs, done]

omit hf in
/-- An answer that changes one register of the activation that runs. -/
theorem answeredTo_updAct (hr : runsSerial (getCtx s a.core) a.serial = true) {f : Ctx → Ctx} {reg : BitVec 5} {g : Reg} (h0 : reg ≠ 0)
    (hregs : (f (getCtx s a.core)).regs = (putReg (getCtx s a.core) reg g).regs)
    (he : execLoadResponse a.id s = .next (updAct (dropAcc s a.id) a.core a.serial f)) : AnsweredTo s a reg g := by
  have hctx : getCtx (modCtx (dropAcc s a.id) a.core f) a.core = f (getCtx s a.core) := getCtx_modCtx_self ..
  rw [updAct_live (dropAcc s a.id) _ _ _ hr] at he
  refine ⟨_, he, ?_, fun q hq => ?_, findAcc_dropAcc_self .., ⟨fun _ => rfl, fun _ => rfl⟩, ?_, fun c hc => ?_⟩
  · rw [hctx, getReg_of_regs_eq hregs, getReg_putReg_self _ _ _ h0]
  · rw [hctx, getReg_of_regs_eq hregs, getReg_putReg_ne _ _ _ _ hq]
  · rw [modCtx, getCore_setCtx_self]
    rfl
  · exact getCore_setCtx_ne _ _ _ _ hc

end

/-- Settles O15: the access that each instruction sends, and what its answer makes of the register that waits. -/
theorem accessesAndAnswers : Obligations.AccessesAndAnswers := by
  unfold Obligations.AccessesAndAnswers
  refine ⟨fun s d a b m sc o z r va => ?_, fun s a hf hr => ?_⟩
  · intro x c free sent addr n w n' hg hdual
    refine ⟨fun h ⟨hn, hp, hfull, hb⟩ hred hl => ?_, fun h ⟨hn, hp, hfull, hb⟩ hl => ?_, fun h ⟨hn, hp, hfull, hb⟩ hl => ?_⟩
    · exact ⟨_, execLd_sends h hg hn hp hfull hb hred hl, cur_sentState, sends_sentState⟩
    · exact ⟨_, execSt_sends h hdual hn hp hfull hb hl, cur_sentState, sends_sentState⟩
    · have hex : exec (.amoadd d a b sc z r) s = _ := issue_atomBody_sends h hdual hn hp hfull hb hl
      exact ⟨_, hex, cur_sentState.trans (congrArg setCommit (atomSentCtx_eq s d r)), sends_sentState⟩
  · intro x becomes
    refine ⟨fun reg sx upc hk h0 hm => ⟨fun bs hs => ?_, fun k w hs => ?_⟩,
      fun op reg y v acq rel sc upc hk h0 hm => ⟨fun bs hs => ?_, fun k w hs => ?_⟩⟩
    · refine answeredTo_updAct hr h0 (answerReg_regs h0 hm a.id _) ((execLoadResponse_replied hf hs).trans ?_)
      rw [answerAcc, hk]
      rfl
    · refine answeredTo_updAct hr h0 (failReg_regs h0 hm a.id _) ((execLoadResponse_failed hf hs).trans ?_)
      rw [answerFail, hk]
    · refine answeredTo_updAct hr h0 (answerReg_regs h0 hm a.id _) ((execLoadResponse_replied hf hs).trans ?_)
      rw [answerAcc, hk]
      rfl
    · refine answeredTo_updAct hr h0 (failReg_regs h0 hm a.id _) ((execLoadResponse_failed hf hs).trans ?_)
      rw [answerFail, hk]

end Sys2Proof.Machine
end

section
/-! Module memory at its home slice (R260, R262, R263, R266, R267): reads and writes of bytes, sector fills, replicas and windows. -/

namespace Sys2Proof.Machine

/-! ### What slices leave of the accesses in flight -/

theorem sameTraffic_makeRoom (s : State) (l : Nat) : SameTraffic s (makeRoom s l) := by
  unfold makeRoom
  split
  · exact .refl s
  · dsimp only
    split <;> exact ⟨rfl, rfl⟩

theorem sameTraffic_fillSector (s : State) (l i : Nat) : SameTraffic s (fillSector s l i) := by
  unfold fillSector
  dsimp only
  split
  · exact .refl s
  · exact (sameTraffic_makeRoom s l).trans ⟨rfl, rfl⟩

theorem sameTraffic_fillRange (s : State) (pa n : Nat) : SameTraffic s (fillRange s pa n) :=
  sameTraffic_foldl (fun t i => sameTraffic_fillSector t _ i) _ s

theorem readOnly_fillRange (s : State) (pa n : Nat) : ReadOnly s (fillRange s pa n) :=
  readOnly_foldl (fun t i => readOnly_fillSector t _ i) _ s

theorem sameTraffic_countRead (s : State) (l : Nat) (r : Option (Nat × Nat × Nat)) : SameTraffic s (countRead s l r) := by
  unfold countRead
  dsimp only
  split <;> exact ⟨rfl, rfl⟩

theorem sameTraffic_physWrite (s : State) (pa : Nat) (bs : List Byte) : SameTraffic s (physWrite s pa bs) := by
  have hfold := sameTraffic_foldl (f := fun t (p : Nat × Byte) => physSetByte t (pa + p.1) p.2)
    (fun t p => (sameTraffic_makeRoom t _).trans ⟨rfl, rfl⟩) ((List.range bs.length).zip bs) s
  exact ⟨hfold.accs, hfold.agenda⟩

/-! ### Bytes written at their home slices (R260, R266) -/

section
variable {pa : Nat} {ps : List (Nat × Byte)}

/-- A fold of writes leaves a byte of which no write has the address. -/
theorem physByte_foldl_of_ne {qa : Nat} (h : ∀ p ∈ ps, qa ≠ pa + p.1) (s : State) :
    physByte (ps.foldl (fun t p => physSetByte t (pa + p.1) p.2) s) qa = physByte s qa := by
  induction ps generalizing s with
  | nil => rfl
  | cons p ps ih =>
    rw [List.foldl_cons, ih (fun q hq => h q (List.mem_cons_of_mem _ hq)), physByte_physSetByte_ne _ _ _ _ (h p List.mem_cons_self)]

/-- A fold of writes to different addresses makes each of them. -/
theorem physByte_foldl_of_mem {p : Nat × Byte} (hn : (ps.map (·.1)).Nodup) (hp : p ∈ ps) (s : State) :
    physByte (ps.foldl (fun t p => physSetByte t (pa + p.1) p.2) s) (pa + p.1) = p.2 := by
  induction ps generalizing s with
  | nil => exact absurd hp List.not_mem_nil
  | cons q ps ih =>
    rw [List.map_cons, List.nodup_cons] at hn
    rw [List.foldl_cons]
    rcases List.mem_cons.1 hp with rfl | hm
    · have hne : ∀ r ∈ ps, pa + p.1 ≠ pa + r.1 := fun r hr he => hn.1 (List.mem_map.2 ⟨r, hr, (Nat.add_left_cancel he).symm⟩)
      rw [physByte_foldl_of_ne hne, physByte_physSetByte_self]
    · exact ih hn.2 hm _

end

section
variable (s : State) (pa : Nat) (bs : List Byte)

/-- What a write of a range makes of a byte: the fold of its bytes. -/
theorem physByte_physWrite (qa : Nat) :
    physByte (physWrite s pa bs) qa =
      physByte (((List.range bs.length).zip bs).foldl (fun t p => physSetByte t (pa + p.1) p.2) s) qa := rfl

theorem physByte_physWrite_of_outside {qa : Nat} (h : qa < pa ∨ pa + bs.length ≤ qa) :
    physByte (physWrite s pa bs) qa = physByte s qa := by
  rw [physByte_physWrite]
  refine physByte_foldl_of_ne (fun p hp => ?_) s
  have := List.mem_range.1 (List.of_mem_zip hp).1
  omega

/-- A range written at its home slices reads back. -/
theorem physRead_physWrite_self : physRead (physWrite s pa bs) pa bs.length = bs := by
  refine List.ext_getElem (length_physRead ..) fun i hi hib => ?_
  have hn : (((List.range bs.length).zip bs).map (·.1)).Nodup := by
    rw [List.map_fst_zip (by rw [List.length_range])]
    exact List.nodup_range
  have hp : (i, bs[i]) ∈ (List.range bs.length).zip bs :=
    List.mem_iff_getElem.2 ⟨i, by simpa using hib, by simp⟩
  have hbyte : physByte (physWrite s pa bs) (pa + i) = bs[i] := physByte_foldl_of_mem hn hp s
  simpa [physRead] using hbyte

end

/-- Reads that no byte of memory tells apart. -/
theorem physRead_congr {s t : State} (h : ∀ p, physByte t p = physByte s p) (pa n : Nat) : physRead t pa n = physRead s pa n := by
  simp only [physRead, h]

theorem physByte_reply (t : State) (n : Nat) (st : AccStage) (e : Event) (p : Nat) :
    physByte (push (stageAcc t n st) e) p = physByte t p := rfl

theorem cores_reply (t : State) (n : Nat) (st : AccStage) (e : Event) : (push (stageAcc t n st) e).cores = t.cores := rfl

/-! ### Accesses at their home slice (R263, R266, R267) -/

section
variable {s : State} {a : Access} {pa : Nat} (hf : findAcc s a.id = some a) (hs : a.stage = .home pa) (hb : accBlocked s a = false)
include hf hs hb

theorem execStorePerform_home (hkind : a.kind = .store) (hi : invalidateCopies s (lineOf pa) = none) :
    execStorePerform a.id s = .next (dropAcc (physWrite s pa a.data) a.id) := by
  unfold execStorePerform
  simp [hf, hs, hb, hkind, hi, done]

/-- The memory after an atomic at its home slice: its release noted, its sectors filled, its bytes written. -/
def atomWritten (s : State) (a : Access) (pa op sc : Nat) (y v : Word) (rel : Bool) : State :=
  physWrite (fillRange (maybeReleased rel s a.core sc a.id) pa a.size) pa (atomBytes op (physRead s pa a.size) y v)

theorem execAtomicPerform_home {op sc : Nat} {d : BitVec 5} {y v upc : Word} {acq rel : Bool}
    (hkind : a.kind = .atom op d y v acq rel sc upc) (hrel : rel = true → accReleased s a sc = true)
    (hbad : sectorBad s pa a.size = false) (hi : invalidateCopies s (lineOf pa) = none) :
    execAtomicPerform a.id s =
      .next (push (stageAcc (atomWritten s a pa op sc y v rel) a.id (.replied (physRead s pa a.size))) (.loadResponse a.id)) := by
  have hwait : (rel && !accReleased s a sc) = false := by
    cases rel
    · rfl
    · simp [hrel rfl]
  unfold execAtomicPerform
  simp [hf, hs, hb, hkind, hwait, hbad, hi, done, atomWritten, maybeReleased]

theorem execSliceRead_held {d : BitVec 5} {sx : Bool} {upc : Word} (hkind : a.kind = .load d sx upc) (hbad : sectorBad s pa a.size = false)
    (hhas : ∀ i < a.size, lineHas (getLine s (lineOf pa)) (pa + i) = true) :
    execSliceRead a.id s =
      .next (push (stageAcc (countRead s (lineOf pa) (some (a.core, ctxOf s a.core, vlineOf a))) a.id
        (.replied (physRead s pa a.size))) (.loadResponse a.id)) := by
  have hload : accLoad a = true := by rw [accLoad, hkind]
  have hall : (List.range a.size).all (fun i => lineHas (getLine s (lineOf pa)) (pa + i)) = true :=
    List.all_eq_true.2 fun i hi => hhas i (List.mem_range.1 hi)
  unfold execSliceRead
  simp [hf, hs, hb, hload, hbad, hall, done]

end

section
variable (s : State) (a : Access) (pa op sc : Nat) (y v : Word) (rel : Bool)

theorem readOnly_fillReleased : ReadOnly s (fillRange (maybeReleased rel s a.core sc a.id) pa a.size) :=
  ReadOnly.trans ⟨maybeReleased_cores .., sameMem_maybeReleased ..⟩ (readOnly_fillRange ..)

theorem length_atomBytes_physRead : (atomBytes op (physRead s pa a.size) y v).length = a.size := by
  rw [length_atomBytes, length_physRead]

theorem atomWritten_cores : (atomWritten s a pa op sc y v rel).cores = s.cores :=
  (physWrite_cores ..).trans (readOnly_fillReleased s a pa sc rel).1

theorem sameTraffic_atomWritten : SameTraffic s (atomWritten s a pa op sc y v rel) :=
  ((sameTraffic_maybeReleased ..).trans (sameTraffic_fillRange ..)).trans (sameTraffic_physWrite ..)

theorem physRead_atomWritten :
    physRead (atomWritten s a pa op sc y v rel) pa a.size = atomBytes op (physRead s pa a.size) y v := by
  have h := physRead_physWrite_self (fillRange (maybeReleased rel s a.core sc a.id) pa a.size) pa
    (atomBytes op (physRead s pa a.size) y v)
  rwa [length_atomBytes_physRead] at h

theorem physByte_atomWritten_of_outside {qa : Nat} (h : qa < pa ∨ pa + a.size ≤ qa) :
    physByte (atomWritten s a pa op sc y v rel) qa = physByte s qa := by
  obtain ⟨-, hbytes, -⟩ := readOnly_fillReleased s a pa sc rel
  exact (physByte_physWrite_of_outside _ _ _ (by rwa [length_atomBytes_physRead])).trans (hbytes qa)

end

/-! ### Sectors filled (R260) -/

/-- Room for a line is made at its own home slice alone, and the line itself stays as it is. -/
theorem getLine_makeRoom (s : State) {l m : Nat} (h : m % 192 ≠ l % 192 ∨ m = l ∨ sliceUsed s (l % 192) < sliceDepth) :
    getLine (makeRoom s l) m = getLine s m := by
  unfold makeRoom
  split
  · rfl
  · next hfull =>
    simp only [Bool.or_eq_true, decide_eq_true_eq, not_or, Bool.not_eq_true] at hfull
    obtain ⟨hheld, hroom⟩ := hfull
    dsimp only
    split
    · next p hp =>
      have hmem := List.mem_of_getElem? hp
      simp only [List.mem_filter, Bool.and_eq_true, beq_iff_eq] at hmem
      obtain ⟨hin, hslice, -⟩ := hmem
      have hne : p.1 ≠ l := by
        rintro rfl
        exact absurd (List.any_eq_false.1 hheld p hin) (by simp)
      refine (getLine_evictLine_ne s p.1 m ?_ : getLine (bumpFree (evictLine s p.1)) m = getLine s m)
      rintro rfl
      rcases h with h | h | h
      · exact h hslice
      · exact hne h
      · exact hroom h
    · rfl

theorem execSectorFill_of_lt (s : State) (l : Nat) {i : Nat} (hi : i < 4) : execSectorFill l i s = .next (fillSector s l i) := by
  unfold execSectorFill
  rw [if_pos hi]
  rfl

theorem filled_fillSector (s : State) (l : Nat) {i : Nat} (hi : i < 4) : (getLine (fillSector s l i) l).filled.getLsbD i = true := by
  unfold fillSector
  dsimp only
  split
  · next h => rwa [getLine_makeRoom s (.inr (.inl rfl))] at h
  · rw [getLine_setLine_self]
    simp [hi]

theorem getLine_fillSector_ne (s : State) {l m : Nat} (i : Nat) (hne : m ≠ l)
    (h : m % 192 ≠ l % 192 ∨ sliceUsed s (l % 192) < sliceDepth) : getLine (fillSector s l i) m = getLine s m := by
  unfold fillSector
  dsimp only
  split
  · rfl
  · rw [getLine_setLine_ne _ _ _ _ hne, getLine_makeRoom s (h.imp_right .inr)]

/-! ### Replicas, redirects and windows (R262, R263) -/

section
variable {s : State} {a : Access} {h pa : Nat} (hf : findAcc s a.id = some a) (hs : a.stage = .helper h pa)
  (hb : accBlocked s a = false) (hw : writeAhead s a = false)
include hf hs hb hw

theorem execHelperRead_replica {r : Replica}
    (hr : s.replicas.find? (fun r => r.line == lineOf pa && r.helper == h && r.filled.getLsbD (pa % 256 / 64)) = some r) :
    execHelperRead a.id s = .next (push (stageAcc s a.id (.replied (memRead r.data (pa % 256) a.size))) (.loadResponse a.id)) := by
  unfold execHelperRead
  simp only [hf, hs, hb, hw, hr, done, Bool.or_false, Bool.false_eq_true, if_false]

theorem execHelperRead_home
    (hr : s.replicas.find? (fun r => r.line == lineOf pa && r.helper == h && r.filled.getLsbD (pa % 256 / 64)) = none) :
    execHelperRead a.id s = .next (push (stageAcc s a.id (.home pa)) (.sliceRead a.id)) := by
  unfold execHelperRead
  simp only [hf, hs, hb, hw, hr, done, Bool.or_false, Bool.false_eq_true, if_false]

end

/-- The state without the copies of a line at one holder (R262, R263). -/
def copiesDropped (s : State) (line holder : Nat) : State :=
  { s with
    replicas := s.replicas.filter (fun r => !(r.line == line && r.helper == holder)),
    redirects := s.redirects.filter (fun r => !(r.line == line && 192 + r.ni == holder)) }

section
variable {s : State} {line holder : Nat}

theorem replicas_copiesDropped : ∀ r ∈ (copiesDropped s line holder).replicas, ¬ (r.line = line ∧ r.helper = holder) :=
  fun r hr => by simpa [imp_iff_not_or] using (List.mem_filter.1 hr).2

theorem redirects_copiesDropped : ∀ r ∈ (copiesDropped s line holder).redirects, ¬ (r.line = line ∧ 192 + r.ni = holder) :=
  fun r hr => by simpa [imp_iff_not_or] using (List.mem_filter.1 hr).2

/-- The line without the acknowledgement of a holder outstanding (R263). -/
def ackedLine (s : State) (line holder : Nat) : Line :=
  { getLine s line with invalidating := (getLine s line).invalidating.filter (fun h => h != holder) }

theorem execReplicaInvalidateAck_awaited (h : holder ∈ (getLine s line).invalidating) :
    execReplicaInvalidateAck line holder s = .next (setLine (copiesDropped s line holder) line (ackedLine s line holder)) := by
  unfold execReplicaInvalidateAck
  simp only [List.contains_iff_mem.2 h, done]
  rfl

theorem physByte_acked (qa : Nat) :
    physByte (setLine (copiesDropped s line holder) line (ackedLine s line holder)) qa = physByte s qa := by
  unfold physByte
  by_cases hl : lineOf qa = line
  · rw [hl, getLine_setLine_self]
    rfl
  · rw [getLine_setLine_ne _ _ _ _ hl]
    rfl

end

/-- Settles O17: accesses at their home slice by what a write and a fill leave of memory; fills, copies and windows by the tables that they
change. -/
theorem moduleMemory : Obligations.ModuleMemory := by
  unfold Obligations.ModuleMemory
  refine ⟨fun s a pa hf hs hb => ⟨fun hkind hi => ?_, fun op d y v acq rel sc upc hkind hrel hbad hi => ?_,
    fun d sx upc hkind hbad hhas => ?_⟩, fun s line sector hsec => ?_, fun s line holder slice =>
    ⟨fun a h pa hf hs hb hw => ⟨fun r hr => execHelperRead_replica hf hs hb hw hr, fun hr => execHelperRead_home hf hs hb hw hr⟩,
      fun hh => ?_, ?_, ?_⟩⟩
  · exact ⟨_, execStorePerform_home hf hs hb hkind hi, physRead_physWrite_self ..,
      fun p hp => physByte_physWrite_of_outside s pa a.data hp, findAcc_dropAcc_self .., physWrite_cores ..,
      (sameTraffic_physWrite s pa a.data).agenda⟩
  · have hwritten := sameTraffic_atomWritten s a pa op sc y v rel
    refine ⟨_, execAtomicPerform_home hf hs hb hkind hrel hbad hi, answered_stageAcc hf hwritten (.replied (physRead s pa a.size)),
      ?_, fun p hp => ?_, ?_⟩
    · exact (physRead_congr (physByte_reply _ _ _ _) pa a.size).trans (physRead_atomWritten ..)
    · exact (physByte_reply ..).trans (physByte_atomWritten_of_outside _ _ _ _ _ _ _ _ hp)
    · exact (cores_reply ..).trans (atomWritten_cores ..)
  · have hcount := sameTraffic_countRead s (lineOf pa) (some (a.core, ctxOf s a.core, vlineOf a))
    obtain ⟨hcores, hbytes, -⟩ := readOnly_countRead s (lineOf pa) (some (a.core, ctxOf s a.core, vlineOf a))
    refine ⟨_, execSliceRead_held hf hs hb hkind hbad hhas, answered_stageAcc hf hcount (.replied (physRead s pa a.size)),
      fun p => ?_, ?_⟩
    · exact (physByte_reply ..).trans (hbytes p)
    · exact (cores_reply ..).trans hcores
  · obtain ⟨hcores, hmem⟩ := readOnly_fillSector s line sector
    exact ⟨_, execSectorFill_of_lt s line hsec, filled_fillSector s line hsec, hmem,
      fun l hl => getLine_fillSector_ne s sector (fun he => hl (congrArg (· % 192) he)) (.inl hl),
      fun hroom l hl => getLine_fillSector_ne s sector hl (.inr hroom), hcores⟩
  · refine ⟨_, execReplicaInvalidateAck_awaited hh, ?_, replicas_copiesDropped, redirects_copiesDropped, physByte_acked⟩
    rw [getLine_setLine_self]
    simp [ackedLine]
  · exact ⟨copiesDropped s line holder, rfl, replicas_copiesDropped, redirects_copiesDropped, fun _ => rfl, fun _ => rfl⟩
  · exact ⟨_, rfl, fun h hh => by simpa using (List.mem_filter.1 hh).2,
      fun h hh hne => List.mem_filter.2 ⟨hh, by simpa using hne⟩, rfl, rfl⟩

end Sys2Proof.Machine
end

section
/-! Accesses to peer scratchpads (R254-R257). -/

namespace Sys2Proof.Machine

section
variable {s : State} {a : Access} {c off : Nat} (hf : findAcc s a.id = some a) (hs : a.stage = .sent)
  (hp : placeOf a.core a.addr = .peer c off)
include hf hs hp

/-- Where the target cannot be reached an access fails at its address (R256, R508). -/
theorem execPeerAccessArrive_fails {k : Nat} (hk : peerKind s a.core c a.egen = some k) :
    execPeerAccessArrive a.id s = .next (failAcc s a k a.addr) := by
  unfold execPeerAccessArrive
  simp only [hf, hs, hp, hk, done]

variable (hb : accBlocked s a = false) (ho : coreOut s c = false) (hr : reloading s c off a.size = false)
  (hk : peerKind s a.core c a.egen = none)
include hb ho hr hk

theorem execPeerAccessArrive_store (hkind : a.kind = .store) :
    execPeerAccessArrive a.id s = .next (dropAcc (spadWrite s c off a.data) a.id) := by
  unfold execPeerAccessArrive
  simp [hf, hs, hp, hk, hb, ho, hr, hkind, done]

theorem execPeerAccessArrive_load {d : BitVec 5} {sx : Bool} {upc : Word} (hkind : a.kind = .load d sx upc) :
    execPeerAccessArrive a.id s =
      .next (push (stageAcc s a.id (.replied (spadRead s c off a.size))) (.loadResponse a.id)) := by
  unfold execPeerAccessArrive
  simp [hf, hs, hp, hk, hb, ho, hr, hkind, done]

theorem execPeerAccessArrive_atomic {op sc : Nat} {d : BitVec 5} {y v upc : Word} {acq rel : Bool}
    (hkind : a.kind = .atom op d y v acq rel sc upc) (hrel : rel = true → accReleased s a sc = true) :
    execPeerAccessArrive a.id s =
      .next (push (stageAcc (spadWrite (maybeReleased rel s a.core sc a.id) c off (atomBytes op (spadRead s c off a.size) y v)) a.id
        (.replied (spadRead s c off a.size))) (.loadResponse a.id)) := by
  have hwait : (rel && !accReleased s a sc) = false := by
    cases rel
    · rfl
    · simp [hrel rfl]
  unfold execPeerAccessArrive
  simp [hf, hs, hp, hk, hb, ho, hr, hkind, hwait, done, maybeReleased]

end

/-- Settles O18: what each kind of access does at its target, and the failure of one that cannot be performed there. -/
theorem peerAccess : Obligations.PeerAccess := by
  unfold Obligations.PeerAccess
  intro s a c off hf hs hp hb ho hr
  refine ⟨fun hk => ⟨fun hkind => ?_, fun d sx upc hkind => ?_, fun op d y v acq rel sc upc hkind hrel => ?_⟩,
    fun k d sx upc hk hkind => ?_⟩
  · have hframe := (SpadFrame.refl s c off a.data.length).spadWrite rfl
    exact ⟨_, execPeerAccessArrive_store hf hs hp hb ho hr hk hkind, memRead_spadWrite_self .., hframe, findAcc_dropAcc_self ..⟩
  · exact ⟨_, execPeerAccessArrive_load hf hs hp hb ho hr hk hkind, answered_stageAcc hf (.refl s) _, SpadFrame.refl s c off 0⟩
  · let old := spadRead s c off a.size
    have hlen : (atomBytes op old y v).length = a.size := by simp [old, spadRead]
    have hframe := ((SpadFrame.refl s c off a.size).congr (maybeReleased_cores rel s a.core sc a.id)
      (sameMem_maybeReleased ..)).spadWrite hlen
    have htraffic := sameTraffic_maybeReleased rel s a.core sc a.id
    refine ⟨_, execPeerAccessArrive_atomic hf hs hp hb ho hr hk hkind hrel, answered_stageAcc hf ⟨htraffic.accs, htraffic.agenda⟩ _,
      ?_, hframe⟩
    have hread := memRead_spadWrite_self (maybeReleased rel s a.core sc a.id) c off (atomBytes op old y v)
    rwa [hlen] at hread
  · have hfail : failAcc s a k a.addr = push (stageAcc s a.id (.failed k a.addr)) (.loadResponse a.id) := by
      rw [failAcc, hkind]
    exact ⟨_, execPeerAccessArrive_fails hf hs hp hk, hfail ▸ answered_stageAcc hf (.refl s) _, hfail ▸ SpadFrame.refl s c off 0⟩

end Sys2Proof.Machine
end

section
/-! Accumulator stores (R278): reading what was written, and the entries that a band of rows changes. -/

namespace Sys2Proof.Machine

/-! ### Entries (R278) -/

@[simp] theorem accGet_accSet_self (a : AccStore) (k : Nat) (v : BitVec 32) : accGet (accSet a k v) k = v := tabGet_tabSet_self ..

theorem accGet_accSet_ne (a : AccStore) {k l : Nat} (v : BitVec 32) (h : l ≠ k) : accGet (accSet a k v) l = accGet a l :=
  tabGet_tabSet_ne _ _ _ _ _ h

/-- Places within the array's width have different entries (R278). -/
theorem accKey_inj {cls r c r' c' : Nat} (hc : c < arrayWidth cls) (hc' : c' < arrayWidth cls) (h : accKey cls r c = accKey cls r' c') :
    r = r' ∧ c = c' := by
  unfold accKey at h
  have hcol : c = c' := by
    have hmod := congrArg (· % arrayWidth cls) h
    simpa only [Nat.mul_add_mod_of_lt hc, Nat.mul_add_mod_of_lt hc'] using hmod
  subst hcol
  exact ⟨Nat.eq_of_mul_eq_mul_right (Nat.zero_lt_of_lt hc) (Nat.add_right_cancel h), rfl⟩

/-- The entry of a place of a tile from the origin that an operand names (R278). -/
def accEntry (cls : Nat) (v : Word) (p : Nat × Nat) : Nat := accKey cls ((accOrigin v).1 + p.1) ((accOrigin v).2 + p.2)

/-! ### Entries changed at a list of places -/

/-- The store with the entries of a list of places changed, each from its old value. -/
def accUpdated (key : Nat × Nat → Nat) (g : Nat × Nat → BitVec 32 → BitVec 32) (l : List (Nat × Nat)) (a : AccStore) : AccStore :=
  l.foldl (fun t p => accSet t (key p) (g p (accGet t (key p)))) a

section
variable {key : Nat × Nat → Nat} {g : Nat × Nat → BitVec 32 → BitVec 32} {l : List (Nat × Nat)} {a : AccStore}

theorem accGet_accUpdated_of_ne {k : Nat} (h : ∀ p ∈ l, k ≠ key p) : accGet (accUpdated key g l a) k = accGet a k := by
  induction l generalizing a with
  | nil => rfl
  | cons p r ih =>
    obtain ⟨hp, hr⟩ := List.forall_mem_cons.1 h
    exact (ih hr).trans (accGet_accSet_ne _ _ hp)

/-- Where no two places of the list have one entry, each entry takes its new value from its first one. -/
theorem accGet_accUpdated_of_mem (hkey : l.Pairwise fun p q => key p ≠ key q) {p : Nat × Nat} (hp : p ∈ l) :
    accGet (accUpdated key g l a) (key p) = g p (accGet a (key p)) := by
  induction l generalizing a with
  | nil => cases hp
  | cons q r ih =>
    obtain ⟨hq, hr⟩ := List.pairwise_cons.1 hkey
    rcases List.mem_cons.1 hp with rfl | hmem
    · exact (accGet_accUpdated_of_ne hq).trans (accGet_accSet_self ..)
    · exact (ih hr hmem).trans (by rw [accGet_accSet_ne _ _ (hq p hmem).symm])

end

/-! ### Entries changed by a band (R190, R278) -/

/-- The places of the valid extent in rows `lo` up to `hi`. -/
def bandPlaces (lo hi vrows n : Nat) : List (Nat × Nat) := (List.range' lo (hi - lo)).filter (· < vrows) ×ˢ List.range n

/-- The store after the places of a row have changed, if the row is valid. -/
def rowAcc (cls : Nat) (v : Word) (g : Nat × Nat → BitVec 32 → BitVec 32) (vrows n i : Nat) (a : AccStore) : AccStore :=
  if i < vrows then accUpdated (accEntry cls v) g ((List.range n).map fun j => (i, j)) a else a

/-- The store after the valid places of a band have changed. -/
def bandAcc (cls : Nat) (v : Word) (g : Nat × Nat → BitVec 32 → BitVec 32) (lo hi vrows n : Nat) (a : AccStore) : AccStore :=
  accUpdated (accEntry cls v) g (bandPlaces lo hi vrows n) a

section
variable {cls : Nat} {v : Word} {g : Nat × Nat → BitVec 32 → BitVec 32} {lo hi vrows n i j : Nat} {a : AccStore}

theorem mem_bandPlaces : (i, j) ∈ bandPlaces lo hi vrows n ↔ lo ≤ i ∧ i < hi ∧ i < vrows ∧ j < n := by
  simp only [bandPlaces, List.mem_product, List.mem_filter, List.mem_range'_1, List.mem_range, decide_eq_true_eq]
  omega

theorem bandPlaces_nodup (lo hi vrows n : Nat) : (bandPlaces lo hi vrows n).Nodup :=
  ((List.nodup_range' 1).filter _).product List.nodup_range

/-- The rows of a band are done one after the other. -/
theorem foldl_rowAcc : (List.range' lo (hi - lo)).foldl (fun t i => rowAcc cls v g vrows n i t) a = bandAcc cls v g lo hi vrows n a := by
  simp only [bandAcc, accUpdated, bandPlaces, SProd.sprod, List.product, List.foldl_flatMap, List.foldl_filter, rowAcc, decide_eq_true_eq]

/-- Each valid place of a band takes its new value (R278). -/
theorem accGet_bandAcc (hn : (accOrigin v).2 + n ≤ arrayWidth cls) (hin : lo ≤ i ∧ i < hi ∧ i < vrows ∧ j < n) :
    accGet (bandAcc cls v g lo hi vrows n a) (accEntry cls v (i, j)) = g (i, j) (accGet a (accEntry cls v (i, j))) := by
  refine accGet_accUpdated_of_mem ((bandPlaces_nodup lo hi vrows n).pairwise_of_forall_ne ?_) (mem_bandPlaces.2 hin)
  rintro ⟨r, c⟩ hp ⟨r', c'⟩ hq hne hkey
  obtain ⟨-, -, -, hc⟩ := mem_bandPlaces.1 hp
  obtain ⟨-, -, -, hc'⟩ := mem_bandPlaces.1 hq
  obtain ⟨hrow, hcol⟩ := accKey_inj (by dsimp only; omega) (by dsimp only; omega) hkey
  exact hne (Prod.ext (Nat.add_left_cancel hrow) (Nat.add_left_cancel hcol))

/-- A band leaves every entry but those of its valid places (R278). -/
theorem accGet_bandAcc_of_ne {k : Nat} (h : ∀ i j, lo ≤ i ∧ i < hi ∧ i < vrows ∧ j < n → k ≠ accEntry cls v (i, j)) :
    accGet (bandAcc cls v g lo hi vrows n a) k = accGet a k :=
  accGet_accUpdated_of_ne fun p hp => h p.1 p.2 (mem_bandPlaces.1 hp)

end

end Sys2Proof.Machine
end

section
/-! The rows of the accumulator and matrix instructions on a lone core (R287, R289, R292). -/

namespace Sys2Proof.Machine

/-! ### Rows of the accumulator instructions (R292) -/

/-- The values of a row go to the entries of its places. -/
theorem foldl_accSet_values (cls : Nat) (v : Word) (f : Nat → Nat → Nat) (i n : Nat) (a : AccStore) :
    ((List.range ((List.range n).map (f i)).length).zip ((List.range n).map (f i))).foldl
        (fun t p => accSet t (accKey cls ((accOrigin v).1 + i) ((accOrigin v).2 + p.1)) (BitVec.ofNat 32 p.2)) a =
      accUpdated (accEntry cls v) (fun p _ => BitVec.ofNat 32 (f p.1 p.2)) ((List.range n).map fun j => (i, j)) a := by
  rw [List.length_map, List.length_range, ← List.map_prod_left_eq_zip, accUpdated, List.foldl_map, List.foldl_map]
  rfl

section
variable {lead : Ctx} {cls : Nat} {d : BitVec 4} {g : BitVec 5} {q : BitVec 1} {b : Tile} {mode : Rnd} {sm : SatMode} {v : Word} {w : View}
  (hd : getTile lead d = some b) (hb : TileOk b) (hw : w.idx = 0)
include hd hb hw

theorem accRow_azero (acc : AccStore) (seed : BitVec 32) (r : Nat) :
    accRow lead cls (.azero d g q) mode sm v w acc seed r = (w.mem, rowAcc cls v (fun _ _ => 0) b.vrows b.vcols r acc, seed) := by
  have hstore := foldl_accSet_values cls v (fun _ _ => 0) r b.vcols acc
  rw [List.map_const', List.length_range] at hstore
  simp only [accRow, accExtent, tileOr, hd, Option.getD_some, hw, memberTile_zero hb.2.2, hstore, rowAcc]
  by_cases h : r < b.vrows
  · simp only [if_pos h, if_neg (Nat.not_le.2 h)]
    rfl
  · simp only [if_neg h, if_pos (Nat.not_lt.1 h)]

theorem accRow_amovin (acc : AccStore) (seed : BitVec 32) (r : Nat) :
    accRow lead cls (.amovin d g q) mode sm v w acc seed r =
      (w.mem, rowAcc cls v (fun p _ => BitVec.ofNat 32 (rawElem w.mem b p.1 p.2)) b.vrows b.vcols r acc, seed) := by
  have hstore := foldl_accSet_values cls v (rawElem w.mem b) r b.vcols acc
  simp only [accRow, accExtent, tileOr, hd, Option.getD_some, hw, memberTile_zero hb.2.2, hstore, rowAcc]
  by_cases h : r < b.vrows
  · simp only [if_pos h, if_neg (Nat.not_le.2 h)]
  · simp only [if_neg h, if_pos (Nat.not_lt.1 h)]

theorem accRow_amovout (hmode : mode ≠ .stoch) (acc : AccStore) (seed : BitVec 32) (r : Nat) :
    accRow lead cls (.amovout d g q) mode sm v w acc seed r =
      (writtenRow w.mem b r (fun j => (accGet acc (accEntry cls v (r, j))).toNat), acc, seed) := by
  have hstill : (mode == .stoch) = false := beq_false_of_ne hmode
  simp only [accRow, accExtent, tileOr, hd, Option.getD_some, hw, memberTile_zero hb.2.2, hstill, rowElems_still, writtenRow,
    List.range_eq_range']
  by_cases h : r < b.vrows
  · simp only [if_pos h, if_neg (Nat.not_le.2 h)]
    rfl
  · simp only [if_neg h, if_pos (Nat.not_lt.1 h)]

end

/-! ### Rows of the matrix instructions (R289) -/

/-- The product of a row of A and a column of B added to an old entry, or to +0 (R119, R287). -/
def mmaEntry (lead : Ctx) (w : View) (f : MmaForm) (ta : Tile) (sl : Slot) (p : Nat × Nat) (old : BitVec 32) : BitVec 32 :=
  dotAcc ta.fmt sl.fmt (if f.zero then 0 else old) (alignARow w lead f sl.k p.1) (sl.cols.getD p.2 [])

/-- Without offsets every row of A belongs to the first group (R288, R289). -/
theorem rowGroup_of_rows {rows m : Nat} (h : m < rows) : rowGroup [0, (rows : Int)] m = some 0 := by
  have hm : (m : Int) < rows := Int.ofNat_lt.2 h
  simp [rowGroup, List.range_succ, hm]

/-- A row of a product of one fold changes the entries of its columns (R279, R289). -/
theorem mmaRow_of_oneFold {lead : Ctx} {k : Core} {cls : Nat} {f : MmaForm} {v : Word} {w : View} {ta : Tile} (hf : f.offs = none)
    (ha : getTile lead f.a = some ta) (hb : TileOk ta) (hw : w.idx = 0)
    (hn : (accOrigin v).2 + (getSlot k f.slot).n ≤ arrayWidth cls) (acc : AccStore) (m : Nat) :
    mmaRow lead k cls f v w acc m =
      rowAcc cls v (mmaEntry lead w f ta (getSlot k f.slot)) ta.vrows (getSlot k f.slot).n m acc := by
  simp only [mmaRow, tileOr, ha, Option.getD_some, hw, memberTile_zero hb.2.2, formOffsets, hf, rowAcc]
  by_cases h : m < ta.vrows
  · simp only [if_pos h, if_neg (Nat.not_le.2 h), rowGroup_of_rows (h.trans_le hb.2.1), Nat.add_zero, accUpdated, List.foldl_map]
    refine List.foldl_ext _ _ _ fun t n hmem => ?_
    have hlt : n < arrayWidth cls := by
      have := List.mem_range.1 hmem
      omega
    rw [Nat.div_eq_of_lt hlt, Nat.mod_eq_of_lt hlt, Nat.mul_zero, Nat.add_zero]
    rfl
  · simp only [if_neg h, if_pos (Nat.not_lt.1 h)]

end Sys2Proof.Machine
end

section
/-! A band of the accumulator and matrix instructions on a lone core (R190, R279, R289, R292), and the obligation on them. -/

namespace Sys2Proof.Machine

/-! ### The forms (R287, R292) -/

theorem mmaForm_of_accExtent {i : Instr} {e : BitVec 4 × Nat} (h : accExtent i = some e) : mmaForm i = none := by
  unfold mmaForm
  split
  case h_4 => rfl
  all_goals cases h

theorem isRowUnit_of_accExtent {i : Instr} {e : BitVec 4 × Nat} (h : accExtent i = some e) : isRowUnit i = false := by
  unfold isRowUnit
  split
  case h_4 => rfl
  all_goals cases h

theorem isRowUnit_of_mmaForm {i : Instr} {f : MmaForm} (h : mmaForm i = some f) : isRowUnit i = false := by
  unfold isRowUnit
  split
  case h_4 => rfl
  all_goals cases h

/-- An accumulator instruction waits for no slot (R275). -/
theorem slotsStand_of_accExtent {i : Instr} {e : BitVec 4 × Nat} (h : accExtent i = some e) (k : Core) : slotsStand k i = .pass := by
  simp only [slotsStand, mmaForm_of_accExtent h]

section
variable {s : State} {c : Nat} {u : TileUnit} {b : Tile}

theorem bandRows_of_accExtent {d : BitVec 4} {code : Nat} (h : accExtent u.instr = some (d, code)) (hd : getTile (getCtx s c) d = some b) :
    bandRows s c u = b.rows := by
  unfold bandRows
  dsimp only
  split
  case h_4 => simp only [mmaForm_of_accExtent h, h, tileOr, hd, Option.getD_some]
  all_goals next he => rw [he] at h; cases h

theorem bandRows_of_mmaForm {f : MmaForm} (h : mmaForm u.instr = some f) (ha : getTile (getCtx s c) f.a = some b) :
    bandRows s c u = b.rows := by
  unfold bandRows
  dsimp only
  split
  case h_4 => simp only [h, tileOr, ha, Option.getD_some]
  all_goals next he => rw [he] at h; cases h

end

/-! ### The rows of a band (R190) -/

/-- What a core outside a gang sees: its own scratchpad, and no neighbour (R75). -/
abbrev loneView (m : Memory) : View := { mem := m, plus := none, minus := none, idx := 0 }

section
variable {s : State} {c : Nat} {u : TileUnit}

/-- A band of an accumulator instruction whose rows change the store alone (R292). -/
theorem memberBand_of_rowAcc (hg : (getCore s c).gang = .none) {e : BitVec 4 × Nat} (he : accExtent u.instr = some e) {v : Word}
    {g : Nat × Nat → BitVec 32 → BitVec 32} {vrows n lo hi : Nat}
    (hrow : ∀ acc seed r,
      accRow (getCtx s c) (classOf c) u.instr (modeRnd u.xmod) (modeSat u.xmod) v (loneView (getCore s c).spad) acc seed r =
        ((getCore s c).spad, rowAcc (classOf c) v g vrows n r acc, seed)) :
    memberBand s c u v lo hi s (0, c) =
      putMember s c (getCore s c).spad (bandAcc (classOf c) v g lo hi vrows n (getCtx s c).acc) (getCtx s c).sys.rseed := by
  have hfold (rows : List Nat) (a : AccStore) (seed : BitVec 32) :
      rows.foldl (fun (r : Memory × AccStore × BitVec 32) i => accRow (getCtx s c) (classOf c) u.instr (modeRnd u.xmod) (modeSat u.xmod) v
        (loneView r.1) r.2.1 r.2.2 i) ((getCore s c).spad, a, seed) =
      ((getCore s c).spad, rows.foldl (fun t i => rowAcc (classOf c) v g vrows n i t) a, seed) := by
    induction rows generalizing a with
    | nil => rfl
    | cons i rows ih => rw [List.foldl_cons, List.foldl_cons, hrow, ih]
  simp only [memberBand, mmaForm_of_accExtent he, he, viewOf_of_lone hg, ← List.range'_eq_map_range]
  rw [hfold, foldl_rowAcc]
  rfl

/-- A band of AMOVOUT writes the rows of its tile (R292). -/
theorem memberBand_amovout (hg : (getCore s c).gang = .none) {d : BitVec 4} {g : BitVec 5} {q : BitVec 1} (hu : u.instr = .amovout d g q)
    {b : Tile} (hd : getTile (getCtx s c) d = some b) (hb : TileOk b) (hmode : modeRnd u.xmod ≠ .stoch) (v : Word) (lo hi : Nat) :
    memberBand s c u v lo hi s (0, c) =
      putMember s c
        (writtenRows b (fun _ i j => (accGet (getCtx s c).acc (accEntry (classOf c) v (i, j))).toNat) (getCore s c).spad lo (hi - lo))
        (getCtx s c).acc (getCtx s c).sys.rseed := by
  have hfold (i n : Nat) (m : Memory) (a : AccStore) (seed : BitVec 32) :
      (List.range' i n).foldl (fun (r : Memory × AccStore × BitVec 32) i => accRow (getCtx s c) (classOf c) (.amovout d g q)
        (modeRnd u.xmod) (modeSat u.xmod) v (loneView r.1) r.2.1 r.2.2 i) (m, a, seed) =
      (writtenRows b (fun _ i j => (accGet a (accEntry (classOf c) v (i, j))).toNat) m i n, a, seed) := by
    induction n generalizing i m with
    | zero => rfl
    | succ n ih => rw [List.range'_succ, List.foldl_cons, accRow_amovout hd hb rfl hmode, ih, writtenRows]
  simp only [memberBand, hu, mmaForm, accExtent, viewOf_of_lone hg, ← List.range'_eq_map_range]
  rw [hfold]
  rfl

/-- A band of a product of one fold (R289). -/
theorem memberBand_mma (hg : (getCore s c).gang = .none) {f : MmaForm} (hu : mmaForm u.instr = some f) (hf : f.offs = none) {ta : Tile}
    (ha : getTile (getCtx s c) f.a = some ta) (hb : TileOk ta) {v : Word}
    (hn : (accOrigin v).2 + (getSlot (getCore s c) f.slot).n ≤ arrayWidth (classOf c)) (lo hi : Nat) :
    memberBand s c u v lo hi s (0, c) =
      putMember s c (getCore s c).spad
        (bandAcc (classOf c) v (mmaEntry (getCtx s c) (loneView (getCore s c).spad) f ta (getSlot (getCore s c) f.slot)) lo hi ta.vrows
          (getSlot (getCore s c) f.slot).n (getCtx s c).acc)
        (getCtx s c).sys.rseed := by
  have hrow := mmaRow_of_oneFold (w := loneView (getCore s c).spad) hf ha hb rfl hn
  simp only [memberBand, hu, viewOf_of_lone hg, ← List.range'_eq_map_range, hrow, foldl_rowAcc]
  rfl

end

/-! ### The step of a band (R190, R204) -/

/-- A band up to row `hi` of `total` has been done on a core: its scratchpad and its accumulator store are those given, and its unit
stays with the band's rows complete or has left the sequencer (R190, R204). -/
structure BandDone (s t : State) (c : Nat) (rest : List SeqEntry) (hi total : Nat) (m : Memory) (a : AccStore) : Prop where
  spad : (getCore t c).spad = m
  acc : (getCtx t c).acc = a
  row : hi < total → (getCtx t c).run.row = hi
  seq : hi = total → (getCtx t c).seq = rest
  mem : SameMem s t

theorem getCtx_putMember (s : State) (c : Nat) (m : Memory) (a : AccStore) (seed : BitVec 32) :
    getCtx (putMember s c m a seed) c = { getCtx s c with acc := a, sys := { (getCtx s c).sys with rseed := seed } } :=
  congrArg Core.ctx (getCore_modCore_self ..)

theorem spad_putMember (s : State) (c : Nat) (m : Memory) (a : AccStore) (seed : BitVec 32) :
    (getCore (putMember s c m a seed) c).spad = m :=
  congrArg Core.spad (getCore_modCore_self ..)

theorem sameMem_putMember (s : State) (c : Nat) (m : Memory) (a : AccStore) (seed : BitVec 32) : SameMem s (putMember s c m a seed) :=
  ⟨fun a => physByte_congr s _ a rfl rfl, fun _ => rfl⟩

section
variable {s : State} {c : Nat} {u : TileUnit} {body : List TileUnit} {rest : List SeqEntry}

/-- What the tile stream does once the rows of a band are done: the next band, or the end of the unit (R190, R204). -/
theorem bandDone_putMember (hseq : (getCtx s c).seq = { unit := u, body := body } :: rest) (hl : (getCtx s c).run.loopLeft = none)
    (hp : (getCtx s c).run.fromPool = 0) (m : Memory) (a : AccStore) (seed : BitVec 32) (seeds : List (BitVec 32)) (hi total : Nat) :
    BandDone s
      (let t := modCtx (putMember s c m a seed) c (fun y => { y with run := { y.run with row := hi, seeds := seeds } })
       if hi = total then completeUnit t c else push t (.tileBandComplete c false)) c rest hi total m a := by
  unfold modCtx
  rw [getCtx_putMember]
  have hnext := contextOnly_next (y := { getCtx s c with
      acc := a, sys := { (getCtx s c).sys with rseed := seed }, run := { (getCtx s c).run with row := hi, seeds := seeds } })
    hseq hl hp (putMember s c m a seed) c (.tileBandComplete c false) (hi = total)
  exact {
    spad := hnext.spad.trans (spad_putMember ..)
    acc := by rw [hnext.ctx]; split <;> rfl
    row := fun h => by rw [hnext.ctx, if_neg h.ne]
    seq := fun h => by rw [hnext.ctx, if_pos h]; rfl
    mem := sameMem_trans (sameMem_putMember ..) hnext.sameMem }

/-- A band of a lone core is the band of its one member, where the slots that it reads stand (R190, R275). -/
theorem exec_tileBandComplete_of_memberBand (hseq : (getCtx s c).seq = { unit := u, body := body } :: rest) (h : StreamFree s c u)
    (hb : (getCtx s c).run.begun = true) (hw : (getCtx s c).run.waitLeave = false) (hp : (getCtx s c).run.fromPool = 0)
    (hrow : isRowUnit u.instr = false) (hslots : slotsStand (getCore s c) u.instr = .pass) {total : Nat} (htotal : bandRows s c u = total)
    {m : Memory} {a : AccStore} {seed : BitVec 32}
    (hband : memberBand s c u (runValue (getCtx s c) u) (getCtx s c).run.row (min total (((getCtx s c).run.row / 8 + 1) * 8)) s (0, c) =
      putMember s c m a seed) :
    ∃ t, exec (.tileBandComplete c false) s = .next t ∧
      BandDone s t c rest (min total (((getCtx s c).run.row / 8 + 1) * 8)) total m a := by
  have hlive := tileLive_of_free hseq h
  have hl := loopLeft_of_free h
  obtain ⟨hrun, hg, -, -, -, hstop, hwait, -⟩ := h
  have hcur := curUnit_of_seq hseq hl
  have hall : slotsOnAll s [(0, c)] u.instr = .pass := by simp [slotsOnAll, hslots]
  refine ⟨_, ?_, bandDone_putMember hseq hl hp m a seed [(getCtx s c).sys.rseed] _ total⟩
  show execTileBandComplete c false s = _
  unfold getCtx at *
  simp only [execTileBandComplete, hlive, hcur, hb, hw, hrow, hstop, hwait, deadMember_of_lone hg hrun, unitMembers_of_lone hg,
    unitCores_of_lone hg, hall, htotal, List.foldl_cons, List.foldl_nil, hband, Bool.not_true, Bool.false_and, Bool.or_self,
    Bool.false_eq_true, if_false]
  exact (apply_ite Host.Outcome.next ..).symm

variable {t : State} {hi total : Nat} {m : Memory} {a : AccStore} {v : Word} {g : Nat × Nat → BitVec 32 → BitVec 32} {vrows n i j : Nat}

/-- The new value of an entry of the band (R278). -/
theorem BandDone.entry (h : BandDone s t c rest hi total m (bandAcc (classOf c) v g (getCtx s c).run.row hi vrows n (getCtx s c).acc))
    (hn : (accOrigin v).2 + n ≤ arrayWidth (classOf c)) (hin : (getCtx s c).run.row ≤ i ∧ i < hi ∧ i < vrows ∧ j < n) :
    accGet (getCtx t c).acc (accEntry (classOf c) v (i, j)) = g (i, j) (accGet (getCtx s c).acc (accEntry (classOf c) v (i, j))) := by
  rw [h.acc, accGet_bandAcc hn hin]

/-- The entries outside the band stay (R278). -/
theorem BandDone.kept (h : BandDone s t c rest hi total m (bandAcc (classOf c) v g (getCtx s c).run.row hi vrows n (getCtx s c).acc))
    {k : Nat} (hk : ∀ i j, (getCtx s c).run.row ≤ i ∧ i < hi ∧ i < vrows ∧ j < n → k ≠ accEntry (classOf c) v (i, j)) :
    accGet (getCtx t c).acc k = accGet (getCtx s c).acc k := by
  rw [h.acc, accGet_bandAcc_of_ne hk]

end

/-! ### Elements of FP32 (R292) -/

/-- An element of FP32 is the four bytes of its place (R183). -/
theorem rawElem_fp32 {b : Tile} (h : b.fmt = .fp32) (m : Memory) (i j : Nat) :
    rawElem m b i j = leNat (memRead m (b.base + i * b.pitch + 4 * j) 4) := by
  rw [rawElem_bytes (by rw [h]; decide) (by rw [h]; decide), h, Nat.mul_comm 4 j]
  rfl

theorem rawElem_fp32_lt {b : Tile} (h : b.fmt = .fp32) (m : Memory) (i j : Nat) : rawElem m b i j < 2 ^ 32 := by
  have hlt := leNat_lt (memRead m (b.base + i * b.pitch + 4 * j) 4)
  rwa [← rawElem_fp32 h, memRead, List.length_map, List.length_range] at hlt

/-- Settles O23: a band of AZERO, AMOVIN, MMA or MMAL leaves the store `bandAcc`, a band of AMOVOUT the scratchpad `writtenRows`, and
what follows each is `BandDone`. -/
theorem matrixUnits : Obligations.MatrixUnits := by
  unfold Obligations.MatrixUnits
  refine ⟨?_, ?_⟩
  · intro s c u body rest d g q b x cls lo hi r0 c0 key inside hseq hfree hb hw hp hd hok hfmt hlo hfit runs acc kept
    have hg := lone_of_free hfree
    have hexec {code : Nat} (he : accExtent u.instr = some (d, code)) {m : Memory} {a : AccStore} {seed : BitVec 32}
        (hband : memberBand s c u (runValue x u) lo hi s (0, c) = putMember s c m a seed) :=
      exec_tileBandComplete_of_memberBand hseq hfree hb hw hp (isRowUnit_of_accExtent he) (slotsStand_of_accExtent he _)
        (bandRows_of_accExtent he hd) hband
    have hcols : (accOrigin (runValue x u)).2 + b.vcols ≤ arrayWidth cls := (Nat.add_le_add_left hok.2.2 _).trans hfit
    refine ⟨fun hu => ?_, fun hu => ?_, fun hu hmode => ?_⟩
    · have he : accExtent u.instr = some (d, 0) := by rw [hu]; rfl
      obtain ⟨t, ht, hdone⟩ := hexec he (memberBand_of_rowAcc hg he fun acc seed r => by
        rw [hu]; exact accRow_azero hd hok rfl acc seed r)
      exact ⟨t, ht, ⟨fun i j hin => hdone.entry hcols hin, fun k hk => hdone.kept hk, hdone.spad⟩, hdone.row, hdone.seq, hdone.mem⟩
    · have he : accExtent u.instr = some (d, 1) := by rw [hu]; rfl
      obtain ⟨t, ht, hdone⟩ := hexec he (memberBand_of_rowAcc hg he fun acc seed r => by
        rw [hu]; exact accRow_amovin hd hok rfl acc seed r)
      refine ⟨t, ht, ⟨fun i j hin => ?_, fun k hk => hdone.kept hk, hdone.spad⟩, hdone.row, hdone.seq, hdone.mem⟩
      have hentry := congrArg BitVec.toNat (hdone.entry hcols hin)
      rw [BitVec.toNat_ofNat, Nat.mod_eq_of_lt (rawElem_fp32_lt hfmt _ _ _), rawElem_fp32 hfmt] at hentry
      exact hentry
    · obtain ⟨t, ht, hdone⟩ := hexec (code := 0) (by rw [hu]; rfl) (memberBand_amovout hg hu hd hok hmode (runValue x u) lo hi)
      refine ⟨t, ht, ⟨fun i j ⟨hli, hih, hvi, hj⟩ => ?_, hdone.acc⟩, hdone.row, hdone.seq, hdone.mem⟩
      have helem := rawElem_writtenRows (lo := lo) (m := (getCore s c).spad) (m' := (getCore s c).spad) (n := hi - lo) hok
        (f := fun _ i j => (accGet x.acc (accEntry cls (runValue x u) (i, j))).toNat) (fun _ _ _ _ _ _ _ => rfl)
        (by omega) le_rfl (fun _ _ => rfl) hli (by omega) (hj.trans_le hok.2.2)
      rw [if_pos ⟨hvi, hj⟩, rawElem_fp32 hfmt, ← hdone.spad, hfmt] at helem
      exact helem.trans (Nat.mod_eq_of_lt (BitVec.isLt _))
  · intro s c u body rest f ta x cls lo hi r0 c0 sl xs acc key inside hseq hfree hb hw hp hu hoffs _ ha hok hlo hfit hslots
    obtain ⟨t, ht, hdone⟩ := exec_tileBandComplete_of_memberBand hseq hfree hb hw hp (isRowUnit_of_mmaForm hu) hslots
      (bandRows_of_mmaForm hu ha) (memberBand_mma (lone_of_free hfree) hu hoffs ha hok hfit _ _)
    exact ⟨t, ht, fun m n hin => hdone.entry hfit hin, fun k hk => hdone.kept hk, hdone.spad, hdone.row, hdone.seq⟩

end Sys2Proof.Machine
end

section
/-! Operations in flight (R157, R159, R294): what starting one, changing one and ending one leaves of the state. -/

namespace Sys2Proof.Machine

/-! ### At issue (R157, R294) -/

/-- The operation that the core that runs starts. -/
def startedOp (s : State) (d : BitVec 5) (held : Nat) (body : OpBody) : Op :=
  { id := s.nextId, core := s.focus, serial := serialOf (cur s), gen := genOf (cur s), reg := d, upc := unitPc (cur s), held := held,
    drawn := 0, body := body }

/-- The state in which the core that runs has started an operation, its context being `y` but for the mark of the destination, and the
operation's events are on the agenda. -/
def opStarted (s : State) (y : Ctx) (d : BitVec 5) (held : Nat) (body : OpBody) (es : List Event) : State :=
  pushAll (bumpId { withCur s (markReg y d (.op s.nextId)) with ops := s.ops ++ [startedOp s d held body] }) es

section
variable {s : State} {y : Ctx} {d : BitVec 5} {held : Nat} {body : OpBody} {es : List Event}

/-- A core whose context has changed in neither its activation nor its task starts an operation. -/
theorem startHeld_withCur (hser : serialOf y = serialOf (cur s)) (hgen : genOf y = genOf (cur s)) :
    pushAll (startHeld (withCur s y) s.focus d (unitPc (cur s)) held 0 body) es = opStarted s y d held body es := by
  have hname : y.sys.tid.toNat % 2 ^ 16 = genOf (cur s) := hgen ▸ (BitVec.toNat_setWidth ..).symm
  unfold startHeld opStarted startedOp
  simp only [getCtx_setCtx_self, setCtx_setCtx, setCtx_nextId, setCtx_ops, hser, hname]

theorem cur_opStarted : cur (opStarted s y d held body es) = markReg y d (.op s.nextId) := getCtx_setCtx_self ..

theorem spad_opStarted : (getCore (opStarted s y d held body es) s.focus).spad = (getCore s s.focus).spad := by
  have hcore : getCore (opStarted s y d held body es) s.focus = { getCore s s.focus with ctx := markReg y d (.op s.nextId) } :=
    getCore_setCtx_self ..
  rw [hcore]

end

/-! ### Changed operations -/

theorem findOp_id {s : State} {n : Nat} {o : Op} (h : findOp s n = some o) : o.id = n := by simpa using List.find?_some h

/-- Operations are found alike where they are the same. -/
theorem findOp_congr {s t : State} (h : t.ops = s.ops) (n : Nat) : findOp t n = findOp s n := by rw [findOp, h, findOp]

/-- The name of an operation in flight is found. -/
theorem exists_findOp {s : State} {o : Op} (h : o ∈ s.ops) : ∃ p, findOp s o.id = some p :=
  Option.isSome_iff_exists.1 (List.find?_isSome.2 ⟨o, h, by simp⟩)

/-- Replacing an operation leaves every name. -/
theorem putOp_names (o : Op) (n : Nat) :
    ((fun p : Op => p.id == n) ∘ fun p => if p.id = o.id then o else p) = fun p => p.id == n := by
  funext p
  by_cases h : p.id = o.id <;> simp [h]

theorem findOp_putOp_self {s : State} {o p : Op} (h : findOp s o.id = some p) : findOp (putOp s o) o.id = some o := by
  unfold findOp at h
  unfold findOp putOp
  rw [List.find?_map, putOp_names, h, Option.map_some, if_pos (findOp_id h)]

theorem findOp_putOp_ne {s : State} {o : Op} {n : Nat} (h : n ≠ o.id) : findOp (putOp s o) n = findOp s n := by
  unfold findOp putOp
  rw [List.find?_map, putOp_names]
  cases hf : s.ops.find? (fun p => p.id == n) with
  | none => rfl
  | some p => exact congrArg some (if_neg (fun e => h ((findOp_id hf).symm.trans e)))

/-! ### Statuses of operations (R157, R159) -/

/-- A status changes cores and the images of partitions alone. -/
theorem updAct_eq (s : State) (c n : Nat) (f : Ctx → Ctx) :
    updAct s c n f = { s with cores := (updAct s c n f).cores, parts := (updAct s c n f).parts } := by
  unfold updAct
  split <;> rfl

/-- A status leaves what no context holds of a core. -/
theorem getCore_updAct_field {α : Type} {g : Core → α} (hctx : ∀ k x, g { k with ctx := x } = g k)
    (hsusp : ∀ k x, g { k with susp := x } = g k) (s : State) (c n : Nat) (f : Ctx → Ctx) (d : Nat) :
    g (getCore (updAct s c n f) d) = g (getCore s d) := by
  have hupd (k k' : Core) (h : coreUpdAct k n f = some k') : g k' = g k := by
    unfold coreUpdAct at h
    split at h
    · cases h
      exact hctx ..
    · split at h
      · split at h <;> cases h
        exact hsusp ..
      · cases h
  unfold updAct
  split
  next k hk =>
    by_cases hd : d = c
    · rw [hd, getCore_setCore_self]
      exact hupd _ k hk
    · rw [getCore_setCore_ne _ _ _ _ hd]
  · rfl

/-- An operation has ended with a status: it is no longer in flight, and where its activation runs and waits for it, its register holds
the status (R157, R159). -/
def EndedWith (s t : State) (o : Op) (w : Word) : Prop :=
  findOp t o.id = none ∧
    (runsSerial (getCtx s o.core) o.serial = true → (getReg (getCtx s o.core) o.reg).mark = .op o.id → o.reg ≠ 0 →
      regVal (getCtx t o.core) o.reg = w)

/-- The status of an operation stands in the register that waits for it (R157). -/
theorem regVal_giveStatus {s : State} {o : Op} (hrun : runsSerial (getCtx s o.core) o.serial = true)
    (hm : (getReg (getCtx s o.core) o.reg).mark = .op o.id) (hreg : o.reg ≠ 0) (v : Word) :
    regVal (getCtx (giveStatus s o v) o.core) o.reg = v := by
  rw [giveStatus, updAct_live _ _ _ _ hrun, getCtx_modCtx_self, deliver_marked _ _ _ _ hm, regVal, getReg_latchEvt,
    getReg_settleMark_self hreg hm]

section
variable {s : State} {o : Op} (h : findOp s o.id = some o) (v : Word)
include h

theorem endOp_of_findOp : endOp s o.id v = dropOp (giveStatus s o v) o.id := by
  unfold endOp
  rw [h]

theorem endedWith_endOp : EndedWith s (endOp s o.id v) o v := by
  rw [endOp_of_findOp h]
  exact ⟨findOp_dropOp_self .., fun hrun hm hreg => regVal_giveStatus hrun hm hreg v⟩

theorem spad_endOp (d : Nat) : (getCore (endOp s o.id v) d).spad = (getCore s d).spad := by
  rw [endOp_of_findOp h]
  exact getCore_updAct_field (fun _ _ => rfl) (fun _ _ => rfl) s _ _ _ d

theorem sameMem_endOp : SameMem s (endOp s o.id v) := by
  rw [endOp_of_findOp h, giveStatus, updAct_eq]
  exact ⟨fun _ => rfl, fun _ => rfl⟩

theorem endOp_focus : (endOp s o.id v).focus = s.focus := by
  rw [endOp_of_findOp h, giveStatus, updAct_eq]
  rfl

end

end Sys2Proof.Machine
end

section
/-! Copies at issue and their cancellation (R294-R298, R302-R305, R564). -/

namespace Sys2Proof.Machine

/-! ### The rows of a copy (R297, R302) -/

section
variable {p : CopyOp}

/-- A row is open where the copy has it and it has neither been performed nor failed. -/
theorem mem_copyOpen {i : Nat} : i ∈ copyOpen p ↔ i < copyRows p ∧ i ∉ p.performed ∧ i ∉ p.failed.map (·.1) := by
  simp [copyOpen]

/-- A copy of which no row has failed and none is open has every row done. -/
theorem rowsDone_of_noneOpen (hf : p.failed = []) (h : copyOpen p = []) : rowsDone p = copyRows p := by
  have hall : ∀ i ∈ List.range (copyRows p), p.performed.contains i = true := by
    intro i hi
    by_contra hn
    have hopen : i ∈ copyOpen p := mem_copyOpen.2 ⟨List.mem_range.1 hi, by simpa using hn, by simp [hf]⟩
    exact List.not_mem_nil (h ▸ hopen)
  rw [rowsDone, List.takeWhile_eq_self_iff.2 hall, List.length_range]

end

/-! ### Issue (R294, R298, R303, R564) -/

/-- The context of a copy's issuer past its words: the commit latch is set where the copy writes outside the core (R564). -/
def copyCtx (c : Nat) (x : Ctx) (p : CopyOp) : Ctx := if leavesCore c p.cx.dst then setCommit (passUnit x) else passUnit x

/-- What an instruction that asks for a copy answers: BADARG; OK where every row is skipped; or the start of the copy (R294, R302, R303). -/
def AsksCopy (s : State) (d : BitVec 5) (i : Instr) (p : CopyOp) : Prop :=
  let y := copyCtx s.focus (cur s) p
  (copyArgsOk (pastUnit s) s.focus p = false → exec i s = .next (withCur s (setStatus y d (engineStatus 5 0 0 0 0)))) ∧
    (copyArgsOk (pastUnit s) s.focus p = true → copyTileBusy (pastUnit s) s.focus p = false →
      (copyOpen p = [] → exec i s = .next (withCur s (setStatus y d (engineStatus 0 (skippedRows p) 0 0 (copyRows p))))) ∧
      (copyOpen p ≠ [] →
        ∃ t : State, exec i s = .next t ∧ cur t = markReg y d (.op s.nextId) ∧ t.ops = s.ops ++ [startedOp s d 0 (.copy p)] ∧
          t.agenda = s.agenda ++ (copyOpen p).map (.copyRowComplete s.nextId) ∧
          (getCore t s.focus).spad = (getCore s s.focus).spad))

section
variable {s : State} {d : BitVec 5} {p : CopyOp}

theorem serialOf_copyCtx (x : Ctx) (c : Nat) : serialOf (copyCtx c x p) = serialOf x := by
  unfold copyCtx
  split
  · exact serialOf_setCommit ..
  · rfl

theorem genOf_copyCtx (x : Ctx) (c : Nat) : genOf (copyCtx c x p) = genOf x := by
  unfold copyCtx
  split <;> rfl

/-- The latch of a copy's issuer (R564). -/
theorem withCur_copyCtx :
    withCur s (copyCtx s.focus (cur s) p) =
      if leavesCore s.focus p.cx.dst then withCur s (setCommit (passUnit (cur s))) else pastUnit s :=
  apply_ite (withCur s) ..

/-- What a copy that no unit holds back answers at issue. -/
theorem startCopy_pastUnit (hbusy : copyArgsOk (pastUnit s) s.focus p = true → copyTileBusy (pastUnit s) s.focus p = false) :
    startCopy (pastUnit s) (issuedOf (cur s) s.focus) d p = some (
      let y := copyCtx s.focus (cur s) p
      if copyArgsOk (pastUnit s) s.focus p = false then withCur s (setStatus y d (engineStatus 5 0 0 0 0))
      else if copyOpen p = [] then withCur s (setStatus y d (engineStatus 0 (skippedRows p) 0 0 (rowsDone p)))
      else opStarted s y d 0 (.copy p) ((copyOpen p).map (.copyRowComplete s.nextId))) := by
  unfold startCopy
  simp only [issuedOf_core, issuedOf_upc, modCtx_setCtx, ← withCur_copyCtx, setCtx_nextId]
  cases hargs : copyArgsOk (pastUnit s) s.focus p with
  | false => rfl
  | true =>
    simp only [hbusy hargs, List.isEmpty_iff, Bool.not_true, Bool.false_eq_true, Bool.true_eq_false, if_false, ← apply_ite some]
    congr 2
    exact startHeld_withCur (serialOf_copyCtx ..) (genOf_copyCtx ..)

/-- An instruction whose effect is to start a copy asks for it. -/
theorem asksCopy_of_issue {q : IssueSpec} {i : Instr} {f : Issued → State → Option State} (hp : p.failed = []) (h : Goes (cur s) q)
    (he : exec i s = issue s q f)
    (hf : f (issuedOf (cur s) s.focus) (pastUnit s) = startCopy (pastUnit s) (issuedOf (cur s) s.focus) d p) : AsksCopy s d i p := by
  refine ⟨fun hargs => ?_, fun hargs hbusy => ?_⟩
  · have hstart := startCopy_pastUnit (s := s) (d := d) (p := p) fun hok => nomatch hok.symm.trans hargs
    exact he.trans (issue_some h (hf.trans (hstart.trans (congrArg some (if_pos hargs)))))
  · have hstart := startCopy_pastUnit (s := s) (d := d) (p := p) fun _ => hbusy
    have hnext := he.trans (issue_some h (hf.trans (hstart.trans (congrArg some (if_neg (by simp [hargs]))))))
    refine ⟨fun hopen => ?_, fun hopen => ?_⟩
    · rw [hnext, if_pos hopen, rowsDone_of_noneOpen hp hopen]
    · exact ⟨_, hnext.trans (congrArg _ (if_neg hopen)), cur_opStarted, rfl, rfl, spad_opStarted⟩

variable (h : Goes (cur s) (needs [] [d] (ord := true))) (hfull : copiesFull s s.focus = false) (hl : holdsStores (cur s) = false)
include h hfull hl

theorem asksCopy_xcopy : AsksCopy s d (.xcopy d) (newCopy .copy (cur s).sys.cx [] (modeRel (unitXmod (cur s)))) := by
  refine asksCopy_of_issue (q := engineSpec [] d) rfl h (rfl : _ = execXcopy d s) ?_
  have hfull' : copiesFull (pastUnit s) s.focus = false := hfull
  simp only [issuedOf_core, getCtx_setCtx_self, holdsStores_passUnit, hl, hfull']
  rfl

variable {tn : BitVec 4} {b : Tile} (hseq : (cur s).seq = []) (ht : getTile (cur s) tn = some b) (hc : b.cols = 1)
  (hr : (cur s).sys.cx.rows.toNat ≤ b.rows) (hfmt : b.fmt = .i32) (hready : tileReady (pastUnit s) s.focus b false = true)
include hseq ht hc hr hfmt hready

omit h in
/-- The copy of a gather or scatter whose index tile is fit and ready. -/
theorem indexedBody_pastUnit (kind : CopyKind) :
    indexedBody kind d tn (issuedOf (cur s) s.focus) (pastUnit s) =
      startCopy (pastUnit s) (issuedOf (cur s) s.focus) d (newCopy kind (cur s).sys.cx
        (indexColumn (getCore s s.focus).spad b (cur s).sys.cx.rows.toNat) (modeRel (unitXmod (cur s)))) := by
  have hfull' : copiesFull (pastUnit s) s.focus = false := hfull
  have ht' : getTile (passUnit (cur s)) tn = some b := ht
  have hseq' : (passUnit (cur s)).seq = [] := hseq
  unfold indexedBody
  simp only [issuedOf_core, getCtx_setCtx_self, holdsStores_passUnit, hl, hfull', ht', hseq', hready, hfmt, hc, passUnit_sys,
    Nat.not_lt.2 hr, getCore_setCtx_self]
  rfl

theorem asksCopy_xgath :
    AsksCopy s d (.xgath d tn) (newCopy .gather (cur s).sys.cx (indexColumn (getCore s s.focus).spad b (cur s).sys.cx.rows.toNat)
      (modeRel (unitXmod (cur s)))) :=
  asksCopy_of_issue (q := engineSpec [] d) rfl h rfl (indexedBody_pastUnit hfull hl hseq ht hc hr hfmt hready .gather)

theorem asksCopy_xscat :
    AsksCopy s d (.xscat d tn) (newCopy .scatter (cur s).sys.cx (indexColumn (getCore s s.focus).spad b (cur s).sys.cx.rows.toNat)
      (modeRel (unitXmod (cur s)))) :=
  asksCopy_of_issue (q := engineSpec [] d) rfl h rfl (indexedBody_pastUnit hfull hl hseq ht hc hr hfmt hready .scatter)

end

/-! ### A copy that has changed (R297-R299) -/

section
variable {s : State} {o : Op} {p : CopyOp} (ho : findOp s o.id = some o)
include ho

omit ho in
/-- A copy with nothing left to do ends with its status. -/
theorem settleCopy_of_done (hd : copyDone p = true) :
    settleCopy s o p =
      endOp (putOp s { o with body := .copy p }) o.id (engineStatus (copyCode p) (skippedRows p) 0 0 (rowsDone p)) := if_pos hd

theorem endedWith_settleCopy (hd : copyDone p = true) :
    EndedWith s (settleCopy s o p) o (engineStatus (copyCode p) (skippedRows p) 0 0 (rowsDone p)) := by
  rw [settleCopy_of_done hd]
  exact endedWith_endOp (o := { o with body := .copy p }) (findOp_putOp_self (o := { o with body := .copy p }) ho) _

/-- A copy with rows left goes on. -/
theorem findOp_settleCopy (hd : copyDone p = false) : findOp (settleCopy s o p) o.id = some { o with body := .copy p } := by
  have hs : settleCopy s o p = putOp s { o with body := .copy p } := if_neg (by simp [hd])
  rw [hs]
  exact findOp_putOp_self (o := { o with body := .copy p }) ho

theorem spad_settleCopy (d : Nat) : (getCore (settleCopy s o p) d).spad = (getCore s d).spad := by
  unfold settleCopy
  dsimp only
  split
  · exact spad_endOp (o := { o with body := .copy p }) (findOp_putOp_self (o := { o with body := .copy p }) ho) _ d
  · rfl

theorem sameMem_settleCopy : SameMem s (settleCopy s o p) := by
  unfold settleCopy
  dsimp only
  split
  · exact sameMem_trans ⟨fun _ => rfl, fun _ => rfl⟩
      (sameMem_endOp (o := { o with body := .copy p }) (findOp_putOp_self (o := { o with body := .copy p }) ho) _)
  · exact ⟨fun _ => rfl, fun _ => rfl⟩

theorem settleCopy_focus : (settleCopy s o p).focus = s.focus := by
  unfold settleCopy
  dsimp only
  split
  · exact endOp_focus (o := { o with body := .copy p }) (findOp_putOp_self (o := { o with body := .copy p }) ho) _
  · rfl

end

/-! ### XCANCEL (R305) -/

section
variable {s : State} {v : BitVec 5} (h : Goes (cur s) (needs [] []))
include h

theorem execXcancel_clear (hm : (getReg (cur s) v).mark = .clear) : execXcancel v s = .next (pastUnit s) := by
  refine issue_some h ?_
  simp only [issuedOf_core, getCtx_setCtx_self, getReg_passUnit, hm]

theorem execXcancel_copy {o : Op} {p : CopyOp} (ho : findOp s o.id = some o) (hm : (getReg (cur s) v).mark = .op o.id)
    (hb : o.body = .copy p) (hc : o.core = s.focus) (hser : o.serial = serialOf (cur s)) (hf : p.failed = []) :
    execXcancel v s = .next (settleCopy (pastUnit s) o { p with cancelled := true }) := by
  have ho' : findOp (pastUnit s) o.id = some o := ho
  have hser' : o.serial = serialOf (passUnit (cur s)) := hser
  refine issue_some h ?_
  simp only [issuedOf_core, getCtx_setCtx_self, getReg_passUnit, hm, ho', hb]
  exact if_pos ⟨hc, hser', hf⟩

end

end Sys2Proof.Machine
end

section
/-! What reads of lines and counts of rows leave of the state (R260-R262, R500-R502). -/

namespace Sys2Proof.Machine

/-! ### Lines that reads change (R260-R262) -/

/-- Two states that differ in cache slices, HBM and free values alone. -/
def CachesOnly (s t : State) : Prop :=
  t = { s with
    fresh := t.fresh, hbm := t.hbm, lines := t.lines, hot := t.hot, replicas := t.replicas, redirects := t.redirects }

theorem CachesOnly.refl (s : State) : CachesOnly s s := rfl

theorem CachesOnly.trans {s t u : State} (h : CachesOnly s t) (g : CachesOnly t u) : CachesOnly s u :=
  Eq.trans g (congrArg (fun v : State => { v with
    fresh := u.fresh, hbm := u.hbm, lines := u.lines, hot := u.hot, replicas := u.replicas, redirects := u.redirects }) h)

/-- Every other field of the two states is the same. -/
theorem CachesOnly.field {α : Type} {s t : State} (h : CachesOnly s t) (f : State → α) :
    f t = f { s with
      fresh := t.fresh, hbm := t.hbm, lines := t.lines, hot := t.hot, replicas := t.replicas, redirects := t.redirects } :=
  congrArg f h

theorem cachesOnly_foldl {α : Type} {f : State → α → State} (hf : ∀ t a, CachesOnly t (f t a)) (l : List α) (s : State) :
    CachesOnly s (l.foldl f s) :=
  foldl_induction (motive := CachesOnly s) (fun t a ht => ht.trans (hf t a)) (.refl s)

theorem cachesOnly_makeRoom (s : State) (l : Nat) : CachesOnly s (makeRoom s l) := by
  have hevict (m : Nat) : CachesOnly s (bumpFree (evictLine s m)) := by
    unfold evictLine bumpFree CachesOnly
    dsimp only
  unfold makeRoom
  split
  · rfl
  · dsimp only
    split
    · exact hevict _
    · rfl

theorem cachesOnly_fillSector (s : State) (l i : Nat) : CachesOnly s (fillSector s l i) := by
  unfold fillSector
  dsimp only
  split
  · rfl
  · exact (cachesOnly_makeRoom s l).trans rfl

theorem cachesOnly_countRead (s : State) (l : Nat) (r : Option (Nat × Nat × Nat)) : CachesOnly s (countRead s l r) := by
  unfold countRead
  dsimp only
  split <;> rfl

theorem cachesOnly_touchLine (s : State) (r : Option (Nat × Nat × Nat)) (bypass : Bool) (pa n : Nat) :
    CachesOnly s (touchLine s r bypass pa n) := by
  unfold touchLine
  split
  · exact cachesOnly_countRead ..
  · exact (cachesOnly_foldl (fun t i => cachesOnly_fillSector t _ i) _ s).trans (cachesOnly_countRead ..)

theorem cachesOnly_rowTouch (s : State) (c : Nat) (bypass : Bool) (a : Word) (n : Nat) : CachesOnly s (rowTouch s c bypass a n) := by
  unfold rowTouch
  split
  · refine cachesOnly_foldl (fun t p => ?_) _ s
    split
    · exact cachesOnly_touchLine ..
    · rfl
  · rfl

/-! ### Scratchpads and counts (R500-R502, R522-R524) -/

/-- Two states that differ in their cores and counters alone. -/
def CountsOnly (s t : State) : Prop := t = { s with cores := t.cores, counters := t.counters }

theorem CountsOnly.refl (s : State) : CountsOnly s s := rfl

theorem CountsOnly.trans {s t u : State} (h : CountsOnly s t) (g : CountsOnly t u) : CountsOnly s u :=
  Eq.trans g (congrArg (fun v : State => { v with cores := u.cores, counters := u.counters }) h)

/-- Every other field of the two states is the same. -/
theorem CountsOnly.field {α : Type} {s t : State} (h : CountsOnly s t) (f : State → α) :
    f t = f { s with cores := t.cores, counters := t.counters } := congrArg f h

theorem CountsOnly.sameMem {s t : State} (h : CountsOnly s t) : SameMem s t :=
  ⟨fun a => h.field (physByte · a), fun a => h.field (fun u => memGet u.remote a)⟩

theorem countsOnly_foldl {α : Type} {f : State → α → State} (hf : ∀ t a, CountsOnly t (f t a)) (l : List α) (s : State) :
    CountsOnly s (l.foldl f s) :=
  foldl_induction (motive := CountsOnly s) (fun t a ht => ht.trans (hf t a)) (.refl s)

theorem countsOnly_spadWrite (s : State) (c off : Nat) (bs : List Byte) : CountsOnly s (spadWrite s c off bs) := rfl

theorem countsOnly_countRoundRow (s : State) (c off : Nat) : CountsOnly s (countRoundRow s c off) := by
  unfold countRoundRow
  dsimp only
  split <;> rfl

/-- Counting a row leaves what no round holds of a core. -/
theorem getCore_countRoundRow_field {α : Type} {g : Core → α} (h : ∀ k r, g { k with rounds := r } = g k) (s : State)
    (c off d : Nat) :
    g (getCore (countRoundRow s c off) d) = g (getCore s d) := by
  have hcores : (countRoundRow s c off).cores = (modCore s c (fun k => { k with rounds := k.rounds.map (countEntry off) })).cores := by
    unfold countRoundRow
    dsimp only
    split <;> rfl
  rw [getCore_of_cores hcores]
  exact getCore_modCore_field s c d fun k => h k _

theorem spad_countRoundRow (s : State) (c off d : Nat) : (getCore (countRoundRow s c off) d).spad = (getCore s d).spad :=
  getCore_countRoundRow_field (fun _ _ => rfl) s c off d

end Sys2Proof.Machine
end

section
/-! The rows of a copy (R296, R299, R300, R408), and the obligation on copies. -/

namespace Sys2Proof.Machine

/-! ### Rows left (R297, R299) -/

section
variable {p : CopyOp} {row : Nat}

/-- The copy with one more row performed. -/
def performRow (p : CopyOp) (row : Nat) : CopyOp := { p with performed := p.performed ++ [row] }

theorem mem_copyOpen_performRow {i : Nat} : i ∈ copyOpen (performRow p row) ↔ i ∈ copyOpen p ∧ i ≠ row := by
  simp only [mem_copyOpen, performRow, List.mem_append, List.mem_singleton, not_or]
  exact ⟨fun ⟨h, ⟨hp, hr⟩, hf⟩ => ⟨⟨h, hp, hf⟩, hr⟩, fun ⟨⟨h, hp, hf⟩, hr⟩ => ⟨h, ⟨hp, hr⟩, hf⟩⟩

theorem copyOpen_nodup : (copyOpen p).Nodup := List.nodup_range.filter _

/-- After its row has been performed a copy has no row open exactly where it was the only one. -/
theorem copyOpen_performRow_eq_nil (h : row ∈ copyOpen p) : copyOpen (performRow p row) = [] ↔ copyOpen p = [row] := by
  rw [List.eq_nil_iff_forall_not_mem]
  refine ⟨fun hnil => ?_, fun hone i hi => ?_⟩
  · have hall : ∀ i ∈ copyOpen p, i = row := fun i hi => by_contra fun hne => hnil i (mem_copyOpen_performRow.2 ⟨hi, hne⟩)
    exact List.perm_singleton.1 ((List.perm_ext_iff_of_nodup copyOpen_nodup (List.nodup_singleton row)).2
      fun i => ⟨fun hi => List.mem_singleton.2 (hall i hi), fun hi => List.mem_singleton.1 hi ▸ h⟩)
  · obtain ⟨hi, hne⟩ := mem_copyOpen_performRow.1 hi
    rw [hone] at hi
    exact hne (List.mem_singleton.1 hi)

end

/-! ### The step of a row (R296, R299) -/

/-- The address that a row of a copy reads, and the one that it writes (R299). -/
abbrev rowSrc (p : CopyOp) (row : Nat) : Word := copyRowAddr p.cx.src p.cx.rstride (copySides p row).1
abbrev rowDst (p : CopyOp) (row : Nat) : Word := copyRowAddr p.cx.dst p.cx.wstride (copySides p row).2

/-- A copy in flight without a failed or parked row, of which a row may start (R296, R299, R300, R305). -/
structure RowStarts (s : State) (o : Op) (p : CopyOp) (row : Nat) : Prop where
  op : findOp s o.id = some o
  body : o.body = .copy p
  rowOpen : row ∈ copyOpen p
  notParked : rowParked s o.id row = false
  failed : p.failed = []
  cancelled : p.cancelled = false
  dead : p.dead = false
  parked : p.parked = []
  released : opReleased s o p.rel 4 = true
  lower : lowerRowOpen s o p row = false
  srcFree : ∀ r ∈ localRange o.core (rowSrc p row) p.cx.rbytes.toNat, engineBusy s o.core r.1 r.2 false o.id = false
  dstFree : ∀ r ∈ localRange o.core (rowDst p row) p.cx.rbytes.toNat, engineBusy s o.core r.1 r.2 true o.id = false

section
variable {s : State} {o : Op} {p : CopyOp} {row : Nat} (h : RowStarts s o p row)
include h

/-- Nothing keeps a row that may start from its read and its write (R296, R299, R300, R305). -/
theorem RowStarts.guards :
    (!(copyOpen p).contains row || rowParked s o.id row) = false ∧
      ((!p.failed.isEmpty || p.cancelled) && !p.parked.contains row) = false ∧ (∀ a n, deadRow o p a n = false) ∧
      (!opReleased s o p.rel 4 || lowerRowOpen s o p row ||
        (localRange o.core (rowSrc p row) p.cx.rbytes.toNat).any (fun r => engineBusy s o.core r.1 r.2 false o.id) ||
        (localRange o.core (rowDst p row) p.cx.rbytes.toNat).any (fun r => engineBusy s o.core r.1 r.2 true o.id)) = false := by
  have hsrc : (localRange o.core (rowSrc p row) p.cx.rbytes.toNat).any (fun r => engineBusy s o.core r.1 r.2 false o.id) = false :=
    List.any_eq_false.2 fun r hr => by simp [h.srcFree r hr]
  have hdst : (localRange o.core (rowDst p row) p.cx.rbytes.toNat).any (fun r => engineBusy s o.core r.1 r.2 true o.id) = false :=
    List.any_eq_false.2 fun r hr => by simp [h.dstFree r hr]
  exact ⟨by simp [h.rowOpen, h.notParked], by simp [h.failed, h.cancelled], fun a n => by simp [deadRow, h.dead],
    by rw [h.released, h.lower, hsrc, hdst]; rfl⟩

/-- A row that may start fails as its read does (R299). -/
theorem execCopyRowComplete_of_fail {kind : Nat} {a : Word}
    (hr : rowRead (opView s o) o.core (rowSrc p row) p.cx.rbytes.toNat = .fail kind a) :
    execCopyRowComplete o.id row s = .next (failCopyRow s o p row kind 1 a) := by
  obtain ⟨hopen, hfail, hdead, hwait⟩ := h.guards
  unfold execCopyRowComplete
  simp only [h.op, h.body, hopen, hfail, hdead, hwait, hr, done, Bool.false_eq_true, if_false]

/-- A row that may start and whose write may be done is done in one step (R299). -/
theorem execCopyRowComplete_of_ok {bs q : List Byte}
    (hr : rowRead (opView s o) o.core (rowSrc p row) p.cx.rbytes.toNat = .ok bs)
    (hw : rowCheck s o.core (rowDst p row) p.cx.rbytes.toNat = .ok q) :
    execCopyRowComplete o.id row s = .next (settleCopy (putCopyRow s o p row bs) o (performRow p row)) := by
  obtain ⟨hopen, hfail, hdead, hwait⟩ := h.guards
  have hperf : ({ p with parked := p.parked.filter (· != row), performed := p.performed ++ [row] } : CopyOp) = performRow p row := by
    rw [performRow, h.parked]
    rfl
  unfold execCopyRowComplete
  simp only [h.op, h.body, hopen, hfail, hdead, hwait, hr, hw, hperf, done, Bool.false_eq_true, if_false]

end

/-! ### A row into the own scratchpad (R296, R300) -/

section
variable {s : State} {o : Op} {p : CopyOp} {row off : Nat} {bs : List Byte}

/-- The state with a row's bytes written in the scratchpad of a copy's own core. -/
def rowInOwn (s : State) (o : Op) (p : CopyOp) (row off : Nat) (bs : List Byte) : State :=
  { spadWrite (rowTouch s o.core p.cx.bypass (rowSrc p row) bs.length) o.core off bs with
    fresh := (rowTouch s o.core p.cx.bypass (rowSrc p row) bs.length).fresh + bs.length }

/-- A row that meets no source row is written as it was read, and counted where it has a byte (R300, R501). -/
theorem putCopyRow_own (hd : placeOf o.core (rowDst p row) = .spad off)
    (hm : placesMeet (sourcePlaces s o p) (rowPlaces s o p false row) = false) :
    putCopyRow s o p row bs =
      if bs.isEmpty then rowInOwn s o p row off bs else countRoundRow (rowInOwn s o p row off bs) o.core off := by
  have hbytes : rowBytesOf s o p row bs = bs := if_pos (by simp [hm])
  unfold putCopyRow
  simp only [hd, rowPut, hbytes]
  rfl

/-- What a row into the own scratchpad leaves: the scratchpad with its bytes, every context, every operation and every byte of memory. -/
structure RowWritten (s t : State) (c off : Nat) (bs : List Byte) : Prop where
  spad : (getCore t c).spad = memWrite (getCore s c).spad off bs
  ctx : getCtx t c = getCtx s c
  ops : t.ops = s.ops
  mem : SameMem s t

theorem rowWritten_rowInOwn : RowWritten s (rowInOwn s o p row off bs) o.core off bs := by
  have hcaches := cachesOnly_rowTouch s o.core p.cx.bypass (rowSrc p row) bs.length
  obtain ⟨hcores, hmem⟩ := readOnly_rowTouch s o.core p.cx.bypass (rowSrc p row) bs.length
  refine ⟨?_, ?_, ?_, sameMem_trans hmem ⟨fun _ => rfl, fun _ => rfl⟩⟩
  · exact (spad_spadWrite ..).trans (by rw [getCore_of_cores hcores])
  · exact (getCtx_spadWrite_self ..).trans (by rw [getCtx, getCore_of_cores hcores, getCtx])
  · exact hcaches.field State.ops

theorem rowWritten_putCopyRow (hd : placeOf o.core (rowDst p row) = .spad off)
    (hm : placesMeet (sourcePlaces s o p) (rowPlaces s o p false row) = false) :
    RowWritten s (putCopyRow s o p row bs) o.core off bs := by
  obtain ⟨hspad, hctx, hops, hmem⟩ := rowWritten_rowInOwn (s := s) (o := o) (p := p) (row := row) (off := off) (bs := bs)
  rw [putCopyRow_own hd hm]
  split
  · exact ⟨hspad, hctx, hops, hmem⟩
  · have hcount := countsOnly_countRoundRow (rowInOwn s o p row off bs) o.core off
    exact {
      spad := (spad_countRoundRow ..).trans hspad
      ctx := (getCore_countRoundRow_field (g := Core.ctx) (fun _ _ => rfl) ..).trans hctx
      ops := (hcount.field State.ops).trans hops
      mem := sameMem_trans hmem hcount.sameMem }

end

/-! ### The obligation -/

section
variable {s : State} {o : Op} {p : CopyOp} {row : Nat} (h : RowStarts s o p row)
include h

/-- A row that has been done ends the copy with OK where it was the last one, and counts as performed otherwise (R297, R299). -/
theorem settleCopy_performRow {t : State} {c off : Nat} {bs : List Byte} (hc : c = o.core) (ht : RowWritten s t c off bs) :
    (copyOpen p = [row] →
      EndedWith s (settleCopy t o (performRow p row)) o (engineStatus 0 (skippedRows p) 0 0 (copyRows p))) ∧
    (copyOpen p ≠ [row] →
      findOp (settleCopy t o (performRow p row)) o.id = some { o with body := .copy (performRow p row) }) := by
  subst hc
  have ho : findOp t o.id = some o := (findOp_congr ht.ops _).trans h.op
  have hfail : (performRow p row).failed = [] := h.failed
  have hparked : (performRow p row).parked = [] := h.parked
  have hcan : (performRow p row).cancelled = false := h.cancelled
  refine ⟨fun hone => ?_, fun hmore => ?_⟩
  · have hnil := (copyOpen_performRow_eq_nil h.rowOpen).2 hone
    have hend := endedWith_settleCopy ho (p := performRow p row) (by simp [copyDone, hparked, hnil])
    rw [rowsDone_of_noneOpen hfail hnil, show copyCode (performRow p row) = 0 by simp [copyCode, hcan, hfail], EndedWith, ht.ctx] at hend
    exact hend
  · have hopen : copyOpen (performRow p row) ≠ [] := fun hnil => hmore ((copyOpen_performRow_eq_nil h.rowOpen).1 hnil)
    exact findOp_settleCopy ho (by simp [copyDone, hfail, hcan, hopen])

omit h in
/-- A source page that faults parks the row, where its port's fault queue has room (R299, R408). -/
theorem failCopyRow_fault {a : Word} {port : Nat} (hport : stationOf (columnOf s o.core) (a.toNat % 2 ^ 48) = port)
    (hroom : (s.fq.filter (fun e => e.port == port)).length < 64) :
    (failCopyRow s o p row 0 1 a).fq = s.fq ++ [{ port := port, what := .row o.id row, own := true }] ∧
      (failCopyRow s o p row 0 1 a).cores = s.cores := by
  have hpark : ¬ faultDepth ≤ (s.fq.filter (fun e => e.port == port)).length := Nat.not_le.2 hroom
  simp only [failCopyRow, hport, parkRow, if_neg hpark, if_true]
  exact ⟨rfl, rfl⟩

/-- A source page that is refused ends the copy with SRCFAIL (R298, R299). -/
theorem endedWith_failCopyRow (a : Word) :
    EndedWith s (failCopyRow s o p row 1 1 a) o (engineStatus 1 (skippedRows p) 0 0 (rowsDone p)) := by
  have hend := endedWith_settleCopy h.op
    (p := { p with parked := p.parked.filter (· != row), failed := p.failed ++ [(row, 1)] }) (by simp [copyDone, h.parked])
  rwa [show copyCode { p with parked := p.parked.filter (· != row), failed := p.failed ++ [(row, 1)] } = 1 by
    simp [copyCode, h.failed, h.cancelled]] at hend

end

/-- Settles O28: what an instruction that asks for a copy answers, XCANCEL, and the step of a row that may start. A row whose source page
faults parks (log 27). -/
theorem copyOperations : Obligations.CopyOperations := by
  unfold Obligations.CopyOperations
  refine ⟨fun s d v tn => ⟨fun h hfull hl => ⟨asksCopy_xcopy h hfull hl, fun b hseq ht hc hr hfmt hready => ?_⟩,
    fun h => ⟨execXcancel_clear h, ?_⟩⟩, ?_⟩
  · exact ⟨asksCopy_xgath h hfull hl hseq ht hc hr hfmt hready, asksCopy_xscat h hfull hl hseq ht hc hr hfmt hready⟩
  · intro o p ho hm hreg hb hc hser hrun hparked hf hopen
    have hdone : copyDone { p with cancelled := true } = true := by simp [copyDone, hparked]
    have ho' : findOp (pastUnit s) o.id = some o := ho
    have hfocus : (settleCopy (pastUnit s) o { p with cancelled := true }).focus = s.focus := settleCopy_focus ho'
    obtain ⟨hgone, htold⟩ := endedWith_settleCopy ho' hdone
    have hctx : getCtx (pastUnit s) o.core = passUnit (cur s) := hc ▸ getCtx_setCtx_self ..
    have hne : v ≠ 0 := by
      rintro rfl
      exact nomatch hm
    subst hreg
    refine ⟨_, execXcancel_copy h ho hm hb hc hser hf, hgone, ?_⟩
    rw [hctx] at htold
    rw [cur, hfocus, ← hc]
    exact htold hrun hm hne
  · intro s o p row hop hbody hopen hpark hfail hcan hdead hparked hrel hlow n src dst told hsrc hdst
    have h : RowStarts s o p row := ⟨hop, hbody, hopen, hpark, hfail, hcan, hdead, hparked, hrel, hlow, hsrc, hdst⟩
    refine ⟨fun bs q off hr hd hw hm => ?_, fun a hr => ?_, fun a hr => ?_⟩
    · have ht : RowWritten s (putCopyRow s o p row bs) o.core off bs := rowWritten_putCopyRow hd hm
      have ho : findOp (putCopyRow s o p row bs) o.id = some o := (findOp_congr ht.ops _).trans hop
      have hspad := (spad_settleCopy ho (p := performRow p row) o.core).trans ht.spad
      refine ⟨_, execCopyRowComplete_of_ok h hr hw, ?_, fun a ha => ?_, sameMem_trans ht.mem (sameMem_settleCopy ho),
        settleCopy_performRow h rfl ht⟩
      · rw [spadRead, hspad, memRead_memWrite_self]
      · rw [hspad, memGet_memWrite_of_outside _ _ _ _ ha]
    · exact fun hroom => ⟨_, execCopyRowComplete_of_fail h hr, failCopyRow_fault rfl hroom⟩
    · exact ⟨_, execCopyRowComplete_of_fail h hr, endedWith_failCopyRow h a⟩

end Sys2Proof.Machine
end

section
/-! Multicasts at issue (R294-R298, R306-R309, R534, R557). -/

namespace Sys2Proof.Machine

/-! ### The checks (R306) -/

theorem mcastArgsOk_pastUnit (s : State) (b : Tile) (w mask : Word) :
    mcastArgsOk (pastUnit s) s.focus b w mask = mcastArgsOk s s.focus b w mask := by
  unfold mcastArgsOk groupHeld
  rw [getCore_setCtx_self]
  rfl

/-- The cores of the receivers that a mask names, in rank order (R82, R306). -/
theorem maskReceivers_cores (s : State) (c : Nat) (w mask : Word) :
    (maskReceivers s c w mask).map (·.core) =
      ((List.range 64).filter (fun k => mask.getLsbD k)).map (fun k => (groupOf s c (w.toNat % 2 ^ 8)).members.getD k 0) :=
  List.map_map ..

/-! ### Leave out of a reservation (R249, R534) -/

theorem heldInUse_pastUnit (s : State) : heldInUse (pastUnit s) s.focus = heldInUse s s.focus := by
  unfold heldInUse
  rw [getCtx_setCtx_self]
  rfl

/-- A draw that the reservation covers takes nothing from the pool (R249). -/
theorem drawLeave_reserved {s : State} {c n : Nat} (h : heldInUse s c + n ≤ (getCtx s c).sys.held.toNat) (who : LeaveWho) :
    drawLeave s c n who = (true, n, 0, s) := by
  have hmin : Nat.min ((getCtx s c).sys.held.toNat - heldInUse s c) n = n := Nat.min_eq_right (by omega)
  unfold drawLeave
  simp only [hmin, Nat.sub_self, if_true]

/-! ### Issue (R294, R306-R309) -/

/-- The multicast of the unit in progress on the core that runs. -/
def askedMcast (s : State) (read : Bool) (tile : Tile) (w src mask : Word) : McastOp :=
  newMcast (pastUnit s) (issuedOf (cur s) s.focus) read tile w src mask

/-- The events of an XMCAST, one per receiver (R309). -/
def deliveryEvents (n : Nat) (m : McastOp) : List Event := m.receivers.map (fun r => .multicastDelivery n r.rank)

/-- The events of an XMREAD, one per line, and one more for the case that it has no line (R310). -/
def lineEvents (n : Nat) (m : McastOp) : List Event :=
  (List.range (readPiecesOf m).length).map (.xmreadRequestArrive n) ++ [.multicastEnd n]

/-- The state in which the operands of a multicast have been refused (R298). -/
abbrev mcastRefused (s : State) (d : BitVec 5) : State :=
  withCur s (setStatus (setCommit (passUnit (cur s))) d (engineStatus 5 0 0 0 0))

/-- An instruction starts a multicast of the core that runs, its source tile still to be read, with its events (R294, R309). -/
def StartsMcast (s : State) (d : BitVec 5) (i : Instr) (held : Nat) (tile : Tile) (word mask : Word) (read : Bool)
    (events : McastOp → List Event) : Prop :=
  ∃ (t : State) (m : McastOp), exec i s = .next t ∧ cur t = markReg (setCommit (passUnit (cur s))) d (.op s.nextId) ∧
    t.ops = s.ops ++ [startedOp s d held (.mcast m)] ∧ m.read = read ∧ m.loaded = read ∧ m.tile = tile ∧ m.word = word ∧
    m.ended = false ∧ m.name = (cur s).sys.tid.toNat ∧
    m.receivers.map (·.core) =
      ((List.range 64).filter (fun k => mask.getLsbD k)).map (fun k => (groupOf s s.focus (word.toNat % 2 ^ 8)).members.getD k 0) ∧
    t.agenda = s.agenda ++ events m ∧ (getCore t s.focus).spad = (getCore s s.focus).spad

section
variable {s : State} {d : BitVec 5}

theorem startsMcast_of_opStarted {i : Instr} {held : Nat} {tile : Tile} {word src mask : Word} {read : Bool}
    {events : McastOp → List Event}
    (h : exec i s = .next (opStarted s (setCommit (passUnit (cur s))) d held (.mcast (askedMcast s read tile word src mask))
      (events (askedMcast s read tile word src mask)))) : StartsMcast s d i held tile word mask read events := by
  have hname : (askedMcast s read tile word src mask).name = (cur s).sys.tid.toNat := by
    show (getCtx (pastUnit s) s.focus).sys.tid.toNat = _
    rw [getCtx_setCtx_self, passUnit_sys]
  exact ⟨_, _, h, cur_opStarted, rfl, rfl, rfl, rfl, rfl, rfl, hname, maskReceivers_cores .., rfl, spad_opStarted⟩

variable {a b : BitVec 5} {tn : BitVec 4} (h : Goes (cur s) (needs [a, b] [d] (ord := true)))
  (hfull : copiesFull s s.focus = false) (hl : holdsStores (cur s) = false) (hseq : (cur s).seq = [])

section
include hfull hl hseq

theorem mcastWaits_pastUnit : mcastWaits (pastUnit s) s.focus = false := by
  have hfull' : copiesFull (pastUnit s) s.focus = false := hfull
  have hseq' : (passUnit (cur s)).seq = [] := hseq
  simp only [mcastWaits, hfull', getCtx_setCtx_self, holdsStores_passUnit, hl, hseq', List.isEmpty_nil, Bool.not_true, Bool.or_self]

include h

/-- A tile that is not bound, or has no whole bytes in its rows, traps with SHAPE (R308). -/
theorem execXmcast_unbound (ht : mcastTile (cur s) tn = none) :
    execXmcast d a b tn s = .next (takeTrap (pastUnit s) s.focus (issueTrap (unitPc (cur s)) causeShape 4 0)) := by
  have ht' : mcastTile (passUnit (cur s)) tn = none := ht
  refine issue_some h ?_
  simp only [issuedOf_core, mcastWaits_pastUnit hfull hl hseq, getCtx_setCtx_self, ht']
  rfl

theorem execXmread_unbound (ht : mcastTile (cur s) tn = none) :
    execXmread d a b tn s = .next (takeTrap (pastUnit s) s.focus (issueTrap (unitPc (cur s)) causeShape 4 0)) := by
  have ht' : mcastTile (passUnit (cur s)) tn = none := ht
  refine issue_some h ?_
  simp only [issuedOf_core, mcastWaits_pastUnit hfull hl hseq, getCtx_setCtx_self, ht']
  rfl

variable {tile : Tile} (ht : mcastTile (cur s) tn = some tile)
include ht

theorem execXmcast_refused (hbad : (cur s).sys.dual = true ∨ mcastArgsOk s s.focus tile (regVal (cur s) a) (regVal (cur s) b) = false) :
    execXmcast d a b tn s = .next (mcastRefused s d) := by
  have ht' : mcastTile (passUnit (cur s)) tn = some tile := ht
  have hbad' : ((cur s).sys.dual || !mcastArgsOk s s.focus tile (regVal (cur s) a) (regVal (cur s) b)) = true := by
    simpa using hbad
  refine issue_some h ?_
  simp only [issuedOf_core, mcastWaits_pastUnit hfull hl hseq, getCtx_setCtx_self, ht', regVal_passUnit, passUnit_sys,
    mcastArgsOk_pastUnit, hbad', badCopy, modCtx_setCtx]
  rfl

theorem execXmcast_starts (hdual : (cur s).sys.dual = false)
    (hok : mcastArgsOk s s.focus tile (regVal (cur s) a) (regVal (cur s) b) = true)
    (hready : tileReady (pastUnit s) s.focus tile false = true) (hheld : heldInUse s s.focus + 4 ≤ (cur s).sys.held.toNat) :
    execXmcast d a b tn s =
      let m := askedMcast s false tile (regVal (cur s) a) 0 (regVal (cur s) b)
      .next (opStarted s (setCommit (passUnit (cur s))) d 4 (.mcast m)
        (deliveryEvents s.nextId m)) := by
  have ht' : mcastTile (passUnit (cur s)) tn = some tile := ht
  have hdraw : drawLeave (pastUnit s) s.focus mcastLeave (.issue s.focus) = (true, 4, 0, pastUnit s) :=
    drawLeave_reserved (by rw [heldInUse_pastUnit, getCtx_setCtx_self]; exact hheld) _
  refine issue_some h ?_
  simp only [issuedOf_core, issuedOf_upc, mcastWaits_pastUnit hfull hl hseq, getCtx_setCtx_self, ht', regVal_passUnit, passUnit_sys,
    mcastArgsOk_pastUnit, hdual, hok, hready, hdraw, modCtx_setCtx]
  exact congrArg some (startHeld_withCur (serialOf_setCommit ..) rfl)

variable (hal : (regVal (cur s) a).toNat % 64 = 0)
include hal

theorem execXmread_refused
    (hbad : (cur s).sys.dual = true ∨ mcastArgsOk s s.focus tile (cur s).sys.cx.dst (regVal (cur s) b) = false ∨
      spaceOf (regVal (cur s) a) ≠ 4) :
    execXmread d a b tn s = .next (mcastRefused s d) := by
  have ht' : mcastTile (passUnit (cur s)) tn = some tile := ht
  have hbad' : ((cur s).sys.dual || !mcastArgsOk s s.focus tile (cur s).sys.cx.dst (regVal (cur s) b) ||
      spaceOf (regVal (cur s) a) != 4) = true := by
    simpa [or_assoc] using hbad
  refine issue_some h ?_
  simp only [issuedOf_core, mcastWaits_pastUnit hfull hl hseq, getCtx_setCtx_self, ht', regVal_passUnit, passUnit_sys,
    mcastArgsOk_pastUnit, hbad', hal, badCopy, modCtx_setCtx]
  rfl

theorem execXmread_starts (hdual : (cur s).sys.dual = false)
    (hok : mcastArgsOk s s.focus tile (cur s).sys.cx.dst (regVal (cur s) b) = true) (hspace : spaceOf (regVal (cur s) a) = 4) :
    execXmread d a b tn s =
      let m := askedMcast s true tile (cur s).sys.cx.dst (regVal (cur s) a) (regVal (cur s) b)
      .next (opStarted s (setCommit (passUnit (cur s))) d 0 (.mcast m)
        (lineEvents s.nextId m)) := by
  have ht' : mcastTile (passUnit (cur s)) tn = some tile := ht
  have hspace' : (spaceOf (regVal (cur s) a) != 4) = false := bne_eq_false_iff_eq.2 hspace
  refine issue_some h ?_
  simp only [issuedOf_core, issuedOf_upc, mcastWaits_pastUnit hfull hl hseq, getCtx_setCtx_self, ht', regVal_passUnit, passUnit_sys,
    mcastArgsOk_pastUnit, hdual, hok, hspace', hal, modCtx_setCtx]
  exact congrArg some (startHeld_withCur (serialOf_setCommit ..) rfl)

end

/-! ### XFREE (R312) -/

/-- The state in which the core that runs has sent a notice for a task name (R312). -/
abbrev noticeSent (s : State) (name : Nat) : State :=
  sendMsg (withCur s (setCommit (passUnit (cur s)))) s.focus (name / 2 ^ 16) 0 none (.xfree name)

theorem execXfree_sends (h : Goes (cur s) (needs [a] [])) (hl : holdsStores (cur s) = false) (hdual : (cur s).sys.dual = false) :
    execXfree a s = .next (noticeSent s ((regVal (cur s) a).toNat % 2 ^ 28)) := by
  refine issue_some h ?_
  simp only [issuedOf_core, getCtx_setCtx_self, regVal_passUnit, holdsStores_passUnit, hl, passUnit_sys, hdual, modCtx_setCtx]
  rfl

end

/-- Settles O29: a unit that goes is refused, trapped, or starts its multicast with the leave that its reservation holds; XFREE sends. The
commit latch is set at issue (log 33). -/
theorem multicasts : Obligations.Multicasts := by
  unfold Obligations.Multicasts
  refine fun s d a b tn => ⟨fun h hfull hl hseq => ⟨fun ht => ?_, fun tile ht => ⟨fun hbad => ?_, fun hdual hok hready hheld => ?_,
    fun hal => ⟨fun hbad => ?_, fun hdual hok hspace => ?_⟩⟩⟩, fun h hl hdual => ?_⟩
  · exact ⟨execXmcast_unbound h hfull hl hseq ht, execXmread_unbound h hfull hl hseq ht⟩
  · exact execXmcast_refused h hfull hl hseq ht hbad
  · have hex : exec (.xmcast d a b tn) s = _ := execXmcast_starts h hfull hl hseq ht hdual hok hready hheld
    exact startsMcast_of_opStarted (events := deliveryEvents s.nextId) hex
  · exact execXmread_refused h hfull hl hseq ht hal hbad
  · have hex : exec (.xmread d a b tn) s = _ := execXmread_starts h hfull hl hseq ht hal hdual hok hspace
    exact startsMcast_of_opStarted (events := lineEvents s.nextId) hex
  · exact ⟨_, execXfree_sends h hl hdual, getCtx_setCtx_self .., rfl, _, sendMsg_msgs .., rfl, rfl, rfl⟩

end Sys2Proof.Machine
end

section
/-! Barrier objects and rows of bytes in a scratchpad (R307, R522-R524). -/

namespace Sys2Proof.Machine

/-! ### Ranges of bytes -/

theorem memRead_congr {m k : Memory} {a n : Nat} (h : ∀ x, a ≤ x → x < a + n → memGet k x = memGet m x) :
    memRead k a n = memRead m a n :=
  List.map_congr_left fun _ hi => h _ (Nat.le_add_right ..) (Nat.add_lt_add_left (List.mem_range.1 hi) a)

theorem memWrite_append (m : Memory) (a : Nat) (bs cs : List Byte) :
    memWrite m a (bs ++ cs) = memWrite (memWrite m a bs) (a + bs.length) cs := by
  induction bs generalizing m a with
  | nil => rfl
  | cons b bs ih =>
    rw [List.length_cons, Nat.add_comm bs.length, ← Nat.add_assoc]
    exact ih (memSet m a b) (a + 1)

/-- The first of two ranges written one behind the other reads back. -/
theorem memRead_memWrite_left (m : Memory) (a : Nat) (bs cs : List Byte) : memRead (memWrite m a (bs ++ cs)) a bs.length = bs := by
  rw [memWrite_append]
  exact (memRead_congr fun x _ hx => memGet_memWrite_of_outside cs _ _ x (.inl hx)).trans (memRead_memWrite_self bs m a)

/-- And so does the second. -/
theorem memRead_memWrite_right (m : Memory) (a : Nat) (bs cs : List Byte) :
    memRead (memWrite m a (bs ++ cs)) (a + bs.length) cs.length = cs := by
  rw [memWrite_append, memRead_memWrite_self]

/-- Two ranges that do not meet: a byte of the one, where the other has a byte, lies outside the other. -/
theorem outside_of_not_meets {a n b k x : Nat} (h : meets a n b k = false) (hb : b ≤ x) (hk : x < b + k) : x < a ∨ a + n ≤ x := by
  by_contra hin
  have := meets_of_mem (a := a) (n := n) (b := b) (k := k) (p := x) (by omega) (by omega) hb hk
  simp [this] at h

/-! ### Barrier objects (R522, R523) -/

section
variable {s t : State} {c off : Nat} {b : BarObj}

/-- What is written into a barrier object reads back, where it fits the object's fields (R522). -/
theorem readBar_writeBar (he : b.expect < 2 ^ 48) (hc : b.count < 2 ^ 64) : readBar (writeBar s c off b) c off = b := by
  have hlen (v : Nat) : (leBytes 8 v).length = 8 := length_leBytes ..
  have hlo : spadRead (writeBar s c off b) c off 8 = leBytes 8 b.count := by
    have h := memRead_memWrite_left (getCore s c).spad off (leBytes 8 b.count) (leBytes 8 (b.expect % 2 ^ 48 + b.armed.toNat * 2 ^ 63))
    rwa [hlen, ← spad_spadWrite] at h
  have hhi : spadRead (writeBar s c off b) c (off + 8) 8 = leBytes 8 (b.expect % 2 ^ 48 + b.armed.toNat * 2 ^ 63) := by
    have h := memRead_memWrite_right (getCore s c).spad off (leBytes 8 b.count) (leBytes 8 (b.expect % 2 ^ 48 + b.armed.toNat * 2 ^ 63))
    rwa [hlen, hlen, ← spad_spadWrite] at h
  obtain ⟨armed, expect, count⟩ := b
  dsimp only at he hc hlo hhi
  rw [readBar, hlo, hhi, leNat_leBytes, leNat_leBytes]
  cases armed with
  | false =>
    simp only [Bool.toNat_false, BarObj.mk.injEq, beq_eq_false_iff_ne]
    omega
  | true =>
    simp only [Bool.toNat_true, BarObj.mk.injEq, beq_iff_eq]
    omega

/-- An object of which no byte has changed is the same. -/
theorem readBar_congr (h : ∀ x, off ≤ x → x < off + 16 → memGet (getCore t c).spad x = memGet (getCore s c).spad x) :
    readBar t c off = readBar s c off := by
  have hlo : spadRead t c off 8 = spadRead s c off 8 := memRead_congr fun x h1 h2 => h x h1 (by omega)
  have hhi : spadRead t c (off + 8) 8 = spadRead s c (off + 8) 8 := memRead_congr fun x h1 h2 => h x (by omega) (by omega)
  unfold readBar
  rw [hlo, hhi]

/-- Bytes are counted in an object, which saturates (R523). -/
theorem readBar_barAdd (s : State) (c off n : Nat) :
    readBar (barAdd s c off n) c off = { readBar s c off with count := min ((readBar s c off).count + n) (2 ^ 64 - 1) } := by
  refine readBar_writeBar (b := { readBar s c off with count := min ((readBar s c off).count + n) (2 ^ 64 - 1) }) ?_ ?_
  · exact Nat.mod_lt _ (by decide)
  · exact Nat.lt_of_le_of_lt (Nat.min_le_right ..) (by decide)

end

/-! ### Rows of bytes (R307) -/

/-- A memory with numbered rows of bytes written, a pitch apart from a base. -/
def writeByteRows (base pitch : Nat) (m : Memory) (ps : List (Nat × List Byte)) : Memory :=
  ps.foldl (fun m p => memWrite m (base + p.1 * pitch) p.2) m

section
variable {base pitch : Nat} {ps : List (Nat × List Byte)}

theorem memGet_writeByteRows_of_outside {x : Nat}
    (h : ∀ p ∈ ps, x < base + p.1 * pitch ∨ base + p.1 * pitch + p.2.length ≤ x) (m : Memory) :
    memGet (writeByteRows base pitch m ps) x = memGet m x := by
  induction ps generalizing m with
  | nil => rfl
  | cons p ps ih =>
    exact (ih (fun q hq => h q (List.mem_cons_of_mem _ hq)) _).trans (memGet_memWrite_of_outside _ _ _ _ (h p List.mem_cons_self))

/-- Rows of different numbers lie apart. -/
theorem rows_apart {i j n k x : Nat} (hij : i ≠ j) (hn : n ≤ pitch) (hk : k ≤ pitch) (hi : base + i * pitch ≤ x)
    (hin : x < base + i * pitch + n) :
    x < base + j * pitch ∨ base + j * pitch + k ≤ x := by
  rcases Nat.lt_or_gt_of_ne hij with h | h
  · have := Nat.mul_le_mul_right pitch (Nat.succ_le_of_lt h)
    rw [Nat.succ_mul] at this
    omega
  · have := Nat.mul_le_mul_right pitch (Nat.succ_le_of_lt h)
    rw [Nat.succ_mul] at this
    omega

/-- Each row reads back, where the numbers differ and no row reaches the next. -/
theorem memRead_writeByteRows (hn : (ps.map (·.1)).Nodup) (hl : ∀ p ∈ ps, p.2.length ≤ pitch) {p : Nat × List Byte}
    (hp : p ∈ ps) (m : Memory) : memRead (writeByteRows base pitch m ps) (base + p.1 * pitch) p.2.length = p.2 := by
  induction ps generalizing m with
  | nil => exact absurd hp List.not_mem_nil
  | cons q ps ih =>
    rw [List.map_cons, List.nodup_cons] at hn
    obtain ⟨hq, hn⟩ := hn
    rcases List.mem_cons.1 hp with rfl | hm
    · refine (memRead_congr fun x hlo hhi => ?_).trans (memRead_memWrite_self p.2 m _)
      refine memGet_writeByteRows_of_outside (ps := ps) (fun r hr => ?_) (memWrite m (base + p.1 * pitch) p.2)
      have hne : p.1 ≠ r.1 := fun he => hq (List.mem_map.2 ⟨r, hr, he.symm⟩)
      exact rows_apart hne (hl p List.mem_cons_self) (hl r (List.mem_cons_of_mem _ hr)) hlo hhi
    · exact ih hn (fun r hr => hl r (List.mem_cons_of_mem _ hr)) hm _

end

/-- The numbered rows of a list. -/
theorem mem_zip_range {α : Type} {l : List α} {p : Nat × α} : p ∈ (List.range l.length).zip l ↔ l[p.1]? = some p.2 := by
  obtain ⟨i, a⟩ := p
  rw [List.mem_iff_getElem?]
  simp only [List.getElem?_zip_eq_some]
  refine ⟨fun ⟨j, hj, ha⟩ => ?_, fun ha => ⟨i, List.getElem?_range (List.getElem?_eq_some_iff.1 ha).1, ha⟩⟩
  have hij : j = i := by
    obtain ⟨hlt, he⟩ := List.getElem?_eq_some_iff.1 hj
    rwa [List.getElem_range] at he
  exact hij ▸ ha

theorem zip_range_nodup {α : Type} (l : List α) : (((List.range l.length).zip l).map (·.1)).Nodup := by
  rw [List.map_fst_zip (by rw [List.length_range])]
  exact List.nodup_range

end Sys2Proof.Machine
end

section
/-! The deliveries of an XMCAST (R295, R307, R309). -/

namespace Sys2Proof.Machine

/-! ### The rows delivered (R307, R501) -/

/-- The state after one row of an XMCAST has been written at a receiver, and counted where it has a byte (R307, R501). -/
def deliverRow (m : McastOp) (c : Nat) (s : State) (p : Nat × List Byte) : State :=
  if p.2.isEmpty then s
  else countRoundRow (spadWrite s c (m.tile.base + p.1 * m.tile.pitch) p.2) c (m.tile.base + p.1 * m.tile.pitch)

/-- The state after the rows of an XMCAST have been written at a receiver. -/
def rowsDelivered (s : State) (m : McastOp) (c : Nat) : State := ((List.range m.rows.length).zip m.rows).foldl (deliverRow m c) s

theorem deliverRows_eq (s : State) (m : McastOp) (c : Nat) :
    deliverRows s m c =
      if wordCnt m.word then barAdd (rowsDelivered s m c) c (wordBoff m.word) ((m.rows.map (·.length)).sum)
      else rowsDelivered s m c := rfl

theorem countsOnly_deliverRow (m : McastOp) (c : Nat) (s : State) (p : Nat × List Byte) : CountsOnly s (deliverRow m c s p) := by
  unfold deliverRow
  split
  · exact .refl s
  · exact (countsOnly_spadWrite ..).trans (countsOnly_countRoundRow ..)

theorem countsOnly_deliverRows (s : State) (m : McastOp) (c : Nat) : CountsOnly s (deliverRows s m c) := by
  have hrows : CountsOnly s (rowsDelivered s m c) := countsOnly_foldl (countsOnly_deliverRow m c) _ s
  rw [deliverRows_eq]
  split
  · exact hrows.trans (countsOnly_spadWrite ..)
  · exact hrows

theorem spad_deliverRow (m : McastOp) (c : Nat) (s : State) (p : Nat × List Byte) :
    (getCore (deliverRow m c s p) c).spad = memWrite (getCore s c).spad (m.tile.base + p.1 * m.tile.pitch) p.2 := by
  unfold deliverRow
  split
  next h => rw [List.isEmpty_iff.1 h, memWrite]
  · rw [spad_countRoundRow, spad_spadWrite]

/-- The receiver's scratchpad has the rows of the tile. -/
theorem spad_rowsDelivered (s : State) (m : McastOp) (c : Nat) :
    (getCore (rowsDelivered s m c) c).spad =
      writeByteRows m.tile.base m.tile.pitch (getCore s c).spad ((List.range m.rows.length).zip m.rows) := by
  unfold rowsDelivered writeByteRows
  generalize (List.range m.rows.length).zip m.rows = ps
  induction ps generalizing s with
  | nil => rfl
  | cons p ps ih => rw [List.foldl_cons, List.foldl_cons, ih, spad_deliverRow]

section
variable {s : State} {m : McastOp} {c : Nat}

theorem findOp_deliverRows (n : Nat) : findOp (deliverRows s m c) n = findOp s n :=
  findOp_congr ((countsOnly_deliverRows s m c).field State.ops) n

theorem deliverRows_agenda : (deliverRows s m c).agenda = s.agenda := (countsOnly_deliverRows s m c).field State.agenda

theorem memGet_rowsDelivered_of_outside {x : Nat}
    (h : ∀ i bs, m.rows[i]? = some bs → x < m.tile.base + i * m.tile.pitch ∨ m.tile.base + i * m.tile.pitch + bs.length ≤ x) :
    memGet (getCore (rowsDelivered s m c) c).spad x = memGet (getCore s c).spad x := by
  rw [spad_rowsDelivered]
  exact memGet_writeByteRows_of_outside (fun p hp => h p.1 p.2 (mem_zip_range.1 hp)) _

/-- The rows of the tile stand at the receiver. -/
theorem spadRead_rowsDelivered (hl : ∀ bs ∈ m.rows, bs.length ≤ m.tile.pitch) {i : Nat} {bs : List Byte}
    (hi : m.rows[i]? = some bs) : spadRead (rowsDelivered s m c) c (m.tile.base + i * m.tile.pitch) bs.length = bs := by
  rw [spadRead, spad_rowsDelivered]
  exact memRead_writeByteRows (p := (i, bs)) (zip_range_nodup m.rows)
    (fun p hp => hl p.2 (List.mem_of_getElem? (mem_zip_range.1 hp))) (mem_zip_range.2 hi) _

/-- A delivery that is counted adds the bytes of the rows to the receiver's object, where no row meets it (R307). -/
theorem readBar_deliverRows (hcnt : wordCnt m.word = true)
    (hm : ∀ i bs, m.rows[i]? = some bs → meets (m.tile.base + i * m.tile.pitch) bs.length (wordBoff m.word) 16 = false) :
    let b := readBar s c (wordBoff m.word)
    readBar (deliverRows s m c) c (wordBoff m.word) = { b with count := min (b.count + (m.rows.map (·.length)).sum) (2 ^ 64 - 1) } := by
  have hsame : readBar (rowsDelivered s m c) c (wordBoff m.word) = readBar s c (wordBoff m.word) :=
    readBar_congr fun x hlo hhi => memGet_rowsDelivered_of_outside fun i bs hi => outside_of_not_meets (hm i bs hi) hlo hhi
  rw [deliverRows_eq, if_pos hcnt, readBar_barAdd, hsame]

end

/-! ### MULTICAST_DELIVERY (R295, R307, R309) -/

section
variable {s : State} {o : Op} {m : McastOp} {r : Receiver} (ho : findOp s o.id = some o) (hb : o.body = .mcast m) (he : m.ended = false)
  (hr : m.receivers.find? (fun e => e.rank == r.rank && receiverOpen e) = some r) (hread : m.read = false)
  (hrel : opReleased s o m.rel 4 = true) (hbefore : mcastBefore s o r.core = false)
include ho hb he hr hread hrel hbefore

/-- The first delivery reads the source tile, once for all receivers (R309). -/
theorem execMulticastDelivery_loads (hl : m.loaded = false) :
    execMulticastDelivery o.id r.rank s =
      .next (push (putOp s { o with body := .mcast (loadTile s o m) }) (.multicastDelivery o.id r.rank)) := by
  unfold execMulticastDelivery
  simp only [ho, hb, hr, he, hread, hrel, hbefore, hl, done]
  rfl

/-- A delivery to a receiver that can be reached and holds nothing back is done (R307). -/
theorem execMulticastDelivery_delivers (hl : m.loaded = true) (hpeer : peerKind s o.core r.core r.egen = none)
    (hfree : ∀ i < m.tile.vrows, placeBusy s o r.core (m.tile.base + i * m.tile.pitch) (validBytes m.tile) = false)
    (hbar : wordCnt m.word = true → reloading s r.core (wordBoff m.word) 16 = false) :
    execMulticastDelivery o.id r.rank s =
      .next (push (putOp (deliverRows s m r.core)
        { o with body := .mcast (setReceiver m r.rank (fun e => { e with done := true })) }) (.multicastEnd o.id)) := by
  have hrows : (List.range m.tile.vrows).any
      (fun i => placeBusy s o r.core (m.tile.base + i * m.tile.pitch) (validBytes m.tile)) = false :=
    List.any_eq_false.2 fun i hi => by simp [hfree i (List.mem_range.1 hi)]
  have hwait : ((List.range m.tile.vrows).any (fun i => placeBusy s o r.core (m.tile.base + i * m.tile.pitch) (validBytes m.tile)) ||
      (wordCnt m.word && reloading s r.core (wordBoff m.word) 16)) = false := by
    cases hcnt : wordCnt m.word with
    | false => simp [hrows]
    | true => simp [hrows, hbar hcnt]
  unfold execMulticastDelivery
  simp only [ho, hb, hr, he, hread, hrel, hbefore, hl, hpeer, hwait, done]
  rfl

end

end Sys2Proof.Machine
end

section
/-! The end of a multicast and its freeing (R307, R309, R312, R533). -/

namespace Sys2Proof.Machine

/-! ### The oldest multicast of a name (R312) -/

/-- The oldest multicast of a name is the first operation that is a multicast of that name. -/
theorem oldestMcast_eq_some {s : State} {name : Nat} {o : Op} {q : McastOp} (h : oldestMcast s name = some (o, q)) :
    o.body = .mcast q ∧ q.name = name ∧
      ∃ l₁ l₂, s.ops = l₁ ++ o :: l₂ ∧ ∀ x ∈ l₁, ∀ r, x.body = .mcast r → r.name ≠ name := by
  obtain ⟨l₁, x, l₂, hops, hx, hl₁⟩ := List.findSome?_eq_some_iff.1 h
  split at hx
  next r hr =>
    split at hx <;> cases hx
    next hname =>
      refine ⟨hr, hname, l₁, l₂, hops, fun y hy r hr hname => ?_⟩
      have := hl₁ y hy
      simp [hr, hname] at this
  · cases hx

/-- A multicast before which no operation, but itself, is one of its name is the oldest. -/
theorem oldestMcast_of_first {s : State} {o : Op} {q : McastOp} {l₁ l₂ : List Op} (hb : o.body = .mcast q)
    (hops : s.ops = l₁ ++ o :: l₂) (hl : ∀ x ∈ l₁, x = o ∨ ∀ r, x.body = .mcast r → r.name ≠ q.name) :
    oldestMcast s q.name = some (o, q) := by
  unfold oldestMcast
  rw [hops]
  clear hops
  induction l₁ with
  | nil => simp [hb]
  | cons x l₁ ih =>
    have ih := ih fun y hy => hl y (List.mem_cons_of_mem _ hy)
    rw [List.cons_append, List.findSome?_cons]
    rcases hl x List.mem_cons_self with rfl | hx
    · simp [hb]
    · cases hbx : x.body with
      | mcast r => simpa [hx r hbx] using ih
      | _ => simpa using ih

/-- Replacing the oldest multicast of a name by one of its name leaves it the oldest. -/
theorem oldestMcast_putOp {s : State} {name : Nat} {o : Op} {q q' : McastOp} (h : oldestMcast s name = some (o, q))
    (hn : q'.name = name) : oldestMcast (putOp s { o with body := .mcast q' }) name = some ({ o with body := .mcast q' }, q') := by
  obtain ⟨-, -, l₁, l₂, hops, hl⟩ := oldestMcast_eq_some h
  subst hn
  refine oldestMcast_of_first (l₁ := l₁.map (fun p => if p.id = o.id then { o with body := .mcast q' } else p))
    (l₂ := l₂.map (fun p => if p.id = o.id then { o with body := .mcast q' } else p)) rfl (by simp [putOp, hops]) fun x hx => ?_
  obtain ⟨y, hy, rfl⟩ := List.mem_map.1 hx
  split
  · exact .inl rfl
  · exact .inr (hl y hy)

theorem dropOp_putOp (s : State) (o : Op) : dropOp (putOp s o) o.id = dropOp s o.id := by
  have hops (l : List Op) :
      (l.map (fun p => if p.id = o.id then o else p)).filter (fun p => p.id != o.id) = l.filter (fun p => p.id != o.id) := by
    induction l with
    | nil => rfl
    | cons p l ih =>
      by_cases hp : p.id = o.id
      · simpa [hp] using ih
      · simpa [hp] using ih
  unfold dropOp putOp
  rw [hops]

/-! ### Counting what has been freed (R312, R533) -/

section
variable (s : State) (name : Nat)

theorem countFreed_of_none (h : oldestMcast s name = none) (fuel : Nat) : countFreed s name fuel = s := by
  cases fuel with
  | zero => rfl
  | succ f => simp only [countFreed, h]

theorem settleFreed_of_waiting {o : Op} {q : McastOp} (h : oldestMcast s name = some (o, q)) (hf : allFreed q = false) :
    settleFreed s name = s := by
  simp only [settleFreed, countFreed, h, hf, Bool.false_eq_true, if_false]

/-- The last multicast of a name that is freed raises the task's counter once (R312, R533). -/
theorem settleFreed_of_last {o : Op} {q : McastOp} (h : oldestMcast s name = some (o, q)) (hf : allFreed q = true)
    (hlast : oldestMcast (dropOp s o.id) name = none) : settleFreed s name = raiseXfree (dropOp s o.id) name := by
  have hlast' : oldestMcast (raiseXfree (dropOp s o.id) name) name = none := hlast
  simp only [settleFreed, countFreed, h, hf, if_true]
  exact countFreed_of_none _ _ hlast' _

end

section
variable {s : State} {name : Nat} {o : Op} {q q' : McastOp} (h : oldestMcast s name = some (o, q))
include h

theorem findOp_putOp_oldest : findOp (putOp s { o with body := .mcast q' }) o.id = some { o with body := .mcast q' } := by
  obtain ⟨-, -, l₁, l₂, hops, -⟩ := oldestMcast_eq_some h
  obtain ⟨p, hp⟩ := exists_findOp (s := s) (o := o) (by simp [hops])
  exact findOp_putOp_self (o := { o with body := .mcast q' }) hp

variable (hn : q'.name = name)
include hn

/-- The oldest multicast of a name, changed, for which a receiver still has to free it: nothing is counted. -/
theorem settleFreed_putOp_of_waiting (hf : allFreed q' = false) :
    settleFreed (putOp s { o with body := .mcast q' }) name = putOp s { o with body := .mcast q' } :=
  settleFreed_of_waiting _ _ (oldestMcast_putOp h hn) hf

/-- The last multicast of a name, changed, which every receiver has freed, is gone and counted. -/
theorem settleFreed_putOp_of_last (hf : allFreed q' = true) (hlast : oldestMcast (dropOp s o.id) name = none) :
    settleFreed (putOp s { o with body := .mcast q' }) name = raiseXfree (dropOp s o.id) name := by
  have hdrop : dropOp (putOp s { o with body := .mcast q' }) o.id = dropOp s o.id := dropOp_putOp s { o with body := .mcast q' }
  rw [settleFreed_of_last _ _ (oldestMcast_putOp h hn) hf (hdrop ▸ hlast), hdrop]

end

section
variable (s : State) (name : Nat)

/-- The counter that rises is that of the task's generation on its core (R533). -/
theorem live_raiseXfree :
    let tid : BitVec 28 := BitVec.ofNat 28 name
    (getCore (raiseXfree s name) (nameCore tid)).live = (getCore s (nameCore tid)).live.map (fun g =>
      if g.gen = (nameGen tid).toNat then { g with xfree := g.xfree + 1 } else g) := by
  intro tid
  rw [raiseXfree, getCore_modCore_self]

/-- Counting what has been freed changes no context, and leaves operations out alone. -/
theorem countFreed_frame (fuel c : Nat) :
    getCtx (countFreed s name fuel) c = getCtx s c ∧ ∀ p ∈ (countFreed s name fuel).ops, p ∈ s.ops := by
  induction fuel generalizing s with
  | zero => exact ⟨rfl, fun _ hp => hp⟩
  | succ f ih =>
    unfold countFreed
    split
    · exact ⟨rfl, fun _ hp => hp⟩
    · split
      next o _ _ _ =>
        obtain ⟨hctx, hops⟩ := ih (raiseXfree (dropOp s o.id) name)
        refine ⟨hctx.trans ?_, fun p hp => List.mem_of_mem_filter (hops p hp)⟩
        exact getCore_modCore_field (g := Core.ctx) _ _ _ fun _ => rfl
      · exact ⟨rfl, fun _ hp => hp⟩

end

/-! ### MULTICAST_END (R307, R309) -/

/-- The multicast that has ended: a receiver whose delivery failed counts as having freed it (R312). -/
def endedMcast (m : McastOp) : McastOp :=
  { m with ended := true, receivers := m.receivers.map (fun r => if r.code ≠ 0 then { r with freed := true } else r) }

/-- The status of a multicast that ends (R297, R307). -/
def mcastStatus (m : McastOp) : Word :=
  let failed := m.receivers.filter (fun r => r.code != 0)
  engineStatus (mcastCode m) 0 failed.length ((failed.head?.map (·.rank)).getD 0) 0

/-- The state after a multicast has ended. -/
def mcastEnded (s : State) (o : Op) (m : McastOp) : State :=
  settleFreed (putOp (returnOpLeave (giveStatus s o (mcastStatus m)) o)
    { o with held := 0, drawn := 0, body := .mcast (endedMcast m) }) m.name

section
variable {s : State} {o : Op} {m : McastOp}

theorem execMulticastEnd_of_done (ho : findOp s o.id = some o) (hb : o.body = .mcast m) (he : m.ended = false)
    (hr : ∀ r ∈ m.receivers, receiverOpen r = false) : execMulticastEnd o.id s = .next (mcastEnded s o m) := by
  have hopen : m.receivers.any receiverOpen = false := List.any_eq_false.2 fun r hm => by simp [hr r hm]
  have hfirst (l : List Receiver) : (l.head?.map (·.rank)).getD 0 = (match l with | r :: _ => r.rank | [] => 0) := by
    cases l <;> rfl
  unfold execMulticastEnd
  simp only [ho, hb, he, hopen, mcastEnded, mcastStatus, hfirst, done]
  rfl

theorem regVal_mcastEnded (hrun : runsSerial (getCtx s o.core) o.serial = true) (hm : (getReg (getCtx s o.core) o.reg).mark = .op o.id)
    (hreg : o.reg ≠ 0) : regVal (getCtx (mcastEnded s o m) o.core) o.reg = mcastStatus m := by
  have hleave : RunSysOnly (getCtx (giveStatus s o (mcastStatus m)) o.core)
      (getCtx (returnOpLeave (giveStatus s o (mcastStatus m)) o) o.core) := runSysOnly_returnUnits ..
  have hregs := getReg_of_regs_eq (hleave.same Ctx.regs fun _ _ _ => rfl) o.reg
  rw [mcastEnded, settleFreed, (countFreed_frame ..).1]
  exact (congrArg Reg.val hregs).trans (regVal_giveStatus hrun hm hreg _)

/-- A multicast that has ended is found, if at all, as ended. -/
theorem ended_of_findOp_mcastEnded {p : Op} {q : McastOp} (hp : findOp (mcastEnded s o m) o.id = some p) (hq : p.body = .mcast q) :
    q.ended = true := by
  have hmem := (countFreed_frame _ _ _ 0).2 p (List.mem_of_find?_eq_some hp)
  obtain ⟨y, -, hy⟩ := List.mem_map.1 hmem
  have hid := findOp_id hp
  split at hy
  · subst hy
    cases hq
    rfl
  next hne =>
    subst hy
    exact absurd hid hne

end

/-! ### XFREE_NOTICE_ARRIVE (R312) -/

section
variable {s : State} {m : TaskMsg} {name : Nat} (hm : findMsg s m.id = some m) (hb : m.body = .xfree name) (hw : msgWaits s m = false)

/-- A notice is for a multicast of its name with a receiver at its sender that has not failed and not freed it (R312). -/
def NoticeHits (m : TaskMsg) (name : Nat) (q : McastOp) : Prop :=
  q.name = name ∧ ∃ r ∈ q.receivers, r.core = m.core ∧ r.freed = false ∧ r.code = 0

/-- The multicast with its receiver on a core freed. -/
def freedBy (c : Nat) (q : McastOp) : McastOp := { q with receivers := freeReceiver c q.receivers }

include hm hb hw

/-- A notice that finds no multicast is counted as stale. -/
theorem execXfreeNoticeArrive_stale (h : ∀ o ∈ s.ops, ∀ q, o.body = .mcast q → ¬ NoticeHits m name q) :
    execXfreeNoticeArrive m.id s = .next (count (dropMsg s m.id) (.staleXfree m.target) 1) := by
  unfold execXfreeNoticeArrive
  simp only [hm, hb, hw, done, Bool.false_eq_true, if_false]
  rw [List.find?_eq_none.2]
  intro o ho
  have := h o ho
  split
  next q hq => simpa [NoticeHits] using this q hq
  · simp

/-- A notice frees the oldest multicast of its name where it is for that one (R312). -/
theorem execXfreeNoticeArrive_frees {o : Op} {q : McastOp} (h : oldestMcast s name = some (o, q)) (hq : NoticeHits m name q) :
    execXfreeNoticeArrive m.id s =
      .next (settleFreed (putOp (dropMsg s m.id) { o with body := .mcast (freedBy m.core q) }) name) := by
  obtain ⟨hbody, -, l₁, l₂, hops, hl⟩ := oldestMcast_eq_some h
  unfold execXfreeNoticeArrive
  simp only [hm, hb, hw, done, Bool.false_eq_true, if_false]
  rw [(List.find?_eq_some_iff_append (b := o)).2]
  · simp only [hbody, freedBy]
  · refine ⟨?_, l₁, l₂, hops, fun x hx => ?_⟩
    · simpa [hbody, NoticeHits, and_assoc] using hq
    · cases hbx : x.body with
      | mcast r => simp [hl x hx r hbx]
      | _ => rfl

end

end Sys2Proof.Machine
end

section
/-! The line requests of an XMREAD and their responses (R310, R311), and the obligation on deliveries, reads and releases. -/

namespace Sys2Proof.Machine

/-! ### XMREAD_REQUEST_ARRIVE (R310, R311) -/

/-- An XMREAD in flight whose line may go to its home slice: not asked for yet, and nothing of its flow before it (R295, R307, R310). -/
structure LineGoes (s : State) (o : Op) (m : McastOp) (line row off len : Nat) : Prop where
  op : findOp s o.id = some o
  body : o.body = .mcast m
  read : m.read = true
  ended : m.ended = false
  piece : (readPiecesOf m)[line]? = some (row, off, len)
  notAsked : ∀ e ∈ s.merges, ¬ (o.id ∈ e.ops ∧ e.row = row ∧ e.off = off)
  notDone : ∀ p ∈ m.linesDone, p.1 ≠ line
  released : opReleased s o m.rel 4 = true
  first : ∀ c ∈ openCores m, mcastBefore s o c.1 = false

/-- The entry of a line that a request opens at its home slice (R310). -/
def openedEntry (s : State) (o : Op) (m : McastOp) (row off len pa : Nat) : MergeEntry :=
  { id := s.nextId, ops := [o.id], row := row, off := off, len := len, pa := pa, sent := 0, cores := openCores m, late := [] }

/-- The entry that a request joins before its first sector has been sent: the receivers that it does not hold yet come in (R310). -/
def joinedEntry (e : MergeEntry) (o : Op) (m : McastOp) : MergeEntry :=
  { e with ops := e.ops ++ [o.id], cores := e.cores ++ (openCores m).filter (fun c => !(e.cores ++ e.late.map (·.1)).contains c) }

/-- The address of a line of an XMREAD. -/
abbrev lineAddr (m : McastOp) (row off : Nat) : Word := m.src + BitVec.ofNat 64 (row * m.tile.pitch + off)

section
variable {s : State} {o : Op} {m : McastOp} {line row off len : Nat} (h : LineGoes s o m line row off len)
include h

/-- Nothing keeps a line that may go from its translation. -/
theorem LineGoes.guards :
    (!m.read || m.ended || (s.merges.any (fun e => e.ops.contains o.id && e.row == row && e.off == off) ||
      m.linesDone.any (fun p => p.1 == line))) = false ∧
    (!opReleased s o m.rel 4 || (openCores m).any (fun c => mcastBefore s o c.1)) = false := by
  have hasked : s.merges.any (fun e => e.ops.contains o.id && e.row == row && e.off == off) = false :=
    List.any_eq_false.2 fun e he => by simpa [and_assoc] using h.notAsked e he
  have hdone : m.linesDone.any (fun p => p.1 == line) = false := List.any_eq_false.2 fun p hp => by simpa using h.notDone p hp
  have hfirst : (openCores m).any (fun c => mcastBefore s o c.1) = false := List.any_eq_false.2 fun c hc => by simp [h.first c hc]
  exact ⟨by rw [h.read, h.ended, hasked, hdone]; rfl, by rw [h.released, hfirst]; rfl⟩

theorem execXmreadRequestArrive_opens {pa : Nat} (hw : lineWalk s o.core (lineAddr m row off) len = .page pa)
    (he : entryFor s o row off pa = none) :
    execXmreadRequestArrive o.id line s =
      .next (push (bumpId { s with merges := s.merges ++ [openedEntry s o m row off len pa] }) (.xmreadSectorSend s.nextId)) := by
  obtain ⟨hask, hgo⟩ := h.guards
  unfold execXmreadRequestArrive
  simp only [h.op, h.body, h.piece, hask, hgo, hw, he, done, Bool.false_eq_true, if_false]
  rfl

theorem execXmreadRequestArrive_joins {pa : Nat} {e : MergeEntry} (hw : lineWalk s o.core (lineAddr m row off) len = .page pa)
    (he : entryFor s o row off pa = some e) (hs : e.sent = 0) :
    execXmreadRequestArrive o.id line s = .next (putMerge s (joinedEntry e o m)) := by
  obtain ⟨hask, hgo⟩ := h.guards
  unfold execXmreadRequestArrive
  simp only [h.op, h.body, h.piece, hask, hgo, hw, he, hs, done, Bool.false_eq_true, if_false, if_true, joinedEntry]

theorem execXmreadRequestArrive_fails (hw : lineWalk s o.core (lineAddr m row off) len = .fault ∨
    lineWalk s o.core (lineAddr m row off) len = .refused) :
    execXmreadRequestArrive o.id line s = .next (push (failLineOp s o.id) (.multicastEnd o.id)) := by
  obtain ⟨hask, hgo⟩ := h.guards
  unfold execXmreadRequestArrive
  rcases hw with hw | hw <;> simp only [h.op, h.body, h.piece, hask, hgo, hw, done, Bool.false_eq_true, if_false]

end

section
variable {s : State} {o : Op} {m : McastOp}

/-- Every receiver of a request is in the entry that it has joined. -/
theorem mem_joinedEntry {e : MergeEntry} {c : Nat × Nat} (hc : c ∈ openCores m) :
    c ∈ (joinedEntry e o m).cores ∨ c ∈ (joinedEntry e o m).late.map (·.1) := by
  by_cases hin : c ∈ e.cores ++ e.late.map (·.1)
  · exact (List.mem_append.1 hin).imp (List.mem_append_left _) id
  · exact .inl (List.mem_append_right _ (List.mem_filter.2 ⟨hc, by simpa using hin⟩))

theorem mem_putMerge {e f : MergeEntry} (hf : f ∈ s.merges) (hid : f.id = e.id) : e ∈ (putMerge s e).merges :=
  List.mem_map.2 ⟨f, hf, if_pos hid⟩

/-- The multicast of which a line could not be read: it has SRCFAIL, and so have its receivers (R307; for its other lines log 91). -/
def failedRead (m : McastOp) : McastOp :=
  { m with srcFail := true, receivers := m.receivers.map (fun r => if r.code = 0 then { r with code := 1 } else r) }

theorem failLineOp_eq (ho : findOp s o.id = some o) (hb : o.body = .mcast m) :
    failLineOp s o.id = putOp s { o with body := .mcast (failedRead m) } := by
  unfold failLineOp
  simp only [ho, hb, failedRead]

end

/-! ### The receivers of a response (R256, R310) -/

section
variable {s : State} {o : Op} {m : McastOp} {e : MergeEntry}

/-- An operation replaced by itself is found as before. -/
theorem findOp_putOp_same (ho : findOp s o.id = some o) (n : Nat) : findOp (putOp s o) n = findOp s n := by
  by_cases hn : n = o.id
  · rw [hn, findOp_putOp_self ho, ho]
  · exact findOp_putOp_ne hn

/-- Receivers that can all be reached stay as they are. -/
theorem checkReceivers_of_reached (ho : findOp s o.id = some o) (hb : o.body = .mcast m)
    (hr : ∀ r ∈ m.receivers, receiverOpen r = true → peerKind s o.core r.core r.egen = none) :
    checkReceivers s o.id = putOp s o := by
  have hmap : m.receivers.map (fun r => if receiverOpen r && (peerKind s o.core r.core r.egen).isSome then { r with code := 2 } else r) =
      m.receivers := by
    refine (List.map_congr_left fun r hm => if_neg ?_).trans (List.map_id _)
    intro hc
    obtain ⟨hopen, hkind⟩ := Bool.and_eq_true_iff.1 hc
    simp [hr r hm hopen] at hkind
  have hself : ({ o with body := .mcast m } : Op) = o := by rw [← hb]
  unfold checkReceivers
  simp only [ho, hb, hmap, hself]

theorem mcastOf_of_findOp (ho : findOp s o.id = some o) (hb : o.body = .mcast m) : mcastOf s o.id = some m := by
  unfold mcastOf
  simp only [ho, hb]

/-- A receiver of the one operation of an entry is named once. -/
theorem namedBy_single (hops : e.ops = [o.id]) (hm : mcastOf s o.id = some m) {c : Nat × Nat} (hc : c ∈ openCores m) :
    namedBy s e c = 1 := by
  unfold namedBy
  simp [hops, hm, hc]

theorem waitingCores_self (hops : e.ops = [o.id]) (hm : mcastOf s o.id = some m) {cs : List (Nat × Nat)}
    (hc : ∀ c ∈ cs, c ∈ openCores m) : waitingCores s e cs = cs :=
  List.filter_eq_self.2 fun c h => by simp [namedBy_single hops hm (hc c h)]

/-- Fewer operations hold no more bytes back (R296). -/
theorem engineBusy_of_subset {t : State} (h : ∀ p ∈ t.ops, p ∈ s.ops) {c off n before : Nat} {wr : Bool}
    (hb : engineBusy s c off n wr before = false) : engineBusy t c off n wr before = false :=
  List.any_eq_false.2 fun p hp => List.any_eq_false.1 hb p (h p hp)

theorem entryBusy_putOp (ho : findOp s o.id = some o) (hops : e.ops = [o.id]) {c : Nat × Nat} (h : entryBusy s e m c = false) :
    entryBusy (putOp s o) e m c = false := by
  have hsub : ∀ p ∈ (putOp s o).ops, p ∈ s.ops := by
    intro p hp
    obtain ⟨q, hq, rfl⟩ := List.mem_map.1 hp
    split
    · exact List.mem_of_find?_eq_some ho
    · exact hq
  unfold entryBusy at h ⊢
  simp only [hops, List.any_cons, List.any_nil, findOp_putOp_same ho, ho, Option.any_some, Bool.or_false, Bool.or_eq_false_iff] at h ⊢
  obtain ⟨hwait, hbusy⟩ := h
  refine ⟨hwait, ?_⟩
  rcases Bool.and_eq_false_iff.1 hbusy with hne | hbusy
  · rw [hne, Bool.false_and]
  · rw [engineBusy_of_subset hsub hbusy, Bool.and_false]

end

/-! ### A sector written at its receivers (R310) -/

/-- The state with the same bytes written at one place of several scratchpads. -/
def spadsWritten (s : State) (cs : List (Nat × Nat)) (a : Nat) (bs : List Byte) : State := cs.foldl (fun t c => spadWrite t c.1 a bs) s

theorem countsOnly_spadsWritten (s : State) (cs : List (Nat × Nat)) (a : Nat) (bs : List Byte) :
    CountsOnly s (spadsWritten s cs a bs) := by
  unfold spadsWritten
  exact countsOnly_foldl (fun t c => countsOnly_spadWrite t c.1 a bs) cs s

/-- The bytes stand at each of the cores, and where they stand already they stay. -/
theorem spadRead_spadsWritten {cs : List (Nat × Nat)} {a d : Nat} {bs : List Byte} {s : State}
    (h : d ∈ cs.map (·.1) ∨ spadRead s d a bs.length = bs) : spadRead (spadsWritten s cs a bs) d a bs.length = bs := by
  induction cs generalizing s with
  | nil => exact h.resolve_left List.not_mem_nil
  | cons c cs ih =>
    refine ih ?_
    by_cases hd : d = c.1
    · rw [hd]
      exact .inr (memRead_spadWrite_self ..)
    · refine h.imp (fun hm => ?_) fun hs => ?_
      · exact (List.mem_cons.1 hm).resolve_left hd
      · show memRead (getCore (modCore s c.1 _) d).spad a bs.length = bs
        rwa [getCore_modCore_ne _ _ hd]

/-- Where the sector that is next lies in a receiver's scratchpad. -/
abbrev sectorAt (e : MergeEntry) (m : McastOp) : Nat := m.tile.base + e.row * m.tile.pitch + e.off + (sectorRange e.pa e.len e.sent).1

/-- The bytes of the sector that is next, as the memory holds them. -/
abbrev sectorBytesOf (s : State) (e : MergeEntry) : List Byte :=
  physRead s (e.pa + (sectorRange e.pa e.len e.sent).1) (sectorRange e.pa e.len e.sent).2

/-- A sector that is not counted is written at each receiver of the entry's one operation. -/
theorem foldl_sendSector {s : State} {o : Op} {m : McastOp} {e : MergeEntry} (hops : e.ops = [o.id]) (hm : mcastOf s o.id = some m)
    (hcnt : wordCnt m.word = false) {cs : List (Nat × Nat)} (hc : ∀ c ∈ cs, c ∈ openCores m) :
    cs.foldl (sendSector e m e.sent) s = spadsWritten s cs (sectorAt e m) (sectorBytesOf s e) := by
  induction cs generalizing s with
  | nil => rfl
  | cons c cs ih =>
    have hstep : sendSector e m e.sent s c = spadWrite s c.1 (sectorAt e m) (sectorBytesOf s e) := by
      simp only [sendSector, namedBy_single hops hm (hc c List.mem_cons_self), hcnt, Nat.one_ne_zero, Bool.false_eq_true, if_false]
    have hm' : mcastOf (spadWrite s c.1 (sectorAt e m) (sectorBytesOf s e)) o.id = some m := hm
    rw [List.foldl_cons, hstep, ih hm' fun d hd => hc d (List.mem_cons_of_mem _ hd)]
    rfl

/-! ### The end of a response (R311, R501) -/

section
variable {s : State} {e : MergeEntry} {m : McastOp}

/-- Noting a line as delivered changes operations alone. -/
theorem lineDoneOp_eq (cs : List (Nat × Nat)) (n : Nat) : lineDoneOp e cs s n = { s with ops := (lineDoneOp e cs s n).ops } := by
  unfold lineDoneOp
  split
  · rfl
  · split <;> rfl

theorem countsOnly_countLineRows (cs : List (Nat × Nat)) : CountsOnly s (countLineRows s e m cs) := by
  unfold countLineRows
  exact countsOnly_foldl (fun t (c : Nat × Nat) => countsOnly_countRoundRow t c.1 _) _ s

theorem spad_countLineRows (cs : List (Nat × Nat)) (d : Nat) : (getCore (countLineRows s e m cs) d).spad = (getCore s d).spad :=
  foldl_induction (motive := fun t => (getCore t d).spad = (getCore s d).spad) (fun _ _ ht => (spad_countRoundRow ..).trans ht) rfl

/-- The end of a response that nobody has joined late changes no scratchpad, no memory and no event. -/
theorem endResponse_frame {n : Nat} (hops : e.ops = [n]) (hl : e.late = []) (cs : List (Nat × Nat)) :
    (∀ d, (getCore (endResponse s e m cs) d).spad = (getCore s d).spad) ∧ SameMem s (endResponse s e m cs) ∧
      (endResponse s e m cs).agenda = s.agenda := by
  have hend : endResponse s e m cs = countLineRows (lineDoneOp e cs s n) e m cs := by
    simp only [endResponse, hl, hops, List.foldl_cons, List.foldl_nil]
  have hline := lineDoneOp_eq (s := s) (e := e) cs n
  have hcount := countsOnly_countLineRows (s := lineDoneOp e cs s n) (e := e) (m := m) cs
  rw [hend]
  refine ⟨fun d => ?_, sameMem_trans ?_ hcount.sameMem, (hcount.field State.agenda).trans ?_⟩
  · rw [spad_countLineRows, hline]
    rfl
  · rw [hline]
    exact ⟨fun _ => rfl, fun _ => rfl⟩
  · rw [hline]

end

/-! ### XMREAD_SECTOR_SEND (R310, R311) -/

/-- An entry of one XMREAD whose next sector may go to its receivers: all of them wait, can be reached and hold nothing back, their bytes
are not counted, and the line's sectors can be read (R307, R310). -/
structure SectorGoes (s : State) (o : Op) (m : McastOp) (e : MergeEntry) : Prop where
  op : findOp s o.id = some o
  body : o.body = .mcast m
  entry : s.merges.find? (fun f => f.id == e.id) = some e
  ops : e.ops = [o.id]
  late : e.late = []
  cores : e.cores = openCores m
  cores_ne : e.cores ≠ []
  reached : ∀ r ∈ m.receivers, receiverOpen r = true → peerKind s o.core r.core r.egen = none
  free : ∀ c ∈ e.cores, entryBusy s e m c = false
  uncounted : wordCnt m.word = false
  clean : sectorBad s e.pa e.len = false

/-- The state in which the line of an entry has been read at its slice, with the first sector (R260-R262). -/
def entryTouched (s : State) (e : MergeEntry) : State := if e.sent = 0 then touchLine s none false e.pa e.len else s

theorem readOnly_entryTouched (s : State) (e : MergeEntry) : ReadOnly s (entryTouched s e) := by
  unfold entryTouched
  split
  · exact readOnly_touchLine ..
  · exact .refl s

theorem cachesOnly_entryTouched (s : State) (e : MergeEntry) : CachesOnly s (entryTouched s e) := by
  unfold entryTouched
  split
  · exact cachesOnly_touchLine ..
  · exact .refl s

/-- The state in which the next sector of an entry of one XMREAD stands at its receivers. -/
def sectorSent (s : State) (o : Op) (m : McastOp) (e : MergeEntry) : State :=
  spadsWritten (entryTouched (putOp s o) e) e.cores (sectorAt e m) (sectorBytesOf (entryTouched (putOp s o) e) e)

section
variable {s : State} {o : Op} {m : McastOp} {e : MergeEntry}

theorem sameMem_entryTouched : SameMem s (entryTouched (putOp s o) e) :=
  sameMem_trans ⟨fun _ => rfl, fun _ => rfl⟩ (readOnly_entryTouched (putOp s o) e).2

theorem sameMem_sectorSent : SameMem s (sectorSent s o m e) :=
  sameMem_trans sameMem_entryTouched (countsOnly_spadsWritten ..).sameMem

theorem sectorSent_agenda : (sectorSent s o m e).agenda = s.agenda :=
  ((countsOnly_spadsWritten ..).field State.agenda).trans ((cachesOnly_entryTouched (putOp s o) e).field State.agenda)

theorem sectorSent_merges : (sectorSent s o m e).merges = s.merges :=
  ((countsOnly_spadsWritten ..).field State.merges).trans ((cachesOnly_entryTouched (putOp s o) e).field State.merges)

/-- Each receiver has the sector as the memory holds it. -/
theorem spadRead_sectorSent {c : Nat × Nat} (hc : c ∈ e.cores) :
    spadRead (sectorSent s o m e) c.1 (sectorAt e m) (sectorRange e.pa e.len e.sent).2 = sectorBytesOf s e := by
  have hbytes : sectorBytesOf (entryTouched (putOp s o) e) e = sectorBytesOf s e := physRead_congr sameMem_entryTouched.1 ..
  have hread := spadRead_spadsWritten (s := entryTouched (putOp s o) e) (a := sectorAt e m) (bs := sectorBytesOf s e)
    (.inl (List.mem_map_of_mem (f := (·.1)) hc))
  rw [length_physRead] at hread
  rw [sectorSent, hbytes, hread]

variable (h : SectorGoes s o m e)
include h

/-- A sector that is not the last goes, and the next one is to follow (R310). -/
theorem execXmreadSectorSend_sends :
    execXmreadSectorSend e.id s = .next (
      if e.sent + 1 < sectorsOf e.pa e.len then
        push (putMerge (sectorSent s o m e) { e with sent := e.sent + 1 }) (.xmreadSectorSend e.id)
      else
        let u := endResponse (sectorSent s o m e) e m e.cores
        pushAll { u with merges := u.merges.filter (fun f => f.id != e.id) } [.multicastEnd o.id]) := by
  have hin : ∀ c ∈ e.cores, c ∈ openCores m := fun c hc => h.cores ▸ hc
  have hcheck : e.ops.foldl checkReceivers s = putOp s o := by
    rw [h.ops, List.foldl_cons, List.foldl_nil, checkReceivers_of_reached h.op h.body h.reached]
  have hm : mcastOf (putOp s o) o.id = some m := mcastOf_of_findOp (findOp_putOp_self h.op) h.body
  have hm' : mcastOf (entryTouched (putOp s o) e) o.id = some m :=
    mcastOf_of_findOp ((findOp_congr ((cachesOnly_entryTouched (putOp s o) e).field State.ops) _).trans (findOp_putOp_self h.op)) h.body
  have hlive : waitingCores (putOp s o) e (e.cores ++ e.late.map (·.1)) = e.cores := by
    rw [h.late, List.map_nil, List.append_nil, waitingCores_self h.ops hm hin]
  have hfind : e.ops.findSome? (mcastOf (putOp s o)) = some m := by rw [h.ops, List.findSome?_cons, hm]
  have hbusy : e.cores.any (entryBusy (putOp s o) e m) = false :=
    List.any_eq_false.2 fun c hc => by simp [entryBusy_putOp h.op h.ops (h.free c hc)]
  have hsome : e.cores.isEmpty = false := List.isEmpty_eq_false_iff.2 h.cores_ne
  have hclean : sectorBad (putOp s o) e.pa e.len = false := h.clean
  have hsend : e.cores.foldl (sendSector e m e.sent) (entryTouched (putOp s o) e) = sectorSent s o m e :=
    foldl_sendSector h.ops hm' h.uncounted hin
  have hnext : ({ e with
      sent := e.sent + 1, cores := waitingCores (entryTouched (putOp s o) e) e e.cores,
      late := e.late.filter (fun p => decide (0 < namedBy (entryTouched (putOp s o) e) e p.1)) } : MergeEntry) =
      { e with sent := e.sent + 1 } := by
    rw [waitingCores_self h.ops hm' hin, h.late, List.filter_nil]
  have hends : e.ops.map (fun n => Event.multicastEnd n) = [.multicastEnd o.id] := by rw [h.ops, List.map_cons, List.map_nil]
  unfold execXmreadSectorSend
  simp only [h.entry, hcheck, hlive, hfind, hsome, hbusy, hclean, hends, Bool.false_eq_true, if_false]
  rw [← entryTouched, hsend, hnext]
  exact (apply_ite Host.Outcome.next ..).symm

end

/-! ### The obligation -/

/-- Settles O30: each event in the cases that the statement names. A stale notice counts at the interface of the core that it names
(log 48); a line that cannot be read ends its whole operation (log 75, log 91). -/
theorem multicastAgenda : Obligations.MulticastAgenda := by
  unfold Obligations.MulticastAgenda
  refine ⟨fun s => ⟨fun o m ho hb he => ⟨fun r hr hread hrel hbefore => ⟨fun hl => ?_, fun hl hpeer hfree hbar hlen => ?_⟩, ?_⟩,
    fun g name hg hb hw => ⟨fun hnone => ?_, fun o q hq hits => ?_⟩⟩, fun s o m row off len ho hb hread he => ⟨?_, ?_⟩⟩
  · exact ⟨_, execMulticastDelivery_loads ho hb he hr hread hrel hbefore hl, rfl,
      findOp_putOp_self (o := { o with body := .mcast (loadTile s o m) }) ho, rfl⟩
  · have ho' : findOp (deliverRows s m r.core) o.id = some o := (findOp_deliverRows _).trans ho
    refine ⟨_, execMulticastDelivery_delivers ho hb he hr hread hrel hbefore hl hpeer hfree hbar,
      congrArg (· ++ [Event.multicastEnd o.id]) deliverRows_agenda,
      findOp_putOp_self (o := { o with body := .mcast (setReceiver m r.rank (fun e => { e with done := true })) }) ho',
      fun hcnt => ?_, fun hcnt hm => readBar_deliverRows hcnt hm⟩
    have hrows : deliverRows s m r.core = rowsDelivered s m r.core := by rw [deliverRows_eq, if_neg (by simp [hcnt])]
    rw [hrows]
    exact ⟨fun i bs hi => spadRead_rowsDelivered hlen hi, fun p hp => memGet_rowsDelivered_of_outside hp⟩
  · exact fun hopen hrun hm hreg => ⟨_, execMulticastEnd_of_done ho hb he hopen, regVal_mcastEnded hrun hm hreg,
      fun p q => ended_of_findOp_mcastEnded⟩
  · refine ⟨_, execXfreeNoticeArrive_stale hg hb hw hnone, rfl, findMsg_of_msgs_eq_filter rfl, rfl, fun hlt => ?_⟩
    exact (counterVal_count (dropMsg s g.id) _ 1).trans (Nat.min_eq_left (Nat.le_of_lt_succ (Nat.succ_lt_succ hlt)))
  · have hexec := execXfreeNoticeArrive_frees hg hb hw hq hits
    have hq' : oldestMcast (dropMsg s g.id) name = some (o, q) := hq
    have hname : (freedBy g.core q).name = name := hits.1
    refine ⟨fun hf => ?_, fun hf hlast => ?_⟩
    · rw [settleFreed_putOp_of_waiting hq' hname hf] at hexec
      exact ⟨_, hexec, findOp_putOp_oldest hq', rfl⟩
    · rw [settleFreed_putOp_of_last hq' hname hf hlast] at hexec
      exact ⟨_, hexec, findOp_dropOp_self .., live_raiseXfree ..⟩
  · intro line hline hnot hdone hrel hfirst found
    have h : LineGoes s o m line row off len := ⟨ho, hb, hread, he, hline, hnot, hdone, hrel, hfirst⟩
    refine ⟨fun pa hw => ⟨fun hnone => ?_, fun e hent hs => ?_⟩, fun hw => ?_⟩
    · exact ⟨_, execXmreadRequestArrive_opens h hw hnone, rfl, rfl⟩
    · have hjoin : joinedEntry e o m ∈ (putMerge s (joinedEntry e o m)).merges := mem_putMerge (List.mem_of_find?_eq_some hent) rfl
      exact ⟨_, execXmreadRequestArrive_joins h hw hent hs, rfl, rfl, _, hjoin, rfl, rfl, hs, fun c hc => mem_joinedEntry hc⟩
    · refine ⟨_, execXmreadRequestArrive_fails h hw, ?_⟩
      rw [failLineOp_eq ho hb]
      exact ⟨rfl, _, failedRead m, findOp_putOp_self (o := { o with body := .mcast (failedRead m) }) ho, rfl, rfl⟩
  · intro e hent hops hrow hoff hlen hlate hcores hne hreach hfree hcnt hclean r
    subst hrow hoff hlen
    have h : SectorGoes s o m e := ⟨ho, hb, hent, hops, hlate, hcores, hne, hreach, hfree, hcnt, hclean⟩
    have hexec := execXmreadSectorSend_sends h
    by_cases hlast : e.sent + 1 < sectorsOf e.pa e.len
    · rw [if_pos hlast] at hexec
      have hin : e ∈ (sectorSent s o m e).merges := by
        rw [sectorSent_merges]
        exact List.mem_of_find?_eq_some hent
      exact ⟨_, hexec, sameMem_sectorSent, fun c hc => spadRead_sectorSent hc, fun _ =>
        ⟨congrArg (· ++ [Event.xmreadSectorSend e.id]) sectorSent_agenda,
          mem_putMerge hin rfl⟩, fun hge => absurd hlast (Nat.not_lt.2 hge)⟩
    · rw [if_neg hlast] at hexec
      obtain ⟨hspad, hmem, hag⟩ := endResponse_frame (s := sectorSent s o m e) (m := m) hops hlate e.cores
      refine ⟨_, hexec, sameMem_trans (sameMem_trans sameMem_sectorSent hmem) ⟨fun _ => rfl, fun _ => rfl⟩, fun c hc => ?_,
        fun hlt => absurd hlt hlast, fun _ =>
        ⟨congrArg (· ++ [Event.multicastEnd o.id]) (hag.trans sectorSent_agenda), fun f hf => ?_⟩⟩
      · refine Eq.trans ?_ (spadRead_sectorSent (s := s) (o := o) (m := m) hc)
        exact congrArg (memRead · _ _) (hspad c.1)
      · exact bne_iff_ne.1 (List.mem_filter.1 hf).2

end Sys2Proof.Machine
end

section
/-! What the front end's accesses leave of the host queues (R376-R378, R397-R399): reads and writes of rings and shadows change no
queue and put nothing on the agenda. -/

namespace Sys2Proof.Machine

/-! ### Accesses of the front end (R376) -/

/-- The host queues and the agenda are the same. -/
structure SameQueues (s t : State) : Prop where
  queues : t.queues = s.queues
  agenda : t.agenda = s.agenda

theorem SameQueues.refl (s : State) : SameQueues s s := ⟨rfl, rfl⟩

theorem SameQueues.trans {s t u : State} (h : SameQueues s t) (g : SameQueues t u) : SameQueues s u :=
  ⟨g.queues.trans h.queues, g.agenda.trans h.agenda⟩

theorem CachesOnly.sameQueues {s t : State} (h : CachesOnly s t) : SameQueues s t := ⟨h.field State.queues, h.field State.agenda⟩

theorem sameQueues_physWrite (s : State) (pa : Nat) (bs : List Byte) : SameQueues s (physWrite s pa bs) := by
  have hbytes : SameQueues s (((List.range bs.length).zip bs).foldl (fun t p => physSetByte t (pa + p.1) p.2) s) :=
    foldl_induction (motive := SameQueues s) (fun t _ ht => ht.trans ((cachesOnly_makeRoom t _).sameQueues.trans ⟨rfl, rfl⟩)) (.refl s)
  exact hbytes.trans ⟨rfl, rfl⟩

theorem sameQueues_agentWritePieces (s : State) (g : Agent) (ps : List (Nat × Nat)) (bs : List Byte) :
    SameQueues s (agentWritePieces s g ps bs) := by
  induction ps generalizing s bs with
  | nil => exact .refl s
  | cons p ps ih =>
    unfold agentWritePieces
    refine .trans ?_ (ih ..)
    split
    · exact (SameQueues.mk rfl rfl : SameQueues s (dropCopies s _ p.2)).trans (sameQueues_physWrite ..)
    · exact ⟨rfl, rfl⟩
    · exact .refl s

theorem sameQueues_agentPut (s : State) (g : Agent) (a : Word) (bs : List Byte) : SameQueues s (agentPut s g a bs) := by
  unfold agentPut
  split
  · exact ⟨rfl, rfl⟩
  · exact ⟨rfl, rfl⟩
  · exact sameQueues_agentWritePieces ..
  · exact .refl s

theorem sameQueues_agentTouch (s : State) (g : Agent) (a : Word) (n : Nat) : SameQueues s (agentTouch s g a n) := by
  unfold agentTouch
  split
  · refine foldl_induction (motive := SameQueues s) (fun t p ht => ?_) (.refl s)
    split
    · exact ht.trans (cachesOnly_touchLine ..).sameQueues
    · exact ht
  · exact .refl s

/-! ### Queues changed (R377, R378) -/

theorem SameQueues.getHq_eq {s t : State} (h : SameQueues s t) (q : Nat) : getHq t q = getHq s q :=
  congrArg (tabGet emptyQueue · q) h.queues

/-- The block in force is read of the queue's field alone. -/
theorem queueBlock_setHq (s : State) (q : Nat) {h : HostQueue} (hf : h.force = (getHq s q).force) :
    queueBlock (setHq s q h) q = queueBlock s q := by
  unfold queueBlock
  rw [getHq_setHq_self, hf]
  rfl

/-- Writing the head shadow settles whether it is still due, and leaves the rest of the queue (R378). -/
theorem getHq_putShadow (s : State) (q : Nat) (b : QueueBlock) :
    ∃ due, getHq (putShadow s q b) q = { getHq s q with shadowDue := due } := by
  unfold putShadow
  dsimp only
  split
  · exact ⟨_, ((sameQueues_agentPut ..).getHq_eq q).trans (getHq_setHq_self ..)⟩
  · exact ⟨_, getHq_setHq_self ..⟩
  · exact ⟨_, getHq_setHq_self ..⟩

/-- A queue in error has its head shadow written with it (R378). -/
theorem getHq_queueError (s : State) (q : Nat) (b : QueueBlock) (code : Nat) :
    ∃ due, getHq (queueError s q b code) q = { getHq s q with error := code, shadowDue := due } := by
  obtain ⟨due, h⟩ := getHq_putShadow (setHq s q { getHq s q with error := code }) q b
  rw [getHq_setHq_self] at h
  exact ⟨due, h⟩

theorem putShadow_agenda (s : State) (q : Nat) (b : QueueBlock) : (putShadow s q b).agenda = s.agenda := by
  unfold putShadow
  dsimp only
  split
  · exact (sameQueues_agentPut ..).agenda
  · rfl
  · rfl

end Sys2Proof.Machine
end

section
/-! Doorbells, fetches and commits of host queues (R337, R376-R381, R397-R399, R578). -/

namespace Sys2Proof.Machine

/-! ### Doorbells (R337, R381, R578) -/

section
variable {s : State} {conn q : Nat} {value : Word}

/-- A doorbell behind a write of its connection waits (R337). -/
theorem execDoorbell_waits (h : ∃ i ∈ s.hostWaits, itemConn i = conn) :
    execDoorbell ⟨conn, q⟩ value s = .next { s with hostWaits := s.hostWaits ++ [.bell conn q value] } := by
  have hany : s.hostWaits.any (fun i => itemConn i == conn) = true := by simpa using h
  exact congrArg Host.Outcome.next (if_pos hany)

/-- A doorbell behind no write of its connection reaches the latch (R381). -/
theorem execDoorbell_rings (h : ∀ i ∈ s.hostWaits, itemConn i ≠ conn) :
    execDoorbell ⟨conn, q⟩ value s = .next (ringBell s q value) := by
  have hany : ¬ s.hostWaits.any (fun i => itemConn i == conn) = true := by simpa using h
  exact congrArg Host.Outcome.next (if_neg hany)

theorem ringBell_counts (hq : q < queueCount) (hv : 2 ^ 32 ≤ value.toNat) : ringBell s q value = count s .doorbells 1 := by
  have hbits : value.toNat / 2 ^ 32 ≠ 0 := by omega
  unfold ringBell
  rw [if_neg (Nat.not_le.2 hq), if_pos hbits]

/-- The queue whose latch takes a TAIL. -/
def latched (s : State) (q : Nat) (value : Word) : State := setHq s q { getHq s q with latch := some (value.setWidth 32) }

theorem queueBlock_latched : queueBlock (latched s q value) q = queueBlock s q :=
  queueBlock_setHq s q (h := { getHq s q with latch := some (value.setWidth 32) }) rfl

variable (hq : q < queueCount) (hv : value.toNat < 2 ^ 32)
include hq hv

/-- A doorbell of a queue that is not enabled is latched, and nothing else happens. -/
theorem ringBell_of_no_block (hb : queueBlock s q = none) : ringBell s q value = latched s q value := by
  have hbits : ¬ value.toNat / 2 ^ 32 ≠ 0 := by omega
  unfold ringBell
  rw [if_neg (Nat.not_le.2 hq), if_neg hbits]
  dsimp only
  rw [← latched, queueBlock_latched, hb]

/-- A doorbell of an enabled queue is latched, a fetch is to follow, and a gated partition is to be woken (R578). -/
theorem ringBell_of_block {b : QueueBlock} (hb : queueBlock s q = some b) :
    ringBell s q value = push (if (getPart s b.part).state = .gated then
      setPart (latched s q value) b.part { getPart s b.part with waking := true } else latched s q value) (.packetFetch q) := by
  have hbits : ¬ value.toNat / 2 ^ 32 ≠ 0 := by omega
  unfold ringBell
  rw [if_neg (Nat.not_le.2 hq), if_neg hbits]
  dsimp only
  rw [← latched, queueBlock_latched, hb]
  rfl

/-- The latch holds the TAIL and no core has changed. -/
theorem ringBell_latches :
    getHq (ringBell s q value) q = { getHq s q with latch := some (value.setWidth 32) } ∧ (ringBell s q value).cores = s.cores := by
  have hl : getHq (latched s q value) q = { getHq s q with latch := some (value.setWidth 32) } := getHq_setHq_self ..
  cases hb : queueBlock s q with
  | none =>
    rw [ringBell_of_no_block hq hv hb]
    exact ⟨hl, rfl⟩
  | some b =>
    rw [ringBell_of_block hq hv hb]
    split <;> exact ⟨hl, rfl⟩

theorem ringBell_agenda {b : QueueBlock} (hb : queueBlock s q = some b) :
    (ringBell s q value).agenda = s.agenda ++ [Event.packetFetch q] := by
  rw [ringBell_of_block hq hv hb]
  split <;> rfl

theorem ringBell_wakes {b : QueueBlock} (hb : queueBlock s q = some b) (hg : (getPart s b.part).state = .gated) :
    (getPart (ringBell s q value) b.part).waking = true := by
  rw [ringBell_of_block hq hv hb, if_pos hg]
  exact congrArg Partition.waking (tabGet_tabSet_self ..)

end

/-! ### The fetch (R377, R378, R381, R399) -/

section
variable {s : State} {q : Nat} {b : QueueBlock}

theorem execPacketFetch_of_idle (h : queueBlock s q = none ∨ (getHq s q).pendingCommit = true) : execPacketFetch q s = .next s := by
  unfold execPacketFetch
  split
  · rfl
  · next b hb =>
    have hp : (getHq s q).pendingCommit = true := h.resolve_left (by simp [hb])
    exact if_pos (by simp [hp])

theorem execPacketFetch_of_held (hb : queueBlock s q = some b) (hh : fetchHeld s b = true) : execPacketFetch q s = .next s := by
  unfold execPacketFetch
  simp only [hb]
  exact if_pos (by simp [hh])

/-- The slot of the ring that is fetched next (R377). -/
abbrev nextSlot (h : HostQueue) (b : QueueBlock) : Word := virtWord (b.rbase + 64 * (h.fetched % 2 ^ b.logn))

/-- The packet that the bytes of the next slot are. -/
abbrev nextPacket (h : HostQueue) (b : QueueBlock) (bs : List Byte) : Packet := newPacket (h.epoch * 2 ^ 64 + h.fetched) b bs

/-- The queue with HEAD past a packet, which has still to run (R377). -/
abbrev fetchedQueue (h : HostQueue) (p : Packet) : HostQueue :=
  { h with head := h.head + 1, fetched := h.fetched + 1, packets := h.packets ++ [p] }

/-- The state with the next slot read and HEAD past its packet. -/
def slotFetched (s : State) (q : Nat) (b : QueueBlock) (bs : List Byte) : State :=
  setHq (agentTouch s (queueAgent b) (nextSlot (getHq s q) b) 64) q (fetchedQueue (getHq s q) (nextPacket (getHq s q) b bs))

/-- Where no packets are to be passed over, the fetched packet is handed on and the next fetch follows (R377, R378). -/
theorem fetchNext_of_ok {bs : List Byte} (hpass : (getHq s q).passOver = 0)
    (hr : agentRead s (queueAgent b) (nextSlot (getHq s q) b) 64 = .ok bs) :
    fetchNext s q b =
      pushAll (putShadow (slotFetched s q b bs) q b) [packetEvent q (nextPacket (getHq s q) b bs), .packetFetch q] := by
  have hqueue (p : Packet) : { fetchedQueue (getHq s q) p with passOver := 0 } = fetchedQueue (getHq s q) p := by rw [← hpass]
  unfold fetchNext
  simp only [hr, hpass, lt_irrefl, if_false, Nat.zero_sub, hqueue]
  rfl

variable (hb : queueBlock s q = some b) (hh : fetchHeld s b = false) (hp : (getHq s q).pendingCommit = false)
  (hd : (getHq s q).shadowDue = false)
include hb hh hp hd

/-- A fetch that nothing holds back acts on the latch and then on the queue. -/
theorem execPacketFetch_runs :
    execPacketFetch q s =
      let t := takeTail s q b
      if (getHq t q).shadowDue then done (push t (.packetFetch q))
      else if (getHq t q).error ≠ 0 ∨ (getHq t q).head = (getHq t q).tail then done t
      else done (fetchNext t q b) := by
  unfold execPacketFetch
  simp only [hb, hh, hp, hd, Bool.or_self, Bool.false_eq_true, if_false]

/-- A TAIL more than the ring's slots ahead of HEAD puts the queue in error (R378). -/
theorem execPacketFetch_overruns {v : BitVec 32} (hl : (getHq s q).latch = some v) (he : (getHq s q).error = 0)
    (hv : 2 ^ b.logn < (v - (getHq s q).head).toNat) :
    ∃ (t : State) (due : Bool), execPacketFetch q s = .next t ∧
      getHq t q = { getHq s q with latch := none, tail := v, error := 1, shadowDue := due } := by
  have ht : takeTail s q b = queueError (setHq s q { getHq s q with latch := none, tail := v }) q b 1 := by
    unfold takeTail
    simp only [hl]
    exact if_pos ⟨he, hv⟩
  obtain ⟨due, hdue⟩ := getHq_queueError (setHq s q { getHq s q with latch := none, tail := v }) q b 1
  rw [getHq_setHq_self, ← ht] at hdue
  rw [execPacketFetch_runs hb hh hp hd]
  dsimp only
  split
  · exact ⟨_, due, rfl, hdue⟩
  · rw [if_pos (.inl (by simp [hdue]))]
    exact ⟨_, due, rfl, hdue⟩

/-- The next slot of the ring is read, HEAD advances, and the packet and the next fetch are to follow (R377). -/
theorem execPacketFetch_fetches {bs : List Byte} (hl : (getHq s q).latch = none) (he : (getHq s q).error = 0)
    (hn : (getHq s q).head ≠ (getHq s q).tail) (hpass : (getHq s q).passOver = 0)
    (hr : agentRead s (queueAgent b) (nextSlot (getHq s q) b) 64 = .ok bs) :
    ∃ (t : State) (due : Bool), execPacketFetch q s = .next t ∧
      getHq t q = { fetchedQueue (getHq s q) (nextPacket (getHq s q) b bs) with shadowDue := due } ∧
      t.agenda = s.agenda ++ [packetEvent q (nextPacket (getHq s q) b bs), Event.packetFetch q] := by
  have ht : takeTail s q b = s := by
    unfold takeTail
    simp only [hl]
  have hexec : execPacketFetch q s = .next (fetchNext s q b) := by
    rw [execPacketFetch_runs hb hh hp hd, ht]
    simp [hd, he, hn, done]
  obtain ⟨due, hdue⟩ := getHq_putShadow (slotFetched s q b bs) q b
  rw [slotFetched, getHq_setHq_self, ← slotFetched] at hdue
  refine ⟨_, due, hexec, ?_, ?_⟩
  · rw [fetchNext_of_ok hpass hr]
    exact hdue
  · rw [fetchNext_of_ok hpass hr]
    exact congrArg (· ++ _) ((putShadow_agenda ..).trans (sameQueues_agentTouch ..).agenda)

end

/-! ### Commits (R379, R380) -/

section
variable {s : State} {q : Nat}

theorem execQueueCommit_of_lt (hq : q < queueCount) (copyB : Bool) (blk : QueueBlock) (word : Word) :
    execQueueCommit q copyB blk word s = .next (push (setHq s q
      (if copyB then { getHq s q with blkB := blockFields blk, commit := word, pendingCommit := true }
        else { getHq s q with blkA := blockFields blk, commit := word, pendingCommit := true })) (.commitTakeEffect q)) := by
  unfold execQueueCommit
  dsimp only
  rw [if_neg (Nat.not_le.2 hq)]
  cases copyB <;> rfl

theorem execCommitTakeEffect_of_none (h : (getHq s q).pendingCommit = false) : execCommitTakeEffect q s = .next s := by
  unfold execCommitTakeEffect
  simp only [h]
  rfl

/-- The queue after its commit has taken effect (R380, log 16). -/
def committedQueue (h : HostQueue) : HostQueue :=
  if commitResets h (committed h)
  then { h with force := committed h, pendingCommit := false, head := 0, epoch := h.epoch + 1, fetched := 0, shadowDue := false,
                tail := 0, error := 0, passOver := 0 }
  else { h with force := committed h, pendingCommit := false }

theorem execCommitTakeEffect_of_pending (h : (getHq s q).pendingCommit = true) :
    execCommitTakeEffect q s = .next (push (setHq s q (committedQueue (getHq s q))) (.packetFetch q)) := by
  unfold execCommitTakeEffect
  simp only [h]
  rfl

end

/-! ### The obligation -/

/-- Settles O42: a doorbell waits, is counted or is latched; a fetch is held, finds an overrun or hands on the next packet; a commit is
noted and takes effect. That a queue which a commit enables counts its packets from 0, and what a reset does to the epoch and to the
packets that are to be passed over, is log 16. -/
theorem hostQueues : Obligations.HostQueues := by
  unfold Obligations.HostQueues
  intro s conn q value copyB blk mode hq h waits
  have hconn (i : HostItem) : waits i ↔ itemConn i = conn := by cases i <;> rfl
  refine ⟨fun ⟨i, hi, hw⟩ => ?_, fun hw => ?_, fun hidle => ?_,
    fun b hb => ⟨fun hh => ?_, fun hh hp hd => ⟨fun v hl he hv => ?_, fun bs hl he hn hpass hr => ?_⟩⟩, ?_, fun hp => ?_, fun hp => ?_, fun hf => ?_⟩
  · exact execDoorbell_waits ⟨i, hi, (hconn i).1 hw⟩
  · have hexec : exec (.doorbell ⟨conn, q⟩ value) s = .next (ringBell s q value) :=
      execDoorbell_rings fun i hi he => hw i hi ((hconn i).2 he)
    refine ⟨fun hv => hexec.trans (congrArg _ (ringBell_counts hq hv)), fun hv => ?_⟩
    obtain ⟨hlatch, hcores⟩ := ringBell_latches (s := s) hq hv
    exact ⟨_, hexec, hlatch, hcores, fun b hb => ⟨ringBell_agenda hq hv hb, ringBell_wakes hq hv hb⟩⟩
  · exact execPacketFetch_of_idle hidle
  · exact execPacketFetch_of_held hb hh
  · exact execPacketFetch_overruns hb hh hp hd hl he hv
  · exact execPacketFetch_fetches hb hh hp hd hl he hn hpass hr
  · exact ⟨_, execQueueCommit_of_lt hq copyB blk value, rfl, getHq_setHq_self ..⟩
  · exact execCommitTakeEffect_of_none hp
  · exact ⟨_, execCommitTakeEffect_of_pending hp, rfl, getHq_setHq_self ..⟩
  · have hexec : exec (.frontEndModeWrite mode) s = .next (resumeFront { s with feMode := mode }) :=
      congrArg Host.Outcome.next (if_neg (by simp [hf]))
    exact ⟨_, hexec, rfl⟩

end Sys2Proof.Machine
end

section
/-! A slot whose reload ends while an urgent activation runs (R286, log 86). -/

namespace Sys2Proof.Machine

/-- A reload whose image cannot be read leaves the slot LOST, and counts as a change of the slot (R286, log 86). -/
theorem execSlotReloadComplete_of_fail {s : State} {c slot k : Nat} {src : SlotSource} {w : Word}
    (hv : (getSlot (getCore s c) slot).state = .reloading) (hs : (getSlot (getCore s c) slot).source = some src)
    (hr : homeRead s c src.addr 64 = .fail k w) :
    execSlotReloadComplete c slot s = .next (putSlot s c slot (lostSlot (getSlot (getCore s c) slot))) := by
  have hslot : reloadSlot s c slot (getSlot (getCore s c) slot) src = .slot (lostSlot (getSlot (getCore s c) slot)) := by
    unfold reloadSlot
    rw [hr]
  unfold execSlotReloadComplete
  simp only [hv, hs, hslot]
  rfl

/-- A slot that reloads from virtual 0x1000, and of which no change has been noted since a pre-emption. -/
def quietReload : Slot := { emptySlot with state := .reloading, source := some { addr := 0x4000000000001000, scale := none } }

/-- Core 0 in an urgent activation that has not changed slot 0; no context maps a page. -/
def urgentReload : State :=
  setCore State.reset 0 { resetCore with
    state := .running, ctx := { resetCtx with sys := { resetSys with urg := true } }, susp := some resetCtx,
    suspSlots := [quietReload, emptySlot, emptySlot, emptySlot], slots := (Vector.replicate 4 emptySlot).set 0 quietReload }

theorem getSlot_urgentReload : getSlot (getCore urgentReload 0) 0 = quietReload := rfl

/-- The image of the slot is refused. -/
theorem homeRead_urgentReload : homeRead urgentReload 0 0x4000000000001000 64 = .fail 1 0x4000000000001000 := rfl

/-- Refutes O49: the slot that a failed reload leaves is said to be `lostSlot` of the slot before, which keeps whether the slot was noted
as changed. A reload that ends during an urgent activation notes the change (log 86): slot 0 of `urgentReload` was not noted before, and
is after. -/
theorem not_switches : ¬ Obligations.Switches := by
  unfold Obligations.Switches
  rintro ⟨-, hback⟩
  obtain ⟨-, -, -, hslot, -⟩ := hback urgentReload 0 0 0 0 []
  obtain ⟨-, hreload⟩ := hslot (by decide)
  have hv : (getSlot (getCore urgentReload 0) 0).state = .reloading := by rw [getSlot_urgentReload]; rfl
  have hs : (getSlot (getCore urgentReload 0) 0).source = some ⟨0x4000000000001000, none⟩ := by rw [getSlot_urgentReload]; rfl
  obtain ⟨hfail, -⟩ := hreload _ hv hs
  obtain ⟨t, ht, hlost⟩ := hfail _ _ homeRead_urgentReload
  have hexec : exec (.slotReloadComplete 0 0) urgentReload = .next (putSlot urgentReload 0 0 (lostSlot quietReload)) :=
    getSlot_urgentReload ▸ execSlotReloadComplete_of_fail hv hs homeRead_urgentReload
  obtain rfl := Host.Outcome.next.inj (hexec.symm.trans ht)
  rw [getSlot_putSlot _ _ _ (by decide), getSlot_urgentReload] at hlost
  exact absurd (congrArg Slot.touched hlost) (by decide)

end Sys2Proof.Machine
end

section
/-! No instruction and no event stops the machine, and none lowers the lowest version that a block accepts (R571).

Only MIN_SVN_RAISE writes the lowest versions; every other operation of the model leaves them. One lemma for each operation, in the order of
the model's files, says so: `minSvn_f` for an operation `f` that gives a state, `keepsSvn_execX` for an instruction or event X, which has a
next state besides. `svnRises_exec` assembles them over the instructions and the events, `svnRises_step` over the turns. -/

namespace Sys2Proof.Machine

/-! ### What a result must keep -/

/-- The machine goes on, and the lowest versions are what they were. -/
def KeepsSvn (s : State) (o : Host.Outcome State Fault Refusal) : Prop := ∃ t, o = .next t ∧ t.minSvn = s.minSvn

/-- The machine goes on, and no lowest version has become lower (R571). -/
def SvnRises (s : State) (o : Host.Outcome State Fault Refusal) : Prop :=
  ∃ t, o = .next t ∧ ∀ b, tabGet 0 s.minSvn b ≤ tabGet 0 t.minSvn b

/-- The effect of an instruction at issue, where it does not wait, leaves the lowest versions. -/
def OptKeepsSvn (s : State) (o : Option State) : Prop := ∀ t, o = some t → t.minSvn = s.minSvn

/-- A member's row of the tile stream that is done leaves the lowest versions. -/
def RowKeepsSvn (s : State) (r : RowStep) : Prop := ∀ t, r = .ok t → t.minSvn = s.minSvn

/-- A stack engine's position that is done leaves the lowest versions. -/
def MsKeepsSvn (s : State) (r : MsStep) : Prop := ∀ t row, r = .done t row → t.minSvn = s.minSvn

/-- A key request that has moved on leaves the lowest versions. -/
def RouteKeepsSvn (s : State) (r : KeyRoute) : Prop := ∀ t, r = .moved t → t.minSvn = s.minSvn

section

variable {s t : State}

@[simp] theorem keepsSvn_next : KeepsSvn s (.next t) ↔ t.minSvn = s.minSvn := by simp [KeepsSvn]

@[simp] theorem keepsSvn_done : KeepsSvn s (done t) ↔ t.minSvn = s.minSvn := keepsSvn_next

@[simp] theorem optKeepsSvn_none : OptKeepsSvn s none := nofun

@[simp] theorem optKeepsSvn_some : OptKeepsSvn s (some t) ↔ t.minSvn = s.minSvn := by simp [OptKeepsSvn]

@[simp] theorem rowKeepsSvn_ok : RowKeepsSvn s (.ok t) ↔ t.minSvn = s.minSvn := by simp [RowKeepsSvn]

@[simp] theorem rowKeepsSvn_fault {kind addr} : RowKeepsSvn s (.fault kind addr) := nofun

@[simp] theorem rowKeepsSvn_wait : RowKeepsSvn s .wait := nofun

@[simp] theorem msKeepsSvn_done {row} : MsKeepsSvn s (.done t row) ↔ t.minSvn = s.minSvn := by simp [MsKeepsSvn]

@[simp] theorem msKeepsSvn_wait : MsKeepsSvn s .wait := nofun

@[simp] theorem msKeepsSvn_park {a} : MsKeepsSvn s (.park a) := nofun

@[simp] theorem msKeepsSvn_fail {code} : MsKeepsSvn s (.fail code) := nofun

@[simp] theorem routeKeepsSvn_moved : RouteKeepsSvn s (.moved t) ↔ t.minSvn = s.minSvn := by simp [RouteKeepsSvn]

@[simp] theorem routeKeepsSvn_here : RouteKeepsSvn s .here := nofun

theorem KeepsSvn.minSvn {o : Host.Outcome State Fault Refusal} (h : KeepsSvn s o) (ho : o = .next t) : t.minSvn = s.minSvn :=
  keepsSvn_next.1 (ho ▸ h)

theorem OptKeepsSvn.minSvn {o : Option State} (h : OptKeepsSvn s o) (ho : o = some t) : t.minSvn = s.minSvn := h t ho

theorem RowKeepsSvn.minSvn {r : RowStep} (h : RowKeepsSvn s r) (hr : r = .ok t) : t.minSvn = s.minSvn := h t hr

theorem MsKeepsSvn.minSvn {r : MsStep} {row} (h : MsKeepsSvn s r) (hr : r = .done t row) : t.minSvn = s.minSvn := h t row hr

theorem RouteKeepsSvn.minSvn {r : KeyRoute} (h : RouteKeepsSvn s r) (hr : r = .moved t) : t.minSvn = s.minSvn := h t hr

theorem minSvn_fst_of_eq {α : Type} {p q : State × α} (e : p = q) (h : p.1.minSvn = s.minSvn) : q.1.minSvn = s.minSvn := e ▸ h

@[simp] theorem minSvn_ite {c : Prop} [Decidable c] : (if c then s else t).minSvn = if c then s.minSvn else t.minSvn := apply_ite ..

@[simp] theorem minSvn_fst_ite {α : Type} {c : Prop} [Decidable c] {p q : State × α} :
    (if c then p else q).1.minSvn = if c then p.1.minSvn else q.1.minSvn :=
  apply_ite (fun r : State × α => r.1.minSvn) ..

@[simp] theorem keepsSvn_ite {c : Prop} [Decidable c] {o p : Host.Outcome State Fault Refusal} :
    KeepsSvn s (if c then o else p) ↔ if c then KeepsSvn s o else KeepsSvn s p := by
  split <;> rfl

@[simp] theorem minSvn_foldl {α : Type} {f : State → α → State} {l : List α} (hf : ∀ t a, (f t a).minSvn = t.minSvn) :
    (l.foldl f s).minSvn = s.minSvn :=
  List.foldlRecOn (motive := fun t => t.minSvn = s.minSvn) l f rfl fun t ht a _ => (hf t a).trans ht

@[simp] theorem minSvn_fst_foldl {α β : Type} {f : State × β → α → State × β} {l : List α} {p : State × β}
    (hf : ∀ q a, (f q a).1.minSvn = q.1.minSvn) : (l.foldl f p).1.minSvn = p.1.minSvn :=
  List.foldlRecOn (motive := fun q => q.1.minSvn = p.1.minSvn) l f rfl fun q hq a _ => (hf q a).trans hq

@[simp] theorem minSvn_getD {o : Option State} (h : OptKeepsSvn s o) (ht : t.minSvn = s.minSvn) : (o.getD t).minSvn = s.minSvn := by
  cases o with
  | none => exact ht
  | some u => exact h u rfl

end

/-! ### Cores, contexts, operations and issue -/

@[simp] theorem minSvn_updAct {s c serial f} : (updAct s c serial f).minSvn = s.minSvn := by
  unfold updAct
  split <;> simp

@[simp] theorem minSvn_giveStatus {s o v} : (giveStatus s o v).minSvn = s.minSvn := by simp [giveStatus]

@[simp] theorem minSvn_endOp {s n v} : (endOp s n v).minSvn = s.minSvn := by
  unfold endOp
  split <;> simp

@[simp] theorem minSvn_startHeld {s c r upc held drawn body} :
    (startHeld s c r upc held drawn body).minSvn = s.minSvn := by simp [startHeld]

@[simp] theorem minSvn_startOp {s c r upc body} : (startOp s c r upc body).minSvn = s.minSvn := by simp [startOp]

@[simp] theorem minSvn_leaveGang {code s m} : (leaveGang code s m).minSvn = s.minSvn := by
  unfold leaveGang
  dsimp only
  split <;> simp

@[simp] theorem minSvn_disbandGang {s c code} : (disbandGang s c code).minSvn = s.minSvn := by simp [disbandGang]

@[simp] theorem minSvn_takeTrap {s c t} : (takeTrap s c t).minSvn = s.minSvn := by simp [takeTrap]

theorem keepsSvn_issue {s : State} {q} {f : Issued → State → Option State} (hf : ∀ i t, OptKeepsSvn t (f i t)) :
    KeepsSvn s (issue s q f) := by
  unfold issue
  dsimp only
  split
  · simp
  · simp
  · simp
  · split
    · next h => simpa using hf _ _ _ h
    · simp

@[simp] theorem minSvn_trapFrom {s i code param faultaddr} :
    (trapFrom s i code param faultaddr).minSvn = s.minSvn := by simp [trapFrom]

/-! ### The module's memory, its lines and its accesses -/

@[simp] theorem minSvn_spadWrite {s c off bs} : (spadWrite s c off bs).minSvn = s.minSvn := by simp [spadWrite]

@[simp] theorem minSvn_evictLine {s l} : (evictLine s l).minSvn = s.minSvn := by simp [evictLine]

@[simp] theorem minSvn_makeRoom {s l} : (makeRoom s l).minSvn = s.minSvn := by
  unfold makeRoom
  dsimp only
  repeat' split
  all_goals simp

@[simp] theorem minSvn_physSetByte {s pa b} : (physSetByte s pa b).minSvn = s.minSvn := by simp [physSetByte]

@[simp] theorem minSvn_physWrite {s pa bs} : (physWrite s pa bs).minSvn = s.minSvn := by simp [physWrite]

@[simp] theorem minSvn_dropCopies {s pa n} : (dropCopies s pa n).minSvn = s.minSvn := by simp [dropCopies]

@[simp] theorem minSvn_replicate {s line readers} : (replicate s line readers).minSvn = s.minSvn := by simp [replicate]

@[simp] theorem minSvn_countRead {s line reader} : (countRead s line reader).minSvn = s.minSvn := by simp [countRead]

@[simp] theorem minSvn_fillSector {s line sector} : (fillSector s line sector).minSvn = s.minSvn := by simp [fillSector]

@[simp] theorem minSvn_fillRange {s pa n} : (fillRange s pa n).minSvn = s.minSvn := by simp [fillRange]

@[simp] theorem minSvn_touchLine {s reader bypass pa n} :
    (touchLine s reader bypass pa n).minSvn = s.minSvn := by simp [touchLine]

/-! ### Branches, operands and the tile stream -/

@[simp] theorem minSvn_passPrefix {s f} : (passPrefix s f).minSvn = s.minSvn := by simp [passPrefix]

@[simp] theorem keepsSvn_execXimm {u s} : KeepsSvn s (execXimm u s) := by simp [execXimm]

@[simp] theorem keepsSvn_execXmod {r sm d o s} : KeepsSvn s (execXmod r sm d o s) := by simp [execXmod]

@[simp] theorem keepsSvn_execHlikely {n taken s} : KeepsSvn s (execHlikely n taken s) := by
  unfold execHlikely
  refine keepsSvn_issue fun i t => ?_
  simp

@[simp] theorem keepsSvn_execHpref {_lines _w s} : KeepsSvn s (execHpref _lines _w s) := by
  unfold execHpref
  refine keepsSvn_issue fun i t => ?_
  simp

@[simp] theorem keepsSvn_execQpush {a n s} : KeepsSvn s (execQpush a n s) := by
  unfold execQpush
  refine keepsSvn_issue fun i t => ?_
  dsimp only
  split <;> simp

@[simp] theorem keepsSvn_execQpop {d n s} : KeepsSvn s (execQpop d n s) := by
  unfold execQpop
  refine keepsSvn_issue fun i t => ?_
  dsimp only
  split <;> simp

@[simp] theorem keepsSvn_execQlen {d n s} : KeepsSvn s (execQlen d n s) := by
  unfold execQlen
  refine keepsSvn_issue fun i t => ?_
  simp

@[simp] theorem keepsSvn_execBranch {i f s} : KeepsSvn s (execBranch i f s) := by
  unfold execBranch
  dsimp only
  split
  · split
    · simp
    · split <;> simp
  · exact keepsSvn_issue fun i t => by simp

@[simp] theorem keepsSvn_execBeq {a b o s} : KeepsSvn s (execBeq a b o s) := by simp [execBeq]

@[simp] theorem keepsSvn_execBne {a b o s} : KeepsSvn s (execBne a b o s) := by simp [execBne]

@[simp] theorem keepsSvn_execBlt {a b o s} : KeepsSvn s (execBlt a b o s) := by simp [execBlt]

@[simp] theorem keepsSvn_execBge {a b o s} : KeepsSvn s (execBge a b o s) := by simp [execBge]

@[simp] theorem keepsSvn_execBltu {a b o s} : KeepsSvn s (execBltu a b o s) := by simp [execBltu]

@[simp] theorem keepsSvn_execBgeu {a b o s} : KeepsSvn s (execBgeu a b o s) := by simp [execBgeu]

@[simp] theorem keepsSvn_execLoopnz {a o s} : KeepsSvn s (execLoopnz a o s) := by simp [execLoopnz]

@[simp] theorem keepsSvn_execJal {o s} : KeepsSvn s (execJal o s) := by
  unfold execJal
  refine keepsSvn_issue fun i t => ?_
  simp

@[simp] theorem keepsSvn_execJalr {d a o s} : KeepsSvn s (execJalr d a o s) := by
  unfold execJalr
  refine keepsSvn_issue fun i t => ?_
  simp

@[simp] theorem keepsSvn_execBranchResolve {c gen s} : KeepsSvn s (execBranchResolve c gen s) := by
  unfold execBranchResolve
  dsimp only
  repeat' split
  all_goals simp

@[simp] theorem optKeepsSvn_dispatchUnit {s c u body recent} : OptKeepsSvn s (dispatchUnit s c u body recent) := by
  unfold dispatchUnit
  dsimp only
  split <;> simp

@[simp] theorem keepsSvn_dispatchTile {s i q} : KeepsSvn s (dispatchTile s i q) := by
  unfold dispatchTile
  split
  · simp
  · exact keepsSvn_issue fun i t => by simp

@[simp] theorem keepsSvn_execTloop {g q n s} : KeepsSvn s (execTloop g q n s) := by
  unfold execTloop
  dsimp only
  split
  · split <;> simp
  · split
    · simp
    · exact keepsSvn_issue fun i t => by simp

@[simp] theorem keepsSvn_execTwait {s} : KeepsSvn s (execTwait s) := by
  unfold execTwait
  refine keepsSvn_issue fun i t => ?_
  simp

/-! ### Rows, counts and leave -/

@[simp] theorem minSvn_writePieces {s c ps bs} : (writePieces s c ps bs).minSvn = s.minSvn := by
  induction ps generalizing s bs with
  | nil => rfl
  | cons p r ih =>
    rw [writePieces, ih]
    split <;> simp

@[simp] theorem minSvn_rowPut {s c a bs} : (rowPut s c a bs).minSvn = s.minSvn := by
  unfold rowPut
  split <;> simp

@[simp] theorem minSvn_rowTouch {s c bypass a n} : (rowTouch s c bypass a n).minSvn = s.minSvn := by
  unfold rowTouch
  split
  · exact minSvn_foldl fun t p => by split <;> simp
  · rfl

@[simp] theorem minSvn_opView {s o} : (opView s o).minSvn = s.minSvn := by simp [opView]

@[simp] theorem minSvn_keepUnread {s c} : (keepUnread s c).minSvn = s.minSvn := by simp [keepUnread]

@[simp] theorem minSvn_writeBar {s c off b} : (writeBar s c off b).minSvn = s.minSvn := by simp [writeBar]

@[simp] theorem minSvn_noteWait {s c ps} : (noteWait s c ps).minSvn = s.minSvn := by simp [noteWait]

@[simp] theorem minSvn_noteChanges {s t} : (noteChanges s t).minSvn = t.minSvn := by
  unfold noteChanges
  split <;> rfl

@[simp] theorem minSvn_barAdd {s c off n} : (barAdd s c off n).minSvn = s.minSvn := by simp [barAdd]

@[simp] theorem minSvn_countRoundRow {s c off} : (countRoundRow s c off).minSvn = s.minSvn := by simp [countRoundRow]

@[simp] theorem minSvn_setPool {s die p} : (setPool s die p).minSvn = s.minSvn := by simp [setPool]

@[simp] theorem minSvn_takeUnits {s part die units} : (takeUnits s part die units).minSvn = s.minSvn := by simp [takeUnits]

@[simp] theorem minSvn_redivide {s die} : (redivide s die).minSvn = s.minSvn := by simp [redivide]

@[simp] theorem minSvn_cancelWait {s die who} : (cancelWait s die who).minSvn = s.minSvn := by simp [cancelWait]

@[simp] theorem minSvn_dropWait {s die who} : (dropWait s die who).minSvn = s.minSvn := by simp [dropWait]

@[simp] theorem minSvn_joinWait {s part die units who} : (joinWait s part die units who).minSvn = s.minSvn := by simp [joinWait]

@[simp] theorem minSvn_askLeave {s part die units who} : (askLeave s part die units who).2.2.minSvn = s.minSvn := by
  unfold askLeave
  dsimp only
  repeat' split
  all_goals simp

@[simp] theorem minSvn_wakeLeave {s die} : (wakeLeave s die).minSvn = s.minSvn := by simp [wakeLeave]

@[simp] theorem minSvn_returnUnits {s part die units} : (returnUnits s part die units).minSvn = s.minSvn := by simp [returnUnits]

@[simp] theorem minSvn_drawLeave {s c units who} : (drawLeave s c units who).2.2.2.minSvn = s.minSvn := by
  unfold drawLeave
  dsimp only
  repeat' split
  all_goals simp

@[simp] theorem minSvn_returnOpLeave {s o} : (returnOpLeave s o).minSvn = s.minSvn := by simp [returnOpLeave]

theorem minSvn_of_drawLeave {s t : State} {c n who ok k l} (h : drawLeave s c n who = (ok, k, l, t)) :
    t.minSvn = s.minSvn := by
  simpa [h] using minSvn_drawLeave (s := s) (c := c) (units := n) (who := who)

theorem minSvn_of_askLeave {s t : State} {part die n who ok k} (h : askLeave s part die n who = (ok, k, t)) :
    t.minSvn = s.minSvn := by
  simpa [h] using minSvn_askLeave (s := s) (part := part) (die := die) (units := n) (who := who)

@[simp] theorem keepsSvn_execLeave {d a s} : KeepsSvn s (execLeave d a s) := by
  unfold execLeave
  refine keepsSvn_issue fun i t => ?_
  dsimp only
  repeat' split
  all_goals simp

@[simp] theorem minSvn_grantRestored {s c n} : (grantRestored s c n).minSvn = s.minSvn := by simp [grantRestored]

@[simp] theorem keepsSvn_execLeaveGrant {die part s} : KeepsSvn s (execLeaveGrant die part s) := by
  unfold execLeaveGrant
  repeat' split
  all_goals simp

/-! ### Tile arithmetic, the matrix path and tile units -/

@[simp] theorem minSvn_putSlot {s c i v} : (putSlot s c i v).minSvn = s.minSvn := by simp [putSlot]

@[simp] theorem minSvn_returnRunLeave {s c} : (returnRunLeave s c).minSvn = s.minSvn := by simp [returnRunLeave]

@[simp] theorem minSvn_completeUnit {s c} : (completeUnit s c).minSvn = s.minSvn := by simp [completeUnit]

@[simp] theorem minSvn_restoreSeeds {s c u} : (restoreSeeds s c u).minSvn = s.minSvn := by
  unfold restoreSeeds
  exact minSvn_foldl fun t p => modSys_minSvn ..

@[simp] theorem minSvn_raiseTileTrap {s c u code param addr row} :
    (raiseTileTrap s c u code param addr row).minSvn = s.minSvn := by simp [raiseTileTrap]

@[simp] theorem optKeepsSvn_stepUnit {s c u v} : OptKeepsSvn s (stepUnit s c u v) := by
  unfold stepUnit
  dsimp only
  repeat' split
  all_goals simp

@[simp] theorem minSvn_openSlots {s c u v} : (openSlots s c u v).minSvn = s.minSvn := by
  unfold openSlots
  split
  · exact minSvn_foldl fun t p => by split <;> simp
  · rfl

@[simp] theorem minSvn_drawUnit {s c u} : (drawUnit s c u).minSvn = s.minSvn := by simp [drawUnit]

@[simp] theorem minSvn_beginLoop {s c u v} : (beginLoop s c u v).minSvn = s.minSvn := by simp [beginLoop]

@[simp] theorem minSvn_yieldLeave {s c} : (yieldLeave s c).minSvn = s.minSvn := by simp [yieldLeave]

@[simp] theorem minSvn_startUnit {s c u v} : (startUnit s c u v).minSvn = s.minSvn := by
  unfold startUnit
  dsimp only
  split
  · next h => simpa using optKeepsSvn_stepUnit.minSvn h
  · simp

@[simp] theorem keepsSvn_execTileUnitBegin {c s} : KeepsSvn s (execTileUnitBegin c s) := by
  unfold execTileUnitBegin
  dsimp only
  repeat' split
  all_goals simp

@[simp] theorem minSvn_putMember {s m spad acc seed} : (putMember s m spad acc seed).minSvn = s.minSvn := by simp [putMember]

@[simp] theorem minSvn_memberBand {s0 c u v lo hi s p} : (memberBand s0 c u v lo hi s p).minSvn = s.minSvn := by
  unfold memberBand
  dsimp only
  split
  · simp
  · split <;> simp

@[simp] theorem keepsSvn_execTileBandComplete {c mismatch s} : KeepsSvn s (execTileBandComplete c mismatch s) := by
  unfold execTileBandComplete
  dsimp only
  repeat' split
  all_goals simp

@[simp] theorem rowKeepsSvn_memberRow {s c u v i idx m} : RowKeepsSvn s (memberRow s c u v i idx m) := by
  unfold memberRow
  dsimp only
  repeat' split
  all_goals simp

@[simp] theorem minSvn_closeSlots {s c u v} : (closeSlots s c u v).minSvn = s.minSvn := by
  unfold closeSlots
  split <;> simp

theorem rowKeepsSvn_rowOnAll {s c u v i ms} : RowKeepsSvn s (rowOnAll s c u v i ms).1 := by
  induction ms generalizing s with
  | nil => simp [rowOnAll]
  | cons p r ih =>
    unfold rowOnAll
    split
    · next h => exact fun t ht => (ih t ht).trans (rowKeepsSvn_memberRow.minSvn h)
    · next h => exact fun t ht => absurd ht (h t)

@[simp] theorem keepsSvn_execTileRowComplete {c s} : KeepsSvn s (execTileRowComplete c s) := by
  unfold execTileRowComplete
  dsimp only
  split
  · simp
  · split
    · simp
    · split
      · simp
      · split
        · simp
        · split
          · simp
          · simp
          · next h =>
            have ht := rowKeepsSvn_rowOnAll.minSvn (congrArg Prod.fst h)
            split <;> simp [ht]

@[simp] theorem minSvn_countMismatch {s c} : (countMismatch s c).minSvn = s.minSvn := by simp [countMismatch]

@[simp] theorem minSvn_takeTileTrap {s c t} : (takeTileTrap s c t).minSvn = s.minSvn := by simp [takeTileTrap]

@[simp] theorem keepsSvn_execTrapEntry {c s} : KeepsSvn s (execTrapEntry c s) := by
  unfold execTrapEntry
  dsimp only
  split <;> simp

@[simp] theorem minSvn_skipBand {s c u row} : (skipBand s c u row).minSvn = s.minSvn := by simp [skipBand]

@[simp] theorem minSvn_wakeTile {s c} : (wakeTile s c).minSvn = s.minSvn := by
  unfold wakeTile
  dsimp only
  split <;> simp

@[simp] theorem minSvn_resumeTile {s c} : (resumeTile s c).minSvn = s.minSvn := by
  unfold resumeTile
  dsimp only
  split <;> simp

@[simp] theorem keepsSvn_dispatchRnd {s i} : KeepsSvn s (dispatchRnd s i) := by simp [dispatchRnd]

@[simp] theorem keepsSvn_dispatchPlain {s i} : KeepsSvn s (dispatchPlain s i) := by simp [dispatchPlain]

@[simp] theorem keepsSvn_dispatchDup {s i} : KeepsSvn s (dispatchDup s i) := by simp [dispatchDup]

@[simp] theorem keepsSvn_execTadd {d a b n s} : KeepsSvn s (execTadd d a b n s) := by simp [execTadd]

@[simp] theorem keepsSvn_execTsub {d a b n s} : KeepsSvn s (execTsub d a b n s) := by simp [execTsub]

@[simp] theorem keepsSvn_execTmul {d a b n s} : KeepsSvn s (execTmul d a b n s) := by simp [execTmul]

@[simp] theorem keepsSvn_execTmin {d a b n s} : KeepsSvn s (execTmin d a b n s) := by simp [execTmin]

@[simp] theorem keepsSvn_execTmax {d a b n s} : KeepsSvn s (execTmax d a b n s) := by simp [execTmax]

@[simp] theorem keepsSvn_execTand {d a b n s} : KeepsSvn s (execTand d a b n s) := by simp [execTand]

@[simp] theorem keepsSvn_execTor {d a b n s} : KeepsSvn s (execTor d a b n s) := by simp [execTor]

@[simp] theorem keepsSvn_execTxor {d a b n s} : KeepsSvn s (execTxor d a b n s) := by simp [execTxor]

@[simp] theorem keepsSvn_execTshl {d a b n s} : KeepsSvn s (execTshl d a b n s) := by simp [execTshl]

@[simp] theorem keepsSvn_execTshr {d a b n s} : KeepsSvn s (execTshr d a b n s) := by simp [execTshr]

@[simp] theorem keepsSvn_execTcmp {d a b n c s} : KeepsSvn s (execTcmp d a b n c s) := by simp [execTcmp]

@[simp] theorem keepsSvn_execTneg {d a s} : KeepsSvn s (execTneg d a s) := by simp [execTneg]

@[simp] theorem keepsSvn_execTabs {d a s} : KeepsSvn s (execTabs d a s) := by simp [execTabs]

@[simp] theorem keepsSvn_execTexp2 {d a s} : KeepsSvn s (execTexp2 d a s) := by simp [execTexp2]

@[simp] theorem keepsSvn_execTlog2 {d a s} : KeepsSvn s (execTlog2 d a s) := by simp [execTlog2]

@[simp] theorem keepsSvn_execTrcp {d a s} : KeepsSvn s (execTrcp d a s) := by simp [execTrcp]

@[simp] theorem keepsSvn_execTrsqrt {d a s} : KeepsSvn s (execTrsqrt d a s) := by simp [execTrsqrt]

@[simp] theorem keepsSvn_execTsqrt {d a s} : KeepsSvn s (execTsqrt d a s) := by simp [execTsqrt]

@[simp] theorem keepsSvn_execTtanh {d a s} : KeepsSvn s (execTtanh d a s) := by simp [execTtanh]

@[simp] theorem keepsSvn_execTcvt {d a s} : KeepsSvn s (execTcvt d a s) := by simp [execTcvt]

@[simp] theorem keepsSvn_execTround {d a s} : KeepsSvn s (execTround d a s) := by simp [execTround]

@[simp] theorem keepsSvn_execTrsum {d a s} : KeepsSvn s (execTrsum d a s) := by simp [execTrsum]

@[simp] theorem keepsSvn_execTcsum {d a s} : KeepsSvn s (execTcsum d a s) := by simp [execTcsum]

@[simp] theorem keepsSvn_execTrmax {d a s} : KeepsSvn s (execTrmax d a s) := by simp [execTrmax]

@[simp] theorem keepsSvn_execTcmax {d a s} : KeepsSvn s (execTcmax d a s) := by simp [execTcmax]

@[simp] theorem keepsSvn_execTscan {d a sv s} : KeepsSvn s (execTscan d a sv s) := by simp [execTscan]

@[simp] theorem keepsSvn_execTtopk {d a b k s} : KeepsSvn s (execTtopk d a b k s) := by simp [execTtopk]

@[simp] theorem keepsSvn_execThist {d a s} : KeepsSvn s (execThist d a s) := by simp [execThist]

@[simp] theorem keepsSvn_execTargmax {d a s} : KeepsSvn s (execTargmax d a s) := by simp [execTargmax]

@[simp] theorem keepsSvn_execTfma {d a b c n s} : KeepsSvn s (execTfma d a b c n s) := by simp [execTfma]

@[simp] theorem keepsSvn_execTsel {d a b c n s} : KeepsSvn s (execTsel d a b c n s) := by simp [execTsel]

@[simp] theorem keepsSvn_execTscale {d a g q s} : KeepsSvn s (execTscale d a g q s) := by simp [execTscale]

@[simp] theorem keepsSvn_execTcopy {d a n s} : KeepsSvn s (execTcopy d a n s) := by simp [execTcopy]

@[simp] theorem keepsSvn_execTbcast {d a sv s} : KeepsSvn s (execTbcast d a sv s) := by simp [execTbcast]

@[simp] theorem keepsSvn_execTset {d g q v s} : KeepsSvn s (execTset d g q v s) := by simp [execTset]

@[simp] theorem keepsSvn_execTrowg {d a b s} : KeepsSvn s (execTrowg d a b s) := by simp [execTrowg]

@[simp] theorem keepsSvn_execTpack {d a b sv s} : KeepsSvn s (execTpack d a b sv s) := by simp [execTpack]

@[simp] theorem keepsSvn_execAdrain {d a g q c r s} : KeepsSvn s (execAdrain d a g q c r s) := by simp [execAdrain]

@[simp] theorem keepsSvn_execAscale {d a g q c r s} : KeepsSvn s (execAscale d a g q c r s) := by simp [execAscale]

@[simp] theorem keepsSvn_execAmovout {d g q s} : KeepsSvn s (execAmovout d g q s) := by simp [execAmovout]

@[simp] theorem keepsSvn_execMma {a g q sv l s} : KeepsSvn s (execMma a g q sv l s) := by simp [execMma]

@[simp] theorem keepsSvn_execMmag {d a g q n sv l s} : KeepsSvn s (execMmag d a g q n sv l s) := by simp [execMmag]

@[simp] theorem keepsSvn_execMmal {a g q sv l s} : KeepsSvn s (execMmal a g q sv l s) := by simp [execMmal]

@[simp] theorem keepsSvn_execTbind {d g q f s} : KeepsSvn s (execTbind d g q f s) := by simp [execTbind]

@[simp] theorem keepsSvn_execTshape {d g q s} : KeepsSvn s (execTshape d g q s) := by simp [execTshape]

@[simp] theorem keepsSvn_execTvalid {d g q s} : KeepsSvn s (execTvalid d g q s) := by simp [execTvalid]

@[simp] theorem keepsSvn_execTfill {d f s} : KeepsSvn s (execTfill d f s) := by simp [execTfill]

@[simp] theorem keepsSvn_execTget {a n f s} : KeepsSvn s (execTget a n f s) := by simp [execTget]

@[simp] theorem keepsSvn_execTtrans {d a s} : KeepsSvn s (execTtrans d a s) := by simp [execTtrans]

@[simp] theorem keepsSvn_execTldg {d g q s} : KeepsSvn s (execTldg d g q s) := by simp [execTldg]

@[simp] theorem keepsSvn_execTstg {d g q s} : KeepsSvn s (execTstg d g q s) := by simp [execTstg]

@[simp] theorem keepsSvn_execTshift {d a g q c s} : KeepsSvn s (execTshift d a g q c s) := by simp [execTshift]

@[simp] theorem keepsSvn_execMloadb {a g q sv f l s} : KeepsSvn s (execMloadb a g q sv f l s) := by simp [execMloadb]

@[simp] theorem keepsSvn_execMfree {a sv s} : KeepsSvn s (execMfree a sv s) := by simp [execMfree]

@[simp] theorem keepsSvn_execAzero {d g q s} : KeepsSvn s (execAzero d g q s) := by simp [execAzero]

@[simp] theorem keepsSvn_execAmovin {a g q s} : KeepsSvn s (execAmovin a g q s) := by simp [execAmovin]

/-! ### Scalar accesses -/

@[simp] theorem minSvn_dropAcc {s n} : (dropAcc s n).minSvn = s.minSvn := by simp [dropAcc]

@[simp] theorem minSvn_stageAcc {s n st} : (stageAcc s n st).minSvn = s.minSvn := by simp [stageAcc]

@[simp] theorem minSvn_failStore {s c gen lost} : (failStore s c gen lost).minSvn = s.minSvn := by simp [failStore]

@[simp] theorem minSvn_failAcc {s a kind addr} : (failAcc s a kind addr).minSvn = s.minSvn := by
  unfold failAcc
  split <;> simp

@[simp] theorem minSvn_releasedAt {s c scope moment} : (releasedAt s c scope moment).minSvn = s.minSvn := by simp [releasedAt]

@[simp] theorem minSvn_sendAcc {s c kind a size data} : (sendAcc s c kind a size data).minSvn = s.minSvn := by simp [sendAcc]

@[simp] theorem optKeepsSvn_heldTrap {s i code param addr} : OptKeepsSvn s (heldTrap s i code param addr) := by
  unfold heldTrap
  split <;> simp

@[simp] theorem minSvn_loadNow {s i put v} : (loadNow s i put v).minSvn = s.minSvn := by
  unfold loadNow
  split <;> simp

@[simp] theorem optKeepsSvn_loadBody {d a m o i s} : OptKeepsSvn s (loadBody d a m o i s) := by
  unfold loadBody
  dsimp only
  repeat' split
  all_goals simp

@[simp] theorem keepsSvn_execLd {d a m o s} : KeepsSvn s (execLd d a m o s) := by
  unfold execLd
  refine keepsSvn_issue fun i t => ?_
  simp

@[simp] theorem minSvn_latchCommit {s c a} : (latchCommit s c a).minSvn = s.minSvn := by simp [latchCommit]

@[simp] theorem keepsSvn_execSt {a b m o s} : KeepsSvn s (execSt a b m o s) := by
  unfold execSt
  refine keepsSvn_issue fun i t => ?_
  dsimp only
  repeat' split
  all_goals simp

@[simp] theorem optKeepsSvn_atomBody {op d a b scope size order i s} :
    OptKeepsSvn s (atomBody op d a b scope size order i s) := by
  unfold atomBody
  dsimp only
  repeat' split
  all_goals simp

@[simp] theorem keepsSvn_execAmoadd {d a b sc z o s} : KeepsSvn s (execAmoadd d a b sc z o s) := by
  unfold execAmoadd
  refine keepsSvn_issue fun i t => ?_
  simp

@[simp] theorem keepsSvn_execAmomin {d a b sc z o s} : KeepsSvn s (execAmomin d a b sc z o s) := by
  unfold execAmomin
  refine keepsSvn_issue fun i t => ?_
  simp

@[simp] theorem keepsSvn_execAmomax {d a b sc z o s} : KeepsSvn s (execAmomax d a b sc z o s) := by
  unfold execAmomax
  refine keepsSvn_issue fun i t => ?_
  simp

@[simp] theorem keepsSvn_execAmoand {d a b sc z o s} : KeepsSvn s (execAmoand d a b sc z o s) := by
  unfold execAmoand
  refine keepsSvn_issue fun i t => ?_
  simp

@[simp] theorem keepsSvn_execAmoor {d a b sc z o s} : KeepsSvn s (execAmoor d a b sc z o s) := by
  unfold execAmoor
  refine keepsSvn_issue fun i t => ?_
  simp

@[simp] theorem keepsSvn_execAmoxor {d a b sc z o s} : KeepsSvn s (execAmoxor d a b sc z o s) := by
  unfold execAmoxor
  refine keepsSvn_issue fun i t => ?_
  simp

@[simp] theorem keepsSvn_execAmoswap {d a b sc z o s} : KeepsSvn s (execAmoswap d a b sc z o s) := by
  unfold execAmoswap
  refine keepsSvn_issue fun i t => ?_
  simp

@[simp] theorem keepsSvn_execCas {d a b sc z o s} : KeepsSvn s (execCas d a b sc z o s) := by
  unfold execCas
  refine keepsSvn_issue fun i t => ?_
  simp

@[simp] theorem minSvn_translated {s a window pa} : (translated s a window pa).minSvn = s.minSvn := by simp [translated]

@[simp] theorem minSvn_parkAcc {s a own} : (parkAcc s a own).minSvn = s.minSvn := by simp [parkAcc]

@[simp] theorem keepsSvn_execStationTranslate {n s} : KeepsSvn s (execStationTranslate n s) := by
  unfold execStationTranslate
  repeat' split
  all_goals simp

@[simp] theorem keepsSvn_execFaultQueueRetry {n s} : KeepsSvn s (execFaultQueueRetry n s) := by
  unfold execFaultQueueRetry
  repeat' split
  all_goals simp

@[simp] theorem optKeepsSvn_invalidateCopies {s line} : OptKeepsSvn s (invalidateCopies s line) := by
  unfold invalidateCopies
  dsimp only
  repeat' split
  all_goals simp

@[simp] theorem keepsSvn_execReplicaInvalidateAck {line holder s} :
    KeepsSvn s (execReplicaInvalidateAck line holder s) := by simp [execReplicaInvalidateAck]

@[simp] theorem keepsSvn_execStorePerform {n s} : KeepsSvn s (execStorePerform n s) := by
  unfold execStorePerform
  repeat' split
  all_goals try simp
  next h => exact optKeepsSvn_invalidateCopies.minSvn h

@[simp] theorem keepsSvn_execAtomicPerform {n s} : KeepsSvn s (execAtomicPerform n s) := by
  unfold execAtomicPerform
  dsimp only
  repeat' split
  all_goals try simp
  next h => exact optKeepsSvn_invalidateCopies.minSvn h

@[simp] theorem keepsSvn_execSectorFill {line sector s} : KeepsSvn s (execSectorFill line sector s) := by simp [execSectorFill]

@[simp] theorem keepsSvn_execSliceRead {n s} : KeepsSvn s (execSliceRead n s) := by
  unfold execSliceRead
  repeat' split
  all_goals simp

@[simp] theorem keepsSvn_execHotWindowEnd {slice s} : KeepsSvn s (execHotWindowEnd slice s) := by simp [execHotWindowEnd]

@[simp] theorem keepsSvn_execHelperRead {n s} : KeepsSvn s (execHelperRead n s) := by
  unfold execHelperRead
  repeat' split
  all_goals simp

@[simp] theorem keepsSvn_execReplicaDrop {line holder s} : KeepsSvn s (execReplicaDrop line holder s) := by simp [execReplicaDrop]

@[simp] theorem keepsSvn_execPeerAccessArrive {n s} : KeepsSvn s (execPeerAccessArrive n s) := by
  unfold execPeerAccessArrive
  repeat' split
  all_goals simp

@[simp] theorem minSvn_answerAcc {s a bytes} : (answerAcc s a bytes).minSvn = s.minSvn := by
  unfold answerAcc
  split <;> simp

@[simp] theorem minSvn_answerFail {s a kind addr} : (answerFail s a kind addr).minSvn = s.minSvn := by
  unfold answerFail
  split <;> simp

@[simp] theorem keepsSvn_execLoadResponse {n s} : KeepsSvn s (execLoadResponse n s) := by
  unfold execLoadResponse
  repeat' split
  all_goals simp

@[simp] theorem keepsSvn_execFence {d sc o s} : KeepsSvn s (execFence d sc o s) := by
  unfold execFence
  refine keepsSvn_issue fun i t => ?_
  simp

@[simp] theorem minSvn_noteFences {s c t} : (noteFences s c t).minSvn = t.minSvn := by
  exact minSvn_foldl fun u f => minSvn_releasedAt

@[simp] theorem keepsSvn_execFenceComplete {c s} : KeepsSvn s (execFenceComplete c s) := by simp [execFenceComplete]

@[simp] theorem keepsSvn_execDrain {m s} : KeepsSvn s (execDrain m s) := by
  unfold execDrain
  refine keepsSvn_issue fun i t => ?_
  split <;> simp

@[simp] theorem keepsSvn_execDrainComplete {c s} : KeepsSvn s (execDrainComplete c s) := by
  unfold execDrainComplete
  split <;> simp

/-! ### System instructions -/

@[simp] theorem keepsSvn_illegalNow {s} : KeepsSvn s (illegalNow s) := by simp [illegalNow]

@[simp] theorem keepsSvn_execSysr {d p s} : KeepsSvn s (execSysr d p s) := by
  unfold execSysr
  split
  · simp
  · refine keepsSvn_issue fun i t => ?_
    split <;> simp

@[simp] theorem keepsSvn_execSysw {a p s} : KeepsSvn s (execSysw a p s) := by
  unfold execSysw
  split
  · simp
  · refine keepsSvn_issue fun i t => ?_
    dsimp only
    split <;> simp

@[simp] theorem keepsSvn_execTrap {p s} : KeepsSvn s (execTrap p s) := by
  unfold execTrap
  refine keepsSvn_issue fun i t => ?_
  simp

@[simp] theorem keepsSvn_execEret {s} : KeepsSvn s (execEret s) := by
  unfold execEret
  refine keepsSvn_issue fun i t => ?_
  simp

@[simp] theorem keepsSvn_execWfe {m s} : KeepsSvn s (execWfe m s) := by
  unfold execWfe
  refine keepsSvn_issue fun i t => ?_
  split <;> simp

@[simp] theorem keepsSvn_execWfeWake {c s} : KeepsSvn s (execWfeWake c s) := by
  unfold execWfeWake
  split <;> simp

@[simp] theorem keepsSvn_execIflush {s} : KeepsSvn s (execIflush s) := by
  unfold execIflush
  refine keepsSvn_issue fun i t => ?_
  split <;> simp

@[simp] theorem keepsSvn_execHalt {s} : KeepsSvn s (execHalt s) := by
  unfold execHalt
  refine keepsSvn_issue fun i t => ?_
  simp

/-! ### Activations and the integer families -/

@[simp] theorem minSvn_dropReq {s n} : (dropReq s n).minSvn = s.minSvn := by simp [dropReq]

@[simp] theorem minSvn_setWaidric {s m w} : (setWaidric s m w).minSvn = s.minSvn := by simp [setWaidric]

@[simp] theorem minSvn_sendWaidric {s m h body} : (sendWaidric s m h body).minSvn = s.minSvn := by simp [sendWaidric]

@[simp] theorem minSvn_sendTo {s r moved} : (sendTo s r moved).minSvn = s.minSvn := by simp [sendTo]

@[simp] theorem minSvn_sendRemote {s r} : (sendRemote s r).minSvn = s.minSvn := by simp [sendRemote]

@[simp] theorem minSvn_recallReq {s r} : (recallReq s r).minSvn = s.minSvn := by
  unfold recallReq
  split <;> simp

@[simp] theorem minSvn_scramble {s c} : (scramble s c).minSvn = s.minSvn := by simp [scramble]

@[simp] theorem minSvn_scrubCore {s c} : (scrubCore s c).minSvn = s.minSvn := by simp [scrubCore]

@[simp] theorem minSvn_discardRegions {s c} : (discardRegions s c).minSvn = s.minSvn := by simp [discardRegions]

@[simp] theorem minSvn_bindLaunch {s c ltag parent} : (bindLaunch s c ltag parent).minSvn = s.minSvn := by simp [bindLaunch]

@[simp] theorem minSvn_countCreated {s c} : (countCreated s c).minSvn = s.minSvn := by simp [countCreated]

@[simp] theorem minSvn_countEnded {s c} : (countEnded s c).minSvn = s.minSvn := by simp [countEnded]

@[simp] theorem minSvn_settleTally {s c g} : (settleTally s c g).minSvn = s.minSvn := by simp [settleTally]

@[simp] theorem minSvn_retire {s c g} : (retire s c g).minSvn = s.minSvn := by simp [retire]

@[simp] theorem minSvn_retireDormant {s c g} : (retireDormant s c g).minSvn = s.minSvn := by simp [retireDormant]

@[simp] theorem minSvn_startAct {s c kind rec gen t15 pair restart} :
    (startAct s c kind rec gen t15 pair restart).minSvn = s.minSvn := by simp [startAct]

@[simp] theorem minSvn_withdrawWaiters {s p} : (withdrawWaiters s p).minSvn = s.minSvn := by simp [withdrawWaiters]

@[simp] theorem minSvn_dropWaits {s c serial} : (dropWaits s c serial).minSvn = s.minSvn := by simp [dropWaits]

@[simp] theorem minSvn_dropConts {s c g} : (dropConts s c g).minSvn = s.minSvn := by simp [dropConts]

@[simp] theorem minSvn_settleAct {s c x failed counts} : (settleAct s c x failed counts).minSvn = s.minSvn := by simp [settleAct]

@[simp] theorem minSvn_resumeAct {s c x} : (resumeAct s c x).minSvn = s.minSvn := by simp [resumeAct]

@[simp] theorem minSvn_closeAct {s c failed counts} : (closeAct s c failed counts).minSvn = s.minSvn := by
  unfold closeAct
  dsimp only
  split <;> simp

@[simp] theorem minSvn_closeSusp {s c x failed counts} : (closeSusp s c x failed counts).minSvn = s.minSvn := by simp [closeSusp]

@[simp] theorem minSvn_tidyPairs {s} : (tidyPairs s).minSvn = s.minSvn := by simp [tidyPairs]

@[simp] theorem minSvn_notePairEnd {s x} : (notePairEnd s x).minSvn = s.minSvn := by
  unfold notePairEnd
  repeat' split
  all_goals simp

@[simp] theorem minSvn_failAct {s c serial counts} : (failAct s c serial counts).minSvn = s.minSvn := by
  unfold failAct
  repeat' split
  all_goals simp

@[simp] theorem keepsSvn_execEndAct {s} : KeepsSvn s (execEndAct s) := by
  unfold execEndAct
  refine keepsSvn_issue fun i t => ?_
  split <;> simp

@[simp] theorem keepsSvn_computeTo {s q d f} : KeepsSvn s (computeTo s q d f) := by
  unfold computeTo
  refine keepsSvn_issue fun i t => ?_
  simp

@[simp] theorem keepsSvn_intOp {s d a b f} : KeepsSvn s (intOp s d a b f) := by simp [intOp]

@[simp] theorem keepsSvn_bitOp {s d a f} : KeepsSvn s (bitOp s d a f) := by simp [bitOp]

@[simp] theorem keepsSvn_immOp {s d a f} : KeepsSvn s (immOp s d a f) := by simp [immOp]

@[simp] theorem keepsSvn_execAdd {d a b s} : KeepsSvn s (execAdd d a b s) := by simp [execAdd]

@[simp] theorem keepsSvn_execSub {d a b s} : KeepsSvn s (execSub d a b s) := by simp [execSub]

@[simp] theorem keepsSvn_execAnd {d a b s} : KeepsSvn s (execAnd d a b s) := by simp [execAnd]

@[simp] theorem keepsSvn_execOr {d a b s} : KeepsSvn s (execOr d a b s) := by simp [execOr]

@[simp] theorem keepsSvn_execXor {d a b s} : KeepsSvn s (execXor d a b s) := by simp [execXor]

@[simp] theorem keepsSvn_execAndn {d a b s} : KeepsSvn s (execAndn d a b s) := by simp [execAndn]

@[simp] theorem keepsSvn_execOrn {d a b s} : KeepsSvn s (execOrn d a b s) := by simp [execOrn]

@[simp] theorem keepsSvn_execSll {d a b s} : KeepsSvn s (execSll d a b s) := by simp [execSll]

@[simp] theorem keepsSvn_execSrl {d a b s} : KeepsSvn s (execSrl d a b s) := by simp [execSrl]

@[simp] theorem keepsSvn_execSra {d a b s} : KeepsSvn s (execSra d a b s) := by simp [execSra]

@[simp] theorem keepsSvn_execSlt {d a b s} : KeepsSvn s (execSlt d a b s) := by simp [execSlt]

@[simp] theorem keepsSvn_execSltu {d a b s} : KeepsSvn s (execSltu d a b s) := by simp [execSltu]

@[simp] theorem keepsSvn_execMin {d a b s} : KeepsSvn s (execMin d a b s) := by simp [execMin]

@[simp] theorem keepsSvn_execMax {d a b s} : KeepsSvn s (execMax d a b s) := by simp [execMax]

@[simp] theorem keepsSvn_execMinu {d a b s} : KeepsSvn s (execMinu d a b s) := by simp [execMinu]

@[simp] theorem keepsSvn_execMaxu {d a b s} : KeepsSvn s (execMaxu d a b s) := by simp [execMaxu]

@[simp] theorem keepsSvn_execMul {d a b s} : KeepsSvn s (execMul d a b s) := by simp [execMul]

@[simp] theorem keepsSvn_execMulh {d a b s} : KeepsSvn s (execMulh d a b s) := by simp [execMulh]

@[simp] theorem keepsSvn_execMulhu {d a b s} : KeepsSvn s (execMulhu d a b s) := by simp [execMulhu]

@[simp] theorem keepsSvn_execDiv {d a b s} : KeepsSvn s (execDiv d a b s) := by simp [execDiv]

@[simp] theorem keepsSvn_execDivu {d a b s} : KeepsSvn s (execDivu d a b s) := by simp [execDivu]

@[simp] theorem keepsSvn_execRem {d a b s} : KeepsSvn s (execRem d a b s) := by simp [execRem]

@[simp] theorem keepsSvn_execRemu {d a b s} : KeepsSvn s (execRemu d a b s) := by simp [execRemu]

@[simp] theorem keepsSvn_execBext {d a b s} : KeepsSvn s (execBext d a b s) := by simp [execBext]

@[simp] theorem keepsSvn_execLea {d a b sh s} : KeepsSvn s (execLea d a b sh s) := by simp [execLea]

@[simp] theorem keepsSvn_execAddi {d a k s} : KeepsSvn s (execAddi d a k s) := by simp [execAddi]

@[simp] theorem keepsSvn_execAndi {d a k s} : KeepsSvn s (execAndi d a k s) := by simp [execAndi]

@[simp] theorem keepsSvn_execOri {d a k s} : KeepsSvn s (execOri d a k s) := by simp [execOri]

@[simp] theorem keepsSvn_execXori {d a k s} : KeepsSvn s (execXori d a k s) := by simp [execXori]

@[simp] theorem keepsSvn_execSlti {d a k s} : KeepsSvn s (execSlti d a k s) := by simp [execSlti]

@[simp] theorem keepsSvn_execSltiu {d a k s} : KeepsSvn s (execSltiu d a k s) := by simp [execSltiu]

@[simp] theorem keepsSvn_execLih {d a k s} : KeepsSvn s (execLih d a k s) := by simp [execLih]

@[simp] theorem keepsSvn_execSlli {d a k s} : KeepsSvn s (execSlli d a k s) := by simp [execSlli]

@[simp] theorem keepsSvn_execSrli {d a k s} : KeepsSvn s (execSrli d a k s) := by simp [execSrli]

@[simp] theorem keepsSvn_execSrai {d a k s} : KeepsSvn s (execSrai d a k s) := by simp [execSrai]

@[simp] theorem keepsSvn_execClz {d a s} : KeepsSvn s (execClz d a s) := by simp [execClz]

@[simp] theorem keepsSvn_execCtz {d a s} : KeepsSvn s (execCtz d a s) := by simp [execCtz]

@[simp] theorem keepsSvn_execPopc {d a s} : KeepsSvn s (execPopc d a s) := by simp [execPopc]

@[simp] theorem keepsSvn_execBrev {d a s} : KeepsSvn s (execBrev d a s) := by simp [execBrev]

@[simp] theorem keepsSvn_execBins {d a b s} : KeepsSvn s (execBins d a b s) := by simp [execBins]

@[simp] theorem minSvn_setHq {s q h} : (setHq s q h).minSvn = s.minSvn := by simp [setHq]

@[simp] theorem minSvn_modPacket {s q n f} : (modPacket s q n f).minSvn = s.minSvn := by simp [modPacket]

@[simp] theorem minSvn_retirePackets {s q} : (retirePackets s q).minSvn = s.minSvn := by simp [retirePackets]

@[simp] theorem minSvn_finishPacket {s q n status detail force} : (finishPacket s q n status detail force).minSvn = s.minSvn := by
  unfold finishPacket
  split <;> simp

/-! ### Tasks and their schedule -/

@[simp] theorem minSvn_failCopy {p s c} : (failCopy p s c).minSvn = s.minSvn := by
  unfold failCopy
  dsimp only
  repeat' split
  all_goals simp

@[simp] theorem minSvn_killPair {s p blame} : (killPair s p blame).minSvn = s.minSvn := by
  unfold killPair
  repeat' split
  all_goals simp

@[simp] theorem minSvn_dropMsg {s n} : (dropMsg s n).minSvn = s.minSvn := by simp [dropMsg]

@[simp] theorem minSvn_sendMsg {s c target op tag body} : (sendMsg s c target op tag body).minSvn = s.minSvn := by simp [sendMsg]

@[simp] theorem minSvn_endMsg {s m v} : (endMsg s m v).minSvn = s.minSvn := by
  unfold endMsg
  split <;> simp

@[simp] theorem minSvn_deliverAq {s c i r} : (deliverAq s c i r).minSvn = s.minSvn := by simp [deliverAq]

@[simp] theorem minSvn_callatAt {s m rec} : (callatAt s m rec).1.minSvn = s.minSvn := by
  unfold callatAt
  dsimp only
  repeat' split
  all_goals simp

@[simp] theorem minSvn_mailAt {s m kind name body} : (mailAt s m kind name body).1.minSvn = s.minSvn := by
  unfold mailAt
  split <;> simp

@[simp] theorem minSvn_fireRound {s c r} : (fireRound s c r).minSvn = s.minSvn := by simp [fireRound]

@[simp] theorem minSvn_closeAt {s m round} : (closeAt s m round).1.minSvn = s.minSvn := by
  unfold closeAt
  dsimp only
  repeat' split
  all_goals simp

@[simp] theorem keepsSvn_execCallatArrive {n s} : KeepsSvn s (execCallatArrive n s) := by
  unfold execCallatArrive
  repeat' split
  all_goals simp

@[simp] theorem keepsSvn_execMessageArrive {n s} : KeepsSvn s (execMessageArrive n s) := by
  unfold execMessageArrive
  repeat' split
  all_goals simp

@[simp] theorem keepsSvn_execRoundCloseArrive {n s} : KeepsSvn s (execRoundCloseArrive n s) := by
  unfold execRoundCloseArrive
  repeat' split
  all_goals simp

@[simp] theorem minSvn_putTask {s c d v} : (putTask s c d v).minSvn = s.minSvn := by simp [putTask]

@[simp] theorem minSvn_acceptDual {s c rec_ after} : (acceptDual s c rec_ after).1.minSvn = s.minSvn := by simp [acceptDual]

@[simp] theorem minSvn_pushDeque {s c rec_} : (pushDeque s c rec_).1.minSvn = s.minSvn := by simp [pushDeque]

@[simp] theorem minSvn_sendTask {s i d target opcode dest operands body} :
    (sendTask s i d target opcode dest operands body).minSvn = s.minSvn := by simp [sendTask]

@[simp] theorem keepsSvn_execSpawn {d a b p c u s} : KeepsSvn s (execSpawn d a b p c u s) := by
  unfold execSpawn
  refine keepsSvn_issue fun i t => ?_
  dsimp only
  repeat' split
  all_goals simp

@[simp] theorem keepsSvn_execCallat {d a b p c s} : KeepsSvn s (execCallat d a b p c s) := by
  unfold execCallat
  refine keepsSvn_issue fun i t => ?_
  dsimp only
  split <;> simp

@[simp] theorem optKeepsSvn_mailBody {d kind opcode name body i s} : OptKeepsSvn s (mailBody d kind opcode name body i s) := by
  unfold mailBody
  split <;> simp

@[simp] theorem keepsSvn_execRetv {d a b s} : KeepsSvn s (execRetv d a b s) := by
  unfold execRetv
  refine keepsSvn_issue fun i t => ?_
  simp

@[simp] theorem keepsSvn_execMsend {d a b s} : KeepsSvn s (execMsend d a b s) := by
  unfold execMsend
  refine keepsSvn_issue fun i t => ?_
  simp

@[simp] theorem keepsSvn_execMpoll {d b s} : KeepsSvn s (execMpoll d b s) := by
  unfold execMpoll
  refine keepsSvn_issue fun i t => ?_
  dsimp only
  repeat' split
  all_goals simp

@[simp] theorem minSvn_endGang {code s c} : (endGang code s c).minSvn = s.minSvn := by
  unfold endGang
  dsimp only
  split <;> simp

@[simp] theorem minSvn_joinGang {leader n s c} : (joinGang leader n s c).minSvn = s.minSvn := by
  unfold joinGang
  dsimp only
  split <;> simp

@[simp] theorem minSvn_formGang {s c n} : (formGang s c n).minSvn = s.minSvn := by simp [formGang]

@[simp] theorem keepsSvn_execGang {d sv s} : KeepsSvn s (execGang d sv s) := by
  unfold execGang
  refine keepsSvn_issue fun i t => ?_
  dsimp only
  repeat' split
  all_goals simp

@[simp] theorem keepsSvn_execUngang {s} : KeepsSvn s (execUngang s) := by
  unfold execUngang
  refine keepsSvn_issue fun i t => ?_
  repeat' split
  all_goals simp

@[simp] theorem keepsSvn_execGsync {d s} : KeepsSvn s (execGsync d s) := by
  unfold execGsync
  refine keepsSvn_issue fun i t => ?_
  repeat' split
  all_goals simp

@[simp] theorem minSvn_dropUrgents {s c} : (dropUrgents s c).minSvn = s.minSvn := by simp [dropUrgents]

@[simp] theorem minSvn_startUrgent {s c e rest} : (startUrgent s c e rest).minSvn = s.minSvn := by simp [startUrgent]

@[simp] theorem minSvn_chooseAt {s c level} : (chooseAt s c level).minSvn = s.minSvn := by
  unfold chooseAt
  dsimp only
  repeat' split
  all_goals simp

@[simp] theorem minSvn_goIdle {s c} : (goIdle s c).minSvn = s.minSvn := by
  unfold goIdle
  dsimp only
  split <;> simp

@[simp] theorem keepsSvn_execActivationChoose {c s} : KeepsSvn s (execActivationChoose c s) := by
  unfold execActivationChoose
  dsimp only
  repeat' split
  all_goals simp

@[simp] theorem keepsSvn_execUrgentEventArrive {n s} : KeepsSvn s (execUrgentEventArrive n s) := by
  unfold execUrgentEventArrive
  dsimp only
  repeat' split
  all_goals simp

@[simp] theorem minSvn_suspend {s c} : (suspend s c).minSvn = s.minSvn := by simp [suspend]

@[simp] theorem keepsSvn_execUrgentPreempt {c s} : KeepsSvn s (execUrgentPreempt c s) := by
  unfold execUrgentPreempt
  dsimp only
  repeat' split
  all_goals simp

@[simp] theorem minSvn_setSteal {s c next busy backoff} : (setSteal s c next busy backoff).minSvn = s.minSvn := by simp [setSteal]

@[simp] theorem keepsSvn_execStealProbe {c s} : KeepsSvn s (execStealProbe c s) := by
  unfold execStealProbe
  dsimp only
  repeat' split
  all_goals simp

@[simp] theorem keepsSvn_execStealBackoffExpire {c s} :
    KeepsSvn s (execStealBackoffExpire c s) := by simp [execStealBackoffExpire]

@[simp] theorem keepsSvn_execStealRequestServe {n s} : KeepsSvn s (execStealRequestServe n s) := by
  unfold execStealRequestServe
  repeat' split
  all_goals simp

@[simp] theorem keepsSvn_execStealReplyArrive {n s} : KeepsSvn s (execStealReplyArrive n s) := by
  unfold execStealReplyArrive
  repeat' split
  all_goals simp

@[simp] theorem keepsSvn_execStealAckArrive {n s} : KeepsSvn s (execStealAckArrive n s) := by
  unfold execStealAckArrive
  repeat' split
  all_goals simp

@[simp] theorem keepsSvn_execStealReplyReturn {n s} : KeepsSvn s (execStealReplyReturn n s) := by
  unfold execStealReplyReturn
  repeat' split
  all_goals simp

@[simp] theorem keepsSvn_execDieResourceReport {die s} :
    KeepsSvn s (execDieResourceReport die s) := by simp [execDieResourceReport]

@[simp] theorem keepsSvn_execRootPlace {ltag s} : KeepsSvn s (execRootPlace ltag s) := by
  unfold execRootPlace
  repeat' split
  all_goals simp

@[simp] theorem minSvn_awaitRoot {s rec_ restart} : (awaitRoot s rec_ restart).minSvn = s.minSvn := by simp [awaitRoot]

@[simp] theorem minSvn_takeRoot {s ltag c} : (takeRoot s ltag c).minSvn = s.minSvn := by
  unfold takeRoot
  split <;> simp

@[simp] theorem minSvn_placeRoot {s c rec_ restart} : (placeRoot s c rec_ restart).minSvn = s.minSvn := by
  unfold placeRoot
  dsimp only
  repeat' split
  all_goals simp

@[simp] theorem keepsSvn_execRootRecordArrive {n s} : KeepsSvn s (execRootRecordArrive n s) := by
  unfold execRootRecordArrive
  dsimp only
  repeat' split
  all_goals simp

@[simp] theorem minSvn_placeCopy {s rec_ pair copy c} : (placeCopy s rec_ pair copy c).minSvn = s.minSvn := by
  unfold placeCopy
  dsimp only
  split <;> simp

@[simp] theorem keepsSvn_execDualPairPlace {k s} : KeepsSvn s (execDualPairPlace k s) := by
  unfold execDualPairPlace
  repeat' split
  all_goals simp

@[simp] theorem minSvn_failTask {s c serial counts} : (failTask s c serial counts).minSvn = s.minSvn := by simp [failTask]

@[simp] theorem minSvn_failLive {s c} : (failLive s c).minSvn = s.minSvn := by
  unfold failLive
  dsimp only
  split <;> simp

@[simp] theorem keepsSvn_execForemanCoreRestart {c s} : KeepsSvn s (execForemanCoreRestart c s) := by
  unfold execForemanCoreRestart
  dsimp only
  repeat' split
  all_goals simp

@[simp] theorem keepsSvn_execMismatchWindowEnd {die s} :
    KeepsSvn s (execMismatchWindowEnd die s) := by simp [execMismatchWindowEnd]

/-! ### Barriers, copies and multicasts -/

@[simp] theorem minSvn_putBar {s c d code value} : (putBar s c d code value).minSvn = s.minSvn := by simp [putBar]

@[simp] theorem minSvn_poisonBar {s i d kind a} : (poisonBar s i d kind a).minSvn = s.minSvn := by simp [poisonBar]

@[simp] theorem minSvn_armObject {s c d off expect} : (armObject s c d off expect).minSvn = s.minSvn := by simp [armObject]

@[simp] theorem minSvn_openRound {s c bs} : (openRound s c bs).1.minSvn = s.minSvn := by
  unfold openRound
  dsimp only
  repeat' split
  all_goals simp

@[simp] theorem minSvn_withdrawRound {s c round} : (withdrawRound s c round).1.minSvn = s.minSvn := by
  unfold withdrawRound
  dsimp only
  split <;> simp

@[simp] theorem optKeepsSvn_barmBody {d a b i s} : OptKeepsSvn s (barmBody d a b i s) := by
  unfold barmBody
  dsimp only
  repeat' split
  all_goals simp

@[simp] theorem keepsSvn_execBarmArm {d a b s} : KeepsSvn s (execBarmArm d a b s) := by
  unfold execBarmArm
  refine keepsSvn_issue fun i t => ?_
  simp

@[simp] theorem keepsSvn_execBarmOpenRound {d a b s} : KeepsSvn s (execBarmOpenRound d a b s) := by
  unfold execBarmOpenRound
  refine keepsSvn_issue fun i t => ?_
  simp

@[simp] theorem keepsSvn_execBarmWithdrawRound {d a b s} : KeepsSvn s (execBarmWithdrawRound d a b s) := by
  unfold execBarmWithdrawRound
  refine keepsSvn_issue fun i t => ?_
  simp

@[simp] theorem keepsSvn_execBara {d a b s} : KeepsSvn s (execBara d a b s) := by
  unfold execBara
  refine keepsSvn_issue fun i t => ?_
  dsimp only
  repeat' split
  all_goals simp

@[simp] theorem keepsSvn_execBarw {d a s} : KeepsSvn s (execBarw d a s) := by
  unfold execBarw
  refine keepsSvn_issue fun i t => ?_
  dsimp only
  repeat' split
  all_goals simp

@[simp] theorem minSvn_endWait {s o v} : (endWait s o v).minSvn = s.minSvn := by simp [endWait]

@[simp] theorem keepsSvn_execBarwComplete {op s} : KeepsSvn s (execBarwComplete op s) := by
  unfold execBarwComplete
  repeat' split
  all_goals simp

@[simp] theorem keepsSvn_execCntrd {d a b s} : KeepsSvn s (execCntrd d a b s) := by
  unfold execCntrd
  refine keepsSvn_issue fun i t => ?_
  dsimp only
  repeat' split
  all_goals simp

@[simp] theorem keepsSvn_execCntrdReading {op s} : KeepsSvn s (execCntrdReading op s) := by
  unfold execCntrdReading
  repeat' split
  all_goals simp

@[simp] theorem keepsSvn_execCntadd {d a b s} : KeepsSvn s (execCntadd d a b s) := by
  unfold execCntadd
  refine keepsSvn_issue fun i t => ?_
  dsimp only
  repeat' split
  all_goals try simp
  simpa [OptKeepsSvn] using optKeepsSvn_atomBody (s := modCtx t i.core setCommit)

@[simp] theorem keepsSvn_execRndclose {d a b s} : KeepsSvn s (execRndclose d a b s) := by
  unfold execRndclose
  refine keepsSvn_issue fun i t => ?_
  dsimp only
  repeat' split
  all_goals simp

@[simp] theorem minSvn_waitIssue {s i} : (waitIssue s i).minSvn = s.minSvn := by simp [waitIssue]

@[simp] theorem minSvn_parkRow {s port op row retry} : (parkRow s port op row retry).1.minSvn = s.minSvn := by simp [parkRow]

@[simp] theorem minSvn_settleCopy {s o p} : (settleCopy s o p).minSvn = s.minSvn := by simp [settleCopy]

@[simp] theorem optKeepsSvn_startCopy {s i d p} : OptKeepsSvn s (startCopy s i d p) := by
  unfold startCopy
  dsimp only
  repeat' split
  all_goals simp

@[simp] theorem keepsSvn_execXcopy {d s} : KeepsSvn s (execXcopy d s) := by
  unfold execXcopy
  refine keepsSvn_issue fun i t => ?_
  dsimp only
  split <;> simp

@[simp] theorem optKeepsSvn_indexedBody {kind d tn i s} : OptKeepsSvn s (indexedBody kind d tn i s) := by
  unfold indexedBody
  dsimp only
  repeat' split
  all_goals simp

@[simp] theorem keepsSvn_execXgath {d tn s} : KeepsSvn s (execXgath d tn s) := by
  unfold execXgath
  refine keepsSvn_issue fun i t => ?_
  simp

@[simp] theorem keepsSvn_execXscat {d tn s} : KeepsSvn s (execXscat d tn s) := by
  unfold execXscat
  refine keepsSvn_issue fun i t => ?_
  simp

@[simp] theorem keepsSvn_execXcancel {sv s} : KeepsSvn s (execXcancel sv s) := by
  unfold execXcancel
  refine keepsSvn_issue fun i t => ?_
  dsimp only
  repeat' split
  all_goals simp

@[simp] theorem minSvn_putCopyRow {s o p row bs} : (putCopyRow s o p row bs).minSvn = s.minSvn := by
  unfold putCopyRow
  dsimp only
  repeat' split
  all_goals simp

@[simp] theorem minSvn_failCopyRow {s o p row kind code a} : (failCopyRow s o p row kind code a).minSvn = s.minSvn := by
  unfold failCopyRow
  split
  · split
    · next h => simpa using minSvn_fst_of_eq h minSvn_parkRow
    · next h => exact minSvn_fst_of_eq h minSvn_parkRow
  · simp

@[simp] theorem keepsSvn_execCopyRowComplete {op row s} : KeepsSvn s (execCopyRowComplete op row s) := by
  unfold execCopyRowComplete
  dsimp only
  repeat' split
  all_goals simp

@[simp] theorem minSvn_badCopy {s c d} : (badCopy s c d).minSvn = s.minSvn := by simp [badCopy]

@[simp] theorem keepsSvn_execXmcast {d a b tn s} : KeepsSvn s (execXmcast d a b tn s) := by
  unfold execXmcast
  refine keepsSvn_issue fun i t => ?_
  dsimp only
  repeat' split
  all_goals try simp
  · next h => exact minSvn_of_drawLeave h
  · next h => exact minSvn_of_drawLeave h

@[simp] theorem keepsSvn_execXmread {d a b tn s} : KeepsSvn s (execXmread d a b tn s) := by
  unfold execXmread
  refine keepsSvn_issue fun i t => ?_
  dsimp only
  repeat' split
  all_goals simp

@[simp] theorem minSvn_raiseXfree {s name} : (raiseXfree s name).minSvn = s.minSvn := by simp [raiseXfree]

@[simp] theorem minSvn_countFreed {s name fuel} : (countFreed s name fuel).minSvn = s.minSvn := by
  induction fuel generalizing s with
  | zero => rfl
  | succ f ih =>
    unfold countFreed
    split
    · rfl
    · split <;> simp [ih]

@[simp] theorem minSvn_settleFreed {s name} : (settleFreed s name).minSvn = s.minSvn := by simp [settleFreed]

@[simp] theorem keepsSvn_execXfree {a s} : KeepsSvn s (execXfree a s) := by
  unfold execXfree
  refine keepsSvn_issue fun i t => ?_
  dsimp only
  repeat' split
  all_goals simp

@[simp] theorem keepsSvn_execXfreeNoticeArrive {n s} : KeepsSvn s (execXfreeNoticeArrive n s) := by
  unfold execXfreeNoticeArrive
  dsimp only
  repeat' split
  all_goals simp

@[simp] theorem keepsSvn_execMulticastEnd {op s} : KeepsSvn s (execMulticastEnd op s) := by
  unfold execMulticastEnd
  repeat' split
  all_goals simp

@[simp] theorem minSvn_deliverRows {s m core} : (deliverRows s m core).minSvn = s.minSvn := by simp [deliverRows]

@[simp] theorem keepsSvn_execMulticastDelivery {op rank s} : KeepsSvn s (execMulticastDelivery op rank s) := by
  unfold execMulticastDelivery
  repeat' split
  all_goals simp

@[simp] theorem minSvn_putMerge {s e} : (putMerge s e).minSvn = s.minSvn := by simp [putMerge]

@[simp] theorem minSvn_failLineOp {s op} : (failLineOp s op).minSvn = s.minSvn := by
  unfold failLineOp
  repeat' split
  all_goals simp

@[simp] theorem minSvn_countSent {e o m s c} : (countSent e o m s c).minSvn = s.minSvn := by simp [countSent]

@[simp] theorem keepsSvn_execXmreadRequestArrive {op line s} : KeepsSvn s (execXmreadRequestArrive op line s) := by
  unfold execXmreadRequestArrive
  dsimp only
  repeat' split
  all_goals simp

@[simp] theorem minSvn_checkReceivers {s op} : (checkReceivers s op).minSvn = s.minSvn := by
  unfold checkReceivers
  repeat' split
  all_goals simp

@[simp] theorem minSvn_sendSector {e m k s c} : (sendSector e m k s c).minSvn = s.minSvn := by simp [sendSector]

@[simp] theorem minSvn_lineDoneOp {e cs s op} : (lineDoneOp e cs s op).minSvn = s.minSvn := by
  unfold lineDoneOp
  repeat' split
  all_goals simp

@[simp] theorem minSvn_countLineRows {s e m cs} : (countLineRows s e m cs).minSvn = s.minSvn := by simp [countLineRows]

@[simp] theorem minSvn_endResponse {s e m live} : (endResponse s e m live).minSvn = s.minSvn := by simp [endResponse]

@[simp] theorem keepsSvn_execXmreadSectorSend {entry s} : KeepsSvn s (execXmreadSectorSend entry s) := by
  unfold execXmreadSectorSend
  dsimp only
  repeat' split
  all_goals simp

/-! ### The key space -/

@[simp] theorem minSvn_writeHeap {s h units payload} : (writeHeap s h units payload).minSvn = s.minSvn := by
  induction units generalizing s payload with
  | nil => rfl
  | cons u r ih => simp [writeHeap, ih]

@[simp] theorem minSvn_putReq {s r} : (putReq s r).minSvn = s.minSvn := by simp [putReq]

@[simp] theorem minSvn_sendReq {s issuer ni ctx hash ask tag} :
    (sendReq s issuer ni ctx hash ask tag).minSvn = s.minSvn := by simp [sendReq]

@[simp] theorem minSvn_answerReq {s home r a} : (answerReq s home r a).minSvn = s.minSvn := by simp [answerReq]

@[simp] theorem minSvn_serve {s h r t take} : (serve s h r t take).minSvn = s.minSvn := by simp [serve]

@[simp] theorem minSvn_deposit {s h tuple} : (deposit s h tuple).1.minSvn = s.minSvn := by simp [deposit]

@[simp] theorem minSvn_putAt {s h r key shape payload} : (putAt s h r key shape payload).minSvn = s.minSvn := by simp [putAt]

@[simp] theorem minSvn_releaseReg {s c d} : (releaseReg s c d).minSvn = s.minSvn := by
  unfold releaseReg
  dsimp only
  repeat' split
  all_goals simp

@[simp] theorem minSvn_appendWaiter {s h r} : (appendWaiter s h r).1.minSvn = s.minSvn := by simp [appendWaiter]

@[simp] theorem minSvn_readAt {s h r take val mask poll dest} : (readAt s h r take val mask poll dest).minSvn = s.minSvn := by
  unfold readAt
  dsimp only
  split <;> simp

@[simp] theorem minSvn_withdrawn {s h w} : (withdrawn s h w).minSvn = s.minSvn := by simp [withdrawn]

@[simp] theorem minSvn_cancelAt {s h r val mask} : (cancelAt s h r val mask).minSvn = s.minSvn := by
  unfold cancelAt
  dsimp only
  split <;> simp

@[simp] theorem minSvn_replyTo {s m reqid op ctx home status} :
    (replyTo s m reqid op ctx home status).minSvn = s.minSvn := by simp [replyTo]

@[simp] theorem minSvn_redepositAt {s h r t} : (redepositAt s h r t).minSvn = s.minSvn := by
  unfold redepositAt
  split <;> simp

@[simp] theorem minSvn_forwardReq {s r home} : (forwardReq s r home).minSvn = s.minSvn := by
  unfold forwardReq
  repeat' split
  all_goals simp

@[simp] theorem routeKeepsSvn_routeReq {s r} : RouteKeepsSvn s (routeReq s r) := by
  unfold routeReq
  dsimp only
  repeat' split
  all_goals simp

@[simp] theorem minSvn_keyAgain {s r again} : (keyAgain s r again).minSvn = s.minSvn := by simp [keyAgain]

@[simp] theorem minSvn_notePerformed {s r} : (notePerformed s r).minSvn = s.minSvn := by
  unfold notePerformed
  exact minSvn_foldl fun t p => minSvn_setWaidric

@[simp] theorem keepsSvn_atHome {n s again act} (h :
    ∀ r f, act r = some f → ∀ t, (f t).minSvn = t.minSvn) : KeepsSvn s (atHome n s again act) := by
  unfold atHome
  repeat' split
  all_goals try simp
  · next hr => exact routeKeepsSvn_routeReq.minSvn hr
  · next ha _ _ _ _ _ => rw [h _ _ ha]; simp

@[simp] theorem minSvn_fetchPayload {s r key shape a len} : (fetchPayload s r key shape a len).minSvn = s.minSvn := by
  unfold fetchPayload
  repeat' split
  all_goals simp

@[simp] theorem keepsSvn_execHomeKputArrive {n s} : KeepsSvn s (execHomeKputArrive n s) := by
  unfold execHomeKputArrive
  repeat' split
  all_goals simp [keepsSvn_atHome]

@[simp] theorem keepsSvn_execHomeKreadArrive {n s} : KeepsSvn s (execHomeKreadArrive n s) := by
  refine keepsSvn_atHome fun r f h t => ?_
  split at h <;> cases h
  simp

@[simp] theorem keepsSvn_execHomeKtakeArrive {n s} : KeepsSvn s (execHomeKtakeArrive n s) := by
  refine keepsSvn_atHome fun r f h t => ?_
  split at h <;> cases h
  simp

@[simp] theorem keepsSvn_execHomeKcancelArrive {n s} : KeepsSvn s (execHomeKcancelArrive n s) := by
  refine keepsSvn_atHome fun r f h t => ?_
  split at h <;> cases h
  simp

@[simp] theorem keepsSvn_execHomeRedepositArrive {n s} : KeepsSvn s (execHomeRedepositArrive n s) := by
  refine keepsSvn_atHome fun r f h t => ?_
  split at h <;> cases h
  simp

@[simp] theorem minSvn_writeTile {s c b payload} : (writeTile s c b payload).minSvn = s.minSvn := by simp [writeTile]

@[simp] theorem minSvn_writeImage {s c a cap t} : (writeImage s c a cap t).1.minSvn = s.minSvn := by
  unfold writeImage
  dsimp only
  split <;> simp

@[simp] theorem minSvn_deliverTo {s c serial op dest t} : (deliverTo s c serial op dest t).1.minSvn = s.minSvn := by
  unfold deliverTo
  split <;> simp

@[simp] theorem minSvn_ackTake {s d t take ok} : (ackTake s d t take ok).minSvn = s.minSvn := by simp [ackTake]

@[simp] theorem minSvn_dropDelivery {s n} : (dropDelivery s n).minSvn = s.minSvn := by simp [dropDelivery]

@[simp] theorem minSvn_orWord {s slice ctx a bits} : (orWord s slice ctx a bits).minSvn = s.minSvn := by
  unfold orWord
  split <;> simp

@[simp] theorem minSvn_answerUnit {s r home code v} : (answerUnit s r home code v).minSvn = s.minSvn := by
  unfold answerUnit
  split
  · simp
  · split <;> simp
  · split <;> simp
  · exact minSvn_foldl fun t p => minSvn_replyTo
  · rfl

@[simp] theorem minSvn_settleReq {s r home code v} : (settleReq s r home code v).minSvn = s.minSvn := by simp [settleReq]

@[simp] theorem minSvn_deliverStatus {s d code overflow} :
    (deliverStatus s d code overflow).minSvn = s.minSvn := by simp [deliverStatus]

@[simp] theorem minSvn_deliverAll {s t xs} : (deliverAll s t xs).1.minSvn = s.minSvn := by
  induction xs generalizing s with
  | nil => rfl
  | cons x r ih => simp [deliverAll, ih]

@[simp] theorem minSvn_giveServed {s d t overflow os} : (giveServed s d t overflow os).minSvn = s.minSvn := by
  unfold giveServed
  exact minSvn_foldl fun u p => by split <;> simp

@[simp] theorem minSvn_deliverRemote {s d t overflow m reqid} :
    (deliverRemote s d t overflow m reqid).minSvn = s.minSvn := by simp [deliverRemote]

@[simp] theorem keepsSvn_execKeyDeliveryArrive {n s} : KeepsSvn s (execKeyDeliveryArrive n s) := by
  unfold execKeyDeliveryArrive
  dsimp only
  split
  · simp
  · split
    · split <;> simp
    · simp
    · split
      · split
        · simp
        · rw [keepsSvn_done, minSvn_foldl fun _ _ => minSvn_deliverRemote]
          split <;> simp
      · split
        · split
          · simp
          · rw [keepsSvn_done, push_minSvn, minSvn_foldl fun _ _ => by split <;> [(split <;> simp) ; rfl]]
        · split <;> simp

@[simp] theorem minSvn_fireCont {s c dest t pair} : (fireCont s c dest t pair).minSvn = s.minSvn := by
  unfold fireCont
  dsimp only
  repeat' split
  all_goals simp

@[simp] theorem keepsSvn_execContinuationDeliver {n s} : KeepsSvn s (execContinuationDeliver n s) := by
  unfold execContinuationDeliver
  repeat' split
  all_goals simp

@[simp] theorem minSvn_ackRemote {s a} : (ackRemote s a).minSvn = s.minSvn := by simp [ackRemote]

@[simp] theorem keepsSvn_execKeyDeliveryAck {n s} : KeepsSvn s (execKeyDeliveryAck n s) := by
  unfold execKeyDeliveryAck
  split <;> simp

@[simp] theorem minSvn_putKey {s c d code} : (putKey s c d code).minSvn = s.minSvn := by simp [putKey]

@[simp] theorem minSvn_sendKey {s i d hash ask operands payload} :
    (sendKey s i d hash ask operands payload).minSvn = s.minSvn := by simp [sendKey]

@[simp] theorem keepsSvn_execKputTile {d a tn s} : KeepsSvn s (execKputTile d a tn s) := by
  unfold execKputTile
  refine keepsSvn_issue fun i t => ?_
  dsimp only
  repeat' split
  all_goals simp

@[simp] theorem keepsSvn_execKputImage {d a b s} : KeepsSvn s (execKputImage d a b s) := by
  unfold execKputImage
  refine keepsSvn_issue fun i t => ?_
  dsimp only
  repeat' split
  all_goals simp

@[simp] theorem minSvn_commitIf {s c yes} : (commitIf s c yes).minSvn = s.minSvn := by simp [commitIf]

@[simp] theorem optKeepsSvn_readTileBody {take d g tn poll i s} : OptKeepsSvn s (readTileBody take d g tn poll i s) := by
  unfold readTileBody
  dsimp only
  repeat' split
  all_goals simp

@[simp] theorem optKeepsSvn_readImageBody {take d g b poll i s} : OptKeepsSvn s (readImageBody take d g b poll i s) := by
  unfold readImageBody
  dsimp only
  repeat' split
  all_goals simp

@[simp] theorem optKeepsSvn_readContBody {take d g b tn i s} : OptKeepsSvn s (readContBody take d g b tn i s) := by
  unfold readContBody
  dsimp only
  repeat' split
  all_goals simp

@[simp] theorem keepsSvn_execKreadTile {d a tn m s} : KeepsSvn s (execKreadTile d a tn m s) := by
  unfold execKreadTile
  refine keepsSvn_issue fun i t => ?_
  simp

@[simp] theorem keepsSvn_execKreadImage {d a b m s} : KeepsSvn s (execKreadImage d a b m s) := by
  unfold execKreadImage
  refine keepsSvn_issue fun i t => ?_
  simp

@[simp] theorem keepsSvn_execKreadCont {d a b tn s} : KeepsSvn s (execKreadCont d a b tn s) := by
  unfold execKreadCont
  refine keepsSvn_issue fun i t => ?_
  simp

@[simp] theorem keepsSvn_execKtakeTile {d a tn m s} : KeepsSvn s (execKtakeTile d a tn m s) := by
  unfold execKtakeTile
  refine keepsSvn_issue fun i t => ?_
  simp

@[simp] theorem keepsSvn_execKtakeImage {d a b m s} : KeepsSvn s (execKtakeImage d a b m s) := by
  unfold execKtakeImage
  refine keepsSvn_issue fun i t => ?_
  simp

@[simp] theorem keepsSvn_execKtakeCont {d a b tn s} : KeepsSvn s (execKtakeCont d a b tn s) := by
  unfold execKtakeCont
  refine keepsSvn_issue fun i t => ?_
  simp

@[simp] theorem keepsSvn_execKcancel {d a s} : KeepsSvn s (execKcancel d a s) := by
  unfold execKcancel
  refine keepsSvn_issue fun i t => ?_
  dsimp only
  repeat' split
  all_goals simp

@[simp] theorem keepsSvn_execKmap {d a s} : KeepsSvn s (execKmap d a s) := by
  unfold execKmap
  refine keepsSvn_issue fun i t => ?_
  dsimp only
  split <;> simp

@[simp] theorem keepsSvn_execKstat {d a b s} : KeepsSvn s (execKstat d a b s) := by
  unfold execKstat
  refine keepsSvn_issue fun i t => ?_
  dsimp only
  repeat' split
  all_goals simp

/-! ### Waves, splits and other modules -/

@[simp] theorem minSvn_putLaunch {s l} : (putLaunch s l).minSvn = s.minSvn := by simp [putLaunch]

@[simp] theorem keepsSvn_execWaveStart {ltag s} : KeepsSvn s (execWaveStart ltag s) := by
  unfold execWaveStart
  repeat' split
  all_goals simp

@[simp] theorem minSvn_completeLaunch {s l w} : (completeLaunch s l w).minSvn = s.minSvn := by simp [completeLaunch]

@[simp] theorem minSvn_endWave {s l w} : (endWave s l w).minSvn = s.minSvn := by simp [endWave]

@[simp] theorem keepsSvn_execWaveAnswer {c s} : KeepsSvn s (execWaveAnswer c s) := by
  unfold execWaveAnswer
  dsimp only
  repeat' split
  all_goals simp

@[simp] theorem minSvn_changeMap {s m} : (changeMap s m).minSvn = s.minSvn := by simp [changeMap]

@[simp] theorem keepsSvn_execMapBroadcastArrive {ni s} :
    KeepsSvn s (execMapBroadcastArrive ni s) := by simp [execMapBroadcastArrive]

@[simp] theorem keepsSvn_execForwardHintArrive {n s} : KeepsSvn s (execForwardHintArrive n s) := by
  unfold execForwardHintArrive
  split <;> simp

@[simp] theorem keepsSvn_execHeldForwardRelease {n s} : KeepsSvn s (execHeldForwardRelease n s) := by
  unfold execHeldForwardRelease
  split <;> simp

@[simp] theorem keepsSvn_execKsplit {d a b s} : KeepsSvn s (execKsplit d a b s) := by
  unfold execKsplit
  refine keepsSvn_issue fun i t => ?_
  dsimp only
  repeat' split
  all_goals simp

@[simp] theorem minSvn_endSplit {s p v} : (endSplit s p v).minSvn = s.minSvn := by simp [endSplit]

@[simp] theorem minSvn_abortSplit {s lost} : (abortSplit s lost).minSvn = s.minSvn := by
  unfold abortSplit
  split <;> simp

@[simp] theorem minSvn_copyUpper {s p ts} : (copyUpper s p ts).minSvn = s.minSvn := by simp [copyUpper]

@[simp] theorem minSvn_splitOnward {s p} : (splitOnward s p).minSvn = s.minSvn := by simp [splitOnward]

@[simp] theorem keepsSvn_execSplitCopy {s} : KeepsSvn s (execSplitCopy s) := by
  unfold execSplitCopy
  split <;> simp

@[simp] theorem minSvn_moveWaiter {h s w} : (moveWaiter h s w).minSvn = s.minSvn := by
  unfold moveWaiter
  dsimp only
  repeat' split
  all_goals simp

@[simp] theorem minSvn_takeUpper {s h ts ws seq} : (takeUpper s h ts ws seq).minSvn = s.minSvn := by simp [takeUpper]

@[simp] theorem minSvn_moveRemote {s p ws rs seq gen} : (moveRemote s p ws rs seq gen).minSvn = s.minSvn := by simp [moveRemote]

@[simp] theorem minSvn_tellModules {s gen lo home} : (tellModules s gen lo home).minSvn = s.minSvn := by simp [tellModules]

@[simp] theorem minSvn_cutOver {s p} : (cutOver s p).minSvn = s.minSvn := by simp [cutOver]

@[simp] theorem keepsSvn_execSplitCutover {s} : KeepsSvn s (execSplitCutover s) := by
  unfold execSplitCutover
  split <;> simp

@[simp] theorem keepsSvn_execSplitAbort {lost s} : KeepsSvn s (execSplitAbort lost s) := by simp [execSplitAbort]

@[simp] theorem keepsSvn_execHeapResizeRequest {home base size s} :
    KeepsSvn s (execHeapResizeRequest home base size s) := by simp [execHeapResizeRequest]

@[simp] theorem minSvn_dropWaidric {s h} : (dropWaidric s h).minSvn = s.minSvn := by simp [dropWaidric]

@[simp] theorem minSvn_takeRequest {s h bs} : (takeRequest s h bs).minSvn = s.minSvn := by simp [takeRequest]

@[simp] theorem minSvn_dropOutstanding {s m reqid} : (dropOutstanding s m reqid).minSvn = s.minSvn := by simp [dropOutstanding]

@[simp] theorem minSvn_putOutstanding {s m reqid r} : (putOutstanding s m reqid r).minSvn = s.minSvn := by simp [putOutstanding]

@[simp] theorem minSvn_takeDelivery {s h bs} : (takeDelivery s h bs).minSvn = s.minSvn := by
  unfold takeDelivery
  split <;> simp

@[simp] theorem minSvn_takeStatus {s h} : (takeStatus s h).minSvn = s.minSvn := by
  unfold takeStatus
  split <;> simp

@[simp] theorem minSvn_ackHeld {s d ok} : (ackHeld s d ok).minSvn = s.minSvn := by
  unfold ackHeld
  split <;> simp

@[simp] theorem minSvn_answerHeldDelivery {s d m reqid ok} :
    (answerHeldDelivery s d m reqid ok).minSvn = s.minSvn := by simp [answerHeldDelivery]

@[simp] theorem minSvn_takeAck {s h} : (takeAck s h).minSvn = s.minSvn := by
  unfold takeAck
  split <;> simp

@[simp] theorem minSvn_takeRedeposit {s h bs} : (takeRedeposit s h bs).minSvn = s.minSvn := by
  unfold takeRedeposit
  split <;> simp

@[simp] theorem minSvn_dropStaged {s p} : (dropStaged s p).minSvn = s.minSvn := by simp [dropStaged]

@[simp] theorem minSvn_takeCopy {s h bs} : (takeCopy s h bs).minSvn = s.minSvn := by simp [takeCopy]

@[simp] theorem minSvn_takeCut {s h bs} : (takeCut s h bs).minSvn = s.minSvn := by simp [takeCut]

@[simp] theorem minSvn_takeStat {s h} : (takeStat s h).minSvn = s.minSvn := by simp [takeStat]

@[simp] theorem minSvn_actWaidric {s h bs} : (actWaidric s h bs).minSvn = s.minSvn := by simp [actWaidric]

@[simp] theorem keepsSvn_execWaidricMessageReceive {bytes s} : KeepsSvn s (execWaidricMessageReceive bytes s) := by
  unfold execWaidricMessageReceive
  split <;> simp

@[simp] theorem minSvn_loseOut {gone s r} : (loseOut gone s r).minSvn = s.minSvn := by
  unfold loseOut
  split <;> simp

@[simp] theorem minSvn_loseOutstanding {s m gone p} : (loseOutstanding s m gone p).minSvn = s.minSvn := by simp [loseOutstanding]

@[simp] theorem minSvn_dropCopiesOf {s m} : (dropCopiesOf s m).minSvn = s.minSvn := by simp [dropCopiesOf]

@[simp] theorem minSvn_reportPerformed {s m} : (reportPerformed s m).minSvn = s.minSvn := by simp [reportPerformed]

@[simp] theorem minSvn_abortOver {s m} : (abortOver s m).minSvn = s.minSvn := by
  unfold abortOver
  split <;> simp

@[simp] theorem keepsSvn_execWaidricConnectionFail {modnum reqid s} :
    KeepsSvn s (execWaidricConnectionFail modnum reqid s) := by simp [execWaidricConnectionFail]

@[simp] theorem keepsSvn_execModuleFailed {modnum s} : KeepsSvn s (execModuleFailed modnum s) := by simp [execModuleFailed]

/-! ### Dual pairs and the engines' accesses -/

@[simp] theorem minSvn_firstMsg {s m} : (firstMsg s m).minSvn = s.minSvn := by simp [firstMsg]

@[simp] theorem minSvn_firstReq {s r} : (firstReq s r).minSvn = s.minSvn := by
  unfold firstReq
  repeat' split
  all_goals try simp
  next h => exact routeKeepsSvn_routeReq.minSvn h

@[simp] theorem keepsSvn_execAssayFirstArrival {n s} : KeepsSvn s (execAssayFirstArrival n s) := by
  unfold execAssayFirstArrival
  split <;> simp

@[simp] theorem keepsSvn_execAssayRetry {n s} : KeepsSvn s (execAssayRetry n s) := by simp [execAssayRetry]

@[simp] theorem minSvn_killTag {s t blame} : (killTag s t blame).minSvn = s.minSvn := by
  unfold killTag
  split <;> simp

@[simp] theorem minSvn_performMsg {s first second} : (performMsg s first second).minSvn = s.minSvn := by
  unfold performMsg
  dsimp only
  split <;> simp

@[simp] theorem minSvn_performReq {s first second} : (performReq s first second).minSvn = s.minSvn := by simp [performReq]

@[simp] theorem keepsSvn_execAssayTwinArrival {n s} : KeepsSvn s (execAssayTwinArrival n s) := by
  unfold execAssayTwinArrival
  repeat' split
  all_goals simp

@[simp] theorem keepsSvn_execAssayTimeout {n s} : KeepsSvn s (execAssayTimeout n s) := by
  unfold execAssayTimeout
  repeat' split
  all_goals simp

@[simp] theorem minSvn_agentWritePieces {s g ps bs} : (agentWritePieces s g ps bs).minSvn = s.minSvn := by
  induction ps generalizing s bs with
  | nil => rfl
  | cons p r ih =>
    rw [agentWritePieces, ih]
    split <;> simp

@[simp] theorem minSvn_agentPut {s g a bs} : (agentPut s g a bs).minSvn = s.minSvn := by
  unfold agentPut
  split <;> simp

@[simp] theorem minSvn_agentTouch {s g a n} : (agentTouch s g a n).minSvn = s.minSvn := by
  unfold agentTouch
  split
  · exact minSvn_foldl fun t p => by split <;> simp
  · rfl

@[simp] theorem minSvn_agentAtom {s g a n f} : (agentAtom s g a n f).1.minSvn = s.minSvn := by
  unfold agentAtom
  repeat' split
  all_goals simp

/-! ### Combine buffers, stack engines and collectives -/

@[simp] theorem minSvn_completeAt {s i k b closed cycle t} :
    (completeAt s i k b closed cycle t).minSvn = s.minSvn := by simp [completeAt]

@[simp] theorem minSvn_freeSlotAt {s i k} : (freeSlotAt s i k).minSvn = s.minSvn := by simp [freeSlotAt]

@[simp] theorem minSvn_putResult {s i b t} : (putResult s i b t).1.minSvn = s.minSvn := by
  unfold putResult
  dsimp only
  repeat' split
  all_goals simp

@[simp] theorem minSvn_announce {s i b t word} : (announce s i b t word).minSvn = s.minSvn := by
  unfold announce
  dsimp only
  split
  · simp
  · split
    · next h => exact minSvn_fst_of_eq h minSvn_agentAtom
    · next h => simpa using minSvn_fst_of_eq h minSvn_agentAtom

@[simp] theorem keepsSvn_execCombineRelease {slice slot s} : KeepsSvn s (execCombineRelease slice slot s) := by
  unfold execCombineRelease
  dsimp only
  repeat' split
  all_goals simp

@[simp] theorem keepsSvn_execCombineTimeout {slice slot s} : KeepsSvn s (execCombineTimeout slice slot s) := by
  unfold execCombineTimeout
  dsimp only
  repeat' split
  all_goals simp

@[simp] theorem keepsSvn_execLingerExpire {slice slot s} : KeepsSvn s (execLingerExpire slice slot s) := by
  unfold execLingerExpire
  split <;> simp

@[simp] theorem minSvn_markLate {s i k b t} : (markLate s i k b t).minSvn = s.minSvn := by simp [markLate]

@[simp] theorem minSvn_arrivalAt {s i ctx d x token cycle row} : (arrivalAt s i ctx d x token cycle row).1.minSvn = s.minSvn := by
  unfold arrivalAt
  dsimp only
  repeat' split
  all_goals simp

@[simp] theorem minSvn_putRows {s i ctx d x rows} : (putRows s i ctx d x rows).1.minSvn = s.minSvn := by simp [putRows]

@[simp] theorem minSvn_dropCmb {s n} : (dropCmb s n).minSvn = s.minSvn := by simp [dropCmb]

@[simp] theorem minSvn_allocSlots {s i b token opening pairs} : (allocSlots s i b token opening pairs).minSvn = s.minSvn := by
  induction pairs generalizing s token with
  | nil => rfl
  | cons row r ih =>
    unfold allocSlots
    dsimp only
    rw [ih]
    split <;> simp

@[simp] theorem minSvn_tryOpen {s i b m f n blk pairs waiting} :
    (tryOpen s i b m f n blk pairs waiting).1.minSvn = s.minSvn := by simp [tryOpen]

@[simp] theorem keepsSvn_execSliceCmbopenArrive {n s} : KeepsSvn s (execSliceCmbopenArrive n s) := by
  unfold execSliceCmbopenArrive
  dsimp only
  repeat' split
  all_goals try simp
  · next h => simpa using minSvn_fst_of_eq h minSvn_tryOpen
  · next h _ => simpa using minSvn_fst_of_eq h minSvn_tryOpen
  · next h _ => simpa using minSvn_fst_of_eq h minSvn_tryOpen

@[simp] theorem keepsSvn_execOpenWaitServe {slice s} : KeepsSvn s (execOpenWaitServe slice s) := by
  unfold execOpenWaitServe
  dsimp only
  repeat' split
  all_goals try simp
  next h => exact minSvn_fst_of_eq h minSvn_tryOpen

@[simp] theorem keepsSvn_execSliceCmbputArrive {n s} : KeepsSvn s (execSliceCmbputArrive n s) := by
  unfold execSliceCmbputArrive
  repeat' split
  all_goals simp

@[simp] theorem minSvn_forceSlots {s i ctx d tokens} : (forceSlots s i ctx d tokens).1.minSvn = s.minSvn := by
  refine minSvn_fst_foldl (p := (s, 0)) fun acc token => ?_
  dsimp only
  split
  · split <;> simp
  · rfl

@[simp] theorem keepsSvn_execSliceCmbcloseArrive {n s} : KeepsSvn s (execSliceCmbcloseArrive n s) := by
  unfold execSliceCmbcloseArrive
  repeat' split
  all_goals simp

@[simp] theorem minSvn_sendCmb {s i d dd rel ask} : (sendCmb s i d dd rel ask).minSvn = s.minSvn := by simp [sendCmb]

@[simp] theorem keepsSvn_execCmbopen {d a b tn k s} : KeepsSvn s (execCmbopen d a b tn k s) := by
  unfold execCmbopen
  refine keepsSvn_issue fun i t => ?_
  dsimp only
  repeat' split
  all_goals simp

@[simp] theorem keepsSvn_execCmbput {d a b tn s} : KeepsSvn s (execCmbput d a b tn s) := by
  unfold execCmbput
  refine keepsSvn_issue fun i t => ?_
  dsimp only
  repeat' split
  all_goals simp

@[simp] theorem keepsSvn_execCmbclose {d a b s} : KeepsSvn s (execCmbclose d a b s) := by
  unfold execCmbclose
  refine keepsSvn_issue fun i t => ?_
  dsimp only
  repeat' split
  all_goals simp

@[simp] theorem keepsSvn_execCmbstat {d a s} : KeepsSvn s (execCmbstat d a s) := by
  unfold execCmbstat
  refine keepsSvn_issue fun i t => ?_
  dsimp only
  repeat' split
  all_goals simp

@[simp] theorem minSvn_putRowPieces {s g ps bs} : (putRowPieces s g ps bs).minSvn = s.minSvn := by
  induction ps generalizing s bs with
  | nil => rfl
  | cons p r ih => simp [putRowPieces, ih]

@[simp] theorem minSvn_touchRow {s g ps} : (touchRow s g ps).minSvn = s.minSvn := by simp [touchRow]

@[simp] theorem minSvn_freeIf {s undef bs} : (freeIf s undef bs).1.minSvn = s.minSvn := by simp [freeIf]

@[simp] theorem msKeepsSvn_msReadFail {s kind a} : MsKeepsSvn s (msReadFail kind a) := by
  unfold msReadFail msFail
  split <;> simp

@[simp] theorem msKeepsSvn_msWriteFail {s kind a} : MsKeepsSvn s (msWriteFail kind a) := by
  unfold msWriteFail msFail
  split <;> simp

@[simp] theorem msKeepsSvn_iredStep {s o m p} : MsKeepsSvn s (iredStep s o m p) := by
  unfold iredStep
  dsimp only
  split <;> simp

@[simp] theorem msKeepsSvn_iscatStep {s o m p} : MsKeepsSvn s (iscatStep s o m p) := by
  unfold iscatStep msFail
  dsimp only
  repeat' split
  all_goals simp

@[simp] theorem msKeepsSvn_topkStep {s o m k r} : MsKeepsSvn s (topkStep s o m k r) := by
  unfold topkStep
  dsimp only
  repeat' split
  all_goals simp

@[simp] theorem msKeepsSvn_msStep {s o m p} : MsKeepsSvn s (msStep s o m p) := by
  unfold msStep
  repeat' split
  all_goals simp

@[simp] theorem minSvn_putMs {s o m} : (putMs s o m).minSvn = s.minSvn := by simp [putMs]

@[simp] theorem minSvn_runPacket {s o m k ps} : (runPacket s o m k ps).minSvn = s.minSvn := by
  induction ps generalizing s m with
  | nil => simp [runPacket]
  | cons p r ih =>
    unfold runPacket
    split
    · simp
    · simp
    · simp
    · next h => rw [ih, msKeepsSvn_msStep.minSvn h]

@[simp] theorem keepsSvn_execMsPacketExecute {op s} : KeepsSvn s (execMsPacketExecute op s) := by
  unfold execMsPacketExecute
  repeat' split
  all_goals simp

@[simp] theorem minSvn_endMs {s o m} : (endMs s o m).minSvn = s.minSvn := by simp [endMs]

@[simp] theorem keepsSvn_execMsComplete {op s} : KeepsSvn s (execMsComplete op s) := by
  unfold execMsComplete
  dsimp only
  repeat' split
  all_goals simp

@[simp] theorem optKeepsSvn_startMs {s i d kind table area bags} : OptKeepsSvn s (startMs s i d kind table area bags) := by
  unfold startMs
  dsimp only
  repeat' split
  all_goals try simp
  · next h => exact minSvn_of_drawLeave h
  · next h _ => exact minSvn_of_drawLeave h
  · next h _ => exact minSvn_of_drawLeave h

@[simp] theorem optKeepsSvn_bagBody {kind d a b tn i s} : OptKeepsSvn s (bagBody kind d a b tn i s) := by
  unfold bagBody
  dsimp only
  repeat' split
  all_goals simp

@[simp] theorem keepsSvn_execMsired {d a b tn s} : KeepsSvn s (execMsired d a b tn s) := by
  unfold execMsired
  refine keepsSvn_issue fun i t => ?_
  simp

@[simp] theorem keepsSvn_execMsiscat {d a b tn s} : KeepsSvn s (execMsiscat d a b tn s) := by
  unfold execMsiscat
  refine keepsSvn_issue fun i t => ?_
  simp

@[simp] theorem keepsSvn_execMstopk {d a b k s} : KeepsSvn s (execMstopk d a b k s) := by
  unfold execMstopk
  refine keepsSvn_issue fun i t => ?_
  dsimp only
  split <;> simp

@[simp] theorem minSvn_countJoin {s comm c} : (countJoin s comm c).minSvn = s.minSvn := by simp [countJoin]

@[simp] theorem minSvn_putInst {s x} : (putInst s x).minSvn = s.minSvn := by simp [putInst]

@[simp] theorem minSvn_joinCol {s i d op} : (joinCol s i d op).minSvn = s.minSvn := by
  unfold joinCol
  dsimp only
  split <;> simp

@[simp] theorem optKeepsSvn_colBody {k exact d a b i s} : OptKeepsSvn s (colBody k exact d a b i s) := by
  unfold colBody
  dsimp only
  repeat' split
  all_goals simp

@[simp] theorem keepsSvn_execColrs {d a b m s} : KeepsSvn s (execColrs d a b m s) := by
  unfold execColrs
  refine keepsSvn_issue fun i t => ?_
  simp

@[simp] theorem keepsSvn_execColar {d a b m s} : KeepsSvn s (execColar d a b m s) := by
  unfold execColar
  refine keepsSvn_issue fun i t => ?_
  simp

@[simp] theorem keepsSvn_execColag {d a b s} : KeepsSvn s (execColag d a b s) := by
  unfold execColag
  refine keepsSvn_issue fun i t => ?_
  simp

@[simp] theorem keepsSvn_execColbc {d a b s} : KeepsSvn s (execColbc d a b s) := by
  unfold execColbc
  refine keepsSvn_issue fun i t => ?_
  simp

@[simp] theorem keepsSvn_execColbar {d a s} : KeepsSvn s (execColbar d a s) := by
  unfold execColbar
  refine keepsSvn_issue fun i t => ?_
  simp

@[simp] theorem minSvn_failInst {s x code} : (failInst s x code).minSvn = s.minSvn := by simp [failInst]

@[simp] theorem minSvn_startInst {s x ranks xs l} : (startInst s x ranks xs l).minSvn = s.minSvn := by simp [startInst]

@[simp] theorem keepsSvn_execCollectiveInstanceStart {comm inst s} : KeepsSvn s (execCollectiveInstanceStart comm inst s) := by
  unfold execCollectiveInstanceStart
  dsimp only
  repeat' split
  all_goals simp

@[simp] theorem minSvn_setEngine {s die e} : (setEngine s die e).minSvn = s.minSvn := by simp [setEngine]

@[simp] theorem minSvn_freeBuffer {s r} : (freeBuffer s r).minSvn = s.minSvn := by simp [freeBuffer]

@[simp] theorem minSvn_withdrawRequests {s die p} : (withdrawRequests s die p).minSvn = s.minSvn := by simp [withdrawRequests]

@[simp] theorem minSvn_leaveChunks {s die comm} : (leaveChunks s die comm).minSvn = s.minSvn := by simp [leaveChunks]

@[simp] theorem minSvn_endInst {s x} : (endInst s x).minSvn = s.minSvn := by simp [endInst]

@[simp] theorem keepsSvn_execCollectiveInstanceEnd {comm inst s} : KeepsSvn s (execCollectiveInstanceEnd comm inst s) := by
  unfold execCollectiveInstanceEnd
  split <;> simp

@[simp] theorem minSvn_holdBuffer {s die r} : (holdBuffer s die r).minSvn = s.minSvn := by simp [holdBuffer]

@[simp] theorem minSvn_reserveChunk {s die comm next} : (reserveChunk s die comm next).1.minSvn = s.minSvn := by
  unfold reserveChunk
  repeat' split
  all_goals simp

@[simp] theorem keepsSvn_execChunkStart {die comm s} : KeepsSvn s (execChunkStart die comm s) := by
  unfold execChunkStart
  dsimp only
  repeat' split
  all_goals try simp
  all_goals next h => simpa using minSvn_of_askLeave h

@[simp] theorem keepsSvn_execChunkReservationTimeout {die comm s} :
    KeepsSvn s (execChunkReservationTimeout die comm s) := by simp [execChunkReservationTimeout]

@[simp] theorem minSvn_dropChunk {s die r part} : (dropChunk s die r part).minSvn = s.minSvn := by simp [dropChunk]

@[simp] theorem minSvn_endChunk {s die o op x r code} : (endChunk s die o op x r code).minSvn = s.minSvn := by simp [endChunk]

@[simp] theorem minSvn_asideChunk {s die r} : (asideChunk s die r).minSvn = s.minSvn := by simp [asideChunk]

@[simp] theorem minSvn_parkChunk {s die port r comm} : (parkChunk s die port r comm).1.minSvn = s.minSvn := by simp [parkChunk]

@[simp] theorem minSvn_stepChunk {die s r} : (stepChunk die s r).1.minSvn = s.minSvn := by
  unfold stepChunk
  dsimp only
  repeat' split
  all_goals simp

@[simp] theorem keepsSvn_execChunkEnd {die s} : KeepsSvn s (execChunkEnd die s) := by simp [execChunkEnd]

@[simp] theorem keepsSvn_execCommunicatorWrite {comm e s} :
    KeepsSvn s (execCommunicatorWrite comm e s) := by simp [execCommunicatorWrite]

/-! ### The front end and the Ethernet ports -/

@[simp] theorem minSvn_fillLine {s c l} : (fillLine s c l).minSvn = s.minSvn := by
  unfold fillLine
  split <;> simp

@[simp] theorem minSvn_fetchTrap {s c t} : (fetchTrap s c t).minSvn = s.minSvn := by simp [fetchTrap]

@[simp] theorem optKeepsSvn_stopCore {s c} : OptKeepsSvn s (stopCore s c) := by
  unfold stopCore
  dsimp only
  split <;> simp

@[simp] theorem minSvn_putShadow {s q b} : (putShadow s q b).minSvn = s.minSvn := by
  unfold putShadow
  dsimp only
  split <;> simp

@[simp] theorem minSvn_queueError {s q b code} : (queueError s q b code).minSvn = s.minSvn := by simp [queueError]

@[simp] theorem minSvn_ringBell {s q value} : (ringBell s q value).minSvn = s.minSvn := by
  unfold ringBell
  dsimp only
  repeat' split
  all_goals simp

@[simp] theorem keepsSvn_execDoorbell {q value s} : KeepsSvn s (execDoorbell q value s) := by simp [execDoorbell]

@[simp] theorem minSvn_takeTail {s q b} : (takeTail s q b).minSvn = s.minSvn := by
  unfold takeTail
  dsimp only
  split <;> simp

@[simp] theorem minSvn_badPacket {s q n} : (badPacket s q n).minSvn = s.minSvn := by simp [badPacket]

@[simp] theorem minSvn_passPackets {s q epoch fuel} : (passPackets s q epoch fuel).1.minSvn = s.minSvn := by
  induction fuel generalizing s with
  | zero => rfl
  | succ f ih =>
    unfold passPackets
    split <;> simp [ih]

@[simp] theorem minSvn_fetchNext {s q b} : (fetchNext s q b).minSvn = s.minSvn := by
  unfold fetchNext
  dsimp only
  split <;> simp

@[simp] theorem keepsSvn_execPacketFetch {q s} : KeepsSvn s (execPacketFetch q s) := by
  unfold execPacketFetch
  split <;> simp

@[simp] theorem keepsSvn_execQueueCommit {q copyB blk word s} :
    KeepsSvn s (execQueueCommit q copyB blk word s) := by simp [execQueueCommit]

@[simp] theorem keepsSvn_execCommitTakeEffect {q s} : KeepsSvn s (execCommitTakeEffect q s) := by simp [execCommitTakeEffect]

@[simp] theorem minSvn_beginLaunch {s q p part ltag d} :
    (beginLaunch s q p part ltag d).minSvn = s.minSvn := by simp [beginLaunch]

@[simp] theorem keepsSvn_execLaunchPacket {q n s} : KeepsSvn s (execLaunchPacket q n s) := by
  unfold execLaunchPacket
  repeat' split
  all_goals simp

@[simp] theorem minSvn_copyOver {s g src dst bs} : (copyOver s g src dst bs).1.minSvn = s.minSvn := by simp [copyOver]

@[simp] theorem minSvn_parkPacket {s port q n} : (parkPacket s port q n).minSvn = s.minSvn := by simp [parkPacket]

@[simp] theorem minSvn_startPacket {s q n} : (startPacket s q n).minSvn = s.minSvn := by simp [startPacket]

@[simp] theorem minSvn_issuePacket {s q n again} : (issuePacket s q n again).minSvn = s.minSvn := by simp [issuePacket]

@[simp] theorem keepsSvn_execCopyPacket {q n s} : KeepsSvn s (execCopyPacket q n s) := by
  unfold execCopyPacket
  dsimp only
  repeat' split
  all_goals simp

@[simp] theorem keepsSvn_execKputPacket {q n s} : KeepsSvn s (execKputPacket q n s) := by
  unfold execKputPacket
  dsimp only
  repeat' split
  all_goals simp

@[simp] theorem keepsSvn_execSignalPacket {q n s} : KeepsSvn s (execSignalPacket q n s) := by
  unfold execSignalPacket
  dsimp only
  repeat' split
  all_goals try simp
  all_goals next h => exact minSvn_fst_of_eq h minSvn_agentAtom

@[simp] theorem keepsSvn_execFencePacket {q n s} : KeepsSvn s (execFencePacket q n s) := by
  unfold execFencePacket
  split <;> simp

@[simp] theorem minSvn_stopWait {s q n status detail pass force} :
    (stopWait s q n status detail pass force).minSvn = s.minSvn := by simp [stopWait]

@[simp] theorem minSvn_testWait {s q p again} : (testWait s q p again).minSvn = s.minSvn := by
  unfold testWait
  dsimp only
  split <;> simp

@[simp] theorem keepsSvn_execWaitcondPacket {q n s} : KeepsSvn s (execWaitcondPacket q n s) := by
  unfold execWaitcondPacket
  split <;> simp

@[simp] theorem keepsSvn_execWaitcondRetest {q n s} : KeepsSvn s (execWaitcondRetest q n s) := by
  unfold execWaitcondRetest
  split <;> simp

@[simp] theorem minSvn_losePacket {s q n} : (losePacket s q n).minSvn = s.minSvn := by
  unfold losePacket
  repeat' split
  all_goals simp

@[simp] theorem minSvn_loseSlot {s q} : (loseSlot s q).minSvn = s.minSvn := by
  unfold loseSlot
  split <;> simp

@[simp] theorem keepsSvn_execCompletionRecordWrite {q n s} : KeepsSvn s (execCompletionRecordWrite q n s) := by
  unfold execCompletionRecordWrite
  dsimp only
  repeat' split
  all_goals simp

@[simp] theorem minSvn_setIngress {s q v} : (setIngress s q v).minSvn = s.minSvn := by simp [setIngress]

@[simp] theorem minSvn_afterRing {s d f va} : (afterRing s d f va).minSvn = s.minSvn := by
  unfold afterRing
  split <;> simp

@[simp] theorem minSvn_dropFrame {s q} : (dropFrame s q).minSvn = s.minSvn := by simp [dropFrame]

@[simp] theorem minSvn_lostWrite {s g slot bs} : (lostWrite s g slot bs).minSvn = s.minSvn := by simp [lostWrite]

@[simp] theorem optKeepsSvn_ringFrame {s d f} : OptKeepsSvn s (ringFrame s d f) := by
  unfold ringFrame
  dsimp only
  repeat' split
  all_goals simp

@[simp] theorem minSvn_tupleFrame {s d f} : (tupleFrame s d f).minSvn = s.minSvn := by simp [tupleFrame]

@[simp] theorem optKeepsSvn_writeFrame {s d f} : OptKeepsSvn s (writeFrame s d f) := by
  unfold writeFrame
  split <;> simp

@[simp] theorem minSvn_setWaits {s q fs} : (setWaits s q fs).minSvn = s.minSvn := by simp [setWaits]

@[simp] theorem minSvn_passFrame {s port ts bytes} : (passFrame s port ts bytes).minSvn = s.minSvn := by
  unfold passFrame
  dsimp only
  split
  · simp
  · split
    · simp
    · split
      · simp
      · split
        · next h => simpa using optKeepsSvn_writeFrame.minSvn h
        · rfl

@[simp] theorem minSvn_tryFrame {s f} : (tryFrame s f).minSvn = s.minSvn := by
  unfold tryFrame
  dsimp only
  split
  · rw [pushAll_minSvn, minSvn_setWaits, minSvn_dropFrame]
  · split
    · next h => rw [pushAll_minSvn, minSvn_setWaits, optKeepsSvn_writeFrame.minSvn h]
    · rfl

@[simp] theorem keepsSvn_execFrameReceive {port fcsOk ts bytes s} : KeepsSvn s (execFrameReceive port fcsOk ts bytes s) := by
  unfold execFrameReceive
  split <;> simp

@[simp] theorem minSvn_resumeFrames {s} : (resumeFrames s).minSvn = s.minSvn := by simp [resumeFrames]

@[simp] theorem optKeepsSvn_hostWrite {s ctx va bytes} : OptKeepsSvn s (hostWrite s ctx va bytes) := by
  unfold hostWrite
  dsimp only
  split <;> simp

@[simp] theorem minSvn_nextItems {s conn fuel} : (nextItems s conn fuel).minSvn = s.minSvn := by
  induction fuel generalizing s with
  | zero => rfl
  | succ f ih =>
    unfold nextItems
    split <;> simp [ih]

@[simp] theorem keepsSvn_execHostRdmaWrite {conn ctx va bytes s} : KeepsSvn s (execHostRdmaWrite conn ctx va bytes s) := by
  unfold execHostRdmaWrite
  dsimp only
  repeat' split
  all_goals try simp
  all_goals next h => exact optKeepsSvn_hostWrite.minSvn h

/-! ### Firmware and faults -/

@[simp] theorem minSvn_modFw {s b f} : (modFw s b f).minSvn = s.minSvn := by simp [modFw]

@[simp] theorem minSvn_failBlock {s b} : (failBlock s b).minSvn = s.minSvn := by
  unfold failBlock
  split <;> simp

@[simp] theorem minSvn_verifyBlock {s b} : (verifyBlock s b).minSvn = s.minSvn := by
  unfold verifyBlock
  split <;> simp

@[simp] theorem minSvn_startStage {s bs} : (startStage s bs).minSvn = s.minSvn := by simp [startStage]

@[simp] theorem minSvn_advanceStages {s stages} : (advanceStages s stages).minSvn = s.minSvn := by
  induction stages generalizing s with
  | nil => rfl
  | cons bs r ih =>
    unfold advanceStages
    dsimp only
    split <;> simp [ih]

@[simp] theorem keepsSvn_execPowerOn {flash s} : KeepsSvn s (execPowerOn flash s) := by simp [execPowerOn]

@[simp] theorem keepsSvn_execImageVerify {blk img s} : KeepsSvn s (execImageVerify blk img s) := by simp [execImageVerify]

@[simp] theorem minSvn_resumeFront {s} : (resumeFront s).minSvn = s.minSvn := by simp [resumeFront]

@[simp] theorem keepsSvn_execFrontEndModeWrite {v s} : KeepsSvn s (execFrontEndModeWrite v s) := by simp [execFrontEndModeWrite]

@[simp] theorem keepsSvn_execBlockReady {blk s} : KeepsSvn s (execBlockReady blk s) := by simp [execBlockReady]

@[simp] theorem keepsSvn_execAttestationRequest {nonce s} :
    KeepsSvn s (execAttestationRequest nonce s) := by simp [execAttestationRequest]

@[simp] theorem keepsSvn_execHeartbeat {blk answered s} : KeepsSvn s (execHeartbeat blk answered s) := by
  unfold execHeartbeat
  split <;> simp

@[simp] theorem minSvn_loseHomes {s stack} : (loseHomes s stack).minSvn = s.minSvn := by simp [loseHomes]

@[simp] theorem keepsSvn_execFirmwareWatchdogReset {blk s} : KeepsSvn s (execFirmwareWatchdogReset blk s) := by
  unfold execFirmwareWatchdogReset
  repeat' split
  all_goals simp

@[simp] theorem minSvn_holdMode {s b} : (holdMode s b).minSvn = s.minSvn := by simp [holdMode]

@[simp] theorem minSvn_giveMode {s b} : (giveMode s b).minSvn = s.minSvn := by
  unfold giveMode
  split <;> simp

@[simp] theorem keepsSvn_execFirmwareReplace {blk img s} :
    KeepsSvn s (execFirmwareReplace blk img s) := by simp [execFirmwareReplace]

@[simp] theorem minSvn_setCap {s die cap} : (setCap s die cap).minSvn = s.minSvn := by simp [setCap]

@[simp] theorem keepsSvn_execLeaveCapWrite {die cap s} : KeepsSvn s (execLeaveCapWrite die cap s) := by simp [execLeaveCapWrite]

@[simp] theorem minSvn_mapCaps {s f} : (mapCaps s f).minSvn = s.minSvn := by simp [mapCaps]

@[simp] theorem keepsSvn_execCurrentMonitorHigh {s} : KeepsSvn s (execCurrentMonitorHigh s) := by simp [execCurrentMonitorHigh]

@[simp] theorem keepsSvn_execCurrentMonitorLowSustained {s} :
    KeepsSvn s (execCurrentMonitorLowSustained s) := by simp [execCurrentMonitorLowSustained]

@[simp] theorem minSvn_writePartition {s p ctxid clusters} :
    (writePartition s p ctxid clusters).minSvn = s.minSvn := by simp [writePartition]

@[simp] theorem minSvn_writeDomain {s modules localMod absent} :
    (writeDomain s modules localMod absent).minSvn = s.minSvn := by simp [writeDomain]

@[simp] theorem minSvn_releaseDie {s die} : (releaseDie s die).minSvn = s.minSvn := by
  unfold releaseDie
  rw [pushAll_minSvn, minSvn_foldl fun t c => modCore_minSvn t c _]

@[simp] theorem keepsSvn_execFirmwareTableWrite {w s} : KeepsSvn s (execFirmwareTableWrite w s) := by
  unfold execFirmwareTableWrite
  split <;> simp

@[simp] theorem minSvn_replayAccs {s port core} : (replayAccs s port core).minSvn = s.minSvn := by simp [replayAccs]

@[simp] theorem minSvn_dropEntry {s e} : (dropEntry s e).minSvn = s.minSvn := by simp [dropEntry]

@[simp] theorem keepsSvn_execFaultResolve {port n s} : KeepsSvn s (execFaultResolve port n s) := by
  unfold execFaultResolve
  repeat' split
  all_goals simp

@[simp] theorem minSvn_declineRow {s o row} : (declineRow s o row).minSvn = s.minSvn := by
  unfold declineRow
  repeat' split
  all_goals simp

@[simp] theorem minSvn_declineFault {s port n} : (declineFault s port n).minSvn = s.minSvn := by
  unfold declineFault
  dsimp only
  repeat' split
  all_goals simp

@[simp] theorem keepsSvn_execFaultDecline {port n s} : KeepsSvn s (execFaultDecline port n s) := by simp [execFaultDecline]

@[simp] theorem keepsSvn_execFaultResolveTimeout {port n s} :
    KeepsSvn s (execFaultResolveTimeout port n s) := by simp [execFaultResolveTimeout]

@[simp] theorem keepsSvn_execVcDeadlockTimeout {p s} : KeepsSvn s (execVcDeadlockTimeout p s) := by
  unfold execVcDeadlockTimeout
  split <;> simp

@[simp] theorem keepsSvn_execFlowAck {flow s} : KeepsSvn s (execFlowAck flow s) := by
  unfold execFlowAck
  split <;> simp

@[simp] theorem minSvn_loseMsg {s m} : (loseMsg s m).minSvn = s.minSvn := by
  unfold loseMsg
  split <;> simp

@[simp] theorem minSvn_loseReq {s r} : (loseReq s r).minSvn = s.minSvn := by
  unfold loseReq
  split <;> simp

@[simp] theorem minSvn_loseDelivery {s d} : (loseDelivery s d).minSvn = s.minSvn := by
  unfold loseDelivery
  split <;> simp

@[simp] theorem minSvn_loseRow {s o i} : (loseRow s o i).minSvn = s.minSvn := by
  unfold loseRow
  repeat' split
  all_goals simp

@[simp] theorem minSvn_loseTileRow {s c member} : (loseTileRow s c member).minSvn = s.minSvn := by
  unfold loseTileRow
  dsimp only
  split <;> simp

@[simp] theorem minSvn_loseFetch {s c} : (loseFetch s c).minSvn = s.minSvn := by
  unfold loseFetch
  dsimp only
  split <;> simp

@[simp] theorem minSvn_loseItem {s n} : (loseItem s n).minSvn = s.minSvn := by
  unfold loseItem
  repeat' split
  all_goals simp

@[simp] theorem keepsSvn_execLinkDeath {x s} : KeepsSvn s (execLinkDeath x s) := by
  unfold execLinkDeath
  repeat' split
  all_goals simp

/-! ### Partitions, killed cores and snapshots -/

@[simp] theorem keepsSvn_execPartitionSwitchRequest {p s} :
    KeepsSvn s (execPartitionSwitchRequest p s) := by simp [execPartitionSwitchRequest]

@[simp] theorem minSvn_haltCore {s c} : (haltCore s c).minSvn = s.minSvn := by
  unfold haltCore
  dsimp only
  repeat' split
  all_goals simp

@[simp] theorem keepsSvn_execPartitionHalt {p s} : KeepsSvn s (execPartitionHalt p s) := by simp [execPartitionHalt]

@[simp] theorem keepsSvn_execContextWriteOut {p s} : KeepsSvn s (execContextWriteOut p s) := by
  unfold execContextWriteOut
  dsimp only
  split
  · simp
  · rw [keepsSvn_done, minSvn_foldl fun _ _ => minSvn_redivide, minSvn_foldl fun t c => setCore_minSvn t c _, setPart_minSvn]

@[simp] theorem minSvn_rejoinLeave {sh s n} : (rejoinLeave sh s n).minSvn = s.minSvn := by
  unfold rejoinLeave
  repeat' split
  all_goals simp

@[simp] theorem minSvn_placeCore {s c img moved} : (placeCore s c img moved).minSvn = s.minSvn := by simp [placeCore]

@[simp] theorem minSvn_deliverUrgent {s c e} : (deliverUrgent s c e).minSvn = s.minSvn := by simp [deliverUrgent]

@[simp] theorem minSvn_restorePart {s p onto} : (restorePart s p onto).minSvn = s.minSvn := by
  unfold restorePart
  dsimp only
  rw [minSvn_foldl fun _ _ => minSvn_deliverUrgent]
  dsimp only
  rw [minSvn_foldl fun _ _ => minSvn_placeCore, minSvn_foldl fun _ _ => minSvn_redivide, minSvn_foldl fun _ _ => by simp]
  rfl

@[simp] theorem keepsSvn_execPartitionRestore {p onto s} :
    KeepsSvn s (execPartitionRestore p onto s) := by simp [execPartitionRestore]

@[simp] theorem keepsSvn_execSpillReloadComplete {c region s} :
    KeepsSvn s (execSpillReloadComplete c region s) := by simp [execSpillReloadComplete]

@[simp] theorem keepsSvn_execSlotReloadComplete {c slot s} : KeepsSvn s (execSlotReloadComplete c slot s) := by
  unfold execSlotReloadComplete
  dsimp only
  repeat' split
  all_goals simp

@[simp] theorem keepsSvn_execPartitionGate {p s} : KeepsSvn s (execPartitionGate p s) := by
  unfold execPartitionGate
  dsimp only
  split <;> simp

@[simp] theorem keepsSvn_execPartitionWake {p onto s} : KeepsSvn s (execPartitionWake p onto s) := by simp [execPartitionWake]

@[simp] theorem minSvn_breakGang {s c} : (breakGang s c).minSvn = s.minSvn := by
  unfold breakGang
  dsimp only
  repeat' split
  all_goals simp

@[simp] theorem minSvn_cutOp {s o} : (cutOp s o).minSvn = s.minSvn := by
  unfold cutOp
  split <;> simp

@[simp] theorem minSvn_freeLeave {s c} : (freeLeave s c).minSvn = s.minSvn := by simp [freeLeave]

@[simp] theorem minSvn_stopForGood {s c spare} : (stopForGood s c spare).minSvn = s.minSvn := by
  unfold stopForGood
  extract_lets rs t₀ t₁ t₂ t₃ t₄ t₅ t₆
  have h₀ : t₀.minSvn = s.minSvn := by simp [t₀]
  have h₁ : t₁.minSvn = t₀.minSvn := minSvn_foldl fun _ _ => by simp
  have h₂ : t₂.minSvn = t₁.minSvn := minSvn_foldl fun _ _ => by split <;> simp
  have h₃ : t₃.minSvn = t₂.minSvn := minSvn_foldl fun _ _ => by simp
  have h₅ : t₅.minSvn = t₃.minSvn := minSvn_foldl (s := t₄) fun _ _ => by simp
  have h₆ : t₆.minSvn = t₅.minSvn := modCore_minSvn ..
  dsimp only
  rw [h₆, h₅, h₃, h₂, h₁, h₀]

@[simp] theorem minSvn_beginMapChange {s c} : (beginMapChange s c).minSvn = s.minSvn := by
  unfold beginMapChange
  dsimp only
  rw [pushAll_minSvn]
  split <;> rfl

@[simp] theorem keepsSvn_killCore {s c} : KeepsSvn s (killCore s c) := by simp [killCore]

@[simp] theorem keepsSvn_execCoreKill {c s} : KeepsSvn s (execCoreKill c s) := by simp [execCoreKill]

@[simp] theorem keepsSvn_execCoreMapUpdateArrive {ni c s} :
    KeepsSvn s (execCoreMapUpdateArrive ni c s) := by simp [execCoreMapUpdateArrive]

@[simp] theorem minSvn_freeDebts {s c} : (freeDebts s c).minSvn = s.minSvn := by simp [freeDebts]

@[simp] theorem minSvn_markLost {s c} : (markLost s c).minSvn = s.minSvn := by simp [markLost]

@[simp] theorem minSvn_restartAct {s c a spare} : (restartAct s c a spare).minSvn = s.minSvn := by simp [restartAct]

@[simp] theorem minSvn_handleAct {s c x spare} : (handleAct s c x spare).1.minSvn = s.minSvn := by
  unfold handleAct
  split <;> simp

@[simp] theorem minSvn_handleActs {s c spare} : (handleActs s c spare).minSvn = s.minSvn := by
  unfold handleActs
  dsimp only
  split <;> simp

@[simp] theorem minSvn_failDelivered {s c} : (failDelivered s c).minSvn = s.minSvn := by simp [failDelivered]

@[simp] theorem minSvn_handOver {s c} : (handOver s c).minSvn = s.minSvn := by
  unfold handOver
  dsimp only
  split
  · rw [push_minSvn, minSvn_foldl (f := fun u r => awaitRoot u r false) fun _ _ => by simp]
    split <;> simp
  · rw [minSvn_foldl (f := fun u r => awaitRoot u r false) fun _ _ => by simp]
    split <;> simp

@[simp] theorem keepsSvn_execCoreMapChangeComplete {c s} : KeepsSvn s (execCoreMapChangeComplete c s) := by
  unfold execCoreMapChangeComplete
  split <;> simp

@[simp] theorem minSvn_poisonSector {s cache n} : (poisonSector s cache n).minSvn = s.minSvn := by simp [poisonSector]

@[simp] theorem keepsSvn_execUncorrectableError {place s} : KeepsSvn s (execUncorrectableError place s) := by
  unfold execUncorrectableError
  split <;> simp

@[simp] theorem minSvn_askRepair {s eng num} : (askRepair s eng num).minSvn = s.minSvn := by simp [askRepair]

@[simp] theorem minSvn_countError {s eng cls p} : (countError s eng cls p).minSvn = s.minSvn := by
  unfold countError
  dsimp only
  repeat' split
  all_goals simp

@[simp] theorem keepsSvn_execCorrectedErrorReport {eng bank row col s} :
    KeepsSvn s (execCorrectedErrorReport eng bank row col s) := by simp [execCorrectedErrorReport]

@[simp] theorem keepsSvn_execClassificationWindowEnd {eng s} :
    KeepsSvn s (execClassificationWindowEnd eng s) := by simp [execClassificationWindowEnd]

@[simp] theorem keepsSvn_execRepairServe {eng idx s} : KeepsSvn s (execRepairServe eng idx s) := by simp [execRepairServe]

@[simp] theorem keepsSvn_execTranslationInvalidate {ctx lo hi s} :
    KeepsSvn s (execTranslationInvalidate ctx lo hi s) := by simp [execTranslationInvalidate]

@[simp] theorem minSvn_modCut {s tag f} : (modCut s tag f).minSvn = s.minSvn := by simp [modCut]

@[simp] theorem minSvn_latchBlock {s tag b} : (latchBlock s tag b).minSvn = s.minSvn := by
  unfold latchBlock
  split <;> simp

@[simp] theorem minSvn_recordPacket {s tag p} : (recordPacket s tag p).minSvn = s.minSvn := by
  unfold recordPacket
  split <;> simp

@[simp] theorem minSvn_meetPacket {p s tag} : (meetPacket p s tag).minSvn = s.minSvn := by
  unfold meetPacket
  split <;> simp

@[simp] theorem minSvn_meetCuts {s e} : (meetCuts s e).minSvn = s.minSvn := by
  unfold meetCuts
  repeat' split
  all_goals simp

@[simp] theorem keepsSvn_execSnap {p s} : KeepsSvn s (execSnap p s) := by
  unfold execSnap
  refine keepsSvn_issue fun i t => ?_
  dsimp only
  repeat' split
  all_goals simp

@[simp] theorem keepsSvn_execSnapshotMarkerArrive {tag blk s} :
    KeepsSvn s (execSnapshotMarkerArrive tag blk s) := by simp [execSnapshotMarkerArrive]

@[simp] theorem keepsSvn_execSnapshotPacketRecord {n blk s} :
    KeepsSvn s (execSnapshotPacketRecord n blk s) := by simp [execSnapshotPacketRecord]

@[simp] theorem keepsSvn_execCutComplete {tag s} : KeepsSvn s (execCutComplete tag s) := by
  unfold execCutComplete
  split <;> simp

@[simp] theorem minSvn_eventState {s e rest} : (eventState s e rest).minSvn = s.minSvn := by simp [eventState]

@[simp] theorem minSvn_placeWord {s nbits w} : (placeWord s nbits w).minSvn = s.minSvn := by simp [placeWord]

/-! ### Every instruction and every event -/

theorem KeepsSvn.svnRises {s : State} {o : Host.Outcome State Fault Refusal} (h : KeepsSvn s o) : SvnRises s o := by
  obtain ⟨t, ho, ht⟩ := h
  exact ⟨t, ho, fun b => (congrArg (tabGet 0 · b) ht).ge⟩

/-- MIN_SVN_RAISE writes a version only where it is above the one that stands (R571). -/
theorem svnRises_execMinSvnRaise {target svn signed s} : SvnRises s (execMinSvnRaise target svn signed s) := by
  unfold execMinSvnRaise
  split
  · next h =>
    obtain ⟨-, hlt⟩ := h
    refine ⟨_, rfl, fun b => ?_⟩
    by_cases hb : b = target
    · subst hb
      exact hlt.le.trans (tabGet_tabSet_self ..).ge
    · exact (tabGet_tabSet_ne _ _ _ _ _ hb).ge
  · exact (keepsSvn_done.2 rfl).svnRises

/-- Every instruction and every event goes on and lowers no lowest version. -/
theorem svnRises_exec {i s} : SvnRises s (exec i s) := by
  cases i
  case minSvnRaise => exact svnRises_execMinSvnRaise
  all_goals exact KeepsSvn.svnRises (by simp [exec])

/-! ### The turns -/

theorem SvnRises.trans {s t : State} {o : Host.Outcome State Fault Refusal} (ht : SvnRises t o) (hs : t.minSvn = s.minSvn) :
    SvnRises s o := by
  obtain ⟨u, ho, hu⟩ := ht
  exact ⟨u, ho, fun b => hs ▸ hu b⟩

theorem svnRises_runWord {s c} : SvnRises s (runWord s c) := by
  unfold runWord
  dsimp only
  split
  · exact (keepsSvn_next.2 rfl).svnRises
  · exact (keepsSvn_next.2 minSvn_fetchTrap).svnRises
  · split
    · exact svnRises_exec.trans minSvn_fillLine
    · exact KeepsSvn.svnRises (by split <;> simp)

theorem svnRises_runCore {s c} : SvnRises s (runCore s c) := by
  unfold runCore
  dsimp only
  split
  · exact (keepsSvn_next.2 rfl).svnRises
  · split
    · exact (keepsSvn_next.2 minSvn_takeTileTrap).svnRises
    · split
      · exact (keepsSvn_next.2 rfl).svnRises
      · split
        · next h => exact (keepsSvn_next.2 (optKeepsSvn_stopCore.minSvn h)).svnRises
        · exact svnRises_runWord
        · exact KeepsSvn.svnRises (by simp)
        · exact (keepsSvn_next.2 rfl).svnRises

/-- A word of a core that exists. -/
theorem svnRises_coreStep {s} (hc : s.focus < coreCount) : SvnRises s (coreStep s) := by
  obtain ⟨u, hu, hle⟩ := svnRises_runCore (s := s) (c := s.focus)
  unfold coreStep
  rw [if_neg hc.not_ge, hu]
  refine ⟨_, rfl, fun b => ?_⟩
  rw [minSvn_noteChanges]
  dsimp only
  split
  · exact le_rfl
  · exact hle b

theorem svnRises_eventStep {s e rest} : SvnRises s (eventStep s e rest) := by
  obtain ⟨u, hu, hle⟩ := (svnRises_exec (i := instrOf e) (s := eventState s e rest)).trans (minSvn_eventState (s := s))
  unfold eventStep
  rw [runEvent_exec, hu]
  exact ⟨_, rfl, fun b => (hle b).trans (congrArg (tabGet 0 · b) minSvn_noteChanges).ge⟩

/-- A step of the module, whose focus names a core where a word is next. -/
theorem svnRises_step {s} (hc : s.focus < coreCount) : SvnRises s (step s) := by
  unfold step
  split
  · exact svnRises_eventStep
  · exact svnRises_coreStep hc

theorem step_of_no_core {s : State} (h : s.turn = .core ∨ s.agenda = []) (hc : coreCount ≤ s.focus) : step s = .fault .noSuchCore := by
  rw [step_core h, coreStep, if_pos hc]

/-- Settles O57: every instruction and every event has a next state, and so has each turn whose core exists. -/
theorem everyInstructionGoesOn : Obligations.EveryInstructionGoesOn := by
  unfold Obligations.EveryInstructionGoesOn
  refine ⟨fun i s => ?_, fun s hc => ?_, fun s => step_of_no_core⟩
  · obtain ⟨t, ht, -⟩ := svnRises_exec (i := i) (s := s)
    exact ⟨t, ht⟩
  · obtain ⟨t, ht, -⟩ := svnRises_step hc
    exact ⟨t, ht⟩

/-- Settles O60: a step that has a next state is an event or a word of a core, and neither lowers a lowest version. -/
theorem lowestVersionNeverFalls : Obligations.LowestVersionNeverFalls := by
  unfold Obligations.LowestVersionNeverFalls
  intro s t target h
  have hrises : SvnRises s (step s) := by
    by_cases hc : s.focus < coreCount
    · exact svnRises_step hc
    · by_cases hw : s.turn = .core ∨ s.agenda = []
      · cases (step_of_no_core hw (not_lt.1 hc)).symm.trans h
      · obtain ⟨e, rest, ha⟩ := List.exists_cons_of_ne_nil fun ha => hw (.inr ha)
        have ht : s.turn = .event := by
          cases hs : s.turn with
          | core => exact absurd (.inl hs) hw
          | event => rfl
        rw [step, ht, ha]
        exact svnRises_eventStep
  obtain ⟨u, hu, hle⟩ := hrises
  obtain rfl := Host.Outcome.next.inj (hu.symm.trans h)
  exact hle target

end Sys2Proof.Machine
end

section
/-! The words of the worked examples (R124-R144). -/

namespace Sys2Proof.Machine

/-- Settles O54: each word is decoded. -/
theorem sampleWords : Obligations.SampleWords := by
  unfold Obligations.SampleWords
  decide

end Sys2Proof.Machine
end

section
/-! What writes and reads of ranges for an agent leave of the state (R260-R262, R376): memories, cache slices, cores and free values alone
change. -/

namespace Sys2Proof.Machine

/-- What a state holds beside memories, cache slices, cores, counters and free values. -/
def withoutMemory (s : State) : State :=
  { s with
    fresh := 0, cores := [], hbm := [], remote := [], lines := [], badSectors := [], hot := [], replicas := [], redirects := [],
    counters := [] }

/-- Two states that differ in memories, cache slices, cores, counters and free values alone. -/
def MemoryOnly (s t : State) : Prop := withoutMemory t = withoutMemory s

theorem MemoryOnly.refl (s : State) : MemoryOnly s s := rfl

theorem MemoryOnly.trans {s t u : State} (h : MemoryOnly s t) (g : MemoryOnly t u) : MemoryOnly s u := Eq.trans g h

/-- What is read of the rest of a state is the same. -/
theorem MemoryOnly.field {α : Type} {s t : State} (h : MemoryOnly s t) (f : State → α) : f (withoutMemory t) = f (withoutMemory s) :=
  congrArg f h

theorem CachesOnly.memoryOnly {s t : State} (h : CachesOnly s t) : MemoryOnly s t := h.field withoutMemory

theorem CountsOnly.memoryOnly {s t : State} (h : CountsOnly s t) : MemoryOnly s t := h.field withoutMemory

theorem CoresOnly.memoryOnly {s t : State} (h : CoresOnly s t) : MemoryOnly s t := h.field withoutMemory

theorem memoryOnly_foldl {α : Type} {f : State → α → State} (hf : ∀ t a, MemoryOnly t (f t a)) (l : List α) (s : State) :
    MemoryOnly s (l.foldl f s) :=
  foldl_induction (motive := MemoryOnly s) (fun t a ht => ht.trans (hf t a)) (.refl s)

theorem memoryOnly_physSetByte (s : State) (pa : Nat) (b : Byte) : MemoryOnly s (physSetByte s pa b) :=
  (cachesOnly_makeRoom s (lineOf pa)).memoryOnly.trans rfl

theorem memoryOnly_physWrite (s : State) (pa : Nat) (bs : List Byte) : MemoryOnly s (physWrite s pa bs) := by
  have hbytes : MemoryOnly s (((List.range bs.length).zip bs).foldl (fun t p => physSetByte t (pa + p.1) p.2) s) :=
    memoryOnly_foldl (fun t (p : Nat × Byte) => memoryOnly_physSetByte t (pa + p.1) p.2) _ s
  exact hbytes.trans rfl

theorem memoryOnly_agentWritePieces (s : State) (g : Agent) (ps : List (Nat × Nat)) (bs : List Byte) :
    MemoryOnly s (agentWritePieces s g ps bs) := by
  induction ps generalizing s bs with
  | nil => exact .refl s
  | cons p ps ih =>
    unfold agentWritePieces
    refine .trans ?_ (ih ..)
    split
    · exact MemoryOnly.trans (t := dropCopies s _ p.2) rfl (memoryOnly_physWrite ..)
    · rfl
    · rfl

theorem memoryOnly_agentPut (s : State) (g : Agent) (a : Word) (bs : List Byte) : MemoryOnly s (agentPut s g a bs) := by
  unfold agentPut
  split
  · rfl
  · rfl
  · exact memoryOnly_agentWritePieces ..
  · rfl

theorem memoryOnly_agentTouch (s : State) (g : Agent) (a : Word) (n : Nat) : MemoryOnly s (agentTouch s g a n) := by
  unfold agentTouch
  split
  · refine memoryOnly_foldl (fun t p => ?_) _ s
    split
    · exact (cachesOnly_touchLine ..).memoryOnly
    · rfl
  · rfl

end Sys2Proof.Machine
end

section
/-! The classifier and the frames of rings and tuples (R391-R396, R399). -/

namespace Sys2Proof.Machine

/-! ### The classifier (R392) -/

section
variable {s : State} {port : Nat} {bytes : List Byte}

/-- Where no entry matches, the classifier gives none. -/
theorem classify_eq_none (h : ∀ j < 1024, ¬ ∃ e, getClass s j = some e ∧ classMatches e port bytes = true) :
    classify s port bytes = none := by
  unfold classify
  rw [List.findSome?_eq_none_iff]
  intro j hj
  split
  · next e he => exact if_neg fun hm => h j (List.mem_range.1 hj) ⟨e, he, hm⟩
  · rfl

/-- The first entry that matches is the classifier's choice. -/
theorem classify_eq_some {i : Nat} {e : ClassEntry} (hi : i < 1024) (he : getClass s i = some e) (hm : classMatches e port bytes = true)
    (hfirst : ∀ j < i, ¬ ∃ e, getClass s j = some e ∧ classMatches e port bytes = true) :
    classify s port bytes = some (i, e.queue % 4096) := by
  unfold classify
  rw [List.findSome?_eq_some_iff]
  have hsplit : List.range 1024 = List.range i ++ i :: List.range' (i + 1) (1023 - i) := by
    have hlen : 1024 = i + (1023 - i + 1) := by omega
    calc List.range 1024
      _ = List.range' 0 (i + (1023 - i + 1)) := List.range_eq_range'.trans (congrArg (List.range' 0) hlen)
      _ = List.range' 0 i ++ List.range' (0 + i) (1023 - i + 1) := List.range'_append_1.symm
      _ = _ := by rw [Nat.zero_add, List.range'_succ, List.range_eq_range']
  refine ⟨List.range i, i, _, hsplit, by simp [he, hm], fun j hj => ?_⟩
  · split
    · next e' he' => exact if_neg fun hm' => hfirst j (List.mem_range.1 hj) ⟨e', he', hm'⟩
    · rfl

end

/-! ### Ingress queues (R394) -/

theorem getIngress_setIngress_self (s : State) (q : Nat) (v : IngressQueue) : getIngress (setIngress s q v) q = v := tabGet_tabSet_self ..

theorem getIngress_setIngress_ne (s : State) {q o : Nat} (v : IngressQueue) (h : o ≠ q) :
    getIngress (setIngress s q v) o = getIngress s o :=
  tabGet_tabSet_ne _ _ _ _ _ h

theorem getIngress_congr {s t : State} (h : t.ingress = s.ingress) (o : Nat) : getIngress t o = getIngress s o :=
  congrArg (tabGet emptyIngress · o) h

/-! ### Frames written (R395, R396) -/

section
variable {s u : State} {d : IngressDesc} {f : Framed}

/-- The place of a frame's slot in its ring (R395). -/
abbrev slotOf (d : IngressDesc) (f : Framed) : Nat := d.base + f.seq % 2 ^ d.logn * d.slotBytes

/-- The queue that a dead link's loss has been taken from (R396). -/
abbrev lossTaken (s : State) (q : Nat) : State := setIngress s q { getIngress s q with lossy := false }

theorem ingress_afterRing (s : State) (d : IngressDesc) (f : Framed) (va : Nat) : (afterRing s d f va).ingress = s.ingress := by
  unfold afterRing
  split <;> rfl

theorem memoryOnly_lostWrite (s : State) (g : Agent) (slot : Nat) (bs : List Byte) : MemoryOnly s (lostWrite s g slot bs) := by
  refine MemoryOnly.trans (t := { s with fresh := s.fresh + 41 + bs.length }) rfl (memoryOnly_foldl (fun t p => ?_) _ _)
  split
  · rfl
  · exact memoryOnly_agentPut ..

/-- A frame of a ring, written or dropped, leaves the ingress queues, but that its own has no more loss to come (R395, R396). -/
theorem ingress_ringFrame (h : ringFrame s d f = some u) : u.ingress = s.ingress ∨ u.ingress = (lossTaken s f.queue).ingress := by
  unfold ringFrame at h
  dsimp only at h
  split at h
  · cases h
  · cases h
    exact .inl rfl
  · split at h
    · cases h
      exact .inl rfl
    · split at h
      · cases h
      · cases h
        exact .inl rfl
      · split at h
        · cases h
          exact .inr ((memoryOnly_lostWrite ..).field State.ingress)
        · cases h
          exact .inl ((ingress_afterRing ..).trans ((memoryOnly_agentPut ..).field State.ingress))

theorem ingress_writeFrame (h : writeFrame s d f = some u) : u.ingress = s.ingress ∨ u.ingress = (lossTaken s f.queue).ingress := by
  unfold writeFrame at h
  split at h
  · exact ingress_ringFrame h
  · cases h
    exact .inl rfl

/-- A frame that is written leaves the other queues (R395, R396). -/
theorem getIngress_writeFrame_ne (h : writeFrame s d f = some u) {o : Nat} (ho : o ≠ f.queue) : getIngress u o = getIngress s o := by
  rcases ingress_writeFrame h with hu | hu
  · exact getIngress_congr hu o
  · exact (getIngress_congr hu o).trans (getIngress_setIngress_ne _ _ ho)

/-- A frame that is written leaves its queue's next number (R395, R396). -/
theorem seq_writeFrame (h : writeFrame s d f = some u) : (getIngress u f.queue).seq = (getIngress s f.queue).seq := by
  rcases ingress_writeFrame h with hu | hu
  · rw [getIngress_congr hu]
  · rw [getIngress_congr hu, getIngress_setIngress_self]

end

/-! ### Frames classified (R392) -/

/-- The state in which a frame of a queue has taken the queue's next number (R395). -/
def numbered (s : State) (q : Nat) : State := setIngress s q { getIngress s q with seq := (getIngress s q).seq + 1 }

/-- A frame with its entry, its queue and the queue's next number (R392, R395). -/
def framed (s : State) (port : Nat) (ts : BitVec 80) (bytes : List Byte) (i q : Nat) : Framed :=
  { port := port, ts := ts, bytes := bytes, entry := i, queue := q, seq := (getIngress s q).seq.toNat }

section
variable {s : State} {port : Nat} {ts : BitVec 80} {bytes : List Byte}

/-- A frame is classified where the front end is up, classifies itself, and the frame does not wait already (R392, R399). -/
theorem execFrameReceive_passes (hfail : frontFailed s = false) (hheld : functionHeld s 3 = false)
    (hwait : frameWaiting s port ts bytes = none) :
    execFrameReceive port true ts bytes s = .next (passFrame s port ts bytes) := by
  unfold execFrameReceive
  simp [hwait, hfail, hheld, done]

theorem passFrame_of_classify_none (h : classify s port bytes = none) : passFrame s port ts bytes = count s (.portDrops port) 1 := by
  unfold passFrame
  rw [h]

section
variable {i q : Nat} (h : classify s port bytes = some (i, q))
include h

theorem passFrame_of_desc_none (hd : (getIngress s q).desc = none) : passFrame s port ts bytes = count s (.portDrops port) 1 := by
  unfold passFrame
  simp only [h, hd]

section
variable {d : IngressDesc} (hd : (getIngress s q).desc = some d)
include hd

/-- A frame of a configured queue takes its number and is written, or waits behind the frames of the queue that wait, or for a held page
of its ring (R395). -/
theorem passFrame_of_desc :
    passFrame s port ts bytes =
      if (getIngress s q).waits ≠ [] then setWaits (numbered s q) q ((getIngress s q).waits ++ [framed s port ts bytes i q])
      else (writeFrame (numbered s q) d (framed s port ts bytes i q)).getD
        (push (setWaits (numbered s q) q [framed s port ts bytes i q]) (.frameReceive port true ts bytes)) := by
  unfold passFrame
  rw [h]
  dsimp only
  split
  · next hn => cases hd.symm.trans hn
  · next e he =>
    obtain rfl := Option.some.inj (hd.symm.trans he)
    unfold numbered framed
    by_cases hw : (getIngress s q).waits = []
    · rw [if_neg (by simp [hw]), if_neg (by simp [hw])]
      split <;> next hu => rw [hu]; rfl
    · rw [if_pos (by simpa using hw), if_pos hw]

theorem passFrame_behind (hw : (getIngress s q).waits ≠ []) :
    passFrame s port ts bytes = setWaits (numbered s q) q ((getIngress s q).waits ++ [framed s port ts bytes i q]) := by
  rw [passFrame_of_desc h hd, if_pos hw]

theorem passFrame_written {u : State} (hw : (getIngress s q).waits = [])
    (hu : writeFrame (numbered s q) d (framed s port ts bytes i q) = some u) : passFrame s port ts bytes = u := by
  rw [passFrame_of_desc h hd, if_neg (not_not.2 hw), hu, Option.getD_some]

theorem passFrame_held (hw : (getIngress s q).waits = [])
    (hu : writeFrame (numbered s q) d (framed s port ts bytes i q) = none) :
    passFrame s port ts bytes =
      push (setWaits (numbered s q) q [framed s port ts bytes i q]) (.frameReceive port true ts bytes) := by
  rw [passFrame_of_desc h hd, if_neg (not_not.2 hw), hu, Option.getD_none]

end

end

theorem getIngress_numbered_self (s : State) (q : Nat) :
    getIngress (numbered s q) q = { getIngress s q with seq := (getIngress s q).seq + 1 } :=
  getIngress_setIngress_self ..

theorem getIngress_setWaits_self (s : State) (q : Nat) (fs : List Framed) :
    getIngress (setWaits s q fs) q = { getIngress s q with waits := fs } :=
  getIngress_setIngress_self ..

/-- A classified frame takes its queue's next number, and the other queues stay as they are (R392, R395). -/
theorem getIngress_passFrame {i q : Nat} {d : IngressDesc} (h : classify s port bytes = some (i, q)) (hd : (getIngress s q).desc = some d) :
    (getIngress (passFrame s port ts bytes) q).seq = (getIngress s q).seq + 1 ∧
      ∀ o, o ≠ q → getIngress (passFrame s port ts bytes) o = getIngress s o := by
  have hwaits (fs : List Framed) : (getIngress (setWaits (numbered s q) q fs) q).seq = (getIngress s q).seq + 1 ∧
      ∀ o, o ≠ q → getIngress (setWaits (numbered s q) q fs) o = getIngress s o := by
    refine ⟨?_, fun o ho => (getIngress_setIngress_ne _ _ ho).trans (getIngress_setIngress_ne _ _ ho)⟩
    rw [getIngress_setWaits_self, getIngress_numbered_self]
  by_cases hw : (getIngress s q).waits = []
  · cases hu : writeFrame (numbered s q) d (framed s port ts bytes i q) with
    | none =>
      rw [passFrame_held h hd hw hu]
      exact hwaits _
    | some u =>
      rw [passFrame_written h hd hw hu]
      exact ⟨(seq_writeFrame hu).trans (congrArg IngressQueue.seq (getIngress_numbered_self s q)),
        fun o ho => (getIngress_writeFrame_ne hu ho).trans (getIngress_setIngress_ne _ _ ho)⟩
  · rw [passFrame_behind h hd hw]
    exact hwaits _

end

/-- Settles O44: the classifier takes the first entry that matches, and the frame its queue's next number. -/
theorem classifier : Obligations.Classifier := by
  unfold Obligations.Classifier
  intro s port ts bytes hfail hheld hwait hits
  have hpasses := execFrameReceive_passes (ts := ts) hfail hheld hwait
  refine ⟨fun hnone => ?_, fun i e hi he hm hfirst => ?_⟩
  · exact hpasses.trans (congrArg _ (passFrame_of_classify_none (classify_eq_none hnone)))
  · have hclass := classify_eq_some hi he hm hfirst
    refine ⟨?_, hclass, fun d hd => ⟨_, hpasses, getIngress_passFrame hclass hd⟩⟩
    unfold classMatches at hm
    simp only [Bool.and_eq_true] at hm
    exact hm.1.1.1.1

end Sys2Proof.Machine
end

section
/-! Frames received (R391, R395, R396, R399) and the writes of hosts (R337). -/

namespace Sys2Proof.Machine

/-! ### Frames that are dropped, wait, or are held (R391, R396, R399) -/

section
variable {s : State} {port : Nat} {ts : BitVec 80} {bytes : List Byte}

/-- A frame with a bad check sequence is dropped and counted at its port (R391). -/
theorem execFrameReceive_bad : execFrameReceive port false ts bytes s = .next (count s (.portDrops port) 1) := by
  unfold execFrameReceive
  simp [done]

/-- A frame that a failed front end receives is dropped and counted at its port (R572). -/
theorem execFrameReceive_failed {fcsOk : Bool} (hfail : frontFailed s = true) (hwait : frameWaiting s port ts bytes = none) :
    execFrameReceive port fcsOk ts bytes s = .next (count s (.portDrops port) 1) := by
  unfold execFrameReceive
  simp [hwait, hfail, done]

/-- A frame that waits is tried again (R395). -/
theorem execFrameReceive_again {f : Framed} (hfail : frontFailed s = false) (hheld : functionHeld s 3 = false)
    (hwait : frameWaiting s port ts bytes = some f) : execFrameReceive port true ts bytes s = .next (tryFrame s f) := by
  unfold execFrameReceive
  simp [hwait, hfail, hheld, done]

/-- While the host classifies and its firmware is in reset, frames wait at their port, as far as it holds them (R399). -/
theorem execFrameReceive_held (hfail : frontFailed s = false) (hheld : functionHeld s 3 = true)
    (hwait : frameWaiting s port ts bytes = none) :
    execFrameReceive port true ts bytes s =
      .next (if portBuffer < portHeld s port + bytes.length then count s (.portDrops port) 1
        else { s with portFrames := s.portFrames ++ [{ port := port, ts := ts, bytes := bytes }] }) := by
  unfold execFrameReceive
  simp only [hwait, hfail, hheld, Bool.not_true, Bool.false_or, Bool.false_eq_true, if_false, if_true]
  split <;> rfl

end

section
variable {s u : State} {d : IngressDesc} {f : Framed} (hd : (getIngress s f.queue).desc = some d)
include hd

theorem tryFrame_held (hw : writeFrame s d f = none) : tryFrame s f = push s (frameAgain f) := by
  unfold tryFrame
  simp only [hd, hw]

/-- The first frame of a queue that waits, once written, leaves the queue's others waiting; the next comes at once (R395). -/
theorem tryFrame_written (hw : writeFrame s d f = some u) :
    tryFrame s f = pushAll (setWaits u f.queue (getIngress s f.queue).waits.tail)
      ((getIngress s f.queue).waits.tail.head?.map frameAgain).toList := by
  unfold tryFrame
  simp only [hd, hw]

end

/-! ### Frames of rings (R395, R396) -/

section
variable {s : State} {d : IngressDesc} {f : Framed} {cons : List Byte}

theorem writeFrame_tuple (hm : d.mode = .tuple) : writeFrame s d f = some (tupleFrame s d f) := by
  unfold writeFrame
  rw [hm]

theorem writeFrame_ring (hm : d.mode = .ring) : writeFrame s d f = ringFrame s d f := by
  unfold writeFrame
  rw [hm]

theorem ringFrame_of_wait (hr : agentRead s (ingressAgent d) (virtWord d.cons) 8 = .wait) : ringFrame s d f = none := by
  unfold ringFrame
  simp only [hr]

/-- A frame that its ring has no room for, or no slot of its size, is dropped and counted at its queue (R395, R396). -/
theorem ringFrame_drop (hr : agentRead s (ingressAgent d) (virtWord d.cons) 8 = .ok cons)
    (hfull : leNat cons + 2 ^ d.logn ≤ f.seq ∨ d.slotBytes - 64 < f.bytes.length) :
    ringFrame s d f = some (count s (.queueDrops f.queue) 1) := by
  unfold ringFrame
  simp only [hr, if_pos hfull]
  rfl

/-- A frame of a ring with room stands in its slot behind its descriptor (R395). -/
theorem ringFrame_put {ok : List Byte} (hr : agentRead s (ingressAgent d) (virtWord d.cons) 8 = .ok cons)
    (hroom : ¬ (leNat cons + 2 ^ d.logn ≤ f.seq ∨ d.slotBytes - 64 < f.bytes.length)) (hurg : d.urgent = none)
    (hc : agentCheck s (ingressAgent d) (virtWord (slotOf d f)) (64 + f.bytes.length) = .ok ok)
    (hl : (getIngress s f.queue).lossy = false) :
    ringFrame s d f =
      some { agentPut s (ingressAgent d) (virtWord (slotOf d f)) (slotBytesOf s f ++ f.bytes) with
        fresh := (agentPut s (ingressAgent d) (virtWord (slotOf d f)) (slotBytesOf s f ++ f.bytes)).fresh + 41 } := by
  unfold slotOf at hc
  unfold ringFrame
  simp only [hr, if_neg hroom, hc, hl, Bool.false_eq_true, if_false, afterRing, hurg]

end

/-! ### The descriptor of a slot (R395) -/

section
variable (s : State) (f : Framed)

theorem length_slotBytesOf : (slotBytesOf s f).length = 64 := by simp [slotBytesOf, length_leBytes]

/-- The time stamp stands first. -/
theorem slotBytesOf_ts : (slotBytesOf s f).take 10 = leBytes 10 f.ts.toNat := by
  simp only [slotBytesOf, List.append_assoc]
  exact List.take_left' (length_leBytes ..)

/-- The length stands in bytes 12 and 13. -/
theorem slotBytesOf_len : ((slotBytesOf s f).drop 12).take 2 = leBytes 2 f.bytes.length := by
  have h12 : (leBytes 10 f.ts.toNat ++ [freeByte s.fresh, freeByte (s.fresh + 1)]).length = 12 := by simp [length_leBytes]
  simp only [slotBytesOf, List.append_assoc]
  rw [← List.append_assoc, List.drop_left' h12]
  exact List.take_left' (length_leBytes ..)

/-- The sequence number stands last. -/
theorem slotBytesOf_seq : (slotBytesOf s f).drop 56 = leBytes 8 f.seq := by
  unfold slotBytesOf
  exact List.drop_left' (by simp [length_leBytes])

end

/-! ### Writes of hosts (R337) -/

section
variable {s : State} {conn ctx : Nat} {va : Word} {bytes : List Byte}

/-- A write that its page does not permit has no effect in the module (log 18). -/
theorem hostWrite_refused {k : Nat} {w : Word}
    (h : virtRange va bytes.length = false ∨ agentCheck s (unitAgent none ctx false) va bytes.length = .fail k w) :
    hostWrite s ctx va bytes = some s := by
  unfold hostWrite
  rcases h with h | h
  · simp [h]
  · cases hv : virtRange va bytes.length <;> simp [h]

theorem hostWrite_permitted {ok : List Byte} (hv : virtRange va bytes.length = true)
    (h : agentCheck s (unitAgent none ctx false) va bytes.length = .ok ok) :
    hostWrite s ctx va bytes = some (agentPut s (unitAgent none ctx false) va bytes) := by
  unfold hostWrite
  simp [hv, h]

/-- A write behind another item of its connection waits (R337). -/
theorem execHostRdmaWrite_behind {i : HostItem} (hi : s.hostWaits.find? (fun i => itemConn i == conn) = some i)
    (hne : i ≠ .write conn ctx va bytes ∨ s.agenda.contains (.hostRdmaWrite conn ctx va bytes) = true) :
    execHostRdmaWrite conn ctx va bytes s = .next { s with hostWaits := s.hostWaits ++ [.write conn ctx va bytes] } := by
  unfold execHostRdmaWrite
  simp only [hi, if_pos hne, done]

theorem execHostRdmaWrite_first {t : State} (hi : s.hostWaits.find? (fun i => itemConn i == conn) = none)
    (hw : hostWrite s ctx va bytes = some t) : execHostRdmaWrite conn ctx va bytes s = .next t := by
  unfold execHostRdmaWrite
  simp only [hi, hw, done]

/-- The write that waits alone, tried again, is performed, and nothing of its connection waits behind it (R337). -/
theorem execHostRdmaWrite_alone {t : State} (hi : s.hostWaits = [.write conn ctx va bytes])
    (hag : Event.hostRdmaWrite conn ctx va bytes ∉ s.agenda) (hw : hostWrite s ctx va bytes = some t) (ht : t.hostWaits = s.hostWaits) :
    execHostRdmaWrite conn ctx va bytes s = .next { t with hostWaits := [] } := by
  unfold execHostRdmaWrite
  have hfind : s.hostWaits.find? (fun i => itemConn i == conn) = some (.write conn ctx va bytes) := by
    simp [hi, itemConn]
  have herase : t.hostWaits.erase (.write conn ctx va bytes) = [] := by simp [ht, hi]
  simp only [hfind, List.contains_iff_mem, hag, ne_eq, not_true_eq_false, or_self, if_false, hw, herase, done]
  rfl

end

/-! ### The obligation -/

section
variable {s : State} {port : Nat} {ts : BitVec 80} {bytes : List Byte}

/-- What a frame that waits leaves, tried again (R395). -/
theorem receives_waiting {f : Framed} {d : IngressDesc} {u : State} (hd : (getIngress s f.queue).desc = some d)
    (hu : writeFrame s d f = some u) :
    (getIngress (tryFrame s f) f.queue).waits = (getIngress s f.queue).waits.tail ∧ (tryFrame s f).lines = u.lines ∧
      (tryFrame s f).keyReqs = u.keyReqs := by
  rw [tryFrame_written hd hu]
  exact ⟨congrArg IngressQueue.waits (getIngress_setWaits_self ..), rfl, rfl⟩

/-- A frame of a ring that is dropped, or written into its slot (R395, R396). -/
theorem passFrame_ring {i q : Nat} {d : IngressDesc} (h : classify s port bytes = some (i, q)) (hd : (getIngress s q).desc = some d)
    (hm : d.mode = .ring) (hw : (getIngress s q).waits = []) {u : State}
    (hu : ringFrame (numbered s q) d (framed s port ts bytes i q) = some u) : passFrame s port ts bytes = u :=
  passFrame_written h hd hw ((writeFrame_ring hm).trans hu)

end

/-- Settles O45: what becomes of a frame by the check sequence, the front end, the classifier and its queue's ring, and of a host's write
by its connection and its page. -/
theorem framesAndHosts : Obligations.FramesAndHosts := by
  unfold Obligations.FramesAndHosts
  intro s port conn ctx fcsOk ts bytes va received
  refine ⟨?_, ?_, ?_, fun i hi hne => execHostRdmaWrite_behind hi (.inl hne), fun hnone => ?_, fun hi hag => ?_, fun ok hi hag hv hc => ?_⟩
  · rintro (rfl | ⟨hfail, hwait⟩)
    · exact execFrameReceive_bad (ts := ts) (bytes := bytes)
    · exact execFrameReceive_failed hfail hwait
  · rintro f rfl hfail hheld hwait d hd
    have hagain := execFrameReceive_again hfail hheld hwait
    exact ⟨fun hu => hagain.trans (congrArg _ (tryFrame_held hd hu)), fun u hu => ⟨_, hagain, receives_waiting hd hu⟩⟩
  · rintro rfl hfail hwait
    refine ⟨fun hheld hlen => ⟨_, (execFrameReceive_held hfail hheld hwait).trans (congrArg _ (if_neg hlen.not_gt)), rfl,
        ⟨fun _ => rfl, fun _ => rfl⟩, rfl⟩,
      fun hheld hlen => (execFrameReceive_held hfail hheld hwait).trans (congrArg _ (if_pos hlen)), fun hheld => ?_⟩
    have hpasses := execFrameReceive_passes (ts := ts) hfail hheld hwait
    refine ⟨fun hc => hpasses.trans (congrArg _ (passFrame_of_classify_none hc)), fun i q hc =>
      ⟨fun hd => hpasses.trans (congrArg _ (passFrame_of_desc_none hc hd)), fun d hd => ?_⟩⟩
    have hnum := getIngress_numbered_self s q
    refine ⟨fun hw => ⟨_, hpasses.trans (congrArg _ (passFrame_behind hc hd hw)), ?_, rfl, fun _ => rfl, fun _ => rfl⟩,
      fun hm hw => hpasses.trans (congrArg _ (passFrame_written hc hd hw (writeFrame_tuple hm))),
      fun hm hw hr => ⟨_, hpasses.trans (congrArg _ (passFrame_held hc hd hw ((writeFrame_ring hm).trans (ringFrame_of_wait hr)))),
        ?_, rfl, fun _ => rfl, fun _ => rfl⟩,
      fun cons ok hm hw hl hr => ⟨fun hfull => ?_, fun hlen h64 => ?_, fun hroom hlen hurg hok => ?_⟩⟩
    · rw [getIngress_setWaits_self, hnum]
      rfl
    · exact (getIngress_setWaits_self ..).trans (by rw [hnum]; rfl)
    · exact hpasses.trans (congrArg _ (passFrame_ring hc hd hm hw (ringFrame_drop hr (.inl hfull))))
    · exact hpasses.trans (congrArg _ (passFrame_ring hc hd hm hw (ringFrame_drop hr (.inr (by simp only [framed]; omega)))))
    · have hput := ringFrame_put (f := framed s port ts bytes i q) hr (fun h => h.elim hroom.not_ge (by simp only [framed]; omega)) hurg hok
        ((congrArg IngressQueue.lossy hnum).trans hl)
      refine ⟨_, hpasses.trans (congrArg _ (passFrame_ring hc hd hm hw hput)), ?_, rfl, rfl, length_slotBytesOf .., slotBytesOf_ts ..,
        slotBytesOf_len .., slotBytesOf_seq ..⟩
      exact (getIngress_congr ((memoryOnly_agentPut ..).field State.ingress) q).trans hnum
  · have hfind : s.hostWaits.find? (fun i => itemConn i == conn) = none := List.find?_eq_none.2 fun i hi => by simpa using hnone i hi
    exact ⟨fun hv => execHostRdmaWrite_first hfind (hostWrite_refused (k := 0) (w := 0) (.inl hv)), fun hv =>
      ⟨fun k w hc => execHostRdmaWrite_first hfind (hostWrite_refused (.inr hc)),
        fun ok hc => execHostRdmaWrite_first hfind (hostWrite_permitted hv hc)⟩⟩
  · exact execHostRdmaWrite_behind (i := .write conn ctx va bytes) (by simp [hi, itemConn]) (.inr (List.contains_iff_mem.2 hag))
  · exact execHostRdmaWrite_alone hi hag (hostWrite_permitted hv hc) ((memoryOnly_agentPut ..).field State.hostWaits)

end Sys2Proof.Machine
end

section
/-! Barrier objects: BARM, BARA and BARW on an object of the core's own scratchpad (R246, R522-R524, R527-R529). -/

namespace Sys2Proof.Machine

/-! ### Statuses at issue (R157) -/

theorem getReg_setStatus_self {x : Ctx} {d : BitVec 5} (h : d ≠ 0) (v : Word) :
    getReg (setStatus x d v) d = { val := v, poison := none, mark := .clear } := by
  rw [setStatus, if_neg h, getReg_latchEvt, getReg_setReg_self v h]

theorem getReg_setStatus_ne (x : Ctx) {d q : BitVec 5} (v : Word) (h : q ≠ d) : getReg (setStatus x d v) q = getReg x q := by
  unfold setStatus
  split
  · rfl
  · rw [getReg_latchEvt, getReg_setReg_ne x v h]

section
variable (s : State) (c : Nat) (d : BitVec 5) (code v : Nat)

theorem getCtx_putBar : getCtx (putBar s c d code v) c = setStatus (getCtx s c) d (barStatus code v) := getCtx_modCtx_self ..

theorem spad_putBar (c' : Nat) : (getCore (putBar s c d code v) c').spad = (getCore s c').spad :=
  getCore_modCtx_field s c c' (g := Core.spad) fun _ _ => rfl

theorem getCore_putBar_ne {c' : Nat} (h : c' ≠ c) : getCore (putBar s c d code v) c' = getCore s c' := getCore_modCore_ne s _ h

theorem readBar_putBar (c' off : Nat) : readBar (putBar s c d code v) c' off = readBar s c' off :=
  readBar_congr fun x _ _ => by rw [spad_putBar]

end

/-! ### BARM and BARA (R527, R528) -/

/-- An instruction that gives a barrier object a value and its register a word: nothing else but the wake events changes. -/
def GivesBar (s : State) (i : Instr) (d : BitVec 5) (off : Nat) (p : BarObj) (w : Word) : Prop :=
  ∃ t : State, exec i s = .next t ∧ readBar t s.focus off = p ∧ (cur t).pc = (cur s).pc + 4 ∧
    (d ≠ 0 → getReg (cur t) d = { val := w, poison := none, mark := .clear }) ∧ (∀ q ≠ d, getReg (cur t) q = getReg (cur s) q) ∧
    (∀ p, p < off ∨ off + 16 ≤ p → memGet (getCore t s.focus).spad p = memGet (getCore s s.focus).spad p) ∧
    ∀ c' ≠ s.focus, getCore t c' = getCore s c'

section
variable {s : State} {d a b : BitVec 5} {off : Nat}

/-- A status word for a register, after a change of at most the object in the core's scratchpad. -/
theorem givesBar_of_putBar {i : Instr} {u : State} {code v : Nat} (h : exec i s = .next (putBar u s.focus d code v))
    (hfocus : u.focus = s.focus) (hctx : getCtx u s.focus = passUnit (cur s)) (hne : ∀ c ≠ s.focus, getCore u c = getCore s c)
    (hspad : ∀ p, p < off ∨ off + 16 ≤ p → memGet (getCore u s.focus).spad p = memGet (getCore s s.focus).spad p) :
    GivesBar s i d off (readBar u s.focus off) (barStatus code v) := by
  have hcur : cur (putBar u s.focus d code v) = setStatus (passUnit (cur s)) d (barStatus code v) := by
    have hf : (putBar u s.focus d code v).focus = s.focus := hfocus
    rw [cur, hf, getCtx_putBar, hctx]
  refine ⟨_, h, readBar_putBar .., ?_, fun hd => ?_, fun q hq => ?_, fun p hp => ?_, fun c hc => ?_⟩
  · rw [hcur, setStatus_pc]
    rfl
  · rw [hcur, getReg_setStatus_self hd]
  · rw [hcur, getReg_setStatus_ne _ _ hq, getReg_passUnit]
  · rw [spad_putBar, hspad p hp]
  · rw [getCore_putBar_ne _ _ _ _ _ hc, hne c hc]

theorem givesBar_past {i : Instr} {code v : Nat} (h : exec i s = .next (putBar (pastUnit s) s.focus d code v)) :
    GivesBar s i d off (readBar s s.focus off) (barStatus code v) := by
  have hspad : (getCore (pastUnit s) s.focus).spad = (getCore s s.focus).spad := by rw [getCore_setCtx_self]
  have hgives := givesBar_of_putBar (off := off) h rfl (getCtx_setCtx_self ..) (fun c hc => getCore_setCtx_ne _ _ _ _ hc)
    fun p _ => by rw [hspad]
  rwa [readBar_congr (s := s) fun x _ _ => by rw [hspad]] at hgives

theorem givesBar_write {i : Instr} {o : BarObj} {code v : Nat} (he : o.expect < 2 ^ 48) (hc : o.count < 2 ^ 64)
    (h : exec i s = .next (putBar (writeBar (pastUnit s) s.focus off o) s.focus d code v)) :
    GivesBar s i d off o (barStatus code v) := by
  have hgives := givesBar_of_putBar (off := off) h rfl ((getCtx_spadWrite_self ..).trans (getCtx_setCtx_self ..))
    (fun c hc => (getCore_modCore_ne _ _ hc).trans (getCore_setCtx_ne _ _ _ _ hc)) fun p hp => ?_
  · rwa [readBar_writeBar he hc] at hgives
  · rw [writeBar, spad_spadWrite, memGet_memWrite_of_outside _ _ _ _ (by simpa [length_leBytes] using hp), getCore_setCtx_self]

theorem count_readBar_lt (s : State) (c off : Nat) : (readBar s c off).count < 2 ^ 64 :=
  (leNat_lt _).trans_le (by rw [spadRead, length_memRead])

theorem expect_readBar_lt (s : State) (c off : Nat) : (readBar s c off).expect < 2 ^ 48 := Nat.mod_lt _ (Nat.two_pow_pos 48)

theorem readBar_pastUnit (s : State) (off : Nat) : readBar (pastUnit s) s.focus off = readBar s s.focus off :=
  readBar_congr fun _ _ _ => by rw [getCore_setCtx_self]

/-- A barrier object of the own scratchpad at which nothing holds a unit back (R296, R325, R524). -/
structure BarFree (s : State) (addr : Word) (off : Nat) : Prop where
  aligned : addr.toNat % 16 = 0
  place : localOff s.focus addr 16 = some off
  pending : barPending (pastUnit s) s.focus addr = false
  released : relNow (pastUnit s) s.focus = true
  idle : localBusy (pastUnit s) s.focus off 16 true = false

theorem BarFree.spad {addr : Word} (h : BarFree s addr off) : placeOf s.focus addr = .spad off ∧ off + 16 ≤ spadSize := by
  have hplace := h.place
  unfold localOff at hplace
  split at hplace
  · next o ho =>
    split at hplace
    · next hle =>
      obtain rfl := Option.some.inj hplace
      exact ⟨ho, hle⟩
    · cases hplace
  · cases hplace

/-- BARM arms an object, or finds it busy (R527). -/
theorem issue_barmBody_arms (hgo : Goes (cur s) (needs [a, b] [d])) (hfree : BarFree s (regVal (cur s) a) off)
    (hv : (regVal (cur s) b).toNat < 2 ^ 63) :
    issue s (plainSpec [a, b] [d]) (barmBody d a b) =
      .next (armObject (pastUnit s) s.focus d off ((regVal (cur s) b).toNat % 2 ^ 48)) := by
  obtain ⟨hal, hplace, hpend, hrel, hidle⟩ := hfree
  refine issue_some hgo ?_
  have h3 : ¬ (regVal (cur s) b).toNat / 2 ^ 62 = 3 := by omega
  have h2 : ¬ (regVal (cur s) b).toNat / 2 ^ 62 = 2 := by omega
  unfold barmBody
  simp only [issuedOf_core, getCtx_setCtx_self, regVal_passUnit, if_neg h3, if_neg h2, hal, hpend, hrel, hplace, hidle]
  rfl

theorem armObject_busy {t : State} {c expect : Nat} (ha : (readBar t c off).armed = true)
    (hlt : (readBar t c off).count < (readBar t c off).expect) : armObject t c d off expect = putBar t c d 4 0 := if_pos ⟨ha, hlt⟩

theorem armObject_arms {t : State} {c expect : Nat} {o : BarObj} (ho : readBar t c off = o)
    (h : o.armed = true → o.expect ≤ o.count) :
    armObject t c d off expect =
      putBar (writeBar t c off { armed := true, expect := expect, count := if o.armed then o.count - o.expect else o.count }) c d 0
        (if o.armed then o.count - o.expect else o.count) := by
  subst ho
  exact if_neg fun hbusy => absurd (h hbusy.1) (Nat.not_le.2 hbusy.2)

/-- BARM on an object: what it finds busy stands, and any other is armed with what its count exceeds the old expectation (R527). -/
theorem barm_gives {i : Instr} (hi : exec i s = issue s (plainSpec [a, b] [d]) (barmBody d a b))
    (hgo : Goes (cur s) (needs [a, b] [d])) (hfree : BarFree s (regVal (cur s) a) off) (hv : (regVal (cur s) b).toNat < 2 ^ 63)
    {o : BarObj} {n : Nat} (ho : readBar s s.focus off = o) (hn : (if o.armed then o.count - o.expect else o.count) = n) :
    (o.armed = true → o.count < o.expect → GivesBar s i d off o (barStatus 4 0)) ∧
      ((o.armed = true → o.expect ≤ o.count) →
        GivesBar s i d off { armed := true, expect := (regVal (cur s) b).toNat % 2 ^ 48, count := n } (barStatus 0 n)) := by
  have hexec := hi.trans (issue_barmBody_arms hgo hfree hv)
  have hread := (readBar_pastUnit s off).trans ho
  refine ⟨fun ha hlt => ?_, fun harm => ?_⟩
  · rw [armObject_busy (by rwa [hread]) (by rwa [hread])] at hexec
    exact ho ▸ givesBar_past hexec
  · rw [armObject_arms hread harm, hn] at hexec
    refine givesBar_write (Nat.mod_lt _ (Nat.two_pow_pos 48)) (?_ : n < 2 ^ 64) hexec
    have hcount := ho ▸ count_readBar_lt s s.focus off
    split at hn <;> omega

/-- BARA counts into an object of the own scratchpad, saturating (R528). -/
theorem bara_gives (hgo : Goes (cur s) (needs [a, b] [d])) (hfree : BarFree s (regVal (cur s) a) off) {o : BarObj}
    (ho : readBar s s.focus off = o) :
    GivesBar s (.bara d a b) d off { o with count := min (o.count + (regVal (cur s) b).toNat % 2 ^ 48) (2 ^ 64 - 1) }
      (barStatus 0 0) := by
  obtain ⟨hspad, hle⟩ := hfree.spad
  obtain ⟨hal, -, hpend, hrel, hidle⟩ := hfree
  have hstores : holdsStores (cur s) = false := by
    simp only [relNow, getCtx_setCtx_self, holdsStores_passUnit, Bool.and_eq_true, Bool.not_eq_true'] at hrel
    exact hrel.1
  have hin : ¬ spadSize ≤ off := by omega
  have hread := (readBar_pastUnit s off).trans ho
  subst ho
  have hexec : exec (.bara d a b) s =
      .next (putBar (barAdd (pastUnit s) s.focus off ((regVal (cur s) b).toNat % 2 ^ 48)) s.focus d 0 0) := by
    show execBara d a b s = _
    unfold execBara
    refine issue_some hgo ?_
    simp only [issuedOf_core, getCtx_setCtx_self, regVal_passUnit, hal, hpend, holdsStores_passUnit, hstores, hspad, if_neg hin, hidle,
      hrel]
    rfl
  rw [barAdd, hread] at hexec
  refine givesBar_write (expect_readBar_lt ..) ?_ hexec
  have := Nat.min_le_right ((readBar s s.focus off).count + (regVal (cur s) b).toNat % 2 ^ 48) (2 ^ 64 - 1)
  exact Nat.lt_of_le_of_lt this (by decide)

end

/-! ### BARW (R529) -/

theorem waited_noteWait (s : State) (c : Nat) (p : WaitPlace) : p ∈ (getCore (noteWait s c [p]) c).waited := by
  rw [noteWait, getCore_modCore_self, List.mem_append, List.mem_filter]
  by_cases h : p ∈ (getCore s c).waited
  · exact .inl h
  · exact .inr ⟨List.mem_singleton_self p, by simpa using h⟩

theorem spad_noteWait (s : State) (c : Nat) (ps : List WaitPlace) : (getCore (noteWait s c ps) c).spad = (getCore s c).spad := by
  rw [noteWait, getCore_modCore_self]

theorem getCtx_noteWait (s : State) (c : Nat) (ps : List WaitPlace) : getCtx (noteWait s c ps) c = getCtx s c := by
  rw [noteWait, getCtx, getCore_modCore_self]
  rfl

theorem push_noteWait (t : State) (c : Nat) (ps : List WaitPlace) (e : Event) :
    push (noteWait t c ps) e = noteWait (pushAll t [e]) c ps := rfl

theorem exec_barw {s : State} {d a : BitVec 5} {off : Nat} (hgo : Goes (cur s) (needs [a] [d]))
    (hal : (regVal (cur s) a).toNat % 16 = 0) (hplace : localOff s.focus (regVal (cur s) a) 16 = some off)
    (hpend : barPending s s.focus (regVal (cur s) a) = false) (hloads : holdsLoads (cur s) = false)
    (hidle : localBusy (pastUnit s) s.focus off 16 false = false) :
    exec (.barw d a) s =
      .next (noteWait (opStarted s (passUnit (cur s)) d 0 (.barw off) [.barwComplete s.nextId]) s.focus
        [((1 + s.focus, off), 16)]) := by
  have hpend' : barPending (pastUnit s) s.focus (regVal (cur s) a) = false := by
    rw [← hpend]
    unfold barPending
    rw [getCtx_setCtx_self]
    rfl
  show execBarw d a s = _
  unfold execBarw
  refine issue_some hgo ?_
  simp only [issuedOf_core, issuedOf_upc, getCtx_setCtx_self, regVal_passUnit, hal, hpend', holdsLoads_passUnit, hloads, hplace, hidle]
  rw [← startHeld_withCur (y := passUnit (cur s)) rfl rfl, ← push_noteWait]
  rfl

/-! ### BARW_COMPLETE (R524, R529) -/

section
variable {s : State} {o : Op} (hrun : runsSerial (getCtx s o.core) o.serial = true)
include hrun

theorem standsOn_of_runsSerial : standsOn s o.core o.serial = true := by
  have hctx : runsSerial (getCore s o.core).ctx o.serial = true := hrun
  rw [standsOn, coreUpdAct, if_pos hctx]
  rfl

/-- A wait ends: its register holds the value, and event bit 2 is latched (R246, R529). -/
theorem endWait_ends (hm : (getReg (getCtx s o.core) o.reg).mark = .op o.id) (hreg : o.reg ≠ 0) (v : Word) :
    findOp (endWait s o v) o.id = none ∧
      getReg (getCtx (endWait s o v) o.core) o.reg = { val := v, poison := none, mark := .clear } ∧
      (getCtx (endWait s o v) o.core).sys.evt.getLsbD 2 = true ∧
      (getCore (endWait s o v) o.core).spad = (getCore s o.core).spad := by
  have hctx : getCtx (endWait s o v) o.core =
      latchEvt (latchEvt (settleMark (getCtx s o.core) (.op o.id) o.reg { val := v, poison := none, mark := .clear }) 2) 4 := by
    rw [endWait, updAct_live _ _ _ _ hrun, getCtx_dropOp, getCtx_modCtx_self, deliver_marked _ _ _ _ hm]
  refine ⟨findOp_dropOp_self .., ?_, ?_, ?_⟩
  · rw [hctx, getReg_latchEvt, getReg_latchEvt, getReg_settleMark_self hreg hm]
  · simp [hctx, latchEvt]
  · exact getCore_updAct_field (g := Core.spad) (fun _ _ => rfl) (fun _ _ => rfl) s o.core o.serial _ o.core

end

/-- Settles O26. -/
theorem barriers : Obligations.Barriers := by
  refine ⟨?_, fun s => ⟨?_, ?_⟩⟩
  · intro s d a b off x c u addr v o n gives hgo hal hplace hpend hrel hidle
    have hfree : BarFree s (regVal (cur s) a) off := ⟨hal, hplace, hpend, hrel, hidle⟩
    refine ⟨fun i hi hv => barm_gives ?_ hgo hfree hv rfl rfl, bara_gives hgo hfree rfl⟩
    simp only [List.mem_cons, List.not_mem_nil, or_false] at hi
    rcases hi with rfl | rfl | rfl <;> rfl
  · intro d a off x c addr hgo hal hplace hpend hloads hidle
    refine ⟨_, exec_barw hgo hal hplace hpend hloads hidle, ?_, waited_noteWait .., rfl, rfl, ?_⟩
    · exact (getCtx_noteWait ..).trans cur_opStarted
    · exact (spad_noteWait ..).trans spad_opStarted
  · intro o off ho hbody hrun hm hreg hload b
    have hwait : exec (.barwComplete o.id) s =
        if barReached b then .next (endWait s o (BitVec.ofNat 64 b.count)) else .next (push s (.barwComplete o.id)) := by
      show execBarwComplete o.id s = _
      unfold execBarwComplete
      simp only [ho, hbody, standsOn_of_runsSerial hrun, hload]
      rfl
    have hreached : barReached b = true ↔ b.armed = true ∧ b.expect ≤ b.count := by simp [barReached]
    refine ⟨fun ha hle => ⟨_, hwait.trans (if_pos (hreached.2 ⟨ha, hle⟩)), endWait_ends hrun hm hreg _⟩, fun hnot => ?_⟩
    exact hwait.trans (if_neg fun h => hnot (hreached.1 h))

end Sys2Proof.Machine
end

section
/-! Exchange rounds: BARM's rows that open and withdraw one, and the closes that reach it (R500-R502, R527, R532). -/

namespace Sys2Proof.Machine

/-! ### BARM on a round (R527) -/

/-- A barrier status word at once, the scratchpad as it was and the core as `Q` says. -/
def AnswersRound (s : State) (i : Instr) (d : BitVec 5) (w : Word) (Q : Core → Prop) : Prop :=
  ∃ t : State, exec i s = .next t ∧
    ((d ≠ 0 → getReg (cur t) d = { val := w, poison := none, mark := .clear }) ∧ (cur t).pc = (cur s).pc + 4 ∧
      (getCore t s.focus).spad = (getCore s s.focus).spad) ∧ Q (getCore t s.focus)

section
variable {s : State} {d a b : BitVec 5} {i : Instr} {code : Nat}

theorem answersRound_of_putBar {u : State} {Q : Core → Prop} (hexec : exec i s = .next (putBar u s.focus d code 0))
    (hfocus : u.focus = s.focus) (hctx : getCtx u s.focus = passUnit (cur s))
    (hspad : (getCore u s.focus).spad = (getCore s s.focus).spad) (hQ : ∀ y, Q { getCore u s.focus with ctx := y }) :
    AnswersRound s i d (barStatus code 0) Q := by
  have hcur : cur (putBar u s.focus d code 0) = setStatus (passUnit (cur s)) d (barStatus code 0) := by
    have hf : (putBar u s.focus d code 0).focus = s.focus := hfocus
    rw [cur, hf, getCtx_putBar, hctx]
  refine ⟨_, hexec, ⟨fun hd => ?_, ?_, (spad_putBar ..).trans hspad⟩, ?_⟩
  · rw [hcur, getReg_setStatus_self hd]
  · rw [hcur, setStatus_pc]
    rfl
  · rw [putBar, modCtx, getCore_setCtx_self]
    exact hQ _

/-- The answer of a BARM that leaves the state as it is. -/
theorem answersRound_past {Q : Core → Prop} (hexec : exec i s = .next (putBar (pastUnit s) s.focus d code 0))
    (hQ : ∀ y, Q { getCore s s.focus with ctx := y }) : AnswersRound s i d (barStatus code 0) Q :=
  answersRound_of_putBar hexec rfl (getCtx_setCtx_self ..) (by rw [getCore_setCtx_self]) fun y => by
    rw [getCore_setCtx_self]
    exact hQ y

/-- The answer of a BARM that changes the core's rounds or its activation queue. -/
theorem answersRound_setCore {Q : Core → Prop} {k : Core}
    (hexec : exec i s = .next (putBar (setCore (pastUnit s) s.focus k) s.focus d code 0)) (hctx : k.ctx = passUnit (cur s))
    (hspad : k.spad = (getCore s s.focus).spad) (hQ : ∀ y, Q { k with ctx := y }) : AnswersRound s i d (barStatus code 0) Q := by
  have hcore : getCore (setCore (pastUnit s) s.focus k) s.focus = k := getCore_setCore_self ..
  exact answersRound_of_putBar hexec rfl ((congrArg Core.ctx hcore).trans hctx) (hcore.symm ▸ hspad) fun y => hcore.symm ▸ hQ y

/-- An entry of a core's rounds is free of a number once the number's entries are invalid. -/
theorem round_ne_of_modRound_invalid {k : Core} {n : Nat} {r : RoundEntry}
    (hr : r ∈ (modRound k n (fun e => { e with valid := false })).rounds.toList) (hv : r.valid = true) : r.round ≠ n := by
  simp only [modRound, Vector.toList_map, List.mem_map] at hr
  obtain ⟨e, -, rfl⟩ := hr
  split at hv
  · cases hv
  · next hne =>
    rw [if_neg hne]
    exact fun h => hne ⟨hv, h⟩

end

/-! What BARM does with the round of a number (R527). -/

section
variable {t : State} {c : Nat}

theorem withdrawRound_of_find {n : Nat} {e : RoundEntry}
    (he : (getCore t c).rounds.toList.find? (fun r => r.valid && r.round == n) = some e) :
    withdrawRound t c n = (setCore t c (putAq (modRound (getCore t c) n fun e => { e with valid := false }) e.aq .free), 0) := by
  simp only [withdrawRound, he]

theorem withdrawRound_of_absent {n : Nat} (hnone : ∀ r ∈ (getCore t c).rounds.toList, r.valid = true → r.round ≠ n) :
    withdrawRound t c n = (t, 5) := by
  have hfind : (getCore t c).rounds.toList.find? (fun r => r.valid && r.round == n) = none :=
    List.find?_eq_none.2 fun r hr => by simpa using hnone r hr
  simp only [withdrawRound, hfind]

/-- A core that has opened a round in two of its entries. -/
def openedRound (k : Core) (e : RoundEntry) (j q : Nat) : Core :=
  { putAq k q (.round e.round) with
    rounds := k.rounds.setIfInBounds j { e with aq := q }, pastRounds := pastOf k.pastRounds (k.rounds.getD j emptyRound) }

/-- The descriptor of a round that a group of the core's launch may open (R527). -/
structure RoundFits (t : State) (c : Nat) (bs : List Byte) (e : RoundEntry) : Prop where
  round : roundOf bs = some e
  group : (groupOf t c e.group).valid = true
  launch : (getCore t c).launch = some (groupOf t c e.group).ltag

variable {bs : List Byte} {e : RoundEntry} (h : RoundFits t c bs e)
include h

theorem openRound_eq :
    openRound t c bs = if (getCore t c).rounds.toList.any (fun r => r.valid && r.round == e.round) then (t, 6)
      else
        match freeRound (getCore t c), freeAq (getCore t c) with
        | some j, some q => (setCore t c (openedRound (getCore t c) e j q), 0)
        | _, _ => (t, 1) := by
  obtain ⟨hround, hgroup, hlaunch⟩ := h
  have hfits : ¬ ((groupOf t c e.group).valid = false ∨ (getCore t c).launch ≠ some (groupOf t c e.group).ltag) := by
    rw [hgroup, hlaunch]
    simp
  simp only [openRound, hround]
  exact if_neg hfits

theorem openRound_inUse (huse : ∃ r ∈ (getCore t c).rounds.toList, r.valid = true ∧ r.round = e.round) :
    openRound t c bs = (t, 6) := by
  rw [openRound_eq h]
  exact if_pos (List.any_eq_true.2 (by simpa only [Bool.and_eq_true, beq_iff_eq] using huse))

variable (hnone : ∀ r ∈ (getCore t c).rounds.toList, r.valid = true → r.round ≠ e.round)
include hnone

theorem openRound_free {j q : Nat} (hj : freeRound (getCore t c) = some j) (hq : freeAq (getCore t c) = some q) :
    openRound t c bs = (setCore t c (openedRound (getCore t c) e j q), 0) := by
  have hany : (getCore t c).rounds.toList.any (fun r => r.valid && r.round == e.round) = false :=
    List.any_eq_false.2 (by simpa only [Bool.and_eq_true, beq_iff_eq, not_and] using hnone)
  rw [openRound_eq h, hany, hj, hq]
  rfl

theorem openRound_full (hfull : freeRound (getCore t c) = none ∨ freeAq (getCore t c) = none) : openRound t c bs = (t, 1) := by
  have hany : (getCore t c).rounds.toList.any (fun r => r.valid && r.round == e.round) = false :=
    List.any_eq_false.2 (by simpa only [Bool.and_eq_true, beq_iff_eq, not_and] using hnone)
  rw [openRound_eq h, hany]
  rcases hfull with hf | hf <;> rw [hf]
  · rfl
  · cases freeRound (getCore t c) <;> rfl

end

section
variable {s : State} {d a b : BitVec 5} {i : Instr} {code : Nat}

theorem rounds_pastUnit (s : State) : (getCore (pastUnit s) s.focus).rounds = (getCore s s.focus).rounds := by rw [getCore_setCtx_self]

theorem freeRound_pastUnit (s : State) : freeRound (getCore (pastUnit s) s.focus) = freeRound (getCore s s.focus) := by
  rw [getCore_setCtx_self]
  rfl

theorem freeAq_pastUnit (s : State) : freeAq (getCore (pastUnit s) s.focus) = freeAq (getCore s s.focus) := by
  rw [getCore_setCtx_self]
  rfl

theorem RoundFits.pastUnit {bs : List Byte} {e : RoundEntry} (h : RoundFits s s.focus bs e) : RoundFits (pastUnit s) s.focus bs e :=
  ⟨h.round, h.group, by rw [getCore_setCtx_self]; exact h.launch⟩

variable (hi : exec i s = issue s (plainSpec [a, b] [d]) (barmBody d a b)) (hgo : Goes (cur s) (needs [a, b] [d]))
  (hrel : relNow (pastUnit s) s.focus = true)
include hi hgo hrel

theorem exec_barm_withdraw (hv : (regVal (cur s) b).toNat / 2 ^ 62 = 3) {o : State × Nat}
    (ho : withdrawRound (pastUnit s) s.focus ((regVal (cur s) a).toNat % 2 ^ 16) = o) :
    exec i s = .next (putBar o.1 s.focus d o.2 0) := by
  subst ho
  refine hi.trans (issue_some hgo ?_)
  unfold barmBody
  simp only [issuedOf_core, getCtx_setCtx_self, regVal_passUnit, hv, hrel]
  rfl

/-- BARM withdraws the round of a number, and frees its entry of the activation queue (R527). -/
theorem withdraws {e : RoundEntry} (hv : (regVal (cur s) b).toNat / 2 ^ 62 = 3)
    (he : (getCore s s.focus).rounds.toList.find? (fun r => r.valid && r.round == (regVal (cur s) a).toNat % 2 ^ 16) = some e) :
    AnswersRound s i d (barStatus 0 0) fun k =>
      k.aq.getD e.aq .free = .free ∧ ∀ r ∈ k.rounds.toList, r.valid = true → r.round ≠ (regVal (cur s) a).toNat % 2 ^ 16 := by
  have hwithdraw := withdrawRound_of_find (t := pastUnit s) (c := s.focus) (by rwa [rounds_pastUnit])
  refine answersRound_setCore (exec_barm_withdraw hi hgo hrel hv hwithdraw) (getCtx_setCtx_self ..) ?_ fun y => ⟨?_, fun r => ?_⟩
  · rw [putAq, modRound, getCore_setCtx_self]
  · exact aq_putAq_free ..
  · exact round_ne_of_modRound_invalid

/-- BARM finds no round of a number (R527). -/
theorem withdraws_none (hv : (regVal (cur s) b).toNat / 2 ^ 62 = 3)
    (hnone : ∀ r ∈ (getCore s s.focus).rounds.toList, r.valid = true → r.round ≠ (regVal (cur s) a).toNat % 2 ^ 16) :
    AnswersRound s i d (barStatus 5 0) fun k => k.rounds = (getCore s s.focus).rounds ∧ k.aq = (getCore s s.focus).aq :=
  answersRound_past (exec_barm_withdraw hi hgo hrel hv (withdrawRound_of_absent (by rwa [rounds_pastUnit]))) fun _ => ⟨rfl, rfl⟩

variable {off : Nat} (hv : (regVal (cur s) b).toNat / 2 ^ 62 = 2) (hal : (regVal (cur s) a).toNat % 32 = 0)
  (hplace : localOff s.focus (regVal (cur s) a) 32 = some off) (hidle : localBusy (pastUnit s) s.focus off 32 false = false)
include hv hal hplace hidle

theorem exec_barm_open {o : State × Nat} (ho : openRound (pastUnit s) s.focus (spadRead s s.focus off 32) = o) :
    exec i s = .next (putBar o.1 s.focus d o.2 0) := by
  subst ho
  refine hi.trans (issue_some hgo ?_)
  unfold barmBody
  simp only [issuedOf_core, getCtx_setCtx_self, regVal_passUnit, hv, hrel, hal, hplace, hidle, spadRead_setCtx_self]
  rfl

variable {e : RoundEntry} (h : RoundFits s s.focus (spadRead s s.focus off 32) e)
include h

/-- BARM finds the number of its round in use (R527). -/
theorem opens_inUse (huse : ∃ r ∈ (getCore s s.focus).rounds.toList, r.valid = true ∧ r.round = e.round) :
    AnswersRound s i d (barStatus 6 0) fun k => k.rounds = (getCore s s.focus).rounds :=
  answersRound_past (exec_barm_open hi hgo hrel hv hal hplace hidle (openRound_inUse h.pastUnit (by rwa [rounds_pastUnit])))
    fun _ => rfl

variable (hnone : ∀ r ∈ (getCore s s.focus).rounds.toList, r.valid = true → r.round ≠ e.round)
include hnone

/-- BARM opens its round in the first free entries (R527). -/
theorem opens_free {j q : Nat} (hj : freeRound (getCore s s.focus) = some j) (hq : freeAq (getCore s s.focus) = some q) :
    AnswersRound s i d (barStatus 0 0) fun k =>
      k.rounds.getD j emptyRound = { e with aq := q } ∧ k.aq.getD q .free = .round e.round ∧ e.valid = true ∧ e.rows = 0 ∧
        e.closed = 0 := by
  have hopen := openRound_free h.pastUnit (by rwa [rounds_pastUnit]) (by rwa [freeRound_pastUnit]) (by rwa [freeAq_pastUnit])
  have hlt : j < 16 := List.mem_range.1 (List.mem_of_find?_eq_some hj)
  refine answersRound_setCore (exec_barm_open hi hgo hrel hv hal hplace hidle hopen) (getCtx_setCtx_self ..) ?_ fun y => ⟨?_, ?_, ?_⟩
  · rw [openedRound, putAq, getCore_setCtx_self]
  · simp [openedRound, Vector.getD, hlt]
  · exact aq_putAq_self _ _ (freeAq_lt hq)
  · have hround := h.round
    unfold roundOf at hround
    dsimp only at hround
    split at hround
    · cases hround
    · obtain rfl := Option.some.inj hround
      exact ⟨rfl, rfl, rfl⟩

/-- BARM finds no entry for its round (R527). -/
theorem opens_full (hfull : freeRound (getCore s s.focus) = none ∨ freeAq (getCore s s.focus) = none) :
    AnswersRound s i d (barStatus 1 0) fun k => k.rounds = (getCore s s.focus).rounds ∧ k.aq = (getCore s s.focus).aq :=
  answersRound_past (exec_barm_open hi hgo hrel hv hal hplace hidle
    (openRound_full h.pastUnit (by rwa [rounds_pastUnit]) (by rwa [freeRound_pastUnit, freeAq_pastUnit]))) fun _ => ⟨rfl, rfl⟩

end

end Sys2Proof.Machine
end

section
/-! Closes of exchange rounds, and counters: CNTRD, its readings, and CNTADD (R246, R502, R530-R533). -/

namespace Sys2Proof.Machine

/-! ### The ends of operations and of messages (R157, R355, R559) -/

/-- The end of an operation changes operations in flight and contexts. -/
theorem endOp_eq (s : State) (n : Nat) (v : Word) :
    endOp s n v = { s with cores := (endOp s n v).cores, parts := (endOp s n v).parts, ops := (endOp s n v).ops } := by
  unfold endOp
  split
  · rw [giveStatus, updAct_eq]
    rfl
  · rfl

/-- The end of a message changes messages, operations in flight and contexts. -/
theorem endMsg_eq (s : State) (m : TaskMsg) (v : Word) :
    endMsg s m v = { dropMsg s m.id with
      cores := (endMsg s m v).cores, parts := (endMsg s m v).parts, ops := (endMsg s m v).ops } := by
  unfold endMsg
  split
  · rw [endOp_eq (endOp _ _ _), endOp_eq (dropMsg _ _)]
  · rw [endOp_eq]

theorem findMsg_endMsg (s : State) (m : TaskMsg) (v : Word) : findMsg (endMsg s m v) m.id = none :=
  findMsg_of_msgs_eq_filter (by rw [endMsg_eq, dropMsg])

section
variable {α : Type} {g : Core → α} (hctx : ∀ k x, g { k with ctx := x } = g k) (hsusp : ∀ k x, g { k with susp := x } = g k)
include hctx hsusp

/-- The end of an operation leaves what no context holds of a core. -/
theorem getCore_endOp_field (s : State) (n : Nat) (v : Word) (c : Nat) : g (getCore (endOp s n v) c) = g (getCore s c) := by
  unfold endOp
  split
  · exact getCore_updAct_field hctx hsusp ..
  · rfl

theorem getCore_endMsg_field (s : State) (m : TaskMsg) (v : Word) (c : Nat) : g (getCore (endMsg s m v) c) = g (getCore s c) := by
  unfold endMsg
  split
  · rw [getCore_endOp_field hctx hsusp, getCore_endOp_field hctx hsusp]
    rfl
  · rw [getCore_endOp_field hctx hsusp]
    rfl

end

/-! ### Round closes (R502, R532) -/

/-- The record of a round that fires (R502). -/
def firedRecord (s : State) (c : Nat) (r : RoundEntry) : AqRecord :=
  { order := s.nextId, kind := .round, gen := none, t15 := none, pair := none, restart := false,
    record := { ltag := (getCore s c).launch.getD 0, dual := false, prio := r.prio, cls := 0, entry := r.entry,
                args := [r.round, r.rows, r.group, r.closed].map (BitVec.ofNat 64) } }

theorem getCore_deliverAq_self (s : State) (c i : Nat) (w : AqRecord) :
    getCore (deliverAq s c i w) c = putAq (getCore s c) i (.delivered { w with order := s.nextId }) :=
  getCore_modCore_self (bumpId s) c fun k => putAq k i (.delivered { w with order := s.nextId })

theorem rounds_fireRound (s : State) (c : Nat) (r : RoundEntry) :
    (getCore (fireRound s c r) c).rounds = (modRound (getCore s c) r.round fun e => { e with valid := false }).rounds := by
  rw [fireRound, getCore_countCreated_field (g := Core.rounds) _ _ _ fun _ _ => rfl, getCore_deliverAq_self, putAq, getCore_setCore_self]

theorem aq_fireRound (s : State) (c : Nat) (r : RoundEntry) :
    (getCore (fireRound s c r) c).aq = (putAq (getCore s c) r.aq (.delivered (firedRecord s c r))).aq := by
  rw [fireRound, getCore_countCreated_field (g := Core.aq) _ _ _ fun _ _ => rfl, getCore_deliverAq_self, getCore_setCore_self]
  rfl

section
variable {s : State} {m : TaskMsg} {n : Nat} {r : RoundEntry}
variable (hfind : (getCore s m.target).rounds.toList.find? (fun r => r.valid && r.round == n) = some r)
include hfind

theorem round_of_find : r.valid = true ∧ r.round = n := by simpa using List.find?_some hfind

/-- The state of a core's rounds after one more close of a round. -/
abbrev closedOnce (s : State) (c n : Nat) (r : RoundEntry) : State :=
  modCore s c (fun k => modRound k n (fun _ => { r with closed := r.closed + 1 }))

theorem closeAt_of_find (hreach : taskReach s m.core m.target m.egen = none) :
    closeAt s m n =
      (if r.closed + 1 = (groupOf s m.target r.group).members.length then
        fireRound (closedOnce s m.target n r) m.target { r with closed := r.closed + 1 }
      else closedOnce s m.target n r, 0) := by
  simp only [closeAt, hreach, hfind]

theorem mem_rounds_closedOnce :
    { r with closed := r.closed + 1 } ∈ (getCore (closedOnce s m.target n r) m.target).rounds.toList := by
  obtain ⟨hv, hn⟩ := round_of_find hfind
  rw [getCore_modCore_self, modRound, Vector.toList_map]
  exact List.mem_map.2 ⟨r, List.mem_of_find?_eq_some hfind, if_pos ⟨hv, hn⟩⟩

/-- The last close of a round frees its entry, and delivers its record (R502). -/
theorem fired_closedOnce (haq : r.aq < 16) {g : Nat} (hg : r.closed + 1 = g) :
    let k := getCore (fireRound (closedOnce s m.target n r) m.target { r with closed := r.closed + 1 }) m.target
    (∀ e ∈ k.rounds.toList, e.valid = true → e.round ≠ n) ∧
      ∃ w, k.aq.getD r.aq .free = .delivered w ∧ w.kind = .round ∧ w.record.entry = r.entry ∧
        w.record.args = [n, r.rows, r.group, g].map (BitVec.ofNat 64) := by
  obtain ⟨-, hn⟩ := round_of_find hfind
  subst hn hg
  intro k
  constructor
  · have hrounds : k.rounds = _ := rounds_fireRound ..
    rw [hrounds]
    exact fun e => round_ne_of_modRound_invalid
  · refine ⟨firedRecord (closedOnce s m.target r.round r) m.target { r with closed := r.closed + 1 }, ?_, rfl, rfl, rfl⟩
    have haqs : k.aq = _ := aq_fireRound ..
    rw [haqs]
    exact aq_putAq_self _ _ haq

/-- ROUND_CLOSE_ARRIVE at a live entry (R502). -/
theorem exec_roundCloseArrive (hm : findMsg s m.id = some m) (hbody : m.body = .rndclose n) (hwait : msgWaits s m = false)
    (hreach : taskReach s m.core m.target m.egen = none) :
    exec (.roundCloseArrive m.id) s = .next (endMsg (closeAt s m n).1 m (barStatus 0 0)) := by
  show execRoundCloseArrive m.id s = _
  unfold execRoundCloseArrive
  simp only [hm, hbody, hwait, closeAt_of_find hfind hreach]
  rfl

end

/-! ### CNTRD and CNTADD at issue (R317, R530, R531, R557) -/

section
variable {s : State} {d a b : BitVec 5} (hgo : Goes (cur s) (needs [a, b] [d]))
include hgo

/-- CNTRD starts its readings (R530). -/
theorem exec_cntrd
    (hplace : counterSpace (regVal (cur s) a) = true ∧ (regVal (cur s) a).toNat % 8 = 0 ∨ regVal (cur s) a = xfreeDesignator)
    (hloads : holdsLoads (cur s) = false)
    (hidle : ∀ r ∈ localRange s.focus (regVal (cur s) a) 8, localBusy (pastUnit s) s.focus r.1 r.2 false = false)
    (htile : spaceOf (regVal (cur s) a) = 4 → tileMemBusy (pastUnit s) s.focus (regVal (cur s) a).toNat 8 false = false) :
    exec (.cntrd d a b) s =
      .next (opStarted s (passUnit (cur s)) d 0 (.cntrd (regVal (cur s) a) (regVal (cur s) b)) [.cntrdReading s.nextId]) := by
  have hmis : (counterSpace (regVal (cur s) a) && decide ((regVal (cur s) a).toNat % 8 ≠ 0)) = false := by
    rcases hplace with ⟨-, hal⟩ | hx
    · simp [hal]
    · rw [hx]
      decide
  have hspace : (!counterSpace (regVal (cur s) a) && regVal (cur s) a != xfreeDesignator) = false := by
    rcases hplace with ⟨hc, -⟩ | hx
    · simp [hc]
    · simp [hx]
  have hlocal : (localRange s.focus (regVal (cur s) a) 8).any (fun r => localBusy (pastUnit s) s.focus r.1 r.2 false) = false :=
    List.any_eq_false.2 fun r hr => by simp [hidle r hr]
  have hmem : (spaceOf (regVal (cur s) a) == 4 && tileMemBusy (pastUnit s) s.focus (regVal (cur s) a).toNat 8 false) = false := by
    rw [Bool.and_eq_false_imp]
    exact fun h => htile (eq_of_beq h)
  show execCntrd d a b s = _
  unfold execCntrd
  refine issue_some hgo ?_
  simp only [issuedOf_core, issuedOf_upc, getCtx_setCtx_self, regVal_passUnit, hmis, hspace, holdsLoads_passUnit, hloads, hlocal, hmem]
  rw [← startHeld_withCur (y := passUnit (cur s)) rfl rfl]
  rfl

/-- CNTRD of a space that holds no counter poisons its register (R530). -/
theorem exec_cntrd_noCounter (hspace : counterSpace (regVal (cur s) a) = false) (hx : regVal (cur s) a ≠ xfreeDesignator) :
    exec (.cntrd d a b) s = .next (poisonBar (pastUnit s) (issuedOf (cur s) s.focus) d 1 (regVal (cur s) a)) := by
  show execCntrd d a b s = _
  unfold execCntrd
  refine issue_some hgo ?_
  simp [issuedOf_core, getCtx_setCtx_self, hspace, hx]

/-- CNTADD of a dual copy is refused (R557). -/
theorem exec_cntadd_dual (hspace : counterSpace (regVal (cur s) a) = true) (hal : (regVal (cur s) a).toNat % 8 = 0)
    (hstores : holdsStores (cur s) = false) (hdual : (cur s).sys.dual = true) :
    exec (.cntadd d a b) s =
      .next (poisonBar (withCur s (setCommit (passUnit (cur s)))) (issuedOf (cur s) s.focus) d 1 (regVal (cur s) a)) := by
  show execCntadd d a b s = _
  unfold execCntadd
  refine issue_some hgo ?_
  simp [issuedOf_core, getCtx_setCtx_self, hspace, hal, hstores, hdual, modCtx_setCtx]

omit hgo in
theorem localBusy_setCommit (s : State) (x : Ctx) (off n : Nat) (wr : Bool) :
    localBusy (withCur s (setCommit x)) s.focus off n wr = localBusy (withCur s x) s.focus off n wr := by
  unfold localBusy tileBusy engineBusy reloading launchOf
  simp only [getCore_setCtx_self]
  rfl

omit hgo in
theorem counterSpace_of_spad {c off : Nat} {w : Word} (h : placeOf c w = .spad off) : counterSpace w = true := by
  unfold placeOf at h
  unfold counterSpace spaceOf
  dsimp only at h
  split at h
  · next h0 => rw [h0]; rfl
  · split at h
    · next h1 => rw [h1]; rfl
    · split at h
      · split at h <;> cases h
      · cases h

/-- The state in which the core that runs has added to a counter of its own scratchpad (R531). -/
def counterAdded (s : State) (d b : BitVec 5) (off : Nat) : State :=
  let old := memRead (getCore s s.focus).spad off 8
  setCtx (spadWrite (withCur s (setCommit (passUnit (cur s)))) s.focus off (atomBytes 0 old (regVal (cur s) b) (regVal (cur s) d)))
    s.focus (setReg (setCommit (passUnit (cur s))) d (BitVec.ofNat 64 (leNat old)))

omit hgo in
theorem atomOld_of_length_eight {bs : List Byte} (h : bs.length = 8) : atomOld bs = BitVec.ofNat 64 (leNat bs) := by
  have hlt : leNat bs < 2 ^ 64 := by simpa only [h] using leNat_lt bs
  rw [atomOld, extendBytes_eq, h]
  split
  · apply BitVec.eq_of_toInt_eq
    rw [BitVec.toInt_ofInt, BitVec.toInt_ofNat']
    exact Int.sub_bmod_right ..
  · rfl

theorem exec_cntadd_own {off : Nat} (hal : (regVal (cur s) a).toNat % 8 = 0) (hplace : placeOf s.focus (regVal (cur s) a) = .spad off)
    (hoff : off < spadSize) (hstores : holdsStores (cur s) = false) (hdual : (cur s).sys.dual = false)
    (hidle : localBusy (pastUnit s) s.focus off 8 true = false)
    (hrel : releaseReady (pastUnit s) s.focus (genOf (cur s)) (passUnit (cur s)) 3 s.nextId = true) :
    exec (.cntadd d a b) s = .next (counterAdded s d b off) := by
  have hroute : routeOf (withCur s (setCommit (passUnit (cur s)))) s.focus false (regVal (cur s) a) = .own off :=
    routeOf_spad hplace hoff false
  have hidle' : localBusy (withCur s (setCommit (passUnit (cur s)))) s.focus off 8 true = false :=
    (localBusy_setCommit ..).trans hidle
  have hrel' : releaseReady (withCur s (setCommit (passUnit (cur s)))) s.focus (genOf (setCommit (passUnit (cur s))))
      (setCommit (passUnit (cur s))) (BitVec.toNat (3 : BitVec 3)) s.nextId = true := hrel
  have hregs (r : BitVec 5) : regVal (setCommit (passUnit (cur s))) r = regVal (cur s) r := rfl
  have hstores' : holdsStores (setCommit (passUnit (cur s))) = false := (holdsStores_passUnit _).trans hstores
  show execCntadd d a b s = _
  unfold execCntadd
  refine issue_some hgo ?_
  simp only [issuedOf_core, getCtx_setCtx_self, regVal_passUnit, counterSpace_of_spad hplace, hal, holdsStores_passUnit, hstores,
    passUnit_sys, hdual, modCtx_setCtx]
  unfold atomBody
  simp only [issuedOf_core, getCtx_setCtx_self, hregs, if_true, hal, hstores', hroute, hidle', setCtx_nextId, hrel',
    spadRead_setCtx_self, atomOld_of_length_eight (length_memRead ..)]
  show some (modCtx (spadWrite (withCur s (setCommit (passUnit (cur s)))) ..) ..) = _
  rw [modCtx, getCtx_spadWrite_self, getCtx_setCtx_self]
  rfl

end

/-- CNTADD adds to a counter, and its register holds the old value (R531). -/
theorem counterAdded_adds (s : State) (d b : BitVec 5) (off : Nat) :
    cur (counterAdded s d b off) = setReg (setCommit (passUnit (cur s))) d (BitVec.ofNat 64 (leNat (spadRead s s.focus off 8))) ∧
      leNat (spadRead (counterAdded s d b off) s.focus off 8) =
        (leNat (spadRead s s.focus off 8) + (regVal (cur s) b).toNat) % 2 ^ 64 ∧
      ∀ p, p < off ∨ off + 8 ≤ p → memGet (getCore (counterAdded s d b off) s.focus).spad p = memGet (getCore s s.focus).spad p := by
  let u := withCur s (setCommit (passUnit (cur s)))
  let bs := atomBytes 0 (memRead (getCore s s.focus).spad off 8) (regVal (cur s) b) (regVal (cur s) d)
  have hlen : bs.length = 8 := (length_atomBytes ..).trans (length_memRead ..)
  have hspad : (getCore (counterAdded s d b off) s.focus).spad = (getCore (spadWrite u s.focus off bs) s.focus).spad := by
    rw [counterAdded, getCore_setCtx_self]
  refine ⟨getCtx_setCtx_self .., ?_, fun p hp => ?_⟩
  · have hread := memRead_spadWrite_self u s.focus off bs
    rw [hlen, ← hspad] at hread
    rw [spadRead, hread, leNat_atomBytes, length_memRead, Nat.mod_eq_of_lt (regVal (cur s) b).isLt]
    rfl
  · rw [hspad, spad_spadWrite, memGet_memWrite_of_outside _ _ _ _ (by rwa [hlen]), getCore_setCtx_self]

/-! ### Readings (R246, R530, R533) -/

/-- The core waits on the XFREE counter of its task from now on (R246, R533). -/
abbrev xfreeNoted (s : State) (c : Nat) : State := noteWait s c [((6000, (nameGen (getCtx s c).sys.tid).toNat), 4)]

section
variable {s : State} {o : Op} (hrun : runsSerial (getCtx s o.core) o.serial = true)
include hrun

theorem actCtx_of_runsSerial : actCtx (getCore s o.core) o.serial = some (getCtx s o.core) := if_pos hrun

variable {thr : Word} {g : LiveGen} (ho : findOp s o.id = some o) (hbody : o.body = .cntrd xfreeDesignator thr)
  (hg : (getCore s o.core).live.find? (fun e => e.gen == (nameGen (getCtx s o.core).sys.tid).toNat) = some g)
include ho hbody hg

/-- CNTRD_READING of the task's XFREE counter (R530, R533). -/
theorem exec_cntrdReading_xfree :
    exec (.cntrdReading o.id) s =
      .next (if thr.toNat ≤ g.xfree.toNat then endOp (xfreeNoted s o.core) o.id (BitVec.ofNat 64 g.xfree.toNat)
        else push (xfreeNoted s o.core) (.cntrdReading o.id)) := by
  have hxfree : leNat (leBytes 8 (xfreeOf s o.core o.serial)) = g.xfree.toNat := by
    have hlt : g.xfree.toNat < 256 ^ 8 := g.xfree.isLt.trans (by decide)
    rw [xfreeOf, actCtx_of_runsSerial hrun, leNat_leBytes]
    simp only [hg, Option.map_some, Option.getD_some, Nat.mod_eq_of_lt hlt]
  have hplaces : counterPlaces s o xfreeDesignator = [((6000, (nameGen (getCtx s o.core).sys.tid).toNat), 4)] := by
    rw [counterPlaces, if_pos rfl, actCtx_of_runsSerial hrun]
    rfl
  show execCntrdReading o.id s = _
  unfold execCntrdReading readCounter
  simp only [ho, hbody, standsOn_of_runsSerial hrun, hxfree, hplaces, if_true]
  exact (apply_ite done ..).symm

end

/-- The end of an operation, its status awaited, latches event bit 1 (R246). -/
theorem endOp_latches {s : State} {o : Op} (ho : findOp s o.id = some o) (hrun : runsSerial (getCtx s o.core) o.serial = true)
    (hm : (getReg (getCtx s o.core) o.reg).mark = .op o.id) (v : Word) :
    (getCtx (endOp s o.id v) o.core).sys.evt = (getCtx s o.core).sys.evt ||| 2 := by
  rw [endOp_awaited s o v ho hrun hm, getCtx_dropOp, getCtx_modCtx_self, settleMark_eq]
  rfl

/-! ### Changes of places on which a core waits (R246) -/

theorem tabGet_map_if {α : Type} {d : α} {P : Nat → α → Bool} (f : α → α) {k : Nat} (hd : P k d = false) (T : Tab α) :
    tabGet d (T.map fun p => if P p.1 p.2 then (p.1, f p.2) else p) k = if P k (tabGet d T k) then f (tabGet d T k) else tabGet d T k := by
  induction T with
  | nil => exact (if_neg (by simpa [tabGet] using hd)).symm
  | cons p T ih =>
    obtain ⟨j, v⟩ := p
    by_cases hjk : j = k
    · subst hjk
      by_cases hP : P j v <;> simp [tabGet, hP]
    · by_cases hP : P j v <;> simp [tabGet, hP, hjk, ih]

/-- Whether what stands at a place on which a core waits has changed (R246). -/
def placeMoved (s t : State) (c : Nat) (k : Core) : Bool :=
  k.waited.any fun w => !placeOut s c w && !placeOut t c w && placeVal s c w != placeVal t c w

theorem getCore_noteChanges {s t : State} {c : Nat} (h : placeMoved s t c (getCore t c) = true) :
    getCore (noteChanges s t) c = latchCore (getCore t c) 4 := by
  have hwaits : t.cores.all (fun p => p.2.waited.isEmpty) = false := by
    by_contra hall
    rw [Bool.not_eq_false, List.all_eq_true] at hall
    have hempty : (getCore t c).waited.isEmpty = true :=
      tabGet_of_forall (motive := fun k : Core => k.waited.isEmpty = true) rfl hall
    rw [placeMoved, List.isEmpty_iff.1 hempty] at h
    cases h
  have hnote : noteChanges s t =
      { t with cores := t.cores.map fun p => if placeMoved s t p.1 p.2 then (p.1, latchCore p.2 4) else p } := by
    unfold noteChanges
    rw [hwaits]
    rfl
  rw [hnote]
  refine (tabGet_map_if (P := placeMoved s t) (fun k => latchCore k 4) rfl t.cores).trans ?_
  exact if_pos h

/-- Settles O27. -/
theorem roundsAndCounters : Obligations.RoundsAndCounters := by
  refine ⟨fun s => ⟨?_, ?_⟩, fun s => ⟨?_, ?_, ?_⟩⟩
  · intro d a b x c k u addr v answer i hi hgo hrel
    have hexec : exec i s = issue s (plainSpec [a, b] [d]) (barmBody d a b) := by
      simp only [List.mem_cons, List.not_mem_nil, or_false] at hi
      rcases hi with rfl | rfl | rfl <;> rfl
    refine ⟨fun hv => ⟨fun e he _ => withdraws hexec hgo hrel hv he, withdraws_none hexec hgo hrel hv⟩, ?_⟩
    intro off e hv hal hplace hidle hround hgroup hlaunch
    have hfits : RoundFits s s.focus (spadRead s s.focus off 32) e := ⟨hround, hgroup, hlaunch⟩
    exact ⟨opens_inUse hexec hgo hrel hv hal hplace hidle hfits, fun hnone =>
      ⟨fun j q => opens_free hexec hgo hrel hv hal hplace hidle hfits hnone,
        opens_full hexec hgo hrel hv hal hplace hidle hfits hnone⟩⟩
  · intro m n r hm hbody hwait hreach hfind haq g
    have hclose := closeAt_of_find hfind hreach
    refine ⟨_, exec_roundCloseArrive hfind hm hbody hwait hreach, findMsg_endMsg .., fun hne => ?_, fun heq => ?_⟩
    · rw [getCore_endMsg_field (g := Core.rounds) (fun _ _ => rfl) (fun _ _ => rfl), hclose, if_neg hne]
      exact mem_rounds_closedOnce hfind
    · rw [getCore_endMsg_field (g := Core.rounds) (fun _ _ => rfl) (fun _ _ => rfl),
        getCore_endMsg_field (g := Core.aq) (fun _ _ => rfl) (fun _ _ => rfl), hclose, if_pos heq]
      exact fired_closedOnce hfind haq heq
  · intro d a b x c u addr hgo
    have hpoison (t : State) (hfocus : t.focus = s.focus) (hd : d ≠ 0) :
        ∃ p, (getReg (cur (poisonBar t (issuedOf (cur s) s.focus) d 1 addr)) d).poison = some p ∧ p.addr = addr ∧ p.kind = 1 := by
      have hf : (poisonBar t (issuedOf (cur s) s.focus) d 1 addr).focus = s.focus := hfocus
      refine ⟨poisonOf (getCtx t s.focus) (unitPc (cur s)) addr 1, ?_, rfl, rfl⟩
      rw [cur, hf, poisonBar, issuedOf_core, getCtx_modCtx_self, poisonReg, getReg_putReg_self _ _ _ hd]
      rfl
    refine ⟨fun hplace hloads hidle htile => ⟨_, exec_cntrd hgo hplace hloads hidle htile, cur_opStarted, rfl, rfl⟩, ?_, ?_, ?_⟩
    · intro hspace hal hstores hdual
      refine ⟨_, exec_cntadd_dual hgo hspace hal hstores hdual, ?_, hpoison _ rfl⟩
      rw [poisonBar, getCore_modCtx_field (g := Core.spad) _ _ _ fun _ _ => rfl, getCore_setCtx_self]
    · exact fun hspace hx => ⟨_, exec_cntrd_noCounter hgo hspace hx, hpoison _ rfl⟩
    · intro off hal hplace hoff hstores hdual hidle hrel
      exact ⟨_, exec_cntadd_own hgo hal hplace hoff hstores hdual hidle hrel, counterAdded_adds ..⟩
  · intro o thr g ho hbody hrun hm hreg hg
    have hexec := exec_cntrdReading_xfree hrun ho hbody hg
    refine ⟨fun hle => ?_, fun hlt => ?_⟩
    · rw [if_pos hle] at hexec
      have ht : findOp (xfreeNoted s o.core) o.id = some o := ho
      have hctx : getCtx (xfreeNoted s o.core) o.core = getCtx s o.core := getCtx_noteWait ..
      have hended := endedWith_endOp ht (BitVec.ofNat 64 g.xfree.toNat)
      refine ⟨_, hexec, hended.1, ?_, ?_, hended.2 (hctx ▸ hrun) (hctx ▸ hm) hreg⟩
      · rw [endOp_latches ht (hctx ▸ hrun) (hctx ▸ hm), hctx]
      · rw [getCore_endOp_field (g := Core.waited) (fun _ _ => rfl) (fun _ _ => rfl)]
        exact waited_noteWait ..
    · rw [if_neg (Nat.not_le.2 hlt)] at hexec
      exact ⟨_, hexec, rfl, rfl, getCtx_noteWait .., waited_noteWait ..⟩
  · intro t c w hw hact hs ht hne
    have hmoved : placeMoved s t c (getCore t c) = true :=
      List.any_eq_true.2 ⟨w, hw, by simp [hs, ht, hne]⟩
    have hsome : (getCore t c).ctx.act.isSome = true := Option.isSome_iff_ne_none.2 hact
    have hctx : (latchCore (getCore t c) 4).ctx = latchEvt (getCtx t c) 4 := if_pos hsome
    rw [getCtx, getCore_noteChanges hmoved, hctx]
    simp [latchEvt]

end Sys2Proof.Machine
end

section
/-! Messages of the task plane: CALLAT, RETV, MSEND, RNDCLOSE and MPOLL, and their arrival (R363, R364, R368-R370, R532). -/

namespace Sys2Proof.Machine

/-! ### At issue (R368, R369, R532) -/

/-- An instruction that sends one message, whose status its register waits for. -/
def SendsTask (s : State) (i : Instr) (d : BitVec 5) (target : Nat) (body : TaskBody) (e : Event) : Prop :=
  ∃ t : State, exec i s = .next t ∧ cur t = markReg (setCommit (passUnit (cur s))) d (.op s.nextId) ∧
    t.msgs = s.msgs ++ [{
      id := s.nextId + 1, core := s.focus, name := (cur s).sys.tid.toNat, target := target, egen := sentEgen s s.focus target,
      op := s.nextId, tag := none, assayed := false, serial := serialOf (cur s), twin := none, body := body }] ∧
    t.agenda = s.agenda ++ [e] ∧ t.nextId = s.nextId + 2

/-- A pending mark changes registers only (R157). -/
theorem markReg_eq (x : Ctx) (d : BitVec 5) (m : Mark) : markReg x d m = { x with regs := (markReg x d m).regs } := by
  unfold markReg putReg
  split <;> rfl

theorem markReg_act (x : Ctx) (d : BitVec 5) (m : Mark) : (markReg x d m).act = x.act := by rw [markReg_eq]

theorem markReg_sys (x : Ctx) (d : BitVec 5) (m : Mark) : (markReg x d m).sys = x.sys := by rw [markReg_eq]

/-- The context of an activation that is no copy of a dual record. -/
def NoCopy (x : Ctx) : Prop := ∀ w, x.act = some w → w.pair = none

theorem NoCopy.setCommit {x : Ctx} (h : NoCopy x) : NoCopy (setCommit x) := by
  intro w hw
  obtain ⟨a, ha, rfl⟩ := Option.map_eq_some_iff.1 hw
  exact h a ha

theorem NoCopy.tagOf {x : Ctx} (h : NoCopy x) (op dest : Nat) (operands : List Nat) (payload : List Byte) :
    tagOf x op dest operands payload = none := by
  unfold Machine.tagOf
  cases hact : x.act with
  | none => rfl
  | some a => simp only [h a hact]

/-- The message index of an ordinary activation stays (R556). -/
theorem NoCopy.nextIdx {x : Ctx} (h : NoCopy x) : nextIdx x = x := by
  unfold Machine.nextIdx
  cases hact : x.act with
  | none => cases x; cases hact; rfl
  | some a =>
    have ha : a.pair.isSome = false := by rw [h a hact]; rfl
    cases x
    cases hact
    simp only [Option.map_some, ha, Bool.false_eq_true, if_false]

section
variable {s : State} {d : BitVec 5}

/-- The state past the unit of the core that runs, its commit latch set (R564). -/
abbrev pastCommit (s : State) : State := withCur s (setCommit (passUnit (cur s)))

theorem sendsTask_of_sendTask {i : Instr} {target opcode dest : Nat} {operands : List Nat} {body : TaskBody} (hpair : NoCopy (cur s))
    (hexec : exec i s = .next (sendTask (pastCommit s) (issuedOf (cur s) s.focus) d target opcode dest operands body)) :
    SendsTask s i d target body (msgEvent body (s.nextId + 1)) := by
  have hcopy : NoCopy (setCommit (passUnit (cur s))) := NoCopy.setCommit (x := passUnit (cur s)) hpair
  have hctx : getCtx (startOp (pastCommit s) s.focus d (unitPc (cur s)) .task) s.focus =
      markReg (setCommit (passUnit (cur s))) d (.op s.nextId) :=
    (getCtx_setCtx_self ..).trans (by rw [getCtx_setCtx_self]; rfl)
  have hmarked : NoCopy (markReg (setCommit (passUnit (cur s))) d (.op s.nextId)) := by
    rw [NoCopy, markReg_act]
    exact hcopy
  have htag : tagOf (getCtx (pastCommit s) s.focus) opcode dest operands [] = none := by
    rw [getCtx_setCtx_self]
    exact hcopy.tagOf ..
  have hserial : serialOf (markReg (setCommit (passUnit (cur s))) d (.op s.nextId)) = serialOf (cur s) :=
    (serialOf_markReg ..).trans (serialOf_setCommit (passUnit (cur s)))
  refine ⟨_, hexec, ?_, ?_, ?_, rfl⟩
  · refine (getCtx_modCtx_self ..).trans ?_
    rw [issuedOf_core, issuedOf_upc, getCtx, getCore_sendMsg]
    exact (congrArg nextIdx hctx).trans hmarked.nextIdx
  · refine (sendMsg_msgs ..).trans (congrArg (fun m => s.msgs ++ [m]) ?_)
    rw [issuedOf_core, issuedOf_upc, sentMsg, hctx, htag, hserial, markReg_sys]
    rfl
  · rw [sendTask, issuedOf_core, htag]
    rfl

variable {a b : BitVec 5} {q : BitVec 3} (hstores : holdsStores (cur s) = false) (hpair : NoCopy (cur s))
include hstores hpair

section
variable (hgo : Goes (cur s) (needs (a :: groupRegs (q ++ 0#2) 4) [d]))
include hgo

theorem sendsTask_callat (p cl : BitVec 2) :
    SendsTask s (.callat d a q p cl) d ((regVal (cur s) a).toNat / 2 ^ 48 % 2 ^ 12)
      (.callat { ltag := (getCore s s.focus).launch.getD 0, dual := false, prio := p.toNat, cls := cl.toNat,
                 entry := (regVal (cur s) a).setWidth 48, args := groupVals (cur s) (q ++ 0#2) 4 })
      (.callatArrive (s.nextId + 1)) := by
  refine sendsTask_of_sendTask (opcode := 0x1401) (dest := (regVal (cur s) a).toNat / 2 ^ 48 % 2 ^ 12)
    (operands := recordOperands (spawnRecord (getCore s s.focus) a (q ++ 0#2) p cl false)) hpair ?_
  show execCallat d a q p cl s = _
  unfold execCallat
  refine issue_some hgo ?_
  simp only [issuedOf_core, getCore_setCtx_self, holdsStores_passUnit, hstores, modCtx_setCtx]
  rfl

theorem sendsTask_msend :
    SendsTask s (.msend d a q) d ((regVal (cur s) a).toNat % 2 ^ 28 / 2 ^ 16)
      (.mail 1 ((regVal (cur s) a).toNat % 2 ^ 28) (groupVals (cur s) (q ++ 0#2) 4)) (.messageArrive (s.nextId + 1)) := by
  refine sendsTask_of_sendTask (opcode := 0x1404) (dest := (regVal (cur s) a).toNat % 2 ^ 28)
    (operands := (groupVals (cur s) (q ++ 0#2) 4).map BitVec.toNat) hpair ?_
  show execMsend d a q s = _
  unfold execMsend mailBody
  refine issue_some hgo ?_
  simp only [issuedOf_core, getCtx_setCtx_self, holdsStores_passUnit, hstores, modCtx_setCtx]
  rfl

end

variable (hgo : Goes (cur s) (needs [a, b] [d]))
include hgo

theorem sendsTask_retv :
    SendsTask s (.retv d a b) d ((regVal (cur s) a).toNat % 2 ^ 28 / 2 ^ 16)
      (.mail 2 ((regVal (cur s) a).toNat % 2 ^ 28) [regVal (cur s) b, 0, 0, 0]) (.messageArrive (s.nextId + 1)) := by
  refine sendsTask_of_sendTask (opcode := 0x1402) (dest := (regVal (cur s) a).toNat % 2 ^ 28)
    (operands := [regVal (cur s) b, 0, 0, 0].map BitVec.toNat) hpair ?_
  show execRetv d a b s = _
  unfold execRetv mailBody
  refine issue_some hgo ?_
  simp only [issuedOf_core, getCtx_setCtx_self, holdsStores_passUnit, hstores, modCtx_setCtx]
  rfl

theorem sendsTask_rndclose (hdual : (cur s).sys.dual = false) :
    SendsTask s (.rndclose d a b) d ((regVal (cur s) a).toNat % 2 ^ 12) (.rndclose ((regVal (cur s) b).toNat % 2 ^ 16))
      (.roundCloseArrive (s.nextId + 1)) := by
  refine sendsTask_of_sendTask (opcode := 0x1605) (dest := (regVal (cur s) a).toNat % 2 ^ 12) (operands := []) hpair ?_
  show execRndclose d a b s = _
  unfold execRndclose
  refine issue_some hgo ?_
  simp only [issuedOf_core, getCtx_setCtx_self, holdsStores_passUnit, hstores, passUnit_sys, hdual, modCtx_setCtx]
  rfl

end

/-! ### MPOLL (R370) -/

theorem takeMail_append {g : Nat} {m : Mail} {post : List Mail} (hm : m.gen = g) :
    ∀ {pre : List Mail}, (∀ e ∈ pre, e.gen ≠ g) → takeMail g (pre ++ m :: post) = some (m, pre ++ post)
  | [], _ => if_pos hm
  | e :: pre, hpre => by
    rw [List.cons_append, takeMail, if_neg (hpre e (List.mem_cons_self ..)),
      takeMail_append hm fun f hf => hpre f (List.mem_cons_of_mem e hf)]
    rfl

theorem takeMail_none {g : Nat} : ∀ {ms : List Mail}, (∀ e ∈ ms, e.gen ≠ g) → takeMail g ms = none
  | [], _ => rfl
  | e :: ms, h => by
    rw [takeMail, if_neg (h e (List.mem_cons_self ..)), takeMail_none fun f hf => h f (List.mem_cons_of_mem e hf)]
    rfl

section
variable {s : State} {d : BitVec 5} {q : BitVec 3} (hgo : Goes (cur s) (needs [] (d :: groupRegs (q ++ 0#2) 4)))
  (hloads : holdsLoads (cur s) = false) (hdual : (cur s).sys.dual = false)
include hgo hloads hdual

/-- MPOLL without a message of the task's name (R370). -/
theorem exec_mpoll_empty (htake : takeMail (nameGen (cur s).sys.tid).toNat (getCore s s.focus).mail = none) :
    exec (.mpoll d q) s = .next (withCur s (setStatus (setCommit (passUnit (cur s))) d 0x51)) := by
  have hloads' : holdsLoads (setCommit (passUnit (cur s))) = false := (holdsLoads_passUnit _).trans hloads
  have hdual' : (setCommit (passUnit (cur s))).sys.dual = false := hdual
  have htake' : takeMail (nameGen (setCommit (passUnit (cur s))).sys.tid).toNat (getCore s s.focus).mail = none := htake
  show execMpoll d q s = _
  unfold execMpoll
  refine issue_some hgo ?_
  simp only [issuedOf_core, modCtx_setCtx, getCore_setCtx_self, hloads', hdual', Bool.false_eq_true, if_false, htake', putTask]
  rfl

/-- MPOLL with the oldest message of the task's name (R370). -/
theorem exec_mpoll_takes {m : Mail} {rest : List Mail}
    (htake : takeMail (nameGen (cur s).sys.tid).toNat (getCore s s.focus).mail = some (m, rest)) :
    exec (.mpoll d q) s = .next (setCore s s.focus { getCore s s.focus with
      mail := rest, ctx := setStatus (setGroup (setCommit (passUnit (cur s))) (q ++ 0#2) m.body) d (mailStatus m) }) := by
  have hloads' : holdsLoads (setCommit (passUnit (cur s))) = false := (holdsLoads_passUnit _).trans hloads
  have hdual' : (setCommit (passUnit (cur s))).sys.dual = false := hdual
  have htake' : takeMail (nameGen (setCommit (passUnit (cur s))).sys.tid).toNat (getCore s s.focus).mail = some (m, rest) := htake
  show execMpoll d q s = _
  unfold execMpoll
  refine issue_some hgo ?_
  simp only [issuedOf_core, modCtx_setCtx, getCore_setCtx_self, hloads', hdual', Bool.false_eq_true, if_false, htake']
  rw [setCtx, modCore, setCore_setCore]
  rfl

end

theorem packWord_three (a b c i j k : Nat) :
    packWord [(a, i), (b, j), (c, k)] = BitVec.ofNat 64 (0 + a * 2 ^ i + b * 2 ^ j + c * 2 ^ k) := rfl

theorem mailStatus_eq (m : Mail) : mailStatus m = BitVec.ofNat 64 (1 + m.kind * 2 ^ 12 + m.sender * 2 ^ 32) := by
  rw [mailStatus, packWord_three, Nat.pow_zero, Nat.one_mul, Nat.zero_add]

/-- MPOLL takes the oldest message of the task's name out of the store (R370). -/
theorem polls {s : State} {d : BitVec 5} {q : BitVec 3} (hgo : Goes (cur s) (needs [] (d :: groupRegs (q ++ 0#2) 4)))
    (hloads : holdsLoads (cur s) = false) (hdual : (cur s).sys.dual = false) {pre post : List Mail} {m : Mail}
    (hmail : (getCore s s.focus).mail = pre ++ m :: post) (hpre : ∀ e ∈ pre, e.gen ≠ (nameGen (cur s).sys.tid).toNat)
    (hm : m.gen = (nameGen (cur s).sys.tid).toNat) :
    ∃ t : State, exec (.mpoll d q) s = .next t ∧ (getCore t s.focus).mail = pre ++ post ∧
      cur t = setStatus (setGroup (setCommit (passUnit (cur s))) (q ++ 0#2) m.body) d (mailStatus m) := by
  have htake : takeMail (nameGen (cur s).sys.tid).toNat (getCore s s.focus).mail = some (m, pre ++ post) :=
    hmail ▸ takeMail_append hm hpre
  refine ⟨_, exec_mpoll_takes hgo hloads hdual htake, ?_, ?_⟩
  · rw [getCore_setCore_self]
  · rw [cur, setCore_focus, getCtx, getCore_setCore_self]

/-! ### Arrival (R363, R364, R368, R369) -/

/-- The sender has been told a code of R356, and neither its operation nor its message is left. -/
def TaskTold (t : State) (m : TaskMsg) (o : Op) (code : Nat) : Prop :=
  regVal (getCtx t o.core) o.reg = BitVec.ofNat 64 (code * 16 + 1) ∧ isMarked (getCtx t o.core) o.reg = false ∧
    findOp t m.op = none ∧ findMsg t m.id = none

section
variable {s u : State} {m : TaskMsg} {o : Op} (htwin : m.twin = none) (hid : o.id = m.op)
  (hop : findOp u m.op = some o) (hrun : runsSerial (getCtx u o.core) o.serial = true)
  (hm : (getReg (getCtx u o.core) o.reg).mark = .op o.id) (hreg : o.reg ≠ 0)
include htwin hid hop hrun hm hreg

theorem taskTold_endMsg (code : Nat) : TaskTold (endMsg u m (taskStatus code)) m o code := by
  have hend : endMsg u m (taskStatus code) = endOp (dropMsg u m.id) o.id (taskStatus code) := by
    rw [endMsg, htwin, hid]
  have hctx : getReg (getCtx (endMsg u m (taskStatus code)) o.core) o.reg = { val := taskStatus code, poison := none, mark := .clear } := by
    rw [hend, endOp_awaited (dropMsg u m.id) o _ (hid ▸ hop) hrun hm, getCtx_dropOp, getCtx_modCtx_self, getReg_latchEvt]
    exact getReg_settleMark_self hreg hm _
  have hended := endedWith_endOp (s := dropMsg u m.id) (hid ▸ hop : findOp u o.id = some o) (taskStatus code)
  refine ⟨congrArg Reg.val hctx, isMarked_false (congrArg Reg.mark hctx), ?_, findMsg_endMsg ..⟩
  rw [hend, ← hid]
  exact hended.1

end

section
variable {s : State} {m : TaskMsg} (hmsg : findMsg s m.id = some m) (htag : m.tag = none) (hwait : msgWaits s m = false)
  (hreach : taskReach s m.core m.target m.egen = none)
include hmsg htag hwait

theorem exec_callatArrive {r : WorkRec} (hbody : m.body = .callat r) {u : State × Nat} (hu : callatAt s m r = u) :
    exec (.callatArrive m.id) s = .next (endMsg u.1 m (taskStatus u.2)) := by
  subst hu
  show execCallatArrive m.id s = _
  unfold execCallatArrive
  simp only [hmsg, hbody, htag, hwait]
  rfl

theorem exec_messageArrive {kind name : Nat} {body : List Word} (hbody : m.body = .mail kind name body) {u : State × Nat}
    (hu : mailAt s m kind name body = u) : exec (.messageArrive m.id) s = .next (endMsg u.1 m (taskStatus u.2)) := by
  subst hu
  show execMessageArrive m.id s = _
  unfold execMessageArrive
  simp only [hmsg, hbody, htag, hwait]
  rfl

omit hmsg htag hwait
include hreach

/-- The state in which a CALLAT record has taken an entry of its target's activation queue (R368). -/
abbrev calledAt (s : State) (m : TaskMsg) (r : WorkRec) (i : Nat) : State :=
  deliverAq (countCreated (bindLaunch s m.target r.ltag (some m.core)) m.target) m.target i (plainAq r none false)

section
variable {r : WorkRec} (hlaunch : (getCore s m.target).launch = none ∨ (getCore s m.target).launch = some r.ltag)
  (hclass : mayRun m.target r.cls = true)
include hlaunch hclass

theorem callatAt_free {i : Nat} (hi : freeAq (getCore s m.target) = some i) : callatAt s m r = (calledAt s m r i, 0) := by
  unfold callatAt
  rcases hlaunch with hl | hl <;> simp only [hreach, hl, hclass, hi, bne_self_eq_false] <;> rfl

theorem callatAt_full (hi : freeAq (getCore s m.target) = none) : callatAt s m r = (s, 1) := by
  unfold callatAt
  rcases hlaunch with hl | hl <;> simp only [hreach, hl, hclass, hi, bne_self_eq_false] <;> rfl

end

section
variable {kind name : Nat} {body : List Word} (hseal : (getCore s m.target).sealedStore = false)
  (hgens : (getCore s m.target).sealedGens.contains (name % 2 ^ 16) = false)
  (hdual : dualName (getCore s m.target) (BitVec.ofNat 28 name) = false)
include hseal hgens

/-- The target's core with a message stored behind the others, and event bit 0 latched where the task runs (R363, R369). -/
def mailedCore (k : Core) (m : TaskMsg) (kind name : Nat) (body : List Word) : Core :=
  { k with
    mail := k.mail ++ [{ gen := name % 2 ^ 16, sender := m.name, kind := kind, body := body }],
    ctx := latchMail (BitVec.ofNat 28 name) k.ctx, susp := k.susp.map (latchMail (BitVec.ofNat 28 name)) }

include hdual in
theorem mailAt_stored (hlive : ∃ e ∈ (getCore s m.target).live, e.gen = name % 2 ^ 16) (hroom : (getCore s m.target).mail.length < 32) :
    mailAt s m kind name body = (setCore s m.target (mailedCore (getCore s m.target) m kind name body), 0) := by
  have hany : (getCore s m.target).live.any (fun e => e.gen == name % 2 ^ 16) = true :=
    List.any_eq_true.2 (by simpa only [beq_iff_eq] using hlive)
  have hopen : ¬ ((getCore s m.target).sealedStore || (getCore s m.target).sealedGens.contains (name % 2 ^ 16)) = true := by
    rw [hseal, hgens]
    decide
  unfold mailAt
  rw [hreach]
  exact (if_neg hopen).trans ((if_neg (by rw [hany]; decide)).trans
    ((if_neg (by rw [hdual]; decide)).trans (if_neg (Nat.not_le.2 hroom))))

theorem mailAt_stale (hlive : ∀ e ∈ (getCore s m.target).live, e.gen ≠ name % 2 ^ 16) :
    mailAt s m kind name body = (count s (.staleMessages m.target) 1, 3) := by
  have hany : (getCore s m.target).live.any (fun e => e.gen == name % 2 ^ 16) = false :=
    List.any_eq_false.2 (by simpa only [beq_iff_eq] using hlive)
  unfold mailAt
  simp only [hreach, hseal, hgens, hany]
  rfl

end

end

theorem latchMail_regs (name : BitVec 28) (x : Ctx) : (latchMail name x).regs = x.regs ∧ (latchMail name x).act = x.act := by
  unfold latchMail
  split <;> exact ⟨rfl, rfl⟩

/-- What tells an operation's end: its registers and its activation (R157). -/
structure SameWait (s t : State) (c : Nat) : Prop where
  regs : (getCtx t c).regs = (getCtx s c).regs
  act : (getCtx t c).act = (getCtx s c).act

section
variable {s t : State} {o : Op} (h : SameWait s t o.core)
include h

theorem SameWait.runsSerial : runsSerial (getCtx t o.core) o.serial = runsSerial (getCtx s o.core) o.serial := by
  rw [Machine.runsSerial, h.act, Machine.runsSerial]

theorem SameWait.getReg (r : BitVec 5) : getReg (getCtx t o.core) r = getReg (getCtx s o.core) r := by
  rw [Machine.getReg, h.regs, Machine.getReg]

end

/-- A delivered record changes the activation queue of its core, and nothing else of a core. -/
theorem getCore_deliverAq_field {α : Type} {g : Core → α} (s : State) (c i : Nat) (w : AqRecord) {d : Nat}
    (h : ∀ k q, g { k with aq := q } = g k) : g (getCore (deliverAq s c i w) d) = g (getCore s d) :=
  getCore_modCore_field (bumpId s) c d (f := fun k => putAq k i (.delivered { w with order := s.nextId })) fun k => h k _

theorem sameWait_bindLaunch (s : State) (c ltag : Nat) (parent : Option Nat) (d : Nat) : SameWait s (bindLaunch s c ltag parent) d :=
  ⟨getCore_bindLaunch_field s c d ltag parent (g := fun k => k.ctx.regs) fun _ _ => rfl,
    getCore_bindLaunch_field s c d ltag parent (g := fun k => k.ctx.act) fun _ _ => rfl⟩

theorem sameWait_calledAt (s : State) (m : TaskMsg) (r : WorkRec) (i d : Nat) : SameWait s (calledAt s m r i) d := by
  have hctx : getCtx (calledAt s m r i) d = getCtx (bindLaunch s m.target r.ltag (some m.core)) d :=
    (getCore_deliverAq_field _ _ _ _ (g := Core.ctx) fun _ _ => rfl).trans
      (getCore_countCreated_field _ _ _ (g := Core.ctx) fun _ _ => rfl)
  obtain ⟨hregs, hact⟩ := sameWait_bindLaunch s m.target r.ltag (some m.core) d
  exact ⟨(congrArg Ctx.regs hctx).trans hregs, (congrArg Ctx.act hctx).trans hact⟩

theorem sameWait_mailed (s : State) (c : Nat) (m : TaskMsg) (kind name : Nat) (body : List Word) (d : Nat) :
    SameWait s (setCore s c (mailedCore (getCore s c) m kind name body)) d := by
  by_cases h : d = c
  · subst h
    obtain ⟨hregs, hact⟩ := latchMail_regs (BitVec.ofNat 28 name) (getCtx s d)
    constructor <;> rw [getCtx, getCore_setCore_self]
    · exact hregs
    · exact hact
  · constructor <;> rw [getCtx, getCore_setCore_ne _ _ _ _ h] <;> rfl

/-- The end of an operation keeps a latched event bit 0 (R246). -/
theorem evt_endMsg_bit0 {s : State} {m : TaskMsg} {o : Op} (htwin : m.twin = none) (hid : o.id = m.op) (hop : findOp s m.op = some o)
    (hrun : runsSerial (getCtx s o.core) o.serial = true) (hm : (getReg (getCtx s o.core) o.reg).mark = .op o.id) (v : Word) {c : Nat}
    (hbit : (getCtx s c).sys.evt.getLsbD 0 = true) : (getCtx (endMsg s m v) c).sys.evt.getLsbD 0 = true := by
  have hend : endMsg s m v = endOp (dropMsg s m.id) o.id v := by rw [endMsg, htwin, hid]
  by_cases hc : c = o.core
  · subst hc
    rw [hend, endOp_latches (s := dropMsg s m.id) (hid ▸ hop) hrun hm]
    exact (BitVec.getLsbD_or ..).trans (by rw [show (getCtx (dropMsg s m.id) o.core).sys.evt.getLsbD 0 = true from hbit, Bool.true_or])
  · rw [hend, endOp_awaited (dropMsg s m.id) o v (hid ▸ hop) hrun hm, getCtx_dropOp]
    exact (congrArg (fun k => k.ctx.sys.evt.getLsbD 0) (getCore_modCore_ne (dropMsg s m.id) _ hc)).trans hbit

/-- Settles O25. -/
theorem messages : Obligations.Messages := by
  refine ⟨?_, ?_, ?_⟩
  · intro s d a b q p cl x c g v sends hstores hdual hpair
    exact ⟨fun hgo => ⟨sendsTask_callat hstores hpair hgo p cl, sendsTask_msend hstores hpair hgo⟩,
      fun hgo => ⟨sendsTask_retv hstores hpair hgo, sendsTask_rndclose hstores hpair hgo hdual⟩⟩
  · exact fun s d q hgo hloads hdual =>
      ⟨fun pre m post hmail hpre hm => mailStatus_eq m ▸ polls hgo hloads hdual hmail hpre hm,
        fun hnone => exec_mpoll_empty hgo hloads hdual (takeMail_none hnone)⟩
  · intro s m o hmsg htag htwin hwait hreach hop hid hrun hm hreg k told
    have tells {u : State} (hw : SameWait s u o.core) (hops : u.ops = s.ops) (code : Nat) :
        TaskTold (endMsg u m (taskStatus code)) m o code :=
      taskTold_endMsg htwin hid ((findOp_congr hops _).trans hop) (hw.runsSerial.trans hrun) (by rw [hw.getReg, hm]) hreg code
    constructor
    · intro r hbody hlaunch hclass
      refine ⟨fun i hi => ?_, fun hi => ?_⟩
      · refine ⟨_, exec_callatArrive hmsg htag hwait hbody (callatAt_free hreach hlaunch hclass hi),
          tells (sameWait_calledAt ..) ?_ 0, ?_, ?_, ?_⟩
        · exact (coresOnly_bindLaunch s m.target r.ltag (some m.core)).field State.ops
        · rw [getCore_endMsg_field (g := Core.launch) (fun _ _ => rfl) (fun _ _ => rfl)]
          refine (getCore_deliverAq_field _ _ _ _ (g := Core.launch) fun _ _ => rfl).trans
            ((getCore_countCreated_field _ _ _ (g := Core.launch) fun _ _ => rfl).trans (launch_bindLaunch_self ..))
        · rw [getCore_endMsg_field (g := Core.aq) (fun _ _ => rfl) (fun _ _ => rfl), getCore_deliverAq_self,
            aq_putAq_self _ _ (freeAq_lt hi)]
          exact congrArg (fun n => AqEntry.delivered { plainAq r none false with order := n }) (bindLaunch_nextId ..)
        · rw [endMsg_eq]
          exact List.mem_append_right _ (List.mem_singleton_self _)
      · refine ⟨_, exec_callatArrive hmsg htag hwait hbody (callatAt_full hreach hlaunch hclass hi), tells ⟨rfl, rfl⟩ rfl 1, ?_⟩
        exact getCore_endMsg_field (g := Core.aq) (fun _ _ => rfl) (fun _ _ => rfl) ..
    · intro kind name body hbody hseal hgens hdual
      refine ⟨fun hlive hroom => ?_, fun hlive => ?_⟩
      · refine ⟨_, exec_messageArrive hmsg htag hwait hbody (mailAt_stored hreach hseal hgens hdual hlive hroom),
          tells (sameWait_mailed ..) rfl 0, ?_, fun hact htid => ?_⟩
        · rw [getCore_endMsg_field (g := Core.mail) (fun _ _ => rfl) (fun _ _ => rfl), getCore_setCore_self]
          rfl
        · have hw := sameWait_mailed s m.target m kind name body o.core
          refine evt_endMsg_bit0 (s := setCore s m.target (mailedCore k m kind name body)) htwin hid hop
            (hw.runsSerial.trans hrun) (by rw [hw.getReg, hm]) _ ?_
          have hlatch : latchMail (BitVec.ofNat 28 name) k.ctx = latchEvt k.ctx 1 := if_pos ⟨hact, htid⟩
          rw [getCtx, getCore_setCore_self]
          show (latchMail (BitVec.ofNat 28 name) k.ctx).sys.evt.getLsbD 0 = true
          rw [hlatch]
          simp [latchEvt]
      · refine ⟨_, exec_messageArrive hmsg htag hwait hbody (mailAt_stale hreach hseal hgens hlive),
          tells (u := count s (.staleMessages m.target) 1) ⟨rfl, rfl⟩ rfl 3, ?_⟩
        exact getCore_endMsg_field (g := Core.mail) (fun _ _ => rfl) (fun _ _ => rfl) ..

end Sys2Proof.Machine
end

section
/-! END on a core whose gang does not name it (R50, R374). -/

namespace Sys2Proof.Machine

/-- Core 0 with a tile unit in its sequencer, and its gang entry naming cores 2 and 3 as the members. -/
def strayMember : State :=
  setCore State.reset 0 { resetCore with
    state := .running, gang := .member 2 2 0 0 0 0,
    ctx := { resetCtx with
      seq := [{ unit := { id := 0, upc := 0, instr := .azero 0 0 0, xmod := none, gval := 0, gen := none }, body := [] }] } }

theorem goes_strayMember : Goes (cur strayMember) (needs [] []) :=
  ⟨rfl, rfl, .inr rfl, fun h => absurd h (by decide), fun r hr => absurd hr (List.not_mem_nil), fun r hr => absurd hr (List.not_mem_nil)⟩

/-- END asks the members that the gang names, cores 2 and 3, whose tile streams are empty, and ends the activation. -/
theorem exec_endAct_strayMember : ∃ t, exec .endAct strayMember = .next t ∧ (getCore t 0).state = .idle := ⟨_, rfl, rfl⟩

/-- Refutes O24: END is said to wait wherever the core's own sequencer holds an entry, in a gang as outside one. In a gang END waits for
the members that the gang entry names (R374); the entry of core 0 in `strayMember` names cores 2 and 3, and END of core 0 goes, though a
tile unit of its own is in its sequencer. -/
theorem not_tasksAndGangs : ¬ Obligations.TasksAndGangs := by
  unfold Obligations.TasksAndGangs
  rintro ⟨-, -, hend⟩
  obtain ⟨hwait, -⟩ := hend strayMember goes_strayMember
  obtain ⟨t, hexec, hidle⟩ := exec_endAct_strayMember
  obtain rfl := Host.Outcome.next.inj ((hwait (List.ne_nil_of_length_pos Nat.one_pos)).symm.trans hexec)
  exact absurd hidle (by decide)

end Sys2Proof.Machine
end

section
/-! A trap of the tile stream while a GSYNC outside a gang waits for it (R206, R374, R538). -/

namespace Sys2Proof.Machine

/-- Core 0 in a GSYNC outside a gang, which waits for the tile stream; the tile stream has a trap pending. -/
def gsyncTrapped : State :=
  setCore State.reset 0 { resetCore with
    state := .running,
    ctx := { resetCtx with wait := .tileIdle 1, tileTrap := some { code := causeShape, param := 0, addr := 0, upc := 0 } } }

/-- Taking the trap ends the wait: the status NOGANG stands in the register of the GSYNC. -/
theorem exec_trapEntry_gsyncTrapped :
    ∃ t, exec (.trapEntry 0) gsyncTrapped = .next t ∧ (getReg (getCtx t 0) 1).val = taskStatus 9 := ⟨_, rfl, rfl⟩

/-- Refutes O10: TRAP_ENTRY is said to leave every register. Where the control stream stands in a GSYNC outside a gang, the wait for the
tile stream ends when its trap is taken, and the GSYNC's register receives NOGANG (R206, R374): register 1 of core 0 in `gsyncTrapped`
is 0 before and `taskStatus 9` after. -/
theorem not_traps : ¬ Obligations.Traps := by
  unfold Obligations.Traps
  rintro ⟨-, hentry, -⟩
  obtain ⟨htake, -⟩ := hentry gsyncTrapped 0 { code := causeShape, param := 0, addr := 0, upc := 0 } rfl
  obtain ⟨u, hu, -, -, -, -, -, hregs, -⟩ := htake rfl rfl rfl rfl rfl (by decide)
  obtain ⟨t, ht, hval⟩ := exec_trapEntry_gsyncTrapped
  obtain rfl := Host.Outcome.next.inj (hu.symm.trans ht)
  have hkept : getReg (getCtx u 0) 1 = getReg (getCtx gsyncTrapped 0) 1 := by rw [getReg, hregs, getReg]
  exact absurd (hkept ▸ hval) (by decide)

end Sys2Proof.Machine
end

section
/-! Translation at the stations, and the answers of a Foreman to a parked access (R252, R407-R410, R513). -/

namespace Sys2Proof.Machine

/-! ### STATION_TRANSLATE (R408, R513) -/

theorem findAcc_congr {s t : State} (h : t.accs = s.accs) (n : Nat) : findAcc t n = findAcc s n := by rw [findAcc, h, findAcc]

/-- An access stands at a stage, its kind and its data as they were. -/
def StandsAt (t : State) (a : Access) (st : AccStage) : Prop :=
  ∃ e : Access, findAcc t a.id = some e ∧ e.stage = st ∧ e.data = a.data ∧ e.kind = a.kind

theorem standsAt_of_accs {s t : State} {a : Access} (ha : findAcc s a.id = some a) {st : AccStage}
    (ht : t.accs = (stageAcc s a.id st).accs) : StandsAt t a st :=
  ⟨_, (findAcc_congr ht _).trans (findAcc_stageAcc ha st), rfl, rfl, rfl⟩

/-- What becomes of an access at its port, by the outcome of its walk (R408, R513). -/
def walked (s : State) (a : Access) (w : Walk) : State :=
  match w with
  | .page pa => translated s a false pa
  | .window ra => translated s a true ra
  | .fault => if a.kind = .store then parkAcc s a true else failAcc s a 0 a.addr
  | .refused => failAcc s a 1 a.addr
  | .hold => push s (.stationTranslate a.id)

section
variable {s : State} {a : Access} (ha : findAcc s a.id = some a) (hst : a.stage = .sent) (hspace : spaceOf a.addr = 4)
  (hwait : waitsAtPort s a = false) (hpark : parkedBefore s a = false)
include ha hst hspace hwait hpark

/-- What an access meets that is first at its port (R408, R513). -/
theorem exec_stationTranslate {w : Walk} (hw : accWalk s a = w) :
    exec (.stationTranslate a.id) s = .next (walked s a w) := by
  have hun : accUntranslated a = true := by
    unfold accUntranslated
    rw [hst, hspace]
    rfl
  show execStationTranslate a.id s = _
  unfold execStationTranslate
  simp only [ha, hun, hwait, hpark, Bool.not_true, Bool.false_eq_true, if_false, hw]
  clear hw
  unfold walked
  cases w with
  | fault => exact (apply_ite done ..).symm
  | page pa => rfl
  | window ra => rfl
  | refused => rfl
  | hold => rfl

end

section
variable {s : State} {a : Access}

theorem parkAcc_room (own : Bool) (h : (s.fq.filter (fun e => e.port == portOf s a)).length < 64) :
    parkAcc s a own =
      count { stageAcc s a.id (.parked (portOf s a)) with
        fq := s.fq ++ [{ port := portOf s a, what := .access a.id, own := own }] } (.parks (portOf s a)) 1 :=
  if_neg (Nat.not_le.2 h)

theorem parkAcc_full (own : Bool) (h : 64 ≤ (s.fq.filter (fun e => e.port == portOf s a)).length) :
    parkAcc s a own =
      push (count (stageAcc s a.id (.held (portOf s a))) (.returned (portOf s a)) 1) (.faultQueueRetry a.id) := if_pos h

theorem failAcc_store (hk : a.kind = .store) (kind : Nat) (addr : Word) :
    failAcc s a kind addr = failStore (dropAcc s a.id) a.core a.gen (kind == 3) := by
  unfold failAcc
  rw [hk]

theorem failAcc_load {d : BitVec 5} {sx : Bool} {upc : Word} (hk : a.kind = .load d sx upc) (kind : Nat) (addr : Word) :
    failAcc s a kind addr = push (stageAcc s a.id (.failed kind addr)) (.loadResponse a.id) := by
  unfold failAcc
  rw [hk]

end

/-- A failed store is counted at its core, and nothing but counters and cores changes (R252, R269). -/
theorem failStore_eq (s : State) (c gen : Nat) (lost : Bool) :
    failStore s c gen lost =
      { s with cores := (failStore s c gen lost).cores, counters := (failStore s c gen lost).counters } := by
  unfold failStore
  dsimp only
  split <;> split <;> rfl

theorem find?_tallyFail (gen : Nat) (lost : Bool) : ∀ gens : List LiveGen,
    (gens.map fun e => if e.gen = gen then { e with tally := tallyFail lost e.tally } else e).find? (fun e => e.gen == gen) =
      (gens.find? (fun e => e.gen == gen)).map fun e => { e with tally := tallyFail lost e.tally }
  | [] => rfl
  | e :: gens => by
    by_cases he : e.gen = gen
    · simp [he]
    · simp [he, find?_tallyFail gen lost gens]

/-- A failed store of a live generation counts for the next FENCE of its task (R252, R269). -/
theorem fails_failStore {s : State} {c gen : Nat} (lost : Bool) (hlive : ∃ l ∈ (getCore s c).live, l.gen = gen) :
    (tallyOf (getCore (failStore s c gen lost) c).live gen).fails = (tallyOf (getCore s c).live gen).fails + 1 := by
  have hcore (k : Counter) (n : Nat) : getCore (if lost then s else count s k n) c = getCore s c := by split <;> rfl
  have hany : (getCore s c).live.any (fun e => e.gen == gen) = true := List.any_eq_true.2 (by simpa only [beq_iff_eq] using hlive)
  obtain ⟨l, hl⟩ : ∃ l, (getCore s c).live.find? (fun e => e.gen == gen) = some l :=
    Option.isSome_iff_exists.1 (List.find?_isSome.2 (by simpa only [beq_iff_eq] using hlive))
  unfold failStore
  dsimp only
  rw [hcore, if_pos hany, getCore_modCore_self, hcore, tallyOf, find?_tallyFail, hl, tallyOf, hl]
  rfl

/-! ### Replays (R409) -/

/-- The replay of parked accesses changes accesses and the agenda only. -/
theorem replayFold_eq (t : State) (ids : List Nat) :
    ids.foldl (fun u id => push (stageAcc u id .sent) (.stationTranslate id)) t =
      { t with accs := (ids.foldl (fun u id => push (stageAcc u id .sent) (.stationTranslate id)) t).accs,
               agenda := t.agenda ++ ids.map .stationTranslate } := by
  induction ids generalizing t with
  | nil => simp
  | cons id ids ih =>
    rw [List.foldl_cons, ih]
    simp [push, stageAcc]

/-- An access that is gone does not come back. -/
theorem findAcc_replayFold {n : Nat} (ids : List Nat) (t : State) (h : findAcc t n = none) :
    findAcc (ids.foldl (fun u id => push (stageAcc u id .sent) (.stationTranslate id)) t) n = none := by
  refine foldl_induction (motive := fun u => findAcc u n = none) (fun u id hu => ?_) h
  have hids : ∀ a ∈ u.accs, ¬ (a.id == n) = true := List.find?_eq_none.1 hu
  refine List.find?_eq_none.2 fun a ha => ?_
  obtain ⟨b, hb, rfl⟩ := List.mem_map.1 ha
  have hb' := hids b hb
  split <;> exact hb'

theorem replayAccs_eq (s : State) (port core : Nat) :
    replayAccs s port core =
      { s with accs := (replayAccs s port core).accs,
               fq := s.fq.filter (fun e => !(e.port == port && (parkedCore s e.what == some core))),
               agenda := s.agenda ++ (parkedOf s port core).map .stationTranslate } := by
  unfold replayAccs
  rw [replayFold_eq]

theorem findAcc_replayAccs {s : State} {n : Nat} (port core : Nat) (h : findAcc s n = none) : findAcc (replayAccs s port core) n = none :=
  findAcc_replayFold _ _ h

section
variable {s : State} {port n : Nat} {e : FaultEntry} {a : Access}
variable (he : ownEntry s port n = some e) (hwhat : e.what = .access a.id) (ha : findAcc s a.id = some a)
include he hwhat ha

theorem exec_faultResolve : exec (.faultResolve port n) s = .next (replayAccs s port a.core) := by
  show execFaultResolve port n s = _
  unfold execFaultResolve
  simp only [he, hwhat, ha]
  rfl

/-- The state in which a parked store has been refused, and those behind it are still parked (R331, R409). -/
abbrev storeDeclined (s : State) (port : Nat) (e : FaultEntry) (a : Access) : State :=
  failStore (dropAcc (count (dropEntry s e) (.refusals port) 1) a.id) a.core a.gen false

theorem declineFault_store (hk : a.kind = .store) : declineFault s port n = replayAccs (storeDeclined s port e a) port a.core := by
  unfold declineFault
  simp only [he, hwhat, ha, failAcc_store hk]
  rfl

end

/-- The accesses behind a refused one are still parked. -/
theorem mem_parkedOf_storeDeclined {s : State} {port id : Nat} {e : FaultEntry} {a : Access} (hwhat : e.what = .access a.id)
    (hid : id ∈ parkedOf s port a.core) (hne : id ≠ a.id) : id ∈ parkedOf (storeDeclined s port e a) port a.core := by
  have hfind : findAcc (storeDeclined s port e a) id = findAcc s id := by
    rw [storeDeclined, failStore_eq]
    exact List.find?_filter.trans (congrArg (fun p => List.find? p s.accs) (by
      funext r
      by_cases hr : r.id = id
      · simp [hr, hne]
      · simp [hr]))
  have hfq : (storeDeclined s port e a).fq = s.fq.filter (fun f => f != e) := by
    rw [storeDeclined, failStore_eq]
    rfl
  obtain ⟨f, hf, hmap⟩ := List.mem_filterMap.1 hid
  obtain ⟨hmem, hport⟩ := List.mem_filter.1 hf
  cases hw : f.what with
  | access j =>
    rw [hw] at hmap
    obtain ⟨hcore, hj⟩ : parkedCore s (.access j) = some a.core ∧ j = id := by
      by_cases hc : parkedCore s (.access j) = some a.core
      · exact ⟨hc, Option.some.inj ((if_pos hc).symm.trans hmap)⟩
      · exact absurd ((if_neg hc).symm.trans hmap) (by simp)
    subst hj
    have hfe : f ≠ e := by
      rintro rfl
      exact hne (Parked.access.inj (hw.symm.trans hwhat))
    refine List.mem_filterMap.2 ⟨f, List.mem_filter.2 ⟨hfq ▸ List.mem_filter.2 ⟨hmem, by simpa using hfe⟩, hport⟩, ?_⟩
    have hcore' : parkedCore (storeDeclined s port e a) (.access j) = some a.core := by rw [parkedCore, hfind]; exact hcore
    rw [hw]
    exact if_pos hcore'
  | row op row => rw [hw] at hmap; cases hmap
  | packet q k => rw [hw] at hmap; cases hmap

/-- What is left of a parked store that has been refused (R409). -/
theorem declined {s : State} {port : Nat} {e : FaultEntry} {a : Access} (hwhat : e.what = .access a.id) :
    let t := replayAccs (storeDeclined s port e a) port a.core
    findAcc t a.id = none ∧ e ∉ t.fq ∧ SameMem s t ∧
      (∀ id ∈ parkedOf s port a.core, id ≠ a.id → .stationTranslate id ∈ t.agenda) ∧
      ((∃ l ∈ (getCore s a.core).live, l.gen = a.gen) →
        (tallyOf (getCore t a.core).live a.gen).fails = (tallyOf (getCore s a.core).live a.gen).fails + 1) := by
  intro t
  have ht : t = _ := replayAccs_eq (storeDeclined s port e a) port a.core
  refine ⟨findAcc_replayAccs _ _ ?_, ?_, ?_, fun id hid hne => ?_, fun hlive => ?_⟩
  · rw [storeDeclined, failStore_eq]
    exact findAcc_dropAcc_self ..
  · rw [ht, storeDeclined, failStore_eq]
    simp [dropAcc, count, dropEntry]
  · rw [ht, storeDeclined, failStore_eq]
    exact ⟨fun _ => rfl, fun _ => rfl⟩
  · rw [ht]
    exact List.mem_append_right _ (List.mem_map.2 ⟨id, mem_parkedOf_storeDeclined hwhat hid hne, rfl⟩)
  · have hcore : getCore t a.core = getCore (storeDeclined s port e a) a.core := by rw [ht]; rfl
    rw [hcore]
    exact fails_failStore (s := dropAcc (count (dropEntry s e) (.refusals port) 1) a.id) false hlive

/-- Settles O16. -/
theorem translation : Obligations.Translation := by
  refine ⟨?_, ?_⟩
  · intro s a ha hst hspace hwait hpark port at'
    have hexec {w : Walk} (hw : accWalk s a = w) := exec_stationTranslate ha hst hspace hwait hpark hw
    refine ⟨fun pa hw => ⟨_, hexec hw, standsAt_of_accs ha rfl, rfl, ⟨fun _ => rfl, fun _ => rfl⟩, ?_⟩, ?_, ?_, ?_, ?_,
      fun hw => hexec hw⟩
    · show s.agenda ++ [performEvent a false] = _
      unfold performEvent
      cases a.kind <;> rfl
    · intro hw hk hroom
      refine ⟨_, (hexec hw).trans (congrArg _ ((if_pos hk).trans (parkAcc_room true hroom))), standsAt_of_accs ha rfl, rfl, rfl⟩
    · intro hw hk hfull
      refine ⟨_, (hexec hw).trans (congrArg _ ((if_pos hk).trans (parkAcc_full true hfull))), standsAt_of_accs ha rfl, rfl, rfl⟩
    · intro d sx upc hk
      have hstore : ¬ a.kind = .store := by rw [hk]; exact fun h => nomatch h
      exact ⟨fun hw => ⟨_, (hexec hw).trans (congrArg _ ((if_neg hstore).trans (failAcc_load hk 0 a.addr))), standsAt_of_accs ha rfl, rfl, rfl⟩,
        fun hw => ⟨_, (hexec hw).trans (congrArg _ (failAcc_load hk 1 a.addr)), standsAt_of_accs ha rfl, rfl⟩⟩
    · intro hw hk
      refine ⟨_, (hexec hw).trans (congrArg _ (failAcc_store hk 1 a.addr)), ?_, ?_⟩
      · rw [failStore_eq]
        exact findAcc_dropAcc_self ..
      · rw [failStore_eq]
        exact ⟨fun _ => rfl, fun _ => rfl⟩
  · intro s port n e a
    refine ⟨fun he hwhat ha hk => ⟨⟨_, exec_faultResolve he hwhat ha, ?_, ?_, ?_, ?_⟩, ?_⟩, fun ha hst => ?_⟩
    · rw [replayAccs_eq]
    · rw [replayAccs_eq]
      intro f hf hcore
      have hkeep := (List.mem_filter.1 hf).2
      simp [hcore.1, hcore.2] at hkeep
    · rw [replayAccs_eq]
    · rw [replayAccs_eq]
    · have hdecline := declineFault_store he hwhat ha hk
      exact ⟨_, congrArg done hdecline, congrArg done hdecline, declined hwhat⟩
    · show execFaultQueueRetry a.id s = _
      unfold execFaultQueueRetry
      simp only [ha, hst]
      rfl

end Sys2Proof.Machine
end

section
/-! Combine commands at issue, and CMBSTAT (R491, R495-R499, R557). -/

namespace Sys2Proof.Machine

/-! ### Commands (R495) -/

/-- An instruction that sends one combine command, whose status its register waits for; a dual copy's is refused (R557). -/
def SendsCmb (s : State) (i : Instr) (d : BitVec 5) (addr : Nat) (rel : Bool) (ask : CmbAsk) : Prop :=
  ((cur s).sys.dual = true → exec i s = .next (withCur s (setStatus (setCommit (passUnit (cur s))) d (cmbStatus 5 0 0 0 0)))) ∧
    ((cur s).sys.dual = false →
      ∃ t : State, exec i s = .next t ∧ cur t = markReg (setCommit (passUnit (cur s))) d (.op s.nextId) ∧
        t.ops = s.ops ++ [{ id := s.nextId, core := s.focus, serial := serialOf (cur s), gen := genOf (cur s), reg := d,
                            upc := unitPc (cur s), held := 0, drawn := 0, body := .cmb }] ∧
        t.cmbMsgs = s.cmbMsgs ++ [{ id := s.nextId + 1, core := s.focus, serial := serialOf (cur s), op := s.nextId,
                                    ctx := ctxOf s s.focus, d := addr, slice := 0, rel := rel, ask := ask }] ∧
        t.agenda = s.agenda ++ [cmbEvent ask (s.nextId + 1)])

section
variable {s : State} {d a b : BitVec 5}

theorem sendCmb_dual {addr : Nat} {rel : Bool} {ask : CmbAsk} (hdual : (cur s).sys.dual = true) :
    sendCmb (pastUnit s) (issuedOf (cur s) s.focus) d addr rel ask =
      withCur s (setStatus (setCommit (passUnit (cur s))) d (cmbStatus 5 0 0 0 0)) := by
  unfold sendCmb
  simp only [issuedOf_core, getCtx_setCtx_self, passUnit_sys, hdual, modCtx_setCtx, if_true]

theorem sendCmb_sends {addr : Nat} {rel : Bool} {ask : CmbAsk} (hdual : (cur s).sys.dual = false) :
    sendCmb (pastUnit s) (issuedOf (cur s) s.focus) d addr rel ask =
      push (bumpId { startOp (pastCommit s) s.focus d (unitPc (cur s)) .cmb with
        cmbMsgs := s.cmbMsgs ++ [{ id := s.nextId + 1, core := s.focus, serial := serialOf (cur s), op := s.nextId,
                                   ctx := ctxOf s s.focus, d := addr, slice := 0, rel := rel, ask := ask }] })
        (cmbEvent ask (s.nextId + 1)) := by
  unfold sendCmb
  simp only [issuedOf_core, issuedOf_upc, getCtx_setCtx_self, passUnit_sys, hdual, modCtx_setCtx, Bool.false_eq_true, if_false]
  rfl

theorem sendsCmb_of_issue {i : Instr} {addr : Nat} {rel : Bool} {ask : CmbAsk}
    (hexec : exec i s = .next (sendCmb (pastUnit s) (issuedOf (cur s) s.focus) d addr rel ask)) : SendsCmb s i d addr rel ask := by
  refine ⟨fun hdual => hexec.trans (congrArg _ (sendCmb_dual hdual)), fun hdual =>
    ⟨_, hexec.trans (congrArg _ (sendCmb_sends hdual)), ?_, ?_, rfl, rfl⟩⟩
  · exact (getCtx_setCtx_self ..).trans (by rw [getCtx_setCtx_self]; rfl)
  · refine congrArg (fun o => s.ops ++ [o]) ?_
    have hserial : serialOf (getCtx (pastCommit s) s.focus) = serialOf (cur s) := by
      rw [getCtx_setCtx_self]
      exact serialOf_setCommit (passUnit (cur s))
    have htid : (getCtx (pastCommit s) s.focus).sys.tid = (cur s).sys.tid := by rw [getCtx_setCtx_self]; rfl
    simp only [hserial, htid]
    rw [genOf, nameGen, BitVec.toNat_setWidth]
    rfl

theorem cmbBusy_pastUnit (hbusy : cmbBusy s s.focus = false) : cmbBusy (pastUnit s) s.focus = false := by
  unfold cmbBusy at hbusy ⊢
  rw [getCtx_setCtx_self, holdsStores_passUnit]
  exact hbusy

variable (hbusy : cmbBusy s s.focus = false) (hal : (regVal (cur s) a).toNat % 2 ^ 48 % 64 = 0)
include hbusy hal

theorem sendsCmb_cmbclose (hgo : Goes (cur s) (needs [a, b] [d])) :
    SendsCmb s (.cmbclose d a b) d ((regVal (cur s) a).toNat % 2 ^ 48) true
      (.close ((regVal (cur s) a).toNat / 2 ^ 48) ((regVal (cur s) b).toNat % 2 ^ 17)) := by
  refine sendsCmb_of_issue ?_
  show execCmbclose d a b s = _
  unfold execCmbclose cmbOperand
  refine issue_some hgo ?_
  simp only [issuedOf_core, getCtx_setCtx_self, regVal_passUnit, cmbBusy_pastUnit hbusy, hal]
  rfl

section
variable {tn : BitVec 4} {w y : Tile} (hseq : (cur s).seq = []) (hw : getTile (cur s) tn = some w)
  (hy : getTile (cur s) (tn + 1) = some y) (hfmt : y.fmt = .i32) (hrows : w.rows = y.rows)
  (hwr : tileReady (pastUnit s) s.focus w false = true) (hyr : tileReady (pastUnit s) s.focus y false = true)
include hseq hw hy hfmt hrows hwr hyr

theorem sendsCmb_cmbopen (k : BitVec 1) (hgo : Goes (cur s) (needs [a, b] [d])) (hcols : w.cols = y.cols) (hwf : w.fmt = .fp32)
    (hn : (regVal (cur s) b).toNat % 2 ^ 10 = 0 ∨ w.rows = (regVal (cur s) b).toNat % 2 ^ 10) :
    SendsCmb s (.cmbopen d a b tn k) d ((regVal (cur s) a).toNat % 2 ^ 48) true
      (.open ((regVal (cur s) a).toNat / 2 ^ 48) ((regVal (cur s) b).toNat % 2 ^ 10) (k == 1) w.cols
        (readPairs (getCore s s.focus).spad w y)) := by
  have hw' : getTile (passUnit (cur s)) tn = some w := hw
  have hy' : getTile (passUnit (cur s)) (tn + 1) = some y := hy
  have hseq' : (passUnit (cur s)).seq = [] := hseq
  have hshape : ¬ (w.rows ≠ y.rows ∨ w.cols ≠ y.cols) := by simp [hrows, hcols]
  have hcount : ¬ (0 < (regVal (cur s) b).toNat % 2 ^ 10 ∧ w.rows ≠ (regVal (cur s) b).toNat % 2 ^ 10) := by
    rintro ⟨hpos, hne⟩
    exact hn.elim (fun h => absurd h (Nat.ne_of_gt hpos)) hne
  refine sendsCmb_of_issue ?_
  show execCmbopen d a b tn k s = _
  unfold execCmbopen cmbOperand
  refine issue_some hgo ?_
  simp only [issuedOf_core, getCtx_setCtx_self, regVal_passUnit, cmbBusy_pastUnit hbusy, hseq', hw', hy', if_neg hshape, if_neg hcount,
    hwf, hfmt, hal, hwr, hyr, getCore_setCtx_self]
  rfl

theorem sendsCmb_cmbput (hgo : Goes (cur s) (needs [a, b] [d] (ord := true))) (hcols : y.cols = 1) (hwf : fmtIsFloat w.fmt = true)
    (hrel : modeRel (unitXmod (cur s)) = false ∨ relDone (pastUnit s) s.focus (serialOf (cur s)) s.nextId 3 = true) :
    SendsCmb s (.cmbput d a b tn) d ((regVal (cur s) a).toNat % 2 ^ 48) (modeRel (unitXmod (cur s)))
      (.put ((regVal (cur s) b).toNat % 2 ^ 10) w.cols (readRows (getCore s s.focus).spad w y)) := by
  have hw' : getTile (passUnit (cur s)) tn = some w := hw
  have hy' : getTile (passUnit (cur s)) (tn + 1) = some y := hy
  have hseq' : (passUnit (cur s)).seq = [] := hseq
  have hserial : serialOf (passUnit (cur s)) = serialOf (cur s) := rfl
  have hxmod : (issuedOf (cur s) s.focus).xmod = unitXmod (cur s) := rfl
  have hshape : ¬ (y.rows ≠ w.rows ∨ y.cols ≠ 1) := by simp [hrows, hcols]
  have hdone : (modeRel (unitXmod (cur s)) && !relDone (pastUnit s) s.focus (serialOf (cur s)) s.nextId 3) = false := by
    rcases hrel with h | h <;> simp [h]
  refine sendsCmb_of_issue ?_
  show execCmbput d a b tn s = _
  unfold execCmbput cmbOperand
  refine issue_some hgo ?_
  simp only [issuedOf_core, getCtx_setCtx_self, regVal_passUnit, cmbBusy_pastUnit hbusy, hseq', hw', hy', if_neg hshape,
    hwf, hfmt, hal, hwr, hyr, getCore_setCtx_self, hserial, hxmod, setCtx_nextId, hdone]
  rfl

end

/-! ### CMBSTAT (R491, R499) -/

variable (hgo : Goes (cur s) (needs [a] [d])) (hmsgs : ∀ m ∈ s.cmbMsgs, m.core ≠ s.focus)
  (hrel : relDone (pastUnit s) s.focus (serialOf (cur s)) s.nextId 3 = true) {i pa : Nat} {buf : CmbBuf}
  (hplace : cmbPlace s s.focus (ctxOf s s.focus) ((regVal (cur s) a).toNat % 2 ^ 48) = .at i pa)
  (hbuf : findBuf (getSlice s i) (ctxOf s s.focus) ((regVal (cur s) a).toNat % 2 ^ 48) = some buf)
include hgo hmsgs hrel hplace hbuf

theorem exec_cmbstat_absent
    (hslot : tokenSlot (getSlice s i) (ctxOf s s.focus) ((regVal (cur s) a).toNat % 2 ^ 48) ((regVal (cur s) a).toNat / 2 ^ 48) = none) :
    exec (.cmbstat d a) s = .next (withCur s (setStatus (passUnit (cur s)) d 1)) := by
  have hmine : (pastUnit s).cmbMsgs.any (fun m => m.core == s.focus) = false :=
    List.any_eq_false.2 fun m hm => by simpa only [beq_iff_eq] using hmsgs m hm
  have hserial : serialOf (passUnit (cur s)) = serialOf (cur s) := rfl
  have hctx : ctxOf (pastUnit s) s.focus = ctxOf s s.focus := rfl
  have hplace' : cmbPlace (pastUnit s) s.focus (ctxOf s s.focus) ((regVal (cur s) a).toNat % 2 ^ 48) = .at i pa := hplace
  have hslice : getSlice (pastUnit s) i = getSlice s i := rfl
  show execCmbstat d a s = _
  unfold execCmbstat cmbOperand
  refine issue_some hgo ?_
  simp only [issuedOf_core, getCtx_setCtx_self, regVal_passUnit, cmbBusy_pastUnit hbusy, hal, hmine, hserial, setCtx_nextId, hrel, hctx,
    hplace', hslice, hbuf, hslot, modCtx_setCtx]
  rfl

/-- What CMBSTAT finds in a slot: some of its cycles may have passed since the last reading (R499, log 6). -/
def readSlot (s : State) (q : CmbSlot) : CmbSlot := { q with countdown := cyclesLeft q (freeVal s) }

theorem exec_cmbstat_slot {n : Nat} {q : CmbSlot}
    (hslot : tokenSlot (getSlice s i) (ctxOf s s.focus) ((regVal (cur s) a).toNat % 2 ^ 48) ((regVal (cur s) a).toNat / 2 ^ 48) = some (n, q)) :
    exec (.cmbstat d a) s =
      .next (modCtx (bumpFree (setSlice (pastUnit s) i (putCmbSlot (getSlice s i) n (some (readSlot s q))))) s.focus
        fun y => setStatus y d (cmbStatWord (readSlot s q))) := by
  have hmine : (pastUnit s).cmbMsgs.any (fun m => m.core == s.focus) = false :=
    List.any_eq_false.2 fun m hm => by simpa only [beq_iff_eq] using hmsgs m hm
  have hserial : serialOf (passUnit (cur s)) = serialOf (cur s) := rfl
  have hctx : ctxOf (pastUnit s) s.focus = ctxOf s s.focus := rfl
  have hplace' : cmbPlace (pastUnit s) s.focus (ctxOf s s.focus) ((regVal (cur s) a).toNat % 2 ^ 48) = .at i pa := hplace
  have hslice : getSlice (pastUnit s) i = getSlice s i := rfl
  show execCmbstat d a s = _
  unfold execCmbstat cmbOperand
  refine issue_some hgo ?_
  simp only [issuedOf_core, getCtx_setCtx_self, regVal_passUnit, cmbBusy_pastUnit hbusy, hal, hmine, hserial, setCtx_nextId, hrel, hctx,
    hplace', hslice, hbuf, hslot]
  rfl

end

theorem countdown_readSlot (s : State) {q : CmbSlot} (h : 0 < q.countdown) :
    0 < (readSlot s q).countdown ∧ (readSlot s q).countdown ≤ q.countdown := by
  have hlt : freeVal s % q.countdown < q.countdown := Nat.mod_lt _ h
  exact ⟨Nat.sub_pos_of_lt hlt, Nat.sub_le ..⟩

/-- Settles O35. -/
theorem combineCommands : Obligations.CombineCommands := by
  intro s d a b tn k x c u addr token gb sends hbusy hal
  refine ⟨sendsCmb_cmbclose hbusy hal, fun w y hseq hw hy hfmt hrows hwr hyr => ⟨?_, ?_⟩, ?_⟩
  · exact sendsCmb_cmbopen hbusy hal hseq hw hy hfmt hrows hwr hyr k
  · exact sendsCmb_cmbput hbusy hal hseq hw hy hfmt hrows hwr hyr
  · intro hgo hmsgs hrel i pa buf hplace hbuf
    refine ⟨exec_cmbstat_absent hbusy hal hgo hmsgs hrel hplace hbuf, fun n slot hslot => ?_⟩
    refine ⟨_, readSlot s slot, exec_cmbstat_slot hbusy hal hgo hmsgs hrel hplace hbuf hslot, rfl, rfl, countdown_readSlot s, ?_, ?_⟩
    · exact (congrArg (fun v => getCmbSlot v n) (tabGet_tabSet_self ..)).trans (tabGet_tabSet_self ..)
    · refine (getCtx_modCtx_self ..).trans (congrArg (fun z => setStatus z d _) ?_)
      exact getCtx_setCtx_self ..

end Sys2Proof.Machine
end

section
/-! Combine commands at their slice (R480, R482, R483, R491, R493, R496-R498). -/

namespace Sys2Proof.Machine

/-! ### What a slice changes -/

/-- Nothing but slices, commands on their way, counters, the agenda and the next name changes. -/
def SlicesOnly (s t : State) : Prop :=
  t = { s with slices := t.slices, cmbMsgs := t.cmbMsgs, counters := t.counters, agenda := t.agenda, nextId := t.nextId }

theorem SlicesOnly.trans {s t u : State} (h : SlicesOnly s t) (g : SlicesOnly t u) : SlicesOnly s u := by
  unfold SlicesOnly at *
  rw [g, h]

theorem SlicesOnly.field {α : Type} {s t : State} (h : SlicesOnly s t) (g : State → α)
    (hg : ∀ u sl ms cs ag n, g { u with slices := sl, cmbMsgs := ms, counters := cs, agenda := ag, nextId := n } = g u) : g t = g s := by
  rw [h, hg]

theorem slicesOnly_setSlice (s : State) (i : Nat) (v : CmbSlice) : SlicesOnly s (setSlice s i v) := rfl

theorem slicesOnly_completeAt (s : State) (i k : Nat) (b : CmbBuf) (closed : Bool) (cycle : Nat) (q : CmbSlot) :
    SlicesOnly s (completeAt s i k b closed cycle q) := rfl

theorem SlicesOnly.bumpId {s t : State} (h : SlicesOnly s t) : SlicesOnly s (bumpId t) := h.trans (show SlicesOnly t _ from rfl)

theorem Awaits.slicesOnly {s t : State} {o : Op} (hs : Awaits s o) (h : SlicesOnly s t) : Awaits t o := by
  obtain ⟨hop, hrun, hm, hreg⟩ := hs
  rw [h]
  exact ⟨hop, hrun, hm, hreg⟩

/-- The end of an operation that its activation waits for (R157, R159). -/
theorem told_endOp {s : State} {o : Op} (h : Awaits s o) (v : Word) : Told (endOp s o.id v) o v := by
  obtain ⟨hop, hrun, hm, hreg⟩ := h
  have hctx : getReg (getCtx (endOp s o.id v) o.core) o.reg = { val := v, poison := none, mark := .clear } := by
    rw [endOp_awaited s o v hop hrun hm, getCtx_dropOp, getCtx_modCtx_self, getReg_latchEvt, getReg_settleMark_self hreg hm]
  exact ⟨congrArg Reg.val hctx, isMarked_false (congrArg Reg.mark hctx), (endedWith_endOp hop v).1⟩

/-- The end of an operation leaves slices and the agenda. -/
theorem endOp_slices (s : State) (n : Nat) (v : Word) : (endOp s n v).slices = s.slices := by rw [endOp_eq]

theorem endOp_agenda (s : State) (n : Nat) (v : Word) : (endOp s n v).agenda = s.agenda := by rw [endOp_eq]

theorem getSlice_endOp (s : State) (n : Nat) (v : Word) (i : Nat) : getSlice (endOp s n v) i = getSlice s i := by
  rw [getSlice, endOp_slices, getSlice]

theorem getSlice_setSlice_self (s : State) (i : Nat) (v : CmbSlice) : getSlice (setSlice s i v) i = v := tabGet_tabSet_self ..

theorem getSlice_bumpId (s : State) (i : Nat) : getSlice (bumpId s) i = getSlice s i := rfl

theorem getCmbSlot_putCmbSlot_self (v : CmbSlice) (k : Nat) (q : Option CmbSlot) : getCmbSlot (putCmbSlot v k q) k = q :=
  tabGet_tabSet_self ..

theorem getCmbSlot_putCmbSlot_ne (v : CmbSlice) {j k : Nat} (q : Option CmbSlot) (h : j ≠ k) :
    getCmbSlot (putCmbSlot v k q) j = getCmbSlot v j := tabGet_tabSet_ne _ _ _ _ _ h

/-- A free slot of a slice that has fewer than 512 slots in use. -/
theorem getCmbSlot_freeKey {v : CmbSlice} (h : (usedSlots v).length < slotLimit) : getCmbSlot v (freeKey v) = none := by
  have hfree : ∃ k ∈ List.range slotLimit, (getCmbSlot v k).isNone = true := by
    by_contra hall
    push Not at hall
    have hsub : List.range slotLimit ⊆ (usedSlots v).map (·.1) := by
      intro k hk
      cases hq : getCmbSlot v k with
      | none => exact absurd (by rw [hq]; rfl) (hall k hk)
      | some q =>
        have hmem : (k, getCmbSlot v k) ∈ v.slots := mem_of_tabGet_ne (by rw [← getCmbSlot, hq]; exact nofun)
        exact List.mem_map.2 ⟨(k, q), List.mem_filterMap.2 ⟨_, hmem, by simp [hq]⟩, rfl⟩
    have hle := (List.subperm_of_subset List.nodup_range hsub).length_le
    simp only [List.length_range, List.length_map] at hle
    omega
  unfold freeKey
  obtain ⟨k, hk⟩ := Option.isSome_iff_exists.1 (List.find?_isSome.2 hfree)
  have hnone := List.find?_some hk
  rw [hk]
  exact Option.isNone_iff_eq_none.1 hnone

/-! ### Opens (R480, R496) -/

theorem rangeInUse_one (v : CmbSlice) (ctx d f : Nat) : rangeInUse v ctx d f 1 = (tokenSlot v ctx d f).isSome := by
  rw [rangeInUse, tokenSlot, Bool.eq_iff_iff, List.any_eq_true, List.find?_isSome]
  refine exists_congr fun p => and_congr_right fun _ => ?_
  simp only [Bool.and_eq_true, decide_eq_true_eq, beq_iff_eq]
  omega

section
variable {s : State} {i : Nat} {b : CmbBuf} {m : CmbMsg} {f : Nat} {blk waiting : Bool} {row : List (Int × BitVec 32)}
variable (hfirst : (!waiting && !(getSlice s i).waiting.isEmpty) = false)
include hfirst

theorem tryOpen_inUse (h : (tokenSlot (getSlice s i) m.ctx m.d f).isSome = true) :
    tryOpen s i b m f 1 blk [row] waiting = (s, .code 4) := by
  unfold tryOpen
  simp only [hfirst, rangeInUse_one, h]
  rfl

variable (h : tokenSlot (getSlice s i) m.ctx m.d f = none)
include h

theorem tryOpen_full (hfits : openFits (getSlice s i) b [row] = false) :
    tryOpen s i b m f 1 blk [row] waiting = (s, if blk then .wait else .code 1) := by
  unfold tryOpen
  simp only [hfirst, rangeInUse_one, h, hfits]
  rfl

/-- The state with one slot allocated (R496). -/
def allocated (s : State) (i : Nat) (b : CmbBuf) (f : Nat) (row : List (Int × BitVec 32)) : State :=
  bumpId (allocSlots (setSlice s i (withBuf (getSlice s i) b)) i b f s.nextId [row])

theorem tryOpen_fits (hfits : openFits (getSlice s i) b [row] = true) :
    tryOpen s i b m f 1 blk [row] waiting = (allocated s i b f row, .code 0) := by
  unfold tryOpen
  simp only [hfirst, rangeInUse_one, h, hfits]
  rfl

end

/-- The slice's new slot stands, or is complete at once where it expects nothing (R483). -/
theorem allocated_eq (s : State) (i : Nat) (b : CmbBuf) (f : Nat) (row : List (Int × BitVec 32)) :
    allocated s i b f row =
      let u := setSlice s i (withBuf (getSlice s i) b)
      let k := freeKey (getSlice u i)
      let q := newCmbSlot b f s.nextId row
      let w := setSlice u i (putCmbSlot (getSlice u i) k (some q))
      bumpId (if q.experts.isEmpty then completeAt w i k b false s.nextId q else w) := rfl

theorem slicesOnly_allocated (s : State) (i : Nat) (b : CmbBuf) (f : Nat) (row : List (Int × BitVec 32)) :
    SlicesOnly s (allocated s i b f row) := by
  rw [allocated_eq]
  refine .bumpId ?_
  split
  · exact ((slicesOnly_setSlice ..).trans (slicesOnly_setSlice ..)).trans (slicesOnly_completeAt ..)
  · exact (slicesOnly_setSlice ..).trans (slicesOnly_setSlice ..)

theorem withBuf_of_bound {v : CmbSlice} {b : CmbBuf} (h : findBuf v b.ctx b.d = some b) : withBuf v b = v :=
  if_pos (by rw [h]; rfl)

/-- The state with a slot that expects rows allocated (R496). -/
theorem allocated_of_expects {s : State} {i : Nat} {b : CmbBuf} {f : Nat} {row : List (Int × BitVec 32)}
    (hb : findBuf (getSlice s i) b.ctx b.d = some b) (hrow : presentPairs row ≠ []) :
    ∃ u, allocated s i b f row = bumpId (setSlice u i
      (putCmbSlot (getSlice s i) (freeKey (getSlice s i)) (some (newCmbSlot b f s.nextId row)))) := by
  have hexperts : (newCmbSlot b f s.nextId row).experts.isEmpty = false := by
    rw [newCmbSlot, List.isEmpty_map, List.isEmpty_eq_false_iff]
    exact hrow
  have hslice : getSlice (setSlice s i (withBuf (getSlice s i) b)) i = getSlice s i := by
    rw [getSlice_setSlice_self, withBuf_of_bound hb]
  refine ⟨setSlice s i (withBuf (getSlice s i) b), ?_⟩
  rw [allocated_eq]
  simp only [hslice, hexperts, Bool.false_eq_true, if_false]

/-- The slot of a token that expects rows, as an open allocates it (R496). -/
theorem getCmbSlot_allocated {s : State} {i : Nat} {b : CmbBuf} {f : Nat} {row : List (Int × BitVec 32)}
    (hb : findBuf (getSlice s i) b.ctx b.d = some b) (hrow : presentPairs row ≠ []) :
    getCmbSlot (getSlice (allocated s i b f row) i) (freeKey (getSlice s i)) = some (newCmbSlot b f s.nextId row) := by
  obtain ⟨u, hu⟩ := allocated_of_expects (f := f) hb hrow
  rw [hu, getSlice_bumpId, getSlice_setSlice_self, getCmbSlot_putCmbSlot_self]

section
variable {s : State} {m : CmbMsg} {i pa : Nat} {b : CmbBuf} (hm : findCmb s m.id = some m) (hwait : cmbWaits s m = false)
  (hplace : cmbPlace s m.core m.ctx m.d = .at i pa)
include hm hwait hplace

section
variable {f k : Nat} {blk : Bool} {row : List (Int × BitVec 32)} (hb : findBuf (getSlice s i) m.ctx m.d = some b)
  (hask : m.ask = .open f 1 blk k [row]) (hargs : openArgsOk b f 1 k [row] = true)
include hb hask hargs

/-- An open that is tried and does not wait (R496). -/
theorem exec_sliceCmbopenArrive {u : State} {code : Nat} (hu : tryOpen (dropCmb s m.id) i b m f 1 blk [row] false = (u, .code code)) :
    exec (.sliceCmbopenArrive m.id) s = .next (endOp u m.op (openStatus code 1)) := by
  have hbind : bindBuf (dropCmb s m.id) i pa m.ctx m.d = .inr b := by
    unfold bindBuf
    have hb' : findBuf (getSlice (dropCmb s m.id) i) m.ctx m.d = some b := hb
    simp only [hb']
  show execSliceCmbopenArrive m.id s = _
  unfold execSliceCmbopenArrive
  simp only [hm, hask, hwait, hplace, hbind, hargs, hu]
  rfl

end

/-! ### Rows (R483, R497) -/

section
variable {e token : Nat} {row : List (BitVec 32)} (hb : findBuf (getSlice s i) m.ctx m.d = some b)
  (hask : m.ask = .put e b.desc.cols [((token : Int), row)])
include hb hask

/-- A row that marks no release word whose page is held (R497). -/
theorem exec_sliceCmbputArrive (hheld : lateHeld (dropCmb s m.id) i m.ctx m.d e [((token : Int), row)] = false)
    {u : State} {n bounced late disc : Nat}
    (hu : putRows (dropCmb s m.id) i m.ctx m.d e [((token : Int), row)] = (u, n, bounced, late, disc)) :
    exec (.sliceCmbputArrive m.id) s =
      .next (endOp (bumpId u) m.op (cmbStatus (if bounced = 0 then 0 else 6) n bounced late disc)) := by
  have hb' : findBuf (getSlice (dropCmb s m.id) i) m.ctx m.d = some b := hb
  show execSliceCmbputArrive m.id s = _
  unfold execSliceCmbputArrive
  simp only [hm, hask, hwait, hplace, hb', bne_self_eq_false, hheld, hu]
  rfl

end

end

/-- What one row of a CMBPUT does (R497). -/
theorem putRows_one {s : State} {i ctx d e token : Nat} {row : List (BitVec 32)} (ht : token ≤ 65535) {u : State} {fate : RowFate}
    (hu : arrivalAt s i ctx d e token s.nextId row = (u, fate)) :
    putRows s i ctx d e [((token : Int), row)] = (u, tallyRow (0, 0, 0, 0) fate) := by
  have hneg : ¬ (token : Int) < 0 := by omega
  have hbig : ¬ 65535 < (token : Int) := by omega
  unfold putRows
  simp only [List.foldl_cons, List.foldl_nil, if_neg hneg, if_neg hbig, Int.toNat_natCast, hu]

section
variable {s : State} {i ctx d e token : Nat} {row : List (BitVec 32)} {b : CmbBuf} (hb : findBuf (getSlice s i) ctx d = some b)

theorem lateHeld_of_absent (h : tokenSlot (getSlice s i) ctx d token = none) :
    lateHeld s i ctx d e [((token : Int), row)] = false := by
  unfold lateHeld
  cases findBuf (getSlice s i) ctx d <;> simp [h]

theorem lateHeld_of_slot {n : Nat} {q : CmbSlot} (h : tokenSlot (getSlice s i) ctx d token = some (n, q))
    (hq : positionOf q e = none ∨ q.state = .opened) : lateHeld s i ctx d e [((token : Int), row)] = false := by
  unfold lateHeld
  simp only [List.any_cons, List.any_nil, Int.toNat_natCast, h]
  cases findBuf (getSlice s i) ctx d
  · rfl
  · rcases hq with hq | hq <;> simp [hq]

theorem arrivalAt_absent (h : tokenSlot (getSlice s i) ctx d token = none) (cycle : Nat) :
    arrivalAt s i ctx d e token cycle row = (count s (.noslot i) 1, .noslot) := by
  unfold arrivalAt
  simp only [h]
  cases findBuf (getSlice s i) ctx d <;> rfl

include hb

theorem arrivalAt_unexpected {n : Nat} {q : CmbSlot} (h : tokenSlot (getSlice s i) ctx d token = some (n, q)) (hq : positionOf q e = none)
    (cycle : Nat) : arrivalAt s i ctx d e token cycle row = (count s (.strays i) 1, .discarded) := by
  unfold arrivalAt
  simp only [hb, h, hq]

theorem arrivalAt_staged {n p : Nat} {q : CmbSlot} (h : tokenSlot (getSlice s i) ctx d token = some (n, q))
    (hp : positionOf q e = some p) (hnew : p ∉ seenBits q) (hst : q.state = .opened)
    (hmore : (arrived { q with rows := q.rows.set p (some row) }).length ≠ q.experts.length) (cycle : Nat) :
    arrivalAt s i ctx d e token cycle row =
      (setSlice s i (putCmbSlot (getSlice s i) n (some { q with rows := q.rows.set p (some row) })), .accepted) := by
  have hseen : ¬ (seenBits q).contains p = true := by simpa using hnew
  unfold arrivalAt
  simp only [hb, h, hp, if_neg hseen]
  exact (if_pos hst).trans (if_neg hmore)

end

end Sys2Proof.Machine
end

section
/-! Combine slots that are closed, run out, are released, linger and end, and opens that wait (R482-R490, R496, R498). -/

namespace Sys2Proof.Machine

/-! ### Closes (R498) -/

section
variable {s : State} {m : CmbMsg} {f n : Nat} (hm : findCmb s m.id = some m) (hwait : cmbWaits s m = false) (hask : m.ask = .close f n)
include hm hwait hask

theorem exec_sliceCmbcloseArrive_badArg (hbad : n = 0 ∨ 2 ^ 16 < f + n) :
    exec (.sliceCmbcloseArrive m.id) s = .next (endOp (dropCmb s m.id) m.op (cmbStatus 5 0 0 0 0)) := by
  have hbad' : n = 0 ∨ 65536 < f + n := hbad
  show execSliceCmbcloseArrive m.id s = _
  unfold execSliceCmbcloseArrive
  simp only [hm, hask, hwait, if_pos hbad']
  rfl

variable {i pa : Nat} (hplace : cmbPlace s m.core m.ctx m.d = .at i pa) (hpos : 0 < n) (hle : f + n ≤ 2 ^ 16)
include hplace hpos hle

theorem exec_sliceCmbcloseArrive {u : State} {k : Nat}
    (hu : forceSlots (dropCmb s m.id) i m.ctx m.d (tokensIn (getSlice s i) m.ctx m.d f n) = (u, k)) :
    exec (.sliceCmbcloseArrive m.id) s = .next (endOp (bumpId u) m.op (cmbStatus 0 k 0 0 0)) := by
  have hgood : ¬ (n = 0 ∨ 65536 < f + n) := by omega
  show execSliceCmbcloseArrive m.id s = _
  unfold execSliceCmbcloseArrive
  simp only [hm, hask, hwait, if_neg hgood, hplace, hu]
  rfl

end

section
variable {v : CmbSlice} {ctx d f n : Nat}

theorem tokensIn_none (h : ∀ p ∈ bufSlots v ctx d, p.2.token < f ∨ f + n ≤ p.2.token) : tokensIn v ctx d f n = [] := by
  have hnil : ((bufSlots v ctx d).map (fun p => p.2.token)).filter (fun t => decide (f ≤ t) && decide (t < f + n)) = [] := by
    refine List.filter_eq_nil_iff.2 fun t ht => ?_
    obtain ⟨p, hp, rfl⟩ := List.mem_map.1 ht
    have := h p hp
    simp only [Bool.and_eq_true, decide_eq_true_eq]
    omega
  rw [tokensIn, hnil]
  rfl

theorem tokensIn_single {e : Nat} {q : CmbSlot} (h : bufSlots v ctx d = [(e, q)]) (hlo : f ≤ q.token) (hhi : q.token < f + n) :
    tokensIn v ctx d f n = [q.token] := by
  have hin : (decide (f ≤ q.token) && decide (q.token < f + n)) = true := by simp [hlo, hhi]
  rw [tokensIn, h, List.map_singleton, List.filter_singleton, hin]
  rfl

end

theorem forceSlots_single {s : State} {i ctx d e : Nat} {q : CmbSlot} {b : CmbBuf} (hb : findBuf (getSlice s i) ctx d = some b)
    (h : bufSlots (getSlice s i) ctx d = [(e, q)]) (hst : q.state = .opened) :
    forceSlots s i ctx d [q.token] = (completeAt s i e b true s.nextId q, 1) := by
  have hslot : tokenSlot (getSlice s i) ctx d q.token = some (e, q) := by
    rw [tokenSlot, h]
    exact List.find?_cons_of_pos (beq_self_eq_true _)
  unfold forceSlots
  simp only [List.foldl_cons, List.foldl_nil, hb, hslot]
  exact if_pos hst

/-! ### Countdowns that have run out (R483, R485) -/

/-- A slot that is complete from a cycle on. -/
abbrev completedSlot (b : CmbBuf) (closed : Bool) (cycle : Nat) (q : CmbSlot) : CmbSlot :=
  { completeSlot b.desc closed q with order := cycle, countdown := 0 }

theorem getSlice_completeAt (s : State) (i k : Nat) (b : CmbBuf) (closed : Bool) (cycle : Nat) (q : CmbSlot) :
    getSlice (completeAt s i k b closed cycle q) i = putCmbSlot (getSlice s i) k (some (completedSlot b closed cycle q)) :=
  getSlice_setSlice_self ..

/-- The state with the slots of a list complete, one after the other. -/
abbrev completeAll (s : State) (i : Nat) (b : CmbBuf) (cycle : Nat) (l : List (Nat × CmbSlot)) : State :=
  l.foldl (fun u p => completeAt u i p.1 b false cycle p.2) s

section
variable {i cycle : Nat} {b : CmbBuf}

theorem agenda_completeAll {e : Event} : ∀ {l : List (Nat × CmbSlot)} {s : State}, e ∈ s.agenda → e ∈ (completeAll s i b cycle l).agenda
  | [], _, h => h
  | p :: l, s, h => agenda_completeAll (l := l) (s := completeAt s i p.1 b false cycle p.2) (List.mem_append_left _ h)

theorem getCmbSlot_completeAll_ne {k : Nat} : ∀ {l : List (Nat × CmbSlot)} {s : State}, k ∉ l.map (·.1) →
    getCmbSlot (getSlice (completeAll s i b cycle l) i) k = getCmbSlot (getSlice s i) k
  | [], _, _ => rfl
  | p :: l, s, h => by
    obtain ⟨hne, hl⟩ := not_or.1 (mt List.mem_cons.2 h)
    rw [completeAll, List.foldl_cons, getCmbSlot_completeAll_ne hl, getSlice_completeAt, getCmbSlot_putCmbSlot_ne _ _ hne]

theorem getCmbSlot_completeAll {p : Nat × CmbSlot} : ∀ {l : List (Nat × CmbSlot)} {s : State}, (l.map (·.1)).Nodup → p ∈ l →
    getCmbSlot (getSlice (completeAll s i b cycle l) i) p.1 = some (completedSlot b false cycle p.2) ∧
      .combineRelease i p.1 ∈ (completeAll s i b cycle l).agenda
  | r :: l, s, hnodup, hp => by
    obtain ⟨hr, hl⟩ := List.nodup_cons.1 hnodup
    rcases List.mem_cons.1 hp with rfl | hp
    · refine ⟨?_, agenda_completeAll (l := l) (List.mem_append_right _ (List.mem_singleton_self _))⟩
      rw [completeAll, List.foldl_cons, getCmbSlot_completeAll_ne hr, getSlice_completeAt, getCmbSlot_putCmbSlot_self]
    · exact getCmbSlot_completeAll (l := l) hl hp

end

theorem usedSlots_keys_sublist : ∀ l : List (Nat × Option CmbSlot),
    ((l.filterMap (fun p => p.2.map (fun t => (p.1, t)))).map (·.1)).Sublist (l.map (·.1))
  | [] => .slnil
  | (_, none) :: l => (usedSlots_keys_sublist l).cons _
  | (_, some _) :: l => (usedSlots_keys_sublist l).cons_cons _

section
variable {s : State} {i k : Nat} {q : CmbSlot} {b : CmbBuf} (hq : getCmbSlot (getSlice s i) k = some q)
include hq

section
variable (hb : findBuf (getSlice s i) q.ctx q.d = some b)
include hb

theorem exec_combineTimeout (hst : q.state = .opened) :
    exec (.combineTimeout i k) s = .next (bumpId (completeAll s i b s.nextId (openedWith (getSlice s i) q))) := by
  show execCombineTimeout i k s = _
  unfold execCombineTimeout
  simp only [hq, hb, hst, if_true]
  rfl

omit hq hb in
/-- The slots of one CMBOPEN run out together (R483). -/
theorem combineTimeout_completes (hst : q.state = .opened) (hnodup : ((getSlice s i).slots.map (·.1)).Nodup) {p : Nat × CmbSlot}
    (hp : p ∈ usedSlots (getSlice s i))
    (hwith : p = (k, q) ∨ p.2.ctx = q.ctx ∧ p.2.d = q.d ∧ p.2.opening = q.opening ∧ p.2.state = .opened) :
    let t := bumpId (completeAll s i b s.nextId (openedWith (getSlice s i) q))
    getCmbSlot (getSlice t i) p.1 = some (completedSlot b false s.nextId p.2) ∧ .combineRelease i p.1 ∈ t.agenda := by
  have hmem : p ∈ openedWith (getSlice s i) q := by
    have hsame : p.2.ctx = q.ctx ∧ p.2.d = q.d ∧ p.2.opening = q.opening ∧ p.2.state = .opened := by
      rcases hwith with rfl | h
      · exact ⟨rfl, rfl, rfl, hst⟩
      · exact h
    obtain ⟨hctx, hd, hopening, hstate⟩ := hsame
    exact List.mem_filter.2 ⟨List.mem_filter.2 ⟨hp, by simp [hctx, hd]⟩, by simp [hopening, hstate]⟩
  have hkeys : ((openedWith (getSlice s i) q).map (·.1)).Nodup :=
    hnodup.sublist (((List.filter_sublist.trans List.filter_sublist).map _).trans (usedSlots_keys_sublist _))
  exact getCmbSlot_completeAll hkeys hmem

end

/-! ### Release and linger (R483, R487, R488, R490) -/

omit hq in
theorem getCmbSlot_freeSlotAt (s : State) (i k : Nat) : getCmbSlot (getSlice (freeSlotAt s i k) i) k = none := by
  have hslice : getSlice (freeSlotAt s i k) i = tidySlice (putCmbSlot (getSlice s i) k none) := by
    unfold freeSlotAt
    dsimp only
    split
    · exact getSlice_setSlice_self ..
    · exact getSlice_setSlice_self ..
  rw [hslice]
  exact getCmbSlot_putCmbSlot_self ..

omit hq in
theorem slicesOnly_freeSlotAt (s : State) (i k : Nat) : SlicesOnly s (freeSlotAt s i k) := by
  unfold freeSlotAt
  dsimp only
  split
  · exact slicesOnly_setSlice ..
  · exact (slicesOnly_setSlice ..).trans (show SlicesOnly _ (push _ _) from rfl)

theorem exec_lingerExpire (hst : q.state = .linger) : exec (.lingerExpire i k) s = .next (freeSlotAt s i k) := by
  show execLingerExpire i k s = _
  unfold execLingerExpire
  simp only [hq, hst, if_true]
  rfl

/-- The request with which a release deposits its tuple (R487). -/
def tupleReq (s : State) (i : Nat) (b : CmbBuf) (q : CmbSlot) (word : Word) : KeyReq :=
  let key := tupleKey b q word
  let m := mapCopy s noCore
  { id := s.nextId, issuer := .combine i b.ctx (wordAddr b q.token), ctx := b.ctx,
    ask := .put key (tuplePayload b q).2 (tuplePayload b q).1, hash := keyHash key, home := homeFor m (keyHash key),
    mapgen := m.gen.toNat, fwd := 0, forwarded := false, held := false, tag := none, twin := none, twinRemote := none,
    assayed := false, chain := false, rid := 0 }

omit hq in
theorem announce_tuple (s : State) (i : Nat) (b : CmbBuf) (q : CmbSlot) (word : Word) (hmode : b.desc.tupleMode = true) :
    announce s i b q word =
      push (bumpId { s with keyReqs := s.keyReqs ++ [tupleReq s i b q word] }) (reqEvent (tupleReq s i b q word)) := by
  unfold announce
  rw [hmode]
  rfl

/-- The state after the word and the tuple of a release, and the events of the slots behind it (R487, R490). -/
def releasedTuple (s : State) (i k : Nat) (b : CmbBuf) (q : CmbSlot) : State :=
  let u := agentPut s (sliceAgent i b.ctx) (wordAddr b q.token) (leBytes 8 (releaseWord q false).toNat)
  pushAll (announce u i b q (releaseWord q false))
    (((bufSlots (getSlice s i) q.ctx q.d).filter (fun p => p.2.state == .complete && p.1 != k)).map
      fun p => Event.combineRelease i p.1)

/-- The state after a release: the slot lingers, or is free (R483, R488). -/
def afterRelease (s u : State) (i k : Nat) (b : CmbBuf) (q : CmbSlot) : State :=
  if q.subst ≠ 0 ∧ allSeen q = false ∧ 0 < b.desc.linger then
    let z := setSlice u i (putCmbSlot (getSlice u i) k (some { q with state := .linger, countdown := b.desc.linger }))
    if (getSlice s i).waiting.isEmpty then z else push z (.openWaitServe i)
  else freeSlotAt u i k

theorem exec_combineRelease_tuple (hb : findBuf (getSlice s i) q.ctx q.d = some b) (hst : q.state = .complete)
    (hturn : releaseTurn (getSlice s i) b q = true) (hdep : depositing s i q.ctx = false) (hmode : b.desc.tupleMode = true)
    {bs : List Byte} (hcheck : agentCheck s (sliceAgent i b.ctx) (wordAddr b q.token) 8 = .ok bs) :
    exec (.combineRelease i k) s = .next (afterRelease s (releasedTuple s i k b q) i k b q) := by
  have hheld : releaseHeld s i b q = false := by
    unfold releaseHeld
    simp only [hmode, hcheck]
    rfl
  have hput : putResult s i b q = (s, false) := by
    unfold putResult
    rw [hmode]
    rfl
  have hgo : ¬ (q.state ≠ .complete ∨ releaseTurn (getSlice s i) b q = false) := by simp [hst, hturn]
  show execCombineRelease i k s = _
  unfold execCombineRelease
  simp only [hq, hb, if_neg hgo, hdep, hheld, hput, hcheck, Bool.or_self, Bool.false_eq_true, if_false]
  unfold afterRelease
  split <;> rfl

end

section
variable {s u : State} {i k : Nat} {b : CmbBuf} {q : CmbSlot}

theorem slicesOnly_afterRelease : SlicesOnly u (afterRelease s u i k b q) := by
  unfold afterRelease
  dsimp only
  split
  · split
    · exact slicesOnly_setSlice ..
    · exact (slicesOnly_setSlice ..).trans (show SlicesOnly _ (push _ _) from rfl)
  · exact slicesOnly_freeSlotAt ..

theorem getCmbSlot_afterRelease :
    if q.subst ≠ 0 ∧ allSeen q = false ∧ 0 < b.desc.linger
    then getCmbSlot (getSlice (afterRelease s u i k b q) i) k = some { q with state := .linger, countdown := b.desc.linger }
    else getCmbSlot (getSlice (afterRelease s u i k b q) i) k = none := by
  unfold afterRelease
  dsimp only
  split
  · split
    · rw [getSlice_setSlice_self, getCmbSlot_putCmbSlot_self]
    · exact (congrArg (fun v => getCmbSlot v k) (getSlice_setSlice_self ..)).trans (getCmbSlot_putCmbSlot_self ..)
  · exact getCmbSlot_freeSlotAt ..

theorem keyReqs_releasedTuple (hmode : b.desc.tupleMode = true) :
    (releasedTuple s i k b q).keyReqs = s.keyReqs ++ [tupleReq
      (agentPut s (sliceAgent i b.ctx) (wordAddr b q.token) (leBytes 8 (releaseWord q false).toNat)) i b q (releaseWord q false)] := by
  rw [releasedTuple, announce_tuple _ _ _ _ _ hmode]
  exact congrArg (· ++ _) ((memoryOnly_agentPut ..).field State.keyReqs)

theorem lines_releasedTuple (hmode : b.desc.tupleMode = true) :
    (releasedTuple s i k b q).lines =
      (agentPut s (sliceAgent i b.ctx) (wordAddr b q.token) (leBytes 8 (releaseWord q false).toNat)).lines := by
  rw [releasedTuple, announce_tuple _ _ _ _ _ hmode]
  rfl

end

/-! ### Opens that wait (R496) -/

section
variable {s : State} {i f kk : Nat} {blk : Bool} {row : List (Int × BitVec 32)} {m : CmbMsg} {rest : List CmbMsg} {b : CmbBuf}
  (hv : (getSlice s i).waiting = m :: rest) (hask : m.ask = .open f 1 blk kk [row]) (hb : findBuf (getSlice s i) m.ctx m.d = some b)
include hv hask hb

theorem exec_openWaitServe {u : State} {code : Nat} (hu : tryOpen s i b m f 1 blk [row] true = (u, .code code)) :
    exec (.openWaitServe i) s =
      .next (push (endOp (setSlice u i (tidySlice { getSlice u i with waiting := rest })) m.op (openStatus code 1)) (.openWaitServe i)) := by
  show execOpenWaitServe i s = _
  unfold execOpenWaitServe
  simp only [hv, hask, hb, hu]
  rfl

theorem exec_openWaitServe_waits {u : State} (hu : tryOpen s i b m f 1 blk [row] true = (u, .wait)) :
    exec (.openWaitServe i) s = .next s := by
  show execOpenWaitServe i s = _
  unfold execOpenWaitServe
  simp only [hv, hask, hb, hu]
  rfl

end

/-! ### The obligation -/

/-- What a command finds at its slice (R478, R480, R491). -/
structure AtSlice (s : State) (m : CmbMsg) (o : Op) (i pa : Nat) (b : CmbBuf) : Prop where
  found : findCmb s m.id = some m
  op : m.op = o.id
  awaits : Awaits s o
  clear : cmbWaits s m = false
  place : cmbPlace s m.core m.ctx m.d = .at i pa
  buf : findBuf (getSlice s i) m.ctx m.d = some b
  ctx : b.ctx = m.ctx
  d : b.d = m.d

section
variable {s : State} {m : CmbMsg} {o : Op} {i pa : Nat} {b : CmbBuf} (h : AtSlice s m o i pa b)
include h

theorem AtSlice.bound : findBuf (getSlice s i) b.ctx b.d = some b := by rw [h.ctx, h.d, h.buf]

/-- A command that ends after changes of slices tells its issuer a status. -/
theorem AtSlice.told {u : State} (hu : SlicesOnly s u) (v : Word) : Told (endOp u m.op v) o v :=
  h.op ▸ told_endOp (h.awaits.slicesOnly hu) v

theorem AtSlice.opens {f k : Nat} {row : List (Int × BitVec 32)} {blk : Bool} (hask : m.ask = .open f 1 blk k [row])
    (hargs : openArgsOk b f 1 k [row] = true) (hv : (getSlice s i).waiting = []) :
    ((tokenSlot (getSlice s i) m.ctx m.d f).isSome = true →
      ∃ t : State, exec (.sliceCmbopenArrive m.id) s = .next t ∧ Told t o (cmbStatus 4 0 0 0 0) ∧ t.slices = s.slices) ∧
    (tokenSlot (getSlice s i) m.ctx m.d f = none → openFits (getSlice s i) b [row] = false → blk = false →
      ∃ t : State, exec (.sliceCmbopenArrive m.id) s = .next t ∧ Told t o (cmbStatus 1 0 0 0 0) ∧ t.slices = s.slices) ∧
    (tokenSlot (getSlice s i) m.ctx m.d f = none → openFits (getSlice s i) b [row] = true → presentPairs row ≠ [] →
      ∃ (t : State) (n : Nat) (e : CmbSlot), exec (.sliceCmbopenArrive m.id) s = .next t ∧ Told t o (cmbStatus 0 1 0 0 0) ∧
        getCmbSlot (getSlice t i) n = some e ∧ getCmbSlot (getSlice s i) n = none ∧ e.token = f ∧ e.state = .opened ∧
        e.countdown = b.desc.timeout ∧
        e.experts = (presentPairs row).map (·.1) ∧ e.weights = (presentPairs row).map (·.2)) := by
  have hdrop : SlicesOnly s (dropCmb s m.id) := rfl
  have hfirst : (!false && !(getSlice (dropCmb s m.id) i).waiting.isEmpty) = false := by
    rw [show getSlice (dropCmb s m.id) i = getSlice s i from rfl, hv]
    rfl
  have hexec {u : State} {code : Nat} (hu : tryOpen (dropCmb s m.id) i b m f 1 blk [row] false = (u, .code code)) :=
    exec_sliceCmbopenArrive h.found h.clear h.place h.buf hask hargs hu
  refine ⟨fun huse => ?_, fun hnone hfits hblk => ?_, fun hnone hfits hrow => ?_⟩
  · exact ⟨_, hexec (tryOpen_inUse hfirst huse), h.told hdrop _, endOp_slices ..⟩
  · subst hblk
    exact ⟨_, hexec (tryOpen_full (blk := false) hfirst hnone hfits), h.told hdrop _, endOp_slices ..⟩
  · have hroom : (usedSlots (getSlice s i)).length < slotLimit := by
      simp only [openFits, Bool.and_eq_true, decide_eq_true_eq, List.length_singleton] at hfits
      omega
    refine ⟨_, freeKey (getSlice s i), newCmbSlot b f s.nextId row, hexec (tryOpen_fits hfirst hnone hfits),
      h.told (hdrop.trans (slicesOnly_allocated ..)) _, ?_, getCmbSlot_freeKey hroom, rfl, rfl, rfl, rfl, rfl⟩
    rw [getSlice_endOp]
    exact getCmbSlot_allocated (s := dropCmb s m.id) h.bound hrow

theorem AtSlice.puts {e token : Nat} {row : List (BitVec 32)} (hask : m.ask = .put e b.desc.cols [((token : Int), row)])
    (ht : token ≤ 65535) :
    (tokenSlot (getSlice s i) m.ctx m.d token = none →
      ∃ t : State, exec (.sliceCmbputArrive m.id) s = .next t ∧ Told t o (cmbStatus 6 0 1 0 0) ∧ t.slices = s.slices) ∧
    (∀ n q, tokenSlot (getSlice s i) m.ctx m.d token = some (n, q) →
      (positionOf q e = none →
        ∃ t : State, exec (.sliceCmbputArrive m.id) s = .next t ∧ Told t o (cmbStatus 0 0 0 0 1) ∧ t.slices = s.slices) ∧
      (∀ p, positionOf q e = some p → p ∉ seenBits q → q.state = .opened →
        let r := { q with rows := q.rows.set p (some row) }
        (arrived r).length ≠ q.experts.length →
        ∃ t : State, exec (.sliceCmbputArrive m.id) s = .next t ∧ Told t o (cmbStatus 0 1 0 0 0) ∧
          getCmbSlot (getSlice t i) n = some r)) := by
  have hdrop : SlicesOnly s (dropCmb s m.id) := rfl
  have hcount (k : Counter) (n : Nat) : SlicesOnly s (bumpId (count (dropCmb s m.id) k n)) := rfl
  have hexec (hheld : lateHeld (dropCmb s m.id) i m.ctx m.d e [((token : Int), row)] = false) {u : State} {fate : RowFate}
      (hu : arrivalAt (dropCmb s m.id) i m.ctx m.d e token (dropCmb s m.id).nextId row = (u, fate)) :=
    exec_sliceCmbputArrive h.found h.clear h.place h.buf hask hheld (putRows_one ht hu)
  refine ⟨fun hnone => ?_, fun n q hslot => ⟨fun hpos => ?_, ?_⟩⟩
  · exact ⟨_, hexec (lateHeld_of_absent hnone) (arrivalAt_absent (s := dropCmb s m.id) hnone _), h.told (hcount ..) _, endOp_slices ..⟩
  · exact ⟨_, hexec (lateHeld_of_slot hslot (.inl hpos)) (arrivalAt_unexpected (s := dropCmb s m.id) h.buf hslot hpos _),
      h.told (hcount ..) _, endOp_slices ..⟩
  · intro p hpos hnew hst r hmore
    refine ⟨_, hexec (lateHeld_of_slot hslot (.inr hst)) (arrivalAt_staged (s := dropCmb s m.id) h.buf hslot hpos hnew hst hmore _),
      h.told (hdrop.trans (slicesOnly_setSlice ..)).bumpId _, ?_⟩
    rw [getSlice_endOp, getSlice_bumpId, getSlice_setSlice_self, getCmbSlot_putCmbSlot_self]

theorem AtSlice.closes {f n : Nat} (hask : m.ask = .close f n) :
    ((n = 0 ∨ 2 ^ 16 < f + n) →
      ∃ t : State, exec (.sliceCmbcloseArrive m.id) s = .next t ∧ Told t o (cmbStatus 5 0 0 0 0) ∧ t.slices = s.slices) ∧
    (0 < n → f + n ≤ 2 ^ 16 → (∀ p ∈ bufSlots (getSlice s i) m.ctx m.d, p.2.token < f ∨ f + n ≤ p.2.token) →
      ∃ t : State, exec (.sliceCmbcloseArrive m.id) s = .next t ∧ Told t o (cmbStatus 0 0 0 0 0) ∧ t.slices = s.slices) ∧
    (∀ e q, 0 < n → f + n ≤ 2 ^ 16 → bufSlots (getSlice s i) m.ctx m.d = [(e, q)] → f ≤ q.token → q.token < f + n →
      q.state = .opened →
      ∃ t : State, exec (.sliceCmbcloseArrive m.id) s = .next t ∧ Told t o (cmbStatus 0 1 0 0 0) ∧
        getCmbSlot (getSlice t i) e = some { completeSlot b.desc true q with order := s.nextId, countdown := 0 } ∧
        .combineRelease i e ∈ t.agenda) := by
  have hdrop : SlicesOnly s (dropCmb s m.id) := rfl
  refine ⟨fun hbad => ?_, fun hpos hle hnone => ?_, fun e q hpos hle hslots hlo hhi hst => ?_⟩
  · exact ⟨_, exec_sliceCmbcloseArrive_badArg h.found h.clear hask hbad, h.told hdrop _, endOp_slices ..⟩
  · have hforce : forceSlots (dropCmb s m.id) i m.ctx m.d (tokensIn (getSlice s i) m.ctx m.d f n) = (dropCmb s m.id, 0) := by
      rw [tokensIn_none hnone]
      rfl
    exact ⟨_, exec_sliceCmbcloseArrive h.found h.clear hask h.place hpos hle hforce, h.told hdrop.bumpId _, endOp_slices ..⟩
  · have hforce : forceSlots (dropCmb s m.id) i m.ctx m.d (tokensIn (getSlice s i) m.ctx m.d f n) =
        (completeAt (dropCmb s m.id) i e b true s.nextId q, 1) := by
      rw [tokensIn_single hslots hlo hhi]
      exact forceSlots_single (s := dropCmb s m.id) h.buf hslots hst
    refine ⟨_, exec_sliceCmbcloseArrive h.found h.clear hask h.place hpos hle hforce,
      h.told (hdrop.trans (slicesOnly_completeAt ..)).bumpId _, ?_, ?_⟩
    · rw [getSlice_endOp, getSlice_bumpId, getSlice_completeAt, getCmbSlot_putCmbSlot_self]
    · rw [endOp_agenda]
      exact List.mem_append_right _ (List.mem_singleton_self _)

end

/-- Settles O36. That a token which has a slot is answered before the room is looked at is log 66, and that the slots of one CMBOPEN run
out together is log 6. -/
theorem combineEvents : Obligations.CombineEvents := by
  refine ⟨?_, fun s i k q b => ⟨?_, ?_, ?_, ?_⟩⟩
  · intro s m o i pa b hm hop hawaits hwait hplace hbuf hctx hd v slot
    have h : AtSlice s m o i pa b := ⟨hm, hop, hawaits, hwait, hplace, hbuf, hctx, hd⟩
    exact ⟨fun f k row blk hask hargs hv => h.opens hask hargs hv, fun e token row hask ht => h.puts hask ht,
      fun f n hask => h.closes hask⟩
  · exact fun hq hb hst hnodup =>
      ⟨_, exec_combineTimeout hq hb hst, fun p hp hwith => combineTimeout_completes hst hnodup hp hwith⟩
  · exact fun hq hst => ⟨_, exec_lingerExpire hq hst, getCmbSlot_freeSlotAt ..,
      (slicesOnly_freeSlotAt s i k).field State.cores fun _ _ _ _ _ _ => rfl⟩
  · intro hq hb hst hturn hdep hmode bs hcheck word
    let u := agentPut s (sliceAgent i b.ctx) (wordAddr b q.token) (leBytes 8 (releaseWord q false).toNat)
    have hafter : SlicesOnly (releasedTuple s i k b q) (afterRelease s (releasedTuple s i k b q) i k b q) := slicesOnly_afterRelease
    refine ⟨_, tupleReq u i b q (releaseWord q false), exec_combineRelease_tuple hq hb hst hturn hdep hmode hcheck, ?_, rfl, rfl, ?_,
      getCmbSlot_afterRelease⟩
    · exact (hafter.field State.keyReqs fun _ _ _ _ _ _ => rfl).trans (keyReqs_releasedTuple hmode)
    · exact (hafter.field State.lines fun _ _ _ _ _ _ => rfl).trans (lines_releasedTuple hmode)
  · intro m rest o f kk row blk hv hop hawaits hask hb hctx hd hnone
    have hfirst : (!true && !(getSlice s i).waiting.isEmpty) = false := rfl
    refine ⟨fun hfits => ?_, fun hfits hblk => ?_⟩
    · refine ⟨_, exec_openWaitServe hv hask hb (tryOpen_fits hfirst hnone hfits), ?_, ?_, ?_⟩
      · exact hop ▸ told_endOp (hawaits.slicesOnly ((slicesOnly_allocated ..).trans (slicesOnly_setSlice ..))) _
      · show (getSlice (endOp _ _ _) i).waiting = rest
        rw [getSlice_endOp, getSlice_setSlice_self]
        rfl
      · exact List.mem_append_right _ (List.mem_singleton_self _)
    · have htry := tryOpen_full (blk := blk) hfirst hnone hfits
      rw [if_pos hblk] at htry
      exact exec_openWaitServe_waits hv hask hb htry

end Sys2Proof.Machine
end

section
/-! Key requests and key queries at issue (R426-R431, R440, R449-R452, R475, R476). -/

namespace Sys2Proof.Machine

/-! ### What a core reads of an image where its context alone has changed -/

theorem getCore_setCtx_field {α : Type} (s : State) (c d : Nat) (x : Ctx) {g : Core → α} (h : ∀ k y, g { k with ctx := y } = g k) :
    g (getCore (setCtx s c x) d) = g (getCore s d) :=
  getCore_modCore_field s c d (f := fun k => { k with ctx := x }) fun k => h k x

theorem launchOf_setCtx (s : State) (c t : Nat) (x : Ctx) : launchOf (setCtx s c x) t = launchOf s t :=
  congrArg (fun l => l.bind (findLaunch s)) (getCore_setCtx_field s c t x (g := (·.launch)) fun _ _ => rfl)

theorem reloading_setCtx (s : State) (c t off n : Nat) (x : Ctx) : reloading (setCtx s c x) t off n = reloading s t off n := by
  unfold reloading
  rw [launchOf_setCtx, getCore_setCtx_field s c t x (g := (·.spilling)) fun _ _ => rfl]

theorem spadRow_setCtx (s : State) (c t off n : Nat) (x : Ctx) (a : Word) : spadRow (setCtx s c x) t off n a = spadRow s t off n a := by
  have hout : coreOut (setCtx s c x) t = coreOut s t := rfl
  have hread : spadRead (setCtx s c x) t off n = spadRead s t off n :=
    congrArg (fun m => memRead m off n) (getCore_setCtx_field s c t x (g := (·.spad)) fun _ _ => rfl)
  unfold spadRow
  rw [hout, hread, reloading_setCtx]

theorem reachKind_setCtx (s : State) (c d t : Nat) (x : Ctx) : reachKind (setCtx s c x) d t = reachKind s d t := by
  have hpart : ∀ e, partOf (setCtx s c x) e = partOf s e := fun _ => rfl
  have hmap : mapOf (setCtx s c x) t = mapOf s t := rfl
  have hegen : sentEgen (setCtx s c x) d t = sentEgen s d t := rfl
  unfold reachKind
  rw [hpart, hpart, hmap, hegen, getCore_setCtx_field s c t x (g := (·.state)) fun _ _ => rfl]

theorem readPieces_setCtx (s : State) (c d : Nat) (x : Ctx) (win : Bool) (need : Need) (base : Word) (va : Nat) (ps : List (Nat × Nat)) :
    readPieces (setCtx s c x) d win need base va ps = readPieces s d win need base va ps := by
  induction ps with
  | nil => rfl
  | cons p ps ih =>
    unfold readPieces
    rw [ih]
    rfl

theorem homeRead_setCtx (s : State) (c d : Nat) (x : Ctx) (a : Word) (n : Nat) : homeRead (setCtx s c x) d a n = homeRead s d a n := by
  unfold homeRead rowReadBy
  simp only [spadRow_setCtx, reachKind_setCtx, readPieces_setCtx]

/-! ### A request sent (R449, R458, R460) -/

/-- The context past the unit, its commit latch set where the operation takes (R564). -/
def pastKey (x : Ctx) (commit : Bool) : Ctx := if commit then setCommit (passUnit x) else passUnit x

theorem pastKey_act {x : Ctx} (commit : Bool) (h : NoCopy x) : NoCopy (pastKey x commit) := by
  cases commit with
  | false => exact h
  | true => exact NoCopy.setCommit (x := passUnit x) h

theorem serialOf_pastKey (x : Ctx) (commit : Bool) : serialOf (pastKey x commit) = serialOf x := by
  cases commit with
  | false => rfl
  | true => exact serialOf_setCommit (passUnit x)

theorem pastKey_sys (x : Ctx) (commit : Bool) : (pastKey x commit).sys = x.sys := by cases commit <;> rfl

theorem commitIf_pastUnit (s : State) (commit : Bool) : commitIf (pastUnit s) s.focus commit = withCur s (pastKey (cur s) commit) := by
  cases commit with
  | false => rfl
  | true => exact (modCtx_setCtx ..)

/-- An instruction that sends one key request, whose status its register waits for. -/
def SendsKey (s : State) (i : Instr) (d : BitVec 5) (commit : Bool) (key : BitVec 256) (ask : KeyAsk) (e : Nat → Event) : Prop :=
  ∃ (t : State) (r : KeyReq), exec i s = .next t ∧ cur t = markReg (pastKey (cur s) commit) d (.op s.nextId) ∧
    t.ops = s.ops ++ [{ id := s.nextId, core := s.focus, serial := serialOf (cur s), gen := genOf (cur s), reg := d,
                        upc := unitPc (cur s), held := 0, drawn := 0, body := .key }] ∧
    t.keyReqs = s.keyReqs ++ [r] ∧ r.id = s.nextId + 1 ∧ r.ask = ask ∧ r.ctx = ctxOf s s.focus ∧ r.tag = none ∧
    r.issuer = .task s.focus (serialOf (cur s)) (cur s).sys.tid.toNat s.nextId ∧ r.hash = keyHash key ∧
    r.home = homeFor (mapCopy s s.focus) (keyHash key) ∧ t.agenda = s.agenda ++ [e (s.nextId + 1)] ∧
    (getCore t s.focus).spad = (getCore s s.focus).spad

section
variable {s : State} {d b : BitVec 5} {i : Instr} {commit : Bool} {key : BitVec 256} {ask : KeyAsk}

/-- The request goes out from a state that differs in the core alone: past the unit, or with an entry reserved too. -/
theorem sendsKey_of_cores {cs : List (Nat × Core)} {operands : List Nat} {payload : List Byte} (hcopy : NoCopy (cur s))
    (hctx : getCtx { s with cores := cs } s.focus = pastKey (cur s) commit)
    (hspad : (getCore { s with cores := cs } s.focus).spad = (getCore s s.focus).spad)
    (hexec : exec i s = .next (sendKey { s with cores := cs } (issuedOf (cur s) s.focus) d (keyHash key) ask operands payload)) :
    SendsKey s i d commit key ask (keyEvent ask) := by
  have hpast := pastKey_act commit hcopy
  have hstart : getCtx (startOp { s with cores := cs } s.focus d (unitPc (cur s)) .key) s.focus =
      markReg (pastKey (cur s) commit) d (.op s.nextId) := (getCtx_setCtx_self ..).trans (by rw [hctx])
  have hmarked : NoCopy (markReg (pastKey (cur s) commit) d (.op s.nextId)) := by
    rw [NoCopy, markReg_act]
    exact hpast
  have hsys : (markReg (pastKey (cur s) commit) d (.op s.nextId)).sys = (cur s).sys := (markReg_sys ..).trans (pastKey_sys ..)
  have hser : serialOf (pastKey (cur s) commit) = serialOf (cur s) := serialOf_pastKey ..
  unfold sendKey at hexec
  simp only [issuedOf_core, issuedOf_upc, hctx, hser, pastKey_sys, hpast.tagOf] at hexec
  refine ⟨_, _, hexec, ?_, ?_, rfl, rfl, rfl, rfl, rfl, rfl, rfl, rfl, rfl, ?_⟩
  · exact (getCtx_modCtx_self ..).trans ((congrArg nextIdx hstart).trans hmarked.nextIdx)
  · refine congrArg (fun o => s.ops ++ [o]) ?_
    simp only [hctx, hser, pastKey_sys]
    rw [genOf, nameGen, BitVec.toNat_setWidth]
  · exact (getCore_modCtx_field _ _ _ fun _ _ => rfl).trans
      ((getCore_setCtx_field _ _ _ _ (g := (·.spad)) fun _ _ => rfl).trans hspad)

theorem sendsKey_of_sendKey (operands : List Nat) (payload : List Byte) (hcopy : NoCopy (cur s))
    (hexec : exec i s =
      .next (sendKey (withCur s (pastKey (cur s) commit)) (issuedOf (cur s) s.focus) d (keyHash key) ask operands payload)) :
    SendsKey s i d commit key ask (keyEvent ask) :=
  sendsKey_of_cores (cs := (withCur s (pastKey (cur s) commit)).cores) hcopy (getCtx_setCtx_self ..)
    (getCore_setCtx_field s s.focus s.focus _ (g := (·.spad)) fun _ _ => rfl) hexec

end

/-! ### What the waits and reads at issue see past the unit -/

section
variable {s : State} {d a b : BitVec 5} {q : BitVec 3} {o : BitVec 2} {tn : BitVec 4} {m : BitVec 1}

/-- An instruction may go that waits for its destination besides (R449). -/
theorem Goes.dropWrites {x : Ctx} {reads writes : List (BitVec 5)} (h : Goes x (needs reads writes)) : Goes x (plainSpec reads []) := by
  obtain ⟨hill, hpfx, hahead, hpriv, hreads, -⟩ := h
  exact ⟨hill, hpfx, hahead, hpriv, hreads, fun r hr => absurd hr (List.not_mem_nil)⟩

theorem keyBusy_pastUnit {reads : List (BitVec 5)} (hgo : Goes (cur s) (needs reads [d])) (hstores : holdsStores (cur s) = false)
    (hfull : keysFull s s.focus = false) : keyBusy (pastUnit s) s.focus d = false := by
  obtain ⟨-, -, -, -, -, hopen⟩ := hgo
  have hclear : isMarked (cur s) d = false := isMarked_false (hopen d (List.mem_singleton_self d))
  have hclear' : isMarked (passUnit (cur s)) d = false := hclear
  have hfull' : keysFull (pastUnit s) s.focus = false := hfull
  unfold keyBusy
  rw [getCtx_setCtx_self, hclear', holdsStores_passUnit, hstores, hfull']
  rfl

theorem groupKey_passUnit (x : Ctx) (g : BitVec 5) : groupKey (passUnit x) g = groupKey x g := rfl

theorem tilePayload_pastUnit (tile : Tile) :
    tilePayload (getCore (pastUnit s) s.focus).spad tile = tilePayload (getCore s s.focus).spad tile := by
  rw [getCore_setCtx_field s s.focus s.focus _ (g := (·.spad)) fun _ _ => rfl]

variable (hcopy : NoCopy (cur s)) (hstores : holdsStores (cur s) = false) (hfull : keysFull s s.focus = false)

include hcopy hstores hfull in
theorem sendsKey_kputTile (hgo : Goes (cur s) (needs (groupRegs (quadReg q) 4) [d])) {tile : Tile} (hseq : (cur s).seq = [])
    (htile : getTile (cur s) tn = some tile) (hready : tileReady (pastUnit s) s.focus tile false = true)
    (hrel : relDone (pastUnit s) s.focus (serialOf (cur s)) s.nextId 4 = true) :
    SendsKey s (.kputTile d q tn) d true (groupKey (cur s) (quadReg q))
      (.put (groupKey (cur s) (quadReg q)) (tilePayload (getCore s s.focus).spad tile).2 (tilePayload (getCore s s.focus).spad tile).1)
      .homeKputArrive := by
  have htile' : getTile (passUnit (cur s)) tn = some tile := htile
  have hseq' : (passUnit (cur s)).seq = [] := hseq
  have hserial : serialOf (passUnit (cur s)) = serialOf (cur s) := rfl
  refine sendsKey_of_sendKey (ask := .put ..) (keyOperands (groupKey (cur s) (quadReg q)) (tilePayload (getCore s s.focus).spad tile).2)
    (tilePayload (getCore s s.focus).spad tile).1 hcopy ?_
  show execKputTile d q tn s = _
  unfold execKputTile
  refine issue_some hgo.dropWrites ?_
  simp only [issuedOf_core, getCtx_setCtx_self, keyBusy_pastUnit hgo hstores hfull, hseq', htile', hready, hserial, setCtx_nextId, hrel,
    groupKey_passUnit, tilePayload_pastUnit, modCtx_setCtx]
  rfl

/-! ### Images (R449, R450) -/

/-- An image whose header the core may read, and the bytes that it reads (R296, R449). -/
def HeaderReads (s : State) (a : Word) (bs : List Byte) : Prop :=
  a.toNat % 64 = 0 ∧ imageOk s.focus a 0 = true ∧ keyImageBusy (pastUnit s) s.focus a 64 false = false ∧
    ownWriteAhead s s.focus (genOf (cur s)) s.nextId a 64 = false ∧ homeRead s s.focus a 64 = .ok bs

/-- An instruction that is turned away with a code in its register. -/
def RefusesKey (s : State) (i : Instr) (d : BitVec 5) (commit : Bool) (code : Nat) : Prop :=
  exec i s = .next (withCur s (setStatus (pastKey (cur s) commit) d (keyStatus code false false false false 0)))

theorem putKey_pastKey (commit : Bool) (code : Nat) :
    putKey (withCur s (pastKey (cur s) commit)) s.focus d code =
      withCur s (setStatus (pastKey (cur s) commit) d (keyStatus code false false false false 0)) := modCtx_setCtx ..

section
variable (hgo : Goes (cur s) (needs (b :: groupRegs (quadReg q) 4) [d])) {bs : List Byte} (hhead : HeaderReads s (regVal (cur s) b) bs)
include hstores hfull hgo hhead

theorem refusesKey_kputImage
    (hbad : 2 ^ 20 < headerWord bs 32 4 ∨ shapeOk (BitVec.ofNat 32 (headerWord bs 36 4)) = false ∨
      imageOk s.focus (regVal (cur s) b) (headerWord bs 32 4) = false) :
    RefusesKey s (.kputImage d q b) d true 5 := by
  obtain ⟨hal, hok, hbusy, hahead, hread⟩ := hhead
  have hahead' : ownWriteAhead (pastUnit s) s.focus (genOf (passUnit (cur s))) (pastUnit s).nextId (regVal (cur s) b) 64 = false := hahead
  have hread' : homeRead (pastUnit s) s.focus (regVal (cur s) b) 64 = .ok bs := (homeRead_setCtx ..).trans hread
  show execKputImage d q b s = _
  unfold execKputImage
  refine issue_some hgo.dropWrites ?_
  simp only [issuedOf_core, getCtx_setCtx_self, keyBusy_pastUnit hgo hstores hfull, regVal_passUnit, hal, hok, hbusy, hahead', hread',
    modCtx_setCtx]
  exact (if_pos hbad).trans (congrArg some (putKey_pastKey true 5))

include hcopy

theorem sendsKey_kputImage (hlen : headerWord bs 32 4 ≤ 2 ^ 20) (hshape : shapeOk (BitVec.ofNat 32 (headerWord bs 36 4)) = true)
    (hfit : imageOk s.focus (regVal (cur s) b) (headerWord bs 32 4) = true) {off : Nat}
    (hplace : placeOf s.focus (regVal (cur s) b) = .spad off)
    (hfree : keyImageBusy (pastUnit s) s.focus (regVal (cur s) b) (64 + headerWord bs 32 4) false = false)
    (hrel : relDone (pastUnit s) s.focus (serialOf (cur s)) s.nextId 4 = true) :
    SendsKey s (.kputImage d q b) d true (groupKey (cur s) (quadReg q))
      (.put (groupKey (cur s) (quadReg q)) (BitVec.ofNat 32 (headerWord bs 36 4)) (spadRead s s.focus (off + 64) (headerWord bs 32 4)))
      .homeKputArrive := by
  obtain ⟨hal, hok, hbusy, hahead, hread⟩ := hhead
  have hahead' : ownWriteAhead (pastUnit s) s.focus (genOf (passUnit (cur s))) s.nextId (regVal (cur s) b) 64 = false := hahead
  have hread' : homeRead (pastUnit s) s.focus (regVal (cur s) b) 64 = .ok bs := (homeRead_setCtx ..).trans hread
  have hgood : ¬ (payloadLimit < headerWord bs 32 4 ∨ shapeOk (BitVec.ofNat 32 (headerWord bs 36 4)) = false ∨
      imageOk s.focus (regVal (cur s) b) (headerWord bs 32 4) = false) := by
    rintro (h | h | h)
    · exact absurd hlen (Nat.not_le_of_gt h)
    · exact absurd (hshape.symm.trans h) (by decide)
    · exact absurd (hfit.symm.trans h) (by decide)
  have hserial : serialOf (passUnit (cur s)) = serialOf (cur s) := rfl
  refine sendsKey_of_sendKey (ask := .put ..) (keyOperands (groupKey (cur s) (quadReg q)) (BitVec.ofNat 32 (headerWord bs 36 4)))
    (spadRead s s.focus (off + 64) (headerWord bs 32 4)) hcopy ?_
  show execKputImage d q b s = _
  unfold execKputImage
  refine issue_some hgo.dropWrites ?_
  simp only [issuedOf_core, getCtx_setCtx_self, keyBusy_pastUnit hgo hstores hfull, regVal_passUnit, hal, hok, hbusy, hahead', hread',
    modCtx_setCtx, if_neg hgood, hplace, hfree, hserial, setCtx_nextId, hrel, spadRead_setCtx_self, groupKey_passUnit]
  rfl

end

/-! ### Templates (R430, R451, R452) -/

/-- The trap that a template raises whose mask leaves field 0 or 1 open (R430). -/
def templateTrap (s : State) : State :=
  takeTrap (pastUnit s) s.focus
    { code := 11, param := 0, tile := false, epc := unitPc (cur s), faultpc := unitPc (cur s), faultaddr := 0 }

section
variable (hgo : Goes (cur s) (needs (groupRegs (octReg o) 8) [d]))
include hgo

section
variable (hmask : maskOk (groupKey (cur s) (octReg o + 4)) = false)
include hmask

omit hgo in
theorem readTileBody_openTemplate (take poll : Bool) :
    readTileBody take d (octReg o) tn poll (issuedOf (cur s) s.focus) (pastUnit s) = some (templateTrap s) := by
  have hmask' : maskOk (groupTemplate (passUnit (cur s)) (octReg o)).2 = false := hmask
  unfold readTileBody
  simp only [issuedOf_core, getCtx_setCtx_self, hmask']
  rfl

theorem exec_kcancel_openTemplate : exec (.kcancel d o) s = .next (templateTrap s) := by
  have hmask' : maskOk (groupTemplate (passUnit (cur s)) (octReg o)).2 = false := hmask
  show execKcancel d o s = _
  unfold execKcancel
  refine issue_some hgo.dropWrites ?_
  simp only [issuedOf_core, getCtx_setCtx_self, hmask']
  rfl

end

variable (hmask : maskOk (groupKey (cur s) (octReg o + 4)) = true)
include hstores hfull hmask

include hcopy in
theorem sendsKey_kcancel :
    SendsKey s (.kcancel d o) d true (groupKey (cur s) (octReg o))
      (.cancel (groupKey (cur s) (octReg o)) (groupKey (cur s) (octReg o + 4))) .homeKcancelArrive := by
  have hvm : groupTemplate (passUnit (cur s)) (octReg o) = (groupKey (cur s) (octReg o), groupKey (cur s) (octReg o + 4)) := rfl
  refine sendsKey_of_sendKey (ask := .cancel ..) (templateOperands (groupKey (cur s) (octReg o)) (groupKey (cur s) (octReg o + 4)) [4])
    [] hcopy ?_
  show execKcancel d o s = _
  unfold execKcancel
  refine issue_some hgo.dropWrites ?_
  simp only [issuedOf_core, getCtx_setCtx_self, hvm, hmask, keyBusy_pastUnit hgo hstores hfull, modCtx_setCtx]
  rfl

theorem readTileBody_sends (take poll : Bool) {tile : Tile} (hseq : (cur s).seq = []) (htile : getTile (cur s) tn = some tile) :
    ∃ operands, readTileBody take d (octReg o) tn poll (issuedOf (cur s) s.focus) (pastUnit s) =
      some (sendKey (withCur s (pastKey (cur s) take)) (issuedOf (cur s) s.focus) d (keyHash (groupKey (cur s) (octReg o)))
        (.read take (groupKey (cur s) (octReg o)) (groupKey (cur s) (octReg o + 4)) poll (.tile tile)) operands []) := by
  have hvm : groupTemplate (passUnit (cur s)) (octReg o) = (groupKey (cur s) (octReg o), groupKey (cur s) (octReg o + 4)) := rfl
  have htile' : getTile (passUnit (cur s)) tn = some tile := htile
  have hseq' : (passUnit (cur s)).seq = [] := hseq
  unfold readTileBody
  simp only [issuedOf_core, getCtx_setCtx_self, hvm, hmask, keyBusy_pastUnit hgo hstores hfull, hseq', htile', commitIf_pastUnit]
  exact ⟨_, rfl⟩

end

section
variable (hgo : Goes (cur s) (needs (b :: groupRegs (octReg o) 8) [d]))
  (hmask : maskOk (groupKey (cur s) (octReg o + 4)) = true)
include hstores hfull hgo hmask

section
variable {bs : List Byte} (hhead : HeaderReads s (regVal (cur s) b) bs)
include hhead

theorem readImageBody_refuses (take poll : Bool)
    (hbad : 2 ^ 20 < headerWord bs 32 4 ∨ imageOk s.focus (regVal (cur s) b) (headerWord bs 32 4) = false) :
    readImageBody take d (octReg o) b poll (issuedOf (cur s) s.focus) (pastUnit s) =
      some (withCur s (setStatus (pastKey (cur s) take) d (keyStatus 5 false false false false 0))) := by
  obtain ⟨hal, hok, hbusy, hahead, hread⟩ := hhead
  have hvm : groupTemplate (passUnit (cur s)) (octReg o) = (groupKey (cur s) (octReg o), groupKey (cur s) (octReg o + 4)) := rfl
  have hahead' : ownWriteAhead (pastUnit s) s.focus (genOf (passUnit (cur s))) (pastUnit s).nextId (regVal (cur s) b) 64 = false := hahead
  have hread' : homeRead (pastUnit s) s.focus (regVal (cur s) b) 64 = .ok bs := (homeRead_setCtx ..).trans hread
  unfold readImageBody
  simp only [issuedOf_core, getCtx_setCtx_self, hvm, hmask, keyBusy_pastUnit hgo hstores hfull, regVal_passUnit, hal, hok, hbusy, hahead',
    hread', commitIf_pastUnit]
  exact (if_pos hbad).trans (congrArg some (putKey_pastKey take 5))

theorem readImageBody_sends (take poll : Bool) (hcap : headerWord bs 32 4 ≤ 2 ^ 20)
    (hfit : imageOk s.focus (regVal (cur s) b) (headerWord bs 32 4) = true) :
    ∃ operands, readImageBody take d (octReg o) b poll (issuedOf (cur s) s.focus) (pastUnit s) =
      some (sendKey (withCur s (pastKey (cur s) take)) (issuedOf (cur s) s.focus) d (keyHash (groupKey (cur s) (octReg o)))
        (.read take (groupKey (cur s) (octReg o)) (groupKey (cur s) (octReg o + 4)) poll
          (.image (regVal (cur s) b) (headerWord bs 32 4))) operands []) := by
  obtain ⟨hal, hok, hbusy, hahead, hread⟩ := hhead
  have hvm : groupTemplate (passUnit (cur s)) (octReg o) = (groupKey (cur s) (octReg o), groupKey (cur s) (octReg o + 4)) := rfl
  have hahead' : ownWriteAhead (pastUnit s) s.focus (genOf (passUnit (cur s))) (pastUnit s).nextId (regVal (cur s) b) 64 = false := hahead
  have hread' : homeRead (pastUnit s) s.focus (regVal (cur s) b) 64 = .ok bs := (homeRead_setCtx ..).trans hread
  have hgood : ¬ (payloadLimit < headerWord bs 32 4 ∨ imageOk s.focus (regVal (cur s) b) (headerWord bs 32 4) = false) := by
    rintro (h | h)
    · exact absurd hcap (Nat.not_le_of_gt h)
    · exact absurd (hfit.symm.trans h) (by decide)
  unfold readImageBody
  simp only [issuedOf_core, getCtx_setCtx_self, hvm, hmask, keyBusy_pastUnit hgo hstores hfull, regVal_passUnit, hal, hok, hbusy, hahead',
    hread', commitIf_pastUnit, if_neg hgood]
  exact ⟨_, rfl⟩

end

/-! ### Continuations (R440) -/

variable {tile : Tile} (hseq : (cur s).seq = []) (htile : getTile (cur s) tn = some tile)
include hseq htile

theorem readContBody_full (take : Bool) (hfree : freeAq (getCore s s.focus) = none) :
    readContBody take d (octReg o) b tn (issuedOf (cur s) s.focus) (pastUnit s) =
      some (withCur s (setStatus (pastKey (cur s) take) d (keyStatus 2 false false false false 0))) := by
  have hvm : groupTemplate (passUnit (cur s)) (octReg o) = (groupKey (cur s) (octReg o), groupKey (cur s) (octReg o + 4)) := rfl
  have htile' : getTile (passUnit (cur s)) tn = some tile := htile
  have hseq' : (passUnit (cur s)).seq = [] := hseq
  have hfree' : freeAq (getCore (pastUnit s) s.focus) = none :=
    (getCore_setCtx_field s s.focus s.focus _ (g := freeAq) fun _ _ => rfl).trans hfree
  unfold readContBody
  simp only [issuedOf_core, getCtx_setCtx_self, hvm, hmask, keyBusy_pastUnit hgo hstores hfull, hseq', htile', hfree', commitIf_pastUnit]
  exact congrArg some (putKey_pastKey take 2)

variable {e : Nat} (hfree : freeAq (getCore s s.focus) = some e)
include hfree

theorem readContBody_outside (take : Bool) (hkeep : inKeep (launchOf s s.focus) tile = false) :
    readContBody take d (octReg o) b tn (issuedOf (cur s) s.focus) (pastUnit s) =
      some (withCur s (setStatus (pastKey (cur s) take) d (keyStatus 5 false false false false 0))) := by
  have hvm : groupTemplate (passUnit (cur s)) (octReg o) = (groupKey (cur s) (octReg o), groupKey (cur s) (octReg o + 4)) := rfl
  have htile' : getTile (passUnit (cur s)) tn = some tile := htile
  have hseq' : (passUnit (cur s)).seq = [] := hseq
  have hfree' : freeAq (getCore (pastUnit s) s.focus) = some e :=
    (getCore_setCtx_field s s.focus s.focus _ (g := freeAq) fun _ _ => rfl).trans hfree
  have hkeep' : inKeep (launchOf (pastUnit s) s.focus) tile = false := by rw [launchOf_setCtx]; exact hkeep
  unfold readContBody
  simp only [issuedOf_core, getCtx_setCtx_self, hvm, hmask, keyBusy_pastUnit hgo hstores hfull, hseq', htile', hfree', hkeep',
    commitIf_pastUnit]
  exact congrArg some (putKey_pastKey take 5)

/-- The state past the unit with the continuation's entry reserved (R440). -/
def reserveCont (s : State) (take : Bool) (e : Nat) : State :=
  modCore (withCur s (pastKey (cur s) take)) s.focus fun k => putAq k e (.continuation (nameGen (cur s).sys.tid).toNat s.nextId)

theorem readContBody_sends (take : Bool) (hkeep : inKeep (launchOf s s.focus) tile = true) :
    ∃ operands, readContBody take d (octReg o) b tn (issuedOf (cur s) s.focus) (pastUnit s) =
      some (sendKey (reserveCont s take e) (issuedOf (cur s) s.focus) d (keyHash (groupKey (cur s) (octReg o)))
        (.read take (groupKey (cur s) (octReg o)) (groupKey (cur s) (octReg o + 4)) false
          (.cont e s.nextId ((regVal (cur s) b).setWidth 48) (cur s).sys.prio.toNat tile)) operands []) := by
  have hvm : groupTemplate (passUnit (cur s)) (octReg o) = (groupKey (cur s) (octReg o), groupKey (cur s) (octReg o + 4)) := rfl
  have htile' : getTile (passUnit (cur s)) tn = some tile := htile
  have hseq' : (passUnit (cur s)).seq = [] := hseq
  have hfree' : freeAq (getCore (pastUnit s) s.focus) = some e :=
    (getCore_setCtx_field s s.focus s.focus _ (g := freeAq) fun _ _ => rfl).trans hfree
  have hkeep' : inKeep (launchOf (pastUnit s) s.focus) tile = true := by rw [launchOf_setCtx]; exact hkeep
  unfold readContBody
  simp only [issuedOf_core, getCtx_setCtx_self, hvm, hmask, keyBusy_pastUnit hgo hstores hfull, hseq', htile', hfree', hkeep',
    commitIf_pastUnit]
  exact ⟨_, rfl⟩

end

end

end Sys2Proof.Machine
end

section
/-! Key queries, and the key operations assembled. -/

namespace Sys2Proof.Machine

section
variable {s : State} {d a b : BitVec 5} {q : BitVec 3} {o : BitVec 2} {tn : BitVec 4}

/-! ### KMAP and KSTAT (R326, R475, R476) -/

/-- A word of three fields, the first in its low bits. -/
theorem packWord_low_two (a b c j k : Nat) : packWord [(a, 0), (b, j), (c, k)] = BitVec.ofNat 64 (a + b * 2 ^ j + c * 2 ^ k) := by
  rw [packWord_three, Nat.pow_zero, Nat.mul_one, Nat.zero_add]

theorem exec_kmap (hgo : Goes (cur s) (needs (groupRegs (quadReg q) 4) [d]))
    (hrel : relDone (pastUnit s) s.focus (serialOf (cur s)) s.nextId 4 = true) :
    exec (.kmap d q) s = .next (withCur s (setReg (passUnit (cur s)) d (BitVec.ofNat 64
      ((mapCopy s s.focus).gen.toNat % 2 ^ 16 + homeFor (mapCopy s s.focus) (keyHash (groupKey (cur s) (quadReg q))) * 2 ^ 16 +
        keyHash (groupKey (cur s) (quadReg q)) * 2 ^ 32)))) := by
  have hmap : mapCopy (pastUnit s) s.focus = mapCopy s s.focus := rfl
  have hserial : serialOf (passUnit (cur s)) = serialOf (cur s) := rfl
  show execKmap d q s = _
  unfold execKmap
  refine issue_some hgo ?_
  simp only [issuedOf_core, getCtx_setCtx_self, hserial, setCtx_nextId, hrel, hmap, groupKey_passUnit, modCtx_setCtx]
  exact congrArg (fun w => some (withCur s (setReg (passUnit (cur s)) d w))) (packWord_low_two _ _ _ 16 32)

variable (hgo : Goes (cur s) (needs [a, b] [d])) (hstores : holdsStores (cur s) = false)
  (hrel : relDone (pastUnit s) s.focus (serialOf (cur s)) s.nextId 4 = true)
include hgo hstores hrel

theorem exec_kstat_absent (hno : 10 ≤ (regVal (cur s) b).toNat % 16 ∨ s.domainModules ≤ (regVal (cur s) a).toNat % 2 ^ 10 / 64 ∨
      (regVal (cur s) a).toNat % 2 ^ 10 / 64 ∈ s.failedModules) :
    exec (.kstat d a b) s = .next (withCur s (setStatus (passUnit (cur s)) d (BitVec.allOnes 64))) := by
  have hserial : serialOf (passUnit (cur s)) = serialOf (cur s) := rfl
  show execKstat d a b s = _
  unfold execKstat
  refine issue_some hgo ?_
  simp only [issuedOf_core, getCtx_setCtx_self, regVal_passUnit, holdsStores_passUnit, hstores, hserial, setCtx_nextId, hrel,
    setCtx_domainModules, setCtx_failedModules, List.contains_iff_mem, if_pos hno, modCtx_setCtx]
  rfl

/-- The request that KSTAT sends (R476). -/
def statReq (s : State) (h sel : Nat) : KeyReq :=
  { id := s.nextId + 1, issuer := .task s.focus (serialOf (cur s)) (cur s).sys.tid.toNat s.nextId, ctx := ctxOf s s.focus, ask := .stat sel,
    hash := 0, home := h, mapgen := (mapCopy s s.focus).gen.toNat, fwd := 0, forwarded := false, held := false, tag := none, twin := none,
    twinRemote := none, assayed := false, chain := false, rid := 0 }

theorem exec_kstat_local (hsel : (regVal (cur s) b).toNat % 16 < 10)
    (hmod : (regVal (cur s) a).toNat % 2 ^ 10 / 64 < s.domainModules) (hloc : (regVal (cur s) a).toNat % 2 ^ 10 / 64 = s.localMod)
    (halive : (regVal (cur s) a).toNat % 2 ^ 10 / 64 ∉ s.failedModules) :
    exec (.kstat d a b) s =
      .next (answerReq (bumpId (startOp (pastUnit s) s.focus d (unitPc (cur s)) .stat)) ((regVal (cur s) a).toNat % 2 ^ 10)
        (statReq s ((regVal (cur s) a).toNat % 2 ^ 10) ((regVal (cur s) b).toNat % 16))
        (.stat (statValue s ((regVal (cur s) a).toNat % 2 ^ 10) ((regVal (cur s) b).toNat % 16)))) := by
  have hserial : serialOf (passUnit (cur s)) = serialOf (cur s) := rfl
  have hno : ¬ (10 ≤ (regVal (cur s) b).toNat % 16 ∨ s.domainModules ≤ (regVal (cur s) a).toNat % 2 ^ 10 / 64 ∨
      (regVal (cur s) a).toNat % 2 ^ 10 / 64 ∈ s.failedModules) := by
    rintro (h | h | h)
    · exact absurd hsel (Nat.not_lt_of_le h)
    · exact absurd hmod (Nat.not_lt_of_le h)
    · exact halive h
  have hlocal : ∀ u : State, u.localMod = s.localMod → homeLocal u ((regVal (cur s) a).toNat % 2 ^ 10) = true := fun u hu => by
    rw [homeLocal, hu, hloc, beq_self_eq_true]
  have hlocal' := hlocal (bumpId (startOp (pastUnit s) s.focus d (unitPc (cur s)) .stat)) rfl
  show execKstat d a b s = _
  unfold execKstat
  refine issue_some hgo ?_
  simp only [issuedOf_core, issuedOf_upc, getCtx_setCtx_self, regVal_passUnit, holdsStores_passUnit, hstores, hserial, setCtx_nextId, hrel,
    setCtx_domainModules, setCtx_failedModules, List.contains_iff_mem, if_neg hno, hlocal']
  rfl

end

/-! ### The key operations -/

section
variable {s : State} {d b : BitVec 5} {o : BitVec 2} {tn : BitVec 4} {m : BitVec 1}

theorem exec_kreadTile_of (hgo : Goes (cur s) (needs (groupRegs (octReg o) 8) [d])) {t : State}
    (hbody : readTileBody false d (octReg o) tn (m == 1) (issuedOf (cur s) s.focus) (pastUnit s) = some t) :
    exec (.kreadTile d o tn m) s = .next t := issue_some hgo.dropWrites hbody

theorem exec_ktakeTile_of (hgo : Goes (cur s) (needs (groupRegs (octReg o) 8) [d])) {t : State}
    (hbody : readTileBody true d (octReg o) tn (m == 1) (issuedOf (cur s) s.focus) (pastUnit s) = some t) :
    exec (.ktakeTile d o tn m) s = .next t := issue_some hgo.dropWrites hbody

variable (hgo : Goes (cur s) (needs (b :: groupRegs (octReg o) 8) [d]))
include hgo

theorem exec_kreadImage_of {t : State}
    (hbody : readImageBody false d (octReg o) b (m == 1) (issuedOf (cur s) s.focus) (pastUnit s) = some t) :
    exec (.kreadImage d o b m) s = .next t := issue_some hgo.dropWrites hbody

theorem exec_ktakeImage_of {t : State}
    (hbody : readImageBody true d (octReg o) b (m == 1) (issuedOf (cur s) s.focus) (pastUnit s) = some t) :
    exec (.ktakeImage d o b m) s = .next t := issue_some hgo.dropWrites hbody

theorem exec_kreadCont_of {t : State} (hbody : readContBody false d (octReg o) b tn (issuedOf (cur s) s.focus) (pastUnit s) = some t) :
    exec (.kreadCont d o b tn) s = .next t := issue_some hgo.dropWrites hbody

theorem exec_ktakeCont_of {t : State} (hbody : readContBody true d (octReg o) b tn (issuedOf (cur s) s.focus) (pastUnit s) = some t) :
    exec (.ktakeCont d o b tn) s = .next t := issue_some hgo.dropWrites hbody

omit hgo in
theorem getCore_reserveCont (take : Bool) (e : Nat) : getCore (reserveCont s take e) s.focus =
    putAq { getCore s s.focus with ctx := pastKey (cur s) take } e (.continuation (nameGen (cur s).sys.tid).toNat s.nextId) :=
  (getCore_modCore_self ..).trans (congrArg (putAq · e _) (getCore_setCtx_self ..))

omit hgo in
/-- A continuation's request goes out with its entry reserved (R440). -/
theorem sendsKey_of_reserved {i : Instr} {take : Bool} {e : Nat} {key : BitVec 256} {ask : KeyAsk} {operands : List Nat}
    (hcopy : NoCopy (cur s))
    (hexec : exec i s = .next (sendKey (reserveCont s take e) (issuedOf (cur s) s.focus) d (keyHash key) ask operands [])) :
    SendsKey s i d take key ask (keyEvent ask) := by
  refine sendsKey_of_cores (cs := (reserveCont s take e).cores) hcopy ?_ ?_ hexec
  · exact congrArg Core.ctx (getCore_reserveCont (s := s) take e)
  · have hspad := congrArg Core.spad (getCore_reserveCont (s := s) take e)
    exact hspad

omit hgo in
theorem aq_sendKey_reserved {take : Bool} {e : Nat} {i : Issued} {hash : Nat} {ask : KeyAsk} {operands : List Nat}
    (hi : i.core = s.focus) (he : e < 16) :
    (getCore (sendKey (reserveCont s take e) i d hash ask operands []) s.focus).aq.getD e .free =
      .continuation (nameGen (cur s).sys.tid).toNat s.nextId := by
  have haq : (getCore (sendKey (reserveCont s take e) i d hash ask operands []) s.focus).aq = (getCore (reserveCont s take e) s.focus).aq := by
    unfold sendKey
    rw [hi]
    exact (getCore_modCtx_field _ _ _ (g := (·.aq)) fun _ _ => rfl).trans
      (getCore_setCtx_field _ _ _ _ (g := (·.aq)) fun _ _ => rfl)
  rw [haq, getCore_reserveCont]
  exact aq_putAq_self _ _ he

end

/-- Settles O31. -/
theorem keyOperations : Obligations.KeyOperations := by
  refine ⟨?_, ?_⟩
  · intro s d b q o tn m x c k u g h key v mask addr y sends refuses header released hcopy hstores hfull
    refine ⟨?_, ?_, ?_, ?_, ?_⟩
    · intro hgo tile hseq htile hready hrel
      exact sendsKey_kputTile hcopy hstores hfull hgo hseq htile hready hrel
    · intro hgo bs hhead
      refine ⟨refusesKey_kputImage hstores hfull hgo hhead, fun hlen hshape hfit off hplace hfree hrel => ?_⟩
      exact sendsKey_kputImage hcopy hstores hfull hgo hhead hlen hshape hfit hplace hfree hrel
    · intro hgo hmask
      exact ⟨exec_kreadTile_of hgo (readTileBody_openTemplate hmask _ _), exec_ktakeTile_of hgo (readTileBody_openTemplate hmask _ _),
        exec_kcancel_openTemplate hgo hmask⟩
    · intro hgo hmask
      refine ⟨sendsKey_kcancel hcopy hstores hfull hgo hmask, fun tile hseq htile => ⟨?_, ?_⟩⟩
      · obtain ⟨_, hbody⟩ := readTileBody_sends hstores hfull hgo hmask false (m == 1) hseq htile
        exact sendsKey_of_sendKey _ _ hcopy (exec_kreadTile_of hgo hbody)
      · obtain ⟨_, hbody⟩ := readTileBody_sends hstores hfull hgo hmask true (m == 1) hseq htile
        exact sendsKey_of_sendKey _ _ hcopy (exec_ktakeTile_of hgo hbody)
    · intro hgo hmask
      refine ⟨fun bs hhead => ⟨fun hbad => ⟨?_, ?_⟩, fun hcap hfit => ⟨?_, ?_⟩⟩, fun tile hseq htile => ⟨fun hfree => ⟨?_, ?_⟩,
        fun e hfree hkeep => ⟨?_, ?_⟩, fun e hfree hkeep => ⟨?_, ?_, ?_⟩⟩⟩
      · exact exec_kreadImage_of hgo (readImageBody_refuses hstores hfull hgo hmask hhead false (m == 1) hbad)
      · exact exec_ktakeImage_of hgo (readImageBody_refuses hstores hfull hgo hmask hhead true (m == 1) hbad)
      · obtain ⟨_, hbody⟩ := readImageBody_sends hstores hfull hgo hmask hhead false (m == 1) hcap hfit
        exact sendsKey_of_sendKey _ _ hcopy (exec_kreadImage_of hgo hbody)
      · obtain ⟨_, hbody⟩ := readImageBody_sends hstores hfull hgo hmask hhead true (m == 1) hcap hfit
        exact sendsKey_of_sendKey _ _ hcopy (exec_ktakeImage_of hgo hbody)
      · exact exec_kreadCont_of hgo (readContBody_full hstores hfull hgo hmask hseq htile false hfree)
      · exact exec_ktakeCont_of hgo (readContBody_full hstores hfull hgo hmask hseq htile true hfree)
      · exact exec_kreadCont_of hgo (readContBody_outside hstores hfull hgo hmask hseq htile hfree false hkeep)
      · exact exec_ktakeCont_of hgo (readContBody_outside hstores hfull hgo hmask hseq htile hfree true hkeep)
      · obtain ⟨_, hbody⟩ := readContBody_sends hstores hfull hgo hmask hseq htile hfree false hkeep
        exact sendsKey_of_reserved hcopy (exec_kreadCont_of hgo hbody)
      · obtain ⟨_, hbody⟩ := readContBody_sends hstores hfull hgo hmask hseq htile hfree true hkeep
        exact sendsKey_of_reserved hcopy (exec_ktakeCont_of hgo hbody)
      · obtain ⟨_, hbody⟩ := readContBody_sends hstores hfull hgo hmask hseq htile hfree true hkeep
        exact ⟨_, exec_ktakeCont_of hgo hbody, aq_sendKey_reserved rfl (freeAq_lt hfree)⟩
  · intro s d a b q x c h sel u hrel
    refine ⟨fun hgo => exec_kmap hgo hrel, fun hgo hstores => ⟨exec_kstat_absent hgo hstores hrel, fun hsel hmod hloc halive => ?_⟩⟩
    refine ⟨_, _, exec_kstat_local hgo hstores hrel hsel hmod hloc halive, ?_, rfl, rfl, rfl, rfl, rfl⟩
    exact (getCtx_setCtx_self ..).trans (by rw [getCtx_setCtx_self]; rfl)

end Sys2Proof.Machine
end

section
/-! A status for a key request whose registration is the last of a dormant task (R42, R312, R440, R446). -/

namespace Sys2Proof.Machine

def smallTile : Tile := { base := 0, rows := 1, cols := 1, pitch := 64, fmt := .fp32, vrows := 1, vcols := 1, fill := 0 }

/-- An ended multicast of the task name that generation 1 of core 0 makes, listed under the name and the register of a key operation. -/
def endedCast : Op :=
  { id := 5, core := 0, serial := 7, gen := 0, reg := 1, upc := 0, held := 0, drawn := 0,
    body := .mcast { read := false, tile := smallTile, word := 0, src := 0, rows := [], loaded := true, rel := false, name := 1, receivers := [],
                     linesDone := [], srcFail := false, ended := true } }

/-- The status FULL on its way to a continuation's registration in entry 0 of core 0, for the operation `endedCast`. -/
def fullStatus : KeyDelivery :=
  { id := 9, home := 0, answer := .status 2 false, held := false,
    req := { id := 8, issuer := .task 0 7 0 5, ctx := 0, ask := .read false 0 0 false (.cont 0 3 0 0 smallTile), hash := 0, home := 0, mapgen := 0,
             fwd := 0, forwarded := false, held := false, tag := none, twin := none, twinRemote := none, assayed := false, chain := false,
             rid := 0 } }

/-- Core 0 runs activation 7, register 1 waits for `endedCast`, and generation 1 is dormant with the one registration that is refused. -/
def lastRegistration : State :=
  { setCore State.reset 0 { resetCore with
      state := .running, aq := resetCore.aq.setIfInBounds 0 (.continuation 1 3), live := [{ gen := 1, xfree := 0, tally := noFails }],
      ctx := { markReg resetCtx 1 (.op 5) with act := some {
        serial := 7, ltag := 0, kind := .task, record := { ltag := 0, dual := false, prio := 0, cls := 0, entry := 0, args := [] },
        t15 := none, pair := none, msgIdx := 0, commit := false } } } with
    ops := [endedCast], deliveries := [fullStatus] }

/-- The refused registration is released, generation 1 retires with it, and the ended multicast of its name goes unanswered. -/
theorem exec_keyDeliveryArrive_lastRegistration :
    ∃ t, exec (.keyDeliveryArrive 9) lastRegistration = .next t ∧ isMarked (getCtx t 0) 1 = true := ⟨_, rfl, rfl⟩

/-- Refutes O32: a status that arrives is said to be written to the register of the operation that its request names, whatever that
operation is. The status FULL of a continuation releases the registration first (R42, R440); where the task of the registration retires
with it, every ended multicast of that name is dropped (R312), and one listed under the request's operation, as in `lastRegistration`,
gets no status: the register stays marked. (Of the clauses on a home's own part: the units that a stored payload takes are the lowest free
ones, log 21.) -/
theorem not_keyEvents : ¬ Obligations.KeyEvents := by
  unfold Obligations.KeyEvents
  rintro ⟨-, harrive⟩
  obtain ⟨hstatus, -⟩ := harrive lastRegistration
  obtain ⟨htold, -, -⟩ := hstatus fullStatus 0 7 0 endedCast rfl rfl rfl rfl rfl rfl rfl rfl (by decide)
  obtain ⟨t, hexec, -, hclear, -⟩ := htold 2 false rfl
  obtain ⟨u, hu, hmarked⟩ := exec_keyDeliveryArrive_lastRegistration
  obtain rfl := Host.Outcome.next.inj (hexec.symm.trans hu)
  exact absurd (hclear.symm.trans hmarked) (by decide)

end Sys2Proof.Machine
end

section
/-! Range splits up to their cut-over, heaps, and map copies (R457-R460, R463, R465, R469, R470, R474). -/

namespace Sys2Proof.Machine

/-! ### KSPLIT (R470, R474) -/

section
variable {s : State} {d a b : BitVec 5} {r : HomeRange}

/-- What a KSPLIT asks for is a split: a range of two hashes or more of a home here, towards another home that is there (R474). -/
def Splittable (s : State) (hash dst : Nat) (r : HomeRange) : Prop :=
  coverOf s.homeMap hash = some r ∧ 2 ≤ rangeEnd s.homeMap r.lo - r.lo ∧ homeLocal s r.home = true ∧ dst ≠ r.home ∧
    dst / 64 < s.domainModules ∧ (∀ h ∈ s.homes, h.1 = dst → h.2.present = true) ∧ dst ∉ s.absentHomes

/-- The split that begins in the middle of a range (R465). -/
def newSplit (s : State) (r : HomeRange) (dst op : Nat) : Split :=
  { phase := 1, lo := r.lo, mid := r.lo + (rangeEnd s.homeMap r.lo - r.lo) / 2, hi := rangeEnd s.homeMap r.lo, src := r.home, dst := dst,
    op := op, copied := [], reserved := 0 }

theorem planSplit_of_splittable {hash dst : Nat} (h : Splittable s hash dst r) (op : Nat) :
    planSplit s hash dst op =
      if s.split.isSome ∨ lockTaken s = true then .inl 1
      else if mapLimit ≤ s.homeMap.ranges.length then .inl 2
      else if s.failedModules.contains (dst / 64) then .inl 3
      else .inr (newSplit s r dst op) := by
  obtain ⟨hcover, hwide, hloc, hne, hmod, hpresent, habsent⟩ := h
  have hbad : ¬ (rangeEnd s.homeMap r.lo - r.lo < 2 ∨ homeLocal s r.home = false ∨ dst = r.home ∨ s.domainModules ≤ dst / 64 ∨
      s.absentHomes.contains dst = true) := by
    rw [List.contains_iff_mem, hloc]
    rintro (h | h | h | h | h)
    · exact absurd hwide (Nat.not_le_of_gt h)
    · exact Bool.noConfusion h
    · exact hne h
    · exact absurd hmod (Nat.not_lt_of_le h)
    · exact habsent h
  have hthere : s.homes.any (fun h => h.1 == dst && !h.2.present) = false := List.any_eq_false.2 fun h hh => by
    by_cases hd : h.1 = dst
    · simp [hpresent h hh hd]
    · simp [hd]
  unfold planSplit
  simp only [hcover]
  rw [if_neg hbad, hthere]
  rfl

variable (hgo : Goes (cur s) (needs [a, b] [d] (priv := true))) (hstores : holdsStores (cur s) = false)
  (hdual : (cur s).sys.dual = false) (hsplit : Splittable s ((regVal (cur s) a).toNat % 2 ^ 32) ((regVal (cur s) b).toNat % 2 ^ 10) r)
include hgo hstores hdual hsplit

theorem exec_ksplit_starts (hnone : s.split = none) (hlock : lockTaken s = false) (hroom : s.homeMap.ranges.length < 1024)
    (hup : (regVal (cur s) b).toNat % 2 ^ 10 / 64 ∉ s.failedModules) :
    exec (.ksplit d a b) s = .next (push
      { startOp (bumpFree (pastCommit s)) s.focus d (unitPc (cur s)) .split with
        split := some (newSplit s r ((regVal (cur s) b).toNat % 2 ^ 10) s.nextId), splitLock := some s.localMod } .splitCopy) := by
  have hplan : planSplit (pastUnit s) ((regVal (cur s) a).toNat % 2 ^ 32) ((regVal (cur s) b).toNat % 2 ^ 10) s.nextId =
      .inr (newSplit s r ((regVal (cur s) b).toNat % 2 ^ 10) s.nextId) := by
    have hfree : ¬ (s.split.isSome ∨ lockTaken s = true) := by rw [hnone, hlock]; decide
    have hup' : ¬ s.failedModules.contains ((regVal (cur s) b).toNat % 2 ^ 10 / 64) = true := by rwa [List.contains_iff_mem]
    exact (planSplit_of_splittable hsplit s.nextId).trans
      ((if_neg hfree).trans ((if_neg (Nat.not_le_of_gt hroom)).trans (if_neg hup')))
  have hctx : (pastUnit s).nextId = s.nextId := rfl
  have hdual' : (passUnit (cur s)).sys.dual = false := hdual
  show execKsplit d a b s = _
  unfold execKsplit
  refine issue_some hgo ?_
  simp only [issuedOf_core, issuedOf_upc, getCtx_setCtx_self, regVal_passUnit, holdsStores_passUnit, hstores, hdual', hctx, hplan]
  exact congrArg some (congrArg (fun t => push { startOp t s.focus d (unitPc (cur s)) .split with
    split := some (newSplit s r ((regVal (cur s) b).toNat % 2 ^ 10) s.nextId), splitLock := some s.localMod } .splitCopy)
    (modCtx_setCtx (bumpFree s) s.focus (passUnit (cur s)) setCommit))

theorem exec_ksplit_busy (hbusy : s.split.isSome = true ∨ lockTaken s = true) :
    exec (.ksplit d a b) s = .next (bumpFree (withCur s (setStatus (setCommit (passUnit (cur s))) d (splitStatus 1 0)))) := by
  have hplan : planSplit (pastUnit s) ((regVal (cur s) a).toNat % 2 ^ 32) ((regVal (cur s) b).toNat % 2 ^ 10) s.nextId = .inl 1 :=
    (planSplit_of_splittable hsplit s.nextId).trans (if_pos hbusy)
  have hctx : (pastUnit s).nextId = s.nextId := rfl
  have hdual' : (passUnit (cur s)).sys.dual = false := hdual
  show execKsplit d a b s = _
  unfold execKsplit
  refine issue_some hgo ?_
  simp only [issuedOf_core, getCtx_setCtx_self, regVal_passUnit, holdsStores_passUnit, hstores, hdual', hctx, hplan]
  exact congrArg some ((congrArg (fun t => modCtx t s.focus fun y => setStatus y d (splitStatus 1 0))
    (modCtx_setCtx (bumpFree s) s.focus (passUnit (cur s)) setCommit)).trans (modCtx_setCtx (bumpFree s) s.focus _ _))

end

/-! ### SPLIT_COPY and SPLIT_ABORT (R465, R466, R469) -/

/-- What the copying of a split leaves: homes, the map, the cores, the operations and the agenda. -/
structure SplitKeeps (s t : State) : Prop where
  homes : t.homes = s.homes
  homeMap : t.homeMap = s.homeMap
  agenda : t.agenda = s.agenda

theorem splitKeeps_copyUpper (s : State) (p : Split) (ts : List Tuple) : SplitKeeps s (copyUpper s p ts) := by
  unfold copyUpper
  split
  · exact ⟨rfl, rfl, rfl⟩
  · exact foldl_induction (motive := SplitKeeps s) (fun t e ht => ⟨ht.homes, ht.homeMap, ht.agenda⟩) ⟨rfl, rfl, rfl⟩

section
variable {s : State} {p : Split} {o : Op} (hp : s.split = some p)
include hp

theorem execSplitAbort_late (lost : Bool) (hphase : p.phase = 3) : execSplitAbort lost s = .next s := by
  unfold execSplitAbort abortSplit
  simp only [hp, if_pos hphase]
  rfl

theorem execSplitAbort_early (lost : Bool) (hphase : p.phase ≠ 3) :
    execSplitAbort lost s = .next (endSplit s p (splitStatus (if lost then 3 else 2) 0)) := by
  unfold execSplitAbort abortSplit
  simp only [hp, if_neg hphase]
  rfl

theorem execSplitCutover_begins (hphase : p.phase = 2) (hfits : splitFits s p = true) (hloc : homeLocal s p.dst = true) :
    execSplitCutover s = .next (push { s with split := some { p with phase := 3 } } .splitCutover) := by
  unfold execSplitCutover
  simp only [hp, hphase, hfits, hloc]
  rfl

variable (hphase : p.phase = 1) (hfind : findOp s p.op = some o) (hrel : opReleased s o true 4 = true)
include hphase hfind hrel

theorem execSplitCopy_copies (hfits : splitFits s p = true) : execSplitCopy s = .next (splitOnward s p) := by
  unfold execSplitCopy
  simp only [hp, hphase, hfind, hrel, hfits]
  rfl

theorem execSplitCopy_aborts (hfits : splitFits s p = false) : execSplitCopy s = .next (push s (.splitAbort false)) := by
  unfold execSplitCopy
  simp only [hp, hphase, hfind, hrel, hfits]
  rfl

end

/-- The end of a split gives its KSPLIT the outcome, and the lock returns (R470, R474). -/
theorem endSplit_ends {s : State} {p : Split} {o : Op} (hop : p.op = o.id) (h : Awaits s o) (v : Word) :
    (endSplit s p v).split = none ∧ (endSplit s p v).splitLock = none ∧ (endSplit s p v).homeMap = s.homeMap ∧
      (endSplit s p v).homes = s.homes ∧ Told (endSplit s p v) o v := by
  unfold endSplit
  rw [hop]
  refine ⟨?_, ?_, ?_, ?_, told_endOp (s := { s with split := none, splitLock := none }) h v⟩ <;> rw [endOp_eq]

/-! ### Heaps (R463; log 21) -/

theorem heapGranted_fits {s : State} {home base size : Nat} (h : heapGranted s home base size = true) :
    base % 65536 = 0 ∧ size % 65536 = 0 ∧ 65536 ≤ size ∧ base / stackBytes = home % 64 / 4 ∧ base % stackBytes + size ≤ stackBytes ∧
      ∀ g ∈ stackHomes s home, meets (base % stackBytes) size (g.heapBase % stackBytes) g.heapSize = false := by
  unfold heapGranted at h
  simp only [Bool.and_eq_true, decide_eq_true_eq, beq_iff_eq, List.all_eq_true, Bool.not_eq_true'] at h
  obtain ⟨⟨⟨⟨⟨⟨⟨hbase, hsize⟩, hleast⟩, hstack⟩, hfits⟩, -⟩, hclear⟩, -⟩ := h
  exact ⟨hbase, hsize, hleast, hstack, hfits, hclear⟩

theorem execHeapResizeRequest_grants {s : State} {home base size : Nat} (ht : (getHome s home).tuples = [])
    (hw : (getHome s home).waiters = []) (hu : (getHome s home).unacked = []) (hg : heapGranted s home base size = true)
    (hloc : homeLocal s home = true) :
    execHeapResizeRequest home base size s = .next (setHome s home { getHome s home with heapBase := base, heapSize := size }) := by
  unfold execHeapResizeRequest
  simp only [ht, hw, hu, hg, hloc]
  rfl

theorem execHeapResizeRequest_refuses {s : State} {home base size : Nat}
    (h : (getHome s home).tuples ≠ [] ∨ (getHome s home).waiters ≠ [] ∨ heapGranted s home base size = false) :
    execHeapResizeRequest home base size s = .next s := by
  have hno : ((getHome s home).tuples.isEmpty && (getHome s home).waiters.isEmpty && (getHome s home).unacked.isEmpty &&
      homeLocal s home && heapGranted s home base size) = false := by
    rcases h with h | h | h
    · simp [h]
    · simp [h]
    · simp [h]
  unfold execHeapResizeRequest
  simp only [hno]
  rfl

/-! ### Map copies (R458, R460; log 15) -/

theorem mapCopy_mapBroadcastArrive (s : State) (ni j : Nat) :
    mapCopy { s with mapCopies := s.mapCopies.filter (fun p => p.1 != ni) } j = if j = ni then s.homeMap else mapCopy s j :=
  tabGet_filter ..

theorem gen_mapWith {m : HomeMap} {gen : BitVec 32} (lo home : Nat) (h : genOlder gen m.gen = false) : (mapWith m gen lo home).gen = gen := by
  unfold mapWith
  simp only [h]
  rfl

theorem mem_mapWith (m : HomeMap) (gen : BitVec 32) (lo home : Nat) : { lo := lo, home := home } ∈ (mapWith m gen lo home).ranges :=
  List.mem_append_left _ (List.mem_append_right _ (List.mem_singleton_self _))

theorem mem_mapWith_of_mem {m : HomeMap} {e : HomeRange} (gen : BitVec 32) {lo : Nat} (home : Nat) (he : e ∈ m.ranges) (hlo : e.lo ≠ lo) :
    e ∈ (mapWith m gen lo home).ranges := by
  have hrest : e ∈ m.ranges.filter (fun r => r.lo != lo) := List.mem_filter.2 ⟨he, bne_iff_ne.2 hlo⟩
  rcases Nat.lt_or_gt_of_ne hlo with hlt | hgt
  · exact List.mem_append_left _ (List.mem_append_left _ (List.mem_filter.2 ⟨hrest, decide_eq_true hlt⟩))
  · exact List.mem_append_right _ (List.mem_filter.2 ⟨hrest, decide_eq_true hgt⟩)

/-- The state without a hint that has arrived. -/
def dropHint (s : State) (n : Nat) : State := { s with hints := s.hints.filter (fun g => g.id != n) }

theorem execForwardHintArrive_eq {s : State} {n : Nat} {h : MapHint} (hfind : s.hints.find? (fun g => g.id == n) = some h) :
    execForwardHintArrive n s = .next (if genOlder h.gen (mapCopy s h.ni).gen then dropHint s n
      else { dropHint s n with mapCopies := tabSet s.mapCopies h.ni (mapWith (mapCopy s h.ni) h.gen h.lo h.home) }) := by
  unfold execForwardHintArrive
  simp only [hfind]
  exact (apply_ite Host.Outcome.next _ _ _).symm

theorem forwardHint_arrives {s : State} {h : MapHint} (hfind : s.hints.find? (fun g => g.id == h.id) = some h) :
    ∃ t : State, execForwardHintArrive h.id s = .next t ∧ (∀ g ∈ t.hints, g.id ≠ h.id) ∧ (∀ j ≠ h.ni, mapCopy t j = mapCopy s j) ∧
      (genOlder h.gen (mapCopy s h.ni).gen = false →
        (mapCopy t h.ni).gen = h.gen ∧ { lo := h.lo, home := h.home } ∈ (mapCopy t h.ni).ranges) ∧
      (genOlder h.gen (mapCopy s h.ni).gen = true → mapCopy t h.ni = mapCopy s h.ni) := by
  have hgone : ∀ g ∈ s.hints.filter (fun g => g.id != h.id), g.id ≠ h.id := fun g hg => bne_iff_ne.1 (List.mem_filter.1 hg).2
  refine ⟨_, execForwardHintArrive_eq hfind, ?_⟩
  cases hold : genOlder h.gen (mapCopy s h.ni).gen with
  | true => exact ⟨hgone, fun _ _ => rfl, fun h => Bool.noConfusion h, fun _ => rfl⟩
  | false =>
    have hself : mapCopy { dropHint s h.id with mapCopies := tabSet s.mapCopies h.ni (mapWith (mapCopy s h.ni) h.gen h.lo h.home) } h.ni =
        mapWith (mapCopy s h.ni) h.gen h.lo h.home := tabGet_tabSet_self ..
    refine ⟨hgone, fun j hj => tabGet_tabSet_ne _ _ _ _ _ hj, fun _ => ?_, fun h => Bool.noConfusion h⟩
    exact ⟨(congrArg HomeMap.gen hself).trans (gen_mapWith _ _ hold), 
      (congrArg (fun m : HomeMap => ({ lo := h.lo, home := h.home } : HomeRange) ∈ m.ranges) hself).mpr (mem_mapWith ..)⟩

/-! ### Requests held at their home (R460) -/

/-- A request as it goes on to the home that holds its hash (R460). -/
def forwarded (r : KeyReq) (home : Nat) : KeyReq :=
  { r with home := home, fwd := Nat.min (r.fwd + 1) 15, forwarded := true, held := false }

theorem findReq_putReq {s : State} {r q : KeyReq} (h : findReq s q.id = some r) : findReq (putReq s q) q.id = some q := by
  unfold findReq at h
  have hid := List.find?_some h
  unfold findReq putReq
  rw [List.find?_map]
  have hsame : ((fun r : KeyReq => r.id == q.id) ∘ fun r => if r.id = q.id then q else r) = fun r => r.id == q.id := by
    funext e
    by_cases he : e.id = q.id <;> simp [he]
  rw [hsame, h, Option.map_some, if_pos (beq_iff_eq.1 hid)]

theorem forwardReq_moves {s : State} {r : KeyReq} (h : findReq s r.id = some r) (home : Nat) :
    findReq (forwardReq s r home) r.id = some (forwarded r home) ∧ reqEvent (forwarded r home) ∈ (forwardReq s r home).agenda := by
  have hfind : findReq (putReq s (forwarded r home)) r.id = some (forwarded r home) := findReq_putReq (q := forwarded r home) h
  refine ⟨?_, List.mem_append_right _ (List.mem_singleton_self _)⟩
  unfold forwardReq
  refine Eq.trans ?_ hfind
  show findReq (push _ _) r.id = _
  split
  · rfl
  · split <;> rfl
  · rfl

end Sys2Proof.Machine
end

section
/-! The cut-over of a split (R434, R467). -/

namespace Sys2Proof.Machine

/-! ### What an operation of one home leaves -/

/-- Two states that agree in the cores, the operations, the map and every home but one. -/
structure KeepsBeside (h : Nat) (s t : State) : Prop where
  cores : t.cores = s.cores
  ops : t.ops = s.ops
  homeMap : t.homeMap = s.homeMap
  others : ∀ j ≠ h, getHome t j = getHome s j

theorem KeepsBeside.refl (h : Nat) (s : State) : KeepsBeside h s s := ⟨rfl, rfl, rfl, fun _ _ => rfl⟩

theorem KeepsBeside.trans {h : Nat} {s t u : State} (a : KeepsBeside h s t) (b : KeepsBeside h t u) : KeepsBeside h s u :=
  ⟨b.cores.trans a.cores, b.ops.trans a.ops, b.homeMap.trans a.homeMap, fun j hj => (b.others j hj).trans (a.others j hj)⟩

theorem keepsBeside_setHome (s : State) (h : Nat) (v : Home) : KeepsBeside h s (setHome s h v) :=
  ⟨rfl, rfl, rfl, fun _ hj => tabGet_tabSet_ne _ _ _ _ _ hj⟩

theorem keepsBeside_count (s : State) (h : Nat) (k : Counter) (n : Nat) : KeepsBeside h s (count s k n) := ⟨rfl, rfl, rfl, fun _ _ => rfl⟩

theorem getHome_setHome_self (s : State) (h : Nat) (v : Home) : getHome (setHome s h v) h = v := tabGet_tabSet_self ..

theorem keepsBeside_writeHeap (s : State) (h : Nat) (units : List Nat) (payload : List Byte) :
    KeepsBeside h s (writeHeap s h units payload) := by
  induction units generalizing s payload with
  | nil => exact .refl h s
  | cons u r ih =>
    refine KeepsBeside.trans ⟨physWrite_cores .., (memoryOnly_physWrite ..).field State.ops, (memoryOnly_physWrite ..).field State.homeMap,
      fun j _ => ?_⟩ (ih ..)
    exact congrArg (fun T => tabGet emptyHome T j) ((memoryOnly_physWrite ..).field State.homes)

theorem keepsBeside_foldl {α : Type} {h : Nat} {f : State → α → State} (hf : ∀ t a, KeepsBeside h t (f t a)) (l : List α) (s : State) :
    KeepsBeside h s (l.foldl f s) :=
  foldl_induction (motive := KeepsBeside h s) (fun t a ht => ht.trans (hf t a)) (.refl h s)

theorem keepsBeside_serve (s : State) (h : Nat) (r : KeyReq) (t : Tuple) (take : Bool) : KeepsBeside h s (serve s h r t take) := by
  unfold serve
  cases take <;> cases (t.chain || r.chain)
  · exact ⟨rfl, rfl, rfl, fun _ _ => rfl⟩
  · exact ⟨rfl, rfl, rfl, fun _ _ => rfl⟩
  · exact (keepsBeside_setHome s h _).trans ⟨rfl, rfl, rfl, fun _ _ => rfl⟩
  · exact (keepsBeside_setHome s h _).trans ⟨rfl, rfl, rfl, fun _ _ => rfl⟩

theorem keepsBeside_deposit (s : State) (h : Nat) (tuple : Tuple) : KeepsBeside h s (deposit s h tuple).1 := by
  have hserved : ∀ (units : List Nat) (v : Home) (ws : List KeyReq) (t : Tuple) (takes : KeyReq → Bool), KeepsBeside h s
      (ws.foldl (fun u w => serve u h w t (takes w)) (setHome (writeHeap s h units tuple.payload) h v)) := fun units v ws t takes =>
    (keepsBeside_writeHeap s h units _).trans ((keepsBeside_setHome _ h v).trans
      (keepsBeside_foldl (fun u w => keepsBeside_serve u h w t (takes w)) ws _))
  unfold deposit
  dsimp only
  split
  · exact hserved ..
  · dsimp only
    split
    · refine .trans (.trans ?_ (keepsBeside_setHome ..)) (keepsBeside_count ..)
      exact hserved ..
    · refine .trans ?_ (keepsBeside_setHome ..)
      exact hserved ..

theorem keepsBeside_appendWaiter (s : State) (h : Nat) (r : KeyReq) : KeepsBeside h s (appendWaiter s h r).1 := by
  unfold appendWaiter
  dsimp only
  split
  · exact .trans (keepsBeside_setHome ..) (keepsBeside_count ..)
  · exact keepsBeside_setHome ..

theorem keepsBeside_moveWaiter (h : Nat) (s : State) (w : KeyReq) : KeepsBeside h s (moveWaiter h s w) := by
  unfold moveWaiter
  dsimp only
  split
  · exact .refl h s
  · split
    · refine .trans ?_ (keepsBeside_serve ..)
      split
      · exact keepsBeside_setHome ..
      · exact .refl h s
    · exact keepsBeside_appendWaiter ..

theorem keepsBeside_takeUpper (s : State) (h : Nat) (ts : List Tuple) (ws : List KeyReq) (seq : BitVec 64) :
    KeepsBeside h s (takeUpper s h ts ws seq) :=
  (keepsBeside_foldl (fun u t => keepsBeside_deposit u h t) ts s).trans
    ((keepsBeside_foldl (keepsBeside_moveWaiter h) ws _).trans (keepsBeside_setHome ..))

/-! ### What stays of a tuple and of a waiter where it is stored (R426, R434, R467) -/

/-- A stored tuple without its place: neither its units nor whether it stands in the chain. -/
structure TupleFace where
  key : BitVec 256
  ctx : Nat
  seq : Nat
  payload : List Byte

/-- A waiter without its place. -/
structure WaiterFace where
  id : Nat
  ask : KeyAsk
  ctx : Nat
  home : Nat

def tupleFace (t : Tuple) : TupleFace := { key := t.key, ctx := t.ctx, seq := t.seq, payload := t.payload }

def waiterFace (w : KeyReq) : WaiterFace := { id := w.id, ask := w.ask, ctx := w.ctx, home := w.home }

/-- A waiter's template does not match a tuple (R430, R433). -/
def Unmatched (w : WaiterFace) (t : TupleFace) : Prop :=
  ∀ take v m, waitForm w.ask = some (take, v, m) → w.ctx = t.ctx → keyMatches v m t.key = false

theorem map_tupleFace_promoteTuples (n : Nat) (ts : List Tuple) : (promoteTuples n ts).map tupleFace = ts.map tupleFace := by
  induction n, ts using promoteTuples.induct with
  | case1 ts => rw [promoteTuples]
  | case2 n hn => cases n <;> rfl
  | case3 n t r hchain ih =>
    rw [promoteTuples, if_pos hchain, List.map_cons, ih]
    rfl
  | case4 n t r hchain ih => rw [promoteTuples, if_neg hchain, List.map_cons, ih, List.map_cons]

theorem map_waiterFace_promoteWaiters (n : Nat) (ws : List KeyReq) : (promoteWaiters n ws).map waiterFace = ws.map waiterFace := by
  induction n, ws using promoteWaiters.induct with
  | case1 ws => rw [promoteWaiters]
  | case2 n hn => cases n <;> rfl
  | case3 n w r hchain ih =>
    rw [promoteWaiters, if_pos hchain, List.map_cons, ih]
    rfl
  | case4 n w r hchain ih => rw [promoteWaiters, if_neg hchain, List.map_cons, ih, List.map_cons]

theorem matchWaiters_of_unmatched {t : Tuple} {ws : List KeyReq} (h : ∀ w ∈ ws, Unmatched (waiterFace w) (tupleFace t)) :
    matchWaiters t ws = ([], ws, false) := by
  induction ws with
  | nil => rfl
  | cons w r ih =>
    have hr := ih fun x hx => h x (List.mem_cons_of_mem _ hx)
    unfold matchWaiters
    cases hform : waitForm w.ask with
    | none => simp only [hr]
    | some f =>
      obtain ⟨take, v, m⟩ := f
      have hno : ¬ (w.ctx = t.ctx ∧ keyMatches v m t.key = true) := fun hm =>
        absurd (h w List.mem_cons_self take v m hform hm.1) (by rw [show keyMatches v m (tupleFace t).key = true from hm.2]; decide)
      simp only [if_neg hno, hr]

theorem bestTuple_of_unmatched {v : Home} {ctx : Nat} {val mask : BitVec 256}
    (h : ∀ t ∈ v.tuples, t.ctx = ctx → keyMatches val mask t.key = false) : bestTuple v ctx val mask = none := by
  have hnone : v.tuples.filter (fun t => t.ctx == ctx && keyMatches val mask t.key) = [] :=
    List.filter_eq_nil_iff.2 fun t ht hm => by
      rw [Bool.and_eq_true, beq_iff_eq] at hm
      exact absurd hm.2 (by rw [h t ht hm.1]; decide)
  unfold bestTuple
  rw [hnone]
  rfl

/-- What a home holds, but for the places of its entries. -/
structure HomeHolds (s : State) (h : Nat) (T : List TupleFace) (W : List WaiterFace) : Prop where
  tuples : (getHome s h).tuples.map tupleFace = T
  waiters : (getHome s h).waiters.map waiterFace = W

theorem HomeHolds.of_homes {s t : State} {h : Nat} {T : List TupleFace} {W : List WaiterFace} (hold : HomeHolds s h T W)
    (hhomes : getHome t h = getHome s h) : HomeHolds t h T W := ⟨hhomes ▸ hold.tuples, hhomes ▸ hold.waiters⟩

section
variable {s : State} {h : Nat} {T : List TupleFace} {W : List WaiterFace}

theorem getHome_countIf (u : State) (h : Nat) (c : Bool) (k : Counter) (n : Nat) :
    getHome (if c then count u k n else u) h = getHome u h := by cases c <;> rfl

theorem homeHolds_deposit (hold : HomeHolds s h T W) {t : Tuple} (hno : ∀ w ∈ W, Unmatched w (tupleFace t)) :
    HomeHolds (deposit s h t).1 h (T ++ [tupleFace t]) W := by
  have hno' : ∀ w ∈ (getHome s h).waiters, Unmatched (waiterFace w) (tupleFace t) := fun w hw =>
    hno _ (hold.waiters ▸ List.mem_map_of_mem hw)
  have hmatch : matchWaiters { t with chain := false, units := lowestFree (usedUnits (getHome s h)) (payloadUnits t.payload.length) }
      (getHome s h).waiters = ([], (getHome s h).waiters, false) := matchWaiters_of_unmatched hno'
  unfold deposit
  simp only [hmatch, List.foldl_nil, Bool.false_eq_true, if_false]
  constructor
  · rw [getHome_countIf, getHome_setHome_self, getHome_setHome_self, List.map_append]
    exact congrArg₂ (· ++ ·) ((map_tupleFace_promoteTuples ..).trans hold.tuples) rfl
  · rw [getHome_countIf, getHome_setHome_self, getHome_setHome_self]
    exact (map_waiterFace_promoteWaiters ..).trans hold.waiters

theorem homeHolds_deposits (ts : List Tuple) (hold : HomeHolds s h T W) (hno : ∀ t ∈ ts, ∀ w ∈ W, Unmatched w (tupleFace t)) :
    HomeHolds (ts.foldl (fun u t => (deposit u h t).1) s) h (T ++ ts.map tupleFace) W := by
  induction ts generalizing s T with
  | nil => rwa [List.map_nil, List.append_nil]
  | cons t r ih =>
    rw [List.map_cons, List.append_cons]
    exact ih (homeHolds_deposit hold (hno t List.mem_cons_self)) fun x hx => hno x (List.mem_cons_of_mem _ hx)

theorem homeHolds_moveWaiter (hold : HomeHolds s h T W) {w : KeyReq} (hform : waitForm w.ask ≠ none)
    (hno : ∀ t ∈ T, Unmatched (waiterFace w) t) :
    HomeHolds (moveWaiter h s w) h T (W ++ [{ waiterFace w with home := h }]) := by
  obtain ⟨⟨take, v, m⟩, hf⟩ := Option.ne_none_iff_exists'.1 hform
  have hbest : bestTuple (getHome s h) w.ctx v m = none := bestTuple_of_unmatched fun t ht hctx =>
    hno (tupleFace t) (hold.tuples ▸ List.mem_map_of_mem ht) take v m hf hctx.symm
  unfold moveWaiter
  simp only [hf, hbest]
  unfold appendWaiter
  constructor
  · rw [getHome_countIf, getHome_setHome_self]
    exact hold.tuples
  · rw [getHome_countIf, getHome_setHome_self, List.map_append]
    exact congrArg₂ (· ++ ·) hold.waiters rfl

/-- Every waiter of another place that is one stands at the home after it has moved. -/
theorem homeHolds_moveWaiters (ws : List KeyReq) (hold : HomeHolds s h T W) (hno : ∀ w ∈ ws, ∀ t ∈ T, Unmatched (waiterFace w) t) :
    HomeHolds (ws.foldl (moveWaiter h) s) h T
      (W ++ (ws.filter fun w => (waitForm w.ask).isSome).map fun w => { waiterFace w with home := h }) := by
  induction ws generalizing s W with
  | nil => rwa [List.filter_nil, List.map_nil, List.append_nil]
  | cons w r ih =>
    have hr : ∀ x ∈ r, ∀ t ∈ T, Unmatched (waiterFace x) t := fun x hx => hno x (List.mem_cons_of_mem _ hx)
    cases hform : waitForm w.ask with
    | none =>
      have hstays : moveWaiter h s w = s := by
        unfold moveWaiter
        simp only [hform]
      rw [List.foldl_cons, hstays, List.filter_cons_of_neg (by rw [hform]; decide)]
      exact ih hold hr
    | some f =>
      rw [List.foldl_cons, List.filter_cons_of_pos (by rw [hform]; rfl), List.map_cons, List.append_cons]
      exact ih (homeHolds_moveWaiter hold (by rw [hform]; exact Option.some_ne_none f) (hno w List.mem_cons_self)) hr

theorem homeHolds_takeUpper {ts : List Tuple} {ws : List KeyReq} (seq : BitVec 64) (hold : HomeHolds s h T W)
    (hts : ∀ t ∈ ts, ∀ w ∈ W, Unmatched w (tupleFace t)) (hws : ∀ w ∈ ws, ∀ t ∈ T ++ ts.map tupleFace, Unmatched (waiterFace w) t) :
    HomeHolds (takeUpper s h ts ws seq) h (T ++ ts.map tupleFace)
      (W ++ (ws.filter fun w => (waitForm w.ask).isSome).map fun w => { waiterFace w with home := h }) := by
  have hmoved := homeHolds_moveWaiters ws (homeHolds_deposits ts hold hts) hws
  have hfinal := getHome_setHome_self (ws.foldl (moveWaiter h) (ts.foldl (fun u t => (deposit u h t).1) s)) h
    { getHome (ws.foldl (moveWaiter h) (ts.foldl (fun u t => (deposit u h t).1) s)) h with
      seq := if (getHome (ws.foldl (moveWaiter h) (ts.foldl (fun u t => (deposit u h t).1) s)) h).seq.toNat < seq.toNat then seq
        else (getHome (ws.foldl (moveWaiter h) (ts.foldl (fun u t => (deposit u h t).1) s)) h).seq }
  exact ⟨(congrArg (fun v : Home => v.tuples.map tupleFace) hfinal).trans hmoved.tuples,
    (congrArg (fun v : Home => v.waiters.map waiterFace) hfinal).trans hmoved.waiters⟩

end

end Sys2Proof.Machine
end

section
/-! The cut-over of a split between two homes of this module, and the splits and maps assembled (R457-R470, R474). -/

namespace Sys2Proof.Machine

/-- An operation is awaited as before where the cores and the operations are the same. -/
theorem Awaits.of_cores {s t : State} {o : Op} (h : Awaits s o) (hcores : t.cores = s.cores) (hops : t.ops = s.ops) : Awaits t o := by
  obtain ⟨hop, hrun, hm, hreg⟩ := h
  have hctx : getCtx t o.core = getCtx s o.core := congrArg (fun T => (tabGet resetCore T o.core).ctx) hcores
  exact ⟨(congrArg (fun l => l.find? fun q => q.id == o.id) hops).trans hop, hctx ▸ hrun, hctx ▸ hm, hreg⟩

/-- Two states that differ in what goes out to other modules alone. -/
def OutboundOnly (s t : State) : Prop := t = { s with waidricOut := t.waidricOut }

theorem OutboundOnly.send {s t : State} (h : OutboundOnly s t) (m : Nat) (w : WaidricHead) (body : List Byte) :
    OutboundOnly s (sendWaidric t m w body) := by
  unfold OutboundOnly at *
  rw [h]
  rfl

theorem tellModules_eq (s : State) (gen : BitVec 32) (lo home : Nat) :
    tellModules s gen lo home = { s with waidricOut := (tellModules s gen lo home).waidricOut } :=
  foldl_induction (motive := OutboundOnly s) (fun _ _ ht => ht.send ..) rfl

/-- The generation that a split gives the map is newer than the one before (R458). -/
theorem genOlder_succ (g : BitVec 32) : genOlder (g + 1) g = false := by
  have hdiff : g - (g + 1) = -1#32 := by bv_omega
  unfold genOlder
  rw [hdiff]
  exact Bool.and_false _

section
variable {s : State} {p : Split}

/-- The state after the destination has taken the upper half from the source (R467). -/
def cutTaken (s : State) (p : Split) : State :=
  takeUpper (setHome s p.src (withoutUpper p (getHome s p.src))) p.dst (upperTuples s p) (upperWaiters s p) (getHome s p.src).seq

/-- The state in which the map has gained the entry of the upper half, and every module is told of it (R460, R467). -/
def cutTold (s : State) (p : Split) : State :=
  tellModules (changeMap { cutTaken s p with keyReqs := (cutTaken s p).keyReqs.map fun r =>
      if r.assayed ∧ r.home = p.src ∧ inUpper p r.hash = true then { r with home := p.dst } else r }
    (mapWith (cutTaken s p).homeMap (s.homeMap.gen + 1) p.mid p.dst)) (s.homeMap.gen + 1) p.mid p.dst

theorem cutOver_local (hloc : homeLocal s p.dst = true) :
    cutOver s p = endSplit (cutTold s p) p (splitStatus 0 (s.homeMap.gen + 1).toNat) := by
  unfold cutOver
  simp only [hloc, if_true]
  rfl

theorem keepsBeside_cutTaken : KeepsBeside p.dst (setHome s p.src (withoutUpper p (getHome s p.src))) (cutTaken s p) :=
  keepsBeside_takeUpper ..

theorem cutTold_cores : (cutTold s p).cores = s.cores := by
  rw [cutTold, tellModules_eq]
  exact (keepsBeside_cutTaken (s := s) (p := p)).cores

theorem cutTold_ops : (cutTold s p).ops = s.ops := by
  rw [cutTold, tellModules_eq]
  exact (keepsBeside_cutTaken (s := s) (p := p)).ops

theorem getHome_cutTold (j : Nat) : getHome (cutTold s p) j = getHome (cutTaken s p) j := by
  rw [cutTold, tellModules_eq]
  rfl

theorem cutTold_homeMap : (cutTold s p).homeMap = mapWith s.homeMap (s.homeMap.gen + 1) p.mid p.dst := by
  rw [cutTold, tellModules_eq]
  exact congrArg (fun m => mapWith m (s.homeMap.gen + 1) p.mid p.dst) (keepsBeside_cutTaken (s := s) (p := p)).homeMap

/-- The source keeps no tuple of the upper half (R467). -/
theorem upper_of_mem_withoutUpper {h : Home} {e : Tuple} (he : e ∈ (withoutUpper p h).tuples) : inUpper p (keyHash e.key) = false := by
  have hface : tupleFace e ∈ (h.tuples.filter fun t => !inUpper p (keyHash t.key)).map tupleFace :=
    map_tupleFace_promoteTuples _ (h.tuples.filter fun t => !inUpper p (keyHash t.key)) ▸ List.mem_map_of_mem he
  obtain ⟨f, hf, hfe⟩ := List.mem_map.1 hface
  have hkey : f.key = e.key := congrArg TupleFace.key hfe
  rw [← hkey]
  simpa using (List.mem_filter.1 hf).2

variable (hne : p.src ≠ p.dst)
include hne

theorem getHome_cutTold_src : getHome (cutTold s p) p.src = withoutUpper p (getHome s p.src) :=
  (getHome_cutTold p.src).trans ((keepsBeside_cutTaken.others p.src hne).trans (getHome_setHome_self ..))

/-- What the destination holds after a cut-over in which nothing of the two halves matches. -/
theorem homeHolds_cutTold
    (hno : ∀ w ∈ (getHome s p.dst).waiters ++ upperWaiters s p, ∀ e ∈ (getHome s p.dst).tuples ++ upperTuples s p,
      ∀ take v m, waitForm w.ask = some (take, v, m) → w.ctx = e.ctx → keyMatches v m e.key = false) :
    HomeHolds (cutTold s p) p.dst ((getHome s p.dst).tuples.map tupleFace ++ (upperTuples s p).map tupleFace)
      ((getHome s p.dst).waiters.map waiterFace ++
        ((upperWaiters s p).filter fun w => (waitForm w.ask).isSome).map fun w => { waiterFace w with home := p.dst }) := by
  have hdst : getHome (setHome s p.src (withoutUpper p (getHome s p.src))) p.dst = getHome s p.dst :=
    tabGet_tabSet_ne _ _ _ _ _ hne.symm
  have hold : HomeHolds (setHome s p.src (withoutUpper p (getHome s p.src))) p.dst ((getHome s p.dst).tuples.map tupleFace)
      ((getHome s p.dst).waiters.map waiterFace) := HomeHolds.of_homes (s := s) ⟨rfl, rfl⟩ hdst
  refine (homeHolds_takeUpper (getHome s p.src).seq hold (fun t ht w hw => ?_) fun w hw t ht => ?_).of_homes (getHome_cutTold p.dst)
  · obtain ⟨w', hw', rfl⟩ := List.mem_map.1 hw
    exact hno w' (List.mem_append_left _ hw') t (List.mem_append_right _ ht)
  · rw [← List.map_append] at ht
    obtain ⟨t', ht', rfl⟩ := List.mem_map.1 ht
    exact hno w (List.mem_append_right _ hw) t' ht'

end

theorem HomeHolds.tuple {s : State} {h : Nat} {T : List TupleFace} {W : List WaiterFace} (hold : HomeHolds s h T W) {e : Tuple}
    (he : tupleFace e ∈ T) :
    ∃ f ∈ (getHome s h).tuples, f.key = e.key ∧ f.payload = e.payload ∧ f.seq = e.seq ∧ f.ctx = e.ctx := by
  rw [← hold.tuples] at he
  obtain ⟨f, hf, hfe⟩ := List.mem_map.1 he
  exact ⟨f, hf, congrArg TupleFace.key hfe, congrArg TupleFace.payload hfe, congrArg TupleFace.seq hfe, congrArg TupleFace.ctx hfe⟩

theorem HomeHolds.waiter {s : State} {h : Nat} {T : List TupleFace} {W : List WaiterFace} (hold : HomeHolds s h T W) {x : WaiterFace}
    (hx : x ∈ W) : ∃ v ∈ (getHome s h).waiters, v.id = x.id ∧ v.ask = x.ask ∧ v.home = x.home := by
  rw [← hold.waiters] at hx
  obtain ⟨v, hv, rfl⟩ := List.mem_map.1 hx
  exact ⟨v, hv, rfl, rfl, rfl⟩

/-- SPLIT_CUTOVER in its last phase, between two homes of this module (R467). -/
theorem splitCutover_moves {s : State} {p : Split} {o : Op} (hp : s.split = some p) (haw : Awaits s o) (hop : p.op = o.id)
    (hphase : p.phase = 3) (hloc : homeLocal s p.dst = true) (hne : p.src ≠ p.dst) :
    ∃ t : State, execSplitCutover s = .next t ∧ t.split = none ∧ t.splitLock = none ∧
      Told t o (splitStatus 0 (s.homeMap.gen + 1).toNat) ∧ t.homeMap.gen = s.homeMap.gen + 1 ∧
      { lo := p.mid, home := p.dst } ∈ t.homeMap.ranges ∧ (∀ e ∈ s.homeMap.ranges, e.lo ≠ p.mid → e ∈ t.homeMap.ranges) ∧
      (∀ e ∈ (getHome t p.src).tuples, inUpper p (keyHash e.key) = false) ∧
      ((∀ w ∈ (getHome s p.dst).waiters ++ upperWaiters s p, ∀ e ∈ (getHome s p.dst).tuples ++ upperTuples s p,
          ∀ take v m, waitForm w.ask = some (take, v, m) → w.ctx = e.ctx → keyMatches v m e.key = false) →
        (∀ e ∈ upperTuples s p, ∃ f ∈ (getHome t p.dst).tuples,
          f.key = e.key ∧ f.payload = e.payload ∧ f.seq = e.seq ∧ f.ctx = e.ctx) ∧
        (∀ w ∈ upperWaiters s p, waitForm w.ask ≠ none →
          ∃ v ∈ (getHome t p.dst).waiters, v.id = w.id ∧ v.ask = w.ask ∧ v.home = p.dst)) := by
  have hexec : execSplitCutover s = .next (endSplit (cutTold s p) p (splitStatus 0 (s.homeMap.gen + 1).toNat)) := by
    unfold execSplitCutover
    simp only [hp, if_pos hphase, cutOver_local hloc]
    rfl
  obtain ⟨hsplit, hlock, hmap, hhomes, htold⟩ := endSplit_ends (v := splitStatus 0 (s.homeMap.gen + 1).toNat) hop
    (haw.of_cores (cutTold_cores (p := p)) (cutTold_ops (p := p)))
  have hmap' := hmap.trans cutTold_homeMap
  have hhome : ∀ j, getHome (endSplit (cutTold s p) p (splitStatus 0 (s.homeMap.gen + 1).toNat)) j = getHome (cutTold s p) j :=
    fun j => congrArg (fun T => tabGet emptyHome T j) hhomes
  refine ⟨_, hexec, hsplit, hlock, htold, ?_, ?_, ?_, ?_, fun hno => ?_⟩
  · rw [hmap']
    exact gen_mapWith _ _ (genOlder_succ _)
  · rw [hmap']
    exact mem_mapWith ..
  · intro e he hlo
    rw [hmap']
    exact mem_mapWith_of_mem _ _ he hlo
  · intro e he
    rw [hhome, getHome_cutTold_src hne] at he
    exact upper_of_mem_withoutUpper he
  · have hold := (homeHolds_cutTold hne hno).of_homes (hhome p.dst)
    refine ⟨fun e he => hold.tuple (List.mem_append_right _ (List.mem_map_of_mem he)), fun w hw hform => ?_⟩
    have hform' : (waitForm w.ask).isSome = true := Option.isSome_iff_ne_none.2 hform
    exact hold.waiter (x := { waiterFace w with home := p.dst })
      (List.mem_append_right _ (List.mem_map.2 ⟨w, List.mem_filter.2 ⟨hw, hform'⟩, rfl⟩))

theorem cutInProgress_of_cutting {s : State} (h : ∃ p, s.split = some p ∧ p.phase = 3) : cutInProgress s = true := by
  obtain ⟨p, hp, hphase⟩ := h
  unfold cutInProgress
  simp only [hp, hphase]
  rfl

/-- Settles O33. Whether another module holds the split lock, or has a cut-over in progress, is a free value (log 15); how a heap's base
names its stack is the model's choice (log 21). -/
theorem splitsAndMaps : Obligations.SplitsAndMaps := by
  refine ⟨?_, ?_⟩
  · intro s d a b r p o home base size x hash dst hi
    refine ⟨?_, ?_, fun hgranted => heapGranted_fits hgranted, execHeapResizeRequest_grants, execHeapResizeRequest_refuses⟩
    · intro hgo hstores hdual hcover hwide hloc hne hmod hpresent habsent
      have hsplit : Splittable s hash dst r := ⟨hcover, hwide, hloc, hne, hmod, hpresent, habsent⟩
      refine ⟨fun hnone hlock hroom hup => ?_, exec_ksplit_busy hgo hstores hdual hsplit⟩
      refine ⟨_, exec_ksplit_starts hgo hstores hdual hsplit hnone hlock hroom hup, ?_, rfl, rfl, rfl, rfl⟩
      refine (getCtx_setCtx_self ..).trans (congrArg (fun y => markReg y d (.op s.nextId)) ?_)
      exact getCtx_setCtx_self ..
    · intro hp haw hop
      have hfind : findOp s p.op = some o := hop ▸ haw.1
      refine ⟨fun hphase hrel => ⟨fun hfits => ?_, execSplitCopy_aborts hp hphase hfind hrel⟩, execSplitCutover_begins hp,
        splitCutover_moves hp haw hop, fun lost => ⟨fun hphase => ?_, execSplitAbort_late hp lost⟩⟩
      · have hkeeps := splitKeeps_copyUpper s p (uncopied s p)
        exact ⟨_, execSplitCopy_copies hp hphase hfind hrel hfits, congrArg (· ++ [Event.splitCutover]) hkeeps.agenda, hkeeps.homes,
          hkeeps.homeMap, rfl⟩
      · obtain ⟨hsplit, hlock, hmap, hhomes, htold⟩ := endSplit_ends hop haw (splitStatus (if lost then 3 else 2) 0)
        exact ⟨_, execSplitAbort_early hp lost hphase, hsplit, hlock, hmap, hhomes, htold⟩
  · intro s ni
    refine ⟨⟨_, rfl, ?_, fun j hj => ?_⟩, fun h hfind => forwardHint_arrives hfind, fun r hfind hheld =>
      ⟨fun hcut => ?_, cutInProgress_of_cutting, fun hcut => ?_⟩⟩
    · exact (mapCopy_mapBroadcastArrive s ni ni).trans (if_pos rfl)
    · exact (mapCopy_mapBroadcastArrive s ni j).trans (if_neg hj)
    · show execHeldForwardRelease r.id s = _
      unfold execHeldForwardRelease
      simp only [hfind, hheld, hcut]
      rfl
    · obtain ⟨hmoved, hevent⟩ := forwardReq_moves hfind (homeFor s.homeMap r.hash)
      refine ⟨_, forwarded r (homeFor s.homeMap r.hash), ?_, hmoved, rfl, rfl, rfl, rfl, hevent⟩
      show execHeldForwardRelease r.id s = _
      unfold execHeldForwardRelease
      simp only [hfind, hheld, hcut]
      rfl

end Sys2Proof.Machine
end

section
/-! The failure of a module whose requests stand at another module's connection (R437, R438, R472). -/

namespace Sys2Proof.Machine

/-- A KREAD of module 1 for a home of module 1, which stands among the requests outstanding at module 2. -/
def strayRequest : KeyReq :=
  { id := 4, issuer := .module 1 1 0, ctx := 0, ask := .read false 0 0 false (.remote false), hash := 0, home := 64, mapgen := 0, fwd := 0,
    forwarded := false, held := false, tag := none, twin := none, twinRemote := none, assayed := false, chain := false, rid := 1 }

/-- The machine with `strayRequest` on the connection to module 2. -/
def strayConnection : State :=
  { State.reset with waidric := [(2, { emptyWaidric with sent := 1, outstanding := [(1, strayRequest)] })] }

/-- The KCANCEL that recalls the request goes to its home's module, which is the one that has failed. -/
theorem exec_moduleFailed_strayConnection :
    ∃ t, exec (.moduleFailed 1) strayConnection = .next t ∧ (getWaidric t 1).outstanding.length = 1 := ⟨_, rfl, rfl⟩

/-- Refutes O34: after MODULE_FAILED nothing is said to be outstanding at the module that has failed. The requests that it had issued itself
are withdrawn last, from another module's home by a KCANCEL to the home that the request names (R437, R438); the request of
`strayConnection` stands on the connection to module 2, but names a home of module 1, and its KCANCEL is outstanding there. (Where the
header carries the moved mark and OVERFLOW is log 14.) -/
theorem not_assayAndModules : ¬ Obligations.AssayAndModules := by
  unfold Obligations.AssayAndModules
  rintro ⟨-, hmodules⟩
  obtain ⟨-, -, -, t, ht, -, hnone⟩ := hmodules strayConnection [] 1 0
  obtain ⟨u, hu, hone⟩ := exec_moduleFailed_strayConnection
  obtain rfl := Host.Outcome.next.inj (ht.symm.trans hu)
  exact absurd (hnone ▸ hone) (by decide)

end Sys2Proof.Machine
end

section
/-! Stack-engine commands at issue, their packets and their ends (R339-R352, R534, R557). -/

namespace Sys2Proof.Machine

/-! ### Issue (R343, R345, R557) -/

/-- The context past the unit of an MS operation, its commit latch set where the operation takes it (R564). -/
def msPast (s : State) (kind : MsKind) (area : Word) : Ctx :=
  if msCommits s.focus kind area then setCommit (passUnit (cur s)) else passUnit (cur s)

/-- The trap of a misaligned operand at issue (R343). -/
def misalignTrap (s : State) (a : Word) : State :=
  takeTrap (pastUnit s) s.focus { code := 5, param := 0, tile := false, epc := unitPc (cur s), faultpc := unitPc (cur s), faultaddr := a }

/-- What an MS instruction does at issue: a misaligned operand traps, a dual copy is refused, and three units of leave in the reservation
start the operation with its indices. -/
def StartsMs (s : State) (i : Instr) (d : BitVec 5) (kind : MsKind) (table area : Word) (bags : List (List Int)) : Prop :=
  (table.toNat % 4096 ≠ 0 → exec i s = .next (misalignTrap s table)) ∧
  (table.toNat % 4096 = 0 → area.toNat % 64 ≠ 0 → exec i s = .next (misalignTrap s area)) ∧
  (table.toNat % 4096 = 0 → area.toNat % 64 = 0 →
    ((cur s).sys.dual = true → exec i s = .next (withCur s (setStatus (msPast s kind area) d (msStatus 5 0 0)))) ∧
    ((cur s).sys.dual = false → heldInUse s s.focus + 3 ≤ (cur s).sys.held.toNat →
      ∃ (t : State) (m : MsOp), exec i s = .next t ∧ cur t = markReg (msPast s kind area) d (.op s.nextId) ∧
        t.agenda = s.agenda ++ [Event.msPacketExecute s.nextId] ∧
        t.ops = s.ops ++ [{ id := s.nextId, core := s.focus, serial := serialOf (cur s), gen := (cur s).sys.tid.toNat % 2 ^ 16, reg := d,
                            upc := unitPc (cur s), held := 3, drawn := 0, body := .ms m }] ∧
        m.kind = kind ∧ m.table = table ∧ m.area = area ∧ m.bags = bags ∧ m.checked = false ∧ m.code = 0 ∧ m.performed = []))

section
variable {s : State} {d a b : BitVec 5} {kind : MsKind} {table area : Word} {bags : List (List Int)}

theorem startMs_table (h : table.toNat % 4096 ≠ 0) :
    startMs (pastUnit s) (issuedOf (cur s) s.focus) d kind table area bags = some (misalignTrap s table) := by
  unfold startMs
  exact if_pos h

theorem startMs_area (ht : table.toNat % 4096 = 0) (h : area.toNat % 64 ≠ 0) :
    startMs (pastUnit s) (issuedOf (cur s) s.focus) d kind table area bags = some (misalignTrap s area) := by
  unfold startMs
  exact (if_neg (not_not.2 ht)).trans (if_pos h)

theorem commit_pastUnit :
    (if msCommits s.focus kind area then modCtx (pastUnit s) s.focus setCommit else pastUnit s) = withCur s (msPast s kind area) := by
  unfold msPast
  split
  · exact modCtx_setCtx ..
  · rfl

section
variable (ht : table.toNat % 4096 = 0) (ha : area.toNat % 64 = 0)
include ht ha

theorem startMs_dual (hdual : (cur s).sys.dual = true) :
    startMs (pastUnit s) (issuedOf (cur s) s.focus) d kind table area bags =
      some (withCur s (setStatus (msPast s kind area) d (msStatus 5 0 0))) := by
  have hdual' : (passUnit (cur s)).sys.dual = true := hdual
  unfold startMs
  refine ((if_neg (not_not.2 ht)).trans (if_neg (not_not.2 ha))).trans ?_
  simp only [issuedOf_core, getCtx_setCtx_self, hdual', if_true]
  exact congrArg some ((congrArg (fun v => modCtx v s.focus fun y => setStatus y d (msStatus 5 0 0)) commit_pastUnit).trans
    (modCtx_setCtx ..))

theorem startMs_starts (hdual : (cur s).sys.dual = false) (hheld : heldInUse s s.focus + 3 ≤ (cur s).sys.held.toNat) :
    startMs (pastUnit s) (issuedOf (cur s) s.focus) d kind table area bags =
      some (opStarted s (msPast s kind area) d 3
        (.ms (newMs (pastUnit s) s.focus kind table area bags (modeRel (issuedOf (cur s) s.focus).xmod))) [.msPacketExecute s.nextId]) := by
  have hdual' : (passUnit (cur s)).sys.dual = false := hdual
  have hdraw : drawLeave (pastUnit s) s.focus msLeave (.issue s.focus) = (true, 3, 0, pastUnit s) :=
    drawLeave_reserved (by rw [heldInUse_pastUnit, getCtx_setCtx_self]; exact hheld) _
  have hser : serialOf (msPast s kind area) = serialOf (cur s) := by
    unfold msPast
    split
    · exact serialOf_setCommit (passUnit (cur s))
    · rfl
  have hgen : genOf (msPast s kind area) = genOf (cur s) := by
    unfold msPast
    split <;> rfl
  unfold startMs
  refine ((if_neg (not_not.2 ht)).trans (if_neg (not_not.2 ha))).trans ?_
  simp only [issuedOf_core, issuedOf_upc, getCtx_setCtx_self, hdual', hdraw, Bool.false_eq_true, if_false]
  exact congrArg some ((congrArg (fun v => push (startHeld v s.focus d (unitPc (cur s)) 3 0
    (.ms (newMs (pastUnit s) s.focus kind table area bags (modeRel (issuedOf (cur s) s.focus).xmod)))) (.msPacketExecute s.nextId))
    commit_pastUnit).trans (startHeld_withCur hser hgen))

end

theorem startsMs_of_startMs {i : Instr}
    (hexec : ∀ t, startMs (pastUnit s) (issuedOf (cur s) s.focus) d kind table area bags = some t → exec i s = .next t) :
    StartsMs s i d kind table area bags := by
  refine ⟨fun h => hexec _ (startMs_table h), fun ht h => hexec _ (startMs_area ht h), fun ht ha => ⟨fun hdual =>
    hexec _ (startMs_dual ht ha hdual), fun hdual hheld => ?_⟩⟩
  refine ⟨_, newMs (pastUnit s) s.focus kind table area bags (modeRel (issuedOf (cur s) s.focus).xmod),
    hexec _ (startMs_starts ht ha hdual hheld), cur_opStarted, rfl, ?_, rfl, rfl, rfl, rfl, rfl, rfl, rfl⟩
  have hgen : genOf (cur s) = (cur s).sys.tid.toNat % 2 ^ 16 := BitVec.toNat_setWidth ..
  rw [← hgen]
  rfl

variable (hgo : Goes (cur s) (needs [a, b] [d] (ord := true))) (hbusy : msBusy s s.focus = false) (hseq : (cur s).seq = [])
include hbusy

theorem msBusy_pastUnit : msBusy (pastUnit s) s.focus = false := by
  unfold msBusy at hbusy ⊢
  rw [getCtx_setCtx_self, holdsStores_passUnit]
  exact hbusy

include hgo hseq

theorem startsMs_mstopk (k : BitVec 3) :
    StartsMs s (.mstopk d a b k) d (.topk (k.toNat + 1)) (regVal (cur s) a) (regVal (cur s) b) [] := by
  have hseq' : (passUnit (cur s)).seq = [] := hseq
  refine startsMs_of_startMs fun t ht => ?_
  show execMstopk d a b k s = _
  unfold execMstopk
  refine issue_some hgo ?_
  simp only [issuedOf_core, getCtx_setCtx_self, msBusy_pastUnit hbusy, hseq', regVal_passUnit, ht]
  rfl

theorem bagBody_starts {tn : BitVec 4} {w : Tile} (hw : getTile (cur s) tn = some w) (hfmt : w.fmt = .i32)
    (hready : tileReady (pastUnit s) s.focus w false = true) {i : Instr} {kind : MsKind}
    (hexec : exec i s = issue s (engineSpec [a, b] d) (bagBody kind d a b tn)) :
    StartsMs s i d kind (regVal (cur s) a) (regVal (cur s) b) (readBags (getCore s s.focus).spad w) := by
  have hseq' : (passUnit (cur s)).seq = [] := hseq
  have hw' : getTile (passUnit (cur s)) tn = some w := hw
  have hspad : (getCore (pastUnit s) s.focus).spad = (getCore s s.focus).spad :=
    getCore_setCtx_field s s.focus s.focus _ (g := (·.spad)) fun _ _ => rfl
  refine startsMs_of_startMs fun t ht => hexec.trans (issue_some hgo ?_)
  unfold bagBody
  simp only [issuedOf_core, getCtx_setCtx_self, msBusy_pastUnit hbusy, hseq', hw', hfmt, hready, regVal_passUnit, hspad, ht]
  rfl

end

/-! ### The check and the packets (R344, R346, R347, R352) -/

/-- An MS operation in flight that no kill has stopped and no fault queue holds. -/
structure MsRuns (s : State) (o : Op) (m : MsOp) : Prop where
  found : findOp s o.id = some o
  body : o.body = .ms m
  runs : m.stopped = false
  unparked : ∀ e ∈ s.fq, ∀ n, e.what ≠ .row o.id n

/-- An event after which an operation stands with another body, and one event more is on the agenda. -/
def BecomesMs (s : State) (o : Op) (i : Instr) (q : MsOp) (e : Event) : Prop :=
  ∃ t : State, exec i s = .next t ∧ findOp t o.id = some { o with body := .ms q } ∧ t.agenda = s.agenda ++ [e]

section
variable {s t : State} {o : Op} {m q : MsOp}

theorem MsRuns.rowParked (h : MsRuns s o m) (n : Nat) : rowParked s o.id n = false :=
  List.any_eq_false.2 fun e he => by simpa only [beq_iff_eq] using h.unparked e he n

/-- What replaces the body of an operation, in a state that has the same operations and agenda. -/
theorem becomesMs_of_putMs (h : MsRuns s o m) {i : Instr} {e : Event} (hops : t.ops = s.ops) (hagenda : t.agenda = s.agenda)
    (hexec : exec i s = .next (push (putMs t o q) e)) : BecomesMs s o i q e := by
  refine ⟨_, hexec, ?_, congrArg (· ++ [e]) hagenda⟩
  have hfound : findOp t o.id = some o := (findOp_congr hops o.id).trans h.found
  exact findOp_putOp_self (o := { o with body := .ms q }) hfound

section
variable (h : MsRuns s o m) (hcode : m.code = 0)
include h hcode

section
variable (hnew : m.checked = false) (hrel : opReleased s o m.rel 3 = true) (hfollows : msFollows s o = false)
include hnew hrel hfollows

theorem becomesMs_of_checkFails {n : Nat} (hcheck : checkMs s o m = .code n) :
    BecomesMs s o (.msPacketExecute o.id) { m with code := n } (.msComplete o.id) := by
  refine becomesMs_of_putMs h (t := s) rfl rfl ?_
  show execMsPacketExecute o.id s = _
  unfold execMsPacketExecute
  simp only [h.found, h.body, h.runs, hcode, hnew, h.rowParked 0, hrel, hfollows, hcheck]
  rfl

theorem becomesMs_of_checked (hcheck : checkMs s o m = .ok q) : BecomesMs s o (.msPacketExecute o.id) q (.msPacketExecute o.id) := by
  have htouch := memoryOnly_agentTouch s (msAgent s o m) m.table 64
  refine becomesMs_of_putMs h (t := agentTouch s (msAgent s o m) m.table 64) (htouch.field State.ops) (htouch.field State.agenda) ?_
  show execMsPacketExecute o.id s = _
  unfold execMsPacketExecute
  simp only [h.found, h.body, h.runs, hcode, hnew, h.rowParked 0, hrel, hfollows, hcheck]
  rfl

end

variable (hdone : m.checked = true)
include hdone

theorem exec_msPacketExecute_over (hnone : currentPacket m = none) :
    exec (.msPacketExecute o.id) s = .next (push s (.msComplete o.id)) := by
  show execMsPacketExecute o.id s = _
  unfold execMsPacketExecute
  simp only [h.found, h.body, h.runs, hcode, hdone, hnone]
  rfl

theorem execMsPacketExecute_runs {k : Nat} (hcur : currentPacket m = some k) :
    execMsPacketExecute o.id s = .next (runPacket s o { m with started := max m.started (k + 1) } k (openPositions m k)) := by
  have hgo : ¬ (m.code ≠ 0 ∨ m.stopped = true ∧ (m.checked = false ∨ m.started = 0)) := by simp [hcode, h.runs]
  unfold execMsPacketExecute
  simp only [h.found, h.body]
  refine (if_neg hgo).trans ((if_neg (by simp [hdone])).trans ((if_neg (by simp [hdone])).trans ?_))
  simp only [hcur]
  exact (if_neg (by simp [h.rowParked])).trans (if_neg (by simp [h.runs]))

omit h hcode hdone in
theorem msStep_ired {p : Nat} (hkind : m.kind = .ired) : msStep s o m p = iredStep s o m p := by
  unfold msStep stepBusy
  simp only [hkind]
  rfl

/-- A position of MSIRED reads its row, which nothing holds back (R347). -/
theorem becomesMs_of_iredRow {n p : Nat} {bs : List Byte} (hcur : currentPacket m = some n) (hopen : openPositions m n = [p])
    (hkind : m.kind = .ired) (hread : readRowPieces s (msAgent s o m) (rowPieces m ((msList m).getD p 0).toNat) = .ok bs) (hne : bs ≠ []) :
    BecomesMs s o (.msPacketExecute o.id)
      { m with started := max m.started (n + 1), performed := m.performed ++ [p], got := m.got ++ [(p, bs)] } (.msPacketExecute o.id) := by
  have htouch : MemoryOnly s (touchRow s (msAgent s o m) (rowPieces m ((msList m).getD p 0).toNat)) :=
    memoryOnly_foldl (fun t (q : Word × Nat) => memoryOnly_agentTouch t (msAgent s o m) q.1 q.2) _ s
  have hstep : msStep s o { m with started := max m.started (n + 1) } p =
      .done (touchRow s (msAgent s o m) (rowPieces m ((msList m).getD p 0).toNat)) bs := by
    refine (msStep_ired hkind).trans ?_
    unfold iredStep
    simp only [hread]
  have hsome : bs.isEmpty = false := List.isEmpty_eq_false_iff.2 hne
  refine becomesMs_of_putMs h (t := touchRow s (msAgent s o m) (rowPieces m ((msList m).getD p 0).toNat))
    (htouch.field State.ops) (htouch.field State.agenda) ((execMsPacketExecute_runs h hcode hdone hcur).trans ?_)
  rw [hopen]
  simp only [runPacket, hstep, hsome]
  rfl

end

/-! ### The end (R342, R347) -/

theorem cores_agentWritePieces (s : State) (g : Agent) (ps : List (Nat × Nat)) (bs : List Byte) :
    (agentWritePieces s g ps bs).cores = s.cores := by
  induction ps generalizing s bs with
  | nil => rfl
  | cons p ps ih =>
    unfold agentWritePieces
    refine (ih ..).trans ?_
    split
    · exact physWrite_cores ..
    · rfl
    · rfl

/-- What an agent writes leaves every context. -/
theorem getCtx_agentPut (s : State) (g : Agent) (a : Word) (bs : List Byte) (c : Nat) : getCtx (agentPut s g a bs) c = getCtx s c := by
  unfold agentPut
  split
  · exact getCore_modCore_field s _ c (g := (·.ctx)) fun _ => rfl
  · exact getCore_modCore_field s _ c (g := (·.ctx)) fun _ => rfl
  · exact congrArg (fun T => (tabGet resetCore T c).ctx) (cores_agentWritePieces ..)
  · rfl

theorem ops_returnUnits (s : State) (part die n : Nat) : (returnUnits s part die n).ops = s.ops := by
  unfold returnUnits
  split <;> rfl

theorem lines_returnUnits (s : State) (part die n : Nat) : (returnUnits s part die n).lines = s.lines := by
  unfold returnUnits
  split <;> rfl

/-- An operation is awaited as before where the operations and what the context holds of registers and activation are the same. -/
theorem Awaits.of_ctx (h : Awaits s o) (hops : t.ops = s.ops) (hctx : RunSysOnly (getCtx s o.core) (getCtx t o.core)) : Awaits t o := by
  obtain ⟨hop, hrun, hm, hreg⟩ := h
  refine ⟨(findOp_congr hops o.id).trans hop, ?_, ?_, hreg⟩
  · exact (hctx.same (fun x => runsSerial x o.serial) fun _ _ _ => rfl).trans hrun
  · exact (congrArg Reg.mark (hctx.same (fun x => getReg x o.reg) fun _ _ _ => rfl)).trans hm

section
variable (h : MsRuns s o m) (hover : packetsOver m = true)
include h hover

/-- Nothing of the operation stands in a fault queue, and its packets are over. -/
theorem MsRuns.ends {f : FaultEntry → Bool} (hf : ∀ e, f e = true → ∃ r, e.what = .row o.id r) :
    ¬ (!packetsOver m || s.fq.any f) = true := by
  rw [hover, Bool.not_true, Bool.false_or, List.any_eq_true]
  rintro ⟨e, he, hfe⟩
  obtain ⟨r, hr⟩ := hf e hfe
  exact h.unparked e he r hr

/-- A result row is written as the sum of its bag (R347). -/
theorem exec_msComplete_row {i : Nat} {bs : List Byte} (hdue : resultDue m = some i) (hbusy : areaBusy s o m i (4 * m.cols) true = false)
    (hcheck : agentCheck s (msAgent s o m) (areaRow m i) (4 * m.cols) = .ok bs)
    (hclear : resultsMeetTable s (msAgent s o m) m = false) :
    exec (.msComplete o.id) s = .next
      (push (putMs (agentPut s (msAgent s o m) (areaRow m i) (bagRow m i)) o { m with results := i + 1 }) (.msComplete o.id)) := by
  show execMsComplete o.id s = _
  unfold execMsComplete
  simp only [h.found, h.body]
  refine (if_neg (h.ends hover fun e he => ?_)).trans ?_
  · cases hwhat : e.what <;> simp_all
  · simp only [hdue, hbusy, hcheck, hclear]
    rfl

/-- The completion word is written, and then the status (R342). -/
theorem exec_msComplete_end {bs : List Byte} (hdue : resultDue m = none) (hrange : rangeOk o.core m.area 64 = true)
    (hbusy : ∀ r ∈ localRange o.core m.area 8, engineBusy s o.core r.1 r.2 true o.id = false)
    (hcheck : agentCheck s (msAgent s o m) m.area 8 = .ok bs) :
    exec (.msComplete o.id) s = .next (endMs (agentPut s (msAgent s o m) m.area (leBytes 8 (msWord m).toNat)) o m) := by
  have hbusy' : (localRange o.core m.area 8).any (fun r => engineBusy s o.core r.1 r.2 true o.id) = false :=
    List.any_eq_false.2 fun r hr => by rw [hbusy r hr]; decide
  show execMsComplete o.id s = _
  unfold execMsComplete
  simp only [h.found, h.body]
  refine (if_neg (h.ends hover fun e he => ?_)).trans ?_
  · cases hwhat : e.what <;> simp_all
  · simp only [hdue, hbusy', hrange, hcheck]
    rfl

end

theorem endMs_ends (haw : Awaits s o) (a : Word) (bs : List Byte) :
    Told (endMs (agentPut s (msAgent s o m) a bs) o m) o (msWord m) ∧
      (endMs (agentPut s (msAgent s o m) a bs) o m).lines = (agentPut s (msAgent s o m) a bs).lines := by
  have hput : Awaits (agentPut s (msAgent s o m) a bs) o :=
    haw.of_ctx ((memoryOnly_agentPut ..).field State.ops) (by rw [getCtx_agentPut]; rfl)
  unfold endMs returnOpLeave
  refine ⟨told_endOp (hput.of_ctx (ops_returnUnits ..) (runSysOnly_returnUnits _ _ _ _ o.core)) _, ?_⟩
  rw [endOp_eq]
  exact lines_returnUnits ..

end

/-- Settles O37. -/
theorem stackEngines : Obligations.StackEngines := by
  intro s d a b tn k x c u table area y starts
  refine ⟨fun hgo hbusy hseq => ⟨startsMs_mstopk hgo hbusy hseq k, fun w hw hfmt hready =>
    ⟨bagBody_starts hgo hbusy hseq hw hfmt hready rfl, bagBody_starts hgo hbusy hseq hw hfmt hready rfl⟩⟩, ?_⟩
  intro o m hfound hbody hruns hfq g becomes
  have h : MsRuns s o m := ⟨hfound, hbody, hruns, hfq⟩
  refine ⟨fun hcode hnew hrel hfollows => ⟨fun n => becomesMs_of_checkFails h hcode hnew hrel hfollows,
    fun q => becomesMs_of_checked h hcode hnew hrel hfollows⟩, exec_msPacketExecute_over h,
    fun n p bs hcode hdone hcur hopen hkind hread hne => becomesMs_of_iredRow h hcode hdone hcur hopen hkind hread hne, fun hover =>
    ⟨fun i bs hdue hbusy hcheck hclear => ?_, fun bs hdue hrange hbusy hcheck haw => ?_⟩⟩
  · have hput := memoryOnly_agentPut s (msAgent s o m) (areaRow m i) (bagRow m i)
    obtain ⟨t, ht, hop, hagenda⟩ := becomesMs_of_putMs h (t := agentPut s (msAgent s o m) (areaRow m i) (bagRow m i))
      (hput.field State.ops) (hput.field State.agenda)
      (exec_msComplete_row h hover hdue hbusy hcheck hclear)
    obtain rfl := Host.Outcome.next.inj ((exec_msComplete_row h hover hdue hbusy hcheck hclear).symm.trans ht)
    exact ⟨_, ht, hop, hagenda, rfl⟩
  · obtain ⟨htold, hlines⟩ := endMs_ends (m := m) haw m.area (leBytes 8 (msWord m).toNat)
    exact ⟨_, exec_msComplete_end h hover hdue hrange hbusy hcheck, htold, hlines⟩

end Sys2Proof.Machine
end

section
/-! COLBAR while an MLOADB stands in the sequencer (R63, R296, R417, R424). -/

namespace Sys2Proof.Machine

/-- Core 0 in partition 0 and the one member of communicator 0. An MLOADB whose image header has still to be read stands in its sequencer;
its unit is newer than the next name, so that no release waits for it. -/
def barrierBehindImage : State :=
  { setCore State.reset 0 { resetCore with
      state := .running,
      ctx := { resetCtx with
        seq := [{ unit := { id := 5, upc := 0, instr := .mloadb 0 0 0 0 0 0, xmod := none, gval := 0, gen := none }, body := [] }] } } with
    parts := [(0, { noPartition with state := .live, clusters := [0] })],
    groups := [(0, { emptyGroup with valid := true, members := [0] })],
    comms := [(0, { emptyComm with valid := true, nmod := 1 })] }

theorem goes_barrierBehindImage : Goes (cur barrierBehindImage) (needs [1] [2]) :=
  ⟨rfl, rfl, .inr rfl, fun h => absurd h (by decide),
    fun r hr => by rw [List.mem_singleton.1 hr]; exact ⟨rfl, rfl⟩, fun r hr => by rw [List.mem_singleton.1 hr]; rfl⟩

/-- The buffers of a COLBAR have address 0 and no byte; the interlock with the image that is not known holds it back all the same. -/
theorem exec_colbar_barrierBehindImage : exec (.colbar 2 1) barrierBehindImage = .next barrierBehindImage := rfl

/-- Refutes O38: a COLBAR of a member is said to join once its release has been done. COLBAR has no buffers (R417), but the
model asks of the bytes 0 of length 0 whether an earlier tile unit still uses them, and an MLOADB whose header has still to be read may
touch any bytes, these among them (R63): the COLBAR of `barrierBehindImage` waits. (The clauses on a refused collective give INST 0, log 39;
the chunks that a participant has sent are a free value, logs 4 and 68.) -/
theorem not_collectiveOperations : ¬ Obligations.CollectiveOperations := by
  unfold Obligations.CollectiveOperations
  rintro ⟨hissue, -⟩
  obtain ⟨-, hbar⟩ := hissue barrierBehindImage 2 1 0 0
  obtain ⟨-, hjoin⟩ := hbar goes_barrierBehindImage rfl rfl rfl
  obtain ⟨-, hmember⟩ := hjoin (by decide) rfl (by decide) rfl rfl
  obtain ⟨t, -, hexec, -, -, hagenda, -⟩ := hmember 0 rfl rfl rfl
  obtain rfl := Host.Outcome.next.inj (exec_colbar_barrierBehindImage.symm.trans hexec)
  exact absurd (congrArg List.length hagenda) (by decide)

end Sys2Proof.Machine
end

section
/-! What the completion of a packet leaves of its queue, and what the memory operations of an agent leave of the queues (R389, R390).

`finishPacket_closes` says once what a packet that completes does to its queue; that it is recorded (`finishPacket_records`) or has retired
(`finishPacket_ends`) follows, and what the packets passed over by a WAITCOND leave (`stopWait_of_started`). -/

namespace Sys2Proof.Machine

/-! ### Packets of a queue -/

/-- A packet that stands completed, its record still to be written, with a status and a detail (R389). -/
def Recorded (t : State) (q n status detail : Nat) : Prop :=
  ∃ e : Packet, findPacket t q n = some e ∧ e.completed = true ∧ e.written = false ∧ e.status = status ∧ e.detail = detail

/-- A packet that has completed: recorded where it asks for a record, retired otherwise (R389, R390). -/
def Ended (t : State) (q n : Nat) (p : Packet) (status detail : Nat) : Prop :=
  (pktCmpl p = true → Recorded t q n status detail) ∧ (pktCmpl p = false → findPacket t q n = none)

/-- A packet as it completes; `w` says that it owes no record. -/
def closedPacket (s : State) (status detail : Nat) (w : Bool) (p : Packet) : Packet :=
  { p with started := true, completed := true, status := status, detail := detail, written := w, moment := s.nextId }

/-- The packets of a queue with those of a number changed. -/
def packetsWith (h : HostQueue) (n : Nat) (f : Packet → Packet) : List Packet := h.packets.map (fun p => if p.n = n then f p else p)

/-- The packets of a queue once one has completed: those that owe no record are gone (R390). -/
def packetsAfter (h : HostQueue) (n : Nat) (f : Packet → Packet) (record : Bool) : List Packet :=
  if record then packetsWith h n f else (packetsWith h n f).filter (fun p => !(p.completed && p.written))

section

variable {s t : State} {q n status detail : Nat} {p : Packet} {force : Bool} {f : Packet → Packet}

theorem findPacket_eq {h : HostQueue} (hq : getHq s q = h) : findPacket s q n = h.packets.find? (fun p => p.n == n) :=
  hq ▸ rfl

theorem Recorded.congr (hq : (getHq t q).packets = (getHq s q).packets) (h : Recorded s q n status detail) :
    Recorded t q n status detail := by
  obtain ⟨e, he⟩ := h
  exact ⟨e, by rwa [findPacket_congr n hq]⟩

theorem Ended.congr (hq : (getHq t q).packets = (getHq s q).packets) (h : Ended s q n p status detail) : Ended t q n p status detail :=
  ⟨fun hr => (h.1 hr).congr hq, fun hr => (findPacket_congr n hq).trans (h.2 hr)⟩

theorem getHq_modPacket (s : State) (q n : Nat) (f : Packet → Packet) :
    getHq (modPacket s q n f) q = { getHq s q with packets := packetsWith (getHq s q) n f } := getHq_setHq_self ..

theorem mem_packetsWith {h : HostQueue} {e : Packet} (he : e ∈ packetsWith h n f) : ∃ d ∈ h.packets, e = if d.n = n then f d else d := by
  obtain ⟨d, hd, rfl⟩ := List.mem_map.1 he
  exact ⟨d, hd, rfl⟩

theorem mem_packetsAfter {h : HostQueue} {record : Bool} {e : Packet} (he : e ∈ packetsAfter h n f record) :
    ∃ d ∈ h.packets, e = if d.n = n then f d else d := by
  unfold packetsAfter at he
  split at he
  · exact mem_packetsWith he
  · exact mem_packetsWith (List.mem_of_mem_filter he)

/-- A packet of a number that owes no record and has completed retires. -/
theorem find_packetsAfter_none {h : HostQueue} (hn : ∀ d ∈ h.packets, d.n = n → (f d).completed = true ∧ (f d).written = true) :
    (packetsAfter h n f false).find? (fun p => p.n == n) = none := by
  refine List.find?_eq_none.2 fun e he hen => ?_
  have hkept := (List.mem_filter.1 he).2
  obtain ⟨d, hd, rfl⟩ := mem_packetsAfter he
  split at hkept
  · next hdn =>
    obtain ⟨hc, hw⟩ := hn d hd hdn
    simp [hc, hw] at hkept
  · next hdn =>
    rw [if_neg hdn] at hen
    exact hdn (by simpa using hen)

/-- What the completion of a packet does to its queue (R389, R390). -/
theorem finishPacket_closes (hp : findPacket s q n = some p) (hc : p.completed = false) :
    getHq (finishPacket s q n status detail force) q =
      { getHq s q with
        packets := packetsAfter (getHq s q) n (closedPacket s status detail (!(pktCmpl p || force))) (pktCmpl p || force),
        failed := if status = 0 then (getHq s q).failed else (getHq s q).failed ++ [n] } := by
  unfold finishPacket packetsAfter
  simp only [hp, hc]
  have hm := getHq_modPacket s q n (closedPacket s status detail (!(pktCmpl p || force)))
  have hset : getHq (if status = 0 then modPacket s q n (closedPacket s status detail (!(pktCmpl p || force)))
      else setHq (modPacket s q n (closedPacket s status detail (!(pktCmpl p || force)))) q
        { getHq (modPacket s q n (closedPacket s status detail (!(pktCmpl p || force)))) q with
          failed := (getHq (modPacket s q n (closedPacket s status detail (!(pktCmpl p || force)))) q).failed ++ [n] }) q =
      { getHq s q with
        packets := packetsWith (getHq s q) n (closedPacket s status detail (!(pktCmpl p || force))),
        failed := if status = 0 then (getHq s q).failed else (getHq s q).failed ++ [n] } := by
    split
    · rw [hm]
    · rw [getHq_setHq_self, hm]
  cases hr : (pktCmpl p || force) <;> rw [hr] at hset <;> simp only [Bool.false_eq_true, if_false, if_true]
  · refine (getHq_setHq_self ..).trans ?_
    exact congrArg (fun h : HostQueue => { h with packets := h.packets.filter (fun p => !(p.completed && p.written)) }) hset
  · exact hset

theorem finishPacket_records (hp : findPacket s q n = some p) (hc : p.completed = false) (hr : (pktCmpl p || force) = true) :
    Recorded (finishPacket s q n status detail force) q n status detail := by
  refine ⟨closedPacket s status detail false p, ?_, rfl, rfl, rfl, rfl⟩
  have hm := findPacket_modPacket s q n (f := closedPacket s status detail false) fun _ => rfl
  rw [hp] at hm
  refine (findPacket_congr n ?_).trans hm
  rw [finishPacket_closes hp hc, hr, getHq_modPacket]
  rfl

theorem finishPacket_ends (hp : findPacket s q n = some p) (hc : p.completed = false) :
    Ended (finishPacket s q n status detail false) q n p status detail := by
  refine ⟨fun hr => finishPacket_records hp hc (by simp [hr]), fun hr => ?_⟩
  rw [findPacket_eq (finishPacket_closes hp hc)]
  simp only [hr]
  exact find_packetsAfter_none fun _ _ _ => ⟨rfl, rfl⟩

theorem badPacket_records (hp : findPacket s q n = some p) (hc : p.completed = false) : Recorded (badPacket s q n) q n 3 0 :=
  finishPacket_records hp hc (Bool.or_true _)

theorem badPacket_launches (s : State) (q n : Nat) : (badPacket s q n).launches = s.launches := finishPacket_launches ..

theorem finishPacket_agentState (s : State) (q n status detail : Nat) (force : Bool) :
    (finishPacket s q n status detail force).lines = s.lines ∧ (finishPacket s q n status detail force).remote = s.remote := by
  unfold finishPacket
  split
  · exact ⟨rfl, rfl⟩
  · split
    · exact ⟨rfl, rfl⟩
    · dsimp only
      split <;> split <;> exact ⟨rfl, rfl⟩

theorem findPacket_startPacket (hp : findPacket s q n = some p) : findPacket (startPacket s q n) q n = some { p with started := true } := by
  unfold startPacket
  rw [findPacket_modPacket s q n (f := fun p => { p with started := true }) fun _ => rfl, hp]
  rfl

/-! ### A WAITCOND that stops testing (R387) -/

theorem passPackets_zero (s : State) (q epoch : Nat) : passPackets s q epoch 0 = (s, 0) := rfl

/-- Where every fetched packet has started, those to be passed over are all still to be fetched. -/
theorem passPackets_of_started (h : ∀ e ∈ (getHq s q).packets, e.started = true) (epoch fuel : Nat) :
    passPackets s q epoch fuel = (s, fuel) := by
  cases fuel with
  | zero => rfl
  | succ f =>
    unfold passPackets
    rw [List.find?_eq_none.2 fun e he => by simp [h e he]]

/-- The state of a WAITCOND that has completed, before it passes any packet over. -/
def waitClosed (s : State) (q n status detail : Nat) (force : Bool) : State := finishPacket (startPacket s q n) q n status detail force

theorem waitClosed_queue (hp : findPacket s q n = some p) (hc : p.completed = false) :
    ∃ ps fs, getHq (waitClosed s q n status detail force) q = { getHq s q with packets := ps, failed := fs } ∧
      ∀ e ∈ ps, e.n ≠ n ∧ e ∈ (getHq s q).packets ∨ e.started = true := by
  have hstart : getHq (startPacket s q n) q = { getHq s q with packets := packetsWith (getHq s q) n fun p => { p with started := true } } :=
    getHq_modPacket ..
  have hclose := finishPacket_closes (status := status) (detail := detail) (force := force) (findPacket_startPacket hp) hc
  refine ⟨_, _, hclose.trans (by rw [hstart]), fun e he => ?_⟩
  obtain ⟨d, hd, rfl⟩ := mem_packetsAfter he
  obtain ⟨d', hd', rfl⟩ := mem_packetsWith hd
  by_cases hn : d'.n = n
  · rw [if_pos hn]
    exact .inr (by split <;> rfl)
  · rw [if_neg hn, if_neg hn]
    exact .inl ⟨hn, hd'⟩

theorem waitClosed_ends (hp : findPacket s q n = some p) (hc : p.completed = false) :
    Ended (waitClosed s q n status detail false) q n p status detail :=
  finishPacket_ends (p := { p with started := true }) (findPacket_startPacket hp) hc

/-- A WAITCOND that stops testing and finds no packet to pass over leaves as many to be passed over later (R387). -/
theorem stopWait_of_passed {pass : Nat} (hp : findPacket s q n = some p) (hc : p.completed = false)
    (hpass : passPackets (waitClosed s q n status detail false) q (pktEpoch n) pass = (waitClosed s q n status detail false, pass)) :
    Ended (stopWait s q n status detail pass false) q n p status detail ∧
      (pass = 0 ∨ pktEpoch n = (getHq s q).epoch →
        (getHq (stopWait s q n status detail pass false) q).passOver = (getHq s q).passOver + pass) := by
  obtain ⟨ps, fs, hq, -⟩ := waitClosed_queue (status := status) (detail := detail) (force := false) hp hc
  have hend := waitClosed_ends (status := status) (detail := detail) hp hc
  unfold stopWait
  change passPackets (finishPacket (startPacket s q n) q n status detail false) q (pktEpoch n) pass =
    (finishPacket (startPacket s q n) q n status detail false, pass) at hpass
  simp only [hpass]
  change Ended (if pktEpoch n = (getHq (waitClosed s q n status detail false) q).epoch then _ else waitClosed s q n status detail false) ..
    ∧ (_ → (getHq (if pktEpoch n = (getHq (waitClosed s q n status detail false) q).epoch then _
      else waitClosed s q n status detail false) q).passOver = _)
  by_cases he : pktEpoch n = (getHq (waitClosed s q n status detail false) q).epoch
  · rw [if_pos he]
    refine ⟨hend.congr (by rw [getHq_setHq_self]; rfl), fun _ => ?_⟩
    rw [getHq_setHq_self]
    have hover : (getHq (waitClosed s q n status detail false) q).passOver = (getHq s q).passOver := by rw [hq]
    exact congrArg (· + pass) hover
  · rw [if_neg he]
    refine ⟨hend, fun h => ?_⟩
    have h0 : pass = 0 := h.resolve_right fun hep => he (hep.trans (congrArg HostQueue.epoch hq).symm)
    rw [hq, h0]
    rfl

theorem stopWait_without_pass (hp : findPacket s q n = some p) (hc : p.completed = false) :
    Ended (stopWait s q n status detail 0 false) q n p status detail ∧
      (getHq (stopWait s q n status detail 0 false) q).passOver = (getHq s q).passOver := by
  obtain ⟨hend, hover⟩ := stopWait_of_passed (status := status) (detail := detail) hp hc (passPackets_zero ..)
  exact ⟨hend, hover (.inl rfl)⟩

theorem stopWait_of_started {pass : Nat} (hp : findPacket s q n = some p) (hc : p.completed = false)
    (hall : ∀ e ∈ (getHq s q).packets, e.n ≠ n → e.started = true) (he : pktEpoch n = (getHq s q).epoch) :
    Ended (stopWait s q n status detail pass false) q n p status detail ∧
      (getHq (stopWait s q n status detail pass false) q).passOver = (getHq s q).passOver + pass := by
  obtain ⟨ps, fs, hq, hps⟩ := waitClosed_queue (status := status) (detail := detail) (force := false) hp hc
  obtain ⟨hend, hover⟩ := stopWait_of_passed (status := status) (detail := detail) (pass := pass) hp hc
    (passPackets_of_started (fun e hmem => by
      rw [hq] at hmem
      exact (hps e hmem).elim (fun h => hall e h.2 h.1) id) ..)
  exact ⟨hend, hover (.inr he)⟩

end

/-! ### Agents and queues -/

/-- The state with the host queues replaced. -/
def withQueues (qs : List (Nat × HostQueue)) (s : State) : State := { s with queues := qs }

/-- The state with room made by dropping what `makeRoom` has chosen: an evicted line, or the replicas of the slice. -/
def roomMade (s : State) (l : Nat) (o : Option (Nat × Line)) : State :=
  match o with
  | some p => bumpFree (evictLine s p.1)
  | none => { s with replicas := s.replicas.filter (fun r => r.helper != l % 192) }

/-- The lines that `makeRoom` may evict. -/
def evictable (s : State) (l : Nat) : List (Nat × Line) := s.lines.filter (fun p => p.1 % 192 == l % 192 && p.2.invalidating.isEmpty)

theorem makeRoom_eq (s : State) (l : Nat) :
    makeRoom s l =
      if s.lines.any (fun p => p.1 == l) || decide (sliceUsed s (l % 192) < sliceDepth) then s
      else roomMade s l (evictable s l)[freeVal s % (evictable s l).length]? := rfl

/-- The bytes of HBM once a line's masked bytes have been written back. -/
def hbmEvicted (v : Line) (l : Nat) (m : Memory) : Memory :=
  (List.range 256).foldl (fun m i => if v.mask.getLsbD i then memSet m (l * 256 + i) (memGet v.data (l * 256 + i)) else m) m

/-- The state with other bytes in HBM and other lines in the slices. -/
def withHbmAndLines (s : State) (m : Memory) (ls : List (Nat × Line)) : State := { s with hbm := m, lines := ls }

theorem withHbmAndLines_withQueues (qs : List (Nat × HostQueue)) (s : State) (m : Memory) (ls : List (Nat × Line)) :
    withHbmAndLines (withQueues qs s) m ls = withQueues qs (withHbmAndLines s m ls) := rfl

theorem evictLine_eq (s : State) (l : Nat) :
    evictLine s l = withHbmAndLines s (hbmEvicted (getLine s l) l s.hbm) (s.lines.filter (fun p => p.1 != l)) := rfl

theorem evictLine_withQueues (qs : List (Nat × HostQueue)) (s : State) (l : Nat) :
    evictLine (withQueues qs s) l = withQueues qs (evictLine s l) :=
  (evictLine_eq (withQueues qs s) l).trans
    ((withHbmAndLines_withQueues qs s (hbmEvicted (getLine s l) l s.hbm) (s.lines.filter (fun p => p.1 != l))).trans
      (congrArg (withQueues qs) (evictLine_eq s l).symm))

theorem bumpFree_withQueues (qs : List (Nat × HostQueue)) (s : State) : bumpFree (withQueues qs s) = withQueues qs (bumpFree s) := rfl

theorem roomMade_withQueues (qs : List (Nat × HostQueue)) (s : State) (l : Nat) (o : Option (Nat × Line)) :
    roomMade (withQueues qs s) l o = withQueues qs (roomMade s l o) := by
  cases o with
  | none => rfl
  | some p => exact (congrArg bumpFree (evictLine_withQueues qs s p.1)).trans (bumpFree_withQueues ..)

theorem makeRoom_withQueues (qs : List (Nat × HostQueue)) (s : State) (l : Nat) :
    makeRoom (withQueues qs s) l = withQueues qs (makeRoom s l) := by
  by_cases hk : (s.lines.any (fun p => p.1 == l) || decide (sliceUsed s (l % 192) < sliceDepth)) = true
  · exact (makeRoom_eq ..).trans ((if_pos hk).trans (congrArg (withQueues qs) ((makeRoom_eq s l).trans (if_pos hk)).symm))
  · exact (makeRoom_eq ..).trans ((if_neg hk).trans ((roomMade_withQueues ..).trans
      (congrArg (withQueues qs) ((makeRoom_eq s l).trans (if_neg hk)).symm)))

theorem physSetByte_withQueues (qs : List (Nat × HostQueue)) (s : State) (pa : Nat) (b : Byte) :
    physSetByte (withQueues qs s) pa b = withQueues qs (physSetByte s pa b) := by
  show setLine (makeRoom (withQueues qs s) (lineOf pa)) _ _ = _
  rw [makeRoom_withQueues]
  rfl

theorem physWrite_withQueues (qs : List (Nat × HostQueue)) (s : State) (pa : Nat) (bs : List Byte) :
    physWrite (withQueues qs s) pa bs = withQueues qs (physWrite s pa bs) := by
  have hfold : ∀ ps : List (Nat × Byte), ps.foldl (fun t p => physSetByte t (pa + p.1) p.2) (withQueues qs s) =
      withQueues qs (ps.foldl (fun t p => physSetByte t (pa + p.1) p.2) s) :=
    fun ps => List.foldl_hom (withQueues qs) fun t p => physSetByte_withQueues qs t (pa + p.1) p.2
  unfold physWrite
  rw [hfold]
  rfl

theorem agentWritePieces_withQueues (qs : List (Nat × HostQueue)) (g : Agent) (ps : List (Nat × Nat)) (bs : List Byte) (s : State) :
    agentWritePieces (withQueues qs s) g ps bs = withQueues qs (agentWritePieces s g ps bs) := by
  induction ps generalizing s bs with
  | nil => rfl
  | cons p ps ih =>
    unfold agentWritePieces
    have hwalk : agentWalk (withQueues qs s) g p.1 .write = agentWalk s g p.1 .write := rfl
    rw [hwalk]
    refine .trans ?_ (ih ..)
    refine congrArg (fun t => agentWritePieces t g ps (bs.drop p.2)) ?_
    split
    · exact physWrite_withQueues qs (dropCopies s _ p.2) ..
    · rfl
    · rfl

/-- What an agent writes does not hang on the host queues. -/
theorem agentPut_withQueues (qs : List (Nat × HostQueue)) (s : State) (g : Agent) (a : Word) (bs : List Byte) :
    agentPut (withQueues qs s) g a bs = withQueues qs (agentPut s g a bs) := by
  unfold agentPut
  split
  · rfl
  · rfl
  · exact agentWritePieces_withQueues ..
  · rfl

/-- An atomic of an agent leaves the queues and the cores. -/
theorem agentAtom_keeps (s : State) (g : Agent) (a : Word) (n : Nat) (f : Nat → Nat) :
    (agentAtom s g a n f).1.queues = s.queues ∧ (agentAtom s g a n f).1.cores = s.cores := by
  unfold agentAtom
  split
  · split
    · dsimp only
      split
      · exact ⟨rfl, rfl⟩
      · next pa _ _ =>
        have hfill : CachesOnly (dropCopies s pa n) (fillRange (dropCopies s pa n) pa n) :=
          cachesOnly_foldl (fun t i => cachesOnly_fillSector t _ i) _ _
        exact ⟨((memoryOnly_physWrite ..).field State.queues).trans (hfill.field State.queues),
          (physWrite_cores ..).trans (hfill.field State.cores)⟩
    all_goals exact ⟨rfl, rfl⟩
  · exact ⟨rfl, rfl⟩

end Sys2Proof.Machine
end

section
/-! O43: command packets and completion records (R382-R390).

Each operation's packet in its turn: what its event does is its branch of the model's definition, and what that leaves is said by the
lemmas on a packet's completion (`finishPacket_ends`) and on an agent's accesses. -/

namespace Sys2Proof.Machine

section

variable {s : State} {q n : Nat} {p : Packet} {b : QueueBlock}

/-! ### LAUNCH (R382, R384) -/

theorem exec_launchPacket_of_badHeader (ht : packetTurn s q n 1 false = .go p b) (hl : p.ltag = 0)
    (hf : headerOk p = false ∨ launchFormOk p = false) : exec (.launchPacket q n) s = .next (badPacket s q n) := by
  have hbad : (!headerOk p || !launchFormOk p) = true := by
    rcases hf with h | h <;> simp [h]
  show execLaunchPacket q n s = _
  unfold execLaunchPacket
  simp only [ht, hl, hbad]
  rfl

/-- A well-formed LAUNCH in its turn. -/
structure LaunchTurn (s : State) (q n : Nat) (p : Packet) (b : QueueBlock) : Prop where
  turn : packetTurn s q n 1 false = .go p b
  fresh : p.ltag = 0
  header : headerOk p = true
  form : launchFormOk p = true

theorem LaunchTurn.wellFormed (h : LaunchTurn s q n p b) : (!headerOk p || !launchFormOk p) = false := by simp [h.header, h.form]

theorem exec_launchPacket_of_otherPart (h : LaunchTurn s q n p b) (hpart : fld (pktWord p 8).toNat 48 3 ≠ b.part) :
    exec (.launchPacket q n) s = .next (finishPacket s q n 2 6 false) := by
  show execLaunchPacket q n s = _
  unfold execLaunchPacket
  simp only [h.turn, h.fresh, h.wellFormed, if_pos hpart]
  rfl

theorem exec_launchPacket_of_refused {d : LaunchDesc} {code : Nat} (h : LaunchTurn s q n p b)
    (hpart : fld (pktWord p 8).toNat 48 3 = b.part) (hread : readLaunch s (queueAgent b) (pktWord p 16) = .inl d)
    (hcode : launchRefusal s b.part d = some code) : exec (.launchPacket q n) s = .next (finishPacket s q n 2 code false) := by
  show execLaunchPacket q n s = _
  unfold execLaunchPacket
  simp only [h.turn, h.fresh, h.wellFormed, if_neg (not_not_intro hpart), hread, hcode]
  rfl

theorem exec_launchPacket_of_taken {d : LaunchDesc} {tag : Nat} (h : LaunchTurn s q n p b)
    (hpart : fld (pktWord p 8).toNat 48 3 = b.part) (hread : readLaunch s (queueAgent b) (pktWord p 16) = .inl d)
    (hfree : launchRefusal s b.part d = none) (htag : findTag s 65535 (nextTag s.lastLtag) = some tag) :
    exec (.launchPacket q n) s = .next (beginLaunch s q p b.part tag d) := by
  show execLaunchPacket q n s = _
  unfold execLaunchPacket
  simp only [h.turn, h.fresh, h.wellFormed, if_neg (not_not_intro hpart), hread, hfree, htag]
  rfl

/-- The launch that a LAUNCH packet begins (R384). -/
def begunLaunch (q : Nat) (p : Packet) (part tag : Nat) (d : LaunchDesc) : Launch :=
  { ltag := tag, part := part, seed := (pktWord p 24).setWidth 32, regions := d.regions, root := none, packet := (q, p.n), wave := none,
    last := none }

theorem beginLaunch_launches (s : State) (q : Nat) (p : Packet) (part tag : Nat) (d : LaunchDesc) :
    (beginLaunch s q p part tag d).launches = s.launches ++ [begunLaunch q p part tag d] ∧
      (beginLaunch s q p part tag d).lastLtag = tag := by
  unfold beginLaunch
  dsimp only
  split <;> exact ⟨rfl, rfl⟩

theorem tagNamed_of_findTag {fuel t tag : Nat} (h : findTag s fuel t = some tag) : tagNamed s tag = false := by
  induction fuel generalizing t with
  | zero => cases h
  | succ f ih =>
    unfold findTag at h
    split at h
    · exact ih h
    · next hfree =>
      cases h
      simpa using hfree

/-- Where no launch holds a tag, the launch that takes it is the one that the tag names. -/
theorem launchPart_of_begun {t : State} {l : Launch} (hfree : tagNamed s l.ltag = false) (ht : t.launches = s.launches ++ [l]) :
    launchPart t l.ltag = l.part := by
  have hnone : s.launches.find? (fun k => k.ltag == l.ltag) = none := by
    refine List.find?_eq_none.2 fun k hk hkt => ?_
    have hnamed : tagNamed s l.ltag = true := by
      simp [tagNamed, show ∃ x ∈ s.launches, x.ltag = l.ltag from ⟨k, hk, by simpa using hkt⟩]
    exact absurd (hnamed.symm.trans hfree) (by decide)
  have hfind : findLaunch t l.ltag = some l := by
    unfold findLaunch
    rw [ht, List.find?_append, hnone]
    simp
  unfold launchPart
  rw [hfind]

/-- The root record of a launch waits at the distributor, in a dual wait where it is a dual record (R362, R384). -/
theorem beginLaunch_root (q : Nat) (p : Packet) (part : Nat) {tag : Nat} (d : LaunchDesc) (hfree : tagNamed s tag = false) :
    if (launchRecord p tag).dual
      then ∃ w : DualWait, (beginLaunch s q p part tag d).dualWaits = s.dualWaits ++ [w] ∧ w.record = launchRecord p tag ∧ w.part = part
      else ∃ w : RootWait, (beginLaunch s q p part tag d).rootWaits = s.rootWaits ++ [w] ∧ w.record = launchRecord p tag ∧ w.part = part := by
  have hl := (beginLaunch_launches s q p part tag d).1
  unfold beginLaunch at hl ⊢
  dsimp only at hl ⊢
  split
  · exact ⟨_, rfl, rfl, rfl⟩
  · next hd =>
    rw [if_neg hd] at hl
    exact ⟨_, rfl, rfl, launchPart_of_begun (l := begunLaunch q p part tag d) hfree hl⟩

/-- O43's clauses on a well-formed LAUNCH in its turn. -/
theorem launchPacket_effect (hp : findPacket s q n = some p) (hn : p.n = n) (hc : p.completed = false) (h : LaunchTurn s q n p b) :
    (fld (pktWord p 8).toNat 48 3 ≠ b.part →
      ∃ t : State, exec (.launchPacket q n) s = .next t ∧ Ended t q n p 2 6 ∧ t.launches = s.launches) ∧
    (∀ d, fld (pktWord p 8).toNat 48 3 = b.part → readLaunch s (queueAgent b) (pktWord p 16) = .inl d →
      (∀ code, launchRefusal s b.part d = some code →
        ∃ t : State, exec (.launchPacket q n) s = .next t ∧ Ended t q n p 2 code ∧ t.launches = s.launches) ∧
      (∀ tag, launchRefusal s b.part d = none → findTag s 65535 (nextTag s.lastLtag) = some tag →
        ∃ (t : State) (l : Launch), exec (.launchPacket q n) s = .next t ∧ t.launches = s.launches ++ [l] ∧ l.ltag = tag ∧ l.part = b.part ∧
          l.regions = d.regions ∧ l.root = none ∧ l.packet = (q, n) ∧ l.seed = (pktWord p 24).setWidth 32 ∧ t.lastLtag = tag ∧
          (if (launchRecord p tag).dual
            then ∃ w : DualWait, t.dualWaits = s.dualWaits ++ [w] ∧ w.record = launchRecord p tag ∧ w.part = b.part
            else ∃ w : RootWait, t.rootWaits = s.rootWaits ++ [w] ∧ w.record = launchRecord p tag ∧ w.part = b.part))) := by
  refine ⟨fun hpart => ⟨_, exec_launchPacket_of_otherPart h hpart, finishPacket_ends hp hc, finishPacket_launches ..⟩,
    fun d hpart hread => ⟨fun code hcode => ⟨_, exec_launchPacket_of_refused h hpart hread hcode, finishPacket_ends hp hc,
      finishPacket_launches ..⟩, fun tag hfree htag => ?_⟩⟩
  obtain ⟨hl, hlast⟩ := beginLaunch_launches s q p b.part tag d
  exact ⟨_, begunLaunch q p b.part tag d, exec_launchPacket_of_taken h hpart hread hfree htag, hl, rfl, rfl, rfl, rfl, by rw [← hn]; rfl, rfl,
    hlast, beginLaunch_root q p b.part d (tagNamed_of_findTag htag)⟩

/-! ### COPY (R385, R407) -/

/-- A well-formed COPY in its turn, its write not parked. -/
structure CopyTurn (s : State) (q n : Nat) (p : Packet) (b : QueueBlock) : Prop where
  turn : packetTurn s q n 2 true = .go p b
  free : packetParked s q n = false
  formed : ¬((!headerOk p) = true ∨ (pktWord p 24).toNat < 1 ∨ 2 ^ 32 < (pktWord p 24).toNat ∨ copySpace (pktWord p 8) = false ∨
    copySpace (pktWord p 16) = false ∨ zeroFrom p 32 = false)

theorem exec_copyPacket_of_first (h : CopyTurn s q n p b) (hs : p.started = false) :
    exec (.copyPacket q n) s = .next (push (startPacket s q n) (.copyPacket q n)) := by
  show execCopyPacket q n s = _
  unfold execCopyPacket
  simp only [h.turn, h.free, if_neg h.formed, hs]
  rfl

theorem exec_copyPacket_of_read {bs cs : List Byte} (h : CopyTurn s q n p b) (hs : p.started = true)
    (hread : agentRead s (dataAgent b) (pktWord p 8) (pktWord p 24).toNat = .ok bs)
    (hcheck : agentCheck s (dataAgent b) (pktWord p 16) (pktWord p 24).toNat = .ok cs)
    (hmeet : placesMeet (agentPlaces (agentTouch s (dataAgent b) (pktWord p 8) (pktWord p 24).toNat) (dataAgent b) (pktWord p 8) bs.length)
      (agentPlaces (agentTouch s (dataAgent b) (pktWord p 8) (pktWord p 24).toNat) (dataAgent b) (pktWord p 16) bs.length) = false) :
    exec (.copyPacket q n) s =
      .next (finishPacket (agentPut (agentTouch s (dataAgent b) (pktWord p 8) (pktWord p 24).toNat) (dataAgent b) (pktWord p 16) bs)
        q n 0 0 false) := by
  have hover : copyOver (agentTouch s (dataAgent b) (pktWord p 8) (pktWord p 24).toNat) (dataAgent b) (pktWord p 8) (pktWord p 16) bs =
      (agentTouch s (dataAgent b) (pktWord p 8) (pktWord p 24).toNat, bs) := by
    unfold copyOver
    simp only [hmeet]
    rfl
  show execCopyPacket q n s = _
  unfold execCopyPacket
  simp only [h.turn, h.free, if_neg h.formed, hs, hread, hcheck, hover]
  rfl

theorem exec_copyPacket_of_unread {k : Nat} {a : Word} (h : CopyTurn s q n p b) (hs : p.started = true) (hk : k ≠ 0)
    (hread : agentRead s (dataAgent b) (pktWord p 8) (pktWord p 24).toNat = .fail k a) :
    exec (.copyPacket q n) s = .next (finishPacket s q n 6 1 false) := by
  show execCopyPacket q n s = _
  unfold execCopyPacket
  simp only [h.turn, h.free, if_neg h.formed, hs, hread, if_neg hk]
  rfl

theorem exec_copyPacket_of_fault {bs : List Byte} {a : Word} (h : CopyTurn s q n p b) (hs : p.started = true)
    (hread : agentRead s (dataAgent b) (pktWord p 8) (pktWord p 24).toNat = .ok bs)
    (hcheck : agentCheck s (dataAgent b) (pktWord p 16) (pktWord p 24).toNat = .fail 0 a) :
    exec (.copyPacket q n) s = .next (parkPacket s (agentPort (dataAgent b) a) q n) := by
  show execCopyPacket q n s = _
  unfold execCopyPacket
  simp only [h.turn, h.free, if_neg h.formed, hs, hread, hcheck]
  rfl

theorem findPacket_of_queues {t : State} (hq : t.queues = s.queues) : findPacket t q n = findPacket s q n :=
  findPacket_congr n (congrArg (fun qs => (tabGet emptyQueue qs q).packets) hq)

/-- A packet of a state with the same queues ends as there. -/
theorem finishPacket_ends_beside {t : State} {status detail : Nat} (hq : t.queues = s.queues) (hp : findPacket s q n = some p)
    (hc : p.completed = false) : Ended (finishPacket t q n status detail false) q n p status detail :=
  finishPacket_ends ((findPacket_of_queues hq).trans hp) hc

theorem parkPacket_parks {port : Nat} (h : (s.fq.filter (fun e => e.port == port)).length < 64) :
    (parkPacket s port q n).fq = s.fq ++ [{ port := port, what := .packet q n, own := true }] ∧ (parkPacket s port q n).lines = s.lines := by
  have hroom : ¬faultDepth ≤ (s.fq.filter (fun e => e.port == port)).length := Nat.not_le.2 h
  unfold parkPacket
  rw [if_neg hroom]
  exact ⟨rfl, rfl⟩

/-- O43's clauses on a COPY. -/
theorem copyPacket_effect (hp : findPacket s q n = some p) (hc : p.completed = false) (h : CopyTurn s q n p b) (hs : p.started = true) :
    (∀ bs cs, agentRead s (dataAgent b) (pktWord p 8) (pktWord p 24).toNat = .ok bs →
      agentCheck s (dataAgent b) (pktWord p 16) (pktWord p 24).toNat = .ok cs →
      placesMeet (agentPlaces (agentTouch s (dataAgent b) (pktWord p 8) (pktWord p 24).toNat) (dataAgent b) (pktWord p 8) bs.length)
        (agentPlaces (agentTouch s (dataAgent b) (pktWord p 8) (pktWord p 24).toNat) (dataAgent b) (pktWord p 16) bs.length) = false →
      ∃ t : State, exec (.copyPacket q n) s = .next t ∧ Ended t q n p 0 0 ∧
        t.lines = (agentPut (agentTouch s (dataAgent b) (pktWord p 8) (pktWord p 24).toNat) (dataAgent b) (pktWord p 16) bs).lines ∧
        ∀ c, (getCore t c).spad =
          (getCore (agentPut (agentTouch s (dataAgent b) (pktWord p 8) (pktWord p 24).toNat) (dataAgent b) (pktWord p 16) bs) c).spad) ∧
    (∀ k a, k ≠ 0 → agentRead s (dataAgent b) (pktWord p 8) (pktWord p 24).toNat = .fail k a →
      ∃ t : State, exec (.copyPacket q n) s = .next t ∧ Ended t q n p 6 1) ∧
    (∀ bs a, agentRead s (dataAgent b) (pktWord p 8) (pktWord p 24).toNat = .ok bs →
      agentCheck s (dataAgent b) (pktWord p 16) (pktWord p 24).toNat = .fail 0 a →
      (s.fq.filter (fun e => e.port == agentPort (dataAgent b) a)).length < 64 →
      ∃ t : State, exec (.copyPacket q n) s = .next t ∧
        t.fq = s.fq ++ [{ port := agentPort (dataAgent b) a, what := .packet q n, own := true }] ∧ t.lines = s.lines) := by
  refine ⟨fun bs cs hread hcheck hmeet => ⟨_, exec_copyPacket_of_read h hs hread hcheck hmeet, finishPacket_ends_beside ?_ hp hc,
    (finishPacket_agentState ..).1, fun c => congrArg Core.spad (getCore_of_cores (finishPacket_cores ..) c)⟩,
    fun k a hk hread => ⟨_, exec_copyPacket_of_unread h hs hk hread, finishPacket_ends hp hc⟩,
    fun bs a hread hcheck hroom => ⟨_, exec_copyPacket_of_fault h hs hread hcheck, parkPacket_parks hroom⟩⟩
  exact ((memoryOnly_agentTouch ..).trans (memoryOnly_agentPut ..)).field State.queues

/-! ### KPUT (R385, R427) -/

/-- A well-formed KPUT in its turn, its request not sent. -/
structure KputTurn (s : State) (q n : Nat) (p : Packet) (b : QueueBlock) : Prop where
  turn : packetTurn s q n 3 true = .go p b
  unsent : p.issued = false
  formed : ¬((!headerOk p) = true ∨ payloadLimit < (pktWord p 48).toNat ∨ virtRange (pktWord p 40) 1 = false ∨ zeroFrom p 56 = false)

theorem exec_kputPacket_of_first (h : KputTurn s q n p b)
    (hs : p.started = false) : exec (.kputPacket q n) s = .next (push (startPacket s q n) (.kputPacket q n)) := by
  show execKputPacket q n s = _
  unfold execKputPacket
  simp only [h.turn, h.unsent, if_neg h.formed, hs]
  rfl

/-- The state after a KPUT packet has read its payload, before its request goes out. -/
def payloadRead (s : State) (q n : Nat) (p : Packet) (b : QueueBlock) : State :=
  modPacket (agentTouch s (queueAgent b) (pktWord p 40) (pktWord p 48).toNat) q n (fun p => { p with issued := true })

theorem exec_kputPacket_of_read {bs : List Byte} (h : KputTurn s q n p b)
    (hs : p.started = true) (hlen : 0 < (pktWord p 48).toNat)
    (hread : agentRead s (queueAgent b) (pktWord p 40) (pktWord p 48).toNat = .ok bs) :
    exec (.kputPacket q n) s =
      .next (sendReq (payloadRead s q n p b) (.packet q n) noCore b.ctxid (keyHash (packetKey p)) (.put (packetKey p) 0 bs) none) := by
  show execKputPacket q n s = _
  unfold execKputPacket
  simp only [h.turn, h.unsent, if_neg h.formed, hs, if_neg (Nat.ne_of_gt hlen), hread]
  rfl

theorem findPacket_payloadRead (hp : findPacket s q n = some p) (b : QueueBlock) :
    findPacket (payloadRead s q n p b) q n = some { p with issued := true } := by
  unfold payloadRead
  have hread : findPacket (agentTouch s (queueAgent b) (pktWord p 40) (pktWord p 48).toNat) q n = findPacket s q n :=
    findPacket_of_queues ((memoryOnly_agentTouch ..).field State.queues)
  rw [findPacket_modPacket _ q n (f := fun p => { p with issued := true }) fun _ => rfl, hread, hp]
  rfl

theorem kputPacket_effect {bs : List Byte} (hp : findPacket s q n = some p) (h : KputTurn s q n p b)
    (hs : p.started = true) (hlen : 0 < (pktWord p 48).toNat)
    (hread : agentRead s (queueAgent b) (pktWord p 40) (pktWord p 48).toNat = .ok bs) :
    ∃ (t : State) (r : KeyReq), exec (.kputPacket q n) s = .next t ∧ t.keyReqs = s.keyReqs ++ [r] ∧ r.issuer = .packet q n ∧
      r.ask = .put (packetKey p) 0 bs ∧ r.ctx = b.ctxid ∧ ∃ e : Packet, findPacket t q n = some e ∧ e.issued = true :=
  ⟨_, _, exec_kputPacket_of_read h hs hlen hread,
    congrArg (· ++ [_]) ((memoryOnly_agentTouch s (queueAgent b) (pktWord p 40) (pktWord p 48).toNat).field State.keyReqs), rfl, rfl, rfl,
    { p with issued := true }, findPacket_payloadRead hp b, rfl⟩

/-! ### SIGNAL and FENCE (R385, R386) -/

/-- A well-formed SIGNAL in its turn. -/
structure SignalTurn (s : State) (q n : Nat) (p : Packet) (b : QueueBlock) : Prop where
  turn : packetTurn s q n 4 true = .go p b
  formed : ¬((!headerOk p) = true ∨ (pktWord p 8).toNat % 8 ≠ 0 ∨ virtRange (pktWord p 8) 8 = false ∨ 1 < (pktWord p 24).toNat ∨
    zeroFrom p 32 = false)

theorem exec_signalPacket_of_first (h : SignalTurn s q n p b) (hs : p.started = false) :
    exec (.signalPacket q n) s = .next (push (startPacket s q n) (.signalPacket q n)) := by
  show execSignalPacket q n s = _
  unfold execSignalPacket
  simp only [h.turn, if_neg h.formed, hs]
  rfl

/-- What a SIGNAL makes of its word (R385). -/
def signalled (p : Packet) (old : Nat) : Nat :=
  if (pktWord p 24).toNat = 1 then (old + (pktWord p 16).toNat) % 2 ^ 64 else (pktWord p 16).toNat

/-- The agent of a SIGNAL: AMOSWAP reaches no window (R514). -/
def signalAgent (p : Packet) (b : QueueBlock) : Agent := if (pktWord p 24).toNat = 1 then dataAgent b else queueAgent b

theorem exec_signalPacket_of_done {u : State} {bs : List Byte} (h : SignalTurn s q n p b) (hs : p.started = true)
    (hatom : agentAtom s (signalAgent p b) (pktWord p 8) 8 (signalled p) = (u, .ok bs)) :
    exec (.signalPacket q n) s = .next (finishPacket u q n 0 0 false) := by
  unfold signalAgent signalled at hatom
  show execSignalPacket q n s = _
  unfold execSignalPacket
  simp only [h.turn, if_neg h.formed, hs, hatom]
  rfl

theorem signalPacket_effect {u : State} {bs : List Byte} (hp : findPacket s q n = some p) (hc : p.completed = false)
    (h : SignalTurn s q n p b) (hs : p.started = true)
    (hatom : agentAtom s (signalAgent p b) (pktWord p 8) 8 (signalled p) = (u, .ok bs)) :
    ∃ t : State, exec (.signalPacket q n) s = .next t ∧ Ended t q n p 0 0 ∧ t.lines = u.lines ∧ t.remote = u.remote ∧
      t.cores = s.cores := by
  have hkeeps := agentAtom_keeps s (signalAgent p b) (pktWord p 8) 8 (signalled p)
  rw [hatom] at hkeeps
  obtain ⟨hqueues, hcores⟩ := hkeeps
  exact ⟨_, exec_signalPacket_of_done h hs hatom, finishPacket_ends_beside hqueues hp hc, (finishPacket_agentState ..).1,
    (finishPacket_agentState ..).2, (finishPacket_cores ..).trans hcores⟩

theorem exec_fencePacket_of_open (ht : packetTurn s q n 5 true = .go p b) (hh : headerOk p = true) (hz : zeroFrom p 8 = true)
    (hopen : (packetsBefore (getHq s q) n).all (·.completed) = false) :
    exec (.fencePacket q n) s = .next (push (startPacket s q n) (.fencePacket q n)) := by
  show execFencePacket q n s = _
  unfold execFencePacket
  simp only [ht, hh, hz, hopen]
  rfl

/-- Whether a packet's number is one that a FENCE counts: of its epoch, and before it (R386). -/
def fenced (n k : Nat) : Bool := pktEpoch k == pktEpoch n && decide (k < n)

/-- The queue of a FENCE that has counted the failures before it. -/
def failuresTaken (h : HostQueue) (n : Nat) : HostQueue := { h with failed := h.failed.filter (fun k => !fenced n k) }

theorem exec_fencePacket_of_closed (ht : packetTurn s q n 5 true = .go p b) (hh : headerOk p = true) (hz : zeroFrom p 8 = true)
    (hall : (packetsBefore (getHq s q) n).all (·.completed) = true) :
    exec (.fencePacket q n) s = .next (finishPacket (setHq s q (failuresTaken (getHq s q) n)) q n 0
      (Nat.min 255 ((getHq s q).failed.filter (fenced n)).length) true) := by
  show execFencePacket q n s = _
  unfold execFencePacket
  simp only [ht, hh, hz, hall]
  rfl

theorem fencePacket_effect (hp : findPacket s q n = some p) (hc : p.completed = false) (ht : packetTurn s q n 5 true = .go p b)
    (hh : headerOk p = true) (hz : zeroFrom p 8 = true) :
    ((∃ e ∈ packetsBefore (getHq s q) n, e.completed = false) →
      exec (.fencePacket q n) s = .next (push (startPacket s q n) (.fencePacket q n))) ∧
    ((∀ e ∈ packetsBefore (getHq s q) n, e.completed = true) →
      ∃ t : State, exec (.fencePacket q n) s = .next t ∧ Recorded t q n 0 (min 255 ((getHq s q).failed.countP (fenced n))) ∧
        (getHq t q).failed = (getHq s q).failed.filter (fun k => !fenced n k)) := by
  constructor
  · rintro ⟨e, he, hec⟩
    exact exec_fencePacket_of_open ht hh hz (List.all_eq_false.2 ⟨e, he, by simp [hec]⟩)
  · intro hall
    have hp' : findPacket (setHq s q (failuresTaken (getHq s q) n)) q n = some p :=
      (findPacket_congr n (by rw [getHq_setHq_self]; rfl)).trans hp
    refine ⟨_, exec_fencePacket_of_closed ht hh hz (List.all_eq_true.2 hall), ?_, ?_⟩
    · rw [List.countP_eq_length_filter]
      exact finishPacket_records hp' hc (Bool.or_true _)
    · rw [finishPacket_closes hp' hc, getHq_setHq_self]
      rfl

end

end Sys2Proof.Machine
end

section
/-! O43, the end: WAITCOND packets, completion records, and the statement (R387, R390). -/

namespace Sys2Proof.Machine

section

variable {s : State} {q n : Nat} {p : Packet} {b : QueueBlock} {i : Instr} {again : Event} {bs : List Byte}

/-! ### WAITCOND (R387) -/

/-- A packet runs under the block that it was fetched under (R380). -/
theorem packetTurn_block {op : Nat} {taken : Bool} (h : packetTurn s q n op taken = .go p b) : b = p.blk := by
  unfold packetTurn at h
  split at h
  · split at h
    · cases h
    · split at h <;> cases h
      rfl
  · cases h

/-- A WAITCOND in its turn, its function not held. -/
structure WaitTurn (s : State) (q n : Nat) (p : Packet) (b : QueueBlock) : Prop where
  turn : packetTurn s q n 6 true = .go p b
  header : headerOk p = true
  runs : functionHeld s 2 = false

theorem exec_waitcondPacket_of_bad (h : WaitTurn s q n p b) (h0 : p.tests = 0) (hf : waitFormOk p = false) :
    exec (.waitcondPacket q n) s = .next (badPacket s q n) := by
  show execWaitcondPacket q n s = _
  unfold execWaitcondPacket
  simp only [h.turn, h.runs, h.header, h0, hf]
  rfl

theorem exec_waitcondPacket_of_first (h : WaitTurn s q n p b) (h0 : p.tests = 0) (hf : waitFormOk p = true) (hs : p.started = false) :
    exec (.waitcondPacket q n) s = .next (push (startPacket s q n) (.waitcondPacket q n)) := by
  show execWaitcondPacket q n s = _
  unfold execWaitcondPacket
  simp only [h.turn, h.runs, h.header, h0, hf, hs]
  rfl

/-- A WAITCOND that has started tests, at its first event and at each that its back-off raises (R387, R388). -/
def WaitTests (i : Instr) (q n : Nat) (p : Packet) : Prop :=
  (i = .waitcondPacket q n ∧ p.tests = 0 ∧ waitFormOk p = true ∧ p.started = true) ∨ (i = .waitcondRetest q n ∧ p.tests ≠ 0)

theorem exec_wait_of_tests (h : WaitTurn s q n p b) (hi : WaitTests i q n p) :
    ∃ again : Event, exec i s = .next (testWait s q p again) := by
  rcases hi with ⟨rfl, h0, hf, hs⟩ | ⟨rfl, h0⟩
  · refine ⟨.waitcondPacket q n, ?_⟩
    show execWaitcondPacket q n s = _
    unfold execWaitcondPacket
    simp only [h.turn, h.runs, h.header, h0, hf, hs]
    rfl
  · refine ⟨.waitcondRetest q n, ?_⟩
    show execWaitcondRetest q n s = _
    unfold execWaitcondRetest
    simp only [h.turn, h.runs, if_neg h0]
    rfl

/-- The control word of a WAITCOND. -/
def waitWord (p : Packet) : Nat := (pktWord p 24).toNat

/-- Whether the bytes read meet the condition of a WAITCOND. -/
def waitHolds (p : Packet) (bs : List Byte) : Bool :=
  condHolds (fld (waitWord p) 0 3) (BitVec.ofNat 64 (leNat bs)) (pktWord p 16)

/-- The state after a WAITCOND has read its word. -/
def waitRead (s : State) (p : Packet) : State := agentTouch s (queueAgent p.blk) (pktWord p 8) 8

theorem testWait_of_read (hread : agentRead s (queueAgent p.blk) (pktWord p 8) 8 = .ok bs) :
    testWait s q p again =
      if fld (waitWord p) 4 2 ≠ 2 then
        stopWait (waitRead s p) q p.n 0 0 (if waitHolds p bs == (fld (waitWord p) 4 2 == 1) then waitPass p else 0) false
      else if waitHolds p bs then stopWait (waitRead s p) q p.n 0 0 0 false
      else if fld (waitWord p) 24 16 ≠ 0 ∧ p.tests + 1 = fld (waitWord p) 24 16 then
        stopWait (waitRead s p) q p.n 5 0 (waitPass p) false
      else push (modPacket (waitRead s p) q p.n (fun r => { r with tests := r.tests + 1 })) (.waitcondRetest q p.n) := by
  unfold testWait
  simp only [hread]
  rfl

theorem waitRead_getHq (s : State) (p : Packet) (q : Nat) : getHq (waitRead s p) q = getHq s q :=
  (memoryOnly_agentTouch ..).field fun t => getHq t q

theorem findPacket_waitRead (hp : findPacket s q n = some p) : findPacket (waitRead s p) q n = some p :=
  (findPacket_congr n (by rw [waitRead_getHq])).trans hp

/-- O43's clauses on the tests of a WAITCOND. -/
theorem waitTests_effect (hp : findPacket s q n = some p) (hn : p.n = n) (hc : p.completed = false) (h : WaitTurn s q n p b)
    (hi : WaitTests i q n p) (hread : agentRead s (queueAgent p.blk) (pktWord p 8) 8 = .ok bs) :
    (fld (waitWord p) 4 2 ≠ 2 → waitHolds p bs ≠ (fld (waitWord p) 4 2 == 1) →
      ∃ t : State, exec i s = .next t ∧ Ended t q n p 0 0 ∧ (getHq t q).passOver = (getHq s q).passOver) ∧
    (fld (waitWord p) 4 2 ≠ 2 → waitHolds p bs = (fld (waitWord p) 4 2 == 1) →
      (∀ e ∈ (getHq s q).packets, e.n ≠ n → e.started = true) → pktEpoch n = (getHq s q).epoch →
      ∃ t : State, exec i s = .next t ∧ Ended t q n p 0 0 ∧ (getHq t q).passOver = (getHq s q).passOver + waitPass p) ∧
    (fld (waitWord p) 4 2 = 2 → waitHolds p bs = true → ∃ t : State, exec i s = .next t ∧ Ended t q n p 0 0) ∧
    (fld (waitWord p) 4 2 = 2 → waitHolds p bs = false →
      (fld (waitWord p) 24 16 ≠ 0 → p.tests + 1 = fld (waitWord p) 24 16 →
        (∀ e ∈ (getHq s q).packets, e.n ≠ n → e.started = true) → pktEpoch n = (getHq s q).epoch →
        ∃ t : State, exec i s = .next t ∧ Ended t q n p 5 0 ∧ (getHq t q).passOver = (getHq s q).passOver + waitPass p) ∧
      ((fld (waitWord p) 24 16 = 0 ∨ p.tests + 1 ≠ fld (waitWord p) 24 16) →
        ∃ (t : State) (e : Packet), exec i s = .next t ∧ t.agenda = s.agenda ++ [Event.waitcondRetest q n] ∧
          findPacket t q n = some e ∧ e.tests = p.tests + 1 ∧ e.started = p.started ∧ e.completed = false)) := by
  have hp' := findPacket_waitRead hp
  have hq := waitRead_getHq s p q
  obtain ⟨again, hexec⟩ := exec_wait_of_tests h hi
  rw [testWait_of_read hread] at hexec
  subst hn
  refine ⟨fun ha hh => ?_, fun ha hh hall hep => ?_, fun ha hh => ?_, fun ha hh => ⟨fun hb ht hall hep => ?_, fun hb => ?_⟩⟩
  · rw [if_pos ha, if_neg (by simpa using hh)] at hexec
    obtain ⟨hend, hover⟩ := stopWait_without_pass (status := 0) (detail := 0) hp' hc
    exact ⟨_, hexec, hend, hover.trans (congrArg HostQueue.passOver hq)⟩
  · rw [if_pos ha, if_pos (by simpa using hh)] at hexec
    obtain ⟨hend, hover⟩ := stopWait_of_started (status := 0) (detail := 0) (pass := waitPass p) hp' hc (hq ▸ hall) (hq ▸ hep)
    exact ⟨_, hexec, hend, by rw [hover, hq]⟩
  · rw [if_neg (not_not_intro ha), if_pos hh] at hexec
    exact ⟨_, hexec, (stopWait_without_pass hp' hc).1⟩
  · rw [if_neg (not_not_intro ha), if_neg (by simp [hh]), if_pos ⟨hb, ht⟩] at hexec
    obtain ⟨hend, hover⟩ := stopWait_of_started (status := 5) (detail := 0) (pass := waitPass p) hp' hc (hq ▸ hall) (hq ▸ hep)
    exact ⟨_, hexec, hend, by rw [hover, hq]⟩
  · rw [if_neg (not_not_intro ha), if_neg (by simp [hh]), if_neg fun hand => hb.elim hand.1 (· hand.2)] at hexec
    refine ⟨_, { p with tests := p.tests + 1 }, hexec, congrArg (· ++ [_]) ((memoryOnly_agentTouch ..).field State.agenda), ?_, rfl, rfl, hc⟩
    have hm := findPacket_modPacket (waitRead s p) q p.n (f := fun r => { r with tests := r.tests + 1 }) fun _ => rfl
    rw [hp'] at hm
    exact hm

/-! ### Completion records (R390) -/

/-- A packet whose record is due: it has completed, its record is not written, and every write before it is visible (R322). -/
structure RecordDue (s : State) (q n : Nat) (p : Packet) : Prop where
  found : findPacket s q n = some p
  closed : p.completed = true
  owes : p.written = false
  runs : functionHeld s 5 = false
  ready : carriedReady s noCore 4 p.moment = true

/-- The address of a packet's completion record. -/
def recordAt (p : Packet) (n : Nat) : Word := virtWord (p.blk.cbase + 16 * (pktNumber n % 2 ^ p.blk.logn))

/-- The state with a packet retired, its record written. -/
def recordRetired (s : State) (q n : Nat) : State := retirePackets (modPacket s q n (fun r => { r with written := true })) q

theorem exec_completionRecord_of_free {old cs : List Byte} (h : RecordDue s q n p)
    (hr : agentRead s (queueAgent p.blk) (recordAt p n) 16 = .ok old) (hk : agentCheck s (queueAgent p.blk) (recordAt p n) 16 = .ok cs)
    (hv : slotTaken old = false) :
    exec (.completionRecordWrite q n) s =
      .next (agentPut (recordRetired s q n) (queueAgent p.blk) (recordAt p n) (completionBytes p)) := by
  unfold recordAt at hr hk
  show execCompletionRecordWrite q n s = _
  unfold execCompletionRecordWrite
  simp only [h.found, h.closed, h.owes, h.runs, h.ready, hr, hk, hv]
  rfl

theorem exec_completionRecord_of_taken {old cs : List Byte} (h : RecordDue s q n p)
    (hr : agentRead s (queueAgent p.blk) (recordAt p n) 16 = .ok old) (hk : agentCheck s (queueAgent p.blk) (recordAt p n) 16 = .ok cs)
    (hv : slotTaken old = true) : exec (.completionRecordWrite q n) s = .next (push s (.completionRecordWrite q n)) := by
  unfold recordAt at hr hk
  show execCompletionRecordWrite q n s = _
  unfold execCompletionRecordWrite
  simp only [h.found, h.closed, h.owes, h.runs, h.ready, hr, hk, hv]
  rfl

/-- A completed packet that has its number alone retires with its record. -/
theorem findPacket_recordRetired (hc : p.completed = true) (hone : ∀ e ∈ (getHq s q).packets, e.n = n → e = p) :
    findPacket (recordRetired s q n) q n = none := by
  have hq : getHq (recordRetired s q n) q =
      { getHq s q with packets := packetsAfter (getHq s q) n (fun r => { r with written := true }) false } := by
    unfold recordRetired retirePackets
    rw [getHq_setHq_self, getHq_modPacket]
    rfl
  rw [findPacket_eq hq]
  exact find_packetsAfter_none fun d hd hdn => ⟨by rw [hone d hd hdn]; exact hc, rfl⟩

/-- A record is written with its packet's number, tag word, status and detail, and the packet retires (R390). -/
theorem completionRecord_effect {old cs : List Byte} (h : RecordDue s q n p) (hn : p.n = n)
    (hr : agentRead s (queueAgent p.blk) (recordAt p n) 16 = .ok old) (hk : agentCheck s (queueAgent p.blk) (recordAt p n) 16 = .ok cs)
    (hv : slotTaken old = false) (hone : ∀ e ∈ (getHq s q).packets, e.n = n → e = p) :
    ∃ t : State, exec (.completionRecordWrite q n) s = .next t ∧ findPacket t q n = none ∧
      t.lines = (agentPut s (queueAgent p.blk) (recordAt p n) (leBytes 8 (2 ^ 63 + pktNumber n % 2 ^ 63) ++
        leBytes 8 (fld (pktHeader p) 16 16 + p.status * 2 ^ 16 + p.detail % 256 * 2 ^ 24))).lines := by
  have hput : agentPut (recordRetired s q n) (queueAgent p.blk) (recordAt p n) (completionBytes p) =
      withQueues (recordRetired s q n).queues (agentPut s (queueAgent p.blk) (recordAt p n) (completionBytes p)) :=
    agentPut_withQueues (recordRetired s q n).queues s (queueAgent p.blk) (recordAt p n) (completionBytes p)
  refine ⟨_, exec_completionRecord_of_free h hr hk hv, (findPacket_of_queues ?_).trans (findPacket_recordRetired h.closed hone), ?_⟩
  · exact (memoryOnly_agentPut ..).field State.queues
  · subst hn
    rw [hput]
    rfl

end

/-- Settles O43, the clause of each operation being its packet's lemma: `launchPacket_effect`, `copyPacket_effect`, `kputPacket_effect`,
`signalPacket_effect`, `fencePacket_effect`, `waitTests_effect` and `completionRecord_effect`. -/
theorem packetOperations : Obligations.PacketOperations := by
  unfold Obligations.PacketOperations
  refine ⟨fun s q n p b hp hn hc => ⟨fun hh ht hl => ?_, fun hh => ⟨fun ht hl => ⟨fun hf => ?_, fun hf => ?_⟩,
    fun ht hfree h0 hlen hsrc hdst hz => ?_, fun ht hi hlen hv hz h0 => ?_, fun ht ha hv hop hz => ?_, fun ht hz => ?_,
    fun ht hheld => ⟨fun h0 hf => ?_, fun h0 hf hs => ?_, fun i bs hi hread => ?_⟩⟩⟩,
    fun s q n p old cs hp hn hc hw hheld hready hr hk => ⟨fun hv hone => ?_, fun hv => ?_⟩⟩
  · exact ⟨_, exec_launchPacket_of_badHeader ht hl (.inl hh), badPacket_records hp hc, badPacket_launches ..⟩
  · exact ⟨_, exec_launchPacket_of_badHeader ht hl (.inr hf), badPacket_records hp hc, badPacket_launches ..⟩
  · exact launchPacket_effect hp hn hc ⟨ht, hl, hh, hf⟩
  · have hturn : CopyTurn s q n p b := ⟨ht, hfree, by simp only [hh, hsrc, hdst, hz]; simp; omega⟩
    exact ⟨exec_copyPacket_of_first hturn, copyPacket_effect hp hc hturn⟩
  · have hturn : KputTurn s q n p b :=
      ⟨ht, hi, by simp [hh, hv, hz, Nat.not_lt.2 (show (pktWord p 48).toNat ≤ payloadLimit from hlen)]⟩
    exact ⟨exec_kputPacket_of_first hturn, fun hs bs hread => kputPacket_effect hp hturn hs h0 hread⟩
  · have hturn : SignalTurn s q n p b := ⟨ht, by simp [hh, ha, hv, hz, hop]⟩
    exact ⟨exec_signalPacket_of_first hturn, fun hs u bs hatom => signalPacket_effect hp hc hturn hs hatom⟩
  · exact fencePacket_effect hp hc ht hh hz
  · exact ⟨_, exec_waitcondPacket_of_bad ⟨ht, hh, hheld⟩ h0 hf, badPacket_records hp hc⟩
  · exact exec_waitcondPacket_of_first ⟨ht, hh, hheld⟩ h0 hf hs
  · rw [packetTurn_block ht] at hread
    exact waitTests_effect hp hn hc ⟨ht, hh, hheld⟩ hi hread
  · exact completionRecord_effect ⟨hp, hc, hw, hheld, hready⟩ hn hr hk (by simpa [slotTaken] using hv) hone
  · exact exec_completionRecord_of_taken ⟨hp, hc, hw, hheld, hready⟩ hr hk (by simpa [slotTaken] using hv)

end Sys2Proof.Machine
end

section
/-! O46: escaped flows, and what a dead link carried (R268, R385, R396, R404, R405, R435, R437, R447). -/

namespace Sys2Proof.Machine

section

variable {s : State} {n router : Nat}

/-! ### The escape channel (R404, R405) -/

theorem exec_vcDeadlock_of_flow {f : Escaped} (hf : flowOf s n = some f) (hnew : f ∉ s.escaped) :
    exec (.vcDeadlockTimeout ⟨router, n⟩) s =
      .next (push { count s (.escapes router) 1 with escaped := s.escaped ++ [f] } (.flowAck (flowNo f))) := by
  show execVcDeadlockTimeout ⟨router, n⟩ s = _
  unfold execVcDeadlockTimeout
  simp only [hf, List.contains_iff_mem, if_neg hnew]
  rfl

/-- The state with the counters and the packets that escaped alone replaced. -/
def withEscapes (cs : List (Counter × Nat)) (l : List Nat) (s : State) : State := { s with counters := cs, escLoose := l }

/-- The state after the packet of a number has escaped alone. -/
def escapedAlone (s : State) (router n : Nat) : State :=
  withEscapes (count s (.escapes router) 1).counters (s.escLoose.filter (looseNo s) ++ [n]) s

theorem exec_vcDeadlock_of_loose (hf : flowOf s n = none) (hl : looseNo s n = true) (hc : channelOf s n ≠ .esc) :
    exec (.vcDeadlockTimeout ⟨router, n⟩) s = .next (escapedAlone s router n) := by
  have hstays : (!looseNo s n || channelOf s n == .esc) = false := by simp [hl, hc]
  show execVcDeadlockTimeout ⟨router, n⟩ s = _
  unfold execVcDeadlockTimeout
  simp only [hf, hstays]
  rfl

theorem accDst_withEscapes (cs : List (Counter × Nat)) (l : List Nat) (s : State) : accDst (withEscapes cs l s) = accDst s := by
  have hwalk : coreWalk (withEscapes cs l s) = coreWalk s := rfl
  have hport : portOf (withEscapes cs l s) = portOf s := rfl
  funext a
  unfold accDst placesOf
  rw [hwalk, hport]

theorem flowOf_withEscapes (cs : List (Counter × Nat)) (l : List Nat) (s : State) (k : Nat) : flowOf (withEscapes cs l s) k = flowOf s k := by
  have hacc : findAcc (withEscapes cs l s) k = findAcc s k := rfl
  have hmsg : findMsg (withEscapes cs l s) k = findMsg s k := rfl
  have hreq : findReq (withEscapes cs l s) k = findReq s k := rfl
  have hcmb : findCmb (withEscapes cs l s) k = findCmb s k := rfl
  have hop : findOp (withEscapes cs l s) k = findOp s k := rfl
  unfold flowOf
  rw [accDst_withEscapes, hacc, hmsg, hreq, hcmb, hop]

theorem channelOf_escapedAlone (hf : flowOf s n = none) : channelOf (escapedAlone s router n) n = .esc := by
  have hf' : flowOf (escapedAlone s router n) n = none := (flowOf_withEscapes ..).trans hf
  have hmem : (escapedAlone s router n).escLoose.contains n = true := by simp [escapedAlone, withEscapes]
  unfold channelOf
  simp only [hf', hmem, if_true]

theorem exec_vcDeadlock_of_nothing (hf : flowOf s n = none) (hl : looseNo s n = false) :
    exec (.vcDeadlockTimeout ⟨router, n⟩) s = .next s := by
  show execVcDeadlockTimeout ⟨router, n⟩ s = _
  unfold execVcDeadlockTimeout
  simp only [hf, hl]
  rfl

theorem exec_flowAck_of_open {f : Escaped} (hf : s.escaped.find? (fun e => flowNo e == n) = some f) (ho : flowOpen s f = true) :
    exec (.flowAck n) s = .next (push s (.flowAck n)) := by
  show execFlowAck n s = _
  unfold execFlowAck
  simp only [hf, ho, if_true]
  rfl

theorem exec_flowAck_of_closed {f : Escaped} (hf : s.escaped.find? (fun e => flowNo e == n) = some f) (ho : flowOpen s f = false) :
    exec (.flowAck n) s = .next { s with escaped := s.escaped.filter (fun e => e != f) } := by
  show execFlowAck n s = _
  unfold execFlowAck
  simp only [hf, ho, Bool.false_eq_true, if_false]
  rfl

/-! ### What a dead link carried (R435, R437, R447) -/

theorem exec_linkDeath_of_access {a : Access} (ha : findAcc s n = some a) :
    exec (.linkDeath (.item n)) s = .next (if accMoves a then failAcc s a 3 a.addr else s) := by
  show done (loseItem s n) = _
  unfold loseItem
  rw [ha]
  rfl

theorem exec_linkDeath_of_message {m : TaskMsg} (ha : findAcc s n = none) (hm : findMsg s n = some m) :
    exec (.linkDeath (.item n)) s = .next (loseMsg s m) := by
  show done (loseItem s n) = _
  unfold loseItem
  rw [ha, hm]
  rfl

theorem exec_linkDeath_of_request {r : KeyReq} (ha : findAcc s n = none) (hm : findMsg s n = none) (hr : findReq s n = some r) :
    exec (.linkDeath (.item n)) s = .next (loseReq s r) := by
  show done (loseItem s n) = _
  unfold loseItem
  rw [ha, hm, hr]
  rfl

theorem exec_linkDeath_of_combine {m : CmbMsg} (ha : findAcc s n = none) (hm : findMsg s n = none) (hr : findReq s n = none)
    (hd : s.deliveries.find? (fun d => d.id == n) = none) (hc : findCmb s n = some m) :
    exec (.linkDeath (.item n)) s = .next (endOp (dropCmb s n) m.op (cmbStatus 3 0 0 0 0)) := by
  show done (loseItem s n) = _
  unfold loseItem
  rw [ha, hm, hr, hd, hc]
  rfl

theorem loseMsg_callat {m : TaskMsg} {r : WorkRec} (htag : m.tag = none) (hb : m.body = .callat r) :
    loseMsg s m = endMsg s m (taskStatus 4) := by
  unfold loseMsg
  rw [hb, htag]
  rfl

theorem loseMsg_rndclose {m : TaskMsg} {r : Nat} (hb : m.body = .rndclose r) : loseMsg s m = endMsg s m (barStatus 3 0) := by
  unfold loseMsg
  rw [hb]

/-- The end of a message that only its sender waits for, with any status. -/
theorem told_endMsg {m : TaskMsg} {o : Op} (htwin : m.twin = none) (hop : m.op = o.id) (h : Awaits s o) (v : Word) :
    Told (endMsg s m v) o v := by
  have hend : endMsg s m v = endOp (dropMsg s m.id) o.id v := by rw [endMsg, htwin, hop]
  rw [hend]
  exact told_endOp (s := dropMsg s m.id) (h.of_cores rfl rfl) v

theorem loseReq_redeposit {r : KeyReq} {x : Tuple} (hr : r.ask = .redeposit x) : loseReq s r = s := by
  unfold loseReq
  rw [hr]

theorem loseReq_of_asked {r : KeyReq} (htag : r.tag = none) (hre : ∀ x, r.ask ≠ .redeposit x) (hcopy : ∀ x g, r.ask ≠ .copy x g) :
    loseReq s r = settleReq (dropReq s r.id) r r.home 7 (keyStatus 7 false false false r.forwarded 0) := by
  unfold loseReq
  split
  · next h => exact absurd h (hre _)
  · next h => exact absurd h (hcopy _ _)
  · rw [htag]
    rfl

theorem findCmb_endOp_dropCmb (s : State) (n k : Nat) (v : Word) : findCmb (endOp (dropCmb s n) k v) n = none := by
  have hmsgs : (endOp (dropCmb s n) k v).cmbMsgs = s.cmbMsgs.filter (fun m => m.id != n) := by rw [endOp_eq, dropCmb]
  unfold findCmb
  rw [hmsgs, List.find?_filter]
  simp

theorem exec_linkDeath_of_copy {q k : Nat} {p : Packet} (hp : findPacket s q k = some p) (hc : p.completed = false)
    (hh : headerOk p = true) (hop : fld (pktHeader p) 0 8 = 2) (hs : p.started = true) (hfree : packetParked s q k = false) :
    exec (.linkDeath (.packet q k)) s = .next (finishPacket s q k 6 3 false) := by
  show done (losePacket s q k) = _
  unfold losePacket
  simp only [hp, hc, hh, hfree, hop, hs]
  rfl

end

/-- Settles O46. A lost CALLAT or round close is answered as by an error message (log 23), and an access that has been performed has
nothing to lose (log 29). -/
theorem flowsAndLinks : Obligations.FlowsAndLinks := by
  unfold Obligations.FlowsAndLinks
  refine fun s n router => ⟨fun f hf hnew => ?_, fun hf hl hc => ?_, exec_vcDeadlock_of_nothing,
    fun f hf => ⟨exec_flowAck_of_open hf, exec_flowAck_of_closed hf⟩,
    fun a ha => ⟨fun hmoves => ?_, fun hmoves => ?_⟩, fun ha => ⟨fun m o hm hop hwait _ htag htwin => ?_, fun hm => ⟨fun r hr => ?_, ?_⟩⟩,
    fun q k p hp hc hh hop hs hfree hcmpl => ?_, fun iq => ⟨_, rfl, tabGet_tabSet_self ..⟩⟩
  · exact ⟨_, exec_vcDeadlock_of_flow hf hnew, rfl, rfl, counterVal_count .., rfl, rfl, rfl, rfl, rfl⟩
  · exact ⟨_, exec_vcDeadlock_of_loose hf hl hc, channelOf_escapedAlone hf, rfl, counterVal_count .., rfl, rfl, rfl, rfl, rfl⟩
  · exact (exec_linkDeath_of_access ha).trans (by rw [if_pos hmoves])
  · exact (exec_linkDeath_of_access ha).trans (by rw [hmoves]; rfl)
  · exact ⟨fun r hb => ⟨_, (exec_linkDeath_of_message ha hm).trans (congrArg _ (loseMsg_callat htag hb)), told_endMsg htwin hop hwait _,
      findMsg_endMsg ..⟩, fun r hb => ⟨_, (exec_linkDeath_of_message ha hm).trans (congrArg _ (loseMsg_rndclose hb)),
      told_endMsg htwin hop hwait _, findMsg_endMsg ..⟩⟩
  · have hexec := exec_linkDeath_of_request ha hm hr
    exact ⟨fun x hx => hexec.trans (congrArg _ (loseReq_redeposit hx)),
      fun htag hre hcopy => hexec.trans (congrArg _ (loseReq_of_asked htag hre hcopy))⟩
  · intro m o hr hd hcmb hop hwait _
    refine ⟨_, exec_linkDeath_of_combine ha hm hr hd hcmb, ?_, findCmb_endOp_dropCmb ..⟩
    rw [hop]
    exact told_endOp (s := dropCmb s n) (hwait.of_cores rfl rfl) _
  · exact ⟨_, completedPacket s 6 3 p, exec_linkDeath_of_copy hp hc hh hop hs hfree, findPacket_finishPacket 6 3 hp hc hcmpl, rfl, rfl, rfl⟩

end Sys2Proof.Machine
end

section
/-! A rise of a leave capacity that makes units free (R246, R535, R579). -/

namespace Sys2Proof.Machine

/-- An activation runs on core 0, whose die's pool stands at half of its reset capacity, none of it in use and all of it partition 0's;
the Foremen of the other dies have failed. -/
def loweredPool : State :=
  { setCore State.reset 0 { resetCore with
      state := .running,
      ctx := { resetCtx with act := some {
        serial := 1, ltag := 0, kind := .task, record := { ltag := 0, dual := false, prio := 0, cls := 0, entry := 0, args := [] }, t15 := none,
        pair := none, msgIdx := 0, commit := false } } } with
    firmware := (List.range 23).map (fun d => { blk := .foreman (d + 1), state := .failed, measurement := 0, svn := 0, missed := 0 })
    pools := [(0, { resetPool with cap := 474, weights := [(0, 1)] })] }

theorem evt_loweredPool : (getCtx loweredPool 0).sys.evt = 0 := rfl

theorem foremen_loweredPool : (List.range 24).filter (fun d => !foremanFailed loweredPool d) = [0] := by decide

theorem poolFree_loweredPool :
    poolFree loweredPool 0 < poolFree (setPool loweredPool 0 { getPool loweredPool 0 with cap := 592 }) 0 := by decide

/-- The rise makes 118 units free, which the activation is told of by event bit 3. -/
theorem exec_low_loweredPool : ∃ t : State, exec .currentMonitorLowSustained loweredPool = .next t ∧ (getCtx t 0).sys.evt = 8 := by
  refine ⟨setCap loweredPool 0 592, ?_, ?_⟩
  · show done (mapCaps loweredPool _) = _
    unfold mapCaps
    rw [foremen_loweredPool]
    rfl
  · unfold setCap
    simp only [if_pos poolFree_loweredPool]
    rfl

/-- Refutes O48: a current monitor that stays low is said to change no core. R246 has event bit 3 latch in every activation of a die where
units of its pool become free, and a capacity that rises makes units free: `loweredPool` goes from 474 to 592 units, by the step of 118
(log 20), and event bit 3 of the activation on core 0, clear before, is set. -/
theorem not_capacityAndTables : ¬ Obligations.CapacityAndTables := by
  unfold Obligations.CapacityAndTables
  intro h
  obtain ⟨-, hpool, -⟩ := h loweredPool 0 0 0 0 0 0 0 0 0
    { valid := false, ports := 0, etm := false, etype := 0, vm := false, vid := 0, dm := false, dmac := 0, queue := 0 }
    { mode := .ring, part := 0, ctxid := 0, base := 0, logn := 0, slotBytes := 0, cons := 0, urgent := none, uentry := 0, ultag := 0,
      key0 := 0, key1 := 0 } 0 0 0 [] [] 0 [] .doorbells
  obtain ⟨-, -, t, hexec, -, hcores⟩ := hpool (by decide) rfl
  obtain ⟨u, hu, hevt⟩ := exec_low_loweredPool
  obtain rfl := Host.Outcome.next.inj (hu.symm.trans hexec)
  have hsame : (getCtx u 0).sys.evt = 0 := (congrArg (fun k : Core => k.ctx.sys.evt) (getCore_of_cores hcores 0)).trans evt_loweredPool
  exact absurd (hevt.symm.trans hsame) (by decide)

end Sys2Proof.Machine
end

section
/-! O51: corrected errors, repairs, invalidations and restarts (R515-R520, R537, R568, R569). -/

namespace Sys2Proof.Machine

section

variable {s : State} {eng bank row col c : Nat}

/-! ### Corrected errors (R518-R520) -/

/-- The place of a report whose numbers fit their fields. -/
def reportPlace (bank row col : Nat) : ErrPlace :=
  { bank := BitVec.ofNat 6 bank, row := BitVec.ofNat 18 row, col := BitVec.ofNat 10 col }

theorem exec_correctedError_of_unkept (h : 28 ≤ eng) : exec (.correctedErrorReport eng bank row col) s = .next s :=
  if_pos (.inl h)

/-- A single cell widens a location into no class (R519). -/
theorem widens_single (e : ErrEntry) (cls : Nat) (p : ErrPlace) : widens [e] cls p = false := by
  have hdups : ∀ {α β : Type} [BEq β] [LawfulBEq β] (q : α → Bool) (f : α → β) (a : α),
      (([a].filter q).map f).eraseDups.length ≤ 1 := by
    intro α β _ _ q f a
    cases hq : q a
    · simp [List.filter, hq]
    · rw [List.filter_cons_of_pos hq]
      exact Nat.le_of_eq rfl
  unfold widens
  dsimp only
  rw [List.filter_filter, List.filter_filter]
  split
  · exact decide_eq_false (Nat.not_le.2 ((hdups ..).trans_lt (by decide)))
  · split
    · exact decide_eq_false (Nat.not_le.2 ((hdups ..).trans_lt (by decide)))
    · have hrows : decide (3 ≤
          (([e].filter (fun e => e.cls == 0 && e.bank == p.bank && decide (0 < e.count))).map (·.row)).eraseDups.length) = false :=
        decide_eq_false (Nat.not_le.2 ((hdups ..).trans_lt (by decide)))
      rw [hrows, Bool.and_false, Bool.false_and]

/-- A report after which its engine keeps one entry is counted as a cell's alone. -/
theorem exec_correctedError_of_single {e : ErrEntry} (he : eng < 28) (hb : bank < 2 ^ 6) (hr : row < 2 ^ 18) (hc : col < 2 ^ 10)
    (h : errTable (countError s eng 0 (reportPlace bank row col)) eng = [e]) :
    exec (.correctedErrorReport eng bank row col) s = .next (countError s eng 0 (reportPlace bank row col)) := by
  have hkeeps : ¬(errEngines ≤ eng ∨ 2 ^ 6 ≤ bank ∨ 2 ^ 18 ≤ row ∨ 2 ^ 10 ≤ col) := by
    rintro (h | h | h | h)
    · exact Nat.not_le.2 he h
    · exact Nat.not_le.2 hb h
    · exact Nat.not_le.2 hr h
    · exact Nat.not_le.2 hc h
  refine (if_neg hkeeps).trans ?_
  show Host.Outcome.next ([1, 2, 3].foldl (fun u cls => if widens (errTable u eng) cls (reportPlace bank row col)
    then countError u eng cls (reportPlace bank row col) else u) (countError s eng 0 (reportPlace bank row col))) = _
  simp only [List.foldl_cons, List.foldl_nil, h, widens_single, Bool.false_eq_true, if_false]

/-- The state with an engine's entries replaced. -/
def withErrTable (s : State) (eng : Nat) (l : List ErrEntry) : State := { s with errTables := tabSet s.errTables eng l }

theorem errTable_withErrTable (s : State) (eng : Nat) (l : List ErrEntry) : errTable (withErrTable s eng l) eng = l := tabGet_tabSet_self ..

theorem errTable_withErrTable_ne (s : State) {eng o : Nat} (l : List ErrEntry) (h : o ≠ eng) :
    errTable (withErrTable s eng l) o = errTable s o := tabGet_tabSet_ne _ _ _ _ _ h

/-- The entry that counts the first error of a cell. -/
def firstEntry (p : ErrPlace) : ErrEntry := { num := 0, count := 1, cls := 0, bank := p.bank, row := p.row, col := p.col, req := false }

theorem countError_of_empty (p : ErrPlace) (h : errTable s eng = []) : countError s eng 0 p = withErrTable s eng [firstEntry p] := by
  unfold countError
  rw [h]
  rfl

/-- An entry with one more error; a cell met three times asks for a repair (R519). -/
def countedEntry (e : ErrEntry) : ErrEntry := { e with count := Nat.min (e.count + 1) 65535, req := e.req || decide (2 ≤ e.count) }

theorem countError_of_known {e : ErrEntry} {p : ErrPlace} (h : errTable s eng = [e]) (hcov : entryCovers e 0 p = true) :
    countError s eng 0 p =
      if e.req = false ∧ 2 ≤ e.count then askRepair (withErrTable s eng [countedEntry e]) eng e.num
      else withErrTable s eng [countedEntry e] := by
  have hfind : (errTable s eng).find? (fun e => entryCovers e 0 p) = some e := by rw [h]; simp [hcov]
  have hask : (!e.req && ((0 : Nat) != 0 || decide (3 ≤ Nat.min (e.count + 1) 65535))) = (!e.req && decide (2 ≤ e.count)) := by
    have : 3 ≤ Nat.min (e.count + 1) 65535 ↔ 2 ≤ e.count := by
      show 3 ≤ min (e.count + 1) 65535 ↔ _
      omega
    simp [this]
  have hreq : (e.req || (!e.req && decide (2 ≤ e.count))) = (e.req || decide (2 ≤ e.count)) := by cases e.req <;> rfl
  unfold countError
  dsimp only
  rw [hfind]
  dsimp only
  rw [hask, h]
  simp only [List.map_cons, List.map_nil, if_true, hreq]
  by_cases hd : e.req = false ∧ 2 ≤ e.count
  · rw [if_pos hd, if_pos (by simp [hd.1, hd.2])]
    rfl
  · rw [if_neg hd, if_neg (by simpa using hd)]
    rfl

/-- O51's clauses on a report. -/
theorem correctedError_counts (he : eng < 28) (hb : bank < 2 ^ 6) (hr : row < 2 ^ 18) (hc : col < 2 ^ 10) :
    (errTable s eng = [] →
      ∃ t : State, exec (.correctedErrorReport eng bank row col) s = .next t ∧ t.agenda = s.agenda ∧ t.notices = s.notices ∧
        errTable t eng =
          [{ num := 0, count := 1, cls := 0, bank := BitVec.ofNat 6 bank, row := BitVec.ofNat 18 row, col := BitVec.ofNat 10 col, req := false }]) ∧
    (∀ e, errTable s eng = [e] → entryCovers e 0 (reportPlace bank row col) = true →
      ∃ t : State, exec (.correctedErrorReport eng bank row col) s = .next t ∧ errTable t eng = [countedEntry e] ∧
        (if e.req = false ∧ 2 ≤ e.count
          then t.agenda = s.agenda ++ [Event.repairServe eng e.num] ∧ t.notices = s.notices ++ [(foremanOf eng, Notice.repair eng e.num)]
          else t.agenda = s.agenda ∧ t.notices = s.notices)) := by
  refine ⟨fun h => ?_, fun e h hcov => ?_⟩
  · have hcount := countError_of_empty (reportPlace bank row col) h
    have htab := errTable_withErrTable s eng [firstEntry (reportPlace bank row col)]
    exact ⟨_, (exec_correctedError_of_single he hb hr hc (hcount ▸ htab)).trans (congrArg _ hcount), rfl, rfl, htab⟩
  · have hcount := countError_of_known h hcov
    have htab : errTable (countError s eng 0 (reportPlace bank row col)) eng = [countedEntry e] := by
      rw [hcount]
      split <;> exact errTable_withErrTable ..
    refine ⟨_, exec_correctedError_of_single he hb hr hc htab, htab, ?_⟩
    rw [hcount]
    split <;> exact ⟨rfl, rfl⟩

/-! ### Windows and repairs (R518, R519, R569) -/

theorem repairServe_clears (s : State) (eng idx : Nat) :
    ∃ t : State, exec (.repairServe eng idx) s = .next t ∧ (∀ e ∈ errTable t eng, e.num = idx → e.req = false) ∧
      (∀ e ∈ errTable s eng, e.num ≠ idx → e ∈ errTable t eng) ∧ (∀ o, o ≠ eng → errTable t o = errTable s o) ∧
      ∀ n ∈ t.notices, n.2 ≠ Notice.repair eng idx := by
  have htab := errTable_withErrTable s eng ((errTable s eng).map (fun e => if e.num = idx then { e with req := false } else e))
  refine ⟨_, rfl, fun e he hnum => ?_, fun e he hnum => ?_, fun o ho => errTable_withErrTable_ne s _ ho, fun n hn => ?_⟩
  · obtain ⟨f, -, rfl⟩ := List.mem_map.1 (htab ▸ he)
    split at hnum
    · next hf => rw [if_pos hf]
    · next hf => exact absurd hnum hf
  · refine htab.symm ▸ List.mem_map.2 ⟨e, he, if_neg hnum⟩
  · simpa using (List.mem_filter.1 hn).2

/-! ### Translation invalidations (R515, R517) -/

theorem vlineIn_iff {ctx lo hi k v : Nat} : vlineIn ctx lo hi k v = true ↔ k = ctx ∧ lo < v * 256 + 256 ∧ v * 256 < hi := by
  simp [vlineIn, and_assoc]

/-- The state with the redirects of a range dropped, and the readings by which one could still be made (R515). -/
def withoutRange (s : State) (ctx lo hi : Nat) : State :=
  { s with
    redirects := s.redirects.filter (fun r => !vlineIn ctx lo hi r.ctx r.vline),
    hot := s.hot.map (fun h => { h with readers := h.readers.filter (fun r => !vlineIn ctx lo hi r.2.1 r.2.2) }) }

theorem exec_translationInvalidate (s : State) (ctx lo hi : Nat) :
    exec (.translationInvalidate ctx lo hi) s =
      .next (if s.accs.any (translatedIn s ctx lo hi) || s.merges.any (mergeIn s ctx lo hi)
        then push (withoutRange s ctx lo hi) (.translationInvalidate ctx lo hi) else withoutRange s ctx lo hi) := by
  have hacc : translatedIn (withoutRange s ctx lo hi) ctx lo hi = translatedIn s ctx lo hi := rfl
  have hmerge : mergeIn (withoutRange s ctx lo hi) ctx lo hi = mergeIn s ctx lo hi := rfl
  rw [← hacc, ← hmerge]
  rfl

theorem translationInvalidate_drops (s : State) (ctx lo hi : Nat) :
    ∃ t : State, exec (.translationInvalidate ctx lo hi) s = .next t ∧
      (∀ h ∈ t.hot, ∀ r ∈ h.readers, ¬ (r.2.1 = ctx ∧ lo < r.2.2 * 256 + 256 ∧ r.2.2 * 256 < hi)) ∧
      (∀ r ∈ t.redirects, r ∈ s.redirects ∧ ¬ (r.ctx = ctx ∧ lo < r.vline * 256 + 256 ∧ r.vline * 256 < hi)) ∧
      (∀ r ∈ s.redirects, ¬ (r.ctx = ctx ∧ lo < r.vline * 256 + 256 ∧ r.vline * 256 < hi) → r ∈ t.redirects) ∧
      t.agenda = (if s.accs.any (translatedIn s ctx lo hi) || s.merges.any (mergeIn s ctx lo hi)
        then s.agenda ++ [Event.translationInvalidate ctx lo hi] else s.agenda) ∧
      t.accs = s.accs := by
  have hstate : ∃ t, exec (.translationInvalidate ctx lo hi) s = .next t ∧ t.hot = (withoutRange s ctx lo hi).hot ∧
      t.redirects = (withoutRange s ctx lo hi).redirects ∧ t.agenda = (if s.accs.any (translatedIn s ctx lo hi) ||
        s.merges.any (mergeIn s ctx lo hi) then s.agenda ++ [Event.translationInvalidate ctx lo hi] else s.agenda) ∧ t.accs = s.accs := by
    refine ⟨_, exec_translationInvalidate .., ?_⟩
    split <;> exact ⟨rfl, rfl, rfl, rfl⟩
  obtain ⟨t, hexec, hhot, hred, hagenda, haccs⟩ := hstate
  refine ⟨t, hexec, fun h hh r hr hin => ?_, fun r hr => ?_, fun r hr hout => ?_, hagenda, haccs⟩
  · obtain ⟨g, -, rfl⟩ := List.mem_map.1 (hhot ▸ hh)
    have hkept := (List.mem_filter.1 hr).2
    simp [vlineIn_iff.2 hin] at hkept
  · obtain ⟨hmem, hkept⟩ := List.mem_filter.1 (hred ▸ hr)
    exact ⟨hmem, fun hin => by simp [vlineIn_iff.2 hin] at hkept⟩
  · rw [hred]
    exact List.mem_filter.2 ⟨hr, by simpa [← vlineIn_iff] using hout⟩

/-! ### Restarts (R248, R537) -/

theorem exec_foremanRestart_of_running (h : (getCore s c).state ≠ .stopped) : exec (.foremanCoreRestart c) s = .next s := if_pos h

/-- A core as it goes on after HALT. -/
def resumedCore (k : Core) : Core := { k with state := .running, stop := .none }

theorem wakeTile_cores (s : State) (c : Nat) : (wakeTile s c).cores = s.cores := by
  unfold wakeTile
  dsimp only
  split <;> rfl

theorem foremanRestart_of_halt (hst : (getCore s c).state = .stopped) (hstop : (getCore s c).stop = .halt)
    (hact : (getCtx s c).act.isSome = true) :
    ∃ t : State, exec (.foremanCoreRestart c) s = .next t ∧ (getCore t c).state = .running ∧ getCtx t c = getCtx s c := by
  have hact' : (getCore s c).ctx.act.isSome = true := hact
  have hexec : ∃ t : State, exec (.foremanCoreRestart c) s = .next t ∧ t.cores = (setCore s c (resumedCore (getCore s c))).cores := by
    show ∃ t : State, execForemanCoreRestart c s = .next t ∧ _
    unfold execForemanCoreRestart
    simp only [hst, hstop, hact', ne_eq, not_true_eq_false, if_true, if_false]
    split
    · exact ⟨_, rfl, wakeTile_cores ..⟩
    · exact ⟨_, rfl, rfl⟩
  obtain ⟨t, hexec, hcores⟩ := hexec
  have hcore : getCore t c = resumedCore (getCore s c) := (getCore_of_cores hcores c).trans (getCore_setCore_self ..)
  have hctx : (getCore t c).ctx = (getCore s c).ctx := by rw [hcore, resumedCore]
  exact ⟨t, hexec, congrArg Core.state hcore, hctx⟩

theorem exec_foremanRestart_of_trap (hst : (getCore s c).state = .stopped) (hstop : (getCore s c).stop = .trap)
    (hact : (getCtx s c).act.isSome = true) : exec (.foremanCoreRestart c) s = .next (failLive s c) := by
  have hact' : (getCore s c).ctx.act.isSome = true := hact
  show execForemanCoreRestart c s = _
  unfold execForemanCoreRestart
  simp only [hst, hstop, hact', ne_eq, not_true_eq_false, if_true, if_false]
  rfl

/-- The state in which a core without an activation is free to choose. -/
def freedCore (s : State) (c : Nat) : State :=
  push (modCore s c (fun k => { k with state := .idle, stop := .none, ctx := idleCtx k.ctx })) (.activationChoose c)

theorem exec_foremanRestart_of_noAct (hst : (getCore s c).state = .stopped) (hstop : (getCore s c).stop ≠ .none)
    (hact : (getCtx s c).act = none) : exec (.foremanCoreRestart c) s = .next (freedCore s c) := by
  have hact' : (getCore s c).ctx.act = none := hact
  show execForemanCoreRestart c s = _
  unfold execForemanCoreRestart
  simp only [hst, hact', ne_eq, not_true_eq_false, if_false]
  cases hk : (getCore s c).stop with
  | none => exact absurd hk hstop
  | halt => rfl
  | trap => rfl

theorem freedCore_idle (s : State) (c : Nat) : (getCore (freedCore s c) c).state = .idle ∧ Event.activationChoose c ∈ (freedCore s c).agenda := by
  have hcore := getCore_modCore_self s c (fun k => { k with state := .idle, stop := .none, ctx := idleCtx k.ctx })
  exact ⟨congrArg Core.state hcore, by simp [freedCore, push]⟩

end

/-- Settles O51. An entry with REQ stays through the end of its window and counts from 0, and its notice stands until the repair is served
(log 64). -/
theorem repairsAndRestarts : Obligations.RepairsAndRestarts := by
  unfold Obligations.RepairsAndRestarts
  refine fun s eng bank row col idx die ctx lo hi c => ⟨exec_correctedError_of_unkept, correctedError_counts,
    ⟨_, rfl, errTable_withErrTable .., fun o ho => errTable_withErrTable_ne s _ ho⟩, repairServe_clears s eng idx, rfl,
    translationInvalidate_drops s ctx lo hi, exec_foremanRestart_of_running, fun hst => ⟨foremanRestart_of_halt hst,
    exec_foremanRestart_of_trap hst, fun hstop hact => ⟨_, exec_foremanRestart_of_noAct hst hstop hact, freedCore_idle s c⟩⟩⟩

end Sys2Proof.Machine
end

section
/-! What the kill of a core, before its map change begins, leaves of the core map and of the partitions (R506-R508, R563).

`MapKept s₀ s` says that the core map, the dead physical cores and the clusters of every partition are those of `s₀`, and that the cores of
`s₀` still stand. One lemma for each operation that a kill is made of, in the order of the model's files. -/

namespace Sys2Proof.Machine

/-- The partitions without the images of cores that are switched out. -/
def bareParts (ps : List (Nat × Partition)) : List (Nat × Partition) := ps.map (fun p => (p.1, { p.2 with saved := [] }))

/-- What says which core stands where: the core map, the dead physical cores and the partitions. -/
def mapView (s : State) : Tab MapEntry × List Nat × List (Nat × Partition) := (s.coreMap, s.deadPhys, bareParts s.parts)

/-- The core map, the dead cores and the partitions are the same, and every core that stood there still does. -/
structure MapKept (s₀ s : State) : Prop where
  view : mapView s = mapView s₀
  cores : ∀ d, d ∈ s₀.cores.map (·.1) → d ∈ s.cores.map (·.1)

theorem mem_keys_tabSet {α : Type} {t : Tab α} {k : Nat} {v : α} {d : Nat} (h : d ∈ t.map (·.1)) : d ∈ (tabSet t k v).map (·.1) := by
  induction t with
  | nil => exact absurd h (by simp)
  | cons p t ih =>
    obtain ⟨j, w⟩ := p
    unfold tabSet
    split
    · next hjk => simpa [hjk] using h
    · split
      · exact List.mem_cons_of_mem _ h
      · rcases List.mem_cons.1 h with rfl | h
        · simp
        · exact List.mem_cons_of_mem _ (ih h)

namespace MapKept

section

variable {s₀ s : State}

theorem refl (s : State) : MapKept s s := ⟨rfl, fun _ h => h⟩

theorem same {t : State} (h : MapKept s₀ s) (hv : mapView t = mapView s) (hc : t.cores = s.cores) : MapKept s₀ t :=
  ⟨hv.trans h.view, fun d hd => hc ▸ h.cores d hd⟩

theorem ite {p : Prop} [Decidable p] {t u : State} (ht : MapKept s₀ t) (hu : MapKept s₀ u) : MapKept s₀ (if p then t else u) := by
  split
  · exact ht
  · exact hu

theorem foldl {α : Type} {f : State → α → State} {l : List α} (hf : ∀ t a, MapKept s₀ t → MapKept s₀ (f t a)) (h : MapKept s₀ s) :
    MapKept s₀ (l.foldl f s) := foldl_induction (motive := MapKept s₀) hf h

/-! ### State operations -/

theorem setCore {c : Nat} {k : Core} (h : MapKept s₀ s) : MapKept s₀ (setCore s c k) :=
  ⟨h.view, fun d hd => mem_keys_tabSet (h.cores d hd)⟩

theorem modCore {c : Nat} {f : Core → Core} (h : MapKept s₀ s) : MapKept s₀ (modCore s c f) := h.setCore

theorem modCtx {c : Nat} {f : Ctx → Ctx} (h : MapKept s₀ s) : MapKept s₀ (modCtx s c f) := h.setCore

theorem modSys {c : Nat} {f : SysRegs → SysRegs} (h : MapKept s₀ s) : MapKept s₀ (modSys s c f) := h.modCtx

theorem push {e : Event} (h : MapKept s₀ s) : MapKept s₀ (push s e) := h.same rfl rfl

theorem pushAll {es : List Event} (h : MapKept s₀ s) : MapKept s₀ (pushAll s es) := h.same rfl rfl

theorem count {k : Counter} {n : Nat} (h : MapKept s₀ s) : MapKept s₀ (count s k n) := h.same rfl rfl

theorem withNames {f n : Nat} (h : MapKept s₀ s) : MapKept s₀ { s with fresh := f, nextId := n } := h.same rfl rfl

theorem withOps {os : List Op} (h : MapKept s₀ s) : MapKept s₀ { s with ops := os } := h.same rfl rfl

theorem dropOp {n : Nat} (h : MapKept s₀ s) : MapKept s₀ (dropOp s n) := h.same rfl rfl

theorem putOp {o : Op} (h : MapKept s₀ s) : MapKept s₀ (putOp s o) := h.same rfl rfl

theorem updAct {c serial : Nat} {f : Ctx → Ctx} (h : MapKept s₀ s) : MapKept s₀ (updAct s c serial f) := by
  unfold Machine.updAct
  split
  · exact h.setCore
  · refine h.same ?_ rfl
    have hbare : ∀ g : List (Nat × Core) → List (Nat × Core),
        bareParts (s.parts.map (fun p => (p.1, { p.2 with saved := g p.2.saved }))) = bareParts s.parts := fun g => by
      unfold bareParts
      rw [List.map_map]
      rfl
    exact congrArg (fun ps => (s.coreMap, s.deadPhys, ps)) (hbare _)

theorem endOp {n : Nat} {v : Word} (h : MapKept s₀ s) : MapKept s₀ (endOp s n v) := by
  unfold Machine.endOp
  split
  · exact h.updAct.dropOp
  · exact h

/-! ### Gangs and leave -/

theorem leaveGang {code m : Nat} (h : MapKept s₀ s) : MapKept s₀ (leaveGang code s m) := by
  unfold Machine.leaveGang
  extract_lets k
  split
  · extract_lets told
    have htold : MapKept s₀ told := ite h.setCore h.setCore.modCtx
    exact ite htold htold.push
  · exact h.setCore
  · exact h

theorem disbandGang {c code : Nat} (h : MapKept s₀ s) : MapKept s₀ (disbandGang s c code) := foldl (fun _ _ ht => ht.leaveGang) h

theorem wakeLeave {die : Nat} (h : MapKept s₀ s) : MapKept s₀ (wakeLeave s die) := by
  refine ⟨h.view, fun d hd => ?_⟩
  obtain ⟨p, hp, rfl⟩ := List.mem_map.1 (h.cores d hd)
  refine List.mem_map.2 ⟨_, List.mem_map.2 ⟨p, hp, rfl⟩, ?_⟩
  split <;> rfl

theorem returnUnits {part die units : Nat} (h : MapKept s₀ s) : MapKept s₀ (returnUnits s part die units) := by
  unfold Machine.returnUnits
  have hset {p : Pool} : MapKept s₀ (setPool s die p) := h.same rfl rfl
  exact ite h hset.wakeLeave.push

theorem dropWait {die : Nat} {who : LeaveWho} (h : MapKept s₀ s) : MapKept s₀ (dropWait s die who) := h.same rfl rfl

theorem returnRunLeave {c : Nat} (h : MapKept s₀ s) : MapKept s₀ (returnRunLeave s c) := h.modCtx.returnUnits

theorem raiseTileTrap {c code param row : Nat} {u : TileUnit} {addr : Word} (h : MapKept s₀ s) :
    MapKept s₀ (raiseTileTrap s c u code param addr row) := h.returnRunLeave.modCtx

theorem wakeTile {c : Nat} (h : MapKept s₀ s) : MapKept s₀ (wakeTile s c) := by
  unfold Machine.wakeTile
  dsimp only
  split
  · exact h
  · exact h.push

theorem resumeTile {c : Nat} (h : MapKept s₀ s) : MapKept s₀ (resumeTile s c) := by
  have hseeds {u} : MapKept s₀ (restoreSeeds s c u) := foldl (fun _ _ ht => ht.modSys) h
  have hskip {u row} : MapKept s₀ (skipBand (restoreSeeds s c u) c u row) := by
    unfold skipBand
    exact ite hseeds.modSys hseeds
  unfold Machine.resumeTile
  dsimp only
  split
  · exact h
  · exact ite (ite h hskip).modCtx.wakeTile h.wakeTile

/-! ### The end of an activation -/

theorem countMismatch {c : Nat} (h : MapKept s₀ s) : MapKept s₀ (countMismatch s c) := by
  unfold Machine.countMismatch
  have hset {m : Tab Nat} : MapKept s₀ { s with mismatches := m } := h.same rfl rfl
  exact ite hset.push hset

theorem recallReq {r : KeyReq} (h : MapKept s₀ s) : MapKept s₀ (recallReq s r) := by
  unfold Machine.recallReq
  split
  · exact h.same rfl rfl
  · exact h

theorem withdrawWaiters {p : KeyReq → Bool} (h : MapKept s₀ s) : MapKept s₀ (withdrawWaiters s p) :=
  foldl (fun _ _ ht => ht.recallReq) (h.same rfl rfl)

theorem scramble {c : Nat} (h : MapKept s₀ s) : MapKept s₀ (scramble s c) := by
  have hkept : MapKept s₀ (keepUnread s c) := h.same rfl rfl
  exact hkept.modCore.withNames

theorem countEnded {c : Nat} (h : MapKept s₀ s) : MapKept s₀ (countEnded s c) := h.modCore

theorem settleTally {c g : Nat} (h : MapKept s₀ s) : MapKept s₀ (settleTally s c g) := ite h h.modCore.count

theorem retire {c g : Nat} (h : MapKept s₀ s) : MapKept s₀ (retire s c g) := by
  unfold Machine.retire
  extract_lets _ settled _ _ gone
  have hsettled : MapKept s₀ settled := h.settleTally.same rfl rfl
  have hgone : MapKept s₀ gone := hsettled.setCore
  exact ite hgone hgone.count

theorem retireDormant {c g : Nat} (h : MapKept s₀ s) : MapKept s₀ (retireDormant s c g) := ite h.retire h

theorem dropConts {c g : Nat} (h : MapKept s₀ s) : MapKept s₀ (dropConts s c g) := by
  unfold Machine.dropConts
  exact h.withdrawWaiters.modCore

theorem dropWaits {c serial : Nat} (h : MapKept s₀ s) : MapKept s₀ (dropWaits s c serial) := by
  unfold Machine.dropWaits
  extract_lets _ _ _ _ _ dropped withdrawn
  have hdropped : MapKept s₀ dropped := foldl (fun _ _ ht => ht.dropWait) h
  have hwithdrawn : MapKept s₀ withdrawn := withdrawWaiters (hdropped.same rfl rfl)
  exact foldl (fun _ _ ht => ht.endOp) hwithdrawn

theorem settleAct {c : Nat} {x : Ctx} {failed counts : Bool} (h : MapKept s₀ s) : MapKept s₀ (settleAct s c x failed counts) := by
  unfold Machine.settleAct
  extract_lets _ _ _ _ _ cleared orphaned retired
  have hcleared : MapKept s₀ cleared := h.returnUnits.dropWait.dropWait.dropWaits
  have horphaned : MapKept s₀ orphaned := ite hcleared.dropConts hcleared
  have hretired : MapKept s₀ retired := ite horphaned.retire horphaned
  exact ite hretired.countEnded hretired

theorem resumeAct {c : Nat} {x : Ctx} (h : MapKept s₀ s) : MapKept s₀ (resumeAct s c x) :=
  resumeTile (pushAll (ite h.setCore h.setCore.push))

theorem closeAct {c : Nat} {failed counts : Bool} (h : MapKept s₀ s) : MapKept s₀ (closeAct s c failed counts) := by
  unfold Machine.closeAct
  extract_lets settled scrambled
  have hscrambled : MapKept s₀ scrambled := h.disbandGang.settleAct.modCore.scramble
  split
  · exact hscrambled.resumeAct
  · exact hscrambled.modCore.push

theorem failCopy {p c : Nat} (h : MapKept s₀ s) : MapKept s₀ (failCopy p s c) := by
  unfold Machine.failCopy
  extract_lets _ _ closed ended freed
  have hclosed : MapKept s₀ closed := by
    refine ite h.closeAct ?_
    split
    · exact ite h.settleAct.modCore h
    · exact h
  have hended : MapKept s₀ ended := foldl (fun _ _ ht => ht.countEnded) hclosed
  exact foldl (fun _ _ ht => ht.dropConts.retireDormant) hended.modCore

theorem killPair {p : Nat} {blame : List Nat} (h : MapKept s₀ s) : MapKept s₀ (killPair s p blame) := by
  unfold Machine.killPair
  split
  · exact h
  · extract_lets _ _ dropped failed withdrawn blamed
    have hfailed : MapKept s₀ failed := foldl (fun _ _ ht => ht.failCopy) (h.same rfl rfl)
    have hblamed : MapKept s₀ blamed := foldl (fun _ _ ht => ht.countMismatch) hfailed.withdrawWaiters
    refine ite ?_ (hblamed.same rfl rfl)
    split
    · exact (ite hblamed hblamed.countEnded).modCore
    · exact hblamed

/-! ### A core stopped for good -/

theorem breakGang {c : Nat} (h : MapKept s₀ s) : MapKept s₀ (breakGang s c) := by
  unfold Machine.breakGang
  split
  · refine disbandGang ?_
    split
    · exact ite h.raiseTileTrap h
    · exact h
  · exact h.leaveGang
  · exact h

theorem freeLeave {c : Nat} (h : MapKept s₀ s) : MapKept s₀ (freeLeave s c) := by
  unfold Machine.freeLeave
  extract_lets _ _ returned dropped
  have hdropped : MapKept s₀ dropped := foldl (fun _ _ ht => ht.dropWait) h.returnRunLeave
  exact ite hdropped hdropped.returnUnits

theorem cutOp {o : Op} (h : MapKept s₀ s) : MapKept s₀ (cutOp s o) := by
  unfold Machine.cutOp
  split
  · exact ite h.putOp.endOp h.putOp
  · exact ite h h.putOp.push
  · exact h.putOp.push
  · exact h

theorem failInst {x : Instance} {code : Nat} (h : MapKept s₀ s) : MapKept s₀ (failInst s x code) := h.same rfl rfl

theorem stopForGood {c : Nat} {spare : Bool} (h : MapKept s₀ s) : MapKept s₀ (stopForGood s c spare) := by
  unfold Machine.stopForGood
  extract_lets _ freed dropped cut failed retired settled spared
  have hdropped : MapKept s₀ dropped := foldl (fun _ _ ht => ht.dropWaits) h.breakGang.freeLeave
  have hcut : MapKept s₀ cut := by
    refine foldl (fun _ _ ht => ?_) hdropped
    split
    · exact ht.cutOp
    · exact ht
  have hfailed : MapKept s₀ failed := foldl (fun _ _ ht => ht.failInst) hcut
  have hretired : MapKept s₀ retired := hfailed.withOps
  have hsettled : MapKept s₀ settled := foldl (fun _ _ ht => ht.settleTally) hretired
  have hspared : MapKept s₀ spared := hsettled.modCore
  exact hspared.withNames

end

end MapKept

end Sys2Proof.Machine
end

section
/-! O50, the kill: an error that no code corrects kills its core, or poisons its sector (R562, R563, R568). -/

namespace Sys2Proof.Machine

section

variable {s t : State} {c : Nat}

/-! ### What the map view says -/

theorem tabGet_map {α : Type} {d : α} {f : α → α} (hd : f d = d) (T : Tab α) (k : Nat) :
    tabGet d (T.map (fun p => (p.1, f p.2))) k = f (tabGet d T k) := by
  induction T with
  | nil => exact hd.symm
  | cons p T ih =>
    obtain ⟨j, v⟩ := p
    show (if j = k then f v else tabGet d (T.map _) k) = f (if j = k then v else tabGet d T k)
    split
    · rfl
    · exact ih

theorem MapKept.mapOf (h : MapKept s t) (d : Nat) : mapOf t d = mapOf s d :=
  congrArg (tabGet (resetMapEntry d) · d) (congrArg (·.1) h.view)

theorem MapKept.deadPhys (h : MapKept s t) : t.deadPhys = s.deadPhys := congrArg (·.2.1) h.view

theorem MapKept.barePart (h : MapKept s t) (p : Nat) :
    { getPart t p with saved := [] } = { getPart s p with saved := [] } := by
  have hparts : bareParts t.parts = bareParts s.parts := congrArg (·.2.2) h.view
  have hbare (u : State) : tabGet noPartition (bareParts u.parts) p = { getPart u p with saved := [] } :=
    tabGet_map (f := fun q : Partition => { q with saved := [] }) rfl u.parts p
  exact (hbare t).symm.trans ((congrArg (tabGet noPartition · p) hparts).trans (hbare s))

theorem MapKept.samePart (h : MapKept s t) (p : Nat) :
    (getPart t p).state = (getPart s p).state ∧ (getPart t p).clusters = (getPart s p).clusters := by
  have hstate := congrArg Partition.state (h.barePart p)
  have hclusters := congrArg Partition.clusters (h.barePart p)
  exact ⟨hstate, hclusters⟩

theorem MapKept.holdsCore (h : MapKept s t) (p d : Nat) : holdsCore (getPart t p) d = holdsCore (getPart s p) d := by
  obtain ⟨hstate, hclusters⟩ := h.samePart p
  unfold Machine.holdsCore
  rw [hstate, hclusters]

theorem MapKept.partOf (h : MapKept s t) (d : Nat) : partOf t d = partOf s d := by
  unfold Machine.partOf
  exact congrArg (List.find? · (List.range 8)) (funext fun p => h.holdsCore p d)

theorem MapKept.coresOf (h : MapKept s t) (p : Nat) : coresOf (getPart t p) = coresOf (getPart s p) := by
  unfold Machine.coresOf
  rw [(h.samePart p).2]

theorem MapKept.otherInterfaces (h : MapKept s t) {d : Nat} (hd : d ∈ otherInterfaces s c) : d ∈ otherInterfaces t c := by
  unfold Machine.otherInterfaces at hd ⊢
  rw [h.partOf]
  split at hd
  · rw [h.coresOf]
    simp only [List.mem_filter, Bool.and_eq_true, List.contains_iff_mem] at hd ⊢
    exact ⟨hd.1, hd.2.1, h.cores d hd.2.2⟩
  · exact absurd hd (by simp)

theorem MapKept.spareFree (h : MapKept s t) : spareFree t c = spareFree s c := by
  unfold Machine.spareFree
  simp only [h.mapOf, h.deadPhys]

/-- Whether the spare of a core's cluster is free does not hang on whether the core itself is counted among the dead. -/
theorem spareFree_withDead (hb : (mapOf s c).bound = true) :
    spareFree { s with deadPhys := physCore s c :: s.deadPhys } c = spareFree s c := by
  have hmap (d : Nat) : mapOf { s with deadPhys := physCore s c :: s.deadPhys } d = mapOf s d := rfl
  unfold spareFree
  simp only [hmap]
  by_cases h16 : (mapOf s c).ppos = 16
  · have hall : (clusterCores (c / 16)).all (fun d => !((mapOf s d).bound && (mapOf s d).ppos == 16)) = false := by
      refine List.all_eq_false.2 ⟨c, List.mem_map.2 ⟨c % 16, by simp [Nat.mod_lt], by omega⟩, by simp [hb, h16]⟩
    rw [hall, Bool.and_false, Bool.and_false]
  · have hne : (mapOf s c).pdie * 136 + (mapOf s c).pclu * 17 + 16 ≠ physCore s c := by
      unfold physCore
      dsimp only
      omega
    rw [List.contains_cons, beq_eq_false_iff_ne.2 hne, Bool.false_or]

/-! ### The kill (R563) -/

/-- The state after the pairs of a core have been killed with it. -/
def pairsKilled (s : State) (c : Nat) : State := (s.pairs.filter (fun d => d.cores.contains c)).foldl (fun u d => killPair u d.pair d.cores) s

/-- The state after the core's physical core has joined the dead ones. -/
def coreDead (s : State) (c : Nat) : State := { pairsKilled s c with deadPhys := physCore (pairsKilled s c) c :: (pairsKilled s c).deadPhys }

/-- The state after a core has been stopped for good, before its map change begins. -/
def coreStopped (s : State) (c : Nat) : State := stopForGood (coreDead s c) c (spareFree (pairsKilled s c) c)

theorem killCore_of_gone (h : coreCount ≤ c ∨ (getCore s c).state = .killed ∨ (mapOf s c).bound = false) : killCore s c = .next s :=
  if_pos h

theorem killCore_of_busy (h : ¬(coreCount ≤ c ∨ (getCore s c).state = .killed ∨ (mapOf s c).bound = false))
    (hbusy : partState s c = .halted ∨ s.mapChanges.any (fun m => m.core == c) = true) : killCore s c = .next (push s (.coreKill c)) :=
  (if_neg h).trans (if_pos hbusy)

theorem killCore_of_out (h : ¬(coreCount ≤ c ∨ (getCore s c).state = .killed ∨ (mapOf s c).bound = false))
    (hbusy : ¬(partState s c = .halted ∨ s.mapChanges.any (fun m => m.core == c) = true)) (hout : coreOut s c = true) : killCore s c = .next s :=
  (if_neg h).trans ((if_neg hbusy).trans (if_pos hout))

theorem killCore_of_live (h : ¬(coreCount ≤ c ∨ (getCore s c).state = .killed ∨ (mapOf s c).bound = false))
    (hbusy : ¬(partState s c = .halted ∨ s.mapChanges.any (fun m => m.core == c) = true)) (hout : coreOut s c = false) :
    killCore s c = .next (beginMapChange (coreStopped s c) c) :=
  (if_neg h).trans ((if_neg hbusy).trans (if_neg (by simp [hout])))

theorem mapKept_pairsKilled (s : State) (c : Nat) : MapKept s (pairsKilled s c) :=
  MapKept.foldl (fun _ _ ht => ht.killPair) (.refl s)

theorem mapKept_coreStopped (s : State) (c : Nat) : MapKept (coreDead s c) (coreStopped s c) := (MapKept.refl _).stopForGood

/-- A core that is stopped for good has the stores of its spare. -/
theorem getCore_stopForGood (s : State) (c : Nat) (spare : Bool) :
    ∃ (rs : List Region) (fresh serial : Nat) (k : Core), getCore (stopForGood s c spare) c = spareCore rs fresh serial spare k := by
  unfold stopForGood
  extract_lets rs _ _ _ _ _ t u
  clear_value t rs
  exact ⟨rs, t.fresh, t.nextId, getCore t c, getCore_modCore_self t c (spareCore rs t.fresh t.nextId spare)⟩

theorem mapOf_coreStopped (s : State) (c d : Nat) : mapOf (coreStopped s c) d = mapOf s d :=
  ((mapKept_coreStopped s c).mapOf d).trans ((mapKept_pairsKilled s c).mapOf d)

theorem spareFree_coreStopped (hb : (mapOf s c).bound = true) : spareFree (coreStopped s c) c = spareFree s c := by
  have hb' : (mapOf (pairsKilled s c) c).bound = true := by rwa [(mapKept_pairsKilled s c).mapOf]
  exact (mapKept_coreStopped s c).spareFree.trans ((spareFree_withDead hb').trans (mapKept_pairsKilled s c).spareFree)

theorem deadPhys_coreStopped (s : State) (c : Nat) : (coreStopped s c).deadPhys = physCore s c :: s.deadPhys := by
  have hphys : physCore (pairsKilled s c) c = physCore s c :=
    congrArg (fun m : MapEntry => m.pdie * 136 + m.pclu * 17 + m.ppos) ((mapKept_pairsKilled s c).mapOf c)
  refine (mapKept_coreStopped s c).deadPhys.trans ?_
  show physCore (pairsKilled s c) c :: (pairsKilled s c).deadPhys = _
  rw [hphys, (mapKept_pairsKilled s c).deadPhys]

theorem otherInterfaces_coreStopped {d : Nat} (hd : d ∈ otherInterfaces s c) : d ∈ otherInterfaces (coreStopped s c) c := by
  have hdead : d ∈ otherInterfaces (coreDead s c) c := (mapKept_pairsKilled s c).otherInterfaces hd
  exact (mapKept_coreStopped s c).otherInterfaces hdead

/-! ### The map change of a kill (R507, R508) -/

theorem beginMapChange_cores (s : State) (c : Nat) : (beginMapChange s c).cores = s.cores ∧ (beginMapChange s c).deadPhys = s.deadPhys := by
  unfold beginMapChange
  dsimp only
  split <;> exact ⟨rfl, rfl⟩

theorem beginMapChange_coreMap (s : State) (c : Nat) : (beginMapChange s c).coreMap = tabSet s.coreMap c (killedEntry s c) := by
  unfold beginMapChange
  dsimp only
  split <;> rfl

theorem beginMapChange_agenda (s : State) (c : Nat) :
    (beginMapChange s c).agenda = s.agenda ++ ((otherInterfaces s c).map (fun n => .coreMapUpdateArrive n c) ++ [.coreMapChangeComplete c]) := by
  unfold beginMapChange
  dsimp only
  split <;> rfl

/-- What a kill does (R507, R508, R563, R566). -/
structure Killed (s : State) (c : Nat) (t : State) : Prop where
  state : (getCore t c).state = if spareFree s c then .stopped else .killed
  egen : (mapOf t c).egen = (mapOf s c).egen + 1
  bound : (mapOf t c).bound = spareFree s c
  spare : spareFree s c = true → (mapOf t c).ppos = 16
  others : ∀ d, d ≠ c → mapOf t d = mapOf s d
  live : (getCore t c).live = []
  sealed : (getCore t c).sealedStore = true
  slots : ∀ i < 4, getSlot (getCore t c) i = emptySlot
  held : (getCtx t c).sys.held = 0
  dead : t.deadPhys = physCore s c :: s.deadPhys
  completes : Event.coreMapChangeComplete c ∈ t.agenda
  told : ∀ d ∈ otherInterfaces s c, Event.coreMapUpdateArrive d c ∈ t.agenda

/-- The stores of a killed core (R563, R566). -/
structure SpareStores (spare : Bool) (k : Core) : Prop where
  state : k.state = if spare then .stopped else .killed
  live : k.live = []
  sealed : k.sealedStore = true
  slots : k.slots = Vector.replicate 4 emptySlot
  held : k.ctx.sys.held = 0

theorem spareStores_spareCore (rs : List Region) (fresh serial : Nat) (spare : Bool) (k : Core) :
    SpareStores spare (spareCore rs fresh serial spare k) := ⟨rfl, rfl, rfl, rfl, rfl⟩

theorem held_getCtx (s : State) (c : Nat) : (getCtx s c).sys.held = (getCore s c).ctx.sys.held := rfl

theorem getSlot_empty (i : Nat) {k : Core} (h : k.slots = Vector.replicate 4 emptySlot) : getSlot k i = emptySlot := by
  unfold getSlot
  rw [h]
  by_cases hi : i < 4
  · simp [Vector.getD, hi]
  · simp [Vector.getD, hi]

theorem killed_beginMapChange (hb : (mapOf s c).bound = true) : Killed s c (beginMapChange (coreStopped s c) c) := by
  obtain ⟨rs, fresh, serial, k, hspare⟩ := getCore_stopForGood (coreDead s c) c (spareFree (pairsKilled s c) c)
  have hstores : SpareStores (spareFree s c) (getCore (beginMapChange (coreStopped s c) c) c) := by
    have hcore := getCore_of_cores (beginMapChange_cores (coreStopped s c) c).1 c
    rw [hcore, coreStopped, hspare, ← (mapKept_pairsKilled s c).spareFree]
    exact spareStores_spareCore ..
  have hentry : mapOf (beginMapChange (coreStopped s c) c) c = killedEntry (coreStopped s c) c := by
    unfold mapOf
    rw [beginMapChange_coreMap, tabGet_tabSet_self]
  have hold := mapOf_coreStopped s c c
  have hfree := spareFree_coreStopped hb
  have hagenda := beginMapChange_agenda (coreStopped s c) c
  unfold killedEntry at hentry
  simp only [hold, hfree] at hentry
  constructor
  · exact hstores.state
  · rw [hentry]
    split <;> rfl
  · rw [hentry]
    split
    · next hf => exact hb.trans hf.symm
    · next hf => simpa using hf
  · intro hf
    rw [hentry, if_pos hf]
  · intro d hd
    refine Eq.trans ?_ (mapOf_coreStopped s c d)
    unfold mapOf
    rw [beginMapChange_coreMap, tabGet_tabSet_ne _ _ _ _ _ hd]
  · exact hstores.live
  · exact hstores.sealed
  · exact fun i _ => getSlot_empty i hstores.slots
  · exact (held_getCtx ..).trans hstores.held
  · exact (beginMapChange_cores ..).2.trans (deadPhys_coreStopped s c)
  · rw [hagenda]
    simp
  · intro d hd
    rw [hagenda]
    exact List.mem_append_right _ (List.mem_append_left _ (List.mem_map.2 ⟨d, otherInterfaces_coreStopped hd, rfl⟩))

/-- O50's clauses on an outcome that is a core's kill. -/
theorem kills_of_killCore {o : Host.Outcome State Fault Refusal} (ho : o = killCore s c) :
    ((coreCount ≤ c ∨ (getCore s c).state = .killed ∨ (mapOf s c).bound = false) → o = .next s) ∧
    (c < coreCount → (getCore s c).state ≠ .killed → (mapOf s c).bound = true →
      ((partState s c = .halted ∨ s.mapChanges.any (fun m => m.core == c) = true) → o = .next (push s (.coreKill c))) ∧
      (partState s c ≠ .halted → s.mapChanges.any (fun m => m.core == c) = false → coreOut s c = true → o = .next s) ∧
      (s.mapChanges.any (fun m => m.core == c) = false → coreOut s c = false →
        ∃ t : State, o = .next t ∧
          (getCore t c).state = (if spareFree s c then .stopped else .killed) ∧
          (mapOf t c).egen = (mapOf s c).egen + 1 ∧ (mapOf t c).bound = spareFree s c ∧
          (spareFree s c = true → (mapOf t c).ppos = 16) ∧ (∀ d, d ≠ c → mapOf t d = mapOf s d) ∧
          (getCore t c).live = [] ∧ (getCore t c).sealedStore = true ∧ (∀ i < 4, getSlot (getCore t c) i = emptySlot) ∧
          (getCtx t c).sys.held = 0 ∧ t.deadPhys = physCore s c :: s.deadPhys ∧ Event.coreMapChangeComplete c ∈ t.agenda ∧
          ∀ d ∈ otherInterfaces s c, Event.coreMapUpdateArrive d c ∈ t.agenda)) := by
  subst ho
  refine ⟨killCore_of_gone, fun hc hk hb => ?_⟩
  have hgone : ¬(coreCount ≤ c ∨ (getCore s c).state = .killed ∨ (mapOf s c).bound = false) := by
    rintro (h | h | h)
    · exact Nat.not_le.2 hc h
    · exact hk h
    · exact absurd (h.symm.trans hb) (by decide)
  refine ⟨killCore_of_busy hgone, fun hh hm hout => killCore_of_out hgone (by simp [hh, hm]) hout, fun hm hout => ?_⟩
  have hh : partState s c ≠ .halted := fun h => by simp [coreOut, h] at hout
  have hkilled := killed_beginMapChange hb
  exact ⟨_, killCore_of_live hgone (by simp [hh, hm]) hout, hkilled.state, hkilled.egen, hkilled.bound, hkilled.spare, hkilled.others,
    hkilled.live, hkilled.sealed, hkilled.slots, hkilled.held, hkilled.dead, hkilled.completes, hkilled.told⟩

/-! ### Sectors (R562) -/

theorem poisonSector_of_lt {n : Nat} (cache : Bool) (h : n * 64 < physLimit) :
    poisonSector s cache n =
      { s with badSectors := tabSet s.badSectors n 0, notices := s.notices ++ [(foremanOf (errEngine cache n), Notice.sector n)] } :=
  if_pos h

end

end Sys2Proof.Machine
end

section
/-! O50, the end: what becomes of a killed core's activations once its map change is complete (R312, R508, R509, R565-R567). -/

namespace Sys2Proof.Machine

/-! ### What stays of a core while an activation is settled -/

/-- A core keeps its deque and the activation on it. -/
def Stands (k l : Core) : Prop := l.deque = k.deque ∧ l.ctx.act = k.ctx.act

/-- Every core keeps its deque and the activation on it. -/
def AllStand (s₀ s : State) : Prop := ∀ d, Stands (getCore s₀ d) (getCore s d)

theorem deliver_act (op : Nat) (r : BitVec 5) (v : Word) (x : Ctx) : (deliver op r v x).act = x.act := by
  unfold deliver
  split
  · unfold latchEvt settleMark
    split <;> rfl
  · rfl

theorem stands_latchCore (k : Core) (bits : BitVec 4) : Stands k (latchCore k bits) := by
  refine ⟨rfl, ?_⟩
  unfold latchCore
  dsimp only
  split <;> rfl

theorem stands_coreUpdAct {k l : Core} {serial : Nat} {f : Ctx → Ctx} (hf : ∀ x, (f x).act = x.act) (h : coreUpdAct k serial f = some l) :
    Stands k l := by
  unfold coreUpdAct at h
  split at h
  · cases h
    exact ⟨rfl, hf _⟩
  · split at h
    · split at h
      · cases h
        exact ⟨rfl, rfl⟩
      · cases h
    · cases h

namespace AllStand

section

variable {s₀ s : State}

theorem refl (s : State) : AllStand s s := fun _ => ⟨rfl, rfl⟩

theorem same {t : State} (h : AllStand s₀ s) (hc : t.cores = s.cores) : AllStand s₀ t := fun d => by
  rw [getCore_of_cores hc]
  exact h d

theorem ite {p : Prop} [Decidable p] {t u : State} (ht : AllStand s₀ t) (hu : AllStand s₀ u) : AllStand s₀ (if p then t else u) := by
  split
  · exact ht
  · exact hu

theorem foldl {α : Type} {f : State → α → State} {l : List α} (hf : ∀ t a, AllStand s₀ t → AllStand s₀ (f t a)) (h : AllStand s₀ s) :
    AllStand s₀ (l.foldl f s) := foldl_induction (motive := AllStand s₀) hf h

theorem setCore {c : Nat} {k : Core} (h : AllStand s₀ s) (hk : Stands (getCore s c) k) : AllStand s₀ (setCore s c k) := fun d => by
  by_cases hd : d = c
  · subst hd
    rw [getCore_setCore_self]
    exact ⟨hk.1.trans (h d).1, hk.2.trans (h d).2⟩
  · rw [getCore_setCore_ne _ _ _ _ hd]
    exact h d

theorem modCore {c : Nat} {f : Core → Core} (h : AllStand s₀ s) (hf : ∀ k, Stands k (f k)) : AllStand s₀ (modCore s c f) := h.setCore (hf _)

theorem endOp {n : Nat} {v : Word} (h : AllStand s₀ s) : AllStand s₀ (endOp s n v) := by
  unfold Machine.endOp
  split
  · unfold giveStatus Machine.updAct
    split
    · next hk =>
      have hset := h.setCore (stands_coreUpdAct (deliver_act _ _ _) hk)
      exact hset.same rfl
    · exact h.same rfl
  · exact h

theorem returnUnits {part die units : Nat} (h : AllStand s₀ s) : AllStand s₀ (returnUnits s part die units) := by
  unfold Machine.returnUnits
  refine ite h fun d => ?_
  rcases getCore_wakeLeave (setPool s die { getPool s die with
    used := tabSet (getPool s die).used part (tabGet 0 (getPool s die).used part - units) }) die d with hk | hk
  · show Stands _ (getCore (wakeLeave _ die) d)
    rw [hk]
    exact h d
  · show Stands _ (getCore (wakeLeave _ die) d)
    rw [hk]
    have hlatch := stands_latchCore (getCore s d) 8
    exact ⟨hlatch.1.trans (h d).1, hlatch.2.trans (h d).2⟩

theorem dropWait {die : Nat} {who : LeaveWho} (h : AllStand s₀ s) : AllStand s₀ (dropWait s die who) := h.same rfl

theorem withdrawWaiters {p : KeyReq → Bool} (h : AllStand s₀ s) : AllStand s₀ (withdrawWaiters s p) := by
  refine foldl (fun t r ht => ?_) (h.same rfl)
  unfold recallReq
  split
  · exact ht.same rfl
  · exact ht

theorem dropConts {c g : Nat} (h : AllStand s₀ s) : AllStand s₀ (dropConts s c g) := by
  unfold Machine.dropConts
  exact h.withdrawWaiters.modCore fun _ => ⟨rfl, rfl⟩

theorem dropWaits {c serial : Nat} (h : AllStand s₀ s) : AllStand s₀ (dropWaits s c serial) := by
  unfold Machine.dropWaits
  extract_lets _ _ _ _ _ dropped withdrawn
  have hdropped : AllStand s₀ dropped := foldl (fun _ _ ht => ht.dropWait) h
  have hwithdrawn : AllStand s₀ withdrawn := withdrawWaiters (hdropped.same rfl)
  exact foldl (fun _ _ ht => ht.endOp) hwithdrawn

theorem settleTally {c g : Nat} (h : AllStand s₀ s) : AllStand s₀ (settleTally s c g) := by
  have hmod : AllStand s₀ (Machine.modCore s c (fun k => { k with storeErr := true })) := h.modCore fun _ => ⟨rfl, rfl⟩
  exact ite h (hmod.same rfl)

theorem retire {c g : Nat} (h : AllStand s₀ s) : AllStand s₀ (retire s c g) := by
  unfold Machine.retire
  extract_lets _ settled _ _ gone
  have hsettled : AllStand s₀ settled := h.settleTally.same rfl
  have hgone : AllStand s₀ gone := hsettled.setCore ⟨rfl, rfl⟩
  exact ite hgone (hgone.same rfl)

theorem countEnded {c : Nat} (h : AllStand s₀ s) : AllStand s₀ (countEnded s c) := h.modCore fun _ => ⟨rfl, rfl⟩

theorem settleAct {c : Nat} {x : Ctx} {failed counts : Bool} (h : AllStand s₀ s) : AllStand s₀ (settleAct s c x failed counts) := by
  unfold Machine.settleAct
  extract_lets _ _ _ _ _ cleared orphaned retired
  have hcleared : AllStand s₀ cleared := h.returnUnits.dropWait.dropWait.dropWaits
  have horphaned : AllStand s₀ orphaned := ite hcleared.dropConts hcleared
  have hretired : AllStand s₀ retired := ite horphaned.retire horphaned
  exact ite hretired.countEnded hretired

theorem markLost {c : Nat} (h : AllStand s₀ s) : AllStand s₀ (markLost s c) := h.modCore fun _ => ⟨rfl, rfl⟩

end

end AllStand

section

variable {s t : State} {c : Nat}

/-! ### The steps of the map change's end -/

/-- A core's debts to multicasts change nothing of a core but the counters of its live names (R312). -/
theorem getCore_freeDebts_field {α : Type} {g : Core → α} (hg : ∀ k l, g { k with live := l } = g k) (s : State) (c d : Nat) :
    g (getCore (freeDebts s c) d) = g (getCore s d) := by
  have hcount : ∀ (fuel name : Nat) (t : State), g (getCore (countFreed t name fuel) d) = g (getCore t d) := by
    intro fuel name
    induction fuel with
    | zero => exact fun _ => rfl
    | succ f ih =>
      intro t
      unfold countFreed
      split
      · rfl
      · split
        · next o m _ _ =>
          refine (ih _).trans ?_
          unfold raiseXfree
          exact getCore_modCore_field (dropOp t o.id) _ d fun k => hg k _
        · rfl
  unfold freeDebts
  exact foldl_induction (motive := fun t => g (getCore t d) = g (getCore s d)) (fun t name ht => (hcount _ name t).trans ht) rfl

theorem getCore_failDelivered_field {α : Type} {g : Core → α}
    (hg : ∀ k aq ended norst fault, g { k with aq := aq, ended := ended, norstErr := norst, faultErr := fault } = g k) (s : State) (c : Nat) :
    g (getCore (failDelivered s c) c) = g (getCore s c) := by
  have hended (t : State) : g (getCore (countEnded t c) c) = g (getCore t c) :=
    getCore_modCore_field t c c fun k => hg k k.aq (k.ended + 1) k.norstErr k.faultErr
  unfold failDelivered
  extract_lets k isC n emptied
  have hset : g (getCore emptied c) = g (getCore s c) := by
    have hcore : getCore emptied c = { k with aq := k.aq.map (fun e => if isC e then .free else e) } := getCore_setCore_self ..
    rw [hcore]
    exact hg k (k.aq.map (fun e => if isC e then .free else e)) k.ended k.norstErr k.faultErr
  split
  · exact hset
  · refine (getCore_modCore_field _ c c fun k => hg k k.aq k.ended true true).trans ?_
    exact foldl_induction (motive := fun t => g (getCore t c) = g (getCore s c)) (fun t _ ht => (hended t).trans ht) hset

/-- An activation that has been lost is reported by the next wave word. -/
def Lost (k : Core) : Prop := k.norstErr = true ∧ k.faultErr = true

theorem lost_failDelivered (h : Lost (getCore s c)) : Lost (getCore (failDelivered s c) c) := by
  unfold failDelivered
  extract_lets k isC n emptied
  split
  · have hcore : getCore emptied c = { k with aq := k.aq.map (fun e => if isC e then .free else e) } := getCore_setCore_self ..
    rw [hcore]
    exact h
  · unfold markLost
    rw [getCore_modCore_self]
    exact ⟨rfl, rfl⟩

/-- The state in which the activations of a killed core have left it, before they are handled. -/
def actsOut (s : State) (c : Nat) : State :=
  modCore s c (fun k => { k with ctx := { idleCtx k.ctx with acc := (getCore s c).ctx.acc }, susp := none })

theorem handleActs_of_single (spare : Bool) (h : (getCore s c).susp = none) :
    handleActs s c spare = (handleAct (actsOut s c) c (getCore s c).ctx spare).1 := by
  unfold handleActs
  simp only [h]
  rfl

theorem actsOut_act (s : State) (c : Nat) : (getCore (actsOut s c) c).ctx.act = none := by
  unfold actsOut
  rw [getCore_modCore_self]
  rfl

theorem deque_actsOut (s : State) (c : Nat) : (getCore (actsOut s c) c).deque = (getCore s c).deque :=
  getCore_modCore_field s c c fun _ => rfl

theorem deque_handleAct (s : State) (c : Nat) (x : Ctx) : (getCore (handleAct s c x false).1 c).deque = (getCore s c).deque := by
  unfold handleAct
  split
  · rfl
  · split
    · exact ((AllStand.refl s).settleAct.markLost c).1
    · exact ((AllStand.refl s).dropConts c).1

theorem handleAct_without_spare (s : State) (c : Nat) (x : Ctx) : (handleAct s c x false).2 = false := by
  unfold handleAct
  split
  · rfl
  · split <;> rfl

theorem deque_handleActs (s : State) (c : Nat) : (getCore (handleActs s c false) c).deque = (getCore s c).deque := by
  have hfirst : (getCore (handleAct (actsOut s c) c (getCore s c).ctx false).1 c).deque = (getCore s c).deque :=
    (deque_handleAct ..).trans (deque_actsOut s c)
  cases hsusp : (getCore s c).susp with
  | none => rwa [handleActs_of_single false hsusp]
  | some y =>
    have hnone : (handleAct (actsOut s c) c (getCore s c).ctx false).2 = false := handleAct_without_spare ..
    unfold actsOut at hfirst hnone
    unfold handleActs
    simp only [hsusp, hnone, Bool.not_false, if_true]
    refine (deque_handleAct _ c y).trans ((?_ : _ = _).trans hfirst)
    exact getCore_modCore_field (g := Core.deque) _ c c fun _ => rfl

/-! ### The map change's end -/

/-- The state once a killed core's map change is over and its debts are paid. -/
def changeOver (s : State) (c : Nat) : State := freeDebts { s with mapChanges := s.mapChanges.filter (fun n => n.core != c) } c

theorem getCore_changeOver_field {α : Type} {g : Core → α} (hg : ∀ k l, g { k with live := l } = g k) (s : State) (c : Nat) :
    g (getCore (changeOver s c) c) = g (getCore s c) :=
  getCore_freeDebts_field hg { s with mapChanges := s.mapChanges.filter (fun n => n.core != c) } c c

/-- The state once its activations and its delivered continuations have been handled. -/
def actsHandled (s : State) (c : Nat) (spare : Bool) : State := failDelivered (handleActs (changeOver s c) c spare) c

/-- A core as it goes on, on its spare. -/
def onSpareCore (runs : Bool) (k : Core) : Core :=
  { k with sealedStore := false, state := if runs then .running else .idle, stop := .none }

/-- The state in which a core goes on, on its spare. -/
def onSpare (s : State) (c : Nat) : State :=
  push (modCore s c (onSpareCore (getCtx s c).act.isSome)) (if (getCtx s c).act.isSome then .urgentPreempt c else .activationChoose c)

/-- The state in which what a core without a spare retains has gone to the distributor. -/
def withoutSpare (s : State) (c : Nat) : State := handOver (modCore s c (fun k => { k with state := .killed })) c

theorem exec_changeComplete_of_none (h : s.mapChanges.find? (fun m => m.core == c) = none) :
    exec (.coreMapChangeComplete c) s = .next s := by
  show execCoreMapChangeComplete c s = _
  unfold execCoreMapChangeComplete
  rw [h]
  rfl

section

variable {m : MapChange} (h : s.mapChanges.find? (fun m => m.core == c) = some m)
include h

theorem exec_changeComplete_of_waiting (hw : m.waiting ≠ [] ∨ s.accs.any (fun a => a.core == c) = true) :
    exec (.coreMapChangeComplete c) s = .next (push s (.coreMapChangeComplete c)) := by
  have hstays : (!m.waiting.isEmpty || s.accs.any (fun a => a.core == c) ||
      (!(mapOf s c).bound && (getCore s c).deque.any (fun e => e.reserved.isSome))) = true := by
    rcases hw with h | h <;> simp [h]
  show execCoreMapChangeComplete c s = _
  unfold execCoreMapChangeComplete
  simp only [h, hstays, if_true]
  rfl

theorem exec_changeComplete_of_spare (hw : m.waiting = []) (ha : s.accs.any (fun a => a.core == c) = false) (hb : (mapOf s c).bound = true) :
    exec (.coreMapChangeComplete c) s = .next (onSpare (actsHandled s c true) c) := by
  have hgoes : (!m.waiting.isEmpty || s.accs.any (fun a => a.core == c) ||
      (!true && (getCore s c).deque.any (fun e => e.reserved.isSome))) = false := by simp [hw, ha]
  show execCoreMapChangeComplete c s = _
  unfold execCoreMapChangeComplete
  simp only [h, hb, hgoes]
  rfl

theorem exec_changeComplete_without_spare (hw : m.waiting = []) (ha : s.accs.any (fun a => a.core == c) = false)
    (hb : (mapOf s c).bound = false) (hr : (getCore s c).deque.any (fun e => e.reserved.isSome) = false) :
    exec (.coreMapChangeComplete c) s = .next (withoutSpare (actsHandled s c false) c) := by
  have hgoes : (!m.waiting.isEmpty || s.accs.any (fun a => a.core == c) ||
      (!false && (getCore s c).deque.any (fun e => e.reserved.isSome))) = false := by simp [hw, ha, hr]
  show execCoreMapChangeComplete c s = _
  unfold execCoreMapChangeComplete
  simp only [h, hb, hgoes]
  rfl

end

/-! ### On the spare (R565) -/

theorem getCore_onSpare (s : State) (c : Nat) : getCore (onSpare s c) c = onSpareCore (getCtx s c).act.isSome (getCore s c) :=
  getCore_modCore_self s c _

theorem ctx_onSpare (s : State) (c : Nat) : getCtx (onSpare s c) c = (getCore s c).ctx := by
  show (getCore (onSpare s c) c).ctx = _
  rw [getCore_onSpare]
  rfl

theorem ctx_actsHandled (s : State) (c : Nat) (spare : Bool) :
    (getCore (actsHandled s c spare) c).ctx = (getCore (handleActs (changeOver s c) c spare) c).ctx :=
  getCore_failDelivered_field (g := Core.ctx) (fun _ _ _ _ _ => rfl) ..

theorem ctx_changeOver (s : State) (c : Nat) : (getCore (changeOver s c) c).ctx = (getCore s c).ctx :=
  getCore_changeOver_field (g := Core.ctx) (fun _ _ => rfl) ..

theorem handleActs_changeOver (spare : Bool) (h : (getCore s c).susp = none) :
    handleActs (changeOver s c) c spare = (handleAct (actsOut (changeOver s c) c) c (getCore s c).ctx spare).1 := by
  have hsusp : (getCore (changeOver s c) c).susp = none := (getCore_changeOver_field (g := Core.susp) (fun _ _ => rfl) ..).trans h
  rw [handleActs_of_single spare hsusp, ctx_changeOver]

/-- A core that stands on its spare with no activation is free to choose. -/
theorem onSpare_without_act (h : (getCore s c).ctx.act = none) :
    (getCore (onSpare s c) c).state = .idle ∧ (getCore (onSpare s c) c).sealedStore = false ∧
      Event.activationChoose c ∈ (onSpare s c).agenda := by
  have hruns : (getCtx s c).act.isSome = false := congrArg Option.isSome h
  rw [getCore_onSpare]
  refine ⟨by rw [hruns]; rfl, rfl, ?_⟩
  unfold onSpare
  rw [hruns]
  exact List.mem_append_right _ (List.mem_singleton.2 rfl)

theorem act_actsHandled_of_none (hs : (getCore s c).susp = none) (ha : (getCore s c).ctx.act = none) :
    (getCore (actsHandled s c true) c).ctx.act = none := by
  rw [ctx_actsHandled, handleActs_changeOver true hs]
  unfold handleAct
  rw [ha]
  exact actsOut_act ..

/-- A context in which an activation starts again from its record (R565). -/
structure Restarted (a : Activation) (x : Ctx) : Prop where
  act : ∃ b : Activation, x.act = some b ∧ b.record = a.record ∧ b.kind = a.kind
  restart : x.sys.restart = true
  pc : x.pc = BitVec.ofNat 64 (4 * 2 ^ 60 + a.record.entry.toNat)

theorem restarted_restartAct (s : State) (c : Nat) (a : Activation) : Restarted a (getCore (restartAct s c a true) c).ctx := by
  have hcore := getCore_setCore_self s c { assignGen (getCore s c) with
    state := .running, stop := .none,
    ctx := startCtx (assignGen (getCore s c)) c s.nextId s.fresh
      { kind := a.kind, record := a.record, t15 := none, pair := none, restart := true, gen := (assignGen (getCore s c)).genCounter.toNat,
        msgIdx := sentSoFar s none } }
  have hctx : (getCore (restartAct s c a true) c).ctx = startCtx (assignGen (getCore s c)) c s.nextId s.fresh
      { kind := a.kind, record := a.record, t15 := none, pair := none, restart := true, gen := (assignGen (getCore s c)).genCounter.toNat,
        msgIdx := sentSoFar s none } := congrArg Core.ctx hcore
  rw [hctx]
  exact ⟨⟨_, rfl, rfl, rfl⟩, rfl, rfl⟩

/-- An activation that has not committed runs again on the spare. -/
theorem restarted_actsHandled {a : Activation} (hs : (getCore s c).susp = none) (ha : (getCore s c).ctx.act = some a) (hc : a.commit = false) :
    Restarted a (getCore (actsHandled s c true) c).ctx := by
  rw [ctx_actsHandled, handleActs_changeOver true hs]
  unfold handleAct
  rw [ha]
  simp only [hc]
  exact restarted_restartAct ..

/-- An activation that has committed fails (R546, R565). -/
theorem failed_actsHandled {a : Activation} (hs : (getCore s c).susp = none) (ha : (getCore s c).ctx.act = some a) (hc : a.commit = true) :
    (getCore (actsHandled s c true) c).ctx.act = none ∧ Lost (getCore (actsHandled s c true) c) := by
  have hhandled : handleActs (changeOver s c) c true = markLost (settleAct (actsOut (changeOver s c) c) c (getCore s c).ctx true true) c := by
    rw [handleActs_changeOver true hs]
    unfold handleAct
    rw [ha]
    simp only [hc]
    rfl
  refine ⟨?_, lost_failDelivered ?_⟩
  · rw [ctx_actsHandled, hhandled]
    exact ((AllStand.refl _).settleAct.markLost c).2.trans (actsOut_act ..)
  · rw [hhandled, markLost, getCore_modCore_self]
    exact ⟨rfl, rfl⟩

/-! ### Without a spare (R567) -/

theorem rootWaits_foldl_awaitRoot (rs : List WorkRec) (s : State) :
    (∀ w ∈ s.rootWaits, w ∈ (rs.foldl (fun u r => awaitRoot u r false) s).rootWaits) ∧
      ∀ r ∈ rs, ∃ w ∈ (rs.foldl (fun u r => awaitRoot u r false) s).rootWaits, w.record = r := by
  induction rs generalizing s with
  | nil => exact ⟨fun _ h => h, fun _ h => absurd h (by simp)⟩
  | cons r rs ih =>
    obtain ⟨hkeep, hnew⟩ := ih (awaitRoot s r false)
    rw [awaitRoot_rootWaits] at hkeep
    refine ⟨fun w hw => hkeep w (List.mem_append_left _ hw), fun q hq => ?_⟩
    rcases List.mem_cons.1 hq with rfl | hq
    · exact ⟨_, hkeep _ (List.mem_append_right _ (List.mem_singleton.2 rfl)), rfl⟩
    · exact hnew q hq

theorem cores_foldl_awaitRoot (rs : List WorkRec) (s : State) : (rs.foldl (fun u r => awaitRoot u r false) s).cores = s.cores :=
  foldl_induction (motive := fun t : State => t.cores = s.cores) (fun _ _ ht => ht) rfl

/-- What a core without a spare retains goes to the distributor, and nothing of it stays. -/
theorem handOver_hands (s : State) (c : Nat) :
    getCore (handOver s c) c = { getCore s c with deque := [], aq := Vector.replicate 16 .free, urgents := [] } ∧
      ∀ e ∈ (getCore s c).deque, ∃ w ∈ (handOver s c).rootWaits, w.record = e.record := by
  unfold handOver
  extract_lets k rs emptied n dropped counted awaited
  have hcounted : counted.cores = emptied.cores := by
    show (if n = 0 then dropped else count dropped .urgentDrops n).cores = _
    split <;> rfl
  have hcores : awaited.cores = emptied.cores := (cores_foldl_awaitRoot rs counted).trans hcounted
  have hcore : getCore awaited c = { k with deque := [], aq := Vector.replicate 16 .free, urgents := [] } :=
    (getCore_of_cores hcores c).trans (getCore_setCore_self ..)
  have hwaits : ∀ e ∈ k.deque, ∃ w ∈ awaited.rootWaits, w.record = e.record := fun e he =>
    (rootWaits_foldl_awaitRoot rs counted).2 e.record
      (List.mem_append_left _ (List.mem_map.2 ⟨e, List.mem_reverse.2 he, rfl⟩))
  split
  · exact ⟨hcore, hwaits⟩
  · exact ⟨hcore, hwaits⟩

theorem withoutSpare_hands (s : State) (c : Nat) :
    (getCore (withoutSpare s c) c).state = .killed ∧ (getCore (withoutSpare s c) c).deque = [] ∧
      (getCore (withoutSpare s c) c).urgents = [] ∧ ∀ e ∈ (getCore s c).deque, ∃ w ∈ (withoutSpare s c).rootWaits, w.record = e.record := by
  obtain ⟨hcore, hwaits⟩ := handOver_hands (modCore s c (fun k => { k with state := .killed })) c
  rw [getCore_modCore_self] at hcore hwaits
  unfold withoutSpare
  exact ⟨by rw [hcore], by rw [hcore], by rw [hcore], hwaits⟩

theorem deque_actsHandled (s : State) (c : Nat) : (getCore (actsHandled s c false) c).deque = (getCore s c).deque :=
  (getCore_failDelivered_field (g := Core.deque) (fun _ _ _ _ _ => rfl) ..).trans
    ((deque_handleActs ..).trans (getCore_changeOver_field (g := Core.deque) (fun _ _ => rfl) ..))

/-! ### The statement -/

/-- O50's clauses on a map change that is complete. -/
theorem changeComplete_handles {m : MapChange} (h : s.mapChanges.find? (fun m => m.core == c) = some m) (hw : m.waiting = [])
    (hacc : s.accs.any (fun a => a.core == c) = false) :
    ((mapOf s c).bound = true → (getCore s c).susp = none →
      ((getCore s c).ctx.act = none →
        ∃ t : State, exec (.coreMapChangeComplete c) s = .next t ∧ (getCore t c).state = .idle ∧ (getCore t c).sealedStore = false ∧
          Event.activationChoose c ∈ t.agenda) ∧
      (∀ a, (getCore s c).ctx.act = some a → a.commit = false →
        ∃ (t : State) (b : Activation), exec (.coreMapChangeComplete c) s = .next t ∧ (getCore t c).state = .running ∧
          (getCtx t c).act = some b ∧ b.record = a.record ∧ b.kind = a.kind ∧ (getCtx t c).sys.restart = true ∧
          (getCtx t c).pc = BitVec.ofNat 64 (4 * 2 ^ 60 + a.record.entry.toNat)) ∧
      (∀ a, (getCore s c).ctx.act = some a → a.commit = true →
        ∃ t : State, exec (.coreMapChangeComplete c) s = .next t ∧ (getCore t c).state = .idle ∧ (getCore t c).norstErr = true ∧
          (getCore t c).faultErr = true)) ∧
    ((mapOf s c).bound = false → (getCore s c).deque.any (fun e => e.reserved.isSome) = false →
      ∃ t : State, exec (.coreMapChangeComplete c) s = .next t ∧ (getCore t c).state = .killed ∧ (getCore t c).deque = [] ∧
        (getCore t c).urgents = [] ∧ ∀ e ∈ (getCore s c).deque, ∃ w ∈ t.rootWaits, w.record = e.record) := by
  refine ⟨fun hb hs => ⟨fun ha => ?_, fun a ha hc => ?_, fun a ha hc => ?_⟩, fun hb hr => ?_⟩
  · exact ⟨_, exec_changeComplete_of_spare h hw hacc hb, onSpare_without_act (act_actsHandled_of_none hs ha)⟩
  · obtain ⟨⟨b, hb', hrec, hkind⟩, hrestart, hpc⟩ := restarted_actsHandled hs ha hc
    have hruns : (getCtx (actsHandled s c true) c).act.isSome = true := congrArg Option.isSome hb'
    have hctx := ctx_onSpare (actsHandled s c true) c
    refine ⟨_, b, exec_changeComplete_of_spare h hw hacc hb, ?_, hctx ▸ hb', hrec, hkind, hctx ▸ hrestart, hctx ▸ hpc⟩
    rw [getCore_onSpare, hruns]
    rfl
  · obtain ⟨hnone, hnorst, hfault⟩ := failed_actsHandled hs ha hc
    refine ⟨_, exec_changeComplete_of_spare h hw hacc hb, (onSpare_without_act hnone).1, ?_⟩
    rw [getCore_onSpare]
    exact ⟨hnorst, hfault⟩
  · have hhands := withoutSpare_hands (actsHandled s c false) c
    rw [deque_actsHandled] at hhands
    exact ⟨_, exec_changeComplete_without_spare h hw hacc hb hr, hhands⟩

end

/-- Settles O50. A kill waits while the core's partition is being halted or its last map change is under way, and the records of a core
without a spare go to the distributor as log 63 has it. -/
theorem killedCores : Obligations.KilledCores := by
  unfold Obligations.KilledCores
  refine fun s c ni n => ⟨kills_of_killCore rfl, fun hw => kills_of_killCore (if_neg (by simp [hw])), fun hw => if_pos hw,
    fun hn => ⟨congrArg _ (poisonSector_of_lt false hn), congrArg _ (poisonSector_of_lt true hn)⟩, ⟨_, rfl, fun m hm hcore => ?_⟩,
    exec_changeComplete_of_none, fun m hm => ⟨fun hw => exec_changeComplete_of_waiting hm (.inl hw),
    fun ha => exec_changeComplete_of_waiting hm (.inr ha), fun hw ha => changeComplete_handles hm hw ha⟩⟩
  obtain ⟨k, -, rfl⟩ := List.mem_map.1 hm
  split at hcore
  · next hk =>
    rw [if_pos hk]
    simp
  · next hk => exact absurd hcore hk

end Sys2Proof.Machine
end

section
/-! O47: bring-up, image checks, heartbeats, replacement and attestation (R399, R400, R570-R576). -/

namespace Sys2Proof.Machine

section

variable {s t u : State} {b o : FwBlock} {f : FwState} {img : Image}

/-! ### Firmware states -/

/-- Firmware states with those of a block changed. -/
def changedFw (b : FwBlock) (g : FwState → FwState) (l : List FwState) : List FwState := l.map (fun x => if x.blk = b then g x else x)

theorem find_changedFw {g : FwState → FwState} (hg : ∀ x, (g x).blk = x.blk) (l : List FwState) :
    (changedFw b g l).find? (fun x => x.blk == b) = (l.find? (fun x => x.blk == b)).map g := by
  induction l with
  | nil => rfl
  | cons x xs ih =>
    by_cases hx : x.blk = b
    · simp [changedFw, hx, hg]
    · simpa [changedFw, hx] using ih

theorem find_changedFw_ne {g : FwState → FwState} (hg : ∀ x, (g x).blk = x.blk) (ho : o ≠ b) (l : List FwState) :
    (changedFw b g l).find? (fun x => x.blk == o) = l.find? (fun x => x.blk == o) := by
  induction l with
  | nil => rfl
  | cons x xs ih =>
    by_cases hx : x.blk = b
    · have hbo : ¬b = o := fun h => ho h.symm
      simpa [changedFw, hx, hg, hbo] using ih
    · by_cases hxo : x.blk = o
      · simp [changedFw, hxo, ho]
      · simpa [changedFw, hx, hxo] using ih

theorem findFw_modFw {g : FwState → FwState} (hg : ∀ x, (g x).blk = x.blk) (h : findFw s b = some f) : findFw (modFw s b g) b = some (g f) :=
  (find_changedFw hg s.firmware).trans (congrArg (Option.map g) h)

theorem findFw_modFw_ne {g : FwState → FwState} (hg : ∀ x, (g x).blk = x.blk) (ho : o ≠ b) : findFw (modFw s b g) o = findFw s o :=
  find_changedFw_ne hg ho s.firmware

theorem fwIs_of_findFw (h : findFw s b = some f) (st : BlockState) : fwIs s b st = (f.state == st) := by
  unfold fwIs
  rw [h]
  rfl

theorem acceptsImage_iff : acceptsImage s b img = true ↔
    img.magic = imageMagic ∧ img.target = fwTarget b ∧ img.digestOk = true ∧ img.sigOk = true ∧
      tabGet 0 s.minSvn (fwTarget b) ≤ img.svn := by
  simp [acceptsImage, and_assoc]

/-! ### Stages (R572) -/

/-- Nothing but the agenda, the firmware states and the leave pools changes; no event is taken away, and a firmware state that changes is
a failure. -/
structure StageOnly (s t : State) : Prop where
  only : t = { s with agenda := t.agenda, firmware := t.firmware, pools := t.pools }
  agenda : ∀ e ∈ s.agenda, e ∈ t.agenda
  firmware : ∀ p ∈ t.firmware, p ∈ s.firmware ∨ p.state = .failed

theorem StageOnly.refl (s : State) : StageOnly s s := ⟨rfl, fun _ h => h, fun _ h => .inl h⟩

theorem StageOnly.trans (h : StageOnly s t) (g : StageOnly t u) : StageOnly s u := by
  refine ⟨?_, fun e he => g.agenda e (h.agenda e he), fun p hp => (g.firmware p hp).elim (h.firmware p) .inr⟩
  have hu := g.only
  rw [h.only] at hu
  exact hu

theorem StageOnly.field {α : Type} (h : StageOnly s t) (g : State → α)
    (hg : ∀ u ag fw ps, g { u with agenda := ag, firmware := fw, pools := ps } = g u) : g t = g s := by
  rw [h.only, hg]

theorem stageOnly_modFw_failed (s : State) (b : FwBlock) : StageOnly s (modFw s b (fun f => { f with state := .failed })) := by
  refine ⟨rfl, fun _ h => h, fun p hp => ?_⟩
  obtain ⟨x, hx, rfl⟩ := List.mem_map.1 hp
  split
  · exact .inr rfl
  · exact .inl hx

theorem stageOnly_failBlock (s : State) (b : FwBlock) : StageOnly s (failBlock s b) := by
  have h := stageOnly_modFw_failed s b
  unfold failBlock
  cases b with
  | foreman d => exact ⟨rfl, h.agenda, h.firmware⟩
  | frontEnd => exact h
  | stackEngine k => exact h

theorem stageOnly_push (s : State) (e : Event) : StageOnly s (push s e) := ⟨rfl, fun _ h => List.mem_append_left _ h, fun _ h => .inl h⟩

theorem stageOnly_verifyBlock (s : State) (b : FwBlock) : StageOnly s (verifyBlock s b) := by
  unfold verifyBlock
  split
  · exact stageOnly_push ..
  · exact stageOnly_failBlock ..

theorem stageOnly_verifyAll (bs : List FwBlock) (s : State) : StageOnly s (bs.foldl verifyBlock s) :=
  foldl_induction (motive := StageOnly s) (fun t b ht => ht.trans (stageOnly_verifyBlock t b)) (.refl s)

theorem stageOnly_startStage (s : State) (bs : List FwBlock) : StageOnly s (startStage s bs) := stageOnly_verifyAll ..

theorem stageOnly_advanceStages (stages : List (List FwBlock)) (s : State) : StageOnly s (advanceStages s stages) := by
  induction stages generalizing s with
  | nil => exact .refl s
  | cons bs r ih =>
    unfold advanceStages
    dsimp only
    split
    · exact (stageOnly_startStage s bs).trans (ih _)
    · exact stageOnly_startStage s bs

/-- What a stage begins stays through the stages behind it. -/
theorem stageOnly_stages_cons (s : State) (bs : List FwBlock) (r : List (List FwBlock)) :
    StageOnly (startStage s bs) (advanceStages s (bs :: r)) := by
  show StageOnly (startStage s bs) (if bs.all (fwSettled (startStage s bs)) then advanceStages (startStage s bs) r else startStage s bs)
  split
  · exact stageOnly_advanceStages ..
  · exact .refl _

theorem flashImage_stageOnly (h : StageOnly s t) (b : FwBlock) : flashImage t b = flashImage s b := h.field (flashImage · b) fun _ _ _ _ => rfl

/-- Every block of a list that has an image in flash is sent to its check. -/
theorem verifyAll_sends {i : Image} (bs : List FwBlock) (s : State) (hb : b ∈ bs) (hi : flashImage s b = some i) :
    Event.imageVerify b i ∈ (bs.foldl verifyBlock s).agenda := by
  induction bs generalizing s with
  | nil => cases hb
  | cons a bs ih =>
    rw [List.foldl_cons]
    rcases List.mem_cons.1 hb with rfl | hb
    · refine (stageOnly_verifyAll bs _).agenda _ ?_
      unfold verifyBlock
      rw [hi]
      exact List.mem_append_right _ (List.mem_singleton.2 rfl)
    · exact ih _ hb ((flashImage_stageOnly (stageOnly_verifyBlock s a) b).trans hi)

theorem findFw_failBlock_ne (ho : o ≠ b) : findFw (failBlock s b) o = findFw s o := by
  have h : findFw (modFw s b (fun f => { f with state := .failed })) o = findFw s o := findFw_modFw_ne (fun _ => rfl) ho
  unfold failBlock
  cases b <;> exact h

theorem findFw_failBlock (h : findFw s b = some f) : findFw (failBlock s b) b = some { f with state := .failed } := by
  have hmod := findFw_modFw (s := s) (g := fun f => { f with state := .failed }) (fun _ => rfl) h
  unfold failBlock
  cases b <;> exact hmod

theorem findFw_verifyBlock_ne (ho : o ≠ b) : findFw (verifyBlock s b) o = findFw s o := by
  unfold verifyBlock
  split
  · rfl
  · exact findFw_failBlock_ne ho

theorem findFw_verifyAll_of_not_mem (bs : List FwBlock) (s : State) (hb : b ∉ bs) : findFw (bs.foldl verifyBlock s) b = findFw s b := by
  induction bs generalizing s with
  | nil => rfl
  | cons a bs ih =>
    simp only [List.mem_cons, not_or] at hb
    obtain ⟨hba, hbs⟩ := hb
    exact (ih _ hbs).trans (findFw_verifyBlock_ne hba)

/-- A stage leaves the block that is not held in reset. -/
theorem findFw_startStage (h : findFw s b = some f) (hf : f.state ≠ .held) (bs : List FwBlock) : findFw (startStage s bs) b = some f := by
  refine (findFw_verifyAll_of_not_mem _ s fun hmem => ?_).trans h
  have hany := (List.mem_filter.1 hmem).2
  simp [h, hf] at hany

theorem findFw_advanceStages (h : findFw s b = some f) (hf : f.state ≠ .held) (stages : List (List FwBlock)) :
    findFw (advanceStages s stages) b = some f := by
  induction stages generalizing s with
  | nil => exact h
  | cons bs r ih =>
    have hstage := findFw_startStage h hf bs
    unfold advanceStages
    dsimp only
    split
    · exact ih hstage
    · exact hstage

/-! ### Power on (R570, R572) -/

/-- A block as it is after power on. -/
def heldBlock (b : FwBlock) : FwState := { blk := b, state := .held, measurement := 0, svn := 0, missed := 0 }

/-- The state after power on, before the first stage begins. -/
def poweredOn (s : State) (flash : List FlashImage) : State :=
  { State.reset with
    fresh := s.fresh, nextId := s.nextId, turn := s.turn, agenda := s.agenda, focus := s.focus, remote := s.remote, minSvn := s.minSvn,
    flash := flash, firmware := fwStages.flatten.map heldBlock }

theorem find_heldBlock {bs : List FwBlock} (hb : b ∈ bs) : (bs.map heldBlock).find? (fun f => f.blk == b) = some (heldBlock b) := by
  induction bs with
  | nil => cases hb
  | cons a bs ih =>
    by_cases ha : a = b
    · subst ha
      simp [heldBlock]
    · have hmem : b ∈ bs := (List.mem_cons.1 hb).resolve_left fun h => ha h.symm
      simpa [heldBlock, ha] using ih hmem

theorem powerOn_holds (s : State) (flash : List FlashImage) :
    ∃ t : State, exec (.powerOn flash) s = .next t ∧ t.minSvn = s.minSvn ∧ t.remote = s.remote ∧ t.flash = flash ∧
      (∀ p ∈ t.firmware, p.state = .held ∨ p.state = .failed) ∧ (∀ c, (getCore t c).state = .reset) ∧
      (∀ d i, d < 24 → flashImage t (.foreman d) = some i → Event.imageVerify (.foreman d) i ∈ t.agenda) := by
  have hall := stageOnly_advanceStages fwStages (poweredOn s flash)
  refine ⟨_, rfl, hall.field State.minSvn fun _ _ _ _ => rfl, hall.field State.remote fun _ _ _ _ => rfl,
    hall.field State.flash fun _ _ _ _ => rfl, fun p hp => (hall.firmware p hp).imp (fun h => ?_) id, fun c => ?_, fun d i hd hi => ?_⟩
  · obtain ⟨b, -, rfl⟩ := List.mem_map.1 h
    rfl
  · have hcores : (advanceStages (poweredOn s flash) fwStages).cores = [] := hall.field State.cores fun _ _ _ _ => rfl
    have hcore : getCore (advanceStages (poweredOn s flash) fwStages) c = resetCore := by
      unfold getCore
      rw [hcores]
      rfl
    exact congrArg Core.state hcore
  · have hmem : FwBlock.foreman d ∈ (List.range 24).map FwBlock.foreman := List.mem_map.2 ⟨d, List.mem_range.2 hd, rfl⟩
    have hfind : findFw (poweredOn s flash) (.foreman d) = some (heldBlock (.foreman d)) :=
      find_heldBlock (List.mem_flatten.2 ⟨_, List.mem_cons_self .., hmem⟩)
    have hi' : flashImage (poweredOn s flash) (.foreman d) = some i := (flashImage_stageOnly hall _).symm.trans hi
    refine (stageOnly_stages_cons (poweredOn s flash) _ _).agenda _ (verifyAll_sends _ _ (List.mem_filter.2 ⟨hmem, ?_⟩) hi')
    simp [hfind, heldBlock]

/-! ### Image checks (R571, R572) -/

theorem imageVerify_of_unheld (h : findFw s b = some f) (hf : f.state ≠ .held) : exec (.imageVerify b img) s = .next s :=
  if_pos (by simp [fwIs_of_findFw h, hf])

/-- A block once its image has passed every check. -/
def acceptedBlock (img : Image) (f : FwState) : FwState := { f with state := .accepted, measurement := img.digest, svn := img.svn }

theorem imageVerify_of_accepted (h : findFw s b = some f) (hf : f.state = .held) (ha : acceptsImage s b img = true) :
    exec (.imageVerify b img) s = .next (push (modFw s b (acceptedBlock img)) (.blockReady b)) :=
  (if_neg (by simp [fwIs_of_findFw h, hf])).trans (if_pos ha)

theorem imageVerify_of_refused (h : findFw s b = some f) (hf : f.state = .held) (ha : acceptsImage s b img = false) :
    exec (.imageVerify b img) s = .next (advanceStages (failBlock s b) fwStages) :=
  (if_neg (by simp [fwIs_of_findFw h, hf])).trans (if_neg (by simp [ha]))

theorem findFw_resumeFront (s : State) (b : FwBlock) : findFw (resumeFront s) b = findFw s b := rfl

/-- A block once its firmware has reported ready. -/
def readyBlock (f : FwState) : FwState := { f with state := .ready, missed := 0 }

theorem blockReady_unlocks (h : findFw s b = some f) (hf : f.state = .accepted) :
    ∃ (t : State) (g : FwState), exec (.blockReady b) s = .next t ∧ findFw t b = some g ∧ g.state = .ready ∧ g.missed = 0 := by
  have hmod := findFw_modFw (s := s) (g := readyBlock) (fun _ => rfl) h
  have hfind := findFw_advanceStages hmod (by simp [readyBlock]) fwStages
  refine ⟨_, readyBlock f, if_neg (by simp [fwIs_of_findFw h, hf]), ?_, rfl, rfl⟩
  split
  · exact (findFw_resumeFront ..).trans hfind
  · exact hfind

/-! ### Heartbeats (R574) -/

theorem heartbeat_of_answered (h : findFw s b = some f) (hf : f.state = .ready) :
    exec (.heartbeat b true) s = .next (modFw s b (fun x => { x with missed := 0 })) := by
  show execHeartbeat b true s = _
  unfold execHeartbeat
  simp only [h, hf]
  rfl

theorem heartbeat_of_missed (h : findFw s b = some f) (hf : f.state = .ready) :
    exec (.heartbeat b false) s = .next (if 2 ≤ f.missed + 1 then push (modFw s b (fun x => { x with missed := x.missed + 1 }))
      (.firmwareWatchdogReset b) else modFw s b (fun x => { x with missed := x.missed + 1 })) := by
  show execHeartbeat b false s = _
  unfold execHeartbeat
  simp only [h, hf]
  rfl

/-- A block that its watchdog has reset. -/
def resetBlock (f : FwState) : FwState := { f with state := .held, missed := 0 }

/-- The state after a block has been reset; the homes of a stack engine lose what is in progress there. -/
def afterReset (s : State) (b : FwBlock) : State :=
  match b with
  | .stackEngine k => loseHomes s k
  | _ => s

theorem exec_watchdogReset (h : findFw s b = some f) (hf : f.state = .ready) (hm : 2 ≤ f.missed) :
    exec (.firmwareWatchdogReset b) s = .next (afterReset (verifyBlock (modFw s b resetBlock) b) b) := by
  have hstays : ¬(f.missed < 2 ∨ f.state ≠ .ready) := fun hr => hr.elim (Nat.not_lt.2 hm) (· hf)
  show execFirmwareWatchdogReset b s = _
  unfold execFirmwareWatchdogReset
  simp only [h, if_neg hstays]
  cases b <;> rfl

theorem loseHomes_keeps (s : State) (k : Nat) :
    (loseHomes s k).firmware = s.firmware ∧ ∀ e ∈ s.agenda, e ∈ (loseHomes s k).agenda := by
  unfold loseHomes
  extract_lets way waits moved
  exact foldl_induction (motive := fun t : State => t.firmware = s.firmware ∧ ∀ e ∈ s.agenda, e ∈ t.agenda)
    (fun t r ht => ⟨ht.1, fun e he => List.mem_append_left _ (ht.2 e he)⟩) ⟨rfl, fun _ h => h⟩

theorem watchdogReset_holds {i : Image} (h : findFw s b = some f) (hf : f.state = .ready) (hm : 2 ≤ f.missed) (hi : flashImage s b = some i) :
    ∃ (t : State) (g : FwState), exec (.firmwareWatchdogReset b) s = .next t ∧ findFw t b = some g ∧ g.state = .held ∧ g.missed = 0 ∧
      Event.imageVerify b i ∈ t.agenda ∧
      ((∀ k, b ≠ .stackEngine k) → t.queues = s.queues ∧ t.homes = s.homes ∧ t.cores = s.cores ∧ t.fq = s.fq) := by
  have hverify : verifyBlock (modFw s b resetBlock) b = push (modFw s b resetBlock) (.imageVerify b i) := by
    unfold verifyBlock
    rw [show flashImage (modFw s b resetBlock) b = some i from hi]
  have hexec := exec_watchdogReset h hf hm
  rw [hverify] at hexec
  have hfind : findFw (push (modFw s b resetBlock) (.imageVerify b i)) b = some (resetBlock f) :=
    findFw_modFw (s := s) (g := resetBlock) (fun _ => rfl) h
  have hsent : Event.imageVerify b i ∈ (push (modFw s b resetBlock) (.imageVerify b i)).agenda :=
    List.mem_append_right _ (List.mem_singleton.2 rfl)
  refine ⟨_, resetBlock f, hexec, ?_⟩
  cases b with
  | stackEngine k =>
    obtain ⟨hfw, hagenda⟩ := loseHomes_keeps (push (modFw s (.stackEngine k) resetBlock) (.imageVerify (.stackEngine k) i)) k
    exact ⟨(congrArg (List.find? _) hfw).trans hfind, rfl, rfl, hagenda _ hsent, fun hk => absurd rfl (hk k)⟩
  | foreman d => exact ⟨hfind, rfl, rfl, hsent, fun _ => ⟨rfl, rfl, rfl, rfl⟩⟩
  | frontEnd => exact ⟨hfind, rfl, rfl, hsent, fun _ => ⟨rfl, rfl, rfl, rfl⟩⟩

/-! ### Replacement (R400, R576) -/

theorem giveMode_of_none (h : s.feSaved = none) (b : FwBlock) : giveMode s b = s := by
  unfold giveMode
  rw [h]

/-- The end of a replacement gives the front end its mode bits back, and changes nothing else (R400). -/
theorem giveMode_keeps (s : State) (b : FwBlock) :
    (giveMode s b).firmware = s.firmware ∧ (giveMode s b).replacements = s.replacements ∧
      (giveMode s b).feMode = (if b = .frontEnd then s.feSaved.getD s.feMode else s.feMode) ∧ (giveMode s b).queues = s.queues ∧
      (giveMode s b).cores = s.cores := by
  unfold giveMode
  cases hv : s.feSaved with
  | none => exact ⟨rfl, rfl, (ite_self s.feMode).symm, rfl, rfl⟩
  | some v =>
    dsimp only
    split
    · exact ⟨rfl, rfl, rfl, rfl, rfl⟩
    · exact ⟨rfl, rfl, rfl, rfl, rfl⟩

theorem firmwareReplace_of_refused (ha : acceptsImage s b img = false) (hs : s.feSaved = none) : exec (.firmwareReplace b img) s = .next s :=
  (if_pos (by simp [ha])).trans (congrArg _ (giveMode_of_none hs b))

section

variable (h : findFw s b = some f) (hf : f.state = .ready) (ha : acceptsImage s b img = true)
include h hf ha

theorem firmwareReplace_of_busy (hq : fwQuiet s b = false) (hs : s.feSaved = none) :
    exec (.firmwareReplace b img) s =
      .next (push (if b = .frontEnd then { s with feSaved := some s.feMode, feMode := 0 } else s) (.firmwareReplace b img)) := by
  have hhold : holdMode s b = if b = .frontEnd then { s with feSaved := some s.feMode, feMode := 0 } else s := by
    unfold holdMode
    simp [hs]
  refine (if_neg (by simp [fwIs_of_findFw h, hf, ha])).trans ((if_pos (by simp [hq])).trans ?_)
  rw [hhold]
  rfl

/-- A block with the image that replaces its firmware. -/
def replacedBlock (img : Image) (f : FwState) : FwState := { f with measurement := img.digest, svn := img.svn, missed := 0 }

theorem firmwareReplace_of_quiet (hq : fwQuiet s b = true) :
    ∃ (t : State) (g : FwState), exec (.firmwareReplace b img) s = .next t ∧ findFw t b = some g ∧ g.state = .ready ∧
      g.measurement = img.digest ∧ t.replacements = s.replacements + 1 ∧ t.feMode = (if b = .frontEnd then s.feSaved.getD s.feMode else s.feMode) ∧ t.queues = s.queues ∧
      t.cores = s.cores := by
  have hfind := findFw_modFw (s := s) (g := replacedBlock img) (fun _ => rfl) h
  refine ⟨_, replacedBlock img f, (if_neg (by simp [fwIs_of_findFw h, hf, ha])).trans (if_neg (by simp [hq])), ?_, hf, rfl, ?_⟩
  · exact (congrArg (List.find? (fun x : FwState => x.blk == b)) (giveMode_keeps ..).1).trans hfind
  · obtain ⟨-, hcount, hmode, hqueues, hcores⟩ := giveMode_keeps (modFw s b (replacedBlock img)) b
    exact ⟨congrArg (· + 1) hcount, hmode, hqueues, hcores⟩

end

/-! ### Lowest versions (R571) -/

theorem minSvnRaise_of_signed {target svn : Nat} (h : tabGet 0 s.minSvn target < svn) :
    ∃ t : State, exec (.minSvnRaise target svn true) s = .next t ∧ tabGet 0 t.minSvn target = svn ∧
      ∀ o, o ≠ target → tabGet 0 t.minSvn o = tabGet 0 s.minSvn o :=
  ⟨{ s with minSvn := tabSet s.minSvn target svn }, if_pos ⟨rfl, h⟩, tabGet_tabSet_self .., fun _ ho => tabGet_tabSet_ne _ _ _ _ _ ho⟩

theorem minSvnRaise_of_unsigned {target svn : Nat} : exec (.minSvnRaise target svn false) s = .next s := by
  have hunsigned : ¬(false = true ∧ tabGet 0 s.minSvn target < svn) := fun h => absurd h.1 (by decide)
  show execMinSvnRaise target svn false s = _
  unfold execMinSvnRaise
  exact if_neg hunsigned

end

/-- Settles O47. What POWER_ON keeps of the memory outside the module is log 71. -/
theorem bringUp : Obligations.BringUp := by
  unfold Obligations.BringUp
  refine fun s b img flash target svn nonce f => ⟨powerOn_holds s flash, acceptsImage_iff, fun h => ⟨imageVerify_of_unheld h,
    fun hf => ⟨fun ha => ?_, fun ha => ?_⟩, blockReady_unlocks h, fun hf => ⟨heartbeat_of_answered h hf, fun hm => ?_, fun hm => ?_,
    fun i => watchdogReset_holds h hf, firmwareReplace_of_refused, firmwareReplace_of_busy h hf, firmwareReplace_of_quiet h hf⟩⟩,
    minSvnRaise_of_signed, fun hle => if_neg fun hand => Nat.not_lt.2 hle hand.2, minSvnRaise_of_unsigned,
    ⟨_, _, rfl, rfl, rfl, rfl, rfl, rfl⟩⟩
  · exact ⟨_, _, imageVerify_of_accepted h hf ha, findFw_modFw (s := s) (g := acceptedBlock img) (fun _ => rfl) h, rfl, rfl, rfl, rfl⟩
  · exact ⟨_, _, imageVerify_of_refused h hf ha, findFw_advanceStages (findFw_failBlock h) (by simp) fwStages, rfl, rfl⟩
  · exact (heartbeat_of_missed h hf).trans (by rw [hm]; rfl)
  · exact ⟨_, heartbeat_of_missed h hf, by rw [hm]; rfl⟩

end Sys2Proof.Machine
end
